-- ==== Sys2Proof/Word.lean ====
section
/-!
DEFINITION. The word types of the part and their plainest arithmetic: the widths the chapters name, and
counters that wrap or saturate.
-/

namespace Sys2Proof

/-- One byte. -/
abbrev Byte := BitVec 8
abbrev W16 := BitVec 16
abbrev W24 := BitVec 24
abbrev W32 := BitVec 32
/-- A Slazer word (R338): 48 bits. -/
abbrev W48 := BitVec 48
abbrev W64 := BitVec 64

/-- One more on a counter that wraps. -/
def wrapInc {w : Nat} (c : BitVec w) : BitVec w := c + 1#w

/-- `n` more on a counter that wraps. -/
def wrapAdd {w : Nat} (c : BitVec w) (n : Nat) : BitVec w := c + BitVec.ofNat w n

/-- `n` more on a counter that stays at its largest value. -/
def satAdd {w : Nat} (c : BitVec w) (n : Nat) : BitVec w :=
  if c.toNat + n < 2 ^ w then BitVec.ofNat w (c.toNat + n) else BitVec.allOnes w

/-- One more on a counter that stays at its largest value. -/
def satInc {w : Nat} (c : BitVec w) : BitVec w := satAdd c 1

/-- One bit as a Bool-valued flag turned into a bit vector of one bit. -/
def bit1 (b : Bool) : BitVec 1 := BitVec.ofBool b

end Sys2Proof
end

