-- ==== Sys2Proof/Machine/Bits.lean ====
section
/-!
DEFINITION. Bit fields, byte orders, the CRC-32 of R100 and lists of bytes: the plain helpers every
chapter's formats use.
-/

namespace Sys2Proof

/-- Bits `lo .. lo+n-1` of `x` as a number. -/
def fieldN (x lo n : Nat) : Nat := x / 2 ^ lo % 2 ^ n

/-- Bit `i` of `x`. -/
def bitN (x i : Nat) : Bool := x / 2 ^ i % 2 == 1

/-- Bits `lo .. lo+n-1` of a word, as a word of `n` bits. -/
def field {w : Nat} (x : BitVec w) (lo n : Nat) : BitVec n := BitVec.ofNat n (x.toNat / 2 ^ lo)

/-- A number placed at bit `lo` in `n` bits. -/
def put (v lo n : Nat) : Nat := v % 2 ^ n * 2 ^ lo

/-- A flag placed at bit `lo`. -/
def putB (b : Bool) (lo : Nat) : Nat := if b then 2 ^ lo else 0

/-- The word whose fields are the sum of the placed values (the fields do not overlap). -/
def pack (w : Nat) (parts : List Nat) : BitVec w := BitVec.ofNat w (parts.foldl (· + ·) 0)

/-- The `n` bytes of `v`, least significant first. -/
def leBytes : Nat → Nat → List Byte
  | 0, _ => []
  | n + 1, v => BitVec.ofNat 8 v :: leBytes n (v / 256)

/-- The value of bytes, least significant first. -/
def leVal : List Byte → Nat
  | [] => 0
  | b :: bs => b.toNat + 256 * leVal bs

/-- The value of bytes, most significant first (network order). -/
def beVal (bs : List Byte) : Nat := bs.foldl (fun a b => a * 256 + b.toNat) 0

/-- The `n` bytes of `v`, most significant first. -/
def beBytes (n v : Nat) : List Byte := (leBytes n v).reverse

/-- Bytes `at .. at+n-1`; bytes beyond the list read 0. -/
def slice (bs : List Byte) (start n : Nat) : List Byte :=
  let t := (bs.drop start).take n
  t ++ List.replicate (n - t.length) 0#8

/-- The list with the bytes from `start` on replaced by `v`, for the places that the list has. -/
def patch (bs : List Byte) (start : Nat) (v : List Byte) : List Byte :=
  if bs.length < start then bs
  else bs.take start ++ v.take (bs.length - start) ++ bs.drop (start + v.length)

/-- One bit step of the reflected CRC-32 (polynomial 0xEDB8_8320 when the bit order is reflected). -/
def crcBit (c : W32) : W32 :=
  if c.getLsbD 0 then (c >>> 1) ^^^ 0xEDB88320#32 else c >>> 1

/-- One byte of the CRC-32. -/
def crcByte (c : W32) (b : Byte) : W32 :=
  crcBit (crcBit (crcBit (crcBit (crcBit (crcBit (crcBit (crcBit (c ^^^ b.setWidth 32))))))))

/-- The CRC-32 over bytes from a register value, without final inversion. -/
def crcFrom (c : W32) (bs : List Byte) : W32 := bs.foldl crcByte c

/-- The CRC-32 of R100: initial value all ones, and final inversion. -/
def crc32 (bs : List Byte) : W32 := ~~~ crcFrom 0xFFFFFFFF#32 bs

/-- Ceiling division. -/
def cdiv (a b : Nat) : Nat := (a + b - 1) / b

/-- The greatest of a list, or 0. -/
def maxOf (l : List Nat) : Nat := l.foldl max 0

/-- The sum of a list. -/
def sumOf (l : List Nat) : Nat := l.foldl (· + ·) 0

/-- A signed reading of `n` bits. -/
def signedOf (n v : Nat) : Int := if v % 2 ^ n < 2 ^ (n - 1) then (v % 2 ^ n : Int) else (v % 2 ^ n : Int) - 2 ^ n

/-- An integer as `n` bits, two's complement. -/
def toTwos (n : Nat) (i : Int) : BitVec n := BitVec.ofInt n i

end Sys2Proof
end

