-- ==== Sys2Proof/Machine/Tbl.lean ====
section
/-!
DEFINITION. Sparse tables: lists of a key and a value in one canonical form, keys strictly rising, and,
where the table has a value for unlisted keys, no entry equal to that value.
-/

namespace Sys2Proof

/-- A sparse table over natural keys. -/
abbrev Tbl (α : Type) := List (Nat × α)


/-- The value listed at a key. -/
def tget {α : Type} : Tbl α → Nat → Option α
  | [], _ => none
  | (k, v) :: t, i => if k = i then some v else tget t i

/-- The value at a key, or `d` where the table lists none. -/
def tgetD {α : Type} (t : Tbl α) (i : Nat) (d : α) : α := (tget t i).getD d

/-- The table without the entry at a key. -/
def tdel {α : Type} : Tbl α → Nat → Tbl α
  | [], _ => []
  | (k, v) :: t, i => if k = i then t else (k, v) :: tdel t i

/-- The table with a value at a key; the order of keys is kept. -/
def tset {α : Type} : Tbl α → Nat → α → Tbl α
  | [], i, x => [(i, x)]
  | (k, v) :: t, i, x =>
    if i < k then (i, x) :: (k, v) :: t
    else if k = i then (i, x) :: t
    else (k, v) :: tset t i x

/-- A write to a table whose unlisted keys read as `d`: writing `d` removes the entry. -/
def tput {α : Type} [DecidableEq α] (d : α) (t : Tbl α) (i : Nat) (x : α) : Tbl α :=
  if x = d then tdel t i else tset t i x

/-- The entry at a key changed by `f`, from `d` where none is listed. -/
def tmod {α : Type} (d : α) (t : Tbl α) (i : Nat) (f : α → α) : Tbl α := tset t i (f (tgetD t i d))

/-- The entry at a key changed by `f`, where one is listed. -/
def tadj {α : Type} (t : Tbl α) (i : Nat) (f : α → α) : Tbl α :=
  match tget t i with
  | some v => tset t i (f v)
  | none => t

/-- Every value of the table changed by `f`. -/
def tmap {α : Type} (t : Tbl α) (f : Nat → α → α) : Tbl α := t.map (fun e => (e.1, f e.1 e.2))

/-- The entries that `p` keeps. -/
def tfilter {α : Type} (t : Tbl α) (p : Nat → α → Bool) : Tbl α := t.filter (fun e => p e.1 e.2)

/-- Whether the table lists a key. -/
def thas {α : Type} (t : Tbl α) (i : Nat) : Bool := (tget t i).isSome

/-- The keys strictly rise, from above `lo` where a bound is given. -/
def trising {α : Type} : Option Nat → Tbl α → Bool
  | _, [] => true
  | none, (k, _) :: t => trising (some k) t
  | some b, (k, _) :: t => decide (b < k) && trising (some k) t

/-- The canonical form: keys strictly rising and no entry equal to `d`. -/
def twf {α : Type} [DecidableEq α] (d : α) (t : Tbl α) : Bool :=
  trising none t && t.all (fun e => decide (e.2 ≠ d))

/-- The lowest natural number below `n` that `p` holds for. -/
def firstBelow (n : Nat) (p : Nat → Bool) : Option Nat := (List.range n).find? p

end Sys2Proof
end

