-- ==== Sys2Proof/Machine/Types/Flt.lean ====
section
/-!
DEFINITION. The data of "Faults, Reactions and Security Alarms": classes, subjects, first-error records,
fault records, and the state of the fault collector (FLT) and of the security domain (SEC).
-/

namespace Sys2Proof

/-- The fault classes of R551. -/
inductive FaultClass where
  | optionCopyBad | optionBytesBad | recipeFallback | recipeNone | supervisorWatchdog | clockLockLoss
  | junctionHigh | junctionCritical | linkDegraded | txUnderrun | txUnderrunLimit | macroPllLoss
  | mirrorHalfDown | tableEcc | tableEntryLost | flowEntryLost | dupAddress | hbmChannelFail
  | hbmSpareExhausted | hbmShed | ledgerConservation | ledgerPartialLost | ledgerTotalLost
  | engineThreadFault | slotOverrun | engineSparesExhausted | sharedMemLost | engineBistFail
  | engineTableWrite | cipherUnitFail | slabReserveExhausted | entropyStartup | entropyHealth
  | hostIfInternal | dmaBusError | storagePathDown | storageNsMismatch | timeRefLoss | holdoverExpired
  | pairTakeover | pairColdTakeover | pairOutOfStep | pairConfigMismatch
  | alarmMesh | alarmVoltage | alarmClock | alarmTemperature | alarmVbat
  deriving DecidableEq, Repr

/-- The subject layouts of R552. -/
inductive SubjKind where
  | u | c | k | h | t | n
  deriving DecidableEq, Repr

/-- One row of R551: code, level, whether escalation applies, subject layout. CLOCK_LOCK_LOSS and
LINK_DEGRADED take their level from R557 and R155; the row holds the lowest. -/
structure ClassRow where
  code : Nat
  level : Nat
  esc : Bool
  subj : SubjKind
  deriving DecidableEq, Repr

/-- A first-error record (R554). -/
structure Capture where
  valid : Bool
  injected : Bool
  access : Byte
  checker : W16
  masterUnit : Byte
  space : Byte
  masterSub : W16
  address : W64
  cause : Byte
  count : W16
  tick : W64
  sub : BitVec 15
  deriving DecidableEq, Repr

/-- The capture of a report from firmware (R553): VALID 0 and ACCESS 0x0E. -/
def Capture.firmware : Capture :=
  { valid := false, injected := false, access := 0x0E#8, checker := 0#16, masterUnit := 0#8, space := 0#8,
    masterSub := 0#16, address := 0#64, cause := 0#8, count := 0#16, tick := 0#64, sub := 0#15 }

/-- A capture with every field 0, as a record has before its first error. -/
def Capture.blank : Capture :=
  { valid := false, injected := false, access := 0#8, checker := 0#16, masterUnit := 0#8, space := 0#8,
    masterSub := 0#16, address := 0#64, cause := 0#8, count := 0#16, tick := 0#64, sub := 0#15 }

/-- A report to the collector: class, subject, the level its raising rule gives it (R551, R557, R155), the
capture of its checker, whether FLT_FORCE raised it, and the class-specific DETAIL (R565). -/
structure Report where
  cls : FaultClass
  subj : W32
  level : Nat
  cap : Capture
  forced : Bool
  detail : BitVec 256
  /-- The beat, counted from tick 0, in which the checker sent it; that of a report that a command names is the command's. -/
  since : Nat
  deriving DecidableEq, Repr

/-- KIND of a fault record (R564). -/
inductive RecKind where
  | fault | ack | summary | reset
  deriving DecidableEq, Repr

/-- TAKEOVER of a fault record (R564). -/
inductive TakeoverReq where
  | notRequested | requested | unanswered
  deriving DecidableEq, Repr

/-- A fault record (R564). CRC and SEQ_END are computed when its image is read or written. `cls` is the
class code; a RESET record without a cause has 0. -/
structure FaultRecord where
  seq : W32
  kind : RecKind
  level : Nat
  escalated : Bool
  injected : Bool
  forced : Bool
  acked : Bool
  cls : W16
  index : Byte
  takeover : TakeoverReq
  subject : W32
  firstTick : W64
  lastTick : W64
  count : W32
  bootEpoch : W24
  capture : Capture
  detail : BitVec 256
  lost : W32
  refSeq : W32
  writeTick : W64
  journaled : Bool
  deriving DecidableEq, Repr

/-- One override of ALARM_POLICY (R579): how far the level rises, and what becomes of escalation. -/
structure PolicyOverride where
  cls : FaultClass
  raise : Nat
  escalate : Nat
  deriving DecidableEq, Repr

/-- What the collector keeps of journal entries lost to a full ring (R575). -/
structure RingLoss where
  cls : W16
  level : Nat
  firstTick : W64
  lastTick : W64
  count : W32
  refSeq : W32
  deriving DecidableEq, Repr

/-- An L2 or higher record whose containment takes effect at the next boundary (R557, R560). -/
structure Containment where
  cls : FaultClass
  subj : W32
  level : Nat
  deriving DecidableEq, Repr

/-- The state of the fault collector, block FLT. -/
structure Flt where
  /-- Reports detected and not yet taken by the collector (R553). -/
  inbox : List Report
  /-- The 256 places of the store (R563). -/
  store : Tbl FaultRecord
  /-- SEQ given to the last record of any kind. -/
  lastAnySeq : W32
  /-- SEQ of FLT_STAT: that of the last record opened. -/
  lastOpenSeq : W32
  dropped : Byte
  forceRefused : Byte
  fltNLevel : Bool
  irqLevel : BitVec 3
  journalLevel : BitVec 3
  l4Action : Bool
  pulses : W16
  /-- Tick and beat at which the FLT_N pulse in progress ends (R567). -/
  pulseEnd : Option (Nat × Nat)
  /-- The beat, counted from tick 0, from which it is driven low. -/
  pulseFrom : Nat
  /-- FLT_N held low until reset (R558). -/
  holdLow : Bool
  recSel : Byte
  ackStatus : Byte
  ackCount : Byte
  chkUnit : Byte
  chkNumber : W16
  /-- First-error records by unit × 65,536 + checker (R554, R555). -/
  checkers : Tbl Capture
  injUnit : Byte
  injChecker : W16
  injMode : BitVec 2
  injArm : Bool
  forceClass : W16
  forceSubject : W32
  /-- Level raises and escalation switches of the applied ALARM_POLICY (R579, R580). -/
  overrides : List PolicyOverride
  /-- Containments due at the next boundary (R560). -/
  contain : List Containment
  /-- Journal entries waiting (R575). -/
  ring : List FaultRecord
  ringLost : W16
  ringLoss : Option RingLoss
  lastWrittenSeq : W32
  erasing : Bool
  /-- The journal place written next, counted from sector 2 (R572). -/
  nextPlace : Nat
  /-- Store place of the L4 record that waits for a fault-driven reset, and the tick and beat at which it
  is due at the latest (R560). -/
  resetDue : Option (W32 × Nat × Nat)
  /-- A RECOVER acknowledgement that takes effect at the next boundary (R569). -/
  recover : Bool
  /-- Die sensors above 105 °C, below and above 115 °C: the readings in °C, two's complement of 10 bits. -/
  sensors : Tbl (BitVec 10)
  deriving DecidableEq, Repr

/-- Policy of an alarm class (R577). -/
inductive AlarmPolicy where
  | log | alarm | erase
  deriving DecidableEq, Repr

/-- The five alarm classes of R576, in index order. -/
inductive AlarmKind where
  | mesh | voltage | clock | temperature | vbat
  deriving DecidableEq, Repr

/-- One alarm class's state. -/
structure AlarmState where
  cause : Bool
  latched : Bool
  /-- The latched detection drives ALRM_N (R578). -/
  drive : Bool
  policy : AlarmPolicy
  /-- The policy kept in VBAT-backed storage (R580). -/
  stored : Option AlarmPolicy
  deriving DecidableEq, Repr

/-- The state of the security domain, block SEC, with its VBAT-backed storage. -/
structure Sec where
  mesh : AlarmState
  voltage : AlarmState
  clock : AlarmState
  temperature : AlarmState
  vbat : AlarmState
  /-- The VBAT-backed store holds valid content. -/
  vbatValid : Bool
  /-- The tick mark of R57, in VBAT-backed storage. -/
  tickMark : W64
  /-- The flag of R558, in VBAT-backed storage. -/
  refLossFlag : Bool
  /-- The boot epoch copy in VBAT-backed storage (R596). -/
  vbatEpoch : W24
  /-- VBAT was lost, and no start has journaled it since (R573). -/
  vbatLoss : Bool
  /-- Hottest die sensor in °C, two's complement. -/
  junction : BitVec 10
  deriving DecidableEq, Repr

end Sys2Proof
end

