-- ==== Sys2Proof/Machine/Types/Ldg.lean ====
section
/-!
DEFINITION. The data of "The Ledger: Exact Accounting": counters, conservation tallies and mismatch records,
cuts and their buffers, flow records; and the requesters that keep latches of their own (R58).
-/

namespace Sys2Proof

/-- The requesters of registers (R58, R606). -/
inductive Requester where
  | hp0 | hp1 | sup
  deriving DecidableEq, Repr

/-- One value per requester. -/
structure PerReq (α : Type) where
  hp0 : α
  hp1 : α
  sup : α
  deriving DecidableEq, Repr

def PerReq.get {α : Type} (p : PerReq α) : Requester → α
  | .hp0 => p.hp0
  | .hp1 => p.hp1
  | .sup => p.sup

def PerReq.set {α : Type} (p : PerReq α) (r : Requester) (v : α) : PerReq α :=
  match r with
  | .hp0 => { p with hp0 := v }
  | .hp1 => { p with hp1 := v }
  | .sup => { p with sup := v }

/-- One slot of a counter (R278): a 24-bit packet partial and a 40-bit byte partial. -/
structure Slot where
  p : W24
  b : BitVec 40
  deriving DecidableEq, Repr

/-- A ledger counter (R278, R287): its HBM total, its two slots, and the carries that wait in the carry
store for its cut copy. -/
structure Ctr where
  totP : W64
  totB : W64
  s0 : Slot
  s1 : Slot
  heldP : Nat
  heldB : Nat
  deriving DecidableEq, Repr

def Ctr.zero : Ctr := { totP := 0#64, totB := 0#64, s0 := ⟨0#24, 0#40⟩, s1 := ⟨0#24, 0#40⟩, heldP := 0, heldB := 0 }

/-- The per-tick tallies of one unit (R294) and the crumb buffer's occupancy of it. -/
structure Tally where
  arr : Nat
  rep : Nat
  xin : Nat
  xout : Nat
  dep : Nat
  drop : Nat
  /-- OCC[u] now, and at the end of the tick before. -/
  occ : Int
  occStart : Int
  deriving DecidableEq, Repr

def Tally.zero : Tally := { arr := 0, rep := 0, xin := 0, xout := 0, dep := 0, drop := 0, occ := 0, occStart := 0 }

/-- A mismatch record (R296), as its registers show it. -/
structure Mismatch where
  tick : W64
  arrivals : W32
  replicas : W32
  xferIn : W32
  xferOut : W32
  departures : W32
  drops : W32
  occStart : W32
  occEnd : W32
  diff : W32
  later : W16
  valid : Bool
  deriving DecidableEq, Repr

def Mismatch.blank : Mismatch :=
  { tick := 0#64, arrivals := 0#32, replicas := 0#32, xferIn := 0#32, xferOut := 0#32, departures := 0#32,
    drops := 0#32, occStart := 0#32, occEnd := 0#32, diff := 0#32, later := 0#16, valid := false }

/-- The kinds of cut, in rank order (R298). -/
inductive CutKind where
  | periodic | demand | pair | domain
  deriving DecidableEq, Repr

/-- A scheduled cut (R301). `partnerOk` is the partner's answer to a PAIR cut (R304). -/
structure CutReq where
  kind : CutKind
  summary : Bool
  tick : Nat
  tag : W64
  id : W32
  partnerOk : Bool
  deriving DecidableEq, Repr

/-- The record of a cut (R303). -/
structure CutRecord where
  state : Nat
  kind : CutKind
  summary : Bool
  id : W32
  tick : W64
  unitMismatch : BitVec 17
  transferMismatch : Bool
  pairIncomplete : Bool
  untraceable : Bool
  stepped : Bool
  loss : Bool
  shed : Bool
  version : BitVec 4
  device : BitVec 11
  sideB : Bool
  readyTick : W64
  generation : W32
  count : Nat
  buffer : Nat
  tag : W64
  bootEpoch : W24
  deriving DecidableEq, Repr

/-- A cut buffer CB0 to CB3 (R302). `content` lists the counters that are not zero; `written` is the order in
which the buffers were last taken, 0 for never. -/
structure CutBuf where
  state : Nat
  held : Bool
  reading : Nat
  record : Option CutRecord
  content : Tbl (W64 × W64)
  written : Nat
  deriving DecidableEq, Repr

def CutBuf.empty : CutBuf :=
  { state := 0, held := false, reading := 0, record := none, content := [], written := 0 }

/-- A flow record (R291). -/
structure FlowRecord where
  index : BitVec 27
  tenant : W16
  cls : Byte
  kind : Nat
  counters : W64
  carried : BitVec 2
  seq : W32
  tick : W64
  deriving DecidableEq, Repr

/-- The frozen cut whose copy has not ended (R299). -/
structure CutRun where
  req : CutReq
  buffer : Nat
  freezeTick : Nat
  started : Bool
  /-- The index below which every counter in scope is copied (R299). -/
  next : Nat
  deriving DecidableEq, Repr

/-- The state of the ledger, block LDG. -/
structure Ldg where
  ctrs : Tbl Ctr
  parityMain : Bool
  paritySummary : Bool
  /-- Tallies of the units U0 to U16 (R294). -/
  tallies : Tbl Tally
  mismatch : Tbl Mismatch
  /-- The failures of this beat, which a rearm in it leaves (R296). -/
  fresh : Tbl Mismatch
  mismatches : W32
  checked : W32
  /-- Units whose check failed in the closing tick, for the cut record; 17 for the transfer balance. -/
  failed : List Nat
  scheduled : List CutReq
  running : Option CutRun
  bufs : Tbl CutBuf
  takes : Nat
  nextCutId : W32
  lastReadyId : W32
  skipped : W16
  aborted : W16
  reqTick : W64
  reqTag : W64
  reqSummary : Bool
  reqPair : Bool
  reqStatus : Byte
  reqCutId : W32
  periodLog2 : BitVec 5
  periodSummary : Bool
  /-- A loss under R308 since the last cut. -/
  loss : Bool
  rdIdx : PerReq (BitVec 22)
  rdPkts : PerReq W64
  rdBytes : PerReq W64
  carries : W32
  sweeps : W32
  eccCorrected : W16
  lost : W16
  flowQueue : W16
  flowToEvents : Bool
  flowLost : W16
  flowSeq : W32
  flowRing : List FlowRecord
  deriving DecidableEq, Repr

end Sys2Proof
end

