-- ==== Sys2Proof/Machine/Types/Tmb.lean ====
section
/-!
DEFINITION. The data of "The Tick" and "Timebase and Timestamps": the tick and beat, the time sources, the
timing pins and the registers of block TMB; and the slot tables with their banks and migrations.
-/

namespace Sys2Proof

/-- The sources of R319. -/
inductive TimeSource where
  | freeRun | partner | refPps | ptp | domain | tickIn | holdover
  deriving DecidableEq, Repr

/-- The source code of R319. -/
def TimeSource.code : TimeSource → Nat
  | .freeRun => 0 | .partner => 1 | .refPps => 2 | .ptp => 3 | .domain => 4 | .tickIn => 5 | .holdover => 6

/-- What the timebase keeps of one source (R319, R320). `offset` is the source's time minus local time in
hundredths of a SUB step. -/
structure SourceState where
  qualified : Bool
  /-- Tick at which it last qualified. -/
  since : Nat
  /-- It was lost before, so that R320's 10,000,000 ticks apply. -/
  lostBefore : Bool
  traceable : Bool
  offset : Int
  /-- Consecutive good edges, exchanges or Sync intervals. -/
  good : Nat
  /-- The last edge, in SUB steps of local time. -/
  lastEdge : Option Nat
  /-- The slews made until then, in hundredths of a SUB step. -/
  edgeSlew : Int
  /-- The source's own time of the last edge, in SUB steps, once a seconds value was consumed (R329). -/
  edgeTime : Option Int
  deriving DecidableEq, Repr

def SourceState.blank : SourceState :=
  { qualified := false, since := 0, lostBefore := false, traceable := false, offset := 0, good := 0, lastEdge := none,
    edgeSlew := 0, edgeTime := none }

/-- A time stamp in the TICKSUB form (R313). -/
structure Stamp where
  tick : Nat
  sub : Nat
  deriving DecidableEq, Repr

/-- A stamp as a count of SUB steps. -/
def Stamp.steps (t : Stamp) : Nat := t.tick * 32000 + t.sub

/-- The state of the timebase, block TMB. -/
structure Tmb where
  tick : W64
  /-- Beat of the tick, 0 to 1,599 (R53). -/
  beat : Nat
  traceable : Bool
  stepCount : Byte
  tickHi : PerReq W32
  prio0 : BitVec 4
  prio1 : BitVec 4
  prio2 : BitVec 4
  prio3 : BitVec 4
  revertive : Bool
  traceLimit : W16
  selected : TimeSource
  partner : SourceState
  refPps : SourceState
  ptp : SourceState
  domain : SourceState
  tickIn : SourceState
  leader : Bool
  baseRefTime : Bool
  slewFast : Bool
  switches : W32
  maxTicks : W32
  elapsed : W32
  /-- Steering of the last ticks, newest first, at most 1,000 (R325). -/
  steer : List Int
  /-- All slews made, in hundredths of a SUB step. -/
  slewed : Int
  todSeconds : BitVec 48
  todArmed : Bool
  /-- Tick and beat of the write that armed it (R329). -/
  todTick : Nat
  todBeat : Nat
  ppsWidth : BitVec 20
  ppsOutMode : BitVec 2
  tickOutEn : Bool
  ppsOut : Bool
  ppsRise : Nat
  tickOut : Bool
  /-- The last rising edges of PPS_OUT and TICK_OUT at the pins, in SUB steps of local time (R315, R328). -/
  ppsEdge : Int
  tickEdge : Int
  ppsInDelay : W16
  tickInDelay : W16
  outAdvance : W16
  mirAsym : W16
  refLosses : W16
  expiries : W16
  jumps : Byte
  todRejects : Byte
  tsEditSkips : Byte
  utcOffset : W16
  utcValid : Bool
  snapTick : W64
  snapSub : BitVec 15
  /-- Timestamp records of frames the Supervisor sent, of 16 bytes (R318), oldest first. -/
  supRecords : List (List Byte)
  deriving DecidableEq, Repr

/-- A bank of a slot table (R66): N = 2^ringLog2 pages, each a sparse table of rows of 64-bit entries. -/
structure Bank where
  ringLog2 : Nat
  pages : List (Tbl (List W64))
  deriving DecidableEq, Repr

def Bank.empty : Bank := { ringLog2 := 0, pages := [[]] }

/-- A unit move of R85: `lost` is served by `spare`. -/
structure Move where
  lost : Nat
  spare : Nat
  deriving DecidableEq, Repr

/-- Why a unit leaves service (R85). -/
inductive MoveCause where
  | lost | test
  deriving DecidableEq, Repr

/-- One slot table (R64, R66, R75, R77). Rows: CPH cores 0-127 and GF units 128-191; ENG 8k + t; QUE 0 and 1. -/
structure SlotTable where
  bank0 : Bank
  bank1 : Bank
  active1 : Bool
  /-- Activation tick of the pending bank. -/
  pending : Option Nat
  /-- Activation tick last given, as ACT_LO and ACT_HI show it. -/
  actTick : W64
  actHi : PerReq W32
  page : Nat
  shedDefer : Bool
  migCount : W32
  replayCount : W32
  /-- Channel served by each pool's previous slot (R71). -/
  poolLast : Tbl Nat
  /-- The migration map in force. -/
  moves : List Move
  /-- Units whose migration is due at the next boundary. -/
  due : List (Nat × MoveCause)
  /-- Of them, those that a boundary has already put off: their slots stay idle (R86). -/
  held : List Nat
  deriving DecidableEq, Repr

def SlotTable.empty : SlotTable :=
  { bank0 := Bank.empty, bank1 := Bank.empty, active1 := false, pending := none, actTick := 0#64,
    actHi := ⟨0#32, 0#32, 0#32⟩, page := 0, shedDefer := false, migCount := 0#32, replayCount := 0#32,
    poolLast := [], moves := [], due := [], held := [] }

end Sys2Proof
end

