-- ==== Sys2Proof/Machine/Types/Lnm.lean ====
section
/-!
DEFINITION. The data of "Line Macros, Ports and MAC": the port map, ports, lanes and macros, block LNM.
-/

namespace Sys2Proof

/-- Who waits for a completion: an admin command by endpoint and CID, the sideband, the pair plan, or none. -/
inductive Waiter where
  | admin (ep : Nat) (cid : Nat)
  | sideband
  | plan
  | none_
  deriving DecidableEq, Repr

/-- A port map entry (R140). -/
structure PortMapEntry where
  port : Nat
  lanes : Nat
  laneRate : Nat
  fec : Nat
  anEn : Bool
  ltEn : Bool
  degradeAction : Bool
  adminUp : Bool
  maxFrame : Nat
  txStart : Nat
  degradeSet : W16
  degradeClear : W16
  txInvert : Byte
  rxInvert : Byte
  txPreset : Nat
  deriving DecidableEq, Repr

/-- The port states of R142. -/
inductive PortState where
  | unmapped | adminDown | training | up | degraded | linkFault | test | halted | safe | offline
  deriving DecidableEq, Repr

def PortState.code : PortState → Nat
  | .unmapped => 0 | .adminDown => 1 | .training => 2 | .up => 3 | .degraded => 4 | .linkFault => 5
  | .test => 6 | .halted => 7 | .safe => 8 | .offline => 9

/-- Why a port is drained under R145, and what follows the drain. -/
inductive DrainKind where
  | adminDown | test | speed | macroDown
  deriving DecidableEq, Repr

/-- A change of a port that the next boundary puts into effect (R143, R145, R147). -/
inductive PortDue where
  | stop (k : DrainKind) | halt | training | safe | offline
  /-- Halted at the next boundary, and TRAINING at the one after it (R622). -/
  | haltTraining
  /-- Halted at the next boundary, and from there on the way to what a later command asked for (R145, R174). -/
  | haltStop (k : DrainKind)
  deriving DecidableEq, Repr

/-- What auto-negotiation advertises (R149): the one technology of the port's entry, and which abilities. -/
structure Advert where
  lanes : Nat
  laneRate : Nat
  fec : Nat
  pause : Bool
  asymPause : Bool
  eee : Bool
  deriving DecidableEq, Repr

/-- What the transmitter of a port sends (R142, R151). -/
inductive TxCondition where
  | idle
  /-- Training (R149): auto-negotiation first where there is something to advertise, then link training from `preset` where `lt`;
  with neither, the transmitter stands at `preset`. -/
  | training (an : Option Advert) (lt : Bool) (preset : Nat)
  | frames
  /-- Frames and idles with the remote-degraded indication (R142, R156). -/
  | framesDegraded
  | localFault | remoteFault | prbs | electricalIdle
  deriving DecidableEq, Repr

/-- One lane's PRBS generator and checker (R167-R169). -/
structure Lane where
  genEn : Bool
  chkEn : Bool
  pattern : BitVec 4
  invert : Bool
  locked : Bool
  badCfg : Bool
  errors : W48
  bits : W64
  deriving DecidableEq, Repr

def Lane.reset : Lane :=
  { genEn := false, chkEn := false, pattern := 0#4, invert := false, locked := false, badCfg := false,
    errors := 0#48, bits := 0#64 }

/-- A mapped port. -/
structure Port where
  cfg : PortMapEntry
  /-- The combination in use, which a speed change may alter (R148). -/
  lanes : Nat
  laneRate : Nat
  fec : Nat
  /-- The combination that a speed change waits to set. -/
  newSpeed : Option (Nat × Nat × Nat)
  state : PortState
  admitting : Bool
  /-- The link is up. -/
  link : Bool
  /-- It is a member of the distribution of its aggregations (R146). -/
  dist : Bool
  /-- Containment put it in ADMIN_DOWN (R557, R569). -/
  contained : Bool
  /-- ADMIN_UP of the Recipe, or since raised by command (R172). -/
  adminUp : Bool
  localFaultRx : Bool
  remoteFaultRx : Bool
  remoteDegraded : Bool
  blockLock : Byte
  aligned : Bool
  /-- The PMA lane that each receive lane carries, as the alignment markers told (R138). -/
  rxOrder : List Nat
  /-- Its admission ended by loss of the link, so enqueues toward it are held for 64 ticks (R145). -/
  linkLoss : Bool
  /-- Frames still to be delimited that have bytes in an uncorrectable codeword (R153). -/
  fecHit : Nat
  /-- The next frame start raises TX_START_NOW (R160). -/
  txRaise : Bool
  txStartNow : Nat
  txStartBase : Nat
  degradeSet : W16
  degradeClear : W16
  /-- The current bin and the completed bins, newest first, at most ten (R155). -/
  bin : Nat
  bins : List Nat
  windowSum : W32
  evalTickLo : W32
  /-- Whole ticks without link, saturating at 64 (R145). -/
  downTicks : Nat
  /-- The link has been down since this tick's start. -/
  downWhole : Bool
  /-- A drain in progress and its whole ticks left. -/
  drain : Option (DrainKind × Nat)
  due : Option PortDue
  txCond : TxCondition
  /-- MAC statistics by offset (R175). -/
  stats : Tbl W64
  /-- The statistics as this beat began, less what was read in it, once one of them counts in it (R165). -/
  statsOld : Option (Tbl W64)
  deriving DecidableEq, Repr

/-- The macro states of LNM_MACRO_STAT. -/
inductive MacroState where
  | off | locking | on | draining | pllFailed | absent
  deriving DecidableEq, Repr

def MacroState.code : MacroState → Nat
  | .off => 0 | .locking => 1 | .on => 2 | .draining => 3 | .pllFailed => 4 | .absent => 5

/-- A change of a macro that the next boundary puts into effect (R171-R173). -/
inductive MacroDue where
  | powerDown | powerUp | failed | turnOff
  deriving DecidableEq, Repr

/-- A line macro. -/
structure Macro where
  state : MacroState
  pllLocked : Bool
  drainLeft : Nat
  powerDowns : W32
  /-- The tick with which its last drain began (R171). -/
  drainTick : Nat
  due : List MacroDue
  /-- A power-up that waits for STATE OFF (R172). -/
  upAfterOff : Bool
  /-- Power-down and power-up commands that wait for STATE OFF or ON. -/
  downWait : List Waiter
  upWait : List Waiter
  deriving DecidableEq, Repr

def Macro.reset : Macro :=
  { state := .off, pllLocked := false, drainLeft := 0, powerDowns := 0#32, drainTick := 0, due := [], upAfterOff := false,
    downWait := [], upWait := [] }

/-- A read of a MAC statistic that HP1 issued in this beat, answered at its end (R166): by MAC_STAT_READ, or of a function's
BAR. -/
structure LateRead where
  port : Nat
  offset : Nat
  fn : Option Nat
  deriving DecidableEq, Repr

/-- The state of the line macros, block LNM: macros by number, mapped ports by port number, lanes by lane
number. -/
structure Lnm where
  macros : Tbl Macro
  ports : Tbl Port
  lanes : Tbl Lane
  /-- Reads of HP1 in this beat, and the statistics that HP0 read in it (R166). -/
  lateReads : List LateRead
  readByHp0 : List (Nat × Nat)
  deriving DecidableEq, Repr

end Sys2Proof
end

