-- ==== Sys2Proof/Machine/Types/Prs.lean ====
section
/-!
DEFINITION. The data of "Parsing and Classification": parse profiles, start entries, classes, control-class
rules, and what the header lanes of a slice count (block PRS).
-/

namespace Sys2Proof

/-- KIND of a profile (R184). -/
inductive ProfileKind where
  | generic | ipv4 | ipv6 | ipv6Ext
  deriving DecidableEq, Repr

/-- A field entry (R181, R184). -/
structure FieldEntry where
  srcByte : Nat
  srcBit : Nat
  width : Nat
  dstWord : Nat
  dstLsb : Nat
  segment : Bool
  deriving DecidableEq, Repr

/-- A next-header selector (R182). -/
structure NhSel where
  byte : Nat
  bit : Nat
  width : Nat
  deriving DecidableEq, Repr

/-- The action of a transition (R183): EMPTY, NEXT to a profile, or END with a class. -/
inductive TransAction where
  | empty | next (profile : Nat) | end_ (cls : Nat)
  deriving DecidableEq, Repr

/-- A transition entry (R183, R184). -/
structure Transition where
  value : W24
  mask : W24
  action : TransAction
  deriving DecidableEq, Repr

/-- A parse profile (R184). -/
structure Profile where
  kind : ProfileKind
  lenMode : Bool
  lenBase : Nat
  lenOffset : Nat
  lenShift : Nat
  lenMask : Nat
  lenScale : Nat
  lenMin : Nat
  mark : Nat
  encap : Bool
  nhSels : List NhSel
  miss : TransAction
  fields : List FieldEntry
  transitions : List Transition
  deriving DecidableEq, Repr

/-- DISPOSITION in W1 (R190). -/
inductive Disposition where
  | lookup | drop | engine | control
  deriving DecidableEq, Repr

/-- A class entry (R192). -/
structure ClassEntry where
  disposition : Disposition
  macDa : Bool
  macSa : Bool
  segment : Bool
  ipv4Lpm : Bool
  ipv6Lpm : Bool
  ternary : Bool
  flowState : Bool
  daWord : Nat
  saWord : Nat
  l3Word : Nat
  ternBase : Nat
  ternWords : Nat
  flowBase : Nat
  flowWords : Nat
  engineChannel : Nat
  deriving DecidableEq, Repr

/-- A start entry (R193). -/
structure StartEntry where
  profile : Nat
  fragDrop : Bool
  fragClass : Nat
  deriving DecidableEq, Repr

/-- One term of a control-class rule (R194). -/
structure CtlTerm where
  word : Nat
  value : W48
  mask : W48
  deriving DecidableEq, Repr

/-- A control-class rule (R194). -/
structure CtlRule where
  portMask : BitVec 512
  line : Bool
  host : Bool
  engine : Bool
  terms : List CtlTerm
  deriving DecidableEq, Repr

/-- The PARSE_PROFILES section (R197). -/
structure ParseSection where
  limitClass : Nat
  portStart : Tbl StartEntry
  injStart : List StartEntry
  profiles : List Profile
  classes : List ClassEntry
  deriving DecidableEq, Repr

def ParseSection.empty : ParseSection :=
  { limitClass := 0, portStart := [], injStart := [], profiles := [], classes := [] }

/-- The result of a parse: the key vector (R190) and how it ended (R186). -/
structure Parsed where
  kv : List W48
  frag : Bool
  fragFirst : Bool
  depthLimit : Bool
  windowLimit : Bool
  shortFrame : Bool
  badLength : Bool
  cls : Nat
  deriving DecidableEq, Repr

/-- What a slice's header lanes count (PRS registers). -/
structure PrsSlice where
  headers : W64
  frags : W16
  depthWindow : W16
  shortBad : W16
  control : W16
  deriving DecidableEq, Repr

def PrsSlice.reset : PrsSlice :=
  { headers := 0#64, frags := 0#16, depthWindow := 0#16, shortBad := 0#16, control := 0#16 }

end Sys2Proof
end

