-- ==== Sys2Proof/Machine/Types/Fwd.lean ====
section
/-!
DEFINITION. The data of "Forwarding Tables and Learning" and of the versions of "Parsing and Classification":
destination words, tables, learning, packets, and the version slots (blocks FWD and DEC).
-/

namespace Sys2Proof

/-- DTYPE of a destination word (R210). -/
inductive DType where
  | drop | port | aggregate | flood | hostQueue | engine | adjacency | continue_ | reserved
  deriving DecidableEq, Repr

/-- A tenant entry (R217), the VRF binding apart, which is versioned (R199). -/
structure TenantEntry where
  bd : W16
  unknownDest : W32
  floodDest : W32
  noRouteDest : W32
  ttlDest : W32
  routerMac : W48
  valid : Bool
  routeV4 : Bool
  routeV6 : Bool
  flowMiss : BitVec 2
  flowFallback : BitVec 2
  arpMode : BitVec 2
  flowChannel : W24
  deriving DecidableEq, Repr

/-- An adjacency entry (R219). -/
structure Adjacency where
  dmac : W48
  dest : W32
  valid : Bool
  decTtl : Bool
  deriving DecidableEq, Repr

/-- A MAC entry (R222). -/
structure MacEntry where
  mac : W48
  bd : W16
  dest : W32
  valid : Bool
  isStatic : Bool
  router : Bool
  discard : Bool
  hit : Bool
  deriving DecidableEq, Repr

/-- A prefix of one LPM family (R231, R247): `pfx` has the address bits, those beyond `len` zero. -/
structure LpmKey where
  vrf : Nat
  len : Nat
  pfx : Nat
  deriving DecidableEq, Repr

/-- A ternary entry (R235). -/
structure TernaryEntry where
  tenant : W16
  cls : Byte
  valid : Bool
  tenantAny : Bool
  classAny : Bool
  key : BitVec 480
  mask : BitVec 480
  dest : W32
  meter : BitVec 20
  copyDest : W32
  flowSkip : Bool
  flowNoInsert : Bool
  queueSet : Bool
  queue : BitVec 3
  deriving DecidableEq, Repr

/-- The privileged tables of one version (R199): segment map by SEGMENT_ID, prefixes of both families,
ternary entries by INDEX, and the tenant-to-VRF binding. -/
structure VTables where
  segment : Tbl W16
  ipv4 : List (LpmKey × W32)
  ipv6 : List (LpmKey × W32)
  ternary : Tbl TernaryEntry
  vrf : Tbl Nat
  deriving DecidableEq, Repr

def VTables.empty : VTables := { segment := [], ipv4 := [], ipv6 := [], ternary := [], vrf := [] }

/-- One write to a versioned table (R204): a new value for a key, or its deletion. -/
inductive VWrite where
  | segment (id : Nat) (v : Option W16)
  | ipv4 (k : LpmKey) (v : Option W32)
  | ipv6 (k : LpmKey) (v : Option W32)
  | ternary (i : Nat) (v : Option TernaryEntry)
  | vrf (tenant : Nat) (v : Nat)
  deriving DecidableEq, Repr

/-- States of a version slot (R201). -/
inductive VSlotState where
  | empty | current | holding | retained
  deriving DecidableEq, Repr

/-- A version slot S0 to S3. -/
structure VSlot where
  state : VSlotState
  version : Nat
  refs : Nat
  sinceTick : W64
  tables : VTables
  deriving DecidableEq, Repr

def VSlot.empty : VSlot :=
  { state := .empty, version := 0, refs := 0, sinceTick := 0#64, tables := VTables.empty }

/-- A sealed commit (R205, R206): the writes it adds to the current version. -/
structure Sealed where
  writes : List VWrite
  tick : Nat
  waiter : Waiter
  /-- The beat of the sealing still runs: a versioned write of it joins the sealed version (R209). -/
  fresh : Bool
  deriving DecidableEq, Repr

/-- A select that waits for its boundary (R207). -/
structure PendingSelect where
  version : Nat
  tick : Nat
  waiter : Waiter
  deriving DecidableEq, Repr

/-- The versions, block DEC. -/
structure Dec where
  slots : Tbl VSlot
  current : Nat
  currentSlot : Nat
  lastAssigned : Nat
  lastCommit : Nat
  lastCommitTick : W64
  openWrites : List VWrite
  sealed_ : Option Sealed
  select : Option PendingSelect
  busyCount : Byte
  commitCount : W16
  openWriteCount : W32
  openDiscards : W32
  /-- Entries that the scrub lost in this beat: they leave every version when the beat ends (R29, R249). -/
  clearsDue : List VWrite
  deriving DecidableEq, Repr

/-- A port control entry (R247), whose LIMIT, LIMIT_ACTION, UNKNOWN_SA_DROP and MOVE_DENY registers write,
with what learning counts for the port (R223). -/
structure PortControl where
  defaultTenant : W16
  learnLimit : W16
  limitAction : Bool
  unknownSaDrop : Bool
  segmentMiss : Bool
  moveDeny : Bool
  etypeList : Nat
  etypeWord : Nat
  bumMeter : BitVec 20
  learned : Nat
  limitHits : W32
  moves : W32
  /-- Tick of the last LIMIT event (R227). -/
  limitEvent : Option Nat
  deriving DecidableEq, Repr

/-- The all-zero port control of R247, BUM_METER 0xF_FFFF. -/
def PortControl.blank : PortControl :=
  { defaultTenant := 0#16, learnLimit := 0#16, limitAction := false, unknownSaDrop := false, segmentMiss := false,
    moveDeny := false, etypeList := 0, etypeWord := 0, bumMeter := 0xFFFFF#20, learned := 0, limitHits := 0#32,
    moves := 0#32, limitEvent := none }

/-- A member of an aggregation group (R247). -/
structure AggMember where
  port : Nat
  remote : Bool
  deriving DecidableEq, Repr

/-- A learn request (R224). -/
structure LearnReq where
  bd : W16
  sa : W48
  port : Nat
  /-- The slice and the beat of the request. -/
  slice : Nat
  beat : Nat
  deriving DecidableEq, Repr

/-- KIND of a learn event (R226). -/
inductive LearnKind where
  | learned | moved | aged | noRoom | limit
  deriving DecidableEq, Repr

/-- A learn event record (R226). -/
structure LearnEvent where
  mac : W48
  bd : W16
  port : W16
  oldPort : W16
  kind : LearnKind
  way : Nat
  tick : W64
  seq : W32
  lost : W16
  deriving DecidableEq, Repr

/-- The unversioned tables and learning, block FWD. MAC places: way w index i at w × 262,144 + i, and stash
place j at 1,048,576 + j. Flow-state entries lie in HBM (R237). -/
structure Fwd where
  mac : Tbl MacEntry
  /-- The MAC, tenant and adjacency tables as this beat began, once one of them is written in it (R29, R219). -/
  beatOld : Option (Tbl MacEntry × Tbl TenantEntry × Tbl Adjacency)
  /-- Places whose entry the ager removes when the beat ends, unless a source hit of the beat sets HIT (R230). -/
  agedDue : List Nat
  seeds : List W32
  agePeriod : W32
  flowSeed : W32
  flowAgePeriod : W16
  tenants : Tbl TenantEntry
  adjacencies : Tbl Adjacency
  ports : Tbl PortControl
  etypeLists : Tbl (List W16)
  aggregates : Tbl (List AggMember)
  floodGroups : Tbl (BitVec 512)
  learnQ : List LearnReq
  queueOverflow : W16
  noRoomCount : W16
  eventOverflow : W16
  eventRing : List LearnEvent
  eventSeq : W32
  eventLost : W16
  repairs : W32
  passes : W32
  flowValid : BitVec 28
  flowInserts : W32
  collisions : W32
  shedRefusals : W32
  deriving DecidableEq, Repr

/-- KIND of an edit word (R374). -/
inductive EditKind where
  | insert | delete | tsWrite | tsCorrect | tsCapture | ipv4Csum | reserved
  deriving DecidableEq, Repr

/-- An edit of a list (R374): for INSERT the bytes read with the list, none when they were not read. -/
structure Edit where
  kind : EditKind
  offset : Nat
  len : Nat
  arg : W16
  bytes : Option (List Byte)
  deriving DecidableEq, Repr

/-- The routing edits of an adjacency (R219). -/
structure RouteEdit where
  da : W48
  sa : W48
  decTtl : Bool
  deriving DecidableEq, Repr

/-- Where a packet stands. -/
inductive PktStage where
  | lane | inject | flow | enqueue | control | engine (channel : Nat) | handle (channel : Nat) (h : Nat)
  | kept (channel : Nat) (k : Nat) | queued | sending | hostDma | exporting
  deriving DecidableEq, Repr

/-- A packet in the crumb buffer. `bytes` are the L bytes without the FCS. -/
structure Packet where
  bytes : List Byte
  fcs : W32
  origin : Nat
  port : Nat
  startSel : Nat
  stamp : Stamp
  kv : List W48
  version : Nat
  /-- The version slot it references (R203). -/
  slot : Option Nat
  /-- The unit that owns it (R292), 0-16. -/
  owner : Nat
  tenant : Option Nat
  cls : Nat
  control : Bool
  dest : W32
  /-- Colour: 0 green, 1 yellow, 2 red, 3 not metered. -/
  colour : Nat
  /-- Ternary result: FLOW_SKIP, FLOW_NO_INSERT, the queue it sets, the meter, the capture queue. -/
  flowSkip : Bool
  flowNoInsert : Bool
  queueSet : Option Nat
  meter : Option Nat
  copyQueue : Option Nat
  route : Option RouteEdit
  edits : List Edit
  /-- Host function whose frame it is, with the generation at entry (R495). -/
  fn : Nat
  gen : Nat
  /-- Host queue it was sent from, with its descriptor index, for completions. -/
  sendFrom : Option (Nat × Nat)
  /-- The icing of an exported copy (R310). -/
  icing : Option (List Byte)
  /-- Crumbs charged, and whether to transit or to which queue index (R283). -/
  crumbs : Nat
  queue : Option Nat
  /-- The cluster whose hold it counts in (R254). -/
  hold : Option Nat
  /-- Egress stamp, from the start of its transmission on (R162). -/
  egress : Option Stamp
  /-- The beat in which it joined the queue it waits in for its flow-state access or its enqueue (R37, R257). -/
  since : Nat
  stage : PktStage
  deriving DecidableEq, Repr

end Sys2Proof
end

