-- ==== Sys2Proof/Machine/Types/Sch.lean ====
section
/-!
DEFINITION. The data of "Crumb Buffer and Scheduling": accounts, queues, gate lists and meters (blocks CRB and
SCH).
-/

namespace Sys2Proof

/-- A frame that waits on free crumbs or on its slice's injection queue (R26, R252): of a host queue's descriptor, and
whether it is the descriptor's first frame, or an emit. -/
inductive WaitKind where
  | host (queue number : Nat) (first : Bool) | emit
  deriving DecidableEq, Repr

/-- A waiting frame, with the slice it enters. -/
structure Waiting where
  slice : Nat
  kind : WaitKind
  pkt : Packet
  deriving DecidableEq, Repr

/-- The crumb buffer, block CRB: packets by id, the fixed sizes, and the frames that wait for room. -/
structure Crb where
  pkts : Tbl Packet
  nextId : Nat
  controlUsed : Nat
  holdLimit : List Nat
  exhausted : W32
  waiting : List Waiting
  lastSlice : Nat
  /-- The slice whose turn it is while frames wait (R252). -/
  turn : Option Nat
  /-- Heads that wait for a header lane, by slice, line arrivals first in their order (R26). -/
  laneQ : Tbl (List Nat)
  /-- Injection queues by slice (R26). -/
  injectQ : Tbl (List Nat)
  /-- Packets whose decision is made and that wait for their enqueue. -/
  enqueueQ : List Nat
  /-- Packets that wait for their flow-state access. -/
  flowQ : List Nat
  deriving DecidableEq, Repr

/-- One entry of a gate list (R265). -/
structure GateEntry where
  gates : Byte
  intervalNs : Nat
  deriving DecidableEq, Repr

/-- A gate list (R265). -/
structure GateList where
  baseS : Nat
  baseNs : Nat
  cycleNs : Nat
  entries : List GateEntry
  deriving DecidableEq, Repr

/-- A queue of the scheduler: a port's Q0-Q7 or CQ, or a host queue served to its endpoint. -/
structure SchQueue where
  frames : List Nat
  occ : Nat
  min : Nat
  alpha : Nat
  yellowShift : Nat
  quantum : Nat
  maxResidence : Nat
  /-- The deficit in bytes; a frame longer than QUANTUM takes it below zero (R262). -/
  d : Int
  rnd : Nat
  hwmCrumbs : Nat
  hwmRes : Nat
  lastCrumbs : Nat
  lastRes : Nat
  deriving DecidableEq, Repr

def SchQueue.blank : SchQueue :=
  { frames := [], occ := 0, min := 0, alpha := 0, yellowShift := 0, quantum := 0, maxResidence := 0, d := 0, rnd := 0,
    hwmCrumbs := 0, hwmRes := 0, lastCrumbs := 0, lastRes := 0 }

/-- The deficit round robin of one port or endpoint (R262), and a port's gates and control credit. -/
structure SchPort where
  v : Nat
  cur : Option Nat
  active : List Nat
  /-- The control credit in quarter bytes (R263): 1 % of a port's bytes per tick is a whole number of them. -/
  ctlCredit : Int
  gates : Byte
  list : Option GateList
  entry : Nat
  pendingList : Option GateList
  actTick : Nat
  gateOverruns : W32
  squelched : Bool
  /-- The frame given to the MAC: packet id and queue index, and whether its first bit is sent. -/
  tx : Option (Nat × Nat × Bool)
  /-- Crumbs of the frame in transmission that the transmit FIFO held when it began (R159). -/
  txFifo : Nat
  deriving DecidableEq, Repr

def SchPort.blank : SchPort :=
  { v := 0, cur := none, active := [], ctlCredit := 0, gates := 0xFF#8, list := none, entry := 0, pendingList := none,
    actTick := 0, gateOverruns := 0#32, squelched := false, tx := none, txFifo := 0 }

/-- A meter (R270), with its buckets in 1/4,096 token. -/
structure Meter where
  cir : BitVec 36
  pir : BitVec 36
  cbs : W32
  pbs : W32
  valid : Bool
  colorAware : Bool
  packetMode : Bool
  lenAdjust : Byte
  tc : Nat
  tp : Nat
  tLast : Nat
  deriving DecidableEq, Repr

/-- The squelch of R273: the ports of the slices, or every port, with the tick of the reaction. -/
structure Squelch where
  slices : List Nat
  device : Bool
  tick : Nat
  deriving DecidableEq, Repr

/-- The scheduler, block SCH. Queues by index of R283: n × 8 + q, 4,096 + n for CQ, 8,192 + h for host queues;
ports by number, with 512 + e for endpoint e. -/
structure Sch where
  hwmPeriodLog2 : Nat
  deviceSafe : Bool
  squelchedSlices : W16
  squelches : List Squelch
  hostStopped : Bool
  queues : Tbl SchQueue
  ports : Tbl SchPort
  meters : Tbl Meter
  /-- Minimum reservations, and meters, that the next boundary puts into effect (R126). -/
  minDue : Tbl Nat
  meterDue : Tbl Meter
  /-- ALPHA and YELLOW_SHIFT written in this beat, in force from the next: queue index, ALPHA, YELLOW_SHIFT (R274). -/
  shareDue : List (Nat × Nat × Nat)
  deriving DecidableEq, Repr

end Sys2Proof
end

