-- ==== Sys2Proof/Machine/Types/Eng.lean ====
section
/-!
DEFINITION. The data of "Slazer Engine Array" and "Slazer Instruction Set": channels, clusters, engines, threads
and the batch that a thread runs (block ENG).
-/

namespace Sys2Proof

/-- The channel id by which the model names the reserved control thread of a cluster, which no channel has
(R342 gives 0 to 16,777,214, R353 gives 0xFF_FFFF to the Supervisor): 0x100_0000 + cluster. -/
def controlChannel (cluster : Nat) : Nat := 0x1000000 + cluster

/-- A message in an inbox or in the Supervisor's engine queue (R353). -/
structure Msg where
  source : Nat
  tag : W16
  payload : List W48
  tick : W48
  /-- The beat (tick × 1,600 + beat) of its release (R345; the model's own). -/
  since : Nat
  deriving DecidableEq, Repr

/-- A channel binding (R342). -/
structure Binding where
  channel : Nat
  program : Nat
  pooled : Bool
  cluster : Nat
  pool : Nat
  engine : Nat
  thread : Nat
  inbox : Option Nat
  stateAddr : Nat
  stateWords : Nat
  deriving DecidableEq, Repr

/-- A bound channel. -/
structure Channel where
  bind : Binding
  /-- Packets handed off and not yet taken, by id (R348). -/
  fifo : List Nat
  inbox : List Msg
  /-- Messages that wait for the end of a migration of its slots (R360). -/
  held : List Msg
  /-- Kept packets by index (R349). -/
  kept : Tbl Nat
  wake : Bool
  wakeEarly : Bool
  /-- Cipher results have become visible to it (R84). -/
  cipher : Bool
  /-- The beats since which it is pending for its wake and for its cipher results (R345; the model's own). -/
  wakeAt : Nat
  cipherAt : Nat
  /-- Offsets of its result areas that hold RETRY 1: a batch that starts meanwhile is discarded at its end (R83, R403). -/
  retryAreas : List Nat
  /-- The engines on which its next batch is the first since a migration (R347). -/
  migrated : List Nat
  restarted : Bool
  sendFailed : Nat
  failTag : W16
  failStatus : Nat
  /-- The channel is served no more: its engine was lost with no spare left (R89). -/
  unserved : Bool
  deriving DecidableEq, Repr

def Channel.bound (b : Binding) : Channel :=
  { bind := b, fifo := [], inbox := [], held := [], kept := [], wake := false, wakeEarly := false, cipher := false,
    wakeAt := 0, cipherAt := 0, retryAreas := [], migrated := [], restarted := true, sendFailed := 0, failTag := 0#16, failStatus := 0,
    unserved := false }

/-- A program of a cluster (R381, R386). Jump tables hold offsets from ENTRY. -/
structure Program where
  entry : Nat
  length : Nat
  tables : Tbl (List Nat)
  deriving DecidableEq, Repr

/-- A cluster. -/
structure Cluster where
  /-- Instruction memory (R338); words not listed read 0, an undefined opcode. -/
  imem : Tbl W48
  /-- Instruction words with an error that is not corrected (R358). -/
  imemBad : List Nat
  programs : Tbl Program
  controlProgram : Nat
  controlFifo : List Nat
  /-- Shared memory (R340), inboxes apart; words not listed read 0. -/
  shared : Tbl W48
  /-- The Recipe's image of the shared runs, for R357. -/
  runs : Tbl W48
  /-- Words marked lost (R357). -/
  lost : List Nat
  shmemLost : W16
  imemRepairs : W16
  hbmBase : Nat
  hbmSize : Nat
  /-- Initial state records by channel, 0xFF_FFFF for the control thread (R386). -/
  initState : Tbl (List W48)
  deriving DecidableEq, Repr

def Cluster.empty : Cluster :=
  { imem := [], imemBad := [], programs := [], controlProgram := 0, controlFifo := [], shared := [], runs := [],
    lost := [], shmemLost := 0#16, imemRepairs := 0#16, hbmBase := 0, hbmSize := 0, initState := [] }

/-- A packet handle that holds a packet (R370): its FRAME_LEN bytes with the staged writes, and the kept index it was
taken from. -/
structure Handle where
  pkt : Nat
  bytes : List Byte
  keptFrom : Option Nat
  deriving DecidableEq, Repr

/-- The source of an emitted frame (R373). -/
structure Emit where
  slice : Nat
  startSel : Nat
  tenant : Nat
  bytes : List Byte
  edits : List Edit
  deriving DecidableEq, Repr

/-- A staged packet effect, in program order (R79, R372, R373). -/
inductive PktEffect where
  | release (pkt : Nat) (bytes : List Byte) (dest : W32) (edits : List Edit)
  | drop (pkt : Nat) (code : Nat)
  | keep (pkt : Nat) (bytes : List Byte) (index handle : Nat)
  | consumed (pkt : Nat)
  | emit (e : Emit)
  deriving DecidableEq, Repr

/-- A staged table, flow-state or HBM operation (R377, R378), in program order. -/
inductive TblEffect where
  | write (table : Nat) (delete : Bool) (key : Nat) (bytes : List Byte)
  | flowRead (index : Nat) (tag : W16) (offset : Nat)
  | flowWrite (index : Nat) (clear : Bool) (bytes : List Byte)
  | hbmRead (hda : Nat) (tag : W16) (offset : Nat)
  | hbmWrite (hda : Nat) (bytes : List Byte)
  deriving DecidableEq, Repr

/-- A staged cipher submission (R379): the context, the request's words, and the packet that its HANDLE names. -/
structure CipherSubmit where
  ctx : Nat
  words : List W48
  pkt : Option Nat
  deriving DecidableEq, Repr

/-- A staged send (R379). -/
structure SendEffect where
  target : Nat
  tag : W16
  payload : List W48
  deriving DecidableEq, Repr

/-- A staged timer arm (R351, R379). -/
structure ArmEffect where
  tick : W48
  beat : Nat
  deriving DecidableEq, Repr

/-- A loop in progress (R383). -/
structure LoopFrame where
  first : Nat
  last : Nat
  left : Nat
  deriving DecidableEq, Repr

/-- The batch of a thread (R78, R79). Issue slots count from the tick's issue slot 0. -/
structure Batch where
  channel : Nat
  program : Nat
  entry : Nat
  length : Nat
  cluster : Nat
  /-- The engine lies outside the home cluster (R346, R369). -/
  remote : Bool
  pooled : Bool
  slotStart : Nat
  slotLen : Nat
  regs : List W48
  pc : Nat
  /-- The next issue slot. -/
  slot : Nat
  loops : List LoopFrame
  /-- The version at its first issue slot (R202). -/
  version : Nat
  ctx : List W48
  window : List W48
  localW : Tbl W48
  sharedW : Tbl W48
  /-- Word writes staged so far (R350). -/
  nLocal : Nat
  nShared : Nat
  tables : List TblEffect
  adds : List (Nat × Nat × Nat)
  lookups : List (Nat × Nat × Nat)
  csubs : List CipherSubmit
  sends : List SendEffect
  arm : Option ArmEffect
  handles : Tbl Handle
  /-- Packets taken, with the kept index of each, in taken order. -/
  taken : List (Nat × Option Nat)
  packets : List PktEffect
  emits : Nat
  emitFails : Nat
  msgs : Nat
  /-- Shared words read (R357). -/
  read : List Nat
  /-- It started while a result area held RETRY (R403): it is discarded at its end (R83). -/
  doomed : Bool
  /-- The tick of its commit point. -/
  committed : Option Nat
  deriving DecidableEq, Repr

/-- A thread: its local-memory words 80 to 8,191 (PROGRAM_AREA), its timer, its batch, and the issue slots of the tick that its
slots so far have taken up (R65, R72; the model's own). -/
structure Thread where
  area : Tbl W48
  timerTick : W48
  timerBeat : Nat
  timerArmed : Bool
  timerChannel : Nat
  batch : Option Batch
  slotsUsed : Nat
  deriving DecidableEq, Repr

def Thread.reset : Thread :=
  { area := [], timerTick := 0#48, timerBeat := 0, timerArmed := false, timerChannel := 0, batch := none,
    slotsUsed := 0 }

/-- The engine states of ENG_E_STAT. -/
inductive EngineState where
  | inactive | inService | spare | copySource | failed | test | retired
  deriving DecidableEq, Repr

def EngineState.code : EngineState → Nat
  | .inactive => 0 | .inService => 1 | .spare => 2 | .copySource => 3 | .failed => 4 | .test => 5 | .retired => 6

/-- An engine. `copyEnd` is the tick that ends a copy from it; `testEnd` that of its self-test. -/
structure Engine where
  state : EngineState
  lastCause : Nat
  lastThread : Nat
  faults : W32
  faultPc : Nat
  faultProgram : W16
  faultTick : W32
  batches : W64
  copyEnd : Option Nat
  copyTo : Nat
  /-- The engine whose threads it serves since a copy that has not ended (slots idle, R85). -/
  idleUntil : Nat
  deriving DecidableEq, Repr

def Engine.reset : Engine :=
  { state := .inactive, lastCause := 0, lastThread := 0, faults := 0#32, faultPc := 0, faultProgram := 0#16,
    faultTick := 0#32, batches := 0#64, copyEnd := none, copyTo := 0, idleUntil := 0 }

/-- A result of FRD or HRD that has not landed (R378). -/
structure Landing where
  channel : Nat
  offset : Nat
  tag : W16
  ok : Bool
  bytes : List Byte
  deriving DecidableEq, Repr

/-- A self-test asked for (R361): the engine, the tick at which it ends once it runs, and who waits. -/
structure SelfTest where
  engine : Nat
  ends : Option Nat
  waiter : Waiter
  deriving DecidableEq, Repr

/-- The engine array, block ENG. Threads by 8k + t. -/
structure Eng where
  engines : Tbl Engine
  threads : Tbl Thread
  clusters : Tbl Cluster
  channels : Tbl Channel
  /-- Binds (with their state words) and unbinds due at the next boundary (R344). -/
  binds : List (Binding × List W48)
  unbinds : List Nat
  /-- Channels to restart at the next boundary (R357). -/
  restarts : List Nat
  /-- Engine that holds each cluster's control thread (R354). -/
  control : Tbl Nat
  landings : List Landing
  /-- Flow-state accesses of engines released in this beat: they follow the slices' (R37). -/
  flowDue : List (Nat × TblEffect)
  /-- Messages for the Supervisor (R353), at most 1,024. -/
  supQueue : List Msg
  /-- Packets handed off of late, each with the beat from which it is pending (R93; the model's own). -/
  handed : List (Nat × Nat)
  testEngine : Nat
  test : Option SelfTest
  lastPass : Bool
  tests : W32
  editSkips : W16
  emitFails : W16
  writeFails : W16
  deriving DecidableEq, Repr

end Sys2Proof
end

