-- ==== Sys2Proof/Machine/Types/Cph.lean ====
section
/-!
DEFINITION. The data of "Cipher Slab and Key Vault" (blocks CPH and KVL): contexts with their queues, the key
schedule cache, outputs on their way, and the vault with its random service.
-/

namespace Sys2Proof

/-- A queued request (R399): its channel, its 28 words, its packet, and the beat (tick × 1,600 + beat) in which
its release landed. -/
structure CipherReq where
  channel : Nat
  words : List W48
  pkt : Option Nat
  landed : Nat
  /-- The unit that failed while it was processed (R403). -/
  retry : Option Nat
  /-- Beats of the AES and of the GF positions that it has taken, and the end of the slot of the last of them (R401). -/
  aesAt : List Nat
  gfAt : List Nat
  stop : Nat
  /-- The storage command whose logical block it works on: controller, submission queue and CID (R427, R432). -/
  disk : Option (Nat × Nat × W16)
  deriving DecidableEq, Repr

/-- Where a context stands in its core slots and in its GF slots: the beat of the last position taken, and how many of that
beat's positions are taken. -/
structure SlabCursor where
  core : Nat × Nat
  gf : Nat × Nat
  deriving DecidableEq, Repr

def SlabCursor.zero : SlabCursor := { core := (0, 0), gf := (0, 0) }

/-- The states of R392. -/
inductive CtxState where
  | empty | active | saved | erased
  deriving DecidableEq, Repr

def CtxState.code : CtxState → Nat
  | .empty => 0 | .active => 1 | .saved => 2 | .erased => 3

/-- A security context: the fields of its record (R395), BODY as the two keys it wraps, and its queue. -/
structure Ctx where
  state : CtxState
  key256 : Bool
  xts : Bool
  storage : Bool
  exportable : Bool
  ownerPool : Bool
  paired : Bool
  salt : Byte
  /-- OWNER: the channel; or pool + 16 × cluster. -/
  owner : W32
  epoch : W24
  ctrHwm : Nat
  saveSeq : W32
  key1 : List Byte
  key2 : List Byte
  queue : List CipherReq
  deriving DecidableEq, Repr

def Ctx.empty : Ctx :=
  { state := .empty, key256 := false, xts := false, storage := false, exportable := false, ownerPool := false,
    paired := false, salt := 0#8, owner := 0#32, epoch := 0#24, ctrHwm := 0, saveSeq := 0#32, key1 := [], key2 := [],
    queue := [] }

/-- A block of counter values in use or allocated (R406): the next value, the end, whether it is usable, and the SEQ
of the mirror frame whose acknowledgement it waits for, once sent. -/
structure CtrBlock where
  next : Nat
  stop : Nat
  usable : Bool
  seq : Option W32
  deriving DecidableEq, Repr

/-- A key schedule cache entry (R397). `ready` is the tick at which its load completes, `lastServed` the beat in which it was last
served. -/
structure CacheEntry where
  pinned : Bool
  ready : Nat
  lastServed : Nat
  block : Option CtrBlock
  nextBlock : Option CtrBlock
  deriving DecidableEq, Repr

/-- Outputs that wait for their write (R402): the result area's 16 words, the packet's bytes by offset, HBM runs. A request that
ended with another status than OK has its result area alone. -/
structure CipherOutput where
  ctx : Nat
  req : CipherReq
  words : List W48
  /-- The result of a failed unit (R403): the request is processed again. -/
  retry : Bool
  patches : List (Nat × List Byte)
  hbm : List (Nat × List Byte)
  due : Nat
  deriving DecidableEq, Repr

/-- A context change that the next boundary puts into effect (R392); a save with its WRAP, the host address of its image and
who waits; a restore with whether the record keeps its own CTR_HWM (R413). -/
inductive CtxDue where
  | create (id : Nat) (c : Ctx)
  | destroy (id : Nat)
  | save (id wrap addr : Nat) (w : Waiter)
  | restore (id : Nat) (c : Ctx) (keep : Bool)
  deriving DecidableEq, Repr

/-- A slab unit out of service for test (R85): core 0-127 or 128 + GF unit, its end tick and who waits. -/
structure SlabTest where
  unit : Nat
  started : Bool
  waiter : Waiter
  deriving DecidableEq, Repr

/-- The cipher slab, block CPH. -/
structure Cph where
  enabled : Bool
  bootEpoch : W24
  ctxBase : BitVec 37
  ctxs : Tbl Ctx
  /-- The state of the contexts that `ctxs` does not list: EMPTY, or ERASED after a zeroization (R416). -/
  unlisted : CtxState
  cache : Tbl CacheEntry
  loads : W32
  completed : W32
  rejected : W16
  retries : W16
  blocks : W32
  waits : W16
  abandoned : W16
  /-- Units out of use: cores 0-127, GF units 128-191. -/
  lost : List Nat
  /-- Of them, the units lost when no reserve row was left (R89). -/
  uncovered : List Nat
  test : Option SlabTest
  outputs : List CipherOutput
  /-- The contexts that the POOL slots of this tick took, by row × 4,096 + START (R71), and where each context stands in its
  slots of this tick. -/
  turns : Tbl Nat
  cursors : Tbl SlabCursor
  /-- Pooled loads begun and counter blocks allocated in this tick (R397, R406). -/
  loadsTick : Nat
  allocsTick : Nat
  due : List CtxDue
  deriving DecidableEq, Repr

/-- STATE of KVL_RNG_STAT. -/
inductive RngState where
  | startup | ready | failed
  deriving DecidableEq, Repr

def RngState.code : RngState → Nat
  | .startup => 0 | .ready => 1 | .failed => 2

/-- The key vault and random service, block KVL. Keys of 16 or 32 bytes by slot. -/
structure Kvl where
  vol : Tbl (List Byte)
  vbat : Tbl (List Byte)
  erasing : Bool
  erases : W16
  eraseTick : W64
  rng : RngState
  startupTicks : W16
  healthFails : W16
  reseeds : W32
  calls : BitVec 21
  /-- Key and V of the CTR_DRBG (R409); empty while it is not instantiated. -/
  drbgKey : List Byte
  drbgV : List Byte
  /-- Tick at which the start-up tests began (t0 of R410), and of the last reseed. -/
  startTick : Nat
  reseedTick : Nat
  deriving DecidableEq, Repr

end Sys2Proof
end

