-- ==== Sys2Proof/Machine/Types/Hif.lean ====
section
/-!
DEFINITION. The data of "Host Interface" and "Work Queues and Virtual Functions" (blocks HIF and QUE): endpoints,
functions with their configuration, host queues, admin queues, pools and grants.
-/

namespace Sys2Proof

/-- An MSI-X vector (R451). -/
structure Vector where
  addr : W64
  data : W32
  masked : Bool
  pending : Bool
  deriving DecidableEq, Repr

/-- A vector that nothing has written: masked, as PCI Express resets it. -/
def Vector.reset : Vector := { addr := 0#64, data := 0#32, masked := true, pending := false }

/-- The grant of a VF (R492). -/
structure Grant where
  pool : Nat
  queueBase : Nat
  queueCount : Nat
  tenantBase : Nat
  tenantCount : Nat
  vectors : Nat
  features : W64
  deriving DecidableEq, Repr

/-- A function (R443), under its id of R466. -/
structure Func where
  /-- Generation (R495). -/
  gen : W16
  /-- VFs: created; its grant. -/
  grant : Option Grant
  storageIndex : Option Nat
  featuresOk : Bool
  featStatus : Byte
  accept : BitVec 256
  active : BitVec 256
  vectors : Tbl Vector
  msixEnable : Bool
  functionMask : Bool
  memorySpace : Bool
  busMaster : Bool
  /-- PFs: in D3hot. -/
  d3hot : Bool
  pmeEn : Bool
  pmeStatus : Bool
  /-- Advanced Error Reporting status (R454). -/
  aerCorr : W32
  aerUncorr : W32
  aerFirst : Option Nat
  aerHeader : List Byte
  /-- A reset in progress: the tick by which an FLR ends (R459), or none for a reset of the endpoint. -/
  resetting : Option (Option Nat)
  /-- Other configuration registers that a driver wrote, by offset. -/
  config : Tbl W32
  deriving DecidableEq, Repr

def Func.reset : Func :=
  { gen := 1#16, grant := none, storageIndex := none, featuresOk := false, featStatus := 0#8, accept := 0#256,
    active := 0#256, vectors := [], msixEnable := false, functionMask := false, memorySpace := false,
    busMaster := false, d3hot := false, pmeEn := false, pmeStatus := false, aerCorr := 0#32, aerUncorr := 0#32,
    aerFirst := none, aerHeader := [], resetting := none, config := [] }

/-- An endpoint. -/
structure Endpoint where
  linkUp : Bool
  rate : BitVec 3
  width : BitVec 3
  flit : Bool
  inReset : Bool
  contained : Bool
  resets : W16
  correctable : W32
  uncorrectable : W32
  numVfs1 : BitVec 13
  numVfs2 : BitVec 13
  vfEnable1 : Bool
  vfEnable2 : Bool
  /-- HPn_PERST_N asserted. -/
  perst : Bool
  /-- Tick by which the endpoint becomes configuration-ready (R460). -/
  readyBy : Option Nat
  configReady : Bool
  /-- HPn_WAKE_N driven low. -/
  wake : Bool
  /-- A PM_PME is sent once the link is up (R458). -/
  pmePending : Bool
  deriving DecidableEq, Repr

def Endpoint.reset : Endpoint :=
  { linkUp := false, rate := 0#3, width := 0#3, flit := false, inReset := true, contained := false, resets := 0#16,
    correctable := 0#32, uncorrectable := 0#32, numVfs1 := 0#13, numVfs2 := 0#13, vfEnable1 := false,
    vfEnable2 := false, perst := true, readyBy := none, configReady := false, wake := false, pmePending := false }

/-- The host interface, block HIF. Functions by id (R466), endpoints by number. -/
structure Hif where
  deviceReady : Bool
  eps : Tbl Endpoint
  funcs : Tbl Func
  wakeLevel : BitVec 3
  doorbellMask : W32
  /-- HIF_PF2_PRESET of each endpoint. -/
  preset0 : BitVec 256
  preset1 : BitVec 256
  deriving DecidableEq, Repr

/-- KIND of a host queue (R465). -/
inductive QueueKind where
  | send | receive | capture | event
  deriving DecidableEq, Repr

def QueueKind.code : QueueKind → Nat
  | .send => 0 | .receive => 1 | .capture => 2 | .event => 3

/-- States of R467 other than ABSENT. -/
inductive QueueState where
  | disabled | enabled | error
  deriving DecidableEq, Repr

def QueueState.code : QueueState → Nat
  | .disabled => 1 | .enabled => 2 | .error => 3

/-- A descriptor fetched and not completed: its number and its bytes; of a send, whether its frame read has returned. -/
structure Fetched where
  number : Nat
  bytes : List Byte
  read : Bool
  deriving DecidableEq, Repr

/-- A completion that waits behind earlier ones of its queue (R472). -/
structure HeldCompletion where
  number : Nat
  /-- The packet it waits for, when an edit is TS_CAPTURE. -/
  waits : Option Nat
  status : Nat
  cookie : W64
  stamp : Option Stamp
  tag : W16
  notSent : Bool
  deriving DecidableEq, Repr

/-- A receive DMA in progress (R473): packet, generation, the numbers of the buffers used, and whether these still
await their completion (R480). -/
structure RxDma where
  pkt : Nat
  gen : W16
  buffers : List Nat
  live : Bool
  deriving DecidableEq, Repr

/-- A host queue (R465, R477). -/
structure HostQueue where
  state : QueueState
  kind : QueueKind
  fn : W16
  loc : Nat
  sizeLog2 : Nat
  restart : Bool
  wakeEn : Bool
  slice : Nat
  ringAddr : W64
  cqAddr : W64
  vector : Nat
  tenant : Nat
  startSel : Nat
  bufSize : Nat
  head : W16
  producer : W16
  fetched : W16
  consumer : W16
  completions : W16
  dbErrors : W16
  /-- Feature bits active at creation (R461). -/
  features : BitVec 256
  /-- Descriptors fetched and not completed: sends to carry out, buffers posted. -/
  work : List Fetched
  /-- Descriptor reads outstanding, oldest first: their descriptors, and whether these are still wanted. -/
  fetching : List (Nat × Bool)
  /-- Frame reads outstanding whose descriptors were discarded. -/
  stale : Nat
  held : List HeldCompletion
  dma : List RxDma
  /-- Export sequence of a capture queue (R311); event sequence of an event queue (R475). -/
  seq : W32
  /-- The DISABLE_QUEUE commands that wait for DMA to return (R480). -/
  disabling : List Waiter
  deriving DecidableEq, Repr

/-- An admin command accepted and not completed (R485): its CID, function and the function's generation, and whether it
runs. -/
structure AdminCmd where
  cid : W16
  fn : W16
  gen : W16
  started : Bool
  deriving DecidableEq, Repr

/-- An admin queue (R482). -/
structure AdminQueue where
  sqAddr : W64
  cqAddr : W64
  enable : Bool
  sizeLog2 : BitVec 4
  vector : BitVec 11
  producer : W16
  consumer : W16
  head : W16
  completions : W16
  commands : W32
  accepted : List AdminCmd
  /-- Completions held while PF0 issues no request: CID, function, status, result. -/
  held : List (W16 × W16 × Byte × List Byte)
  /-- Data held likewise (R457; the model's own): DATA_LEN, address and bytes. -/
  heldData : List (Nat × Nat × List Byte)
  /-- CIDs of commands fetched before a reset of PF0 and not yet run (R497; the model's own). -/
  orphans : List W16
  deriving DecidableEq, Repr

def AdminQueue.reset : AdminQueue :=
  { sqAddr := 0#64, cqAddr := 0#64, enable := false, sizeLog2 := 4#4, vector := 2#11, producer := 0#16,
    consumer := 0#16, head := 0#16, completions := 0#16, commands := 0#32, accepted := [], held := [], heldData := [], orphans := [] }

/-- A pool of HOST_POOLS (R490). -/
structure Pool where
  storage : Bool
  hp0 : Bool
  hp1 : Bool
  fetchPool : Option Nat
  queueBase : Nat
  queueCount : Nat
  tenantBase : Nat
  tenantCount : Nat
  vectors : Nat
  featureMask : W64
  deriving DecidableEq, Repr

/-- The HOST_POOLS section: TotalVFs of HP0 PF1, HP0 PF2, HP1 PF1, HP1 PF2, and the pools. -/
structure HostPools where
  totalVfs : List Nat
  pools : List Pool
  deriving DecidableEq, Repr

def HostPools.empty : HostPools := { totalVfs := [0, 0, 0, 0], pools := [] }

/-- TYPE of an event that has no ring of its own (R475). -/
inductive EventType where
  | learn | dupAddress | flow | fault | functionReset | cutReady
  deriving DecidableEq, Repr

def EventType.code : EventType → Nat
  | .learn => 1 | .dupAddress => 2 | .flow => 3 | .fault => 4 | .functionReset => 5 | .cutReady => 6

/-- An event that waits to be posted: type, tick, record. -/
structure Event where
  type : EventType
  tick : W64
  record : List Byte
  deriving DecidableEq, Repr

/-- The queue unit, block QUE. -/
structure Que where
  queues : Tbl HostQueue
  admin0 : AdminQueue
  admin1 : AdminQueue
  qSel : W16
  pools : HostPools
  /-- FEATURE_OFFER by function kind 0-4 (R130). -/
  offers : List (BitVec 256)
  /-- Events of the sources without a ring of their own. -/
  events : List Event
  /-- By endpoint, the queue that a POOL slot of the fetch row serves: tick, START and queue (R71). -/
  serving : Tbl (Nat × Nat × Nat)
  deriving DecidableEq, Repr

end Sys2Proof
end

