-- ==== Sys2Proof/Machine/Types/Sto.lean ====
section
/-!
DEFINITION. The data of "Storage Functions", block STO: targets with their paths, namespaces, controllers and the
commands in process.
-/

namespace Sys2Proof

/-- States of a path (R435). -/
inductive PathState where
  | down | connecting | live | failed
  deriving DecidableEq, Repr

def PathState.code : PathState → Nat
  | .down => 0 | .connecting => 1 | .live => 2 | .failed => 3

/-- A unit of transport on its way to a target: the fabric queue, 0 for the admin queue, the RoCE v2 opcode, and its bytes (R434). -/
structure Pdu where
  queue : Nat
  op : Byte
  bytes : List Byte
  deriving DecidableEq, Repr

/-- What Identify Namespace reports on a path of a remote namespace (R430): LBA size 4,096 and size. -/
structure RemoteNs where
  nsid : W32
  lba4k : Bool
  size : Nat
  deriving DecidableEq, Repr

/-- A path of a target (R424). `pace` is the pacing rate of R434. -/
structure Path where
  port : Nat
  family : Nat
  svcPort : W16
  remote : BitVec 128
  localAddr : BitVec 128
  state : PathState
  /-- Backoff of the next attempt, and the tick from which it may be made. -/
  backoff : Nat
  attemptAt : Nat
  attempting : Bool
  /-- Pacing rate as a fraction of the port speed in units of 2^-32. -/
  pace : Nat
  /-- Tick from which the rate may next recover (R434; the model's own). -/
  paceAt : Nat
  /-- Bytes that a RoCE v2 path may send at once (R434; the model's own), and what it has to send. -/
  credit : Int
  sendQ : List Pdu
  keepAliveAt : Nat
  /-- What Identify Namespace reported when it became LIVE (R430). -/
  remotes : List RemoteNs
  deriving DecidableEq, Repr

/-- A target (R424). -/
structure Target where
  roce : Bool
  ioQueues : Nat
  depthLog2 : Nat
  tenant : Nat
  subnqn : Nat
  paths : List Path
  failures : W16
  /-- The target reports a volatile write cache. -/
  vwc : Bool
  /-- Tick since which no path has been LIVE. -/
  lostSince : Option Nat
  deriving DecidableEq, Repr

/-- A namespace entry (R425) with its status. -/
structure Namespace where
  fn : Nat
  nsid : Nat
  valid : Bool
  xts : Bool
  readOnly : Bool
  lba4k : Bool
  size : Nat
  target : Nat
  remoteNsid : W32
  remoteOffset : Nat
  context : Nat
  channel : Nat
  tweakBase : Nat
  nguid : BitVec 128
  errors : W32
  /-- NOT_READY of R438. -/
  notReady : Bool
  deriving DecidableEq, Repr

def Namespace.blank : Namespace :=
  { fn := 0xFFFF, nsid := 0, valid := false, xts := false, readOnly := false, lba4k := false, size := 0, target := 0,
    remoteNsid := 0#32, remoteOffset := 0, context := 0, channel := 0, tweakBase := 0, nguid := 0#128, errors := 0#32,
    notReady := true }

/-- A submission queue of a controller; queue 0 is its admin queue. Sizes are entries. `id` is its id among the host queues (R465);
`granted` counts the entries from the head on that fetch slots have read (R422). -/
structure NvmeSq where
  id : Nat
  granted : Nat
  base : W64
  size : Nat
  cqid : Nat
  head : Nat
  tail : Nat
  deriving DecidableEq, Repr

/-- A completion queue of a controller; `phase` is that of the next entry. `gathered` counts the completions since the last interrupt,
and `since` is the tick from which the first of them waits (Interrupt Coalescing, R421, R427). -/
structure NvmeCq where
  base : W64
  size : Nat
  vector : Option Nat
  tail : Nat
  head : Nat
  phase : Bool
  gathered : Nat
  since : Nat
  deriving DecidableEq, Repr

/-- A completion that waits for room in its queue or for D0: queue, CID, status field and Dword 0. -/
structure NvmePost where
  sqid : Nat
  cid : Nat
  status : Nat
  dw0 : Nat
  deriving DecidableEq, Repr

/-- The state of the namespace attribute notice: none, one to report, or reported and masked until the log is read. -/
inductive Notice where
  | none_ | due | reported
  deriving DecidableEq, Repr

/-- A controller (R419). -/
structure Controller where
  fn : W16
  cc : W32
  rdy : Bool
  shst : BitVec 2
  /-- Tick by which CAP.TO passes after a normal shutdown request (R440). -/
  shutBy : Option Nat
  aqa : W32
  asq : W64
  acq : W64
  intms : W32
  sqs : Tbl NvmeSq
  cqs : Tbl NvmeCq
  aers : List W16
  arbitration : W32
  vwcEnable : Bool
  coalescing : W32
  aec : W32
  /-- The Error Information log, newest first, at most 64. -/
  errorLog : List (W16 × W16 × W16 × W64)
  errorCount : W64
  changed : List Nat
  notice : Notice
  posts : List NvmePost
  deriving DecidableEq, Repr

def Controller.reset (fn : W16) : Controller :=
  { fn := fn, cc := 0#32, rdy := false, shst := 0#2, shutBy := none, aqa := 0#32, asq := 0#64, acq := 0#64,
    intms := 0#32, sqs := [], cqs := [], aers := [], arbitration := 0#32, vwcEnable := true, coalescing := 0#32,
    aec := 0#32, errorLog := [], errorCount := 0#64, changed := [], notice := .none_, posts := [] }

/-- The I/O opcodes of R421. -/
inductive IoOp where
  | flush | write | read | writeZeroes | dsm
  deriving DecidableEq, Repr

def IoOp.code : IoOp → Nat
  | .flush => 0 | .write => 1 | .read => 2 | .writeZeroes => 8 | .dsm => 9

/-- What a command in process waits for (R427): granules; its data from the host, or its Write Zeroes, Flush or Deallocate
being carried out; the slab's requests; a live path; a target; or the host's data being written. -/
inductive IoStage where
  | waitGranules | dataIn | carryOut | xts | waitPath | sent | dataOut
  deriving DecidableEq, Repr

/-- A storage command in process. -/
structure IoCmd where
  ctl : Nat
  sqid : Nat
  cid : W16
  op : IoOp
  /-- Namespace entry, and the namespace as it stood at the fetch: a fetched command ends under it (R440). -/
  ns : Nat
  space : Namespace
  /-- Flush of NSID FFFFFFFFh (R428). -/
  all : Bool
  slba : Nat
  /-- Logical blocks, 0 for those without. -/
  blocks : Nat
  /-- Host memory of its data: address and bytes. -/
  segs : List (Nat × Nat)
  /-- Granules it needs, and the addresses of those it holds. -/
  need : Nat
  bufs : List Nat
  stage : IoStage
  /-- Target and path of each request that awaits its response. -/
  sentTo : List (Nat × Nat)
  sentTick : Nat
  /-- Its CID on the fabric. -/
  fabricCid : W16
  reissues : Nat
  /-- Logical blocks of an encrypted Write Zeroes done, and of the part in progress (R431). -/
  done : Nat
  part : Nat
  /-- Slab requests of its data or of that part: submitted, and completed (R427). -/
  xtsNext : Nat
  xtsDone : Nat
  /-- Ranges of a Deallocate: attributes, blocks and first LBA. -/
  ranges : List (Nat × Nat × Nat)
  /-- First failure of a Flush of several targets. -/
  failed : Nat
  /-- The controller was reset: no completion is written (R440). -/
  orphan : Bool
  deriving DecidableEq, Repr

/-- The storage function unit, block STO. Namespaces by entry, targets by number, controllers by storage index. -/
structure Sto where
  present : Bool
  bufBase : Nat
  bufSize : Nat
  ioTimeout : Nat
  nsLoss : Nat
  retryLimit : Nat
  hostnqn : Nat
  strings : List (List Byte)
  targets : Tbl Target
  namespaces : Tbl Namespace
  /-- Namespace changes that the next boundary puts into effect (R426). -/
  nsDue : List (Nat × Namespace × Waiter)
  ctls : Tbl Controller
  cmds : List IoCmd
  /-- Requests of the slab that ended: the command whose block it was, and the status (R427; the model's own). -/
  xtsEnds : List ((Nat × Nat × W16) × Nat)
  timeouts : W16
  reissues : W16
  transient : W16
  internal : W16
  deriving DecidableEq, Repr

end Sys2Proof
end

