-- ==== Sys2Proof/Machine/Types/Dma.lean ====
section
/-!
DEFINITION. The data of "DMA Engines and Mailboxes", blocks DMA and MBX.
-/

namespace Sys2Proof

/-- STATE of DMA_CH_STAT. -/
inductive DmaState where
  | disabled | idle | running | halted
  deriving DecidableEq, Repr

def DmaState.code : DmaState → Nat
  | .disabled => 0 | .idle => 1 | .running => 2 | .halted => 3

/-- A DMA descriptor (R501), as fetched. -/
structure DmaDesc where
  src : Nat
  dst : Nat
  elem : Nat
  count0 : Nat
  count1 : Nat
  count2 : Nat
  srcHbm : Bool
  dstHbm : Bool
  barrier : Bool
  irq : Bool
  srcStride0 : Int
  dstStride0 : Int
  srcStride1 : Int
  dstStride1 : Int
  srcStride2 : Int
  dstStride2 : Int
  deriving DecidableEq, Repr

/-- A programmed channel. -/
structure DmaChannel where
  ringAddr : W64
  sizeLog2 : BitVec 4
  enable : Bool
  irqOnHalt : Bool
  vector : BitVec 11
  producer : W16
  dbErrors : W16
  state : DmaState
  failDir : Bool
  failHbm : Bool
  failCause : BitVec 4
  head : W16
  descriptors : W32
  failAddr : W64
  failI0 : W16
  failI1 : W16
  failI2 : W16
  failFetch : Bool
  bytes : W64
  /-- The descriptor whose transfer runs. -/
  desc : Option DmaDesc
  /-- Its data is written, and the flushing read of R506 is outstanding. -/
  flushing : Bool
  deriving DecidableEq, Repr

def DmaChannel.reset : DmaChannel :=
  { ringAddr := 0#64, sizeLog2 := 4#4, enable := false, irqOnHalt := false, vector := 2#11, producer := 0#16,
    dbErrors := 0#16, state := .disabled, failDir := false, failHbm := false, failCause := 0#4, head := 0#16,
    descriptors := 0#32, failAddr := 0#64, failI0 := 0#16, failI1 := 0#16, failI2 := 0#16, failFetch := false,
    bytes := 0#64, desc := none, flushing := false }

/-- A DMA engine: the channel that ran last (R499), the one that runs, and its halts. -/
structure DmaEngine where
  last : Nat
  active : Nat
  halts : W32
  deriving DecidableEq, Repr

def DmaEngine.reset : DmaEngine := { last := 15, active := 0, halts := 0#32 }

/-- The block DMA: engines by number, channels by 16 × engine + channel. -/
structure Dma where
  winBase : BitVec 21
  winSize : BitVec 21
  engines : Tbl DmaEngine
  channels : Tbl DmaChannel
  deriving DecidableEq, Repr

/-- A pair of mailboxes (R510). Messages are 64 bytes. -/
structure Mailbox where
  h2s : List Byte
  h2sFull : Bool
  h2sAborted : Bool
  s2h : List Byte
  s2hFull : Bool
  reject : Bool
  /-- REJECT set by an endpoint that is not the owner (R514). -/
  rejectOther : Bool
  heldReply : Option (List Byte)
  heldEngine : Option (List Byte)
  deriving DecidableEq, Repr

def Mailbox.reset : Mailbox :=
  { h2s := List.replicate 64 0#8, h2sFull := false, h2sAborted := false, s2h := List.replicate 64 0#8, s2hFull := false,
    reject := false, rejectOther := false, heldReply := none, heldEngine := none }

/-- The block MBX. -/
structure Mbx where
  boxes : Tbl Mailbox
  mask0 : W32
  mask1 : W32
  owner : W32
  last : BitVec 5
  rejects : W16
  s2hLost : W16
  s2hAborted : W16
  h2sAborted : W16
  alive : W64
  deriving DecidableEq, Repr

end Sys2Proof
end

