-- ==== Sys2Proof/Machine/Types/Mir.lean ====
section
/-!
DEFINITION. The data of "Redundant Pair, Clusters and Domains", blocks MIR and DOM.
-/

namespace Sys2Proof

/-- Side states (R531). -/
inductive SideState where
  | init | stale | syncing | active | standby | solo
  deriving DecidableEq, Repr

def SideState.code : SideState → Nat
  | .init => 0 | .stale => 1 | .syncing => 2 | .active => 3 | .standby => 4 | .solo => 5

def SideState.ofCode : Nat → SideState
  | 1 => .stale | 2 => .syncing | 3 => .active | 4 => .standby | 5 => .solo | _ => .init

/-- The PAIR section (R517). -/
structure PairSection where
  mode : Nat
  senseEn : Bool
  pollEn : Bool
  trunkGroup : Option Nat
  partnerAddr : BitVec 7
  pairId : W32
  domainId : W32
  root : Nat
  syncLog2 : Nat
  windows : Byte
  mirrored : List Nat
  /-- Partner channel and the local channel that shadows it. -/
  shadows : List (Nat × Nat)
  /-- PAIR_ROLE by port: 1 LOCAL, 2 PAIRED, 3 TRUNK. -/
  roles : Tbl Nat
  domainLinks : List Nat
  deriving DecidableEq, Repr

def PairSection.empty : PairSection :=
  { mode := 0, senseEn := false, pollEn := false, trunkGroup := none, partnerAddr := 0#7, pairId := 0#32,
    domainId := 0#32, root := 0, syncLog2 := 10, windows := 0#8, mirrored := [], shadows := [], roles := [],
    domainLinks := [] }

/-- Kinds of a PLAN (R527). -/
inductive PlanKind where
  | commit | select | join | swap
  deriving DecidableEq, Repr

def PlanKind.code : PlanKind → Nat
  | .commit => 0 | .select => 1 | .join => 2 | .swap => 3

/-- A plan in force: what, the boundary's tick, and whether the partner sent it. -/
structure PlanDue where
  kind : PlanKind
  version : Nat
  tick : Nat
  remote : Bool
  deriving DecidableEq, Repr

/-- A change record that waits for the delta of its tick (R527): its kind and body. -/
structure DeltaRec where
  kind : Nat
  body : List Byte
  deriving DecidableEq, Repr

/-- A frame of the retransmit store (R524). -/
structure SentFrame where
  seq : W32
  type : Nat
  payload : List Byte
  deriving DecidableEq, Repr

/-- The partner's last heartbeat (R526). -/
structure Heartbeat where
  tick : Nat
  state : SideState
  leader : Bool
  traceable : Bool
  slotFree : Bool
  leaving : Bool
  senseSeen : Bool
  admits : BitVec 512
  /-- GENERATION of its MLP header. -/
  generation : W32
  deriving DecidableEq, Repr

/-- What a bulk sync has still to send (R538): a table entry by its place or key, a write of the open version, a flow-state
entry, a mirrored channel from one of its words on, a PAIRED context, a run of a mirrored engine window, a plan, a gate list,
a CTR_HWM. -/
inductive SyncItem where
  | mac (place : Nat)
  | tenant (i : Nat)
  | segment (i : Nat)
  | ipv4 (k : LpmKey)
  | ipv6 (k : LpmKey)
  | ternary (i : Nat)
  | openWrite (w : VWrite)
  | adjacency (i : Nat)
  | flow (i : Nat)
  | channel (c first : Nat)
  | context (i : Nat)
  | window (a stop : Nat)
  | plan (p : PlanDue)
  | gate (port : Nat)
  | hwm (i : Nat)
  deriving DecidableEq, Repr

/-- The mirror unit, block MIR. -/
structure Mir where
  state : SideState
  pair : PairSection
  half0 : Bool
  half1 : Bool
  /-- A training attempt in progress and its start tick; the wait before the next one in ms. -/
  trainingSince : Option Nat
  waitUntil : Nat
  backoffMs : Nat
  attempts : W16
  retransmits : W32
  generation : W32
  takeovers : W16
  rejoins : W16
  e1 : Bool
  e2 : Bool
  e3 : Bool
  /-- Ticks without a heartbeat. -/
  miss : Nat
  /-- Consecutive pulses of the partner absent (R533). -/
  senseAbsent : Nat
  senseSeen : Bool
  /-- This side pulls PAIR_SENSE low. -/
  senseDrive : Bool
  heartbeat : Option Heartbeat
  /-- A heartbeat arrived in this tick. -/
  hbSeen : Bool
  /-- The last sideband read of the partner showed it present. -/
  pollAlive : Bool
  /-- A sideband read of the partner waits since this tick. -/
  pollSince : Option Nat
  pressure : Bool
  nextSeq : W32
  lastAck : W32
  /-- Tick at which ACK last advanced. -/
  ackTick : Nat
  unacked : List SentFrame
  /-- Highest SEQ received in order. -/
  received : W32
  /-- Delta bytes received since the last END. -/
  rxBytes : Nat
  /-- Records of the delta of this tick. -/
  delta : List DeltaRec
  /-- VER_WRITE records of writes after a sealing whose PLAN has not been sent: they follow the PLAN (R208). -/
  verHeld : List DeltaRec
  /-- Delta frames of the last tick sent. -/
  deltaFrames : Nat
  plans : List PlanDue
  /-- What waits for the next boundary: a SWAP to plan, a forced takeover, the change to STALE, the new leader (side B). -/
  swapDue : Bool
  forceDue : Bool
  staleDue : Bool
  leaderDue : Option Bool
  leaving : Bool
  syncActive : Bool
  syncReceiving : Bool
  syncBytes : Nat
  syncStart : Bool
  /-- Parts of which data came in the sync in progress. -/
  syncParts : List Nat
  syncQueue : List SyncItem
  /-- SEQ of the SYNC_DONE sent. -/
  syncDone : Option W32
  /-- MIRROR_IN_BYTES of the joiner. -/
  partnerIn : Nat
  /-- Own ordinary writes of the last 64 ticks: table, key, tick (R528). -/
  ownWrites : List (Nat × Nat × Nat)
  /-- The partner's unit map as of its last MIGRATION record. -/
  partnerUnits : List Byte
  /-- The partner's last BOUNDARY record. -/
  partnerBoundary : W64
  linkLost : Option Nat
  /-- Stamps of the heartbeat exchange (R526): egress of the last heartbeat and of the one before, ingress of the partner's
  last. -/
  lastTx : Stamp
  prevTx : Stamp
  prevRx : Stamp
  exportSeq : W32
  deriving DecidableEq, Repr

/-- A neighbour (R545). -/
structure Neighbour where
  port : Nat
  device : Nat
  hops : Nat
  traceable : Bool
  lastHello : Nat
  deriving DecidableEq, Repr

/-- A report window of a class and subject (R548). -/
structure ReportWindow where
  cls : W16
  subject : W32
  level : Nat
  stop : Nat
  count : W32
  firstTick : W64
  lastTick : W64
  deriving DecidableEq, Repr

/-- A record of the root's store (R549). -/
structure RootRecord where
  cls : W16
  subject : W32
  level : Nat
  opened : Nat
  reporters : List Nat
  devices : Nat
  count : W32
  firstTick : W64
  lastTick : W64
  deriving DecidableEq, Repr

/-- The domain unit, block DOM. -/
structure Dom where
  hops : Nat
  parent : Nat
  parentPort : Nat
  neighbours : List Neighbour
  cutTick : W64
  cutStatus : Byte
  cutId : W32
  cutTag : W64
  answerOk : W16
  answerRefused : W16
  sent : W16
  suppressed : W16
  relayLost : W16
  summaryLost : W16
  linkAsym : Tbl W16
  seq : W32
  /-- Plans already forwarded, by source and SEQ (R547). -/
  seen : List (Nat × W32)
  windows : List ReportWindow
  /-- Frames that wait in the relay queue. -/
  relay : List (List Byte)
  store : List RootRecord
  /-- The exchange in progress: t1, t2, t3 in SUB steps. -/
  t1 : Int
  t2 : Int
  t3 : Int
  deriving DecidableEq, Repr

end Sys2Proof
end

