-- ==== Sys2Proof/Machine/Types/Rcp.lean ====
section
/-!
DEFINITION. The data of "The Recipe and Proofing", "Reset and Start-Up", the sideband and the TAP: the Recipe,
declared demand, proofing results, shedding, NVM and option bytes, and the reset state (blocks RST and HBM).
-/

namespace Sys2Proof

/-- A DEMAND entry (R119). -/
structure DemandEntry where
  channel : Nat
  pool : Nat
  table : Nat
  pooled : Bool
  work : Nat
  gfWork : Nat
  maxPending : Nat
  latency : Nat
  deriving DecidableEq, Repr

/-- The DEMAND section (R119). -/
structure Demand where
  stateful : Nat
  mirrorOut : Nat
  mirrorIn : Nat
  storage : Nat
  hostHbm : Nat
  engineHbm : Nat
  spares : BitVec 96
  inject : List Nat
  entries : List DemandEntry
  deriving DecidableEq, Repr

def Demand.empty : Demand :=
  { stateful := 0, mirrorOut := 0, mirrorIn := 0, storage := 0, hostHbm := 0, engineHbm := 0, spares := 0#96,
    inject := [], entries := [] }

/-- A proofing result (R125). -/
structure ProofResult where
  status : Nat
  check : Nat
  table : Nat
  object : Nat
  demanded : Nat
  available : Nat
  headroom : Nat
  deriving DecidableEq, Repr

/-- The ENGINE_PROGRAMS section of a cluster (R385). -/
structure ProgramSection where
  cluster : Nat
  control : Nat
  programs : Tbl Program
  image : List W48
  bindings : List Binding
  states : Tbl (List W48)
  runs : Tbl W48
  hbmBase : Nat
  hbmSize : Nat
  deriving DecidableEq, Repr

/-- Table contents and port controls of the TABLE_IMAGE sections (R247). -/
structure TableImage where
  mac : List MacEntry
  seeds : List W32
  agePeriod : W32
  flowSeed : W32
  flowAgePeriod : W16
  tenants : Tbl TenantEntry
  adjacencies : Tbl Adjacency
  vtables : VTables
  ports : Tbl PortControl
  etypeLists : Tbl (List W16)
  aggregates : Tbl (List AggMember)
  floodGroups : Tbl (BitVec 512)
  deriving DecidableEq, Repr

/-- The SCHEDULER section: queue parameters by queue index, gate lists by port, hold limits of the clusters. -/
structure SchedSection where
  queues : Tbl SchQueue
  gates : Tbl GateList
  holds : List Nat
  hwmPeriod : Nat
  deriving DecidableEq, Repr

/-- The header of a Recipe image (R104). -/
structure ImageHeader where
  sections : Nat
  size : Nat
  securityVersion : W16
  f256 : Bool
  f512 : Bool
  recipeId : W32
  requiredPolicy : BitVec 4
  keyIndex : Nat
  buildTick : W64
  deriving DecidableEq, Repr

/-- An entry of the section table (R105). -/
structure SectionEntry where
  type : Nat
  inst : Nat
  offset : Nat
  length : Nat
  digest : BitVec 384
  deriving DecidableEq, Repr

/-- The contents of a Recipe that steps 1 to 5 of R113 read and place in staging. -/
structure Recipe where
  header : ImageHeader
  portMap : List PortMapEntry
  parse : ParseSection
  control : List CtlRule
  tables : TableImage
  programs : List ProgramSection
  cphBank : Bank
  engBank : Bank
  queBank : Bank
  sched : SchedSection
  meters : Tbl Meter
  policies : List AlarmPolicy
  overrides : List PolicyOverride
  irqLevel : BitVec 3
  journalLevel : BitVec 3
  l4Action : Bool
  offers : List (BitVec 256)
  demand : Demand
  /-- WORST_CASE entries, program and count, as they stand (R109). -/
  worst : List (Nat × Nat)
  pools : Option HostPools
  pair : Option PairSection
  storage : Option Sto
  deriving DecidableEq, Repr

/-- The option bytes as selected (R100, R101); `ob` 0 none, 1 primary, 2 copy. -/
structure Options where
  ob : Nat
  seq : W16
  device : BitVec 11
  cluster : BitVec 6
  sideB : Bool
  paired : Bool
  lanes : W64
  hp0En : Bool
  hp1En : Bool
  hp0Rate : BitVec 3
  hp1Rate : BitVec 3
  hp0Width : BitVec 3
  hp1Width : BitVec 3
  slotA : W32
  slotB : W32
  preferB : Bool
  noFallback : Bool
  nvmMode : BitVec 2
  journal : W32
  policy : BitVec 4
  minSecurity : W16
  keyAccept : BitVec 4
  deriving DecidableEq, Repr

def Options.none_ : Options :=
  { ob := 0, seq := 0#16, device := 0#11, cluster := 0#6, sideB := false, paired := false, lanes := 0#64, hp0En := false,
    hp1En := false, hp0Rate := 0#3, hp1Rate := 0#3, hp0Width := 0#3, hp1Width := 0#3, slotA := 0#32, slotB := 0#32,
    preferB := false, noFallback := false, nvmMode := 0#2, journal := 0#32, policy := 0#4, minSecurity := 0#16,
    keyAccept := 0#4 }

/-- An owner key entry (R112). -/
inductive OwnerKey where
  | blank | programmed (digest : BitVec 384) | revoked
  deriving DecidableEq, Repr

/-- The reset sources of R583. -/
inductive ResetSource where
  | powerOn | rstN | watchdog | software | fault | supervisor
  deriving DecidableEq, Repr

def ResetSource.code : ResetSource → Nat
  | .powerOn => 0 | .rstN => 1 | .watchdog => 2 | .software => 3 | .fault => 4 | .supervisor => 5

/-- What the board and the fuses fix, and the attached NVM: these outlive every reset. NVM bytes not listed read
0xFF. -/
structure Board where
  f256 : Bool
  serial : W32
  straps : BitVec 3
  nvm0Size : Nat
  nvm1Size : Nat
  nvm0 : Tbl Byte
  nvm1 : Tbl Byte
  ownerKeys : List OwnerKey
  /-- The Olelon key hash fixed in the boot ROM (R108). -/
  olelonKey : BitVec 384
  deriving DecidableEq, Repr

/-- The reset unit, block RST. -/
structure Rst where
  source : ResetSource
  testMode : Bool
  testRefused : Bool
  testRequested : Bool
  clockLossFlag : Bool
  supervisorResets : Byte
  resets : W32
  /-- Releases of R593 that have taken place, and the one awaited. -/
  released : BitVec 14
  waiting : Nat
  recovery : Bool
  supervisorMs : W32
  epoch : W24
  committed : Bool
  epochFailed : Bool
  exhausted : Bool
  vbatHigher : Bool
  refreshing : Bool
  slot0 : BitVec 11
  slot1 : BitVec 11
  wdogRunning : Bool
  restarting : Bool
  /-- Tick at which the Supervisor reset in progress began. -/
  restartTick : Nat
  expiries : Byte
  lastExpiry : W32
  options : Options
  policyEff : BitVec 4
  loaded : Bool
  activeB : Bool
  fellBack : Bool
  aTried : Bool
  bTried : Bool
  aResult : Byte
  bResult : Byte
  proofCheck : Byte
  securityVersion : W16
  recipeId : W32
  loadMs : W32
  /-- RST_N is low. -/
  inReset : Bool
  /-- The option-byte read is complete (R592). -/
  optRead : Bool
  /-- Steps 1 to 6 of R113 have passed, and the staged content is in place. -/
  staged : Bool
  /-- The last device reset left its RESET record unjournaled (R599). -/
  unjournaled : Bool
  /-- Whole ticks since the start began. -/
  upTicks : Nat
  /-- Clock domains whose PLL is not locked, by index of R552. -/
  unlocked : List Nat
  /-- Faults raised before the collector runs (R599). -/
  heldFaults : List Report
  /-- Step 7 has completed and its first boundary has not come (R117). -/
  applyDue : Bool
  deriving DecidableEq, Repr

/-- Shedding (R131, R132) and the demand of the last tick, and the HBM channels, block HBM. -/
structure HbmUnit where
  step : Nat
  quiet : Nat
  rises : W16
  step3Ticks : W16
  declared : W32
  backlog : W32
  /-- Channels retired into channel 15 of their stack (16 × stack + channel), and those lost beside (R39). -/
  retired : List Nat
  lostChannels : List Nat
  /-- Uncorrectable errors by channel: ticks of the last 1,000,000 ticks. -/
  errors : Tbl (List Nat)
  /-- Retirements due at the next boundary, with who waits. -/
  due : List (Nat × Waiter)
  /-- Bytes that the traffic capped in shedding step 1 has used of its allowance (R131). -/
  shedUsed : Nat
  deriving DecidableEq, Repr

/-- The configuration that the applied Recipe and accepted run-time changes declare. -/
structure Applied where
  demand : Demand
  /-- WORST_CASE entries, program and count, as they stand (R109). -/
  worst : List (Nat × Nat)
  /-- Demand that the next boundary puts into effect. -/
  demandDue : Option Demand
  portMap : List PortMapEntry
  parse : ParseSection
  control : List CtlRule
  requiredPolicy : BitVec 4
  deriving DecidableEq, Repr

/-- A sideband request held (R620). -/
inductive SbRequest where
  | statusRead (tag : Byte)
  | portHalt (tag : Byte) (port : W16)
  | versionSelect (tag : Byte) (version : Byte)
  deriving DecidableEq, Repr

/-- The sideband controller (fields of HIF_SB_STAT). -/
structure Sb where
  eid : Byte
  held : List SbRequest
  discarded : Byte
  commands : W16
  pecErrors : Byte
  arbLost : Byte
  /-- TAG of a VERSION_SELECT that waits for its boundary. -/
  selectTag : Byte
  deriving DecidableEq, Repr

/-- A guarded write that waits for its complement (R606): the address, the value, the beat count of its arrival. -/
structure GuardPending where
  addr : Nat
  value : W64
  beat : Nat
  deriving DecidableEq, Repr

/-- Window and guard registers of the block HIF. -/
structure Window where
  base0 : BitVec 11
  base1 : BitVec 11
  readsOut0 : Nat
  readsOut1 : Nat
  refused : W16
  lastRefused : W32
  guardOk : W16
  guardFail : Byte
  guardTimeout : Byte
  lastRequester : BitVec 2
  lastAddr : BitVec 24
  pendHp0 : List GuardPending
  pendHp1 : List GuardPending
  pendSup : List GuardPending
  deriving DecidableEq, Repr

/-- States of the TAP controller (IEEE 1149.1). -/
inductive TapState where
  | reset | idle | selectDr | captureDr | shiftDr | exit1Dr | pauseDr | exit2Dr | updateDr
  | selectIr | captureIr | shiftIr | exit1Ir | pauseIr | exit2Ir | updateIr
  deriving DecidableEq, Repr

/-- The test access port (R630). -/
structure Tap where
  state : TapState
  ir : BitVec 8
  irShift : BitVec 8
  drShift : W32
  bypass : Bool
  tdo : Bool
  tdoDriven : Bool
  deriving DecidableEq, Repr

end Sys2Proof
end

