-- ==== Sys2Proof/Machine/Types/Operand.lean ====
section
/-!
DEFINITION. The operands of the commands that are more than a number, and the outputs of the device: what it
sends to hosts, lines, the partner, the domain, the board and its storage targets.
-/

namespace Sys2Proof

/-! The fields of the instruction formats of R365, every bit of [39:0] in one field. -/

/-- Format RR. -/
structure RR where
  rd : Fin 32
  ra : Fin 32
  rb : Fin 32
  h : Fin 4
  zero : BitVec 23
  deriving DecidableEq, Repr

/-- Format RI. -/
structure RI where
  rd : Fin 32
  ra : Fin 32
  h : Fin 4
  zero : BitVec 4
  imm : BitVec 24
  deriving DecidableEq, Repr

/-- Format X. -/
structure XF where
  rd : Fin 32
  ra : Fin 32
  rb : Fin 32
  imm : BitVec 25
  deriving DecidableEq, Repr

/-- Format M. -/
structure MF where
  rd : Fin 32
  ra : Fin 32
  zero : BitVec 10
  off : BitVec 20
  deriving DecidableEq, Repr

/-- Format P. -/
structure PF where
  rd : Fin 32
  ra : Fin 32
  handle : Fin 16
  zero : BitVec 2
  imm : BitVec 24
  deriving DecidableEq, Repr

/-- Format B: `rb` holds bits [29:25], `mid` bits [24:15]. -/
structure BF where
  zero : BitVec 5
  ra : Fin 32
  rb : Fin 32
  mid : BitVec 10
  disp : BitVec 15
  deriving DecidableEq, Repr

/-- Format L. -/
structure LF where
  count : Byte
  zero : BitVec 17
  body : BitVec 15
  deriving DecidableEq, Repr

/-- What a table scrub finds at a place (R249): nothing, a corrected word or a bad word of replica TQq, or a bad word
of every replica in use. -/
inductive ScrubResult where
  | good | corrected (q : Fin 4) | badReplica (q : Fin 4) | badAll
  deriving DecidableEq, Repr

/-- Which word of a ledger counter an uncorrectable error hits, or that an error in a partial was corrected in place (R308). -/
inductive CounterPart where
  | slot0 | slot1 | total | corrected
  deriving DecidableEq, Repr

/-- What a sender of FAULT_ACK names (R568): the admin command's entry, or a write of FLT_ACK. -/
inductive AckSource where
  | admin (ep : Fin 2) (entry : List Byte)
  | register (value : W64)
  deriving DecidableEq, Repr

/-- What an Announce says of its grandmaster and its sender. -/
structure Announce where
  priority1 : Byte
  clockClass : Byte
  accuracy : Byte
  variance : W16
  priority2 : Byte
  identity : W64
  steps : W16
  sender : W64
  deriving DecidableEq, Repr

/-- The PTP messages received (R330, R331). -/
inductive PtpKind where
  | sync | followUp | delayResp | pdelayResp | announce (data : Announce) | management
  deriving DecidableEq, Repr

/-- A non-posted request that times out (R454). -/
inductive RequestOf where
  | queueRing (q : W16)
  | queueData (q : W16)
  | dmaChannel (e : Fin 4)
  | admin (ep : Fin 2)
  deriving DecidableEq, Repr

/-- Link errors of R454. -/
inductive LinkError where
  | receiver | badTlp | badDllp | replayRollover | replayTimeout | malformed | overflow | dataLinkProtocol
  | flowControl | poisoned | correctedInternal
  deriving DecidableEq, Repr

/-- A memory request's data: a read of some bytes, or a write (R449). -/
inductive Access where
  | read (len : Nat)
  | write (bytes : List Byte)
  deriving DecidableEq, Repr

/-- What a target sends for a command (R434): its completion with the status field; data for the storage buffers from byte `offset` of
the command's data on, by C2HData or RDMA WRITE; or its call for data, by R2T with its tag or by RDMA READ. -/
inductive AnswerKind where
  | completion (status : W16)
  | data (offset : Nat)
  | pull (tag : W16) (offset length : Nat)
  deriving DecidableEq, Repr

/-- An answer of a target on a path; `ecn` says that its packet carried an ECN mark (R434). -/
structure TargetAnswer where
  target : Fin 1024
  path : Fin 2
  ecn : Bool
  kind : AnswerKind
  deriving DecidableEq, Repr

/-- When a received frame's SFD came: ticks before this one, and the SUB step of its tick (R162). -/
structure RxStart where
  ago : Fin 16
  sub : Fin 32000
  deriving DecidableEq, Repr

/-- A frame start: the SUB step of this tick, and the frame's crumbs in the transmit FIFO (R159, R162). -/
structure TxStart where
  sub : Fin 32000
  fifo : Nat
  deriving DecidableEq, Repr

/-- What the decoder says of an FEC codeword: symbols in error, and that it cannot be corrected whatever their number (R153). -/
structure Codeword where
  symbols : Nat
  uncorrectable : Bool
  deriving DecidableEq, Repr

/-- A port whose lanes are all locked and aligned: the technologies that the partner advertised, each as lanes, lane rate and FEC,
and the PMA lane that each receive lane carries (R138, R149). -/
structure PortReach where
  port : Fin 512
  partner : List (Nat × Nat × Nat)
  order : List Nat
  deriving DecidableEq, Repr

/-- Why a function signals a wake event (R458). -/
inductive WakeCause where
  | frame (q : W16)
  | doorbell (d : Fin 32)
  | fault (level : Fin 5)
  deriving DecidableEq, Repr

/-- The outputs of the device. -/
inductive Out where
  /-- A memory write to the host: the DMA engine that carries it (R498), function, address, bytes. -/
  | hostWrite (engine : Nat) (fn : Nat) (addr : Nat) (bytes : List Byte)
  /-- A memory read request to the host: engine, function, address, length. -/
  | hostRead (engine : Nat) (fn : Nat) (addr : Nat) (len : Nat)
  /-- An MSI-X message of a function's vector. -/
  | msix (fn : Nat) (vector : Nat)
  /-- A PCI Express message: 0 PM_PME, 1 Function Readiness Status, 2 ERR_COR, 3 ERR_NONFATAL, 4 ERR_FATAL. -/
  | message (fn : Nat) (kind : Nat)
  /-- A completion of a request to the device: function, status (0 successful, 1 unsupported request, 2 request
  retry status, 4 completer abort), data. -/
  | completion (fn : Nat) (status : Nat) (bytes : List Byte)
  /-- The value a register read returns to a requester. -/
  | regData (r : Requester) (value : W64)
  /-- The bytes sent on a port, destination address through FCS. -/
  | frame (port : Nat) (bytes : List Byte)
  /-- A frame ended on a port with an inverted FCS (R160). -/
  | badFrame (port : Nat) (bytes : List Byte)
  /-- A mirror frame: type, sequence number, payload. -/
  | mirror (type : Nat) (seq : W32) (payload : List Byte)
  /-- A sideband response, or the master's request: bytes. -/
  | sideband (bytes : List Byte)
  deriving DecidableEq, Repr

end Sys2Proof
end

