-- ==== Sys2Proof/Syntax.lean ====
section
/-!
DEFINITION. The commands of the device: one constructor per row of the table of commands, in the table's order,
with the row's operands.
-/

namespace Sys2Proof

/-- The commands, each with the rule that governs it. -/
inductive Instr where
  /-- TICK_BOUNDARY, R59. -/
  | tickBoundary (declared : W32) (backlog : W32)
  /-- PPS_OUT_FALL, R328. -/
  | ppsOutFall
  /-- TMB_TICK_LO_READ, R58. -/
  | tmbTickLoRead (r : Requester)
  /-- SLT_ACT_LO_READ, R77. -/
  | sltActLoRead (table : Fin 3) (r : Requester)
  /-- BATCH_DISPATCH, R346. -/
  | batchDispatch (e : Fin 96) (t : Fin 8) (start : Fin 250)
  /-- BATCH_RELEASE, R82. -/
  | batchRelease (e : Fin 96) (t : Fin 8)
  /-- SLOT_OVERRUN, R83. -/
  | slotOverrun (e : Fin 96) (t : Fin 8)
  /-- MIGRATION_COPY_END, R85. -/
  | migrationCopyEnd (e : Fin 96) (bad : Option (Fin 8 × Fin 8192))
  /-- TIMER_FIRE, R351. -/
  | timerFire (e : Fin 96) (t : Fin 8)
  /-- HBM_RESULT_LANDING, R378. -/
  | hbmResultLanding
  /-- NOP, R367. -/
  | nop (e : Fin 96) (t : Fin 8) (f : RR)
  /-- ADD, R367. -/
  | add (e : Fin 96) (t : Fin 8) (f : RR)
  /-- SUB, R367. -/
  | sub (e : Fin 96) (t : Fin 8) (f : RR)
  /-- AND, R367. -/
  | and_ (e : Fin 96) (t : Fin 8) (f : RR)
  /-- OR, R367. -/
  | or_ (e : Fin 96) (t : Fin 8) (f : RR)
  /-- XOR, R367. -/
  | xor (e : Fin 96) (t : Fin 8) (f : RR)
  /-- ANDN, R367. -/
  | andn (e : Fin 96) (t : Fin 8) (f : RR)
  /-- SHL, R368. -/
  | shl (e : Fin 96) (t : Fin 8) (f : RR)
  /-- SHR, R368. -/
  | shr (e : Fin 96) (t : Fin 8) (f : RR)
  /-- SAR, R368. -/
  | sar (e : Fin 96) (t : Fin 8) (f : RR)
  /-- MUL, R367. -/
  | mul (e : Fin 96) (t : Fin 8) (f : RR)
  /-- MINU, R367. -/
  | minu (e : Fin 96) (t : Fin 8) (f : RR)
  /-- MAXU, R367. -/
  | maxu (e : Fin 96) (t : Fin 8) (f : RR)
  /-- SEQ, R367. -/
  | seq (e : Fin 96) (t : Fin 8) (f : RR)
  /-- SLT, R367. -/
  | slt (e : Fin 96) (t : Fin 8) (f : RR)
  /-- SLTU, R367. -/
  | sltu (e : Fin 96) (t : Fin 8) (f : RR)
  /-- SEL, R367. -/
  | sel (e : Fin 96) (t : Fin 8) (f : RR)
  /-- ADDI, R368. -/
  | addi (e : Fin 96) (t : Fin 8) (f : RI)
  /-- ANDI, R368. -/
  | andi (e : Fin 96) (t : Fin 8) (f : RI)
  /-- ORI, R368. -/
  | ori (e : Fin 96) (t : Fin 8) (f : RI)
  /-- XORI, R368. -/
  | xori (e : Fin 96) (t : Fin 8) (f : RI)
  /-- SHLI, R368. -/
  | shli (e : Fin 96) (t : Fin 8) (f : RI)
  /-- SHRI, R368. -/
  | shri (e : Fin 96) (t : Fin 8) (f : RI)
  /-- SARI, R368. -/
  | sari (e : Fin 96) (t : Fin 8) (f : RI)
  /-- SEQI, R368. -/
  | seqi (e : Fin 96) (t : Fin 8) (f : RI)
  /-- SLTUI, R368. -/
  | sltui (e : Fin 96) (t : Fin 8) (f : RI)
  /-- MOVI, R368. -/
  | movi (e : Fin 96) (t : Fin 8) (f : RI)
  /-- EXT, R368. -/
  | ext (e : Fin 96) (t : Fin 8) (f : XF)
  /-- INS, R368. -/
  | ins (e : Fin 96) (t : Fin 8) (f : XF)
  /-- CLZ, R367. -/
  | clz (e : Fin 96) (t : Fin 8) (f : XF)
  /-- POPC, R367. -/
  | popc (e : Fin 96) (t : Fin 8) (f : XF)
  /-- BSWAP, R367. -/
  | bswap (e : Fin 96) (t : Fin 8) (f : XF)
  /-- HASH, R368. -/
  | hash (e : Fin 96) (t : Fin 8) (f : XF)
  /-- LDL, R369. -/
  | ldl (e : Fin 96) (t : Fin 8) (f : MF)
  /-- STL, R369. -/
  | stl (e : Fin 96) (t : Fin 8) (f : MF)
  /-- LDS, R369. -/
  | lds (e : Fin 96) (t : Fin 8) (f : MF)
  /-- STS, R369. -/
  | sts (e : Fin 96) (t : Fin 8) (f : MF)
  /-- TAKE, R370. -/
  | take (e : Fin 96) (t : Fin 8) (f : PF)
  /-- TAKEK, R370. -/
  | takek (e : Fin 96) (t : Fin 8) (f : PF)
  /-- LDK, R367. -/
  | ldk (e : Fin 96) (t : Fin 8) (f : PF)
  /-- LDP, R371. -/
  | ldp (e : Fin 96) (t : Fin 8) (f : PF)
  /-- STP, R371. -/
  | stp (e : Fin 96) (t : Fin 8) (f : PF)
  /-- KEEP, R372. -/
  | keep (e : Fin 96) (t : Fin 8) (f : PF)
  /-- RLS, R372. -/
  | rls (e : Fin 96) (t : Fin 8) (f : PF)
  /-- DROP, R372. -/
  | drop (e : Fin 96) (t : Fin 8) (f : PF)
  /-- EMIT, R373. -/
  | emit (e : Fin 96) (t : Fin 8) (f : PF)
  /-- LKUP, R376. -/
  | lkup (e : Fin 96) (t : Fin 8) (f : XF)
  /-- TWR, R377. -/
  | twr (e : Fin 96) (t : Fin 8) (f : XF)
  /-- FRD, R378. -/
  | frd (e : Fin 96) (t : Fin 8) (f : XF)
  /-- FWR, R378. -/
  | fwr (e : Fin 96) (t : Fin 8) (f : XF)
  /-- HRD, R378. -/
  | hrd (e : Fin 96) (t : Fin 8) (f : XF)
  /-- HWR, R378. -/
  | hwr (e : Fin 96) (t : Fin 8) (f : XF)
  /-- CSUB, R379. -/
  | csub (e : Fin 96) (t : Fin 8) (f : XF)
  /-- LADD, R379. -/
  | ladd (e : Fin 96) (t : Fin 8) (f : XF)
  /-- SEND, R379. -/
  | send (e : Fin 96) (t : Fin 8) (f : XF)
  /-- MSGT, R379. -/
  | msgt (e : Fin 96) (t : Fin 8) (f : XF)
  /-- ARM, R379. -/
  | arm (e : Fin 96) (t : Fin 8) (f : XF)
  /-- TIME, R367. -/
  | time (e : Fin 96) (t : Fin 8) (f : XF)
  /-- BEAT, R367. -/
  | beat (e : Fin 96) (t : Fin 8) (f : XF)
  /-- BR, R367. -/
  | br (e : Fin 96) (t : Fin 8) (f : BF)
  /-- BEQ, R367. -/
  | beq (e : Fin 96) (t : Fin 8) (f : BF)
  /-- BNE, R367. -/
  | bne (e : Fin 96) (t : Fin 8) (f : BF)
  /-- BLT, R367. -/
  | blt (e : Fin 96) (t : Fin 8) (f : BF)
  /-- BLTU, R367. -/
  | bltu (e : Fin 96) (t : Fin 8) (f : BF)
  /-- BGE, R367. -/
  | bge (e : Fin 96) (t : Fin 8) (f : BF)
  /-- BGEU, R367. -/
  | bgeu (e : Fin 96) (t : Fin 8) (f : BF)
  /-- BBS, R367. -/
  | bbs (e : Fin 96) (t : Fin 8) (f : BF)
  /-- BBC, R367. -/
  | bbc (e : Fin 96) (t : Fin 8) (f : BF)
  /-- LOOP, R383. -/
  | loop (e : Fin 96) (t : Fin 8) (f : LF)
  /-- JT, R382. -/
  | jt (e : Fin 96) (t : Fin 8) (f : XF)
  /-- COMMIT, R380. -/
  | commit (e : Fin 96) (t : Fin 8) (f : RR)
  /-- ENGINE_THREAD_FAULT, R355. -/
  | engineThreadFault (e : Fin 96) (t : Fin 8) (cause : Byte)
  /-- SHARED_MEM_ERROR, R357. -/
  | sharedMemError (c : Fin 8) (word : Fin 1048576)
  /-- IMEM_SCRUB, R358. -/
  | imemScrub (c : Fin 8) (word : Fin 21845) (corrected : Bool)
  /-- ENGINE_SELFTEST_END, R361. -/
  | engineSelftestEnd (pass : Bool)
  /-- SUPERVISOR_ENGINE_MESSAGE, R245. -/
  | supervisorEngineMessage
  /-- RX_FRAME_DELIMITED, R152. -/
  | rxFrameDelimited (port : Fin 512) (bytes : List Byte) (start : RxStart) (aborted : Bool) (blocks : Nat)
  /-- FEC_CODEWORD_DECODE, R153. -/
  | fecCodewordDecode (port : Fin 512) (word : Codeword) (frames : Nat)
  /-- LANE_LOCK_LOST, R154. -/
  | laneLockLost (port : Fin 512) (lock : Byte) (aligned : Bool)
  /-- LINK_LOST, R143. -/
  | linkLost (port : Fin 512) (retrain : Bool)
  /-- FAULT_SETS_RECEIVED, R151. -/
  | faultSetsReceived (port : Fin 512) (remote : Bool)
  /-- FAULT_SETS_CEASE, R151. -/
  | faultSetsCease (port : Fin 512)
  /-- TRAINING_RESTART, R150. -/
  | trainingRestart (port : Fin 512)
  /-- PORT_REACH_UP, R151. -/
  | portReachUp (reach : PortReach)
  /-- REMOTE_DEGRADED_RX, R156. -/
  | remoteDegradedRx (port : Fin 512) (set : Bool)
  /-- DEGRADE_EVALUATION, R155. -/
  | degradeEvaluation (port : Fin 512)
  /-- PORT_DRAIN_DEADLINE, R145. -/
  | portDrainDeadline (port : Fin 512)
  /-- HEADER_LANE_ENTRY, R176. -/
  | headerLaneEntry (slice : Fin 16)
  /-- FLOW_STATE_ACCESS, R238. -/
  | flowStateAccess
  /-- PACKET_ENQUEUE, R256. -/
  | packetEnqueue
  /-- EMIT_ADMIT, R252. -/
  | emitAdmit
  /-- SCHEDULER_SELECT, R262. -/
  | schedulerSelect (unit : Fin 514)
  /-- GATE_ENTRY_CHANGE, R266. -/
  | gateEntryChange (port : Fin 512)
  /-- TX_FRAME_START, R159. -/
  | txFrameStart (port : Fin 512) (start : TxStart)
  /-- TX_UNDERRUN, R160. -/
  | txUnderrun (port : Fin 512)
  /-- TX_FRAME_DEPART, R293. -/
  | txFrameDepart (port : Fin 512)
  /-- LEARN_UNIT_PROCESS, R224. -/
  | learnUnitProcess
  /-- MAC_AGER_VISIT, R228. -/
  | macAgerVisit (place : Fin 1049600)
  /-- FLOW_AGER_VISIT, R240. -/
  | flowAgerVisit (index : BitVec 27)
  /-- TABLE_SCRUB_VISIT, R249. -/
  | tableScrubVisit (table : Fin 8) (index : BitVec 56) (result : ScrubResult)
  /-- SPILL_SWEEP, R286. -/
  | spillSweep (index : BitVec 22)
  /-- LEDGER_ECC_ERROR, R308. -/
  | ledgerEccError (index : BitVec 22) (part : CounterPart)
  /-- CUT_COPY_START, R299. -/
  | cutCopyStart
  /-- CUT_READY, R300. -/
  | cutReady
  /-- LDG_CUT_REQ_GO, R301. -/
  | ldgCutReqGo (v : W64)
  /-- LDG_CUT_PERIOD_WRITE, R301. -/
  | ldgCutPeriodWrite (v : W64)
  /-- LDG_CONS_REARM, R296. -/
  | ldgConsRearm (rec : Fin 18)
  /-- LDG_RD_IDX_WRITE, R289. -/
  | ldgRdIdxWrite (r : Requester) (v : W64)
  /-- MAC_STAT_READ, R165. -/
  | macStatRead (r : Requester) (port : Fin 512) (offset : BitVec 12)
  /-- LNM_PORT_TX_START_WRITE, R161. -/
  | lnmPortTxStartWrite (port : Fin 512) (v : W64)
  /-- PRBS_CTRL_WRITE, R169. -/
  | prbsCtrlWrite (lane : Fin 512) (v : W64)
  /-- PRBS_CLEAR, R169. -/
  | prbsClear (lane : Fin 512)
  /-- MACRO_DRAIN_END, R171. -/
  | macroDrainEnd (m : Fin 16)
  /-- MACRO_OFF_COMPLETE, R171. -/
  | macroOffComplete (m : Fin 16)
  /-- MACRO_PLL_LOCK, R172. -/
  | macroPllLock (m : Fin 16)
  /-- MACRO_PLL_LOSS, R173. -/
  | macroPllLoss (m : Fin 16)
  /-- VERSION_COMMIT_TIMEOUT, R206. -/
  | versionCommitTimeout
  /-- CIPHER_REQUEST_PROCESS, R401. -/
  | cipherRequestProcess (ctx : BitVec 18) (hbmOk : Bool)
  /-- CIPHER_OUTPUT_WRITE, R402. -/
  | cipherOutputWrite
  /-- KEY_CACHE_LOAD, R397. -/
  | keyCacheLoad (ctx : BitVec 18)
  /-- COUNTER_BLOCK_ALLOC, R406. -/
  | counterBlockAlloc (ctx : BitVec 18)
  /-- CIPHER_UNIT_FAIL, R403. -/
  | cipherUnitFail (unit : Fin 192) (ctx : Option (BitVec 18))
  /-- ENTROPY_STARTUP_DONE, R410. -/
  | entropyStartupDone
  /-- ENTROPY_STARTUP, R410. -/
  | entropyStartup
  /-- ENTROPY_HEALTH, R411. -/
  | entropyHealth
  /-- DRBG_RESEED, R409. -/
  | drbgReseed
  /-- ZEROIZE_COMPLETE, R416. -/
  | zeroizeComplete
  /-- ALARM_MESH, R576. -/
  | alarmMesh (present : Bool)
  /-- ALARM_VOLTAGE, R576. -/
  | alarmVoltage (present : Bool)
  /-- ALARM_CLOCK, R576. -/
  | alarmClock (present : Bool)
  /-- ALARM_TEMPERATURE, R576. -/
  | alarmTemperature (present : Bool)
  /-- ALARM_VBAT, R576. -/
  | alarmVbat (present : Bool)
  /-- SEC_ALARM_ACK, R578. -/
  | secAlarmAck (v : W64)
  /-- REF_100_LOSS, R558. -/
  | ref100Loss
  /-- CLOCK_LOCK_LOSS, R557. -/
  | clockLockLoss (domain : Fin 40)
  /-- DIE_SENSOR_HIGH, R551. -/
  | dieSensorHigh (sensor : Fin 16) (reading : BitVec 10)
  /-- JUNCTION_CRITICAL, R551. -/
  | junctionCritical (sensor : Fin 16) (reading : BitVec 10)
  /-- HBM_UNCORRECTABLE_ERROR, R241. -/
  | hbmUncorrectableError (hda : BitVec 37)
  /-- HBM_CHANNEL_FAIL, R551. -/
  | hbmChannelFail (stack : Fin 4) (channel : Fin 16)
  /-- FAULT_REPORT, R562. -/
  | faultReport (report : Option Report)
  /-- FLT_N_PULSE_END, R567. -/
  | fltNPulseEnd
  /-- FAULT_RESET_DUE, R560. -/
  | faultResetDue
  /-- FAULT_ACK, R568. -/
  | faultAck (source : AckSource)
  /-- FLT_INJ_WRITE, R570. -/
  | fltInjWrite (v : W64)
  /-- FLT_FORCE_GO, R571. -/
  | fltForceGo (v : W64)
  /-- JOURNAL_WRITE, R573. -/
  | journalWrite
  /-- JOURNAL_ERASE_DONE, R572. -/
  | journalEraseDone
  /-- SUPERVISOR_WATCHDOG, R586. -/
  | supervisorWatchdog
  /-- SUPERVISOR_RESET, R587. -/
  | supervisorReset
  /-- SUPERVISOR_RESUME, R587. -/
  | supervisorResume (verified : Bool)
  /-- POWER_ON_RESET, R583. -/
  | powerOnReset
  /-- RST_N_ASSERT, R585. -/
  | rstNAssert
  /-- DOMAIN_RELEASE, R593. -/
  | domainRelease (ready : Bool)
  /-- OPTION_BYTE_READ, R592. -/
  | optionByteRead
  /-- RECIPE_SLOT_LOAD, R113. -/
  | recipeSlotLoad (slotB : Bool) (badAt : Option Nat)
  /-- EPOCH_SECTOR_REFRESH, R598. -/
  | epochSectorRefresh
  /-- RST_SW_DEVICE_RESET, R583. -/
  | rstSwDeviceReset (testMode : Bool)
  /-- RST_SW_SUPERVISOR_RESET, R587. -/
  | rstSwSupervisorReset
  /-- GUARD_TIMEOUT, R607. -/
  | guardTimeout (r : Requester) (addr : BitVec 28)
  /-- REGISTER_WRITE, R604. -/
  | registerWrite (r : Requester) (addr : BitVec 28) (half : Option Bool) (v : W64)
  /-- TMB_TOD_ARM, R329. -/
  | tmbTodArm (v : W64)
  /-- TMB_SNAP_GO, R315. -/
  | tmbSnapGo (sub : Fin 32000)
  /-- PPS_IN_EDGE, R329. -/
  | ppsInEdge (sub : Fin 32000) (refTime : Bool)
  /-- TICK_IN_EDGE, R320. -/
  | tickInEdge (sub : Fin 32000)
  /-- REF_TIME_LOSS, R320. -/
  | refTimeLoss
  /-- PPS_IN_TIMEOUT, R320. -/
  | ppsInTimeout
  /-- PTP_MESSAGE_RX, R331. -/
  | ptpMessageRx (port : Fin 512) (kind : PtpKind) (offset : Int) (good : Bool) (sub : Fin 32000)
  /-- PTP_MESSAGE_SEND, R330. -/
  | ptpMessageSend (port : Fin 512) (kind : Fin 3)
  /-- PTP_ANNOUNCE_TIMEOUT, R320. -/
  | ptpAnnounceTimeout
  /-- HOLDOVER_EXPIRED, R327. -/
  | holdoverExpired
  /-- PRODUCER_DOORBELL, R470. -/
  | producerDoorbell (q : W16) (v : W16)
  /-- CONSUMER_DOORBELL, R469. -/
  | consumerDoorbell (q : W16) (v : W16)
  /-- DESCRIPTOR_FETCH, R470. -/
  | descriptorFetch (ep : Fin 2) (pos : Fin 240)
  /-- DESCRIPTOR_FETCH_DONE, R476. -/
  | descriptorFetchDone (q : W16) (ok : Bool) (bytes : List Byte)
  /-- SEND_FRAME_READ_DONE, R472. -/
  | sendFrameReadDone (q : W16) (ok : Bool) (bytes : List Byte)
  /-- HOST_RX_DMA, R473. -/
  | hostRxDma (q : W16)
  /-- HOST_RX_COMPLETE, R293. -/
  | hostRxComplete (q : W16) (ok : Bool)
  /-- EVENT_POST, R475. -/
  | eventPost (type : EventType)
  /-- ADMIN_FETCH, R485. -/
  | adminFetch (ep : Fin 2) (entry : List Byte)
  /-- QUE_AQ_ENABLE_WRITE, R482. -/
  | queAqEnableWrite (ep : Fin 2) (v : W64)
  /-- CREATE_QUEUE, R478. -/
  | createQueue (ep : Fin 2) (entry : List Byte) (data : List Byte)
  /-- DESTROY_QUEUE, R481. -/
  | destroyQueue (ep : Fin 2) (entry : List Byte) (data : List Byte)
  /-- ENABLE_QUEUE, R479. -/
  | enableQueue (ep : Fin 2) (entry : List Byte) (data : List Byte)
  /-- DISABLE_QUEUE, R480. -/
  | disableQueue (ep : Fin 2) (entry : List Byte) (data : List Byte)
  /-- QUERY_QUEUE, R487. -/
  | queryQueue (ep : Fin 2) (entry : List Byte) (data : List Byte)
  /-- CREATE_VF, R492. -/
  | createVf (ep : Fin 2) (entry : List Byte) (data : List Byte)
  /-- DESTROY_VF, R493. -/
  | destroyVf (ep : Fin 2) (entry : List Byte) (data : List Byte)
  /-- QUERY_FUNCTION, R487. -/
  | queryFunction (ep : Fin 2) (entry : List Byte) (data : List Byte)
  /-- STAGE_SLOTS, R75. -/
  | stageSlots (ep : Fin 2) (entry : List Byte) (data : List Byte)
  /-- SET_DEMAND, R126. -/
  | setDemand (ep : Fin 2) (entry : List Byte) (data : List Byte)
  /-- BIND_CHANNEL, R344. -/
  | bindChannel (ep : Fin 2) (entry : List Byte) (data : List Byte)
  /-- UNBIND_CHANNEL, R344. -/
  | unbindChannel (ep : Fin 2) (entry : List Byte) (data : List Byte)
  /-- SEND_TO_CHANNEL, R487. -/
  | sendToChannel (ep : Fin 2) (entry : List Byte) (data : List Byte)
  /-- SET_QUEUE_MIN, R487. -/
  | setQueueMin (ep : Fin 2) (entry : List Byte) (data : List Byte)
  /-- SET_METERS, R487. -/
  | setMeters (ep : Fin 2) (entry : List Byte) (data : List Byte)
  /-- PORT_ADMIN_DOWN, R145. -/
  | portAdminDown (ep : Fin 2) (entry : List Byte) (data : List Byte)
  /-- PORT_ADMIN_TRAINING, R147. -/
  | portAdminTraining (ep : Fin 2) (entry : List Byte) (data : List Byte)
  /-- PORT_ADMIN_TEST, R167. -/
  | portAdminTest (ep : Fin 2) (entry : List Byte) (data : List Byte)
  /-- PORT_ADMIN_HALT, R145. -/
  | portAdminHalt (ep : Fin 2) (entry : List Byte) (data : List Byte)
  /-- PORT_SPEED, R148. -/
  | portSpeed (ep : Fin 2) (entry : List Byte) (data : List Byte)
  /-- MACRO_POWER_DOWN, R171. -/
  | macroPowerDown (ep : Fin 2) (entry : List Byte) (data : List Byte)
  /-- MACRO_POWER_UP, R172. -/
  | macroPowerUp (ep : Fin 2) (entry : List Byte) (data : List Byte)
  /-- STAGE_GATE_LIST, R267. -/
  | stageGateList (ep : Fin 2) (entry : List Byte) (data : List Byte)
  /-- TABLE_WRITE, R489. -/
  | tableWrite (ep : Fin 2) (entry : List Byte) (data : List Byte)
  /-- TABLE_DELETE, R489. -/
  | tableDelete (ep : Fin 2) (entry : List Byte) (data : List Byte)
  /-- MAC_INSERT, R229. -/
  | macInsert (ep : Fin 2) (entry : List Byte) (data : List Byte)
  /-- MAC_MOVE, R229. -/
  | macMove (ep : Fin 2) (entry : List Byte) (data : List Byte)
  /-- MAC_DELETE, R229. -/
  | macDelete (ep : Fin 2) (entry : List Byte) (data : List Byte)
  /-- VERSION_COMMIT, R205. -/
  | versionCommit (ep : Fin 2) (entry : List Byte) (data : List Byte)
  /-- VERSION_SELECT, R207. -/
  | versionSelect (ep : Fin 2) (entry : List Byte) (data : List Byte)
  /-- TABLE_READ, R487. -/
  | tableRead (ep : Fin 2) (entry : List Byte) (data : List Byte)
  /-- CUT_REQUEST, R301. -/
  | cutRequest (ep : Fin 2) (entry : List Byte) (data : List Byte)
  /-- CUT_READ, R487. -/
  | cutRead (ep : Fin 2) (entry : List Byte) (data : List Byte)
  /-- TIME_CONFIG, R488. -/
  | timeConfig (ep : Fin 2) (entry : List Byte) (data : List Byte)
  /-- CONTEXT_CREATE, R393. -/
  | contextCreate (ep : Fin 2) (entry : List Byte) (data : List Byte)
  /-- CONTEXT_DESTROY, R396. -/
  | contextDestroy (ep : Fin 2) (entry : List Byte) (data : List Byte)
  /-- CONTEXT_SAVE, R412. -/
  | contextSave (ep : Fin 2) (entry : List Byte) (data : List Byte)
  /-- CONTEXT_RESTORE, R413. -/
  | contextRestore (ep : Fin 2) (entry : List Byte) (data : List Byte)
  /-- VAULT_LOAD, R414. -/
  | vaultLoad (ep : Fin 2) (entry : List Byte) (data : List Byte)
  /-- VAULT_CLEAR, R414. -/
  | vaultClear (ep : Fin 2) (entry : List Byte) (data : List Byte)
  /-- NAMESPACE_SET, R426. -/
  | namespaceSet (ep : Fin 2) (entry : List Byte) (data : List Byte)
  /-- ENGINE_SELFTEST, R361. -/
  | engineSelftest (ep : Fin 2) (entry : List Byte) (data : List Byte)
  /-- SLAB_TEST, R85. -/
  | slabTest (ep : Fin 2) (entry : List Byte) (data : List Byte)
  /-- HBM_RETIRE, R39. -/
  | hbmRetire (ep : Fin 2) (entry : List Byte) (data : List Byte)
  /-- NVM_READ, R487. -/
  | nvmRead (ep : Fin 2) (entry : List Byte) (data : List Byte)
  /-- NVM_WRITE, R99. -/
  | nvmWrite (ep : Fin 2) (entry : List Byte) (data : List Byte)
  /-- OWNER_KEY_PROGRAM, R112. -/
  | ownerKeyProgram (ep : Fin 2) (entry : List Byte) (data : List Byte)
  /-- OWNER_KEY_REVOKE, R112. -/
  | ownerKeyRevoke (ep : Fin 2) (entry : List Byte) (data : List Byte)
  /-- DEVICE_RESET, R583. -/
  | deviceReset (ep : Fin 2) (entry : List Byte) (data : List Byte)
  /-- FLR, R459. -/
  | flr (fn : W16)
  /-- FLR_COMPLETE, R494. -/
  | flrComplete (fn : W16)
  /-- PERST_N_ASSERT, R459. -/
  | perstNAssert (ep : Fin 2)
  /-- PERST_N_DEASSERT, R460. -/
  | perstNDeassert (ep : Fin 2)
  /-- CONFIG_READY, R460. -/
  | configReady (ep : Fin 2)
  /-- HOT_RESET, R459. -/
  | hotReset (ep : Fin 2)
  /-- LINK_UP, R441. -/
  | linkUp (ep : Fin 2) (rate : BitVec 3) (width : BitVec 3) (flit : Bool)
  /-- CONFIG_REQUEST, R460. -/
  | configRequest (fn : W16) (offset : BitVec 12) (write : Option W32)
  /-- BAR_MEMORY_REQUEST, R449. -/
  | barMemoryRequest (fn : W16) (bar : Fin 2) (offset : BitVec 28) (access : Access)
  /-- D3HOT_ENTRY, R457. -/
  | d3hotEntry (fn : W16)
  /-- D0_RETURN, R457. -/
  | d0Return (fn : W16)
  /-- WAKE_EVENT, R458. -/
  | wakeEvent (fn : W16) (cause : WakeCause)
  /-- MSIX_UNMASK, R451. -/
  | msixUnmask (fn : W16) (vector : Option (Fin 2048))
  /-- COMPLETION_TIMEOUT, R454. -/
  | completionTimeout (request : RequestOf)
  /-- HOST_IF_INTERNAL, R455. -/
  | hostIfInternal (ep : Fin 2)
  /-- FEATURES_OK_WRITE, R461. -/
  | featuresOkWrite (fn : W16)
  /-- FEAT_ACCEPT_WRITE, R461. -/
  | featAcceptWrite (fn : W16) (index : Fin 8) (v : W32)
  /-- DMA_CHANNEL_SELECT, R499. -/
  | dmaChannelSelect (e : Fin 4)
  /-- DMA_DESCRIPTOR_START, R503. -/
  | dmaDescriptorStart (e : Fin 4) (bytes : List Byte)
  /-- DMA_TRANSFER_DONE, R506. -/
  | dmaTransferDone (e : Fin 4) (data : List Byte)
  /-- DMA_BUS_ERROR, R507. -/
  | dmaBusError (e : Fin 4) (cause : Fin 6) (fetch : Bool) (write : Bool) (i0 : W16) (i1 : W16) (i2 : W16)
  /-- DMA_CH_RETRY, R508. -/
  | dmaChRetry (e : Fin 4) (c : Fin 16)
  /-- DMA_CH_SKIP, R508. -/
  | dmaChSkip (e : Fin 4) (c : Fin 16)
  /-- DMA_CH_RESET, R508. -/
  | dmaChReset (e : Fin 4) (c : Fin 16)
  /-- DMA_CH_ENABLE_WRITE, R509. -/
  | dmaChEnableWrite (e : Fin 4) (c : Fin 16) (v : W64)
  /-- DMA_CH_PROD_WRITE, R500. -/
  | dmaChProdWrite (e : Fin 4) (c : Fin 16) (v : W16)
  /-- MBX_H2S_RING, R512. -/
  | mbxH2sRing (ep : Fin 2) (v : W32)
  /-- MBX_H2S_DATA_WRITE, R514. -/
  | mbxH2sDataWrite (ep : Fin 2) (m : Fin 32) (offset : Fin 64) (bytes : List Byte)
  /-- ECHO, R512. -/
  | echo (m : Fin 32)
  /-- TO_CHANNEL, R512. -/
  | toChannel (m : Fin 32)
  /-- HOST_ALIVE, R512. -/
  | hostAlive (m : Fin 32)
  /-- S2H_POST, R513. -/
  | s2hPost (m : Fin 32)
  /-- MBX_S2H_RELEASE, R513. -/
  | mbxS2hRelease (ep : Fin 2) (v : W32)
  /-- MBX_S2H_MASK_WRITE, R513. -/
  | mbxS2hMaskWrite (n : Fin 2) (v : W32)
  /-- STORAGE_COMMAND_FETCH, R427. -/
  | storageCommandFetch (ctl : Fin 1024) (sqid : W16) (entry : List Byte) (ranges : List Byte)
  /-- NVME_DELETE_IO_SQ, R421. -/
  | nvmeDeleteIoSq (ctl : Fin 1024) (entry : List Byte)
  /-- NVME_CREATE_IO_SQ, R421. -/
  | nvmeCreateIoSq (ctl : Fin 1024) (entry : List Byte)
  /-- NVME_GET_LOG_PAGE, R421. -/
  | nvmeGetLogPage (ctl : Fin 1024) (entry : List Byte)
  /-- NVME_DELETE_IO_CQ, R421. -/
  | nvmeDeleteIoCq (ctl : Fin 1024) (entry : List Byte)
  /-- NVME_CREATE_IO_CQ, R421. -/
  | nvmeCreateIoCq (ctl : Fin 1024) (entry : List Byte)
  /-- NVME_IDENTIFY, R420. -/
  | nvmeIdentify (ctl : Fin 1024) (entry : List Byte)
  /-- NVME_ABORT, R436. -/
  | nvmeAbort (ctl : Fin 1024) (entry : List Byte)
  /-- NVME_SET_FEATURES, R421. -/
  | nvmeSetFeatures (ctl : Fin 1024) (entry : List Byte)
  /-- NVME_GET_FEATURES, R421. -/
  | nvmeGetFeatures (ctl : Fin 1024) (entry : List Byte)
  /-- NVME_ASYNC_EVENT_REQUEST, R421. -/
  | nvmeAsyncEventRequest (ctl : Fin 1024) (entry : List Byte)
  /-- NVME_FLUSH, R428. -/
  | nvmeFlush (ctl : Fin 1024) (sqid : W16) (cid : W16)
  /-- NVME_WRITE, R427. -/
  | nvmeWrite (ctl : Fin 1024) (sqid : W16) (cid : W16) (ok : Bool) (data : List Byte)
  /-- NVME_READ, R427. -/
  | nvmeRead (ctl : Fin 1024) (sqid : W16) (cid : W16) (ok : Bool)
  /-- NVME_WRITE_ZEROES, R431. -/
  | nvmeWriteZeroes (ctl : Fin 1024) (sqid : W16) (cid : W16)
  /-- NVME_DATASET_MANAGEMENT, R429. -/
  | nvmeDatasetManagement (ctl : Fin 1024) (sqid : W16) (cid : W16)
  /-- NVME_CC_WRITE, R440. -/
  | nvmeCcWrite (ctl : Fin 1024) (v : W32)
  /-- TARGET_RESPONSE_RX, R427. -/
  | targetResponseRx (ctl : Fin 1024) (sqid : W16) (cid : W16) (answer : TargetAnswer) (data : List Byte)
  /-- IO_TIMEOUT, R435. -/
  | ioTimeout (ctl : Fin 1024) (sqid : W16) (cid : W16)
  /-- PATH_CONNECT_ATTEMPT, R435. -/
  | pathConnectAttempt (tgt : Fin 1024) (path : Fin 2)
  /-- PATH_LIVE, R435. -/
  | pathLive (tgt : Fin 1024) (path : Fin 2) (vwc : Bool) (remote : List RemoteNs)
  /-- STORAGE_PATH_DOWN, R435. -/
  | storagePathDown (tgt : Fin 1024) (path : Fin 2)
  /-- KEEP_ALIVE_SEND, R434. -/
  | keepAliveSend (tgt : Fin 1024) (path : Fin 2)
  /-- NS_LOSS_TIMEOUT, R438. -/
  | nsLossTimeout (ns : Fin 16384)
  /-- CNP_RX, R434. -/
  | cnpRx (tgt : Fin 1024) (path : Fin 2)
  /-- PACING_RECOVERY, R434. -/
  | pacingRecovery (tgt : Fin 1024) (path : Fin 2)
  /-- MIRROR_TRAINING_ATTEMPT, R522. -/
  | mirrorTrainingAttempt
  /-- MIRROR_TRAINING_TIMEOUT, R522. -/
  | mirrorTrainingTimeout
  /-- MIRROR_HALF_UP, R521. -/
  | mirrorHalfUp (half : Fin 2)
  /-- MIRROR_HALF_DOWN, R521. -/
  | mirrorHalfDown (half : Fin 2)
  /-- MIRROR_RETRANSMIT, R524. -/
  | mirrorRetransmit
  /-- HEARTBEAT_RX, R526. -/
  | heartbeatRx (hb : Heartbeat) (ack : W32) (txPrev : Stamp) (rxPrev : Stamp) (sub : Fin 32000)
  /-- BOUNDARY_RECORD, R527. -/
  | boundaryRecord (v : W64)
  /-- ORD_WRITE, R528. -/
  | ordWrite (tick : W64) (table : Fin 7) (delete : Bool) (record : List Byte)
  /-- VER_WRITE, R528. -/
  | verWrite (tick : W64) (table : Fin 7) (delete : Bool) (record : List Byte)
  /-- PLAN, R529. -/
  | plan (kind : PlanKind) (version : Fin 16) (tick : W64)
  /-- FLOW, R528. -/
  | flow (index : BitVec 27) (delete : Bool) (bytes : List Byte)
  /-- CHANNEL, R528. -/
  | channel (channel : W24) (words : List W48)
  /-- CTR, R528. -/
  | ctr (ctx : BitVec 18) (hwm : W64)
  /-- CONTEXT, R528. -/
  | context (ctx : BitVec 18) (destroy : Bool) (image : List Byte)
  /-- GATE, R267. -/
  | gate (bytes : List Byte)
  /-- CUT, R304. -/
  | cut (answer : Bool) (status : Byte) (id : W32) (tick : W64) (tag : W64)
  /-- MIGRATION, R528. -/
  | migration (bytes : List Byte)
  /-- HBM_WRITE, R528. -/
  | hbmWrite (hda : BitVec 37) (bytes : List Byte)
  /-- LEADER, R332. -/
  | leader (sideB : Bool)
  /-- END, R527. -/
  | end_ (count : W32)
  /-- SYNC_REQ, R539. -/
  | syncReq (mirrorIn : W32) (pairId : W32)
  /-- SYNC_DATA, R539. -/
  | syncData (part : Byte) (offset : W64) (bytes : List Byte)
  /-- SYNC_DONE, R539. -/
  | syncDone (gen : W32) (size : W64)
  /-- MIR_SWAP, R535. -/
  | mirSwap
  /-- MIR_FORCE_TAKEOVER, R534. -/
  | mirForceTakeover
  /-- MIR_LEAVE, R535. -/
  | mirLeave
  /-- PARTNER_STATUS_RESPONSE, R621. -/
  | partnerStatusResponse (status : Byte) (serial : W32)
  /-- PARTNER_POLL_TIMEOUT, R621. -/
  | partnerPollTimeout
  /-- HELLO_SEND, R545. -/
  | helloSend
  /-- HELLO, R545. -/
  | hello (port : Fin 512) (device : BitVec 11) (hops : Byte) (traceable : Bool) (parent : W16)
  /-- NEIGHBOUR_LOST, R545. -/
  | neighbourLost (port : Fin 512)
  /-- DOMAIN_SYNC_SEND, R546. -/
  | domainSyncSend (port : Fin 512)
  /-- SYNC, R546. -/
  | sync (port : Fin 512) (t1 : Stamp) (sub : Fin 32000)
  /-- DELAY_REQ, R546. -/
  | delayReq (port : Fin 512) (source : BitVec 11) (sub : Fin 32000)
  /-- DELAY_RESP, R546. -/
  | delayResp (port : Fin 512) (t4 : Stamp)
  /-- CUT_PLAN, R547. -/
  | cutPlan (port : Fin 512) (source : BitVec 11) (seq : W32) (tick : W64) (tag : W64) (id : W32)
  /-- CUT_ANSWER, R547. -/
  | cutAnswer (port : Fin 512) (source : BitVec 11) (seq : W32) (status : Byte) (id : W32)
  /-- FAULT_REPORT_FRAME, R548. -/
  | faultReportFrame (port : Fin 512) (source : BitVec 11) (seq : W32) (cls : W16) (level : Fin 5) (subject : W32) (count : W32) (first : W64) (last : W64)
  /-- DOMAIN_REPORT_WINDOW, R548. -/
  | domainReportWindow (cls : W16) (subject : W32)
  /-- DOMAIN_SUMMARY_CLOSE, R549. -/
  | domainSummaryClose (cls : W16) (subject : W32)
  /-- DOM_CUT_GO, R547. -/
  | domCutGo (v : W64)
  /-- STATUS_READ, R619. -/
  | statusRead (tag : Byte)
  /-- PORT_HALT, R618. -/
  | portHalt (tag : Byte) (port : W16)
  /-- SB_VERSION_SELECT, R618. -/
  | sbVersionSelect (tag : Byte) (version : Byte)
  /-- SB_REQUEST_RX, R620. -/
  | sbRequestRx (bytes : List Byte)
  /-- SET_ENDPOINT_ID, R616. -/
  | setEndpointId (tag : Byte) (eid : Byte)
  /-- GET_ENDPOINT_ID, R616. -/
  | getEndpointId (tag : Byte)
  /-- GET_MCTP_VERSION_SUPPORT, R616. -/
  | getMctpVersionSupport (tag : Byte)
  /-- GET_MESSAGE_TYPE_SUPPORT, R616. -/
  | getMessageTypeSupport (tag : Byte)
  /-- GET_VENDOR_DEFINED_MESSAGE_SUPPORT, R616. -/
  | getVendorDefinedMessageSupport (tag : Byte)
  /-- RST_N_DEASSERT, R593. -/
  | rstNDeassert
  /-- CLOCK_LOCK_REGAINED, R557. -/
  | clockLockRegained (domain : Fin 40)
  /-- PRBS_CHECKER_LOCK, R169. -/
  | prbsCheckerLock (lane : Fin 512) (locked : Bool) (bits : Nat) (errors : Nat)
  /-- TICK_OUT_FALL, R328. -/
  | tickOutFall
  /-- PAIR_SENSE_DRIVE, R533. -/
  | pairSenseDrive (low : Bool)
  /-- PAIR_SENSE_SAMPLE, R533. -/
  | pairSenseSample (present : Bool)
  /-- TICK_IN_TIMEOUT, R320. -/
  | tickInTimeout
  /-- MIRROR_EXPORT_DEPART, R293. -/
  | mirrorExportDepart
  /-- EXPORT, R523. -/
  | export_ (bytes : List Byte)
  /-- NVME_SHUTDOWN_TIMEOUT, R440. -/
  | nvmeShutdownTimeout (ctl : Fin 1024)
  /-- PCIE_LINK_ERROR, R454. -/
  | pcieLinkError (ep : Fin 2) (error : LinkError) (header : List Byte)
  /-- UNEXPECTED_COMPLETION, R454. -/
  | unexpectedCompletion (ep : Fin 2) (header : List Byte)
  /-- TCK_EDGE, R630. -/
  | tckEdge (rising : Bool) (tms : Bool) (tdi : Bool)
  deriving DecidableEq, Repr

end Sys2Proof
end

