-- ==== Sys2Proof/Decode.lean ====
section
/-!
DEFINITION. Decoding: the table of commands gives its rows no bits, so no word spells a command.
-/

namespace Sys2Proof

/-- The command that a word of the table's bits spells: none, for no row has bits. -/
def decodeTableWord (_nbits _w : Nat) : Option Instr := none

end Sys2Proof
end

