-- ==== Sys2Proof/Config.lean ====
section
/-!
DEFINITION. What the spec leaves open as a value: free values and constants of one device, without a body.
-/

namespace Sys2Proof

/-- The n-th free value, of w bits: the output of the random service (R409, R410) and every other result that the
spec gives no value. Nothing constrains it. -/
opaque Config.freeBits (w n : Nat) : BitVec w

/-- The number of the checker, within its unit, that serves a class and a subject (R553 gives each checker a number
and one subject, and states no numbers). -/
opaque Config.checkerOf (cls subject : Nat) : BitVec 16

/-- ACCESS, CAUSE, MASTER_UNIT, MASTER_SUB, SPACE and ADDRESS that a checker captures for an error of a class about
a subject (R554 gives the fields and states no values for a class). -/
opaque Config.captureOf (cls subject : Nat) : BitVec 128

/-- The 128 bits of the name-based UUID formed from DEVICE_SERIAL and a function index (R420 does not say how). -/
opaque Config.functionUuid (serial index : Nat) : BitVec 128

/-- The eight characters of the Supervisor's firmware revision (R420). -/
opaque Config.firmwareRevision : BitVec 64

/-- The version entry of MCTP that the sideband controller reports (R616 names no version). -/
opaque Config.mctpVersion : BitVec 32

/-- The version word of the vendor-defined message set (R616). -/
opaque Config.vendorSet : BitVec 16

end Sys2Proof
end

