-- ==== Sys2Proof/Machine/FaultOps.lean ====
section
/-!
DEFINITION. Fault classes and subjects as numbers, the images of first-error records, fault records and FAULT
events (R551-R566).
-/

namespace Sys2Proof

/-- R551. CLOCK_LOCK_LOSS and LINK_DEGRADED take their level from R557 and R155. -/
def FaultClass.row : FaultClass → ClassRow
  | .optionCopyBad => ⟨0x0001, 1, false, .u⟩
  | .optionBytesBad => ⟨0x0002, 3, false, .u⟩
  | .recipeFallback => ⟨0x0003, 1, false, .u⟩
  | .recipeNone => ⟨0x0004, 3, false, .u⟩
  | .supervisorWatchdog => ⟨0x0005, 2, true, .u⟩
  | .clockLockLoss => ⟨0x0006, 1, true, .u⟩
  | .junctionHigh => ⟨0x0007, 1, false, .u⟩
  | .junctionCritical => ⟨0x0008, 4, false, .u⟩
  | .linkDegraded => ⟨0x0010, 1, false, .u⟩
  | .txUnderrun => ⟨0x0011, 0, false, .u⟩
  | .txUnderrunLimit => ⟨0x0012, 1, false, .u⟩
  | .macroPllLoss => ⟨0x0013, 2, true, .u⟩
  | .mirrorHalfDown => ⟨0x0018, 1, false, .u⟩
  | .tableEcc => ⟨0x0020, 1, false, .u⟩
  | .tableEntryLost => ⟨0x0021, 2, true, .u⟩
  | .flowEntryLost => ⟨0x0022, 1, false, .u⟩
  | .dupAddress => ⟨0x0023, 0, false, .k⟩
  | .hbmChannelFail => ⟨0x0028, 2, false, .u⟩
  | .hbmSpareExhausted => ⟨0x0029, 3, true, .u⟩
  | .hbmShed => ⟨0x002A, 1, false, .u⟩
  | .ledgerConservation => ⟨0x0030, 2, true, .u⟩
  | .ledgerPartialLost => ⟨0x0031, 2, false, .c⟩
  | .ledgerTotalLost => ⟨0x0032, 2, false, .c⟩
  | .engineThreadFault => ⟨0x0040, 2, false, .u⟩
  | .slotOverrun => ⟨0x0041, 2, false, .u⟩
  | .engineSparesExhausted => ⟨0x0042, 3, true, .u⟩
  | .sharedMemLost => ⟨0x0043, 2, true, .u⟩
  | .engineBistFail => ⟨0x0044, 1, false, .u⟩
  | .engineTableWrite => ⟨0x0045, 0, false, .h⟩
  | .cipherUnitFail => ⟨0x0050, 2, false, .u⟩
  | .slabReserveExhausted => ⟨0x0051, 3, true, .u⟩
  | .entropyStartup => ⟨0x0052, 2, false, .u⟩
  | .entropyHealth => ⟨0x0053, 2, true, .u⟩
  | .hostIfInternal => ⟨0x0060, 2, true, .u⟩
  | .dmaBusError => ⟨0x0061, 1, false, .u⟩
  | .storagePathDown => ⟨0x0062, 1, false, .t⟩
  | .storageNsMismatch => ⟨0x0063, 1, false, .n⟩
  | .timeRefLoss => ⟨0x0070, 1, false, .u⟩
  | .holdoverExpired => ⟨0x0071, 1, false, .u⟩
  | .pairTakeover => ⟨0x0080, 1, false, .u⟩
  | .pairColdTakeover => ⟨0x0081, 2, false, .u⟩
  | .pairOutOfStep => ⟨0x0082, 2, true, .u⟩
  | .pairConfigMismatch => ⟨0x0083, 2, false, .u⟩
  | .alarmMesh => ⟨0x0090, 1, false, .u⟩
  | .alarmVoltage => ⟨0x0091, 1, false, .u⟩
  | .alarmClock => ⟨0x0092, 1, false, .u⟩
  | .alarmTemperature => ⟨0x0093, 1, false, .u⟩
  | .alarmVbat => ⟨0x0094, 1, false, .u⟩

/-- Every class of R551. -/
def FaultClass.all : List FaultClass :=
  [.optionCopyBad, .optionBytesBad, .recipeFallback, .recipeNone, .supervisorWatchdog, .clockLockLoss,
   .junctionHigh, .junctionCritical, .linkDegraded, .txUnderrun, .txUnderrunLimit, .macroPllLoss,
   .mirrorHalfDown, .tableEcc, .tableEntryLost, .flowEntryLost, .dupAddress, .hbmChannelFail,
   .hbmSpareExhausted, .hbmShed, .ledgerConservation, .ledgerPartialLost, .ledgerTotalLost,
   .engineThreadFault, .slotOverrun, .engineSparesExhausted, .sharedMemLost, .engineBistFail,
   .engineTableWrite, .cipherUnitFail, .slabReserveExhausted, .entropyStartup, .entropyHealth,
   .hostIfInternal, .dmaBusError, .storagePathDown, .storageNsMismatch, .timeRefLoss, .holdoverExpired,
   .pairTakeover, .pairColdTakeover, .pairOutOfStep, .pairConfigMismatch,
   .alarmMesh, .alarmVoltage, .alarmClock, .alarmTemperature, .alarmVbat]

def FaultClass.code (c : FaultClass) : Nat := c.row.code

/-- The class of a code; none for a reserved code. -/
def FaultClass.ofCode (n : Nat) : Option FaultClass := FaultClass.all.find? (fun c => c.row.code == n)

/-- The alarm classes of R576. -/
def FaultClass.isAlarm (c : FaultClass) : Bool := decide (0x90 ≤ c.row.code) && decide (c.row.code ≤ 0x94)

/-- The U layout of R552. -/
def subjU (unit sub : Nat) : W32 := BitVec.ofNat 32 (unit % 256 + sub % 65536 * 256)

/-- Sub-unit of a subject about a whole unit. -/
def wholeUnit : Nat := 0xFFFF

/-- The unit identifiers of R23. -/
def unitListed (u : Nat) : Bool := decide (u < 0xA9) && u != 0x3F

/-- The units that a report names are listed ones (R23): that of a U subject, and the requester of a capture. -/
def Report.listed (r : Report) : Bool :=
  (r.cls.row.subj != .u || unitListed (r.subj.toNat % 256)) && (!r.cap.valid || unitListed r.cap.masterUnit.toNat)

def subjUnit (x : W32) : Nat := x.toNat % 256
def subjSub (x : W32) : Nat := x.toNat / 256 % 65536

/-- The level of CLOCK_LOCK_LOSS by clock domain index (R557). -/
def clockLossLevel (d : Nat) : Nat :=
  if d = 0 ∨ d = 1 ∨ d = 2 ∨ d = 11 then 4
  else if (3 ≤ d ∧ d ≤ 10) ∨ (12 ≤ d ∧ d ≤ 15) then 3
  else if (32 ≤ d ∧ d ≤ 36) then 2
  else 1

/-- The level that a class takes by R551 and R557 when FLT_FORCE raises it: CLOCK_LOCK_LOSS by the domain in its
sub-unit. -/
def classLevel (c : FaultClass) (subj : W32) : Nat :=
  if c = .clockLockLoss then clockLossLevel (subjSub subj) else c.row.level

/-- The raise and the escalation switch of ALARM_POLICY for a class (R579). -/
def overrideOf (os : List PolicyOverride) (c : FaultClass) : Option PolicyOverride := os.find? (fun o => o.cls == c)

def raisedLevel (os : List PolicyOverride) (c : FaultClass) (level : Nat) : Nat :=
  match overrideOf os c with
  | some o => min 4 (level + o.raise)
  | none => level

def escalates (os : List PolicyOverride) (c : FaultClass) : Bool :=
  match overrideOf os c with
  | some o => if o.escalate = 1 then true else if o.escalate = 2 then false else c.row.esc
  | none => c.row.esc

/-- The 32 bytes of a first-error record (R554). -/
def Capture.bytes (c : Capture) : List Byte :=
  leBytes 1 (putB c.valid 0 + putB c.injected 1) ++ [c.access] ++ leBytes 2 c.checker.toNat ++ [c.masterUnit, c.space]
    ++ leBytes 2 c.masterSub.toNat ++ leBytes 8 c.address.toNat ++ [c.cause, 0#8] ++ leBytes 2 c.count.toNat
    ++ leBytes 8 c.tick.toNat ++ leBytes 2 c.sub.toNat ++ [0#8, 0#8]

def RecKind.code : RecKind → Nat
  | .fault => 0 | .ack => 1 | .summary => 2 | .reset => 3

def TakeoverReq.code : TakeoverReq → Nat
  | .notRequested => 0 | .requested => 1 | .unanswered => 2

/-- The 128 bytes of a fault record (R564). -/
def FaultRecord.bytes (r : FaultRecord) : List Byte :=
  let flags := r.level % 8 + putB r.escalated 3 + putB r.injected 4 + putB r.forced 5
  let head := leBytes 4 r.seq.toNat ++ leBytes 1 1 ++ leBytes 1 r.kind.code ++ leBytes 1 flags
    ++ leBytes 1 (if r.acked then 1 else 0) ++ leBytes 2 r.cls.toNat ++ [r.index] ++ leBytes 1 r.takeover.code
    ++ leBytes 4 r.subject.toNat ++ leBytes 8 r.firstTick.toNat ++ leBytes 8 r.lastTick.toNat
    ++ leBytes 4 r.count.toNat ++ leBytes 3 r.bootEpoch.toNat ++ [0#8] ++ r.capture.bytes
    ++ leBytes 32 r.detail.toNat ++ leBytes 4 r.lost.toNat ++ leBytes 4 r.refSeq.toNat ++ leBytes 8 r.writeTick.toNat
  head ++ leBytes 4 (crc32 head).toNat ++ leBytes 4 r.seq.toNat

/-- A record with every field 0. -/
def FaultRecord.blank : FaultRecord :=
  { seq := 0#32, kind := .fault, level := 0, escalated := false, injected := false, forced := false, acked := false,
    cls := 0#16, index := 0xFF#8, takeover := .notRequested, subject := 0#32, firstTick := 0#64, lastTick := 0#64,
    count := 0#32, bootEpoch := 0#24, capture := Capture.blank, detail := 0#256, lost := 0#32, refSeq := 0#32,
    writeTick := 0#64, journaled := false }

/-- The 48 bytes of a FAULT event of KIND 0 to 2 (R566). -/
def FaultRecord.event (kind : Nat) (r : FaultRecord) : List Byte :=
  leBytes 2 r.cls.toNat ++ leBytes 1 r.level ++ leBytes 1 kind ++ leBytes 4 r.subject.toNat ++ leBytes 4 r.count.toNat
    ++ leBytes 4 r.seq.toNat ++ leBytes 8 r.firstTick.toNat ++ leBytes 8 r.capture.address.toNat
    ++ [r.capture.access, r.capture.space, r.capture.masterUnit, r.index] ++ leBytes 2 r.capture.masterSub.toNat
    ++ [0#8, 0#8] ++ leBytes 8 (r.detail.toNat % 2 ^ 64)

/-- The places of the store that hold a record of a class and subject, OPEN (R562). -/
def openRecord (t : Tbl FaultRecord) (code : Nat) (subj : W32) : Option Nat :=
  (t.find? (fun e => !e.2.acked && e.2.cls.toNat == code && e.2.subject == subj)).map (·.1)

/-- The place a new record takes (R563). -/
def storePlace (t : Tbl FaultRecord) : Option Nat :=
  let lowest := fun (p : FaultRecord → Bool) =>
    (t.foldl (fun (best : Option (Nat × Nat)) e =>
      if p e.2 then
        match best with
        | some (s, _) => if e.2.seq.toNat < s then some (e.2.seq.toNat, e.1) else best
        | none => some (e.2.seq.toNat, e.1)
      else best) none).map (·.2)
  match firstBelow 256 (fun i => !thas t i) with
  | some i => some i
  | none => match lowest (·.acked) with
    | some i => some i
    | none => lowest (fun r => !r.acked && r.level == 0)

/-- OPEN of FLT_STAT, and OPEN_MAX, 7 for none. -/
def openRecords (t : Tbl FaultRecord) : List FaultRecord := (t.map (·.2)).filter (fun r => !r.acked)
def openMax (t : Tbl FaultRecord) : Nat :=
  match openRecords t with
  | [] => 7
  | rs => maxOf (rs.map (·.level))

end Sys2Proof
end

