-- ==== Sys2Proof/Machine/LedgerOps.lean ====
section
/-!
DEFINITION. Operations over the ledger (R278-R308): counter indexes, adds with carries, spills, the admission,
freeze and copy of cuts, the conservation check, and flow records.
-/

namespace Sys2Proof

/-! Counter indexes (R282, R283). -/

def cTenantReason (tenant cls : Nat) : Nat := tenant * 32 + cls
def cMeter (m colour : Nat) : Nat := 0x200000 + m * 3 + colour
def cTenant (tenant k : Nat) : Nat := 0x2C0000 + tenant * 4 + k
def cTernHit (i : Nat) : Nat := 0x300000 + i
def cProgram (i : Nat) : Nat := 0x340000 + i
def cPortReason (p code : Nat) : Nat := 0x360000 + p * 256 + code
def cQueue (qx k : Nat) : Nat := 0x380000 + qx * 2 + k
def cPort (p k : Nat) : Nat := 0x3A4000 + p * 8 + k
def cUnitReason (u code : Nat) : Nat := 0x3A5000 + u * 256 + code
def cUnit (u k : Nat) : Nat := 0x3A6200 + u * 16 + k
/-- An occupancy counter (R297): UNIT k = 15 of U0 to U16, which the freeze itself puts into the buffer. -/
def cOccupancy (i : Nat) : Bool := decide (cUnit 0 0 ≤ i) && decide (i < cUnit 17 0) && i % 16 == 15
def cTable (slice table outcome : Nat) : Nat := 0x3A6400 + slice * 32 + table * 4 + outcome
def cMeterAgg (slice colour : Nat) : Nat := 0x3A6600 + slice * 4 + colour

/-- First index of the summary range, and the end of the defined range (R282). -/
def summaryFirst : Nat := 0x360000
def definedEnd : Nat := 0x3A6640

/-- One add (R280). -/
structure Add where
  idx : Nat
  pkts : Nat
  bytes : Nat
  deriving DecidableEq, Repr

/-- Whether a cut's scope holds a counter (R298). -/
def inScope (summary : Bool) (idx : Nat) : Bool :=
  decide (idx < definedEnd) && (!summary || decide (summaryFirst ≤ idx))

/-- Parity of a counter: whether its slot 1 is active (R286, LDG_STAT). -/
def slot1Active (l : Ldg) (idx : Nat) : Bool := if idx < summaryFirst then l.parityMain else l.paritySummary

/-- Whether a counter awaits its cut copy (R299). -/
def awaitsCopy (l : Ldg) (idx : Nat) : Bool :=
  match l.running with
  | some r => inScope r.req.summary idx && decide (r.next ≤ idx)
  | none => false

def slotOf (c : Ctr) (one : Bool) : Slot := if one then c.s1 else c.s0
def setSlot (c : Ctr) (one : Bool) (x : Slot) : Ctr := if one then { c with s1 := x } else { c with s0 := x }

/-- A carry posted to a counter (R287): into the total, or into the carry store while it awaits its copy. -/
def carryTo (c : Ctr) (wait : Bool) (p b : Nat) : Ctr :=
  if wait then { c with heldP := c.heldP + p, heldB := c.heldB + b }
  else { c with totP := c.totP + BitVec.ofNat 64 p, totB := c.totB + BitVec.ofNat 64 b }

/-- An add to one slot of one counter, with its carries (R280, R287). -/
def ctrAdd (c : Ctr) (one wait : Bool) (p b : Nat) : Ctr × Nat :=
  let s := slotOf c one
  let np := s.p.toNat + p
  let nb := s.b.toNat + b
  let cp := np / 2 ^ 24
  let cb := nb / 2 ^ 40
  let c := setSlot c one { p := BitVec.ofNat 24 np, b := BitVec.ofNat 40 nb }
  (carryTo c wait (cp * 2 ^ 24) (cb * 2 ^ 40), cp + cb)

/-- An add to a counter (R280). A `late` add belongs to the tick of a cut already frozen, or to one before it: it lands in the
frozen slot (R299 step 1), and its carries in the total, which the cut takes with it. Indexes outside the defined range are
never counted (R282). -/
def ldgAdd (late : Bool) (l : Ldg) (a : Add) : Ldg :=
  if definedEnd ≤ a.idx then l
  else
    let wait := awaitsCopy l a.idx
    let one := if late && wait then !(slot1Active l a.idx) else slot1Active l a.idx
    let (c, n) := ctrAdd (tgetD l.ctrs a.idx Ctr.zero) one (wait && !late) a.pkts a.bytes
    { l with ctrs := tset l.ctrs a.idx c, carries := wrapAdd l.carries n }

def ldgAdds (late : Bool) (l : Ldg) (as : List Add) : Ldg := as.foldl (ldgAdd late) l

/-- The value of a counter (R279): total, both partials and waiting carries. -/
def ctrValue (c : Ctr) : W64 × W64 :=
  (c.totP + BitVec.ofNat 64 (c.s0.p.toNat + c.s1.p.toNat + c.heldP),
   c.totB + BitVec.ofNat 64 (c.s0.b.toNat + c.s1.b.toNat + c.heldB))

def ldgValue (l : Ldg) (idx : Nat) : W64 × W64 :=
  if idx < definedEnd then ctrValue (tgetD l.ctrs idx Ctr.zero) else (0#64, 0#64)

/-- One step of the spill sweep (R286): the active partial of a counter moves into its total, unless the
counter awaits its cut copy; the last index ends a pass. -/
def ldgSpill (l : Ldg) (idx : Nat) : Ldg :=
  let l := match tget l.ctrs idx with
    | none => l
    | some c =>
      if awaitsCopy l idx then l
      else
        let one := slot1Active l idx
        let s := slotOf c one
        let c := setSlot c one { p := 0#24, b := 0#40 }
        { l with ctrs := tset l.ctrs idx (carryTo c false s.p.toNat s.b.toNat) }
  if idx = 2 ^ 22 - 1 then { l with sweeps := wrapInc l.sweeps } else l

/-! Conservation (R294-R296). -/

def tallyOf (l : Ldg) (u : Nat) : Tally := tgetD l.tallies u Tally.zero
def tallyMod (l : Ldg) (u : Nat) (f : Tally → Tally) : Ldg := { l with tallies := tmod Tally.zero l.tallies u f }

/-- DIFF of one unit (R294), given its occupancy at the end of the tick. -/
def unitDiff (t : Tally) (occEnd : Int) : Int :=
  occEnd - (t.occStart + t.arr + t.rep + t.xin - t.dep - t.drop - t.xout)

/-- The mismatch record written by a failing check (R296). -/
def mismatchWrite (l : Ldg) (r : Nat) (m : Mismatch) : Ldg :=
  let old := tgetD l.mismatch r Mismatch.blank
  let new := if old.valid then { old with later := satInc old.later } else { m with valid := true, later := 0#16 }
  { l with mismatch := tset l.mismatch r new, fresh := tset l.fresh r { m with valid := true, later := 0#16 }, mismatches := wrapInc l.mismatches, failed := l.failed ++ [r] }

def w32 (n : Nat) : W32 := BitVec.ofNat 32 n

/-- The check of one unit (R294): `occEnd` is the crumb buffer's own count. -/
def checkUnit (tick : W64) (occEnd : Nat → Int) (l : Ldg) (u : Nat) : Ldg :=
  let t := tallyOf l u
  let d := unitDiff t (occEnd u)
  if d = 0 then l
  else mismatchWrite l u
    { tick := tick, arrivals := w32 t.arr, replicas := w32 t.rep, xferIn := w32 t.xin, xferOut := w32 t.xout,
      departures := w32 t.dep, drops := w32 t.drop, occStart := toTwos 32 t.occStart,
      occEnd := toTwos 32 (occEnd u), diff := toTwos 32 d, later := 0#16, valid := true }

/-- The device's transfer balance (R294), record 17. -/
def checkBalance (tick : W64) (l : Ldg) : Ldg :=
  let i := sumOf ((List.range 17).map (fun u => (tallyOf l u).xin))
  let o := sumOf ((List.range 17).map (fun u => (tallyOf l u).xout))
  if i = o then l
  else mismatchWrite l 17
    { Mismatch.blank with tick := tick, xferIn := w32 i, xferOut := w32 o, diff := toTwos 32 ((i : Int) - o) }

/-- Duty 1 (R59): every check of the closing tick, and the tallies restarted from its occupancies. -/
def conservationCheck (tick : W64) (occEnd : Nat → Int) (l : Ldg) : Ldg :=
  let l := { l with failed := [] }
  let l := (List.range 17).foldl (checkUnit tick occEnd) l
  let l := checkBalance tick l
  { l with
    checked := wrapInc l.checked
    tallies := (List.range 17).map (fun u => (u, { Tally.zero with occ := occEnd u, occStart := occEnd u })) }

/-! Cuts (R297-R305). -/

def CutKind.rank : CutKind → Nat
  | .periodic => 0 | .demand => 1 | .pair => 2 | .domain => 3

/-- Lead of a kind (R298). -/
def CutKind.lead : CutKind → Nat
  | .periodic => 1 | .demand => 1 | .pair => 16 | .domain => 4096

/-- The window W of a cut (R300). -/
def cutWindow (summary : Bool) : Nat := if summary then 476 else 5532

/-- Compatible cuts (R300). -/
def compatible (aTick : Nat) (aSummary : Bool) (bTick : Nat) (bSummary : Bool) : Bool :=
  if aTick < bTick then decide (cutWindow aSummary ≤ bTick - aTick)
  else if bTick < aTick then decide (cutWindow bSummary ≤ aTick - bTick)
  else false

/-- Answer of an admission (R301). -/
inductive CutAnswer where
  | ok (id : W32) | stale | noRoom | refused
  deriving DecidableEq, Repr

/-- The 8-bit status of an answer (R18). -/
def CutAnswer.status : CutAnswer → Byte
  | .ok _ => 0x00#8 | .stale => 0x07#8 | .noRoom => 0x06#8 | .refused => 0x04#8

/-- A displaced cut counts in ABORTED, a periodic one in SKIPPED (R301). -/
def displaceAll (l : Ldg) (clash : List CutReq) : Ldg :=
  let per := (clash.filter (fun c => c.kind = .periodic)).length
  { l with
    scheduled := l.scheduled.filter (fun c => !(clash.contains c))
    skipped := wrapAdd l.skipped per
    aborted := wrapAdd l.aborted (clash.length - per) }

/-- admit of R301. -/
def cutAdmit (now : Nat) (l : Ldg) (new : CutReq) : Ldg × CutAnswer :=
  if new.tick < now + new.kind.lead then (l, .stale)
  else if new.kind ≠ .periodic ∧ (l.scheduled.filter (fun c => c.kind ≠ .periodic)).length = 16 then (l, .noRoom)
  else
    match l.scheduled.find? (fun c => c.tick == new.tick && (!c.summary || new.summary)) with
    | some same =>
      let kind := if same.kind.rank < new.kind.rank then new.kind else same.kind
      let joined := { same with kind := kind, partnerOk := same.partnerOk || new.partnerOk }
      ({ l with scheduled := l.scheduled.map (fun c => if c = same then joined else c) }, .ok same.id)
    | none =>
      let busy := match l.running with
        | some r => !(compatible r.req.tick r.req.summary new.tick new.summary)
        | none => false
      if busy then (l, .refused)
      else
        let clash := l.scheduled.filter (fun c => !(compatible c.tick c.summary new.tick new.summary))
        if clash.any (fun c => decide (new.kind.rank ≤ c.kind.rank)) then (l, .refused)
        else
          let l := displaceAll l clash
          let c := { new with id := l.nextCutId }
          ({ l with scheduled := l.scheduled ++ [c], nextCutId := wrapInc l.nextCutId }, .ok c.id)

/-- A periodic instance that is not admitted is skipped (R301). -/
def cutAdmitPeriodic (now : Nat) (l : Ldg) : Ldg :=
  let k := l.periodLog2.toNat
  if k = 0 then l
  else if (now + 2) % 2 ^ k = 0 then
    let (l', a) := cutAdmit now l
      { kind := .periodic, summary := l.periodSummary, tick := now + 1, tag := 0#64, id := 0#32, partnerOk := false }
    match a with
    | .ok _ => l'
    | _ => { l with skipped := wrapInc l.skipped }
  else l

/-- The periodic instances of ticks that a forward step from tick `old` to tick `next` skips, apart from the one that was
within reach: how many, and the latest as a cut (R305). -/
def periodicSkipped (l : Ldg) (old next : Nat) : Nat × CutReq :=
  let m := 2 ^ l.periodLog2.toNat
  (if l.periodLog2 = 0#5 then 0 else next / m - (old + 2) / m,
   { kind := .periodic, summary := l.periodSummary, tick := next / m * m - 1, tag := 0#64, id := l.nextCutId, partnerOk := false })

/-- The latest of them stands among the cuts due, and the others are skipped. One that would be frozen at this boundary within the
window of a cut already scheduled is skipped as well (R301). -/
def periodicStep (l : Ldg) (old next : Nat) : Ldg :=
  match periodicSkipped l old next with
  | (0, _) => l
  | (n + 1, c) =>
    if l.scheduled.any (fun x => decide (next ≤ x.tick) && !(compatible (next - 1) c.summary x.tick x.summary)) then
      { l with skipped := wrapAdd l.skipped (n + 1) }
    else
    { l with scheduled := l.scheduled ++ [c], nextCutId := wrapInc l.nextCutId, skipped := wrapAdd l.skipped n }

/-- What a cut record takes from the rest of the device (R303). -/
structure CutCtx where
  pairIncomplete : Bool
  untraceable : Bool
  stepped : Bool
  shed : Bool
  version : BitVec 4
  device : BitVec 11
  sideB : Bool
  generation : W32
  bootEpoch : W24
  deriving DecidableEq, Repr

/-- The buffer taken at a freeze (R302): neither held nor copying, written earliest. -/
def cutBufferFor (l : Ldg) : Option Nat :=
  (List.range 4).foldl (fun best b =>
    let x := tgetD l.bufs b CutBuf.empty
    if x.held || x.reading != 0 || x.state == 1 then best
    else match best with
      | none => some b
      | some a => if x.written < (tgetD l.bufs a CutBuf.empty).written then some b else some a) none

/-- The freeze of a cut (R299 step 1, R302, R303). `occ u` are the packets and crumbs that unit u holds. DEDUCED: the verdict bits
of a STEPPED cut are those of the tick that closed (log entry 165). -/
def cutFreeze (ctx : CutCtx) (occ : Nat → Nat × Nat) (boundaryTick : Nat) (l : Ldg) (c : CutReq) : Ldg :=
  let l := { l with scheduled := l.scheduled.filter (fun x => x ≠ c) }
  match cutBufferFor l with
  | none => { l with skipped := wrapInc l.skipped }
  | some b =>
    let old := tgetD l.bufs b CutBuf.empty
    let failedMask := (List.range 17).foldl (fun a u => if l.failed.contains u then a + 2 ^ u else a) 0
    let record : CutRecord :=
      { state := 1, kind := c.kind, summary := c.summary, id := c.id, tick := BitVec.ofNat 64 c.tick,
        unitMismatch := BitVec.ofNat 17 failedMask, transferMismatch := l.failed.contains 17,
        pairIncomplete := c.kind = .pair && ctx.pairIncomplete, untraceable := ctx.untraceable,
        stepped := ctx.stepped, loss := l.loss, shed := ctx.shed, version := ctx.version, device := ctx.device,
        sideB := ctx.sideB, readyTick := 0#64, generation := ctx.generation,
        count := if c.summary then 288320 else 3827264, buffer := b,
        tag := if c.kind = .periodic then 0#64 else c.tag, bootEpoch := ctx.bootEpoch }
    let content := (List.range 17).foldl (fun t u =>
      tset t (cUnit u 15) (BitVec.ofNat 64 (occ u).1, BitVec.ofNat 64 (occ u).2)) old.content
    { l with
      parityMain := if c.summary then l.parityMain else !l.parityMain
      paritySummary := !l.paritySummary
      running := some { req := c, buffer := b, freezeTick := boundaryTick, started := false,
                        next := if c.summary then summaryFirst else 0 }
      takes := l.takes + 1
      loss := false
      bufs := tset l.bufs b { old with state := 1, record := some record, content := content, written := l.takes + 1 } }

/-- The copy of one counter (R299 step 4): the value for the buffer, and the counter after it. -/
def cutCopyCtr (one : Bool) (c : Ctr) : (W64 × W64) × Ctr :=
  let frozen := slotOf c (!one)
  let tp := c.totP + BitVec.ofNat 64 frozen.p.toNat
  let tb := c.totB + BitVec.ofNat 64 frozen.b.toNat
  let c := setSlot c (!one) { p := 0#24, b := 0#40 }
  ((tp, tb), { c with totP := tp + BitVec.ofNat 64 c.heldP, totB := tb + BitVec.ofNat 64 c.heldB, heldP := 0, heldB := 0 })

/-- The counters in scope below `upto` that are not yet copied are copied (R299 step 4). -/
def cutCopyTo (upto : Nat) (l : Ldg) : Ldg :=
  match l.running with
  | none => l
  | some r =>
    let here := fun (i : Nat) => inScope r.req.summary i && decide (r.next ≤ i) && decide (i < upto) && !cOccupancy i
    let buf := tgetD l.bufs r.buffer CutBuf.empty
    let (ctrs, content) := l.ctrs.foldl (fun (acc : Tbl Ctr × Tbl (W64 × W64)) e =>
      if here e.1 then
        let (v, c) := cutCopyCtr (slot1Active l e.1) e.2
        (acc.1 ++ [(e.1, c)], tset acc.2 e.1 v)
      else (acc.1 ++ [e], acc.2)) ([], buf.content)
    { l with
      ctrs := ctrs
      running := some { r with next := max r.next upto }
      bufs := tset l.bufs r.buffer { buf with content := content } }

/-- The copy at tick `now`: 700 counters a tick from 64 ticks after the freeze on (R299; log entry 123). -/
def cutAdvance (now : Nat) (l : Ldg) : Ldg :=
  match l.running with
  | some r =>
    if r.started then
      cutCopyTo ((if r.req.summary then summaryFirst else 0) + 700 * (now - (r.freezeTick + 64))) l
    else l
  | none => l

/-- The end of a cut's copy (R299 step 4, R300, R303): every counter in scope copied, the record rewritten with
STATE 2. -/
def cutFinish (now : Nat) (l : Ldg) : Ldg :=
  match l.running with
  | none => l
  | some r =>
    let l := cutCopyTo definedEnd l
    let buf := tgetD l.bufs r.buffer CutBuf.empty
    let record := buf.record.map (fun x => { x with state := 2, readyTick := BitVec.ofNat 64 now })
    { l with running := none, lastReadyId := r.req.id, bufs := tset l.bufs r.buffer { buf with state := 2, record := record } }

/-- A write of LDG_CUT_PERIOD (R301): the values stored, and the periodic instances removed. -/
def cutPeriodWrite (l : Ldg) (log2 : Nat) (summary : Bool) : Ldg :=
  let k := if log2 = 0 then 0 else if log2 < 10 then 10 else if 30 < log2 then 30 else log2
  let gone := (l.scheduled.filter (fun c => c.kind = .periodic)).length
  { l with
    scheduled := l.scheduled.filter (fun c => c.kind ≠ .periodic)
    skipped := wrapAdd l.skipped gone
    periodLog2 := BitVec.ofNat 5 k
    periodSummary := summary || decide (log2 < 13) }

/-- The bytes of a cut record (R303). -/
def cutRecordBytes (r : CutRecord) : List Byte :=
  let flags := putB (r.unitMismatch ≠ 0#17 || r.transferMismatch) 0 + put r.unitMismatch.toNat 1 17
    + putB r.pairIncomplete 18 + putB r.untraceable 19 + putB r.stepped 20 + putB r.loss 21 + putB r.shed 22
    + putB r.transferMismatch 23
  leBytes 1 1 ++ leBytes 1 r.state ++ leBytes 1 r.kind.rank ++ leBytes 1 (if r.summary then 1 else 0)
    ++ leBytes 4 r.id.toNat ++ leBytes 8 r.tick.toNat ++ leBytes 4 flags ++ leBytes 1 r.version.toNat
    ++ leBytes 1 0 ++ leBytes 2 (r.device.toNat + putB r.sideB 11) ++ leBytes 8 r.readyTick.toNat
    ++ leBytes 4 r.generation.toNat ++ leBytes 4 r.count
    ++ leBytes 8 (0x0204000000 + r.buffer * 0x04000000) ++ leBytes 8 r.tag.toNat
    ++ leBytes 3 r.bootEpoch.toNat ++ leBytes 1 0 ++ leBytes 4 r.id.toNat

/-! Losses (R308). -/

/-- The value the newest readable cut holds of a counter (R308). -/
def newestCutValue (l : Ldg) (idx : Nat) : Option (W64 × W64) :=
  (List.range 4).foldl (fun (best : Option (Nat × (W64 × W64))) b =>
    let x := tgetD l.bufs b CutBuf.empty
    match x.record with
    | some r =>
      if x.state == 2 && inScope r.summary idx then
        let v := tgetD x.content idx (0#64, 0#64)
        match best with
        | some (t, _) => if t < r.tick.toNat then some (r.tick.toNat, v) else best
        | none => some (r.tick.toNat, v)
      else best
    | none => best) none |>.map (·.2)

/-- An uncorrectable error in a slot (R308). -/
def slotLost (l : Ldg) (idx : Nat) (one : Bool) : Ldg :=
  { l with
    ctrs := tadj l.ctrs idx (fun c => setSlot c one { p := 0#24, b := 0#40 })
    lost := wrapInc l.lost, loss := true }

/-- An uncorrectable error in a total (R308). -/
def totalLost (l : Ldg) (idx : Nat) : Ldg :=
  let v := (newestCutValue l idx).getD (0#64, 0#64)
  { l with
    ctrs := tmod Ctr.zero l.ctrs idx (fun c => { c with totP := v.1, totB := v.2 })
    lost := wrapInc l.lost, loss := true }

/-- A flow record into its ring of 16,384 (R291); a full ring discards it, and its SEQ is used up. -/
def flowRecordPost (l : Ldg) (r : FlowRecord) : Ldg :=
  let r := { r with seq := l.flowSeq }
  let l := { l with flowSeq := wrapInc l.flowSeq }
  if 16384 ≤ l.flowRing.length then { l with flowLost := wrapInc l.flowLost }
  else { l with flowRing := l.flowRing ++ [r] }

end Sys2Proof
end

