-- ==== Sys2Proof/Machine/Types/Ptp.lean ====
section
/-!
DEFINITION. The configuration of the IEEE 1588 instance (R330, R488), and its learned grandmaster.
-/

namespace Sys2Proof

/-- A master that announces itself: its data, its timeTraceable, and the tick of its last Announce. -/
structure PtpMaster where
  data : Announce
  traceable : Bool
  tick : Nat
  deriving DecidableEq, Repr

/-- A PTP port of TIME_CONFIG (R488). -/
structure PtpPort where
  port : Nat
  transport : Nat
  peerDelay : Bool
  logSync : Int
  logAnnounce : Int
  logDelayReq : Int
  external : Nat
  /-- Its messages match no control-class rule, as its port status reports (R331). -/
  noControlRule : Bool
  /-- The best master heard on the port. -/
  foreign : Option PtpMaster
  /-- Tick of the last message sent, by kind: 0 Sync, 1 Announce, 2 Delay_Req; and the sequence number. -/
  last : Tbl Nat
  seq : W16
  deriving DecidableEq, Repr

/-- The IEEE 1588 instance. -/
structure Ptp where
  enable : Bool
  domainNumber : Byte
  boundary : Bool
  priority1 : Byte
  priority2 : Byte
  clockClass : Byte
  external : Bool
  ports : List PtpPort
  deriving DecidableEq, Repr

def Ptp.off : Ptp :=
  { enable := false, domainNumber := 0#8, boundary := false, priority1 := 0#8, priority2 := 0#8, clockClass := 0#8,
    external := false, ports := [] }

end Sys2Proof
end

