-- ==== Sys2Proof/Machine/State.lean ====
section
/-!
DEFINITION. The state of the device, one field per register block and unit of the spec, its reset value, and the
reasons a step can stop.
-/

namespace Sys2Proof.Machine

/-- The reasons a step faults. The device has none: what an access or a command finds wrong it reports itself, by a
status, a fault record or a drop reason, and goes on. -/
inductive Fault where
  deriving DecidableEq, Repr

/-- The reasons a command is refused. -/
inductive Refusal where
  /-- Raised by the dispatch for a command that has no meaning yet; safe. -/
  | notModelled (mnemonic : String)
  deriving DecidableEq, Repr

/-- The device, with its pins, its NVM, its outputs and the commands that wait. -/
structure State where
  /-- Fuses, straps and attached NVM, which no reset changes. -/
  board : Board
  rst : Rst
  app : Applied
  tmb : Tmb
  ptp : Ptp
  sltCph : SlotTable
  sltEng : SlotTable
  sltQue : SlotTable
  lnm : Lnm
  prs : Tbl PrsSlice
  dec : Dec
  fwd : Fwd
  crb : Crb
  sch : Sch
  ldg : Ldg
  eng : Eng
  cph : Cph
  kvl : Kvl
  flt : Flt
  sec : Sec
  hif : Hif
  win : Window
  sb : Sb
  que : Que
  dma : Dma
  mbx : Mbx
  sto : Sto
  mir : Mir
  dom : Dom
  hbmU : HbmUnit
  /-- HBM bytes by decoded address; a byte not listed reads 0. -/
  hbm : Tbl Byte
  tap : Tap
  /-- What the device has sent, newest first. -/
  out : List Out
  /-- Number of free values used so far; the model's own. -/
  free : Nat
  /-- The commands that wait, the first to be taken first. -/
  pending : List Instr
  deriving DecidableEq, Repr

/-! Reset values, block by block. -/

def Rst.reset : Rst :=
  { source := .powerOn, testMode := false, testRefused := false, testRequested := false, clockLossFlag := false,
    supervisorResets := 0#8, resets := 0#32, released := 0#14, waiting := 0, recovery := false, supervisorMs := 0#32,
    epoch := 0#24, committed := false, epochFailed := false, exhausted := false, vbatHigher := false,
    refreshing := false, slot0 := 0#11, slot1 := 0#11, wdogRunning := false, restarting := false, restartTick := 0,
    expiries := 0#8, lastExpiry := 0#32, options := Options.none_, policyEff := 0#4, loaded := false,
    activeB := false, fellBack := false, aTried := false, bTried := false, aResult := 0#8, bResult := 0#8,
    proofCheck := 0#8, securityVersion := 0#16, recipeId := 0#32, loadMs := 0#32, inReset := true, optRead := false,
    staged := false, unjournaled := false, upTicks := 0, unlocked := [],
    heldFaults := [], applyDue := false }

def Applied.none_ : Applied :=
  { demand := Demand.empty, worst := [], demandDue := none, portMap := [], parse := ParseSection.empty, control := [],
    requiredPolicy := 0#4 }

def Tmb.reset : Tmb :=
  { tick := 0#64, beat := 0, traceable := false, stepCount := 0#8, tickHi := ⟨0#32, 0#32, 0#32⟩, prio0 := 2#4,
    prio1 := 4#4, prio2 := 3#4, prio3 := 5#4, revertive := true, traceLimit := 0x64#16, selected := .freeRun,
    partner := SourceState.blank, refPps := SourceState.blank, ptp := SourceState.blank, domain := SourceState.blank,
    tickIn := SourceState.blank, leader := false, baseRefTime := false, slewFast := false, switches := 0#32,
    maxTicks := 0xF4240#32, elapsed := 0#32, steer := [], slewed := 0, todSeconds := 0#48, todArmed := false,
    todTick := 0, todBeat := 0, ppsWidth := 0x186A0#20, ppsOutMode := 1#2, tickOutEn := true, ppsOut := false,
    ppsRise := 0, tickOut := false, ppsEdge := 0, tickEdge := 0, ppsInDelay := 0#16, tickInDelay := 0#16, outAdvance := 0#16, mirAsym := 0#16,
    refLosses := 0#16, expiries := 0#16, jumps := 0#8, todRejects := 0#8, tsEditSkips := 0#8, utcOffset := 0x25#16,
    utcValid := false, snapTick := 0#64, snapSub := 0#15, supRecords := [] }

/-- Lines, macros: macros 8 to 15 are absent on F256. -/
def Lnm.reset (f256 : Bool) : Lnm :=
  { macros := (List.range 16).map (fun m =>
      (m, if f256 && decide (8 ≤ m) then { Macro.reset with state := .absent } else Macro.reset)),
    ports := [], lanes := [], lateReads := [], readByHp0 := [] }

def Dec.reset : Dec :=
  { slots := [(0, { VSlot.empty with state := .current })], current := 0, currentSlot := 0, lastAssigned := 0,
    lastCommit := 0, lastCommitTick := 0#64, openWrites := [], sealed_ := none, select := none, busyCount := 0#8,
    commitCount := 0#16, openWriteCount := 0#32, openDiscards := 0#32, clearsDue := [] }

def Fwd.reset : Fwd :=
  { mac := [], seeds := [], agePeriod := 0#32, flowSeed := 0#32, flowAgePeriod := 0#16, tenants := [],
    adjacencies := [], ports := [], etypeLists := [], aggregates := [], floodGroups := [], learnQ := [],
    queueOverflow := 0#16, noRoomCount := 0#16, eventOverflow := 0#16, eventRing := [], eventSeq := 0#32,
    eventLost := 0#16, repairs := 0#32, passes := 0#32, flowValid := 0#28, flowInserts := 0#32, collisions := 0#32,
    shedRefusals := 0#32, beatOld := none, agedDue := [] }

def Crb.reset : Crb :=
  { pkts := [], nextId := 0, controlUsed := 0, holdLimit := [], exhausted := 0#32, waiting := [], lastSlice := 0, turn := none,
    laneQ := [], injectQ := [], enqueueQ := [], flowQ := [] }

def Sch.reset : Sch :=
  { hwmPeriodLog2 := 0, deviceSafe := false, squelchedSlices := 0#16, squelches := [], hostStopped := false,
    queues := [], ports := [], meters := [], minDue := [], meterDue := [],
    shareDue := [] }

def Ldg.reset : Ldg :=
  { ctrs := [], parityMain := false, paritySummary := false, tallies := [], mismatch := [], fresh := [], mismatches := 0#32,
    checked := 0#32, failed := [], scheduled := [], running := none, bufs := [], takes := 0, nextCutId := 1#32,
    lastReadyId := 0#32, skipped := 0#16, aborted := 0#16, reqTick := 0#64, reqTag := 0#64, reqSummary := false,
    reqPair := false, reqStatus := 0#8, reqCutId := 0#32, periodLog2 := 0#5, periodSummary := true, loss := false,
    rdIdx := ⟨0#22, 0#22, 0#22⟩, rdPkts := ⟨0#64, 0#64, 0#64⟩, rdBytes := ⟨0#64, 0#64, 0#64⟩, carries := 0#32,
    sweeps := 0#32, eccCorrected := 0#16, lost := 0#16, flowQueue := 0#16, flowToEvents := true, flowLost := 0#16,
    flowSeq := 0#32, flowRing := [] }

def Eng.reset : Eng :=
  { engines := [], threads := [], clusters := [], channels := [], binds := [], unbinds := [], restarts := [],
    control := [], landings := [], flowDue := [], supQueue := [], handed := [], testEngine := 0, test := none, lastPass := false, tests := 0#32,
    editSkips := 0#16, emitFails := 0#16, writeFails := 0#16 }

def Cph.reset : Cph :=
  { enabled := false, bootEpoch := 0#24, ctxBase := 0#37, ctxs := [], unlisted := .empty, cache := [], loads := 0#32, completed := 0#32,
    rejected := 0#16, retries := 0#16, blocks := 0#32, waits := 0#16, abandoned := 0#16, lost := [], uncovered := [],
    test := none, outputs := [], turns := [], cursors := [], loadsTick := 0,
    allocsTick := 0, due := [] }

def Kvl.reset : Kvl :=
  { vol := [], vbat := [], erasing := false, erases := 0#16, eraseTick := 0#64, rng := .startup, startupTicks := 0#16,
    healthFails := 0#16, reseeds := 0#32, calls := 0#21, drbgKey := [], drbgV := [], startTick := 0, reseedTick := 0 }

def Flt.reset : Flt :=
  { inbox := [], store := [], lastAnySeq := 0#32, lastOpenSeq := 0#32, dropped := 0#8, forceRefused := 0#8,
    fltNLevel := true, irqLevel := 1#3, journalLevel := 1#3, l4Action := false, pulses := 0#16, pulseEnd := none, pulseFrom := 0,
    holdLow := false, recSel := 0#8, ackStatus := 0#8, ackCount := 0#8, chkUnit := 0#8, chkNumber := 0#16,
    checkers := [], injUnit := 0#8, injChecker := 0#16, injMode := 0#2, injArm := false, forceClass := 0#16,
    forceSubject := 0#32, overrides := [], contain := [], ring := [], ringLost := 0#16,
    ringLoss := none, lastWrittenSeq := 0#32, erasing := false, nextPlace := 0, resetDue := none,
    recover := false, sensors := [] }

/-- From SEC release until a Recipe is applied the stored policy governs, or ALARM (R580). -/
def AlarmState.reset : AlarmState :=
  { cause := false, latched := false, drive := false, policy := .alarm, stored := none }

def Sec.reset : Sec :=
  { mesh := AlarmState.reset, voltage := AlarmState.reset, clock := AlarmState.reset, temperature := AlarmState.reset,
    vbat := AlarmState.reset, vbatValid := false, tickMark := 0#64, refLossFlag := false, vbatEpoch := 0#24, vbatLoss := false,
    junction := 0#10 }

/-- The functions of an endpoint pair: PF0, PF1 and PF2 of both (R443, R466). -/
def pfIds : List Nat := [0x0000, 0x2000, 0x4000, 0x8000, 0xA000, 0xC000]

def Hif.reset : Hif :=
  { deviceReady := false, eps := [(0, Endpoint.reset), (1, Endpoint.reset)],
    funcs := pfIds.map (fun f => (f, Func.reset)), wakeLevel := 7#3, doorbellMask := 0#32, preset0 := 0#256,
    preset1 := 0#256 }

def Window.reset : Window :=
  { base0 := 0#11, base1 := 0#11, readsOut0 := 0, readsOut1 := 0, refused := 0#16, lastRefused := 0#32,
    guardOk := 0#16, guardFail := 0#8, guardTimeout := 0#8, lastRequester := 0#2, lastAddr := 0#24, pendHp0 := [],
    pendHp1 := [], pendSup := [] }

def Sb.reset : Sb :=
  { eid := 0#8, held := [], discarded := 0#8, commands := 0#16, pecErrors := 0#8, arbLost := 0#8, selectTag := 0#8 }

def Que.reset : Que :=
  { queues := [], admin0 := AdminQueue.reset, admin1 := AdminQueue.reset, qSel := 0#16, pools := HostPools.empty,
    offers := [], events := [], serving := [] }

def Dma.reset : Dma := { winBase := 0#21, winSize := 0#21, engines := [], channels := [] }

def Mbx.reset : Mbx :=
  { boxes := [], mask0 := 0xFFFFFFFF#32, mask1 := 0xFFFFFFFF#32, owner := 0#32, last := 0#5, rejects := 0#16,
    s2hLost := 0#16, s2hAborted := 0#16, h2sAborted := 0#16, alive := 0#64 }

def Sto.reset : Sto :=
  { present := false, bufBase := 0, bufSize := 0, ioTimeout := 0, nsLoss := 0, retryLimit := 0, hostnqn := 0,
    strings := [], targets := [], namespaces := [], nsDue := [], ctls := [], cmds := [], xtsEnds := [], timeouts := 0#16,
    reissues := 0#16, transient := 0#16, internal := 0#16 }

def Mir.reset : Mir :=
  { state := .init, pair := PairSection.empty, half0 := false, half1 := false, trainingSince := none, waitUntil := 0,
    backoffMs := 0, attempts := 0#16, retransmits := 0#32, generation := 0#32, takeovers := 0#16, rejoins := 0#16,
    e1 := false, e2 := false, e3 := false, miss := 0, senseAbsent := 0, senseSeen := false, senseDrive := false,
    heartbeat := none, hbSeen := false, pollAlive := false, pollSince := none, pressure := false, nextSeq := 0#32, lastAck := 0#32, ackTick := 0,
    unacked := [], received := 0#32, rxBytes := 0, delta := [], verHeld := [], deltaFrames := 0, plans := [], swapDue := false,
    forceDue := false, staleDue := false, leaderDue := none, leaving := false,
    syncActive := false, syncReceiving := false, syncBytes := 0, syncStart := false, syncParts := [], syncQueue := [],
    syncDone := none, partnerIn := 0,
    ownWrites := [], partnerUnits := [], partnerBoundary := 0#64, linkLost := none, lastTx := ⟨0, 0⟩,
    prevTx := ⟨0, 0⟩, prevRx := ⟨0, 0⟩, exportSeq := 0#32 }

def Dom.reset : Dom :=
  { hops := 15, parent := 0, parentPort := 0, neighbours := [], cutTick := 0#64, cutStatus := 0#8, cutId := 0#32,
    cutTag := 0#64, answerOk := 0#16, answerRefused := 0#16, sent := 0#16, suppressed := 0#16, relayLost := 0#16,
    summaryLost := 0#16, linkAsym := [], seq := 0#32, seen := [], windows := [], relay := [], store := [], t1 := 0,
    t2 := 0, t3 := 0 }

def HbmUnit.reset : HbmUnit :=
  { step := 0, quiet := 0, rises := 0#16, step3Ticks := 0#16, declared := 0#32, backlog := 0#32, retired := [],
    lostChannels := [], errors := [], due := [], shedUsed := 0 }

def Tap.reset : Tap :=
  { state := .reset, ir := 0xFE#8, irShift := 0#8, drShift := 0#32, bypass := false, tdo := false, tdoDriven := false }

/-- The board that State.reset stands on: an F512 with blank NVM and blank owner keys. -/
def Board.blank : Board :=
  { f256 := false, serial := 0#32, straps := 0#3, nvm0Size := 0x1000000, nvm1Size := 0x1000000, nvm0 := [], nvm1 := [],
    ownerKeys := List.replicate 4 .blank, olelonKey := 0#384 }

/-- The device at power-on reset on a given board and with a given VBAT-backed store. -/
def State.onBoard (b : Board) (vbat : Sec) (keys : Tbl (List Byte)) : State :=
  { board := b, rst := Rst.reset, app := Applied.none_, tmb := Tmb.reset, ptp := Ptp.off, sltCph := SlotTable.empty,
    sltEng := SlotTable.empty, sltQue := SlotTable.empty, lnm := Lnm.reset b.f256, prs := [], dec := Dec.reset,
    fwd := Fwd.reset, crb := Crb.reset, sch := Sch.reset, ldg := Ldg.reset, eng := Eng.reset, cph := Cph.reset,
    kvl := { Kvl.reset with vbat := keys }, flt := Flt.reset, sec := vbat, hif := Hif.reset, win := Window.reset,
    sb := Sb.reset, que := Que.reset, dma := Dma.reset, mbx := Mbx.reset, sto := Sto.reset, mir := Mir.reset,
    dom := Dom.reset, hbmU := HbmUnit.reset, hbm := [], tap := Tap.reset, out := [], free := 0, pending := [] }

/-- The machine right after power-on reset. -/
def State.reset : State := State.onBoard Board.blank Sec.reset []

end Sys2Proof.Machine
end

