-- ==== Sys2Proof/Machine/Ops.lean ====
section
/-!
DEFINITION. The shared operations of the meanings: time, outputs, faults on their way to the collector, free values,
ledger adds, HBM bytes, MSI-X, events, completions and delta records.
-/

namespace Sys2Proof.Machine

/-- What a meaning answers. -/
abbrev Result := Host.Outcome State Fault Refusal

/-! Releases of R593, numbered from 1. -/

def releasedOf (s : State) (k : Nat) : Bool := s.rst.released.getLsbD (k - 1)

/-- SEC has left reset. -/
def secReleased (s : State) : Bool := releasedOf s 2

/-- The collector runs from CORE release on, and in recovery mode (R582, R599). -/
def collectorRuns (s : State) : Bool := releasedOf s 9 || s.rst.recovery

/-! Time. -/

def now (s : State) : Nat := s.tmb.tick.toNat

/-- The tick with which an interval of ticks begins whose event falls now: that of the boundary at or after the event
(R16). -/
def intervalStart (s : State) : Nat := if s.tmb.beat = 0 then now s else now s + 1

/-- Beats since tick 0. -/
def nowBeats (s : State) : Nat := now s * 1600 + s.tmb.beat

/-- The stamp of the present beat: a beat has 20 SUB steps (R312). -/
def nowStamp (s : State) : Stamp := { tick := now s, sub := s.tmb.beat * 20 }

/-! Outputs and free values. -/

def emit (s : State) (o : Out) : State := { s with out := o :: s.out }

/-- The next free value of w bits. -/
def fresh (w : Nat) (s : State) : BitVec w × State := (Config.freeBits w s.free, { s with free := s.free + 1 })

/-- `n` free bytes. -/
def freshBytes (n : Nat) (s : State) : List Byte × State :=
  ((List.range n).map (fun i => Config.freeBits 8 (s.free + i)), { s with free := s.free + n })

/-! Faults (R553, R555). -/

/-- One of the 168 unit ids of R23, by a free number: 0x3F and 0xA9-0xFF are never among them. -/
def listedUnit (n : Nat) : Nat := if n % 168 < 0x3F then n % 168 else n % 168 + 1

/-- The capture of a checker at an error: the spec names its fields, and their values are the checker's. ACCESS, SPACE and CAUSE are
values that R554 lists for a checker, and MASTER_UNIT is a listed unit id. -/
def captureNow (s : State) (code : Nat) (subj : W32) (injected : Bool) : Capture :=
  let x := (Config.captureOf code subj.toNat).toNat
  { valid := true, injected := injected, access := BitVec.ofNat 8 (x % 256 % 9), checker := Config.checkerOf code subj.toNat,
    masterUnit := BitVec.ofNat 8 (listedUnit (x / 2 ^ 8 % 256)), space := BitVec.ofNat 8 (x / 2 ^ 16 % 256 % 11),
    masterSub := BitVec.ofNat 16 (x / 2 ^ 24), address := BitVec.ofNat 64 (x / 2 ^ 40),
    cause := BitVec.ofNat 8 (x / 2 ^ 104 % 9), count := 0#16, tick := s.tmb.tick, sub := BitVec.ofNat 15 (s.tmb.beat * 20) }

/-- A hardware checker of `unit` reports an error (R555): the first freezes the record, later ones count. An armed
injection of that checker is used (R570). -/
def raiseAt (s : State) (cls : FaultClass) (unit : Nat) (subj : W32) (level : Nat) (detail : Nat) : State :=
  let n := Config.checkerOf cls.code subj.toNat
  let key := unit * 65536 + n.toNat
  let hit := s.flt.injArm && s.flt.injUnit.toNat == unit && s.flt.injChecker == n
  let old := tgetD s.flt.checkers key Capture.blank
  let cap := if old.valid then { old with count := satInc old.count } else captureNow s cls.code subj hit
  { s with flt := { s.flt with
      checkers := tset s.flt.checkers key cap
      injArm := s.flt.injArm && !hit
      inbox := s.flt.inbox ++ [{ cls := cls, subj := subj, level := level, cap := cap, forced := false,
                                 detail := BitVec.ofNat 256 detail, since := nowBeats s }] } }

/-- A class about a unit and sub-unit, at the level of R551. -/
def raise (s : State) (cls : FaultClass) (unit sub : Nat) : State :=
  raiseAt s cls unit (subjU unit sub) cls.row.level 0

/-- The same with class-specific DETAIL (R565). -/
def raiseDetail (s : State) (cls : FaultClass) (unit sub detail : Nat) : State :=
  raiseAt s cls unit (subjU unit sub) cls.row.level detail

/-- A report from firmware (R553). -/
def raiseFirmware (s : State) (cls : FaultClass) (subj : W32) : State :=
  { s with flt := { s.flt with inbox := s.flt.inbox ++
      [{ cls := cls, subj := subj, level := cls.row.level,
         cap := { Capture.firmware with access := 0x0E#8 }, forced := false, detail := 0#256,
         since := nowBeats s }] } }

/-- A report found before the collector runs is held until then (R599). -/
def reportHeld (s : State) : State :=
  if collectorRuns s then s
  else { s with rst := { s.rst with heldFaults := s.rst.heldFaults ++ s.flt.inbox }, flt := { s.flt with inbox := [] } }

/-! Ledger adds and tallies. -/

def addTo (s : State) (idx pkts bytes : Nat) : State :=
  { s with ldg := ldgAdd false s.ldg { idx := idx, pkts := pkts, bytes := bytes } }

def addAll (s : State) (as : List Add) : State := { s with ldg := ldgAdds false s.ldg as }

def tally (s : State) (u : Nat) (f : Tally → Tally) : State := { s with ldg := tallyMod s.ldg u f }

/-! HBM bytes. -/

/-- The first address beyond the HBM (R38). -/
def hbmEnd : Nat := 0x1680000000

/-- Channel of an address, as 16 × stack + channel (R38). -/
def hbmChannelOf (a : Nat) : Nat :=
  let s := a / 256 % 60
  s % 4 * 16 + s / 4

/-- Whether an access to one address completes: it exists and its channel answers (R38, R39, R557). -/
def hbmAnswers (s : State) (a : Nat) : Bool :=
  decide (a < hbmEnd) && !(s.hbmU.lostChannels.contains (hbmChannelOf a))
  && !(s.rst.unlocked.contains (12 + hbmChannelOf a / 16))

/-- Whether an access to `n` bytes completes. The distance between two channels is 256 bytes. -/
def hbmRangeOk (s : State) (a n : Nat) : Bool :=
  decide (a + n ≤ hbmEnd) && (List.range (n / 256 + 2)).all (fun i => hbmAnswers s (min (a + i * 256) (a + n - 1)))

def hbmGet (s : State) (a : Nat) : Byte := tgetD s.hbm a 0#8

def hbmRead (s : State) (a n : Nat) : List Byte := (List.range n).map (fun i => hbmGet s (a + i))

/-- Bytes written to a sparse memory whose unlisted bytes read `d`. -/
def putBytes (d : Byte) (t : Tbl Byte) : Nat → List Byte → Tbl Byte
  | _, [] => t
  | a, b :: bs => putBytes d (tput d t a b) (a + 1) bs

def hbmPutBytes (s : State) (a : Nat) (bs : List Byte) : State := { s with hbm := putBytes 0#8 s.hbm a bs }

/-! The host interface: functions, generations, MSI-X. -/

def epOf (fn : Nat) : Nat := fn / 0x8000 % 2
def pfOf (fn : Nat) : Nat := fn / 0x2000 * 0x2000
def pfNum (fn : Nat) : Nat := fn / 0x2000 % 4
def vfNum (fn : Nat) : Nat := fn % 0x2000
def pf0Of (ep : Nat) : Nat := ep * 0x8000

def funcOf (s : State) (fn : Nat) : Option Func := tget s.hif.funcs fn
def genOf (s : State) (fn : Nat) : W16 := ((funcOf s fn).map (·.gen)).getD 1#16
def endpointOf (s : State) (ep : Nat) : Endpoint := tgetD s.hif.eps ep Endpoint.reset

def funcMod (s : State) (fn : Nat) (f : Func → Func) : State :=
  { s with hif := { s.hif with funcs := tadj s.hif.funcs fn f } }
def endpointMod (s : State) (ep : Nat) (f : Endpoint → Endpoint) : State :=
  { s with hif := { s.hif with eps := tmod Endpoint.reset s.hif.eps ep f } }

/-- A function in D3hot; VFs follow their PF (R457). -/
def inD3 (s : State) (fn : Nat) : Bool := ((funcOf s (pfOf fn)).map (·.d3hot)).getD false

/-- The endpoint of a function issues requests: its link is up, and it is neither in reset nor stopped (R455,
R459). -/
def epRuns (s : State) (ep : Nat) : Bool :=
  let e := endpointOf s ep
  e.linkUp && !e.inReset && !e.contained

/-- Bus Master Enable of a function. PRESUMED (PCI Express): while it is 0 the function issues no request. -/
def busMasters (s : State) (fn : Nat) : Bool := ((funcOf s fn).map (·.busMaster)).getD false

/-- A function issues requests: its endpoint runs, and it is in D0 (R457). -/
def fnRuns (s : State) (fn : Nat) : Bool := epRuns s (epOf fn) && !inD3 s fn && busMasters s fn

def vectorOf (s : State) (fn v : Nat) : Vector :=
  match funcOf s fn with
  | some f => tgetD f.vectors v Vector.reset
  | none => Vector.reset

def vectorMod (s : State) (fn v : Nat) (g : Vector → Vector) : State :=
  funcMod s fn (fun f => { f with vectors := tmod Vector.reset f.vectors v g })

/-- A vector raised (R451): sent, or its pending bit set while the vector or the function is masked, or while the
function is in D3hot. 0xFFFF names none. -/
def msix (s : State) (fn v : Nat) : State :=
  if v = 0xFFFF then s
  else
    match funcOf s fn with
    | none => s
    | some f =>
      if !f.msixEnable || !epRuns s (epOf fn) || !f.busMaster then s
      else if f.functionMask || (vectorOf s fn v).masked || inD3 s fn then
        vectorMod s fn v (fun x => { x with pending := true })
      else emit s (.msix fn v)

/-- A request of a function to its host, carried by DMA engine `e`. -/
def hostWrite (s : State) (e fn addr : Nat) (bytes : List Byte) : State := emit s (.hostWrite e fn addr bytes)
def hostRead (s : State) (e fn addr len : Nat) : State := emit s (.hostRead e fn addr len)

/-- The engine of a queue's traffic: the even one of its endpoint for an even id, else the odd one (R498). -/
def queueEngine (fn qid : Nat) : Nat := 2 * epOf fn + qid % 2

/-- The engine of an endpoint's admin data of `n` bytes (R498); also that of its admin rings. -/
def adminEngine (ep n : Nat) : Nat := 2 * ep + (if n ≤ 65536 then 0 else 1)

/-! Events (R475). -/

def event (s : State) (t : EventType) (record : List Byte) : State :=
  { s with que := { s.que with events := s.que.events ++ [{ type := t, tick := s.tmb.tick, record := record }] } }

/-! Admin completions (R484). -/

def adminOf (s : State) (ep : Nat) : AdminQueue := if ep = 0 then s.que.admin0 else s.que.admin1

def adminMod (s : State) (ep : Nat) (f : AdminQueue → AdminQueue) : State :=
  if ep = 0 then { s with que := { s.que with admin0 := f s.que.admin0 } }
  else { s with que := { s.que with admin1 := f s.que.admin1 } }

/-- Admin commands that were accepted wait to run; the Supervisor takes them before mailboxes, engine messages and events (R486, R512). -/
def adminPending (s : State) : Bool :=
  s.que.admin0.accepted.any (fun c => !c.started) || s.que.admin1.accepted.any (fun c => !c.started)

/-- Entry k's PHASE (R468). -/
def phaseOf (k size : Nat) : Nat := 1 - k / size % 2

/-- GEN of a function as admin completions carry it; PF0 has no generation (R484, R495). -/
def genNamed (s : State) (fn : Nat) : Nat := if pfNum fn = 0 then 0 else (genOf s fn).toNat

/-- The completion entry written, with its MSI-X message. -/
def adminWrite (s : State) (ep : Nat) (cid fn : W16) (status : Byte) (result : List Byte) : State :=
  let q := adminOf s ep
  let size := 2 ^ q.sizeLog2.toNat
  let k := q.completions.toNat
  let entry := leBytes 2 cid.toNat ++ [status] ++ leBytes 1 (phaseOf k size) ++ leBytes 2 q.head.toNat
    ++ leBytes 2 (genNamed s fn.toNat) ++ leBytes 8 (now s) ++ slice result 0 48
  let s := adminMod s ep (fun q => { q with completions := wrapInc q.completions })
  msix (hostWrite s (adminEngine ep 64) (pf0Of ep) (q.cqAddr.toNat + k % size * 64) entry) (pf0Of ep) q.vector.toNat

/-- A command in process completes (R484, R495): STALE where its function's generation has advanced, unless MALFORMED or
AUTH_FAIL comes first (R19). A command that
an FLR of PF0 discarded is no longer listed, and nothing is written. -/
def adminFinish (s : State) (ep : Nat) (cid : W16) (status : Byte) (result : List Byte) : State :=
  let q := adminOf s ep
  match (q.accepted.find? (fun c => c.cid == cid && c.started)).or (q.accepted.find? (fun c => c.cid == cid)) with
  | none => s
  | some c =>
    let stale := c.gen != genOf s c.fn.toNat && status != 0x01#8 && status != 0x0A#8
    let status := if stale then 0x07#8 else status
    let result := if stale then [] else result
    let s := adminMod s ep (fun q => { q with accepted := q.accepted.erase c, commands := wrapInc q.commands })
    if fnRuns s (pf0Of ep) then adminWrite s ep cid c.fn status result
    else adminMod s ep (fun q => { q with held := q.held ++ [(cid, c.fn, status, result)] })

/-- A sideband message of the device (R617). -/
def sbMessage (command tag status : Byte) (data : List Byte) : List Byte :=
  [0x7E#8, 0x1F#8, 0x7C#8, command, tag, status, 0#8, 0#8] ++ data

def sbAnswer (s : State) (command tag status : Byte) (data : List Byte) : State :=
  emit { s with sb := { s.sb with commands := wrapInc s.sb.commands } } (.sideband (sbMessage command tag status data))

/-- The one who waits is answered: an admin command by its completion, a sideband VERSION_SELECT by its response
with the tick (R618). -/
def answer (s : State) (w : Waiter) (status : Byte) (result : List Byte) : State :=
  match w with
  | .admin ep cid => adminFinish s ep (BitVec.ofNat 16 cid) status result
  | .sideband => sbAnswer s 0x03#8 s.sb.selectTag status (if status = 0#8 then slice result 8 8 else [])
  | .plan => s
  | .none_ => s

/-- A VECTOR field at bits 26:16 of a write: 2 to 2,047, and another value keeps the field (R603). -/
def vectorField (old : BitVec 11) (v : W64) : BitVec 11 :=
  if 2 ≤ fieldN v.toNat 16 11 then BitVec.ofNat 11 (v.toNat / 2 ^ 16) else old

/-! Delta records (R527). -/

/-- A change record joins the delta of this tick, on a paired device. -/
def deltaAdd (s : State) (kind : Nat) (body : List Byte) : State :=
  if s.mir.pair.mode = 0 then s
  else { s with mir := { s.mir with delta := s.mir.delta ++ [{ kind := kind, body := body }] } }

/-- A plan of a change of this side waits for its boundary (R529). -/
def planned (s : State) (k : PlanKind) : Bool := s.mir.plans.any (fun p => p.kind == k && !p.remote)

/-- Writes of this moment come after a sealing whose PLAN has not been sent. -/
def verWaits (s : State) : Bool :=
  (s.dec.sealed_.map (fun x => x.waiter != .plan && !x.fresh)).getD false && !planned s .commit

/-- A VER_WRITE record: after a sealing it waits behind the PLAN of that commit, so that the partner seals the same writes
(R208; DESIGN CHOICE, log entry 125). -/
def verDelta (s : State) (body : List Byte) : State :=
  if verWaits s then { s with mir := { s.mir with verHeld := s.mir.verHeld ++ [{ kind := 0x03, body := body }] } }
  else deltaAdd s 0x03 body

/-- The sealing's PLAN has been sent, or the commit has ended: what waited follows. -/
def verRelease (s : State) : State :=
  { s with mir := { s.mir with delta := s.mir.delta ++ s.mir.verHeld, verHeld := [] } }

/-! Mode conditions. -/

/-- The device is in recovery mode, or not ready: what commands answer then (R485). -/
def deviceReady (s : State) : Bool := s.hif.deviceReady
def recoveryMode (s : State) : Bool := s.rst.recovery

/-- Link state of the mirror: 3 both halves, 2 one, 1 training, 0 down (MIR_STAT LINK). -/
def mirrorLink (s : State) : Nat :=
  if s.mir.half0 && s.mir.half1 then 3
  else if s.mir.half0 || s.mir.half1 then 2
  else if s.mir.trainingSince.isSome then 1
  else 0

/-- Whether the device's ports admit by its pair state (R530). -/
def sideAdmits (s : State) : Bool :=
  s.mir.pair.mode == 0 || s.mir.state == .active || s.mir.state == .solo

end Sys2Proof.Machine
end

