-- ==== Sys2Proof/Machine/Parse.lean ====
section
/-!
DEFINITION. The extraction stages of "Parsing and Classification" (R177-R190): the parse of a packet head into
the key vector and its class, and the control-class match (R194-R196).
-/

namespace Sys2Proof

/-- Word `i` of a key vector. -/
def kvGet (kv : List W48) (i : Nat) : W48 := kv.getD i 0#48

/-- A key vector with bits `lsb .. lsb+width-1` of word `i` replaced. -/
def kvPut (kv : List W48) (i lsb width v : Nat) : List W48 :=
  let old := (kvGet kv i).toNat
  let cleared := old - fieldN old lsb width * 2 ^ lsb
  kv.set i (BitVec.ofNat 48 (cleared + put v lsb width))

/-- `width` bits in transmission order, from bit `bit` of byte `byte` (bit 0 most significant) (R181). -/
def bitsAt (head : List Byte) (byte bit width : Nat) : Nat :=
  let n := (bit + width + 7) / 8
  beVal (slice head byte n) / 2 ^ (n * 8 - bit - width) % 2 ^ width

/-- The last byte that a bit field touches, counted from the header start. -/
def lastByte (byte bit width : Nat) : Nat := byte + (bit + width - 1) / 8

/-- Header length (R180): the length, and whether it is below LEN_MIN. -/
def headerLen (p : Profile) (head : List Byte) (start : Nat) : Nat × Bool :=
  if p.lenMode then
    let b := (head.getD (start + p.lenOffset) 0#8).toNat
    let l := p.lenBase + ((b / 2 ^ p.lenShift) &&& p.lenMask) * p.lenScale
    (l, decide (l < p.lenMin))
  else (p.lenBase, false)

/-- The offsets from the header start that the profile reads (R179 step 2, R186, R187). -/
def readsOf (p : Profile) : List Nat :=
  p.fields.map (fun f => lastByte f.srcByte f.srcBit f.width)
    ++ (if p.lenMode then [p.lenOffset] else [])
    ++ (p.nhSels.filter (fun s => s.width != 0)).map (fun s => lastByte s.byte s.bit s.width)
    ++ (match p.kind with
        | .generic => []
        | .ipv4 => [7]
        | .ipv6 => [6]
        | .ipv6Ext => [0])

/-- The fragment check of a profile's kind (R187): whether the header is a fragment, and FRAG_FIRST. `len` is
the header's length and `w` the window. -/
def fragCheck (p : Profile) (head : List Byte) (start len w : Nat) : Bool × Bool :=
  match p.kind with
  | .generic => (false, false)
  | .ipv4 =>
    let v := beVal (slice head (start + 6) 2)
    let mf := bitN v 13
    let off := v % 8192
    (mf || off != 0, (mf || off != 0) && off == 0)
  | .ipv6 | .ipv6Ext =>
    let nh := head.getD (start + (if p.kind = .ipv6 then 6 else 0)) 0#8
    if nh = 44#8 then
      let at_ := start + len + 2
      if at_ + 1 < w then (true, beVal (slice head at_ 2) / 8 == 0) else (true, false)
    else (false, false)

/-- The next-header value (R182). -/
def nextHeader (p : Profile) (head : List Byte) (start : Nat) : Nat :=
  p.nhSels.foldl (fun a s => a * 2 ^ s.width + bitsAt head (start + s.byte) s.bit s.width) 0 % 2 ^ 24

/-- The transition taken (R183). -/
def transitionOf (p : Profile) (v : Nat) : TransAction :=
  match p.transitions.find? (fun t =>
      t.action ≠ .empty && (BitVec.ofNat 24 v &&& t.mask) == (t.value &&& t.mask)) with
  | some t => t.action
  | none => p.miss

/-- What the stages carry from one to the next. -/
structure ParseRun where
  kv : List W48
  stages : Nat
  depth : Nat
  parseEnd : Nat
  deriving DecidableEq, Repr

/-- The profile's fields written into the key vector (R181), with SEGMENT. -/
def writeFields (p : Profile) (head : List Byte) (start : Nat) (kv : List W48) : List W48 :=
  p.fields.foldl (fun kv f =>
    let v := bitsAt head (start + f.srcByte) f.srcBit f.width
    let kv := kvPut kv f.dstWord f.dstLsb f.width v
    if f.segment then kvPut (kvPut kv 7 0 24 (v % 2 ^ 24)) 7 24 1 1 else kv) kv

/-- MARK (R185): L3 and L4 keep the first stage, the inner markers the last. -/
def setMark (kv : List W48) (mark start : Nat) : List W48 :=
  if mark = 0 || 5 < mark then kv
  else
    let lsb := (mark - 1) * 9
    if mark ≤ 2 && fieldN (kvGet kv 6).toNat lsb 9 != 0x1FF then kv else kvPut kv 6 lsb 9 start

/-- OFFSETk and PROFk of a reached stage (R186, R190). -/
def setReached (kv : List W48) (k start prof : Nat) : List W48 :=
  let kv := if k < 5 then kvPut kv 2 (k * 9) 9 start else kvPut kv 3 ((k - 5) * 9) 9 start
  if k < 6 then kvPut kv 4 (k * 8) 8 prof else kvPut kv 5 ((k - 6) * 8) 8 prof

/-- A parse's end (R186): the run so far with a class and its flags. -/
def parseDone (r : ParseRun) (cls : Nat) (frag ff dl wl sf bl : Bool) : Parsed × ParseRun :=
  ({ kv := r.kv, frag := frag, fragFirst := ff, depthLimit := dl, windowLimit := wl, shortFrame := sf,
     badLength := bl, cls := cls }, r)

/-- Stages k, k+1, … of a parse (R179, R186); `fuel` counts the stages left. -/
def parseStages (sec : ParseSection) (start : StartEntry) (head : List Byte) (w : Nat) (short : Bool) :
    Nat → Nat → Nat → Nat → ParseRun → Parsed × ParseRun
  | 0, _, _, _, r => parseDone r sec.limitClass false false true false false false
  | fuel + 1, k, pos, prof, r =>
    match sec.profiles[prof]? with
    | none => parseDone r sec.limitClass false false false false false false
    | some p =>
      let r := { r with kv := setReached r.kv k pos prof }
      if (readsOf p).any (fun o => decide (w ≤ pos + o)) then
        parseDone r sec.limitClass false false false (!short) short false
      else
        let (len, bad) := headerLen p head pos
        if bad then parseDone r sec.limitClass false false false false false true
        else
          let kv := setMark (writeFields p head pos r.kv) p.mark pos
          let r : ParseRun :=
            { kv := kv, stages := k + 1, depth := if p.encap then min 7 (r.depth + 1) else r.depth,
              parseEnd := if pos + len > 511 then 0x1FF else pos + len }
          let (frag, first) := fragCheck p head pos len w
          if frag then parseDone r start.fragClass true first false false false false
          else
            match transitionOf p (nextHeader p head pos) with
            | .end_ c => parseDone r c false false false false false false
            | .empty => parseDone r sec.limitClass false false false false false false
            | .next q =>
              if k = 7 then parseDone r sec.limitClass false false true false false false
              else if w ≤ pos + len then parseDone r sec.limitClass false false false (!short) short false
              else parseStages sec start head w short fuel (k + 1) (pos + len) q r

/-- The key vector before stage 0: unset offsets, profiles and markers (R190). -/
def kvInit : List W48 :=
  let kv := List.replicate 64 0#48
  let kv := kvPut kv 2 0 45 (2 ^ 45 - 1)
  let kv := kvPut kv 3 0 27 (2 ^ 27 - 1)
  let kv := kv.set 4 (BitVec.allOnes 48)
  let kv := kvPut kv 5 0 16 0xFFFF
  kvPut kv 6 0 45 (2 ^ 45 - 1)

/-- The parse of one head (R176-R190). `len` is L; W0 and the CONTROL bits are set by the header lane. -/
def parseHead (sec : ParseSection) (start : StartEntry) (bytes : List Byte) : Parsed :=
  let len := bytes.length
  let w := min 256 len
  let head := bytes.take 256
  let r0 : ParseRun := { kv := kvInit, stages := 0, depth := 0, parseEnd := 0 }
  let (p, r) := parseStages sec start head w (decide (len ≤ 256)) 8 0 0 start.profile r0
  let kv := kvPut r.kv 3 27 9 r.parseEnd
  let kv := kv.set 1 (pack 48 [putB p.frag 0, putB p.fragFirst 1, putB p.depthLimit 2, putB p.windowLimit 3,
    putB p.shortFrame 4, putB p.badLength 5, put r.stages 8 4, put r.depth 12 3, put p.cls 16 8])
  { p with kv := kv }

/-- W0 of the key vector (R190). -/
def kvW0 (port origin version frameLen startProfile startSel : Nat) : W48 :=
  pack 48 [put port 0 10, put origin 10 2, put version 12 4, put frameLen 16 14, put startProfile 30 8,
    put startSel 38 4]

/-- Whether a packet matches a control-class rule (R195). -/
def ctlMatch (r : CtlRule) (origin port : Nat) (p : Parsed) : Bool :=
  (match origin with
   | 0 => r.line && r.portMask.getLsbD port
   | 1 => r.host
   | _ => r.engine)
  && r.terms.all (fun t => (kvGet p.kv t.word &&& t.mask) == (t.value &&& t.mask))
  && !(p.frag || p.depthLimit || p.windowLimit || p.shortFrame || p.badLength)

/-- DISPOSITION as W1 carries it. -/
def Disposition.code : Disposition → Nat
  | .lookup => 0 | .drop => 1 | .engine => 2 | .control => 3

/-- W1 with CONTROL and DISPOSITION set (R190, R196). -/
def kvSetDisp (kv : List W48) (control : Bool) (d : Disposition) : List W48 :=
  kvPut (kvPut kv 1 6 1 (if control then 1 else 0)) 1 24 2 (Disposition.code d)

end Sys2Proof
end

