-- ==== Sys2Proof/Machine/Forward.lean ====
section
/-!
DEFINITION. The decision stages of "Forwarding Tables and Learning" as functions over the tables: destination
words, MAC and learning, longest-prefix match, ternary policy, flow entries; and the meters of R268.
-/

namespace Sys2Proof

/-! Drop reasons (R284). -/

inductive DropReason where
  | parseDenied | fragPolicy | ethertypeDenied | segmentUnknown | tenantInvalid | unknownSource | learnLimit
  | policyDeny | floodDenied | ttlExpired | noRoute | flowMiss | flowInsertRefused | meterRed | arpNdPoliced
  | engineHoldFull | controlReserveFull | queueThreshold | residenceLimit | portDown | macroOffline | safeState
  | txUnderrun | engineLost | consumed | icvFail | replayWindow | cipherUnavailable | hostQueueAbsent
  | staleGeneration | rxAborted | rxFecUncorrectable | rxFcsError | rxOversize | rxUndersize | rxMacControl
  | bufferExhausted | hostDmaError | badReason | program (code : Nat)
  deriving DecidableEq, Repr

def DropReason.code : DropReason → Nat
  | .parseDenied => 0x01 | .fragPolicy => 0x02 | .ethertypeDenied => 0x03 | .segmentUnknown => 0x04
  | .tenantInvalid => 0x05 | .unknownSource => 0x06 | .learnLimit => 0x07 | .policyDeny => 0x08
  | .floodDenied => 0x09 | .ttlExpired => 0x0A | .noRoute => 0x0B | .flowMiss => 0x0C
  | .flowInsertRefused => 0x0D | .meterRed => 0x0E | .arpNdPoliced => 0x0F | .engineHoldFull => 0x10
  | .controlReserveFull => 0x11 | .queueThreshold => 0x12 | .residenceLimit => 0x13 | .portDown => 0x14
  | .macroOffline => 0x15 | .safeState => 0x16 | .txUnderrun => 0x17 | .engineLost => 0x18 | .consumed => 0x19
  | .icvFail => 0x1A | .replayWindow => 0x1B | .cipherUnavailable => 0x1C | .hostQueueAbsent => 0x1D
  | .staleGeneration => 0x1E | .rxAborted => 0x20 | .rxFecUncorrectable => 0x21 | .rxFcsError => 0x22
  | .rxOversize => 0x23 | .rxUndersize => 0x24 | .rxMacControl => 0x25 | .bufferExhausted => 0x26
  | .hostDmaError => 0x27 | .badReason => 0x28 | .program c => c

/-- The reason a program's DROP is counted under (R284): 0x01-0x1E, 0x20-0x27 and 0x80-0xFF stand, any other
code is BAD_REASON. -/
def programReason (code : Nat) : DropReason :=
  if (1 ≤ code ∧ code ≤ 0x1E) ∨ (0x20 ≤ code ∧ code ≤ 0x27) ∨ (0x80 ≤ code ∧ code ≤ 0xFF) then .program code
  else .badReason

/-! Destination words (R210). -/

def dtypeOf (w : W32) : DType :=
  match w.toNat / 2 ^ 28 with
  | 0 => .drop | 1 => .port | 2 => .aggregate | 3 => .flood | 4 => .hostQueue | 5 => .engine | 6 => .adjacency
  | 7 => .continue_ | _ => .reserved

def destPort (p q : Nat) : W32 := BitVec.ofNat 32 (0x10000000 + p % 1024 + q % 8 * 1024)
def destContinue : W32 := 0x70000000#32
def destPortOf (w : W32) : Nat := fieldN w.toNat 0 10
def destQueueOf (w : W32) : Nat := fieldN w.toNat 10 3
def destGroupOf (w : W32) : Nat := fieldN w.toNat 0 8
def destFloodOf (w : W32) : Nat := fieldN w.toNat 0 12
def destHostOf (w : W32) : Nat := fieldN w.toNat 0 16
def destChannelOf (w : W32) : Nat := fieldN w.toNat 0 24
def destAdjOf (w : W32) : Nat := fieldN w.toNat 0 17

/-- Unused bits of VALUE are 0 (R210). -/
def destBitsOk (w : W32) : Bool :=
  let v := w.toNat % 2 ^ 28
  match dtypeOf w with
  | .drop => v == 0
  | .port => decide (v < 2 ^ 13)
  | .aggregate => v / 2 ^ 13 == 0 && fieldN v 8 2 == 0
  | .flood => decide (v < 2 ^ 12)
  | .hostQueue => decide (v < 2 ^ 16)
  | .engine => decide (v < 2 ^ 24)
  | .adjacency => decide (v < 2 ^ 17)
  | .continue_ => v == 0
  | .reserved => false

/-- The places that hold a destination word (R211). -/
inductive DestPlace where
  | mac | unknownFlood | noRoute | ttl | lpm | adjacency | ternary | copy | flow
  deriving DecidableEq, Repr

/-- R211: the DTYPEs a place may hold. -/
def destAllowed (p : DestPlace) (w : W32) : Bool :=
  destBitsOk w &&
  match p, dtypeOf w with
  | .mac, .drop | .mac, .port | .mac, .aggregate | .mac, .flood | .mac, .hostQueue | .mac, .engine => true
  | .unknownFlood, .drop | .unknownFlood, .flood | .unknownFlood, .hostQueue | .unknownFlood, .engine => true
  | .noRoute, .drop | .noRoute, .hostQueue | .noRoute, .engine => true
  | .ttl, .drop | .ttl, .hostQueue | .ttl, .engine => true
  | .lpm, .drop | .lpm, .adjacency | .lpm, .hostQueue | .lpm, .engine => true
  | .adjacency, .port | .adjacency, .aggregate | .adjacency, .hostQueue => true
  | .ternary, .reserved => false
  | .ternary, _ => true
  | .copy, .drop | .copy, .hostQueue => true
  | .flow, .drop | .flow, .port | .flow, .aggregate | .flow, .hostQueue | .flow, .engine | .flow, .adjacency
  | .flow, .continue_ => true
  | _, _ => false

/-! MAC table (R221, R222). -/

def macStash : Nat := 1048576

/-- Index of a key in way w (R221). -/
def macIndex (seeds : List W32) (w : Nat) (bd : W16) (mac : W48) : Nat :=
  (crcFrom (seeds.getD w 0#32) (leBytes 2 bd.toNat ++ beBytes 6 mac.toNat)).toNat % 2 ^ 18

def macPlaceOf (f : Fwd) (w : Nat) (bd : W16) (mac : W48) : Nat := w * 262144 + macIndex f.seeds w bd mac

def macHolds (f : Fwd) (place : Nat) (bd : W16) (mac : W48) : Bool :=
  match tget f.mac place with
  | some e => e.valid && e.bd == bd && e.mac == mac
  | none => false

/-- The place of a key (R221): ways 0 to 3, then the lowest stash place. -/
def macFind (f : Fwd) (bd : W16) (mac : W48) : Option Nat :=
  match (List.range 4).find? (fun w => macHolds f (macPlaceOf f w bd mac) bd mac) with
  | some w => some (macPlaceOf f w bd mac)
  | none => (f.mac.find? (fun e => decide (macStash ≤ e.1) && e.2.valid && e.2.bd == bd && e.2.mac == mac)).map (·.1)

/-- The way that a place lies in, 4 for the stash (R226). -/
def macWay (place : Nat) : Nat := min 4 (place / 262144)

/-- A place for a new key as the learn unit takes it (R224): a way whose place is free, else the lowest free
stash place (DESIGN CHOICE, log entry 137). -/
def macFree (f : Fwd) (bd : W16) (mac : W48) : Option Nat :=
  let free := fun pl => match tget f.mac pl with | some e => !e.valid | none => true
  match (List.range 4).find? (fun w => free (macPlaceOf f w bd mac)) with
  | some w => some (macPlaceOf f w bd mac)
  | none => (List.range 1024).find? (fun j => free (macStash + j)) |>.map (macStash + ·)

/-- Whether a group holds a port of this side (R212, R222). -/
def groupHolds (f : Fwd) (g p : Nat) : Bool := (tgetD f.aggregates g []).any (fun m => m.port == p && !m.remote)

/-- An entry names a port (R222). -/
def macNames (f : Fwd) (e : MacEntry) (p : Nat) : Bool :=
  match dtypeOf e.dest with
  | .port => destPortOf e.dest == p
  | .aggregate => groupHolds f (destGroupOf e.dest) p
  | _ => false

def portCtl (f : Fwd) (p : Nat) : PortControl := tgetD f.ports p PortControl.blank
def portCtlMod (f : Fwd) (p : Nat) (g : PortControl → PortControl) : Fwd :=
  { f with ports := tmod PortControl.blank f.ports p g }

/-- LEARNED of the port that a dynamic entry's PORT destination names, changed by one (R223). -/
def learnedAdj (f : Fwd) (e : MacEntry) (up : Bool) : Fwd :=
  if e.valid && !e.isStatic && dtypeOf e.dest = .port then
    portCtlMod f (destPortOf e.dest) (fun c => { c with learned := if up then c.learned + 1 else c.learned - 1 })
  else f

/-- The MAC, tenant and adjacency tables as the lookups of this beat see them: as the beat began (R29). -/
def Fwd.seen (f : Fwd) : Fwd :=
  match f.beatOld with
  | some (m, t, a) => { f with mac := m, tenants := t, adjacencies := a }
  | none => f

/-- A write is about to be made: the lookups of this beat keep what stood before it (R29). -/
def Fwd.keepOld (f : Fwd) : Fwd := if f.beatOld.isSome then f else { f with beatOld := some (f.mac, f.tenants, f.adjacencies) }

/-- A write of one MAC place, LEARNED adjusted (R223, R229). -/
def macWritePlace (f : Fwd) (place : Nat) (e : Option MacEntry) : Fwd :=
  let f := f.keepOld
  let f := match tget f.mac place with
    | some old => learnedAdj f old false
    | none => f
  match e with
  | some e => learnedAdj { f with mac := tset f.mac place e } e true
  | none => { f with mac := tdel f.mac place }

/-- A learn event into its ring of 4,096 (R226, R227). The first has SEQ 0, and one that is discarded takes its number too (DESIGN
CHOICE, log entry 138). -/
def learnEventPost (f : Fwd) (e : LearnEvent) : Fwd :=
  let f := if e.kind = .noRoom then { f with noRoomCount := wrapInc f.noRoomCount } else f
  let f := { f with eventSeq := wrapInc f.eventSeq }
  if 4096 ≤ f.eventRing.length then
    { f with eventOverflow := wrapInc f.eventOverflow, eventLost := satInc f.eventLost }
  else { f with eventRing := f.eventRing ++ [{ e with seq := f.eventSeq - 1#32, lost := f.eventLost }], eventLost := 0#16 }

/-- PORT or OLD_PORT of a learn event for a destination (R226). -/
def eventPortOf (w : W32) (other : W16) : W16 :=
  match dtypeOf w with
  | .port => BitVec.ofNat 16 (destPortOf w)
  | .aggregate => BitVec.ofNat 16 (0x8000 + destGroupOf w)
  | _ => other

/-- The source decision in slice `slice` at beat `beats` since tick 0 (R223, R224): the tables after it, and a drop reason or none.
The third result says whether the MAC lookup hit. Of the requests of one beat for a key the lowest-numbered slice's is taken: one that
is accepted gives its place to a later one from a lower slice. -/
def saDecision (f : Fwd) (slice beats : Nat) (p : Nat) (bd : W16) (sa : W48) : Fwd × Option DropReason × Bool :=
  let tick := beats / 1600
  let c := portCtl f p
  let found := macFind f.seen bd sa
  let e := found.bind (tget f.seen.mac)
  let hit := found.isSome
  let request : Fwd × Option DropReason × Bool :=
    let same := f.learnQ.find? (fun r => r.bd == bd && r.sa == sa)
    if same.any (fun r => r.beat != beats || decide (r.slice ≤ slice)) then (f, none, hit)
    else if c.learnLimit.toNat ≤ c.learned then
      let due := match c.limitEvent with | some t => decide (t + 1024 ≤ tick) | none => true
      let f := portCtlMod f p (fun c => { c with limitHits := wrapInc c.limitHits,
                                                 limitEvent := if due then some tick else c.limitEvent })
      let f := if due then learnEventPost f
          { mac := sa, bd := bd, port := BitVec.ofNat 16 p, oldPort := 0xFFFF#16, kind := .limit, way := 0xFF,
            tick := BitVec.ofNat 64 tick, seq := 0#32, lost := 0#16 } else f
      (f, if c.limitAction then none else some .learnLimit, hit)
    else
      let new : LearnReq := { bd := bd, sa := sa, port := p, slice := slice, beat := beats }
      match same with
      | some r =>
        let f := portCtlMod f r.port (fun c => { c with learned := c.learned - 1 })
        let f := portCtlMod f p (fun c => { c with learned := c.learned + 1 })
        ({ f with learnQ := f.learnQ.map (fun x => if x = r then new else x) }, none, hit)
      | none =>
        if 4096 ≤ f.learnQ.length then ({ f with queueOverflow := wrapInc f.queueOverflow }, none, hit)
        else
          let f := portCtlMod f p (fun c => { c with learned := c.learned + 1 })
          ({ f with learnQ := f.learnQ ++ [new] }, none, hit)
  match found, e with
  | some place, some e =>
    if e.discard then (f, some .unknownSource, hit)
    else if macNames f e p then
      (if macHolds f place bd sa then { f with mac := tadj f.mac place (fun x => { x with hit := true }) } else f, none, hit)
    else if e.isStatic || c.moveDeny then (f, some .unknownSource, hit)
    else request
  | _, _ => if c.unknownSaDrop then (f, some .unknownSource, hit) else request

/-- The learn unit on the request at the front of its queue (R224, R225). -/
def learnUnit (f : Fwd) (tick : Nat) : Fwd :=
  match f.learnQ with
  | [] => f
  | r :: rest =>
    let f := { f with learnQ := rest }
    let release := fun (f : Fwd) => portCtlMod f r.port (fun c => { c with learned := c.learned - 1 })
    let ev := fun (k : LearnKind) (old : W16) (way : Nat) =>
      ({ mac := r.sa, bd := r.bd, port := BitVec.ofNat 16 r.port, oldPort := old, kind := k, way := way,
         tick := BitVec.ofNat 64 tick, seq := 0#32, lost := 0#16 } : LearnEvent)
    match macFind f r.bd r.sa with
    | some place =>
      match tget f.mac place with
      | none => release f
      | some e =>
        if e.isStatic || macNames f e r.port then release f
        else
          let old := e.dest
          let f := f.keepOld
          let f := { f with mac := tset f.mac place { e with dest := destPort r.port 0 } }
          let f := if dtypeOf old = .port then
              portCtlMod f (destPortOf old) (fun c => { c with learned := c.learned - 1 }) else f
          let f := portCtlMod f r.port (fun c => { c with moves := wrapInc c.moves })
          learnEventPost f (ev .moved (eventPortOf old 0xFFFE#16) (macWay place))
    | none =>
      match macFree f r.bd r.sa with
      | some place =>
        let e : MacEntry := { mac := r.sa, bd := r.bd, dest := destPort r.port 0, valid := true, isStatic := false,
                              router := false, discard := false, hit := true }
        learnEventPost { f.keepOld with mac := tset f.mac place e } (ev .learned 0xFFFF#16 (macWay place))
      | none => learnEventPost (release f) (ev .noRoom 0xFFFF#16 0xFF)

/-- A visit of the MAC ager to one place (R228): HIT is cleared, or the entry is removed when the beat ends. -/
def macAgerVisit (f : Fwd) (place : Nat) : Fwd :=
  match tget f.mac place with
  | none => f
  | some e =>
    if f.agePeriod = 0#32 || !e.valid || e.isStatic then f
    else if e.hit then { f with mac := tset f.mac place { e with hit := false } }
    else { f with agedDue := if f.agedDue.contains place then f.agedDue else f.agedDue ++ [place] }

/-- A removal by the ager (R228); an entry that a source hit of the beat set HIT of stays (R230). -/
def macAged (f : Fwd) (tick place : Nat) : Fwd :=
  match tget f.mac place with
  | none => f
  | some e =>
    if e.hit || !e.valid || e.isStatic then f
    else learnEventPost (macWritePlace f place none)
      { mac := e.mac, bd := e.bd, port := eventPortOf e.dest 0xFFFF#16, oldPort := 0xFFFF#16, kind := .aged,
        way := macWay place, tick := BitVec.ofNat 64 tick, seq := 0#32, lost := 0#16 }

/-! Longest-prefix match (R231-R233). -/

/-- The longest matching prefix of a family of `w` address bits: its length and destination. -/
def lpmBest (w : Nat) (t : List (LpmKey × W32)) (vrf addr : Nat) : Option (Nat × W32) :=
  t.foldl (fun (best : Option (Nat × W32)) e =>
    if e.1.vrf == vrf && addr / 2 ^ (w - e.1.len) == e.1.pfx / 2 ^ (w - e.1.len) then
      match best with
      | some (l, _) => if l < e.1.len then some (e.1.len, e.2) else best
      | none => some (e.1.len, e.2)
    else best) none

def lpmLookup (w : Nat) (t : List (LpmKey × W32)) (vrf addr : Nat) : Option W32 := (lpmBest w t vrf addr).map (·.2)

/-- Distinct blocks of length `len` that hold prefixes longer than it (R232). -/
def blocksOver (w len : Nat) (t : List (LpmKey × W32)) : Nat :=
  ((t.filter (fun e => decide (len < e.1.len))).map (fun e => (e.1.vrf, e.1.pfx / 2 ^ (w - len)))).eraseDups.length

def vrfsOf (t : List (LpmKey × W32)) : Nat := (t.map (fun e => e.1.vrf)).eraseDups.length

/-- The capacities of R36 and the conditions of R232. -/
def vtablesFit (t : VTables) : Bool :=
  decide (t.segment.length ≤ 262144) && decide (t.ternary.length ≤ 262144)
  && decide (t.ipv4.length ≤ 2097152)
  && decide ((t.ipv6.filter (fun e => decide (e.1.len ≤ 64))).length ≤ 1048576)
  && decide ((t.ipv6.filter (fun e => decide (64 < e.1.len))).length ≤ 131072)
  && decide (vrfsOf t.ipv4 ≤ 128) && decide (blocksOver 32 16 t.ipv4 ≤ 65536)
  && decide (blocksOver 32 24 t.ipv4 ≤ 131072) && decide (vrfsOf t.ipv6 ≤ 128)
  && decide (blocksOver 128 16 t.ipv6 ≤ 16384) && decide (blocksOver 128 32 t.ipv6 ≤ 65536)
  && decide (blocksOver 128 48 t.ipv6 ≤ 262144) && decide (blocksOver 128 64 t.ipv6 ≤ 65536)
  && decide ((t.ipv6.filter (fun e => decide (96 < e.1.len))).length ≤ 16384)

/-! Ternary policy (R234). -/

/-- The 480-bit key of a class (R234). -/
def ternKey (cls : ClassEntry) (kv : List W48) : BitVec 480 :=
  BitVec.ofNat 480 (((List.range (min 10 cls.ternWords)).map
    (fun i => (kvGet kv (cls.ternBase + i)).toNat * 2 ^ (48 * i))).foldl (· + ·) 0)

def ternMatches (e : TernaryEntry) (tenant cls : Nat) (key : BitVec 480) : Bool :=
  e.valid && (e.tenantAny || e.tenant.toNat == tenant) && (e.classAny || e.cls.toNat == cls)
  && (key &&& e.mask) == (e.key &&& e.mask)

/-- The governing entry: the lowest matching index. -/
def ternLookup (t : Tbl TernaryEntry) (tenant cls : Nat) (key : BitVec 480) : Option (Nat × TernaryEntry) :=
  t.find? (fun e => ternMatches e.2 tenant cls key)

/-! Aggregation (R212). -/

/-- The words the hash runs over (R212). -/
def hashWords (cls : ClassEntry) (p : Packet) : List W48 :=
  let l3 := fieldN (kvGet p.kv 6).toNat 0 9
  let nib := (p.bytes.getD l3 0#8).toNat / 16
  if 0 < cls.flowWords then (List.range cls.flowWords).map (fun i => kvGet p.kv (cls.flowBase + i))
  else if cls.macDa || cls.macSa then [kvGet p.kv cls.daWord, kvGet p.kv cls.saWord]
  else if (cls.ipv4Lpm || cls.ipv6Lpm) && l3 != 0x1FF && nib == 4 then [kvGet p.kv cls.l3Word]
  else if (cls.ipv4Lpm || cls.ipv6Lpm) && l3 != 0x1FF && nib == 6 then
    [kvGet p.kv cls.l3Word, kvGet p.kv (cls.l3Word + 1), kvGet p.kv (cls.l3Word + 2)]
  else [kvGet p.kv 0]

def aggHash (cls : ClassEntry) (p : Packet) : Nat :=
  (crcFrom 0xFFFFFFFF#32 ((hashWords cls p).flatMap (fun w => leBytes 6 w.toNat))).toNat

/-- The active member a hash selects (R212). -/
def aggMember (members : List AggMember) (active : AggMember → Bool) (h : Nat) : Option AggMember :=
  let a := members.filter active
  if a.length = 0 then none else a[h % a.length]?

/-! Meters (R268, R269). -/

/-- One use of a meter in a tick: the meter after it, and the colour (0 green, 1 yellow, 2 red). -/
def meterUse (m : Meter) (tick frameLen colourIn : Nat) : Meter × Nat :=
  if !m.valid then (m, 0)
  else
    let dt := tick - m.tLast
    let tc := min (m.cbs.toNat * 4096) (m.tc + m.cir.toNat * dt)
    let tp := min (m.pbs.toNat * 4096) (m.tp + m.pir.toNat * dt)
    let m := { m with tc := tc, tp := tp, tLast := tick }
    let b := if m.packetMode then 4096 else  -- none below zero: log entry 163
       ((frameLen : Int) + signedOf 8 m.lenAdjust.toNat).toNat * 4096
    if (m.colorAware && colourIn == 2) || decide (tp < b) then (m, 2)
    else if (m.colorAware && colourIn == 1) || decide (tc < b) then ({ m with tp := tp - b }, 1)
    else ({ m with tp := tp - b, tc := tc - b }, 0)

/-- A meter with full buckets, as one stands when loaded, added or changed (R269). -/
def meterFull (m : Meter) (tick : Nat) : Meter :=
  { m with tc := m.cbs.toNat * 4096, tp := m.pbs.toNat * 4096, tLast := tick }

/-! The decision (R214): steps 1 to 8. -/

/-- How the decision goes on after step 8. -/
inductive DecOut where
  | drop (r : DropReason) | control | flow | final
  deriving DecidableEq, Repr

/-- The decision so far: tables, packet, ledger adds, and the reason a DROP destination would have. -/
structure DecRun where
  fwd : Fwd
  pkt : Packet
  adds : List Add
  dropReason : DropReason
  deriving DecidableEq, Repr

def frameLen (p : Packet) : Nat := p.bytes.length + 4

def decAdd (r : DecRun) (idx : Nat) : DecRun := { r with adds := r.adds ++ [{ idx := idx, pkts := 1, bytes := frameLen r.pkt }] }
def decDest (r : DecRun) (w : W32) (reason : DropReason) : DecRun :=
  { r with pkt := { r.pkt with dest := w }, dropReason := reason }

/-- Step 3, tenant resolution (R216, R218): the tenant, or SEGMENT_UNKNOWN; and the segment lookup's outcome. -/
def resolveTenant (f : Fwd) (vt : VTables) (cls : ClassEntry) (p : Packet) : Option Nat × Option Bool :=
  let w7 := (kvGet p.kv 7).toNat
  let dflt := if p.origin = 0 then (portCtl f p.port).defaultTenant.toNat else p.tenant.getD 0
  if cls.segment && bitN w7 24 then
    match tget vt.segment (w7 % 2 ^ 24) with
    | some t => (some t.toNat, some true)
    | none =>
      if p.origin = 0 && !(portCtl f p.port).segmentMiss then (some dflt, some false) else (none, some false)
  else (some dflt, none)

/-- The family at marker L3 (R214): 4, 6, or none. -/
def l3Family (p : Packet) : Option Nat :=
  let l3 := fieldN (kvGet p.kv 6).toNat 0 9
  if l3 = 0x1FF then none
  else
    let nib := (p.bytes.getD l3 0#8).toNat / 16
    if nib = 4 then some 4 else if nib = 6 then some 6 else none

/-- Step 7 (R214, R220, R231): routing. -/
def routeStep (vt : VTables) (slice : Nat) (cls : ClassEntry) (t : TenantEntry) (r : DecRun) : DecRun :=
  let p := r.pkt
  let l3 := fieldN (kvGet p.kv 6).toNat 0 9
  let vrf := tgetD vt.vrf (p.tenant.getD 0) 0
  let go := fun (v4 : Bool) =>
    let ttlAt := l3 + (if v4 then 8 else 7)
    let ttl := if ttlAt < min 256 p.bytes.length then (p.bytes.getD ttlAt 0#8).toNat else 0
    if ttl ≤ 1 then decDest r t.ttlDest .ttlExpired
    else
      let addr := if v4 then (kvGet p.kv cls.l3Word).toNat % 2 ^ 32
        else (kvGet p.kv cls.l3Word).toNat * 2 ^ 80 + (kvGet p.kv (cls.l3Word + 1)).toNat * 2 ^ 32
          + (kvGet p.kv (cls.l3Word + 2)).toNat % 2 ^ 32
      let table := if v4 then 3 else 4
      match (if v4 then lpmLookup 32 vt.ipv4 vrf addr else lpmLookup 128 vt.ipv6 vrf addr) with
      | some w => decDest (decAdd r (cTable slice table 0)) w .noRoute
      | none => decDest (decAdd r (cTable slice table 1)) t.noRouteDest .noRoute
  match l3Family p with
  | some 4 => if cls.ipv4Lpm && t.routeV4 then go true else decDest r t.noRouteDest .noRoute
  | some 6 => if cls.ipv6Lpm && t.routeV6 then go false else decDest r t.noRouteDest .noRoute
  | _ => decDest r t.noRouteDest .noRoute

/-- Step 8 (R236). -/
def ternStep (vt : VTables) (slice : Nat) (cls : ClassEntry) (r : DecRun) : DecRun :=
  let p := r.pkt
  match ternLookup vt.ternary (p.tenant.getD 0) p.cls (ternKey cls p.kv) with
  | none => decAdd r (cTable slice 5 1)
  | some (i, e) =>
    let r := decAdd (decAdd r (cTable slice 5 0)) (cTernHit i)
    let r := if dtypeOf e.dest = .continue_ then r else decDest r e.dest .policyDeny
    { r with pkt := { r.pkt with
        flowSkip := e.flowSkip, flowNoInsert := e.flowNoInsert
        queueSet := if e.queueSet then some e.queue.toNat else none
        meter := if e.meter = 0xFFFFF#20 then none else some e.meter.toNat
        copyQueue := if dtypeOf e.copyDest = .hostQueue then some (destHostOf e.copyDest) else none } }

def isDropDest (r : DecRun) : Bool := dtypeOf r.pkt.dest = .drop

/-- Steps 8 and the hand-over to step 9 (R214). -/
def decTail (vt : VTables) (slice : Nat) (cls : ClassEntry) (r : DecRun) : DecRun × DecOut :=
  let r' := if cls.ternary then ternStep vt slice cls r else r
  if cls.ternary && isDropDest r' && r'.dropReason = .policyDeny then (r', .drop .policyDeny)
  else if cls.flowState && !r'.pkt.flowSkip then (r', .flow)
  else (r', .final)

/-- Steps 6 and 7 (R214). A DROP word taken there ends the decision (R215). -/
def decLookups (vt : VTables) (slice : Nat) (cls : ClassEntry) (t : TenantEntry) (r : DecRun) : DecRun × DecOut :=
  let da := kvGet r.pkt.kv cls.daWord
  let group := bitN (da.toNat / 2 ^ 40) 0
  let e := if cls.macDa then (macFind r.fwd.seen t.bd da).bind (tget r.fwd.seen.mac) else none
  let r1 := if !cls.macDa then r else match e with
    | some e =>
      let r := decAdd r (cTable slice 0 0)
      if e.discard then decDest r 0#32 .policyDeny
      else if e.router then r else decDest r e.dest .policyDeny
    | none =>
      let r := decAdd r (cTable slice 0 1)
      if group then decDest r t.floodDest .floodDenied else r
  let routes := match e with
    | some e => e.router && !e.discard
    | none => !cls.macDa && (cls.ipv4Lpm || cls.ipv6Lpm)
  if cls.macDa && isDropDest r1 && !routes then (r1, .drop r1.dropReason)
  else
    let r2 := if routes then routeStep vt slice cls t r1 else r1
    if routes && isDropDest r2 then (r2, .drop r2.dropReason) else decTail vt slice cls r2

/-- Steps 3 to 8. -/
def decFromTenant (vt : VTables) (slice beats : Nat) (cls : ClassEntry) (r : DecRun) : DecRun × DecOut :=
  let (t?, seg) := resolveTenant r.fwd vt cls r.pkt
  let r := match seg with
    | some hit => decAdd r (cTable slice 2 (if hit then 0 else 1))
    | none => r
  match t? with
  | none => ({ r with pkt := { r.pkt with tenant := none } }, .drop .segmentUnknown)
  | some tid =>
    let r := decAdd { r with pkt := { r.pkt with tenant := some tid } } (cTenant tid 0)
    match tget r.fwd.seen.tenants tid with
    | none => (r, .drop .tenantInvalid)
    | some t =>
      if !t.valid then (r, .drop .tenantInvalid)
      else
        let r := decDest r t.unknownDest .floodDenied
        if cls.disposition = .engine then
          (decDest r (BitVec.ofNat 32 (0x50000000 + cls.engineChannel % 2 ^ 24)) .policyDeny, .final)
        else if r.pkt.origin = 0 && cls.macSa then
          let (f, d, hit) := saDecision r.fwd slice beats r.pkt.port t.bd (kvGet r.pkt.kv cls.saWord)
          let r := decAdd { r with fwd := f } (cTable slice 1 (if hit then 0 else 1))
          match d with
          | some reason => (r, .drop reason)
          | none => decLookups vt slice cls t r
        else decLookups vt slice cls t r

/-- Steps 1 to 8 of the decision (R214), at beat `beats` since tick 0. -/
def decide_ (f : Fwd) (vt : VTables) (slice beats : Nat) (cls : ClassEntry) (p : Packet) : DecRun × DecOut :=
  let r : DecRun := { fwd := f, pkt := p, adds := [], dropReason := .floodDenied }
  if p.control then (r, .control)
  else if cls.disposition = .drop then (r, .drop .parseDenied)
  else
    let c := portCtl f p.port
    let et := (kvGet p.kv c.etypeWord).toNat % 65536
    if p.origin = 0 && c.etypeList != 0
        && !((tgetD f.etypeLists c.etypeList []).any (fun v => v ≠ 0#16 && v.toNat == et)) then
      (r, .drop .ethertypeDenied)
    else decFromTenant vt slice beats cls r

/-- The final destination (R219, R235): an adjacency resolved with its edits, ENGINE 0xFF_FFFF replaced by the
class's channel, QUEUE_SET applied. -/
def finalDest (f : Fwd) (slice : Nat) (cls : ClassEntry) (r : DecRun) : DecRun × Option DropReason :=
  let p := r.pkt
  let (r, bad) : DecRun × Bool :=
    if dtypeOf p.dest = .adjacency then
      match tget f.seen.adjacencies (destAdjOf p.dest) with
      | some a =>
        if a.valid then
          let sa := ((p.tenant.bind (tget f.seen.tenants)).map (·.routerMac)).getD 0#48
          let r := decAdd r (cTable slice 7 0)
          ({ r with pkt := { r.pkt with dest := a.dest, route := some { da := a.dmac, sa := sa, decTtl := a.decTtl } } }, false)
        else (decAdd r (cTable slice 7 1), true)
      | none => (decAdd r (cTable slice 7 1), true)
    else (r, false)
  if bad then (r, some .noRoute)
  else
    let p := r.pkt
    match dtypeOf p.dest with
    | .drop => (r, some r.dropReason)
    | .engine =>
      if destChannelOf p.dest = 0xFFFFFF then
        ({ r with pkt := { p with dest := BitVec.ofNat 32 (0x50000000 + cls.engineChannel % 2 ^ 24) } }, none)
      else (r, none)
    | .port => match p.queueSet with
      | some q => ({ r with pkt := { p with dest := destPort (destPortOf p.dest) q } }, none)
      | none => (r, none)
    | .aggregate => match p.queueSet with
      | some q => ({ r with pkt := { p with dest := BitVec.ofNat 32 (0x20000000 + destGroupOf p.dest + q * 1024) } }, none)
      | none => (r, none)
    | _ => (r, none)

/-! Flow-state entries (R237, R290). -/

/-- The bytes 0-2 and 4-51 of a packet's flow entry (R237). -/
def flowKeyBytes (tenant cls : Nat) (c : ClassEntry) (kv : List W48) : List Byte × List Byte :=
  let words := (List.range (min 8 c.flowWords)).map (fun i => kvGet kv (c.flowBase + i))
  let key := words.flatMap (fun w => leBytes 6 w.toNat)
  (leBytes 2 tenant ++ leBytes 1 cls, key ++ List.replicate (48 - key.length) 0#8)

/-- The index of a flow (R237). -/
def flowIndex (seed : W32) (k : List Byte × List Byte) : Nat := (crcFrom seed (k.1 ++ k.2)).toNat % 2 ^ 27

/-- COUNTERS after an add of one packet (R290), and which of packets and bytes wrapped. -/
def flowCount (counters : W64) (len : Nat) : W64 × Bool × Bool :=
  let p := counters.toNat % 2 ^ 28 + 1
  let b := counters.toNat / 2 ^ 28 + len
  (BitVec.ofNat 64 (p % 2 ^ 28 + b % 2 ^ 36 * 2 ^ 28), decide (2 ^ 28 ≤ p), decide (2 ^ 36 ≤ b))

end Sys2Proof
end

