-- ==== Sys2Proof/Machine/VersionOps.lean ====
section
/-!
DEFINITION. The versioned tables: writes, the open version, the version reserve, references, and the boundary's
commit and select (R201-R207).
-/

namespace Sys2Proof

/-! Writes (R204). -/

def lpmSet (t : List (LpmKey × W32)) (k : LpmKey) (v : Option W32) : List (LpmKey × W32) :=
  let t := t.filter (fun e => e.1 ≠ k)
  match v with
  | some d => t ++ [(k, d)]
  | none => t

def optSet {α : Type} (t : Tbl α) (i : Nat) (v : Option α) : Tbl α :=
  match v with
  | some x => tset t i x
  | none => tdel t i

def vApply (t : VTables) (w : VWrite) : VTables :=
  match w with
  | .segment i v => { t with segment := optSet t.segment i v }
  | .ipv4 k v => { t with ipv4 := lpmSet t.ipv4 k v }
  | .ipv6 k v => { t with ipv6 := lpmSet t.ipv6 k v }
  | .ternary i v => { t with ternary := optSet t.ternary i v }
  | .vrf i v => { t with vrf := tput 0 t.vrf i v }

def vApplyAll (t : VTables) (ws : List VWrite) : VTables := ws.foldl vApply t

/-! Slots and versions (R201). -/

def vslot (d : Dec) (i : Nat) : VSlot := tgetD d.slots i VSlot.empty
def vslotMod (d : Dec) (i : Nat) (f : VSlot → VSlot) : Dec := { d with slots := tmod VSlot.empty d.slots i f }

/-- The slot that holds a version. -/
def slotOfVersion (d : Dec) (v : Nat) : Option Nat :=
  firstBelow 4 (fun i => (vslot d i).state ≠ .empty && (vslot d i).version == v)

def currentTables (d : Dec) : VTables := (vslot d d.currentSlot).tables

/-- The tables of a version; an absent version is empty. -/
def versionTables (d : Dec) (v : Nat) : VTables :=
  match slotOfVersion d v with
  | some i => (vslot d i).tables
  | none => VTables.empty

/-- The sealed version's tables, and the open version's: each starts as a copy of what it follows (R204, R205). -/
def sealedTables (d : Dec) : VTables :=
  match d.sealed_ with
  | some x => vApplyAll (currentTables d) x.writes
  | none => currentTables d

def openTables (d : Dec) : VTables := vApplyAll (sealedTables d) d.openWrites

/-! The version reserve (R204). -/

/-- Places that a version takes of one keyed table: the entries that differ from the current version's. -/
def tblDiff {α : Type} [DecidableEq α] (cur other : Tbl α) : List (Nat × Option α) :=
  (other.filter (fun e => tget cur e.1 ≠ some e.2)).map (fun e => (e.1, some e.2))
  ++ (cur.filter (fun e => !thas other e.1)).map (fun e => (e.1, none))

def lpmGet (t : List (LpmKey × W32)) (k : LpmKey) : Option W32 := (t.find? (fun e => e.1 == k)).map (·.2)

def lpmDiff (cur other : List (LpmKey × W32)) : List (LpmKey × Option W32) :=
  (other.filter (fun e => lpmGet cur e.1 ≠ some e.2)).map (fun e => (e.1, some e.2))
  ++ (cur.filter (fun e => (lpmGet other e.1).isNone)).map (fun e => (e.1, none))

/-- The versions other than the current one: held, retained, sealed and open, with `open_` as the open version. -/
def otherVersions (d : Dec) (open_ : VTables) : List VTables :=
  ((List.range 4).filter (fun i => i ≠ d.currentSlot && (vslot d i).state ≠ .empty)).map (fun i => (vslot d i).tables)
  ++ [sealedTables d, open_]

/-- Places in use: ternary, segment map, IPv4, IPv6 of /64 and shorter, IPv6 longer. Equal entries are stored once, so an
entry that is alike in two versions and differs from the current one takes one place (DEDUCED, log entry 126). -/
def reserveUsed (d : Dec) (open_ : VTables) : Nat × Nat × Nat × Nat × Nat :=
  let c := currentTables d
  let vs := otherVersions d open_
  let v6 := (vs.flatMap (fun v => lpmDiff c.ipv6 v.ipv6)).eraseDups
  ((vs.flatMap (fun v => tblDiff c.ternary v.ternary)).eraseDups.length,
   (vs.flatMap (fun v => tblDiff c.segment v.segment)).eraseDups.length,
   (vs.flatMap (fun v => lpmDiff c.ipv4 v.ipv4)).eraseDups.length,
   (v6.filter (fun e => decide (e.1.len ≤ 64))).length,
   (v6.filter (fun e => decide (64 < e.1.len))).length)

/-- The open version stays within the reserve and the capacities (R204). -/
def openFits (d : Dec) (open_ : VTables) : Bool :=
  let (a, b, c, e, f) := reserveUsed d open_
  decide (a ≤ 16384) && decide (b ≤ 32768) && decide (c ≤ 131072) && decide (e ≤ 65536) && decide (f ≤ 8192)
  && vtablesFit open_

/-- Writes accepted into the open version, or none when they do not fit (NO_ROOM). Those of the beat of a sealing join the sealed
version (R209). -/
def openWrite (d : Dec) (ws : List VWrite) : Option Dec :=
  if openFits d (vApplyAll (openTables d) ws) then
    match d.sealed_ with
    | some x =>
      if x.fresh then some { d with sealed_ := some { x with writes := x.writes ++ ws } }
      else some { d with openWrites := d.openWrites ++ ws, openWriteCount := wrapAdd d.openWriteCount ws.length }
    | none => some { d with openWrites := d.openWrites ++ ws, openWriteCount := wrapAdd d.openWriteCount ws.length }
  else none

/-- A sealing of the open version in tick `b` (R205), by a request (`fresh`) or by the partner's PLAN. -/
def sealNow (d : Dec) (b : Nat) (w : Waiter) (fresh : Bool) : Dec :=
  { d with sealed_ := some { writes := d.openWrites, tick := b, waiter := w, fresh := fresh }, openWrites := []
           openWriteCount := 0#32 }

/-- The beat of a sealing ends, and what the scrub lost in it leaves every version (R29, R249). -/
def sealSettle (d : Dec) : Dec :=
  { d with
    sealed_ := d.sealed_.map (fun x => { x with fresh := false })
    slots := if d.clearsDue.isEmpty then d.slots else tmap d.slots (fun _ v => { v with tables := vApplyAll v.tables d.clearsDue })
    clearsDue := [] }

/-! References (R203). -/

def slotTake (d : Dec) (i : Nat) : Dec := vslotMod d i (fun v => { v with refs := v.refs + 1 })

def slotRelease (d : Dec) (i : Nat) : Dec :=
  vslotMod d i (fun v =>
    { v with refs := v.refs - 1, state := if v.state = .holding ∧ v.refs ≤ 1 then .retained else v.state })

/-! Commit and select (R205-R207). -/

/-- The former current slot, when another becomes current (R206). -/
def slotRetire (d : Dec) : Dec :=
  vslotMod d d.currentSlot (fun v => { v with state := if v.refs = 0 then .retained else .holding })

/-- Slot `i` becomes current at the boundary beginning tick `b`. A select counts as the last commit for the 2-tick rule
(DEDUCED, log entry 127). -/
def slotCurrent (d : Dec) (i b : Nat) : Dec :=
  let d := vslotMod (slotRetire d) i (fun v => { v with state := .current, sinceTick := BitVec.ofNat 64 b })
  { d with currentSlot := i, current := (vslot d i).version, lastCommit := b, lastCommitTick := BitVec.ofNat 64 b,
           commitCount := wrapInc d.commitCount }

/-- The slot a commit takes (R206): the lowest empty one, else the retained one that stopped being current
earliest; `sinceTick` is when a slot became current, and slots stop in the order in which they started. -/
def commitSlot (d : Dec) : Option Nat :=
  match firstBelow 4 (fun i => (vslot d i).state = .empty) with
  | some i => some i
  | none =>
    (List.range 4).foldl (fun (best : Option Nat) i =>
      if (vslot d i).state = .retained then
        match best with
        | some j => if (vslot d i).sinceTick.toNat < (vslot d j).sinceTick.toNat then some i else best
        | none => some i
      else best) none

/-- The next version number: counting up modulo 16 from the last one assigned, that no slot holds. -/
def nextVersion (d : Dec) : Nat :=
  match (List.range 16).find? (fun k => (slotOfVersion d ((d.lastAssigned + 1 + k) % 16)).isNone) with
  | some k => (d.lastAssigned + 1 + k) % 16
  | none => 0

/-- The 2-tick rule. -/
def twoTicks (d : Dec) (b : Nat) : Bool := decide (d.lastCommit + 2 ≤ b)

/-- The sealed version becomes current at the boundary beginning tick `b` in slot `i`. -/
def commitAt (d : Dec) (b i : Nat) : Dec :=
  match d.sealed_ with
  | none => d
  | some _ =>
    let t := sealedTables d
    let n := nextVersion d
    let d := vslotMod d i (fun v => { v with version := n, tables := t, refs := 0 })
    { slotCurrent d i b with lastAssigned := n, sealed_ := none }

/-- A sealed commit gives up (R206): its writes return beneath the later ones, and OPEN_WRITES counts them again (DESIGN
CHOICE, log entry 128). -/
def commitGiveUp (d : Dec) : Dec :=
  match d.sealed_ with
  | none => d
  | some x => { d with sealed_ := none, openWrites := x.writes ++ d.openWrites, busyCount := wrapInc d.busyCount,
                       openWriteCount := wrapAdd d.openWriteCount x.writes.length }

/-- A select takes effect at the boundary beginning tick `b` (R207): the open writes are discarded. The
writes of a commit that the select ended stand among them since its acceptance. OPEN_WRITES starts again from 0 (DESIGN
CHOICE, log entry 128). -/
def selectAt (d : Dec) (b i : Nat) : Dec :=
  let n := d.openWrites.length
  let d := slotCurrent d i b
  { d with openWrites := [], openDiscards := wrapAdd d.openDiscards n, openWriteCount := 0#32, select := none }

end Sys2Proof
end

