-- ==== Sys2Proof/Machine/TableFmt.lean ====
section
/-!
DEFINITION. The formats of table entries (R217, R218, R219, R222, R235, R247, R270) as bytes, their checks, and the
records by which commands, engine programs and the pair name them (R377, R487, R527).
-/

namespace Sys2Proof

def allZero (bs : List Byte) : Bool := bs.all (fun b => b == 0#8)

/-- The value of `n` bytes at a place, least significant first. -/
def leAt (bs : List Byte) (start n : Nat) : Nat := leVal (slice bs start n)
def beAt (bs : List Byte) (start n : Nat) : Nat := beVal (slice bs start n)

def zeroBytes (n : Nat) : List Byte := List.replicate n 0#8

/-! MAC entries (R222). -/

def macBytes (e : MacEntry) : List Byte :=
  beBytes 6 e.mac.toNat ++ leBytes 2 e.bd.toNat ++ leBytes 4 e.dest.toNat
    ++ leBytes 1 (putB e.valid 0 + putB e.isStatic 1 + putB e.router 2 + putB e.discard 3 + putB e.hit 4) ++ zeroBytes 3

def macOfBytes (b : List Byte) : MacEntry :=
  let f := leAt b 12 1
  { mac := BitVec.ofNat 48 (beAt b 0 6), bd := BitVec.ofNat 16 (leAt b 6 2), dest := BitVec.ofNat 32 (leAt b 8 4),
    valid := bitN f 0, isStatic := bitN f 1, router := bitN f 2, discard := bitN f 3, hit := bitN f 4 }

def macDestOk (e : MacEntry) : Bool := !e.valid || (if e.router then e.dest == 0#32 else destAllowed .mac e.dest)

def macReservedOk (b : List Byte) : Bool := decide (leAt b 12 1 < 32) && allZero (slice b 13 3)

/-! Tenant entries (R217). -/

def tenantBytes (e : TenantEntry) (vrf : Nat) : List Byte :=
  leBytes 2 e.bd.toNat ++ leBytes 2 vrf ++ leBytes 4 e.unknownDest.toNat ++ leBytes 4 e.floodDest.toNat
    ++ leBytes 4 e.noRouteDest.toNat ++ leBytes 4 e.ttlDest.toNat ++ beBytes 6 e.routerMac.toNat
    ++ leBytes 1 (putB e.valid 0 + putB e.routeV4 1 + putB e.routeV6 2)
    ++ leBytes 1 (put e.flowMiss.toNat 0 2 + put e.flowFallback.toNat 2 2 + put e.arpMode.toNat 4 2)
    ++ leBytes 4 e.flowChannel.toNat

def tenantOfBytes (b : List Byte) : TenantEntry × Nat :=
  let f := leAt b 26 1
  let g := leAt b 27 1
  ({ bd := BitVec.ofNat 16 (leAt b 0 2), unknownDest := BitVec.ofNat 32 (leAt b 4 4),
     floodDest := BitVec.ofNat 32 (leAt b 8 4), noRouteDest := BitVec.ofNat 32 (leAt b 12 4),
     ttlDest := BitVec.ofNat 32 (leAt b 16 4), routerMac := BitVec.ofNat 48 (beAt b 20 6), valid := bitN f 0,
     routeV4 := bitN f 1, routeV6 := bitN f 2, flowMiss := BitVec.ofNat 2 g, flowFallback := BitVec.ofNat 2 (g / 4),
     arpMode := BitVec.ofNat 2 (g / 16), flowChannel := BitVec.ofNat 24 (leAt b 28 4) }, leAt b 2 2 % 4096)

def tenantDestsOk (e : TenantEntry) : Bool :=
  !e.valid || (destAllowed .unknownFlood e.unknownDest && destAllowed .unknownFlood e.floodDest
    && destAllowed .noRoute e.noRouteDest && destAllowed .ttl e.ttlDest)

def tenantReservedOk (b : List Byte) : Bool :=
  let g := leAt b 27 1
  decide (leAt b 2 2 < 4096) && decide (leAt b 26 1 < 8) && decide (g < 64) && g / 4 % 4 != 3 && g / 16 % 4 != 3
  && decide (leAt b 28 4 < 2 ^ 24)

/-! Segment entries (R218). -/

def segmentBytes (id : Nat) (tenant : W16) : List Byte :=
  leBytes 3 id ++ [1#8] ++ leBytes 2 tenant.toNat ++ zeroBytes 2

def segmentReservedOk (b : List Byte) : Bool := decide (leAt b 3 1 < 2) && allZero (slice b 6 2)

/-! Adjacency entries (R219). -/

def adjBytes (a : Adjacency) : List Byte :=
  beBytes 6 a.dmac.toNat ++ zeroBytes 2 ++ leBytes 4 a.dest.toNat ++ leBytes 1 (putB a.valid 0 + putB a.decTtl 1)
    ++ zeroBytes 3

def adjOfBytes (b : List Byte) : Adjacency :=
  let f := leAt b 12 1
  { dmac := BitVec.ofNat 48 (beAt b 0 6), dest := BitVec.ofNat 32 (leAt b 8 4), valid := bitN f 0, decTtl := bitN f 1 }

def adjReservedOk (b : List Byte) : Bool :=
  allZero (slice b 6 2) && decide (leAt b 12 1 < 4) && allZero (slice b 13 3)

/-! LPM entries (R247). -/

def lpm4Bytes (k : LpmKey) (d : W32) : List Byte :=
  leBytes 2 k.vrf ++ leBytes 1 k.len ++ [0#8] ++ beBytes 4 k.pfx ++ leBytes 4 d.toNat

def lpm6Bytes (k : LpmKey) (d : W32) : List Byte :=
  leBytes 2 k.vrf ++ leBytes 1 k.len ++ [0#8] ++ leBytes 4 d.toNat ++ beBytes 16 k.pfx

def lpm4OfBytes (b : List Byte) : LpmKey × W32 :=
  ({ vrf := leAt b 0 2, len := leAt b 2 1, pfx := beAt b 4 4 }, BitVec.ofNat 32 (leAt b 8 4))

def lpm6OfBytes (b : List Byte) : LpmKey × W32 :=
  ({ vrf := leAt b 0 2, len := leAt b 2 1, pfx := beAt b 8 16 }, BitVec.ofNat 32 (leAt b 4 4))

/-- A key of a family of `w` bits: VRF and LEN in range, byte 3 zero, no bit beyond LEN (R247, R248). -/
def lpmKeyOk (w : Nat) (b : List Byte) (k : LpmKey) : Bool :=
  decide (k.vrf < 4096) && decide (k.len ≤ w) && leAt b 3 1 == 0 && k.pfx % 2 ^ (w - k.len) == 0

/-! Ternary entries (R235). -/

def ternByte7 (e : TernaryEntry) : Nat := putB e.valid 0 + putB e.tenantAny 1 + putB e.classAny 2
def ternByte140 (e : TernaryEntry) : Nat :=
  putB e.flowSkip 0 + putB e.flowNoInsert 1 + putB e.queueSet 2 + put e.queue.toNat 3 3

def ternBytes (i : Nat) (e : TernaryEntry) : List Byte :=
  leBytes 4 i ++ leBytes 2 e.tenant.toNat ++ leBytes 1 e.cls.toNat ++ leBytes 1 (ternByte7 e)
    ++ leBytes 60 e.key.toNat ++ leBytes 60 e.mask.toNat ++ leBytes 4 e.dest.toNat ++ leBytes 4 e.meter.toNat
    ++ leBytes 4 e.copyDest.toNat ++ leBytes 1 (ternByte140 e) ++ zeroBytes 3

def ternOfBytes (b : List Byte) : TernaryEntry :=
  let f := leAt b 7 1
  let g := leAt b 140 1
  { tenant := BitVec.ofNat 16 (leAt b 4 2), cls := BitVec.ofNat 8 (leAt b 6 1), valid := bitN f 0,
    tenantAny := bitN f 1, classAny := bitN f 2, key := BitVec.ofNat 480 (leAt b 8 60),
    mask := BitVec.ofNat 480 (leAt b 68 60), dest := BitVec.ofNat 32 (leAt b 128 4),
    meter := BitVec.ofNat 20 (leAt b 132 4), copyDest := BitVec.ofNat 32 (leAt b 136 4), flowSkip := bitN g 0,
    flowNoInsert := bitN g 1, queueSet := bitN g 2, queue := BitVec.ofNat 3 (g / 8) }

def ternReservedOk (b : List Byte) : Bool :=
  decide (leAt b 0 4 < 262144) && decide (leAt b 7 1 < 8) && decide (leAt b 132 4 < 2 ^ 20)
  && decide (leAt b 140 1 < 64) && allZero (slice b 141 3)

def ternDestsOk (e : TernaryEntry) : Bool :=
  !e.valid || (destAllowed .ternary e.dest && destAllowed .copy e.copyDest)

/-! Meters (R270). -/

def meterBytes (m : Meter) : List Byte :=
  leBytes 6 m.cir.toNat ++ leBytes 6 m.pir.toNat ++ leBytes 4 m.cbs.toNat ++ leBytes 4 m.pbs.toNat
    ++ leBytes 1 (putB m.valid 0 + putB m.colorAware 1 + putB m.packetMode 2) ++ leBytes 1 m.lenAdjust.toNat
    ++ zeroBytes 10

def meterOfBytes (b : List Byte) : Meter :=
  let f := leAt b 20 1
  { cir := BitVec.ofNat 36 (leAt b 0 6), pir := BitVec.ofNat 36 (leAt b 6 6), cbs := BitVec.ofNat 32 (leAt b 12 4),
    pbs := BitVec.ofNat 32 (leAt b 16 4), valid := bitN f 0, colorAware := bitN f 1, packetMode := bitN f 2,
    lenAdjust := BitVec.ofNat 8 (leAt b 21 1), tc := 0, tp := 0, tLast := 0 }

/-- R270, R277. -/
def meterOk (b : List Byte) : Bool :=
  decide (leAt b 0 6 < 2 ^ 36) && decide (leAt b 6 6 < 2 ^ 36) && decide (leAt b 0 6 ≤ leAt b 6 6)
  && leAt b 12 4 != 0 && leAt b 16 4 != 0 && decide (leAt b 20 1 < 8) && allZero (slice b 22 10)

/-! Gate lists (R265). -/

def gateBytes (port : Nat) (g : GateList) : List Byte :=
  leBytes 2 port ++ leBytes 2 g.entries.length ++ zeroBytes 4 ++ leBytes 8 g.baseS ++ leBytes 4 g.baseNs
    ++ leBytes 4 g.cycleNs ++ zeroBytes 8
    ++ g.entries.flatMap (fun e => [e.gates] ++ zeroBytes 3 ++ leBytes 4 e.intervalNs)

def gateOfBytes (b : List Byte) : Nat × GateList :=
  (leAt b 0 2,
   { baseS := leAt b 8 8, baseNs := leAt b 16 4, cycleNs := leAt b 20 4,
     entries := (List.range (leAt b 2 2)).map (fun i =>
       { gates := BitVec.ofNat 8 (leAt b (32 + 8 * i) 1), intervalNs := leAt b (36 + 8 * i) 4 }) })

/-- The list's bytes and length hold together: the command's format (R487). -/
def gateLengthOk (b : List Byte) : Bool := b.length == 32 + 8 * leAt b 2 2

/-- R265 but for the port and the number of entries. -/
def gateFormOk (b : List Byte) : Bool :=
  let n := leAt b 2 2
  let (_, g) := gateOfBytes b
  allZero (slice b 4 4) && decide (leAt b 8 8 < 2 ^ 48) && decide (g.baseNs < 1000000000)
  && allZero (slice b 24 8)
  && (if n = 0 then g.cycleNs == 0
      else decide (1000 ≤ g.cycleNs) && decide (g.cycleNs ≤ 1000000000)
        && sumOf (g.entries.map (·.intervalNs)) == g.cycleNs
        && g.entries.all (fun e => decide (100 ≤ e.intervalNs))
        && (List.range n).all (fun i => allZero (slice b (33 + 8 * i) 3)))

/-- R265 but for the port: check GATE_LIST. -/
def gateOk (b : List Byte) : Bool := decide (leAt b 2 2 ≤ 256) && gateFormOk b

/-! Records: an entry with the place or key that a write names. -/

/-- A table write, by the codes of R376. A segment or ternary entry with VALID clear is no entry. -/
inductive TblRec where
  | mac (e : MacEntry)
  | tenant (id : Nat) (e : TenantEntry) (vrf : Nat)
  | segment (id : Nat) (v : Option W16)
  | adjacency (i : Nat) (e : Adjacency)
  | ipv4 (k : LpmKey) (d : W32)
  | ipv6 (k : LpmKey) (d : W32)
  | ternary (i : Nat) (e : TernaryEntry)
  deriving DecidableEq, Repr

/-- The entry size of a table code. -/
def entrySize (table : Nat) : Nat :=
  match table with
  | 0 => 16 | 1 => 32 | 2 => 8 | 3 => 16 | 4 => 12 | 5 => 24 | 6 => 144 | _ => 0

/-- A record read from the index word and the entry's bytes, or none where it breaks the entry's rules. A deletion
uses the key only: the destinations of its entry are not checked. -/
def tblRecOf (table : Nat) (delete : Bool) (index : Nat) (b : List Byte) : Option TblRec :=
  let rest := allZero (b.drop (entrySize table))
  let indexOk := if table = 1 then decide (index < 65536) else if table = 3 then decide (index < 131072) else index == 0
  if !rest || !indexOk then none
  else
    match table with
    | 0 =>
      let e := macOfBytes b
      if macReservedOk b && (delete || macDestOk e) then some (.mac e) else none
    | 1 =>
      let (e, v) := tenantOfBytes b
      if tenantReservedOk b && (delete || tenantDestsOk e) then some (.tenant index e v) else none
    | 2 =>
      if segmentReservedOk b then
        some (.segment (leAt b 0 3) (if bitN (leAt b 3 1) 0 then some (BitVec.ofNat 16 (leAt b 4 2)) else none))
      else none
    | 3 =>
      let a := adjOfBytes b
      if adjReservedOk b && (delete || !a.valid || destAllowed .adjacency a.dest) then some (.adjacency index a) else none
    | 4 =>
      let (k, d) := lpm4OfBytes b
      if lpmKeyOk 32 b k && (delete || destAllowed .lpm d) then some (.ipv4 k d) else none
    | 5 =>
      let (k, d) := lpm6OfBytes b
      if lpmKeyOk 128 b k && (delete || destAllowed .lpm d) then some (.ipv6 k d) else none
    | 6 =>
      let e := ternOfBytes b
      if ternReservedOk b && (delete || ternDestsOk e) then some (.ternary (leAt b 0 4) e) else none
    | _ => none

/-- The code of a record's table (R376). -/
def TblRec.table : TblRec → Nat
  | .mac _ => 0 | .tenant _ _ _ => 1 | .segment _ _ => 2 | .adjacency _ _ => 3 | .ipv4 _ _ => 4 | .ipv6 _ _ => 5
  | .ternary _ _ => 6

/-- The index word of a record (R377). -/
def TblRec.index : TblRec → Nat
  | .tenant i _ _ => i | .adjacency i _ => i | _ => 0

/-- The entry's bytes. -/
def TblRec.bytes : TblRec → List Byte
  | .mac e => macBytes e
  | .tenant _ e v => tenantBytes e v
  | .segment i v => match v with
    | some t => segmentBytes i t
    | none => leBytes 3 i ++ zeroBytes 5
  | .adjacency _ a => adjBytes a
  | .ipv4 k d => lpm4Bytes k d
  | .ipv6 k d => lpm6Bytes k d
  | .ternary i e => ternBytes i e

/-- The place that a record writes, for R528's comparison of own and received writes. -/
def TblRec.place : TblRec → Nat
  | .mac e => e.bd.toNat * 2 ^ 48 + e.mac.toNat
  | .tenant i _ _ => i
  | .segment i _ => i
  | .adjacency i _ => i
  | .ipv4 k _ => (k.vrf * 64 + k.len) * 2 ^ 32 + k.pfx
  | .ipv6 k _ => (k.vrf * 256 + k.len) * 2 ^ 128 + k.pfx
  | .ternary i _ => i

/-- Whether the record writes a versioned table or field (R199). -/
def TblRec.versioned : TblRec → Bool
  | .mac _ => false | .adjacency _ _ => false | _ => true

/-- Whether it writes an ordinary table or field. -/
def TblRec.ordinary : TblRec → Bool
  | .mac _ => true | .tenant _ _ _ => true | .adjacency _ _ => true | _ => false

/-- The versioned writes of a record (R199): of a tenant, its VRF; a tenant's deletion leaves the VRF. -/
def TblRec.vwrites (delete : Bool) : TblRec → List VWrite
  | .mac _ => []
  | .tenant i _ v => if delete then [] else [.vrf i v]
  | .segment i v => [.segment i (if delete then none else v)]
  | .adjacency _ _ => []
  | .ipv4 k d => [.ipv4 k (if delete then none else some d)]
  | .ipv6 k d => [.ipv6 k (if delete then none else some d)]
  | .ternary i e => [.ternary i (if delete || !e.valid then none else some e)]

/-- A MAC entry written as an insert with WAY AUTO, or its key deleted (R229, R377): none for NO_ROOM. -/
def macAuto (f : Fwd) (delete : Bool) (e : MacEntry) : Option Fwd :=
  match macFind f e.bd e.mac, delete with
  | some place, true => some (macWritePlace f place none)
  | none, true => some f
  | some place, false => some (macWritePlace f place (some e))
  | none, false => (macFree f e.bd e.mac).map (fun place => macWritePlace f place (some e))

/-- The ordinary part of a record (R200), or none for NO_ROOM. -/
def TblRec.apply (delete : Bool) (f : Fwd) : TblRec → Option Fwd
  | .mac e => macAuto f delete e
  | .tenant i e _ =>
    some { f.keepOld with
      tenants := if delete then tadj f.tenants i (fun t => { t with valid := false }) else tset f.tenants i e }
  | .adjacency i a =>
    some { f.keepOld with adjacencies := if delete then tadj f.adjacencies i (fun x => { x with valid := false })
                                 else tset f.adjacencies i a }
  | _ => some f

/-- Records applied in order, all or none: the ordinary parts, and the versioned writes. -/
def applyRecs (delete : Bool) : Fwd → List TblRec → Option (Fwd × List VWrite)
  | f, [] => some (f, [])
  | f, r :: rs =>
    match r.apply delete f with
    | none => none
    | some f' => (applyRecs delete f' rs).map (fun x => (x.1, r.vwrites delete ++ x.2))

/-! Flow-state entries (R237). -/

def flowValid (b : List Byte) : Bool := bitN (leAt b 3 1) 0
def flowPinned (b : List Byte) : Bool := bitN (leAt b 3 1) 1
def flowHit (b : List Byte) : Bool := bitN (leAt b 3 1) 2
def flowDest (b : List Byte) : W32 := BitVec.ofNat 32 (leAt b 52 4)
def flowCounters (b : List Byte) : W64 := BitVec.ofNat 64 (leAt b 56 8)

/-- The key of an entry: bytes 0-2 and 4-51. -/
def flowKeyOf (b : List Byte) : List Byte × List Byte := (slice b 0 3, slice b 4 48)

/-- An entry from its key, flags, destination and counters. -/
def flowEntry (k : List Byte × List Byte) (flags : Nat) (dest : W32) (counters : W64) : List Byte :=
  k.1 ++ leBytes 1 flags ++ k.2 ++ leBytes 4 dest.toNat ++ leBytes 8 counters.toNat

/-- R237 and R211 for a written entry. -/
def flowEntryOk (b : List Byte) : Bool :=
  decide (leAt b 3 1 < 8) && (!flowValid b || destAllowed .flow (flowDest b))

end Sys2Proof
end

