-- ==== Sys2Proof/Machine/HostOps.lean ====
section
/-!
DEFINITION. Host queues: features, credits, completion entries and their order (R461, R468-R474, R495).
-/

namespace Sys2Proof.Machine

/-! Feature bits (R130). -/

def featTickStamp : Nat := 0
def featCaptureIcing : Nat := 1
def featSegment : Nat := 3
def featChecksum : Nat := 4
def featSpread : Nat := 5
def featTunnel : Nat := 6
def featNvme : Nat := 10
def featXts : Nat := 11
def featCounters : Nat := 12
def featCut : Nat := 13
def featSlots : Nat := 14
def featGate : Nat := 15
def featDma : Nat := 16
def featMailbox : Nat := 17
def featGeneration : Nat := 18

/-- A feature is active on a function. -/
def featOn (s : State) (fn bit : Nat) : Bool := ((funcOf s fn).map (fun f => f.active.getLsbD bit)).getD false

/-- GEN as completion entries carry it: 0 unless VF_GENERATION is active on the function's PF (R495). -/
def genShown (s : State) (fn : Nat) : Nat := if featOn s (pfOf fn) featGeneration then (genOf s fn).toNat else 0

/-! Queues. -/

def queueOf (s : State) (q : Nat) : Option HostQueue := tget s.que.queues q

def queueMod (s : State) (q : Nat) (f : HostQueue → HostQueue) : State :=
  { s with que := { s.que with queues := tadj s.que.queues q f } }

def queueSize (q : HostQueue) : Nat := 2 ^ q.sizeLog2

/-- The difference of two free-running 16-bit counts. -/
def countDiff (a b : W16) : Nat := (a - b).toNat

/-- Descriptors fetched and not completed, and completions not consumed (R470). -/
def inService (q : HostQueue) : Nat := countDiff q.fetched q.head
def unconsumed (q : HostQueue) : Nat := countDiff q.completions q.consumer

/-- Descriptors that the queue may fetch now (R470). -/
def fetchable (q : HostQueue) : Nat :=
  let out := sumOf ((q.fetching.filter (·.2)).map (·.1))
  min (countDiff q.producer q.head - (inService q + out)) (queueSize q - (inService q + out + unconsumed q))

/-- The queue admits frames (R467). -/
def queueAdmits (q : HostQueue) : Bool := q.state == .enabled && (q.kind == .receive || q.kind == .capture)

/-! Completion entries (R474). -/

/-- An entry, given HEAD after it, flags without PHASE, and its other fields. -/
def completionBytes (head status flags gen len : Nat) (meta8 : List Byte) (stamp : Option Stamp) (tag : Nat) : List Byte :=
  leBytes 2 head ++ leBytes 1 status ++ leBytes 1 flags ++ leBytes 2 gen ++ leBytes 2 len ++ slice meta8 0 8
    ++ (match stamp with | some t => leBytes 8 t.tick ++ leBytes 2 t.sub | none => zeroBytes 10)
    ++ leBytes 2 tag ++ zeroBytes 4

/-- The next entry of a queue written to the host, with PHASE; HEAD and the completion count advance by one. -/
def completionWrite (s : State) (qid : Nat) (entry : Nat → Nat → List Byte) : State :=
  match queueOf s qid with
  | none => s
  | some q =>
    let k := q.completions.toNat
    let size := queueSize q
    let head := (q.head + 1#16).toNat
    let bytes := entry head (phaseOf k size)
    let s := queueMod s qid (fun q => { q with head := q.head + 1#16, completions := q.completions + 1#16 })
    hostWrite s (queueEngine q.fn.toNat qid) q.fn.toNat (q.cqAddr.toNat + k % size * 32) bytes

/-- The queue's MSI-X message (R452). -/
def queueSignal (s : State) (qid : Nat) : State :=
  match queueOf s qid with
  | none => s
  | some q => msix s q.fn.toNat q.vector

/-- The entry of a send (R474). -/
def sendEntry (s : State) (fn : Nat) (c : HeldCompletion) (features : BitVec 256) (head phase : Nat) : List Byte :=
  let stamped := features.getLsbD featTickStamp && c.stamp.isSome
  completionBytes head c.status (phase + putB stamped 3 + putB c.notSent 6) (genShown s fn) 0 (leBytes 8 c.cookie.toNat)
    (if stamped then c.stamp else none) c.tag.toNat

/-- Send completions are written in descriptor order, as far as none waits (R472). `fuel` bounds the entries. -/
def sendFlush (qid : Nat) : Nat → State → State
  | 0, s => s
  | fuel + 1, s =>
    match queueOf s qid with
    | none => s
    | some q =>
      match q.held.find? (fun c => BitVec.ofNat 16 c.number == q.head && c.waits.isNone) with
      | none => s
      | some c =>
        if !fnRuns s q.fn.toNat then s
        else
          let s := queueMod s qid (fun q =>
            { q with held := q.held.filter (fun x => x ≠ c), work := q.work.filter (fun w => w.number ≠ c.number) })
          let s := completionWrite s qid (sendEntry s q.fn.toNat c q.features)
          sendFlush qid fuel (queueSignal s qid)

/-! The cap of shedding step 1 (R131). Traffic paced under it goes on while some of the tick's allowance is left, and what it
uses beyond it is taken from the ticks after (log entry 120). -/

/-- Bytes per tick: twice what the Recipe declares for host HBM and storage. -/
def shedCap (s : State) : Nat := 2 * (s.app.demand.hostHbm + s.app.demand.storage)

/-- Paced traffic may go on. -/
def shedOpen (s : State) : Bool := s.hbmU.step == 0 || decide (s.hbmU.shedUsed < shedCap s)

/-- Work of `n` bytes does not exceed the cap. -/
def shedRoom (s : State) (n : Nat) : Bool := s.hbmU.step == 0 || decide (s.hbmU.shedUsed + n ≤ shedCap s)

/-- Bytes used of the allowance. -/
def shedUse (s : State) (n : Nat) : State :=
  if s.hbmU.step = 0 then s else { s with hbmU := { s.hbmU with shedUsed := s.hbmU.shedUsed + n } }

/-- Whether everything of a queue that DISABLE_QUEUE waits for has ended (R480). -/
def queueQuiet (q : HostQueue) : Bool :=
  q.fetching.isEmpty && q.stale == 0 && q.dma.isEmpty && q.held.isEmpty && (q.work.isEmpty || q.kind != .send)

/-- DISABLE_QUEUE in process completes with the final HEAD once its queue is quiet (R480). -/
def disableCheck (s : State) (qid : Nat) : State :=
  match queueOf s qid with
  | none => s
  | some q =>
    if queueQuiet q then
      q.disabling.foldl (fun s w => answer s w 0#8 (leBytes 2 q.head.toNat)) (queueMod s qid (fun q => { q with disabling := [] }))
    else s

/-- The completions of a queue that may be written, as many as it has. -/
def sendFlushAll (s : State) (qid : Nat) : State :=
  disableCheck (sendFlush qid (((queueOf s qid).map (fun q => q.held.length)).getD 0) s) qid

/-- A send's completion joins those of its queue. -/
def sendHold (s : State) (qid : Nat) (c : HeldCompletion) : State :=
  sendFlushAll (queueMod s qid (fun q => { q with held := q.held ++ [c] })) qid

/-- The tags of the TS_CAPTURE edits of a list, which a reserved KIND ends (R375). -/
def captureTags (es : List Edit) : List W16 :=
  ((es.takeWhile (fun e => e.kind ≠ .reserved)).filter (fun e => e.kind = .tsCapture)).map (·.arg)

/-- The edits of a packet hold a TS_CAPTURE: its tag. -/
def captureTag (es : List Edit) : Option W16 := (captureTags es).head?

/-- The last frame of a send's descriptor has entered the injection queue as packet `id` (R472). -/
def sendEntered (s : State) (id : Nat) (p : Packet) : State :=
  match p.sendFrom with
  | none => s
  | some (qid, n) =>
    match (queueOf s qid).bind (fun q => q.work.find? (fun w => w.number == n)) with
    | none => s
    | some w =>
      let tag := captureTag p.edits
      sendHold s qid
        { number := n, waits := if tag.isSome then some id else none, status := 0,
          cookie := BitVec.ofNat 64 (leAt w.bytes 16 8), stamp := if tag.isSome then none else some p.stamp,
          tag := tag.getD 0#16, notSent := false }

/-- A TS_CAPTURE frame of a send departs with its egress stamp (R318, R472). -/
def sendDeparted (s : State) (id : Nat) (p : Packet) (stamp : Stamp) : State :=
  match p.sendFrom with
  | none => s
  | some (qid, _) =>
    sendFlushAll (queueMod s qid (fun q =>
      { q with held := q.held.map (fun c => if c.waits = some id then { c with waits := none, stamp := some stamp } else c) }))
      qid

/-- A descriptor that cannot be carried out completes with a status and nothing sent (R476). -/
def sendFailed (s : State) (qid n status : Nat) (bytes : List Byte) : State :=
  sendHold s qid { number := n, waits := none, status := status, cookie := BitVec.ofNat 64 (leAt bytes 16 8), stamp := none,
                   tag := 0#16, notSent := false }

end Sys2Proof.Machine
end

