-- ==== Sys2Proof/Machine/Aer.lean ====
section
/-!
DEFINITION. Advanced Error Reporting and the error counts of an endpoint (R454, R456). Where R454 says "as PCI Express
defines", the rules are PRESUMED from the PCI Express Base Specification.
-/

namespace Sys2Proof.Machine

/-! Bits of the uncorrectable and correctable status registers (PCI Express). -/

def errDataLink : Nat := 4
def errPoisoned : Nat := 12
def errFlowControl : Nat := 13
def errTimeout : Nat := 14
def errAbort : Nat := 15
def errUnexpected : Nat := 16
def errOverflow : Nat := 17
def errMalformed : Nat := 18
def errUnsupported : Nat := 20
def errInternal : Nat := 22

def corrReceiver : Nat := 0
def corrBadTlp : Nat := 6
def corrBadDllp : Nat := 7
def corrRollover : Nat := 8
def corrReplay : Nat := 12
def corrAdvisory : Nat := 13
def corrInternal : Nat := 14
def corrHeaderLog : Nat := 15

/-- Reset values of configuration registers that are not 0: Device Control, the AER masks and severity, Data Link Feature's exchange
enable and the lanes' margining commands. -/
def cfgDefault (off : Nat) : W32 :=
  if 0x308 ≤ off ∧ off < 0x340 then 0x9C38#32 else if off = 0x244 then 0x80000000#32
  else if off = 0x58 then 0x2810#32 else if off = 0x108 then 0x00400000#32 else if off = 0x10C then 0x00462010#32 else if off = 0x114 then 0x0000E000#32 else 0#32

/-- A configuration register that a driver can write, as last written. -/
def cfgReg (s : State) (fn off : Nat) : W32 :=
  ((funcOf s fn).map (fun f => tgetD f.config off (cfgDefault off))).getD (cfgDefault off)

/-- An error counts on its endpoint, whether or not it is reported (R456). -/
def errorCount (s : State) (ep : Nat) (uncorrectable : Bool) : State :=
  endpointMod s ep (fun e =>
    if uncorrectable then { e with uncorrectable := wrapInc e.uncorrectable } else { e with correctable := wrapInc e.correctable })

/-- An error detected shows in Device Status, masked or not: bit 0 correctable, 1 non-fatal, 2 fatal, 3 Unsupported Request. -/
def errorSeen (s : State) (fn bit : Nat) : State :=
  funcMod s fn (fun f => { f with config := tput 0#32 f.config 0x5A (tgetD f.config 0x5A 0#32 ||| BitVec.ofNat 32 (2 ^ bit)) })

/-- An error message goes to the host where Device Control enables its kind: 2 correctable, 3 non-fatal, 4 fatal. -/
def errorMessage (s : State) (fn kind : Nat) : State :=
  if (cfgReg s (pfOf fn) 0x58).getLsbD (kind - 2) && (endpointOf s (epOf fn)).linkUp then emit s (.message fn kind) else s

/-- A correctable error of a function, counted, seen and in its status. -/
def corrLogged (s : State) (fn bit : Nat) : State :=
  funcMod (errorSeen (errorCount s (epOf fn) false) fn 0) fn (fun f => { f with aerCorr := f.aerCorr ||| BitVec.ofNat 32 (2 ^ bit) })

def corrMasked (s : State) (fn bit : Nat) : Bool := (cfgReg s (pfOf fn) 0x114).getLsbD bit

/-- A correctable error of a function. -/
def aerCorrectable (s : State) (fn bit : Nat) : State :=
  let s := corrLogged s fn bit
  if corrMasked s fn bit then s else errorMessage s fn 2

/-- The First Error Pointer and the header log take an unmasked error while they are free; a later one overflows. -/
def aerFirst (s : State) (fn bit : Nat) (header : List Byte) : State :=
  match (funcOf s fn).bind (·.aerFirst) with
  | none => funcMod s fn (fun f => { f with aerFirst := some bit, aerHeader := header })
  | some _ => aerCorrectable s fn corrHeaderLog

/-- An uncorrectable error in its status register, and where it is not masked in the header log, with a message of `kind`. -/
def uncorrLogged (s : State) (fn bit kind : Nat) (header : List Byte) : State :=
  let masked := (cfgReg s (pfOf fn) 0x108).getLsbD bit
  let s := funcMod s fn (fun f => { f with aerUncorr := f.aerUncorr ||| BitVec.ofNat 32 (2 ^ bit) })
  if masked then s else errorMessage (aerFirst s fn bit header) fn kind

/-- An uncorrectable error of a function; `advisory` says that PCI Express lets a non-fatal one be reported as Advisory
Non-Fatal, which goes no further than its own status bit while that error is masked. -/
def aerUncorrectable (s : State) (fn bit : Nat) (advisory : Bool) (header : List Byte) : State :=
  let s := errorCount s (epOf fn) true
  let s := if bit = errUnsupported then errorSeen s fn 3 else s
  let fatal := (cfgReg s (pfOf fn) 0x10C).getLsbD bit
  if advisory && !fatal then
    let s := corrLogged s fn corrAdvisory
    if corrMasked s fn corrAdvisory then s else uncorrLogged s fn bit 2 header
  else uncorrLogged (errorSeen s fn (if fatal then 2 else 1)) fn bit (if fatal then 4 else 3) header

/-! The headers of requests to the device. -/

/-- Bytes of the BAR of a function; 0 where it has none (R448). -/
def barSize (fn bar : Nat) : Nat :=
  if vfNum fn != 0 then (if bar = 0 then 0x10000 else 0)
  else if bar = 0 then (match pfNum fn with | 0 => 0x10000000 | 1 => 0x10000 | _ => 0x4000)
  else 0x10000

/-- The host address of the BAR of a function; a VF's lies in the VF BAR of its PF. -/
def barAddr (s : State) (fn bar : Nat) : Nat :=
  let at_ := fun (f o : Nat) => (cfgReg s f o).toNat / 16 * 16 + (cfgReg s f (o + 4)).toNat * 2 ^ 32
  if vfNum fn != 0 then at_ (pfOf fn) 0x1C4 + (vfNum fn - 1) * barSize fn bar else at_ fn (0x10 + 8 * bar)

/-- The header of a memory request of `n` bytes to an offset of a BAR (R454): type, length, byte enables and address are the
request's; Requester ID, tag, traffic class and attributes, which the command does not give, are free. In Flit Mode the header is that
of Flit Mode, whose byte 7 is the tag's. -/
def requestHeader (s : State) (fn bar off n : Nat) (write : Bool) : List Byte × State :=
  let (h, s) := freshBytes 16 s
  let a := barAddr s fn bar + off
  let long := decide (2 ^ 32 ≤ a)
  let flit := (endpointOf s (epOf fn)).flit
  let dws := cdiv (a % 4 + n) 4
  let type := if flit then (if write then (if long then 0x60 else 0x40) else (if long then 0x20 else 0x03))
    else (if write then 0x40 else 0) + (if long then 0x20 else 0)
  let enables := fun (lo hi : Nat) => sumOf (((List.range 4).filter (fun i => decide (lo ≤ i) && decide (i < hi))).map (2 ^ ·))
  let first := enables (a % 4) (min 4 (a % 4 + n))
  let last := if dws ≤ 1 then 0 else enables 0 ((a + n - 1) % 4 + 1)
  let h := patch h 0 [BitVec.ofNat 8 type]
  let h := patch h 2 [((h.getD 2 0#8) &&& 0xF0#8) ||| BitVec.ofNat 8 (dws / 256 % 4), BitVec.ofNat 8 dws]
  let h := if flit then h else patch h 7 [BitVec.ofNat 8 (last * 16 + first)]
  (patch h 8 (if long then beBytes 8 (a / 4 * 4) else beBytes 4 (a / 4 * 4) ++ zeroBytes 4), s)

/-- A Completer Abort of a request, logged with its header (R449, R514). -/
def completerAbort (s : State) (fn bar off n : Nat) (write : Bool) : State :=
  let (h, s) := requestHeader s fn bar off n write
  aerUncorrectable s fn errAbort (!write) h

end Sys2Proof.Machine
end

