-- ==== Sys2Proof/Machine/PacketOps.lean ====
section
/-!
DEFINITION. Packets in the crumb buffer: accounts, queues, ownership, drops and departures, with their ledger adds
(R250-R259, R271, R283-R293).
-/

namespace Sys2Proof.Machine

def crumbsOf (bytes : Nat) : Nat := cdiv bytes 64

/-! Packets by id. -/

def pktOf (s : State) (id : Nat) : Option Packet := tget s.crb.pkts id

def pktMod (s : State) (id : Nat) (f : Packet → Packet) : State :=
  { s with crb := { s.crb with pkts := tadj s.crb.pkts id f } }

/-- A new packet under the next id. -/
def pktAdd (s : State) (p : Packet) : State × Nat :=
  ({ s with crb := { s.crb with pkts := tset s.crb.pkts s.crb.nextId p, nextId := s.crb.nextId + 1 } }, s.crb.nextId)

/-! Accounts (R251). -/

def totalCrumbs : Nat := 4194304
def controlReserve : Nat := 65536
def arrivalFloor : Nat := 16384

def schQueue (s : State) (qx : Nat) : SchQueue := tgetD s.sch.queues qx SchQueue.blank
def schQueueMod (s : State) (qx : Nat) (f : SchQueue → SchQueue) : State :=
  { s with sch := { s.sch with queues := tmod SchQueue.blank s.sch.queues qx f } }
def schPort (s : State) (n : Nat) : SchPort := tgetD s.sch.ports n SchPort.blank
def schPortMod (s : State) (n : Nat) (f : SchPort → SchPort) : State :=
  { s with sch := { s.sch with ports := tmod SchPort.blank s.sch.ports n f } }

def isCQ (qx : Nat) : Bool := decide (4096 ≤ qx) && decide (qx < 8192)

/-- ΣMIN, and S (R251). -/
def minTotal (s : State) : Nat := sumOf (s.sch.queues.map (·.2.min))
def sharedSize (s : State) : Int := (totalCrumbs : Int) - controlReserve - minTotal s

/-- Crumbs charged to transit, engine holds included. -/
def transitUsed (s : State) : Nat :=
  sumOf ((s.crb.pkts.filter (fun e => e.2.queue.isNone)).map (·.2.crumbs))

/-- F (R251). -/
def sharedFree (s : State) : Int :=
  sharedSize s - transitUsed s
    - sumOf ((s.sch.queues.filter (fun e => !isCQ e.1)).map (fun e => e.2.occ - e.2.min))

/-- Crumbs held by the channels of a cluster (R254). -/
def holdUsed (s : State) (c : Nat) : Nat :=
  sumOf ((s.crb.pkts.filter (fun e => e.2.hold = some c)).map (·.2.crumbs))

/-- Packets and crumbs that a unit owns (R292). -/
def unitHolds (s : State) (u : Nat) : Nat × Nat :=
  let ps := (s.crb.pkts.filter (fun e => e.2.owner == u)).map (·.2)
  (ps.length + (s.crb.waiting.filter (fun w => w.slice == u && w.kind == .emit)).length, sumOf (ps.map (·.crumbs)))

/-! Queues (R255, R262, R271). -/

/-- The scheduling unit of a queue index: its port, or 512 + the endpoint of its host queue. -/
def queueUnit (s : State) (qx : Nat) : Nat :=
  if qx < 4096 then qx / 8
  else if qx < 8192 then qx - 4096
  else 512 + epOf ((tget s.que.queues (qx - 8192)).map (·.fn.toNat) |>.getD 0)

/-- The unit that owns the packets of a queue (R292). -/
def queueOwner (qx : Nat) : Nat := if qx < 4096 then qx / 8 / 32 else if qx < 8192 then (qx - 4096) / 32 else 16

/-- The port of a queue, for PORT_REASON. -/
def queuePort (qx : Nat) : Option Nat := if qx < 4096 then some (qx / 8) else if qx < 8192 then some (qx - 4096) else none

/-- wake (R262). -/
def wake (s : State) (qx : Nat) : State :=
  if isCQ qx then s
  else
    let u := queueUnit s qx
    let p := schPort s u
    let s := schQueueMod s qx (fun q => { q with rnd := max q.rnd p.v })
    schPortMod s u (fun p => { p with active := if p.active.contains qx then p.active else p.active ++ [qx] })

/-- A queue that empties leaves the visit (R262, R271). -/
def queueEmptied (s : State) (qx : Nat) : State :=
  if isCQ qx then s
  else
    let s := schQueueMod s qx (fun q => { q with d := 0, rnd := q.rnd + 1 })
    schPortMod s (queueUnit s qx) (fun p =>
      { p with active := p.active.filter (· ≠ qx), cur := if p.cur = some qx then none else p.cur })

/-- A frame leaves its queue's list; its crumbs stay charged. -/
def queueTake (s : State) (qx id : Nat) : State :=
  let had := (schQueue s qx).frames
  let s := schQueueMod s qx (fun q => { q with frames := q.frames.filter (· ≠ id) })
  if had.contains id && (schQueue s qx).frames.isEmpty then queueEmptied s qx else s

/-- A packet's reference on its version slot is released (R203). -/
def releaseRef (s : State) (id : Nat) : State :=
  match (pktOf s id).bind (·.slot) with
  | none => s
  | some i => { pktMod s id (fun p => { p with slot := none }) with dec := slotRelease s.dec i }

/-- A packet's crumbs are freed and the packet is gone; a completion that waits for it goes on (R472). -/
def pktFree (s : State) (id : Nat) : State :=
  match pktOf s id with
  | none => s
  | some p =>
    let s := releaseRef s id
    let s := match p.queue with
      | none => s
      | some qx =>
        let s := queueTake s qx id
        let s := schQueueMod s qx (fun q => { q with occ := q.occ - p.crumbs })
        if isCQ qx then { s with crb := { s.crb with controlUsed := s.crb.controlUsed - p.crumbs } } else s
    { s with crb := { s.crb with
        pkts := tdel s.crb.pkts id
        laneQ := s.crb.laneQ.map (fun e => (e.1, e.2.filter (· ≠ id)))
        injectQ := s.crb.injectQ.map (fun e => (e.1, e.2.filter (· ≠ id)))
        enqueueQ := s.crb.enqueueQ.filter (· ≠ id)
        flowQ := s.crb.flowQ.filter (· ≠ id) } }

/-! Ledger adds of packets. -/

/-- One add of a packet with its FRAME_LEN. -/
def addPkt (s : State) (idx : Nat) (p : Packet) : State := addTo s idx 1 (frameLen p)

/-- The tenant class of a reason (R285). -/
def reasonClass (code : Nat) : Nat := if code ≤ 0x1E then code else 0x1F

/-- The adds and the tally of a drop (R285). -/
def countDrop (s : State) (owner : Nat) (port tenant : Option Nat) (code len : Nat) : State :=
  let s := addTo (addTo s (cUnit owner 6) 1 len) (cUnitReason owner code) 1 len
  let s := match port with
    | some n => addTo s (cPortReason n code) 1 len
    | none => s
  let s := match tenant with
    | some t => addTo s (cTenantReason t (reasonClass code)) 1 len
    | none => s
  tally s owner (fun t => { t with drop := t.drop + 1 })

/-- The port a drop of a packet counts against (R285): its output port from enqueue on, else its ingress port for
origin 0. -/
def dropPort (p : Packet) : Option Nat :=
  match p.queue with
  | some qx => queuePort qx
  | none => if p.origin = 0 then some p.port else none

/-- A completion of a send whose TS_CAPTURE frame is dropped may be written, with NOT_SENT (R472, R474). -/
def sendDropped (s : State) (id : Nat) (p : Packet) : State :=
  match p.sendFrom with
  | none => s
  | some (q, _) =>
    sendFlushAll (queueMod s q (fun h =>
      { h with held := h.held.map (fun c => if c.waits = some id then { c with waits := none, notSent := true } else c) })) q

/-- A packet is dropped (R284, R285). `port` overrides the port it counts against. -/
def dropPktAt (s : State) (id : Nat) (r : DropReason) (port : Option (Option Nat)) : State :=
  match pktOf s id with
  | none => s
  | some p =>
    let s := countDrop s p.owner (port.getD (dropPort p)) p.tenant r.code (frameLen p)
    pktFree (sendDropped s id p) id

def dropPkt (s : State) (id : Nat) (r : DropReason) : State := dropPktAt s id r none

/-- Every frame of a queue is dropped under a reason. -/
def dropQueue (s : State) (qx : Nat) (r : DropReason) : State :=
  (schQueue s qx).frames.foldl (fun s id => dropPkt s id r) s

/-- Every frame queued for a port, its control queue included, is dropped under a reason. -/
def dropPortQueues (s : State) (n : Nat) (r : DropReason) : State :=
  ((List.range 8).map (fun q => n * 8 + q) ++ [4096 + n]).foldl (fun s qx => dropQueue s qx r) s

/-- Ownership passes to a queue's unit (R292). -/
def transfer (s : State) (id newOwner : Nat) : State :=
  match pktOf s id with
  | none => s
  | some p =>
    if p.owner = newOwner then s
    else
      let s := addPkt (addPkt s (cUnit p.owner 7) p) (cUnit newOwner 4) p
      let s := tally s p.owner (fun t => { t with xout := t.xout + 1 })
      let s := tally s newOwner (fun t => { t with xin := t.xin + 1 })
      pktMod s id (fun p => { p with owner := newOwner })

/-- One arrival at a unit: k = 0 line, 1 host, 2 engine. -/
def countArrival (s : State) (u k len : Nat) : State :=
  tally (addTo s (cUnit u k) 1 len) u (fun t => { t with arr := t.arr + 1 })

/-- The departure of a packet (R293), with its queue's and tenant's counters: `len` are the bytes sent. The crumbs
are freed in the same beat. -/
def departPkt (s : State) (id len : Nat) : State :=
  match pktOf s id with
  | none => s
  | some p =>
    let s := addTo s (cUnit p.owner 5) 1 len
    let s := match p.queue with
      | some qx => addTo s (cQueue qx 1) 1 len
      | none => s
    let s := match p.tenant with
      | some t => addTo s (cTenant t 1) 1 len
      | none => s
    let s := tally s p.owner (fun t => { t with dep := t.dep + 1 })
    pktFree s id

/-! Admission (R253, R256). -/

/-- Rows 4 to 7 of R256. Colour 3 (not metered) counts as green. -/
def admits (s : State) (q : SchQueue) (n colour : Nat) : Bool :=
  let excess : Int := (q.occ : Int) + n - q.min
  let room : Int := max 0 (sharedFree s - arrivalFloor)
  if excess ≤ 0 then true
  else if colour = 1 then decide (excess * 2 ^ (15 - q.alpha + q.yellowShift) ≤ room * 2 ^ 7)
  else decide (excess * 2 ^ (15 - q.alpha) ≤ room * 2 ^ 7)

/-- A packet enters a queue: its transit charge becomes the queue's (R256), ownership passes (R292), and the queue
wakes (R262). -/
def enterQueue (s : State) (id qx crumbs : Nat) : State :=
  let wasEmpty := (schQueue s qx).frames.isEmpty
  let s := transfer s id (queueOwner qx)
  let s := releaseRef s id
  let s := pktMod s id (fun p => { p with queue := some qx, crumbs := crumbs, hold := none, stage := .queued })
  let s := schQueueMod s qx (fun q =>
    { q with frames := q.frames ++ [id], occ := q.occ + crumbs, hwmCrumbs := max q.hwmCrumbs (q.occ + crumbs) })
  let s := if isCQ qx then { s with crb := { s.crb with controlUsed := s.crb.controlUsed + crumbs } } else s
  let s := match pktOf s id with
    | some p => addPkt s (cQueue qx 0) p
    | none => s
  if wasEmpty then wake s qx else s

end Sys2Proof.Machine
end

