-- ==== Sys2Proof/Machine/LineOps.lean ====
section
/-!
DEFINITION. Ports, macros and MAC statistics: the operations that the line side's commands, the scheduler and the
tick boundary share (R135-R175).
-/

namespace Sys2Proof.Machine

def portOf (s : State) (n : Nat) : Option Port := tget s.lnm.ports n
def portMod (s : State) (n : Nat) (f : Port → Port) : State :=
  { s with lnm := { s.lnm with ports := tadj s.lnm.ports n f } }
def macroOf (s : State) (m : Nat) : Macro := tgetD s.lnm.macros m Macro.reset
def macroMod (s : State) (m : Nat) (f : Macro → Macro) : State :=
  { s with lnm := { s.lnm with macros := tmod Macro.reset s.lnm.macros m f } }

/-- Macro, and slice, of a port (R137). -/
def macroOfPort (n : Nat) : Nat := n / 32

/-- Mapped ports of a macro. -/
def portsOf (s : State) (m : Nat) : List Nat := (s.lnm.ports.map (·.1)).filter (fun n => macroOfPort n == m)

/-- Lane rate of a code in Mbit/s (R135). -/
def laneMbps (code : Nat) : Nat :=
  match code with
  | 0 => 10000 | 1 => 25000 | 2 => 50000 | 3 => 100000 | 4 => 200000 | _ => 0

/-- Port speed in Mbit/s. -/
def portMbps (p : Port) : Nat := p.lanes * laneMbps p.laneRate

/-! MAC statistics (R165, R175). -/

def statAdd (s : State) (n off k : Nat) : State :=
  portMod s n (fun p =>
    { p with stats := tset p.stats off (satAdd (tgetD p.stats off 0#64) k), statsOld := some (p.statsOld.getD p.stats) })

/-- The value that a read of a statistic in this beat returns: what it counted before the beat (R165). -/
def statRead (p : Port) (off : Nat) : W64 := tgetD (p.statsOld.getD p.stats) off 0#64

/-- A read's value leaves the count: increments of its beat stand after the clear (R165). -/
def statTake (s : State) (n off : Nat) : State :=
  portMod s n (fun p =>
    { p with stats := tput 0#64 p.stats off (tgetD p.stats off 0#64 - statRead p off)
             statsOld := p.statsOld.map (fun t => tdel t off) })

/-- The size bin of a frame. -/
def sizeBin (len : Nat) : Nat :=
  if len ≤ 64 then 0 else if len ≤ 127 then 1 else if len ≤ 255 then 2 else if len ≤ 511 then 3
  else if len ≤ 1023 then 4 else if len ≤ 1518 then 5 else if len ≤ 2047 then 6 else if len ≤ 4095 then 7 else 8

/-- The cast of a destination address: 0 individual, 1 group, 2 broadcast. -/
def castOf (bytes : List Byte) : Nat :=
  if bytes.take 6 = List.replicate 6 0xFF#8 then 2 else if (bytes.getD 0 0#8).getLsbD 0 then 1 else 0

/-- The good-frame statistics of receive (base 0) or transmit (base 0x100). -/
def statFrame (s : State) (n : Nat) (tx : Bool) (bytes : List Byte) (len : Nat) : State :=
  let b := if tx then 0x100 else 0
  let s := statAdd (statAdd s n b 1) n (b + 8) len
  let s := statAdd s n (b + 0x10 + castOf bytes * 8) 1
  statAdd s n ((if tx then 0x130 else 0x68) + sizeBin len * 8) 1

/-! Admission (R142-R147). -/

/-- The macro is draining, off or failed (R144). -/
def macroOffline (s : State) (m : Nat) : Bool :=
  match (macroOf s m).state with
  | .off | .draining | .pllFailed | .absent => true
  | .locking | .on => false

/-- R142: the state admits. -/
def stateAdmits (p : Port) : Bool := p.state == .up || p.state == .degraded

/-- Why an enqueue toward a port is dropped (R145, R171, R273), or none where it is admitted. -/
def enqueueReason (s : State) (n : Nat) : Option DropReason :=
  match portOf s n with
  | none => some .portDown
  | some p =>
    match p.state with
    | .safe => some .safeState
    | .offline => some .macroOffline
    | .up | .degraded =>
      if p.admitting || (p.linkLoss && sideAdmits s && decide (p.downTicks < 64)) then none else some .portDown
    | .linkFault | .training =>
      if p.linkLoss && decide (p.downTicks < 64) then none else some .portDown
    | .unmapped | .adminDown | .test | .halted => some .portDown

/-- The reason under which the MAC drops a frame of a port that does not admit (R144). -/
def rxRefusal (s : State) (n : Nat) : DropReason :=
  if macroOffline s (macroOfPort n) then .macroOffline else .portDown

/-- A port may send frames: its link is up, it is not squelched, and it is up or draining. -/
def portSends (s : State) (n : Nat) : Bool :=
  match portOf s n with
  | none => false
  | some p =>
    p.link && !(schPort s n).squelched
    && (match p.state with
        | .up | .degraded => true
        | .adminDown | .offline => p.drain.isSome
        | _ => false)

/-! State changes. -/

/-- What a port advertises where it negotiates (R149): the technology of its combination alone. -/
def advertOf (p : Port) : Option Advert :=
  if p.cfg.anEn then some { lanes := p.lanes, laneRate := p.laneRate, fec := p.fec, pause := false, asymPause := false, eee := false }
  else none

/-- A port enters TRAINING (R149, R155, R161): bins restart, the transmit threshold returns to its base. -/
def toTraining (p : Port) : Port :=
  { p with state := .training, admitting := false, link := false, bins := [], bin := 0, txStartNow := p.txStartBase,
           txCond := .training (advertOf p) p.cfg.ltEn p.cfg.txPreset, localFaultRx := false, remoteFaultRx := false,
           blockLock := 0#8, aligned := false, rxOrder := [], txRaise := false, contained := false }

/-- A port's link is lost (R143): it stops admitting at once, and where it admitted the clock of R145 starts. R145 holds the queued
frames; of one in transmission it says nothing, and the model lets it end as it began (DESIGN CHOICE, log entry 157). -/
def linkDown (p : Port) : Port :=
  let p := { p with linkLoss := p.linkLoss || p.admitting, admitting := false }
  if p.link then { p with link := false, downTicks := 0, downWhole := false } else p

/-- A frame of at least 60 bytes before its FCS (R157). -/
def padFrame (bytes : List Byte) : List Byte := bytes ++ zeroBytes (60 - bytes.length)

/-- The bytes on the line of an edited frame: padded to 60, with the FCS over them (R157). -/
def wireBytes (bytes : List Byte) : List Byte := padFrame bytes ++ leBytes 4 (crc32 (padFrame bytes)).toNat

/-- What the MAC sends: the 7-byte preamble and the SFD of IEEE 802.3, then the frame (R157). -/
def lineBytes (wire : List Byte) : List Byte := List.replicate 7 0x55#8 ++ 0xD5#8 :: wire

/-- A frame ended after `k` of its bytes: these, with their FCS inverted in every bit (R160). -/
def cutBytes (bytes : List Byte) (k : Nat) : List Byte :=
  let sent := (padFrame bytes).take k
  lineBytes (sent ++ leBytes 4 (~~~ crc32 sent).toNat)

/-- The frame given to the MAC is dropped with nothing signalled: it had not begun, or the transmitter cannot signal (R173). -/
def txAbandon (s : State) (n : Nat) (r : DropReason) : State :=
  match (schPort s n).tx with
  | none => s
  | some (id, qx, _) => dropPktAt (schPortMod s n (fun p => { p with tx := none })) id r (some (queuePort qx))

/-- The frame in transmission ends with inverted FCS and is dropped (R145, R160, R273); it is counted in TX_UNDERRUN
of the MAC statistics. How many of its bytes have left by this beat no rule says: a free value (log entry 113). -/
def txTruncate (s : State) (n : Nat) (r : DropReason) : State :=
  match (schPort s n).tx with
  | some (id, _, true) =>
    let (k, s) := fresh 14 s
    let bytes := ((pktOf s id).map (·.bytes)).getD []
    txAbandon (emit (statAdd s n 0x128 1) (.badFrame n (cutBytes bytes k.toNat))) n r
  | _ => txAbandon s n r

/-- The frame in transmission, where there is one, ends as `txTruncate` says; one that has not begun stays (R273). -/
def txCut (s : State) (n : Nat) (r : DropReason) : State :=
  match (schPort s n).tx with
  | some (_, _, true) => txTruncate s n r
  | _ => s

/-- The frame given to the MAC whose first bit is not sent is dropped with the queued ones. -/
def dropAllQueued (s : State) (n : Nat) (r : DropReason) : State :=
  let s := match (schPort s n).tx with
    | some (_, _, false) => txTruncate s n r
    | _ => s
  dropPortQueues s n r

/-- A drain begins (R145, R146): 64 whole ticks. A halt that is due still governs (R174). While it drains toward TEST or a speed
change a port shows ADMIN_DOWN: R167 and R148 name no state for that time (DESIGN CHOICE, log entry 114). -/
def startDrain (p : Port) (k : DrainKind) : Port :=
  { p with admitting := false, dist := false, linkLoss := false, drain := some (k, 64),
           due := match p.due with
             | some .halt | some .haltTraining | some (.haltStop _) => p.due
             | _ => none,
           state := if k = .macroDown then .offline else .adminDown, txCond := .frames }

/-- The next boundary halts a port (R145): queued frames are dropped, one in transmission is truncated. -/
def haltPort (s : State) (n : Nat) : State :=
  let s := portMod s n (fun p =>
    { p with state := .halted, admitting := false, dist := false, linkLoss := false, drain := none, due := none, newSpeed := none,
             txCond := .localFault })
  dropAllQueued (txTruncate s n .portDown) n .portDown

/-- A halt is asked for (R145, R618); a port that its state already keeps from admission, and that only other rules let out of
it, stays (R147, R167). One that drains with its macro is halted too (R174). -/
def askHalt (p : Port) : Port :=
  match p.state with
  | .halted | .safe | .test => p
  | .offline => if p.drain.isSome then { p with due := some .halt } else p
  | _ => { p with due := match p.due with
      | some .training | some .haltTraining => some .haltTraining
      | some (.haltStop k) => some (.haltStop k)
      | _ => some .halt }

/-- What a stop that is accepted now asks of the next boundary: a halt of this tick comes first (R145, R174). -/
def stopDue (p : Port) (k : DrainKind) : Option PortDue :=
  match p.due with
  | some .halt | some .haltTraining | some (.haltStop _) => some (.haltStop k)
  | _ => some (.stop k)

/-- The number of ports that admit. -/
def admittingCount (s : State) : Nat := (s.lnm.ports.filter (fun e => e.2.admitting)).length

end Sys2Proof.Machine
end

