-- ==== Sys2Proof/Machine/TableOps.lean ====
section
/-!
DEFINITION. Writes of the shared tables by commands, engine programs, learning and the pair: the discipline of R199,
learn events, and the delta records that the pair receives (R200, R204, R227, R528).
-/

namespace Sys2Proof.Machine

/-! Delta records of writes (R527). -/

/-- The body of ORD_WRITE and VER_WRITE: the record as TWR has it, word 0 in 6 bytes, then the entry. -/
def writeBody (s : State) (delete : Bool) (r : TblRec) : List Byte :=
  leBytes 8 (now s) ++ leBytes 1 r.table ++ leBytes 1 (if delete then 1 else 0) ++ zeroBytes 2 ++ leBytes 6 r.index
    ++ r.bytes

/-- An own ordinary write is remembered for 64 ticks (R528). -/
def ownWrite (s : State) (r : TblRec) : State :=
  if s.mir.pair.mode = 0 then s
  else
    { s with mir := { s.mir with
        ownWrites := (r.table, r.place, now s) :: s.mir.ownWrites.filter (fun x => decide (now s < x.2.2 + 64)) } }

def tblDelta (s : State) (delete : Bool) (r : TblRec) : State :=
  let s := if r.ordinary then ownWrite (deltaAdd s 0x02 (writeBody s delete r)) r else s
  if r.versioned && !(r.vwrites delete).isEmpty then verDelta s (writeBody s delete r) else s

def tblDeltas (s : State) (delete : Bool) (rs : List TblRec) : State := rs.foldl (fun s r => tblDelta s delete r) s

/-! Learn events (R227). -/

/-- A PF0 event queue exists, in any state. -/
def hasEventQueue (s : State) : Bool :=
  s.que.queues.any (fun e => e.2.kind == .event && (e.2.fn == 0#16 || e.2.fn == 0x8000#16))

/-- Tables after a stage that may have posted learn events: without a PF0 event queue the new ones are discarded and
counted. -/
def learnKeep (s : State) (f : Fwd) : State :=
  let new := f.eventRing.length - s.fwd.eventRing.length
  if hasEventQueue s || new = 0 then { s with fwd := f }
  else
    { s with fwd := { f with
        eventRing := s.fwd.eventRing, eventOverflow := wrapAdd f.eventOverflow new
        eventLost := satAdd s.fwd.eventLost new } }

/-! Writes of several records. -/

/-- Every record is applied, or none where one finds no room (R204, R229, R489). -/
def writeRecs (s : State) (delete : Bool) (rs : List TblRec) : Option State :=
  match applyRecs delete s.fwd rs with
  | none => none
  | some (f, ws) =>
    if ws.isEmpty then some { s with fwd := f }
    else (openWrite s.dec ws).map (fun d => { s with fwd := f, dec := d })

/-- The same on a paired device, with the delta records of the writes. -/
def writeTables (s : State) (delete : Bool) (rs : List TblRec) : Option State :=
  (writeRecs s delete rs).map (fun s => tblDeltas s delete rs)

/-! Flow-state entries in HBM (R237). -/

def flowRead (s : State) (i : Nat) : List Byte := hbmRead s (i * 64) 64
def flowWrite (s : State) (i : Nat) (b : List Byte) : State := hbmPutBytes s (i * 64) b

/-- VALID of the entry count changed with an entry. -/
def flowValidAdj (s : State) (was now_ : Bool) : State :=
  if was == now_ then s
  else { s with fwd := { s.fwd with flowValid := if now_ then s.fwd.flowValid + 1#28 else s.fwd.flowValid - 1#28 } }

/-- The FLOW record of a change (R527): the entry with COUNTERS zero. -/
def flowDelta (s : State) (i : Nat) (delete : Bool) (b : List Byte) : State :=
  deltaAdd s 0x05 (leBytes 4 i ++ leBytes 1 (if delete then 1 else 0) ++ zeroBytes 3 ++ b.take 56 ++ zeroBytes 8)

/-- A flow record (R291): kind 0 WRAP, 1 CLOSE, 2 LOST. -/
def flowRecord (s : State) (i : Nat) (b : List Byte) (kind : Nat) (counters : W64) (carried : Nat) : State :=
  let r : FlowRecord :=
    { index := BitVec.ofNat 27 i, tenant := BitVec.ofNat 16 (leAt b 0 2), cls := BitVec.ofNat 8 (leAt b 2 1),
      kind := kind, counters := counters, carried := BitVec.ofNat 2 carried, seq := 0#32, tick := s.tmb.tick }
  { s with ldg := flowRecordPost s.ldg r }

/-- A valid entry ends on this side: VALID cleared, and its record posted (R240, R291). -/
def flowEnd (s : State) (i : Nat) (kind : Nat) (counters : W64) : State :=
  let b := flowRead s i
  let s := flowWrite s i (patch b 3 [BitVec.ofNat 8 (leAt b 3 1 / 2 * 2)])
  flowValidAdj (flowRecord s i b kind counters 0) true false

/-- The same with the pair's record of it. -/
def flowClose (s : State) (i : Nat) (kind : Nat) (counters : W64) : State :=
  flowDelta (flowEnd s i kind counters) i true (flowRead s i)

end Sys2Proof.Machine
end

