-- ==== Sys2Proof/Machine/Delivery.lean ====
section
/-!
DEFINITION. Delivery of packets: injection into a slice, hand-off to engines, admission to port and host queues,
replication, capture copies with icing (R25, R26, R212, R213, R252-R258, R309-R311, R348, R541, R542).
-/

namespace Sys2Proof.Machine

/-! Injection (R26, R252). -/

def injectCapacity : Nat := 4096

def injectQueue (s : State) (k : Nat) : List Nat := tgetD s.crb.injectQ k []

/-- A frame enters the injection queue of slice `k`: a host frame arrives there (R252, R283, R472); an emit arrived at its commit
point (R350). -/
def injectEnter (s : State) (k : Nat) (p : Packet) : State :=
  let s := if p.origin = 1 then countArrival s k 1 (frameLen p) else s
  let p := { p with owner := k, stage := .inject, stamp := nowStamp s, crumbs := crumbsOf (frameLen p) }
  let (s, id) := pktAdd s p
  let s := { s with crb := { s.crb with injectQ := tset s.crb.injectQ k (injectQueue s k ++ [id]) } }
  sendEntered s id p

/-- A waiting frame that only free crumbs keep out: its slice's queue has room (R252). -/
def waitsOnCrumbs (s : State) (w : Waiting) : Bool := decide ((injectQueue s w.slice).length < injectCapacity)

/-- A frame for slice `k` may enter at once: no earlier frame waits before it, its queue has room and F suffices. -/
def injectRoom (s : State) (k : Nat) (p : Packet) : Bool :=
  !(s.crb.waiting.any (fun w => w.slice == k || waitsOnCrumbs s w))
  && decide ((injectQueue s k).length < injectCapacity)
  && decide ((crumbsOf (frameLen p) : Int) ≤ sharedFree s) && !s.sch.hostStopped

/-- The waiting frame whose turn would come: slices in ascending order after the one let in last, among those whose
queue has room; within a slice the oldest (R252). -/
def nextTurn (s : State) : Option Waiting :=
  let turn := (List.range 16).map (fun i => (s.crb.lastSlice + 1 + i) % 16)
  (turn.findSome? (fun k => s.crb.waiting.find? (fun w => w.slice == k && waitsOnCrumbs s w)))

/-- The waiting frame whose turn it is: the oldest of the slice that has the turn, which no frame of another slice
overtakes (R252). -/
def waitingTurn (s : State) : Option Waiting :=
  match s.crb.turn.bind (fun k => s.crb.waiting.find? (fun w => w.slice == k && waitsOnCrumbs s w)) with
  | some w => some w
  | none => nextTurn s

/-- The turn stays with its slice until its frame is let in (R252). -/
def keepTurn (s : State) : State := { s with crb := { s.crb with turn := (waitingTurn s).map (·.slice) } }

/-- A host or engine frame toward slice `k`: it enters, or waits (R26, R252, R273). An emit is an arrival of the tick of its commit
point, held or not (R350; log entry 167). -/
def inject (s : State) (k : Nat) (kind : WaitKind) (p : Packet) : State :=
  let s := if p.origin = 1 then s else countArrival s k 2 (frameLen p)
  if injectRoom s k p then injectEnter s k p
  else keepTurn { s with crb := { s.crb with waiting := s.crb.waiting ++ [{ slice := k, kind := kind, pkt := p }] } }

/-- One waiting frame is let in when F suffices for it. -/
def admitWaiting (s : State) : State :=
  if s.sch.hostStopped then s
  else
    match waitingTurn s with
    | none => s
    | some w =>
      if sharedFree s < crumbsOf (frameLen w.pkt) then s
      else
        let s := { s with crb := { s.crb with waiting := s.crb.waiting.erase w, lastSlice := w.slice, turn := none } }
        keepTurn (injectEnter s w.slice w.pkt)

/-! Engines (R254, R344, R348). -/

def channelOf (s : State) (c : Nat) : Option Channel := tget s.eng.channels c
def channelMod (s : State) (c : Nat) (f : Channel → Channel) : State :=
  { s with eng := { s.eng with channels := tadj s.eng.channels c f } }
def clusterOf (s : State) (c : Nat) : Cluster := tgetD s.eng.clusters c Cluster.empty
def clusterMod (s : State) (c : Nat) (f : Cluster → Cluster) : State :=
  { s with eng := { s.eng with clusters := tmod Cluster.empty s.eng.clusters c f } }

/-- Entries of a cluster's descriptor store in use (R348). -/
def descriptorsUsed (s : State) (c : Nat) : Nat :=
  sumOf ((s.eng.channels.filter (fun e => e.2.bind.cluster == c)).map (fun e => e.2.fifo.length + e.2.kept.length))

/-- A shadow channel takes no hand-off and is not served while its side has not taken over (R534). -/
def shadowIdle (s : State) (ch : Nat) : Bool :=
  s.mir.pair.mode != 0 && s.mir.state != .solo && s.mir.pair.shadows.any (fun x => x.2 == ch)

/-- A hand-off begins: its work is pending 64 beats on (R93). -/
def handedAt (s : State) (id : Nat) : State :=
  { s with eng := { s.eng with handed := (id, nowBeats s + 64) :: s.eng.handed.filter (fun x => decide (nowBeats s ≤ x.2) && x.1 != id) } }

/-- A hand-off to a channel's FIFO, or its drop. -/
def handOff (s : State) (id ch : Nat) : State :=
  match pktOf s id with
  | none => s
  | some p =>
    let s := pktMod s id (fun p => { p with hold := none })
    match channelOf s ch with
    | none => dropPkt s id .engineLost
    | some c =>
      let k := c.bind.cluster
      if c.unserved || shadowIdle s ch then dropPkt s id .engineLost
      else if 65536 ≤ descriptorsUsed s k || decide (s.crb.holdLimit.getD k 0 < holdUsed s k + p.crumbs) then
        dropPkt s id .engineHoldFull
      else
        let s := match p.tenant with
          | some t => addPkt s (cTenant t 3) p
          | none => s
        let s := pktMod s id (fun p => { p with hold := some k, stage := .engine ch, queueSet := none, copyQueue := none })
        channelMod (handedAt s id) ch (fun c => { c with fifo := c.fifo ++ [id] })

/-- A control-class packet to the control FIFO of its cluster (R196, R354). -/
def controlHandOff (s : State) (id slice : Nat) : State :=
  let k := slice % 8
  if 4096 ≤ (clusterOf s k).controlFifo.length then dropPkt s id .controlReserveFull
  else
    let s := pktMod (handedAt s id) id (fun p => { p with stage := .control })
    clusterMod s k (fun c => { c with controlFifo := c.controlFifo ++ [id] })

/-! Icing (R309-R311). -/

/-- The 32 bytes of icing of a copy: `kind` 0 ternary copy, 1 mirror export, 2 engine export. -/
def icingBytes (s : State) (p : Packet) (kind : Nat) (seq : W32) : List Byte :=
  let resid := (nowStamp s).steps - p.stamp.steps
  let o := s.rst.options
  leBytes 1 1 ++ leBytes 1 p.cls ++ leBytes 2 ((if p.origin = 0 then p.port else 0) + put p.origin 10 2 + put p.version 12 4)
    ++ leBytes 2 (p.tenant.getD 0xFFFF)
    ++ leBytes 1 (put kind 0 2 + put p.colour 2 2 + putB (bitN (kvGet p.kv 1).toNat 0) 4 + putB p.control 5)
    ++ leBytes 1 0 ++ leBytes 4 p.stamp.tick ++ leBytes 2 p.stamp.sub ++ leBytes 2 (o.device.toNat + putB o.sideB 11)
    ++ leBytes 4 p.dest.toNat ++ leBytes 4 (min resid 0xFFFFFFFF) ++ leBytes 2 (frameLen p) ++ leBytes 2 0
    ++ leBytes 4 seq.toNat

/-- Crumbs of a copy with icing (R250). -/
def icedCrumbs (p : Packet) : Nat := cdiv (frameLen p + 32) 64

/-! Admission to queues (R256). -/

/-- A packet or copy at enqueue toward Pn.Qq, or Pn.CQ for the control class: rows 1 to 7. -/
def enqueuePort (s : State) (id n q : Nat) : State :=
  match pktOf s id with
  | none => s
  | some p =>
    let at_ := some (if n < 512 then some n else none)
    let crumbs := crumbsOf (frameLen p)
    match enqueueReason s n with
    | some r => dropPktAt s id r at_
    | none =>
      if p.control then
        if s.crb.controlUsed + crumbs ≤ controlReserve then enterQueue s id (4096 + n) crumbs
        else dropPktAt s id .controlReserveFull at_
      else if admits s (schQueue s (n * 8 + q)) crumbs p.colour then enterQueue s id (n * 8 + q) crumbs
      else dropPktAt s id .queueThreshold at_

/-- A packet or copy at enqueue toward a host queue (R259, R467); on a capture queue it carries icing, and its SEQ is
used up before admission (R311). -/
def enqueueHost (s : State) (id h kind : Nat) : State :=
  match pktOf s id, queueOf s h with
  | some p, some hq =>
    if !queueAdmits hq then dropPktAt s id .hostQueueAbsent (some none)
    else
      let iced := hq.kind == .capture
      let crumbs := if iced then icedCrumbs p else crumbsOf (frameLen p)
      let s := if iced then
          queueMod (pktMod s id (fun p => { p with icing := some (icingBytes s p kind hq.seq) })) h
            (fun q => { q with seq := wrapInc q.seq })
        else s
      if admits s (schQueue s (8192 + h)) crumbs p.colour then
        enterQueue (pktMod s id (fun p => { p with fn := hq.fn.toNat, gen := (genOf s hq.fn.toNat).toNat })) id (8192 + h) crumbs
      else dropPktAt s id .queueThreshold (some none)
  | some _, none => dropPktAt s id .hostQueueAbsent (some none)
  | none, _ => s

/-! Copies (R258, R283). -/

/-- The transit charge of a further copy until it is admitted: the copies share the packet's crumbs, so it is the packet's
charge where no earlier copy is held, and none where one is (R250). -/
def copyCharge (p : Packet) (held : Bool) : Nat := if held then 0 else p.crumbs

/-- A packet or copy is still held: it has been admitted. -/
def stillHeld (s : State) (id : Nat) : Bool := (pktOf s id).isSome

/-- A further copy of a packet: one replication of the unit that owns it. -/
def copyPkt (s : State) (p : Packet) (held : Bool) : State × Nat :=
  let s := addPkt s (cUnit p.owner 3) p
  let s := match p.tenant with
    | some t => addPkt s (cTenant t 2) p
    | none => s
  let s := tally s p.owner (fun t => { t with rep := t.rep + 1 })
  pktAdd s { p with slot := none, crumbs := copyCharge p held, queue := none, hold := none, stage := .enqueue, sendFrom := none }

/-- A further copy toward a port: REPLICA_TO counts the copies admitted toward it. `x.2` says whether a copy is held. -/
def copyToPort (p : Packet) (q : Nat) (x : State × Bool) (n : Nat) : State × Bool :=
  let (s, id) := copyPkt x.1 p x.2
  let s := enqueuePort s id n q
  if stillHeld s id then (addPkt s (cPort n 5) p, true) else (s, x.2)

/-- The capture copy of a ternary COPY_DEST as a further copy. -/
def copyToHost (s : State) (p : Packet) (h : Nat) (held : Bool) : State :=
  let (s, id) := copyPkt s p held
  enqueueHost s id h 0

/-! Aggregation and flooding (R212, R213, R541, R542). -/

def roleOf (s : State) (n : Nat) : Nat := tgetD s.mir.pair.roles n 0

/-- The partner's latest heartbeat shows a port admitting; a side without a partner counts on none (R534). -/
def partnerAdmits (s : State) (n : Nat) : Bool :=
  s.mir.state != .solo && (s.mir.heartbeat.map (fun h => decide (n < 512) && h.admits.getLsbD n)).getD false

def portInDist (s : State) (n : Nat) : Bool := ((portOf s n).map (fun p => p.dist)).getD false

/-- The class entry of a packet. -/
def classOf (s : State) (p : Packet) : Option ClassEntry := s.app.parse.classes[p.cls]?

/-- The port a packet goes to by group `g` (R212), and by the trunk group for an active remote member (R541). -/
def groupPort (s : State) (p : Packet) (g : Nat) : Option Nat :=
  match classOf s p with
  | none => none
  | some cls =>
    let members := tgetD s.fwd.aggregates g []
    let h := aggHash cls p
    match aggMember members (fun m => !m.remote && portInDist s m.port) h with
    | some m => some m.port
    | none =>
      match s.mir.pair.trunkGroup with
      | none => none
      | some t =>
        if p.origin = 0 && roleOf s p.port = 3 then none
        else if (aggMember members (fun m => m.remote && partnerAdmits s m.port) h).isSome then
          (aggMember (tgetD s.fwd.aggregates t []) (fun m => !m.remote && portInDist s m.port) h).map (·.port)
        else none

/-- The ports that receive a copy of a flooded packet, ascending (R213, R542). -/
def floodTargets (s : State) (p : Packet) (g : Nat) : List Nat :=
  let map := tgetD s.fwd.floodGroups g 0#512
  let mates := if p.origin = 0 then
      (s.fwd.aggregates.filter (fun e => e.2.any (fun m => m.port == p.port && !m.remote))).flatMap
        (fun e => (e.2.filter (fun m => !m.remote)).map (·.port))
    else []
  (List.range 512).filter (fun n =>
    map.getLsbD n && !(p.origin == 0 && n == p.port) && !(mates.contains n)
    && !(p.origin == 0 && roleOf s p.port == 3 && roleOf s n == 2 && partnerAdmits s n)
    && ((portOf s n).map (·.admitting)).getD false)

/-! Delivery of a decided packet (R256, R258). -/

/-- The capture copy after a delivery: `p` is the packet at the copy point. -/
def captureAfter (x : State × Bool) (p : Packet) : State :=
  match p.copyQueue with
  | some h => copyToHost x.1 p h x.2
  | none => x.1

/-- A state in which packet `id` was delivered, with whether it is held. -/
def delivered (s : State) (id : Nat) : State × Bool := (s, stillHeld s id)

/-- A packet with its final destination: to its queues or its engine channel, then its capture copy. `kind` is the
EXPORT_KIND of a copy with icing. -/
def deliver (s : State) (id kind : Nat) : State :=
  match pktOf s id with
  | none => s
  | some p =>
    match dtypeOf p.dest with
    | .port => captureAfter (delivered (enqueuePort s id (destPortOf p.dest) (destQueueOf p.dest)) id) p
    | .aggregate =>
      match groupPort s p (destGroupOf p.dest) with
      | some n => captureAfter (delivered (enqueuePort s id n (destQueueOf p.dest)) id) p
      | none => captureAfter (dropPkt s id .portDown, false) p
    | .flood =>
      let q := p.queueSet.getD 0
      match floodTargets s p (destFloodOf p.dest), p.copyQueue with
      | [], none => dropPkt s id .floodDenied
      | [], some h => enqueueHost s id h 0
      | n :: ns, _ => captureAfter (ns.foldl (copyToPort p q) (delivered (enqueuePort s id n q) id)) p
    | .hostQueue => captureAfter (delivered (enqueueHost s id (destHostOf p.dest) kind) id) p
    | .engine => captureAfter (delivered (handOff s id (destChannelOf p.dest)) id) p
    | _ => dropPkt s id .policyDeny

end Sys2Proof.Machine
end

