-- ==== Sys2Proof/Machine/TimeOps.lean ====
section
/-!
DEFINITION. The timebase's sources: measurement, qualification, loss, selection, the forward step, TRACEABLE, slewing and
holdover (R319-R327, R332).
-/

namespace Sys2Proof

/-! Sources. Offsets are in hundredths of a SUB step; a nanosecond is 3,200 of them. -/

/-- What the timebase keeps of a source; FREE_RUN and HOLDOVER are always there and measure nothing. -/
def Tmb.source (t : Tmb) : TimeSource → SourceState
  | .partner => t.partner
  | .refPps => t.refPps
  | .ptp => t.ptp
  | .domain => t.domain
  | .tickIn => t.tickIn
  | .freeRun | .holdover => SourceState.blank

def Tmb.setSource (t : Tmb) (x : TimeSource) (v : SourceState) : Tmb :=
  match x with
  | .partner => { t with partner := v }
  | .refPps => { t with refPps := v }
  | .ptp => { t with ptp := v }
  | .domain => { t with domain := v }
  | .tickIn => { t with tickIn := v }
  | .freeRun | .holdover => t

def Tmb.modSource (t : Tmb) (x : TimeSource) (f : SourceState → SourceState) : Tmb := t.setSource x (f (t.source x))

/-- The five sources that measure. -/
def measuring : List TimeSource := [.partner, .refPps, .ptp, .domain, .tickIn]

def TimeSource.ofCode : Nat → Option TimeSource
  | 1 => some .partner | 2 => some .refPps | 3 => some .ptp | 4 => some .domain | 5 => some .tickIn | _ => none

def perNs : Nat := 3200
def perTick : Nat := 3200000

/-- |offset| ≤ TRACE_LIMIT_NS. -/
def Tmb.within (t : Tmb) (offset : Int) : Bool := decide (offset.natAbs ≤ t.traceLimit.toNat * perNs)

/-- The source may be selected: qualified, and for 10,000,000 ticks when it was lost before (R320). -/
def Tmb.selectable (t : Tmb) (now : Nat) (x : TimeSource) : Bool :=
  let s := t.source x
  s.qualified && (!s.lostBefore || decide (s.since + 10000000 ≤ now))

/-- The source that a boundary selects (R321). `follower`: this side is the pair follower. -/
def Tmb.choose (t : Tmb) (now : Nat) (follower : Bool) : TimeSource :=
  let prios := [t.prio0, t.prio1, t.prio2, t.prio3].filterMap (fun p =>
    if 2 ≤ p.toNat then TimeSource.ofCode p.toNat else none)
  let keep := !t.revertive && prios.contains t.selected && (t.source t.selected).qualified
  if follower && t.selectable now .partner then .partner
  else if keep then t.selected
  else
    match prios.find? (t.selectable now) with
    | some x => x
    | none => if t.selected = .freeRun then .freeRun else .holdover

/-- The offset measured of the selected source; 0 when none is steering. -/
def Tmb.offset (t : Tmb) : Int := (t.source t.selected).offset

/-- Every source's time moved against local time: local time advances by `d` more than nominal. -/
def Tmb.moveLocal (t : Tmb) (d : Int) : Tmb :=
  measuring.foldl (fun t x => t.modSource x (fun s => { s with offset := s.offset - d })) t

/-- A value held between two bounds. -/
def clampTo (x : Int) (b : Nat) : Int := max (-(b : Int)) (min x b)

end Sys2Proof

namespace Sys2Proof.Machine

def tmbMod (s : State) (f : Tmb → Tmb) : State := { s with tmb := f s.tmb }

def timebaseUnit : Nat := 0x02

/-! Qualification and loss (R320). -/

/-- A source becomes qualified; it is traceable only through what it is told from then on. -/
def sourceQualify (s : State) (x : TimeSource) : State :=
  if (s.tmb.source x).qualified then s
  else tmbMod s (fun t => t.modSource x (fun v => { v with qualified := true, since := now s }))

/-- A qualified source is lost; TIME_REF_LOSS where it was the selected one (R321). -/
def sourceLost (s : State) (x : TimeSource) : State :=
  if !(s.tmb.source x).qualified then s
  else
    let s := tmbMod s (fun t =>
      { (t.modSource x (fun v => { v with qualified := false, lostBefore := true, good := 0, traceable := false, edgeTime := none }))
        with refLosses := wrapInc t.refLosses })
    if s.tmb.selected = x then raise s .timeRefLoss timebaseUnit x.code else s

/-- A measurement of a source's offset: more than 10 µs while TRACEABLE is 1 is a jump, which loses the source. -/
def sourceMeasure (s : State) (x : TimeSource) (offset : Int) : State :=
  let s := tmbMod s (fun t => t.modSource x (fun v => { v with offset := offset }))
  if s.tmb.traceable && (s.tmb.source x).qualified && decide (10 * perTick < offset.natAbs) then
    sourceLost (tmbMod s (fun t => { t with jumps := wrapInc t.jumps })) x
  else s

/-- One more consecutive good measurement, or none; the source qualifies at `n`. -/
def sourceCount (s : State) (x : TimeSource) (good : Bool) (n : Nat) : State :=
  let s := tmbMod s (fun t => t.modSource x (fun v => { v with good := if good then min n (v.good + 1) else 0 }))
  if (s.tmb.source x).good = n then sourceQualify s x else s

/-! Edges of PPS_IN and TICK_IN (R320, R329). -/

/-- The stamp of an edge, less the board's delay (TMB_PIN_DELAY), in SUB steps. -/
def edgeSteps (s : State) (sub : Nat) (delay : W16) : Int := (now s * 32000 + sub : Nat) - delay.toInt

/-- The nearest multiple of `period` to `x`. -/
def nearest (x : Int) (period : Nat) : Int := (2 * x + period) / (2 * period) * period

/-- A period of an edge source: 1 s or 1 µs in SUB steps, and its tolerance. -/
def edgePeriod : TimeSource → Nat × Nat
  | .refPps => (32000000000, 32000)
  | _ => (32000, 160)

/-- The first local second boundary after the write that armed TMB_TOD_NEXT, in SUB steps. -/
def todBoundary (s : State) : Nat := (s.tmb.todTick / 1000000 + 1) * 1000000 * 32000

/-- The armed seconds value meets an edge stamped at least one beat after its write: consumed, or discarded when the
edge is more than 500 ms from the local second boundary (R329). -/
def todMeet (s : State) (x : TimeSource) (at_ : Int) (beats : Nat) : State :=
  if !s.tmb.todArmed || decide (beats < s.tmb.todTick * 1600 + s.tmb.todBeat + 1) then s
  else
    let s := tmbMod s (fun t => { t with todArmed := false })
    if 16000000000 < (at_ - todBoundary s).natAbs then tmbMod s (fun t => { t with todRejects := wrapInc t.todRejects })
    else
      let s := sourceMeasure s x (((s.tmb.todSeconds.toNat * 32000000000 : Nat) - at_) * 100)
      tmbMod s (fun t => t.modSource x (fun v =>
        { v with traceable := v.qualified, edgeTime := if v.qualified then some (s.tmb.todSeconds.toNat * 32000000000 : Nat) else none }))

/-- The time since a source's last edge as the DCO's base counts it, REF_TIME where that is qualified: local time less the slews
made since, in hundredths of a SUB step (R320). -/
def edgeGap (t : Tmb) (v : SourceState) (at_ : Int) : Option Int :=
  v.lastEdge.map (fun l => (at_ - (l : Int)) * 100 - (t.slewed - v.edgeSlew))

/-- The source's own time of an edge: that of the last one and the whole periods since, at least one. -/
def edgeTimeNext (v : SourceState) (gap : Option Int) (period : Nat) : Option Int :=
  match v.edgeTime, gap with
  | some t, some g => some (t + max (period : Int) (nearest g (period * 100) / 100))
  | _, _ => none

/-- An edge of PPS_IN or TICK_IN: the interval counts toward qualification, the source's time or the phase is the measurement, and
an armed value may be consumed. -/
def sourceEdge (s : State) (x : TimeSource) (at_ : Int) (beats : Nat) (ref : Bool) : State :=
  let (period, tol) := edgePeriod x
  let v := s.tmb.source x
  let gap := edgeGap s.tmb v at_
  let good := ref && (gap.map (fun (g : Int) => decide ((g - (period * 100 : Nat)).natAbs ≤ tol * 100))).getD false
  let time := edgeTimeNext v gap period
  let offset := (time.getD (nearest at_ period) - at_) * 100
  let s := tmbMod s (fun t => t.modSource x (fun v =>
    { v with lastEdge := some at_.toNat, edgeSlew := t.slewed, edgeTime := time }))
  let s := sourceMeasure s x offset
  let s := sourceCount s x good (if x = .refPps then 3 else 16)
  if x = .refPps || (nearest at_ 32000) % 32000000000 = 0 then todMeet s x at_ beats else s

/-! The boundary (R321-R327). -/

/-- Holdover has lasted MAX_TICKS: TRACEABLE becomes 0 and HOLDOVER_EXPIRED is raised (R327). -/
def holdoverExpire (s : State) : State :=
  if s.tmb.selected = .holdover ∧ s.tmb.traceable ∧ s.tmb.maxTicks.toNat ≤ s.tmb.elapsed.toNat then
    raise (tmbMod s (fun t => { t with traceable := false, expiries := wrapInc t.expiries })) .holdoverExpired timebaseUnit
      wholeUnit
  else s

/-- The side follows its partner's time (R332). -/
def isFollower (s : State) : Bool := s.mir.pair.mode != 0 && !s.tmb.leader

/-- The selection of a boundary; ELAPSED counts the ticks of a holdover. -/
def timeSelect (s : State) : State :=
  let x := s.tmb.choose (now s) (isFollower s)
  tmbMod s (fun t =>
    { t with
      selected := x
      switches := if x = t.selected then t.switches else wrapInc t.switches
      elapsed := if x ≠ .holdover then 0#32 else if t.selected = .holdover then satInc t.elapsed else 0#32 })

/-- Ticks of the forward step that the boundary makes (R56, R323). -/
def stepTicks (s : State) : Nat :=
  let t := s.tmb
  if !t.traceable && (t.source t.selected).traceable && decide ((perTick : Int) ≤ t.offset) then t.offset.toNat / perTick else 0

/-- A stamp taken before a forward step of `n` ticks, in the time after it. -/
def stampMoved (n : Nat) (x : Stamp) : Stamp := { x with tick := x.tick + n }

/-- Local time has stepped forward by `n` ticks: what is measured against it moves along, the stamps of exchanges in progress and
the ticks that a source has stayed qualified too (R320, R333). -/
def timeStepped (s : State) (n : Nat) : State :=
  if n = 0 then s
  else
    let s := { s with
      mir := { s.mir with lastTx := stampMoved n s.mir.lastTx, prevTx := stampMoved n s.mir.prevTx, prevRx := stampMoved n s.mir.prevRx }
      dom := { s.dom with t2 := s.dom.t2 + n * 32000, t3 := s.dom.t3 + n * 32000 } }
    tmbMod s (fun t =>
      { (measuring.foldl (fun t x => t.modSource x (fun v =>
            { v with lastEdge := v.lastEdge.map (· + n * 32000), since := v.since + n }))
          (t.moveLocal (n * perTick : Nat))) with stepCount := wrapInc t.stepCount })

/-- TRACEABLE at a boundary (R324): kept in holdover, which has its own end. -/
def traceableUpdate (s : State) : State :=
  if s.tmb.selected = .holdover then holdoverExpire s
  else tmbMod s (fun t => { t with traceable := (t.source t.selected).traceable && t.within t.offset })

/-- The mean steering of the last 1,000 ticks, which HOLDOVER keeps (R325). -/
def holdSteer (t : Tmb) : Int := t.steer.foldl (· + ·) 0 / max 1 t.steer.length

/-- The steering of one tick (R319, R322, R325): none in FREE_RUN, the mean of the last ticks in HOLDOVER, otherwise toward the
source by ±10 ppm, or ±2,000 ppm while the device admits on no port. -/
def steerOf (t : Tmb) (fast : Bool) : Int :=
  match t.selected with
  | .freeRun => 0
  | .holdover => holdSteer t
  | _ => clampTo t.offset (if fast then 6400 else 32)

/-- The slew of one tick. -/
def timeSlew (s : State) : State :=
  let fast := decide (admittingCount s = 0)
  tmbMod s (fun t =>
    let d := steerOf t fast
    { (t.moveLocal d) with
      slewFast := fast, slewed := t.slewed + d
      steer := if t.selected = .holdover then t.steer else (d :: t.steer).take 1000 })

/-- DOMAIN is lost after 8 exchange periods without an exchange, as of the boundary that comes (R320). -/
def domainOverdue (s : State) : State :=
  match s.tmb.domain.lastEdge with
  | some l => if (l + 8 * 2 ^ s.mir.pair.syncLog2 * 32000) < (now s + 1) * 32000 then sourceLost s .domain else s
  | none => s

end Sys2Proof.Machine
end

