-- ==== Sys2Proof/Machine/DomainOps.lean ====
section
/-!
DEFINITION. Domain frames and fault reports toward the root (R544-R549).
-/

namespace Sys2Proof

/-- The frame of the domain unit: destination 03:00:00:00:96:02, EtherType 0x88B5, the 24-byte header and the payload,
padded to a legal frame. -/
def domainBytes (sa : List Byte) (type source dest : Nat) (seq domain : W32) (tick : Nat) (payload : List Byte) : List Byte :=
  let f := beBytes 6 0x030000009602 ++ sa ++ beBytes 2 0x88B5 ++ leBytes 1 1 ++ leBytes 1 type ++ leBytes 2 source
    ++ leBytes 2 dest ++ leBytes 2 payload.length ++ leBytes 4 seq.toNat ++ leBytes 4 domain.toNat ++ leBytes 8 tick
    ++ payload
  f ++ List.replicate (60 - f.length) 0#8

/-- A frame that an engine, the Supervisor or the domain unit sends, or that the host sends: origin 1 or 2. -/
def madePacket (origin startSel : Nat) (bytes : List Byte) : Packet :=
  { bytes := bytes, fcs := crc32 bytes, origin := origin, port := 0, startSel := startSel, stamp := ⟨0, 0⟩, kv := [],
    version := 0, slot := none, owner := 0, tenant := none, cls := 0, control := false, dest := 0#32, colour := 3,
    flowSkip := false, flowNoInsert := false, queueSet := none, meter := none, copyQueue := none, route := none,
    edits := [], fn := 0, gen := 0, sendFrom := none, icing := none, crumbs := 0, queue := none, hold := none,
    egress := none, since := 0, stage := .inject }

end Sys2Proof

namespace Sys2Proof.Machine

def domMod (s : State) (f : Dom → Dom) : State := { s with dom := f s.dom }

/-- MEMBER and ROOT of DOM_STAT (R544, R547). -/
def domMember (s : State) : Bool := s.rst.options.device != 0#11 && s.mir.pair.domainId != 0#32
def domRoot (s : State) : Bool := domMember s && s.rst.options.device.toNat == s.mir.pair.root

/-- SOURCE of this device's frames: device number and pair side. -/
def domSource (s : State) : Nat := s.rst.options.device.toNat + putB s.rst.options.sideB 11

/-- An engine-emitted frame that goes straight to a port's control queue (R544). -/
def controlSend (s : State) (port : Nat) (bytes : List Byte) (edits : List Edit) : State :=
  let k := macroOfPort port
  let p := madePacket 2 0 bytes
  let s := addPkt (countArrival s k 2 (frameLen p)) (cUnit k 8) p
  let (s, id) := pktAdd s
    { p with owner := k, stage := .enqueue, stamp := nowStamp s, control := true, dest := destPort port 0,
             crumbs := crumbsOf (frameLen p), edits := edits }
  enqueuePort s id port 0

/-- The edit of SYNC: its egress stamp written at byte 24 of the payload, with the correction at byte 0 (R317, R546). -/
def syncEdits (type : Nat) : List Edit :=
  if type = 2 then [{ kind := .tsWrite, offset := 62, len := 0, arg := 0#16, bytes := none }] else []

/-- A frame of the domain unit. Its source address is not given: free bytes. `seq` is a frame's SEQ when it is
forwarded for another source. -/
def domainSendAs (s : State) (port type source dest : Nat) (seq : W32) (payload : List Byte) : State :=
  let (sa, s) := freshBytes 6 s
  controlSend s port (domainBytes sa type source dest seq s.mir.pair.domainId (now s) payload) (syncEdits type)

/-- A frame of this device's own. -/
def domainSend (s : State) (port type dest : Nat) (payload : List Byte) : State :=
  let s := domMod s (fun d => { d with seq := wrapInc d.seq })
  domainSendAs s port type (domSource s) dest s.dom.seq payload

/-- The same on every domain link but one. -/
def domainSendAll (s : State) (except : Option Nat) (type : Nat) (payload : List Byte) : State :=
  (s.mir.pair.domainLinks.filter (fun n => some n ≠ except)).foldl (fun s n => domainSend s n type 0xFFFF payload) s

/-! The parent (R545). -/

def nbLess (a b : Neighbour) : Bool :=
  decide (a.hops < b.hops) || (a.hops == b.hops && (decide (a.device < b.device) || (a.device == b.device && decide (a.port < b.port))))

/-- The neighbour that becomes parent: fewest hops, then lowest device number, then lowest port; none beyond 15 hops. -/
def parentOf (nbs : List Neighbour) : Option Neighbour :=
  (nbs.filter (fun n => decide (n.hops ≤ 14))).foldl (fun best n =>
    match best with
    | none => some n
    | some b => if nbLess n b then some n else some b) none

/-- Frames of the relay queue sent to the parent: TYPE, SOURCE, SEQ and payload (R548). -/
def relayDrain (s : State) : State :=
  if s.dom.parent = 0 then s
  else
    s.dom.relay.foldl (fun s f => domainSendAs s s.dom.parentPort (leAt f 0 1) (leAt f 1 2) s.mir.pair.root
      (BitVec.ofNat 32 (leAt f 3 4)) (f.drop 7)) (domMod s (fun d => { d with relay := [] }))

/-- A frame for the root passes on along the parent link through the relay queue of 4,096 frames, where it waits while
there is no parent (R547, R548). -/
def relayUp (s : State) (type source : Nat) (seq : W32) (payload : List Byte) : State :=
  if 4096 ≤ s.dom.relay.length then domMod s (fun d => { d with relayLost := wrapInc d.relayLost })
  else relayDrain (domMod s (fun d => { d with relay := d.relay ++
    [leBytes 1 type ++ leBytes 2 source ++ leBytes 4 seq.toNat ++ payload] }))

/-- The parent chosen anew. Of a pair, only the leader has one; the root has none. -/
def parentSelect (s : State) : State :=
  let p := if domRoot s || isFollower s then none else parentOf s.dom.neighbours
  let s := match p with
    | some n => domMod s (fun d => { d with hops := n.hops + 1, parent := n.device, parentPort := n.port })
    | none => domMod s (fun d => { d with hops := if domRoot s then 0 else 15, parent := 0, parentPort := 0 })
  match p with
  | some n =>
    relayDrain (tmbMod s (fun t => t.modSource .domain (fun v => { v with traceable := v.qualified && n.traceable })))
  | none => sourceLost s .domain

/-! Fault reports (R548, R549). -/

def reportWindow (s : State) (cls : W16) (subj : W32) : Option ReportWindow :=
  s.dom.windows.find? (fun w => w.cls == cls && w.subject == subj)

/-- The payload of FAULT_REPORT. -/
def reportBytes (cls : W16) (level : Nat) (subj count : W32) (first last : W64) : List Byte :=
  leBytes 2 cls.toNat ++ leBytes 1 level ++ [0#8] ++ leBytes 4 subj.toNat ++ leBytes 4 count.toNat ++ leBytes 8 first.toNat
    ++ leBytes 8 last.toNat

/-- A report reaches the root's store: merged by class and subject, or opened, or counted in SUMMARY_LOST. -/
def rootMerge (s : State) (source : Nat) (cls : W16) (level : Nat) (subj count : W32) (first last : W64) : State :=
  match s.dom.store.find? (fun r => r.cls == cls && r.subject == subj) with
  | some r =>
    let new := !(r.reporters.contains source)
    let r' := { r with
      level := max r.level level
      reporters := if new then r.reporters ++ [source] else r.reporters
      devices := if new then r.devices + 1 else r.devices
      count := r.count + count
      firstTick := if first.toNat < r.firstTick.toNat then first else r.firstTick
      lastTick := if r.lastTick.toNat < last.toNat then last else r.lastTick }
    domMod s (fun d => { d with store := d.store.map (fun x => if x = r then r' else x) })
  | none =>
    if 4096 ≤ s.dom.store.length then domMod s (fun d => { d with summaryLost := wrapInc d.summaryLost })
    else domMod s (fun d => { d with store := d.store ++
      [{ cls := cls, subject := subj, level := level, opened := intervalStart s, reporters := [source], devices := 1, count := count,
         firstTick := first, lastTick := last }] })

/-- A report of this device leaves: to its own store at the root, else to the parent. -/
def reportSend (s : State) (cls : W16) (level : Nat) (subj count : W32) (first last : W64) : State :=
  if domRoot s then rootMerge (domMod s (fun d => { d with sent := wrapInc d.sent })) (domSource s) cls level subj count first last
  else if s.dom.parent = 0 then s
  else domainSend (domMod s (fun d => { d with sent := wrapInc d.sent })) s.dom.parentPort 7 s.mir.pair.root
    (reportBytes cls level subj count first last)

/-- One occurrence of a fault of L1 or above: reported at once, or held back while a window is open (R548). -/
def domainReport (s : State) (cls : W16) (level : Nat) (subj : W32) : State :=
  if !domMember s || level = 0 then s
  else
    let t := s.tmb.tick
    match reportWindow s cls subj with
    | some w =>
      let w' := { w with
        level := max w.level level, count := satInc w.count
        firstTick := if w.count = 0#32 then t else w.firstTick, lastTick := t }
      domMod s (fun d => { d with
        windows := d.windows.map (fun x => if x = w then w' else x), suppressed := wrapInc d.suppressed })
    | none =>
      let s := domMod s (fun d => { d with windows := d.windows ++
        [{ cls := cls, subject := subj, level := level, stop := intervalStart s + 1024, count := 0#32, firstTick := t, lastTick := t }] })
      reportSend s cls level subj 1#32 t t

end Sys2Proof.Machine
end

