-- ==== Sys2Proof/Machine/Ledger.lean ====
section
/-!
DEFINITION. The commands of "The Ledger: Exact Accounting": the sweep, errors in ledger memory, cuts and their
requests, and the ledger's registers with an effect of their own.
-/

namespace Sys2Proof.Machine

/-! Cuts. -/

/-- What a cut record takes from the device (R303, R304). -/
def cutCtx (s : State) (partnerOk : Bool) : CutCtx :=
  { pairIncomplete := !partnerOk || s.mir.state == .solo || mirrorLink s < 2
      || ((s.mir.heartbeat.map (fun h => h.state == .stale)).getD true)
    untraceable := !s.tmb.traceable, stepped := false, shed := decide (1 ≤ s.hbmU.step),
    version := BitVec.ofNat 4 s.dec.current, device := s.rst.options.device, sideB := s.rst.options.sideB,
    generation := if s.rst.options.paired then s.mir.generation else 0#32, bootEpoch := s.rst.epoch }

/-- A PAIR cut frozen at the boundary of a takeover is incomplete: the side is solo at the freeze (R304, R550). -/
def cutTakeover (s : State) : State :=
  match s.ldg.running with
  | some r =>
    if r.req.kind = .pair ∧ r.freezeTick = now s ∧ s.mir.state = .solo then
      let b := tgetD s.ldg.bufs r.buffer CutBuf.empty
      let b := { b with record := b.record.map (fun x => { x with pairIncomplete := true }) }
      { s with ldg := { s.ldg with bufs := tset s.ldg.bufs r.buffer b } }
    else s
  | none => s

/-- The body of a CUT record (R527). -/
def cutBody (answer : Bool) (status : Byte) (id : W32) (tick tag : W64) : List Byte :=
  leBytes 1 (if answer then 1 else 0) ++ [status] ++ zeroBytes 2 ++ leBytes 4 id.toNat ++ leBytes 8 tick.toNat
    ++ leBytes 8 tag.toNat

/-- A cut request (R298, R301, R304): STALE comes first (R19); a PAIR cut covers FULL, is refused on a device that is not paired, and travels in
the delta of the tick of its acceptance. -/
def cutSubmit (s : State) (kind : CutKind) (summary : Bool) (tick tag : W64) : State × CutAnswer :=
  if tick.toNat < now s + kind.lead then (s, .stale)
  else if kind = .pair ∧ !s.rst.options.paired then (s, .refused)
  else
    let (l, a) := cutAdmit (now s) s.ldg
      { kind := kind, summary := summary && kind == .demand, tick := tick.toNat, tag := tag, id := 0#32, partnerOk := false }
    let s := { s with ldg := l }
    match a with
    | .ok id => (if kind = .pair then deltaAdd s 0x0A (cutBody false 0#8 id tick tag) else s, a)
    | _ => (s, a)

/-- LDG_CUT_REQ_GO: a write of LDG_CUT_REQ (R301). -/
def cutReqWrite (s : State) (v : W64) : State :=
  let s := { s with ldg := { s.ldg with reqSummary := v.getLsbD 1, reqPair := v.getLsbD 2 } }
  if !v.getLsbD 0 then s
  else
    let pair := v.getLsbD 2
    let (s, a) := cutSubmit s (if pair then .pair else .demand) (v.getLsbD 1) s.ldg.reqTick s.ldg.reqTag
    { s with ldg := { s.ldg with
        reqStatus := a.status, reqCutId := match a with | .ok id => id | _ => s.ldg.reqCutId } }

def execLdgCutReqGo (v : W64) (s : State) : Result := .next (cutReqWrite s v)

/-- LDG_CUT_PERIOD_WRITE (R301): the instance of the next tick, where it is one, comes within reach at once (R298). -/
def cutPeriodSet (s : State) (v : W64) : State :=
  { s with ldg := cutAdmitPeriodic (now s) (cutPeriodWrite s.ldg (fieldN v.toNat 0 5) (v.getLsbD 5)) }

def execLdgCutPeriodWrite (v : W64) (s : State) : Result := .next (cutPeriodSet s v)

/-- CUT_COPY_START: the boundary 64 ticks after the freeze (R299 step 3). -/
def cutCopyStart (s : State) : State :=
  match s.ldg.running with
  | some r =>
    if r.freezeTick + 64 ≤ now s then { s with ldg := { s.ldg with running := some { r with started := true } } } else s
  | none => s

def execCutCopyStart (s : State) : Result := .next (cutCopyStart s)

/-- At the boundary that begins tick `t`, the end of the window or later, the record becomes readable, and its event is posted
(R300, R303, R475). -/
def cutReadyAt (s : State) (t : Nat) : State :=
  match s.ldg.running with
  | some r =>
    if r.started ∧ r.freezeTick + cutWindow r.req.summary ≤ t then
      event { s with ldg := cutFinish t s.ldg } .cutReady
        (leBytes 4 r.req.id.toNat ++ leBytes 1 r.buffer ++ zeroBytes 3 ++ leBytes 8 r.req.tick)
    else s
  | none => s

/-- CUT_READY. -/
def cutReady (s : State) : State := cutReadyAt s (now s)

def execCutReady (s : State) : Result := .next (cutReady s)

/-! The sweep and errors. -/

/-- SPILL_SWEEP: one counter of a pass (R286). -/
def execSpillSweep (index : BitVec 22) (s : State) : Result := .next { s with ldg := ldgSpill s.ldg index.toNat }

/-- LEDGER_ECC_ERROR: an uncorrectable error in a slot or a total, whose subject is the counter index, or a corrected one, which is
counted (R308). -/
def ledgerError (s : State) (i : Nat) (part : CounterPart) : State :=
  let subj := BitVec.ofNat 32 i
  match part with
  | .slot0 => raiseAt { s with ldg := slotLost s.ldg i false } .ledgerPartialLost 0x32 subj 2 0
  | .slot1 => raiseAt { s with ldg := slotLost s.ldg i true } .ledgerPartialLost 0x32 subj 2 0
  | .total => raiseAt { s with ldg := totalLost s.ldg i } .ledgerTotalLost 0x32 subj 2 0
  | .corrected => { s with ldg := { s.ldg with eccCorrected := wrapInc s.ldg.eccCorrected } }

def execLedgerEccError (index : BitVec 22) (part : CounterPart) (s : State) : Result :=
  .next (ledgerError s index.toNat part)

/-! The HBM layout (R278, R306). -/

/-- The 16 bytes of a pair of counts. -/
def countBytes (v : W64 × W64) : List Byte := leBytes 8 v.1.toNat ++ leBytes 8 v.2.toNat

/-- The ledger's byte at an address from 0x2_0000_0000 on: totals, cut buffers, cut records. -/
def ledgerByte (l : Ldg) (a : Nat) : Byte :=
  let o := a - 0x200000000
  if o < 0x4000000 then
    let c := tgetD l.ctrs (o / 16) Ctr.zero
    (countBytes (c.totP, c.totB)).getD (o % 16) 0#8
  else if o < 0x14000000 then
    let b := tgetD l.bufs (o / 0x4000000 - 1) CutBuf.empty
    (countBytes (tgetD b.content (o % 0x4000000 / 16) (0#64, 0#64))).getD (o % 16) 0#8
  else
    match (tgetD l.bufs ((o - 0x14000000) / 64) CutBuf.empty).record with
    | some r => (cutRecordBytes r).getD (o % 64) 0#8
    | none => 0#8

/-- What HBM holds at an address, the ledger's ranges among it. -/
def hbmShown (s : State) (a n : Nat) : List Byte :=
  (List.range n).map (fun i =>
    if 0x200000000 ≤ a + i ∧ a + i < 0x214000100 then ledgerByte s.ldg (a + i) else ((hbmRead s (a + i) 1).getD 0 0#8))

/-! Registers. -/

/-- LDG_CONS_REARM with REARM set: VALID and LATER are cleared, and a failure of the same beat makes the new record (R296). -/
def consRearm (s : State) (r : Nat) : State :=
  { s with ldg := { s.ldg with mismatch := tadj s.ldg.mismatch r (fun m =>
      (tget s.ldg.fresh r).getD { m with valid := false, later := 0#16 }) } }

def execLdgConsRearm (rec : Fin 18) (s : State) : Result := .next (consRearm s rec.val)

/-- LDG_RD_IDX_WRITE (R289). -/
def rdIdxWrite (s : State) (r : Requester) (v : W64) : State :=
  let i := fieldN v.toNat 0 22
  let x := ldgValue s.ldg i
  { s with ldg := { s.ldg with
      rdIdx := s.ldg.rdIdx.set r (BitVec.ofNat 22 i), rdPkts := s.ldg.rdPkts.set r x.1
      rdBytes := s.ldg.rdBytes.set r x.2 } }

def execLdgRdIdxWrite (r : Requester) (v : W64) (s : State) : Result := .next (rdIdxWrite s r v)

end Sys2Proof.Machine
end

