-- ==== Sys2Proof/Machine/Collector.lean ====
section
/-!
DEFINITION. The fault collector: taking a report, level and escalation, reactions, the record store, the journal ring,
acknowledgement and recovery (R553-R575).
-/

namespace Sys2Proof

/-- The unit whose checker serves a class and subject (R553, R555). -/
def checkerUnit (cls : FaultClass) (subj : W32) : Nat :=
  match cls.row.subj with
  | .u => subjUnit subj
  | .c => 0x32
  | .h => 0x33
  | .k | .t | .n => 0x00

/-- The slices of an L3 record (R559). -/
def slicesOf (unit : Nat) : List Nat :=
  if 0x10 ≤ unit ∧ unit < 0x20 then [unit - 0x10]
  else if 0x20 ≤ unit ∧ unit < 0x30 then [unit - 0x20]
  else if 0x33 ≤ unit ∧ unit < 0x37 then (List.range 4).map (fun i => (unit - 0x33) * 4 + i)
  else []

def recordClass (r : FaultRecord) : Option FaultClass := FaultClass.ofCode r.cls.toNat

/-- The slices that a record affects; an L4 record affects every one (R556, R559). -/
def recordSlices (r : FaultRecord) : List Nat :=
  if r.level = 4 then List.range 16
  else if r.level = 3 ∧ ((recordClass r).map (fun c => c.row.subj)) = some .u then slicesOf (subjUnit r.subject)
  else []

/-- The record's subject is a port: a macro's unit with a port number (R552). -/
def subjPort (subj : W32) : Option Nat :=
  let u := subjUnit subj
  if 0x10 ≤ u ∧ u < 0x20 ∧ subjSub subj < 512 then some (subjSub subj) else none

/-- An OPEN record at L2 or above that names a port or its macro, or an OPEN L3 or L4 record that affects its slice
(R569). -/
def recordHolds (r : FaultRecord) (n : Nat) : Bool :=
  !r.acked && decide (2 ≤ r.level)
  && ((((recordClass r).map (fun c => c.row.subj)) == some .u && subjUnit r.subject == 0x10 + n / 32
        && (subjSub r.subject == n || subjSub r.subject == wholeUnit))
      || (recordSlices r).contains (n / 32))

/-- SEQ after another: 0xFFFF_FFFF is no SEQ (R564). -/
def seqAfter (q : W32) : W32 := if q + 1#32 = 0xFFFFFFFF#32 then 0#32 else q + 1#32

end Sys2Proof

namespace Sys2Proof.Machine

def fltMod (s : State) (f : Flt → Flt) : State := { s with flt := f s.flt }

/-- A new SEQ. -/
def takeSeq (s : State) : W32 × State :=
  let q := seqAfter s.flt.lastAnySeq
  (q, fltMod s (fun f => { f with lastAnySeq := q }))

/-! The journal ring (R573, R575). -/

def ringSize : Nat := 1024

/-- An entry that finds the ring full: the class of the first lost, the highest level and the span of ticks are kept. -/
def ringLose (s : State) (r : FaultRecord) : State :=
  fltMod s (fun f =>
    { f with
      ringLost := wrapInc f.ringLost
      ringLoss := some (match f.ringLoss with
        | none => { cls := r.cls, level := r.level, firstTick := s.tmb.tick, lastTick := s.tmb.tick, count := 1#32,
                    refSeq := f.lastWrittenSeq }
        | some l => { l with level := max l.level r.level, lastTick := s.tmb.tick, count := wrapInc l.count }) })

/-- A SUMMARY record of what was lost enters the ring before the next record, once there is room. -/
def ringSummary (s : State) : State :=
  match s.flt.ringLoss with
  | none => s
  | some l =>
    if ringSize ≤ s.flt.ring.length then s
    else
      let (q, s) := takeSeq s
      fltMod s (fun f =>
        { f with
          ringLoss := none
          ring := f.ring ++ [{ FaultRecord.blank with
            seq := q, kind := .summary, level := l.level, cls := l.cls, firstTick := l.firstTick, lastTick := l.lastTick,
            count := l.count, bootEpoch := s.rst.epoch, lost := l.count, refSeq := l.refSeq }] })

/-- A record enters the ring, or is lost. -/
def ringPush (s : State) (r : FaultRecord) : State :=
  if ringSize ≤ s.flt.ring.length then ringLose s r else fltMod s (fun f => { f with ring := f.ring ++ [r] })

/-- A RESET record (R564): the record that caused the reset, or none; DETAIL byte 0 is the reset source. -/
def journalReset (s : State) (cause : Option FaultRecord) (source : Nat) : State :=
  let s := ringSummary s
  let (q, s) := takeSeq s
  let c := cause.getD { FaultRecord.blank with count := 1#32 }
  ringPush s { FaultRecord.blank with
    seq := q, kind := .reset, level := c.level, cls := c.cls, subject := c.subject, count := c.count, capture := c.capture,
    bootEpoch := s.rst.epoch, detail := BitVec.ofNat 256 source }

/-! Reactions (R556-R561). -/

/-- Vector 0 of PF0 on each endpoint. -/
def faultInterrupt (s : State) : State := msix (msix s (pf0Of 0) 0) (pf0Of 1) 0

/-- FLT_N is driven low from 4 beats on, for 16,000 beats (R567). -/
def fltPulse (s : State) : State :=
  let e := nowBeats s + 4 + 16000
  fltMod s (fun f =>
    { f with
      pulses := if f.pulseEnd.isSome then f.pulses else wrapInc f.pulses, pulseEnd := some (e / 1600, e % 1600)
      pulseFrom := if f.pulseEnd.isSome then f.pulseFrom else nowBeats s + 4 })

/-- A pulse drives FLT_N low. -/
def fltPulsing (s : State) : Bool := s.flt.pulseEnd.isSome && decide (s.flt.pulseFrom ≤ nowBeats s)

/-- The pin FLT_N is driven low: by a pulse, by FLT_N_LEVEL outside pulses, and under R558 until reset (R567). -/
def fltNLow (s : State) : Bool := s.flt.holdLow || fltPulsing s || !s.flt.fltNLevel

/-- Mapped ports of a slice. -/
def slicePorts (s : State) (k : Nat) : List Nat := portsOf s k

/-- The squelch begins (R273): no new frame starts on the ports of the slices, and a frame in transmission ends with
inverted FCS. -/
def squelchNow (s : State) (slices : List Nat) (device : Bool) : State :=
  let s := (slices.flatMap (slicePorts s)).foldl (fun s n =>
    schPortMod (txCut s n .safeState) n (fun p => { p with squelched := true })) s
  { s with sch := { s.sch with squelches := s.sch.squelches ++ [{ slices := slices, device := device, tick := now s }] } }

/-- The takeover request of a record of L3 or above (R535, R559): the active side of ACTIVE_STANDBY plans a SWAP, once; in
ACTIVE_ACTIVE no state changes; a standby, solo or unpaired device leaves it unanswered. -/
def takeoverRequest (s : State) : State × TakeoverReq :=
  if s.mir.pair.mode = 0 ∨ s.mir.state ≠ .active then (s, .unanswered)
  else if s.mir.pair.mode = 2 && !planned s .swap then
    let b := now s + 2
    let plan : PlanDue := { kind := .swap, version := 0, tick := b, remote := false }
    if s.mir.syncActive then ({ s with mir := { s.mir with swapDue := true } }, .requested)
    else
      (deltaAdd { s with mir := { s.mir with plans := s.mir.plans ++ [plan] } } 0x04
        (leBytes 1 3 ++ leBytes 1 0 ++ zeroBytes 6 ++ leBytes 8 b), .requested)
  else (s, .requested)

/-- The reactions of a level that act at once; containment waits for the next boundary (R560). -/
def react (s : State) (cls : FaultClass) (subj : W32) (lvl : Nat) : State × TakeoverReq :=
  let s := if 1 ≤ lvl ∧ s.flt.irqLevel.toNat ≤ lvl then faultInterrupt s else s
  let s := if 2 ≤ lvl then
      fltMod (fltPulse s) (fun f => { f with contain := f.contain ++ [{ cls := cls, subj := subj, level := lvl }] })
    else s
  if lvl < 3 then (s, .notRequested)
  else
    let slices := if lvl = 4 then List.range 16
      else if cls.row.subj = .u then slicesOf (subjUnit subj) else []
    let s := if slices.isEmpty then s else squelchNow s slices (lvl == 4)
    takeoverRequest s

/-! Taking a report (R562, R563). -/

/-- In-service injection is kept apart (R562). -/
def countsFor (s : State) (injected : Bool) : Bool := s.rst.testMode || !injected

/-- The level of a new record. -/
def newLevel (s : State) (r : Report) : Nat :=
  let base := raisedLevel s.flt.overrides r.cls r.level
  if escalates s.flt.overrides r.cls && countsFor s r.cap.injected then
    let rs := (openRecords s.flt.store).filter (fun x => x.cls.toNat == r.cls.code && countsFor s x.injected)
    if rs.isEmpty then base else min 4 (max base (maxOf (rs.map (fun x => x.level)) + 1))
  else base

/-- A report of a class and subject that has an OPEN record only counts. -/
def mergeReport (s : State) (i : Nat) (r : Report) : State :=
  let s := fltMod s (fun f => { f with store := tadj f.store i (fun x =>
    { x with count := satInc x.count, lastTick := s.tmb.tick }) })
  domainReport s (BitVec.ofNat 16 r.cls.code) ((tget s.flt.store i).map (fun x => x.level) |>.getD 0) r.subj

/-- A record opens: reactions, place, event, journal and domain report. -/
def openReport (s : State) (r : Report) : State :=
  let lvl := newLevel s r
  let esc := decide (raisedLevel s.flt.overrides r.cls r.level < lvl)
  let (s, take) := react s r.cls r.subj lvl
  let journal := decide (s.flt.journalLevel.toNat ≤ lvl) || r.cls.isAlarm
  let s := if journal then ringSummary s else s
  let (q, s) := takeSeq s
  let place := storePlace s.flt.store
  let x : FaultRecord := { FaultRecord.blank with
    seq := q, level := lvl, escalated := esc, injected := r.cap.injected, forced := r.forced,
    cls := BitVec.ofNat 16 r.cls.code, index := BitVec.ofNat 8 (place.getD 0xFF), takeover := take, subject := r.subj,
    firstTick := s.tmb.tick, lastTick := s.tmb.tick, count := 1#32, bootEpoch := s.rst.epoch, capture := r.cap,
    detail := r.detail, journaled := journal && decide (s.flt.ring.length < ringSize) }
  let s := fltMod s (fun f => match place with
    | some i => { f with store := tset f.store i x, lastOpenSeq := q }
    | none => { f with dropped := wrapInc f.dropped, lastOpenSeq := q })
  let s := if 1 ≤ lvl then event s .fault (FaultRecord.event (if esc then 1 else 0) x) else s
  let s := if journal then ringPush s x else s
  let s := if lvl = 4 ∧ s.flt.l4Action then
      let e := nowBeats s + 100000 * 1600
      fltMod s (fun f => { f with resetDue := if f.resetDue.isSome then f.resetDue else some (q, e / 1600, e % 1600) })
    else s
  domainReport s x.cls lvl r.subj

/-- One report taken. -/
def takeReport (s : State) (r : Report) : State :=
  match openRecord s.flt.store r.cls.code r.subj with
  | some i => mergeReport s i r
  | none => openReport s r

/-- The order in which the collector takes the reports of one beat: unit id, sub-unit, checker. -/
def reportKey (r : Report) : Nat :=
  checkerUnit r.cls r.subj * 2 ^ 32 + (if r.cls.row.subj = .u then subjSub r.subj else 0) * 2 ^ 16 + r.cap.checker.toNat

/-- The report to take: of the earliest beat, the first of that order. -/
def firstReport (rs : List Report) : Option Report :=
  rs.foldl (fun best r => match best with
    | none => some r
    | some b => if r.since < b.since || (r.since == b.since && reportKey r < reportKey b) then some r else best) none

/-- FAULT_REPORT: a report given, or the next of those detected. -/
def faultReport (s : State) (report : Option Report) : State :=
  match report with
  | some r => takeReport s r
  | none =>
    match firstReport s.flt.inbox with
    | some r => takeReport (fltMod s (fun f => { f with inbox := f.inbox.erase r })) r
    | none => s

/-! Acknowledgement and recovery (R568, R569). -/

/-- The parameters of FAULT_ACK, and whether a reserved bit is set. -/
structure AckParams where
  index : Nat
  recover : Bool
  rearm : Bool
  all : Bool
  seq : W32
  bad : Bool
  deriving DecidableEq, Repr

/-- The record at a place, where its SEQ is the one named. -/
def ackNamed (s : State) (a : AckParams) : List (Nat × FaultRecord) :=
  if a.all then s.flt.store.filter (fun e => !e.2.acked)
  else s.flt.store.filter (fun e => e.1 == a.index && e.2.seq == a.seq)

/-- A die sensor stands above 105 °C. -/
def sensorsHot (s : State) : Bool := s.flt.sensors.any (fun e => decide (105 < e.2.toInt))

/-- A record whose cause forbids recovery (R568). -/
def ackRefuses (s : State) (r : FaultRecord) : Bool :=
  match recordClass r with
  | some .clockLockLoss => s.rst.unlocked.contains (r.detail.toNat % 256)
  | some .junctionCritical => sensorsHot s
  | _ => false

/-- The checker of a record's capture is rearmed, and for LEDGER_CONSERVATION the unit's mismatch record (R555, R296). -/
def rearm (s : State) (r : FaultRecord) : State :=
  match recordClass r with
  | none => s
  | some c =>
    let key := checkerUnit c r.subject * 65536 + r.capture.checker.toNat
    let s := if r.capture.valid then
        fltMod s (fun f => { f with checkers := tadj f.checkers key (fun x => { x with valid := false, count := 0#16 }) })
      else s
    if c = .ledgerConservation then
      let u := subjUnit r.subject
      consRearm s (if u = 0x0A then 16 else if u = 0x32 then 17 else u - 0x20)
    else s

/-- One record acknowledged: its state, its event, its ACK record. -/
def ackOne (s : State) (e : Nat × FaultRecord) : State :=
  let r := { e.2 with acked := true }
  let s := fltMod s (fun f => { f with store := tset f.store e.1 r })
  let s := if 1 ≤ r.level then event s .fault (FaultRecord.event 2 r) else s
  if !r.journaled then s
  else
    let s := ringSummary s
    let (q, s) := takeSeq s
    ringPush s { r with kind := .ack, seq := q, refSeq := e.2.seq, bootEpoch := s.rst.epoch, lost := 0#32, writeTick := 0#64 }

/-- A port leaves containment or SAFE at the next boundary (R569). -/
def portRecovers (s : State) (n : Nat) (p : Port) : Bool :=
  (p.state == .safe || (p.contained && p.state == .adminDown && p.drain.isNone))
  && !(s.flt.store.any (fun e => recordHolds e.2 n)) && !s.flt.holdLow

/-- The squelched slices that an OPEN record still requires, and whether one requires DEVICE_SAFE. -/
def slicesRequired (s : State) : List Nat := (openRecords s.flt.store).flatMap recordSlices
def deviceSafeRequired (s : State) : Bool := (openRecords s.flt.store).any (fun r => r.level == 4)

/-- RECOVER would start an action. -/
def recoverActs (s : State) : Bool :=
  s.lnm.ports.any (fun e => portRecovers s e.1 e.2)
  || (List.range 16).any (fun k => s.sch.squelchedSlices.getLsbD k && !((slicesRequired s).contains k))
  || (s.sch.deviceSafe && !deviceSafeRequired s) || (s.mir.leaving && !deviceSafeRequired s)

/-- FAULT_ACK: the status, how many records became ACKED, and whether RECOVER started an action. DEDUCED: REARM acts for the records
that become ACKED (log entry 177). -/
def faultAck (s : State) (a : AckParams) : State × Byte × Nat × Bool :=
  let named := ackNamed s a
  if a.bad then (s, 0x01#8, 0, false)
  else if !a.all && named.isEmpty then (s, 0x07#8, 0, false)
  else if a.recover && named.any (fun e => ackRefuses s e.2) then (s, 0x04#8, 0, false)
  else
    let fresh := named.filter (fun e => !e.2.acked)
    let s := fresh.foldl ackOne s
    let s := if a.rearm then fresh.foldl (fun s e => rearm s e.2) s else s
    let acts := a.recover && recoverActs s
    (if a.recover then fltMod s (fun f => { f with recover := true }) else s, 0x00#8, fresh.length, acts)

/-- The recovery of a boundary (R569). -/
def recoverAt (s : State) : State :=
  if !s.flt.recover then s
  else
    let s := fltMod s (fun f => { f with recover := false })
    let back := (s.lnm.ports.filter (fun e => portRecovers s e.1 e.2)).map (·.1)
    let s := back.foldl (fun s n => schPortMod (portMod s n toTraining) n (fun p => { p with squelched := false })) s
    let off := s.lnm.ports.filter (fun e => e.2.state == .offline && !s.flt.holdLow && !(s.flt.store.any (fun r => recordHolds r.2 e.1)))
    let s := off.foldl (fun s e => schPortMod s e.1 (fun p => { p with squelched := false })) s
    let keep := slicesRequired s
    let safe := s.sch.deviceSafe && deviceSafeRequired s
    let mask := (List.range 16).foldl (fun (a : Nat) k =>
      if s.sch.squelchedSlices.getLsbD k && keep.contains k then a + 2 ^ k else a) 0
    { s with
      sch := { s.sch with squelchedSlices := BitVec.ofNat 16 mask, deviceSafe := safe, hostStopped := s.sch.hostStopped && safe }
      mir := { s.mir with leaving := s.mir.leaving && (safe || s.mir.state != .stale) } }

/-! The squelch at the boundaries after a reaction (R273). -/

/-- A port enters SAFE, also while its macro drains (R174, R273). A port whose macro is off stays OFFLINE. -/
def portSafe (macroDrains : Bool) (p : Port) : Port :=
  if p.state = .offline && !macroDrains then p
  else { p with state := .safe, admitting := false, dist := false, linkLoss := false, drain := none, due := none, txCond := .localFault }

def portEntersSafe (s : State) (n : Nat) : State :=
  portMod s n (portSafe ((macroOf s (macroOfPort n)).state == .draining))

/-- One squelch at the boundary that begins tick `t`: SAFE from the first, crumbs dropped at the second. -/
def squelchStep (s : State) (q : Squelch) : State :=
  let t := now s
  let ports := q.slices.flatMap (slicePorts s)
  if t ≤ q.tick then s
  else
    let s := ports.foldl portEntersSafe s
    let bits := q.slices.foldl (fun (m : W16) k => m ||| BitVec.ofNat 16 (2 ^ k)) 0#16
    let s := { s with sch := { s.sch with
      squelchedSlices := s.sch.squelchedSlices ||| bits, deviceSafe := s.sch.deviceSafe || q.device,
      hostStopped := s.sch.hostStopped || q.device } }
    if t ≤ q.tick + 1 then s
    else
      let s := ports.foldl (fun s n => dropAllQueued s n .safeState) s
      { s with sch := { s.sch with squelches := s.sch.squelches.erase q } }

def squelchBoundary (s : State) : State := s.sch.squelches.foldl squelchStep s

/-! The journal in NVM (R572-R574). -/

/-- The journal region of the option bytes: device, first byte, sectors. -/
def journalDev (s : State) : Bool := s.rst.options.journal.getLsbD 0
def journalBase (s : State) : Nat := fieldN s.rst.options.journal.toNat 2 13 * 65536
def journalSectors (s : State) : Nat := fieldN s.rst.options.journal.toNat 15 13
def journalPlaces (s : State) : Nat := (journalSectors s - 2) * 512

/-- Bytes written to an NVM device. -/
def nvmPut (s : State) (second : Bool) (a : Nat) (bs : List Byte) : State :=
  if second then { s with board := { s.board with nvm1 := putBytes 0xFF#8 s.board.nvm1 a bs } }
  else { s with board := { s.board with nvm0 := putBytes 0xFF#8 s.board.nvm0 a bs } }

def nvmGet (s : State) (second : Bool) (a n : Nat) : List Byte :=
  (List.range n).map (fun i => tgetD (if second then s.board.nvm1 else s.board.nvm0) (a + i) 0xFF#8)

/-- Every byte of a range erased. -/
def nvmErase (s : State) (second : Bool) (a n : Nat) : State :=
  let out := fun (t : Tbl Byte) => tfilter t (fun k _ => decide (k < a) || decide (a + n ≤ k))
  if second then { s with board := { s.board with nvm1 := out s.board.nvm1 } }
  else { s with board := { s.board with nvm0 := out s.board.nvm0 } }

/-- The NVM clock domain runs (R557) and a journal region exists. -/
def journalOpen (s : State) : Bool := !(s.rst.unlocked.contains 36) && decide (16 ≤ journalSectors s)

/-- JOURNAL_WRITE: the oldest entry of the ring, with its WRITE_TICK; entering a sector starts the erase of the next, and
a sector whose erase is not complete is not entered. -/
def journalWrite (s : State) : State :=
  match s.flt.ring with
  | [] => s
  | r :: rest =>
    if !journalOpen s || (s.flt.erasing && s.flt.nextPlace % 512 == 0) then s
    else
      let r := { r with writeTick := s.tmb.tick }
      let p := s.flt.nextPlace
      let s := nvmPut s (journalDev s) (journalBase s + 131072 + p * 128) r.bytes
      fltMod s (fun f =>
        { f with
          resetDue := f.resetDue.map (fun d => if d.1 = r.seq then (d.1, now s, s.tmb.beat) else d)
          ring := rest, lastWrittenSeq := r.seq, nextPlace := (p + 1) % journalPlaces s
          erasing := f.erasing || p % 512 == 0
          store := tmap f.store (fun _ x => if x.seq = r.seq then { x with writeTick := s.tmb.tick } else x) })

def execJournalWrite (s : State) : Result := .next (journalWrite s)

/-- JOURNAL_ERASE_DONE: the sector after the one being written is blank. -/
def journalEraseDone (s : State) : State :=
  if !s.flt.erasing || journalPlaces s = 0 then s
  else
    let last := (s.flt.nextPlace + journalPlaces s - 1) % journalPlaces s
    let next := (last / 512 + 1) % (journalSectors s - 2)
    nvmErase (fltMod s (fun f => { f with erasing := false })) (journalDev s) (journalBase s + 131072 + next * 65536) 65536

def execJournalEraseDone (s : State) : Result := .next (journalEraseDone s)

end Sys2Proof.Machine
end

