-- ==== Sys2Proof/Machine/BatchOps.lean ====
section
/-!
DEFINITION. Batches of engine threads: channels with their state, pending work, dispatch, staged effects, discard and
thread faults (R78-R83, R339-R356).
-/

namespace Sys2Proof

/-- The beat of issue slot `i` of thread `t` (R65). -/
def slotBeat (t i : Nat) : Nat := (8 * i + t) * 4 / 5

/-- The rows and pages of a slot table (R66): the entries of a row in the current page. -/
def SlotTable.bank (x : SlotTable) : Bank := if x.active1 then x.bank1 else x.bank0
def SlotTable.row (x : SlotTable) (row : Nat) : List W64 := tgetD (x.bank.pages.getD x.page []) row []

/-! Fields of a slot entry (R67). -/

def entryStart (w : W64) : Nat := fieldN w.toNat 0 12
def entryLength (w : W64) : Nat := fieldN w.toNat 12 12
def entryChannel (w : W64) : Nat := fieldN w.toNat 24 24
def entryDefer (w : W64) : Bool := bitN w.toNat 48
def entryKind (w : W64) : Nat := fieldN w.toNat 62 2

/-- The entries of a bank that are not EMPTY, each with its row. -/
def Bank.entries (b : Bank) : List (Nat × W64) :=
  b.pages.flatMap (fun p => p.flatMap (fun r => (r.2.filter (fun w => entryKind w != 0)).map (fun w => (r.1, w))))

/-- The unit that serves what `home` served at load, by the migrations in force (R85). -/
def currentUnit (ms : List Move) (home : Nat) : Nat :=
  match ms.find? (fun m => m.lost == home) with
  | some m => m.spare
  | none => home

/-- The next of some ascending ids after the one served last, round-robin (R71). -/
def roundRobin (last : Option Nat) (ids : List Nat) : Option Nat :=
  match last with
  | none => ids.head?
  | some l => match ids.find? (fun i => decide (l < i)) with
    | some i => some i
    | none => ids.head?

end Sys2Proof

namespace Sys2Proof.Machine

/-! Engines and threads. -/

def threadOf (s : State) (e t : Nat) : Thread := tgetD s.eng.threads (8 * e + t) Thread.reset
def threadMod (s : State) (e t : Nat) (f : Thread → Thread) : State :=
  { s with eng := { s.eng with threads := tmod Thread.reset s.eng.threads (8 * e + t) f } }
def engineOf (s : State) (e : Nat) : Engine := tgetD s.eng.engines e Engine.reset
def engineMod (s : State) (e : Nat) (f : Engine → Engine) : State :=
  { s with eng := { s.eng with engines := tmod Engine.reset s.eng.engines e f } }

def batchOf (s : State) (e t : Nat) : Option Batch := (threadOf s e t).batch
def batchPut (s : State) (e t : Nat) (b : Option Batch) : State := threadMod s e t (fun x => { x with batch := b })

def sltEngMod (s : State) (f : SlotTable → SlotTable) : State := { s with sltEng := f s.sltEng }

/-- An engine whose loss takes effect at the next boundary has stopped (R355); the slots of one whose migration a boundary has
put off stay idle (R86). -/
def engineStopped (s : State) (e : Nat) : Bool :=
  s.sltEng.due.any (fun d => d.1 == e && d.2 == .lost) || s.sltEng.held.contains e

/-- Some batch of the channel has not ended its release (R74). -/
def inFlight (s : State) (ch : Nat) : Bool :=
  s.eng.threads.any (fun x => (x.2.batch.map (fun b => b.channel == ch)).getD false)

/-! A channel's FIFO; the control thread's is its cluster's (R348, R354). -/

def isControl (ch : Nat) : Bool := decide (0x1000000 ≤ ch)

def fifoOf (s : State) (ch : Nat) : List Nat :=
  if isControl ch then (clusterOf s (ch - 0x1000000)).controlFifo else ((channelOf s ch).map (·.fifo)).getD []

def fifoSet (s : State) (ch : Nat) (l : List Nat) : State :=
  if isControl ch then clusterMod s (ch - 0x1000000) (fun c => { c with controlFifo := l })
  else channelMod s ch (fun c => { c with fifo := l })

/-- A packet of a FIFO is pending for a slot that begins at beat `first`: its hand-off of 64 beats has ended (R93, R345). -/
def packetReady (s : State) (first id : Nat) : Bool :=
  match s.eng.handed.find? (fun x => x.1 == id) with
  | some x => decide (x.2 ≤ first)
  | none => true

/-- A channel's wake, and its cipher results, count for a slot that begins at beat `first` (R345). -/
def wakeReady (c : Channel) (first : Nat) : Bool := c.wake && decide (c.wakeAt < first)
def cipherReady (c : Channel) (first : Nat) : Bool := c.cipher && decide (c.cipherAt < first)

/-- A channel is pending for a slot whose first issue slot is at beat `first` (R345). -/
def channelPending (s : State) (first ch : Nat) : Bool :=
  match channelOf s ch with
  | none => false
  | some c =>
    !c.unserved && !shadowIdle s ch
    && ((fifoOf s ch).any (packetReady s first) || c.inbox.any (fun m => decide (m.since < first)) || cipherReady c first
        || wakeReady c first)

/-! A channel's state record (R339, R342): in PROGRAM_AREA of the thread that serves it now, or in shared memory. -/

def channelEngine (s : State) (b : Binding) : Nat := currentUnit s.sltEng.moves b.engine

def sharedGet (s : State) (c a : Nat) : W48 := tgetD (clusterOf s c).shared a 0#48
def sharedSet (s : State) (c a : Nat) (v : W48) : State :=
  clusterMod s c (fun k => { k with shared := tput 0#48 k.shared a v })
def areaSet (s : State) (e t a : Nat) (v : W48) : State :=
  threadMod s e t (fun x => { x with area := tput 0#48 x.area a v })

def stateGet (s : State) (b : Binding) (i : Nat) : W48 :=
  if b.pooled then sharedGet s b.cluster (b.stateAddr + i)
  else tgetD (threadOf s (channelEngine s b) b.thread).area (b.stateAddr + i) 0#48

def stateSet (s : State) (b : Binding) (i : Nat) (v : W48) : State :=
  if b.pooled then sharedSet s b.cluster (b.stateAddr + i) v
  else areaSet s (channelEngine s b) b.thread (b.stateAddr + i) v

def stateSetAll (s : State) (b : Binding) : Nat → List W48 → State
  | _, [] => s
  | i, w :: ws => stateSetAll (stateSet s b i w) b (i + 1) ws

/-- Words of shared memory that the dispatch of a channel reads: a pooled channel's record (R346). -/
def recordWords (b : Binding) : List Nat := if b.pooled then (List.range b.stateWords).map (b.stateAddr + ·) else []

/-- Words of an inbox in shared memory (R353): word `a` of the inbox region of cluster `c`. -/
def inboxWord (s : State) (c a : Nat) : W48 :=
  match s.eng.channels.find? (fun e => e.2.bind.cluster == c && e.2.bind.inbox == some (a / 64)) with
  | none => 0#48
  | some (_, ch) =>
    match ch.inbox[a % 64 / 8]? with
    | none => 0#48
    | some m =>
      match a % 8 with
      | 0 => pack 48 [put m.source 0 24, put m.tag.toNat 24 16, put m.payload.length 40 3]
      | 7 => m.tick
      | i => m.payload.getD (i - 1) 0#48

/-- The slots of a channel are idle for a migration: the engine that serves it copies, or its migration is put off (R86, R360). Of
a pooled channel, every engine with an entry of its pool in the current bank does (DEDUCED, log entry 166). -/
def channelIdle (s : State) (ch : Nat) : Bool :=
  let idle := fun (e : Nat) => decide (now s < (engineOf s e).idleUntil) || s.sltEng.held.contains e
  match channelOf s ch with
  | some c =>
    if c.bind.pooled then
      let rows := s.sltEng.bank.entries.filter (fun x => entryKind x.2 == 2 && entryChannel x.2 == c.bind.pool)
      !rows.isEmpty && rows.all (fun x => idle (x.1 / 8))
    else idle (channelEngine s c.bind)
  | none => false

/-! Dispatch (R346, R347). -/

/-- The thread whose timer a channel has armed: the one that serves it where that one's is, else the first (log entry 166). -/
def armedThread (s : State) (e t ch : Nat) : Option Thread :=
  let mine := fun (x : Thread) => x.timerArmed && x.timerChannel == ch
  if mine (threadOf s e t) then some (threadOf s e t) else (s.eng.threads.find? (fun x => mine x.2)).map (·.2)

/-- The beat of an issue slot of a thread in the present tick. -/
def slotFirst (s : State) (t start : Nat) : Nat := now s * 1600 + slotBeat t start

/-- The fields of CTX. -/
def ctxWords (s : State) (e t start length : Nat) (pool : Bool) (c : Channel) : List W48 :=
  let ch := c.bind.channel
  let first := slotFirst s t start
  let n := ((fifoOf s ch).filter (packetReady s first)).length
  let timer := armedThread s e t ch
  [pack 48 [put (min ch 0xFFFFFF) 0 24, put c.bind.program 24 16, putB pool 40, putB (c.migrated.contains e) 41, putB c.restarted 42],
   BitVec.ofNat 48 (now s),
   pack 48 [put (slotBeat t start) 0 11, put length 11 8],
   pack 48 [putB (decide (0 < n)) 0, putB (!c.inbox.isEmpty) 1, putB (cipherReady c first) 2, putB (wakeReady c first) 3,
            putB (wakeReady c first && c.wakeEarly) 4,
            put (min n 255) 8 8, put c.inbox.length 16 4, put c.kept.length 20 7],
   pack 48 [put c.sendFailed 0 8, put c.failTag.toNat 8 16, put c.failStatus 24 8],
   pack 48 [put e 0 7, put t 7 3, put c.bind.cluster 10 3, put (if c.bind.pooled then 16 else c.bind.stateAddr) 13 20],
   (timer.map (·.timerTick)).getD 0#48,
   BitVec.ofNat 48 ((timer.map (·.timerBeat)).getD 0)] ++ List.replicate 8 0#48

/-- The batch of a channel that a slot begins. The wake, cipher and first-batch marks go to it; a discard gives them back. -/
def batchBegin (s : State) (e t start length : Nat) (pool : Bool) (ch : Nat) : State :=
  match channelOf s ch with
  | none => s
  | some c =>
    match tget (clusterOf s (e / 12)).programs c.bind.program with
    | none => s
    | some p =>
      let remote := e / 12 != c.bind.cluster
      let b : Batch :=
        { channel := ch, program := c.bind.program, entry := p.entry, length := p.length, cluster := c.bind.cluster,
          remote := remote, pooled := c.bind.pooled, slotStart := start, slotLen := length,
          regs := List.replicate 32 0#48, pc := p.entry, slot := start + (if remote then 2 else 1), loops := [],
          version := s.dec.current, ctx := ctxWords s e t start length pool c,
          window := if c.bind.pooled then (List.range c.bind.stateWords).map (stateGet s c.bind) else [], localW := [],
          sharedW := [], nLocal := 0, nShared := 0, tables := [], adds := [], lookups := [], csubs := [], sends := [],
          arm := none, handles := [], taken := [], packets := [], emits := 0, emitFails := 0, msgs := 0, read := recordWords c.bind,
          doomed := !c.retryAreas.isEmpty, committed := none }
      channelMod (batchPut s e t (some b)) ch (fun c =>
        { c with wake := c.wake && !wakeReady c (slotFirst s t start), wakeEarly := c.wakeEarly && !wakeReady c (slotFirst s t start),
                 cipher := c.cipher && !cipherReady c (slotFirst s t start), migrated := c.migrated.filter (· ≠ e),
                 restarted := false, sendFailed := 0, failTag := 0#16, failStatus := 0 })

/-! Discard (R80, R81). -/

/-- A packet of a discarded or ended batch goes back to where it was taken from. -/
def packetBack (s : State) (ch : Nat) (x : Nat × Option Nat) : State :=
  match x.2 with
  | some k => pktMod s x.1 (fun p => { p with stage := .kept ch k })
  | none =>
    let s := pktMod s x.1 (fun p => { p with stage := if isControl ch then .control else .engine ch })
    fifoSet s ch (x.1 :: fifoOf s ch)

/-- Packets go back in taken order. -/
def packetsBack (s : State) (ch : Nat) (xs : List (Nat × Option Nat)) : State :=
  xs.reverse.foldl (fun s x => packetBack s ch x) s

/-- The batch of a thread is discarded before its commit point: nothing of it is released, and its channel's pending
work and marks stand as before it, with what came since. A batch discarded for a failed slab unit counts in the slab's table, any
other in the engines' (R77, R81; DEDUCED, log entry 132). -/
def batchDiscard (s : State) (e t : Nat) : State :=
  match batchOf s e t with
  | none => s
  | some b =>
    if b.committed.isSome then s
    else
      let s := packetsBack (batchPut s e t none) b.channel b.taken
      let w0 := (b.ctx.getD 0 0#48).toNat
      let w3 := (b.ctx.getD 3 0#48).toNat
      let w4 := (b.ctx.getD 4 0#48).toNat
      let s := channelMod s b.channel (fun c =>
        { c with wake := c.wake || bitN w3 3, wakeEarly := c.wakeEarly || bitN w3 4, cipher := c.cipher || bitN w3 2,
                 wakeAt := if bitN w3 3 then 0 else c.wakeAt, cipherAt := if bitN w3 2 then 0 else c.cipherAt,
                 migrated := c.migrated ++ (if bitN w0 41 then [e] else []), restarted := c.restarted || bitN w0 42,
                 sendFailed := min 255 (c.sendFailed + fieldN w4 0 8),
                 failTag := if fieldN w4 0 8 ≠ 0 then BitVec.ofNat 16 (w4 / 2 ^ 8) else c.failTag,
                 failStatus := if fieldN w4 0 8 ≠ 0 then fieldN w4 24 8 else c.failStatus })
      let count := fun (x : SlotTable) => { x with replayCount := wrapInc x.replayCount }
      if b.doomed then { s with sltCph := count s.sltCph } else sltEngMod s count

/-- The dispatch of a channel in a slot. The batch of a pooled channel whose record holds a lost word has read it with POOL_WINDOW,
and is discarded (R357, R362). -/
def dispatch (s : State) (e t start length : Nat) (pool : Bool) (ch : Nat) : State :=
  let u := batchBegin s e t start length pool ch
  if (batchOf u e t).any (fun b => b.read.any (clusterOf s b.cluster).lost.contains) then batchDiscard u e t else u

/-! Thread faults (R355, R83). -/

/-- An engine is lost at the next boundary; a test that waited for that boundary waits on. -/
def engineLose (s : State) (e : Nat) : State :=
  sltEngMod s (fun x => { x with due := x.due.filter (fun d => d.1 ≠ e) ++ [(e, .lost)] })

/-- The eight threads of an engine stop; uncommitted batches are discarded, and the engine is lost. -/
def engineStop (s : State) (e t cause : Nat) (cls : FaultClass) (detail : Nat) : State :=
  if (engineOf s e).state ≠ .inService || engineStopped s e then s
  else
    let b := batchOf s e t
    let s := (List.range 8).foldl (fun s i => batchDiscard s e i) s
    let s := engineMod s e (fun x =>
      { x with lastCause := cause, lastThread := t, faults := wrapInc x.faults,
               faultPc := (b.map (·.pc)).getD 0, faultProgram := BitVec.ofNat 16 ((b.map (·.program)).getD 0),
               faultTick := BitVec.ofNat 32 (now s) })
    engineLose (raiseDetail s cls (0x40 + e) t detail) e

def threadFault (s : State) (e t cause : Nat) : State := engineStop s e t cause .engineThreadFault cause

/-! Sends (R353). -/

/-- A send to a channel: the state, and OK, REJECTED or ABORTED. A message to a channel whose slots are idle for a migration is held
(R360, R362). -/
def sendChannel (s : State) (source target : Nat) (tag : W16) (payload : List W48) : State × Nat :=
  match channelOf s target with
  | none => (s, 2)
  | some c =>
    if c.bind.inbox.isNone || isControl target then (s, 2)
    else if 8 ≤ c.inbox.length + c.held.length then (s, 8)
    else
      let m : Msg := { source := source, tag := tag, payload := payload, tick := BitVec.ofNat 48 (now s), since := nowBeats s }
      (channelMod s target (fun c =>
        if channelIdle s target then { c with held := c.held ++ [m] } else { c with inbox := c.inbox ++ [m] }), 0)

/-- Messages held for a migration are delivered when its copy ends (R360). -/
def heldDeliver (s : State) : State :=
  { s with eng := { s.eng with channels := tmap s.eng.channels (fun ch c =>
      if c.held.isEmpty || channelIdle s ch then c else { c with inbox := c.inbox ++ c.held, held := [] }) } }

/-- A send released by a batch. -/
def sendRelease (s : State) (source : Nat) (x : SendEffect) : State × Nat :=
  let src := min source 0xFFFFFF
  if x.target = 0xFFFFFF then
    if 1024 ≤ s.eng.supQueue.length then (s, 8)
    else
      let m : Msg := { source := src, tag := x.tag, payload := x.payload, tick := BitVec.ofNat 48 (now s), since := nowBeats s }
      ({ s with eng := { s.eng with supQueue := s.eng.supQueue ++ [m] } }, 0)
  else sendChannel s src x.target x.tag x.payload

/-! Timers (R351). -/

/-- A channel is woken. -/
def channelWake (s : State) (ch : Nat) (early : Bool) : State :=
  channelMod s ch (fun c =>
    { c with wake := true, wakeEarly := c.wakeEarly || early, wakeAt := if c.wake then c.wakeAt else nowBeats s })

/-- An arm takes effect: it replaces the earlier one, whose channel is woken when it is another. -/
def timerArm (s : State) (e t ch : Nat) (a : ArmEffect) : State :=
  let x := threadOf s e t
  let s := if x.timerArmed && x.timerChannel != ch then channelWake s x.timerChannel true else s
  threadMod s e t (fun x => { x with timerTick := a.tick, timerBeat := a.beat, timerArmed := true, timerChannel := ch })

/-- The compare of a thread is reached: a compare more than 2^47 ticks ahead, modulo 2^48, is past (R379). -/
def timerDue (s : State) (x : Thread) : Bool :=
  let d := (x.timerTick - BitVec.ofNat 48 (now s)).toNat
  x.timerArmed && (decide (2 ^ 47 < d) || (d == 0 && decide (x.timerBeat ≤ s.tmb.beat)))

/-! Ends of packets held by a channel (R344, R357, R90). -/

def dropAll (s : State) (ids : List Nat) (r : DropReason) : State := ids.foldl (fun s id => dropPkt s id r) s

/-- The channel's pending and kept packets are dropped under ENGINE_LOST; those of a control thread wait in its cluster's control
FIFO (R354). -/
def channelDrop (s : State) (ch : Nat) : State :=
  match channelOf s ch with
  | none => s
  | some c =>
    let s := dropAll s (fifoOf s ch ++ c.kept.map (·.2)) .engineLost
    channelMod (fifoSet s ch []) ch (fun c => { c with kept := [] })

/-- A channel restarts from its initial record (R90, R357). Its inbox is emptied where its words were lost. -/
def channelRestart (s : State) (ch : Nat) : State :=
  match channelOf s ch with
  | none => s
  | some c =>
    let s := channelDrop s ch
    let init := tgetD (clusterOf s c.bind.cluster).initState (min ch 0xFFFFFF) []
    let s := stateSetAll s c.bind 0 (init ++ List.replicate (c.bind.stateWords - init.length) 0#48)
    channelMod s ch (fun c => { c with restarted := true, retryAreas := [] })

end Sys2Proof.Machine
end

