-- ==== Sys2Proof/Machine/Proof.lean ====
section
/-!
DEFINITION. Proofing (R68, R70, R73, R74, R87, R109, R121-R125, R130, R343, R384): the configuration under proof, the
worst-case slots of a program, the checks in code order, and the result record.
-/

namespace Sys2Proof

/-! Worst-case slots (R384). -/

def opOf (w : W48) : Nat := w.toNat / 2 ^ 40
def dispOf (w : W48) : Nat := w.toNat % 2 ^ 15
def loopCount (w : W48) : Nat := fieldN w.toNat 32 8

/-- Issue slots of an instruction (R367); `remote` outside the home cluster. -/
def slotCost (w : W48) (remote : Bool) : Nat :=
  match opOf w with
  | 0x19 | 0x35 | 0x50 | 0x53 | 0x58 | 0x8A => 2
  | 0x42 | 0x43 => if remote then 4 else 1
  | 0x60 => if 4 ≤ w.toNat % 16 then 12 else 8
  | _ => 1

/-- Where control goes from the instruction at `i`; `jt` gives the targets of a jump table. -/
def successors (jt : Nat → List Nat) (w : W48) (i : Nat) : List Nat :=
  let op := opOf w
  if op = 0x80 then [i + 1 + dispOf w]
  else if 0x81 ≤ op ∧ op ≤ 0x88 then [i + 1, i + 1 + dispOf w]
  else if op = 0x8A then jt (w.toNat % 256)
  else [i + 1]

/-- The largest sum of `cost` along any path from `lo` until control reaches `stop`, with loops nested at most `depth`
deep; a loop counts its body COUNT times. -/
def pathMost (code : Nat → W48) (jt : Nat → List Nat) (cost : W48 → Nat) : Nat → Nat → Nat → Nat
  | 0, _, _ => 0
  | depth + 1, lo, stop =>
    let costs := (List.range (stop - lo)).foldl (fun (acc : List Nat) k =>
      let i := stop - 1 - k
      let w := code i
      let at_ := fun j => if j < stop then acc.getD (j - (i + 1)) 0 else 0
      let v := if opOf w = 0x8F then cost w
        else if opOf w = 0x89 then
          let stop' := i + 1 + dispOf w
          cost w + loopCount w * pathMost code jt cost depth (i + 1) stop' + at_ stop'
        else cost w + maxOf ((successors jt w i).map at_)
      v :: acc) []
    costs.headD 0

/-- Worst slots from `lo` until control reaches `stop`; `remote` outside the home cluster. -/
def worstFrom (code : Nat → W48) (jt : Nat → List Nat) (remote : Bool) (depth lo stop : Nat) : Nat :=
  pathMost code jt (fun w => slotCost w remote) depth lo stop

/-! The configuration under proof. -/

structure ProofCfg where
  f256 : Bool
  lanes : W64
  portMap : List PortMapEntry
  /-- Ports that the Recipe's tables name. -/
  tablePorts : List Nat
  demand : Demand
  /-- Banks as they will serve. -/
  cph : Bank
  eng : Bank
  que : Bank
  /-- Slab units lost or out of service for test (R75). -/
  outOfUse : List Nat
  /-- Spare engines whose rows are kept EMPTY, and every engine that may serve as a spare (R384). -/
  freeSpares : List Nat
  spares : List Nat
  control : List (Nat × Nat)
  bindings : List Binding
  /-- Programs by cluster, the cluster's control program and its number of instructions. -/
  programs : List (Nat × Tbl Program)
  controls : List (Nat × Nat)
  imemSizes : List (Nat × Nat)
  code : Nat → Nat → W48
  worst : List (Nat × Nat)
  /-- The sum of the queues' minimum reservations. -/
  minSum : Nat

def refusal (check table object demanded available : Nat) : ProofResult :=
  { status := 4, check := check, table := table, object := object, demanded := demanded, available := available,
    headroom := 0 }

/-- The first failure of a list of checks. -/
def firstOf {α : Type} (l : List α) (f : α → Option ProofResult) : Option ProofResult := l.findSome? f

/-! Entries of a bank. -/

def Bank.pagesOf (b : Bank) : Nat := 2 ^ b.ringLog2

/-- Sum of the positions, or of the entries, of rows of a range that name a channel, or a pool. -/
def Bank.granted (b : Bank) (kind id lo hi : Nat) (count : Bool) : Nat :=
  sumOf ((b.entries.filter (fun e =>
    decide (lo ≤ e.1) && decide (e.1 < hi) && entryKind e.2 == kind && entryChannel e.2 == id)).map
      (fun e => if count then 1 else entryLength e.2))

/-- A row of a bank has no entry in any page. -/
def Bank.rowEmpty (b : Bank) (r : Nat) : Bool := !(b.entries.any (fun e => e.1 == r))

/-! R68. -/

/-- Positions, rows, entries per row and the highest channel of a slot table, by its number of R107. -/
def tablePositions (t : Nat) : Nat := if t = 0 then 1600 else if t = 1 then 250 else 240
def tableRows (t : Nat) : Nat := if t = 0 then 192 else if t = 1 then 768 else 2
def tableEntries (t : Nat) : Nat := if t = 0 then 64 else if t = 1 then 16 else 240
def tableLast (t : Nat) : Nat := if t = 0 then 262143 else if t = 1 then 16777214 else 65535

def entryOk (t : Nat) (w : W64) : Bool :=
  fieldN w.toNat 49 13 == 0 && (t == 1 || !entryDefer w)
  && (match entryKind w with
      | 0 => true
      | 1 => decide (1 ≤ entryLength w) && decide (entryStart w + entryLength w ≤ tablePositions t)
             && decide (entryChannel w ≤ tableLast t)
      | 2 => decide (1 ≤ entryLength w) && decide (entryStart w + entryLength w ≤ tablePositions t)
             && decide (entryChannel w < 16)
      | _ => false)

def rowRising : List W64 → Bool
  | [] => true
  | [_] => true
  | a :: b :: l => decide (entryStart a + entryLength a ≤ entryStart b) && rowRising (b :: l)

def rowOk (t : Nat) (ws : List W64) : Bool :=
  decide (ws.length ≤ tableEntries t) && ws.all (entryOk t) && rowRising (ws.filter (fun w => entryKind w != 0))

def bankOk (t : Nat) (b : Bank) : Bool :=
  decide (b.ringLog2 ≤ 4) && b.pages.length == b.pagesOf
  && b.pages.all (fun p => p.all (fun r => decide (r.1 < tableRows t) && rowOk t r.2))

/-- The slot entries agree with the bindings (R343). -/
def bindingRowsOk (b : Bank) (bs : List Binding) : Bool :=
  b.entries.all (fun e =>
    let id := entryChannel e.2
    if entryKind e.2 = 1 then
      bs.all (fun x => x.channel != id || (!x.pooled && e.1 == 8 * x.engine + x.thread))
    else bs.all (fun x => !x.pooled || x.pool != id || e.1 / 96 == x.cluster))

/-- The records agree among themselves (R343). -/
def overlapping (a n b m : Nat) : Bool := decide (a < b + m) && decide (b < a + n)

def bindingOk (spares : List Nat) (x : Binding) : Bool :=
  decide (x.channel ≤ 16777214) && decide (x.cluster < 8) && decide (x.pool < 16)
  && (match x.inbox with | some i => decide (i < 1024) | none => true) && decide (1 ≤ x.stateWords)
  && (if x.pooled then
        x.engine == 0 && x.thread == 0 && decide (x.stateWords ≤ 64) && decide (65536 ≤ x.stateAddr)
        && decide (x.stateAddr + x.stateWords ≤ 1048576)
      else
        x.pool == 0 && decide (x.engine / 12 = x.cluster) && decide (x.thread < 8) && decide (x.stateWords ≤ 1024)
        && decide (80 ≤ x.stateAddr) && decide (x.stateAddr + x.stateWords ≤ 8192) && !(spares.contains x.engine))

def bindingsMeet (x y : Binding) : Bool :=
  x.channel == y.channel
  || (x.cluster == y.cluster && x.inbox.isSome && x.inbox == y.inbox)
  || (x.pooled && y.pooled && x.cluster == y.cluster && overlapping x.stateAddr x.stateWords y.stateAddr y.stateWords)
  || (!x.pooled && !y.pooled && x.engine == y.engine && x.thread == y.thread
      && overlapping x.stateAddr x.stateWords y.stateAddr y.stateWords)
  || (x.pooled && y.pooled && x.pool == y.pool && x.cluster != y.cluster)

/-! The port map entries (R136, R141). -/

/-- The combinations of R136. -/
def Machine.comboOk (lanes rate fec : Nat) : Bool :=
  (rate == 0 && lanes == 1 && fec == 0)
  || (rate == 1 && lanes == 1 && (fec == 0 || fec == 1))
  || (rate == 1 && lanes == 4 && fec == 1)
  || (rate == 2 && (lanes == 1 || lanes == 2 || lanes == 4 || lanes == 8) && fec == 2)
  || (rate == 3 && (lanes == 1 || lanes == 2 || lanes == 4 || lanes == 8) && fec == 2)
  || (rate == 4 && (lanes == 1 || lanes == 2 || lanes == 4 || lanes == 8) && fec == 2)

/-- The fields of an entry are in range, its combination stands in R136, and its first lane is a multiple of its lanes. -/
def portEntryOk (e : PortMapEntry) : Bool :=
  Machine.comboOk e.lanes e.laneRate e.fec && e.port % e.lanes == 0 && decide (e.port + e.lanes ≤ 512)
  && decide (1518 ≤ e.maxFrame) && decide (e.maxFrame ≤ 9216) && decide (1 ≤ e.txStart) && decide (e.txStart ≤ 16)
  && decide (e.txPreset ≤ 5)

/-- The entry that breaks R141, or shares a lane with the one before it. -/
def portMapBad : Nat → List PortMapEntry → Option PortMapEntry
  | _, [] => none
  | lo, e :: l => if !portEntryOk e || decide (e.port < lo) then some e else portMapBad (e.port + e.lanes) l

def formatCheck (c : ProofCfg) : Option ProofResult :=
  let bad := fun t => { refusal 0x01 t 0 0 0 with status := 1 }
  if !bankOk 0 c.cph then some (bad 0)
  else if !bankOk 1 c.eng || c.control.any (fun x => !c.eng.rowEmpty (8 * x.2 + 7)) then some (bad 1)
  else if !bankOk 2 c.que then some (bad 2)
  else (portMapBad 0 c.portMap).map (fun p => { refusal 0x01 0xFF p.port 0 0 with status := 1 })

/-! Checks 0x02 to 0x05 (R6, R30, R70, R102). -/

/-- The lanes, ports and slices that the variant lacks (R5, R6, R7): a table may name ports 0 to 511, or 0 to 255 on HX9602-F256;
an INJECT value names its slice (DEDUCED, log entry 85). -/
def variantCheck (c : ProofCfg) : Option ProofResult :=
  let ports := if c.f256 then 256 else 512
  match c.portMap.find? (fun p => decide (ports < p.port + p.lanes)) with
  | some p => some (refusal 0x02 0xFF p.port (p.port + p.lanes - 1) (ports - 1))
  | none =>
    match c.tablePorts.find? (fun p => decide (ports ≤ p)) with
    | some p => some (refusal 0x02 0xFF p p (ports - 1))
    | none =>
      if !c.f256 then none
      else (c.demand.inject.zipIdx.find? (fun x => decide (8 ≤ x.2) && x.1 != 0)).map (fun x => refusal 0x02 0xFF x.2 x.1 0)

/-- Every lane of a port is enabled: bit g covers lanes 8g to 8g + 7. -/
def lanesOn (lanes : W64) (port n : Nat) : Bool := (List.range n).all (fun i => lanes.getLsbD ((port + i) / 8))

def portMapCheck (c : ProofCfg) : Option ProofResult :=
  firstOf c.portMap (fun p => if lanesOn c.lanes p.port p.lanes then none else some (refusal 0x03 0xFF p.port p.lanes 0))

def maskBits (n : Nat) (m : Nat) : List Nat := (List.range n).filter (fun i => bitN m i)

/-- SPARES. DESIGN CHOICE (log entry 174): the spec names no slot table for this check; TABLE is 1, the engines'. -/
def sparesCheck (c : ProofCfg) : Option ProofResult :=
  let n := (maskBits 96 c.demand.spares.toNat).length
  if n < 4 then some (refusal 0x04 1 0 4 n) else if 16 < n then some (refusal 0x04 1 0 n 16) else none

/-- Free reserve rows of a kind: EMPTY, and of a unit in use; and how many the kind must have, of `n`, each unit out of use having
taken one (R70, R75; DEDUCED, log entry 134). -/
def reserveRows (c : ProofCfg) (lo hi n : Nat) : Nat × Nat :=
  let rows := (List.range hi).drop lo
  ((rows.filter (fun r => c.cph.rowEmpty r && !c.outOfUse.contains r)).length, n - (rows.filter c.outOfUse.contains).length)

/-- R70: the rows of the spares, the slab reserve, and position 0 of the endpoint rows. -/
def reserveCheck (c : ProofCfg) : Option ProofResult :=
  let (cores, coresMin) := reserveRows c 0 128 4
  let (gfs, gfsMin) := reserveRows c 128 192 2
  if cores < coresMin then some (refusal 0x05 0 0 coresMin cores)
  else if gfs < gfsMin then some (refusal 0x05 0 0 gfsMin gfs)
  else match c.freeSpares.find? (fun e => (List.range 8).any (fun t => !c.eng.rowEmpty (8 * e + t))) with
    | some _ => some (refusal 0x05 1 0 0 0)
    | none =>
      if c.que.entries.any (fun e => entryStart e.2 == 0) then some (refusal 0x05 2 0 0 0) else none

/-! Checks 0x06 to 0x0A. -/

/-- A program may run outside a home cluster (R384). -/
def remoteCapable (c : ProofCfg) (p : Nat) : Bool :=
  let away := fun (k : Nat) => c.spares.any (fun e => e / 12 != k)
  c.bindings.any (fun b => b.program == p && away b.cluster) || c.controls.any (fun x => x.2 == p && away x.1)

/-- The cluster that holds a program, with it. -/
def programOf (c : ProofCfg) (p : Nat) : Option (Nat × Program) :=
  c.programs.findSome? (fun x => (tget x.2 p).map (fun q => (x.1, q)))

def worstSlots (c : ProofCfg) (p : Nat) : Nat :=
  match programOf c p with
  | none => 0
  | some (k, q) =>
    let r := remoteCapable c p
    (if r then 2 else 1)
      + worstFrom (c.code k) (fun i => (tgetD q.tables i []).map (fun t => q.entry + t)) r 5 q.entry (q.entry + q.length)

def programIds (c : ProofCfg) : List Nat := (c.programs.flatMap (fun x => x.2.map (·.1))).eraseDups

def worstCheck (c : ProofCfg) : Option ProofResult :=
  firstOf (programIds c) (fun p =>
    let w := worstSlots c p
    match c.worst.filter (fun x => x.1 == p) with
    | [] => some (refusal 0x06 1 p w 0)
    | l => (l.find? (fun x => x.2 != w)).map (fun x => refusal 0x06 1 p w x.2))

/-- The programs that an entry's slot can run (R73). -/
def entryPrograms (c : ProofCfg) (w : W64) : List Nat :=
  let id := entryChannel w
  ((c.bindings.filter (fun b =>
    if entryKind w = 1 then b.channel == id else b.pooled && b.pool == id)).map (·.program)).eraseDups

def lengthCheck (c : ProofCfg) : Option ProofResult :=
  firstOf c.eng.entries (fun e =>
    firstOf (entryPrograms c e.2) (fun p =>
      let w := worstSlots c p
      if w ≤ entryLength e.2 then none else some (refusal 0x07 1 p w (entryLength e.2))))

/-- First and last ENGC cycle of a slot (R65). -/
def slotCycles (row : Nat) (w : W64) : Nat × Nat :=
  (8 * entryStart w + row % 8, 8 * (entryStart w + entryLength w - 1) + row % 8)

def slotsMeet (a b : Nat × W64) : Bool :=
  entryKind a.2 == entryKind b.2 && entryChannel a.2 == entryChannel b.2
  && decide ((slotCycles a.1 a.2).1 ≤ (slotCycles b.1 b.2).2) && decide ((slotCycles b.1 b.2).1 ≤ (slotCycles a.1 a.2).2)

/-- The first entry that meets a later one (R74). -/
def meetIn : List (Nat × W64) → Option ProofResult
  | [] => none
  | a :: l => if l.any (slotsMeet a) then some (refusal 0x08 1 (entryChannel a.2) 0 0) else meetIn l

def overlapCheck (c : ProofCfg) : Option ProofResult :=
  firstOf c.eng.pages (fun p =>
    meetIn (p.flatMap (fun r => (r.2.filter (fun w => entryKind w != 0)).map (fun w => (r.1, w)))))

def clusterHas (c : ProofCfg) (k p : Nat) : Bool := c.programs.any (fun x => x.1 == k && thas x.2 p)

def placementCheck (c : ProofCfg) : Option ProofResult :=
  match (programIds c).find? (fun p => c.spares.any (fun e => !clusterHas c (e / 12) p)) with
  | some p => some (refusal 0x09 1 p 0 0)
  | none => (c.bindings.find? (fun b => !clusterHas c b.cluster b.program)).map (fun b => refusal 0x09 1 b.program 0 0)

/-- IMEM_SIZE. DESIGN CHOICE (log entry 174): the spec names no slot table for this check; TABLE is 1, the engines'. -/
def imemCheck (c : ProofCfg) : Option ProofResult :=
  firstOf c.imemSizes (fun x => if x.2 ≤ 21845 then none else some (refusal 0x0A 1 x.1 x.2 21845))

/-! Checks 0x0B to 0x11 (R122-R124). -/

def poolHead : Nat := 0xFFFFFF

/-- Coverage of one table: what a channel, or a pool, is granted against what it needs. -/
def coverCheck (check table : Nat) (d : Demand) (work : DemandEntry → Nat) (got : Nat → Nat → Nat) : Option ProofResult :=
  let es := d.entries.filter (fun e => e.table == table)
  match firstOf (es.filter (fun e => !e.pooled && e.channel != poolHead)) (fun e =>
      let g := got 1 e.channel
      if g < work e then some (refusal check table e.channel (work e) g) else none) with
  | some r => some r
  | none => firstOf (List.range 16) (fun p =>
      let need := sumOf ((es.filter (fun e => e.pooled && e.pool == p && e.channel != poolHead)).map work)
      let g := got 2 p
      if g < need then some (refusal check table p need g) else none)

def engineCover (c : ProofCfg) : Option ProofResult :=
  coverCheck 0x0B 1 c.demand (·.work) (fun k id => c.eng.granted k id 0 768 true)

def rowsUsed (b : Bank) (lo hi : Nat) : Nat :=
  (((b.entries.map (·.1)).filter (fun r => decide (lo ≤ r) && decide (r < hi))).eraseDups).length

/-- The distinct contexts that a cipher bank names in DEDICATED entries: the pinned ones (R397). -/
def pinnedIds (b : Bank) : List Nat := ((b.entries.filter (fun e => entryKind e.2 == 1)).map (fun e => entryChannel e.2)).eraseDups

/-- Check 0x0C: coverage, the reserve rows, then the 1,536 contexts that may be pinned (R397); the record of the last two names
no object (DESIGN CHOICE, log entry 131). -/
def cipherCover (c : ProofCfg) : Option ProofResult :=
  match coverCheck 0x0C 0 c.demand (·.work) (fun k id => c.cph.granted k id 0 128 false) with
  | some r => some r
  | none =>
    match coverCheck 0x0C 0 c.demand (·.gfWork) (fun k id => c.cph.granted k id 128 192 false) with
    | some r => some r
    | none =>
      if 124 < rowsUsed c.cph 0 128 then some (refusal 0x0C 0 0 (rowsUsed c.cph 0 128) 124)
      else if 62 < rowsUsed c.cph 128 192 then some (refusal 0x0C 0 0 (rowsUsed c.cph 128 192) 62)
      else if 1536 < (pinnedIds c.cph).length then some (refusal 0x0C 0 0 (pinnedIds c.cph).length 1536)
      else none

def fetchCover (c : ProofCfg) : Option ProofResult :=
  coverCheck 0x0D 2 c.demand (·.work) (fun k id => c.que.granted k id 0 2 false)

/-- The most channels of an engine pool pending at once: P of R123. -/
def poolPendingMost (c : ProofCfg) (p : Nat) : Nat :=
  match c.demand.entries.find? (fun e => e.table == 1 && e.channel == poolHead && e.pooled && e.pool == p) with
  | some e => e.maxPending
  | none => max 1 (c.bindings.filter (fun b => b.pooled && b.pool == p)).length

/-- The wait bound of a demand entry in beats (R123); none where the pool has no slot. -/
def waitBound (c : ProofCfg) (e : DemandEntry) : Option Nat :=
  match e.table with
  | 0 => some (c.cph.pagesOf * 1600)
  | 1 =>
    if !e.pooled then some (c.eng.pagesOf * 1600 + 63)
    else
      let n := c.eng.granted 2 e.pool 0 768 true
      if n = 0 then none else some (cdiv (poolPendingMost c e.pool) n * c.eng.pagesOf * 1600 + 63)
  | _ => some (c.que.pagesOf * 1600 + 8)

/-- LATENCY (R123). OBJECT is the channel, or the pool of an entry for one (R125). DESIGN CHOICE (log entry 174): the spec does not
say which of the two bounds is demanded; DEMANDED is the wait bound, 2^64 - 1 where there is none, and AVAILABLE is LATENCY_BOUND. -/
def latencyCheck (c : ProofCfg) : Option ProofResult :=
  firstOf c.demand.entries (fun e =>
    if e.latency = 0 then none
    else
      let id := if e.channel == poolHead || (e.pooled && e.table == 1) then e.pool else e.channel
      match waitBound c e with
      | some w => if w ≤ e.latency then none else some (refusal 0x0E e.table id w e.latency)
      | none => some (refusal 0x0E e.table id (2 ^ 64 - 1) e.latency))

def injectCheck (c : ProofCfg) : Option ProofResult :=
  (c.demand.inject.zipIdx.find? (fun x => decide (76 < x.1))).map (fun x => refusal 0x0F 0xFF x.2 x.1 76)

/-- The HBM sum of R124. -/
def hbmSum (d : Demand) : Nat :=
  241000 + 128 * d.stateful + d.mirrorOut + d.mirrorIn + 2 * d.storage + 2 * d.hostHbm + d.engineHbm

def hbmBudget : Nat := 3825000

def hbmCheck (c : ProofCfg) : Option ProofResult :=
  if hbmBudget < hbmSum c.demand then some (refusal 0x10 0xFF 0 (hbmSum c.demand) hbmBudget) else none

def crumbCheck (c : ProofCfg) : Option ProofResult :=
  if 4194304 < 65536 + c.minSum then some (refusal 0x11 0xFF 0 (65536 + c.minSum) 4194304) else none

/-! Running checks. -/

def proofCheck (c : ProofCfg) (code : Nat) : Option ProofResult :=
  match code with
  | 0x01 => formatCheck c
  | 0x02 => variantCheck c
  | 0x03 => portMapCheck c
  | 0x04 => sparesCheck c
  | 0x05 => reserveCheck c
  | 0x06 => worstCheck c
  | 0x07 => lengthCheck c
  | 0x08 => overlapCheck c
  | 0x09 => placementCheck c
  | 0x0A => imemCheck c
  | 0x0B => engineCover c
  | 0x0C => cipherCover c
  | 0x0D => fetchCover c
  | 0x0E => latencyCheck c
  | 0x0F => injectCheck c
  | 0x10 => hbmCheck c
  | 0x11 => crumbCheck c
  | _ => none

/-- The record of a proof that passes: OBJECT, DEMANDED and AVAILABLE are 0, as proof_engine_cover returns them; proof_hbm returns
its sum and the budget for the same result, and the spec says of neither that the record holds it (DESIGN CHOICE, log entry 112) (R125). -/
def proofPass (d : Demand) : ProofResult :=
  { status := 0, check := 0, table := 0xFF, object := 0, demanded := 0, available := 0,
    headroom := (hbmBudget - hbmSum d) / 128 }

/-- The checks named, in ascending code order, up to the first that fails (R121). -/
def proofRun (c : ProofCfg) (codes : List Nat) : ProofResult := (firstOf codes (proofCheck c)).getD (proofPass c.demand)

/-- The result record of 32 bytes (R125). -/
def ProofResult.bytes (r : ProofResult) : List Byte :=
  leBytes 1 r.status ++ leBytes 1 r.check ++ leBytes 1 r.table ++ [0#8] ++ leBytes 4 r.object ++ leBytes 8 r.demanded
    ++ leBytes 8 r.available ++ leBytes 4 r.headroom ++ zeroBytes 4

/-! FEATURE_OFFER (R130). -/

/-- The bits a function kind may be offered: PF0, PF1, PF2, VFs of PF1, VFs of PF2. -/
def offerMask (kind : Nat) : Nat :=
  match kind with
  | 0 => 0x3F003
  | 1 => 0x413FF
  | 2 => 0x41C01
  | 3 => 0x0137D
  | _ => 0x01C01

def offerCheck (offers : List (BitVec 256)) (storage pools : Bool) : Option ProofResult :=
  (offers.zipIdx.find? (fun x =>
    let need := x.1.toNat
    Nat.land need (offerMask x.2) != need || (!storage && (bitN need 10 || bitN need 11)) || (!pools && bitN need 18))).map
    (fun x => refusal 0x15 0xFF x.2 0 0)

def SlotTable.other (x : SlotTable) : Bank := if x.active1 then x.bank0 else x.bank1

/-- The rows of a bank re-pointed by the migrations in force (R75, R85): row `per` × unit + k of a lost unit. -/
def Bank.repoint (b : Bank) (per : Nat) (ms : List Move) : Bank :=
  { b with pages := b.pages.map (fun p => p.foldl (fun (q : Tbl (List W64)) r =>
      let row := currentUnit ms (r.1 / per) * per + r.1 % per
      tset q row ((tgetD q row []) ++ r.2)) []) }

/-- The rows of a bank as they stood before the migrations in force: a binding names its home engine (R342, R343). -/
def Bank.atHome (b : Bank) (per : Nat) (ms : List Move) : Bank :=
  let home := fun (u : Nat) => match ms.find? (fun m => m.spare == u) with
    | some m => m.lost
    | none => u
  { b with pages := b.pages.map (fun p => p.foldl (fun (q : Tbl (List W64)) r =>
      let row := home (r.1 / per) * per + r.1 % per
      tset q row ((tgetD q row []) ++ r.2)) []) }

end Sys2Proof

namespace Sys2Proof.Machine

def engineIs (s : State) (st : EngineState) (e : Nat) : Bool := (engineOf s e).state == st

def spareEngines (s : State) : List Nat := (List.range 96).filter (engineIs s .spare)

/-- Bindings of the running configuration with the changes accepted and not yet in effect (R128). -/
def bindingsNow (s : State) : List Binding :=
  ((s.eng.channels.map (fun e => e.2.bind)).filter (fun b =>
    !isControl b.channel && !(s.eng.unbinds.contains b.channel))) ++ s.eng.binds.map (·.1)

def demandNow (s : State) : Demand := s.app.demandDue.getD s.app.demand

/-- The bank of a table that a proof uses: the current one, or the pending one where there is one. -/
def proofBank (x : SlotTable) (pending : Bool) : Bank := if pending && x.pending.isSome then x.other else x.bank

/-- The running configuration. -/
def cfgOf (s : State) (pending : Bool) : ProofCfg :=
  { f256 := s.board.f256
    lanes := s.rst.options.lanes
    portMap := s.app.portMap
    tablePorts := []
    demand := demandNow s
    cph := proofBank s.sltCph pending
    eng := proofBank s.sltEng pending
    que := proofBank s.sltQue pending
    outOfUse := (s.cph.lost ++ ((s.cph.test.filter (·.started)).map (·.unit)).toList).eraseDups
    freeSpares := spareEngines s
    spares := (maskBits 96 s.app.demand.spares.toNat ++ spareEngines s).eraseDups
    control := s.eng.control
    bindings := bindingsNow s
    programs := s.eng.clusters.map (fun x => (x.1, x.2.programs))
    controls := s.eng.clusters.map (fun x => (x.1, x.2.controlProgram))
    imemSizes := []
    code := fun k i => tgetD (tgetD s.eng.clusters k Cluster.empty).imem i 0#48
    worst := s.app.worst
    minSum := sumOf (s.sch.minDue.map (·.2)) + sumOf ((s.sch.queues.filter (fun q => !thas s.sch.minDue q.1)).map (fun q => q.2.min)) }

/-- A staged bank that has not become current. -/
def bankPending (s : State) : Bool := s.sltCph.pending.isSome || s.sltEng.pending.isSome || s.sltQue.pending.isSome

/-- A run-time change proofed under the current bank, and under a pending one as well (R128). -/
def proofChange (s : State) (f : ProofCfg → ProofCfg) (codes : List Nat) : ProofResult :=
  let r := proofRun (f (cfgOf s false)) codes
  if r.status ≠ 0 || !bankPending s then r else proofRun (f (cfgOf s true)) codes

end Sys2Proof.Machine
end

