-- ==== Sys2Proof/Machine/Dma.lean ====
section
/-!
DEFINITION. The DMA engines and their programmed channels (R498-R509).
-/

namespace Sys2Proof

/-! Descriptors (R501-R503). -/

/-- A side's stride i of a descriptor. -/
def DmaDesc.offsetOf (st0 st1 st2 : Int) (i2 i1 i0 : Nat) : Int := i2 * st2 + i1 * st1 + i0 * st0

/-- Element addresses (R502), unsigned in 64 bits. -/
def DmaDesc.srcAt (d : DmaDesc) (i2 i1 i0 : Nat) : Nat :=
  ((d.src : Int) + DmaDesc.offsetOf d.srcStride0 d.srcStride1 d.srcStride2 i2 i1 i0).toNat

def DmaDesc.dstAt (d : DmaDesc) (i2 i1 i0 : Nat) : Nat :=
  ((d.dst : Int) + DmaDesc.offsetOf d.dstStride0 d.dstStride1 d.dstStride2 i2 i1 i0).toNat

/-- Elements in the order of R502. -/
def DmaDesc.elements (d : DmaDesc) : List (Nat × Nat × Nat) :=
  (List.range d.count2).flatMap (fun i2 => (List.range d.count1).flatMap (fun i1 =>
    (List.range d.count0).map (fun i0 => (i2, i1, i0))))

/-- The span of a side, from its first byte to the one after its last. -/
def DmaDesc.span (d : DmaDesc) (base : Nat) (st0 st1 st2 : Int) : Int × Int :=
  let reach := fun (n : Nat) (st : Int) => ((n : Int) - 1) * st
  let lo := min 0 (reach d.count0 st0) + min 0 (reach d.count1 st1) + min 0 (reach d.count2 st2)
  let hi := max 0 (reach d.count0 st0) + max 0 (reach d.count1 st1) + max 0 (reach d.count2 st2)
  ((base : Int) + lo, (base : Int) + hi + d.elem)

def DmaDesc.srcSpan (d : DmaDesc) : Int × Int := d.span d.src d.srcStride0 d.srcStride1 d.srcStride2
def DmaDesc.dstSpan (d : DmaDesc) : Int × Int := d.span d.dst d.dstStride0 d.dstStride1 d.dstStride2

/-- The descriptor of 64 bytes; one loop only while DMA_THREE_LOOP is not active (R505). -/
def dmaDescOf (three : Bool) (b : List Byte) : DmaDesc :=
  let stride := fun (o : Nat) => signedOf 32 (leAt b o 4)
  let outer := fun (o : Nat) => if three then leAt b o 2 else 1
  let far := fun (o : Nat) => if three then stride o else 0
  let flags := leAt b 26 2
  { src := leAt b 0 8, dst := leAt b 8 8, elem := leAt b 16 4, count0 := leAt b 20 2, count1 := outer 22, count2 := outer 24,
    srcHbm := bitN flags 0, dstHbm := bitN flags 1, barrier := bitN flags 2, irq := bitN flags 3,
    srcStride0 := stride 28, dstStride0 := stride 32, srcStride1 := far 36, dstStride1 := far 40, srcStride2 := far 44,
    dstStride2 := far 48 }

/-- A span stays in its space. -/
def spanFits (hbm : Bool) (x : Int × Int) : Bool := decide (0 ≤ x.1) && decide (x.2 ≤ if hbm then 2 ^ 37 else 2 ^ 64)

/-- Order 1 of R503. -/
def dmaWellFormed (b : List Byte) (d : DmaDesc) : Bool :=
  let counts := [leAt b 20 2, leAt b 22 2, leAt b 24 2]
  decide (1 ≤ d.elem) && decide (d.elem ≤ 0x100000) && counts.all (fun n => decide (1 ≤ n))
  && decide (leAt b 26 2 < 16) && leAt b 57 1 == 0 && (slice b 58 6).all (fun x => x == 0#8)
  && decide (d.elem * d.count0 * d.count1 * d.count2 ≤ 0x10000000) && (d.srcHbm || d.dstHbm)
  && !(d.srcHbm && decide (2 ^ 37 ≤ d.src)) && !(d.dstHbm && decide (2 ^ 37 ≤ d.dst))
  && spanFits d.srcHbm d.srcSpan && spanFits d.dstHbm d.dstSpan
  && !(d.srcHbm == d.dstHbm && decide (d.srcSpan.1 < d.dstSpan.2) && decide (d.dstSpan.1 < d.srcSpan.2))

end Sys2Proof

namespace Sys2Proof.Machine

def dmaEngineOf (s : State) (e : Nat) : DmaEngine := tgetD s.dma.engines e DmaEngine.reset
def dmaEngineMod (s : State) (e : Nat) (f : DmaEngine → DmaEngine) : State :=
  { s with dma := { s.dma with engines := tmod DmaEngine.reset s.dma.engines e f } }

def dmaChannelOf (s : State) (e c : Nat) : DmaChannel := tgetD s.dma.channels (16 * e + c) DmaChannel.reset
def dmaChannelMod (s : State) (e c : Nat) (f : DmaChannel → DmaChannel) : State :=
  { s with dma := { s.dma with channels := tmod DmaChannel.reset s.dma.channels (16 * e + c) f } }

/-- Endpoint of an engine (R498), and its PF0. -/
def dmaEp (e : Nat) : Nat := e / 2
def dmaFn (e : Nat) : Nat := pf0Of (dmaEp e)

def dmaRingSize (c : DmaChannel) : Nat := 2 ^ c.sizeLog2.toNat

/-- Address of the descriptor at HEAD. -/
def dmaHeadAddr (c : DmaChannel) : Nat := c.ringAddr.toNat + c.head.toNat % dmaRingSize c * 64

/-- Admin data of `n` bytes in DATA_LEN written to the host by channel 0 of its engine, which counts it (R498); while PF0 issues no
request, it waits (R455, R457). -/
def adminPut (s : State) (ep n addr : Nat) (bytes : List Byte) : State :=
  if fnRuns s (pf0Of ep) then
    let e := adminEngine ep n
    hostWrite (dmaChannelMod s e 0 (fun x => { x with bytes := wrapAdd x.bytes bytes.length })) e (pf0Of ep) addr bytes
  else adminMod s ep (fun q => { q with heldData := q.heldData ++ [(n, addr, bytes)] })

/-! The DMA HBM window (R504). -/

def dmaWindow (s : State) : Nat × Nat := (s.dma.winBase.toNat * 65536, s.dma.winSize.toNat * 65536)

/-- The ranges the window must not meet: flow-state table and ledger, context store, storage buffers and engine
windows. -/
def hbmReserved (s : State) : List (Nat × Nat) :=
  [(0, 0x214000100), (s.cph.ctxBase.toNat, 0x4000000), (s.sto.bufBase, s.sto.bufSize)]
    ++ s.eng.clusters.map (fun k => (k.2.hbmBase, k.2.hbmSize))

/-- WIN_BAD. -/
def dmaWindowBad (s : State) : Bool :=
  let w := dmaWindow s
  w.2 == 0 || decide (hbmEnd < w.1 + w.2) || (hbmReserved s).any (fun r => overlapping w.1 w.2 r.1 r.2)

def spanInWindow (s : State) (x : Int × Int) : Bool :=
  let w := dmaWindow s
  decide ((w.1 : Int) ≤ x.1) && decide (x.2 ≤ ((w.1 + w.2 : Nat) : Int))

/-! Choosing a channel (R499). -/

/-- An engine issues requests of its programmed channels; D3hot of PF0 does not stop them (R516). -/
def dmaRuns (s : State) (e : Nat) : Bool := epRuns s (dmaEp e) && busMasters s (dmaFn e)

def dmaReady (s : State) (e c : Nat) : Bool :=
  let x := dmaChannelOf s e c
  x.state == .idle && x.enable && x.head != x.producer && dmaRuns s e

def dmaNext (s : State) (e : Nat) : Option Nat :=
  ((List.range 15).map (fun k => ((dmaEngineOf s e).last + k) % 15 + 1)).find? (dmaReady s e)

/-- DMA_CHANNEL_SELECT: the next ready channel runs, and its descriptor is fetched. -/
def dmaSelect (s : State) (e : Nat) : State :=
  if (dmaEngineOf s e).active ≠ 0 then s
  else
    match dmaNext s e with
    | none => s
    | some c =>
      let s := dmaEngineMod s e (fun x => { x with last := c, active := c })
      let s := dmaChannelMod s e c (fun x => { x with state := .running, desc := none, flushing := false })
      hostRead s e (dmaFn e) (dmaHeadAddr (dmaChannelOf s e c)) 64

def execDmaChannelSelect (e : Fin 4) (s : State) : Result := .next (dmaSelect s e.val)

/-! Completion (R506, R509). -/

/-- The channel leaves the engine: IDLE, or DISABLED where ENABLE was cleared. -/
def dmaEnd (s : State) (e c : Nat) : State :=
  let s := dmaEngineMod s e (fun x => if x.active = c then { x with active := 0 } else x)
  dmaChannelMod s e c (fun x => { x with state := if x.enable then .idle else .disabled, desc := none, flushing := false })

/-- STATUS and DONE written into the descriptor; HEAD advances, and the vector follows where the descriptor asks. -/
def dmaWriteback (s : State) (e c status : Nat) (irq : Bool) : State :=
  let x := dmaChannelOf s e c
  let s := hostWrite s e (dmaFn e) (dmaHeadAddr x + 56) (leBytes 1 status ++ [1#8])
  let s := dmaChannelMod s e c (fun x => { x with head := x.head + 1#16, descriptors := wrapInc x.descriptors })
  let s := if irq then msix s (dmaFn e) x.vector.toNat else s
  dmaEnd s e c

/-- DMA_DESCRIPTOR_START: the fetched descriptor is checked, and its reads begin. -/
def dmaStart (s : State) (e : Nat) (b : List Byte) : State :=
  let c := (dmaEngineOf s e).active
  let x := dmaChannelOf s e c
  if c = 0 || x.desc.isSome || !dmaRuns s e then s
  else
    let b := slice b 0 64
    let d := dmaDescOf (featOn s (dmaFn e) featDma) b
    if !dmaWellFormed b d then dmaWriteback s e c 1 d.irq
    else if dmaWindowBad s || (d.srcHbm && !spanInWindow s d.srcSpan) || (d.dstHbm && !spanInWindow s d.dstSpan) then
      dmaWriteback s e c 4 d.irq
    else
      let s := dmaChannelMod s e c (fun x => { x with desc := some d })
      if d.srcHbm then s
      else d.elements.foldl (fun s i => hostRead s e (dmaFn e) (d.srcAt i.1 i.2.1 i.2.2) d.elem) s

def execDmaDescriptorStart (e : Fin 4) (bytes : List Byte) (s : State) : Result := .next (dmaStart s e.val bytes)

/-! The transfer. -/

/-- One element written to its destination. -/
def dmaElement (s : State) (e c : Nat) (d : DmaDesc) (i : Nat × Nat × Nat) (bytes : List Byte) : State :=
  let a := d.dstAt i.1 i.2.1 i.2.2
  let s := dmaChannelMod s e c (fun x => { x with bytes := wrapAdd x.bytes bytes.length })
  if d.dstHbm then hbmPutBytes s a bytes else hostWrite s e (dmaFn e) a bytes

/-- Bytes of element `k`: from HBM, or from the data the host returned. -/
def dmaSource (s : State) (d : DmaDesc) (data : List Byte) (k : Nat) (i : Nat × Nat × Nat) : List Byte :=
  if d.srcHbm then hbmRead s (d.srcAt i.1 i.2.1 i.2.2) d.elem else slice data (k * d.elem) d.elem

/-- The elements copied in order. -/
def dmaCopy (e c : Nat) (d : DmaDesc) (data : List Byte) (is : List ((Nat × Nat × Nat) × Nat)) (s : State) : State :=
  is.foldl (fun s x => dmaElement s e c d x.1 (dmaSource s d data x.2 x.1)) s

/-- The last destination address, and the last element's indices, inner first. -/
def dmaLastDst (d : DmaDesc) : Nat := d.dstAt (d.count2 - 1) (d.count1 - 1) (d.count0 - 1)
def dmaLast (d : DmaDesc) : W16 × W16 × W16 :=
  (BitVec.ofNat 16 (d.count0 - 1), BitVec.ofNat 16 (d.count1 - 1), BitVec.ofNat 16 (d.count2 - 1))

/-- HBM bytes of `n` elements, read, written or both, taken from the allowance of shedding step 1 (R131, R504). -/
def dmaCharge (s : State) (d : DmaDesc) (n : Nat) : State :=
  shedUse s (n * d.elem * ((if d.srcHbm then 1 else 0) + (if d.dstHbm then 1 else 0)))

/-- Addresses of the accesses into which `n` bytes at `a` are split, at multiples of `unit` (R506). -/
def accessesAt (unit a n : Nat) : List Nat :=
  a :: ((List.range (n / unit + 1)).map (fun i => (a / unit + 1 + i) * unit)).filter (fun x => decide (x < a + n))

/-- Max Read Request Size of a function. -/
def maxRead (s : State) (fn : Nat) : Nat := min 4096 (128 * 2 ^ fieldN (cfgReg s fn 0x58).toNat 12 3)

/-- Addresses of the host reads of `n` bytes at `a`: split at 4 KiB boundaries and after Max Read Request Size bytes. -/
def readsAt (s : State) (fn a n : Nat) : List Nat :=
  (accessesAt 4096 a n).flatMap (fun x =>
    let stop := min (a + n) ((x / 4096 + 1) * 4096)
    ((List.range (4096 / maxRead s fn)).map (fun i => x + i * maxRead s fn)).filter (fun y => y == x || decide (y < stop)))

/-- The address of a failed read of an element: of HBM, the first granule with an error; of the host, the command does not say which of
its reads failed, and the choice is free (log entry 178). -/
def dmaFailAddr (s : State) (e : Nat) (d : DmaDesc) (a : Nat) : Nat × State :=
  if d.srcHbm then (((accessesAt 256 a d.elem).find? (fun x => !hbmAnswers s x)).getD a, s)
  else
    let l := readsAt s (dmaFn e) a d.elem
    if l.length ≤ 1 then (a, s)
    else
      let (k, s) := fresh 32 s
      (l.getD (k.toNat % l.length) a, s)

/-- A bus error (R507): the channel halts with the first failure latched. -/
def dmaHalt (s : State) (e c cause : Nat) (fetch write hbm : Bool) (addr : Nat) (i : W16 × W16 × W16) : State :=
  let s := dmaEngineMod s e (fun x => { x with active := 0, halts := wrapInc x.halts })
  let s := dmaChannelMod s e c (fun x =>
    { x with state := .halted, failDir := write, failHbm := hbm, failCause := BitVec.ofNat 4 cause,
             failAddr := BitVec.ofNat 64 addr, failI0 := i.1, failI1 := i.2.1, failI2 := i.2.2, failFetch := fetch })
  let s := raise s .dmaBusError (0x0C + e) c
  let x := dmaChannelOf s e c
  if x.irqOnHalt then msix s (dmaFn e) x.vector.toNat else s

/-- The first element whose HBM read finds an error. -/
def dmaBadElement (s : State) (d : DmaDesc) : Option (Nat × Nat × Nat) :=
  if d.srcHbm then d.elements.find? (fun i => !hbmRangeOk s (d.srcAt i.1 i.2.1 i.2.2) d.elem) else none

/-- DMA_TRANSFER_DONE: `data` holds the bytes that the host returned, element after element. With BARRIER and a host destination the
data is followed by the flushing read, and DMA_TRANSFER_DONE comes again with its completion, upon which the writeback is made (R506).
The cap of shedding step 1 paces the transfer (R131). -/
def dmaDone (s : State) (e : Nat) (data : List Byte) : State :=
  let c := (dmaEngineOf s e).active
  let x := dmaChannelOf s e c
  match (if c = 0 || !dmaRuns s e || (!x.flushing && !shedOpen s) then none else x.desc) with
  | none => s
  | some d =>
    if x.flushing then dmaWriteback s e c 0 d.irq
    else
      let is := d.elements.zipIdx
      match dmaBadElement s d with
      | some i =>
        let before := is.takeWhile (fun x => x.1 ≠ i)
        let s := dmaCopy e c d data before (dmaCharge s d (before.length + 1))
        let (a, s) := dmaFailAddr s e d (d.srcAt i.1 i.2.1 i.2.2)
        dmaHalt s e c 4 false false true a (BitVec.ofNat 16 i.2.2, BitVec.ofNat 16 i.2.1, BitVec.ofNat 16 i.1)
      | none =>
        let s := dmaCopy e c d data is (dmaCharge s d is.length)
        if d.barrier && !d.dstHbm then
          hostRead (dmaChannelMod s e c (fun x => { x with flushing := true })) e (dmaFn e) (dmaLastDst d) 0
        else dmaWriteback s e c 0 d.irq

def execDmaTransferDone (e : Fin 4) (data : List Byte) (s : State) : Result := .next (dmaDone s e.val data)

/-- Elements written before a failure of a host read: the data that it returned for them is open. -/
def dmaCopyOpen (e c : Nat) (d : DmaDesc) (is : List (Nat × Nat × Nat)) (s : State) : State :=
  is.foldl (fun s i => let (bs, s) := freshBytes d.elem s; dmaElement s e c d i bs) s

/-- What a failed host read of an engine logs (R454): a completion timeout, or poisoned data. The header is that of the device's own
request or of its completion, whose bytes are open. -/
def dmaLog (s : State) (e cause : Nat) : State :=
  if cause = 2 ∨ cause = 3 then
    let (h, s) := freshBytes 16 s
    aerUncorrectable s (dmaFn e) (if cause = 2 then errTimeout else errPoisoned) false h
  else s

/-- DMA_BUS_ERROR. -/
def dmaBusError (s : State) (e cause : Nat) (fetch write : Bool) (i : W16 × W16 × W16) : State :=
  let c := (dmaEngineOf s e).active
  let x := dmaChannelOf s e c
  if c = 0 then s
  else
    match x.desc with
    | none => if fetch && cause < 4 then dmaHalt (dmaLog s e cause) e c cause true false false (dmaHeadAddr x) (0#16, 0#16, 0#16) else s
    | some d =>
      let at_ := (i.2.2.toNat, i.2.1.toNat, i.1.toNat)
      if fetch then s
      else if cause = 5 then (if x.flushing then dmaHalt s e c 5 false true false (dmaLastDst d) i else s)
      else if x.flushing || !shedOpen s || write || d.srcHbm != (cause == 4) || !d.elements.contains at_ then s
      else
        let done := d.elements.takeWhile (fun k => k ≠ at_)
        let s := dmaLog (dmaCharge s d (done.length + (if d.srcHbm then 1 else 0))) e cause
        let s := if d.srcHbm then dmaCopy e c d [] (done.map (fun k => (k, 0))) s else dmaCopyOpen e c d done s
        let (a, s) := dmaFailAddr s e d (d.srcAt at_.1 at_.2.1 at_.2.2)
        dmaHalt s e c cause false false d.srcHbm a i

def execDmaBusError (e : Fin 4) (cause : Fin 6) (fetch : Bool) (write : Bool) (i0 : W16) (i1 : W16) (i2 : W16) (s : State) :
    Result :=
  .next (dmaBusError s e.val cause.val fetch write (i0, i1, i2))

/-! DMA_CH_CMD (R508): ignored while the channel is not HALTED, and on channel 0. -/

def dmaHalted (s : State) (e c : Nat) : Bool := c != 0 && (dmaChannelOf s e c).state == .halted

def dmaRetry (s : State) (e c : Nat) : State := if dmaHalted s e c then dmaEnd s e c else s

def execDmaChRetry (e : Fin 4) (c : Fin 16) (s : State) : Result := .next (dmaRetry s e.val c.val)

def dmaSkip (s : State) (e c : Nat) : State :=
  if dmaHalted s e c && dmaRuns s e then
    dmaWriteback s e c 5 (((dmaChannelOf s e c).desc.map (·.irq)).getD false)
  else s

def execDmaChSkip (e : Fin 4) (c : Fin 16) (s : State) : Result := .next (dmaSkip s e.val c.val)

def dmaChReset (s : State) (e c : Nat) : State :=
  if dmaHalted s e c then dmaChannelMod s e c (fun x => { x with state := .disabled, desc := none, flushing := false }) else s

def execDmaChReset (e : Fin 4) (c : Fin 16) (s : State) : Result := .next (dmaChReset s e.val c.val)

/-! Registers of a channel (R500, R509). -/

/-- A write of DMA_CH_CFG. -/
def dmaConfig (s : State) (e c : Nat) (v : W64) : State :=
  if c = 0 then s
  else
    dmaChannelMod s e c (fun x =>
      let on := v.getLsbD 0
      let state := if on then (if !x.enable && x.state == .disabled then .idle else x.state)
        else if x.state = .running then .running else .disabled
      { x with enable := on, irqOnHalt := v.getLsbD 1, vector := vectorField x.vector v, state := state })

def execDmaChEnableWrite (e : Fin 4) (c : Fin 16) (v : W64) (s : State) : Result := .next (dmaConfig s e.val c.val v)

/-- A write of PRODUCER. -/
def dmaProducer (s : State) (e c : Nat) (v : W16) : State :=
  if c = 0 then s
  else
    dmaChannelMod s e c (fun x =>
      if (v - x.head).toNat ≤ dmaRingSize x then { x with producer := v } else { x with dbErrors := wrapInc x.dbErrors })

def execDmaChProdWrite (e : Fin 4) (c : Fin 16) (v : W16) (s : State) : Result := .next (dmaProducer s e.val c.val v)

/-- A reset that covers PF0 of an endpoint (R509). -/
def dmaAbandon (s : State) (ep : Nat) : State :=
  [2 * ep, 2 * ep + 1].foldl (fun s e =>
    let s := dmaEngineMod s e (fun x => { x with last := 15, active := 0 })
    (List.range 15).foldl (fun s k =>
      if (dmaChannelOf s e (k + 1)).state = .disabled then s
      else dmaChannelMod s e (k + 1) (fun x => { x with state := .disabled, desc := none, flushing := false })) s) s

end Sys2Proof.Machine
end

