-- ==== Sys2Proof/Machine/Operands.lean ====
section
/-!
DEFINITION. Operands of the Slazer instructions: registers, half modes, immediates, the fields a format leaves unused
(R364-R368), and the issue of one instruction (R363, R366).
-/

namespace Sys2Proof

/-! Registers (R364): g0 reads zero, and writes to it are discarded. -/

def regGet (b : Batch) (i : Nat) : W48 := if i = 0 then 0#48 else b.regs.getD i 0#48
def regSet (b : Batch) (i : Nat) (v : W48) : Batch := if i = 0 then b else { b with regs := b.regs.set i v }

/-- Consecutive registers written from `i` on. -/
def regSetAll (b : Batch) : Nat → List W48 → Batch
  | _, [] => b
  | i, v :: vs => regSetAll (regSet b i v) (i + 1) vs

/-! Half modes (R364). -/

def loHalf (x : W48) : W24 := BitVec.ofNat 24 x.toNat
def hiHalf (x : W48) : W24 := BitVec.ofNat 24 (x.toNat / 2 ^ 24)
def halves (hi lo : W24) : W48 := BitVec.ofNat 48 (hi.toNat * 2 ^ 24 + lo.toNat)

/-- The operations that take a half mode (R367). -/
inductive Alu where
  | add | sub | and | or | xor | andn | shl | shr | sar | minu | maxu | seq | slt | sltu
  deriving DecidableEq, Repr

/-- An operation on `w` bits, the shift amount the low `k` bits of its second operand (R368). -/
def aluOp {w : Nat} (k : Nat) (o : Alu) (x y : BitVec w) : BitVec w :=
  let n := y.toNat % 2 ^ k
  let flag := fun (c : Bool) => if c then BitVec.ofNat w 1 else 0#w
  match o with
  | .add => x + y
  | .sub => x - y
  | .and => x &&& y
  | .or => x ||| y
  | .xor => x ^^^ y
  | .andn => x &&& ~~~y
  | .shl => x <<< n
  | .shr => x >>> n
  | .sar => x.sshiftRight n
  | .minu => if x.toNat ≤ y.toNat then x else y
  | .maxu => if x.toNat ≤ y.toNat then y else x
  | .seq => flag (x == y)
  | .slt => flag (x.slt y)
  | .sltu => flag (x.ult y)

/-- An operation in half mode `h`: the old value of rd gives what the mode keeps. -/
def halfOp (h : Nat) (o : Alu) (old x y : W48) : W48 :=
  let lo := aluOp 5 o (loHalf x) (loHalf y)
  let hi := aluOp 5 o (hiHalf x) (hiHalf y)
  match h with
  | 0 => aluOp 6 o x y
  | 1 => halves (hiHalf old) lo
  | 2 => halves hi (loHalf old)
  | _ => halves hi lo

/-! Immediates (R368). -/

/-- IMM as the second operand: in FULL mode sign-extended for ADDI and MOVI and zero-extended for the others; in the
half modes the operand of each half. -/
def immOf (h : Nat) (signed : Bool) (imm : BitVec 24) : W48 :=
  if h = 0 then (if signed then imm.signExtend 48 else imm.setWidth 48) else halves imm imm

/-! The words of the formats (R365): the opcode in bits [47:40]. -/

def RR.word (op : Nat) (f : RR) : W48 :=
  pack 48 [put op 40 8, put f.rd.val 35 5, put f.ra.val 30 5, put f.rb.val 25 5, put f.h.val 23 2, f.zero.toNat]
def RI.word (op : Nat) (f : RI) : W48 :=
  pack 48 [put op 40 8, put f.rd.val 35 5, put f.ra.val 30 5, put f.h.val 28 2, put f.zero.toNat 24 4, f.imm.toNat]
def XF.word (op : Nat) (f : XF) : W48 :=
  pack 48 [put op 40 8, put f.rd.val 35 5, put f.ra.val 30 5, put f.rb.val 25 5, f.imm.toNat]
def MF.word (op : Nat) (f : MF) : W48 :=
  pack 48 [put op 40 8, put f.rd.val 35 5, put f.ra.val 30 5, put f.zero.toNat 20 10, f.off.toNat]
def PF.word (op : Nat) (f : PF) : W48 :=
  pack 48 [put op 40 8, put f.rd.val 35 5, put f.ra.val 30 5, put f.handle.val 26 4, put f.zero.toNat 24 2, f.imm.toNat]
def BF.word (op : Nat) (f : BF) : W48 :=
  pack 48 [put op 40 8, put f.zero.toNat 35 5, put f.ra.val 30 5, put f.rb.val 25 5, put f.mid.toNat 15 10, f.disp.toNat]
def LF.word (op : Nat) (f : LF) : W48 :=
  pack 48 [put op 40 8, put f.count.toNat 32 8, put f.zero.toNat 15 17, f.body.toNat]

/-! The formats read from a word. -/

def finOf {n : Nat} [NeZero n] (w : W48) (lo bits : Nat) : Fin n := Fin.ofNat n (fieldN w.toNat lo bits)

def RR.of (w : W48) : RR :=
  { rd := finOf w 35 5, ra := finOf w 30 5, rb := finOf w 25 5, h := finOf w 23 2, zero := field w 0 23 }
def RI.of (w : W48) : RI := { rd := finOf w 35 5, ra := finOf w 30 5, h := finOf w 28 2, zero := field w 24 4, imm := field w 0 24 }
def XF.of (w : W48) : XF := { rd := finOf w 35 5, ra := finOf w 30 5, rb := finOf w 25 5, imm := field w 0 25 }
def MF.of (w : W48) : MF := { rd := finOf w 35 5, ra := finOf w 30 5, zero := field w 20 10, off := field w 0 20 }
def PF.of (w : W48) : PF :=
  { rd := finOf w 35 5, ra := finOf w 30 5, handle := finOf w 26 4, zero := field w 24 2, imm := field w 0 24 }
def BF.of (w : W48) : BF :=
  { zero := field w 35 5, ra := finOf w 30 5, rb := finOf w 25 5, mid := field w 15 10, disp := field w 0 15 }
def LF.of (w : W48) : LF := { count := field w 32 8, zero := field w 15 17, body := field w 0 15 }

/-! Unused fields (R365, R366). -/

def within (mask imm : Nat) : Bool := Nat.land imm mask == imm

def RR.plain (f : RR) : Bool := f.zero == 0#23
def RR.full (f : RR) : Bool := f.plain && f.h == 0
def RR.blank (f : RR) : Bool := f.full && f.rd == 0 && f.ra == 0 && f.rb == 0
def RI.plain (f : RI) : Bool := f.zero == 0#4

/-- A format X instruction that uses the named registers and the bits of a mask of IMM. -/
def XF.ok (f : XF) (rd ra rb : Bool) (mask : Nat) : Bool :=
  (rd || f.rd == 0) && (ra || f.ra == 0) && (rb || f.rb == 0) && within mask f.imm.toNat

def MF.ok (f : MF) : Bool := f.zero == 0#10

def PF.ok (f : PF) (rd ra handle : Bool) (mask : Nat) : Bool :=
  f.zero == 0#2 && (rd || f.rd == 0) && (ra || f.ra == 0) && (handle || f.handle == 0) && within mask f.imm.toNat

/-- The branches that compare RA and RB. -/
def BF.ok (f : BF) : Bool := f.zero == 0#5 && f.mid == 0#10

/-- BIT of BBS and BBC: bits [29:24]. -/
def BF.bit (f : BF) : Nat := f.rb.val * 2 + f.mid.toNat / 2 ^ 9
def BF.bitOk (f : BF) : Bool := f.zero == 0#5 && f.mid.toNat % 2 ^ 9 == 0 && decide (f.bit < 48)

def LF.ok (f : LF) : Bool := f.zero == 0#17 && f.count != 0#8 && f.body != 0#15

/-! The flow of control (R383). -/

/-- The pc after the instruction at `pc`, and the loops in progress: at the end of a body the next pass begins, or the
loop ends. -/
def fallFrom : List LoopFrame → Nat → Nat × List LoopFrame
  | [], pc => (pc + 1, [])
  | f :: fs, pc =>
    if pc = f.last then
      if 1 < f.left then (f.first, { f with left := f.left - 1 } :: fs) else fallFrom fs pc
    else (pc + 1, f :: fs)

/-- The same for a jump to `target`: one to the instruction after a body ends that loop. -/
def jumpFrom : List LoopFrame → Nat → Nat × List LoopFrame
  | [], target => (target, [])
  | f :: fs, target =>
    if target = f.last + 1 then fallFrom fs f.last
    else if f.first ≤ target ∧ target ≤ f.last then (target, f :: fs)
    else jumpFrom fs target

def fall (b : Batch) : Batch :=
  let r := fallFrom b.loops b.pc
  { b with pc := r.1, loops := r.2 }

def jump (b : Batch) (target : Nat) : Batch :=
  let r := jumpFrom b.loops target
  { b with pc := r.1, loops := r.2 }

end Sys2Proof

namespace Sys2Proof.Machine

/-- What an instruction does: it goes on, faults with a cause of R356, or has its batch discarded (R357). -/
inductive Issued where
  | next (s : State) (b : Batch)
  | fault (cause : Nat)
  | discard

/-- The word of the engine's cluster at a batch's pc (R381). -/
def imemAt (s : State) (e pc : Nat) : W48 := tgetD (clusterOf s (e / 12)).imem pc 0#48

/-- An instruction of R367 has the word's opcode. -/
def opDefined (w : W48) : Bool :=
  let op := w.toNat / 2 ^ 40
  [(0x01, 0x01), (0x10, 0x1F), (0x20, 0x29), (0x30, 0x35), (0x40, 0x43), (0x50, 0x58), (0x60, 0x65), (0x70, 0x76), (0x80, 0x8A),
   (0x8F, 0x8F)].any (fun (r : Nat × Nat) => decide (r.1 ≤ op) && decide (op ≤ r.2))

/-- The next instruction of a thread issues, at a cost in issue slots (R363): `word` is the instruction's, which stands at the
batch's pc in the instruction memory that the Recipe loaded (R3). A word with an error that is not corrected is cause IMEM_ECC
(R358), an undefined encoding cause ILLEGAL_INSTRUCTION (R366), which an opcode that no instruction has is too: a word never written
reads 0x00. Without a batch before its commit point and within its slot, or where the memory holds another instruction, nothing
issues. -/
def issue (s : State) (e t : Nat) (word : W48) (legal : Bool) (cost : Batch → Nat) (f : Batch → Issued) : State :=
  match batchOf s e t with
  | none => s
  | some b =>
    let other := imemAt s e b.pc != word
    if b.committed.isSome || decide (b.slotStart + b.slotLen ≤ b.slot) || (other && opDefined (imemAt s e b.pc)) then s
    else if (clusterOf s (e / 12)).imemBad.contains b.pc then threadFault s e t 0x07
    else if other || !legal then threadFault s e t 0x01
    else
      match f b with
      | .next s b' => batchPut s e t (some { b' with slot := b.slot + cost b })
      | .fault c => threadFault s e t c
      | .discard => batchDiscard s e t

def cost (n : Nat) : Batch → Nat := fun _ => n

/-- LDS and STS (R369). -/
def sharedCost (b : Batch) : Nat := if b.remote then 4 else 1

/-- An instruction that writes rd from the batch alone. -/
def issueReg (s : State) (e t : Nat) (word : W48) (legal : Bool) (n rd : Nat) (v : Batch → W48) : State :=
  issue s e t word legal (cost n) (fun b => .next s (fall (regSet b rd (v b))))

/-- Format RR with a half mode. -/
def aluRR (op : Nat) (o : Alu) (e t : Nat) (f : RR) (s : State) : State :=
  issueReg s e t (f.word op) f.plain 1 f.rd.val
    (fun b => halfOp f.h.val o (regGet b f.rd.val) (regGet b f.ra.val) (regGet b f.rb.val))

/-- Format RI. -/
def aluRI (op : Nat) (o : Alu) (signed : Bool) (e t : Nat) (f : RI) (s : State) : State :=
  issueReg s e t (f.word op) f.plain 1 f.rd.val
    (fun b => halfOp f.h.val o (regGet b f.rd.val) (regGet b f.ra.val) (immOf f.h.val signed f.imm))

/-- A conditional branch: pc + 1 + DISP, or the next instruction. -/
def branch (e t : Nat) (word : W48) (legal : Bool) (disp : Nat) (taken : Batch → Bool) (s : State) : State :=
  issue s e t word legal (cost 1) (fun b => .next s (if taken b then jump b (b.pc + 1 + disp) else fall b))

/-- A word of local memory as the batch sees it (R339, R341), for a legal address. -/
def localGet (s : State) (e t : Nat) (b : Batch) (a : Nat) : W48 :=
  match tget b.localW a with
  | some v => v
  | none =>
    if a < 16 then b.ctx.getD a 0#48
    else if a < 80 then b.window.getD (a - 16) 0#48
    else tgetD (threadOf s e t).area a 0#48

/-- `n` words from a local address, or none beyond word 8,191. -/
def localWords (s : State) (e t : Nat) (b : Batch) (a n : Nat) : Option (List W48) :=
  if a + n ≤ 8192 then some ((List.range n).map (fun i => localGet s e t b (a + i))) else none

/-- Bytes of words with byte 0 in [7:0], and with the first byte in [47:40]. -/
def bytesUp (ws : List W48) : List Byte := ws.flatMap (fun w => leBytes 6 w.toNat)
def bytesDown (ws : List W48) : List Byte := ws.flatMap (fun w => beBytes 6 w.toNat)

end Sys2Proof.Machine
end

