-- ==== Sys2Proof/Machine/IsaMem.lean ====
section
/-!
DEFINITION. The meanings of the memory instructions and of the packet instructions (R369-R374).
-/

namespace Sys2Proof.Machine

/-! Local and shared memory (R339-R341, R369). -/

/-- RA + OFF over 48 bits. -/
def memAddr (b : Batch) (f : MF) : Nat := (regGet b f.ra.val + f.off.setWidth 48).toNat

/-- LDL. -/
def execLdl (e : Fin 96) (t : Fin 8) (f : MF) (s : State) : Result :=
  .next (issue s e.val t.val (f.word 0x40) f.ok (cost 1) (fun b =>
    let a := memAddr b f
    if 8192 ≤ a then .fault 0x02 else .next s (fall (regSet b f.rd.val (localGet s e.val t.val b a)))))

/-- STL. -/
def execStl (e : Fin 96) (t : Fin 8) (f : MF) (s : State) : Result :=
  .next (issue s e.val t.val (f.word 0x41) f.ok (cost 1) (fun b =>
    let a := memAddr b f
    if a < 16 ∨ 8192 ≤ a then .fault 0x02
    else if 512 ≤ b.nLocal then .fault 0x03
    else .next s (fall { b with localW := tset b.localW a (regGet b f.rd.val), nLocal := b.nLocal + 1 })))

/-- A word of shared memory as the batch sees it. -/
def sharedSeen (s : State) (b : Batch) (a : Nat) : W48 :=
  match tget b.sharedW a with
  | some v => v
  | none => if a < 65536 then inboxWord s b.cluster a else sharedGet s b.cluster a

/-- LDS. A batch that reads a lost word is discarded (R357). -/
def execLds (e : Fin 96) (t : Fin 8) (f : MF) (s : State) : Result :=
  .next (issue s e.val t.val (f.word 0x42) f.ok sharedCost (fun b =>
    let a := memAddr b f
    if 1048576 ≤ a then .fault 0x02
    else if (clusterOf s b.cluster).lost.contains a && (tget b.sharedW a).isNone then .discard
    else .next s (fall { regSet b f.rd.val (sharedSeen s b a) with read := a :: b.read })))

/-- STS. -/
def execSts (e : Fin 96) (t : Fin 8) (f : MF) (s : State) : Result :=
  .next (issue s e.val t.val (f.word 0x43) f.ok sharedCost (fun b =>
    let a := memAddr b f
    if a < 65536 ∨ 1048576 ≤ a then .fault 0x02
    else if 128 ≤ b.nShared then .fault 0x03
    else .next s (fall { b with sharedW := tset b.sharedW a (regGet b f.rd.val), nShared := b.nShared + 1 })))

/-! Handles (R370). -/

def handleOf (b : Batch) (h : Nat) : Option Handle := tget b.handles h

/-- The bytes of a packet's frame with its FCS. -/
def frameBytes (p : Packet) : List Byte := p.bytes ++ leBytes 4 p.fcs.toNat

/-- A packet comes into a handle; rd gets its FRAME_LEN. -/
def handleFill (s : State) (b : Batch) (h rd id : Nat) (keptFrom : Option Nat) : Issued :=
  match pktOf s id with
  | none => .next s (fall (regSet b rd 0#48))
  | some p =>
    let b := { b with handles := tset b.handles h { pkt := id, bytes := frameBytes p, keptFrom := keptFrom },
                      taken := b.taken ++ [(id, keptFrom)] }
    .next (pktMod s id (fun p => { p with stage := .handle b.channel h })) (fall (regSet b rd (BitVec.ofNat 48 (frameLen p))))

/-- TAKE: the head of the channel's FIFO. -/
def execTake (e : Fin 96) (t : Fin 8) (f : PF) (s : State) : Result :=
  .next (issue s e.val t.val (f.word 0x50) (f.ok true false true 0) (cost 2) (fun b =>
    if (handleOf b f.handle.val).isSome then .fault 0x05
    else
      match fifoOf s b.channel with
      | [] => .next s (fall (regSet b f.rd.val 0#48))
      | id :: rest =>
        if 16 ≤ b.taken.length then .fault 0x03
        else handleFill (fifoSet s b.channel rest) b f.handle.val f.rd.val id none))

/-- The packet kept at an index that the batch has not taken. -/
def keptAt (s : State) (b : Batch) (k : Nat) : Option Nat :=
  match (channelOf s b.channel).bind (fun c => tget c.kept k) with
  | some id => if b.taken.any (fun x => x.1 == id) then none else some id
  | none => none

/-- TAKEK. -/
def execTakek (e : Fin 96) (t : Fin 8) (f : PF) (s : State) : Result :=
  .next (issue s e.val t.val (f.word 0x51) (f.ok true false true 0x3F) (cost 1) (fun b =>
    if (handleOf b f.handle.val).isSome then .fault 0x05
    else
      match keptAt s b f.imm.toNat with
      | none => .next s (fall (regSet b f.rd.val 0#48))
      | some id =>
        if 16 ≤ b.taken.length then .fault 0x03
        else handleFill s b f.handle.val f.rd.val id (some f.imm.toNat)))

/-- LDK. -/
def execLdk (e : Fin 96) (t : Fin 8) (f : PF) (s : State) : Result :=
  .next (issue s e.val t.val (f.word 0x52) (f.ok true false true 0x3F) (cost 1) (fun b =>
    match handleOf b f.handle.val with
    | none => .fault 0x05
    | some h =>
      let kv := ((pktOf s h.pkt).map (·.kv)).getD []
      .next s (fall (regSet b f.rd.val (kvGet kv f.imm.toNat)))))

/-! Packet bytes (R371). -/

/-- ra + IMM[13:0] over 48 bits. -/
def pktOffset (b : Batch) (f : PF) : Nat := (regGet b f.ra.val + BitVec.ofNat 48 (f.imm.toNat % 2 ^ 14)).toNat

/-- LDP: 6 bytes, the first in rd[47:40]; bytes beyond the frame read 0. -/
def execLdp (e : Fin 96) (t : Fin 8) (f : PF) (s : State) : Result :=
  .next (issue s e.val t.val (f.word 0x53) (f.ok true true true 0x3FFF) (cost 2) (fun b =>
    match handleOf b f.handle.val with
    | none => .fault 0x05
    | some h => .next s (fall (regSet b f.rd.val (BitVec.ofNat 48 (beVal (slice h.bytes (pktOffset b f) 6)))))))

/-- STP: the low IMM[16:14] + 1 bytes of rd, the most significant first; bytes beyond the frame are not written. -/
def execStp (e : Fin 96) (t : Fin 8) (f : PF) (s : State) : Result :=
  .next (issue s e.val t.val (f.word 0x54) (f.ok true true true 0x1FFFF && decide (f.imm.toNat / 2 ^ 14 < 6)) (cost 1) (fun b =>
    match handleOf b f.handle.val with
    | none => .fault 0x05
    | some h =>
      let v := beBytes (f.imm.toNat / 2 ^ 14 + 1) (regGet b f.rd.val).toNat
      let h : Handle := { h with bytes := patch h.bytes (pktOffset b f) v }
      .next s (fall { b with handles := tset b.handles f.handle.val h })))

/-! Dispositions (R349, R372). -/

/-- A handle's packet receives a disposition. -/
def dispose (b : Batch) (h : Nat) (x : PktEffect) : Batch :=
  { b with handles := tdel b.handles h, packets := b.packets ++ [x] }

/-- Indexes of the channel's kept packets that stay taken up: kept before and not disposed of, and staged keeps. -/
def keptBusy (s : State) (b : Batch) (except_ : Nat) (k : Nat) : Bool :=
  (match (channelOf s b.channel).bind (fun c => tget c.kept k) with
   | some id => id != except_ && (!(b.taken.any (fun x => x.1 == id)) || b.handles.any (fun h => h.2.pkt == id))
   | none => false)
  || b.packets.any (fun x => match x with | .keep _ _ i _ => i == k | _ => false)

/-- KEEP: the lowest free kept index. -/
def execKeep (e : Fin 96) (t : Fin 8) (f : PF) (s : State) : Result :=
  .next (issue s e.val t.val (f.word 0x55) (f.ok true false true 0) (cost 1) (fun b =>
    match handleOf b f.handle.val with
    | none => .fault 0x05
    | some h =>
      match firstBelow 64 (fun k => !keptBusy s b h.pkt k) with
      | none => .fault 0x03
      | some k =>
        .next s (fall (regSet (dispose b f.handle.val (.keep h.pkt h.bytes k f.handle.val)) f.rd.val
          (BitVec.ofNat 48 k)))))

/-! Edit lists (R374). -/

def editKindOf (n : Nat) : EditKind :=
  match n with
  | 1 => .insert | 2 => .delete | 3 => .tsWrite | 4 => .tsCorrect | 5 => .tsCapture | 6 => .ipv4Csum | _ => .reserved

/-- One word of a list. The bytes of an INSERT are read with it where its length and place allow. -/
def editOf (s : State) (e t : Nat) (b : Batch) (w : Nat) : Edit :=
  let kind := editKindOf (fieldN w 44 4)
  let len := fieldN w 16 14
  let at_ := fieldN w 0 13
  let bytes :=
    if kind = .insert ∧ 1 ≤ len ∧ len ≤ 256 then
      (localWords s e t b at_ (cdiv len 6)).map (fun ws => (bytesDown ws).take len)
    else none
  { kind := kind, offset := fieldN w 30 14, len := len, arg := BitVec.ofNat 16 w, bytes := bytes }

/-- A list from a local address: up to the first END, at most 8 words; none when a word read lies beyond local
memory. -/
def editsFrom (s : State) (e t : Nat) (b : Batch) : Nat → Nat → Option (List Edit)
  | 0, _ => some []
  | n + 1, a =>
    if 8192 ≤ a then none
    else
      let w := (localGet s e t b a).toNat
      if fieldN w 44 4 = 0 then some []
      else (editsFrom s e t b n (a + 1)).map (fun es => editOf s e t b w :: es)

/-- RLS: to destination word ra[31:0], with the edit list that IMM names. -/
def execRls (e : Fin 96) (t : Fin 8) (f : PF) (s : State) : Result :=
  .next (issue s e.val t.val (f.word 0x56) (f.ok false true true 0x3FFF) (cost 1) (fun b =>
    match handleOf b f.handle.val with
    | none => .fault 0x05
    | some h =>
      match if bitN f.imm.toNat 13 then editsFrom s e.val t.val b 8 (f.imm.toNat % 2 ^ 13) else some [] with
      | none => .fault 0x02
      | some es =>
        .next s (fall (dispose b f.handle.val
          (.release h.pkt h.bytes (BitVec.ofNat 32 (regGet b f.ra.val).toNat) es)))))

/-- DROP under the reason IMM[7:0]. -/
def execDrop (e : Fin 96) (t : Fin 8) (f : PF) (s : State) : Result :=
  .next (issue s e.val t.val (f.word 0x57) (f.ok false false true 0xFF) (cost 1) (fun b =>
    match handleOf b f.handle.val with
    | none => .fault 0x05
    | some h => .next s (fall (dispose b f.handle.val (.drop h.pkt f.imm.toNat)))))

/-! Emits (R373). -/

/-- The checks of an emit descriptor. -/
def emitOk (w0 w1 w2 : Nat) : Bool :=
  let bytes := fieldN w1 13 14
  decide (w0 < 2 ^ 30) && decide (w2 < 2 ^ 14)
  && (bitN w0 28 || (decide (w1 < 2 ^ 27) && decide (60 ≤ bytes) && decide (bytes ≤ 9216)
        && decide (fieldN w1 0 13 + cdiv bytes 6 ≤ 8192)))

/-- An emit whose descriptor passes. -/
def emitStage (s : State) (e t : Nat) (b : Batch) (w0 w1 : Nat) (es : List Edit) : Issued :=
  let hn := fieldN w0 24 4
  match handleOf b hn, bitN w0 28 || bitN w0 29 with
  | none, true => .fault 0x05
  | h, _ =>
    if 16 ≤ b.emits then .fault 0x03
    else
      let frame := match h, bitN w0 28 with
        | some h, true => h.bytes.take (h.bytes.length - 4)
        | _, _ =>
          let n := fieldN w1 13 14
          (bytesDown ((localWords s e t b (fieldN w1 0 13) (cdiv n 6)).getD [])).take n
      let slice := if s.board.f256 then fieldN w0 0 4 % 8 else fieldN w0 0 4
      let x : Emit :=
        { slice := slice, startSel := fieldN w0 4 4, tenant := fieldN w0 8 16, bytes := frame, edits := es }
      let b := { b with emits := b.emits + 1, packets := b.packets ++ [.emit x] }
      match h, bitN w0 29 with
      | some h, true => .next s (fall (dispose b hn (.consumed h.pkt)))
      | _, _ => .next s (fall b)

/-- EMIT. -/
def execEmit (e : Fin 96) (t : Fin 8) (f : PF) (s : State) : Result :=
  .next (issue s e.val t.val (f.word 0x58) (f.ok false false false 0x1FFF) (cost 2) (fun b =>
    match localWords s e.val t.val b f.imm.toNat 3 with
    | none => .fault 0x02
    | some ws =>
      let w0 := (ws.getD 0 0#48).toNat
      let w1 := (ws.getD 1 0#48).toNat
      let w2 := (ws.getD 2 0#48).toNat
      if !emitOk w0 w1 w2 then .next s (fall { b with emitFails := b.emitFails + 1 })
      else
        match if bitN w2 13 then editsFrom s e.val t.val b 8 (w2 % 2 ^ 13) else some [] with
        | none => .fault 0x02
        | some es => emitStage s e.val t.val b w0 w1 es))

end Sys2Proof.Machine
end

