-- ==== Sys2Proof/Machine/Mailbox.lean ====
section
/-!
DEFINITION. The mailboxes, and the messages that engines send to the Supervisor (R245, R353, R510-R515).
-/

namespace Sys2Proof.Machine

def boxOf (s : State) (m : Nat) : Mailbox := tgetD s.mbx.boxes m Mailbox.reset
def boxMod (s : State) (m : Nat) (f : Mailbox → Mailbox) : State :=
  { s with mbx := { s.mbx with boxes := tmod Mailbox.reset s.mbx.boxes m f } }

/-- The endpoint that owns a pair (R510). -/
def boxOwner (s : State) (m : Nat) : Nat := if s.mbx.owner.getLsbD m then 1 else 0

/-- MAILBOX is active on the owner's PF0. -/
def boxActive (s : State) (m : Nat) : Bool := featOn s (pf0Of (boxOwner s m)) featMailbox

def boxMask (s : State) (ep : Nat) : W32 := if ep = 0 then s.mbx.mask0 else s.mbx.mask1

/-- The Supervisor runs its firmware (R586, R593). -/
def supervisorRuns (s : State) : Bool := releasedOf s 6 && !s.rst.restarting

/-! Host writes (R512, R514). -/

/-- A rejected write of `n` bytes to an offset of BAR0: logged as Completer Abort with its header, REJECT bit m set. -/
def boxReject (s : State) (ep m off n : Nat) (other : Bool) : State :=
  let s := { s with mbx := { s.mbx with last := BitVec.ofNat 5 m, rejects := wrapInc s.mbx.rejects } }
  let s := boxMod s m (fun b => if other then { b with rejectOther := true } else { b with reject := true })
  completerAbort s (pf0Of ep) 0 off n true

/-- A write of endpoint `ep` to pair m, `n` bytes at an offset of BAR0: `f` where it is taken. -/
def boxWrite (s : State) (ep m off n : Nat) (f : State → State) : State :=
  if !boxActive s m then s
  else if boxOwner s m ≠ ep then boxReject s ep m off n true
  else
    let s := if (boxOf s m).rejectOther then boxMod s m (fun b => { b with rejectOther := false }) else s
    if (boxOf s m).h2sFull then boxReject s ep m off n false else f s

/-- MBX_H2S_RING. -/
def boxRing (s : State) (ep : Nat) (v : W32) : State :=
  ((List.range 32).filter (fun m => v.getLsbD m)).foldl (fun s m =>
    boxWrite s ep m 0x241000 4 (fun s => boxMod s m (fun b => { b with h2sFull := true, h2sAborted := false }))) s

def execMbxH2sRing (ep : Fin 2) (v : W32) (s : State) : Result := .next (boxRing s ep.val v)

/-- A host write into an H2S mailbox: an aligned access of 4 or 8 bytes; any other is dropped and logged (R449). -/
def boxData (s : State) (ep m o : Nat) (bytes : List Byte) : State :=
  if (bytes.length = 4 ∨ bytes.length = 8) ∧ o % bytes.length = 0 then
    boxWrite s ep m (0x240000 + 64 * m + o) bytes.length (fun s => boxMod s m (fun b => { b with h2s := patch b.h2s o bytes }))
  else completerAbort s (pf0Of ep) 0 (0x240000 + 64 * m + o) bytes.length true

def execMbxH2sDataWrite (ep : Fin 2) (m : Fin 32) (offset : Fin 64) (bytes : List Byte) (s : State) : Result :=
  .next (boxData s ep.val m.val offset.val bytes)

/-! Posting to the host (R513). -/

/-- A message written to S2H mailbox m with its tick, FULL set and the owner's vector 1 signalled. -/
def boxPost (s : State) (m : Nat) (msg : List Byte) : State :=
  let ep := boxOwner s m
  let s := boxMod s m (fun b => { b with s2h := patch msg 8 (leBytes 8 (now s)), s2hFull := true })
  if (boxMask s ep).getLsbD m then s else msix s (pf0Of ep) 1

/-- The H2S mailbox is released with its reply's posting. -/
def boxRelease (s : State) (m : Nat) : State := boxMod s m (fun b => { b with h2sFull := false, reject := false })

/-- S2H_POST: the held reply first, then the held engine message, once the mailbox is EMPTY. -/
def s2hPost (s : State) (m : Nat) : State :=
  let b := boxOf s m
  if b.s2hFull || !supervisorRuns s then s
  else
    match b.heldReply, b.heldEngine with
    | some r, _ =>
      let s := boxMod s m (fun b => { b with heldReply := none })
      if boxActive s m then boxPost (boxRelease s m) m r
      else boxRelease { s with mbx := { s.mbx with s2hLost := wrapInc s.mbx.s2hLost } } m
    | none, some x =>
      let s := boxMod s m (fun b => { b with heldEngine := none })
      if boxActive s m then boxPost s m x else { s with mbx := { s.mbx with s2hLost := wrapInc s.mbx.s2hLost } }
    | none, none => s

def execS2hPost (m : Fin 32) (s : State) : Result := .next (s2hPost s m.val)

/-- A reply: posted where the mailbox can take it, else held. -/
def boxReply (s : State) (m : Nat) (r : List Byte) : State :=
  s2hPost (boxMod s m (fun b => { b with heldReply := some r })) m

/-! Messages from the host (R511, R512). -/

/-- A mailbox whose message the Supervisor can take now. -/
def boxTakeable (s : State) (m : Nat) : Bool :=
  (boxOf s m).h2sFull && (boxOf s m).heldReply.isNone && boxActive s m

/-- Rung mailboxes are taken in ascending order, after pending admin commands. -/
def boxNext (s : State) : Option Nat := if adminPending s then none else firstBelow 32 (boxTakeable s)

/-- The words of a payload: six words of 8 bytes. -/
def boxWords (b : List Byte) : List W48 := (List.range (leAt b 7 1)).map (fun i => BitVec.ofNat 48 (leAt b (16 + 8 * i) 6))

/-- STATUS and reserved bytes 0, LENGTH at most 6 and words beyond it 0. -/
def boxWellFormed (b : List Byte) : Bool :=
  let n := leAt b 7 1
  leAt b 1 1 == 0 && decide (n ≤ 6) && leAt b 8 8 == 0
  && (List.range 6).all (fun i => leAt b (22 + 8 * i) 2 == 0 && (decide (i < n) || leAt b (16 + 8 * i) 8 == 0))

/-- The Supervisor takes the next rung mailbox, when it is m: a message of `kind` runs `f`; one of another valid kind is
left, and one of no valid kind is answered MALFORMED. -/
def boxTake (s : State) (m kind : Nat) (f : List Byte → State) : State :=
  let b := (boxOf s m).h2s
  let k := leAt b 0 1
  if boxNext s ≠ some m || !supervisorRuns s then s
  else if !boxWellFormed b || !([1, 2, 3].contains k) then
    boxReply s m ([b.getD 0 0#8, 1#8] ++ slice b 2 2 ++ zeroBytes 60)
  else if k = kind then f b
  else s

/-- ECHO. -/
def boxEcho (s : State) (m : Nat) : State :=
  boxTake s m 1 (fun b => boxReply s m ([1#8, 0#8] ++ slice b 2 6 ++ zeroBytes 8 ++ slice b 16 48))

def execEcho (m : Fin 32) (s : State) : Result := .next (boxEcho s m.val)

/-- TO_CHANNEL. -/
def boxToChannel (s : State) (m : Nat) : State :=
  boxTake s m 2 (fun b =>
    let (s, status) := sendChannel s 0xFFFFFF (leAt b 4 3) (BitVec.ofNat 16 (leAt b 2 2)) (boxWords b)
    boxReply s m ([2#8] ++ leBytes 1 status ++ slice b 2 5 ++ zeroBytes 57))

def execToChannel (m : Fin 32) (s : State) : Result := .next (boxToChannel s m.val)

/-- HOST_ALIVE: the mailbox is released without a reply. -/
def boxAlive (s : State) (m : Nat) : State :=
  boxTake s m 3 (fun _ => boxRelease { s with mbx := { s.mbx with alive := s.tmb.tick } } m)

def execHostAlive (m : Fin 32) (s : State) : Result := .next (boxAlive s m.val)

/-! Registers of the receiver (R513). -/

/-- MBX_S2H_RELEASE. -/
def boxReleaseS2h (s : State) (ep : Nat) (v : W32) : State :=
  ((List.range 32).filter (fun m => v.getLsbD m && boxOwner s m == ep && boxActive s m)).foldl (fun s m =>
    boxMod s m (fun b => { b with s2hFull := false })) s

def execMbxS2hRelease (ep : Fin 2) (v : W32) (s : State) : Result := .next (boxReleaseS2h s ep.val v)

/-- MBX_S2H_MASKn. -/
def boxMaskWrite (s : State) (n : Nat) (v : W32) : State :=
  let hit := (List.range 32).any (fun m =>
    (boxMask s n).getLsbD m && !v.getLsbD m && (boxOf s m).s2hFull && boxOwner s m == n)
  let s := if n = 0 then { s with mbx := { s.mbx with mask0 := v } } else { s with mbx := { s.mbx with mask1 := v } }
  if hit then msix s (pf0Of n) 1 else s

def execMbxS2hMaskWrite (n : Fin 2) (v : W32) (s : State) : Result := .next (boxMaskWrite s n.val v)

/-! Messages from engines (R245, R353, R513). -/

/-- The 64 bytes of an ENGINE_MESSAGE. -/
def engineMessage (x : Msg) : List Byte :=
  slice ([0x10#8, 0#8] ++ leBytes 2 x.tag.toNat ++ leBytes 3 x.source ++ leBytes 1 x.payload.length ++ zeroBytes 8
    ++ x.payload.flatMap (fun w => leBytes 6 w.toNat ++ [0#8, 0#8])) 0 64

/-- Subject of layout K (R552). -/
def subjK (tenant : Nat) (addr : List Byte) : W32 :=
  BitVec.ofNat 32 (tenant % 65536 * 65536 + (crcFrom 0xFFFFFFFF#32 addr).toNat % 65536)

/-- A duplicate-address report, whose payload spells bytes 0 to 35 of the record. DEDUCED: the first byte of the record stands in
bits 47:40 of the first word (log entry 161). -/
def dupReport (s : State) (x : Msg) : State :=
  let b := slice (bytesDown x.payload) 0 36
  let family := leAt b 2 1
  if x.payload.length ≠ 6 || (family ≠ 4 && family ≠ 6) || 1 < leAt b 3 1 then s
  else
    let addr := slice b 20 (if family = 4 then 4 else 16)
    let s := reportHeld (raiseFirmware s .dupAddress (subjK (leAt b 0 2) addr))
    event s .dupAddress (b ++ leBytes 8 x.tick.toNat ++ zeroBytes 4)

/-- SUPERVISOR_ENGINE_MESSAGE: the oldest message of the Supervisor's engine queue. -/
def supervisorMessage (s : State) : State :=
  match s.eng.supQueue with
  | [] => s
  | x :: rest =>
    if !supervisorRuns s || adminPending s then s
    else
      let s := { s with eng := { s.eng with supQueue := rest } }
      if !x.tag.getLsbD 15 then dupReport s x
      else
        let m := x.tag.toNat % 32
        if !boxActive s m || (boxOf s m).heldEngine.isSome then
          { s with mbx := { s.mbx with s2hLost := wrapInc s.mbx.s2hLost } }
        else boxMod s m (fun b => { b with heldEngine := some (engineMessage x) })

def execSupervisorEngineMessage (s : State) : Result := .next (supervisorMessage s)

/-! Resets of the host (R515). -/

/-- The pairs of an endpoint whose PF0 is reset. -/
def mailboxesReset (s : State) (ep : Nat) : State :=
  let one := fun (m : Mailbox) => (if m.s2hFull then 1 else 0) + (if m.heldReply.isSome then 1 else 0)
    + (if m.heldEngine.isSome then 1 else 0)
  let mine := s.mbx.boxes.filter (fun e => boxOwner s e.1 == ep)
  { s with mbx := { s.mbx with
      s2hAborted := wrapAdd s.mbx.s2hAborted (sumOf (mine.map (fun e => one e.2)))
      boxes := tmap s.mbx.boxes (fun k m =>
        if boxOwner s k = ep then
          { m with h2sFull := false, reject := false, s2hFull := false, heldReply := none, heldEngine := none }
        else m) } }

end Sys2Proof.Machine
end

