-- ==== Sys2Proof/Machine/Edits.lean ====
section
/-!
DEFINITION. The edits of the egress stage: those of the decision stages and edit lists, time stamps, and checksums
of IPv4, TCP and UDP (R219, R317, R374, R375).
-/

namespace Sys2Proof

/-! One's complement sums. -/

/-- The sum of 16-bit words, most significant byte first, an odd last byte padded with 0. -/
def sumWords : List Byte → Nat
  | [] => 0
  | [a] => a.toNat * 256
  | a :: b :: rest => a.toNat * 256 + b.toNat + sumWords rest

/-- A sum folded to 16 bits with end-around carry. -/
def fold16 (n : Nat) : Nat := if n = 0 then 0 else (n - 1) % 65535 + 1

/-- The checksum of a sum. -/
def csumOf (n : Nat) : Nat := 65535 - fold16 n

/-- A checksum updated for a change of the summed words (R219, R317). -/
def csumUpdate (c old new : Nat) : Nat := csumOf ((65535 - c) + (65535 - fold16 old) + new)

/-- Two bytes of a frame replaced. -/
def patch16 (bs : List Byte) (start v : Nat) : List Byte := patch bs start (beBytes 2 v)

/-! The decision stages' edits (R219). -/

/-- TTL or hop limit at marker L3 decremented, with the IPv4 header checksum. A frame that ends before these fields has none to
change (DESIGN CHOICE, log entry 162). -/
def decTtl (bs : List Byte) (l3 : Nat) : List Byte :=
  let nib := (bs.getD l3 0#8).toNat / 16
  if bs.length ≤ l3 + (if nib = 4 then 11 else 7) then bs
  else
    if nib = 4 then
      let old := beAt bs (l3 + 8) 2
      let out := patch bs (l3 + 8) [bs.getD (l3 + 8) 0#8 - 1#8]
      patch16 out (l3 + 10) (csumUpdate (beAt bs (l3 + 10) 2) old (beAt out (l3 + 8) 2))
    else if nib = 6 then patch bs (l3 + 7) [bs.getD (l3 + 7) 0#8 - 1#8]
    else bs

def routeEdit (p : Packet) (r : RouteEdit) : List Byte :=
  let bs := patch (patch p.bytes 0 (beBytes 6 r.da.toNat)) 6 (beBytes 6 r.sa.toNat)
  let l3 := fieldN (kvGet p.kv 6).toNat 0 9
  if r.decTtl && l3 != 0x1FF then decTtl bs l3 else bs

/-! UDP headers (R317). -/

/-- Header start and profile of stage k in a key vector (R190). -/
def stageOffset (kv : List W48) (k : Nat) : Nat :=
  if k < 5 then fieldN (kvGet kv 2).toNat (k * 9) 9 else fieldN (kvGet kv 3).toNat ((k - 5) * 9) 9
def stageProfile (kv : List W48) (k : Nat) : Nat :=
  if k < 6 then fieldN (kvGet kv 4).toNat (k * 8) 8 else fieldN (kvGet kv 5).toNat ((k - 6) * 8) 8

/-- KIND of the profile of stage k. -/
def stageKind (sec : ParseSection) (kv : List W48) (k : Nat) : Option ProfileKind :=
  (sec.profiles[stageProfile kv k]?).map (fun (p : Profile) => p.kind)

/-- The header before a marker names it with protocol or next-header value 17. -/
def namedUdp (sec : ParseSection) (p : Packet) (marker : Nat) : Bool :=
  (List.range 7).any (fun k =>
    stageOffset p.kv (k + 1) == marker &&
    (match stageKind sec p.kv k with
     | some .ipv4 => p.bytes.getD (stageOffset p.kv k + 9) 0#8 == 17#8
     | some .ipv6 => p.bytes.getD (stageOffset p.kv k + 6) 0#8 == 17#8
     | some .ipv6Ext => p.bytes.getD (stageOffset p.kv k) 0#8 == 17#8
     | _ => false))

/-- The UDP headers at markers INNER_L4 and L4. -/
def udpStarts (sec : ParseSection) (p : Packet) : List Nat :=
  [fieldN (kvGet p.kv 6).toNat 36 9, fieldN (kvGet p.kv 6).toNat 9 9].filter (fun m => m != 0x1FF && namedUdp sec p m)

/-- The checksum of the UDP header at `u` follows the change from `old` to `new`, unless it is 0. -/
def udpFollow (u : Nat) (old new : List Byte) : List Byte :=
  let c := beAt old (u + 6) 2
  if c = 0 || old.length < u + 8 then new
  else
    let c' := csumUpdate c (sumWords (old.drop u)) (sumWords (new.drop u))
    patch16 new (u + 6) (if c' = 0 then 0xFFFF else c')

/-! Edit lists (R374, R375). -/

/-- A list in progress: the frame, the UDP headers as shifted, what was inserted, skips, and TS_CAPTURE tags. -/
structure EditRun where
  bytes : List Byte
  udp : List Nat
  inserted : Nat
  skips : Nat
  tsSkips : Nat
  tags : List W16
  deriving DecidableEq, Repr

/-- A timestamp edit at bytes `at_` to `at_ + n - 1` (and the correction field before it): the frame after it with the
checksum of the innermost UDP header that begins before the field. -/
def tsChange (r : EditRun) (field : Nat) (new : List Byte) : EditRun :=
  match (r.udp.filter (fun u => decide (u < field))).foldl (fun (best : Option Nat) u =>
      match best with | some b => some (max b u) | none => some u) none with
  | some u => { r with bytes := udpFollow u r.bytes new }
  | none => { r with bytes := new }

def tsSkipped (r : EditRun) : EditRun := { r with skips := r.skips + 1, tsSkips := r.tsSkips + 1 }

/-- Seconds and nanoseconds of a stamp, and FRACTION (R313). -/
def stampTime (t : Stamp) : Nat × Nat × Nat :=
  (t.tick / 1000000, t.tick % 1000000 * 1000 + t.sub / 32, t.sub % 32 * 2048)

/-- `v` added to the 64-bit correctionField at a place. -/
def addCorrection (bs : List Byte) (start v : Nat) : List Byte := patch bs start (beBytes 8 (beAt bs start 8 + v))

/-- One edit; the egress stamp is `out`, the residence `resid` steps. -/
def editOne (out : Stamp) (resid : Nat) (r : EditRun) (e : Edit) : EditRun :=
  let len := r.bytes.length
  match e.kind with
  | .insert =>
    match e.bytes with
    | some b =>
      if len < e.offset || e.len = 0 || 256 < e.len || 256 < r.inserted + e.len then { r with skips := r.skips + 1 }
      else
        { r with bytes := r.bytes.take e.offset ++ slice b 0 e.len ++ r.bytes.drop e.offset
                 inserted := r.inserted + e.len
                 udp := r.udp.map (fun u => if e.offset ≤ u then u + e.len else u) }
    | none => { r with skips := r.skips + 1 }
  | .delete =>
    if len < e.offset + e.len || e.len = 0 || 256 < e.len then { r with skips := r.skips + 1 }
    else
      { r with bytes := r.bytes.take e.offset ++ r.bytes.drop (e.offset + e.len)
               udp := (r.udp.filter (fun u => !(decide (e.offset ≤ u) && decide (u < e.offset + e.len)))).map
                 (fun u => if e.offset + e.len ≤ u then u - e.len else u) }
  | .tsWrite =>
    if len < e.offset + 10 || e.offset < 24 then tsSkipped r
    else
      let (sec, ns, frac) := stampTime out
      tsChange r (e.offset - 24)
        (patch (addCorrection r.bytes (e.offset - 24) frac) e.offset (beBytes 6 sec ++ beBytes 4 ns))
  | .tsCorrect =>
    if len < e.offset + 8 then tsSkipped r else tsChange r e.offset (addCorrection r.bytes e.offset (resid * 2048))
  | .tsCapture => { r with tags := r.tags ++ [e.arg] }
  | .ipv4Csum =>
    let n := (r.bytes.getD e.offset 0#8).toNat % 16 * 4
    if len < e.offset + n || n < 20 then r
    else
      let zeroed := patch16 r.bytes (e.offset + 10) 0
      { r with bytes := patch16 zeroed (e.offset + 10) (csumOf (sumWords (slice zeroed e.offset n))) }
  | .reserved => { r with skips := r.skips + 1 }

/-- The 12 bytes of TIME96 (R313). -/
def time96Bytes (t : Stamp) : List Byte :=
  let (sec, ns, frac) := stampTime t
  leBytes 6 sec ++ leBytes 4 ns ++ leBytes 2 frac

/-- The 10 bytes of TICKSUB (R313). -/
def tickSubBytes (t : Stamp) : List Byte := leBytes 8 t.tick ++ leBytes 2 t.sub

/-- A timestamp record (R318): PORT, TAG and the stamp in truncated TICKSUB. -/
def stampRecord (port : Nat) (tag : W16) (t : Stamp) : List Byte :=
  leBytes 2 port ++ leBytes 2 tag.toNat ++ leBytes 4 t.tick ++ leBytes 2 t.sub ++ zeroBytes 6

/-- A list in order; a reserved KIND ends it. -/
def editList (out : Stamp) (resid : Nat) : EditRun → List Edit → EditRun
  | r, [] => r
  | r, e :: es => if e.kind = .reserved then editOne out resid r e else editList out resid (editOne out resid r e) es

/-- Every edit of a packet at egress (R375). -/
def egressEdit (sec : ParseSection) (p : Packet) (out : Stamp) : EditRun :=
  let bytes := match p.route with
    | some r => routeEdit p r
    | none => p.bytes
  editList out (out.steps - p.stamp.steps)
    { bytes := bytes, udp := udpStarts sec p, inserted := 0, skips := 0, tsSkips := 0, tags := [] } p.edits

/-! Checksum offload (R471). -/

/-- The end of the IP packet at `l3`, and the pseudo-header sum with its protocol. -/
def ipPseudo (bs : List Byte) (l3 l4 proto : Nat) : Nat × Nat :=
  let nib := (bs.getD l3 0#8).toNat / 16
  if nib = 4 then
    let stop := min bs.length (l3 + beAt bs (l3 + 2) 2)
    (stop, sumWords (slice bs (l3 + 12) 8) + proto + (stop - l4))
  else
    let stop := min bs.length (l3 + 40 + beAt bs (l3 + 4) 2)
    (stop, sumWords (slice bs (l3 + 8) 32) + proto + (stop - l4))

/-- The protocol that the header at marker L4 has: 6 TCP, 17 UDP, by the header before it. -/
def l4Proto (sec : ParseSection) (kv : List W48) (bs : List Byte) (l4 : Nat) : Nat :=
  match (List.range 7).find? (fun k => stageOffset kv (k + 1) == l4) with
  | none => 0
  | some k =>
    let o := stageOffset kv k
    match stageKind sec kv k with
    | some .ipv4 => (bs.getD (o + 9) 0#8).toNat
    | some .ipv6 => (bs.getD (o + 6) 0#8).toNat
    | some .ipv6Ext => (bs.getD o 0#8).toNat
    | _ => 0

/-- The offset of the checksum in the header of a protocol. -/
def csumAt (proto : Nat) : Option Nat := if proto = 6 then some 16 else if proto = 17 then some 6 else none

/-- CSUM: the IPv4 header checksum at `l3` and the TCP or UDP checksum at `l4` computed. -/
def csumOffload (sec : ParseSection) (kv : List W48) (bs : List Byte) (l3 l4 : Nat) : List Byte :=
  if l3 = 0x1FF then bs
  else
    let nib := (bs.getD l3 0#8).toNat / 16
    let n := (bs.getD l3 0#8).toNat % 16 * 4
    let bs := if nib = 4 && decide (l3 + n ≤ bs.length) then
        let z := patch16 bs (l3 + 10) 0
        patch16 z (l3 + 10) (csumOf (sumWords (slice z l3 n)))
      else bs
    let proto := l4Proto sec kv bs l4
    match csumAt proto with
    | some off =>
      if l4 = 0x1FF then bs
      else
        let z := patch16 bs (l4 + off) 0
        let (stop, pseudo) := ipPseudo z l3 l4 proto
        let c := csumOf (pseudo + sumWords (slice z l4 (stop - l4)))
        patch16 z (l4 + off) (if c = 0 && proto = 17 then 0xFFFF else c)
    | none => bs

/-- Whether the L3 and L4 checksums of a received frame check good; none where it has no L3 and L4 header. -/
def csumCheck (sec : ParseSection) (kv : List W48) (bs : List Byte) (l3 l4 : Nat) : Option Bool :=
  if l3 = 0x1FF || l4 = 0x1FF then none
  else
    let nib := (bs.getD l3 0#8).toNat / 16
    let n := (bs.getD l3 0#8).toNat % 16 * 4
    let l3ok := nib != 4 || fold16 (sumWords (slice bs l3 n)) == 65535
    let proto := l4Proto sec kv bs l4
    match csumAt proto with
    | some off =>
      let (stop, pseudo) := ipPseudo bs l3 l4 proto
      let none_ := proto = 17 && beAt bs (l4 + off) 2 == 0
      some (l3ok && (none_ || fold16 (pseudo + sumWords (slice bs l4 (stop - l4))) == 65535))
    | none => none

end Sys2Proof
end

