-- ==== Sys2Proof/Machine/Line.lean ====
section
/-!
DEFINITION. The meanings of the line side's commands: received frames, FEC, link and training, degraded links,
drains, MAC statistics, PRBS, and macros (R135-R175).
-/

namespace Sys2Proof.Machine

/-! Received frames (R152). -/

/-- The FCS of IEEE 802.3 over the bytes before it, as its four bytes. -/
def fcsOf (bytes : List Byte) : W32 := crc32 bytes

/-- The frame was in reception when its macro began to drain (R171): its stamp lies before that tick. -/
def receptionCut (s : State) (n tick : Nat) : Bool :=
  let x := macroOf s (macroOfPort n)
  x.state == .draining && decide (tick < x.drainTick)

/-- The receive condition of R152 that applies first, with the statistics it counts. A frame that R171 ends is dropped under its
reason. -/
def rxVerdict (s : State) (n : Nat) (p : Port) (tick : Nat) (bytes : List Byte) (aborted : Bool) :
    Option (DropReason × List Nat) :=
  let len := bytes.length
  let body := bytes.take (len - 4)
  let badFcs := decide (len < 4) || BitVec.ofNat 32 (leVal (bytes.drop (len - 4))) ≠ fcsOf body
  if receptionCut s n tick then some (.macroOffline, [])
  else if aborted then some (.rxAborted, [0x050])
  else if 0 < p.fecHit then some (.rxFecUncorrectable, [0x058])
  else if badFcs then
    some (.rxFcsError, [0x028] ++ (if len < 64 then [0x038] else if p.cfg.maxFrame < len then [0x048] else []))
  else if p.cfg.maxFrame < len then some (.rxOversize, [0x040])
  else if len < 64 then some (.rxUndersize, [0x030])
  else if beVal (slice bytes 12 2) = 0x8808 then some (.rxMacControl, [0x060])
  else if !p.admitting then some (rxRefusal s n, [])
  else none

/-- A new packet of a line arrival (R176, R252, R292). -/
def linePacket (n : Nat) (stamp : Stamp) (bytes : List Byte) : Packet :=
  { bytes := bytes.take (bytes.length - 4), fcs := BitVec.ofNat 32 (leVal (bytes.drop (bytes.length - 4))),
    origin := 0, port := n, startSel := 0, stamp := stamp, kv := [], version := 0, slot := none,
    owner := macroOfPort n, tenant := none, cls := 0, control := false, dest := 0#32, colour := 3, flowSkip := false,
    flowNoInsert := false, queueSet := none, meter := none, copyQueue := none, route := none, edits := [], fn := 0,
    gen := 0, sendFrom := none, icing := none, crumbs := crumbsOf bytes.length, queue := none, hold := none,
    egress := none, since := 0, stage := .lane }

/-- A packet's head joins the queue of its slice's header lanes (R26). -/
def laneJoin (s : State) (slice id : Nat) : State :=
  { s with crb := { s.crb with laneQ := tset s.crb.laneQ slice (tgetD s.crb.laneQ slice [] ++ [id]) } }

/-- RX_FRAME_DELIMITED (R152, R158, R162, R252, R283): one arrival, handed to the slice or dropped at the MAC. `bytes` are
those from the destination address through the FCS; the frame's stamp, referred to the pins, lies `ago` ticks back at `sub`; and
`blocks` invalid 66-bit blocks came since the last frame, those of an idle line among them: no other command brings any (R175; DESIGN
CHOICE, log entry 43). A port in TEST carries no frames (R170). Of a frame longer than
MAX_FRAME the bytes written to crumbs, MAX_FRAME + 1, are counted (R158; DEDUCED). -/
def rxFrame (s : State) (n : Nat) (bytes : List Byte) (ago sub : Nat) (aborted : Bool) (blocks : Nat) : State :=
  match portOf s n with
  | none => s
  | some p =>
    if p.state = .test then s
    else
      let s := if blocks = 0 then s else statAdd s n 0x1A0 blocks
      let s := portMod s n (fun p => { p with fecHit := p.fecHit - 1 })
      let tick := now s - ago
      let m := macroOfPort n
      let len := min bytes.length (p.cfg.maxFrame + 1)
      let s1 := addTo (countArrival s m 0 len) (cPort n 0) 1 len
      match rxVerdict s n p tick bytes aborted with
      | some (r, stats) => countDrop (stats.foldl (fun s o => statAdd s n o 1) s1) m (some n) none r.code len
      | none =>
        let s2 := addTo (statFrame s1 n false bytes len) (cPort n 1) 1 len
        if sharedFree s < crumbsOf len then
          let s3 := countDrop s2 m (some n) none DropReason.bufferExhausted.code len
          { s3 with crb := { s3.crb with exhausted := wrapInc s3.crb.exhausted } }
        else
          let (s3, id) := pktAdd s2 (linePacket n { tick := tick, sub := sub } bytes)
          laneJoin s3 m id

def execRxFrameDelimited (port : Fin 512) (bytes : List Byte) (start : RxStart) (aborted : Bool) (blocks : Nat)
    (s : State) : Result := .next (rxFrame s port.val bytes start.ago.val start.sub.val aborted blocks)

/-- Symbol errors that a codeword may have and be corrected (R153). -/
def fecLimit (fec : Nat) : Nat := if fec = 1 then 7 else 15

/-- FEC_CODEWORD_DECODE (R153): `frames` frames that are not yet delimited have bytes in the
codeword. A port in TEST counts nothing (R170). -/
def execFecCodewordDecode (port : Fin 512) (word : Codeword) (frames : Nat) (s : State) : Result :=
  .next <| match portOf s port with
  | none => s
  | some p =>
    if p.fec = 0 ∨ p.state = .test then s
    else
      let s := statAdd s port 0x180 1
      if word.uncorrectable || decide (fecLimit p.fec < word.symbols) then
        portMod (statAdd s port 0x190 1) port (fun p => { p with bin := p.bin + 1, fecHit := max p.fecHit frames })
      else if word.symbols = 0 then s
      else statAdd (statAdd s port 0x188 1) port 0x198 word.symbols

/-! Link, training and faults (R143, R149-R151, R154). -/

/-- Entry to LINK_FAULT from a state in which the link was up; other states only lose the link. A port in TRAINING stays in it:
R151 speaks of a port that was up, and names no state for fault sets received before (DESIGN CHOICE, log entry 115). -/
def enterLinkFault (s : State) (n : Nat) (tx : TxCondition) : State :=
  match portOf s n with
  | none => s
  | some p =>
    match p.state with
    | .up | .degraded =>
      statAdd (portMod s n (fun p => { linkDown p with state := .linkFault, txCond := tx })) n 0x1A8 1
    | .linkFault => portMod s n (fun p => { p with txCond := tx })
    | .adminDown | .offline | .halted | .safe => portMod s n linkDown
    | _ => s

/-- LANE_LOCK_LOST (R154): the lock bits, and the port follows R143. -/
def execLaneLockLost (port : Fin 512) (lock : Byte) (aligned : Bool) (s : State) : Result :=
  .next (enterLinkFault (portMod s port (fun p => { p with blockLock := lock, aligned := aligned })) port .remoteFault)

/-- LINK_LOST (R143, R145): the port stops admitting at once and enters LINK_FAULT or TRAINING. -/
def execLinkLost (port : Fin 512) (retrain : Bool) (s : State) : Result :=
  .next <| match portOf s port with
  | none => s
  | some p =>
    if retrain && (p.state == .up || p.state == .degraded || p.state == .linkFault) then
      portMod s port (fun p => toTraining (linkDown p))
    else enterLinkFault s port .remoteFault

/-- FAULT_SETS_RECEIVED (R151). -/
def execFaultSetsReceived (port : Fin 512) (remote : Bool) (s : State) : Result :=
  .next (enterLinkFault
    (portMod s port (fun p => if remote then { p with remoteFaultRx := true } else { p with localFaultRx := true }))
    port (if remote then .idle else .remoteFault))

/-- A port reaches UP: it admits from the next boundary (R143). -/
def linkUpPort (p : Port) : Port :=
  match p.state with
  | .training | .linkFault => { p with state := .up, fecHit := 0, link := true, txCond := .frames, localFaultRx := false, remoteFaultRx := false }
  | .adminDown | .offline => if p.drain.isSome then { p with link := true } else p
  | .halted | .safe => { p with link := true }
  | _ => p

/-- FAULT_SETS_CEASE (R151): the port returns to UP where every lane has block lock and is aligned. -/
def execFaultSetsCease (port : Fin 512) (s : State) : Result :=
  .next (portMod s port (fun p =>
    let p := { p with localFaultRx := false, remoteFaultRx := false }
    if p.state = .linkFault && p.aligned && p.blockLock == BitVec.ofNat 8 (2 ^ p.lanes - 1) then linkUpPort p else p))

/-- TRAINING_RESTART (R150, R161). -/
def execTrainingRestart (port : Fin 512) (s : State) : Result :=
  .next <| match portOf s port with
  | none => s
  | some p =>
    if p.state = .training ∨ p.state = .linkFault then statAdd (portMod s port toTraining) port 0x1B0 1 else s

/-- The receive lanes carry the port's PMA lanes, each once, in any order (R138). -/
def lanesDeskewed (p : Port) (order : List Nat) : Bool := order.length == p.lanes && (List.range p.lanes).all order.contains

/-- Auto-negotiation, where it runs, found the one technology that the port advertises: that of its combination (R149). -/
def negotiated (p : Port) (partner : List (Nat × Nat × Nat)) : Bool :=
  p.state != .training || !p.cfg.anEn || partner.contains (p.lanes, p.laneRate, p.fec)

/-- PORT_REACH_UP (R138, R149, R151): every lane locked and aligned, no fault seen. -/
def execPortReachUp (reach : PortReach) (s : State) : Result :=
  .next <|
    if macroOffline s (macroOfPort reach.port) then s
    else portMod s reach.port (fun p =>
      if negotiated p reach.partner && lanesDeskewed p reach.order then
        linkUpPort { p with blockLock := BitVec.ofNat 8 (2 ^ p.lanes - 1), aligned := true, rxOrder := reach.order }
      else p)

/-- REMOTE_DEGRADED_RX (R156): only RS(544,514) carries the indication. -/
def execRemoteDegradedRx (port : Fin 512) (set : Bool) (s : State) : Result :=
  .next (portMod s port (fun p => if p.fec = 2 then { p with remoteDegraded := set } else p))

/-! Degraded links (R155, R156): RS(544,514) sends the remote-degraded indication while DEGRADED. -/

/-- The clear threshold C. -/
def degradeClear (p : Port) : Nat := if 0 < p.degradeSet.toNat then min p.degradeClear.toNat (p.degradeSet.toNat - 1) else 0

/-- DEGRADE_EVALUATION at a boundary that begins a tick whose number is a multiple of 1,000. -/
def degradeEval (s : State) (n : Nat) : State :=
  match portOf s n with
  | none => s
  | some p =>
    if p.fec = 0 ∨ now s % 1000 ≠ 0 then s
    else
      let bins := (p.bin :: p.bins).take 10
      let sum := sumOf bins
      let s := portMod s n (fun p => { p with bins := bins, bin := 0, windowSum := BitVec.ofNat 32 sum,
                                              evalTickLo := BitVec.ofNat 32 (now s) })
      let subj := subjU (0x10 + macroOfPort n) n
      if p.state = .up ∧ p.degradeSet.toNat < sum then
        if p.cfg.degradeAction then
          let s := statAdd (portMod s n (fun p => { startDrain p .adminDown with contained := true })) n 0x1B8 1
          raiseAt s .linkDegraded (0x10 + macroOfPort n) subj 2 0
        else
          let s := statAdd (portMod s n (fun p =>
            { p with state := .degraded, txCond := if p.fec = 2 then .framesDegraded else p.txCond })) n 0x1B8 1
          raiseAt s .linkDegraded (0x10 + macroOfPort n) subj 1 0
      else if p.state = .degraded ∧ sum ≤ degradeClear p then portMod s n (fun p => { p with state := .up, txCond := .frames })
      else s

def execDegradeEvaluation (port : Fin 512) (s : State) : Result := .next (degradeEval s port)

/-! Drains (R145, R148, R167). -/

/-- The mapped port that uses a lane. -/
def portOfLane (s : State) (lane : Nat) : Option (Nat × Port) :=
  s.lnm.ports.find? (fun e => decide (e.1 ≤ lane) && decide (lane < e.1 + e.2.lanes))

/-- A pattern fits the lane's modulation (R168). -/
def patternFits (rate pattern : Nat) : Bool :=
  if pattern ≤ 5 then decide (rate ≤ 1) else if pattern ≤ 7 then decide (2 ≤ rate) else pattern == 8

/-- A pattern on a lane; a lane of no port has no modulation, and only a reserved pattern is unfit for it. -/
def laneFits (s : State) (lane pattern : Nat) : Bool :=
  match portOfLane s lane with
  | none => decide (pattern ≤ 8)
  | some (_, p) => patternFits p.laneRate pattern

def laneMod (s : State) (lane : Nat) (f : Lane → Lane) : State :=
  { s with lnm := { s.lnm with lanes := tmod Lane.reset s.lnm.lanes lane f } }

/-- BAD_CFG of `k` lanes from lane `n` on follows their modulation (R168, R605); a lane whose control was never written keeps
its reset values. -/
def lanesCheck (s : State) (n k : Nat) : State :=
  let check := fun (t : Tbl Lane) i => tadj t (n + i) (fun l =>
    let fits := laneFits s (n + i) l.pattern.toNat
    { l with badCfg := !fits, locked := l.locked && fits })
  { s with lnm := { s.lnm with lanes := (List.range k).foldl check s.lnm.lanes } }

/-- The lanes of a port enter TEST with their pattern results cleared (R167); LOCKED is one of these results, and keeps its value when
the port leaves TEST (DEDUCED, log entry 159). -/
def lanesEnterTest (s : State) (p : Port) (n : Nat) : State :=
  let clear := fun (t : Tbl Lane) i => tadj t (n + i) (fun l => { l with errors := 0#48, bits := 0#64, locked := false })
  { s with lnm := { s.lnm with lanes := (List.range p.lanes).foldl clear s.lnm.lanes } }

/-- PORT_DRAIN_DEADLINE: at the boundary that ends the 64th tick of a drain the remaining frames are dropped, and the port goes
where its drain leads; after 64 whole ticks without link the frames that a port holds for it are dropped. A frame still in
transmission counts among the remaining ones and is truncated: R145 does not speak of it, and after this boundary the lanes carry
no MAC data (DESIGN CHOICE, log entry 116). -/
def drainDeadline (s : State) (n : Nat) : State :=
  match portOf s n with
  | none => s
  | some p =>
    match p.drain with
    | some (k, 0) =>
      let s := if k = .macroDown then s else dropAllQueued (txTruncate s n .portDown) n .portDown
      match k with
      | .macroDown => s
      | .adminDown => portMod s n (fun p => { p with drain := none, state := .adminDown, link := false, txCond := .electricalIdle })
      | .test => lanesEnterTest (portMod s n (fun p => { p with drain := none, state := .test, link := false, txCond := .prbs })) p n
      | .speed => lanesCheck (portMod s n (fun p =>
          let (l, r, f) := p.newSpeed.getD (p.lanes, p.laneRate, p.fec)
          toTraining { p with drain := none, newSpeed := none, lanes := l, laneRate := r, fec := f,
                              txStartBase := p.cfg.txStart, remoteDegraded := false })) n p.cfg.lanes
    | none =>
      if 64 ≤ p.downTicks ∧ (p.state = .linkFault ∨ p.state = .training) then dropAllQueued s n .portDown else s
    | some _ => s

def execPortDrainDeadline (port : Fin 512) (s : State) : Result := .next (drainDeadline s port)

/-! MAC statistics (R165, R166). -/

/-- A read of HP0: the count, which no other read of the beat then returns. -/
def statReadHp0 (s : State) (n o : Nat) : State :=
  let s := statTake s n o
  { s with lnm := { s.lnm with readByHp0 := (n, o) :: s.lnm.readByHp0 } }

/-- A read of HP1, answered when the beat ends: HP0 may still read in it (log entry 119). -/
def statReadHp1 (s : State) (r : LateRead) : State :=
  { s with lnm := { s.lnm with lateReads := s.lnm.lateReads ++ [r] } }

/-- The value of a port's statistic, zero where the port is not mapped. -/
def statValue (s : State) (n o : Nat) : W64 := ((portOf s n).map (fun p => statRead p o)).getD 0#64

/-- MAC_STAT_READ; the Supervisor does not read them. -/
def execMacStatRead (r : Requester) (port : Fin 512) (offset : BitVec 12) (s : State) : Result :=
  .next <| match r with
  | .sup => s
  | .hp0 => emit (statReadHp0 s port offset.toNat) (.regData .hp0 (statValue s port offset.toNat))
  | .hp1 => statReadHp1 s { port := port, offset := offset.toNat, fn := none }

/-- A late read is answered: zero where HP0 read the same count in the beat. -/
def lateReadAnswer (s : State) (r : LateRead) : State :=
  let hp0 := s.lnm.readByHp0.contains (r.port, r.offset)
  let v := if hp0 then 0#64 else statValue s r.port r.offset
  emit (if hp0 then s else statTake s r.port r.offset)
    (match r.fn with
     | none => .regData .hp1 v
     | some fn => .completion fn 0 (leBytes 8 v.toNat))

/-- A write of LNM_PORT_TX_START (R161): clamped to 1-16, in both thresholds at once. -/
def txStartWrite (s : State) (n : Nat) (v : W64) : State :=
  let b := max 1 (min 16 (v.toNat % 32))
  portMod s n (fun p => { p with txStartBase := b, txStartNow := b })

def execLnmPortTxStartWrite (port : Fin 512) (v : W64) (s : State) : Result := .next (txStartWrite s port v)

/-! PRBS (R167-R169). -/

def clearLane (l : Lane) : Lane := { l with errors := 0#48, bits := 0#64 }

/-- The lane's macro exists: LM8-LM15 of HX9602-F256 are powered down for good (R6), and their registers ignore writes (R610). -/
def lanePowered (s : State) (lane : Nat) : Bool := !s.board.f256 || decide (lane < 256)

/-- A write of LNM_PRBS_CTRL. -/
def prbsWrite (s : State) (lane : Nat) (v : W64) : State :=
  let pat := field v 2 4
  let fits := laneFits s lane pat.toNat
  if !lanePowered s lane then s
  else laneMod s lane (fun l =>
    let chk := v.getLsbD 1
    let l' := if (chk && !l.chkEn) || v.getLsbD 8 then clearLane l else l
    { l' with genEn := v.getLsbD 0, chkEn := chk, pattern := pat, invert := v.getLsbD 6, badCfg := !fits,
              locked := l.locked && chk && fits })

/-- PRBS_CTRL_WRITE. -/
def execPrbsCtrlWrite (lane : Fin 512) (v : W64) (s : State) : Result := .next (prbsWrite s lane v)

/-- PRBS_CLEAR. -/
def execPrbsClear (lane : Fin 512) (s : State) : Result := .next (if lanePowered s lane then laneMod s lane clearLane else s)

/-- PRBS_CHECKER_LOCK (R169): the checker's lock, and the bits and bit errors counted since its last report, counted
only while it was locked. -/
def execPrbsCheckerLock (lane : Fin 512) (locked : Bool) (bits errors : Nat) (s : State) : Result :=
  .next <| match portOfLane s lane with
  | none => s
  | some (_, p) =>
    if p.state = .test then
      laneMod s lane (fun l =>
        let l := if l.locked then { l with bits := satAdd l.bits bits, errors := satAdd l.errors errors } else l
        { l with locked := locked && l.chkEn && !l.badCfg && l.pattern ≠ 8#4 })
    else s

/-! Macros (R171-R173). -/

/-- The MAC is sending a frame of a port. -/
def txBusy (s : State) (n : Nat) : Bool := ((schPort s n).tx.map (·.2.2)).getD false

/-- A port whose last frame is sent goes to electrical idle; the safe state keeps its sequences (R171, R174). -/
def portIdles (p : Port) : Port := { p with txCond := if p.txCond = .localFault then .localFault else .electricalIdle }

/-- MACRO_DRAIN_END: at T+65 every crumb still queued for the macro's ports is dropped; a frame in transmission completes, and a
port with none goes to electrical idle. -/
def macroDrainEnd (s : State) (m : Nat) : State :=
  let x := macroOf s m
  if x.state = .draining ∧ x.drainLeft = 0 then
    (portsOf s m).foldl (fun s n =>
      let s := dropAllQueued s n .macroOffline
      let busy := txBusy s n
      portMod s n (fun p => if busy then { p with drain := none } else portIdles { p with drain := none })) s
  else s

def execMacroDrainEnd (m : Fin 16) (s : State) : Result := .next (macroDrainEnd s m)

/-- Everyone of a list is answered OK. -/
def answerAll (s : State) (ws : List Waiter) : State := ws.foldl (fun s w => answer s w 0#8 []) s

/-- STATE becomes OFF: the power-downs that wait complete OK, and a power-up that waits begins at the next boundary (R171, R172).
Every port of the macro is OFFLINE. -/
def macroOff (s : State) (m : Nat) : State :=
  let x := macroOf s m
  let s := macroMod s m (fun x => { x with state := .off, pllLocked := false, downWait := [], upAfterOff := false,
                                           due := if x.upAfterOff then [.powerUp] else [] })
  let s := (portsOf s m).foldl (fun s n => portMod s n (fun p =>
    { p with state := .offline, admitting := false, dist := false, link := false, due := none, txCond := .electricalIdle })) s
  answerAll s x.downWait

/-- Every port of a draining macro has sent its last frame and dropped the rest. -/
def macroDrained (s : State) (m : Nat) : Bool :=
  (macroOf s m).state == .draining && (macroOf s m).drainLeft == 0
  && (portsOf s m).all (fun n => ((portOf s n).map (·.drain.isNone)).getD true && !txBusy s n)

/-- MACRO_OFF_COMPLETE: the PLL is off. -/
def execMacroOffComplete (m : Fin 16) (s : State) : Result := .next (if macroDrained s m then macroOff s m else s)

/-- MACRO_PLL_LOCK (R172): ON; ports with ADMIN_UP enter TRAINING, the others ADMIN_DOWN. A port that a squelch holds is SAFE, which
only R569 ends (R147). -/
def execMacroPllLock (m : Fin 16) (s : State) : Result :=
  let x := macroOf s m
  .next <|
    if x.state = .locking then
      let s := macroMod s m (fun x => { x with state := .on, pllLocked := true, upWait := [] })
      let s := (portsOf s m).foldl (fun s n => portMod s n (fun p =>
        if p.state = .offline then
          if (schPort s n).squelched then { p with state := .safe, txCond := .localFault }
          else if p.adminUp then toTraining p else { p with state := .adminDown, txCond := .electricalIdle }
        else p)) s
      answerAll s x.upWait
    else s

/-- MACRO_PLL_LOSS (R173): lanes idle at once, frames in transmission end with nothing signalled, PLL_FAILED; the ports follow at the
next boundary. Such a frame is dropped at once under MACRO_OFFLINE and counts in no TX_UNDERRUN, which no rule says (DESIGN CHOICE, log
entry 160). -/
def macroPllLoss (s : State) (m : Nat) : State :=
  let x := macroOf s m
  if x.state = .on ∨ x.state = .draining ∨ x.state = .locking then
    let s := macroMod s m (fun x => { x with state := .pllFailed, pllLocked := false, drainLeft := 0, due := x.due ++ [.failed],
                                             powerDowns := wrapInc x.powerDowns })
    let s := (portsOf s m).foldl (fun s n =>
      let s := if txBusy s n then txAbandon s n .macroOffline else s
      portMod s n (fun p => { p with link := false, drain := none, txCond := .electricalIdle })) s
    raise s .macroPllLoss (0x10 + m) wholeUnit
  else s

def execMacroPllLoss (m : Fin 16) (s : State) : Result := .next (macroPllLoss s m)

end Sys2Proof.Machine
end

