-- ==== Sys2Proof/Machine/Egress.lean ====
section
/-!
DEFINITION. The scheduler and the egress side: gates, deficit round robin, control credit, residence limits, and the
meanings of SCHEDULER_SELECT, GATE_ENTRY_CHANGE and the TX commands (R159-R163, R260-R273, R293, R316-R318).
-/

namespace Sys2Proof.Machine

/-! Gates (R264-R266). Times are counts of SUB steps, 32 to the nanosecond. -/

def nowSteps (s : State) : Nat := (nowStamp s).steps

def gateBase (g : GateList) : Nat := (g.baseS * 1000000000 + g.baseNs) * 32

/-- The phase of a list at a time, for every integer cycle. -/
def gatePhase (g : GateList) (t : Nat) : Nat := (((t : Int) - gateBase g) % ((g.cycleNs * 32 : Nat) : Int)).toNat

/-- The entry in force at a phase, and the steps left of it. -/
def gateEntryAt : List GateEntry → Nat → Nat → Nat × Nat
  | [], _, _ => (0, 0)
  | e :: es, i, ph => if ph < e.intervalNs * 32 then (i, e.intervalNs * 32 - ph) else gateEntryAt es (i + 1) (ph - e.intervalNs * 32)

/-- Steps until the first of the entries that closes gate `q`, none where none does. -/
def gateClose (q : Nat) : List GateEntry → Nat → Option Nat
  | [], _ => none
  | e :: es, acc => if e.gates.getLsbD q then gateClose q es (acc + e.intervalNs * 32) else some acc

/-- Steps until gate `q` of a list next closes; none where it never closes (R261). -/
def gateClosesIn (g : GateList) (t q : Nat) : Option Nat :=
  let (i, left) := gateEntryAt g.entries 0 (gatePhase g t)
  gateClose q (g.entries.drop (i + 1) ++ g.entries.take (i + 1)) left

/-- The gates of a port stand as `gates` with entry `i`; queues whose gate opens wake (R262). -/
def gateSet (s : State) (n : Nat) (gates : Byte) (i : Nat) : State :=
  let old := (schPort s n).gates
  let s := schPortMod s n (fun p => { p with gates := gates, entry := i })
  (List.range 8).foldl (fun s q =>
    if gates.getLsbD q && !old.getLsbD q && !(schQueue s (n * 8 + q)).frames.isEmpty then wake s (n * 8 + q) else s) s

/-- The gate state that the current list has now. -/
def gateNow (s : State) (n : Nat) : State :=
  match (schPort s n).list with
  | none => s
  | some g =>
    let (i, _) := gateEntryAt g.entries 0 (gatePhase g (nowSteps s))
    gateSet s n ((g.entries[i]?.map (·.gates)).getD 0xFF#8) i

/-- GATE_ENTRY_CHANGE (R266): the entry in force at this beat. -/
def execGateEntryChange (port : Fin 512) (s : State) : Result := .next (gateNow s port.val)

/-- The activation boundary of a list (R266, R267): the first at or after BASE, the next one where BASE has passed; on
a paired device not before the start of the tick two after its acceptance (R529). -/
def gateActTick (s : State) (g : GateList) : Nat :=
  let t := cdiv (g.baseS * 1000000000 + g.baseNs) 1000
  max t (if s.mir.pair.mode = 0 then now s + 1 else now s + 2)

/-- Duty 4 for one port: a pending list becomes current in phase, and a frame in transmission whose gate the new list
closes is counted (R266, R274). -/
def gateActivate (s : State) (n : Nat) : State :=
  let p := schPort s n
  match p.pendingList with
  | none => s
  | some g =>
    if now s < p.actTick then s
    else
      let s := schPortMod s n (fun p => { p with pendingList := none, list := if g.entries.isEmpty then none else some g })
      let s := if g.entries.isEmpty then gateSet s n 0xFF#8 0 else gateNow s n
      match p.tx with
      | some (_, qx, true) =>
        if qx < 4096 && !((schPort s n).gates.getLsbD (qx % 8)) then
          schPortMod s n (fun p => { p with gateOverruns := wrapInc p.gateOverruns })
        else s
      | _ => s

/-! Deficit round robin (R261, R262, R271). -/

def headLen (s : State) (id : Nat) : Nat := ((pktOf s id).map frameLen).getD 0

/-- The head frame is past its queue's residence limit (R271). -/
def headStale (s : State) (qx : Nat) : Bool :=
  let q := schQueue s qx
  match q.frames.head?.bind (pktOf s) with
  | some p => q.maxResidence != 0 && decide (p.stamp.steps + q.maxResidence * 32000 < nowSteps s)
  | none => false

/-- A send of `len` bytes can end before the gate of Qq closes (R261). -/
def fitsGate (s : State) (n q len : Nat) : Bool :=
  let p := schPort s n
  p.gates.getLsbD q &&
  (match p.list with
   | none => true
   | some g =>
     match gateClosesIn g (nowSteps s) q with
     | none => true
     | some d => decide ((len + 20) * 8 * 32000 ≤ d * ((portOf s n).map portMbps).getD 0))

/-- Posted buffers of a host queue that no frame has taken (R473). -/
def buffersFree (q : HostQueue) : Nat := q.work.length - sumOf ((q.dma.filter (·.live)).map (fun d => d.buffers.length))

/-- Bytes that a frame fills in host buffers: those that leave the egress stage without FCS, or, on a capture queue, the frame
as it was exported with its icing, again without FCS (R473). -/
def hostLen (s : State) (p : Packet) : Nat :=
  if p.icing.isSome then p.bytes.length + 32 else (egressEdit s.app.parse p (nowStamp s)).bytes.length

/-- Eligible (R261, R473): it holds a frame; a port's queue has its gate open for long enough, a host queue has the
buffers; a frame of an old generation needs none, for the DMA engines drop it (R495, R497). -/
def eligible (s : State) (u qx : Nat) : Bool :=
  match (schQueue s qx).frames.head? with
  | none => false
  | some id =>
    if u < 512 then fitsGate s u (qx % 8) (headLen s id)
    else
      match queueOf s (qx - 8192), pktOf s id with
      | some q, some p => BitVec.ofNat 16 p.gen != genOf s q.fn.toNat
          || q.state == .enabled && fnRuns s q.fn.toNat && decide (cdiv (hostLen s p) (max 1 q.bufSize) ≤ buffersFree q)
      | _, _ => false

/-- A frame of a queue given to the MAC or the DMA engines of unit `u`. -/
def sendHead (s : State) (u qx : Nat) : State :=
  match (schQueue s qx).frames.head? with
  | none => s
  | some id =>
    let len := headLen s id
    let s := if isCQ qx then schPortMod s u (fun p => { p with ctlCredit := p.ctlCredit - 4 * len })
      else schQueueMod s qx (fun q => { q with d := q.d - len })
    let s := pktMod (queueTake s qx id) id (fun p => { p with stage := if u < 512 then .sending else .hostDma })
    schPortMod s u (fun p => { p with tx := some (id, qx, false) })

/-- The head of a queue that is past its residence limit is dropped; no deficit is consumed. -/
def dropHead (s : State) (qx : Nat) : State :=
  match (schQueue s qx).frames.head? with
  | some id => dropPkt s id .residenceLimit
  | none => s

/-- The control queue is served: heads past their limit are dropped until one can be sent (R263, R271). -/
def serveControl (u : Nat) : Nat → State → State
  | 0, s => s
  | fuel + 1, s => if headStale s (4096 + u) then serveControl u fuel (dropHead s (4096 + u)) else sendHead s u (4096 + u)

/-- The eligible active queue with the least round, then the least number. -/
def nextVisit (s : State) (u : Nat) : Option Nat :=
  ((schPort s u).active.filter (eligible s u)).foldl (fun (best : Option Nat) qx =>
    match best with
    | none => some qx
    | some b =>
      let rb := (schQueue s b).rnd
      let rq := (schQueue s qx).rnd
      if rq < rb || (rq == rb && qx < b) then some qx else best) none

/-- next_frame (R262). `fuel` bounds the visits that end without a frame. The scheduler reaches a head where it would send it: one past
its residence limit is dropped there, and the visit goes on with the next (R271, R274; DEDUCED, log entry 118). -/
def nextFrame (u : Nat) : Nat → State → State
  | 0, s => s
  | fuel + 1, s =>
    match (schPort s u).cur with
    | some qx =>
      let q := schQueue s qx
      if eligible s u qx && decide ((((q.frames.head?.map (headLen s)).getD 0 : Nat) : Int) ≤ q.d) then
        if headStale s qx then nextFrame u fuel (dropHead s qx) else sendHead s u qx
      else
        let s := schQueueMod s qx (fun q => { q with rnd := q.rnd + 1 })
        nextFrame u fuel (schPortMod s u (fun p => { p with cur := none }))
    | none =>
      match nextVisit s u with
      | none => s
      | some qx =>
        let q := schQueue s qx
        let s := schPortMod s u (fun p => { p with v := q.rnd, cur := some qx })
        let s := schQueueMod s qx (fun q => { q with d := q.d + q.quantum })
        if headStale s qx then nextFrame u fuel (dropHead s qx) else sendHead s u qx

/-- Visits that one selection can need: two for each active queue and frame. -/
def selectFuel (s : State) (u : Nat) : Nat :=
  let a := (schPort s u).active
  2 * (a.length + sumOf (a.map (fun qx => (schQueue s qx).frames.length))) + 4

/-- SCHEDULER_SELECT of a unit: a port with its control queue served first while it has credit (R263), or a host
endpoint (512 + e), which shedding step 1 slows (R259). A unit that already has a frame selects none. -/
def schedulerSelect (s : State) (u : Nat) : State :=
  if (schPort s u).tx.isSome then s
  else if 512 ≤ u then
    if !shedOpen s then s
    else
      let s := nextFrame u (selectFuel s u) s
      match (schPort s u).tx with
      | some (id, _, _) => shedUse s (headLen s id)
      | none => s
  else if !portSends s u then s
  else
    let waiting := (schQueue s (4096 + u)).frames.length
    let s := if 0 < (schPort s u).ctlCredit then serveControl u (waiting + 1) s else s
    if (schPort s u).tx.isSome then s
    else
      let s := nextFrame u (selectFuel s u) s
      if (schPort s u).tx.isSome then s else serveControl u (waiting + 1) s

def execSchedulerSelect (unit : Fin 514) (s : State) : Result := .next (schedulerSelect s unit.val)

/-- Duty at a boundary: the control credit of a port rises by 1 % of its speed (R263): bytes per tick are Mbit/s
divided by 8, and the credit counts quarter bytes. -/
def creditRefill (s : State) (n : Nat) : State :=
  match portOf s n with
  | none => s
  | some p => schPortMod s n (fun q => { q with ctlCredit := min (8 * p.cfg.maxFrame) (q.ctlCredit + portMbps p / 200) })

/-! Transmission (R159-R163, R293). -/

/-- The domain unit's own DELAY_REQ, whose egress stamp is t3 (R546). -/
def delayReqFrame (p : Packet) : Bool :=
  p.origin == 2 && p.control && beVal (slice p.bytes 0 6) == 0x030000009602 && beVal (slice p.bytes 12 2) == 0x88B5
  && leVal (slice p.bytes 15 1) == 3

/-- The egress stage edits a packet at its egress stamp (R25, R316-R318), and counts the edits that it skips. -/
def egressStage (s : State) (id : Nat) (p : Packet) (out : Stamp) : State :=
  let r := egressEdit s.app.parse p out
  let s := pktMod s id (fun p => { p with bytes := r.bytes, egress := some out })
  { s with
    eng := { s.eng with editSkips := wrapAdd s.eng.editSkips r.skips }
    tmb := { s.tmb with tsEditSkips := wrapAdd s.tmb.tsEditSkips r.tsSkips } }

/-- Crumbs of a frame as the MAC sends it, after its edits and its padding (R157, R159). -/
def txCrumbs (s : State) (p : Packet) (out : Stamp) : Nat := crumbsOf (wireBytes (egressEdit s.app.parse p out).bytes).length

/-- A port of a macro that has powered down goes idle after its last frame (R171). -/
def lastFrame (s : State) (n : Nat) : State := portMod s n (fun p => if p.state = .offline ∧ p.drain.isNone then portIdles p else p)

/-- TX_START_NOW at a frame start: the underrun before it raised it by one crumb, up to 16 (R160). -/
def txStartAt (p : Port) : Nat := if p.txRaise then min 16 (p.txStartNow + 1) else p.txStartNow

/-- TX_FRAME_START: with `fifo` crumbs of the frame in the transmit FIFO, enough of them, the MAC begins to send it with stamp `sub`
of this tick, as the egress stage edits it. -/
def txFrameStart (s : State) (n sub fifo : Nat) : State :=
  match (schPort s n).tx, portOf s n with
  | some (id, qx, false), some q =>
    match pktOf s id with
    | none => s
    | some p =>
      if !portSends s n || decide (fifo < min (txStartAt q) (txCrumbs s p { tick := now s, sub := sub })) then s
      else
        let out : Stamp := { tick := now s, sub := sub }
        let s := egressStage (portMod s n (fun q => { q with txStartNow := txStartAt q, txRaise := false })) id p out
        let s := if delayReqFrame p then { s with dom := { s.dom with t3 := (out.steps : Int) } } else s
        schPortMod s n (fun x => { x with tx := some (id, qx, true), txFifo := fifo })
  | _, _ => s

def execTxFrameStart (port : Fin 512) (start : TxStart) (s : State) : Result :=
  .next (txFrameStart s port.val start.sub.val start.fifo)

/-- TX_UNDERRUN (R160): only a frame that the FIFO did not hold whole when it began can underrun (R159). -/
def txUnderrun (s : State) (n : Nat) : State :=
  match (schPort s n).tx, portOf s n with
  | some (id, _, true), some p =>
    if headLen s id ≤ (schPort s n).txFifo * 64 then s
    else
      let s := portMod (txTruncate s n .txUnderrun) n (fun p => { p with txRaise := true })
      let unit := 0x10 + macroOfPort n
      raise (lastFrame s n) (if 16 ≤ p.txStartNow then .txUnderrunLimit else .txUnderrun) unit n
  | _, _ => s

def execTxUnderrun (port : Fin 512) (s : State) : Result := .next (txUnderrun s port.val)

/-- Residence in ns, saturating (R272). -/
def residenceNs (p : Packet) : Nat :=
  match p.egress with
  | some t => min ((t.steps - p.stamp.steps) / 32) 0xFFFFFFFF
  | none => 0

/-- The timestamp records of a frame's TS_CAPTURE edits (R318). -/
def captureRecords (s : State) (id n : Nat) (p : Packet) : State :=
  match p.egress with
  | none => s
  | some out =>
    let tags := captureTags p.edits
    if tags.isEmpty then s
    else if p.origin = 1 then sendDeparted s id p out
    else
      { s with tmb := { s.tmb with supRecords := s.tmb.supRecords ++ tags.map (fun t => stampRecord n t out) } }

/-- TX_FRAME_DEPART (R293): the last bit is sent with a good FCS. The bytes counted are those sent (R281). -/
def txFrameDepart (s : State) (n : Nat) : State :=
  match (schPort s n).tx with
  | some (id, qx, true) =>
    match pktOf s id with
    | none => s
    | some p =>
      let wire := wireBytes p.bytes
      let len := wire.length
      let s := emit (statFrame s n true wire wire.length) (.frame n (lineBytes wire))
      let s := addTo s (cPort n 2) 1 len
      let s := if p.control then addTo s (cPort n 3) 1 len else s
      let s := schQueueMod s qx (fun q => { q with hwmRes := max q.hwmRes (residenceNs p) })
      let s := captureRecords s id n p
      lastFrame (schPortMod (departPkt s id len) n (fun x => { x with tx := none })) n
  | _ => s

def execTxFrameDepart (port : Fin 512) (s : State) : Result := .next (txFrameDepart s port.val)

/-- The high-water marks of every queue copied and restarted (R272). -/
def hwmCopy (s : State) : State :=
  { s with sch := { s.sch with queues := tmap s.sch.queues (fun _ q =>
      { q with lastCrumbs := q.hwmCrumbs, lastRes := q.hwmRes, hwmCrumbs := q.occ, hwmRes := 0 }) } }

end Sys2Proof.Machine
end

