-- ==== Sys2Proof/Machine/StorageOps.lean ====
section
/-!
DEFINITION. The NVM Express controllers: queues, completion entries, registers, admin commands' data and events (R418-R421,
R438, R440). Formats and codes that R419 takes from the NVM Express specifications are PRESUMED from them.
-/

namespace Sys2Proof.Machine

/-! Controllers. -/

/-- The function of a storage index (R418). -/
def ctlFn (s : State) (i : Nat) : Option Nat :=
  if i = 0 then some 0x4000
  else if i = 1 then some 0xC000
  else (s.hif.funcs.find? (fun e => e.2.storageIndex == some i)).map (·.1)

/-- The storage index of a function. -/
def ctlIndex (s : State) (fn : Nat) : Option Nat :=
  if fn = 0x4000 then some 0 else if fn = 0xC000 then some 1 else (funcOf s fn).bind (·.storageIndex)

/-- A function presents a controller only while NVME_FUNCTION is accepted for it. -/
def ctlOf (s : State) (i : Nat) : Option Controller :=
  match ctlFn s i with
  | none => none
  | some fn => if featOn s fn featNvme then some (tgetD s.sto.ctls i (Controller.reset (BitVec.ofNat 16 fn))) else none

def stoMod (s : State) (f : Sto → Sto) : State := { s with sto := f s.sto }

def ctlMod (s : State) (i : Nat) (f : Controller → Controller) : State :=
  match ctlOf s i with
  | none => s
  | some c => stoMod s (fun x => { x with ctls := tset x.ctls i (f c) })

/-- I/O queue pairs of a function (R419). -/
def ioPairs (s : State) (fn : Nat) : Nat :=
  match (funcOf s fn).bind (·.grant) with
  | some g => min 64 g.queueCount
  | none => 64

/-! Completion entries (R427). A status field holds SC in [7:0], SCT in [10:8] and DNR in [14]. -/

def cqFull (q : NvmeCq) : Bool := (q.tail + 1) % q.size == q.head

def nvmeEntry (p : NvmePost) (head : Nat) (phase : Bool) : List Byte :=
  leBytes 4 p.dw0 ++ zeroBytes 4 ++ leBytes 2 head ++ leBytes 2 p.sqid ++ leBytes 2 p.cid
    ++ leBytes 2 (putB phase 0 + put p.status 1 15)

/-- The interrupt of a completion queue. -/
def cqInterrupt (s : State) (fn : Nat) (k : NvmeCq) : State :=
  match k.vector with
  | some v => msix s fn v
  | none => s

/-- The first waiting completion whose queue has room. -/
def postNext (c : Controller) : Option (NvmePost × NvmeSq × NvmeCq) :=
  c.posts.findSome? (fun p =>
    match tget c.sqs p.sqid with
    | none => none
    | some q => match tget c.cqs q.cqid with
      | none => none
      | some k => if cqFull k then none else some (p, q, k))

/-- Interrupt Coalescing of a controller: aggregation threshold, in completions less one, and time, in units of 100 ticks (PRESUMED). -/
def coalesceThreshold (c : Controller) : Nat := fieldN c.coalescing.toNat 0 8
def coalesceTime (c : Controller) : Nat := 100 * fieldN c.coalescing.toNat 8 8

/-- A completion was written to queue `k`: its interrupt is due now, or gathered with later ones; the admin queue's never waits. -/
def coalesced (s : State) (c : Controller) (qid : Nat) (k : NvmeCq) : Bool × NvmeCq :=
  if qid = 0 || coalesceTime c == 0 || decide (coalesceThreshold c ≤ k.gathered) then (true, { k with gathered := 0 })
  else (false, { k with gathered := k.gathered + 1, since := if k.gathered = 0 then now s else k.since })

/-- The engine of a controller's queue: by the id that the queue has among the host queues (R465, R498). -/
def sqEngine (c : Controller) (sqid : Nat) : Nat := queueEngine c.fn.toNat (((tget c.sqs sqid).map (·.id)).getD 0)

/-- Completions that may be written, written in order, each with its queue's message. `fuel` bounds them. -/
def postFlush (i : Nat) : Nat → State → State
  | 0, s => s
  | fuel + 1, s =>
    match ctlOf s i with
    | none => s
    | some c =>
      match postNext c with
      | none => s
      | some (p, q, k) =>
        if !fnRuns s c.fn.toNat then s
        else
          let s := hostWrite s (sqEngine c p.sqid) c.fn.toNat (k.base.toNat + k.tail * 16) (nvmeEntry p q.head k.phase)
          let wrap := k.tail + 1 == k.size
          let k' := { k with tail := if wrap then 0 else k.tail + 1, phase := if wrap then !k.phase else k.phase }
          let (due, k') := coalesced s c q.cqid k'
          let s := ctlMod s i (fun c => { c with posts := c.posts.erase p, cqs := tset c.cqs q.cqid k' })
          postFlush i fuel (if due then cqInterrupt s c.fn.toNat k' else s)

def postAll (s : State) (i : Nat) : State := postFlush i (((ctlOf s i).map (fun c => c.posts.length)).getD 0) s

/-- A command of queue `sqid` completes. -/
def nvmeComplete (s : State) (i sqid cid status dw0 : Nat) : State :=
  postAll (ctlMod s i (fun c => { c with posts := c.posts ++ [{ sqid := sqid, cid := cid, status := status, dw0 := dw0 }] })) i

/-- Interrupts whose aggregation time has passed go out at a boundary. -/
def coalesceDue (s : State) : State :=
  s.sto.ctls.foldl (fun s e =>
    let due := fun (k : NvmeCq) => decide (0 < k.gathered) && decide (k.since + coalesceTime e.2 ≤ now s)
    let s' := (e.2.cqs.filter (fun k => due k.2)).foldl (fun s k => cqInterrupt s e.2.fn.toNat k.2) s
    ctlMod s' e.1 (fun c => { c with cqs := tmap c.cqs (fun _ k => if due k then { k with gathered := 0 } else k) })) s

/-! Submission queues among the host queues (R422, R465). -/

/-- The submission queues of the controllers: controller, queue, and what it is. -/
def nvmeQueues (s : State) : List (Nat × Nat × NvmeSq) := s.sto.ctls.flatMap (fun e => e.2.sqs.map (fun q => (e.1, q.1, q.2)))

/-- An id of the host queues is in use. -/
def queueIdUsed (s : State) (id : Nat) : Bool := thas s.que.queues id || (nvmeQueues s).any (fun x => x.2.2.id == id)

/-- The first of `n` ids from one on that is good. -/
def idFrom (good : Nat → Bool) : Nat → Nat → Option Nat
  | 0, _ => none
  | n + 1, i => if good i then some i else idFrom good n (i + 1)

/-- The id that a submission queue of a function takes: the lowest free one of its resource pool's, or, without a pool, the lowest of
none (DESIGN CHOICE, log entry 171). -/
def nvmeQueueId (s : State) (fn : Nat) : Option Nat :=
  match (funcOf s fn).bind (·.grant) with
  | some g => idFrom (fun i => !queueIdUsed s i) g.queueCount g.queueBase
  | none =>
    let pooled := fun (i : Nat) => s.que.pools.pools.any (fun x => decide (x.queueBase ≤ i) && decide (i < x.queueBase + x.queueCount))
    idFrom (fun i => !queueIdUsed s i && !pooled i) 65536 0

/-- Entries that one read of a submission queue takes: where they begin, and how many, up to 256 bytes, within the limits on commands
in process (R422). -/
def sqRun (s : State) (i sqid : Nat) (q : NvmeSq) : Nat × Nat :=
  let at_ := (q.head + q.granted) % q.size
  let new := (q.tail + q.size - q.head) % q.size - q.granted
  let ios := (nvmeQueues s).filter (fun x => x.2.1 ≠ 0)
  let grants := fun (l : List (Nat × Nat × NvmeSq)) => sumOf (l.map (fun x => x.2.2.granted))
  let room := min (4096 - (s.sto.cmds.filter (fun x => x.ctl == i)).length - grants (ios.filter (fun x => x.1 == i)))
    (262144 - s.sto.cmds.length - grants ios)
  (at_, min (min new 4) (min (q.size - at_) (if sqid = 0 then 4 else room)))

/-- A submission queue has work for a fetch slot of its endpoint, which shedding lets through (R131). -/
def sqFetches (s : State) (ep : Nat) (x : Nat × Nat × NvmeSq) : Bool :=
  match ctlOf s x.1 with
  | none => false
  | some c =>
    c.rdy && c.shst == 0#2 && epOf c.fn.toNat == ep && fnRuns s c.fn.toNat && decide (0 < (sqRun s x.1 x.2.1 x.2.2).2)
    && (x.2.1 == 0 || shedRoom s (64 * (sqRun s x.1 x.2.1 x.2.2).2))

/-- One read of up to 256 bytes of consecutive entries of a submission queue. -/
def sqFetch (s : State) (ep : Nat) (x : Nat × Nat × NvmeSq) : State :=
  if !sqFetches s ep x then s
  else
    let (k, n) := sqRun s x.1 x.2.1 x.2.2
    let s := ctlMod (if x.2.1 = 0 then s else shedUse s (64 * n)) x.1 (fun c =>
      { c with sqs := tadj c.sqs x.2.1 (fun q => { q with granted := q.granted + n }) })
    hostRead s (queueEngine ((ctlFn s x.1).getD 0) x.2.2.id) ((ctlFn s x.1).getD 0) (x.2.2.base.toNat + k * 64) (n * 64)

/-! Events (R438). -/

/-- A due notice goes out with the oldest Asynchronous Event Request. -/
def noticeSend (s : State) (i : Nat) : State :=
  match ctlOf s i with
  | none => s
  | some c =>
    match c.notice, c.aers with
    | .due, cid :: rest =>
      nvmeComplete (ctlMod s i (fun c => { c with notice := .reported, aers := rest })) i 0 cid.toNat 0 0x00040002
    | _, _ => s

/-- A namespace of a controller changed: its NSID joins the Changed Namespace List, and the notice is due where the guest
enabled it. -/
def nsNotice (s : State) (i nsid : Nat) : State :=
  noticeSend (ctlMod s i (fun c =>
    { c with changed := if c.changed.contains nsid then c.changed else c.changed ++ [nsid],
             notice := if c.aec.getLsbD 8 && c.notice == .none_ then .due else c.notice })) i

/-! Namespaces. -/

def nsOf (s : State) (n : Nat) : Namespace := tgetD s.sto.namespaces n Namespace.blank
def nsMod (s : State) (n : Nat) (f : Namespace → Namespace) : State :=
  stoMod s (fun x => { x with namespaces := tadj x.namespaces n f })

def nsLba (n : Namespace) : Nat := if n.lba4k then 4096 else 512

/-- Entries attached to a controller. -/
def nsAttached (s : State) (i : Nat) : List (Nat × Namespace) := s.sto.namespaces.filter (fun e => e.2.valid && e.2.fn == i)

def nsFind (s : State) (i nsid : Nat) : Option Nat := ((nsAttached s i).find? (fun e => e.2.nsid == nsid)).map (·.1)

/-- READY or NOT_READY; a change is notified. -/
def nsReady (s : State) (n : Nat) (ready : Bool) : State :=
  let x := nsOf s n
  if x.notReady != ready then s
  else nsNotice (nsMod s n (fun x => { x with notReady := !ready })) x.fn x.nsid

/-- KEY_LOST (R433). -/
def nsKeyLost (s : State) (x : Namespace) : Bool :=
  x.xts && ((tget s.cph.ctxs x.context).map (·.state)).getD s.cph.unlisted == .erased

/-! Registers of a controller (R419). -/

def nvmeCap : Nat := put 4095 0 16 + putB true 16 + put 40 24 8 + putB true 37

def csts (c : Controller) : Nat := putB c.rdy 0 + put c.shst.toNat 2 2

/-- A register of 4 bytes. -/
def nvmeReg (s : State) (i off : Nat) : Nat :=
  match ctlOf s i with
  | none => 0
  | some c =>
    match off with
    | 0x00 => nvmeCap % 2 ^ 32
    | 0x04 => nvmeCap / 2 ^ 32
    | 0x08 => 0x00020000
    | 0x0C | 0x10 => c.intms.toNat
    | 0x14 => c.cc.toNat
    | 0x1C => csts c
    | 0x24 => c.aqa.toNat
    | 0x28 => c.asq.toNat % 2 ^ 32
    | 0x2C => c.asq.toNat / 2 ^ 32
    | 0x30 => c.acq.toNat % 2 ^ 32
    | 0x34 => c.acq.toNat / 2 ^ 32
    | _ => 0

/-! Data of admin commands. -/

/-- Data written to the PRPs of a command of a controller's admin queue, at most two pages. -/
def prpWrite (s : State) (c : Controller) (prp1 prp2 : Nat) (data : List Byte) : State :=
  let first := 4096 - prp1 % 4096
  let s := hostWrite s (sqEngine c 0) c.fn.toNat prp1 (data.take first)
  if data.length ≤ first then s else hostWrite s (sqEngine c 0) c.fn.toNat prp2 (data.drop first)

def asciiOf (t : String) (n : Nat) : List Byte :=
  let b := t.toList.map (fun c => BitVec.ofNat 8 c.toNat)
  b ++ List.replicate (n - b.length) 0x20#8

def hexDigit (n : Nat) : Byte := BitVec.ofNat 8 (if n < 10 then 0x30 + n else 0x57 + n)
def hexDigits (n v : Nat) : List Byte := (List.range n).map (fun i => hexDigit (v / 16 ^ (n - 1 - i) % 16))
def decDigits (n v : Nat) : List Byte := (List.range n).map (fun i => BitVec.ofNat 8 (0x30 + v / 10 ^ (n - 1 - i) % 10))

/-- SUBNQN (R420). -/
def subnqn (serial i : Nat) : List Byte :=
  let u := hexDigits 32 (Config.functionUuid serial i).toNat
  asciiOf "nqn.2014-08.org.nvmexpress:uuid:" 0 ++ slice u 0 8 ++ [0x2D#8] ++ slice u 8 4 ++ [0x2D#8] ++ slice u 12 4 ++ [0x2D#8]
    ++ slice u 16 4 ++ [0x2D#8] ++ slice u 20 12

/-- A target of the controller's namespaces reports a volatile write cache. -/
def ctlVwc (s : State) (i : Nat) : Bool :=
  (nsAttached s i).any (fun e => ((tget s.sto.targets e.2.target).map (·.vwc)).getD false)

/-- Identify Controller. -/
def identifyController (s : State) (i : Nat) : List Byte :=
  let b := zeroBytes 4096
  let b := patch b 0 (leBytes 2 0x1F7C ++ leBytes 2 0x1F7C)
  let b := patch b 4 (hexDigits 8 s.board.serial.toNat ++ [0x2D#8] ++ decDigits 4 i ++ asciiOf "" 7)
  let b := patch b 24 (asciiOf "Holoon HX9602 Storage Function" 40)
  let b := patch b 64 (leBytes 8 Config.firmwareRevision.toNat)
  let b := patch b 77 ([5#8] ++ leBytes 2 (i + 1))
  let b := patch b 258 [3#8, 3#8, 0#8, 2#8, 63#8]
  let b := patch b 512 ([0x66#8, 0x44#8] ++ leBytes 2 4096 ++ leBytes 4 256 ++ leBytes 2 0x0C)
  let b := patch b 525 (leBytes 1 (putB (ctlVwc s i) 0))
  patch b 768 (subnqn s.board.serial.toNat i)

/-- Identify Namespace; of an NSID without a namespace, zero. -/
def identifyNamespace (s : State) (i nsid : Nat) : List Byte :=
  match nsFind s i nsid with
  | none => zeroBytes 4096
  | some n =>
    let x := nsOf s n
    let b := patch (zeroBytes 4096) 0 (leBytes 8 x.size ++ leBytes 8 x.size ++ leBytes 8 x.size)
    let b := patch b 104 (leBytes 16 x.nguid.toNat)
    patch b 130 [if x.lba4k then 12#8 else 9#8]

/-- NSIDs in ascending order, above one. -/
def nsidsAbove (s : State) (i lo : Nat) : List Nat :=
  (List.range 257).filter (fun k => decide (lo < k) && (nsFind s i k).isSome)

/-- Identify by CNS; none where it is not supported or the NSID is out of range. -/
def identifyData (s : State) (i cns nsid : Nat) : Option (List Byte) :=
  match cns with
  | 0 => if 1 ≤ nsid ∧ nsid ≤ 256 then some (identifyNamespace s i nsid) else none
  | 1 => some (identifyController s i)
  | 2 => some (slice ((nsidsAbove s i nsid).flatMap (leBytes 4)) 0 4096)
  | 3 =>
    match nsFind s i nsid with
    | some n => some (slice ([2#8, 16#8, 0#8, 0#8] ++ leBytes 16 (nsOf s n).nguid.toNat) 0 4096)
    | none => none
  | _ => none

def adminSupported : List Nat := [0x00, 0x01, 0x02, 0x04, 0x05, 0x06, 0x08, 0x09, 0x0A, 0x0C]

/-- A log page (R421). -/
def logPage (s : State) (c : Controller) (lid : Nat) : Option (List Byte) :=
  match lid with
  | 1 =>
    let k := c.errorCount.toNat
    some (slice (c.errorLog.zipIdx.flatMap (fun e =>
      leBytes 8 (k - e.2) ++ leBytes 2 e.1.1.toNat ++ leBytes 2 e.1.2.1.toNat ++ leBytes 2 (put e.1.2.2.1.toNat 1 15) ++ zeroBytes 2
        ++ leBytes 8 e.1.2.2.2.toNat ++ zeroBytes 40)) 0 4096)
  | 2 =>
    let kelvin := (signedOf 10 s.sec.junction.toNat + 273).toNat
    some (patch (patch (zeroBytes 512) 1 (leBytes 2 kelvin)) 176 (leBytes 8 c.errorCount.toNat))
  | 4 => some (slice (((List.range 257).filter (fun k => c.changed.contains k)).flatMap (leBytes 4)) 0 4096)
  | 5 =>
    let io := fun (o : Nat) => if o = 1 ∨ o = 8 ∨ o = 9 then 3 else if o = 0 ∨ o = 2 then 1 else 0
    some ((List.range 256).flatMap (fun o => leBytes 4 (if adminSupported.contains o then 1 else 0))
      ++ (List.range 256).flatMap (fun o => leBytes 4 (io o)) ++ zeroBytes 2048)
  | _ => none

end Sys2Proof.Machine
end

