-- ==== Sys2Proof/Machine/Queues.lean ====
section
/-!
DEFINITION. Host queues at work: doorbells, descriptor fetch, sends with segmentation, receive DMA, events, admin
fetch, and the disabling and resetting of queues (R465-R476, R480, R482-R486, R494, R495).
-/

namespace Sys2Proof.Machine

/-! Doorbells (R469, R470). -/

/-- A producer value is taken unless, less HEAD, it exceeds the ring. -/
def producerOk (head v : W16) (size : Nat) : Bool := decide ((v - head).toNat ≤ size)

def producerDoorbell (s : State) (qid : Nat) (v : W16) : State :=
  match queueOf s qid with
  | none => s
  | some q =>
    if q.kind = .event then s
    else if producerOk q.head v (queueSize q) then queueMod s qid (fun q => { q with producer := v })
    else queueMod s qid (fun q => { q with dbErrors := wrapInc q.dbErrors })

def execProducerDoorbell (q : W16) (v : W16) (s : State) : Result := .next (producerDoorbell s q.toNat v)

def consumerDoorbell (s : State) (qid : Nat) (v : W16) : State := queueMod s qid (fun q => { q with consumer := v })

def execConsumerDoorbell (q : W16) (v : W16) (s : State) : Result := .next (consumerDoorbell s q.toNat v)

/-! Descriptor fetch (R64, R70, R71, R470). -/

def descriptorBytes (q : HostQueue) : Nat := if q.kind = .send then 64 else 8

/-- Descriptors that one read of a queue takes: consecutive ones in its ring, up to 256 bytes; the place of the first, and
how many. -/
def fetchRun (q : HostQueue) : Nat × Nat :=
  let size := queueSize q
  let k := (q.fetched.toNat + sumOf ((q.fetching.filter (·.2)).map (·.1))) % size
  (k, min (fetchable q) (min (256 / descriptorBytes q) (size - k)))

/-- The host fetch path toward a slice pauses: a frame waits for it, or its injection queue is full (R26, R252). -/
def slicePaused (s : State) (k : Nat) : Bool :=
  s.crb.waiting.any (fun w => w.slice == k) || decide (injectCapacity ≤ (injectQueue s k).length)

/-- A queue has work for a fetch slot of its endpoint, which shedding lets through (R131). -/
def queueFetches (s : State) (ep : Nat) (q : HostQueue) : Bool :=
  q.state == .enabled && q.kind != .event && epOf q.fn.toNat == ep && fnRuns s q.fn.toNat
  && !(q.kind == .send && (s.sch.hostStopped || slicePaused s q.slice)) && decide (0 < fetchable q)
  && shedRoom s ((fetchRun q).2 * descriptorBytes q)

/-- The queue ids of a host fetch pool: those that the demand names, and those of the resource pools with that
FETCH_POOL (R71, R490, R491). A queue of neither is in pool 0, where it is served by what is left over (R120; DESIGN CHOICE, log
entry 133). -/
def fetchPoolHas (s : State) (p qid : Nat) : Bool :=
  let named := fun (q : DemandEntry → Bool) => s.app.demand.entries.any (fun e => e.table == 2 && e.channel == qid && q e)
  let holds := fun (x : Pool) => decide (x.queueBase ≤ qid) && decide (qid < x.queueBase + x.queueCount)
  named (fun e => e.pooled && e.pool == p) || s.que.pools.pools.any (fun x => x.fetchPool == some p && holds x)
  || (p == 0 && !named (fun _ => true) && !s.que.pools.pools.any holds)

/-- An id in its place among ascending ones. -/
def idInsert (i : Nat) : List Nat → List Nat
  | [] => [i]
  | j :: js => if i < j then i :: j :: js else j :: idInsert i js

/-- The queue a pool serves next: a host queue, or a submission queue of a controller (R422). -/
def fetchPoolPick (s : State) (ep p : Nat) : Option Nat :=
  let host := (s.que.queues.filter (fun e => fetchPoolHas s p e.1 && queueFetches s ep e.2)).map (·.1)
  let nvme := ((nvmeQueues s).filter (fun x => fetchPoolHas s p x.2.2.id && sqFetches s ep x)).map (·.2.2.id)
  roundRobin (tget s.sltQue.poolLast p) (nvme.foldl (fun l i => idInsert i l) host)

/-- One read of up to 256 bytes of consecutive descriptors of a queue, or entries of a controller's submission queue. -/
def queueFetch (s : State) (ep qid : Nat) : State :=
  match queueOf s qid with
  | none =>
    match (nvmeQueues s).find? (fun x => x.2.2.id == qid) with
    | some x => sqFetch s ep x
    | none => s
  | some q =>
    if !queueFetches s ep q then s
    else
      let d := descriptorBytes q
      let (k, n) := fetchRun q
      hostRead (queueMod (shedUse s (n * d)) qid (fun q => { q with fetching := q.fetching ++ [(n, true)] }))
        (queueEngine q.fn.toNat qid) q.fn.toNat
        (q.ringAddr.toNat + k * d) (n * d)

/-- DESCRIPTOR_FETCH: position `pos` of an endpoint's row. -/
def descriptorFetch (s : State) (ep pos : Nat) : State :=
  match (s.sltQue.row ep).find? (fun w =>
      entryKind w != 0 && decide (entryStart w ≤ pos) && decide (pos < entryStart w + entryLength w)) with
  | none => s
  | some w =>
    if entryKind w = 1 then queueFetch s ep (entryChannel w)
    else
      let p := entryChannel w
      if pos = entryStart w then
        match fetchPoolPick s ep p with
        | none => s
        | some qid =>
          let s := { s with
            sltQue := { s.sltQue with poolLast := tset s.sltQue.poolLast p qid }
            que := { s.que with serving := tset s.que.serving ep (now s, pos, qid) } }
          queueFetch s ep qid
      else
        match tget s.que.serving ep with
        | some (t, start, qid) => if t = now s ∧ start = entryStart w then queueFetch s ep qid else s
        | none => s

def execDescriptorFetch (ep : Fin 2) (pos : Fin 240) (s : State) : Result := .next (descriptorFetch s ep.val pos.val)

/-! Send descriptors (R471, R476). -/

def sendAddr (b : List Byte) : Nat := leAt b 0 8
def sendLength (b : List Byte) : Nat := leAt b 8 2
def sendFlags (b : List Byte) : Nat := leAt b 10 1
def sendCsum (b : List Byte) : Bool := bitN (sendFlags b) 0
def sendInner (b : List Byte) : Bool := bitN (sendFlags b) 1
def sendSegment (b : List Byte) : Bool := bitN (sendFlags b) 2
def sendEditCount (b : List Byte) : Nat := leAt b 11 1
def sendMss (b : List Byte) : Nat := leAt b 12 2

/-- Edit words up to END (R374). -/
def sendEdits (b : List Byte) : List Edit :=
  (((List.range (sendEditCount b)).map (fun i => leAt b (32 + 8 * i) 6)).takeWhile (fun w => fieldN w 44 4 != 0)).map
    (fun w => { kind := editKindOf (fieldN w 44 4), offset := fieldN w 30 14, len := fieldN w 16 14, arg := BitVec.ofNat 16 w,
                bytes := none })

def sendWellFormed (features : BitVec 256) (b : List Byte) : Bool :=
  let n := sendLength b
  let seg := sendSegment b
  decide (60 ≤ n) && (seg || decide (n ≤ 9216)) && decide (sendFlags b < 8)
  && (!sendCsum b || features.getLsbD featChecksum) && (!sendInner b || features.getLsbD featTunnel)
  && (!seg || features.getLsbD featSegment) && decide (sendEditCount b ≤ 4)
  && (if seg then decide (88 ≤ sendMss b) && decide (sendMss b ≤ 9000) else allZero (slice b 12 4))
  && allZero (slice b 24 8)
  && (List.range (sendEditCount b)).all (fun i => allZero (slice b (38 + 8 * i) 2))
  && (sendEdits b).all (fun e => e.kind != .insert && e.kind != .reserved)

/-! Segmentation (R472). -/

/-- The header of a SEGMENT frame: bytes 0 to L4_OFF + 4 × data offset − 1. -/
def segmentHeader (l4 : Nat) (bs : List Byte) : Nat := l4 + 4 * ((bs.getD (l4 + 12) 0#8).toNat / 16)

def segChunks (m : Nat) : Nat → List Byte → List (List Byte)
  | 0, _ => []
  | fuel + 1, bs => if bs.length ≤ m then [bs] else bs.take m :: segChunks m fuel (bs.drop m)

/-- Flag bits of the TCP header's byte 13: FIN 0, PSH 3, CWR 7. -/
def tcpFlags (f : Nat) (first last : Bool) : Nat :=
  let f := if last then f else f - f % 2
  let f := if last || !bitN f 3 then f else f - 8
  if first || !bitN f 7 then f else f - 128

/-- Segment i: the header with its lengths, identification, sequence number and flags, then the payload. -/
def segmentOf (head : List Byte) (l3 l4 mss i n : Nat) (payload : List Byte) : List Byte :=
  let len := head.length + payload.length
  let nib := (head.getD l3 0#8).toNat / 16
  let h := if nib = 4 then
      let h := patch16 (patch16 head (l3 + 2) (len - l3)) (l3 + 4) (beAt head (l3 + 4) 2 + i)
      let z := patch16 h (l3 + 10) 0
      patch16 z (l3 + 10) (csumOf (sumWords (slice z l3 ((head.getD l3 0#8).toNat % 16 * 4))))
    else patch16 head (l3 + 4) (len - l3 - 40)
  let h := patch h (l4 + 4) (beBytes 4 (beAt head (l4 + 4) 4 + i * mss))
  patch h (l4 + 13) [BitVec.ofNat 8 (tcpFlags (head.getD (l4 + 13) 0#8).toNat (i == 0) (i + 1 == n))] ++ payload

/-- The frames of a descriptor's data; none where a SEGMENT header lies outside it. -/
def sendFrames (b bytes : List Byte) : Option (List (List Byte)) :=
  if !sendSegment b then some [bytes]
  else
    let l3 := leAt b 14 1
    let l4 := leAt b 15 1
    let h := segmentHeader l4 bytes
    if bytes.length < h || h < l4 + 20 || l4 < l3 + 20 then none
    else
      let ps := segChunks (sendMss b) bytes.length (bytes.drop h)
      some (ps.zipIdx.map (fun x => segmentOf (bytes.take h) l3 l4 (sendMss b) x.2 ps.length x.1))

/-- CSUM at the markers that a parse by the queue's START_SEL finds (R471). -/
def sendChecksums (s : State) (q : HostQueue) (b bytes : List Byte) : List Byte :=
  if !sendCsum b then bytes
  else
    let start := s.app.parse.injStart.getD q.startSel { profile := 0, fragDrop := false, fragClass := 0 }
    let kv := (parseHead s.app.parse start bytes).kv
    let w := (kvGet kv 6).toNat
    let lsb := if sendInner b then 27 else 0
    csumOffload s.app.parse kv bytes (fieldN w lsb 9) (fieldN w (lsb + 9) 9)

/-- A frame of a send queue, with the data after it to be completed when `src` is given (R472). -/
def hostPacket (q : HostQueue) (bytes : List Byte) (edits : List Edit) (src : Option (Nat × Nat)) : Packet :=
  { bytes := bytes, fcs := crc32 bytes, origin := 1, port := 0, startSel := q.startSel, stamp := ⟨0, 0⟩, kv := [],
    version := 0, slot := none, owner := 0, tenant := some q.tenant, cls := 0, control := false, dest := 0#32, colour := 3,
    flowSkip := false, flowNoInsert := false, queueSet := none, meter := none, copyQueue := none, route := none,
    edits := edits, fn := 0, gen := 0, sendFrom := src, icing := none, crumbs := 0, queue := none, hold := none,
    egress := none, since := 0, stage := .inject }

/-! Descriptors and frame data arrive. -/

/-- One fetched descriptor joins its queue's work: a send's frame is read, and a malformed send completes. -/
def takeDescriptor (s : State) (qid n : Nat) (b : List Byte) : State :=
  match queueOf s qid with
  | none => s
  | some q =>
    let s := queueMod s qid (fun q =>
      { q with fetched := q.fetched + 1#16,
               work := q.work ++ [{ number := n, bytes := b, read := q.kind != .send || !sendWellFormed q.features b }] })
    if q.kind ≠ .send then s
    else if sendWellFormed q.features b then hostRead s (queueEngine q.fn.toNat qid) q.fn.toNat (sendAddr b) (sendLength b)
    else sendFailed s qid n 1 b

/-- Descriptors fetched, in order. -/
def takeDescriptors (qid d : Nat) (bytes : List Byte) : Nat → Nat → State → State
  | _, 0, s => s
  | i, k + 1, s =>
    match queueOf s qid with
    | none => s
    | some q => takeDescriptors qid d bytes (i + 1) k (takeDescriptor s qid q.fetched.toNat (slice bytes (i * d) d))

/-- Frames of a queue that wait for their slice. -/
def waitsFor (qid : Nat) (w : Waiting) : Bool :=
  match w.kind with
  | .host q _ _ => q == qid
  | .emit => false

def waitsFirst (qid n : Nat) (w : Waiting) : Bool :=
  match w.kind with
  | .host q m first => q == qid && m == n && first
  | .emit => false

/-- What leaves a queue that stops (R480): descriptors whose frames have not entered are discarded, with their frame
reads; posted buffers are forgotten; outstanding reads are no longer wanted; DMA writes finish without completion. -/
def queueCut (s : State) (qid : Nat) : State :=
  match queueOf s qid with
  | none => s
  | some q =>
    let keep := if q.kind = .send then
        q.work.takeWhile (fun w => w.read && !(s.crb.waiting.any (waitsFirst qid w.number)))
      else []
    let gone := q.work.drop keep.length
    let kept := fun n => keep.any (fun w => w.number == n)
    let s := { s with crb := { s.crb with waiting := s.crb.waiting.filter (fun w =>
      match w.kind with
      | .host m n _ => m != qid || kept n
      | .emit => true) } }
    queueMod s qid (fun q =>
      { q with work := keep, held := q.held.filter (fun c => kept c.number),
               fetching := q.fetching.map (fun f => (f.1, false)),
               stale := q.stale + (gone.filter (fun w => !w.read)).length,
               dma := q.dma.map (fun d => { d with live := false }),
               fetched := q.head + BitVec.ofNat 16 keep.length })

/-- The frame given to the DMA engines of an endpoint from queue `qid` is dropped. -/
def hostTxDrop (s : State) (ep qid : Nat) (r : DropReason) : State :=
  match (schPort s (512 + ep)).tx with
  | some (id, qx, _) =>
    if qx = 8192 + qid then schPortMod (dropPkt s id r) (512 + ep) (fun p => { p with tx := none }) else s
  | none => s

/-- The frames that the scheduler holds for a queue, dropped. -/
def hostFramesDrop (s : State) (qid : Nat) (r : DropReason) : State :=
  match queueOf s qid with
  | none => s
  | some q => dropQueue (hostTxDrop s (epOf q.fn.toNat) qid r) (8192 + qid) r

/-- A queue in ERROR (R476), its HEAD published and its frames dropped under R467. -/
def queueError (s : State) (qid : Nat) : State :=
  hostFramesDrop (queueMod (queueCut s qid) qid (fun q => { q with state := .error })) qid .hostQueueAbsent

/-- DESCRIPTOR_FETCH_DONE: the oldest descriptor read of a queue returns. -/
def descriptorFetchDone (s : State) (qid : Nat) (ok : Bool) (bytes : List Byte) : State :=
  match queueOf s qid with
  | none => s
  | some q =>
    match q.fetching with
    | [] => s
    | (n, live) :: rest =>
      let s := queueMod s qid (fun q => { q with fetching := rest })
      let s := if !live then s
        else if ok then takeDescriptors qid (descriptorBytes q) bytes 0 n s
        else queueError s qid
      disableCheck s qid

def execDescriptorFetchDone (q : W16) (ok : Bool) (bytes : List Byte) (s : State) : Result :=
  .next (descriptorFetchDone s q.toNat ok bytes)

/-- A frame of a descriptor goes to its slice, or waits (R26, R252). -/
def sendInject (s : State) (qid : Nat) (q : HostQueue) (w : Fetched) (first last : Bool) (bytes : List Byte) : State :=
  inject s q.slice (.host qid w.number first)
    (hostPacket q (sendChecksums s q w.bytes bytes) (sendEdits w.bytes) (if last then some (qid, w.number) else none))

/-- The frames of a descriptor, in order. -/
def sendInjectAll (s : State) (qid : Nat) (q : HostQueue) (w : Fetched) (fs : List (List Byte)) : State :=
  fs.zipIdx.foldl (fun s f => sendInject s qid q w (f.2 == 0) (f.2 + 1 == fs.length) f.1) s

/-- SEND_FRAME_READ_DONE: the oldest frame read of a queue returns. -/
def sendFrameReadDone (s : State) (qid : Nat) (ok : Bool) (bytes : List Byte) : State :=
  match queueOf s qid with
  | none => s
  | some q =>
    if q.stale ≠ 0 then disableCheck (queueMod s qid (fun q => { q with stale := q.stale - 1 })) qid
    else if q.kind ≠ .send then s
    else
      match q.work.find? (fun w => !w.read) with
      | none => s
      | some w =>
        let s := queueMod s qid (fun q =>
          { q with work := q.work.map (fun x => if x.number = w.number then { x with read := true } else x) })
        if !ok then sendFailed s qid w.number 5 w.bytes
        else
          match sendFrames w.bytes (slice bytes 0 (sendLength w.bytes)) with
          | some fs => sendInjectAll s qid q w fs
          | none => sendFailed s qid w.number 1 w.bytes

def execSendFrameReadDone (q : W16) (ok : Bool) (bytes : List Byte) (s : State) : Result :=
  .next (sendFrameReadDone s q.toNat ok bytes)

/-! Receive DMA (R473, R474). -/

/-- The bytes written for a frame, without FCS: on a capture queue with its icing after it (R473). -/
def hostBytes (p : Packet) : List Byte :=
  match p.icing with
  | some i => p.bytes ++ i
  | none => p.bytes

/-- A frame that goes to the host passes an egress stage; its edits take the time at which the DMA engines take it (R25; log
entry 121). A frame exported with icing leaves as it was exported. -/
def hostStage (s : State) (id : Nat) (p : Packet) : State :=
  if p.icing.isSome then s else egressStage s id p (nowStamp s)

/-- HOST_RX_DMA: the frame given to the DMA engines for queue `qid` is written into the next posted buffers. -/
def hostRxDma (s : State) (qid : Nat) : State :=
  match queueOf s qid with
  | none => s
  | some q =>
    let fn := q.fn.toNat
    let u := 512 + epOf fn
    match (schPort s u).tx with
    | none => s
    | some (id, qx, _) =>
      if qx ≠ 8192 + qid then s
      else
        match pktOf s id with
        | none => schPortMod s u (fun p => { p with tx := none })
        | some p =>
          if BitVec.ofNat 16 p.gen != genOf s fn then hostTxDrop s (epOf fn) qid .staleGeneration
          else if q.state != .enabled then hostTxDrop s (epOf fn) qid .hostQueueAbsent
          else if !fnRuns s fn then s
          else
            let used := q.work.length - buffersFree q
            let n := cdiv (hostLen s p) (max 1 q.bufSize)
            let bufs := (q.work.drop used).take n
            if bufs.length < n then s
            else
              let s := hostStage s id p
              let data := hostBytes ((pktOf s id).getD p)
              let s := bufs.zipIdx.foldl (fun s x =>
                hostWrite s (queueEngine fn qid) fn (leAt x.1.bytes 0 8) ((data.drop (x.2 * q.bufSize)).take q.bufSize)) s
              let s := schPortMod s u (fun p => { p with tx := none })
              queueMod s qid (fun q =>
                { q with dma := q.dma ++ [{ pkt := id, gen := genOf s fn, buffers := bufs.map (·.number), live := true }] })

def execHostRxDma (q : W16) (s : State) : Result := .next (hostRxDma s q.toNat)

/-- META of a received frame (R474): TENANT, CLASS_ID and, with RECEIVE_SPREAD active, HASH. -/
def rxMeta (s : State) (features : BitVec 256) (p : Packet) : List Byte :=
  let hash := if features.getLsbD featSpread then ((classOf s p).map (fun c => aggHash c p)).getD 0 else 0
  leBytes 2 (p.tenant.getD 0xFFFF) ++ leBytes 1 p.cls ++ [0#8]
    ++ leBytes 4 hash

/-- CSUM_OK and CSUM_BAD. -/
def rxCsum (s : State) (features : BitVec 256) (p : Packet) : Nat :=
  if !features.getLsbD featChecksum then 0
  else
    let w := (kvGet p.kv 6).toNat
    match csumCheck s.app.parse p.kv p.bytes (fieldN w 0 9) (fieldN w 9 9) with
    | some true => 16
    | some false => 32
    | none => 0

/-- The entry of one buffer of a frame. -/
def rxEntry (s : State) (q : HostQueue) (p : Packet) (status len : Nat) (last : Bool) (head phase : Nat) : List Byte :=
  let stamped := last && q.features.getLsbD featTickStamp
  let flags := phase + putB last 1 + putB (p.icing.isSome && last) 2 + putB stamped 3
    + (if last then rxCsum s q.features p else 0)
  completionBytes head status flags (genShown s q.fn.toNat) len (if last then rxMeta s q.features p else [])
    (if stamped then some p.stamp else none)
    (if last then put (if p.origin = 0 then p.port else 0) 0 10 + put p.origin 10 2 else 0)

/-- The entries of a frame's buffers, each with its message. -/
def rxCompletions (s : State) (qid : Nat) (p : Packet) (status : Nat) (bufs : List Nat) : State :=
  let len := (hostBytes p).length
  bufs.zipIdx.foldl (fun s x =>
    match queueOf s qid with
    | none => s
    | some q =>
      let n := if status = 0 then min q.bufSize (len - x.2 * q.bufSize) else 0
      let s := queueMod s qid (fun q => { q with work := q.work.filter (fun w => w.number ≠ x.1) })
      queueSignal (completionWrite s qid (rxEntry s q p status n (x.2 + 1 == bufs.length))) qid) s

/-- A frame has departed to the host in the beat that wrote its completion: its queue's residence mark, and a TS_CAPTURE of the frame
(R272, R293, R315, R318). The frame has no port for the record of one that the Supervisor or an engine sent: a free value. -/
def hostDepart (s : State) (qid id : Nat) (p : Packet) : State :=
  let p := { p with egress := some (nowStamp s) }
  let s := schQueueMod s (8192 + qid) (fun q => { q with hwmRes := max q.hwmRes (residenceNs p) })
  let (n, s) := if (captureTag p.edits).isSome then fresh 16 s else (0#16, s)
  departPkt (captureRecords s id n.toNat p) id (frameLen p)

/-- HOST_RX_COMPLETE: the oldest receive DMA of a queue has ended. -/
def hostRxComplete (s : State) (qid : Nat) (ok : Bool) : State :=
  match queueOf s qid with
  | none => s
  | some q =>
    match q.dma with
    | [] => s
    | d :: rest =>
      if d.live && !fnRuns s q.fn.toNat && d.gen == genOf s q.fn.toNat then s
      else
      let s := queueMod s qid (fun q => { q with dma := rest })
      let s := match pktOf s d.pkt with
        | none => s
        | some p =>
          if d.gen != genOf s q.fn.toNat then dropPkt s d.pkt .staleGeneration
          else if !d.live then dropPkt s d.pkt .hostQueueAbsent
          else if ok then hostDepart (rxCompletions s qid p 0 d.buffers) qid d.pkt p
          else dropPkt (rxCompletions s qid p 5 d.buffers) d.pkt .hostDmaError
      disableCheck s qid

def execHostRxComplete (q : W16) (ok : Bool) (s : State) : Result := .next (hostRxComplete s q.toNat ok)

/-! Events (R475). -/

/-- The event queue in use: HP0's while it is ENABLED, otherwise HP1's. -/
def eventQueue (s : State) : Option (Nat × HostQueue) :=
  let of := fun (fn : W16) => s.que.queues.find? (fun e => e.2.kind == .event && e.2.fn == fn && e.2.state == .enabled)
  match of 0#16 with
  | some e => some e
  | none => of 0x8000#16

def eventRoom (s : State) (q : HostQueue) : Bool := fnRuns s q.fn.toNat && decide (unconsumed q < queueSize q)

/-- An event entry of 64 bytes. -/
def eventBytes (type phase : Nat) (seq : W32) (tick : W64) (record : List Byte) : List Byte :=
  leBytes 1 type ++ leBytes 1 phase ++ leBytes 2 record.length ++ leBytes 4 seq.toNat ++ leBytes 8 tick.toNat
    ++ slice record 0 48

/-- An entry written to an event queue, with its message. -/
def eventWrite (s : State) (qid : Nat) (q : HostQueue) (type : Nat) (tick : W64) (record : List Byte) : State :=
  let k := q.completions.toNat
  let s := queueMod s qid (fun q => { q with completions := q.completions + 1#16, seq := wrapInc q.seq })
  let s := hostWrite s (queueEngine q.fn.toNat qid) q.fn.toNat (q.cqAddr.toNat + k % queueSize q * 64)
    (eventBytes type (phaseOf k (queueSize q)) q.seq tick record)
  queueSignal s qid

def learnBytes (e : LearnEvent) : List Byte :=
  beBytes 6 e.mac.toNat ++ leBytes 2 e.bd.toNat ++ leBytes 2 e.port.toNat ++ leBytes 2 e.oldPort.toNat
    ++ leBytes 1 (match e.kind with | .learned => 0 | .moved => 1 | .aged => 2 | .noRoom => 3 | .limit => 4)
    ++ leBytes 1 (if e.kind = .noRoom then 6 else 0) ++ leBytes 1 e.way ++ [0#8] ++ leBytes 8 e.tick.toNat
    ++ leBytes 4 e.seq.toNat ++ leBytes 2 e.lost.toNat ++ zeroBytes 2

def flowRecordBytes (r : FlowRecord) : List Byte :=
  leBytes 4 r.index.toNat ++ leBytes 2 r.tenant.toNat ++ leBytes 1 r.cls.toNat ++ leBytes 1 r.kind
    ++ leBytes 8 r.counters.toNat ++ leBytes 4 r.carried.toNat ++ leBytes 4 r.seq.toNat ++ leBytes 8 r.tick.toNat

/-- A flow record for the host queue named in LDG_FLOW_REC (R291): its 32 bytes fill the next buffer of a receive queue,
with one completion entry. -/
def flowToQueue (s : State) (qid : Nat) (r : FlowRecord) : State :=
  match queueOf s qid with
  | none => s
  | some q =>
    match q.work.drop (q.work.length - buffersFree q) with
    | b :: _ =>
      if q.state != .enabled || q.kind != .receive || !fnRuns s q.fn.toNat then s
      else
        let s := hostWrite { s with ldg := { s.ldg with flowRing := s.ldg.flowRing.drop 1 } }
          (queueEngine q.fn.toNat qid) q.fn.toNat
          (leAt b.bytes 0 8) (flowRecordBytes r)
        let s := queueMod s qid (fun q => { q with work := q.work.filter (fun w => w.number ≠ b.number) })
        queueSignal (completionWrite s qid (fun head phase =>
          completionBytes head 0 (phase + 2) (genShown s q.fn.toNat) 32 [] none 0)) qid
    | [] => s

/-- EVENT_POST: the oldest event of a type, from its source, while the ring has room, after pending admin commands (R486). -/
def eventPost (s : State) (type : EventType) : State :=
  if adminPending s then s else
  match eventQueue s with
  | none =>
    match type, s.ldg.flowRing with
    | .flow, r :: _ => if s.ldg.flowToEvents then s else flowToQueue s s.ldg.flowQueue.toNat r
    | _, _ => s
  | some (qid, q) =>
    match type with
    | .learn =>
      match s.fwd.eventRing with
      | e :: rest =>
        if eventRoom s q then eventWrite { s with fwd := { s.fwd with eventRing := rest } } qid q 1 e.tick (learnBytes e) else s
      | [] => s
    | .flow =>
      match s.ldg.flowRing with
      | r :: rest =>
        if !s.ldg.flowToEvents then flowToQueue s s.ldg.flowQueue.toNat r
        else if eventRoom s q then
          eventWrite { s with ldg := { s.ldg with flowRing := rest } } qid q 3 r.tick (flowRecordBytes r)
        else s
      | [] => s
    | _ =>
      match s.que.events.find? (fun e => e.type == type) with
      | some e =>
        if eventRoom s q then
          eventWrite { s with que := { s.que with events := s.que.events.erase e } } qid q type.code e.tick e.record
        else s
      | none => s

def execEventPost (type : EventType) (s : State) : Result := .next (eventPost s type)

/-! Admin fetch (R482, R483, R485, R486). -/

/-- The opcodes of R487. -/
def adminOpcodes : List Nat :=
  [0x01, 0x02, 0x03, 0x04, 0x05, 0x08, 0x09, 0x0A, 0x10, 0x11, 0x12, 0x13, 0x14, 0x15, 0x16, 0x20, 0x21, 0x22, 0x23, 0x30,
   0x31, 0x32, 0x33, 0x34, 0x40, 0x41, 0x42, 0x50, 0x51, 0x52, 0x53, 0x54, 0x55, 0x58, 0x60, 0x61, 0x62, 0x63, 0x70, 0x71,
   0x72, 0x73, 0x74]

/-- An entry may be fetched. -/
def adminFetches (s : State) (ep : Nat) : Bool :=
  let q := adminOf s ep
  q.enable && q.producer != q.head && decide (q.accepted.length < 256)
  && decide (countDiff q.completions q.consumer + q.accepted.length < 2 ^ q.sizeLog2.toNat) && fnRuns s (pf0Of ep)

/-- The command that an entry spells, accepted with the generation of its function (R495). -/
def adminAccept (s : State) (ep : Nat) (entry : List Byte) : State :=
  let fn := BitVec.ofNat 16 (leAt entry 4 2)
  adminMod s ep (fun q =>
    { q with accepted := q.accepted ++
        [{ cid := BitVec.ofNat 16 (leAt entry 2 2), fn := fn, gen := genOf s fn.toNat, started := false }] })

/-- Opcodes of the commands that read DATA from the host. -/
def adminReaders : List Nat := [0x10, 0x11, 0x12, 0x14, 0x16, 0x23, 0x30, 0x42, 0x50, 0x53, 0x54, 0x58, 0x71, 0x72]

/-- The read of a command's DATA, by channel 0 of its engine (R483, R498). -/
def adminDataRead (s : State) (ep : Nat) (entry : List Byte) : State :=
  let n := leAt entry 16 4
  if adminReaders.contains (leAt entry 0 1) ∧ 1 ≤ n ∧ n ≤ 16777216 then
    hostRead s (adminEngine ep n) (pf0Of ep) (leAt entry 8 8) n
  else s

/-- ADMIN_FETCH: the entry at the fetch count is read from the submission ring and accepted, and its DATA is read; an unknown opcode
completes MALFORMED (R482, R485). -/
def adminFetch (s : State) (ep : Nat) (entry : List Byte) : State :=
  if !adminFetches s ep then s
  else
    let q := adminOf s ep
    let s := hostRead s (adminEngine ep 64) (pf0Of ep) (q.sqAddr.toNat + q.head.toNat % 2 ^ q.sizeLog2.toNat * 64) 64
    let s := adminDataRead s ep entry
    let s := adminAccept (adminMod s ep (fun q => { q with head := q.head + 1#16 })) ep entry
    if adminOpcodes.contains (leAt entry 0 1) then s else adminFinish s ep (BitVec.ofNat 16 (leAt entry 2 2)) 1#8 []

def execAdminFetch (ep : Fin 2) (entry : List Byte) (s : State) : Result := .next (adminFetch s ep.val entry)

/-- QUE_AQ_ENABLE_WRITE: a write of QUE_AQ_CFG (R482). -/
def adminConfig (s : State) (ep : Nat) (v : W64) : State :=
  let on := v.getLsbD 0
  let size := fieldN v.toNat 8 4
  adminMod s ep (fun q =>
    let q := if on && !q.enable then { q with head := 0#16, completions := 0#16 } else q
    { q with enable := on, sizeLog2 := if 4 ≤ size ∧ size ≤ 12 then BitVec.ofNat 4 size else 4#4,
             vector := vectorField q.vector v })

def execQueAqEnableWrite (ep : Fin 2) (v : W64) (s : State) : Result := .next (adminConfig s ep.val v)

/-! Disabling, enabling and resetting queues (R479, R480, R494). -/

/-- A queue stops in the beat of acceptance; who asked is answered when it is quiet. -/
def queueDisable (s : State) (qid : Nat) (w : Waiter) : State :=
  let s := queueMod (queueCut s qid) qid (fun q => { q with state := .disabled, disabling := q.disabling ++ [w] })
  disableCheck (hostFramesDrop s qid .hostQueueAbsent) qid

/-- A queue in service again: fetching resumes at HEAD after what is still in service. -/
def queueEnable (s : State) (qid : Nat) : State :=
  queueMod s qid (fun q =>
    if q.state = .enabled then q else { q with state := .enabled, fetched := q.head + BitVec.ofNat 16 q.work.length })

/-- A queue as just after its creation (R494). Its frames in the scheduler are of an old generation, and the DMA engines drop them
(R497); PF0 has no generation, and its frames are dropped now (R459). A DMA in progress ends under its old generation, or with
`abandon` now. -/
def queueReset (abandon : Bool) (s : State) (qid : Nat) : State :=
  match queueOf s qid with
  | none => s
  | some q =>
    let s := { s with crb := { s.crb with waiting := s.crb.waiting.filter (fun w => !waitsFor qid w) } }
    let s := if abandon then dropAll s (q.dma.map (·.pkt)) .staleGeneration else s
    let s := if pfNum q.fn.toNat = 0 then hostFramesDrop s qid .hostQueueAbsent else s
    let s := q.disabling.foldl (fun s w => answer s w 7#8 []) s
    let unread := if q.kind = .send then (q.work.filter (fun w => !w.read)).length else 0
    queueMod s qid (fun q =>
      { q with state := .disabled, head := 0#16, producer := 0#16, fetched := 0#16, consumer := 0#16, completions := 0#16,
               dbErrors := 0#16, work := [], held := [], disabling := [], seq := 0#32,
               fetching := if abandon then [] else q.fetching.map (fun f => (f.1, false)),
               stale := if abandon then 0 else q.stale + unread,
               dma := if abandon then [] else q.dma.map (fun d => { d with live := false }) })

end Sys2Proof.Machine
end

