-- ==== Sys2Proof/Machine/Crypto.lean ====
section
/-!
DEFINITION. The cryptographic functions that the chapters name by their standards (PRESUMED: the standards
themselves are not in the spec): AES of FIPS 197, the GHASH step of SP 800-38D, the XTS tweak step of IEEE 1619
and the key wrap of SP 800-38F. Blocks and keys are lists of bytes, first byte first.
-/

namespace Sys2Proof

/-- Multiplication by x in the field of AES. -/
def xtime (b : Byte) : Byte := if b.getLsbD 7 then (b <<< 1) ^^^ 0x1B#8 else b <<< 1

/-- Multiplication in the field of AES. -/
def gmul (a b : Byte) : Byte :=
  ((List.range 8).foldl (fun (acc : Byte × Byte) i =>
    (if b.getLsbD i then acc.1 ^^^ acc.2 else acc.1, xtime acc.2)) (0#8, a)).1

def gsq (a : Byte) : Byte := gmul a a

/-- The inverse, a^254, and 0 for 0. -/
def ginv (a : Byte) : Byte :=
  let a2 := gsq a
  let a4 := gsq a2
  let a8 := gsq a4
  let a16 := gsq a8
  let a32 := gsq a16
  let a64 := gsq a32
  let a128 := gsq a64
  gmul a128 (gmul a64 (gmul a32 (gmul a16 (gmul a8 (gmul a4 a2)))))

def rotl8 (b : Byte) (n : Nat) : Byte := b.rotateLeft n

def sbox (b : Byte) : Byte :=
  let i := ginv b
  i ^^^ rotl8 i 1 ^^^ rotl8 i 2 ^^^ rotl8 i 3 ^^^ rotl8 i 4 ^^^ 0x63#8

def invSbox (b : Byte) : Byte := ginv (rotl8 b 1 ^^^ rotl8 b 3 ^^^ rotl8 b 6 ^^^ 0x05#8)

def xorBytes : List Byte → List Byte → List Byte
  | a :: as, b :: bs => (a ^^^ b) :: xorBytes as bs
  | as, [] => as
  | [], _ => []

def rcon : Nat → Byte
  | 0 => 0x01#8
  | n + 1 => xtime (rcon n)

/-- The expanded key as words of 4 bytes, newest first, from the key's words newest first. -/
def expandFrom (nk : Nat) : Nat → Nat → List (List Byte) → List (List Byte)
  | 0, _, ws => ws
  | n + 1, i, ws =>
    let prev := ws.headD []
    let back := (ws.drop (nk - 1)).headD []
    let t :=
      if i % nk = 0 then
        let r := (prev.drop 1 ++ prev.take 1).map sbox
        xorBytes r [rcon (i / nk - 1)]
      else if nk = 8 ∧ i % nk = 4 then prev.map sbox
      else prev
    expandFrom nk n (i + 1) (xorBytes back t :: ws)

def chunks (n : Nat) : Nat → List Byte → List (List Byte)
  | 0, _ => []
  | k + 1, bs => bs.take n :: chunks n k (bs.drop n)

/-- Round keys, first to last, of a key of 16 or 32 bytes. -/
def roundKeys (key : List Byte) : List (List Byte) :=
  let nk := key.length / 4
  let rounds := nk + 6
  let ws := (expandFrom nk (4 * (rounds + 1) - nk) nk (chunks 4 nk key).reverse).reverse
  (chunks 16 (rounds + 1) ws.flatten)

def shiftRows (s : List Byte) : List Byte :=
  [0, 5, 10, 15, 4, 9, 14, 3, 8, 13, 2, 7, 12, 1, 6, 11].map (fun i => s.getD i 0#8)

def invShiftRows (s : List Byte) : List Byte :=
  [0, 13, 10, 7, 4, 1, 14, 11, 8, 5, 2, 15, 12, 9, 6, 3].map (fun i => s.getD i 0#8)

def mixCol (c : List Byte) (m : List Byte) : List Byte :=
  (List.range 4).map (fun r =>
    (List.range 4).foldl (fun a k => a ^^^ gmul (m.getD ((k + 4 - r) % 4) 0#8) (c.getD k 0#8)) 0#8)

def mixColumns (m : List Byte) (s : List Byte) : List Byte := (chunks 4 4 s).flatMap (fun c => mixCol c m)

def aesEnc (key block : List Byte) : List Byte :=
  match roundKeys key with
  | [] => block
  | k0 :: ks =>
    let s := xorBytes block k0
    let mid := ks.dropLast
    let s := mid.foldl (fun s k => xorBytes (mixColumns [2#8, 3#8, 1#8, 1#8] (shiftRows (s.map sbox))) k) s
    xorBytes (shiftRows (s.map sbox)) (ks.getLastD [])

def aesDec (key block : List Byte) : List Byte :=
  match (roundKeys key).reverse with
  | [] => block
  | k0 :: ks =>
    let s := xorBytes block k0
    let mid := ks.dropLast
    let s := mid.foldl (fun s k =>
      mixColumns [14#8, 11#8, 13#8, 9#8] (xorBytes ((invShiftRows s).map invSbox) k)) s
    xorBytes ((invShiftRows s).map invSbox) (ks.getLastD [])

/-! GHASH (R390). -/

/-- The product of SP 800-38D over 128-bit strings, first bit most significant. -/
def gfMul128 (x y : BitVec 128) : BitVec 128 :=
  ((List.range 128).foldl (fun (acc : BitVec 128 × BitVec 128) i =>
    let z := if x.getLsbD (127 - i) then acc.1 ^^^ acc.2 else acc.1
    let v := if acc.2.getLsbD 0 then (acc.2 >>> 1) ^^^ (0xE1#128 <<< 120) else acc.2 >>> 1
    (z, v)) (0#128, y)).1

def blockOf (bs : List Byte) : BitVec 128 := BitVec.ofNat 128 (beVal (slice bs 0 16))
def blockBytes (b : BitVec 128) : List Byte := beBytes 16 b.toNat

def ghashStep (h acc : BitVec 128) (block : List Byte) : BitVec 128 := gfMul128 (acc ^^^ blockOf block) h

/-- GHASH over bytes, the last block padded with zeros. -/
def ghashOver (h acc : BitVec 128) (bs : List Byte) : BitVec 128 :=
  (chunks 16 (cdiv bs.length 16) bs).foldl (ghashStep h) acc

/-- One XTS tweak step: multiplication by α (IEEE 1619), the block's first byte least significant. -/
def xtsStep (t : List Byte) : List Byte :=
  let v := leVal t
  let d := v * 2
  leBytes 16 (if 2 ^ 128 ≤ d then Nat.xor (d - 2 ^ 128) 0x87 else d)

/-- XTS over whole blocks (no ciphertext stealing, R400). -/
def xtsRun (enc : Bool) (key1 : List Byte) : List Byte → List (List Byte) → List Byte
  | _, [] => []
  | t, b :: bs =>
    let x := xorBytes b t
    xorBytes (if enc then aesEnc key1 x else aesDec key1 x) t ++ xtsRun enc key1 (xtsStep t) bs

/-! Key wrap, SP 800-38F KW. -/

def kwStep (kek : List Byte) (n : Nat) (st : List Byte × List (List Byte)) (t : Nat) : List Byte × List (List Byte) :=
  let i := t % n
  let b := aesEnc kek (st.1 ++ st.2.getD i [])
  (xorBytes (b.take 8) (beBytes 8 (t + 1)), st.2.set i (b.drop 8))

def kwWrap (kek plain : List Byte) : List Byte :=
  let n := plain.length / 8
  let r := (List.range (6 * n)).foldl (kwStep kek n) (List.replicate 8 0xA6#8, chunks 8 n plain)
  r.1 ++ r.2.flatten

def kwUnstep (kek : List Byte) (n : Nat) (st : List Byte × List (List Byte)) (t : Nat) : List Byte × List (List Byte) :=
  let i := t % n
  let b := aesDec kek (xorBytes st.1 (beBytes 8 (t + 1)) ++ st.2.getD i [])
  (b.take 8, st.2.set i (b.drop 8))

/-- The unwrapped key, or none when the integrity check fails. -/
def kwUnwrap (kek wrapped : List Byte) : Option (List Byte) :=
  let n := wrapped.length / 8 - 1
  let r := ((List.range (6 * n)).reverse).foldl (kwUnstep kek n) (wrapped.take 8, chunks 8 n (wrapped.drop 8))
  if n ≠ 0 ∧ r.1 = List.replicate 8 0xA6#8 then some r.2.flatten else none

/-! SHA-384 of FIPS 180-4, for owner keys (R112). PRESUMED: the algorithm is taken from that standard. -/

/-- The first 64 bits of the fractional part of a root of a prime: the round constants. -/
def shaK0 : List W64 :=
  [0x428A2F98D728AE22, 0x7137449123EF65CD, 0xB5C0FBCFEC4D3B2F, 0xE9B5DBA58189DBBC,
   0x3956C25BF348B538, 0x59F111F1B605D019, 0x923F82A4AF194F9B, 0xAB1C5ED5DA6D8118,
   0xD807AA98A3030242, 0x12835B0145706FBE, 0x243185BE4EE4B28C, 0x550C7DC3D5FFB4E2,
   0x72BE5D74F27B896F, 0x80DEB1FE3B1696B1, 0x9BDC06A725C71235, 0xC19BF174CF692694]

def shaK1 : List W64 :=
  [0xE49B69C19EF14AD2, 0xEFBE4786384F25E3, 0x0FC19DC68B8CD5B5, 0x240CA1CC77AC9C65,
   0x2DE92C6F592B0275, 0x4A7484AA6EA6E483, 0x5CB0A9DCBD41FBD4, 0x76F988DA831153B5,
   0x983E5152EE66DFAB, 0xA831C66D2DB43210, 0xB00327C898FB213F, 0xBF597FC7BEEF0EE4,
   0xC6E00BF33DA88FC2, 0xD5A79147930AA725, 0x06CA6351E003826F, 0x142929670A0E6E70]

def shaK2 : List W64 :=
  [0x27B70A8546D22FFC, 0x2E1B21385C26C926, 0x4D2C6DFC5AC42AED, 0x53380D139D95B3DF,
   0x650A73548BAF63DE, 0x766A0ABB3C77B2A8, 0x81C2C92E47EDAEE6, 0x92722C851482353B,
   0xA2BFE8A14CF10364, 0xA81A664BBC423001, 0xC24B8B70D0F89791, 0xC76C51A30654BE30,
   0xD192E819D6EF5218, 0xD69906245565A910, 0xF40E35855771202A, 0x106AA07032BBD1B8]

def shaK3 : List W64 :=
  [0x19A4C116B8D2D0C8, 0x1E376C085141AB53, 0x2748774CDF8EEB99, 0x34B0BCB5E19B48A8,
   0x391C0CB3C5C95A63, 0x4ED8AA4AE3418ACB, 0x5B9CCA4F7763E373, 0x682E6FF3D6B2B8A3,
   0x748F82EE5DEFB2FC, 0x78A5636F43172F60, 0x84C87814A1F0AB72, 0x8CC702081A6439EC,
   0x90BEFFFA23631E28, 0xA4506CEBDE82BDE9, 0xBEF9A3F7B2C67915, 0xC67178F2E372532B]

def shaK4 : List W64 :=
  [0xCA273ECEEA26619C, 0xD186B8C721C0C207, 0xEADA7DD6CDE0EB1E, 0xF57D4F7FEE6ED178,
   0x06F067AA72176FBA, 0x0A637DC5A2C898A6, 0x113F9804BEF90DAE, 0x1B710B35131C471B,
   0x28DB77F523047D84, 0x32CAAB7B40C72493, 0x3C9EBE0A15C9BEBC, 0x431D67C49C100D4C,
   0x4CC5D4BECB3E42B6, 0x597F299CFC657E2A, 0x5FCB6FAB3AD6FAEC, 0x6C44198C4A475817]

def shaK : List W64 := shaK0 ++ shaK1 ++ shaK2 ++ shaK3 ++ shaK4

/-- The initial hash value. -/
def shaInit : List W64 :=
  [0xCBBB9D5DC1059ED8, 0x629A292A367CD507, 0x9159015A3070DD17, 0x152FECD8F70E5939,
   0x67332667FFC00B31, 0x8EB44A8768581511, 0xDB0C2E0D64F98FA7, 0x47B5481DBEFA4FA4]

def shaSmall0 (x : W64) : W64 := x.rotateRight 1 ^^^ x.rotateRight 8 ^^^ (x >>> 7)
def shaSmall1 (x : W64) : W64 := x.rotateRight 19 ^^^ x.rotateRight 61 ^^^ (x >>> 6)
def shaBig0 (x : W64) : W64 := x.rotateRight 28 ^^^ x.rotateRight 34 ^^^ x.rotateRight 39
def shaBig1 (x : W64) : W64 := x.rotateRight 14 ^^^ x.rotateRight 18 ^^^ x.rotateRight 41

/-- The message schedule: the 16 words of a block and `n` more. `r` holds the words newest first. -/
def shaSchedule : Nat → List W64 → List W64
  | 0, r => r.reverse
  | n + 1, r =>
    shaSchedule n ((shaSmall1 (r.getD 1 0#64) + r.getD 6 0#64 + shaSmall0 (r.getD 14 0#64) + r.getD 15 0#64) :: r)

/-- One round on the eight working variables. -/
def shaRound (v : List W64) (kw : W64) : List W64 :=
  let g := fun i => v.getD i 0#64
  let t1 := g 7 + shaBig1 (g 4) + ((g 4 &&& g 5) ^^^ (~~~ (g 4) &&& g 6)) + kw
  let t2 := shaBig0 (g 0) + ((g 0 &&& g 1) ^^^ (g 0 &&& g 2) ^^^ (g 1 &&& g 2))
  [t1 + t2, g 0, g 1, g 2, g 3 + t1, g 4, g 5, g 6]

def shaBlock (h : List W64) (b : List Byte) : List W64 :=
  let w := shaSchedule 64 ((chunks 8 16 b).map (fun c => BitVec.ofNat 64 (beVal c))).reverse
  let v := (List.zipWith (· + ·) shaK w).foldl shaRound h
  List.zipWith (· + ·) h v

/-- The padded message. -/
def shaPad (m : List Byte) : List Byte :=
  m ++ [0x80#8] ++ List.replicate ((239 - m.length % 128) % 128) 0#8 ++ beBytes 16 (8 * m.length)

def sha384 (m : List Byte) : BitVec 384 :=
  let p := shaPad m
  let h := (chunks 128 (p.length / 128) p).foldl shaBlock shaInit
  BitVec.ofNat 384 (beVal ((h.take 6).flatMap (fun x => beBytes 8 x.toNat)))

end Sys2Proof
end

