-- ==== Sys2Proof/Machine/CipherOps.lean ====
section
/-!
DEFINITION. Cipher requests: their format, the checks at release, results, counters and the random service
(R392-R411).
-/

namespace Sys2Proof

/-! Fields of a request (R399, R400). -/

def rqWord (ws : List W48) (i : Nat) : Nat := (ws.getD i 0#48).toNat
def rqRuns (ws : List W48) : Nat := fieldN (rqWord ws 0) 0 3
def rqPkt (ws : List W48) : Bool := bitN (rqWord ws 0) 7
def rqIvSrc (ws : List W48) : Nat := fieldN (rqWord ws 0) 8 3
def rqResult (ws : List W48) : Nat := fieldN (rqWord ws 0) 11 10
def rqTag (ws : List W48) : Nat := fieldN (rqWord ws 0) 21 16
def rqPutOffset (ws : List W48) : Nat := fieldN (rqWord ws 1) 0 14
def rqPutWidth (ws : List W48) : Nat := fieldN (rqWord ws 1) 14 2

/-- Whether it consumes a counter value (R405). -/
def rqCounts (ws : List W48) : Bool := rqIvSrc ws == 2 || rqIvSrc ws == 3 || rqIvSrc ws == 4

/-- A run (R400). -/
structure Run where
  kind : Nat
  src : Nat
  dst : Nat
  g : Nat
  index : Nat
  len : Nat
  off : Nat
  b : Nat
  deriving DecidableEq, Repr

def runOf (ws : List W48) (i : Nat) : Run :=
  let a := rqWord ws (4 + 2 * i)
  { kind := fieldN a 0 4, src := fieldN a 4 2, dst := fieldN a 6 2, g := fieldN a 8 2, index := fieldN a 10 2,
    len := fieldN a 12 14, off := fieldN a 26 14, b := rqWord ws (5 + 2 * i) }

def runsOf (ws : List W48) : List Run := (List.range (rqRuns ws)).map (runOf ws)

/-- The sources that a kind allows; RANDOM names none and has SRC 0. -/
def runSources (kind : Nat) : List Nat :=
  match kind with
  | 1 => [2, 3] | 2 => [0] | 3 => [0, 1, 2] | 4 => [0, 1, 2] | 5 => [0, 1, 2] | 6 => [0, 1] | 7 => [0, 1] | 8 => [0]
  | _ => []

/-- A run names the request's packet. -/
def Run.namesPkt (r : Run) : Bool := (r.src == 0 && r.kind != 8) || r.dst == 1
def Run.random (r : Run) : Bool := r.kind == 8

/-- The bits that word B may hold. -/
def Run.bOk (r : Run) : Bool :=
  if r.kind = 8 then r.b == 0
  else if r.src = 1 then decide (r.b < 2 ^ 37) && r.b % 16 == 0
  else if r.src = 2 then decide (r.b < 4)
  else if r.src = 3 ∨ r.kind = 2 then decide (r.b < 2 ^ 32)
  else r.b == 0

/-- The format of one run of a request, given FRAME_LEN of its packet (R400). -/
def runOk (ws : List W48) (xts : Bool) (flen : Nat) (i : Nat) : Bool :=
  let r := runOf ws i
  decide (rqWord ws (4 + 2 * i) < 2 ^ 40) && (runSources r.kind).contains r.src && decide (1 ≤ r.len)
  && decide (r.len ≤ 9216) && (r.g == 0 || (r.kind == 2 && decide (r.g < 3)))
  && (r.dst != 2 || r.src == 1) && (r.dst != 3 || decide (r.index < 3)) && r.bOk
  && (!r.namesPkt || (rqPkt ws && decide (r.off + r.len ≤ flen)))
  && (match r.kind with
      | 1 => r.len == 16 && r.dst == 3
      | 2 => rqIvSrc ws != 0
      | 3 => r.dst == 0
      | 4 | 5 => r.len % 16 == 0
      | 6 | 7 => r.len % 16 == 0 && decide (32 ≤ r.len) && decide (r.len ≤ 4096) && xts
      | _ => r.len % 16 == 0 && decide (r.len ≤ 64) && (r.dst == 1 || r.dst == 3))

/-- AES blocks and GF operations of a run. -/
def Run.aes (r : Run) : Nat :=
  match r.kind with
  | 1 => 1 | 2 => cdiv r.len 16 | 4 | 5 => r.len / 16 | 6 | 7 => r.len / 16 + 1 | _ => 0
def Run.gf (r : Run) : Nat :=
  match r.kind with
  | 2 => if r.g ≠ 0 then cdiv r.len 16 else 0
  | 3 => cdiv r.len 16
  | 6 | 7 => cdiv r.len 128
  | _ => 0

/-- The rules of R399 and R400: `flen` is FRAME_LEN of the packet that the batch keeps, 0 for none, and `state` the
length of the channel's state record. -/
def requestOk (ws : List W48) (xts : Bool) (flen state : Nat) : Bool :=
  let n := rqRuns ws
  decide (1 ≤ n) && decide (n ≤ 6) && decide (rqIvSrc ws < 6) && decide (rqWord ws 0 < 2 ^ 37)
  && decide (rqWord ws 1 < 2 ^ 16) && decide (rqPutWidth ws < 3)
  && (rqPutWidth ws == 0 || (rqPkt ws && rqCounts ws && decide (rqPutOffset ws + 4 * rqPutWidth ws ≤ flen)))
  && decide (rqResult ws + 16 ≤ state) && (!rqPkt ws || decide (0 < flen))
  && (List.range n).all (runOk ws xts flen)
  && ((List.range 6).drop n).all (fun i => rqWord ws (4 + 2 * i) == 0 && rqWord ws (5 + 2 * i) == 0)
  && decide (sumOf ((runsOf ws).map Run.aes) ≤ 8192) && decide (sumOf ((runsOf ws).map Run.gf) ≤ 8192)

/-- HBM ranges of a request. -/
def rqRanges (ws : List W48) : List (Nat × Nat) :=
  ((runsOf ws).filter (fun r => r.src == 1 && r.kind != 8)).map (fun r => (r.b, r.len))

/-- Whether it needs random values. -/
def rqRandom (ws : List W48) : Bool := rqIvSrc ws == 5 || (runsOf ws).any Run.random

/-- 128 bits as three words (R191), and back. -/
def wordsOfBlock (bs : List Byte) : List W48 :=
  [BitVec.ofNat 48 (beVal (slice bs 0 6)), BitVec.ofNat 48 (beVal (slice bs 6 6)),
   BitVec.ofNat 48 (beVal (slice bs 12 4))]
def blockOfWords (ws : List W48) (i : Nat) : List Byte :=
  beBytes 6 (rqWord ws i) ++ beBytes 6 (rqWord ws (i + 1)) ++ beBytes 4 (rqWord ws (i + 2) % 2 ^ 32)

/-- The result area (R402). -/
def resultWords (acc : List Byte) (rbs : List (List Byte)) (counter epoch : Nat) (salt : Byte) (tag status : Nat)
    (retry : Bool) : List W48 :=
  wordsOfBlock acc ++ (List.range 3).flatMap (fun i => wordsOfBlock (rbs.getD i []))
    ++ [BitVec.ofNat 48 counter, pack 48 [put (counter / 2 ^ 48) 0 16, put epoch 16 24, put salt.toNat 40 8], 0#48,
        pack 48 [put tag 0 16, put status 16 8, putB true 24, putB retry 25]]

/-! The CTR_DRBG of NIST SP 800-90A with AES-256, without a derivation function (R409). -/

/-- `n` blocks of its output: AES of V + 1, V + 2, ... under Key. -/
def drbgBlocks (key v : List Byte) (n : Nat) : List Byte :=
  (List.range n).flatMap (fun i => aesEnc key (beBytes 16 ((beVal v + 1 + i) % 2 ^ 128)))

/-- CTR_DRBG_Update with 48 bytes: the new Key and V. -/
def drbgUpdate (key v data : List Byte) : List Byte × List Byte :=
  let x := xorBytes (drbgBlocks key v 3) data
  (x.take 32, x.drop 32)

/-- CTR_DRBG_Generate of `n` bytes, without additional input: the bytes, and the new Key and V. -/
def drbgGenerate (key v : List Byte) (n : Nat) : List Byte × List Byte × List Byte :=
  let m := cdiv n 16
  ((drbgBlocks key v m).take n, drbgUpdate key (beBytes 16 ((beVal v + m) % 2 ^ 128)) (zeroBytes 48))

/-! The record of a context (R395). -/

def pad32 (k : List Byte) : List Byte := slice k 0 32

/-- Bytes 0-31 of a record (R395). -/
def ctxHeader (id : Nat) (c : Ctx) (state wrap origin : Nat) : List Byte :=
  leBytes 3 id ++ leBytes 1 state
    ++ leBytes 1 (putB c.key256 0 + putB c.xts 1 + putB c.storage 2 + putB c.exportable 3 + putB c.ownerPool 4
        + putB c.paired 5)
    ++ [c.salt] ++ leBytes 1 wrap ++ [0#8] ++ leBytes 4 c.owner.toNat ++ leBytes 4 c.epoch.toNat
    ++ leBytes 8 c.ctrHwm ++ leBytes 4 c.saveSeq.toNat ++ leBytes 4 origin

/-- The 256 bytes of a context's record in the store: BODY is KEY1 and KEY2 wrapped under K0, and zero without a key. -/
def ctxRecord (k0 : Option (List Byte)) (id : Nat) (c : Ctx) : List Byte :=
  let body := match k0 with
    | some k => if c.key1.isEmpty then zeroBytes 72 else kwWrap k (pad32 c.key1 ++ pad32 c.key2)
    | none => zeroBytes 72
  ctxHeader id c c.state.code 0 0 ++ body ++ zeroBytes 152

/-! Counter blocks (R406). -/

def blockSize : Nat := 2 ^ 20

/-- The first value of the block that a context would allocate next: `parity` on a pair. -/
def nextBlockStart (hwm : Nat) (parity : Option Nat) : Nat :=
  match parity with
  | none => hwm
  | some q =>
    let i := cdiv hwm blockSize
    (if i % 2 = q then i else i + 1) * blockSize

end Sys2Proof

namespace Sys2Proof.Machine

/-- A context that the table does not list. -/
def ctxUnlisted (s : State) : Ctx := { Ctx.empty with state := s.cph.unlisted }

def ctxOf (s : State) (i : Nat) : Ctx := tgetD s.cph.ctxs i (ctxUnlisted s)
def ctxMod (s : State) (i : Nat) (f : Ctx → Ctx) : State :=
  { s with cph := { s.cph with ctxs := tput (ctxUnlisted s) s.cph.ctxs i (f (ctxOf s i)) } }

/-- A byte of HBM: the context store, which a Recipe places, holds the record of each context (R395), so that State keeps the
contexts once; neither the host nor an engine reads or writes the store. -/
def hbmByte (s : State) (a : Nat) : Byte :=
  let b := s.cph.ctxBase.toNat
  if 0 < b ∧ b ≤ a ∧ a < b + 0x4000000 then
    let i := (a - b) / 256
    (ctxRecord (tget s.kvl.vol 0) i (ctxOf s i)).getD ((a - b) % 256) 0#8
  else hbmGet s a
def cphMod (s : State) (f : Cph → Cph) : State := { s with cph := f s.cph }
def kvlMod (s : State) (f : Kvl → Kvl) : State := { s with kvl := f s.kvl }
def cacheMod (s : State) (i : Nat) (f : CacheEntry → CacheEntry) : State :=
  cphMod s (fun c => { c with cache := tadj c.cache i f })

/-! The random service (R409, R410). -/

def rngReady (s : State) : Bool := s.kvl.rng == .ready

/-- The DRBG takes up 384 bits of full entropy, which are free: as its first Key and V from zeros, or in a reseed. -/
def drbgSeed (again : Bool) (s : State) : State :=
  let (seed, s) := freshBytes 48 s
  let k := s.kvl
  let x := if again then drbgUpdate k.drbgKey k.drbgV seed else drbgUpdate (zeroBytes 32) (zeroBytes 16) seed
  kvlMod s (fun k => { k with drbgKey := x.1, drbgV := x.2, calls := 0#21, reseedTick := intervalStart s })

/-- A reseed is due: after 2^20 generate calls, or 1,000,000 ticks. -/
def drbgDue (s : State) : Bool := rngReady s && (decide (2 ^ 20 ≤ s.kvl.calls.toNat) || decide (s.kvl.reseedTick + 1000000 ≤ now s))

/-- A due reseed is made. -/
def drbgReseed (s : State) : State :=
  if drbgDue s then drbgSeed true (kvlMod s (fun k => { k with reseeds := wrapInc k.reseeds })) else s

/-- `n` bytes drawn in one generate call, after the reseed that is due. -/
def drbg (n : Nat) (s : State) : List Byte × State :=
  let s := drbgReseed s
  let x := drbgGenerate s.kvl.drbgKey s.kvl.drbgV n
  (x.1, kvlMod s (fun k => { k with drbgKey := x.2.1, drbgV := x.2.2, calls := k.calls + 1#21 }))

/-! Ownership (R394). -/

def ownsContext (c : Ctx) (b : Binding) : Bool :=
  if c.ownerPool then b.pooled && c.owner.toNat == b.pool + b.cluster * 16
  else b.channel == c.owner.toNat

/-- The range lies in the cluster's engine HBM window, or in the storage buffers for a STORAGE context (R398). -/
def requestRangeOk (s : State) (c : Ctx) (cluster : Nat) (r : Nat × Nat) : Bool :=
  let (base, size) := if c.storage then (s.sto.bufBase, s.sto.bufSize)
    else ((clusterOf s cluster).hbmBase, (clusterOf s cluster).hbmSize)
  decide (base ≤ r.1) && decide (r.1 + r.2 ≤ base + size)

/-! Results. -/

/-- The result area written, which makes the channel pending (R402). The blocks that no run gave are open. -/
def writeResult (s : State) (ch : Nat) (offset : Nat) (ws : List W48) (retry : Bool) : State :=
  match channelOf s ch with
  | none => s
  | some c =>
    channelMod (stateSetAll s c.bind offset ws) ch (fun c =>
      { c with cipher := true, cipherAt := if c.cipher then c.cipherAt else nowBeats s
               retryAreas := c.retryAreas.filter (· ≠ offset) ++ (if retry then [offset] else []) })

/-- What a request gives is delivered: to its result area, or, of a logical block, its status to the storage unit, which a RETRY
does not concern (R427, R437). -/
def resultDeliver (s : State) (r : CipherReq) (ws : List W48) (retry : Bool) : State :=
  match r.disk with
  | none => writeResult s r.channel (rqResult r.words) ws retry
  | some k =>
    if retry then s
    else { s with sto := { s.sto with xtsEnds := s.sto.xtsEnds ++ [(k, fieldN (ws.getD 15 0#48).toNat 16 8)] } }

/-- The result area of a request that ends with a status and no outputs; `counter` is the value it consumed. -/
def endWords (s : State) (i : Nat) (r : CipherReq) (counter status : Nat) (retry : Bool) : List W48 × State :=
  let (rb, s) := freshBytes 48 s
  let c := ctxOf s i
  (resultWords [] (chunks 16 3 rb) counter c.epoch.toNat c.salt (rqTag r.words) status retry, s)

/-- A request ends at once with a status and no outputs. The result for a channel whose slots are idle for a migration is held with
the outputs (R360). -/
def requestEnd (s : State) (i : Nat) (r : CipherReq) (status : Nat) : State :=
  let (ws, s) := endWords s i r 0 status false
  let s := cphMod s (fun k => { k with rejected := if status = 8 then wrapInc k.rejected else k.rejected })
  if r.disk.isNone && channelIdle s r.channel then
    let out : CipherOutput := { ctx := i, req := r, words := ws, retry := false, patches := [], hbm := [], due := nowBeats s }
    cphMod s (fun k => { k with outputs := k.outputs ++ [out] })
  else resultDeliver (cphMod s (fun k => { k with completed := wrapInc k.completed })) r ws false

/-- The beat in which a request's result is written: 64 beats after the last beat of its slot (R84, R402). -/
def resultDue (stop : Nat) : Nat := stop + 63

/-- A request ends in its slot with a status and no outputs: its result area waits for its beat. `counter` is the value that it
consumed (R405). -/
def requestFail (s : State) (i : Nat) (r : CipherReq) (counter status : Nat) (retry : Bool) : State :=
  let (ws, s) := endWords s i r counter status retry
  let out : CipherOutput :=
    { ctx := i, req := r, words := ws, retry := retry, patches := [], hbm := [], due := resultDue r.stop }
  cphMod s (fun k => { k with outputs := k.outputs ++ [out] })

/-- A released request is checked in the order of R398; the first failure completes it, else it queues. `kept` says
that the batch keeps its packet. While the slab is not enabled every request completes BUS_ERROR (R597). -/
def csubRelease (s : State) (b : Binding) (x : CipherSubmit) (kept : Bool) : State :=
  let c := ctxOf s x.ctx
  let flen := if kept then ((x.pkt.bind (pktOf s)).map frameLen).getD 0 else 0
  let r : CipherReq := { channel := b.channel, words := x.words, pkt := if kept then x.pkt else none,
                         landed := nowBeats s, retry := none, aesAt := [], gfAt := [], stop := 0, disk := none }
  if !s.cph.enabled then
    if rqResult x.words + 16 ≤ b.stateWords then requestEnd s x.ctx r 5
    else cphMod s (fun k => { k with completed := wrapInc k.completed })
  else if !requestOk x.words (c.xts || c.state ≠ .active) flen b.stateWords then
    if rqResult x.words + 16 ≤ b.stateWords then requestEnd s x.ctx r 1
    else cphMod s (fun k => { k with completed := wrapInc k.completed })
  else if c.state ≠ .active || s.kvl.erasing || !ownsContext c b then requestEnd s x.ctx r 4
  else if !(rqRanges x.words).all (requestRangeOk s c b.cluster) then requestEnd s x.ctx r 5
  else if rqRandom x.words && !rngReady s then requestEnd s x.ctx r 3
  else if 32 ≤ c.queue.length then requestEnd s x.ctx r 8
  else ctxMod s x.ctx (fun c => { c with queue := c.queue ++ [r] })

/-- The request at the head of a context's queue leaves it. -/
def requestPop (s : State) (i : Nat) : State := ctxMod s i (fun c => { c with queue := c.queue.drop 1 })

/-- Every queued request of a context completes ABORTED, also one that a failed unit returned, whose RETRY is written no more (R396,
R403, R416). -/
def requestsAbort (s : State) (i : Nat) : State :=
  let q := (ctxOf s i).queue
  let s := cphMod s (fun k => { k with outputs := k.outputs.filter (fun o => o.ctx != i || !o.retry) })
  q.foldl (fun s r => requestEnd s i r 2) (ctxMod s i (fun c => { c with queue := [] }))

/-! Counter blocks (R405, R406). -/

/-- The pair's parity for a context: PAIRED contexts of a pair, by side. -/
def ctxParity (s : State) (c : Ctx) : Option Nat :=
  if s.mir.pair.mode ≠ 0 && c.paired then some (if s.rst.options.sideB then 1 else 0) else none

/-- Both sides of the pair are in service. -/
def bothSides (s : State) : Bool :=
  (s.mir.state == .active || s.mir.state == .standby) && decide (2 ≤ mirrorLink s)

/-- The next block would not lie wholly below 2^64. -/
def ctxExhausted (s : State) (c : Ctx) : Bool :=
  decide (2 ^ 64 < nextBlockStart c.ctrHwm (ctxParity s c) + blockSize)

/-- Blocks of an entry of which something is left to abandon. -/
def blocksOf (e : CacheEntry) : Nat :=
  let left := fun (b : Option CtrBlock) => if b.any (fun x => decide (x.next < x.stop)) then 1 else 0
  left e.block + left e.nextBlock

/-- A cache entry goes, and the rest of its blocks with it. -/
def cacheDrop (s : State) (i : Nat) : State :=
  match tget s.cph.cache i with
  | none => s
  | some e => cphMod s (fun k => { k with cache := tdel k.cache i, abandoned := wrapAdd k.abandoned (blocksOf e) })

/-- The counter value that a request would take now: its block has one left and is usable; an ended block gives way to
the next one. -/
def counterReady (e : CacheEntry) : Option (Nat × CacheEntry) :=
  let use := fun (b : CtrBlock) (rest : Option CtrBlock) =>
    if b.usable && decide (b.next < b.stop) then
      some (b.next, { e with block := some { b with next := b.next + 1 }, nextBlock := rest })
    else none
  match e.block, e.nextBlock with
  | some b, n =>
    if b.next < b.stop then use b n
    else match n with
      | some b' => use b' none
      | none => none
  | none, some b => use b none
  | none, none => none

/-- A block is allocated (R406): at the first use after a load, and when at most 2^19 values are left; at most 32 in a tick. -/
def blockAlloc (s : State) (i : Nat) : State :=
  let c := ctxOf s i
  match tget s.cph.cache i with
  | none => s
  | some e =>
    let wants := match e.block, e.nextBlock with
      | some b, none => decide (b.stop - b.next ≤ 2 ^ 19)
      | none, none => true
      | _, some _ => false
    if c.state ≠ .active || !wants || ctxExhausted s c || decide (32 ≤ s.cph.allocsTick) then s
    else
      let start := nextBlockStart c.ctrHwm (ctxParity s c)
      let mirrored := (ctxParity s c).isSome
      let b : CtrBlock :=
        { next := start, stop := start + blockSize, usable := !(mirrored && bothSides s), seq := none }
      let e := if e.block.isNone then { e with block := some b } else { e with nextBlock := some b }
      let s := ctxMod s i (fun c => { c with ctrHwm := start + blockSize })
      let s := cphMod s (fun k =>
        { k with cache := tset k.cache i e, blocks := wrapInc k.blocks, allocsTick := k.allocsTick + 1 })
      if mirrored then deltaAdd s 0x07 (leBytes 4 i ++ zeroBytes 4 ++ leBytes 8 (start + blockSize)) else s

/-! Zeroization (R416). -/

/-- A context change that brings no key. -/
def keylessDue : CtxDue → Bool
  | .create .. | .restore .. => false
  | .destroy .. | .save .. => true

/-- An erase begins: every request completes ABORTED, outputs not yet written are dropped, the cache and the DRBG are zeroed; of the
changes that wait for the boundary, creations and restores are dropped, for no key is left (DEDUCED, log entry 169). -/
def zeroizeStart (s : State) : State :=
  let s := s.cph.ctxs.foldl (fun s e => requestsAbort s e.1) s
  let s := (s.cph.outputs.filter (fun o => !o.retry)).foldl (fun s o => requestEnd s o.ctx o.req 2) s
  let s := cphMod s (fun k => { k with cache := [], outputs := [], due := k.due.filter keylessDue })
  kvlMod s (fun k => { k with erasing := true, eraseTick := s.tmb.tick, rng := .startup, calls := 0#21, drbgKey := [], drbgV := [] })

end Sys2Proof.Machine
end

