-- ==== Sys2Proof/Machine/Transport.lean ====
section
/-!
DEFINITION. The transport to the backing targets (R424, R429, R430, R434): NVMe over Fabrics capsules, NVMe/TCP and RoCE v2 units, and
the frames that carry them on the path's port. Layouts that R434 takes from the NVM Express over Fabrics specifications, TCP/IP and
RoCE v2 are PRESUMED from them; header bytes that this leaves open are free (log entry 172).
-/

namespace Sys2Proof

/-! Capsules: a submission entry of 64 bytes. -/

/-- The data descriptor of a capsule for `n` bytes: of the transport for NVMe/TCP, keyed for RoCE v2 with its address and key in
`fill`. -/
def capsuleSgl (roce : Bool) (fill : List Byte) (n : Nat) : List Byte :=
  if n = 0 then zeroBytes 16
  else if roce then slice fill 0 8 ++ leBytes 3 n ++ slice fill 8 4 ++ [0x40#8]
  else zeroBytes 8 ++ leBytes 4 n ++ zeroBytes 3 ++ [0x5A#8]

/-- An entry of an NVM command: opcode, namespace, descriptor, and dwords 10 to 15. -/
def capsuleOf (op nsid : Nat) (cid : W16) (sgl dwords : List Byte) : List Byte :=
  leBytes 1 op ++ [0x40#8] ++ leBytes 2 cid.toNat ++ leBytes 4 nsid ++ zeroBytes 16 ++ sgl ++ slice dwords 0 24

/-- An entry of a Fabrics command of type `ty`. -/
def fabricsCapsule (ty : Nat) (cid : W16) (sgl dwords : List Byte) : List Byte := capsuleOf 0x7F ty cid sgl dwords

/-- Dwords 10 to 15 of Connect: queue, its size less one, and the keep-alive time in ms for the admin queue. -/
def connectDwords (queue depth kato : Nat) : List Byte :=
  leBytes 2 0 ++ leBytes 2 queue ++ leBytes 2 (depth - 1) ++ leBytes 2 0 ++ leBytes 4 (if queue = 0 then kato else 0)

/-- The data of Connect: a host id, any controller, the target's and the host's NQN. -/
def connectData (hostId subnqn hostnqn : List Byte) : List Byte :=
  slice hostId 0 16 ++ [0xFF#8, 0xFF#8] ++ zeroBytes 238 ++ slice subnqn 0 256 ++ slice hostnqn 0 256 ++ zeroBytes 256

/-! Units of a transport. -/

/-- ICReq with PFV 0, no digests, and MAXR2T 16 as 15. -/
def icReq : List Byte := [0#8, 0#8, 128#8, 0#8] ++ leBytes 4 128 ++ leBytes 2 0 ++ [0#8, 0#8] ++ leBytes 4 15 ++ zeroBytes 112

/-- A capsule: a command capsule of NVMe/TCP, or a SEND. -/
def capsulePdu (roce : Bool) (queue : Nat) (sqe : List Byte) : Pdu :=
  { queue := queue, op := 0x04#8, bytes := if roce then sqe else [4#8, 0#8, 72#8, 0#8] ++ leBytes 4 72 ++ sqe }

/-- Data that the target called for: H2CData, or the response to its RDMA READ. -/
def dataPdu (roce : Bool) (queue : Nat) (cid tag : W16) (offset : Nat) (data : List Byte) : Pdu :=
  { queue := queue, op := 0x10#8
    bytes := if roce then data
      else [6#8, 4#8, 24#8, 24#8] ++ leBytes 4 (24 + data.length) ++ leBytes 2 cid.toNat ++ leBytes 2 tag.toNat ++ leBytes 4 offset
        ++ leBytes 4 data.length ++ zeroBytes 4 ++ data }

/-- A congestion notification packet. -/
def cnpPdu : Pdu := { queue := 0, op := 0x81#8, bytes := zeroBytes 16 }

/-! Frames. -/

/-- An address of a path as its bytes on the wire. -/
def pathAddr (family : Nat) (a : BitVec 128) : List Byte := if family = 4 then (beBytes 16 a.toNat).take 4 else beBytes 16 a.toNat

/-- Ethernet type and IP header from LOCAL to REMOTE for `n` bytes of protocol `proto`; what is not given comes from `fill`. -/
def pathIp (y : Path) (proto n : Nat) (fill : List Byte) : List Byte :=
  let addrs := pathAddr y.family y.localAddr ++ pathAddr y.family y.remote
  if y.family = 4 then
    beBytes 2 0x0800 ++ [0x45#8] ++ slice fill 0 1 ++ beBytes 2 (20 + n) ++ slice fill 1 5 ++ leBytes 1 proto ++ slice fill 6 2 ++ addrs
  else beBytes 2 0x86DD ++ [0x60#8] ++ slice fill 0 3 ++ beBytes 2 n ++ leBytes 1 proto ++ slice fill 3 1 ++ addrs

/-- A frame of a path: TCP to SVC_PORT, or UDP to port 4791 with a base transport header, and the response's header for data. `fill` holds
at least 64 free bytes. -/
def pathFrame (roce : Bool) (y : Path) (op : Byte) (payload fill : List Byte) : List Byte :=
  let l4 := if roce then
      let body := [op] ++ slice fill 24 11 ++ (if op = 0x10#8 then slice fill 36 4 else []) ++ payload ++ slice fill 40 4
      slice fill 20 2 ++ beBytes 2 4791 ++ beBytes 2 (8 + body.length) ++ slice fill 22 2 ++ body
    else slice fill 20 2 ++ beBytes 2 y.svcPort.toNat ++ slice fill 24 8 ++ [0x50#8] ++ slice fill 32 7 ++ payload
  slice fill 44 12 ++ pathIp y (if roce then 17 else 6) l4.length fill ++ l4

/-- Payload bytes of one frame: at most 4,096, and what a port's longest frame holds (DESIGN CHOICE, log entry 172). -/
def pathPayload (maxFrame : Nat) : Nat := min 4096 (maxFrame - 100)

/-- Units that may go now: all of NVMe/TCP; of RoCE v2 while the credit is above zero. -/
def pduSplit (roce : Bool) : List Pdu → Int → List Pdu × List Pdu × Int
  | [], c => ([], [], c)
  | p :: ps, c =>
    if roce && decide (c ≤ 0) then ([], p :: ps, c)
    else
      let (now_, later, c') := pduSplit roce ps (c - p.bytes.length)
      (p :: now_, later, c')

end Sys2Proof

namespace Sys2Proof.Machine

/-! Paths. -/

def targetOf (s : State) (t : Nat) : Option Target := tget s.sto.targets t
def targetMod (s : State) (t : Nat) (f : Target → Target) : State :=
  stoMod s (fun x => { x with targets := tadj x.targets t f })
def pathMod (s : State) (t p : Nat) (f : Path → Path) : State :=
  targetMod s t (fun x => { x with paths := x.paths.zipIdx.map (fun y => if y.2 = p then f y.1 else y.1) })

def pathAt (s : State) (t p : Nat) : Option Path := (targetOf s t).bind (fun x => x.paths[p]?)
def pathLive (s : State) (t p : Nat) : Bool := ((pathAt s t p).map (fun y => y.state == .live)).getD false
def targetRoce (s : State) (t : Nat) : Bool := ((targetOf s t).map (·.roce)).getD false

/-- A path serves a namespace: it is LIVE, and what it reported of REMOTE_NSID agrees with LBA4K and covers the range (R430). -/
def pathServes (s : State) (x : Namespace) (p : Nat) : Bool :=
  pathLive s x.target p
  && ((pathAt s x.target p).map (fun y => y.remotes.any (fun r =>
      r.nsid == x.remoteNsid && r.lba4k == x.lba4k && decide (x.remoteOffset + x.size ≤ r.size)))).getD false

/-! Sending. -/

/-- A frame of a target's tenant, emitted for its channel onto a port's first queue (R25, R216, R424; DESIGN CHOICE, log entry 172). -/
def pathSend (s : State) (port tenant : Nat) (bytes : List Byte) : State :=
  let k := macroOfPort port
  let p := { madePacket 2 0 bytes with tenant := some tenant }
  let s := addPkt (countArrival s k 2 (frameLen p)) (cTenant tenant 0) p
  let (s, id) := pktAdd s
    { p with owner := k, stage := .enqueue, stamp := nowStamp s, dest := destPort port 0, crumbs := crumbsOf (frameLen p) }
  enqueuePort s id port 0

/-- The frames of a unit. -/
def pduSend (roce : Bool) (tenant : Nat) (y : Path) (s : State) (x : Pdu) : State :=
  let cap := pathPayload (((portOf s y.port).map (·.cfg.maxFrame)).getD 1518)
  (chunks cap (cdiv x.bytes.length cap) x.bytes).foldl (fun s b =>
    let (fill, s) := freshBytes 64 s
    pathSend s y.port tenant (pathFrame roce y x.op b fill)) s

/-- What a path may send of its units is sent. -/
def pathFlush (s : State) (t p : Nat) : State :=
  match targetOf s t, pathAt s t p with
  | some x, some y =>
    let (ps, later, credit) := pduSplit x.roce y.sendQ y.credit
    ps.foldl (pduSend x.roce x.tenant y)
      (pathMod s t p (fun y => { y with sendQ := later, credit := if x.roce then credit else y.credit }))
  | _, _ => s

/-- Units to send on a path. -/
def pathPost (s : State) (t p : Nat) (l : List Pdu) : State := pathFlush (pathMod s t p (fun y => { y with sendQ := y.sendQ ++ l })) t p

/-- A tick's allowance of a RoCE v2 path: its pacing rate's share of the port's speed, in bytes (R434). -/
def pathAllowance (s : State) (y : Path) : Nat := ((portOf s y.port).map (fun q => portMbps q / 8)).getD 0 * y.pace / 2 ^ 32

/-- A path's tick begins: one that FAILED returns to CONNECTING, to attempt after its backoff (R435); a RoCE v2 path gets its
allowance. -/
def pathTick (s : State) (t p : Nat) : State :=
  let s := pathMod s t p (fun y =>
    { y with
      state := if y.state = .failed then .connecting else y.state
      attemptAt := if y.state = .failed then now s + 100000 else y.attemptAt
      backoff := if y.state = .failed then 200000 else y.backoff
      credit := min (pathAllowance s y) (y.credit + pathAllowance s y) })
  pathFlush s t p

def pathsTick (s : State) : State := s.sto.targets.foldl (fun s e => (pathTick (pathTick s e.1 0) e.1 1)) s

/-! What a path sends of itself. -/

/-- A string of the STORAGE section. -/
def stringAt (s : State) (i : Nat) : List Byte := s.sto.strings.getD i []

/-- The units that connect queue `q` of a target, with 12 + 16 + 2 free bytes each. -/
def connectPdus (s : State) (x : Target) (fill : List Byte) (q : Nat) : List Pdu :=
  let cid : W16 := BitVec.ofNat 16 (leAt fill 28 2)
  let data := connectData (slice fill 12 16) (stringAt s x.subnqn) (stringAt s s.sto.hostnqn)
  let dwords := connectDwords q (if q = 0 then 32 else 2 ^ x.depthLog2) (s.sto.nsLoss / 1000)
  (if x.roce then [] else [{ queue := q, op := 0x04#8, bytes := icReq }])
    ++ [capsulePdu x.roce q (fabricsCapsule 1 cid (capsuleSgl x.roce fill 1024) dwords), dataPdu x.roce q cid 0#16 0 data]

/-- Property Get of CAP, Property Set of CC to enable, Property Get of CSTS. -/
def propertyPdus (x : Target) (fill : List Byte) : List Pdu :=
  let cid := fun (i : Nat) => BitVec.ofNat 16 (leAt fill (2 * i) 2)
  let get := fun (size off : Nat) => leBytes 4 size ++ leBytes 4 off
  [capsulePdu x.roce 0 (fabricsCapsule 4 (cid 0) (zeroBytes 16) (get 1 0x00)),
   capsulePdu x.roce 0 (fabricsCapsule 0 (cid 1) (zeroBytes 16) (get 0 0x14 ++ leBytes 8 0x00460001)),
   capsulePdu x.roce 0 (fabricsCapsule 4 (cid 2) (zeroBytes 16) (get 0 0x1C))]

/-- Connect for the admin queue, the properties, and Connect for each of the IO_QUEUES (R434). -/
def pathConnect (s : State) (t p : Nat) : State :=
  match targetOf s t with
  | none => s
  | some x =>
    let (fill, s) := freshBytes (30 * (x.ioQueues + 1) + 6) s
    pathPost s t p (connectPdus s x fill 0 ++ propertyPdus x (fill.drop (30 * (x.ioQueues + 1)))
      ++ (List.range x.ioQueues).flatMap (fun i => connectPdus s x (fill.drop (30 * (i + 1))) (i + 1)))

/-- A command of the admin queue: opcode, namespace, bytes of data that it reads, dword 10. -/
def pathAdmin (s : State) (t p op nsid n dw10 : Nat) : State :=
  let (fill, s) := freshBytes 14 s
  pathPost s t p [capsulePdu (targetRoce s t) 0
    (capsuleOf op nsid (BitVec.ofNat 16 (leAt fill 12 2)) (capsuleSgl (targetRoce s t) fill n) (leBytes 4 dw10))]

/-- Identify Controller, and Identify Namespace of some remote namespaces (R430). -/
def pathIdentify (s : State) (t p : Nat) (nsids : List W32) : State :=
  nsids.eraseDups.foldl (fun s n => pathAdmin s t p 0x06 n.toNat 4096 0) (pathAdmin s t p 0x06 0 4096 1)

end Sys2Proof.Machine
end

