-- ==== Sys2Proof/Machine/Storage.lean ====
section
/-!
DEFINITION. Storage commands in process, their data and encryption, targets and paths, and the controllers' commands
(R421, R422, R427-R440).
-/

namespace Sys2Proof.Machine

/-! Commands in process. -/

def ioIs (i sqid : Nat) (cid : W16) (c : IoCmd) : Bool := c.ctl == i && c.sqid == sqid && c.cid == cid && !c.orphan

def ioOf (s : State) (i sqid : Nat) (cid : W16) : Option IoCmd := s.sto.cmds.find? (ioIs i sqid cid)

/-- A command changes. -/
def ioSet (s : State) (c c' : IoCmd) : State := stoMod s (fun x => { x with cmds := x.cmds.map (fun y => if y = c then c' else y) })

/-- The status fields of R437 by row. -/
def ioStatus (row : Nat) : Nat :=
  match row with
  | 1 => 0x4001 | 2 => 0x400B | 3 => 0x4002 | 4 => 0x4080 | 5 => 0x4182 | 6 => 0x4286 | 7 => 0x0082 | 8 => 0x0004
  | 9 => 0x0006 | 10 => 0x0007 | _ => 0x0022

/-- What a completion under a row counts and logs (R437 and the registers STO_ERR_STAT and STO_NS_STAT). -/
def ioCount (s : State) (i sqid : Nat) (cid : W16) (ns slba row status : Nat) : State :=
  let s := stoMod s (fun x =>
    { x with transient := if row = 11 then wrapInc x.transient else x.transient,
             internal := if row = 8 ∨ row = 9 then wrapInc x.internal else x.internal })
  let s := if 6 ≤ row ∧ row ≤ 11 then nsMod s ns (fun n => { n with errors := wrapInc n.errors }) else s
  if 8 ≤ row ∧ row ≤ 12 then
    ctlMod s i (fun c =>
      { c with errorCount := wrapInc c.errorCount,
               errorLog := ((BitVec.ofNat 16 sqid, cid, BitVec.ofNat 16 status, BitVec.ofNat 64 slba) :: c.errorLog).take 64 })
  else s

/-- A normal shutdown is complete once every command has completed (R440). -/
def shutdownCheck (s : State) (i : Nat) : State :=
  match ctlOf s i with
  | none => s
  | some c =>
    if c.shst = 1#2 ∧ !(s.sto.cmds.any (fun x => x.ctl == i && !x.orphan)) then
      ctlMod s i (fun c => { c with shst := 2#2, shutBy := none })
    else s

/-! Granules (R427). -/

/-- The first `n` free granules from an address on. -/
def granuleScan (used : List Nat) : Nat → Nat → Nat → List Nat
  | 0, _, _ => []
  | _ + 1, _, 0 => []
  | fuel + 1, a, n + 1 =>
    if used.contains a then granuleScan used fuel (a + 4096) (n + 1) else a :: granuleScan used fuel (a + 4096) n

def granulesUsed (s : State) : List Nat := s.sto.cmds.flatMap (·.bufs)
def granulesTotal (s : State) : Nat := s.sto.bufSize / 4096

def granuleTake (s : State) (n : Nat) : Option (List Nat) :=
  let l := granuleScan (granulesUsed s) (granulesTotal s) s.sto.bufBase n
  if l.length = n then some l else none

def bufRead (s : State) (bufs : List Nat) (n : Nat) : List Byte := (bufs.flatMap (fun a => hbmRead s a 4096)).take n

def bufWrite (s : State) (bufs : List Nat) (data : List Byte) : State :=
  (bufs.zip (chunks 4096 (cdiv data.length 4096) data)).foldl (fun s x => hbmPutBytes s x.1 x.2) s

def bufsAnswer (s : State) (bufs : List Nat) : Bool := bufs.all (fun a => hbmRangeOk s a 4096)

/-! Encryption at rest (R427, R432). -/

def ioKey (c : IoCmd) : Nat × Nat × W16 := (c.ctl, c.sqid, c.cid)

/-- A context serves a namespace. -/
def xtsServes (s : State) (x : Namespace) : Bool :=
  let c := ctxOf s x.context
  s.cph.enabled && !s.kvl.erasing && c.state == .active && c.xts && c.storage
  && (if c.ownerPool then ((channelOf s x.channel).map (fun ch => ownsContext c ch.bind)).getD false
      else c.owner.toNat == x.channel)

/-- The first guest LBA that the slab's requests of a command work on, and how many. -/
def xtsFirst (c : IoCmd) : Nat := if c.op = .writeZeroes then c.slba + c.done else c.slba
def xtsTotal (c : IoCmd) : Nat := if c.op = .writeZeroes then c.part else c.blocks

/-- The words of the request for logical block `k` of a command: XTS_ENC or XTS_DEC of the block in place in its granules, with the
tweak TWEAK_BASE + L in IB0. -/
def xtsWords (c : IoCmd) (k : Nat) : List W48 :=
  let n := nsLba c.space
  let at_ := c.bufs.getD (k * n / 4096) 0 + k * n % 4096
  let run := put (if c.op = .read then 7 else 6) 0 4 + put 1 4 2 + put 2 6 2 + put n 12 14
  [1#48, 0#48, 0#48, 0#48, BitVec.ofNat 48 run, BitVec.ofNat 48 at_] ++ List.replicate 10 0#48
    ++ wordsOfBlock (leBytes 16 (c.space.tweakBase + xtsFirst c + k)) ++ List.replicate 9 0#48

def xtsRequest (s : State) (c : IoCmd) (k : Nat) : CipherReq :=
  { channel := c.space.channel, words := xtsWords c k, pkt := none, landed := nowBeats s, retry := none, aesAt := [], gfAt := [],
    stop := 0, disk := some (ioKey c) }

/-- A command's next requests join its context's queue of 32 as far as there is room; the rest wait, as all do under shedding
(R396, R439). -/
def xtsFeed (s : State) (c : IoCmd) : State :=
  let n := min (xtsTotal c - c.xtsNext) (32 - (ctxOf s c.space.context).queue.length)
  if n = 0 || !shedOpen s then s
  else
    let rs := (List.range n).map (fun k => xtsRequest s c (c.xtsNext + k))
    ioSet (ctxMod s c.space.context (fun x => { x with queue := x.queue ++ rs })) c { c with xtsNext := c.xtsNext + n }

/-- The slab's work on a command's data begins. -/
def xtsBegin (s : State) (c : IoCmd) : State :=
  let c' := { c with stage := .xts, xtsNext := 0, xtsDone := 0 }
  xtsFeed (ioSet s c c') c'

/-- The slab's requests of a command that leaves go with it. -/
def xtsDrop (s : State) (c : IoCmd) : State :=
  let mine := fun (r : CipherReq) => r.disk == some (ioKey c)
  if c.stage ≠ .xts then s
  else
    let s := cphMod s (fun k =>
      { k with ctxs := tmap k.ctxs (fun _ x => { x with queue := x.queue.filter (fun r => !mine r) })
               outputs := k.outputs.filter (fun o => !mine o.req) })
    stoMod s (fun x => { x with xtsEnds := x.xtsEnds.filter (fun e => e.1 ≠ ioKey c) })

/-! Sending to a target (R427-R429). -/

/-- Live paths that serve a namespace. -/
def pathsFor (s : State) (x : Namespace) : List Nat := [0, 1].filter (pathServes s x)

/-- Targets of a Flush: that of its namespace, or all of the controller's, so far as they report a write cache (R428). -/
def flushTargets (s : State) (c : IoCmd) : List Nat :=
  let ts := if c.all then ((nsAttached s c.ctl).map (fun e => e.2.target)).eraseDups else [c.space.target]
  ts.filter (fun t => ((targetOf s t).map (·.vwc)).getD false)

/-- The fabric queue of a command on a target: its CID chooses among the target's (DESIGN CHOICE, log entry 172). -/
def ioQueueOf (x : Target) (c : IoCmd) : Nat := 1 + c.cid.toNat % max 1 x.ioQueues

/-- Its queue on a path has a free place of the 2^QUEUE_DEPTH_LOG2, less one. -/
def fabricRoom (s : State) (c : IoCmd) (t p : Nat) : Bool :=
  match targetOf s t with
  | none => false
  | some x =>
    decide ((s.sto.cmds.filter (fun y => y.sentTo.contains (t, p) && ioQueueOf x y == ioQueueOf x c)).length + 1 < 2 ^ x.depthLog2)

/-- What a command asks of its target: opcode, namespace, bytes of its data, and dwords 10 to 15 (R429, R431). -/
def ioAsk (c : IoCmd) : Nat × Nat × Nat × List Byte :=
  let x := c.space
  let range := fun (lba n : Nat) => leBytes 8 (x.remoteOffset + lba) ++ leBytes 4 (n - 1)
  let ns := x.remoteNsid.toNat
  match c.op with
  | .read => (2, ns, c.blocks * nsLba x, range c.slba c.blocks)
  | .write => (1, ns, c.blocks * nsLba x, range c.slba c.blocks)
  | .flush => (0, if c.all then 0xFFFFFFFF else ns, 0, [])
  | .writeZeroes =>
    if x.xts then (1, ns, c.part * nsLba x, range (c.slba + c.done) c.part) else (8, ns, 0, range c.slba c.blocks)
  | .dsm => (9, ns, 16 * c.ranges.length, leBytes 4 (c.ranges.length - 1) ++ leBytes 4 4)

/-- The data that a target calls for: what the granules hold, or the ranges of a Deallocate, shifted by REMOTE_OFFSET. -/
def ioData (s : State) (c : IoCmd) : List Byte :=
  match c.op with
  | .dsm => c.ranges.flatMap (fun r => leBytes 4 r.1 ++ leBytes 4 r.2.1 ++ leBytes 8 (c.space.remoteOffset + r.2.2))
  | .read | .flush => []
  | _ => bufRead s c.bufs (ioAsk c).2.2.1

/-- A command's capsule put on a path. -/
def ioEmit (s : State) (c : IoCmd) (t p : Nat) : State :=
  match targetOf s t with
  | none => s
  | some x =>
    let (op, ns, n, dwords) := ioAsk c
    let (fill, s) := freshBytes 12 s
    pathPost s t p [capsulePdu x.roce (ioQueueOf x c) (capsuleOf op ns c.fabricCid (capsuleSgl x.roce fill n) dwords)]

/-- A command is sent on some paths, under a CID of the fabric's. -/
def ioSent (s : State) (c : IoCmd) (l : List (Nat × Nat)) : State :=
  let (cid, s) := freshBytes 2 s
  let c' := { c with stage := .sent, sentTo := l, sentTick := intervalStart s, fabricCid := BitVec.ofNat 16 (leVal cid) }
  l.foldl (fun s x => ioEmit s c' x.1 x.2) (ioSet s c c')

/-- A command goes to its target on a live path with a free place, or waits for one; while its CHANNEL migrates it is held
(R427, R440). -/
def ioSend (s : State) (c : IoCmd) : State :=
  match (pathsFor s c.space).filter (fabricRoom s c c.space.target) with
  | p :: _ => if channelIdle s c.space.channel then ioSet s c { c with stage := .waitPath } else ioSent s c [(c.space.target, p)]
  | [] => ioSet s c { c with stage := .waitPath }

/-! Starting and ending. -/

/-- The engine that carries a command's data: that of its submission queue (R498). -/
def ioEngine (s : State) (c : IoCmd) : Nat := ((ctlOf s c.ctl).map (fun k => sqEngine k c.sqid)).getD 0

/-- The reads of a command's host data. -/
def ioReads (s : State) (c : IoCmd) : State :=
  c.segs.foldl (fun s x => hostRead s (ioEngine s c) ((ctlFn s c.ctl).getD 0) x.1 x.2) s

/-- A command with its granules begins to move data (R427). -/
def ioBegin (s : State) (c : IoCmd) : State :=
  match c.op with
  | .write =>
    let s := ioSet s c { c with stage := .dataIn }
    ioReads s c
  | .read => ioSend s c
  | _ => ioSet s c { c with stage := .carryOut }

/-- Commands that wait for granules take them in fetch order; the first that finds too few holds up the others. -/
def ioStart : Nat → State → State
  | 0, s => s
  | fuel + 1, s =>
    match s.sto.cmds.find? (fun c => c.stage == .waitGranules) with
    | none => s
    | some c =>
      match granuleTake s c.need with
      | none => s
      | some l =>
        let c' := { c with bufs := l, stage := .carryOut }
        ioStart fuel (ioBegin (ioSet s c c') c')

def ioStartAll (s : State) : State := ioStart s.sto.cmds.length s

/-- A command leaves; its granules are free. -/
def ioLeave (s : State) (c : IoCmd) : State :=
  ioStartAll (stoMod (xtsDrop s c) (fun x => { x with cmds := x.cmds.erase c }))

/-- A command ends under a row of R437, with its status. -/
def ioEnd (s : State) (c : IoCmd) (row status : Nat) : State :=
  let s := ioLeave s c
  if c.orphan then s
  else
    let s := ioCount s c.ctl c.sqid c.cid c.ns c.slba row status
    shutdownCheck (nvmeComplete s c.ctl c.sqid c.cid.toNat status 0) c.ctl

def ioFail (s : State) (c : IoCmd) (row : Nat) : State := ioEnd s c row (ioStatus row)

/-! Fetching (R422, R427, R437). -/

def ioOpOf (o : Nat) : Option IoOp :=
  match o with
  | 0 => some .flush | 1 => some .write | 2 => some .read | 8 => some .writeZeroes | 9 => some .dsm | _ => none

/-- Ranges of a Deallocate. -/
def dsmRanges (n : Nat) (b : List Byte) : List (Nat × Nat × Nat) :=
  (List.range n).map (fun i => (leAt b (16 * i) 4, leAt b (16 * i + 4) 4, leAt b (16 * i + 8) 8))

/-- Host memory of `n` bytes: PRP1 up to its page's end, then PRP2 as a page or as the list whose entries `list` holds. -/
def prpSegs (prp1 prp2 n : Nat) (list : List Byte) : List (Nat × Nat) :=
  let first := min n (4096 - prp1 % 4096)
  let rest := n - first
  let pages := cdiv rest 4096
  (prp1, first) :: (List.range pages).map (fun i =>
    (if pages = 1 then prp2 else leAt list (8 * i) 8, min 4096 (rest - 4096 * i)))

/-- Row 3: a field breaks a limit of R419 or R421. -/
def ioFieldsOk (op : IoOp) (b : List Byte) (lba : Nat) : Bool :=
  let dw0 := leAt b 0 4
  let dw12 := leAt b 48 4
  fieldN dw0 8 2 == 0 && fieldN dw0 14 2 == 0
  && (match op with
      | .write | .read => fieldN dw12 26 4 == 0 && decide ((fieldN dw12 0 16 + 1) * lba ≤ 131072)
      | .writeZeroes => fieldN dw12 26 4 == 0
      | .dsm => decide (leAt b 40 4 < 256) && leAt b 44 4 == 4
      | .flush => true)

/-- Bytes that a command's data pointer leads to: the ranges of a Deallocate, or the PRP list of more than two pages. -/
def ioFetchedBytes (op : IoOp) (b : List Byte) (lba : Nat) : Nat :=
  let n := (fieldN (leAt b 48 4) 0 16 + 1) * lba
  let pages := cdiv (n - min n (4096 - leAt b 24 8 % 4096)) 4096
  match op with
  | .dsm => 16 * (leAt b 40 1 + 1)
  | .read | .write => if 2 ≤ pages then 8 * pages else 0
  | _ => 0

/-- The checks of rows 1 to 8, as far as a fetch decides them: the row that applies first, or what the command is. `ranges` holds fewer
bytes than the data pointer leads to where reading them failed. -/
def ioCheck (s : State) (i : Nat) (b ranges : List Byte) : Except (Nat × Nat) (IoOp × Nat) :=
  let nsid := leAt b 4 4
  match ioOpOf (leAt b 0 1) with
  | none => .error (1, 0)
  | some op =>
    let all := op == .flush && nsid == 0xFFFFFFFF
    match if all then ((nsAttached s i).head?.map (·.1)) else nsFind s i nsid with
    | none => .error (2, 0)
    | some n =>
      let x := nsOf s n
      let last := leAt b 40 8 + fieldN (leAt b 48 4) 0 16 + 1
      let beyond := match op with
        | .write | .read | .writeZeroes => decide (x.size < last)
        | .dsm => (dsmRanges (leAt b 40 1 + 1) ranges).any (fun r => decide (x.size < r.2.2 + r.2.1))
        | .flush => false
      if !ioFieldsOk op b (nsLba x) then .error (3, n)
      else if beyond then .error (4, n)
      else if x.readOnly && (op == .write || op == .writeZeroes || op == .dsm) then .error (5, n)
      else if !all && nsKeyLost s x then .error (6, n)
      else if !all && x.notReady then .error (7, n)
      else if ranges.length < ioFetchedBytes op b (nsLba x) then .error (8, n)
      else .ok (op, n)

/-- The command that an entry spells. -/
def ioCmdOf (s : State) (i sqid : Nat) (b ranges : List Byte) (op : IoOp) (n : Nat) : IoCmd :=
  let x := nsOf s n
  let blocks := match op with
    | .write | .read | .writeZeroes => fieldN (leAt b 48 4) 0 16 + 1
    | _ => 0
  let bytes := blocks * nsLba x
  let data := op == .write || op == .read
  { ctl := i, sqid := sqid, cid := BitVec.ofNat 16 (leAt b 2 2), op := op, ns := n, slba := if blocks = 0 then 0 else leAt b 40 8,
    blocks := blocks, segs := if data then prpSegs (leAt b 24 8) (leAt b 32 8) bytes ranges else [],
    need := if data then cdiv bytes 4096 else if op = .writeZeroes ∧ x.xts then cdiv (min bytes 131072) 4096 else 0,
    space := x, all := op == .flush && leAt b 4 4 == 0xFFFFFFFF, bufs := [], stage := .waitGranules, sentTo := [], sentTick := 0,
    fabricCid := 0#16, reissues := 0, done := 0, part := 0, xtsNext := 0, xtsDone := 0,
    ranges := if op = .dsm then dsmRanges (leAt b 40 1 + 1) ranges else [], failed := 0, orphan := false }

/-- A queue of a controller has a command that a fetch slot has read (R422). -/
def ioFetches (s : State) (i sqid : Nat) : Bool :=
  match ctlOf s i with
  | none => false
  | some c =>
    c.rdy && c.shst == 0#2 && fnRuns s c.fn.toNat
    && (match tget c.sqs sqid with | some q => decide (0 < q.granted) && q.head != q.tail | none => false)

/-- The head of a submission queue advances. -/
def sqAdvance (s : State) (i sqid : Nat) : State :=
  ctlMod s i (fun c => { c with sqs := tadj c.sqs sqid (fun q => { q with head := (q.head + 1) % q.size, granted := q.granted - 1 }) })

/-- STORAGE_COMMAND_FETCH: `ranges` holds what its data pointer leads to, the ranges of a Deallocate or a PRP list. -/
def ioFetch (s : State) (i sqid : Nat) (entry ranges : List Byte) : State :=
  if sqid = 0 || !ioFetches s i sqid then s
  else
    let b := slice entry 0 64
    let cid : W16 := BitVec.ofNat 16 (leAt b 2 2)
    let s := sqAdvance s i sqid
    match ioCheck s i b ranges with
    | .error (row, n) =>
      nvmeComplete (ioCount s i sqid cid n (leAt b 40 8) row (ioStatus row)) i sqid cid.toNat (ioStatus row) 0
    | .ok (op, n) =>
      let c := ioCmdOf s i sqid b ranges op n
      let s := stoMod s (fun x => { x with cmds := x.cmds ++ [c] })
      if c.need = 0 then ioBegin s c else ioStartAll s

def execStorageCommandFetch (ctl : Fin 1024) (sqid : W16) (entry : List Byte) (ranges : List Byte) (s : State) : Result :=
  .next (ioFetch s ctl.val sqid.toNat entry ranges)

/-! The steps of R427. -/

/-- A command at a stage. -/
def ioAt (s : State) (i sqid : Nat) (cid : W16) (op : IoOp) (st : IoStage) (f : IoCmd → State) : State :=
  match ioOf s i sqid cid with
  | none => s
  | some c => if c.op = op ∧ c.stage = st then f c else s

/-- A command's data stands in its granules, in clear or encrypted: it goes on its way. -/
def ioOnward (s : State) (c : IoCmd) : State :=
  match c.op with
  | .read => ioSet s c { c with stage := .dataOut, sentTo := [] }
  | _ => ioSend s c

/-- With XTS its data passes through the slab first (R427). -/
def ioThrough (s : State) (c : IoCmd) : State :=
  if !c.space.xts then ioOnward s c
  else if xtsServes s c.space then xtsBegin s c
  else ioFail s c 9

/-- NVME_WRITE: the host's data has arrived, and lands in the granules as the cap lets it (R131, R439). In D3hot it is discarded
(R464). -/
def ioWrite (s : State) (i sqid : Nat) (cid : W16) (ok : Bool) (data : List Byte) : State :=
  ioAt s i sqid cid .write .dataIn (fun c =>
    let n := c.blocks * nsLba c.space
    if !fnRuns s ((ctlFn s i).getD 0) then s
    else if !ok then ioFail s c 8
    else if !bufsAnswer s c.bufs then ioFail s c 9
    else if !shedOpen s then s
    else ioThrough (bufWrite (shedUse s n) c.bufs (slice data 0 n)) c)

def execNvmeWrite (ctl : Fin 1024) (sqid : W16) (cid : W16) (ok : Bool) (data : List Byte) (s : State) : Result :=
  .next (ioWrite s ctl.val sqid.toNat cid ok data)

/-- NVME_READ: the data in the granules is written to the host, and the command completes. -/
def ioRead (s : State) (i sqid : Nat) (cid : W16) (ok : Bool) : State :=
  ioAt s i sqid cid .read .dataOut (fun c =>
    let n := c.blocks * nsLba c.space
    let fn := (ctlFn s i).getD 0
    if !bufsAnswer s c.bufs then ioFail s c 9
    else if !ok then ioFail s c 8
    else if !fnRuns s fn || !shedOpen s then s
    else
      let data := bufRead s c.bufs n
      let e := ioEngine s c
      let s := (c.segs.foldl (fun (a : State × Nat) g => (hostWrite a.1 e fn g.1 (slice data a.2 g.2), a.2 + g.2)) (shedUse s n, 0)).1
      ioEnd s c 12 0)

def execNvmeRead (ctl : Fin 1024) (sqid : W16) (cid : W16) (ok : Bool) (s : State) : Result :=
  .next (ioRead s ctl.val sqid.toNat cid ok)

/-- NVME_WRITE_ZEROES: forwarded, or the next part of up to 128 KiB written encrypted (R431). -/
def ioZeroes (s : State) (i sqid : Nat) (cid : W16) : State :=
  ioAt s i sqid cid .writeZeroes .carryOut (fun c =>
    let part := min (c.blocks - c.done) (131072 / nsLba c.space)
    let n := part * nsLba c.space
    if !c.space.xts then ioSend s c
    else if !bufsAnswer s c.bufs then ioFail s c 9
    else if !shedOpen s then s
    else
      let c' := { c with part := part }
      ioThrough (bufWrite (shedUse (ioSet s c c') n) c.bufs (zeroBytes n)) c')

def execNvmeWriteZeroes (ctl : Fin 1024) (sqid : W16) (cid : W16) (s : State) : Result :=
  .next (ioZeroes s ctl.val sqid.toNat cid)

/-- NVME_DATASET_MANAGEMENT. -/
def ioDeallocate (s : State) (i sqid : Nat) (cid : W16) : State :=
  ioAt s i sqid cid .dsm .carryOut (fun c => ioSend s c)

def execNvmeDatasetManagement (ctl : Fin 1024) (sqid : W16) (cid : W16) (s : State) : Result :=
  .next (ioDeallocate s ctl.val sqid.toNat cid)

/-- A path of a target for a Flush: a live one with a free place. -/
def flushPath (s : State) (c : IoCmd) (t : Nat) : Option Nat := [0, 1].find? (fun p => pathLive s t p && fabricRoom s c t p)

/-- A Flush put on a path of each of its targets. -/
def flushSend (s : State) (c : IoCmd) (ts : List Nat) : State :=
  match ts.mapM (fun t => (flushPath s c t).map (fun p => (t, p))) with
  | some l => if channelIdle s c.space.channel then ioSet s c { c with stage := .waitPath } else ioSent s c l
  | none => ioSet s c { c with stage := .waitPath }

/-- NVME_FLUSH (R428). One that no target needs is not sent, and completes under no row of R437. -/
def ioFlush (s : State) (i sqid : Nat) (cid : W16) : State :=
  ioAt s i sqid cid .flush .carryOut (fun c =>
    match flushTargets s c with
    | [] => ioEnd s c 0 0
    | ts => flushSend s c ts)

def execNvmeFlush (ctl : Fin 1024) (sqid : W16) (cid : W16) (s : State) : Result :=
  .next (ioFlush s ctl.val sqid.toNat cid)

/-- Commands that wait for a path, or for the end of a migration, try again. -/
def ioRetry (s : State) : State :=
  (s.sto.cmds.filter (fun c => c.stage == .waitPath)).foldl (fun s c =>
    if c.op = .flush then flushSend s c (flushTargets s c) else ioSend s c) s

/-! The slab's ends (R427, R437 rows 9 and 12). -/

/-- A request of the slab ended for a command: with OK its block is done; the last sends the command on, any other status fails it. -/
def xtsEnd (s : State) (e : (Nat × Nat × W16) × Nat) : State :=
  match s.sto.cmds.find? (fun c => ioKey c == e.1 && c.stage == .xts) with
  | none => s
  | some c =>
    if e.2 ≠ 0 then ioFail s c 9
    else
      let c' := { c with xtsDone := c.xtsDone + 1 }
      let s := shedUse (ioSet s c c') (2 * nsLba c.space)
      if c'.xtsDone = xtsTotal c' then ioOnward s c' else xtsFeed s c'

/-- What the slab has ended is settled, and what waits for room in a context's queue joins it. -/
def xtsSettle (s : State) : State :=
  let s := s.sto.xtsEnds.foldl xtsEnd (stoMod s (fun x => { x with xtsEnds := [] }))
  (s.sto.cmds.filter (fun c => c.stage == .xts)).foldl xtsFeed s

/-! Responses (R427, R434, R437 row 12). -/

/-- A target's status as the guest sees it. -/
def guestStatus (st : Nat) : Nat := if fieldN st 8 3 = 3 then 0x0022 else st % 2 ^ 15

/-- A completion arrived. -/
def ioAnswered (s : State) (c : IoCmd) (from_ : Nat × Nat) (status : W16) : State :=
  let st := guestStatus status.toNat
  let bad := st % 2 ^ 11 ≠ 0
  if c.orphan then ioLeave s c
  else
    match c.op with
    | .flush =>
      let c' := { c with sentTo := c.sentTo.erase from_, failed := if c.failed = 0 ∧ bad then st else c.failed }
      if c'.sentTo.isEmpty then ioEnd (ioSet s c c') c' 12 c'.failed else ioSet s c c'
    | .read =>
      if bad then ioEnd s c 12 st
      else if !bufsAnswer s c.bufs then ioFail s c 9
      else
        let c' := { c with sentTo := [] }
        ioThrough (ioSet s c c') c'
    | .writeZeroes =>
      if bad then ioEnd s c 12 st
      else if c.space.xts && decide (c.done + c.part < c.blocks) then
        ioSet s c { c with stage := .carryOut, sentTo := [], done := c.done + c.part, reissues := 0 }
      else ioEnd s c 12 0
    | _ => ioEnd s c 12 (if bad then st else 0)

/-- Data of a read lands in its granules from byte `offset` on. -/
def ioLanded (s : State) (c : IoCmd) (offset : Nat) (data : List Byte) : State :=
  let n := c.blocks * nsLba c.space
  if c.op ≠ .read then s
  else bufWrite (shedUse s data.length) c.bufs (slice (patch (bufRead s c.bufs n) offset data) 0 n)

/-- The target's call for data is answered (R434). -/
def ioPulled (s : State) (c : IoCmd) (t p : Nat) (tag : W16) (offset n : Nat) : State :=
  match targetOf s t with
  | none => s
  | some x =>
    let data := ((ioData s c).drop offset).take n
    if data.isEmpty then s
    else pathPost (shedUse s data.length) t p [dataPdu x.roce (ioQueueOf x c) c.fabricCid tag offset data]

/-- TARGET_RESPONSE_RX: an answer of a target to which the command was sent; a Flush waits for the completions of all its targets. An
ECN mark on RoCE v2 is answered with a CNP. Storage data waits under the cap (R131, R439). -/
def ioResponse (s : State) (i sqid : Nat) (cid : W16) (a : TargetAnswer) (data : List Byte) : State :=
  let t := a.target.val
  let p := a.path.val
  let s := if a.ecn && targetRoce s t && pathLive s t p then pathPost s t p [cnpPdu] else s
  match s.sto.cmds.find? (fun c => ioKey c == (i, sqid, cid) && c.stage == .sent && c.sentTo.contains (t, p)) with
  | none => s
  | some c =>
    match a.kind with
    | .completion status => ioRetry (ioAnswered s c (t, p) status)
    | .data offset => if shedOpen s then ioLanded s c offset data else s
    | .pull tag offset n => if shedOpen s then ioPulled s c t p tag offset n else s

def execTargetResponseRx (ctl : Fin 1024) (sqid : W16) (cid : W16) (answer : TargetAnswer) (data : List Byte) (s : State) : Result :=
  .next (ioResponse s ctl.val sqid.toNat cid answer data)

/-- The path of a reissue: the other one where it is live, else the same where it is (R435). -/
def reissuePath (s : State) (c : IoCmd) (x : Nat × Nat) : Option (Nat × Nat) :=
  let ok := fun (p : Nat) => pathLive s x.1 p && (c.op == .flush || pathServes s c.space p)
  if ok (1 - x.2) then some (x.1, 1 - x.2) else if ok x.2 then some x else none

/-- IO_TIMEOUT. -/
def ioTimeout (s : State) (i sqid : Nat) (cid : W16) : State :=
  match s.sto.cmds.find? (fun c => c.ctl == i && c.sqid == sqid && c.cid == cid && c.stage == .sent) with
  | none => s
  | some c =>
    if now s < c.sentTick + s.sto.ioTimeout then s
    else
      let s := stoMod s (fun x => { x with timeouts := wrapInc x.timeouts })
      if c.orphan then ioLeave s c
      else
        match c.sentTo.mapM (reissuePath s c) with
        | none => ioFail s c 11
        | some l =>
          if s.sto.retryLimit ≤ c.reissues then ioFail s c 11
          else
            let c' := { c with reissues := c.reissues + 1 }
            ioSent (stoMod (ioSet s c c') (fun x => { x with reissues := wrapInc x.reissues })) c' l

def execIoTimeout (ctl : Fin 1024) (sqid : W16) (cid : W16) (s : State) : Result :=
  .next (ioTimeout s ctl.val sqid.toNat cid)

/-! Paths (R434, R435). -/

/-- PATH_CONNECT_ATTEMPT: after its backoff, which then doubles. -/
def pathAttempt (s : State) (t p : Nat) : State :=
  match pathAt s t p with
  | none => s
  | some y =>
    if y.state = .connecting ∧ y.attemptAt ≤ now s then
      pathConnect (pathMod s t p (fun y =>
        { y with attempting := true, attemptAt := intervalStart s + y.backoff, backoff := min 6400000 (2 * y.backoff) })) t p
    else s

def execPathConnectAttempt (tgt : Fin 1024) (path : Fin 2) (s : State) : Result := .next (pathAttempt s tgt.val path.val)

/-- The check of R430 of a namespace when a path becomes LIVE. -/
def pathCheck (p : Nat) (s : State) (n : Nat) : State :=
  let x := nsOf s n
  if pathServes s x p then nsReady s n true
  else if pathServes s x (1 - p) then s
  else nsReady (reportHeld (raiseFirmware s .storageNsMismatch (BitVec.ofNat 32 n))) n false

/-- A command waits for a path to a namespace: its own, or, for a Flush of every namespace, one of its controller's whose target
has a write cache and no live path. -/
def ioWaitsFor (s : State) (n : Nat) (c : IoCmd) : Bool :=
  c.stage == .waitPath
  && (if c.all then
        (nsAttached s c.ctl).any (fun e => e.1 == n) && (flushTargets s c).contains (nsOf s n).target
          && !([0, 1].any (pathLive s (nsOf s n).target))
      else c.ns == n)

/-- Commands of a namespace that wait for a path end Not Ready once it is NOT_READY (R438). -/
def nsWaiters (s : State) (n : Nat) : State :=
  if (nsOf s n).notReady then (s.sto.cmds.filter (ioWaitsFor s n)).foldl (fun s c => ioFail s c 7) s else s

/-- PATH_LIVE: Connect completed for all queues. The device reads Identify on the path; `vwc` and `remote` hold what it reports of the
controller and of the remote namespaces (R430, R434). -/
def pathUp (s : State) (t p : Nat) (vwc : Bool) (remote : List RemoteNs) : State :=
  match pathAt s t p with
  | none => s
  | some y =>
    if y.state ≠ .connecting ∨ !y.attempting then s
    else
      let of_ := s.sto.namespaces.filter (fun e => e.2.valid && e.2.target == t)
      let s := pathMod s t p (fun y =>
        { y with state := .live, attempting := false, backoff := 100000, pace := 2 ^ 32,
                 keepAliveAt := intervalStart s + s.sto.nsLoss / 4, remotes := remote })
      let s := targetMod s t (fun x => { x with vwc := vwc, lostSince := none })
      let s := pathIdentify s t p (of_.map (fun e => e.2.remoteNsid))
      let s := (of_.map (·.1)).foldl (pathCheck p) s
      (of_.map (·.1)).foldl nsWaiters (ioRetry s)

def execPathLive (tgt : Fin 1024) (path : Fin 2) (vwc : Bool) (remote : List RemoteNs) (s : State) : Result :=
  .next (pathUp s tgt.val path.val vwc remote)

/-- STORAGE_PATH_DOWN, on transport loss (the 7 retries of RoCE v2 spent among them) or a Keep Alive timeout, and the loss of a path's
port: the path enters FAILED, and then CONNECTING. With no path left, outstanding commands end. -/
def pathDown (s : State) (t p : Nat) : State :=
  if !pathLive s t p then s
  else
    let s := pathMod s t p (fun y =>
      { y with state := .failed, attempting := false, sendQ := [], remotes := [] })
    let s := targetMod s t (fun x => { x with failures := wrapInc x.failures })
    let s := reportHeld (raiseFirmware s .storagePathDown (BitVec.ofNat 32 t))
    if pathLive s t (1 - p) then s
    else
      let s := targetMod s t (fun x => { x with lostSince := some (intervalStart s) })
      (s.sto.cmds.filter (fun c => c.stage == .sent && !c.orphan && c.sentTo.any (fun x => x.1 == t))).foldl (fun s c => ioFail s c 11) s

def execStoragePathDown (tgt : Fin 1024) (path : Fin 2) (s : State) : Result := .next (pathDown s tgt.val path.val)

/-- Paths whose port has stopped admitting fail (R145, R435). -/
def pathPorts (s : State) : State :=
  s.sto.targets.foldl (fun s e => [0, 1].foldl (fun s p =>
    match pathAt s e.1 p with
    | some y => if ((portOf s y.port).map (·.admitting)).getD false then s else pathDown s e.1 p
    | none => s) s) s

/-- KEEP_ALIVE_SEND. -/
def keepAlive (s : State) (t p : Nat) : State :=
  match pathAt s t p with
  | none => s
  | some y =>
    if y.state = .live ∧ y.keepAliveAt ≤ now s then
      pathAdmin (pathMod s t p (fun y => { y with keepAliveAt := intervalStart s + s.sto.nsLoss / 4 })) t p 0x18 0 0 0
    else s

def execKeepAliveSend (tgt : Fin 1024) (path : Fin 2) (s : State) : Result := .next (keepAlive s tgt.val path.val)

/-- NS_LOSS_TIMEOUT. -/
def nsLoss (s : State) (n : Nat) : State :=
  let x := nsOf s n
  match (targetOf s x.target).bind (·.lostSince) with
  | none => s
  | some t =>
    if x.valid && decide (t + s.sto.nsLoss ≤ now s) then nsWaiters (nsReady s n false) n else s

def execNsLossTimeout (ns : Fin 16384) (s : State) : Result := .next (nsLoss s ns.val)

/-- A live path of a RoCE v2 target. -/
def rocePath (s : State) (t p : Nat) : Bool := pathLive s t p && targetRoce s t

/-- CNP_RX: the pacing rate, in units of 2^-32 of the port's speed, is halved; its recovery counts from here (DEDUCED, log entry
71). -/
def cnp (s : State) (t p : Nat) : State :=
  if rocePath s t p then pathMod s t p (fun y => { y with pace := y.pace / 2, paceAt := intervalStart s + 64 }) else s

def execCnpRx (tgt : Fin 1024) (path : Fin 2) (s : State) : Result := .next (cnp s tgt.val path.val)

/-- PACING_RECOVERY: 1/16 of the port's speed every 64 ticks. -/
def paceRecover (s : State) (t p : Nat) : State :=
  if rocePath s t p then
    pathMod s t p (fun y =>
      if y.paceAt ≤ now s then { y with pace := min (2 ^ 32) (y.pace + 2 ^ 28), paceAt := intervalStart s + 64 } else y)
  else s

def execPacingRecovery (tgt : Fin 1024) (path : Fin 2) (s : State) : Result := .next (paceRecover s tgt.val path.val)

/-! The unit at a boundary (R426, R427, R435, R440). -/

/-- The Identify of a namespace that is set while a path is LIVE: what is known of its remote namespace, or, of one that was not read, an
answer that passes or not, which is free (log entry 173). -/
def remoteAsked (x : Namespace) (s : State) (p : Nat) : State :=
  match pathAt s x.target p with
  | none => s
  | some y =>
    if y.state ≠ .live || y.remotes.any (fun r => r.nsid == x.remoteNsid) then s
    else
      let (fits, s) := fresh 1 (pathAdmin s x.target p 0x06 x.remoteNsid.toNat 4096 0)
      pathMod s x.target p (fun y =>
        { y with remotes := { nsid := x.remoteNsid, lba4k := x.lba4k, size := if fits = 1#1 then x.remoteOffset + x.size else 0 }
                   :: y.remotes })

/-- A namespace changes (R426). It is READY by the check of R430 on its live paths, and NOT_READY where none of them passes, which is
reported; without a live path it waits for one until NS_LOSS_TIMEOUT has passed. -/
def namespaceNow (s : State) (d : Nat × Namespace × Waiter) : State :=
  let old := nsOf s d.1
  let x := { d.2.1 with errors := old.errors }
  let used := x.valid && x.fn != 0xFFFF
  let s := if used then [0, 1].foldl (remoteAsked x) s else s
  let live := [0, 1].any (pathLive s x.target)
  let serves := !(pathsFor s x).isEmpty
  let lost := match (targetOf s x.target).bind (·.lostSince) with
    | some t => decide (t + s.sto.nsLoss ≤ now s)
    | none => false
  let s := stoMod s (fun t => { t with namespaces := tset t.namespaces d.1 { x with notReady := !serves && (live || lost) } })
  let s := if used && live && !serves then reportHeld (raiseFirmware s .storageNsMismatch (BitVec.ofNat 32 d.1)) else s
  let s := if old.valid && old.fn != 0xFFFF then nsNotice s old.fn old.nsid else s
  if used then nsNotice s x.fn x.nsid else s

def namespacesDue (s : State) : State := s.sto.nsDue.foldl namespaceNow (stoMod s (fun t => { t with nsDue := [] }))

/-- Paths and their ports, commands that a migration held, and interrupts that were gathered. -/
def storageTick (s : State) : State :=
  if !s.sto.present then s else coalesceDue (xtsSettle (ioRetry (pathsTick (pathPorts s))))

/-! Resets and the registers of a controller (R440). -/

/-- CC.EN cleared or a reset of the function: commands not sent are discarded, those sent run to their end. -/
def ctlStop (s : State) (i : Nat) : State :=
  let gone := s.sto.cmds.filter (fun c => c.ctl == i && c.stage != .sent)
  ioStartAll (stoMod (gone.foldl xtsDrop s) (fun x =>
    { x with cmds := (x.cmds.filter (fun c => c.ctl != i || c.stage == .sent)).map (fun c =>
      if c.ctl = i then { c with orphan := true } else c) }))

/-- A controller reset keeps the admin queue registers. -/
def ctlReset (s : State) (i : Nat) (cc : W32) : State :=
  ctlMod (ctlStop s i) i (fun c => { Controller.reset c.fn with cc := cc, aqa := c.aqa, asq := c.asq, acq := c.acq })

/-- A reset of R459 of the function. -/
def ctlForget (s : State) (i : Nat) : State := let s := ctlStop s i; stoMod s (fun x => { x with ctls := tdel x.ctls i })

/-- The admin queues of an enabled controller; the submission queue takes an id of the host queues (R465). -/
def ctlEnable (id : Nat) (c : Controller) : Controller :=
  { c with
    rdy := true, shst := 0#2
    sqs := [(0, { id := id, granted := 0, base := c.asq, size := fieldN c.aqa.toNat 0 12 + 1, cqid := 0, head := 0, tail := 0 })]
    cqs := [(0, { base := c.acq, size := fieldN c.aqa.toNat 16 12 + 1, vector := some 0, tail := 0, head := 0, phase := true,
                  gathered := 0, since := 0 })] }

/-- A controller whose submission queue finds no id stays disabled (DESIGN CHOICE, log entry 171). -/
def ctlStart (s : State) (i : Nat) : State :=
  match (ctlFn s i).bind (nvmeQueueId s) with
  | some id => ctlMod s i (ctlEnable id)
  | none => s

/-- CC.SHN: a normal shutdown waits for the commands in process, an abrupt one does not. -/
def ctlShut (s : State) (i : Nat) (shn : Nat) : State :=
  if shn = 1 then
    shutdownCheck (ctlMod s i (fun c => if c.shst = 0#2 then { c with shst := 1#2, shutBy := some (intervalStart s + 20000000) } else c)) i
  else if 2 ≤ shn then ctlMod s i (fun c => { c with shst := 2#2, shutBy := none })
  else s

/-- A write of CC. -/
def nvmeCc (s : State) (i : Nat) (v : W32) : State :=
  match ctlOf s i with
  | none => s
  | some c =>
    let en := v.getLsbD 0
    let was := c.cc.getLsbD 0
    if was && !en then ctlReset s i v
    else
      let s := ctlMod s i (fun c => { c with cc := v })
      let s := if en && !was && fieldN v.toNat 4 3 == 0 && fieldN v.toNat 7 4 == 0 && fieldN v.toNat 11 3 == 0 then ctlStart s i else s
      ctlShut s i (fieldN v.toNat 14 2)

def execNvmeCcWrite (ctl : Fin 1024) (v : W32) (s : State) : Result := .next (nvmeCc s ctl.val v)

/-- NVME_SHUTDOWN_TIMEOUT. -/
def shutdownTimeout (s : State) (i : Nat) : State :=
  match (ctlOf s i).bind (·.shutBy) with
  | none => s
  | some t => if t ≤ now s then ctlMod s i (fun c => { c with shst := 2#2, shutBy := none }) else s

def execNvmeShutdownTimeout (ctl : Fin 1024) (s : State) : Result := .next (shutdownTimeout s ctl.val)

/-- A doorbell: of submission queue y at 2y, of completion queue y at 2y + 1. A value outside the queue is ignored. -/
def nvmeDoorbell (s : State) (i k v : Nat) : State :=
  if k % 2 = 0 then
    ctlMod s i (fun c => { c with sqs := tadj c.sqs (k / 2) (fun q => if v < q.size then { q with tail := v } else q) })
  else
    postAll (ctlMod s i (fun c => { c with cqs := tadj c.cqs (k / 2) (fun q => if v < q.size then { q with head := v } else q) })) i

/-- A write of a 4-byte register of a controller. -/
def nvmeWrite (s : State) (i off v : Nat) : State :=
  let low := fun (x : W64) => BitVec.ofNat 64 (x.toNat / 2 ^ 32 * 2 ^ 32 + v % 2 ^ 32)
  let high := fun (x : W64) => BitVec.ofNat 64 (x.toNat % 2 ^ 32 + v % 2 ^ 32 * 2 ^ 32)
  if 0x1000 ≤ off then nvmeDoorbell s i ((off - 0x1000) / 4) (v % 65536)
  else
    match off with
    | 0x0C => ctlMod s i (fun c => { c with intms := c.intms ||| BitVec.ofNat 32 v })
    | 0x10 => ctlMod s i (fun c => { c with intms := c.intms &&& ~~~ BitVec.ofNat 32 v })
    | 0x14 => nvmeCc s i (BitVec.ofNat 32 v)
    | 0x24 => ctlMod s i (fun c => { c with aqa := BitVec.ofNat 32 v &&& 0x0FFF0FFF#32 })
    | 0x28 => ctlMod s i (fun c => { c with asq := low c.asq &&& ~~~ 0xFFF#64 })
    | 0x2C => ctlMod s i (fun c => { c with asq := high c.asq })
    | 0x30 => ctlMod s i (fun c => { c with acq := low c.acq &&& ~~~ 0xFFF#64 })
    | 0x34 => ctlMod s i (fun c => { c with acq := high c.acq })
    | _ => s

/-! NVMe admin commands (R421). -/

/-- An admin command taken from its queue: its opcode's meaning `f` gives the state, the status and Dword 0, or no
completion. An opcode that is not in R421 completes Invalid Command Opcode. -/
def nvmeAdmin (s : State) (i : Nat) (entry : List Byte) (op : Nat) (f : State → Controller → List Byte → State × Option (Nat × Nat)) :
    State :=
  match ctlOf s i with
  | none => s
  | some c =>
    let b := slice entry 0 64
    let o := leAt b 0 1
    let cid := leAt b 2 2
    if !ioFetches s i 0 || (o ≠ op && adminSupported.contains o) then s
    else
      let s := sqAdvance s i 0
      if o ≠ op then nvmeComplete s i 0 cid 0x4001 0
      else if fieldN (leAt b 0 4) 8 2 ≠ 0 || fieldN (leAt b 0 4) 14 2 ≠ 0 then nvmeComplete s i 0 cid 0x4002 0
      else
        match f s c b with
        | (s, some (st, dw0)) => nvmeComplete s i 0 cid st dw0
        | (s, none) => s

def dw10 (b : List Byte) : Nat := leAt b 40 4
def dw11 (b : List Byte) : Nat := leAt b 44 4

/-- Delete I/O SQ. Its commands are not completed afterwards. -/
def deleteSq (s : State) (i : Nat) (b : List Byte) : State × Option (Nat × Nat) :=
  let q := fieldN (dw10 b) 0 16
  match ctlOf s i with
  | none => (s, none)
  | some c =>
    if q = 0 || !thas c.sqs q then (s, some (0x4101, 0))
    else
      let s := ctlMod s i (fun c => { c with sqs := tdel c.sqs q, posts := c.posts.filter (fun p => p.sqid ≠ q) })
      let gone := s.sto.cmds.filter (fun c => c.ctl == i && c.sqid == q && c.stage != .sent)
      let s := stoMod (gone.foldl xtsDrop s) (fun x =>
        { x with cmds := (x.cmds.filter (fun c => c.ctl != i || c.sqid != q || c.stage == .sent)).map (fun c =>
          if c.ctl = i ∧ c.sqid = q then { c with orphan := true } else c) })
      (ioStartAll s, some (0, 0))

def execNvmeDeleteIoSq (ctl : Fin 1024) (entry : List Byte) (s : State) : Result :=
  .next (nvmeAdmin s ctl.val entry 0x00 (fun s _ b => deleteSq s ctl.val b))

/-- The checks common to the creation of a queue. -/
def queueRefused (s : State) (c : Controller) (b : List Byte) (exists_ : Bool) : Option Nat :=
  let q := fieldN (dw10 b) 0 16
  let size := fieldN (dw10 b) 16 16
  if q = 0 || ioPairs s c.fn.toNat < q || exists_ then some 0x4101
  else if size = 0 || 4095 < size then some 0x4102
  else if !bitN (dw11 b) 0 then some 0x4002
  else none

/-- Create I/O SQ: one that finds no id completes Internal Error (DESIGN CHOICE, log entry 171). -/
def createSq (s : State) (i : Nat) (c : Controller) (b : List Byte) : State × Option (Nat × Nat) :=
  let q := fieldN (dw10 b) 0 16
  let k := fieldN (dw11 b) 16 16
  match queueRefused s c b (thas c.sqs q) with
  | some st => (s, some (st, 0))
  | none =>
    if k = 0 || !thas c.cqs k then (s, some (0x4100, 0))
    else
      match nvmeQueueId s c.fn.toNat with
      | none => (s, some (0x4006, 0))
      | some id =>
        let x : NvmeSq := { id := id, granted := 0, base := BitVec.ofNat 64 (leAt b 24 8), size := fieldN (dw10 b) 16 16 + 1, cqid := k,
                            head := 0, tail := 0 }
        (ctlMod s i (fun c => { c with sqs := tset c.sqs q x }), some (0, 0))

def execNvmeCreateIoSq (ctl : Fin 1024) (entry : List Byte) (s : State) : Result :=
  .next (nvmeAdmin s ctl.val entry 0x01 (fun s c b => createSq s ctl.val c b))

def deleteCq (s : State) (i : Nat) (c : Controller) (b : List Byte) : State × Option (Nat × Nat) :=
  let q := fieldN (dw10 b) 0 16
  if q = 0 || !thas c.cqs q then (s, some (0x4101, 0))
  else if c.sqs.any (fun e => e.2.cqid == q) then (s, some (0x410C, 0))
  else (ctlMod s i (fun c => { c with cqs := tdel c.cqs q }), some (0, 0))

def execNvmeDeleteIoCq (ctl : Fin 1024) (entry : List Byte) (s : State) : Result :=
  .next (nvmeAdmin s ctl.val entry 0x04 (fun s c b => deleteCq s ctl.val c b))

def createCq (s : State) (i : Nat) (c : Controller) (b : List Byte) : State × Option (Nat × Nat) :=
  let q := fieldN (dw10 b) 0 16
  let v := fieldN (dw11 b) 16 16
  match queueRefused s c b (thas c.cqs q) with
  | some st => (s, some (st, 0))
  | none =>
    if 65 ≤ v then (s, some (0x4108, 0))
    else
      let x : NvmeCq := { base := BitVec.ofNat 64 (leAt b 24 8), size := fieldN (dw10 b) 16 16 + 1,
                          vector := if bitN (dw11 b) 1 then some v else none, tail := 0, head := 0, phase := true,
                          gathered := 0, since := 0 }
      (ctlMod s i (fun c => { c with cqs := tset c.cqs q x }), some (0, 0))

def execNvmeCreateIoCq (ctl : Fin 1024) (entry : List Byte) (s : State) : Result :=
  .next (nvmeAdmin s ctl.val entry 0x05 (fun s c b => createCq s ctl.val c b))

/-- Get Log Page. Reading the Changed Namespace List clears it, unless Retain Asynchronous Event is set. -/
def getLog (s : State) (i : Nat) (c : Controller) (b : List Byte) : State × Option (Nat × Nat) :=
  let lid := fieldN (dw10 b) 0 8
  let n := (fieldN (dw10 b) 16 16 + fieldN (dw11 b) 0 16 * 65536 + 1) * 4
  match logPage s c lid with
  | none => (s, some (0x4109, 0))
  | some data =>
    let s := prpWrite s c (leAt b 24 8) (leAt b 32 8) (data.take n)
    let s := if lid = 4 ∧ !bitN (dw10 b) 15 then ctlMod s i (fun c => { c with changed := [], notice := .none_ }) else s
    (s, some (0, 0))

def execNvmeGetLogPage (ctl : Fin 1024) (entry : List Byte) (s : State) : Result :=
  .next (nvmeAdmin s ctl.val entry 0x02 (fun s c b => getLog s ctl.val c b))

def identify (s : State) (i : Nat) (c : Controller) (b : List Byte) : State × Option (Nat × Nat) :=
  let cns := fieldN (dw10 b) 0 8
  let nsid := leAt b 4 4
  match identifyData s i cns nsid with
  | some data => (prpWrite s c (leAt b 24 8) (leAt b 32 8) data, some (0, 0))
  | none => (s, some (if cns = 0 ∨ cns = 3 then 0x400B else 0x4002, 0))

def execNvmeIdentify (ctl : Fin 1024) (entry : List Byte) (s : State) : Result :=
  .next (nvmeAdmin s ctl.val entry 0x06 (fun s c b => identify s ctl.val c b))

/-- A command has been sent to a target, wholly or in part. -/
def ioWasSent (c : IoCmd) : Bool :=
  c.stage == .sent || c.stage == .dataOut || (c.op == .read && c.stage == .xts) || (c.op == .writeZeroes && c.done != 0)

/-- Abort (R436): a command not yet sent to a target ends. -/
def abortCmd (s : State) (i : Nat) (b : List Byte) : State × Option (Nat × Nat) :=
  match ioOf s i (fieldN (dw10 b) 0 16) (BitVec.ofNat 16 (dw10 b / 65536)) with
  | some c => if ioWasSent c then (s, some (0, 1)) else (ioFail s c 10, some (0, 0))
  | none => (s, some (0, 1))

def execNvmeAbort (ctl : Fin 1024) (entry : List Byte) (s : State) : Result :=
  .next (nvmeAdmin s ctl.val entry 0x08 (fun s _ b => abortCmd s ctl.val b))

/-- Set Features. -/
def setFeature (s : State) (i : Nat) (c : Controller) (b : List Byte) : State × Option (Nat × Nat) :=
  let v : W32 := BitVec.ofNat 32 (dw11 b)
  let pairs := ioPairs s c.fn.toNat - 1
  match fieldN (dw10 b) 0 8 with
  | 0x01 => (ctlMod s i (fun c => { c with arbitration := v }), some (0, 0))
  | 0x06 => (ctlMod s i (fun c => { c with vwcEnable := v.getLsbD 0 }), some (0, 0))
  | 0x07 =>
    if fieldN (dw11 b) 0 16 = 0xFFFF ∨ fieldN (dw11 b) 16 16 = 0xFFFF then (s, some (0x4002, 0))
    else if 1 < c.sqs.length ∨ 1 < c.cqs.length then (s, some (0x400C, 0))
    else (s, some (0, pairs + pairs * 65536))
  | 0x08 => (ctlMod s i (fun c => { c with coalescing := v }), some (0, 0))
  | 0x0B => (ctlMod s i (fun c => { c with aec := v &&& 0x100#32 }), some (0, 0))
  | _ => (s, some (0x4002, 0))

def execNvmeSetFeatures (ctl : Fin 1024) (entry : List Byte) (s : State) : Result :=
  .next (nvmeAdmin s ctl.val entry 0x09 (fun s c b => setFeature s ctl.val c b))

/-- Get Features. -/
def getFeature (s : State) (c : Controller) (b : List Byte) : State × Option (Nat × Nat) :=
  let pairs := ioPairs s c.fn.toNat - 1
  match fieldN (dw10 b) 0 8 with
  | 0x01 => (s, some (0, c.arbitration.toNat))
  | 0x06 => (s, some (0, putB c.vwcEnable 0))
  | 0x07 => (s, some (0, pairs + pairs * 65536))
  | 0x08 => (s, some (0, c.coalescing.toNat))
  | 0x0B => (s, some (0, c.aec.toNat))
  | _ => (s, some (0x4002, 0))

def execNvmeGetFeatures (ctl : Fin 1024) (entry : List Byte) (s : State) : Result :=
  .next (nvmeAdmin s ctl.val entry 0x0A (fun s c b => getFeature s c b))

/-- Asynchronous Event Request: at most AERL + 1 outstanding. -/
def eventRequest (s : State) (i : Nat) (c : Controller) (b : List Byte) : State × Option (Nat × Nat) :=
  if 4 ≤ c.aers.length then (s, some (0x4105, 0))
  else (noticeSend (ctlMod s i (fun c => { c with aers := c.aers ++ [BitVec.ofNat 16 (leAt b 2 2)] })) i, none)

def execNvmeAsyncEventRequest (ctl : Fin 1024) (entry : List Byte) (s : State) : Result :=
  .next (nvmeAdmin s ctl.val entry 0x0C (fun s c b => eventRequest s ctl.val c b))

end Sys2Proof.Machine
end

