-- ==== Sys2Proof/Machine/Host.lean ====
section
/-!
DEFINITION. Endpoints and functions: features, resets and readiness, power states and wake, MSI-X masks, errors, and
configuration space (R441-R464, R494). The layout of the standard PCI Express registers is PRESUMED from PCI Express.
-/

namespace Sys2Proof.Machine

/-! Functions. -/

def isVf (fn : Nat) : Bool := vfNum fn != 0

/-- The function kind of R130: 0 PF0, 1 PF1, 2 PF2, 3 VF of PF1, 4 VF of PF2. -/
def kindOf (fn : Nat) : Nat := if isVf fn then pfNum fn + 2 else pfNum fn

def epEnabled (s : State) (ep : Nat) : Bool := if ep = 0 then s.rst.options.hp0En else s.rst.options.hp1En

/-- TotalVFs of a PF (R444). -/
def totalVfs (s : State) (pf : Nat) : Nat :=
  if pfNum pf = 1 ∨ pfNum pf = 2 then s.que.pools.totalVfs.getD (2 * epOf pf + pfNum pf - 1) 0 else 0

def numVfs (s : State) (pf : Nat) : Nat :=
  let e := endpointOf s (epOf pf)
  if pfNum pf = 1 then e.numVfs1.toNat else if pfNum pf = 2 then e.numVfs2.toNat else 0

def vfEnabled (s : State) (pf : Nat) : Bool :=
  let e := endpointOf s (epOf pf)
  if pfNum pf = 1 then e.vfEnable1 else if pfNum pf = 2 then e.vfEnable2 else false

def setVfs (s : State) (pf n : Nat) (on : Bool) : State :=
  endpointMod s (epOf pf) (fun e =>
    if pfNum pf = 1 then { e with numVfs1 := BitVec.ofNat 13 n, vfEnable1 := on }
    else { e with numVfs2 := BitVec.ofNat 13 n, vfEnable2 := on })

/-- A function that answers (R443, R445). -/
def fnExists (s : State) (fn : Nat) : Bool :=
  decide (pfNum fn ≤ 2) && epEnabled s (epOf fn)
  && (!isVf fn || (vfEnabled s (pfOf fn) && decide (vfNum fn ≤ numVfs s (pfOf fn))))

/-- Functions that have a record: those of an endpoint, or the VFs of a PF. -/
def fnsOf (s : State) (ep : Nat) : List Nat := (s.hif.funcs.map (·.1)).filter (fun f => epOf f == ep)
def vfsOf (s : State) (pf : Nat) : List Nat := (s.hif.funcs.map (·.1)).filter (fun f => isVf f && pfOf f == pf)

/-- Queues of a function. -/
def queuesOf (s : State) (fn : Nat) : List Nat := (s.que.queues.filter (fun e => e.2.fn.toNat == fn)).map (·.1)

/-! Features (R461-R463). -/

/-- The offer of a function's kind; 0 until DEVICE_READY. -/
def kindOffer (s : State) (fn : Nat) : BitVec 256 := if deviceReady s then s.que.offers.getD (kindOf fn) 0#256 else 0#256

/-- A function's features exist: those of a VF only after its creation (R445). -/
def fnCreated (s : State) (fn : Nat) : Bool := !isVf fn || ((funcOf s fn).bind (·.grant)).isSome

/-- The offer that a function shows. -/
def offerOf (s : State) (fn : Nat) : BitVec 256 := if fnCreated s fn then kindOffer s fn else 0#256

/-- The dependencies of R462. -/
def breaksDependency (x : BitVec 256) : Bool :=
  let b := x.getLsbD
  (b featSegment && !b featChecksum) || (b featTunnel && !b featChecksum) || (b featXts && !b featNvme)

/-- A write of 1 to FEATURES_OK. -/
def featuresOk (s : State) (fn : Nat) : State :=
  match funcOf s fn with
  | none => s
  | some f =>
    if f.resetting.isSome || !fnCreated s fn then s
    else if !deviceReady s then funcMod s fn (fun f => { f with featStatus := 3#8 })
    else if f.featuresOk then s
    else
      let acc := f.accept &&& offerOf s fn
      if breaksDependency acc then funcMod s fn (fun f => { f with featStatus := 4#8 })
      else funcMod s fn (fun f => { f with active := acc, featuresOk := true, featStatus := 0#8 })

def execFeaturesOkWrite (fn : W16) (s : State) : Result := .next (featuresOk s fn.toNat)

/-- A write of ACCEPT word i. -/
def featAccept (s : State) (fn i : Nat) (v : W32) : State :=
  let offer := offerOf s fn
  funcMod s fn (fun f =>
    if f.featuresOk then f
    else
      let mask : BitVec 256 := BitVec.ofNat 256 (0xFFFFFFFF * 2 ^ (32 * i))
      { f with accept := (f.accept &&& ~~~ mask) ||| (BitVec.ofNat 256 (v.toNat * 2 ^ (32 * i)) &&& offer) })

def execFeatAcceptWrite (fn : W16) (i : Fin 8) (v : W32) (s : State) : Result := .next (featAccept s fn.toNat i.val v)

/-- A set applied as if a driver had accepted it and written FEATURES_OK; a set of zero latches nothing. -/
def presetLatch (s : State) (fn : Nat) (set : BitVec 256) : State :=
  if set = 0#256 then s
  else
    let offer := offerOf s fn
    featuresOk (funcMod s fn (fun f => if f.featuresOk then f else { f with accept := set &&& offer })) fn

/-- The preset of a function (R463). -/
def presetOf (s : State) (fn : Nat) : BitVec 256 :=
  if pfNum fn = 2 ∧ !isVf fn then (if epOf fn = 0 then s.hif.preset0 else s.hif.preset1)
  else (((funcOf s fn).bind (·.grant)).map (fun g => BitVec.ofNat 256 g.features.toNat)).getD 0#256

/-! Resets (R459, R494, R495). -/

def genNext (g : W16) : W16 := BitVec.ofNat 16 (g.toNat % 0xFFFE + 1)

/-- PF0 has no generation. -/
def genAdvance (s : State) (fn : Nat) : State :=
  if pfNum fn = 0 then s else funcMod s fn (fun f => { f with gen := genNext f.gen })

/-- What a reset clears of one function. PME_En and PME_Status survive (R458). -/
def fnReset (byEndpoint : Bool) (s : State) (fn : Nat) : State :=
  let s := (queuesOf s fn).foldl (queueReset byEndpoint) (genAdvance s fn)
  let s := match (if pfNum fn = 2 then ctlIndex s fn else none) with
    | some i => ctlForget s i
    | none => s
  funcMod s fn (fun f =>
    { Func.reset with gen := f.gen, grant := f.grant, storageIndex := f.storageIndex, pmeEn := f.pmeEn, pmeStatus := f.pmeStatus,
                      resetting := some (if byEndpoint then none else some (intervalStart s + 2)) })

/-- What a reset of PF0 clears of its endpoint. Commands fetched before have their effects, and no completion (R497). -/
def pf0Reset (s : State) (ep : Nat) : State :=
  adminMod (dmaAbandon (mailboxesReset s ep) ep) ep (fun q =>
    { AdminQueue.reset with orphans := q.orphans ++ (q.accepted.filter (fun c => !c.started)).map (·.cid) })

/-- FLR: of a VF; of PF1 or PF2 with all its VFs; or of PF0. -/
def flr (s : State) (fn : Nat) : State :=
  if !fnExists s fn || (funcOf s fn).isNone then s
  else if isVf fn then fnReset false s fn
  else if pfNum fn = 0 then fnReset false (pf0Reset s (epOf fn)) fn
  else setVfs (fnReset false ((vfsOf s fn).foldl (fnReset false) s) fn) fn 0 false

def execFlr (fn : W16) (s : State) : Result := .next (flr s fn.toNat)

/-- FUNCTION_RESET (R475). -/
def resetEvent (s : State) (fn : Nat) (byEndpoint : Bool) : State :=
  if pfNum fn = 0 || (isVf fn && ((funcOf s fn).bind (·.grant)).isNone) then s
  else event s .functionReset (leBytes 2 fn ++ leBytes 2 (genOf s fn).toNat ++ leBytes 1 (if byEndpoint then 1 else 0))

/-- A reset of a function completes: queues created with RESTART are enabled, and presets latch. -/
def resetEnd (s : State) (fn : Nat) : State :=
  match (funcOf s fn).bind (·.resetting) with
  | none => s
  | some by_ =>
    let s := funcMod s fn (fun f => { f with resetting := none })
    let s := ((queuesOf s fn).filter (fun q => ((queueOf s q).map (·.restart)).getD false)).foldl queueEnable s
    resetEvent (presetLatch s fn (presetOf s fn)) fn by_.isNone

/-- FLR_COMPLETE: for an FLR of PF1 or PF2, of its VFs too. -/
def flrComplete (s : State) (fn : Nat) : State :=
  match (funcOf s fn).bind (·.resetting) with
  | some (some _) =>
    let vfs := if isVf fn then [] else (vfsOf s fn).filter (fun v => ((funcOf s v).bind (·.resetting)).isSome)
    (vfs ++ [fn]).foldl resetEnd s
  | _ => s

def execFlrComplete (fn : W16) (s : State) : Result := .next (flrComplete s fn.toNat)

/-- The reset of an endpoint: every function, its DMA traffic abandoned, and its guarded writes discarded (R622). -/
def epReset (s : State) (ep : Nat) : State :=
  let s := pf0Reset ((fnsOf s ep).foldl (fnReset true) s) ep
  let s := { s with win := if ep = 0 then { s.win with pendHp0 := [] } else { s.win with pendHp1 := [] } }
  endpointMod s ep (fun e =>
    { e with linkUp := false, rate := 0#3, width := 0#3, flit := false, inReset := true, contained := false,
             resets := wrapInc e.resets, numVfs1 := 0#13, numVfs2 := 0#13, vfEnable1 := false, vfEnable2 := false,
             configReady := false })

/-- HPn_PERST_N asserted. -/
def perstAssert (s : State) (ep : Nat) : State :=
  if (endpointOf s ep).perst then s
  else
    let s := if epEnabled s ep then epReset s ep else s
    endpointMod s ep (fun e => { e with perst := true, readyBy := none })

def execPerstNAssert (ep : Fin 2) (s : State) : Result := .next (perstAssert s ep.val)

/-- The HTX and HPL domains have left reset (R593). -/
def hostReleased (s : State) : Bool := releasedOf s 7

/-- HPn_PERST_N deasserted: HPn_WAKE_N is released, and the readiness interval begins. -/
def perstDeassert (s : State) (ep : Nat) : State :=
  if !(endpointOf s ep).perst then s
  else
    endpointMod s ep (fun e =>
      if epEnabled s ep && hostReleased s then
        { e with perst := false, inReset := false, wake := false, readyBy := some (intervalStart s + 100000) }
      else { e with perst := false, wake := false })

def execPerstNDeassert (ep : Fin 2) (s : State) : Result := .next (perstDeassert s ep.val)

/-- CONFIG_READY: the resets of the endpoint's functions are complete. -/
def configReady (s : State) (ep : Nat) : State :=
  let e := endpointOf s ep
  if !epEnabled s ep || e.perst || e.readyBy.isNone then s
  else
    let s := endpointMod s ep (fun e => { e with configReady := true, readyBy := none, inReset := false })
    (fnsOf s ep).foldl resetEnd s

def execConfigReady (ep : Fin 2) (s : State) : Result := .next (configReady s ep.val)

/-- FLRs that have not ended by their tick end, and endpoints become configuration-ready by theirs (R459, R460). -/
def hostOverdue (s : State) : State :=
  let ends := fun (e : Nat × Func) => match e.2.resetting with
    | some (some t) => decide (t ≤ now s)
    | _ => false
  let s := ((s.hif.funcs.filter ends).map (·.1)).foldl resetEnd s
  (([0, 1] : List Nat).filter (fun ep => ((endpointOf s ep).readyBy.map (fun t => decide (t ≤ now s))).getD false)).foldl configReady s

/-- HOT_RESET: also a link down without HPn_PERST_N. -/
def hotReset (s : State) (ep : Nat) : State :=
  if !epEnabled s ep || (endpointOf s ep).perst || !hostReleased s then s
  else endpointMod (epReset s ep) ep (fun e => { e with readyBy := some (intervalStart s + 100000) })

def execHotReset (ep : Fin 2) (s : State) : Result := .next (hotReset s ep.val)

/-- The option bytes' limit of rate and width (R442). -/
def linkAllowed (s : State) (ep : Nat) (rate width : BitVec 3) (flit : Bool) : Bool :=
  let o := s.rst.options
  let r := if ep = 0 then o.hp0Rate else o.hp1Rate
  let w := if ep = 0 then o.hp0Width else o.hp1Width
  decide (1 ≤ rate.toNat) && decide (rate.toNat ≤ r.toNat) && decide (width.toNat ≤ w.toNat) && (rate.toNat < 6 || flit)

/-- LINK_UP: L0 is reached. A PM_PME that waits for the link is sent (R458). -/
def linkUp (s : State) (ep : Nat) (rate width : BitVec 3) (flit : Bool) : State :=
  let e := endpointOf s ep
  if !epEnabled s ep || e.perst || e.linkUp || !hostReleased s || !linkAllowed s ep rate width flit then s
  else
    let s := endpointMod s ep (fun e =>
      { e with linkUp := true, rate := rate, width := width, flit := flit, inReset := false, pmePending := false })
    if e.pmePending then
      ((fnsOf s ep).filter (fun f => ((funcOf s f).map (·.pmeStatus)).getD false)).foldl (fun s f => emit s (.message f 0)) s
    else s

def execLinkUp (ep : Fin 2) (rate : BitVec 3) (width : BitVec 3) (flit : Bool) (s : State) : Result :=
  .next (linkUp s ep.val rate width flit)

/-! MSI-X masks (R451). -/

/-- The pending messages of a function that no mask holds back. -/
def msixSend (s : State) (fn : Nat) : State :=
  match funcOf s fn with
  | none => s
  | some f =>
    if !f.msixEnable || f.functionMask || !fnRuns s fn then s
    else
      (f.vectors.filter (fun v => v.2.pending && !v.2.masked)).foldl (fun s v =>
        emit (vectorMod s fn v.1 (fun x => { x with pending := false })) (.msix fn v.1)) s

/-- MSIX_UNMASK: of a vector, or of the function. -/
def msixUnmask (s : State) (fn : Nat) (v : Option Nat) : State :=
  match v with
  | some v => msixSend (vectorMod s fn v (fun x => { x with masked := false })) fn
  | none => msixSend (funcMod s fn (fun f => { f with functionMask := false })) fn

def execMsixUnmask (fn : W16) (vector : Option (Fin 2048)) (s : State) : Result :=
  .next (msixUnmask s fn.toNat (vector.map (·.val)))

/-! Power states (R457, R464). -/

/-- The frame that an endpoint's DMA engines hold for a function in D3hot returns to its queue's head. -/
def hostTxReturn (s : State) (pf : Nat) : State :=
  let u := 512 + epOf pf
  match (schPort s u).tx with
  | none => s
  | some (id, qx, _) =>
    match queueOf s (qx - 8192) with
    | none => s
    | some q =>
      if pfOf q.fn.toNat ≠ pf then s
      else
        let wasEmpty := (schQueue s qx).frames.isEmpty
        let s := schPortMod s u (fun p => { p with tx := none })
        let s := schQueueMod s qx (fun x => { x with frames := id :: x.frames, d := if wasEmpty then x.d else x.d + headLen s id })
        let s := pktMod s id (fun p => { p with stage := .queued })
        if wasEmpty then wake s qx else s

/-- A queue of a function entering D3hot: its outstanding reads are no longer wanted, and descriptors from its published
head on that have not entered are fetched again in D0. -/
def queuePause (s : State) (qid : Nat) : State :=
  queueMod s qid (fun q =>
    let keep := if q.kind = .send then q.work.takeWhile (·.read) else q.work
    let kept := fun n => keep.any (fun w => w.number == n)
    { q with work := keep, held := q.held.filter (fun c => kept c.number), fetching := q.fetching.map (fun f => (f.1, false)),
             stale := q.stale + ((q.work.drop keep.length).filter (fun w => !w.read)).length,
             fetched := q.head + BitVec.ofNat 16 keep.length })

/-- The functions that follow a PF's power state. -/
def powerFns (s : State) (pf : Nat) : List Nat := pf :: vfsOf s pf

/-- A controller's outstanding reads of submission entries are discarded (R464). -/
def nvmePause (s : State) (fn : Nat) : State :=
  match (if pfNum fn = 2 then ctlIndex s fn else none) with
  | some i => ctlMod s i (fun c => { c with sqs := tmap c.sqs (fun _ q => { q with granted := 0 }) })
  | none => s

/-- The data reads of a controller's commands, whose completions D3hot discarded, go out again. -/
def nvmeResume (s : State) (i : Nat) : State :=
  (s.sto.cmds.filter (fun c => c.ctl == i && c.stage == .dataIn)).foldl ioReads s

/-- D3HOT_ENTRY. -/
def d3Entry (s : State) (pf : Nat) : State :=
  if isVf pf || inD3 s pf || !fnExists s pf then s
  else
    let s := funcMod s pf (fun f => { f with d3hot := true })
    let s := ((powerFns s pf).flatMap (queuesOf s)).foldl queuePause s
    hostTxReturn ((powerFns s pf).foldl nvmePause s) pf

def execD3hotEntry (fn : W16) (s : State) : Result := .next (d3Entry s fn.toNat)

/-- What a function held back while it issued no request goes out. -/
def fnResume (s : State) (fn : Nat) : State :=
  let s := (queuesOf s fn).foldl sendFlushAll s
  let s := match (if pfNum fn = 2 then ctlIndex s fn else none) with
    | some i => nvmeResume (postAll s i) i
    | none => s
  let s := if fn = pf0Of (epOf fn) ∧ fnRuns s fn then
      let q := adminOf s (epOf fn)
      let s := adminMod s (epOf fn) (fun q => { q with held := [], heldData := [] })
      let s := q.heldData.foldl (fun s d => adminPut s (epOf fn) d.1 d.2.1 d.2.2) s
      q.held.foldl (fun s h => adminWrite s (epOf fn) h.1 h.2.1 h.2.2.1 h.2.2.2) s
    else s
  msixSend s fn

/-- D0_RETURN. -/
def d0Return (s : State) (pf : Nat) : State :=
  if isVf pf || !inD3 s pf then s
  else
    let s := funcMod s pf (fun f => { f with d3hot := false })
    (powerFns s pf).foldl fnResume s

def execD0Return (fn : W16) (s : State) : Result := .next (d0Return s fn.toNat)

/-- The cause of a wake event concerns a PF (R458). -/
def wakes (s : State) (pf : Nat) (cause : WakeCause) : Bool :=
  match cause with
  | .frame q =>
    ((queueOf s q.toNat).map (fun x =>
      x.wakeEn && pfOf x.fn.toNat == pf && (x.kind == .receive || x.kind == .capture)
        && !(schQueue s (8192 + q.toNat)).frames.isEmpty)).getD false
  | .doorbell d => pfNum pf == 0 && s.hif.doorbellMask.getLsbD d.val && boxOwner s d.val == epOf pf && (boxOf s d.val).s2hFull
  | .fault level => pfNum pf == 0 && decide (s.hif.wakeLevel.toNat ≤ level.val)

/-- WAKE_EVENT: in D3hot a PM_PME goes out; in D3cold HPn_WAKE_N is driven low. -/
def wakeEvent (s : State) (pf : Nat) (cause : WakeCause) : State :=
  match funcOf s pf with
  | none => s
  | some f =>
    let e := endpointOf s (epOf pf)
    if isVf pf || !f.pmeEn || !wakes s pf cause then s
    else if e.perst || !e.linkUp then
      endpointMod (funcMod s pf (fun f => { f with pmeStatus := true })) (epOf pf) (fun e => { e with wake := true, pmePending := true })
    else if f.d3hot then emit (funcMod s pf (fun f => { f with pmeStatus := true })) (.message pf 0)
    else s

def execWakeEvent (fn : W16) (cause : WakeCause) (s : State) : Result := .next (wakeEvent s fn.toNat cause)

/-! Errors (R454, R455). -/

/-- The uncorrectable error status bit of a link error, or the correctable one. -/
def linkErrorBit (e : LinkError) : Bool × Nat :=
  match e with
  | .receiver => (false, corrReceiver)
  | .badTlp => (false, corrBadTlp)
  | .badDllp => (false, corrBadDllp)
  | .replayRollover => (false, corrRollover)
  | .replayTimeout => (false, corrReplay)
  | .correctedInternal => (false, corrInternal)
  | .malformed => (true, errMalformed)
  | .overflow => (true, errOverflow)
  | .dataLinkProtocol => (true, errDataLink)
  | .flowControl => (true, errFlowControl)
  | .poisoned => (true, errPoisoned)

/-- PCIE_LINK_ERROR: logged in PF0 of the endpoint. -/
def linkError (s : State) (ep : Nat) (e : LinkError) (header : List Byte) : State :=
  if !(endpointOf s ep).linkUp then s
  else
    match linkErrorBit e with
    | (false, b) => aerCorrectable s (pf0Of ep) b
    | (true, b) => aerUncorrectable s (pf0Of ep) b false header

def execPcieLinkError (ep : Fin 2) (error : LinkError) (header : List Byte) (s : State) : Result :=
  .next (linkError s ep.val error header)

/-- UNEXPECTED_COMPLETION. -/
def unexpectedCompletion (s : State) (ep : Nat) (header : List Byte) : State :=
  if !(endpointOf s ep).linkUp then s else aerUncorrectable s (pf0Of ep) errUnexpected true header

def execUnexpectedCompletion (ep : Fin 2) (header : List Byte) (s : State) : Result :=
  .next (unexpectedCompletion s ep.val header)

/-- Completion Timeout logged in a function; its header is that of the device's own request, whose bytes are open. -/
def timeoutLog (s : State) (fn : Nat) : State :=
  let (h, s) := freshBytes 16 s
  aerUncorrectable s fn errTimeout false h

/-- COMPLETION_TIMEOUT: the request fails with BUS_ERROR. The element of a DMA read in progress is open. -/
def completionTimeout (s : State) (r : RequestOf) : State :=
  match r with
  | .queueRing q =>
    match queueOf s q.toNat with
    | none => s
    | some x => if x.fetching.isEmpty then s else descriptorFetchDone (timeoutLog s x.fn.toNat) q.toNat false []
  | .queueData q =>
    match queueOf s q.toNat with
    | none => s
    | some x =>
      if x.stale = 0 ∧ !(x.work.any (fun w => !w.read)) then s else sendFrameReadDone (timeoutLog s x.fn.toNat) q.toNat false []
  | .dmaChannel e =>
    let c := (dmaEngineOf s e.val).active
    if c = 0 then s
    else
      let x := dmaChannelOf s e.val c
      match x.desc with
      | none => dmaBusError s e.val 2 true false (0#16, 0#16, 0#16)
      | some d =>
        if x.flushing then dmaBusError (timeoutLog s (dmaFn e.val)) e.val 5 false true (dmaLast d)
        else if d.srcHbm then s
        else
          let (k, s) := fresh 32 s
          let i := d.elements.getD (k.toNat % d.elements.length) (0, 0, 0)
          dmaBusError s e.val 2 false false (BitVec.ofNat 16 i.2.2, BitVec.ofNat 16 i.2.1, BitVec.ofNat 16 i.1)
  | .admin ep =>
    match (adminOf s ep.val).accepted.find? (fun c => !c.started) with
    | none => s
    | some c => adminFinish (timeoutLog s (pf0Of ep.val)) ep.val c.cid 5#8 []

def execCompletionTimeout (request : RequestOf) (s : State) : Result := .next (completionTimeout s request)

/-- HOST_IF_INTERNAL. -/
def hostInternal (s : State) (ep : Nat) : State :=
  if !hostReleased s || !epEnabled s ep then s
  else
    let s := raise s .hostIfInternal (0x08 + ep) wholeUnit
    let (h, s) := freshBytes 16 s
    endpointMod (aerUncorrectable s (pf0Of ep) errInternal false h) ep (fun e => { e with contained := true })

def execHostIfInternal (ep : Fin 2) (s : State) : Result := .next (hostInternal s ep.val)

/-! Configuration space (R443-R447). -/

def hasSriov (s : State) (fn : Nat) : Bool := !isVf fn && decide (0 < totalVfs s fn)

/-- An extended capability header. -/
def extCap (id next : Nat) : Nat := id + put 1 16 4 + put next 20 12

/-- Table Size of MSI-X (R451). -/
def msixSize (s : State) (fn : Nat) : Nat :=
  match kindOf fn with
  | 0 | 1 => 2048
  | 2 | 4 => 65
  | _ => (((funcOf s fn).bind (·.grant)).map (·.vectors)).getD 1

def deviceIdOf (kind : Nat) : Nat := match kind with | 0 => 0x9602 | 1 => 0x9603 | 2 => 0x9604 | 3 => 0x9613 | _ => 0x9614
def classCodeOf (kind : Nat) : Nat := match kind with | 0 => 0x088000 | 1 | 3 => 0x020000 | _ => 0x010802

/-- Size masks of the BARs of a PF (R448): the writable address bits of BAR0 and BAR2. -/
def barMask (fn off : Nat) : Nat :=
  if isVf fn then 0
  else if off = 0x10 then (match pfNum fn with | 0 => 0xF0000000 | 1 => 0xFFFF0000 | _ => 0xFFFFC000)
  else if off = 0x18 then 0xFFFF0000
  else if off = 0x14 ∨ off = 0x1C then 0xFFFFFFFF
  else 0

/-- The next extended capability after ARI, by function. -/
def ariNext (s : State) (fn : Nat) : Nat :=
  if fn = pf0Of (epOf fn) then 0x188 else if hasSriov s fn then 0x1A0 else if isVf fn then 0x400 else 0x340

/-- The Olelon feature capability (R461). -/
def vsecRead (s : State) (fn : Nat) (f : Func) (off : Nat) : Nat :=
  if off = 0x404 then 0x9602 + put 1 16 4 + put 0x080 20 12
  else if off = 0x408 then
    putB (deviceReady s) 0 + putB f.featuresOk 1 + putB (recoveryMode s) 2 + put f.featStatus.toNat 8 8 + put (kindOf fn) 16 3
      + put (epOf fn) 19 1
  else if off = 0x40C then
    put s.rst.options.device.toNat 0 11 + putB s.rst.options.sideB 11 + put s.rst.options.cluster.toNat 12 6
  else if 0x410 ≤ off ∧ off < 0x430 then fieldN (offerOf s fn).toNat ((off - 0x410) * 8) 32
  else if 0x430 ≤ off ∧ off < 0x450 then fieldN f.accept.toNat ((off - 0x430) * 8) 32
  else if 0x450 ≤ off ∧ off < 0x470 then fieldN f.active.toNat ((off - 0x450) * 8) 32
  else 0

/-- The PCI Express capability. -/
def pcieRead (s : State) (fn : Nat) (off : Nat) : Nat :=
  let e := endpointOf s (epOf fn)
  let o := s.rst.options
  let rate := (if epOf fn = 0 then o.hp0Rate else o.hp1Rate).toNat
  let width := 2 ^ (if epOf fn = 0 then o.hp0Width else o.hp1Width).toNat
  match off with
  | 0x50 => 0x10 + put 0xB0 8 8 + put 2 16 4 + putB true 31
  | 0x54 => 2 + putB true 5 + putB true 15 + putB true 28
  | 0x58 => (cfgReg s fn 0x58).toNat % 0x8000 + put (cfgReg s fn 0x5A).toNat 16 4
  | 0x5C => put rate 0 4 + put width 4 6
  | 0x60 => (cfgReg s fn 0x60).toNat + putB true 28 + (if e.linkUp then put e.rate.toNat 16 4 + put (2 ^ e.width.toNat) 20 6 else 0)
  | 0x74 => 0x1F + putB true 16 + putB true 17
  | 0x78 => (cfgReg s fn 0x78).toNat
  | 0x7C => put (2 ^ rate - 1) 1 7
  | 0x80 => if fn = pf0Of (epOf fn) then (if thas ((funcOf s fn).getD Func.reset).config 0x80 then (cfgReg s fn 0x80).toNat else rate) else 0
  | _ => 0

/-- The SR-IOV capability (R444). -/
def sriovRead (s : State) (fn : Nat) (off : Nat) : Nat :=
  if !hasSriov s fn then 0
  else
    match off with
    | 0x1A0 => extCap 0x0010 0x340
    | 0x1A8 => putB (vfEnabled s fn) 0 + (cfgReg s fn 0x1A8).toNat
    | 0x1AC => totalVfs s fn + put (totalVfs s fn) 16 16
    | 0x1B0 => numVfs s fn + put (pfNum fn) 16 8
    | 0x1B4 => (if pfNum fn = 1 then 2 else 1 + totalVfs s (epOf fn * 0x8000 + 0x2000)) + put 1 16 16
    | 0x1B8 => put (deviceIdOf (pfNum fn + 2)) 16 16
    | 0x1BC | 0x1C0 => 1
    | 0x1C4 => (cfgReg s fn 0x1C4).toNat + 4
    | 0x1C8 => (cfgReg s fn 0x1C8).toNat
    | _ => 0

/-- The equalization bits of a rate's status: complete, with its three phases, on a link that runs at the rate or above. -/
def equalized (s : State) (fn rate : Nat) : Nat :=
  let e := endpointOf s (epOf fn)
  if e.linkUp && decide (rate ≤ e.rate.toNat) then 0xF else 0

/-- A lane's margining control register. -/
def isMargin (off : Nat) : Bool := decide (0x308 ≤ off) && decide (off < 0x340) && off % 4 == 0

/-- Extended capabilities of PF0 whose content is PCI Express's own: Secondary PCI Express, Data Link Feature, Physical Layer 16.0,
32.0 and 64.0 GT/s, and Lane Margining at the Receiver (R447). -/
def pf0Cap (s : State) (fn off : Nat) : Nat :=
  match off with
  | 0x244 => (cfgReg s fn 0x244).toNat + 1
  | 0x248 => if (endpointOf s (epOf fn)).linkUp then 0x80000001 else 0
  | 0x25C => equalized s fn 4
  | 0x29C => equalized s fn 5
  | 0x2CC => equalized s fn 6
  | 0x304 => put (equalized s fn 4 % 2) 16 1
  | 0x200 => extCap 0x0019 0x240
  | 0x240 => extCap 0x0025 0x250
  | 0x250 => extCap 0x0026 0x290
  | 0x290 => extCap 0x002A 0x2C0
  | 0x2C0 => extCap 0x0031 0x300
  | 0x300 => extCap 0x0027 0x340
  | _ => if isMargin off then (cfgReg s fn off).toNat else 0

/-- A configuration register of 4 bytes. -/
def cfgRead (s : State) (fn : Nat) (f : Func) (off : Nat) : Nat :=
  let pf0 := fn == pf0Of (epOf fn)
  let vf := isVf fn
  if 0x400 < off ∧ off < 0x480 then vsecRead s fn f off
  else if 0x50 ≤ off ∧ off < 0xB0 then pcieRead s fn off
  else if 0x1A0 ≤ off ∧ off < 0x200 then sriovRead s fn off
  else if 0x200 ≤ off ∧ off < 0x340 then (if pf0 then pf0Cap s fn off else 0)
  else if 0x138 ≤ off ∧ off < 0x160 then beVal (slice f.aerHeader (off - 0x128) 4)
  else
    match off with
    | 0x00 => 0x1F7C + put (deviceIdOf (kindOf fn)) 16 16
    | 0x04 => putB (f.memorySpace && !vf) 1 + putB f.busMaster 2 + (cfgReg s fn 0x04).toNat + putB true 20
    | 0x08 => 0x01 + put (classCodeOf (kindOf fn)) 8 24
    | 0x0C => if vf then 0 else put 0x80 16 8
    | 0x10 | 0x18 => if vf then 0 else (cfgReg s fn off).toNat + 4
    | 0x14 | 0x1C => (cfgReg s fn off).toNat
    | 0x2C => 0x1F7C + put (if s.board.f256 then 2 else 1) 16 16
    | 0x34 => if vf then 0x50 else 0x40
    | 0x3C => (cfgReg s fn 0x3C).toNat
    | 0x40 => if vf then 0 else 0x01 + put 0x50 8 8 + put 3 16 3 + putB true 30 + putB true 31
    | 0x44 => if vf then 0 else (if f.d3hot then 3 else 0) + putB true 3 + putB f.pmeEn 8 + putB f.pmeStatus 15
    | 0xB0 => 0x11 + put (msixSize s fn - 1) 16 11 + putB f.functionMask 30 + putB f.msixEnable 31
    | 0xB4 => if vf then 0x8000 else 2
    | 0xB8 => if vf then 0xC000 else 0x8002
    | 0x100 => 0x0001 + put 2 16 4 + put 0x180 20 12
    | 0x104 => f.aerUncorr.toNat
    | 0x108 | 0x10C | 0x114 => if vf then 0 else (cfgReg s fn off).toNat
    | 0x110 => f.aerCorr.toNat
    | 0x118 => f.aerFirst.getD 0 + (if f.aerFirst.isSome && (endpointOf s (epOf fn)).flit then putB true 17 + put (f.aerHeader.length / 4) 18 5 else 0)
    | 0x11C | 0x120 | 0x124 | 0x128 => beVal (slice f.aerHeader (off - 0x11C) 4)
    | 0x180 => extCap 0x000E (ariNext s fn)
    | 0x184 => if vf ∨ pfNum fn = 2 then 0 else put (pfNum fn + 1) 8 8
    | 0x188 => if pf0 then extCap 0x0003 0x200 else 0
    | 0x18C => if pf0 then s.board.serial.toNat else 0
    | 0x190 => if pf0 then 0x00009602 else 0
    | 0x340 => if vf then 0 else extCap 0x002F 0x350
    | 0x344 => if vf then 0 else 6
    | 0x348 => if vf then 0 else (cfgReg s fn 0x348).toNat
    | 0x350 => if vf then 0 else extCap 0x000D 0x400
    | 0x400 => extCap 0x000B 0
    | _ => 0

def cfgPut (s : State) (fn off v : Nat) : State :=
  funcMod s fn (fun f => { f with config := tput (cfgDefault off) f.config off (BitVec.ofNat 32 v) })

/-- VF Enable and NumVFs. VFs have records from VF Enable on, and clearing VF Enable resets those created. -/
def sriovWrite (s : State) (fn off : Nat) (v : Nat) : State :=
  if !hasSriov s fn then s
  else
    match off with
    | 0x1A8 =>
      let s := cfgPut s fn off (v % 32 / 8 * 8)
      let on := bitN v 0
      if on && !vfEnabled s fn then
        let s := (List.range (numVfs s fn)).foldl (fun s k =>
          if (funcOf s (fn + k + 1)).isSome then s
          else { s with hif := { s.hif with funcs := tset s.hif.funcs (fn + k + 1) Func.reset } }) s
        setVfs s fn (numVfs s fn) true
      else if !on && vfEnabled s fn then
        let vfs := vfsOf s fn
        let s := vfs.foldl (fnReset false) s
        setVfs (vfs.foldl resetEnd s) fn (numVfs s fn) false
      else s
    | 0x1B0 =>
      let n := v % 65536
      if vfEnabled s fn || totalVfs s fn < n then s else setVfs s fn n false
    | 0x1C4 => cfgPut s fn off (v / 65536 * 65536 % 2 ^ 32)
    | 0x1C8 => cfgPut s fn off v
    | _ => s

/-- Device Control: an FLR is initiated by bit 15; the error status bits above are cleared by writing 1. -/
def deviceControl (s : State) (fn v : Nat) : State :=
  let s := cfgPut s fn 0x58 (v % 0x8000)
  let s := funcMod s fn (fun f => { f with config := tput 0#32 f.config 0x5A ((tgetD f.config 0x5A 0#32) &&& ~~~ BitVec.ofNat 32 (v / 65536)) })
  if bitN v 15 then flr s fn else s

/-- A write of the power state and PME bits. -/
def powerWrite (s : State) (fn v : Nat) : State :=
  let s := funcMod s fn (fun f => { f with pmeEn := bitN v 8, pmeStatus := f.pmeStatus && !bitN v 15 })
  if v % 4 = 3 then d3Entry s fn else if v % 4 = 0 then d0Return s fn else s

/-- A configuration register written. -/
def cfgWrite (s : State) (fn off v : Nat) : State :=
  let vf := isVf fn
  if 0x430 ≤ off ∧ off < 0x450 then featAccept s fn ((off - 0x430) / 4) (BitVec.ofNat 32 v)
  else if 0x1A0 ≤ off ∧ off < 0x200 then sriovWrite s fn off v
  else
    match off with
    | 0x04 =>
      let s := cfgPut s fn off (v % 65536 &&& 0x0540)
      let s := funcMod s fn (fun f => { f with memorySpace := bitN v 1 && !vf, busMaster := bitN v 2 })
      if bitN v 2 then fnResume s fn else s
    | 0x10 | 0x14 | 0x18 | 0x1C => if vf then s else cfgPut s fn off (v &&& barMask fn off)
    | 0x3C => cfgPut s fn off (v % 256)
    | 0x44 => if vf then s else powerWrite s fn v
    | 0x58 => deviceControl s fn v
    | 0x60 => if vf then s else cfgPut s fn off (v &&& 0x00CB)
    | 0x80 => if fn = pf0Of (epOf fn) then cfgPut s fn off (v &&& 0xFFBF) else s
    | 0x244 => if fn = pf0Of (epOf fn) then cfgPut s fn off (v &&& 0x80000000) else s
    | 0x348 => if vf then s else cfgPut s fn off (v &&& 4)
    | 0x78 => cfgPut s fn off (v % 65536 &&& 0x131F)
    | 0xB0 =>
      let s := funcMod s fn (fun f => { f with functionMask := bitN v 30, msixEnable := bitN v 31 })
      msixSend s fn
    | 0x104 =>
      funcMod s fn (fun f =>
        { f with aerUncorr := f.aerUncorr &&& ~~~ BitVec.ofNat 32 v,
                 aerFirst := match f.aerFirst with | some b => if bitN v b then none else some b | none => none })
    | 0x110 => funcMod s fn (fun f => { f with aerCorr := f.aerCorr &&& ~~~ BitVec.ofNat 32 v })
    | 0x108 | 0x10C => if vf then s else cfgPut s fn off (v &&& 0x577010)
    | 0x114 => if vf then s else cfgPut s fn off (v &&& 0xF1C1)
    | 0x408 => if bitN v 1 then featuresOk s fn else s
    | _ => if isMargin off && fn == pf0Of (epOf fn) then cfgPut s fn off (v % 65536 &&& 0xFF7F) else s

/-- CONFIG_REQUEST (R460): completed with status 0, Unsupported Request 1 or Request Retry 2; while the link is down it is
not answered. -/
def configRequest (s : State) (fn off : Nat) (write : Option W32) : State :=
  let e := endpointOf s (epOf fn)
  let off := off / 4 * 4
  if !e.linkUp || !epEnabled s (epOf fn) then s
  else if !e.configReady || (pfNum fn ≠ 0 && !deviceReady s) then emit s (.completion fn 2 [])
  else
    match (if fnExists s fn then funcOf s fn else none) with
    | none => emit s (.completion fn 1 [])
    | some f =>
      match write with
      | none => emit s (.completion fn 0 (leBytes 4 (cfgRead s fn f off)))
      | some v => emit (cfgWrite s fn off v.toNat) (.completion fn 0 [])

def execConfigRequest (fn : W16) (offset : BitVec 12) (write : Option W32) (s : State) : Result :=
  .next (configRequest s fn.toNat offset.toNat write)

end Sys2Proof.Machine
end

