-- ==== Sys2Proof/Machine/AdminOps.lean ====
section
/-!
DEFINITION. The frame of every admin command: its entry, the checks that come before its own, its data, its completion
(R18, R19, R125, R483-R485, R487, R489).
-/

namespace Sys2Proof.Machine

/-- What a command's own part answers: status and RESULT, or none when it completes later. -/
abbrev AdminAnswer := State × Option (Byte × List Byte)

def adminDone (s : State) (status : Nat) (result : List Byte) : AdminAnswer := (s, some (BitVec.ofNat 8 status, result))
def adminOk (s : State) : AdminAnswer := adminDone s 0 []
def adminFail (s : State) (status : Nat) : AdminAnswer := adminDone s status []
def adminLater (s : State) : AdminAnswer := (s, none)

/-- A proofing record under a status that no later check gives (R125, R127). MALFORMED is FORMAT's, check 0x01 (R121; DEDUCED for an
entry or its data that break their form before the run). -/
def statusRecord (status table : Nat) : List Byte :=
  (ProofResult.bytes { refusal (if status = 1 then 1 else 0) table 0 0 0 with status := status })

/-- The slot table that a command concerns (R125): STAGE_SLOTS names one. -/
def tableConcerned (b : List Byte) : Nat := if leAt b 0 1 = 0x10 ∧ leAt b 20 1 ≤ 2 then leAt b 20 1 else 0xFF

/-- The answer with a proofing record. -/
def proofDone (s : State) (r : ProofResult) : AdminAnswer := adminDone s r.status r.bytes
def proofFail (s : State) (status : Nat) : AdminAnswer := adminDone s status (statusRecord status 0xFF)

/-- A command: its opcode, whether it names FUNCTION, the PARAMS bytes it uses (first and count), and whether it returns
a proofing record. -/
structure AdminForm where
  op : Nat
  named : Bool
  used : List (Nat × Nat)
  proofed : Bool
  deriving DecidableEq, Repr

/-- The entry's fields of R483. -/
def adminCid (b : List Byte) : W16 := BitVec.ofNat 16 (leAt b 2 2)
def adminFn (b : List Byte) : Nat := leAt b 4 2
def adminGen (b : List Byte) : Nat := leAt b 6 2
def adminAddr (b : List Byte) : Nat := leAt b 8 8
def adminLen (b : List Byte) : Nat := leAt b 16 4

/-- Unused bytes of PARAMS are 0. -/
def paramsZero (used : List (Nat × Nat)) (b : List Byte) : Bool :=
  (List.range 44).all (fun i =>
    used.any (fun u => decide (u.1 ≤ 20 + i) && decide (20 + i < u.1 + u.2)) || b.getD (20 + i) 0#8 == 0#8)

/-- The entry has the command's form. -/
def adminForm (f : AdminForm) (b : List Byte) : Bool :=
  leAt b 1 1 == 0 && decide (adminLen b ≤ 16777216) && paramsZero f.used b && (f.named || adminFn b == 0)

/-- The status that stands before a command's own (R19, R485); GEN is that of FUNCTION or 0xFFFF, and a command is `stale` whose
function's generation has advanced since it was accepted (R495). -/
def adminGate (s : State) (f : AdminForm) (b : List Byte) (ok stale : Bool) : Option Nat :=
  if !adminForm f b || !ok then some 1
  else if stale || f.named && adminGen b != 0xFFFF && adminGen b != genNamed s (adminFn b) then some 7
  else if recoveryMode s then (if 0x70 ≤ f.op then none else some 4)
  else if !deviceReady s && f.op != 0x74 then some 3
  else none

def startFirst (cid : W16) : List AdminCmd → List AdminCmd
  | [] => []
  | c :: l => if c.cid == cid && !c.started then { c with started := true } :: l else c :: startFirst cid l

/-- The command runs: it was accepted by its fetch, or is accepted here (R495). One fetched before a reset of PF0 runs without being
accepted again, and so completes nothing (R497). -/
def adminStart (s : State) (ep : Nat) (b : List Byte) : State :=
  if (adminOf s ep).accepted.any (fun c => c.cid == adminCid b && !c.started) then
    adminMod s ep (fun q => { q with accepted := startFirst (adminCid b) q.accepted })
  else if (adminOf s ep).orphans.contains (adminCid b) then
    adminMod s ep (fun q => { q with orphans := q.orphans.erase (adminCid b) })
  else adminMod (adminAccept s ep b) ep (fun q => { q with accepted := startFirst (adminCid b) q.accepted })

/-- The command in hand was accepted under an earlier generation of its function. -/
def adminStale (s : State) (ep : Nat) (b : List Byte) : Bool :=
  (((adminOf s ep).accepted.find? (fun c => c.cid == adminCid b && c.started)).map (fun c => c.gen != genOf s c.fn.toNat)).getD false

/-- An entry with the command's opcode runs: the checks before its own part, then that part, then the completion. -/
def adminRun (s : State) (ep : Nat) (entry : List Byte) (f : AdminForm) (ok : List Byte → Bool)
    (body : State → List Byte → AdminAnswer) : State :=
  let b := slice entry 0 64
  if leAt b 0 1 ≠ f.op || !supervisorRuns s then s
  else
    let s := adminStart s ep b
    match adminGate s f b (ok b) (adminStale s ep b) with
    | some st => adminFinish s ep (adminCid b) (BitVec.ofNat 8 st) (if f.proofed then statusRecord st (tableConcerned b) else [])
    | none =>
      match body s b with
      | (s, some (st, r)) => adminFinish s ep (adminCid b) st r
      | (s, none) => s

/-- Who waits for a command that completes later. -/
def adminWaiter (ep : Nat) (b : List Byte) : Waiter := .admin ep (adminCid b).toNat

/-- DATA as fetched: DATA_LEN bytes. -/
def adminData (b data : List Byte) : List Byte := slice data 0 (adminLen b)

/-- DATA written back to the host. -/
def adminOut (s : State) (ep : Nat) (b bytes : List Byte) : State := adminPut s ep (adminLen b) (adminAddr b) bytes

/-- The generation that a command of the function's own advance is checked against is the new one: CREATE_VF and
DESTROY_VF complete with it (R492, R493). -/
def adminRegen (s : State) (ep : Nat) (b : List Byte) : State :=
  adminMod s ep (fun q =>
    { q with accepted := q.accepted.map (fun c =>
        if c.started && c.cid == adminCid b then { c with gen := genOf s c.fn.toNat } else c) })

end Sys2Proof.Machine
end

