-- ==== Sys2Proof/Machine/SlabSlots.lean ====
section
/-!
DEFINITION. The cipher slab's slots: which slots of the current page serve a context, and the positions that a request takes of
them (R64, R70-R72, R86, R120, R389, R400, R401).
-/

namespace Sys2Proof

/-- A slot of the present tick in beats (tick × 1,600 + beat): its first position and the one after its last. -/
structure SlabSlot where
  start : Nat
  stop : Nat
  deriving DecidableEq, Repr

/-- Slots of a list that hold a beat. -/
def slotsAt (l : List SlabSlot) (b : Nat) : List SlabSlot := l.filter (fun x => decide (x.start ≤ b) && decide (b < x.stop))

/-- The next beat after `b` at which a slot of the list has a position. -/
def slotAfter (l : List SlabSlot) (b : Nat) : Option Nat :=
  (l.filter (fun x => decide (b + 1 < x.stop))).foldl (fun best x =>
    let c := max x.start (b + 1)
    match best with
    | some y => some (min y c)
    | none => some c) none

/-- The next free position at or after beat `least`, after the `c.2` positions taken of beat `c.1`: positions go by beat, and
within a beat by row. Those passed over stay idle. -/
def nextPos (l : List SlabSlot) (c : Nat × Nat) (least : Nat) : Option (Nat × Nat) :=
  let c := if c.1 < least then (least, 0) else c
  if c.2 < (slotsAt l c.1).length then some (c.1, c.2 + 1) else (slotAfter l c.1).map (fun b => (b, 1))

/-- Positions for some operations in order, each no earlier than its own least beat: the beats taken, up to where the slots
end, and where the context then stands. -/
def takePos (l : List SlabSlot) : Nat × Nat → List Nat → List Nat × (Nat × Nat)
  | c, [] => ([], c)
  | c, least :: rest =>
    match nextPos l c least with
    | none => ([], c)
    | some c' => let (bs, d) := takePos l c' rest; (c'.1 :: bs, d)

/-- The end of the slot that holds the last position taken. -/
def slotStop (l : List SlabSlot) (c : Nat × Nat) : Nat := (((slotsAt l c.1)[c.2 - 1]?).map (·.stop)).getD 0

/-- Of beats of last positions and the ends of their slots, the end that goes with the last beat; `none_` without any. -/
def lastStop (none_ : Nat) (l : List (Nat × Nat)) : Nat :=
  let last := l.foldl (fun (best : Nat × Nat) x => if best.1 < x.1 ∨ (best.1 = x.1 ∧ best.2 < x.2) ∨ best.2 = 0 then x else best) (0, 0)
  if last.2 = 0 then none_ else last.2

/-- The AES blocks of a request before each run (R400). -/
def aesBefore (rs : List Run) : List (Run × Nat) :=
  (rs.foldl (fun (x : List (Run × Nat) × Nat) r => (x.1 ++ [(r, x.2)], x.2 + r.aes)) ([], 0)).1

/-- The GF operations of a request in run order, each with the AES block whose output it takes: those of a CTR run with G 2. -/
def gfNeeds (rs : List Run) : List (Option Nat) :=
  (aesBefore rs).flatMap (fun x =>
    (List.range x.1.gf).map (fun j => if x.1.kind = 2 ∧ x.1.g = 2 then some (x.2 + j) else none))

/-- GF operations go while their AES blocks have positions, at least 32 beats after them. -/
def gfLeast (aesAt : List Nat) (b : Nat) : List (Option Nat) → List Nat
  | [] => []
  | none :: rest => b :: gfLeast aesAt b rest
  | some k :: rest =>
    match aesAt[k]? with
    | some a => max b (a + 32) :: gfLeast aesAt b rest
    | none => []

end Sys2Proof

namespace Sys2Proof.Machine

/-! Rows and pools. -/

/-- A unit out of use, or due at a boundary that it has already missed: its row's slots stay idle (R86). -/
def slabRowIdle (s : State) (r : Nat) : Bool := s.cph.lost.contains r || s.sltCph.held.contains r

/-- Rows with a DEDICATED entry of a context, in any page of a bank. -/
def dedicatedRows (b : Bank) (i : Nat) : List Nat :=
  (b.pages.flatMap (fun p => (p.filter (fun e =>
    e.2.any (fun w => entryKind w == 1 && entryChannel w == i))).map (·.1))).eraseDups

/-- Rows with a POOL entry of a pool. -/
def poolRows (b : Bank) (p : Nat) : List Nat :=
  (b.pages.flatMap (fun q => (q.filter (fun e =>
    e.2.any (fun w => entryKind w == 2 && entryChannel w == p))).map (·.1))).eraseDups

/-- The context is pinned: the current or the pending bank names it in a DEDICATED entry (R397). -/
def pinned (s : State) (i : Nat) : Bool :=
  let t := s.sltCph
  let other := if t.active1 then t.bank0 else t.bank1
  !(dedicatedRows t.bank i).isEmpty || (t.pending.isSome && !(dedicatedRows other i).isEmpty)

/-- The pool that serves a context which no DEDICATED entry of the current bank names: that of its DEMAND entry (R119). A
context without one is in pool 0 (DESIGN CHOICE, log entry 133) (R120). -/
def ctxPool (s : State) (i : Nat) : Option Nat :=
  if !(dedicatedRows s.sltCph.bank i).isEmpty then none
  else
    match s.app.demand.entries.find? (fun e => e.table == 0 && e.channel == i) with
    | some e => if e.pooled then some e.pool else none
    | none => some 0

/-- A lost unit without reserve serves the context: a row of its own entries, or of its pool's, core or GF (R89; DEDUCED, log
entry 136). -/
def uncoveredCtx (s : State) (i : Nat) : Bool :=
  let rows := match ctxPool s i with
    | some p => poolRows s.sltCph.bank p
    | none => dedicatedRows s.sltCph.bank i
  rows.any s.cph.uncovered.contains

/-! Slots of the present tick. -/

/-- The entries of the current page, by row. -/
def slabEntries (s : State) : List (Nat × W64) :=
  (s.sltCph.bank.pages.getD s.sltCph.page []).flatMap (fun r => r.2.map (fun w => (r.1, w)))

def slabSlotOf (s : State) (w : W64) : SlabSlot :=
  { start := now s * 1600 + entryStart w, stop := now s * 1600 + entryStart w + entryLength w }

/-- The head request of a context could be served by a slot that begins at a beat: its context is ACTIVE, its entry resident,
and its release landed long enough before (R397, R401). One that waits after a failure of its unit is served after the migration
(R403). -/
def requestReady (s : State) (i start : Nat) (r : CipherReq) : Bool :=
  let wait := if (rqRanges r.words).isEmpty then 32 else 1600
  (ctxOf s i).state == .active && s.cph.enabled && !s.kvl.erasing && decide (r.landed + wait ≤ start)
  && (match tget s.cph.cache i with
      | some e => decide (e.ready ≤ now s)
      | none => false)
  && !(r.retry.map (fun u => s.sltCph.due.any (fun d => d.1 == u))).getD false

/-- The contexts of a pool with work for a slot that begins at a beat. -/
def slabPending (s : State) (p start : Nat) : List Nat :=
  (s.cph.ctxs.filter (fun e =>
    ctxPool s e.1 == some p && ((e.2.queue.head?).map (requestReady s e.1 start)).getD false)).map (·.1)

/-- A POOL slot under way takes its context, round-robin from the pool's previous slot (R71). -/
def slabTurn (s : State) (x : Nat × W64) : State :=
  let p := entryChannel x.2
  let key := x.1 * 4096 + entryStart x.2
  if thas s.cph.turns key then s
  else
    match roundRobin (tget s.sltCph.poolLast p) (slabPending s p (slabSlotOf s x.2).start) with
    | none => s
    | some i =>
      { cphMod s (fun k => { k with turns := tset k.turns key i }) with
        sltCph := { s.sltCph with poolLast := tset s.sltCph.poolLast p i } }

/-- The POOL slots of a pool that have begun and not ended take their contexts, in the order of their starts. -/
def slabTurns (s : State) (p : Nat) : State :=
  let b := nowBeats s
  let open_ := (slabEntries s).filter (fun x =>
    let y := slabSlotOf s x.2
    entryKind x.2 == 2 && entryChannel x.2 == p && !slabRowIdle s x.1 && decide (y.start ≤ b) && decide (b < y.stop))
  ((List.range 1600).flatMap (fun k => open_.filter (fun x => entryStart x.2 == k))).foldl slabTurn s

/-- The slots of this tick that serve a context: its DEDICATED ones, and POOL slots that took it; core rows or GF rows. -/
def slabSlots (s : State) (i : Nat) (gf : Bool) : List SlabSlot :=
  ((slabEntries s).filter (fun x =>
    decide (128 ≤ x.1) == gf && !slabRowIdle s x.1
    && (if entryKind x.2 = 1 then entryChannel x.2 == i
        else entryKind x.2 == 2 && tget s.cph.turns (x.1 * 4096 + entryStart x.2) == some i))).map (fun x => slabSlotOf s x.2)

/-- Those of them in which a request may be served. -/
def requestSlots (s : State) (i : Nat) (gf : Bool) (r : CipherReq) : List SlabSlot :=
  (slabSlots s i gf).filter (fun x => requestReady s i x.start r)

/-- A slot that serves the request is under way. -/
def requestEligible (s : State) (i : Nat) (r : CipherReq) : Bool :=
  !(slotsAt (requestSlots s i false r ++ requestSlots s i true r) (nowBeats s)).isEmpty

/-! Positions. -/

/-- The request takes the next free positions of its context's slots of this tick, AES blocks and GF operations each in run
order, a GF operation on a block's output at least 32 beats after the block. -/
def requestTake (s : State) (i : Nat) (r : CipherReq) : CipherReq × SlabCursor :=
  let b := nowBeats s
  let cores := requestSlots s i false r
  let gfs := requestSlots s i true r
  let c := tgetD s.cph.cursors i SlabCursor.zero
  let total := sumOf ((runsOf r.words).map Run.aes)
  let (aes, ca) := takePos cores c.core (List.replicate (total - r.aesAt.length) b)
  let aesAt := r.aesAt ++ aes
  let (gf, cg) := takePos gfs c.gf (gfLeast aesAt b ((gfNeeds (runsOf r.words)).drop r.gfAt.length))
  let firstOpen := ((slotsAt (cores ++ gfs) b).head?.map (·.stop)).getD b
  let before := if r.stop = 0 then [] else [((r.aesAt ++ r.gfAt).foldl max 0, r.stop)]
  let stop := lastStop firstOpen (before ++ (if aes.isEmpty then [] else [(ca.1, slotStop cores ca)])
    ++ (if gf.isEmpty then [] else [(cg.1, slotStop gfs cg)]))
  ({ r with aesAt := aesAt, gfAt := r.gfAt ++ gf, stop := stop }, { core := ca, gf := cg })

/-- Every operation of the request has its position. -/
def requestWhole (r : CipherReq) : Bool :=
  r.aesAt.length == sumOf ((runsOf r.words).map Run.aes) && r.gfAt.length == sumOf ((runsOf r.words).map Run.gf)

/-- First and last beat of a request's positions; a request without any stands in its slot's last beat. -/
def requestFirst (r : CipherReq) : Nat := (r.aesAt ++ r.gfAt).foldl min (r.stop - 1)
def requestLast (r : CipherReq) : Nat :=
  if r.aesAt.isEmpty && r.gfAt.isEmpty then r.stop - 1 else (r.aesAt ++ r.gfAt).foldl max 0

end Sys2Proof.Machine
end

