-- ==== Sys2Proof/Machine/Cipher.lean ====
section
/-!
DEFINITION. The meanings of the cipher slab's and the random service's commands: processing, outputs, cache loads,
counter blocks, unit failures, entropy and zeroization; and the export images of contexts (R389-R416).
-/

namespace Sys2Proof

/-! Export images (R412). -/

/-- An image of 136 bytes: `kek` none for the clear form. -/
def ctxImage (id : Nat) (c : Ctx) (wrap origin : Nat) (kek : Option (List Byte)) : List Byte :=
  let h := ctxHeader id c CtxState.saved.code wrap origin
  let plain := pad32 c.key1 ++ pad32 c.key2 ++ h
  h ++ (match kek with
    | some k => kwWrap k plain
    | none => plain ++ zeroBytes 8)

/-- The context that an image describes, its keys from the unwrapped copy; none where the unwrap fails or the copy of
the header differs. -/
def ctxOfImage (img : List Byte) (kek : Option (List Byte)) : Option Ctx :=
  let h := slice img 0 32
  let plain := match kek with
    | some k => kwUnwrap k (slice img 32 104)
    | none => some (slice img 32 96)
  match plain with
  | none => none
  | some x =>
    if slice x 64 32 ≠ h then none
    else
      let f := leAt h 4 1
      let n := if bitN f 0 then 32 else 16
      some { state := .active, key256 := bitN f 0, xts := bitN f 1, storage := bitN f 2, exportable := bitN f 3,
             ownerPool := bitN f 4, paired := bitN f 5, salt := h.getD 5 0#8, owner := BitVec.ofNat 32 (leAt h 8 4),
             epoch := BitVec.ofNat 24 (leAt h 12 3), ctrHwm := leAt h 16 8, saveSeq := BitVec.ofNat 32 (leAt h 24 4),
             key1 := slice x 0 n, key2 := if bitN f 1 then slice x 32 n else [], queue := [] }

end Sys2Proof

namespace Sys2Proof.Machine

/-! Processing (R399-R402, R405). -/

/-- The work of a request as its runs go on: the packet, HBM, the accumulator, the result blocks, what is to be
written, and the state for random values. `beyondIb` is what an INLINE run reads beyond IB3, which the spec does not say: free bytes
(log entry 151). -/
structure CipherWork where
  st : State
  beyondIb : List Byte
  pkt : List Byte
  hbm : Tbl Byte
  acc : BitVec 128
  rbs : List (List Byte)
  patches : List (Nat × List Byte)
  hbmOut : List (Nat × List Byte)

/-- A block goes to RB INDEX and the blocks after it in turn. -/
def rbsPut (rbs : List (List Byte)) (i : Nat) (bs : List (List Byte)) : List (List Byte) :=
  (List.range 3).map (fun k => if i ≤ k ∧ k < i + bs.length then bs.getD (k - i) [] else rbs.getD k [])

/-- The input of a run. -/
def runInput (w : CipherWork) (ws : List W48) (iv : List Byte) (r : Run) : List Byte :=
  match r.src with
  | 0 => slice w.pkt r.off r.len
  | 1 => (List.range r.len).map (fun i => tgetD w.hbm (r.b + i) 0#8)
  | 2 => slice (((List.range 4).drop r.b).flatMap (fun i => blockOfWords ws (16 + 3 * i)) ++ w.beyondIb) 0 r.len
  | _ => iv ++ beBytes 4 r.b

/-- The output of a run goes to its destination. -/
def runOutput (w : CipherWork) (r : Run) (out : List Byte) : CipherWork :=
  match r.dst with
  | 1 => { w with pkt := patch w.pkt r.off out, patches := w.patches ++ [(r.off, out)] }
  | 2 => { w with hbm := putBytes 0#8 w.hbm r.b out, hbmOut := w.hbmOut ++ [(r.b, out)] }
  | 3 => { w with rbs := rbsPut w.rbs (if r.kind = 8 then 0 else r.index) (chunks 16 (cdiv out.length 16) out) }
  | _ => w

/-- The CTR key stream over some bytes, from block IV ‖ START on. -/
def ctrRun (key iv : List Byte) (start : Nat) (data : List Byte) : List Byte :=
  ((chunks 16 (cdiv data.length 16) data).zipIdx).flatMap (fun x =>
    xorBytes x.1 (aesEnc key (iv ++ beBytes 4 ((start + x.2) % 2 ^ 32))))

/-- One run (R400). -/
def runStep (c : Ctx) (ws : List W48) (iv : List Byte) (w : CipherWork) (r : Run) : CipherWork :=
  let x := runInput w ws iv r
  let h := blockOf (aesEnc c.key1 (zeroBytes 16))
  let blocks := chunks 16 (cdiv x.length 16) x
  match r.kind with
  | 1 => runOutput w r (aesEnc c.key1 (slice x 0 16))
  | 2 =>
    let y := ctrRun c.key1 iv r.b x
    let w := runOutput w r y
    { w with acc := if r.g = 1 then ghashOver h w.acc x else if r.g = 2 then ghashOver h w.acc y else w.acc }
  | 3 => { w with acc := ghashOver h w.acc x }
  | 4 => runOutput w r (blocks.flatMap (aesEnc c.key1))
  | 5 => runOutput w r (blocks.flatMap (aesDec c.key1))
  | 6 => runOutput w r (xtsRun true c.key1 (aesEnc c.key2 (blockOfWords ws (16 + 3 * r.index))) blocks)
  | 7 => runOutput w r (xtsRun false c.key1 (aesEnc c.key2 (blockOfWords ws (16 + 3 * r.index))) blocks)
  | _ =>
    let (bs, s) := drbg r.len w.st
    runOutput { w with st := s } r bs

/-- The IV of a request, given its counter value (R399, R404). -/
def requestIv (s : State) (c : Ctx) (ws : List W48) (counter : Nat) : List Byte × State :=
  let base := beBytes 6 (rqWord ws 2) ++ beBytes 6 (rqWord ws 3)
  let ctr := beBytes 8 counter
  match rqIvSrc ws with
  | 1 => (base, s)
  | 2 => (beBytes 3 c.epoch.toNat ++ [c.salt] ++ ctr, s)
  | 3 => (xorBytes base (zeroBytes 4 ++ ctr), s)
  | 4 => (base.take 4 ++ ctr, s)
  | 5 => drbg 12 s
  | _ => (zeroBytes 12, s)

/-- The counter written into the packet before the runs (R405). -/
def putCounter (ws : List W48) (counter : Nat) (w : CipherWork) : CipherWork :=
  let out := match rqPutWidth ws with
    | 1 => beBytes 4 counter
    | 2 => beBytes 8 counter
    | _ => []
  if out.isEmpty then w
  else { w with pkt := patch w.pkt (rqPutOffset ws) out, patches := w.patches ++ [(rqPutOffset ws, out)] }

/-- The most bytes that an INLINE run of a request reads beyond IB3. -/
def inlineOver (ws : List W48) : Nat :=
  ((runsOf ws).filter (fun r => r.src == 2)).foldl (fun m r => max m (r.len - 16 * (4 - r.b))) 0

/-- A request is worked through; its outputs wait for their write 64 beats on. -/
def requestRun (s : State) (i : Nat) (r : CipherReq) (counter : Nat) : State :=
  let c := ctxOf s i
  let (iv, s) := requestIv s c r.words counter
  let (rb, s) := freshBytes 48 s
  let frame := ((r.pkt.bind (pktOf s)).map frameBytes).getD []
  let (beyond, s) := freshBytes (inlineOver r.words) s
  let w : CipherWork := { st := s, beyondIb := beyond, pkt := frame, hbm := s.hbm, acc := 0#128, rbs := chunks 16 3 rb, patches := [],
                          hbmOut := [] }
  let w := (runsOf r.words).foldl (runStep c r.words iv) (putCounter r.words counter w)
  let out : CipherOutput :=
    { ctx := i, req := r,
      words := resultWords (blockBytes w.acc) w.rbs counter c.epoch.toNat c.salt (rqTag r.words) 0 false
      retry := false, patches := w.patches, hbm := w.hbmOut, due := resultDue r.stop }
  cphMod w.st (fun k => { k with outputs := k.outputs ++ [out] })

/-! Processing of the request at the head of a context's queue. -/

/-- A request that a failed unit returned is executed again (R403). -/
def retryCount (s : State) (r : CipherReq) : State :=
  if r.retry.isSome then cphMod s (fun k => { k with retries := wrapInc k.retries }) else s

/-- The request leaves the queue, processed. -/
def requestTaken (s : State) (i : Nat) (r : CipherReq) : State :=
  retryCount (requestPop (cacheMod s i (fun e => { e with lastServed := r.stop })) i) r

/-- A request with every position taken, whose counter value is `counter`. -/
def requestServe (s : State) (i : Nat) (r : CipherReq) (counter : Nat) (hbmOk : Bool) : State :=
  let s := requestTaken s i r
  if !hbmOk || !(rqRanges r.words).all (fun x => hbmRangeOk s x.1 x.2) then requestFail s i r counter 5 false
  else requestRun s i r counter

/-- The head request takes positions of the slots of this tick; whole, it is worked through, else it goes on in the context's next
slots. -/
def requestAdvance (s : State) (i : Nat) (r : CipherReq) (counter : Nat) (hbmOk : Bool) (e : Option CacheEntry) : State :=
  let (r, c) := requestTake s i r
  let s := cphMod s (fun k => { k with cursors := tset k.cursors i c })
  if requestWhole r then
    requestServe (match e with | some e => cacheMod s i (fun _ => e) | none => s) i r counter hbmOk
  else ctxMod s i (fun x => { x with queue := r :: x.queue.drop 1 })

/-- The request ends in the slot under way without positions of its own. -/
def requestRefuse (s : State) (i : Nat) (r : CipherReq) (status : Nat) : State :=
  let stop := ((slotsAt (requestSlots s i false r ++ requestSlots s i true r) (nowBeats s)).head?.map (·.stop)).getD (nowBeats s)
  requestFail (requestTaken s i { r with stop := stop }) i { r with stop := stop } 0 status false

/-- CIPHER_REQUEST_PROCESS. -/
def cipherRequestProcess (s : State) (i : Nat) (hbmOk : Bool) : State :=
  match (ctxOf s i).queue with
  | [] => s
  | r :: _ =>
    if uncoveredCtx s i then
      if (ctxOf s i).state = .active then requestEnd (requestPop s i) i r 5 else s
    else
      let s := match ctxPool s i with
        | some p => slabTurns s p
        | none => s
      if !requestEligible s i r then s
      else if rqRandom r.words && !rngReady s then requestRefuse s i r 3
      else if !rqCounts r.words then requestAdvance s i r 0 hbmOk none
      else
        match (tget s.cph.cache i).bind counterReady, tget s.cph.cache i with
        | some (v, e), _ => requestAdvance s i r v hbmOk (some e)
        | none, some e =>
          let spent := match e.block with
            | some b => decide (b.stop ≤ b.next)
            | none => true
          if spent && e.nextBlock.isNone && ctxExhausted s (ctxOf s i) then requestRefuse s i r 6
          else cphMod s (fun k => { k with waits := wrapInc k.waits })
        | none, none => s

def execCipherRequestProcess (ctx : BitVec 18) (hbmOk : Bool) (s : State) : Result :=
  .next (xtsSettle (cipherRequestProcess s ctx.toNat hbmOk))

/-- CIPHER_OUTPUT_WRITE: the oldest output that is due and that no batch or migration of its channel holds (R402,
R360). -/
def cipherOutputWrite (s : State) : State :=
  let held := fun (o : CipherOutput) => o.req.disk.isNone && (inFlight s o.req.channel || channelIdle s o.req.channel)
  match s.cph.outputs.find? (fun o => decide (o.due ≤ nowBeats s) && !held o) with
  | none => s
  | some o =>
    let s := cphMod s (fun k =>
      { k with outputs := k.outputs.erase o, completed := if o.retry then k.completed else wrapInc k.completed })
    let s := o.hbm.foldl (fun s x => hbmPutBytes s x.1 x.2) s
    let s := match o.req.pkt with
      | none => s
      | some id => if o.patches.isEmpty then s else pktMod s id (fun p =>
          let f := o.patches.foldl (fun f x => patch f x.1 x.2) (frameBytes p)
          { p with bytes := f.take p.bytes.length, fcs := BitVec.ofNat 32 (leAt f p.bytes.length 4) })
    resultDeliver s o.req o.words o.retry

def execCipherOutputWrite (s : State) : Result := .next (xtsSettle (cipherOutputWrite s))

/-! The cache and the counter blocks. -/

def cacheSize : Nat := 4096

/-- A context's entry becomes resident. -/
def cacheFill (s : State) (i : Nat) (pin : Bool) : State :=
  let e : CacheEntry := { pinned := pin, ready := now s, lastServed := nowBeats s, block := none, nextBlock := none }
  cphMod s (fun k => { k with cache := tset k.cache i e })

/-- The least recently served pooled entry without queued requests. -/
def cacheVictim (s : State) : Option Nat :=
  ((s.cph.cache.filter (fun e => !e.2.pinned && (ctxOf s e.1).queue.isEmpty)).foldl
    (fun (best : Option (Nat × Nat)) e =>
      match best with
      | some (t, _) => if e.2.lastServed < t then some (e.2.lastServed, e.1) else best
      | none => some (e.2.lastServed, e.1)) none).map (·.2)

/-- Room for one more entry among the 4,096: a pooled entry that serves nothing is evicted; for a pinned context, where every
pooled entry has queued requests, the least recently served of them (DESIGN CHOICE, log entry 130). Two banks pin at most 3,072
contexts (R397), so a pooled entry is there. -/
def cacheRoom (s : State) : State :=
  if s.cph.cache.length < cacheSize then s
  else
    match cacheVictim s with
    | some v => cacheDrop s v
    | none =>
      match (s.cph.cache.filter (fun e => !e.2.pinned)).foldl (fun (best : Option (Nat × Nat)) e =>
          match best with
          | some (t, _) => if e.2.lastServed < t then some (e.2.lastServed, e.1) else best
          | none => some (e.2.lastServed, e.1)) none with
      | some (_, v) => cacheDrop s v
      | none => s

/-- A queued request of the context waits for its entry. -/
def loadWaits (s : State) (i : Nat) : Bool :=
  (ctxOf s i).state == .active && !(ctxOf s i).queue.isEmpty && !thas s.cph.cache i

/-- The beat since which it waits. -/
def loadSince (s : State) (i : Nat) : Nat := (((ctxOf s i).queue.head?).map (·.landed)).getD 0

/-- No other context has waited longer (R397: loads go in queue order). -/
def loadFirst (s : State) (i : Nat) : Bool :=
  s.cph.ctxs.all (fun e => !loadWaits s e.1 || decide (loadSince s i ≤ loadSince s e.1))

/-- KEY_CACHE_LOAD: a pooled load for a queued request, in queue order and at most 128 in a tick; with no entry free or to be
evicted it waits. -/
def keyCacheLoad (s : State) (i : Nat) : State :=
  if !loadWaits s i || !loadFirst s i || s.kvl.erasing || !s.cph.enabled || decide (128 ≤ s.cph.loadsTick) then s
  else
    let load := fun (s : State) =>
      cacheFill (cphMod s (fun k => { k with loads := wrapInc k.loads, loadsTick := k.loadsTick + 1 })) i false
    if s.cph.cache.length < cacheSize then load s
    else
      match cacheVictim s with
      | none => s
      | some v => load (cacheDrop s v)

def execKeyCacheLoad (ctx : BitVec 18) (s : State) : Result := .next (keyCacheLoad s ctx.toNat)

def execCounterBlockAlloc (ctx : BitVec 18) (s : State) : Result := .next (blockAlloc s ctx.toNat)

/-! CIPHER_UNIT_FAIL (R403, R85): `ctx` is the context whose request the unit was processing. -/

/-- A request as it stood when it was queued, after a failure of unit `u` where one is named. -/
def requestAgain (r : CipherReq) (u : Option Nat) : CipherReq :=
  { r with retry := u.or r.retry, aesAt := [], gfAt := [], stop := 0 }

/-- The beat in which a unit gives the last result of a request: 32 beats after a block entered a core, 8 after an operation entered a
GF unit (R389, R390). -/
def unitLast (u : Nat) (r : CipherReq) : Option Nat :=
  if u < 128 then (r.aesAt.max?).map (· + 32) else (r.gfAt.max?).map (· + 8)

/-- A unit of that kind still works on the request in the present beat. -/
def unitHoldsReq (s : State) (u : Nat) (r : CipherReq) : Bool := (unitLast u r).any (fun b => decide (nowBeats s < b))

/-- The request of a context that a failed unit was processing: the first of which the unit has not given the last result. It gets
BUS_ERROR with RETRY and goes back to the head; those behind it go back unprocessed. -/
def requestReturn (s : State) (i u : Nat) : State :=
  let taken := (s.cph.outputs.filter (fun o => o.ctx == i && !o.retry && requestWhole o.req)).dropWhile (fun o => !unitHoldsReq s u o.req)
  match taken.map (·.req) ++ (ctxOf s i).queue with
  | [] => s
  | r :: rest =>
    if !unitHoldsReq s u r then s
    else
      let s := cphMod s (fun k => { k with outputs := k.outputs.filter (fun o => !taken.contains o) })
      let s := ctxMod s i (fun c => { c with queue := requestAgain r (some u) :: rest.map (requestAgain · none) })
      requestFail s i { r with stop := max r.stop (nowBeats s + 1) } 0 5 true

def cipherUnitFail (s : State) (u : Nat) (ctx : Option Nat) : State :=
  if s.cph.lost.contains u then s
  else
    let s := cphMod s (fun k => { k with lost := k.lost ++ [u] })
    let s := { s with sltCph := { s.sltCph with due := s.sltCph.due.filter (fun d => d.1 ≠ u) ++ [(u, .lost)] } }
    let s := raise s .cipherUnitFail 0x3C u
    match ctx with
    | none => s
    | some i => requestReturn s i u

def execCipherUnitFail (unit : Fin 192) (ctx : Option (BitVec 18)) (s : State) : Result :=
  .next (cipherUnitFail s unit.val (ctx.map (·.toNat)))

/-! The random service (R409-R411, R414). -/

/-- ENTROPY_STARTUP_DONE: the DRBG is instantiated; K0, and V0 when blank, are generated. -/
def entropyStartupDone (s : State) : State :=
  if rngReady s || s.kvl.erasing || !secReleased s then s
  else
    let took := now s - s.kvl.startTick
    let s := drbgSeed false (kvlMod s (fun k => { k with rng := .ready, startupTicks := satAdd 0#16 took }))
    let s := if thas s.kvl.vol 0 then s
      else
        let (k0, s) := drbg 32 s
        kvlMod s (fun k => { k with vol := tset k.vol 0 k0 })
    if thas s.kvl.vbat 0 then s
    else
      let (v0, s) := drbg 32 s
      kvlMod s (fun k => { k with vbat := tset k.vbat 0 v0 })

def execEntropyStartupDone (s : State) : Result := .next (entropyStartupDone s)

/-- ENTROPY_STARTUP: not READY 10,000 ticks after the tests began. -/
def entropyStartup (s : State) : State :=
  if rngReady s || !secReleased s || decide (now s < s.kvl.startTick + 10000) then s
  else raise (kvlMod s (fun k => { k with startTick := intervalStart s })) .entropyStartup 0x03 wholeUnit

def execEntropyStartup (s : State) : Result := .next (entropyStartup s)

/-- ENTROPY_HEALTH. -/
def entropyHealth (s : State) : State :=
  if !secReleased s then s
  else
    let s := kvlMod s (fun k =>
      { k with rng := .failed, healthFails := wrapInc k.healthFails, startTick := intervalStart s, calls := 0#21, drbgKey := [],
               drbgV := [] })
    raise s .entropyHealth 0x03 wholeUnit

def execEntropyHealth (s : State) : Result := .next (entropyHealth s)

def execDrbgReseed (s : State) : Result := .next (drbgReseed s)

/-- ZEROIZE_COMPLETE (R416): the vault is empty and every context's record is ERASED. -/
def zeroizeComplete (s : State) : State :=
  if !s.kvl.erasing then s
  else
    let s := kvlMod s (fun k =>
      { k with vol := [], vbat := [], erasing := false, erases := wrapInc k.erases, startTick := intervalStart s })
    cphMod s (fun k =>
      { k with
        ctxs := tmap k.ctxs (fun _ c => { c with state := .erased, key1 := [], key2 := [], queue := [] })
        unlisted := .erased, due := k.due.filter keylessDue })

def execZeroizeComplete (s : State) : Result := .next (zeroizeComplete s)

end Sys2Proof.Machine
end

