-- ==== Sys2Proof/Machine/AdminKeys.lean ====
section
/-!
DEFINITION. Admin commands on security contexts, the key vault and namespaces (R392-R396, R412-R415, R425, R426).
-/

namespace Sys2Proof

/-! Vault slots as commands name them (R414, R487). -/

/-- The slots that vault commands name: K1 to K16,383, and V1 to V63 as 0x8001 to 0x803F. -/
def vaultSlotOk (n : Nat) : Bool := (decide (1 ≤ n) && decide (n ≤ 16383)) || (decide (0x8001 ≤ n) && decide (n ≤ 0x803F))

/-- Import slots: of those, all but the pair wrap key V1. -/
def importSlotOk (n : Nat) : Bool := vaultSlotOk n && n != 0x8001

def vaultKey (k : Kvl) (n : Nat) : Option (List Byte) := if n < 0x8000 then tget k.vol n else tget k.vbat (n - 0x8000)

def vaultPut (k : Kvl) (n : Nat) (key : Option (List Byte)) : Kvl :=
  let f := fun (t : Tbl (List Byte)) (i : Nat) => match key with
    | some x => tset t i x
    | none => tdel t i
  if n < 0x8000 then { k with vol := f k.vol n } else { k with vbat := f k.vbat (n - 0x8000) }

/-! The fields of a creation (R393, R395). -/

def createFlags (b : List Byte) : Nat := leAt b 24 1

/-- OWNER: a channel, or a pool and cluster. -/
def ownerOk (pool : Bool) (o : Nat) : Bool := if pool then decide (o < 128) else decide (o ≤ 16777214)

/-- The unused bytes of KEY1 and KEY2 are 0. -/
def keysOk (flags : Nat) (keys : List Byte) : Bool :=
  (bitN flags 0 || (allZero (slice keys 16 16) && allZero (slice keys 48 16))) && (bitN flags 1 || allZero (slice keys 32 32))

/-- The context of a creation, with its keys. -/
def ctxCreated (b keys : List Byte) (epoch : W24) : Ctx :=
  let f := createFlags b
  let n := if bitN f 0 then 32 else 16
  { state := .active, key256 := bitN f 0, xts := bitN f 1, storage := bitN f 2, exportable := bitN f 3, ownerPool := bitN f 4,
    paired := bitN f 5, salt := b.getD 25 0#8, owner := BitVec.ofNat 32 (leAt b 26 4), epoch := epoch, ctrHwm := leAt b 32 8,
    saveSeq := 0#32, key1 := slice keys 0 n, key2 := if bitN f 1 then slice keys 32 n else [], queue := [] }

/-- The namespace entry of 64 bytes (R425), not yet ready. -/
def namespaceOf (d : List Byte) : Namespace :=
  let f := leAt d 6 1
  { Namespace.blank with
    fn := leAt d 0 2, nsid := leAt d 2 4, valid := bitN f 0, xts := bitN f 1, readOnly := bitN f 2, lba4k := bitN f 3,
    size := leAt d 8 8, target := leAt d 16 2, remoteNsid := BitVec.ofNat 32 (leAt d 20 4), remoteOffset := leAt d 24 8,
    context := leAt d 32 4, channel := leAt d 36 4, tweakBase := leAt d 40 8, nguid := BitVec.ofNat 128 (leAt d 48 16) }

/-- The ranges of an entry; one that is blank clears its place (DEDUCED, log entry 170). -/
def namespaceBytesOk (d : List Byte) : Bool :=
  let x := namespaceOf d
  allZero d
  || (decide (leAt d 6 1 < 16) && leAt d 7 1 == 0 && allZero (slice d 18 2)
      && (decide (x.fn < 1024) || x.fn == 0xFFFF) && decide (1 ≤ x.nsid) && decide (x.nsid ≤ 256) && decide (1 ≤ x.size)
      && decide (x.context < 262144) && (x.xts || x.context == 0) && decide (x.channel ≤ 16777214))

end Sys2Proof

namespace Sys2Proof.Machine

/-! Contexts as accepted changes leave them (R128, R392). -/

def ctxDueStep (i : Nat) (c : Ctx) : CtxDue → Ctx
  | .create j x => if j = i then x else c
  | .restore j x keep => if j = i then { x with ctrHwm := if keep then c.ctrHwm else x.ctrHwm } else c
  | .destroy j => if j = i then Ctx.empty else c
  | .save j _ _ _ => if j = i then { c with state := .saved, saveSeq := wrapInc c.saveSeq } else c

/-- A context after the changes that wait for the next boundary. -/
def ctxPlanned (s : State) (i : Nat) : Ctx := s.cph.due.foldl (ctxDueStep i) (ctxOf s i)

def ctxLater (s : State) (d : CtxDue) : State := cphMod s (fun k => { k with due := k.due ++ [d] })

/-- Context ids of a command. -/
def ctxId (b : List Byte) : Nat := leAt b 20 3
def ctxIdOk (b : List Byte) : Bool := decide (ctxId b < 262144)

/-- The proof of a context change (R126). -/
def ctxProof (s : State) : ProofResult := proofChange s (fun c => c) [0x0C, 0x0E]

/-! CONTEXT_CREATE. -/

def contextCreateOk (data b : List Byte) : Bool :=
  let src := leAt b 23 1
  let f := createFlags b
  ctxIdOk b && decide (src ≤ 2) && decide (f < 64) && ownerOk (bitN f 4) (leAt b 26 4) && decide (leAt b 32 8 ≤ 2 ^ 64 - 2 ^ 21)
  && (if src = 1 then importSlotOk (leAt b 30 2) else leAt b 30 2 == 0)
  && adminLen b == (match src with | 0 => 64 | 1 => 72 | _ => 0) && (src != 0 || keysOk f (adminData b data))

/-- The 64 bytes of keys of a CLEAR or WRAPPED creation; none where the unwrap fails. -/
def createKeys (s : State) (b data : List Byte) : Option (List Byte) :=
  if leAt b 23 1 = 1 then (vaultKey s.kvl (leAt b 30 2)).bind (fun k => kwUnwrap k (adminData b data)) else some (adminData b data)

/-- EXPORTABLE is allowed. -/
def exportAllowed (s : State) : Bool := s.rst.testMode && !s.rst.policyEff.getLsbD 2

def contextCreate (data : List Byte) (s : State) (b : List Byte) : AdminAnswer :=
  match createKeys s b data with
  | none => proofFail s 10
  | some keys =>
    let r := ctxProof s
    if (ctxPlanned s (ctxId b)).state ≠ .empty || (bitN (createFlags b) 3 && !exportAllowed s) then proofFail s 4
    else if r.status ≠ 0 then proofDone s r
    else if !thas s.kvl.vol 0 || s.kvl.erasing || (leAt b 23 1 == 2 && !rngReady s) then proofFail s 3
    else
      let (keys, s) := if leAt b 23 1 = 2 then drbg 64 s else (keys, s)
      proofDone (ctxLater s (.create (ctxId b) (ctxCreated b keys s.cph.bootEpoch))) r

def execContextCreate (ep : Fin 2) (entry data : List Byte) (s : State) : Result :=
  .next (adminRun s ep.val entry { op := 0x50, named := false, used := [(20, 20)], proofed := true } (contextCreateOk data)
    (contextCreate data))

/-! CONTEXT_DESTROY. -/

def contextDestroy (s : State) (b : List Byte) : AdminAnswer :=
  let r := ctxProof s
  if (ctxPlanned s (ctxId b)).state = .empty then proofFail s 4
  else if r.status ≠ 0 then proofDone s r
  else proofDone (ctxLater s (.destroy (ctxId b))) r

def execContextDestroy (ep : Fin 2) (entry _data : List Byte) (s : State) : Result :=
  .next (adminRun s ep.val entry { op := 0x51, named := false, used := [(20, 3)], proofed := true } ctxIdOk contextDestroy)

/-! CONTEXT_SAVE (R412). -/

/-- Requests of a context queued or in process. -/
def ctxBusy (s : State) (i : Nat) : Bool := !(ctxOf s i).queue.isEmpty || s.cph.outputs.any (fun o => o.ctx == i)

/-- The wrapping key of an image; none for the clear form, and none within where the slot is empty. -/
def imageKey (s : State) (wrap : Nat) : Option (Option (List Byte)) :=
  if wrap = 2 then none else some (tget s.kvl.vbat wrap)

/-- The status of a save that does not go ahead. -/
def saveRefusal (s : State) (c : Ctx) (i wrap : Nat) : Option Nat :=
  if c.state ≠ .active || (wrap == 2 && !(c.exportable && s.rst.testMode)) then some 4
  else if ctxBusy s i || imageKey s wrap == some none then some 3
  else none

def contextSave (ep : Nat) (s : State) (b : List Byte) : AdminAnswer :=
  let i := ctxId b
  match saveRefusal s (ctxPlanned s i) i (leAt b 23 1) with
  | some st => adminFail s st
  | none => adminLater (ctxLater s (.save i (leAt b 23 1) (adminAddr b) (adminWaiter ep b)))

/-- The save takes effect: SAVE_SEQ, SAVED, the blocks abandoned, and the image to the host. -/
def ctxSave (s : State) (i wrap addr : Nat) (w : Waiter) : State :=
  match saveRefusal s (ctxOf s i) i wrap, w with
  | some st, _ => answer s w (BitVec.ofNat 8 st) []
  | none, .admin ep _ =>
    let s := cacheDrop (ctxMod s i (fun c => { c with state := .saved, saveSeq := wrapInc c.saveSeq })) i
    let image := ctxImage i (ctxOf s i) wrap s.board.serial.toNat ((imageKey s wrap).bind id)
    answer (adminPut s ep image.length addr image) w 0#8 []
  | none, _ => s

def execContextSave (ep : Fin 2) (entry _data : List Byte) (s : State) : Result :=
  .next (adminRun s ep.val entry { op := 0x52, named := false, used := [(20, 4)], proofed := false }
    (fun b => ctxIdOk b && decide (leAt b 23 1 ≤ 2) && decide (136 ≤ adminLen b)) (contextSave ep.val))

/-! CONTEXT_RESTORE (R413). -/

/-- The header's reserved bits and its STATE. -/
def imageOk (img : List Byte) : Bool :=
  allZero [img.getD 7 0#8, img.getD 15 0#8] && decide (leAt img 4 1 < 64) && leAt img 3 1 == CtxState.saved.code

/-- The context that an image gives; none for AUTH_FAIL: a WRAP that names no key unwraps nothing (R413). -/
def imageCtx (s : State) (img : List Byte) : Option Ctx :=
  match leAt img 6 1 with
  | 0 | 1 => (tget s.kvl.vbat (leAt img 6 1)).bind (fun k => ctxOfImage img (some k))
  | 2 => ctxOfImage img none
  | _ => none

def contextRestore (data : List Byte) (s : State) (b : List Byte) : AdminAnswer :=
  let img := adminData b data
  let t := ctxPlanned s (ctxId b)
  match imageCtx s img with
  | none => adminFail s 10
  | some c =>
    if !imageOk img then adminFail s 1
    else if leAt img 6 1 = 2 ∧ !s.rst.testMode then adminFail s 4
    else if leAt img 28 4 = s.board.serial.toNat ∧ c.epoch = s.cph.bootEpoch then
      if t.state = .saved ∧ t.saveSeq = c.saveSeq then
        adminOk (ctxLater s (.restore (ctxId b) c true))
      else adminFail s 7
    else if t.state = .empty then
      adminOk (ctxLater s (.restore (ctxId b) { c with epoch := s.cph.bootEpoch, saveSeq := 0#32 } false))
    else adminFail s 4

def execContextRestore (ep : Fin 2) (entry data : List Byte) (s : State) : Result :=
  .next (adminRun s ep.val entry { op := 0x53, named := false, used := [(20, 3)], proofed := false }
    (fun b => ctxIdOk b && adminLen b == 136) (contextRestore data))

/-! Effects at the boundary (R392, R396, R528). -/

/-- The CONTEXT record of a change of a PAIRED context, wrapped under V1 where V1 holds a key (R415, R527). -/
def ctxDelta (s : State) (i : Nat) (c : Ctx) (destroy : Bool) : State :=
  match tget s.kvl.vbat 1 with
  | some k =>
    if !c.paired then s
    else deltaAdd s 0x08 (leBytes 4 i ++ leBytes 1 (if destroy then 1 else 0) ++ zeroBytes 3
      ++ ctxImage i c 1 s.board.serial.toNat (some k))
  | none => s

/-- A context becomes EMPTY: its requests complete ABORTED and its cache entry goes. -/
def ctxRemove (s : State) (i : Nat) : State :=
  let s := cacheDrop (requestsAbort s i) i
  ctxMod s i (fun _ => Ctx.empty)

/-- A context takes the place of what an id held. -/
def ctxPlace (s : State) (i : Nat) (c : Ctx) : State := ctxDelta (ctxMod s i (fun _ => c)) i c false

/-- One change takes effect. -/
def ctxEffect (s : State) (d : CtxDue) : State :=
  match d with
  | .create i c => ctxPlace s i c
  | .restore i c keep => ctxPlace s i { c with ctrHwm := if keep then (ctxOf s i).ctrHwm else c.ctrHwm }
  | .destroy i => ctxRemove (ctxDelta s i (ctxOf s i) true) i
  | .save i wrap addr w => ctxSave s i wrap addr w

/-- The context changes of a boundary. -/
def ctxBoundary (s : State) : State :=
  s.cph.due.foldl ctxEffect (cphMod s (fun k => { k with due := [] }))

/-! VAULT_LOAD, VAULT_CLEAR (R414). -/

/-- Key bytes of SIZE. -/
def vaultSize (b : List Byte) : Nat := if leAt b 23 1 = 1 then 32 else 16

def vaultLoadOk (b : List Byte) : Bool :=
  vaultSlotOk (leAt b 20 2) && decide (leAt b 22 1 ≤ 1) && decide (leAt b 23 1 ≤ 1)
  && (if leAt b 22 1 = 1 then importSlotOk (leAt b 24 2) && leAt b 24 2 != leAt b 20 2 else leAt b 24 2 == 0)
  && adminLen b == vaultSize b + (if leAt b 22 1 = 1 then 8 else 0)

def vaultLoad (data : List Byte) (s : State) (b : List Byte) : AdminAnswer :=
  let d := adminData b data
  match (if leAt b 22 1 = 1 then (vaultKey s.kvl (leAt b 24 2)).bind (fun k => kwUnwrap k d) else some d) with
  | none => adminFail s 10
  | some key => if s.kvl.erasing then adminFail s 3 else adminOk (kvlMod s (fun k => vaultPut k (leAt b 20 2) (some key)))

def execVaultLoad (ep : Fin 2) (entry data : List Byte) (s : State) : Result :=
  .next (adminRun s ep.val entry { op := 0x54, named := false, used := [(20, 6)], proofed := false } vaultLoadOk (vaultLoad data))

def execVaultClear (ep : Fin 2) (entry _data : List Byte) (s : State) : Result :=
  .next (adminRun s ep.val entry { op := 0x55, named := false, used := [(20, 2)], proofed := false }
    (fun b => vaultSlotOk (leAt b 20 2)) (fun s b => adminOk (kvlMod s (fun k => vaultPut k (leAt b 20 2) none))))

/-! NAMESPACE_SET (R425, R426). -/

/-- Namespaces with the changes that wait for the next boundary. -/
def namespacesPlanned (s : State) : Tbl Namespace := s.sto.nsDue.foldl (fun t d => tset t d.1 d.2.1) s.sto.namespaces

/-- What the entry names exists, and no other attached entry has its FUNCTION and NSID. -/
def namespaceFits (s : State) (i : Nat) (x : Namespace) : Bool :=
  s.sto.present
  && (!x.valid
      || (thas s.sto.targets x.target
          && (!x.xts || ((ctxPlanned s x.context).state != .empty && (s.que.offers.getD 2 0#256).getLsbD featXts))
          && (x.fn == 0xFFFF
              || !((namespacesPlanned s).any (fun e => e.1 != i && e.2.valid && e.2.fn == x.fn && e.2.nsid == x.nsid)))))

def namespaceSet (data : List Byte) (s : State) (b : List Byte) : AdminAnswer :=
  let x := namespaceOf (adminData b data)
  if namespaceFits s (leAt b 20 2) x then
    adminOk (stoMod s (fun t => { t with nsDue := t.nsDue ++ [(leAt b 20 2, x, .none_)] }))
  else adminFail s 4

def execNamespaceSet (ep : Fin 2) (entry data : List Byte) (s : State) : Result :=
  .next (adminRun s ep.val entry { op := 0x58, named := false, used := [(20, 2)], proofed := false }
    (fun b => decide (leAt b 20 2 < 16384) && adminLen b == 64 && namespaceBytesOk (adminData b data)) (namespaceSet data))

end Sys2Proof.Machine
end

