-- ==== Sys2Proof/Machine/Pipeline.lean ====
section
/-!
DEFINITION. The meanings of the slices' commands: header lanes with extraction and decision, flow-state access,
enqueue, emit admission, learning, the agers and the table scrub (R176-R249, R252-R258).
-/

namespace Sys2Proof.Machine

/-! Header lanes (R26, R176, R196, R202). -/

/-- The head that takes a header lane of slice `k` next: line arrivals first (R26). -/
def laneHead (s : State) (k : Nat) : Option Nat :=
  match tgetD s.crb.laneQ k [] with
  | id :: _ => some id
  | [] => (injectQueue s k).head?

/-- The head leaves the queue it waited in. -/
def laneTake (s : State) (k id : Nat) : State :=
  { s with crb := { s.crb with
      laneQ := tset s.crb.laneQ k ((tgetD s.crb.laneQ k []).filter (· ≠ id))
      injectQ := tset s.crb.injectQ k ((injectQueue s k).filter (· ≠ id)) } }

def prsMod (s : State) (k : Nat) (f : PrsSlice → PrsSlice) : State :=
  { s with prs := tmod PrsSlice.reset s.prs k f }

/-- A frame of the domain protocol on a domain link (R544). -/
def domainFrame (s : State) (p : Packet) : Bool :=
  p.origin == 0 && s.mir.pair.domainLinks.contains p.port && s.rst.options.device != 0#11 && s.mir.pair.domainId != 0#32
  && beAt p.bytes 0 6 == 0x030000009602 && beAt p.bytes 12 2 == 0x88B5

/-- The start entry of a packet (R176, R193). -/
def startEntry (s : State) (p : Packet) : StartEntry :=
  let blank : StartEntry := { profile := 0, fragDrop := false, fragClass := 0 }
  if p.origin = 0 then tgetD s.app.parse.portStart p.port blank
  else s.app.parse.injStart.getD p.startSel blank

/-- What the header lanes of a slice count of one parse (PRS_FLAG_COUNTS). -/
def countParse (s : State) (k : Nat) (r : Parsed) (control : Bool) : State :=
  prsMod s k (fun x =>
    { x with
      frags := if r.frag then wrapInc x.frags else x.frags
      depthWindow := if r.depthLimit || r.windowLimit then wrapInc x.depthWindow else x.depthWindow
      shortBad := if r.shortFrame || r.badLength then wrapInc x.shortBad else x.shortBad
      control := if control then wrapInc x.control else x.control })

/-- A meter used by a packet in slice `k` (R268, R283): the state after it, and the colour. -/
def useMeter (s : State) (k : Nat) (p : Packet) (m colourIn : Nat) : State × Nat :=
  let blank : Meter := { cir := 0#36, pir := 0#36, cbs := 0#32, pbs := 0#32, valid := false, colorAware := false,
                         packetMode := false, lenAdjust := 0#8, tc := 0, tp := 0, tLast := 0 }
  let (x, c) := meterUse (tgetD s.sch.meters m blank) (now s) (frameLen p) colourIn
  let s := if thas s.sch.meters m then { s with sch := { s.sch with meters := tset s.sch.meters m x } } else s
  (addPkt s (if m < 262144 then cMeter m c else cMeterAgg k c) p, c)

/-- Steps 10 and 11 (R214): the state after them, the colour, and whether the packet is red. -/
def meterSteps (s : State) (k : Nat) (p : Packet) : State × Nat × Bool :=
  let bum := (portCtl s.fwd p.port).bumMeter
  let (s, c, red) := if p.origin = 0 && dtypeOf p.dest = .flood && bum ≠ 0xFFFFF#20 then
      let (s, c) := useMeter s k p bum.toNat 0
      (s, c, c == 2)
    else (s, 3, false)
  match red, p.meter with
  | false, some m =>
    let (s, c) := useMeter s k p m (if c = 3 then 0 else c)
    (s, c, c == 2)
  | _, _ => (s, c, red)

/-! The order of a beat (R37, R257, R269). -/

/-- Where a packet stands among those that wait: by the beat in which it came, then by its slice, origin 0 before 1 and
2. -/
def turnOf (p : Packet) : Nat := p.since * 64 + p.owner * 2 + (if p.origin = 0 then 0 else 1)

def turnAt (s : State) (id : Nat) : Nat := ((pktOf s id).map turnOf).getD 0

/-- A packet takes its place in a queue of those that wait. -/
def turnInsert (s : State) (id : Nat) : List Nat → List Nat
  | [] => [id]
  | x :: xs => if turnAt s id < turnAt s x then id :: x :: xs else x :: turnInsert s id xs

/-- A packet's decision is made, and it waits for its meters and its enqueue. -/
def enqueueJoin (s : State) (id : Nat) : State :=
  let s := pktMod s id (fun p => { p with stage := .enqueue, since := nowBeats s })
  { s with crb := { s.crb with enqueueQ := turnInsert s id s.crb.enqueueQ } }

/-- A packet waits for its flow-state access. -/
def flowJoin (s : State) (id : Nat) : State :=
  let s := pktMod s id (fun p => { p with stage := .flow, since := nowBeats s })
  { s with crb := { s.crb with flowQ := turnInsert s id s.crb.flowQ } }

/-- The decision after step 9: the final destination, and the queue for the meters and the enqueue (R214, R215). -/
def decisionEnd (s : State) (id : Nat) (reason : DropReason) : State :=
  match pktOf s id with
  | none => s
  | some p =>
    match classOf s p with
    | none => dropPkt s id .parseDenied
    | some cls =>
      let k := p.owner
      let (r, bad) := finalDest s.fwd k cls { fwd := s.fwd, pkt := p, adds := [], dropReason := reason }
      let s := addAll (pktMod s id (fun _ => r.pkt)) r.adds
      match bad with
      | some why => dropPkt s id why
      | none => enqueueJoin s id

/-- The decision stages on a parsed packet (R214). -/
def decision (s : State) (id : Nat) (p : Packet) (cls : ClassEntry) : State :=
  let vt := match p.slot with
    | some i => (vslot s.dec i).tables
    | none => VTables.empty
  let (r, out) := decide_ s.fwd vt p.owner (nowBeats s) cls p
  let s := addAll (pktMod (learnKeep s r.fwd) id (fun _ => r.pkt)) r.adds
  match out with
  | .drop .parseDenied | .drop .ethertypeDenied =>
    dropPkt (pktMod s id (fun p => { p with tenant := none })) id (match out with | .drop w => w | _ => .parseDenied)
  | .drop why => dropPkt s id why
  | .control => s
  | .flow => flowJoin s id
  | .final => decisionEnd s id r.dropReason

/-- The parse of a head and the control-class match, with their counts (R176-R196). -/
def extract (s : State) (k id : Nat) (p : Packet) : State :=
  let start := startEntry s p
  let version := s.dec.current
  let r := parseHead s.app.parse start p.bytes
  let sel := if p.origin = 0 then 0 else p.startSel
  let kv := r.kv.set 0 (kvW0 (if p.origin = 0 then p.port else 0) p.origin version (frameLen p) start.profile sel)
  let control := s.app.control.any (fun c => ctlMatch c p.origin p.port { r with kv := kv })
  match s.app.parse.classes[r.cls]? with
  | none => dropPkt s id .parseDenied
  | some cls =>
    let kv := kvSetDisp kv control (if control then .control else cls.disposition)
    let p := { p with kv := kv, version := version, slot := some s.dec.currentSlot, cls := r.cls, control := control }
    let s := pktMod { s with dec := slotTake s.dec s.dec.currentSlot } id (fun _ => p)
    let s := countParse s k r control
    if r.frag && start.fragDrop then dropPkt (pktMod s id (fun p => { p with tenant := none })) id .fragPolicy
    else if control then
      let s := addPkt s (cUnit p.owner 8) p
      let s := if p.origin = 0 then addPkt s (cPort p.port 4) p else s
      controlHandOff (pktMod s id (fun p => { p with tenant := none })) id k
    else decision s id p cls

/-- HEADER_LANE_ENTRY. -/
def headerLaneEntry (s : State) (k : Nat) : State :=
  match laneHead s k with
  | none => s
  | some id =>
    match pktOf s id with
    | none => laneTake s k id
    | some p =>
      let s := prsMod (laneTake s k id) k (fun x => { x with headers := wrapInc x.headers })
      if domainFrame s p then dropPkt s id .consumed else extract s k id p

def execHeaderLaneEntry (slice : Fin 16) (s : State) : Result := .next (headerLaneEntry s slice.val)

/-! Flow-state access (R238, R239). -/

/-- The packet leaves the flow-state unit toward step 10. -/
def flowPass (s : State) (id : Nat) : State := decisionEnd s id .floodDenied

/-- The packet goes to its tenant's FLOW_CHANNEL. -/
def flowEngine (s : State) (id : Nat) (t : TenantEntry) : State :=
  decisionEnd (pktMod s id (fun p => { p with dest := BitVec.ofNat 32 (0x50000000 + t.flowChannel.toNat) })) id .policyDeny

/-- A refused insertion (R239): FLOW_FALLBACK. Only a packet that FALLBACK drops counts under the reason FLOW_INSERT_REFUSED, as R284
has it; refusals of every kind count in FWD_FLOW_REFUSED (DEDUCED, log entry 164). -/
def flowRefused (s : State) (id : Nat) (t : TenantEntry) : State :=
  match t.flowFallback.toNat with
  | 1 => dropPkt s id .flowInsertRefused
  | 2 => flowEngine s id t
  | _ => flowPass s id

/-- A miss (R239); `valid` says whether the entry holds another key. -/
def flowMissed (s : State) (id i : Nat) (key : List Byte × List Byte) (valid : Bool) (p : Packet) (t : TenantEntry) :
    State :=
  if t.flowMiss = 1#2 || p.flowNoInsert then flowPass s id
  else if t.flowMiss = 2#2 then dropPkt s id .flowMiss
  else if t.flowMiss = 3#2 then flowEngine s id t
  else if valid then
    flowRefused { s with fwd := { s.fwd with collisions := wrapInc s.fwd.collisions } } id t
  else if 3 ≤ s.hbmU.step then
    flowRefused { s with fwd := { s.fwd with shedRefusals := wrapInc s.fwd.shedRefusals } } id t
  else if s.mir.pressure then flowRefused s id t
  else
    let e := flowEntry key 5 destContinue (flowCount 0#64 (frameLen p)).1
    let s := flowValidAdj (flowDelta (flowWrite s i e) i false e) false true
    flowPass { s with fwd := { s.fwd with flowInserts := wrapInc s.fwd.flowInserts } } id

/-- A hit (R238, R290, R291). -/
def flowHitAt (s : State) (id i : Nat) (e : List Byte) (p : Packet) : State :=
  let old := flowCounters e
  let (new, wp, wb) := flowCount old (frameLen p)
  let s := flowWrite s i (patch (patch e 3 [BitVec.ofNat 8 (leAt e 3 1 ||| 4)]) 56 (leBytes 8 new.toNat))
  let s := if wp || wb then flowRecord s i e 0 old (putB wp 0 + putB wb 1) else s
  if flowDest e = destContinue then flowPass s id
  else if dtypeOf (flowDest e) = .drop then dropPkt s id .policyDeny
  else decisionEnd (pktMod s id (fun p => { p with dest := flowDest e })) id .policyDeny

/-- The access of one packet. An entry in a range that completes BUS_ERROR is handled as a collision. -/
def flowAccessOf (s : State) (id : Nat) (p : Packet) (cls : ClassEntry) (t : TenantEntry) : State :=
  let key := flowKeyBytes (p.tenant.getD 0) p.cls cls p.kv
  let i := flowIndex s.fwd.flowSeed key
  if !hbmAnswers s (i * 64) then flowMissed (addPkt s (cTable p.owner 6 2) p) id i key true p t
  else
    let e := flowRead s i
    if flowValid e && flowKeyOf e == key then flowHitAt (addPkt s (cTable p.owner 6 0) p) id i e p
    else flowMissed (addPkt s (cTable p.owner 6 (if flowValid e then 2 else 1)) p) id i key (flowValid e) p t

/-- The access of a packet that waits for the flow-state unit. -/
def flowTake (s : State) (id : Nat) : State :=
  let s := { s with crb := { s.crb with flowQ := s.crb.flowQ.filter (· ≠ id) } }
  match pktOf s id with
  | none => s
  | some p =>
    match classOf s p, p.tenant.bind (tget s.fwd.seen.tenants) with
    | some cls, some t => flowAccessOf s id p cls t
    | _, _ => dropPkt s id .tenantInvalid

/-- FLOW_STATE_ACCESS: the packet whose turn it is. -/
def flowStateAccess (s : State) : State :=
  match s.crb.flowQ with
  | [] => s
  | id :: _ => flowTake s id

/-- The flow-state entry that a packet would access. -/
def flowIndexOf (s : State) (id : Nat) : Option Nat :=
  (pktOf s id).bind (fun p => (classOf s p).map (fun cls =>
    flowIndex s.fwd.flowSeed (flowKeyBytes (p.tenant.getD 0) p.cls cls p.kv)))

/-- The accesses of the slices that wait for entry `i` go before an engine's access to it (R37). -/
def flowSettle (s : State) (i : Nat) : State :=
  (s.crb.flowQ.filter (fun id => flowIndexOf s id == some i)).foldl flowTake s

def execFlowStateAccess (s : State) : Result := .next (flowStateAccess s)

/-! Enqueue and emits. -/

/-- Steps 10 and 11 for a packet, and its way out of the decision stages: to an engine or to its queues. -/
def enqueueTake (s : State) (id : Nat) : State :=
  match pktOf s id with
  | none => s
  | some p =>
    let (s, colour, red) := meterSteps s p.owner p
    let s := pktMod s id (fun p => { p with colour := colour })
    if red then dropPkt s id .meterRed else deliver s id 0

/-- PACKET_ENQUEUE (R256): the packet whose turn it is. -/
def packetEnqueue (s : State) : State :=
  match s.crb.enqueueQ with
  | [] => s
  | id :: rest => enqueueTake { s with crb := { s.crb with enqueueQ := rest } } id

/-- The packets whose turn comes before `turn` are enqueued (R257). -/
def enqueueBefore (turn : Nat) : Nat → State → State
  | 0, s => s
  | n + 1, s =>
    match s.crb.enqueueQ with
    | [] => s
    | id :: _ => if turnAt s id < turn then enqueueBefore turn n (packetEnqueue s) else s

/-- A packet that an engine releases goes to its queues, after those whose turn in this beat is before its own. -/
def releaseDeliver (s : State) (id : Nat) : State :=
  let s := pktMod s id (fun p => { p with since := nowBeats s })
  deliver (enqueueBefore (turnAt s id) s.crb.enqueueQ.length s) id 2

def execPacketEnqueue (s : State) : Result := .next (packetEnqueue s)

/-- EMIT_ADMIT (R26, R252): the waiting frame whose turn it is. -/
def execEmitAdmit (s : State) : Result := .next (admitWaiting s)

/-! Learning and ageing (R224, R228, R240). -/

/-- The MAC entry of a key, if any. -/
def macEntryOf (f : Fwd) (bd : W16) (mac : W48) : Option MacEntry := (macFind f bd mac).bind (tget f.mac)

/-- LEARN_UNIT_PROCESS: one request, unless mirror backpressure holds it in its queue (R525); an install or a move is
mirrored. -/
def learnUnitProcess (s : State) : State :=
  if s.mir.pressure then s
  else
    match s.fwd.learnQ with
    | [] => s
    | r :: _ =>
      let before := macEntryOf s.fwd r.bd r.sa
      let s := learnKeep s (learnUnit s.fwd (now s))
      match macEntryOf s.fwd r.bd r.sa with
      | some e => if before = some e then s else tblDelta s false (.mac e)
      | none => s

def execLearnUnitProcess (s : State) : Result := .next (learnUnitProcess s)

/-- MAC_AGER_VISIT. -/
def macAgerStep (s : State) (place : Nat) : State := { s with fwd := macAgerVisit s.fwd place }

def execMacAgerVisit (place : Fin 1049600) (s : State) : Result := .next (macAgerStep s place.val)

/-- A removal that is due as the beat ends; it is mirrored as a deletion. -/
def macAgedEnd (s : State) (place : Nat) : State :=
  match tget s.fwd.mac place with
  | none => s
  | some e =>
    let s := learnKeep s (macAged s.fwd (now s) place)
    if thas s.fwd.mac place then s else tblDelta s true (.mac e)

/-- FLOW_AGER_VISIT. -/
def flowAgerStep (s : State) (i : Nat) : State :=
  let e := flowRead s i
  if s.fwd.flowAgePeriod = 0#16 || !hbmAnswers s (i * 64) || !flowValid e || flowPinned e then s
  else if flowHit e then flowWrite s i (patch e 3 [BitVec.ofNat 8 (leAt e 3 1 - 4)])
  else flowClose s i 1 (flowCounters e)

def execFlowAgerVisit (index : BitVec 27) (s : State) : Result := .next (flowAgerStep s index.toNat)

/-! The table scrub (R249). -/

/-- The entry at a place of a table is cleared in every version that holds it, for lookups from the next beat on (R29). LPM places
count the prefixes of the current version. -/
def tableClear (s : State) (table i : Nat) : State :=
  let slots := fun (w : VWrite) => { s with dec := { s.dec with clearsDue := s.dec.clearsDue ++ [w] } }
  let cur := currentTables s.dec
  match table with
  | 0 => { s with fwd := macWritePlace s.fwd i none }
  | 1 => { s with fwd := { s.fwd.keepOld with tenants := tadj s.fwd.tenants i (fun t => { t with valid := false }) } }
  | 2 => slots (.segment i none)
  | 3 => { s with fwd := { s.fwd.keepOld with adjacencies := tadj s.fwd.adjacencies i (fun a => { a with valid := false }) } }
  | 4 => match cur.ipv4[i]? with
    | some e => slots (.ipv4 e.1 none)
    | none => s
  | 5 => match cur.ipv6[i]? with
    | some e => slots (.ipv6 e.1 none)
    | none => s
  | 6 => slots (.ternary i none)
  | _ => s

/-- Replicas in use (R30). -/
def replicas (s : State) : Nat := if s.board.f256 then 2 else 4

/-- TABLE_SCRUB_VISIT. A pass over all replicas ends with the last ternary entry. -/
def tableScrubStep (s : State) (table i : Nat) (r : ScrubResult) : State :=
  let s := if table = 6 ∧ i = 262143 then { s with fwd := { s.fwd with passes := wrapInc s.fwd.passes } } else s
  if table = 7 then s
  else
    match r with
    | .good => s
    | .corrected q => if replicas s ≤ q.val then s else raise s .tableEcc (0x33 + q.val) table
    | .badReplica q =>
      if replicas s ≤ q.val then s
      else raise { s with fwd := { s.fwd with repairs := wrapInc s.fwd.repairs } } .tableEcc (0x33 + q.val) table
    | .badAll => raiseDetail (tableClear s table i) .tableEntryLost 0x33 table (table + i % 2 ^ 32 * 2 ^ 32)

def execTableScrubVisit (table : Fin 8) (index : BitVec 56) (result : ScrubResult) (s : State) : Result :=
  .next (tableScrubStep s table.val index.toNat result)

end Sys2Proof.Machine
end

