-- ==== Sys2Proof/Machine/Batches.lean ====
section
/-!
DEFINITION. The meanings of the engine array's commands: dispatch, release, overrun, faults, timers, landings, memory
errors, self-test end and the Supervisor's engine queue (R82, R83, R346-R362, R245).
-/

namespace Sys2Proof.Machine

/-! BATCH_DISPATCH (R71, R72, R76, R345, R346). -/

/-- Channels of a pool that are pending for a slot that begins at beat `first`, without a batch in flight. -/
def poolPending (s : State) (first pool : Nat) : List Nat :=
  (s.eng.channels.filter (fun e =>
    e.2.bind.pooled && e.2.bind.pool == pool && channelPending s first e.1 && !inFlight s e.1)).map (·.1)

/-- A thread may dispatch: its engine serves, is not stopped and is not copying (R85, R355). -/
def threadFree (s : State) (e t : Nat) : Bool :=
  (batchOf s e t).isNone && (engineOf s e).state == .inService && !engineStopped s e
  && decide ((engineOf s e).idleUntil ≤ now s)

/-- The control thread of a cluster runs on T7 of an engine, over slots 0 to 249 (R354). -/
def controlOf (s : State) (e t : Nat) : Option Nat :=
  if t = 7 then (s.eng.control.find? (fun x => x.2 == e)).map (fun x => controlChannel x.1) else none

/-- The slot of a row that starts at an issue slot. -/
def slotAt (s : State) (e t start : Nat) : Option W64 :=
  (s.sltEng.row (8 * e + t)).find? (fun w => entryKind w != 0 && entryStart w == start)

/-- A slot begins. -/
def slotBegin (s : State) (e t start : Nat) (w : W64) : State :=
  if entryDefer w && s.sltEng.shedDefer then s
  else if entryKind w = 1 then
    let ch := entryChannel w
    if channelPending s (slotFirst s t start) ch && !inFlight s ch then dispatch s e t start (entryLength w) false ch else s
  else if entryKind w = 2 then
    let pool := entryChannel w % 16
    match roundRobin (tget s.sltEng.poolLast pool) (poolPending s (slotFirst s t start) pool) with
    | none => s
    | some ch =>
      dispatch (sltEngMod s (fun x => { x with poolLast := tset x.poolLast pool ch })) e t start (entryLength w) true ch
  else s

/-- The issue slots up to `n` are taken up in this tick. -/
def slotsTake (s : State) (e t n : Nat) : State := threadMod s e t (fun x => { x with slotsUsed := n })

/-- A slot begins once in its tick, and not before the thread's earlier slots have ended (R65, R72). -/
def batchDispatch (s : State) (e t start : Nat) : State :=
  if !threadFree s e t || decide (start < (threadOf s e t).slotsUsed) then s
  else
    match controlOf s e t with
    | some ch =>
      if start = 0 ∧ channelPending s (slotFirst s t 0) ch ∧ !inFlight s ch then dispatch (slotsTake s e t 250) e t 0 250 false ch else s
    | none =>
      match slotAt s e t start with
      | none => s
      | some w => slotBegin (slotsTake s e t (start + entryLength w)) e t start w

def execBatchDispatch (e : Fin 96) (t : Fin 8) (start : Fin 250) (s : State) : Result :=
  .next (batchDispatch s e.val t.val start.val)

/-! BATCH_RELEASE, step by step (R82). -/

/-- Step 1: local and shared state, POOL_WINDOW to the pooled channel's record, and the arm (R350, R351). -/
def releaseState (s : State) (e t : Nat) (b : Batch) : State :=
  let s := b.localW.foldl (fun s w =>
    if 80 ≤ w.1 then areaSet s e t w.1 w.2
    else
      match channelOf s b.channel with
      | some c =>
        if c.bind.pooled && decide (w.1 - 16 < c.bind.stateWords) then stateSet s c.bind (w.1 - 16) w.2 else s
      | none => s) s
  let s := b.sharedW.foldl (fun s w => sharedSet s b.cluster w.1 w.2) s
  match b.arm with
  | some a => timerArm s e t b.channel a
  | none => s

/-- The CHANNEL record of a mirrored channel's commit (R527). -/
def channelDelta (s : State) (ch : Nat) : State :=
  match channelOf s ch with
  | some c =>
    if s.mir.pair.mirrored.contains ch then
      let ws := (List.range c.bind.stateWords).map (stateGet s c.bind)
      deltaAdd s 0x06 (leBytes 4 ch ++ leBytes 4 ws.length ++ ws.flatMap (fun w => leBytes 8 w.toNat))
    else s
  | none => s

/-- A TWR or HWR that cannot be applied (R377). -/
def writeFailed (s : State) (ch status : Nat) : State :=
  let s := { s with eng := { s.eng with writeFails := wrapInc s.eng.writeFails } }
  let id := min ch 0xFFFFFF
  raiseAt s .engineTableWrite 0x33 (BitVec.ofNat 32 id) FaultClass.engineTableWrite.row.level (id + status * 2 ^ 32)

/-- A result waits to land (R378). -/
def landingAdd (s : State) (x : Landing) : State := { s with eng := { s.eng with landings := s.eng.landings ++ [x] } }

/-- A cluster's engine HBM window holds 64 bytes at an address that is a multiple of 64. -/
def windowHolds (s : State) (c a : Nat) : Bool :=
  let k := clusterOf s c
  a % 64 == 0 && decide (k.hbmBase ≤ a) && decide (a + 64 ≤ k.hbmBase + k.hbmSize)

/-- A flow-state write of an engine: VALID cleared, or the entry replaced by the bytes as they are (R240, R291, R378). -/
def flowEngineWrite (s : State) (i : Nat) (clear : Bool) (bs : List Byte) : State :=
  if !hbmAnswers s (i * 64) then s
  else
    let old := flowRead s i
    if clear then (if flowValid old then flowClose s i 1 (flowCounters old) else s)
    else flowValidAdj (flowDelta (flowWrite s i bs) i false bs) (flowValid old) (flowValid bs)

/-- An HBM write of an engine; one into a mirrored window goes to the partner. -/
def hbmEngineWrite (s : State) (ch c a : Nat) (bs : List Byte) : State :=
  if !windowHolds s c a || !hbmRangeOk s a 64 then writeFailed s ch 5
  else
    let s := hbmPutBytes s a bs
    if s.mir.pair.windows.getLsbD c then deltaAdd s 0x0C (leBytes 8 a ++ bs) else s

/-- Step 2: one table, flow-state or HBM operation. -/
def releaseTable (s : State) (b : Batch) (x : TblEffect) : State :=
  match x with
  | .write table delete key bytes =>
    match tblRecOf table delete key bytes with
    | none => writeFailed s b.channel 1
    | some r =>
      match writeTables s delete [r] with
      | none => writeFailed s b.channel 6
      | some s => s
  | .flowRead .. | .flowWrite .. => { s with eng := { s.eng with flowDue := s.eng.flowDue ++ [(b.channel, x)] } }
  | .hbmRead a tag off =>
    landingAdd s { channel := b.channel, offset := off, tag := tag,
                   ok := windowHolds s b.cluster a && hbmRangeOk s a 64, bytes := hbmRead s a 64 }
  | .hbmWrite a bytes => hbmEngineWrite s b.channel b.cluster a bytes

/-- Step 3: the ledger adds, of the commit's tick: what belongs to the tick of a frozen cut, or to one before, adds to its
slot (R62, R82). -/
def releaseAdds (s : State) (b : Batch) : State :=
  let late := match s.ldg.running with
    | some r => decide (b.committed.getD 0 < r.freezeTick)
    | none => false
  (b.adds ++ b.lookups).foldl (fun s a =>
    { s with ldg := ldgAdd late s.ldg { idx := a.1, pkts := a.2.1, bytes := a.2.2 } }) s

/-- Step 4: the cipher submissions. -/
def releaseCiphers (s : State) (b : Batch) : State :=
  b.csubs.foldl (fun s x =>
    match channelOf s b.channel with
    | none => s
    | some c =>
      let kept := match x.pkt with
        | none => false
        | some id => b.packets.any (fun p => match p with | .keep q _ _ _ => q == id | _ => false)
      csubRelease s c.bind x kept) s

/-- Step 5: the sends; the first that fails is told in the next CTX (R347, R353). -/
def releaseSends (s : State) (b : Batch) : State :=
  b.sends.foldl (fun s x =>
    let (s, status) := sendRelease s b.channel x
    if status = 0 then s
    else channelMod s b.channel (fun c =>
      { c with sendFailed := min 255 (c.sendFailed + 1), failTag := if c.sendFailed = 0 then x.tag else c.failTag,
               failStatus := if c.sendFailed = 0 then status else c.failStatus })) s

/-- The staged writes of a packet take effect. -/
def packetWrite (s : State) (id : Nat) (bytes : List Byte) : State :=
  pktMod s id (fun p =>
    { p with bytes := bytes.take (bytes.length - 4), fcs := BitVec.ofNat 32 (leAt bytes (bytes.length - 4) 4) })

/-- A release to a destination word (R372). -/
def releasePkt (s : State) (id : Nat) (bytes : List Byte) (dest : W32) (es : List Edit) : State :=
  let s := packetWrite s id bytes
  match pktOf s id with
  | none => s
  | some p =>
    let p := { p with dest := dest, route := none, edits := if es.isEmpty then p.edits else es }
    match dtypeOf dest, classOf s p with
    | .drop, _ | .continue_, _ | .reserved, _ => dropPkt s id .policyDeny
    | _, none => dropPkt s id .parseDenied
    | _, some cls =>
      let (r, bad) := finalDest s.fwd p.owner cls { fwd := s.fwd, pkt := p, adds := [], dropReason := .policyDeny }
      let s := addAll (pktMod s id (fun _ => r.pkt)) r.adds
      match bad with
      | some why => dropPkt s id why
      | none => releaseDeliver s id

/-- Step 6: one packet effect. -/
def releaseEffect (s : State) (b : Batch) (x : PktEffect) : State :=
  match x with
  | .release id bytes dest es => releasePkt s id bytes dest es
  | .drop id code => dropPkt s id (programReason code)
  | .consumed id => dropPkt s id .consumed
  | .keep id bytes k _ =>
    let s := pktMod (packetWrite s id bytes) id (fun p => { p with stage := .kept b.channel k })
    channelMod s b.channel (fun c => { c with kept := tset c.kept k id })
  | .emit x =>
    let p := madePacket 2 x.startSel x.bytes
    inject s x.slice .emit { p with tenant := some x.tenant, edits := x.edits }

/-- A packet that the batch took from its kept index and disposed of is not kept there. -/
def releaseKept (s : State) (b : Batch) : State :=
  let gone := b.packets.filterMap (fun x => match x with
    | .release id _ _ _ => some id | .drop id _ => some id | .consumed id => some id | .keep id _ _ _ => some id
    | .emit _ => none)
  channelMod s b.channel (fun c => { c with kept := tfilter c.kept (fun _ id => !gone.contains id) })

def batchRelease (s : State) (e t : Nat) : State :=
  match batchOf s e t with
  | none => s
  | some b =>
    if b.committed.isNone then s
    else
      let s := batchPut s e t none
      let s := channelDelta (releaseState s e t b) b.channel
      let s := b.tables.foldl (fun s x => releaseTable s b x) s
      let s := releaseSends (releaseCiphers (releaseAdds s b) b) b
      let s := b.packets.foldl (fun s x => releaseEffect s b x) (releaseKept s b)
      { s with eng := { s.eng with emitFails := wrapAdd s.eng.emitFails b.emitFails } }

/-! The order of the releases, and the end of a tick (R62, R69, R341). -/

/-- Where the release of a thread's batch stands among those that wait: by the ENGC cycle of its commit, 8i + t of issue slot i
(R65), then by its engine. -/
def commitPlace (x : Nat × Thread) : Option (Nat × Nat) :=
  x.2.batch.bind (fun b => b.committed.map (fun _ => ((8 * b.slot + x.1 % 8) * 128 + x.1 / 8, x.1)))

def placeInsert (x : Nat × Nat) : List (Nat × Nat) → List (Nat × Nat)
  | [] => [x]
  | y :: ys => if x.1 < y.1 then x :: y :: ys else y :: placeInsert x ys

/-- The threads with a commit whose release has not landed, in the order of the commits. -/
def commitsWaiting (s : State) : List Nat :=
  ((s.eng.threads.filterMap commitPlace).foldl (fun l x => placeInsert x l) []).map (·.2)

/-- The releases of some threads land one after the other. -/
def releaseAll (s : State) (is : List Nat) : State := is.foldl (fun s i => batchRelease s (i / 8) (i % 8)) s

/-- Releases land in the order of their commit points (R341): those of earlier commits that wait land before this one. -/
def releaseInTurn (s : State) (e t : Nat) : State :=
  batchRelease (releaseAll s ((commitsWaiting s).takeWhile (fun i => i != 8 * e + t))) e t

def execBatchRelease (e : Fin 96) (t : Fin 8) (s : State) : Result :=
  .next (if (batchOf s e t).any (fun b => b.committed.isSome) then releaseInTurn s e.val t.val else s)

/-- Every release of a commit of the closing tick belongs to that tick, and lands before its event set closes (R62, R82; log
entry 122). -/
def releasesLand (s : State) : State := releaseAll s (commitsWaiting s)

/-- No slot spans the boundary: a batch that has not committed has reached the end of its slot (R69, R83). -/
def slotsEnd (s : State) : State :=
  (s.eng.threads.filter (fun x => x.2.batch.isSome)).foldl (fun s x =>
    batchDiscard (engineStop s (x.1 / 8) (x.1 % 8) 0x08 .slotOverrun 0) (x.1 / 8) (x.1 % 8)) s

/-! Faults (R83, R355). -/

/-- SLOT_OVERRUN: the slot has ended without a commit. -/
def slotOverrun (s : State) (e t : Nat) : State :=
  match batchOf s e t with
  | none => s
  | some b =>
    if b.committed.isSome || decide (b.slot < b.slotStart + b.slotLen) then s
    else engineStop s e t 0x08 .slotOverrun 0

def execSlotOverrun (e : Fin 96) (t : Fin 8) (s : State) : Result := .next (slotOverrun s e.val t.val)

/-- ENGINE_THREAD_FAULT: a fault that the hardware detects, of a cause of R356. -/
def execEngineThreadFault (e : Fin 96) (t : Fin 8) (cause : Byte) (s : State) : Result :=
  .next (if 1 ≤ cause.toNat ∧ cause.toNat ≤ 8 then threadFault s e.val t.val cause.toNat else s)

/-! The end of a copy (R85, R90, R352, R359, R360). -/

/-- Channels whose state records hold a word of a thread's PROGRAM_AREA. -/
def channelsAt (s : State) (e t word : Nat) : List Nat :=
  (s.eng.channels.filter (fun x =>
    let b := x.2.bind
    !b.pooled && channelEngine s b == e && b.thread == t && decide (b.stateAddr ≤ word)
    && decide (word < b.stateAddr + b.stateWords))).map (·.1)

/-- MIGRATION_COPY_END of engine `e`: with an uncorrectable word, the channels that hold it restart. The engine is FAILED, or its
test begins (R361). -/
def migrationCopyEnd (s : State) (e : Nat) (bad : Option (Nat × Nat)) : State :=
  let x := engineOf s e
  match x.copyEnd with
  | none => s
  | some n =>
    if now s < n || x.state ≠ .copySource then s
    else
      let s := match bad with
        | some (t, w) => (channelsAt s x.copyTo t w).foldl channelRestart s
        | none => s
      match s.eng.test with
      | some { engine := u, ends := none, waiter := w } =>
        if u = e then
          let s := engineMod s e (fun x => { x with state := .test, copyEnd := none })
          { s with eng := { s.eng with test := some { engine := e, ends := some (intervalStart s + 2000), waiter := w } } }
        else engineMod s e (fun x => { x with state := .failed, copyEnd := none })
      | _ => engineMod s e (fun x => { x with state := .failed, copyEnd := none })

def execMigrationCopyEnd (e : Fin 96) (bad : Option (Fin 8 × Fin 8192)) (s : State) : Result :=
  .next (migrationCopyEnd s e.val (bad.map (fun x => (x.1.val, x.2.val))))

/-! Timers (R351, R352). -/

/-- TIMER_FIRE, once the compare is reached and no copy holds the thread. -/
def timerFire (s : State) (e t : Nat) : State :=
  let x := threadOf s e t
  if !timerDue s x || decide (now s < (engineOf s e).idleUntil) then s
  else threadMod (channelWake s x.timerChannel false) e t (fun x => { x with timerArmed := false })

def execTimerFire (e : Fin 96) (t : Fin 8) (s : State) : Result := .next (timerFire s e.val t.val)

/-! HBM_RESULT_LANDING (R378): the oldest landing whose channel's slots are not idle for a copy. -/

/-- The 12 words of a result. -/
def landingWords (x : Landing) (bytes : List Byte) : List W48 :=
  (List.range 11).map (fun i => BitVec.ofNat 48 (leAt bytes (6 * i) (min 6 (64 - 6 * i))))
    ++ [pack 48 [put x.tag.toNat 0 16, put (if x.ok then 0 else 5) 16 8, putB true 24]]

def hbmResultLanding (s : State) : State :=
  match s.eng.landings.find? (fun x => !channelIdle s x.channel) with
  | none => s
  | some x =>
    let s := { s with eng := { s.eng with landings := s.eng.landings.erase x } }
    let (bytes, s) := if x.ok then (x.bytes, s) else freshBytes 64 s
    match channelOf s x.channel with
    | none => s
    | some c => stateSetAll s c.bind x.offset (landingWords x bytes)

def execHbmResultLanding (s : State) : Result := .next (hbmResultLanding s)

/-! Memory errors (R357, R358). -/

/-- SHARED_MEM_ERROR: batches that read the word, by LDS or in their POOL_WINDOW, are discarded, the word is lost, and a pooled channel whose record or
inbox holds it restarts at the next boundary. -/
def sharedMemError (s : State) (c word : Nat) : State :=
  let hit := s.eng.threads.filter (fun x =>
    (x.2.batch.map (fun b => b.cluster == c && b.read.contains word)).getD false)
  let s := hit.foldl (fun s x => batchDiscard s (x.1 / 8) (x.1 % 8)) s
  let s := clusterMod s c (fun k => { k with lost := word :: k.lost, shmemLost := wrapInc k.shmemLost })
  let owners := (s.eng.channels.filter (fun x =>
    let b := x.2.bind
    b.cluster == c && ((b.pooled && decide (b.stateAddr ≤ word) && decide (word < b.stateAddr + b.stateWords))
      || (decide (word < 65536) && b.inbox == some (word / 64))))).map (·.1)
  let s := { s with eng := { s.eng with restarts := s.eng.restarts ++ owners } }
  raise s .sharedMemLost (0xA0 + c) wholeUnit

def execSharedMemError (c : Fin 8) (word : Fin 1048576) (s : State) : Result := .next (sharedMemError s c.val word.val)

/-- IMEM_SCRUB: a corrected word is repaired in place. A word that is not corrected is bad until the Supervisor has
rewritten it, which it does at the next boundary. -/
def imemScrub (s : State) (c word : Nat) (corrected : Bool) : State :=
  if corrected || (clusterOf s c).imemBad.contains word then s
  else clusterMod s c (fun k => { k with imemBad := word :: k.imemBad })

/-- The Supervisor rewrites the bad words of every cluster. -/
def imemRewrite (s : State) : State :=
  { s with eng := { s.eng with clusters := tmap s.eng.clusters (fun _ k =>
      { k with imemBad := [], imemRepairs := wrapAdd k.imemRepairs k.imemBad.length }) } }

/-- The channels due restart, and lost words of the Recipe's tables come back from its image (R357). -/
def restartsDue (s : State) : State :=
  let s := s.eng.restarts.foldl (fun s ch =>
    channelMod (channelRestart s ch) ch (fun c =>
      { c with inbox := match c.bind.inbox with
          | some i => if (clusterOf s c.bind.cluster).lost.any (fun w => w / 64 == i) then [] else c.inbox
          | none => c.inbox })) s
  let owned := fun (c w : Nat) => s.eng.channels.any (fun x =>
    x.2.bind.cluster == c && x.2.bind.pooled && decide (x.2.bind.stateAddr ≤ w)
    && decide (w < x.2.bind.stateAddr + x.2.bind.stateWords))
  { s with eng := { s.eng with
      restarts := []
      clusters := tmap s.eng.clusters (fun c k =>
        { k with shared := k.lost.foldl (fun t w =>
                   if w < 65536 || owned c w then t else tput 0#48 t w (tgetD k.runs w 0#48)) k.shared,
                 lost := [] }) } }

def execImemScrub (c : Fin 8) (word : Fin 21845) (corrected : Bool) (s : State) : Result :=
  .next (imemScrub s c.val word.val corrected)

/-! Self-test (R361). -/

/-- ENGINE_SELFTEST_END, after the 2,000 ticks. -/
def engineSelftestEnd (s : State) (pass : Bool) : State :=
  match s.eng.test with
  | none => s
  | some x =>
    match x.ends with
    | none => s
    | some n =>
      if now s < n then s
      else
        let s := engineMod s x.engine (fun e => { e with state := if pass then .spare else .retired })
        let s := { s with eng := { s.eng with test := none, lastPass := pass, tests := wrapInc s.eng.tests } }
        let s := if pass then s else raise s .engineBistFail (0x40 + x.engine) wholeUnit
        answer s x.waiter (if pass then 0#8 else 5#8) []

def execEngineSelftestEnd (pass : Bool) (s : State) : Result := .next (engineSelftestEnd s pass)

end Sys2Proof.Machine
end

