-- ==== Sys2Proof/Machine/Timebase.lean ====
section
/-!
DEFINITION. The commands of "Timebase and Timestamps" and the latching registers of "The Tick" (R58, R77, R315,
R320-R329).
-/

namespace Sys2Proof.Machine

/-! Latches and captures. -/

/-- TMB_TICK_LO_READ (R58). -/
def tickLoRead (s : State) (r : Requester) : State :=
  let t := now s
  emit (tmbMod s (fun x => { x with tickHi := x.tickHi.set r (BitVec.ofNat 32 (t / 2 ^ 32)) }))
    (.regData r (BitVec.ofNat 64 (t % 2 ^ 32)))

def execTmbTickLoRead (r : Requester) (s : State) : Result := .next (tickLoRead s r)

/-- The slot tables in the order of their block number: CPH, ENG, QUE. -/
def slotTableOf (s : State) (n : Nat) : SlotTable := if n = 0 then s.sltCph else if n = 1 then s.sltEng else s.sltQue
def slotTableMod (s : State) (n : Nat) (f : SlotTable → SlotTable) : State :=
  if n = 0 then { s with sltCph := f s.sltCph } else if n = 1 then { s with sltEng := f s.sltEng }
  else { s with sltQue := f s.sltQue }

/-- SLT_ACT_LO_READ (R58, R77). -/
def actLoRead (s : State) (n : Nat) (r : Requester) : State :=
  let t := (slotTableOf s n).actTick.toNat
  emit (slotTableMod s n (fun x => { x with actHi := x.actHi.set r (BitVec.ofNat 32 (t / 2 ^ 32)) }))
    (.regData r (BitVec.ofNat 64 (t % 2 ^ 32)))

def execSltActLoRead (table : Fin 3) (r : Requester) (s : State) : Result := .next (actLoRead s table.val r)

/-- TMB_SNAP_GO: the time of the write. -/
def execTmbSnapGo (sub : Fin 32000) (s : State) : Result :=
  .next (tmbMod s (fun t => { t with snapTick := t.tick, snapSub := BitVec.ofNat 15 sub.val }))

/-- TMB_TOD_ARM: a write of TMB_TOD_NEXT (R329). -/
def todWrite (s : State) (v : W64) : State :=
  tmbMod s (fun t =>
    let t := { t with todSeconds := BitVec.ofNat 48 v.toNat }
    if v.getLsbD 48 then { t with todArmed := true, todTick := t.tick.toNat, todBeat := t.beat } else t)

def execTmbTodArm (v : W64) (s : State) : Result := .next (todWrite s v)

/-! Pins. -/

/-- PPS_IN_EDGE; `refTime`: REF_TIME carries a qualified 10 MHz, which is then the DCO's base. -/
def execPpsInEdge (sub : Fin 32000) (refTime : Bool) (s : State) : Result :=
  .next (sourceEdge (tmbMod s (fun t => { t with baseRefTime := refTime })) .refPps
    (edgeSteps s sub.val s.tmb.ppsInDelay) (now s * 1600 + sub.val / 20) refTime)

/-- TICK_IN_EDGE. -/
def execTickInEdge (sub : Fin 32000) (s : State) : Result :=
  .next (sourceEdge s .tickIn (edgeSteps s sub.val s.tmb.tickInDelay) (now s * 1600 + sub.val / 20) true)

/-- REF_TIME_LOSS: the base is REF_100 again, and REF_PPS is lost. -/
def execRefTimeLoss (s : State) : Result := .next (sourceLost (tmbMod s (fun t => { t with baseRefTime := false })) .refPps)

/-- The last edge of a source lies `n` SUB steps back. -/
def edgeOverdue (s : State) (x : TimeSource) (n : Nat) : Bool :=
  match (s.tmb.source x).lastEdge with
  | some l => decide (l + n ≤ now s * 32000 + s.tmb.beat * 20)
  | none => false

/-- PPS_IN_TIMEOUT: no edge within 1,000,001 ticks of the last. -/
def execPpsInTimeout (s : State) : Result :=
  .next (if edgeOverdue s .refPps (1000001 * 32000) then sourceLost s .refPps else s)

/-- TICK_IN_TIMEOUT: two consecutive edges missing. -/
def execTickInTimeout (s : State) : Result := .next (if edgeOverdue s .tickIn (2 * 32000) then sourceLost s .tickIn else s)

/-- PPS_OUT_FALL: the pulse has lasted PPS_WIDTH ticks (R328). -/
def execPpsOutFall (s : State) : Result :=
  .next (if s.tmb.ppsOut ∧ s.tmb.ppsRise + s.tmb.ppsWidth.toNat ≤ now s then tmbMod s (fun t => { t with ppsOut := false }) else s)

/-- TICK_OUT_FALL: half of the tick has passed. -/
def execTickOutFall (s : State) : Result :=
  .next (if 800 ≤ s.tmb.beat then tmbMod s (fun t => { t with tickOut := false }) else s)

/-- HOLDOVER_EXPIRED. -/
def execHoldoverExpired (s : State) : Result := .next (holdoverExpire s)

end Sys2Proof.Machine
end

