-- ==== Sys2Proof/Machine/AdminSlots.lean ====
section
/-!
DEFINITION. Admin commands on slot banks, demand, channels, queue minima and meters (R66-R75, R119, R126-R129, R270,
R342-R344, R353).
-/

namespace Sys2Proof

/-! Slot pages as bytes (R67, R107). -/

/-- A page: its rows in order, each with exactly its entries; words of zero are padding. -/
def pageOfBytes (t : Nat) (b : List Byte) : Tbl (List W64) :=
  (List.range (tableRows t)).filterMap (fun r =>
    let ws := ((List.range (tableEntries t)).map (fun i =>
      BitVec.ofNat 64 (leAt b ((r * tableEntries t + i) * 8) 8))).filter (fun w => w ≠ 0#64)
    if ws.isEmpty then none else some (r, ws))

def pageSize (t : Nat) : Nat := tableRows t * tableEntries t * 8

def bankOfBytes (t ringLog2 : Nat) (b : List Byte) : Bank :=
  { ringLog2 := ringLog2, pages := (List.range (2 ^ ringLog2)).map (fun i => pageOfBytes t (slice b (i * pageSize t) (pageSize t))) }

/-- Rows that a unit of a table has. -/
def rowsPerUnit (t : Nat) : Nat := if t = 1 then 8 else 1

/-! The DEMAND section as bytes (R119). -/

def demandEntryOf (b : List Byte) : DemandEntry :=
  let w := leAt b 0 4
  { channel := fieldN w 0 24, pool := fieldN w 24 4, table := fieldN w 28 2, pooled := bitN w 30, work := leAt b 4 2,
    gfWork := leAt b 6 2, maxPending := leAt b 8 2, latency := leAt b 12 4 }

def demandEntryOk (b : List Byte) : Bool :=
  let w := leAt b 0 4
  let e := demandEntryOf b
  !bitN w 31 && allZero (slice b 10 2) && decide (e.table ≤ 2) && (e.table == 0 || e.gfWork == 0)
  && (e.channel == poolHead || decide (e.channel ≤ tableLast e.table))

def demandOf (b : List Byte) : Demand :=
  { stateful := leAt b 0 4, mirrorOut := leAt b 4 4, mirrorIn := leAt b 8 4, storage := leAt b 12 4, hostHbm := leAt b 16 4,
    engineHbm := leAt b 20 4, spares := BitVec.ofNat 96 (leAt b 24 12),
    inject := (List.range 16).map (fun i => leAt b (40 + 2 * i) 2),
    entries := (List.range (leAt b 36 4)).map (fun i => demandEntryOf (slice b (80 + 16 * i) 16)) }

/-- The section's length, reserved bytes and entries. -/
def demandBytesOk (b : List Byte) : Bool :=
  b.length == 80 + 16 * leAt b 36 4 && allZero (slice b 72 8)
  && (List.range (leAt b 36 4)).all (fun i => demandEntryOk (slice b (80 + 16 * i) 16))

/-! Bindings as bytes (R342). -/

def bindingOf (b : List Byte) : Binding :=
  let p := leAt b 6 1
  let w := leAt b 12 4
  { channel := leAt b 0 3, program := leAt b 4 2, pooled := bitN p 0, cluster := fieldN p 1 3, pool := fieldN p 4 4,
    engine := fieldN (leAt b 7 1) 0 7, thread := fieldN (leAt b 8 1) 0 3,
    inbox := if leAt b 10 2 = 0x7FF then none else some (leAt b 10 2), stateAddr := fieldN w 0 20, stateWords := fieldN w 20 11 }

def bindingBytesOk (b : List Byte) : Bool :=
  leAt b 3 1 == 0 && decide (leAt b 7 1 < 128) && decide (leAt b 8 1 < 8) && leAt b 9 1 == 0 && decide (leAt b 10 2 < 2048)
  && decide (leAt b 12 4 < 2 ^ 31)

/-- Words of 8 bytes that hold 48-bit values. -/
def words48 (b : List Byte) (start n : Nat) : List W48 := (List.range n).map (fun i => BitVec.ofNat 48 (leAt b (start + 8 * i) 6))
def words48Ok (b : List Byte) (start n : Nat) : Bool := (List.range n).all (fun i => leAt b (start + 6 + 8 * i) 2 == 0)

end Sys2Proof

namespace Sys2Proof.Machine

/-! STAGE_SLOTS. -/

/-- The bank of a staging as it will serve: the migrations in force applied to it (R75). -/
def stagedBank (s : State) (b data : List Byte) : Bank :=
  let t := leAt b 20 1
  Bank.repoint (bankOfBytes t (leAt b 21 1) data) (rowsPerUnit t) (slotTableOf s t).moves

/-- The proof of a staging, whose rows agree with the bindings as they stood before migrations (R343): the running configuration with this bank only (R128). Check 0x06, rerun with the entries and the
counts of the load, always passes (R109), so it is not computed again. -/
def stageProof (s : State) (t : Nat) (k : Bank) : ProofResult :=
  let c := cfgOf s false
  let c := if t = 0 then { c with cph := k } else if t = 1 then { c with eng := k } else { c with que := k }
  if t = 1 ∧ !bindingRowsOk (Bank.atHome k 8 s.sltEng.moves) c.bindings then { refusal 0x01 1 0 0 0 with status := 1 }
  else proofRun c [0x01, 0x05, 0x07, 0x08, 0x09, 0x0A, 0x0B, 0x0C, 0x0D, 0x0E]

/-- A pending bank becomes current at the next boundary. -/
def slotsImminent (s : State) (t : Nat) : Bool := ((slotTableOf s t).pending.map (fun a => decide (a ≤ now s + 1))).getD false

def stageSlots (data : List Byte) (s : State) (b : List Byte) : AdminAnswer :=
  let t := leAt b 20 1
  let k := stagedBank s b (adminData b data)
  let r := stageProof s t k
  if r.status ≠ 0 then proofDone s r
  else if slotsImminent s t then adminDone s 9 (statusRecord 9 t)
  else
    let act := leAt b 24 8
    proofDone (slotTableMod s t (fun x =>
      let x := if x.active1 then { x with bank0 := k } else { x with bank1 := k }
      { x with pending := some act, actTick := BitVec.ofNat 64 act })) r

def stageSlotsOk (b : List Byte) : Bool :=
  decide (leAt b 20 1 ≤ 2) && decide (leAt b 21 1 ≤ 4) && adminLen b == 2 ^ leAt b 21 1 * pageSize (leAt b 20 1)

def execStageSlots (ep : Fin 2) (entry data : List Byte) (s : State) : Result :=
  .next (adminRun s ep.val entry { op := 0x10, named := false, used := [(20, 2), (24, 8)], proofed := true } stageSlotsOk
    (stageSlots data))

/-! SET_DEMAND. -/

def setDemand (data : List Byte) (s : State) (b : List Byte) : AdminAnswer :=
  let d := demandOf (adminData b data)
  if d.spares ≠ s.app.demand.spares then proofFail s 4
  else
    let r := proofChange s (fun c => { c with demand := d }) [0x0B, 0x0C, 0x0D, 0x0E, 0x0F, 0x10]
    if r.status ≠ 0 then proofDone s r else proofDone { s with app := { s.app with demandDue := some d } } r

def execSetDemand (ep : Fin 2) (entry data : List Byte) (s : State) : Result :=
  .next (adminRun s ep.val entry { op := 0x11, named := false, used := [], proofed := true }
    (fun b => demandBytesOk (adminData b data)) (setDemand data))

/-! BIND_CHANNEL, UNBIND_CHANNEL, SEND_TO_CHANNEL. -/

/-- Word count of a bind's DATA. -/
def bindWords (b : List Byte) : Nat := (adminLen b - 16) / 8

def bindOk (data b : List Byte) : Bool :=
  let d := adminData b data
  decide (16 ≤ adminLen b) && (adminLen b - 16) % 8 == 0 && decide (bindWords b ≤ 1024) && bindingBytesOk d
  && decide (bindWords b ≤ (bindingOf d).stateWords) && words48Ok d 16 (bindWords b)

/-- R343 for a binding beside those of other channels. -/
def bindFits (s : State) (x : Binding) : Bool :=
  let bs := (bindingsNow s).filter (fun y => y.channel ≠ x.channel)
  let c := cfgOf s false
  let rows := fun (k : Bank) => bindingRowsOk (Bank.atHome k 8 s.sltEng.moves) [x]
  bindingOk c.spares x && !(bs.any (bindingsMeet x)) && rows c.eng && rows (cfgOf s true).eng
  && decide ((bs.filter (fun y => y.cluster == x.cluster)).length < 65536)

/-- BIND_CHANNEL: the checks of R126, and SLOT_LENGTH with WORST_SLOTS recomputed, since the bind may make programs
remote-capable (R109, R387). -/
def bindChannel (data : List Byte) (s : State) (b : List Byte) : AdminAnswer :=
  let d := adminData b data
  let x := bindingOf d
  if !bindFits s x then proofDone s { refusal 0x01 1 x.channel 0 0 with status := 1 }
  else if (bindingsNow s).any (fun y => y.channel == x.channel) then proofFail s 4
  else
    let r := proofChange s (fun c => { c with bindings := c.bindings ++ [x] }) [0x07, 0x09, 0x0B, 0x0E]
    if r.status ≠ 0 then proofDone s r
    else proofDone { s with eng := { s.eng with binds := s.eng.binds ++ [(x, words48 d 16 (bindWords b))] } } r

def execBindChannel (ep : Fin 2) (entry data : List Byte) (s : State) : Result :=
  .next (adminRun s ep.val entry { op := 0x12, named := false, used := [], proofed := true } (bindOk data) (bindChannel data))

/-- A bind that has not taken effect is taken back; a bound channel is unbound at the next boundary. -/
def channelUnbind (s : State) (ch : Nat) : State :=
  if s.eng.binds.any (fun x => x.1.channel == ch) then
    { s with eng := { s.eng with binds := s.eng.binds.filter (fun x => x.1.channel ≠ ch) } }
  else { s with eng := { s.eng with unbinds := s.eng.unbinds ++ [ch] } }

def unbindChannel (s : State) (b : List Byte) : AdminAnswer :=
  let ch := leAt b 20 4
  if !((bindingsNow s).any (fun y => y.channel == ch)) then proofFail s 4
  else
    let r := proofChange s (fun c => { c with bindings := c.bindings.filter (fun y => y.channel ≠ ch) }) [0x09, 0x0B, 0x0E]
    if r.status ≠ 0 then proofDone s r else proofDone (channelUnbind s ch) r

def execUnbindChannel (ep : Fin 2) (entry _data : List Byte) (s : State) : Result :=
  .next (adminRun s ep.val entry { op := 0x13, named := false, used := [(20, 4)], proofed := true }
    (fun b => decide (leAt b 20 4 ≤ 16777214)) unbindChannel)

def sendToChannel (data : List Byte) (s : State) (b : List Byte) : AdminAnswer :=
  let (s, st) := sendChannel s 0xFFFFFF (leAt b 20 4) (BitVec.ofNat 16 (leAt b 24 2))
    (words48 (adminData b data) 0 (leAt b 26 1))
  adminFail s st

def sendToChannelOk (data b : List Byte) : Bool :=
  decide (leAt b 20 4 ≤ 16777214) && decide (leAt b 26 1 ≤ 6) && adminLen b == 8 * leAt b 26 1
  && words48Ok (adminData b data) 0 (leAt b 26 1)

def execSendToChannel (ep : Fin 2) (entry data : List Byte) (s : State) : Result :=
  .next (adminRun s ep.val entry { op := 0x14, named := false, used := [(20, 7)], proofed := false } (sendToChannelOk data)
    (sendToChannel data))

/-! SET_QUEUE_MIN, SET_METERS. -/

/-- A port of the port map. -/
def portMapped (s : State) (n : Nat) : Bool := s.app.portMap.any (fun p => p.port == n)

def setQueueMin (s : State) (b : List Byte) : AdminAnswer :=
  let q := leAt b 20 2
  if !portMapped s (q / 8) then proofFail s 4
  else
    let t := { s with sch := { s.sch with minDue := tset s.sch.minDue q (leAt b 24 2) } }
    let r := proofChange t (fun c => c) [0x11]
    if r.status ≠ 0 then proofDone s r else proofDone t r

def execSetQueueMin (ep : Fin 2) (entry _data : List Byte) (s : State) : Result :=
  .next (adminRun s ep.val entry { op := 0x15, named := false, used := [(20, 2), (24, 2)], proofed := true }
    (fun b => decide (leAt b 20 2 ≤ 4095)) setQueueMin)

/-- A meter loaded: its buckets start full (R269). -/
def meterLoaded (b : List Byte) : Meter :=
  let m := meterOfBytes b
  { m with tc := m.cbs.toNat * 4096, tp := m.pbs.toNat * 4096 }

def setMeters (data : List Byte) (s : State) (b : List Byte) : AdminAnswer :=
  let first := leAt b 20 4
  let n := leAt b 24 4
  if 1048576 < first + n then proofDone s (refusal 0x14 0xFF 0 (first + n) 1048576)
  else
    let due := (List.range n).foldl (fun t i => tset t (first + i) (meterLoaded (slice (adminData b data) (32 * i) 32))) s.sch.meterDue
    proofDone { s with sch := { s.sch with meterDue := due } } (proofChange s (fun c => c) [])

def setMetersOk (data b : List Byte) : Bool :=
  adminLen b == 32 * leAt b 24 4 && (List.range (leAt b 24 4)).all (fun i => meterOk (slice (adminData b data) (32 * i) 32))

def execSetMeters (ep : Fin 2) (entry data : List Byte) (s : State) : Result :=
  .next (adminRun s ep.val entry { op := 0x16, named := false, used := [(20, 8)], proofed := true } (setMetersOk data)
    (setMeters data))

end Sys2Proof.Machine
end

