-- ==== Sys2Proof/Machine/Ecdsa.lean ====
section
/-!
DEFINITION. Signature verification of R110 to R112: ECDSA with curve P-384 and SHA-384, as FIPS 186-5 and SP 800-186
define them.
-/

namespace Sys2Proof

/-- The field of the curve. -/
def p384 : Nat := 2 ^ 384 - 2 ^ 128 - 2 ^ 96 + 2 ^ 32 - 1
/-- The order of the base point. -/
def p384Order : Nat :=
  0xFFFFFFFFFFFFFFFFFFFFFFFFFFFFFFFFFFFFFFFFFFFFFFFFC7634D81F4372DDF581A0DB248B0A77AECEC196ACCC52973
def p384B : Nat :=
  0xB3312FA7E23EE7E4988E056BE3F82D19181D9C6EFE8141120314088F5013875AC656398D8A2ED19D2A85C8EDD3EC2AEF
def p384Gx : Nat :=
  0xAA87CA22BE8B05378EB1C71EF320AD746E1D3B628BA79B9859F741E082542A385502F25DBF55296C3A545E3872760AB7
def p384Gy : Nat :=
  0x3617DE4A96262C6F5D9E98BF9292DC29F8F41DBD289A147CE9DA3113B5F0B8C00A60B1CE1D7E819D7A431D7C90EA0E5F

/-- `b` to the power `e` modulo `m`, by the bits of `e`, of which it has at most `n`. -/
def powMod (m : Nat) : Nat → Nat → Nat → Nat
  | 0, _, _ => 1 % m
  | n + 1, b, e => let r := powMod m n (b * b % m) (e / 2); if e % 2 = 1 then b * r % m else r

/-- The inverse modulo a prime of 384 bits. -/
def invMod (m x : Nat) : Nat := powMod m 384 (x % m) (m - 2)

/-- A point in Jacobian coordinates: the point at infinity has Z = 0. -/
abbrev CurvePoint := Nat × Nat × Nat

def pointZero : CurvePoint := (1, 1, 0)

/-- The difference in the field. -/
def fieldSub (a b : Nat) : Nat := (a + p384 - b % p384) % p384

/-- Twice a point. -/
def pointDouble : CurvePoint → CurvePoint
  | (x, y, z) =>
    let delta := z * z % p384
    let gamma := y * y % p384
    let beta := x * gamma % p384
    let alpha := 3 * fieldSub x delta * (x + delta) % p384
    let x' := fieldSub (alpha * alpha % p384) (8 * beta)
    let z' := 2 * y * z % p384
    (x', fieldSub (alpha * fieldSub (4 * beta) x' % p384) (8 * gamma * gamma), z')

/-- The sum of two points. -/
def pointAdd : CurvePoint → CurvePoint → CurvePoint
  | (x1, y1, z1), (x2, y2, z2) =>
    if z1 = 0 then (x2, y2, z2)
    else if z2 = 0 then (x1, y1, z1)
    else
      let a1 := z1 * z1 % p384
      let a2 := z2 * z2 % p384
      let u1 := x1 * a2 % p384
      let s1 := y1 * z2 * a2 % p384
      let h := fieldSub (x2 * a1 % p384) u1
      let r := fieldSub (y2 * z1 * a1 % p384) s1
      if h = 0 then (if r = 0 then pointDouble (x1, y1, z1) else pointZero)
      else
        let hh := h * h % p384
        let hhh := h * hh % p384
        let v := u1 * hh % p384
        let x := fieldSub (r * r % p384) (hhh + 2 * v)
        (x, fieldSub (r * fieldSub v x % p384) (s1 * hhh), h * z1 * z2 % p384)

/-- `k` times a point, for a `k` of at most `n` bits. -/
def pointMul : Nat → Nat → CurvePoint → CurvePoint
  | 0, _, _ => pointZero
  | n + 1, k, q =>
    let r := pointMul n (k / 2) (pointDouble q)
    if k % 2 = 1 then pointAdd q r else r

/-- The affine x coordinate of a point that is not infinity. -/
def pointX : CurvePoint → Nat
  | (x, _, z) => let i := invMod p384 z; x * (i * i % p384) % p384

/-- The coordinates are a point of the curve. -/
def onCurve (x y : Nat) : Bool :=
  decide (x < p384) && decide (y < p384) && y * y % p384 == (x * x * x + (p384 - 3) * x + p384B) % p384

/-- The signature (r, s) of a message verifies under the public key (x, y). -/
def ecdsaVerify (x y r s : Nat) (message : List Byte) : Bool :=
  if !onCurve x y || r = 0 || p384Order ≤ r || s = 0 || p384Order ≤ s then false
  else
    let w := invMod p384Order s
    let u1 := (sha384 message).toNat * w % p384Order
    let u2 := r * w % p384Order
    let q := pointAdd (pointMul 384 u1 (p384Gx, p384Gy, 1)) (pointMul 384 u2 (x, y, 1))
    q.2.2 != 0 && pointX q % p384Order == r

/-! The signature block (R110). -/

/-- SIG_FORMAT, the first byte of PUBKEY and the reserved bytes of a block of 256 bytes. -/
def sigBlockOk (b : List Byte) : Bool :=
  leVal (slice b 0 2) == 1 && leVal (slice b 2 2) == 0 && slice b 4 1 == [4#8] && leVal (slice b 101 3) == 0
  && leVal (slice b 200 56) == 0

/-- PUBKEY, 97 bytes. -/
def sigPubkey (b : List Byte) : List Byte := slice b 4 97

/-- The block's signature of a message verifies. -/
def sigVerifies (b message : List Byte) : Bool :=
  ecdsaVerify (beVal (slice b 5 48)) (beVal (slice b 53 48)) (beVal (slice b 104 48)) (beVal (slice b 152 48)) message

end Sys2Proof
end

