-- ==== Sys2Proof/Machine/Image.lean ====
section
/-!
DEFINITION. The image of a Recipe as bytes (R104 to R111): its header, section table and signature block, with their
formats. The contents of the sections are read by the files beside this one.
-/

namespace Sys2Proof

/-- The last bytes of an image, which hold its signature block. -/
def sigBytes : Nat := 256

/-! The header (R104). -/

def headerOf (b : List Byte) : ImageHeader :=
  { sections := leAt b 6 2, size := leAt b 8 4, securityVersion := BitVec.ofNat 16 (leAt b 12 2)
    f256 := bitN (leAt b 14 2) 0, f512 := bitN (leAt b 14 2) 1, recipeId := BitVec.ofNat 32 (leAt b 16 4)
    requiredPolicy := BitVec.ofNat 4 (leAt b 20 4), keyIndex := leAt b 24 2, buildTick := BitVec.ofNat 64 (leAt b 28 8) }

/-- The header of a slot of `slot` bytes keeps R104. -/
def headerOk (slot : Nat) (b : List Byte) : Bool :=
  let h := headerOf b
  leAt b 0 4 == 0x96025A3C && leAt b 4 2 == 1
  && decide (1 ≤ h.sections) && decide (h.sections ≤ 1024)
  && h.size % 256 == 0 && decide (h.size ≤ 503316480) && decide (h.size ≤ slot)
  && decide (64 + 64 * h.sections + sigBytes ≤ h.size)
  && decide (leAt b 14 2 < 4) && decide (leAt b 20 4 < 16) && decide (h.keyIndex < 4)
  && allZero (slice b 26 2) && allZero (slice b 36 28)

/-! The section table (R105, R106). -/

/-- The table begins after the header. -/
def sectionAt (k : Nat) : Nat := 64 + 64 * k

def sectionOf (b : List Byte) : SectionEntry :=
  { type := leAt b 0 2, inst := leAt b 2 2, offset := leAt b 8 4, length := leAt b 12 4
    digest := BitVec.ofNat 384 (beAt b 16 48) }

/-- The entries of the table, from the bytes that follow the header. -/
def sectionsOf (n : Nat) (table : List Byte) : List SectionEntry :=
  (List.range n).map (fun k => sectionOf (slice table (64 * k) 64))

/-- Ascending OFFSET without overlap, from `lo` on and up to `hi`. -/
def sectionsPlaced (hi : Nat) : Nat → List SectionEntry → Bool
  | _, [] => true
  | lo, e :: es =>
    decide (lo ≤ e.offset) && e.offset % 256 == 0 && decide (1 ≤ e.length) && decide (e.offset + e.length ≤ hi)
    && sectionsPlaced hi (e.offset + e.length) es

/-- A type that may be ignored. -/
def sectionIgnorable (type : Nat) : Bool := decide (0x8000 ≤ type)

/-- The instances that a type's row of R106 allows: 6 tables, 8 clusters, and the one instance 0 of every other type. No type
outside the rows has any. -/
def sectionInstances (type : Nat) : Nat :=
  match type with
  | 0x0003 => 6
  | 0x0004 => 8
  | _ => if 1 ≤ type ∧ type ≤ 0x0010 then 1 else 0

/-- The types that every Recipe has. -/
def sectionsRequired (paired : Bool) : List Nat :=
  [0x0001, 0x0002, 0x0004, 0x0005, 0x0006, 0x0008, 0x0009, 0x000A, 0x000B, 0x000C, 0x000D] ++ (if paired then [0x000F] else [])

/-- No two entries share a type and an instance. -/
def sectionsDistinct : List SectionEntry → Bool
  | [] => true
  | e :: es => es.all (fun x => x.type != e.type || x.inst != e.inst) && sectionsDistinct es

/-- The types, their occurrences and their instances keep R106. -/
def sectionTypesOk (paired : Bool) (l : List SectionEntry) : Bool :=
  let known := l.filter (fun e => !sectionIgnorable e.type)
  known.all (fun e => decide (e.inst < sectionInstances e.type)) && sectionsDistinct known
  && (sectionsRequired paired).all (fun t => known.any (fun e => e.type == t))

/-- The table keeps R105 and R106. -/
def sectionTableOk (paired : Bool) (h : ImageHeader) (table : List Byte) : Bool :=
  let l := sectionsOf h.sections table
  (List.range h.sections).all (fun k => allZero (slice table (64 * k + 4) 4))
  && sectionsPlaced (h.size - sigBytes) (sectionAt h.sections) l && sectionTypesOk paired l

/-! The key and the signature (R110 to R112). -/

/-- The message that the owner signs (R111): the header and the section table. -/
def signedMessage (h : ImageHeader) (image : List Byte) : List Byte := slice image 0 (sectionAt h.sections)

/-- The owner's signature of an image whose signature block keeps R110, under the key entries of a board. -/
def ownerAccepted (keys : List OwnerKey) (accept : BitVec 4) (h : ImageHeader) (sig message : List Byte) : Bool :=
  accept.getLsbD h.keyIndex && keys[h.keyIndex]? == some (OwnerKey.programmed (sha384 (sigPubkey sig)))
  && sigVerifies sig message

/-- The SUPERVISOR_FW section (R108): a firmware image and its signature block, whose key has the hash that the boot ROM
holds. -/
def firmwareOk (olelon : BitVec 384) (b : List Byte) : Bool :=
  let n := b.length - sigBytes
  let sig := b.drop n
  decide (sigBytes ≤ b.length) && sigBlockOk sig && sha384 (sigPubkey sig) == olelon && sigVerifies sig (b.take n)

/-! The head of a section. -/

/-- A part of `n` records of `size` bytes. -/
def records (size n : Nat) (b : List Byte) : List (List Byte) := chunks size n b

end Sys2Proof
end

