-- ==== Sys2Proof/Machine/IsaAlu.lean ====
section
/-!
DEFINITION. The meanings of the arithmetic, immediate and bit-field instructions and of NOP, TIME and BEAT (R367,
R368).
-/

namespace Sys2Proof.Machine

/-- NOP. -/
def execNop (e : Fin 96) (t : Fin 8) (f : RR) (s : State) : Result :=
  .next (issue s e.val t.val (f.word 0x01) f.blank (cost 1) (fun b => .next s (fall b)))

/-- ADD. -/
def execAdd (e : Fin 96) (t : Fin 8) (f : RR) (s : State) : Result := .next (aluRR 0x10 .add e.val t.val f s)

/-- SUB. -/
def execSub (e : Fin 96) (t : Fin 8) (f : RR) (s : State) : Result := .next (aluRR 0x11 .sub e.val t.val f s)

/-- AND. -/
def execAnd (e : Fin 96) (t : Fin 8) (f : RR) (s : State) : Result := .next (aluRR 0x12 .and e.val t.val f s)

/-- OR. -/
def execOr (e : Fin 96) (t : Fin 8) (f : RR) (s : State) : Result := .next (aluRR 0x13 .or e.val t.val f s)

/-- XOR. -/
def execXor (e : Fin 96) (t : Fin 8) (f : RR) (s : State) : Result := .next (aluRR 0x14 .xor e.val t.val f s)

/-- ANDN. -/
def execAndn (e : Fin 96) (t : Fin 8) (f : RR) (s : State) : Result := .next (aluRR 0x15 .andn e.val t.val f s)

/-- SHL. -/
def execShl (e : Fin 96) (t : Fin 8) (f : RR) (s : State) : Result := .next (aluRR 0x16 .shl e.val t.val f s)

/-- SHR. -/
def execShr (e : Fin 96) (t : Fin 8) (f : RR) (s : State) : Result := .next (aluRR 0x17 .shr e.val t.val f s)

/-- SAR. -/
def execSar (e : Fin 96) (t : Fin 8) (f : RR) (s : State) : Result := .next (aluRR 0x18 .sar e.val t.val f s)

/-- MINU. -/
def execMinu (e : Fin 96) (t : Fin 8) (f : RR) (s : State) : Result := .next (aluRR 0x1A .minu e.val t.val f s)

/-- MAXU. -/
def execMaxu (e : Fin 96) (t : Fin 8) (f : RR) (s : State) : Result := .next (aluRR 0x1B .maxu e.val t.val f s)

/-- SEQ. -/
def execSeq (e : Fin 96) (t : Fin 8) (f : RR) (s : State) : Result := .next (aluRR 0x1C .seq e.val t.val f s)

/-- SLT. -/
def execSlt (e : Fin 96) (t : Fin 8) (f : RR) (s : State) : Result := .next (aluRR 0x1D .slt e.val t.val f s)

/-- SLTU. -/
def execSltu (e : Fin 96) (t : Fin 8) (f : RR) (s : State) : Result := .next (aluRR 0x1E .sltu e.val t.val f s)

/-- MUL: the low 48 bits of the product. -/
def execMul (e : Fin 96) (t : Fin 8) (f : RR) (s : State) : Result :=
  .next (issueReg s e.val t.val (f.word 0x19) f.full 2 f.rd.val (fun b => regGet b f.ra.val * regGet b f.rb.val))

/-- SEL. -/
def execSel (e : Fin 96) (t : Fin 8) (f : RR) (s : State) : Result :=
  .next (issueReg s e.val t.val (f.word 0x1F) f.full 1 f.rd.val
    (fun b => if regGet b f.rd.val ≠ 0#48 then regGet b f.ra.val else regGet b f.rb.val))

/-- ADDI. -/
def execAddi (e : Fin 96) (t : Fin 8) (f : RI) (s : State) : Result :=
  .next (aluRI 0x20 .add true e.val t.val f s)

/-- ANDI. -/
def execAndi (e : Fin 96) (t : Fin 8) (f : RI) (s : State) : Result :=
  .next (aluRI 0x21 .and false e.val t.val f s)

/-- ORI. -/
def execOri (e : Fin 96) (t : Fin 8) (f : RI) (s : State) : Result :=
  .next (aluRI 0x22 .or false e.val t.val f s)

/-- XORI. -/
def execXori (e : Fin 96) (t : Fin 8) (f : RI) (s : State) : Result :=
  .next (aluRI 0x23 .xor false e.val t.val f s)

/-- SHLI. -/
def execShli (e : Fin 96) (t : Fin 8) (f : RI) (s : State) : Result :=
  .next (aluRI 0x24 .shl false e.val t.val f s)

/-- SHRI. -/
def execShri (e : Fin 96) (t : Fin 8) (f : RI) (s : State) : Result :=
  .next (aluRI 0x25 .shr false e.val t.val f s)

/-- SARI. -/
def execSari (e : Fin 96) (t : Fin 8) (f : RI) (s : State) : Result :=
  .next (aluRI 0x26 .sar false e.val t.val f s)

/-- SEQI. -/
def execSeqi (e : Fin 96) (t : Fin 8) (f : RI) (s : State) : Result :=
  .next (aluRI 0x27 .seq false e.val t.val f s)

/-- SLTUI. -/
def execSltui (e : Fin 96) (t : Fin 8) (f : RI) (s : State) : Result :=
  .next (aluRI 0x28 .sltu false e.val t.val f s)

/-- MOVI: IMM as the mode's operand, RA 0. -/
def execMovi (e : Fin 96) (t : Fin 8) (f : RI) (s : State) : Result :=
  .next (issueReg s e.val t.val (f.word 0x29) (f.plain && f.ra == 0) 1 f.rd.val
    (fun b => halfOp f.h.val .or (regGet b f.rd.val) 0#48 (immOf f.h.val true f.imm)))

/-- POS and WIDTH of EXT and INS (R368). -/
def extPos (f : XF) : Nat := f.imm.toNat % 64
def extWidth (f : XF) : Nat := f.imm.toNat / 64 % 64
def extOk (f : XF) : Bool :=
  f.ok true true false 0xFFF && decide (1 ≤ extWidth f) && decide (extPos f + extWidth f ≤ 48)

/-- EXT. -/
def execExt (e : Fin 96) (t : Fin 8) (f : XF) (s : State) : Result :=
  .next (issueReg s e.val t.val (f.word 0x30) (extOk f) 1 f.rd.val
    (fun b => BitVec.ofNat 48 (fieldN (regGet b f.ra.val).toNat (extPos f) (extWidth f))))

/-- A field of a word replaced. -/
def insField (old : W48) (pos width v : Nat) : W48 :=
  let o := old.toNat
  BitVec.ofNat 48 (o % 2 ^ pos + v % 2 ^ width * 2 ^ pos + o / 2 ^ (pos + width) * 2 ^ (pos + width))

/-- INS. -/
def execIns (e : Fin 96) (t : Fin 8) (f : XF) (s : State) : Result :=
  .next (issueReg s e.val t.val (f.word 0x31) (extOk f) 1 f.rd.val
    (fun b => insField (regGet b f.rd.val) (extPos f) (extWidth f) (regGet b f.ra.val).toNat))

/-- Leading zeros: 48 less the place above the highest set bit. -/
def leadingZeros (x : W48) : Nat :=
  48 - (List.range 48).foldl (fun m i => if x.getLsbD i then i + 1 else m) 0

def popCount (x : W48) : Nat := ((List.range 48).filter (fun i => x.getLsbD i)).length

/-- CLZ. -/
def execClz (e : Fin 96) (t : Fin 8) (f : XF) (s : State) : Result :=
  .next (issueReg s e.val t.val (f.word 0x32) (f.ok true true false 0) 1 f.rd.val
    (fun b => BitVec.ofNat 48 (leadingZeros (regGet b f.ra.val))))

/-- POPC. -/
def execPopc (e : Fin 96) (t : Fin 8) (f : XF) (s : State) : Result :=
  .next (issueReg s e.val t.val (f.word 0x33) (f.ok true true false 0) 1 f.rd.val
    (fun b => BitVec.ofNat 48 (popCount (regGet b f.ra.val))))

/-- BSWAP. -/
def execBswap (e : Fin 96) (t : Fin 8) (f : XF) (s : State) : Result :=
  .next (issueReg s e.val t.val (f.word 0x34) (f.ok true true false 0) 1 f.rd.val
    (fun b => BitVec.ofNat 48 (beVal (leBytes 6 (regGet b f.ra.val).toNat))))

/-- HASH: the CRC of R100 continued from rd[31:0] over the 6 bytes of ra. -/
def execHash (e : Fin 96) (t : Fin 8) (f : XF) (s : State) : Result :=
  .next (issueReg s e.val t.val (f.word 0x35) (f.ok true true false 0) 2 f.rd.val
    (fun b => (crcFrom (BitVec.ofNat 32 (regGet b f.rd.val).toNat) (leBytes 6 (regGet b f.ra.val).toNat)).setWidth 48))

/-- TIME. -/
def execTime (e : Fin 96) (t : Fin 8) (f : XF) (s : State) : Result :=
  .next (issueReg s e.val t.val (f.word 0x75) (f.ok true false false 0) 1 f.rd.val (fun _ => BitVec.ofNat 48 (now s)))

/-- BEAT. -/
def execBeat (e : Fin 96) (t : Fin 8) (f : XF) (s : State) : Result :=
  .next (issueReg s e.val t.val (f.word 0x76) (f.ok true false false 0) 1 f.rd.val
    (fun b => BitVec.ofNat 48 (slotBeat t.val b.slot)))

end Sys2Proof.Machine
end

