-- ==== Sys2Proof/Machine/IsaTable.lean ====
section
/-!
DEFINITION. The meanings of the table, HBM, cipher, ledger, send and timer instructions (R376-R379).
-/

namespace Sys2Proof.Machine

/-! Lookups (R376). -/

/-- Registers of the key and of the result, by code. -/
def lkupRegs (code : Nat) : Nat × Nat :=
  match code with
  | 0 => (2, 3) | 1 => (1, 6) | 2 => (1, 1) | 3 => (1, 3) | 4 => (2, 1) | 5 => (4, 1) | _ => (11, 4)

/-- The entry's bytes, 6 per register, byte 0 in [7:0]. -/
def regsOfBytes (n : Nat) (bs : List Byte) : List W48 :=
  (List.range n).map (fun i => BitVec.ofNat 48 (leAt bs (6 * i) 6))

/-- A lookup: the result registers, and whether it hit. A miss, an entry whose VALID is clear among them, returns zeros. -/
def lkup (f : Fwd) (vt : VTables) (code : Nat) (key : List Nat) : List W48 × Bool :=
  let k := fun i => key.getD i 0
  match code with
  | 0 =>
    match (macFind f.seen (BitVec.ofNat 16 (k 1)) (BitVec.ofNat 48 (k 0))).bind (tget f.seen.mac) with
    | some e => (regsOfBytes 3 (macBytes e), true)
    | none => (List.replicate 3 0#48, false)
  | 1 =>
    let i := k 0 % 2 ^ 16
    match tget f.seen.tenants i with
    | some e =>
      if e.valid then (regsOfBytes 6 (tenantBytes e (tgetD vt.vrf i 0)), true) else (List.replicate 6 0#48, false)
    | none => (List.replicate 6 0#48, false)
  | 2 =>
    match tget vt.segment (k 0 % 2 ^ 24) with
    | some t => ([pack 48 [put t.toNat 0 16, putB true 16]], true)
    | none => ([0#48], false)
  | 3 =>
    match tget f.seen.adjacencies (k 0 % 2 ^ 17) with
    | some a => if a.valid then (regsOfBytes 3 (adjBytes a), true) else (List.replicate 3 0#48, false)
    | none => (List.replicate 3 0#48, false)
  | 4 =>
    match lpmBest 32 vt.ipv4 (k 0 % 2 ^ 12) (k 1 % 2 ^ 32) with
    | some (l, d) => ([pack 48 [put d.toNat 0 32, put l 32 6, putB true 38]], true)
    | none => ([0#48], false)
  | 5 =>
    match lpmBest 128 vt.ipv6 (k 0 % 2 ^ 12) (k 1 * 2 ^ 80 + k 2 * 2 ^ 32 + k 3 % 2 ^ 32) with
    | some (l, d) => ([pack 48 [put d.toNat 0 32, put l 32 8, putB true 40]], true)
    | none => ([0#48], false)
  | _ =>
    let words := BitVec.ofNat 480 (sumOf ((List.range 10).map (fun i => k i * 2 ^ (48 * i))))
    match ternLookup vt.ternary (k 10 % 2 ^ 16) (k 10 / 2 ^ 16 % 2 ^ 8) words with
    | some (i, e) =>
      ([pack 48 [put e.dest.toNat 0 32, putB true 32], BitVec.ofNat 48 e.meter.toNat,
        pack 48 [put e.copyDest.toNat 0 32, put (ternByte140 e) 32 8], BitVec.ofNat 48 i], true)
    | none => (List.replicate 4 0#48, false)

/-- The TABLE counter's table of a lookup, none for TENANT. -/
def lkupTable (code : Nat) : Option Nat :=
  match code with
  | 0 => some 0 | 2 => some 2 | 3 => some 7 | 4 => some 3 | 5 => some 4 | 6 => some 5 | _ => none

/-- The slice whose TABLE counters take the lookups of a cluster (R283). -/
def lkupSlice (s : State) (cluster : Nat) : Nat := if s.board.f256 then 4 * (cluster % 2) else 4 * (cluster % 4)

def lkupOk (f : XF) : Bool :=
  let code := f.imm.toNat % 16
  f.ok true true false 0x1F0F && decide (code < 7) && decide (f.ra.val + (lkupRegs code).1 ≤ 32)
  && decide (f.rd.val + (lkupRegs code).2 ≤ 32)

/-- LKUP. -/
def execLkup (e : Fin 96) (t : Fin 8) (f : XF) (s : State) : Result :=
  .next (issue s e.val t.val (f.word 0x60) (lkupOk f) (fun _ => if f.imm.toNat % 16 < 4 then 8 else 12) (fun b =>
    let code := f.imm.toNat % 16
    let byPkt := bitN f.imm.toNat 8
    let p? := (handleOf b (fieldN f.imm.toNat 9 4)).bind (fun h => pktOf s h.pkt)
    match p?, byPkt with
    | none, true => .fault 0x05
    | _, _ =>
      let version := if byPkt then (p?.map (·.version)).getD b.version else b.version
      let key := (List.range (lkupRegs code).1).map (fun i => (regGet b (f.ra.val + i)).toNat)
      let (out, hit) := lkup s.fwd (versionTables s.dec version) code key
      let len := if byPkt then (p?.map frameLen).getD 0 else 0
      let adds := match lkupTable code with
        | some k => [(cTable (lkupSlice s (e.val / 12)) k (if hit then 0 else 1), 1, len)]
        | none => []
      .next s (fall (regSetAll { b with lookups := b.lookups ++ adds } f.rd.val out))))

/-! Staged table, flow-state and HBM operations (R377, R378). -/

/-- One staged operation of the 16 of a batch. -/
def stageTable (s : State) (b : Batch) (x : TblEffect) : Issued :=
  if 16 ≤ b.tables.length then .fault 0x03 else .next s (fall { b with tables := b.tables ++ [x] })

def twrOk (f : XF) : Bool := f.ok false false false 0x3FFFF && decide (fieldN f.imm.toNat 13 4 < 7)

/-- TWR. -/
def execTwr (e : Fin 96) (t : Fin 8) (f : XF) (s : State) : Result :=
  .next (issue s e.val t.val (f.word 0x61) (twrOk f) (cost 1) (fun b =>
    let table := fieldN f.imm.toNat 13 4
    let n := entrySize table
    match localWords s e.val t.val b (fieldN f.imm.toNat 0 13) (1 + cdiv n 6) with
    | none => .fault 0x02
    | some ws =>
      stageTable s b (.write table (bitN f.imm.toNat 17) (ws.getD 0 0#48).toNat ((bytesUp (ws.drop 1)).take n))))

/-- FRD. -/
def execFrd (e : Fin 96) (t : Fin 8) (f : XF) (s : State) : Result :=
  .next (issue s e.val t.val (f.word 0x62) (f.ok false true true 0x3FF) (cost 1) (fun b =>
    stageTable s b (.flowRead ((regGet b f.ra.val).toNat % 2 ^ 27) (BitVec.ofNat 16 (regGet b f.rb.val).toNat)
      f.imm.toNat)))

/-- The 64 bytes of 11 words. -/
def lineOf (ws : List W48) : List Byte := (bytesUp ws).take 64

/-- FWR. -/
def execFwr (e : Fin 96) (t : Fin 8) (f : XF) (s : State) : Result :=
  .next (issue s e.val t.val (f.word 0x63) (f.ok false true false 0x3FFF) (cost 1) (fun b =>
    let i := (regGet b f.ra.val).toNat % 2 ^ 27
    if bitN f.imm.toNat 13 then stageTable s b (.flowWrite i true [])
    else
      match localWords s e.val t.val b (fieldN f.imm.toNat 0 13) 11 with
      | none => .fault 0x02
      | some ws => stageTable s b (.flowWrite i false (lineOf ws))))

/-- HRD. -/
def execHrd (e : Fin 96) (t : Fin 8) (f : XF) (s : State) : Result :=
  .next (issue s e.val t.val (f.word 0x64) (f.ok false true true 0x3FF) (cost 1) (fun b =>
    stageTable s b (.hbmRead (regGet b f.ra.val).toNat (BitVec.ofNat 16 (regGet b f.rb.val).toNat) f.imm.toNat)))

/-- HWR. -/
def execHwr (e : Fin 96) (t : Fin 8) (f : XF) (s : State) : Result :=
  .next (issue s e.val t.val (f.word 0x65) (f.ok false true false 0x1FFF) (cost 1) (fun b =>
    match localWords s e.val t.val b f.imm.toNat 11 with
    | none => .fault 0x02
    | some ws => stageTable s b (.hbmWrite (regGet b f.ra.val).toNat (lineOf ws))))

/-! Cipher, ledger, sends, inbox and timer (R379). -/

/-- The packet that a request's HANDLE names: the one in the handle, or the one last kept from it. -/
def requestPkt (b : Batch) (h : Nat) : Option Nat :=
  match handleOf b h with
  | some x => some x.pkt
  | none => b.packets.foldl (fun r x => match x with
    | .keep p _ _ i => if i = h then some p else r
    | _ => r) none

/-- CSUB: the request is read when it issues. -/
def execCsub (e : Fin 96) (t : Fin 8) (f : XF) (s : State) : Result :=
  .next (issue s e.val t.val (f.word 0x70) (f.ok false true false 0x1FFF) (cost 1) (fun b =>
    match localWords s e.val t.val b f.imm.toNat 28 with
    | none => .fault 0x02
    | some ws =>
      if 16 ≤ b.csubs.length then .fault 0x03
      else
        let w0 := (ws.getD 0 0#48).toNat
        let pkt := if bitN w0 7 then requestPkt b (fieldN w0 3 4) else none
        let x : CipherSubmit := { ctx := (regGet b f.ra.val).toNat % 2 ^ 18, words := ws, pkt := pkt }
        .next s (fall { b with csubs := b.csubs ++ [x] })))

/-- LADD. -/
def execLadd (e : Fin 96) (t : Fin 8) (f : XF) (s : State) : Result :=
  .next (issue s e.val t.val (f.word 0x71) (f.ok true true true 0) (cost 1) (fun b =>
    if 64 ≤ b.adds.length then .fault 0x03
    else
      .next s (fall { b with adds := b.adds ++
        [(cProgram ((regGet b f.ra.val).toNat % 2 ^ 17), (regGet b f.rb.val).toNat % 2 ^ 24,
          (regGet b f.rd.val).toNat % 2 ^ 40)] })))

def sendOk (f : XF) : Bool := f.ok false true true 0xFFFF && decide (fieldN f.imm.toNat 13 3 < 7)

/-- SEND. -/
def execSend (e : Fin 96) (t : Fin 8) (f : XF) (s : State) : Result :=
  .next (issue s e.val t.val (f.word 0x72) (sendOk f) (cost 1) (fun b =>
    match localWords s e.val t.val b (fieldN f.imm.toNat 0 13) (fieldN f.imm.toNat 13 3) with
    | none => .fault 0x02
    | some ws =>
      if 8 ≤ b.sends.length then .fault 0x03
      else
        let x : SendEffect := { target := (regGet b f.ra.val).toNat % 2 ^ 24,
                                tag := BitVec.ofNat 16 (regGet b f.rb.val).toNat, payload := ws }
        .next s (fall { b with sends := b.sends ++ [x] })))

/-- The address of the oldest inbox message that the batch has not taken, or all ones. -/
def msgAddr (s : State) (b : Batch) : Option Nat :=
  match channelOf s b.channel with
  | none => none
  | some c => if b.msgs < c.inbox.length then c.bind.inbox.map (fun i => i * 64 + 8 * b.msgs) else none

/-- MSGT. -/
def execMsgt (e : Fin 96) (t : Fin 8) (f : XF) (s : State) : Result :=
  .next (issue s e.val t.val (f.word 0x73) (f.ok true false false 0) (cost 1) (fun b =>
    match msgAddr s b with
    | none => .next s (fall (regSet b f.rd.val 0xFFFFFFFFFFFF#48))
    | some a => .next s (fall (regSet { b with msgs := b.msgs + 1 } f.rd.val (BitVec.ofNat 48 a)))))

/-- ARM: a beat above 1,599 is taken as 1,599. -/
def execArm (e : Fin 96) (t : Fin 8) (f : XF) (s : State) : Result :=
  .next (issue s e.val t.val (f.word 0x74) (f.ok false true true 0) (cost 1) (fun b =>
    if b.arm.isSome then .fault 0x03
    else
      let x : ArmEffect := { tick := regGet b f.ra.val, beat := min 1599 ((regGet b f.rb.val).toNat % 2 ^ 11) }
      .next s (fall { b with arm := some x })))

end Sys2Proof.Machine
end

