-- ==== Sys2Proof/Machine/ImageEngines.lean ====
section
/-!
DEFINITION. The ENGINE_PROGRAMS sections of a Recipe as bytes (R342, R385, R386), with the checks of load step 5 on programs
and sections (R365, R366, R381, R387).
-/

namespace Sys2Proof

/-! Instruction words (R365 to R367). -/

/-- An instruction word is defined, and its fields obey R365 and R366. -/
def wordLegal (w : W48) : Bool :=
  let rr := RR.of w
  let x := XF.of w
  let p := PF.of w
  let op := opOf w
  if op = 0x01 ∨ op = 0x8F then rr.blank
  else if op = 0x19 ∨ op = 0x1F then rr.full
  else if 0x10 ≤ op ∧ op ≤ 0x1E then rr.plain
  else if 0x20 ≤ op ∧ op ≤ 0x28 then (RI.of w).plain
  else if op = 0x29 then (RI.of w).plain && (RI.of w).ra == 0
  else if op = 0x30 ∨ op = 0x31 then Machine.extOk x
  else if 0x32 ≤ op ∧ op ≤ 0x35 then x.ok true true false 0
  else if 0x40 ≤ op ∧ op ≤ 0x43 then (MF.of w).ok
  else match op with
  | 0x50 => p.ok true false true 0
  | 0x51 => p.ok true false true 0x3F
  | 0x52 => p.ok true false true 0x3F
  | 0x53 => p.ok true true true 0x3FFF
  | 0x54 => p.ok true true true 0x1FFFF && decide (p.imm.toNat / 2 ^ 14 < 6)
  | 0x55 => p.ok true false true 0
  | 0x56 => p.ok false true true 0x3FFF
  | 0x57 => p.ok false false true 0xFF
  | 0x58 => p.ok false false false 0x1FFF
  | 0x60 => Machine.lkupOk x
  | 0x61 => Machine.twrOk x
  | 0x62 => x.ok false true true 0x3FF
  | 0x63 => x.ok false true false 0x3FFF
  | 0x64 => x.ok false true true 0x3FF
  | 0x65 => x.ok false true false 0x1FFF
  | 0x70 => x.ok false true false 0x1FFF
  | 0x71 => x.ok true true true 0
  | 0x72 => Machine.sendOk x
  | 0x73 => x.ok true false false 0
  | 0x74 => x.ok false true true 0
  | 0x75 => x.ok true false false 0
  | 0x76 => x.ok true false false 0
  | 0x80 => (BF.of w).ok && (BF.of w).ra == 0 && (BF.of w).rb == 0
  | 0x87 => (BF.of w).bitOk
  | 0x88 => (BF.of w).bitOk
  | 0x89 => (LF.of w).ok
  | 0x8A => x.ok false true false 0xFF
  | _ => if 0x81 ≤ op ∧ op ≤ 0x86 then (BF.of w).ok else false

/-! Programs (R381). -/

/-- The loop bodies of a program: the first and the last instruction of each. -/
def loopBodies (code : Nat → W48) (lo hi : Nat) : List (Nat × Nat) :=
  ((List.range (hi - lo)).map (lo + ·)).filterMap (fun i =>
    if opOf (code i) = 0x89 then some (i + 1, i + dispOf (code i)) else none)

def bodyHas (i : Nat) (b : Nat × Nat) : Bool := decide (b.1 ≤ i) && decide (i ≤ b.2)

/-- The innermost body that holds an instruction: the one that begins last. -/
def innermost (bodies : List (Nat × Nat)) (i : Nat) : Option (Nat × Nat) :=
  (bodies.filter (bodyHas i)).foldl (fun best b => match best with
    | some x => if x.1 < b.1 then some b else best
    | none => some b) none

/-- Rule 3: bodies lie in the program, nested at most four deep, and the body of a LOOP that stands in another's body lies wholly in
that one. -/
def bodiesOk (bodies : List (Nat × Nat)) (hi : Nat) : Bool :=
  bodies.all (fun b => decide (b.1 ≤ b.2) && decide (b.2 < hi) && decide ((bodies.filter (bodyHas b.1)).length ≤ 4)
    && bodies.all (fun c => !bodyHas (b.1 - 1) c || decide (b.2 ≤ c.2)))

/-- The targets of a branch or a jump. -/
def targetsOf (jt : Nat → List Nat) (w : W48) (i : Nat) : List Nat :=
  let op := opOf w
  if 0x80 ≤ op ∧ op ≤ 0x88 then [i + 1 + dispOf w] else if op = 0x8A then jt (w.toNat % 256) else []

/-- Rules 2, 4 and 5 for a target of the instruction at `i`. -/
def targetOk (bodies : List (Nat × Nat)) (lo hi i t : Nat) : Bool :=
  decide (lo ≤ t) && decide (i < t) && decide (t < hi)
  && (match innermost bodies i with
      | some b => innermost bodies t == some b || t == b.2 + 1
      | none => innermost bodies t == none)

/-- The limits of R350 on what a batch stages, by the opcodes that stage it. -/
def stageLimits : List (List Nat × Nat) :=
  [([0x50, 0x51], 16), ([0x58], 16), ([0x41], 512), ([0x43], 128), ([0x61, 0x62, 0x63, 0x64, 0x65], 16), ([0x71], 64),
   ([0x70], 16), ([0x72], 8), ([0x74], 1)]

/-- Rules 1 to 7 for the program `p` of an image. -/
def programOk (code : Nat → W48) (p : Program) : Bool :=
  let lo := p.entry
  let hi := p.entry + p.length
  let at_ := (List.range p.length).map (lo + ·)
  let bodies := loopBodies code lo hi
  let jt := fun k => (tgetD p.tables k []).map (lo + ·)
  at_.all (fun i => wordLegal (code i))
  && bodiesOk bodies hi
  && at_.all (fun i => (opOf (code i) != 0x8A || thas p.tables ((code i).toNat % 256))
      && (targetsOf jt (code i) i).all (targetOk bodies lo hi i))
  && opOf (code (hi - 1)) == 0x8F && at_.all (fun i => opOf (code i) != 0x8F || (innermost bodies i).isNone)
  && stageLimits.all (fun l => decide (pathMost code jt (fun w => if l.1.contains (opOf w) then 1 else 0) 5 lo hi ≤ l.2))

/-- Rule 8: the result areas of FRD and HRD lie in a state record of `words`. -/
def resultAreasOk (code : Nat → W48) (p : Program) (words : Nat) : Bool :=
  (List.range p.length).all (fun k =>
    let w := code (p.entry + k)
    (opOf w != 0x62 && opOf w != 0x64) || decide (w.toNat % 1024 + 12 ≤ words))

/-! The section (R385, R386). -/

/-- Words of 48 bits in 8 bytes each (R385), or none where bytes 6 and 7 are not zero. -/
def wordsOf (n : Nat) (b : List Byte) : Option (List W48) :=
  (records 8 n b).mapM (fun x => if leAt x 6 2 = 0 then some (BitVec.ofNat 48 (leAt x 0 6)) else none)

/-- Records of a head of 8 bytes and as many words as `count` reads from it; the records by their first field, and the bytes
after them. -/
def wordRecords (count : List Byte → Option (Nat × Nat)) : Nat → List Byte → Option (List (Nat × List W48) × List Byte)
  | 0, b => some ([], b)
  | n + 1, b => do
    if b.length < 8 then none
    let (key, k) ← count (b.take 8)
    if b.length < 8 + 8 * k then none
    let ws ← wordsOf k (b.drop 8)
    let (rs, rest) ← wordRecords count n (b.drop (8 + 8 * k))
    some ((key, ws) :: rs, rest)

/-- The head of a state record: CHANNEL and WORDS. -/
def stateHead (b : List Byte) : Option (Nat × Nat) :=
  if leAt b 3 1 == 0 && leAt b 6 2 == 0 && leAt b 4 2 != 0 then some (leAt b 0 3, leAt b 4 2) else none

/-- The head of a shared run: ADDR and COUNT. -/
def runHead (b : List Byte) : Option (Nat × Nat) :=
  if 65536 ≤ leAt b 0 4 ∧ leAt b 0 4 + leAt b 4 4 ≤ 1048576 then some (leAt b 0 4, leAt b 4 4) else none

/-- A directory entry: the program's id, its range, and the first and the number of its jump tables. -/
def directoryOf (b : List Byte) : Nat × Program × Nat × Nat :=
  (leAt b 0 2, { entry := leAt b 4 4, length := leAt b 8 4, tables := [] }, leAt b 12 2, leAt b 14 2)

/-- A directory entry's format and range (R386, R387). -/
def directoryOk (image jts : Nat) (b : List Byte) : Bool :=
  let (_, p, first, n) := directoryOf b
  leAt b 2 2 == 0 && decide (1 ≤ p.length) && decide (p.entry + p.length ≤ image) && decide (n ≤ 256) && decide (first + n ≤ jts)

/-- A jump table's format: reserved bytes, and unused entries 0. -/
def jumpTableOk (b : List Byte) : Bool :=
  let n := leAt b 3 1
  decide (1 ≤ n) && decide (n ≤ 64) && allZero (slice b 4 4) && allZero (slice b (8 + 2 * n) (128 - 2 * n))

def jumpTargets (b : List Byte) : List Nat := (List.range (leAt b 3 1)).map (fun i => leAt b (8 + 2 * i) 2)

/-- The tables that a directory entry covers, each naming the program and an index of its own below JT_TABLES, or none. -/
def programTables (id : Nat) (jts : List (List Byte)) : Option (Tbl (List Nat)) :=
  jts.foldlM (fun t b => if leAt b 0 2 = id ∧ leAt b 2 1 < jts.length ∧ !thas t (leAt b 2 1) then some (tset t (leAt b 2 1) (jumpTargets b)) else none) []

/-- The programs of a directory. -/
def programsOf (jts : List (List Byte)) : List (List Byte) → Option (Tbl Program)
  | [] => some []
  | b :: bs => do
    let (id, p, first, n) := directoryOf b
    let ts ← programTables id ((jts.drop first).take n)
    let rest ← programsOf jts bs
    if thas rest id || rest.any (fun x => overlapping p.entry p.length x.2.entry x.2.length) then none
    else some (tset rest id { p with tables := ts })

/-- Every jump table is covered by the directory entry of the program that it names (R387). -/
def tablesCovered (jts : List (List Byte)) (dir : List (List Byte)) : Bool :=
  jts.zipIdx.all (fun x => dir.any (fun d =>
    let (id, _, first, n) := directoryOf d
    leAt x.1 0 2 == id && decide (first ≤ x.2) && decide (x.2 < first + n)))

/-- The head keeps R385. -/
def engineHeadOk (inst : Nat) (b : List Byte) : Bool :=
  leAt b 0 2 == 1 && leAt b 2 1 == inst && leAt b 3 1 == 0 && decide (1 ≤ leAt b 4 2) && decide (leAt b 4 2 ≤ 1024)
  && decide (1 ≤ leAt b 8 4) && decide (leAt b 8 4 ≤ 65535) && decide (leAt b 12 4 ≤ 4096) && decide (leAt b 16 4 ≤ 65536)
  && leAt b 28 8 % 64 == 0 && leAt b 36 8 % 64 == 0 && allZero (slice b 44 20)

/-- A state record fits its channel's: an unbound channel has none, and the control thread 1,024 words (R354). -/
def stateFits (bs : List Binding) (x : Nat × List W48) : Bool :=
  if x.1 = 0xFFFFFF then decide (80 + x.2.length ≤ 8192)
  else bs.any (fun b => b.channel == x.1 && decide (x.2.length ≤ b.stateWords))

/-- One cluster's section, or none where it is malformed on its own (R387). -/
def engineSectionOf (inst : Nat) (b : List Byte) : Option ProgramSection :=
  let np := leAt b 4 2
  let ni := leAt b 8 4
  let nj := leAt b 12 4
  let nb := leAt b 16 4
  let dir := records 16 np (b.drop 64)
  let imageB := b.drop (64 + 16 * np)
  let jtB := imageB.drop (8 * ni)
  let jts := records 136 nj jtB
  let bindB := jtB.drop (136 * nj)
  let binds := records 16 nb bindB
  if !engineHeadOk inst b || decide (b.length < 64 + 16 * np + 8 * ni + 136 * nj + 16 * nb) then none
  else do
    let image ← wordsOf ni imageB
    let code := fun i => image.getD i 0#48
    if !(dir.all (directoryOk ni nj) && jts.all jumpTableOk && tablesCovered jts dir && binds.all bindingBytesOk) then none
    let programs ← programsOf jts dir
    let bs := binds.map bindingOf
    let (states, rest) ← wordRecords stateHead (leAt b 20 4) (bindB.drop (16 * nb))
    let (runs, rest) ← wordRecords runHead (leAt b 24 4) rest
    let control := leAt b 6 2
    if rest.isEmpty && thas programs control && programs.all (fun x => programOk code x.2)
        && bs.all (fun x => x.cluster == inst
          && (match tget programs x.program with | some p => resultAreasOk code p x.stateWords | none => true))
        && (match tget programs control with | some p => resultAreasOk code p 1024 | none => false)
        && states.all (stateFits bs) then
      some { cluster := inst, control := control, programs := programs, image := image, bindings := bs
             states := states.foldl (fun t x => tset t x.1 x.2) []
             runs := runs.foldl (fun t x => (x.2.zipIdx).foldl (fun t w => tset t (x.1 + w.2) w.1) t) []
             hbmBase := leAt b 28 8, hbmSize := leAt b 36 8 }
    else none

/-! The sections together (R387). -/

/-- A program's instructions and jump tables, as clusters compare them. -/
def programText (x : ProgramSection) (p : Program) : List W48 × Tbl (List Nat) := ((x.image.drop p.entry).take p.length, p.tables)

/-- One PROGRAM id is the same program in every cluster. -/
def programsAgree (l : List ProgramSection) : Bool :=
  l.all (fun x => l.all (fun y => x.programs.all (fun e => match tget y.programs e.1 with
    | some q => programText x e.2 == programText y q
    | none => true)))

end Sys2Proof
end

