-- ==== Sys2Proof/Machine/ImagePorts.lean ====
section
/-!
DEFINITION. The PORT_MAP, PARSE_PROFILES and CONTROL_CLASS sections of a Recipe as bytes, with the checks of load step 5
(R139, R140, R181, R182, R184, R192 to R194, R197, R198).
-/

namespace Sys2Proof

/-! PORT_MAP (R139 to R141). -/

def portEntryOf (b : List Byte) : PortMapEntry :=
  let f := leAt b 5 1
  { port := leAt b 0 2, lanes := leAt b 2 1, laneRate := leAt b 3 1, fec := leAt b 4 1, anEn := bitN f 0, ltEn := bitN f 1
    degradeAction := bitN f 2, adminUp := bitN f 3, maxFrame := leAt b 6 2, txStart := leAt b 8 1
    degradeSet := BitVec.ofNat 16 (leAt b 10 2), degradeClear := BitVec.ofNat 16 (leAt b 12 2)
    txInvert := BitVec.ofNat 8 (leAt b 16 1), rxInvert := BitVec.ofNat 8 (leAt b 17 1), txPreset := leAt b 18 1 }

def portEntryBytes (e : PortMapEntry) : List Byte :=
  leBytes 2 e.port ++ leBytes 1 e.lanes ++ leBytes 1 e.laneRate ++ leBytes 1 e.fec
    ++ leBytes 1 (putB e.anEn 0 + putB e.ltEn 1 + putB e.degradeAction 2 + putB e.adminUp 3) ++ leBytes 2 e.maxFrame
    ++ leBytes 1 e.txStart ++ [0#8] ++ leBytes 2 e.degradeSet.toNat ++ leBytes 2 e.degradeClear.toNat ++ zeroBytes 2
    ++ [e.txInvert, e.rxInvert] ++ leBytes 1 e.txPreset ++ zeroBytes 13

/-- The reserved bits of an entry. -/
def portReservedOk (b : List Byte) : Bool :=
  decide (leAt b 5 1 < 16) && leAt b 9 1 == 0 && leAt b 14 2 == 0 && allZero (slice b 19 13)

/-- PORT rises from entry to entry. -/
def portsRise : List PortMapEntry → Bool
  | a :: b :: l => decide (a.port < b.port) && portsRise (b :: l)
  | _ => true

/-- The section, or none where its head, its length, its order or a reserved bit breaks R139 or R140. -/
def portMapOf (b : List Byte) : Option (List PortMapEntry) :=
  let n := leAt b 0 2
  let rs := records 32 n (b.drop 16)
  let l := rs.map portEntryOf
  if decide (1 ≤ n) && decide (n ≤ 512) && leAt b 2 2 == 1 && allZero (slice b 4 12) && b.length == 16 + 32 * n
    && rs.all portReservedOk && portsRise l then some l else none

/-! PARSE_PROFILES (R184, R192, R193, R197, R198). -/

def startOf (b : List Byte) : StartEntry :=
  { profile := leAt b 0 1, fragDrop := bitN (leAt b 1 1) 0, fragClass := leAt b 2 1 }

def startReservedOk (b : List Byte) : Bool := decide (leAt b 1 1 < 2) && leAt b 3 1 == 0

/-- A start entry that the device may use names a profile and a class. -/
def startOk (profiles classes : Nat) (e : StartEntry) : Bool :=
  decide (e.profile < profiles) && decide (e.fragClass < classes)

def transActionOf (v : Nat) : TransAction :=
  match fieldN v 56 2 with
  | 1 => .next (fieldN v 48 8)
  | 2 => .end_ (fieldN v 48 8)
  | _ => .empty

/-- A transition entry's reserved bits, ACTION and target. -/
def transOk (profiles classes v : Nat) : Bool :=
  decide (v < 2 ^ 58) &&
    (match fieldN v 56 2 with
     | 0 => true
     | 1 => decide (fieldN v 48 8 < profiles)
     | 2 => decide (fieldN v 48 8 < classes)
     | _ => false)

def transOf (v : Nat) : Transition :=
  { value := BitVec.ofNat 24 v, mask := BitVec.ofNat 24 (v / 2 ^ 24), action := transActionOf v }

def fieldEntryOf (v : Nat) : FieldEntry :=
  { srcByte := fieldN v 0 8, srcBit := fieldN v 8 3, width := fieldN v 11 6, dstWord := fieldN v 17 6, dstLsb := fieldN v 23 6
    segment := bitN v 29 }

/-- R181. -/
def fieldEntryOk (v : Nat) : Bool :=
  let f := fieldEntryOf v
  decide (v < 2 ^ 30) && decide (1 ≤ f.width) && decide (f.width ≤ 48) && decide (8 ≤ f.dstWord)
  && decide (f.dstLsb + f.width ≤ 48)

def nhSelOf (v : Nat) : NhSel := { byte := fieldN v 0 8, bit := fieldN v 8 3, width := fieldN v 11 5 }

def profileKindOf : Nat → ProfileKind
  | 1 => .ipv4 | 2 => .ipv6 | 3 => .ipv6Ext | _ => .generic

def nhSelsOf (b : List Byte) : List NhSel := (List.range 3).map (fun i => nhSelOf (leAt b (12 + 2 * i) 2))

def profileOf (b : List Byte) : Profile :=
  { kind := profileKindOf (leAt b 1 1), lenMode := leAt b 4 1 == 1, lenBase := leAt b 5 1, lenOffset := leAt b 6 1
    lenShift := leAt b 7 1 % 8, lenMask := leAt b 8 1, lenScale := leAt b 9 1, lenMin := leAt b 10 1, mark := leAt b 11 1 % 8
    encap := bitN (leAt b 11 1) 3, nhSels := nhSelsOf b, miss := transActionOf (leAt b 24 8)
    fields := (List.range (leAt b 2 1)).map (fun i => fieldEntryOf (leAt b (32 + 8 * i) 8))
    transitions := (List.range (leAt b 3 1)).map (fun i => transOf (leAt b (160 + 8 * i) 8)) }

/-- Profile `i` keeps R184 and R198. -/
def profileOk (profiles classes i : Nat) (b : List Byte) : Bool :=
  let p := profileOf b
  leAt b 0 1 == i && decide (leAt b 1 1 < 4) && decide (leAt b 2 1 ≤ 16) && decide (leAt b 3 1 ≤ 64)
  && decide (leAt b 4 1 < 2) && (p.lenMode || decide (1 ≤ p.lenBase)) && decide (leAt b 7 1 < 8)
  && [1, 2, 4, 8].contains p.lenScale && decide (1 ≤ p.lenMin) && decide (p.mark < 6) && decide (leAt b 11 1 < 16)
  && p.nhSels.all (fun x => decide (x.width ≤ 24)) && decide (sumOf (p.nhSels.map (·.width)) ≤ 24)
  && allZero (slice b 18 6)
  && decide (leAt b 24 6 = 0) && p.miss != .empty && transOk profiles classes (leAt b 24 8)
  && (List.range p.fields.length).all (fun k => fieldEntryOk (leAt b (32 + 8 * k) 8))
  && allZero (slice b (32 + 8 * p.fields.length) (128 - 8 * p.fields.length))
  && (List.range p.transitions.length).all (fun k => transOk profiles classes (leAt b (160 + 8 * k) 8))
  && allZero (slice b (160 + 8 * p.transitions.length) (512 - 8 * p.transitions.length))

def dispositionOf : Nat → Disposition
  | 1 => .drop | 2 => .engine | _ => .lookup

def classEntryOf (b : List Byte) : ClassEntry :=
  let l := leAt b 2 2
  { disposition := dispositionOf (leAt b 0 1), macDa := bitN l 0, macSa := bitN l 1, segment := bitN l 2, ipv4Lpm := bitN l 3
    ipv6Lpm := bitN l 4, ternary := bitN l 5, flowState := bitN l 6, daWord := leAt b 4 1, saWord := leAt b 5 1
    l3Word := leAt b 6 1, ternBase := leAt b 7 1, ternWords := leAt b 8 1, flowBase := leAt b 9 1, flowWords := leAt b 10 1
    engineChannel := leAt b 12 3 }

/-- R192: reserved fields, ranges, and the words that the lookups read. A prefix of IPv4 has one word, of IPv6 three. -/
def classOk (b : List Byte) : Bool :=
  let c := classEntryOf b
  let words := fun (base n : Nat) => decide (base + n ≤ 64)
  decide (leAt b 0 1 < 3) && leAt b 1 1 == 0 && decide (leAt b 2 2 < 128) && leAt b 11 1 == 0 && leAt b 15 1 == 0
  && words c.daWord 1 && words c.saWord 1 && words c.l3Word (if c.ipv6Lpm then 3 else 1)
  && decide (c.ternWords ≤ 10) && words c.ternBase (max 1 c.ternWords) && decide (c.flowWords ≤ 8)
  && words c.flowBase (max 1 c.flowWords)
  && (!c.ternary || decide (1 ≤ c.ternWords)) && (!c.flowState || decide (1 ≤ c.flowWords))

/-- The section, or none where it is malformed (R198) but for the start entries of ports. -/
def parseSectionOf (b : List Byte) : Option ParseSection :=
  let p := leAt b 2 2
  let c := leAt b 4 2
  let starts := records 4 512 (slice b 64 2048)
  let injs := records 4 16 (slice b 2112 64)
  let profs := records 672 p (b.drop 2176)
  let classes := records 16 c (b.drop (2176 + 672 * p))
  if leAt b 0 2 == 1 && decide (1 ≤ p) && decide (p ≤ 256) && decide (1 ≤ c) && decide (c ≤ 256) && allZero (slice b 7 57)
    && b.length == 2176 + 672 * p + 16 * c && decide (leAt b 6 1 < c) && starts.all startReservedOk
    && injs.all (fun x => startReservedOk x && startOk p c (startOf x))
    && profs.zipIdx.all (fun x => profileOk p c x.2 x.1) && classes.all classOk then
    some { limitClass := leAt b 6 1
           portStart := (starts.zipIdx.filter (fun x => !allZero x.1)).map (fun x => (x.2, startOf x.1))
           injStart := injs.map startOf, profiles := profs.map profileOf, classes := classes.map classEntryOf }
  else none

/-- The start entries of ports (R193, R198): those of mapped ports name a profile and a class, the others are 0. -/
def portStartsOk (ports : List PortMapEntry) (x : ParseSection) : Bool :=
  let blank : StartEntry := { profile := 0, fragDrop := false, fragClass := 0 }
  ports.all (fun p => startOk x.profiles.length x.classes.length (tgetD x.portStart p.port blank))
  && x.portStart.all (fun e => ports.any (fun p => p.port == e.1))

/-! CONTROL_CLASS (R194). -/

def ctlTermOf (b : List Byte) : CtlTerm :=
  { word := leAt b 0 1, value := BitVec.ofNat 48 (leAt b 2 6), mask := BitVec.ofNat 48 (leAt b 8 6) }

def ctlRuleOf (b : List Byte) : CtlRule :=
  { portMask := BitVec.ofNat 512 (leAt b 0 64), line := bitN (leAt b 64 1) 0, host := bitN (leAt b 64 1) 1
    engine := bitN (leAt b 64 1) 2, terms := (List.range (leAt b 65 1)).map (fun i => ctlTermOf (slice b (80 + 16 * i) 16)) }

def ctlRuleOk (b : List Byte) : Bool :=
  let n := leAt b 65 1
  decide (leAt b 64 1 < 8) && decide (n ≤ 4) && allZero (slice b 66 14)
  && (List.range n).all (fun i =>
    decide (leAt b (80 + 16 * i) 1 < 64) && leAt b (81 + 16 * i) 1 == 0 && leAt b (94 + 16 * i) 2 == 0)
  && allZero (slice b (80 + 16 * n) (64 - 16 * n))

def controlSection (b : List Byte) : Option (List CtlRule) :=
  let n := leAt b 0 1
  let rs := records 144 n (b.drop 16)
  if decide (n ≤ 16) && leAt b 1 1 == 1 && allZero (slice b 2 14) && b.length == 16 + 144 * n && rs.all ctlRuleOk then
    some (rs.map ctlRuleOf) else none

end Sys2Proof
end

