-- ==== Sys2Proof/Machine/ImageTables.lean ====
section
/-!
DEFINITION. The TABLE_IMAGE sections of a Recipe as bytes (R246, R247), with the checks of load step 5 (R211, R248).
-/

namespace Sys2Proof

/-- Tables without an image (R247). -/
def TableImage.empty : TableImage :=
  { mac := [], seeds := [0#32, 0#32, 0#32, 0#32], agePeriod := 0#32, flowSeed := 0#32, flowAgePeriod := 0#16, tenants := []
    adjacencies := [], vtables := VTables.empty, ports := [], etypeLists := [], aggregates := [], floodGroups := [] }

/-- The capacity that bounds COUNT (R36, R221). -/
def tableCapacity (inst : Nat) : Nat :=
  match inst with
  | 0 => 1049600 | 1 => 65536 | 2 => 262144 | 3 => 2097152 | 4 => 1179648 | _ => 262144

/-- The table code (R376) of an instance's main entries. -/
def instanceTable (inst : Nat) : Nat := match inst with | 0 => 0 | 1 => 1 | 2 => 2 | 3 => 4 | 4 => 5 | _ => 6

/-- Where the main entries of an instance begin. -/
def tableEntriesAt (inst : Nat) : Nat := if inst = 0 then 282656 else 64

/-- The head keeps R246: FORMAT, INSTANCE, the capacities, the periods of R228 and R240, and zeros in the fields that the instance
does not use. -/
def tableHeadOk (inst : Nat) (b : List Byte) : Bool :=
  let zero := fun (on : Bool) (start n : Nat) => on || allZero (slice b start n)
  leAt b 0 2 == 1 && leAt b 2 2 == inst && decide (leAt b 4 4 ≤ tableCapacity inst)
  && (if inst = 1 then decide (leAt b 8 4 ≤ 131072) else leAt b 8 4 == 0)
  && allZero (slice b 12 4) && zero (inst == 0) 16 20 && zero (inst == 1) 36 6 && allZero (slice b 42 22)
  && (leAt b 32 4 == 0 || decide (1000000 ≤ leAt b 32 4)) && leAt b 40 2 != 1

/-- The section's length is that of its parts. -/
def tableLengthOk (inst : Nat) (b : List Byte) : Bool :=
  b.length == tableEntriesAt inst + entrySize (instanceTable inst) * leAt b 4 4 + 16 * leAt b 8 4

/-- Entries of one table, index 0 first, or none where one is malformed. -/
def tableRecs (table n : Nat) (b : List Byte) : Option (List TblRec) :=
  ((records (entrySize table) n b).zipIdx).mapM (fun x => tblRecOf table false (if table = 1 ∨ table = 3 then x.2 else 0) x.1)

/-! Instance 0: ports, lists and groups (R247). -/

def portControlOf (b : List Byte) : PortControl :=
  let f := leAt b 4 1
  { PortControl.blank with
    defaultTenant := BitVec.ofNat 16 (leAt b 0 2), learnLimit := BitVec.ofNat 16 (leAt b 2 2), limitAction := bitN f 0
    unknownSaDrop := bitN f 1, segmentMiss := bitN f 2, moveDeny := bitN f 3, etypeList := leAt b 5 1, etypeWord := leAt b 6 1
    bumMeter := BitVec.ofNat 20 (leAt b 8 4) }

/-- Reserved bits and ranges; ETYPE_WORD counts where a list is named. -/
def portControlOk (b : List Byte) : Bool :=
  decide (leAt b 4 1 < 16) && decide (leAt b 5 1 < 64) && decide (leAt b 6 1 < 64)
  && (leAt b 5 1 == 0 || decide (8 ≤ leAt b 6 1)) && leAt b 7 1 == 0 && decide (leAt b 8 4 < 2 ^ 20) && allZero (slice b 12 4)

/-- The values of an EtherType list; 0 is unused. -/
def etypeListOf (b : List Byte) : List W16 :=
  ((List.range 16).map (fun i => BitVec.ofNat 16 (leAt b (2 * i) 2))).filter (fun v => v != 0#16)

def aggregateOf (b : List Byte) : List AggMember :=
  (List.range (leAt b 0 1)).map (fun i => { port := leAt b (8 + 2 * i) 2 % 1024, remote := bitN (leAt b (8 + 2 * i) 2) 15 })

def aggregateOk (b : List Byte) : Bool :=
  decide (leAt b 0 1 ≤ 16) && allZero (slice b 1 7) && (List.range 16).all (fun i => leAt b (8 + 2 * i) 2 / 1024 % 32 == 0)

/-- The records of a part that are not all zero, by their index from `first` on. -/
def listed {α : Type} (first : Nat) (f : List Byte → α) (l : List (List Byte)) : Tbl α :=
  (l.zipIdx.filter (fun x => !allZero x.1)).map (fun x => (first + x.2, f x.1))

/-- What instance 0 holds before its MAC entries. -/
def tablePortParts (t : TableImage) (b : List Byte) : Option TableImage :=
  let ctl := records 16 512 (b.drop 64)
  let ety := records 32 63 (b.drop 8256)
  let agg := records 40 256 (b.drop 10272)
  let fld := records 64 4096 (b.drop 20512)
  if ctl.all portControlOk && agg.all aggregateOk then
    some { t with
      seeds := (List.range 4).map (fun i => BitVec.ofNat 32 (leAt b (16 + 4 * i) 4)), agePeriod := BitVec.ofNat 32 (leAt b 32 4)
      ports := ctl.zipIdx.map (fun x => (x.2, portControlOf x.1)), etypeLists := listed 1 etypeListOf ety
      aggregates := listed 0 aggregateOf agg, floodGroups := listed 0 (fun x => BitVec.ofNat 512 (leVal x)) fld }
  else none

/-- What the main entries of an instance bring. -/
def TblRec.enter (t : TableImage) (r : TblRec) : TableImage :=
  let t := { t with vtables := vApplyAll t.vtables (r.vwrites false) }
  match r with
  | .mac e => { t with mac := t.mac ++ [e] }
  | .tenant i e _ => { t with tenants := tset t.tenants i e }
  | .adjacency i a => { t with adjacencies := tset t.adjacencies i a }
  | _ => t

/-- No two entries of an image share a key (R248). -/
def keysDistinct : List TblRec → Bool
  | [] => true
  | r :: rs => rs.all (fun x => x.place != r.place) && keysDistinct rs

/-- A TABLE_IMAGE section entered into the tables of the sections before it, or none where it is malformed. -/
def tableImageOf (t : TableImage) (inst : Nat) (b : List Byte) : Option TableImage :=
  if !tableHeadOk inst b || !tableLengthOk inst b then none
  else do
    let t := { t with flowSeed := if inst = 1 then BitVec.ofNat 32 (leAt b 36 4) else t.flowSeed
                      flowAgePeriod := if inst = 1 then BitVec.ofNat 16 (leAt b 40 2) else t.flowAgePeriod }
    let t ← if inst = 0 then tablePortParts t b else some t
    let rs ← tableRecs (instanceTable inst) (leAt b 4 4) (b.drop (tableEntriesAt inst))
    let adj ← tableRecs 3 (leAt b 8 4) (b.drop (64 + 32 * leAt b 4 4))
    if keysDistinct rs then some ((rs ++ adj).foldl TblRec.enter t) else none

end Sys2Proof
end

