-- ==== Sys2Proof/Machine/ImageUnits.lean ====
section
/-!
DEFINITION. The other sections of a Recipe as bytes: SLOT_TABLES (R107), WORST_CASE (R109), DEMAND (R119), FEATURE_OFFER (R130),
SCHEDULER and METERS (R275 to R277), STORAGE (R423 to R426), HOST_POOLS (R490), PAIR (R517) and ALARM_POLICY (R579), with the
checks of load step 5 that concern one section.
-/

namespace Sys2Proof

/-! SLOT_TABLES (R107). -/

/-- One table's part: a header and bank 0, with the bytes after it, or none where the header is not the table's. -/
def slotPart (t : Nat) (b : List Byte) : Option (Bank × List Byte) :=
  let n := leAt b 1 1
  let size := 2 ^ n * pageSize t
  if leAt b 0 1 == t && decide (n ≤ 4) && leAt b 2 2 == tableRows t && leAt b 4 2 == tableEntries t && allZero (slice b 6 10)
      && decide (16 + size ≤ b.length) then
    some (bankOfBytes t n (slice b 16 size), b.drop (16 + size))
  else none

def slotTablesOf (b : List Byte) : Option (Bank × Bank × Bank) := do
  let (c, b) ← slotPart 0 b
  let (e, b) ← slotPart 1 b
  let (q, b) ← slotPart 2 b
  if b.isEmpty then some (c, e, q) else none

/-! WORST_CASE, FEATURE_OFFER and DEMAND (R109, R119, R130). -/

def worstOf (b : List Byte) : Option (List (Nat × Nat)) :=
  let n := b.length / 8
  let rs := records 8 n b
  if b.length == 8 * n && rs.all (fun x => leAt x 4 4 == 0) then some (rs.map (fun x => (leAt x 0 2, leAt x 2 2))) else none

def offersOf (b : List Byte) : Option (List (BitVec 256)) :=
  if b.length == 160 then some ((records 32 5 b).map (fun x => BitVec.ofNat 256 (leVal x))) else none

def demandSectionOf (b : List Byte) : Option Demand := if demandBytesOk b && decide (80 ≤ b.length) then some (demandOf b) else none

/-! SCHEDULER and METERS (R260, R265, R275 to R277). -/

/-- The queue of the scheduler at a place of the queue table: Q0 to Q7 of a port, then its CQ. -/
def tableQueue (i : Nat) : Nat := if i % 9 < 8 then i / 9 * 8 + i % 9 else 4096 + i / 9

def schQueueOf (b : List Byte) : SchQueue :=
  { SchQueue.blank with
    min := leAt b 0 2, alpha := leAt b 2 1, yellowShift := leAt b 3 1, quantum := leAt b 4 4, maxResidence := leAt b 8 4 }

/-- An entry's reserved bits, and MIN and QUANTUM of a CQ. -/
def schQueueOk (cq : Bool) (b : List Byte) : Bool :=
  decide (leAt b 2 1 < 16) && decide (leAt b 3 1 < 8) && decide (leAt b 4 4 < 2 ^ 20) && allZero (slice b 12 4)
  && (!cq || (leAt b 0 2 == 0 && leAt b 4 4 == 0))

/-- The lists of the section, each after the one before it. -/
def gateLists : Nat → List Byte → Option (List (List Byte))
  | 0, b => if b.isEmpty then some [] else none
  | n + 1, b =>
    let size := 32 + 8 * leAt b 2 2
    if b.length < 32 ∨ b.length < size then none else (gateLists n (b.drop size)).map (fun l => b.take size :: l)

/-- Ports of the lists rise: one list a port at most. -/
def gatePortsRise : List (List Byte) → Bool
  | a :: b :: l => decide (leAt a 0 2 < leAt b 0 2) && gatePortsRise (b :: l)
  | _ => true

def schedOf (b : List Byte) : Option SchedSection :=
  let qs := records 16 4608 (slice b 64 73728)
  if leAt b 0 2 == 1 && decide (10 ≤ leAt b 2 1) && decide (leAt b 2 1 ≤ 30) && leAt b 3 1 == 0 && decide (leAt b 4 2 ≤ 512)
      && allZero (slice b 6 10) && allZero (slice b 48 16) && decide (73792 ≤ b.length)
      && qs.zipIdx.all (fun x => schQueueOk (x.2 % 9 == 8) x.1) then do
    let gs ← gateLists (leAt b 4 2) (b.drop 73792)
    if gs.all gateFormOk && gatePortsRise gs then
      some { queues := (qs.zipIdx.filter (fun x => !allZero x.1)).foldl (fun t x => tset t (tableQueue x.2) (schQueueOf x.1)) []
             gates := gs.map gateOfBytes, holds := (List.range 8).map (fun i => leAt b (16 + 4 * i) 4)
             hwmPeriod := leAt b 2 1 }
    else none
  else none

/-- The queue table and the gate lists agree with the port map: QUANTUM of a mapped port keeps R260, entries of unmapped ports
are 0, and a list names a mapped port (R265, R275, R277). -/
def schedPortsOk (ports : List PortMapEntry) (x : SchedSection) : Bool :=
  ports.all (fun p => (List.range 8).all (fun q =>
    let n := (tgetD x.queues (p.port * 8 + q) SchQueue.blank).quantum
    decide (max 64 p.maxFrame ≤ n)))
  && x.queues.all (fun e => ports.any (fun p => p.port == if e.1 < 4096 then e.1 / 8 else e.1 - 4096))
  && x.gates.all (fun g => ports.any (fun p => p.port == g.1))

/-- METERS: a count out of range is malformed (R276, R277). -/
def metersOf (b : List Byte) : Option (Tbl Meter) :=
  let n := leAt b 0 4
  let rs := records 32 n (b.drop 16)
  if decide (n ≤ 1048576) && leAt b 4 2 == 1 && allZero (slice b 6 10) && b.length == 16 + 32 * n && rs.all meterOk then
    some (rs.zipIdx.map (fun x => (x.2, meterOfBytes x.1)))
  else none

/-! ALARM_POLICY (R579). -/

def alarmPolicyOf : Nat → AlarmPolicy
  | 0 => .log | 1 => .alarm | _ => .erase

/-- The highest level that a class can take before a raise: by domain for CLOCK_LOCK_LOSS, by DEGRADE_ACTION for
LINK_DEGRADED (R557, R579). -/
def highestLevel (c : FaultClass) : Nat :=
  match c with
  | .clockLockLoss => 4
  | .linkDegraded => 2
  | _ => c.row.level

/-- An override of 4 bytes. -/
def overrideOfBytes (b : List Byte) : Option PolicyOverride := do
  let c ← FaultClass.ofCode (leAt b 0 2)
  let o : PolicyOverride := { cls := c, raise := leAt b 2 1, escalate := leAt b 3 1 }
  if c.isAlarm || decide (4 ≤ o.raise) || decide (3 ≤ o.escalate)
      || (o.escalate == 2 && decide (2 ≤ min 4 (highestLevel c + o.raise))) then none
  else some o

def overridesDistinct : List PolicyOverride → Bool
  | [] => true
  | o :: os => os.all (fun x => x.cls != o.cls) && overridesDistinct os

/-- The fields that the section gives a Recipe. -/
def alarmSectionOf (r : Recipe) (b : List Byte) : Option Recipe :=
  let n := leAt b 10 2
  if leAt b 0 2 == 1 && (List.range 5).all (fun i => decide (leAt b (2 + i) 1 ≤ 2)) && decide (leAt b 7 1 ≤ 5)
      && decide (leAt b 8 1 ≤ 4) && decide (leAt b 9 1 ≤ 1) && decide (n ≤ 128) && allZero (slice b 12 52)
      && b.length == 64 + 4 * n then do
    let os ← (records 4 n (b.drop 64)).mapM overrideOfBytes
    if overridesDistinct os then
      some { r with policies := (List.range 5).map (fun i => alarmPolicyOf (leAt b (2 + i) 1)), overrides := os
                    irqLevel := BitVec.ofNat 3 (leAt b 7 1), journalLevel := BitVec.ofNat 3 (leAt b 8 1)
                    l4Action := leAt b 9 1 == 1 }
    else none
  else none

/-! HOST_POOLS (R444, R490). -/

def poolOf (b : List Byte) : Pool :=
  { storage := leAt b 0 1 == 2, hp0 := bitN (leAt b 1 1) 0, hp1 := bitN (leAt b 1 1) 1
    fetchPool := if leAt b 2 1 = 0xFF then none else some (leAt b 2 1), queueBase := leAt b 4 2, queueCount := leAt b 6 2
    tenantBase := leAt b 8 2, tenantCount := leAt b 10 2, vectors := leAt b 12 4, featureMask := BitVec.ofNat 64 (leAt b 16 8) }

def poolOk (b : List Byte) : Bool :=
  (leAt b 0 1 == 1 || leAt b 0 1 == 2) && decide (leAt b 1 1 < 4) && (decide (leAt b 2 1 < 16) || leAt b 2 1 == 0xFF)
  && leAt b 3 1 == 0 && decide (1 ≤ leAt b 6 2) && decide (leAt b 6 2 ≤ 32768) && decide (leAt b 4 2 + leAt b 6 2 ≤ 65536)
  && decide (leAt b 8 2 + leAt b 10 2 ≤ 65536) && allZero (slice b 24 8)

def poolsApart : List Pool → Bool
  | [] => true
  | p :: ps => ps.all (fun q => !overlapping p.queueBase p.queueCount q.queueBase q.queueCount) && poolsApart ps

def hostPoolsOf (b : List Byte) : Option HostPools :=
  let n := leAt b 2 2
  let vfs := (List.range 4).map (fun i => leAt b (4 + 2 * i) 2)
  let rs := records 32 n (b.drop 64)
  if leAt b 0 2 == 1 && decide (1 ≤ n) && decide (n ≤ 256) && allZero (slice b 12 52) && b.length == 64 + 32 * n
      && decide (sumOf vfs ≤ 4096) && decide (vfs.getD 1 0 + vfs.getD 3 0 ≤ 1022) && rs.all poolOk
      && poolsApart (rs.map poolOf) then
    some { totalVfs := vfs, pools := rs.map poolOf }
  else none

/-! PAIR (R517, R518). -/

def pairSectionOf (b : List Byte) : Option PairSection :=
  let m := leAt b 24 4
  let n := leAt b 28 4
  let roles := (List.range 512).map (fun i => leAt b (64 + i) 1)
  let shadowB := b.drop (576 + 4 * m)
  if leAt b 0 2 == 1 && decide (leAt b 2 1 ≤ 2) && decide (leAt b 3 1 < 4) && (decide (leAt b 4 2 < 256) || leAt b 4 2 == 0xFFFF)
      && decide (leAt b 6 1 < 128) && leAt b 7 1 == 0 && decide (1 ≤ leAt b 16 2) && decide (leAt b 16 2 ≤ 2047)
      && decide (10 ≤ leAt b 18 1) && decide (leAt b 18 1 ≤ 16) && leAt b 19 1 == 0 && allZero (slice b 21 3)
      && decide (m ≤ 65536) && decide (n ≤ 65536) && allZero (slice b 32 32) && b.length == 576 + 4 * m + 8 * n
      && roles.all (fun x => decide (x < 8)) then
    some { mode := leAt b 2 1, senseEn := bitN (leAt b 3 1) 0, pollEn := bitN (leAt b 3 1) 1
           trunkGroup := if leAt b 4 2 = 0xFFFF then none else some (leAt b 4 2), partnerAddr := BitVec.ofNat 7 (leAt b 6 1)
           pairId := BitVec.ofNat 32 (leAt b 8 4), domainId := BitVec.ofNat 32 (leAt b 12 4), root := leAt b 16 2
           syncLog2 := leAt b 18 1, windows := BitVec.ofNat 8 (leAt b 20 1)
           mirrored := (records 4 m (b.drop 576)).map (fun x => leVal x)
           shadows := (records 8 n shadowB).map (fun x => (leAt x 0 4, leAt x 4 4))
           roles := (roles.zipIdx.filter (fun x => x.1 % 4 != 0)).map (fun x => (x.2, x.1 % 4))
           domainLinks := (roles.zipIdx.filter (fun x => bitN x.1 2)).map (·.2) }
  else none

/-- The section agrees with PAIRED, the port map, the groups, the bindings and the windows (R518). -/
def pairFits (paired : Bool) (ports : List PortMapEntry) (groups : Tbl (List AggMember)) (bs : List Binding)
    (programs : List ProgramSection) (x : PairSection) : Bool :=
  let mapped := fun (n : Nat) => ports.any (fun p => p.port == n)
  let bound := fun (c : Nat) => bs.any (fun b => b.channel == c)
  let trunks := (x.roles.filter (fun e => e.2 == 3)).map (·.1)
  let members : List Nat := match x.trunkGroup with
    | some g => ((tgetD groups g ([] : List AggMember)).filter (fun m => !m.remote)).map (fun m => m.port)
    | none => []
  (x.mode != 0) == paired && x.roles.all (fun e => mapped e.1) && x.domainLinks.all mapped
  && trunks.all members.contains && members.all trunks.contains && x.mirrored.all bound && x.shadows.all (fun e => bound e.2)
  && decide (sumOf ((programs.filter (fun p => x.windows.getLsbD p.cluster)).map (·.hbmSize)) ≤ 1073741824)

/-! STORAGE (R423 to R426). -/

def pathOf (b : List Byte) : Path :=
  { port := leAt b 0 2, family := leAt b 2 1, svcPort := BitVec.ofNat 16 (leAt b 4 2), remote := BitVec.ofNat 128 (beAt b 8 16)
    localAddr := BitVec.ofNat 128 (beAt b 24 16), state := .down, backoff := 200000, attemptAt := 0, attempting := false
    pace := 2 ^ 32, paceAt := 0, credit := 0, sendQ := [], keepAliveAt := 0, remotes := [] }

/-- Well-formed UTF-8 (PRESUMED from its definition in ISO/IEC 10646): no overlong form, no surrogate, nothing above 10FFFFh. -/
def utf8Ok : Nat → List Byte → Bool
  | _, [] => true
  | 0, _ => false
  | n + 1, a :: rest =>
    let more := fun (k lo hi : Nat) =>
      decide (k ≤ rest.length) && (rest.take k).all (fun x => x.toNat / 64 == 2)
      && decide (lo ≤ (rest.getD 0 0#8).toNat) && decide ((rest.getD 0 0#8).toNat ≤ hi) && utf8Ok n (rest.drop k)
    let v := a.toNat
    if v < 0x80 then utf8Ok n rest
    else if v < 0xC2 then false
    else if v < 0xE0 then more 1 0x80 0xBF
    else if v < 0xF0 then more 2 (if v = 0xE0 then 0xA0 else 0x80) (if v = 0xED then 0x9F else 0xBF)
    else if v < 0xF5 then more 3 (if v = 0xF0 then 0x90 else 0x80) (if v = 0xF4 then 0x8F else 0xBF)
    else false

/-- A path's ranges: SVC_PORT is 0 for RoCE v2, and an IPv4 address leaves its other bytes 0. -/
def pathOk (roce : Bool) (b : List Byte) : Bool :=
  let v4 := leAt b 2 1 == 4
  decide (leAt b 0 2 < 1024) && (v4 || leAt b 2 1 == 6) && leAt b 3 1 == 0 && (!roce || leAt b 4 2 == 0) && leAt b 6 2 == 0
  && (!v4 || (allZero (slice b 12 12) && allZero (slice b 28 12)))

def targetOfBytes (b : List Byte) : Target :=
  { roce := leAt b 0 1 == 1, ioQueues := leAt b 2 1, depthLog2 := leAt b 3 1, tenant := leAt b 4 2, subnqn := leAt b 6 2
    paths := (List.range (leAt b 1 1)).map (fun i => pathOf (slice b (16 + 40 * i) 40)), failures := 0#16, vwc := false
    lostSince := none }

/-- A target entry: its ranges, its strings and its paths; the record of a path that it lacks may be blank (DEDUCED, log entry 170). -/
def targetEntryOk (strings : Nat) (b : List Byte) : Bool :=
  let roce := leAt b 0 1 == 1
  decide (leAt b 0 1 ≤ 1) && (leAt b 1 1 == 1 || leAt b 1 1 == 2) && decide (1 ≤ leAt b 2 1) && decide (leAt b 2 1 ≤ 64)
  && decide (5 ≤ leAt b 3 1) && decide (leAt b 3 1 ≤ 12) && decide (leAt b 6 2 < strings) && allZero (slice b 8 8)
  && pathOk roce (slice b 16 40) && (pathOk roce (slice b 56 40) || (leAt b 1 1 == 1 && allZero (slice b 56 40)))

/-- A namespace entry of a section, unless it is blank: it has a target, and where it is encrypted a context. -/
def namespaceEntryOk (targets : Nat) (b : List Byte) : Bool :=
  let x := namespaceOf b
  allZero b || (namespaceBytesOk b && decide (x.target < targets) && (!x.xts || x.context != 0))

/-- A string of 256 bytes: UTF-8, a NUL that ends it, and zeros after. -/
def stringOk (b : List Byte) : Bool :=
  let t := b.dropWhile (fun x => x != 0#8)
  !t.isEmpty && allZero t && utf8Ok b.length (b.takeWhile (fun x => x != 0#8))

/-- Two attached entries share FUNCTION and NSID. -/
def namespacesApart : List Namespace → Bool
  | [] => true
  | x :: xs =>
    xs.all (fun y => !x.valid || !y.valid || x.fn == 0xFFFF || x.fn != y.fn || x.nsid != y.nsid) && namespacesApart xs

def storageOf (b : List Byte) : Option Sto :=
  let nt := leAt b 2 2
  let nn := leAt b 4 2
  let nstr := leAt b 6 2
  let ts := records 96 nt (b.drop 64)
  let ns := records 64 nn (b.drop (64 + 96 * nt))
  let strs := records 256 nstr (b.drop (64 + 96 * nt + 64 * nn))
  let size := leAt b 16 8
  let unit := 0x200000
  if leAt b 0 2 == 1 && decide (nt ≤ 1024) && decide (nn ≤ 16384) && decide (1 ≤ nstr) && decide (nstr ≤ 2048)
      && leAt b 8 8 % unit == 0 && size % unit == 0 && decide (32 * unit ≤ size) && decide (size ≤ 8192 * unit)
      && decide (1000 ≤ leAt b 24 4) && decide (leAt b 24 4 ≤ 60000000) && decide (1000000 ≤ leAt b 28 4)
      && decide (leAt b 28 4 ≤ 600000000) && decide (leAt b 32 1 ≤ 15) && leAt b 33 1 == 0 && decide (leAt b 34 2 < nstr)
      && allZero (slice b 36 28) && b.length == 64 + 96 * nt + 64 * nn + 256 * nstr && ts.all (targetEntryOk nstr)
      && ns.all (namespaceEntryOk nt) && strs.all stringOk && namespacesApart (ns.map namespaceOf) then
    some { present := true, bufBase := leAt b 8 8, bufSize := size, ioTimeout := leAt b 24 4, nsLoss := leAt b 28 4
           retryLimit := leAt b 32 1, hostnqn := leAt b 34 2, strings := strs
           targets := ts.zipIdx.map (fun x => (x.2, targetOfBytes x.1))
           namespaces := ns.zipIdx.map (fun x => (x.2, namespaceOf x.1)), nsDue := [], ctls := [], cmds := [], xtsEnds := [], timeouts := 0#16
           reissues := 0#16, transient := 0#16, internal := 0#16 }
  else none

/-- The buffers lie in HBM and apart from the flow-state table, the ledger and the engine windows, the paths name mapped ports,
and the offer carries the bits that the section needs (R426). -/
def storageFits (ports : List PortMapEntry) (programs : List ProgramSection) (offers : List (BitVec 256)) (x : Sto) : Bool :=
  let offered := fun (i : Nat) => (offers.getD 2 0#256).getLsbD i
  decide (x.bufBase + x.bufSize ≤ 0x1680000000) && !overlapping x.bufBase x.bufSize 0 0x214000100
  && programs.all (fun p => p.hbmSize == 0 || !overlapping x.bufBase x.bufSize p.hbmBase p.hbmSize)
  && x.targets.all (fun t => t.2.paths.all (fun q => ports.any (fun p => p.port == q.port)))
  && offered 10 && (x.namespaces.all (fun n => !n.2.xts) || offered 11)

/-! The sections as they are placed. -/

/-- A Recipe of which nothing has been placed. -/
def Recipe.blank (h : ImageHeader) : Recipe :=
  { header := h, portMap := [], parse := ParseSection.empty, control := [], tables := TableImage.empty, programs := []
    cphBank := Bank.empty, engBank := Bank.empty, queBank := Bank.empty
    sched := { queues := [], gates := [], holds := [], hwmPeriod := 0 }, meters := [], policies := [], overrides := []
    irqLevel := 1#3, journalLevel := 1#3, l4Action := false, offers := [], demand := Demand.empty, worst := [], pools := none
    pair := none, storage := none }

/-- The content of a section placed in staging, or none where it violates its chapter's format (step 5 of R113). A type that
may be ignored, and the firmware, which is not the Recipe's, place nothing. -/
def placeSection (r : Recipe) (e : SectionEntry) (b : List Byte) : Option Recipe :=
  match e.type with
  | 0x0001 => (portMapOf b).map (fun x => { r with portMap := x })
  | 0x0002 => (parseSectionOf b).map (fun x => { r with parse := x })
  | 0x0003 => (tableImageOf r.tables e.inst b).map (fun x => { r with tables := x })
  | 0x0004 => (engineSectionOf e.inst b).map (fun x => { r with programs := r.programs ++ [x] })
  | 0x0005 => (slotTablesOf b).map (fun x => { r with cphBank := x.1, engBank := x.2.1, queBank := x.2.2 })
  | 0x0006 => (schedOf b).map (fun x => { r with sched := x })
  | 0x0007 => (metersOf b).map (fun x => { r with meters := x })
  | 0x0008 => (controlSection b).map (fun x => { r with control := x })
  | 0x0009 => alarmSectionOf r b
  | 0x000B => (offersOf b).map (fun x => { r with offers := x })
  | 0x000C => (demandSectionOf b).map (fun x => { r with demand := x })
  | 0x000D => (worstOf b).map (fun x => { r with worst := x })
  | 0x000E => (hostPoolsOf b).map (fun x => { r with pools := some x })
  | 0x000F => (pairSectionOf b).map (fun x => { r with pair := some x })
  | 0x0010 => (storageOf b).map (fun x => { r with storage := some x })
  | _ => some r

end Sys2Proof
end

