-- ==== Sys2Proof/Machine/Faults.lean ====
section
/-!
DEFINITION. The commands of "Faults, Reactions and Security Alarms" that concern the collector, and the errors of
clocks, sensors and HBM (R241, R551-R571).
-/

namespace Sys2Proof.Machine

/-- A report of a hardware checker freezes its first-error record, or only counts in the one that is frozen; an armed injection of
the checker is used (R555, R570). -/
def checkerRecord (s : State) (r : Report) : State × Report :=
  if !r.cap.valid then (s, r)
  else
    let unit := checkerUnit r.cls r.subj
    let key := unit * 65536 + r.cap.checker.toNat
    let hit := s.flt.injArm && s.flt.injUnit.toNat == unit && s.flt.injChecker == r.cap.checker
    let old := tgetD s.flt.checkers key Capture.blank
    let cap := if old.valid then { old with count := satInc old.count }
      else { r.cap with injected := r.cap.injected || hit, count := 0#16 }
    (fltMod s (fun f => { f with checkers := tset f.checkers key cap, injArm := f.injArm && !hit }), { r with cap := cap })

/-- FAULT_REPORT (R562): a report given is that of a checker or of the firmware. While AON is stopped the collector takes nothing
(R558), and a report from before it runs is held (R599). No block sends a report that names a unit outside R23. -/
def faultReportCmd (s : State) (report : Option Report) : State :=
  if s.rst.unlocked.contains 0 then s
  else
    match report with
    | some r =>
      if !r.listed then s
      else
      let (s, r) := checkerRecord s r
      if collectorRuns s then faultReport s (some r) else { s with rst := { s.rst with heldFaults := s.rst.heldFaults ++ [{ r with since := nowBeats s }] } }
    | none => if collectorRuns s then faultReport s none else s

def execFaultReport (report : Option Report) (s : State) : Result := .next (faultReportCmd s report)

/-- FLT_N_PULSE_END (R567). -/
def execFltNPulseEnd (s : State) : Result :=
  .next (match s.flt.pulseEnd with
    | some (t, b) => if t * 1600 + b ≤ nowBeats s then fltMod s (fun f => { f with pulseEnd := none }) else s
    | none => s)

/-- FLT_INJ_WRITE (R570): a new write replaces an armed injection; MODE 0 and the reserved MODE 3 arm nothing. -/
def injWrite (s : State) (v : W64) : State :=
  fltMod s (fun f =>
    let mode := if fieldN v.toNat 24 2 = 3 then f.injMode.toNat else fieldN v.toNat 24 2
    { f with
      injUnit := BitVec.ofNat 8 v.toNat, injChecker := BitVec.ofNat 16 (v.toNat / 2 ^ 8), injMode := BitVec.ofNat 2 mode
      injArm := v.getLsbD 26 && (mode == 1 || mode == 2) })

def execFltInjWrite (v : W64) (s : State) : Result := .next (injWrite s v)

/-- The level of a class and subject that FLT_FORCE names: that of LINK_DEGRADED is its port's (R155). -/
def forcedLevel (s : State) (c : FaultClass) (subj : W32) : Nat :=
  if c = .linkDegraded && (((subjPort subj).bind (portOf s)).map (·.cfg.degradeAction)).getD false then 2 else classLevel c subj

/-- FLT_FORCE_GO (R571): accepted before DEVICE_READY, in test mode and in recovery mode, for a class of R551. -/
def forceWrite (s : State) (v : W64) : State :=
  let subj : W32 := BitVec.ofNat 32 (v.toNat / 2 ^ 16)
  let s := fltMod s (fun f => { f with forceClass := BitVec.ofNat 16 v.toNat, forceSubject := subj })
  if !v.getLsbD 48 then s
  else
    let open_ := !s.hif.deviceReady || s.rst.testMode || s.rst.recovery
    match open_, FaultClass.ofCode (v.toNat % 2 ^ 16) with
    | true, some c =>
      fltMod s (fun f => { f with inbox := f.inbox ++
        [{ cls := c, subj := subj, level := forcedLevel s c subj, cap := { Capture.firmware with access := 0x0F#8 },
           forced := true, detail := if c = .clockLockLoss then BitVec.ofNat 256 (subjSub subj) else 0#256,
           since := nowBeats s }] })
    | _, _ => fltMod s (fun f => { f with forceRefused := wrapInc f.forceRefused })

def execFltForceGo (v : W64) (s : State) : Result := .next (forceWrite s v)

/-! Clocks (R32, R557). -/

/-- The domains whose lock CLOCK_LOCK_LOSS reports to the collector: not the line macros, which have MACRO_PLL_LOSS, not
SEC, and not AON, whose loss stops the collector (R558). -/
def lockDomain (d : Nat) : Bool := !(decide (16 ≤ d) && decide (d < 32)) && d != 38 && d != 0

/-- CLOCK_LOCK_LOSS: the level is that of the domain; its containment follows with the record. -/
def clockLoss (s : State) (d : Nat) : State :=
  if !lockDomain d then s
  else
    let s := { s with rst := { s.rst with unlocked := if s.rst.unlocked.contains d then s.rst.unlocked else s.rst.unlocked ++ [d] } }
    reportHeld (raiseAt s .clockLockLoss timebaseUnit (subjU timebaseUnit d) (clockLossLevel d) d)

/-- CLOCK_LOCK_REGAINED. -/
def execClockLockRegained (domain : Fin 40) (s : State) : Result :=
  .next { s with rst := { s.rst with unlocked := s.rst.unlocked.filter (fun d => d != domain.val) } }

/-! Die sensors. -/

/-- A reading of a die sensor, and JUNCTION of SEC_ALARM_STAT, the hottest. -/
def sensorRead (s : State) (i : Nat) (v : BitVec 10) : State :=
  let t := tset s.flt.sensors i v
  let hot := t.foldl (fun (a : BitVec 10) e => if a.toInt < e.2.toInt then e.2 else a) v
  { fltMod s (fun f => { f with sensors := t }) with sec := { s.sec with junction := hot } }

def securityUnit : Nat := 0x03

/-- DIE_SENSOR_HIGH: the sensor has stood above 105 °C for 1,000 ticks; a reading below only updates it. -/
def execDieSensorHigh (sensor : Fin 16) (reading : BitVec 10) (s : State) : Result :=
  let s := sensorRead s sensor.val reading
  .next (if 105 < reading.toInt then raise s .junctionHigh securityUnit sensor.val else s)

/-- JUNCTION_CRITICAL: a sensor above 115 °C. -/
def execJunctionCritical (sensor : Fin 16) (reading : BitVec 10) (s : State) : Result :=
  let s := sensorRead s sensor.val reading
  .next (if 115 < reading.toInt then raise s .junctionCritical securityUnit sensor.val else s)

/-! HBM (R39, R241, R551). -/

/-- HBM_CHANNEL_FAIL against the controller and channel; the record's containment retires the channel. -/
def channelFail (s : State) (c : Nat) : State := raise s .hbmChannelFail (0x38 + c / 16) (c % 16)

def execHbmChannelFail (stack : Fin 4) (channel : Fin 16) (s : State) : Result :=
  .next (channelFail s (stack.val * 16 + channel.val))

/-- An uncorrectable error counts against its channel: 16 within 1,000,000 ticks fail it. -/
def channelError (s : State) (c : Nat) : State :=
  let ticks := now s :: (tgetD s.hbmU.errors c []).filter (fun t => decide (now s < t + 1000000))
  let s := { s with hbmU := { s.hbmU with errors := tset s.hbmU.errors c ticks } }
  if 16 ≤ ticks.length then channelFail s c else s

/-- The packet at the front of the flow-state unit, where its entry is `i`. -/
def flowFront (s : State) (i : Nat) : Option (Nat × Packet × TenantEntry) :=
  match s.crb.flowQ with
  | [] => none
  | id :: _ =>
    match pktOf s id with
    | none => none
    | some p =>
      match classOf s p, p.tenant.bind (tget s.fwd.tenants) with
      | some cls, some t =>
        if flowIndex s.fwd.flowSeed (flowKeyBytes (p.tenant.getD 0) p.cls cls p.kv) = i then some (id, p, t) else none
      | _, _ => none

/-- A flow-state entry is lost (R241, R291): VALID cleared, a LOST record, FLOW_ENTRY_LOST, and the packet whose access
met the error is handled as a collision. -/
def flowEntryLost (s : State) (i : Nat) : State :=
  let s := if flowValid (flowRead s i) then flowClose s i 2 0#64 else s
  let s := raise s .flowEntryLost 0x37 wholeUnit
  match flowFront s i with
  | none => s
  | some (id, p, t) =>
    let s := { s with crb := { s.crb with flowQ := s.crb.flowQ.filter (fun x => x != id) } }
    flowMissed (addPkt s (cTable p.owner 6 2) p) id i (flowKeyOf (flowRead s i)) true p t

/-- HBM_UNCORRECTABLE_ERROR at an address: it counts against the channel, and what the address holds is lost: a
flow-state entry, or a ledger total (R308). -/
def hbmError (s : State) (a : Nat) : State :=
  if hbmEnd ≤ a then s
  else
    let s := channelError s (hbmChannelOf a)
    if a < 0x200000000 then flowEntryLost s (a / 64)
    else if a < 0x204000000 then ledgerError s ((a - 0x200000000) / 16) .total
    else s

def execHbmUncorrectableError (hda : BitVec 37) (s : State) : Result := .next (hbmError s hda.toNat)

end Sys2Proof.Machine
end

