-- ==== Sys2Proof/Machine/Alarms.lean ====
section
/-!
DEFINITION. The security alarms and the loss of REF_100 (R558, R576-R581), blocks SEC and FLT.
-/

namespace Sys2Proof

/-- Class index i of R576. -/
def AlarmKind.index : AlarmKind → Nat
  | .mesh => 0 | .voltage => 1 | .clock => 2 | .temperature => 3 | .vbat => 4

def AlarmKind.cls : AlarmKind → FaultClass
  | .mesh => .alarmMesh | .voltage => .alarmVoltage | .clock => .alarmClock | .temperature => .alarmTemperature
  | .vbat => .alarmVbat

def AlarmKind.all : List AlarmKind := [.mesh, .voltage, .clock, .temperature, .vbat]

def Sec.alarm (x : Sec) : AlarmKind → AlarmState
  | .mesh => x.mesh | .voltage => x.voltage | .clock => x.clock | .temperature => x.temperature | .vbat => x.vbat

def Sec.setAlarm (x : Sec) (k : AlarmKind) (a : AlarmState) : Sec :=
  match k with
  | .mesh => { x with mesh := a }
  | .voltage => { x with voltage := a }
  | .clock => { x with clock := a }
  | .temperature => { x with temperature := a }
  | .vbat => { x with vbat := a }

/-- ALRM_N is driven low (R578). -/
def Sec.alarmLow (x : Sec) : Bool := AlarmKind.all.any (fun k => (x.alarm k).latched && (x.alarm k).drive)

/-- The policy that governs until a Recipe is applied (R580). -/
def AlarmState.stand (a : AlarmState) : AlarmState := { a with policy := a.stored.getD .alarm }

end Sys2Proof

namespace Sys2Proof.Machine

def secMod (s : State) (f : Sec → Sec) : State := { s with sec := f s.sec }
def alarmMod (s : State) (k : AlarmKind) (f : AlarmState → AlarmState) : State :=
  secMod s (fun x => x.setAlarm k (f (x.alarm k)))

/-- The monitors run from SEC release on, and through every device reset but POWER_ON (R584, R585). -/
def monitorsRun (s : State) : Bool := secReleased s || s.rst.source != .powerOn

/-- The loss of VBAT (R415, R581); ERASES counts since VBAT was applied. -/
def vbatLost (s : State) : State :=
  let s := AlarmKind.all.foldl (fun s k => alarmMod s k (fun a => { a with stored := none })) s
  let s := secMod s (fun x => { x with vbatValid := false, tickMark := 0#64, refLossFlag := false, vbatEpoch := 0#24, vbatLoss := true })
  { s with kvl := { s.kvl with vbat := [], erases := 0#16 } }

/-- A detection (R577): its record, ALRM_N by the policy, and the erase; while LATCHED it only merges. -/
def alarmDetect (s : State) (k : AlarmKind) : State :=
  let a := s.sec.alarm k
  let s := alarmMod s k (fun a =>
    { a with cause := true, latched := true, drive := if a.latched then a.drive else a.policy != .log })
  let s := reportHeld (raise s k.cls 0x03 k.index)
  if !a.latched && a.policy == .erase then zeroizeStart s else s

/-- An alarm class's cause appears, or goes. -/
def alarmCause (s : State) (k : AlarmKind) (present : Bool) : State :=
  if !monitorsRun s then s
  else if !present then alarmMod s k (fun a => { a with cause := false })
  else alarmDetect (if k = .vbat then vbatLost s else s) k

def execAlarmMesh (present : Bool) (s : State) : Result := .next (alarmCause s .mesh present)
def execAlarmVoltage (present : Bool) (s : State) : Result := .next (alarmCause s .voltage present)
def execAlarmClock (present : Bool) (s : State) : Result := .next (alarmCause s .clock present)
def execAlarmTemperature (present : Bool) (s : State) : Result := .next (alarmCause s .temperature present)
def execAlarmVbat (present : Bool) (s : State) : Result := .next (alarmCause s .vbat present)

/-- SEC_ALARM_ACK (R578): LATCHED of each named class whose cause is clear. -/
def alarmAck (s : State) (v : W64) : State :=
  AlarmKind.all.foldl (fun s k =>
    if v.getLsbD k.index then alarmMod s k (fun a => if a.cause then a else { a with latched := false, drive := false })
    else s) s

def execSecAlarmAck (v : W64) (s : State) : Result := .next (alarmAck s v)

/-- REF_100_LOSS (R558): SEC forces every port to the safe state and holds FLT_N low, both until reset, and keeps the
flag; the loss is detected under ALARM_CLOCK. -/
def ref100Loss (s : State) : State :=
  if !monitorsRun s then s
  else
    let s := secMod s (fun x => { x with refLossFlag := true })
    let s := { s with rst := { s.rst with unlocked := if s.rst.unlocked.contains 0 then s.rst.unlocked else s.rst.unlocked ++ [0] } }
    let s := (s.lnm.ports.map (·.1)).foldl (fun s n =>
      portEntersSafe (schPortMod (txTruncate s n .safeState) n (fun p => { p with squelched := true })) n) s
    alarmCause (fltMod s (fun f => { f with holdLow := true })) .clock true

def execRef100Loss (s : State) : Result := .next (ref100Loss s)

/-- CLOCK_LOCK_LOSS (R557): the loss of AON's clock is that of REF_100. -/
def execClockLockLoss (domain : Fin 40) (s : State) : Result :=
  .next (if domain.val = 0 then ref100Loss s else clockLoss s domain.val)

end Sys2Proof.Machine
end

