-- ==== Sys2Proof/Machine/Reset.lean ====
section
/-!
DEFINITION. Resets: what each clears, the boot epoch, the journal at start, and the Supervisor reset (R100, R101,
R583-R590, R595-R599).
-/

namespace Sys2Proof

/-! Option bytes (R100, R101). -/

def optionMagic : Nat := 0x0B9602A5

/-- A copy is valid (R101). -/
def optionOk (b : List Byte) : Bool :=
  leAt b 0 4 == optionMagic && leAt b 4 1 == 1 && leAt b 60 4 == (crc32 (b.take 60)).toNat
  && leAt b 5 1 == 0 && leAt b 8 4 / 2 ^ 19 == 0 && leAt b 20 4 / 2 ^ 14 == 0
  && leAt b 24 4 / 2 ^ 28 == 0 && leAt b 28 4 / 2 ^ 28 == 0 && leAt b 32 4 / 2 ^ 4 == 0
  && leAt b 36 4 / 2 ^ 28 == 0 && !bitN (leAt b 36 4) 1 && fieldN (leAt b 40 4) 4 12 == 0 && leAt b 44 4 / 2 ^ 4 == 0
  && allZero (slice b 48 12)
  && (let r := leAt b 20 4
      let rate := fun v => decide (1 ≤ v) && decide (v ≤ 6)
      rate (fieldN r 2 3) && rate (fieldN r 5 3) && decide (fieldN r 8 3 ≤ 4) && decide (fieldN r 11 3 ≤ 4))
  && decide (fieldN (leAt b 32 4) 2 2 ≤ 1)
  && decide (16 ≤ fieldN (leAt b 36 4) 15 13) && decide (fieldN (leAt b 36 4) 15 13 ≤ 1024)

/-- The fields of a copy; lane enables beyond the variant read 0 (R102). -/
def optionsOf (f256 : Bool) (ob : Nat) (b : List Byte) : Options :=
  let d := leAt b 8 4
  let h := leAt b 20 4
  let m := leAt b 32 4
  let lanes := leAt b 12 8
  { ob := ob, seq := BitVec.ofNat 16 (leAt b 6 2), device := BitVec.ofNat 11 d, cluster := BitVec.ofNat 6 (d / 2 ^ 11),
    sideB := bitN d 17, paired := bitN d 18, lanes := BitVec.ofNat 64 (if f256 then lanes % 2 ^ 32 else lanes),
    hp0En := bitN h 0, hp1En := bitN h 1, hp0Rate := BitVec.ofNat 3 (h / 4), hp1Rate := BitVec.ofNat 3 (h / 32),
    hp0Width := BitVec.ofNat 3 (h / 256), hp1Width := BitVec.ofNat 3 (h / 2048), slotA := BitVec.ofNat 32 (leAt b 24 4),
    slotB := BitVec.ofNat 32 (leAt b 28 4), preferB := bitN m 0, noFallback := bitN m 1,
    nvmMode := BitVec.ofNat 2 (m / 4), journal := BitVec.ofNat 32 (leAt b 36 4),
    policy := BitVec.ofNat 4 (leAt b 40 4), minSecurity := BitVec.ofNat 16 (leAt b 42 2),
    keyAccept := BitVec.ofNat 4 (leAt b 44 4) }

/-- The values of a start without a valid copy (R592). -/
def optionsRecovery : Options :=
  { Options.none_ with hp0En := true, hp1En := true, hp0Rate := 6#3, hp1Rate := 6#3, hp0Width := 4#3, hp1Width := 4#3 }

/-! Regions (R97, R98). A pointer gives its device, first byte and size. -/

structure Region where
  second : Bool
  start : Nat
  size : Nat
  deriving DecidableEq, Repr

def slotRegion (p : W32) : Region :=
  { second := p.getLsbD 1, start := fieldN p.toNat 2 13 * 65536, size := fieldN p.toNat 15 13 * 65536 }

def journalRegion (p : W32) : Region :=
  { second := p.getLsbD 0, start := fieldN p.toNat 2 13 * 65536, size := fieldN p.toNat 15 13 * 65536 }

def regionsMeet (a b : Region) : Bool := a.second == b.second && overlapping a.start a.size b.start b.size

/-- A region lies inside its device, and outside the first 64 KiB of NVM0. -/
def regionFits (b : Board) (r : Region) : Bool :=
  let size := min (if r.second then b.nvm1Size else b.nvm0Size) 0x20000000
  decide (r.start + r.size ≤ size) && (r.second || decide (65536 ≤ r.start))

/-- A slot's pointer keeps R97 and R98. -/
def slotPointerOk (b : Board) (o : Options) (slotB : Bool) : Bool :=
  let mine := slotRegion (if slotB then o.slotB else o.slotA)
  let other := if slotB then o.slotA else o.slotB
  regionFits b mine && decide (0 < mine.size) && decide (mine.size ≤ 480 * 1048576) && !regionsMeet mine (journalRegion o.journal)
  && !(other.getLsbD 0 && regionsMeet mine (slotRegion other))

/-! Epoch records (R595). -/

def epochRecord (copy : Nat) (epoch : W24) (tick : W64) (serial : W32) : List Byte :=
  let b := leBytes 4 0x0E90C4B1 ++ leBytes 1 1 ++ leBytes 1 copy ++ zeroBytes 2 ++ leBytes 3 epoch.toNat ++ [0#8]
    ++ leBytes 8 tick.toNat ++ leBytes 4 serial.toNat ++ zeroBytes 4
  b ++ leBytes 4 (crc32 b).toNat

/-- The epoch of a valid record. -/
def epochOf (copy : Nat) (b : List Byte) : Option Nat :=
  if leAt b 0 4 = 0x0E90C4B1 ∧ leAt b 4 1 = 1 ∧ leAt b 5 1 = copy ∧ leAt b 8 3 ≠ 0 ∧ leAt b 28 4 = (crc32 (b.take 28)).toNat
  then some (leAt b 8 3) else none

/-! Journal records (R574). -/

/-- SEQ of a valid journal record, with its WRITE_TICK. -/
def journalRecordOf (b : List Byte) : Option (Nat × Nat) :=
  let seq := leAt b 0 4
  if leAt b 4 1 = 1 ∧ seq = leAt b 124 4 ∧ seq ≠ 0xFFFFFFFF ∧ leAt b 120 4 = (crc32 (b.take 120)).toNat
  then some (seq, leAt b 112 8) else none

end Sys2Proof

namespace Sys2Proof.Machine

def rstMod (s : State) (f : Rst → Rst) : State := { s with rst := f s.rst }

/-! The journal at start. -/

/-- Keys of an NVM device that a range lists, as indices of parts of `n` bytes. -/
def nvmParts (s : State) (second : Bool) (base size n : Nat) : List Nat :=
  ((if second then s.board.nvm1 else s.board.nvm0).filterMap (fun e =>
    if base ≤ e.1 ∧ e.1 < base + size then some ((e.1 - base) / n) else none)).eraseDups

/-- The newest valid record of the journal: place, SEQ, WRITE_TICK. -/
def journalNewest (s : State) : Option (Nat × Nat × Nat) :=
  if !journalOpen s then none
  else
    let base := journalBase s + 131072
    (nvmParts s (journalDev s) base (journalPlaces s * 128) 128).foldl (fun best p =>
      match journalRecordOf (nvmGet s (journalDev s) (base + p * 128) 128) with
      | none => best
      | some (q, w) => match best with
        | some (_, q', _) => if q' < q then some (p, q, w) else best
        | none => some (p, q, w)) none

/-- The numbering and the place of the journal continue from the newest record. -/
def journalResume (s : State) : State :=
  match journalNewest s with
  | none => s
  | some (p, q, _) =>
    fltMod s (fun f =>
      { f with lastAnySeq := if f.lastAnySeq = 0#32 then BitVec.ofNat 32 q else f.lastAnySeq,
               lastWrittenSeq := BitVec.ofNat 32 q, nextPlace := (p + 1) % journalPlaces s })

/-! The boot epoch (R595-R598). -/

def sectorBase (s : State) (k : Nat) : Nat := journalBase s + k * 65536

/-- The slots of a sector that are not blank. -/
def sectorUsed (s : State) (k : Nat) : List Nat :=
  (nvmParts s (journalDev s) (sectorBase s k) 65536 32).filter (fun i => decide (i < 2048))

/-- Highest epoch of a sector's valid records. -/
def sectorEpoch (s : State) (k : Nat) : Nat :=
  maxOf ((sectorUsed s k).filterMap (fun i => epochOf k (nvmGet s (journalDev s) (sectorBase s k + i * 32) 32)))

/-- The first blank slot after the last one that is not. -/
def sectorNext (s : State) (k : Nat) : Nat :=
  match sectorUsed s k with
  | [] => 0
  | l => maxOf l + 1

/-- One copy programmed; a full sector is erased first. The slot written. -/
def epochWrite (s : State) (k : Nat) (e : W24) : State × Nat :=
  let i := sectorNext s k
  let (s, i) := if 2048 ≤ i then (nvmErase s (journalDev s) (sectorBase s k) 65536, 0) else (s, i)
  (nvmPut s (journalDev s) (sectorBase s k + i * 32) (epochRecord k e s.tmb.tick s.board.serial), i)

/-- commit_epoch of R596: it fails where the journal cannot be written. -/
def commitEpoch (s : State) : State :=
  let j := max (sectorEpoch s 0) (sectorEpoch s 1)
  let v := if s.sec.vbatValid then s.sec.vbatEpoch.toNat else 0
  let s := rstMod s (fun r => { r with vbatHigher := decide (j < v) })
  if !journalOpen s then rstMod s (fun r => { r with epochFailed := true })
  else
    let n := min (max j v + 1) 0xFFFFFF
    let e : W24 := BitVec.ofNat 24 n
    let (s, a) := epochWrite s 0 e
    let (s, b) := epochWrite s 1 e
    let s := secMod s (fun x => { x with vbatEpoch := e, vbatValid := true })
    rstMod s (fun r =>
      { r with epoch := e, committed := true, exhausted := decide (n = 0xFFFFFF), slot0 := BitVec.ofNat 11 a,
               slot1 := BitVec.ofNat 11 b })

/-- EPOCH_SECTOR_REFRESH (R598): sector 0 first, and sector 1 once sector 0 holds its record again. -/
def epochRefresh (s : State) : State :=
  let full := fun (k : Nat) => decide (2048 ≤ sectorNext s k)
  if !deviceReady s || !s.rst.committed || !journalOpen s then s
  else
    match [0, 1].find? full with
    | none => s
    | some k => rstMod (epochWrite s k s.rst.epoch).1 (fun r => { r with refreshing := k == 0 && full 1 })

def execEpochSectorRefresh (s : State) : Result := .next (epochRefresh s)

/-! Device resets (R583-R585). -/

/-- An erase in progress completes before the entropy source enters reset (R585). -/
def eraseFinished (s : State) : Tbl (List Byte) := if s.kvl.erasing then [] else s.kvl.vbat

/-- ERASES counts since VBAT was applied: no device reset clears it. -/
def erasesKept (s : State) : W16 := if s.kvl.erasing then wrapInc s.kvl.erases else s.kvl.erases

/-- What SEC keeps through a device reset. -/
def secKept (s : State) (source : ResetSource) : Sec :=
  if source = .powerOn then
    AlarmKind.all.foldl (fun x k => x.setAlarm k { (x.alarm k).stand with cause := false, latched := false, drive := false })
      { s.sec with junction := 0#10 }
  else s.sec

/-- A device reset. `unwritten` says that a FAULT or WATCHDOG reset left its RESET record unjournaled. The pins HPn_PERST_N
keep their level; the next start begins at release 1 unless RST_N is low. -/
def deviceReset (s : State) (source : ResetSource) (test unwritten : Bool) : State :=
  let low := source == .powerOn || source == .rstN
  let d := State.onBoard s.board (secKept s source) (eraseFinished s)
  let alarms := s.rst.heldFaults.filter (fun r => r.cls.isAlarm) ++ s.flt.inbox.filter (fun r => r.cls.isAlarm)
  { d with
    rst := { d.rst with
      source := source, testRequested := test, inReset := low, waiting := if low then 0 else 1
      resets := if source = .powerOn then 0#32 else wrapInc s.rst.resets, unjournaled := unwritten
      heldFaults := if source = .powerOn then [] else alarms }
    kvl := { d.kvl with erases := erasesKept s }
    hif := { d.hif with eps := tmap d.hif.eps (fun e x => { x with perst := (endpointOf s e).perst }) }
    out := s.out, free := s.free, pending := s.pending }

/-- POWER_ON_RESET. -/
def execPowerOnReset (s : State) : Result := .next (deviceReset s .powerOn false false)

/-- RST_N_ASSERT: it governs a FAULT or WATCHDOG reset that waits (R600). -/
def execRstNAssert (s : State) : Result := .next (deviceReset s .rstN false false)

/-- RST_N_DEASSERT. -/
def execRstNDeassert (s : State) : Result :=
  .next (if s.rst.inReset then rstMod s (fun r => { r with inReset := false, waiting := 1, upTicks := 0 }) else s)

/-- RST_SW_DEVICE_RESET. -/
def execRstSwDeviceReset (testMode : Bool) (s : State) : Result := .next (deviceReset s .software testMode false)

/-- The ring is written to the journal as far as the journal takes entries. -/
def journalFlush : Nat → State → State
  | 0, s => s
  | n + 1, s => if s.flt.ring.isEmpty then s else journalFlush n (journalWrite s)

/-- A FAULT or WATCHDOG reset, after its RESET record. -/
def faultReset (s : State) (source : ResetSource) (cause : Option FaultRecord) : State :=
  let s := journalFlush (ringSize + 1) (journalReset s cause source.code)
  deviceReset s source false (!s.flt.ring.isEmpty)

/-- FAULT_RESET_DUE (R560): the beat 100,000 ticks after the L4 record was taken, which its writing to the journal brings forward. -/
def faultResetDue (s : State) : State :=
  match s.flt.resetDue with
  | none => s
  | some (q, t, b) =>
    let r := (s.flt.store.find? (fun e => e.2.seq == q)).map (·.2)
    if s.flt.l4Action && decide (t * 1600 + b ≤ nowBeats s) then faultReset s .fault r else s

def execFaultResetDue (s : State) : Result := .next (faultResetDue s)

/-! The Supervisor (R515, R586, R587). -/

/-- H2S mailboxes emptied (R515). A message already taken, whose reply waits, is not marked ABORTED. -/
def mailboxesAborted (s : State) : State :=
  let untaken := fun (m : Mailbox) => m.h2sFull && m.heldReply.isNone
  let n := (s.mbx.boxes.filter (fun e => untaken e.2)).length
  { s with mbx := { s.mbx with
      h2sAborted := wrapAdd s.mbx.h2sAborted n
      boxes := tmap s.mbx.boxes (fun _ m =>
        if untaken m then { m with h2sFull := false, h2sAborted := true, reject := false, h2s := patch m.h2s 1 [0x02#8] }
        else if m.h2sFull then { m with h2sFull := false, reject := false, heldReply := none }
        else m) } }

/-- The record that causes a watchdog or Supervisor reset: the OPEN one of SUPERVISOR_WATCHDOG (R564). -/
def watchdogRecord (s : State) : Option FaultRecord :=
  (openRecords s.flt.store).find? (fun r => r.cls.toNat == FaultClass.supervisorWatchdog.code)

/-- A Supervisor reset begins: forwarding continues, the instance of IEEE 1588 stops, and a RESET record of code 5 is
journaled, of the record that caused it. -/
def supervisorReset (s : State) (cause : Option FaultRecord) : State :=
  if s.rst.restarting || !releasedOf s 6 then s
  else
    let s := rstMod s (fun r =>
      { r with restarting := true, restartTick := intervalStart s, supervisorResets := wrapInc r.supervisorResets, wdogRunning := false })
    let s := if s.ptp.enable then sourceLost { s with ptp := Ptp.off } .ptp else s
    journalReset (mailboxesAborted s) cause 5

def execSupervisorReset (s : State) : Result := .next (supervisorReset s (watchdogRecord s))

/-- RST_SW_SUPERVISOR_RESET, which no record causes. -/
def execRstSwSupervisorReset (s : State) : Result := .next (supervisorReset s none)

/-- SUPERVISOR_RESUME: the verified firmware resumes and completes the commands in process ABORTED. -/
def supervisorResume (s : State) (verified : Bool) : State :=
  if !s.rst.restarting || !verified then s
  else
    let s := rstMod s (fun r => { r with restarting := false, wdogRunning := true })
    [0, 1].foldl (fun s ep => (adminOf s ep).accepted.foldl (fun s c => adminFinish s ep c.cid 0x02#8 []) s) s

def execSupervisorResume (verified : Bool) (s : State) : Result := .next (supervisorResume s verified)

/-- SUPERVISOR_WATCHDOG (R586): the first expiry raises the fault, whose containment is a Supervisor reset; one while a
Supervisor reset runs is a device watchdog reset. -/
def supervisorWatchdog (s : State) : State :=
  if !releasedOf s 6 then s
  else
    let s := rstMod s (fun r => { r with expiries := wrapInc r.expiries, lastExpiry := BitVec.ofNat 32 (now s) })
    if s.rst.restarting then faultReset s .watchdog (watchdogRecord s)
    else reportHeld (raise s .supervisorWatchdog 0x00 wholeUnit)

def execSupervisorWatchdog (s : State) : Result := .next (supervisorWatchdog s)

end Sys2Proof.Machine
end

