-- ==== Sys2Proof/Machine/Startup.lean ====
section
/-!
DEFINITION. Start-up: the option-byte read, the domain releases, and the load of a Recipe slot (R98-R117, R592-R599).
-/

namespace Sys2Proof.Machine

/-! Faults of the start, held until the collector runs (R599). -/

def holdFirmware (s : State) (cls : FaultClass) (unit : Nat) : State :=
  reportHeld (raiseFirmware s cls (subjU unit wholeUnit))

def nvmUnit : Nat := 0x01
def supervisorUnit : Nat := 0x00

/-- Reports held go to the collector. -/
def heldReports (s : State) : State :=
  { s with flt := { s.flt with inbox := s.rst.heldFaults ++ s.flt.inbox }, rst := { s.rst with heldFaults := [] } }

/-- Recovery mode begins (R116). -/
def enterRecovery (s : State) : State := heldReports (rstMod s (fun r => { r with recovery := true }))

/-! The option-byte read (R101, R588, R592). -/

def optionCopy (s : State) (second : Bool) : List Byte :=
  if s.board.nvm0Size = 0 then List.replicate 64 0xFF#8 else nvmGet s false (if second then 0x8000 else 0) 64

/-- The copy selected, and whether only one is valid (R101). -/
def optionSelect (s : State) : Option (Options × Bool) :=
  let a := optionCopy s false
  let b := optionCopy s true
  let pick := fun ob c => optionsOf s.board.f256 ob c
  match optionOk a, optionOk b with
  | true, true => some (if leAt a 6 2 < leAt b 6 2 then pick 2 b else pick 1 a, false)
  | true, false => some (pick 1 a, true)
  | false, true => some (pick 2 b, true)
  | false, false => none

/-- Test mode, decided by the option bytes (R588). -/
def testDecide (s : State) : State :=
  rstMod s (fun r =>
    { r with testMode := r.testRequested && !r.options.policy.getLsbD 1, testRefused := r.testRequested && r.options.policy.getLsbD 1
             testRequested := false })

def optionByteRead (s : State) : State :=
  if !releasedOf s 5 || s.rst.optRead then s
  else
    match optionSelect s with
    | some (o, one) =>
      let s := testDecide (rstMod s (fun r => { r with optRead := true, options := o, policyEff := o.policy }))
      if one then holdFirmware s .optionCopyBad nvmUnit else s
    | none =>
      let s := testDecide (rstMod s (fun r => { r with optRead := true, options := optionsRecovery, policyEff := 0#4 }))
      enterRecovery (holdFirmware s .optionBytesBad nvmUnit)

def execOptionByteRead (s : State) : Result := .next (optionByteRead s)

/-! Domain releases (R593, R594). -/

/-- The journal pointer keeps R98: inside its device, outside the first 64 KiB of NVM0, and apart from the slots that are
present. -/
def journalPointerOk (s : State) : Bool :=
  let j := journalRegion s.rst.options.journal
  regionFits s.board j
  && [s.rst.options.slotA, s.rst.options.slotB].all (fun p => !p.getLsbD 0 || !regionsMeet j (slotRegion p))

/-- A release that R594 or R597 skips. -/
def releaseSkipped (s : State) (k : Nat) : Bool :=
  let r := s.rst
  if 9 ≤ k ∧ k ≤ 13 then
    r.recovery || (k == 11 && (r.epochFailed || r.exhausted)) || (k == 13 && !r.options.paired)
  else k == 14 && (r.options.ob == 0 || r.policyEff.getLsbD 0)

/-- The conditions of a release that the device itself holds. -/
def releaseHolds (s : State) (k : Nat) : Bool :=
  match k with
  | 6 => s.rst.optRead
  | 9 => s.rst.staged
  | 11 => s.rst.committed
  | _ => true

/-- The next release performed after `k`, or 0 when none is left. -/
def releaseNext (s : State) (k : Nat) : Nat :=
  ((List.range 15).find? (fun j => decide (k < j) && !releaseSkipped s j)).getD 0

/-- The tick number at CORE release without a traceable source (R57). -/
def tickStart (s : State) : State :=
  if s.tmb.traceable then s
  else
    let mark := if s.sec.vbatValid then s.sec.tickMark.toNat else 0
    let newest := match journalNewest s with | some (_, _, w) => w | none => 0
    let tick := max mark newest + 2000000
    let moved := fun (t : Nat) => t + tick - now s
    let s := kvlMod s (fun k => { k with startTick := moved k.startTick, reseedTick := moved k.reseedTick })
    { s with tmb := { s.tmb with tick := BitVec.ofNat 64 tick } }

/-- The RESET record of the first start after a loss of VBAT (R564, R573): that of the ALARM_VBAT report, held or past. -/
def vbatRecord (s : State) : State :=
  if s.sec.vbatLoss then
    let r := s.rst.heldFaults.find? (fun r => r.cls == .alarmVbat)
    let c : FaultRecord :=
      { FaultRecord.blank with cls := BitVec.ofNat 16 FaultClass.alarmVbat.code, count := 1#32, subject := subjU 0x03 4,
                               level := raisedLevel s.flt.overrides .alarmVbat FaultClass.alarmVbat.row.level,
                               capture := (r.map (·.cap)).getD Capture.blank }
    secMod (journalReset s (some c) s.rst.source.code) (fun x => { x with vbatLoss := false })
  else s

/-- The RESET record of the reset that ended, and those of a loss of VBAT and of a lost REF_100 (R558, R573, R599). -/
def resetRecord (s : State) : State :=
  let s := if s.rst.unjournaled then journalReset s none s.rst.source.code else s
  let s := vbatRecord (rstMod s (fun r => { r with unjournaled := false }))
  if s.sec.refLossFlag then
    let c : FaultRecord :=
      { FaultRecord.blank with cls := BitVec.ofNat 16 FaultClass.clockLockLoss.code, level := 4, count := 1#32,
                               subject := subjU timebaseUnit wholeUnit }
    let s := journalReset s (some c) s.rst.source.code
    rstMod (secMod s (fun x => { x with refLossFlag := false })) (fun r => { r with clockLossFlag := true })
  else s

/-- Version 0 becomes current (R201). -/
def versionStart (s : State) : State :=
  { s with dec := { s.dec with slots := tmap s.dec.slots (fun _ v => { v with sinceTick := s.tmb.tick }) } }

/-- Load step 7 after CORE release (R596, R599). -/
def coreReleased (s : State) : State :=
  heldReports (commitEpoch (resetRecord (journalResume (versionStart (tickStart s)))))

/-- The lowest 64 MiB boundary for the context store (R395). -/
def ctxStore (windows : List (Nat × Nat)) : Option Nat :=
  ((List.range 1440).find? (fun k =>
    let a := k * 0x4000000
    !overlapping a 0x4000000 0 0x214000100 && windows.all (fun w => !overlapping a 0x4000000 w.1 w.2))).map (· * 0x4000000)

/-- Macros with an enabled, mapped lane begin to lock; the others stay OFF or ABSENT (R594). -/
def macrosReleased (s : State) : State :=
  (List.range 16).foldl (fun s m =>
    if (macroOf s m).state = .off ∧ !(portsOf s m).isEmpty then macroMod s m (fun x => { x with state := .locking }) else s) s

/-- An enabled endpoint leaves reset with the HTX and HPL domains (R442, R460). -/
def endpointsReleased (s : State) : State :=
  [0, 1].foldl (fun s e =>
    if (if e = 0 then s.rst.options.hp0En else s.rst.options.hp1En) then
      endpointMod s e (fun x => if x.perst then x else { x with inReset := false, readyBy := some (intervalStart s + 100000) })
    else s) s

/-- What a release brings. -/
def domainEffect (s : State) (k : Nat) : State :=
  match k with
  | 2 =>
    let s := AlarmKind.all.foldl (fun s a => alarmMod s a AlarmState.stand) s
    kvlMod s (fun v => { v with rng := .startup, startTick := intervalStart s })
  | 6 =>
    let s := rstMod s (fun r => { r with wdogRunning := true })
    if s.rst.recovery || journalPointerOk s then s else enterRecovery s
  | 7 => rstMod (endpointsReleased s) (fun r => { r with supervisorMs := BitVec.ofNat 32 (r.upTicks / 1000) })
  | 9 => coreReleased s
  | 11 => cphMod s (fun c => { c with enabled := true, bootEpoch := s.rst.epoch })
  | 12 => macrosReleased s
  | _ => s

/-- The end of the sequence completes step 7 of a load that passed. -/
def releasesEnd (s : State) : State :=
  if s.rst.waiting = 0 ∧ s.rst.staged ∧ !s.rst.loaded then rstMod s (fun r => { r with loaded := true, applyDue := true }) else s

/-- DOMAIN_RELEASE: `ready` says that the clocks, locks and self-tests that the release waits for are there. -/
def domainRelease (s : State) (ready : Bool) : State :=
  let k := s.rst.waiting
  if k = 0 || !ready || s.rst.inReset || !releaseHolds s k then s
  else if releaseSkipped s k then releasesEnd (rstMod s (fun r => { r with waiting := releaseNext s k }))
  else
    let s := rstMod s (fun r => { r with released := r.released ||| BitVec.ofNat 14 (2 ^ (k - 1)) })
    let s := domainEffect s k
    releasesEnd (rstMod s (fun r => { r with waiting := releaseNext s k }))

def execDomainRelease (ready : Bool) (s : State) : Result := .next (domainRelease s ready)

/-! The load of a slot (R112-R116). -/

def recipeBindings (r : Recipe) : List Binding := r.programs.flatMap (·.bindings)

/-- The control thread's engine: the lowest of the cluster that is no spare (R354). -/
def controlEngine (spares : BitVec 96) (k : Nat) : Nat :=
  ((List.range 12).find? (fun i => !spares.getLsbD (k * 12 + i))).map (k * 12 + ·) |>.getD (k * 12)

/-- The port of a PORT destination word (R210). -/
def destWordPort (w : W32) : List Nat := if w.toNat / 2 ^ 28 = 1 then [w.toNat % 1024] else []

/-- The ports that the tables name; the destinations of an entry with VALID clear are not interpreted (R211). -/
def tablePorts (t : TableImage) : List Nat :=
  t.aggregates.flatMap (fun g => g.2.map (·.port))
  ++ t.floodGroups.flatMap (fun g => (List.range 512).filter (fun i => g.2.getLsbD i))
  ++ (t.mac.filter (·.valid)).flatMap (fun e => destWordPort e.dest)
  ++ (t.vtables.ternary.filter (·.2.valid)).flatMap (fun e => destWordPort e.2.dest ++ destWordPort e.2.copyDest)
  ++ (t.adjacencies.filter (·.2.valid)).flatMap (fun e => destWordPort e.2.dest)

def recipeCfg (s : State) (r : Recipe) : ProofCfg :=
  let spares := maskBits 96 r.demand.spares.toNat
  { f256 := s.board.f256
    lanes := s.rst.options.lanes
    portMap := r.portMap
    tablePorts := tablePorts r.tables
    demand := r.demand
    cph := r.cphBank
    eng := r.engBank
    que := r.queBank
    outOfUse := []
    freeSpares := spares
    spares := spares
    control := r.programs.map (fun p => (p.cluster, controlEngine r.demand.spares p.cluster))
    bindings := recipeBindings r
    programs := r.programs.map (fun p => (p.cluster, p.programs))
    controls := r.programs.map (fun p => (p.cluster, p.control))
    imemSizes := r.programs.map (fun p => (p.cluster, p.image.length))
    code := fun k i => match r.programs.find? (fun p => p.cluster == k) with
      | some p => p.image.getD i 0#48
      | none => 0#48
    worst := r.worst
    minSum := sumOf (r.sched.queues.map (fun q => q.2.min)) }

/-- Pairs of a list that meet. -/
def anyMeet {α : Type} (f : α → α → Bool) : List α → Bool
  | [] => false
  | x :: l => l.any (f x) || anyMeet f l

def storageRange (r : Recipe) : List (Nat × Nat) :=
  match r.storage with
  | some x => [(x.bufBase, x.bufSize)]
  | none => []

def recipeWindows (r : Recipe) : List (Nat × Nat) := r.programs.map (fun p => (p.hbmBase, p.hbmSize)) ++ storageRange r

/-- What step 5 checks over the sections together: start entries and queues of ports (R193, R277), bindings and their slots
(R343), programs (R381, R387), a place for the context store (R395), the pair (R518) and storage (R426). -/
def stagedOk (s : State) (r : Recipe) : Bool :=
  let bs := recipeBindings r
  let spares := maskBits 96 r.demand.spares.toNat
  let c := recipeCfg s r
  portStartsOk r.portMap r.parse && schedPortsOk r.portMap r.sched
  && bs.all (bindingOk spares) && !anyMeet bindingsMeet bs && bindingRowsOk r.engBank bs
  && (List.range 8).all (fun k => decide ((bs.filter (fun b => b.cluster == k)).length ≤ 65536)
    && (List.range 12).any (fun i => !r.demand.spares.getLsbD (k * 12 + i)))
  && programsAgree r.programs && (programIds c).all (fun p => decide (worstSlots c p ≤ 250))
  && r.programs.all (fun p => p.hbmSize == 0 || (!overlapping p.hbmBase p.hbmSize 0 0x214000100 && decide (p.hbmBase + p.hbmSize ≤ hbmEnd)))
  && !anyMeet (fun a b => overlapping a.hbmBase a.hbmSize b.hbmBase b.hbmSize) (r.programs.filter (fun p => p.hbmSize ≠ 0))
  && (ctxStore (recipeWindows r)).isSome
  && (match r.pair with
      | some x => pairFits s.rst.options.paired r.portMap r.tables.aggregates bs r.programs x
      | none => true)
  && (match r.storage with | some x => storageFits r.portMap r.programs r.offers x | none => true)

/-- The MAC image entered into an empty table, or none where an entry finds no place. -/
def macImage (f : Fwd) : List MacEntry → Option Fwd
  | [] => some f
  | e :: es =>
    match macFree f e.bd e.mac with
    | some p => macImage (macWritePlace f p (some e)) es
    | none => none

def macStart (f : Fwd) (t : TableImage) : Fwd := { f with seeds := t.seeds, mac := [], ports := t.ports }

def tablesFit (s : State) (t : TableImage) : Bool :=
  (macImage (macStart s.fwd t) t.mac).isSome && vtablesFit t.vtables

/-- The checks of a load in code order (R121). -/
def recipeProof (s : State) (r : Recipe) : ProofResult :=
  let c := recipeCfg s r
  match firstOf (List.range 0x12) (proofCheck c) with
  | some x => x
  | none =>
    if !tablesFit s r.tables then refusal 0x12 0xFF 0 0 0
    else match r.sched.gates.find? (fun e => decide (256 < e.2.entries.length)) with
    | some e => refusal 0x13 0xFF e.1 e.2.entries.length 256
    | none =>
      if 1048576 < r.meters.length then refusal 0x14 0xFF 0 r.meters.length 1048576
      else (offerCheck r.offers r.storage.isSome r.pools.isSome).getD (proofPass r.demand)

/-- Bytes of the slot, from its start on. -/
def slotBytes (s : State) (slotB : Bool) (a n : Nat) : List Byte :=
  let g := slotRegion (if slotB then s.rst.options.slotB else s.rst.options.slotA)
  nvmGet s g.second (g.start + a) n

/-- A read of `n` bytes at `a` meets the byte whose read fails. -/
def readFails (bad : Option Nat) (a n : Nat) : Bool :=
  match bad with
  | some k => decide (a ≤ k) && decide (k < a + n)
  | none => false

/-- Step 1 of R113: header, section table and signature block. -/
def loadHead (s : State) (slotB : Bool) (bad : Option Nat) : Except Nat (ImageHeader × List SectionEntry × List Byte) :=
  let b := slotBytes s slotB 0 64
  let h := headerOf b
  let table := slotBytes s slotB 64 (64 * h.sections)
  let sig := slotBytes s slotB (h.size - sigBytes) sigBytes
  if readFails bad 0 64 then .error 5
  else if !headerOk (slotRegion (if slotB then s.rst.options.slotB else s.rst.options.slotA)).size b then .error 1
  else if readFails bad 64 (64 * h.sections) || readFails bad (h.size - sigBytes) sigBytes then .error 5
  else if !sectionTableOk s.rst.options.paired h table || !sigBlockOk sig then .error 1
  else .ok (h, sectionsOf h.sections table, sig)

/-- Step 5 of R113 for one section: its bytes are read, its digest is checked, the firmware is verified (R108), and its content
is placed. -/
def loadSection (s : State) (slotB : Bool) (bad : Option Nat) (r : Recipe) (e : SectionEntry) : Except Nat Recipe :=
  let b := slotBytes s slotB e.offset e.length
  if readFails bad e.offset e.length then .error 5
  else if sha384 b != e.digest then .error 0xA
  else if e.type == 0x000A && !firmwareOk s.board.olelonKey b then .error 0xA
  else match placeSection r e b with
    | some r => .ok r
    | none => .error 1

/-- Steps 1 to 6 of R113: the staged Recipe, or the slot's result with the proof's check code. -/
def recipeVerdict (s : State) (slotB : Bool) (bad : Option Nat) : Except (Nat × Nat) Recipe :=
  let o := s.rst.options
  let valid := if slotB then o.slotB.getLsbD 0 else o.slotA.getLsbD 0
  if !valid || !slotPointerOk s.board o slotB then .error (1, 0)
  else match loadHead s slotB bad with
    | .error e => .error (e, 0)
    | .ok (h, table, sig) =>
      if !(if s.board.f256 then h.f256 else h.f512) then .error (4, 0)
      else if !ownerAccepted s.board.ownerKeys o.keyAccept h sig (slotBytes s slotB 0 (sectionAt h.sections)) then .error (0xA, 0)
      else if h.securityVersion.toNat < o.minSecurity.toNat then .error (7, 0)
      else match table.foldlM (loadSection s slotB bad) (Recipe.blank h) with
        | .error e => .error (e, 0)
        | .ok r =>
          if !stagedOk s r then .error (1, 0)
          else
            let p := recipeProof s r
            if p.status = 0 then .ok r else .error (p.status, p.check)

/-! Step 7: the staged content is applied. -/

/-- A port of the port map before its macro locks. -/
def Port.ofMap (e : PortMapEntry) : Port :=
  { cfg := e, lanes := e.lanes, laneRate := e.laneRate, fec := e.fec, newSpeed := none, state := .offline,
    admitting := false, link := false, dist := false, contained := false, adminUp := e.adminUp, localFaultRx := false,
    remoteFaultRx := false, remoteDegraded := false, blockLock := 0#8, aligned := false, rxOrder := [],
    linkLoss := false, fecHit := 0, txRaise := false, txStartNow := e.txStart,
    txStartBase := e.txStart, degradeSet := e.degradeSet, degradeClear := e.degradeClear, bin := 0, bins := [],
    windowSum := 0#32, evalTickLo := 0#32, downTicks := 0, downWhole := false, drain := none, due := none,
    txCond := .electricalIdle, stats := [], statsOld := none }

def tblOf {α : Type} (l : List (Nat × α)) : Tbl α := l.foldl (fun t e => tset t e.1 e.2) []

def applyForward (s : State) (t : TableImage) : State :=
  let f := (macImage (macStart s.fwd t) t.mac).getD s.fwd
  { s with
    fwd := { f with
      agePeriod := t.agePeriod, flowSeed := t.flowSeed, flowAgePeriod := t.flowAgePeriod, tenants := t.tenants
      adjacencies := t.adjacencies, etypeLists := t.etypeLists, aggregates := t.aggregates
      floodGroups := t.floodGroups, beatOld := none, agedDue := [] }
    dec := { s.dec with slots := [(0, { VSlot.empty with state := .current, tables := t.vtables })] } }

/-- One cluster's ENGINE_PROGRAMS section (R385, R386). -/
def Cluster.ofSection (p : ProgramSection) : Cluster :=
  { Cluster.empty with
    imem := tblOf (p.image.zipIdx.map (fun x => (x.2, x.1))), programs := p.programs, controlProgram := p.control,
    shared := p.runs, runs := p.runs, hbmBase := p.hbmBase, hbmSize := p.hbmSize, initState := p.states }

/-- The control thread's channel record (R354): its state from word 80 of the home thread. -/
def controlBinding (p : ProgramSection) (e : Nat) : Binding :=
  { channel := controlChannel p.cluster, program := p.control, pooled := false, cluster := p.cluster, pool := 0, engine := e,
    thread := 7, inbox := none, stateAddr := 80, stateWords := 1024 }

def applyEngines (s : State) (r : Recipe) : State :=
  let spares := r.demand.spares
  let eng : Eng := { s.eng with
    engines := tblOf ((List.range 96).map (fun e =>
      (e, { Engine.reset with state := if spares.getLsbD e then .spare else .inService })))
    clusters := tblOf (r.programs.map (fun p => (p.cluster, Cluster.ofSection p)))
    control := tblOf (r.programs.map (fun p => (p.cluster, controlEngine spares p.cluster))) }
  let bs := recipeBindings r ++ r.programs.map (fun p => controlBinding p (controlEngine spares p.cluster))
  let s := { s with eng := { eng with channels := tblOf (bs.map (fun b => (b.channel, Channel.bound b))) } }
  bs.foldl (fun s b => channelRestart s b.channel) s

/-- A gate list of the SCHEDULER section is current from the application on, in phase (R275). -/
def gateLoad (s : State) (n : Nat) (g : GateList) : State :=
  if g.entries.isEmpty then s else gateNow (schPortMod s n (fun p => { p with list := some g })) n

/-- The SCHEDULER and METERS sections: buckets begin full (R269). -/
def applyQueues (s : State) (x : SchedSection) (meters : Tbl Meter) : State :=
  let s := { s with
    sch := { s.sch with hwmPeriodLog2 := x.hwmPeriod, queues := x.queues, meters := tmap meters (fun _ m => meterFull m (now s)) }
    crb := { s.crb with holdLimit := x.holds } }
  x.gates.foldl (fun s g => gateLoad s g.1 g.2) s

/-- Alarm policies and reactions (R580). -/
def settlePolicy (lock : Bool) (a : AlarmState) (p : AlarmPolicy) : AlarmState :=
  let rank := fun (x : AlarmPolicy) => match x with | .log => 0 | .alarm => 1 | .erase => 2
  let higher := match a.stored with
    | some q => decide (rank q ≤ rank p)
    | none => true
  if higher || !lock then { a with policy := p, stored := some p } else { a with policy := a.stored.getD a.policy }

def applyPolicy (s : State) (r : Recipe) : State :=
  let lock := s.rst.policyEff.getLsbD 3
  let s := (AlarmKind.all.zip r.policies).foldl (fun s x => alarmMod s x.1 (fun a => settlePolicy lock a x.2)) s
  let s := secMod s (fun x => { x with vbatValid := true })
  fltMod s (fun f =>
    { f with overrides := r.overrides, irqLevel := r.irqLevel, journalLevel := r.journalLevel, l4Action := r.l4Action })

/-- A target as loaded: its paths begin to connect (R435), and NS_LOSS_TIMEOUT counts from the load. -/
def targetStart (now : Nat) (t : Target) : Target :=
  { t with
    paths := t.paths.map (fun p => { p with state := .connecting, backoff := 200000, attemptAt := now + 100000, attempting := false, pace := 2 ^ 32, paceAt := 0 })
    failures := 0#16, vwc := false, lostSince := some now }

/-- The storage unit as a section starts it: nothing in process, no controller set up, and no namespace NOT_READY. -/
def storageStart (now : Nat) (x : Sto) : Sto :=
  { x with
    present := true, targets := tmap x.targets (fun _ t => targetStart now t)
    namespaces := tmap x.namespaces (fun _ n => { n with errors := 0#32, notReady := false })
    nsDue := [], ctls := [], cmds := [], timeouts := 0#16, reissues := 0#16, transient := 0#16, internal := 0#16 }

def applyRecipe (s : State) (r : Recipe) : State :=
  let s := { s with
    app := { demand := r.demand, worst := r.worst, demandDue := none, portMap := r.portMap, parse := r.parse,
             control := r.control, requiredPolicy := r.header.requiredPolicy }
    sltCph := { s.sltCph with bank0 := r.cphBank }
    sltEng := { s.sltEng with bank0 := r.engBank }
    sltQue := { s.sltQue with bank0 := r.queBank }
    lnm := { s.lnm with ports := tblOf (r.portMap.map (fun e => (e.port, Port.ofMap e))) }
    que := { s.que with pools := r.pools.getD HostPools.empty, offers := r.offers }
    mir := { s.mir with pair := r.pair.getD PairSection.empty }
    tmb := { s.tmb with leader := !s.rst.options.paired || !s.rst.options.sideB }
    sto := (r.storage.map (storageStart (intervalStart s))).getD s.sto
    cph := { s.cph with ctxBase := BitVec.ofNat 37 ((ctxStore (recipeWindows r)).getD 0) } }
  let s := rstMod s (fun x =>
    { x with staged := true, securityVersion := r.header.securityVersion, recipeId := r.header.recipeId
             policyEff := x.options.policy ||| r.header.requiredPolicy })
  applyPolicy (applyQueues (applyEngines (applyForward s r.tables) r) r.sched r.meters) r

/-- The slot that the load tries next: the preferred one, then the other unless NO_FALLBACK. -/
def slotNext (s : State) : Option Bool :=
  let o := s.rst.options
  let first := o.preferB
  let firstTried := if first then s.rst.bTried else s.rst.aTried
  let otherTried := if first then s.rst.aTried else s.rst.bTried
  if s.rst.staged || s.rst.recovery then none
  else if !firstTried then some first
  else if !otherTried && !o.noFallback then some (!first)
  else none

/-- What an attempt at a slot leaves in RST_RCP_STAT: that it was made, its result, and the check code of the last slot that
reached step 6. -/
def slotResult (s : State) (slotB : Bool) (status check : Nat) : State :=
  rstMod s (fun x =>
    { x with
      aTried := x.aTried || !slotB, bTried := x.bTried || slotB
      aResult := if slotB then x.aResult else BitVec.ofNat 8 status
      bResult := if slotB then BitVec.ofNat 8 status else x.bResult
      proofCheck := if status = 0 || check ≠ 0 then BitVec.ofNat 8 check else x.proofCheck })

/-- A slot that passed steps 1 to 6 is applied (R115). -/
def slotApplied (s : State) (slotB : Bool) (r : Recipe) : State :=
  let fell := slotB != s.rst.options.preferB
  let s := applyRecipe (rstMod s (fun x => { x with activeB := slotB, fellBack := fell })) r
  if fell then holdFirmware s .recipeFallback supervisorUnit else s

/-- A slot failed: the next one is tried, or recovery mode begins (R115, R116). -/
def slotFailed (s : State) : State :=
  match slotNext s with
  | some _ => s
  | none =>
    let s := enterRecovery (holdFirmware s .recipeNone supervisorUnit)
    rstMod s (fun x => { x with waiting := releaseNext s 8 })

/-- RECIPE_SLOT_LOAD: one slot through its steps; a failure leaves nothing behind (R113, R114). `bad` is the offset in the image
of the first byte whose NVM read fails, none where every read succeeds. -/
def recipeSlotLoad (s : State) (slotB : Bool) (bad : Option Nat) : State :=
  if !releasedOf s 8 || slotNext s != some slotB then s
  else
    match recipeVerdict s slotB bad with
    | .ok r => slotApplied (slotResult s slotB 0 0) slotB r
    | .error (status, check) => slotFailed (slotResult s slotB status check)

def execRecipeSlotLoad (slotB : Bool) (badAt : Option Nat) (s : State) : Result := .next (recipeSlotLoad s slotB badAt)

end Sys2Proof.Machine
end

