-- ==== Sys2Proof/Machine/AdminMaint.lean ====
section
/-!
DEFINITION. Admin commands on spare and reserve units, faults, the NVM, owner keys and the device reset (R39, R85, R97-R99,
R112, R361, R487, R568, R583).
-/

namespace Sys2Proof.Machine

/-! ENGINE_SELFTEST (R361). -/

/-- Spares that are free, but for one engine: of the others in state SPARE, those that losses not yet covered will take are not. -/
def sparesBeside (s : State) (e : Nat) : Nat :=
  let lost := fun (v : Nat) => s.sltEng.due.any (fun d => d.1 == v)
  ((spareEngines s).filter (fun v => v != e && !lost v)).length - (s.sltEng.due.filter (fun d => d.1 != e && engineIs s .inService d.1)).length

/-- The test of an engine leaves a free spare: one in service takes a spare with it. -/
def testLeavesSpare (s : State) (e : Nat) : Bool :=
  match (engineOf s e).state with
  | .inService => decide (2 ≤ sparesBeside s e)
  | .spare | .failed | .copySource => decide (1 ≤ sparesBeside s e)
  | .inactive | .test | .retired => false

def engineSelftest (ep : Nat) (s : State) (b : List Byte) : AdminAnswer :=
  let e := leAt b 20 1
  if s.eng.test.isSome then adminFail s 8
  else if !testLeavesSpare s e then adminFail s 4
  else
    let s := { s with eng := { s.eng with testEngine := e, test := some { engine := e, ends := none, waiter := adminWaiter ep b } } }
    adminLater (if (engineOf s e).state = .inService ∧ !engineStopped s e then
        sltEngMod s (fun x => { x with due := x.due ++ [(e, .test)] })
      else s)

def execEngineSelftest (ep : Fin 2) (entry _data : List Byte) (s : State) : Result :=
  .next (adminRun s ep.val entry { op := 0x60, named := false, used := [(20, 1)], proofed := false }
    (fun b => decide (leAt b 20 1 < 96)) (engineSelftest ep.val))

/-! SLAB_TEST (R85). -/

/-- Units of a kind, as rows of the slab: cores 0-127, GF units 128-191. -/
def slabRows (gf : Bool) : List Nat := if gf then (List.range 64).map (· + 128) else List.range 128

/-- A row is EMPTY in the current bank and in a pending one. -/
def slabRowEmpty (s : State) (r : Nat) : Bool :=
  s.sltCph.bank.rowEmpty r && (s.sltCph.pending.isNone || s.sltCph.other.rowEmpty r)

/-- Reserve units of a kind: in use by no row, not out of use and not under test. -/
def slabReserve (s : State) (gf : Bool) : List Nat :=
  (slabRows gf).filter (fun r =>
    slabRowEmpty s r && !(s.cph.lost.contains r) && !((s.cph.test.map (fun t => t.started && t.unit == r)).getD false))

def slabTest (ep : Nat) (s : State) (b : List Byte) : AdminAnswer :=
  let gf := leAt b 20 1 == 1
  let u := leAt b 21 1 + (if gf then 128 else 0)
  if s.cph.lost.contains u || ((slabReserve s gf).filter (· ≠ u)).isEmpty then adminFail s 4
  else if s.cph.test.isSome then adminFail s 8
  else
    let s := cphMod s (fun k => { k with test := some { unit := u, started := false, waiter := adminWaiter ep b } })
    adminLater { s with sltCph := { s.sltCph with due := s.sltCph.due ++ [(u, .test)] } }

def execSlabTest (ep : Fin 2) (entry _data : List Byte) (s : State) : Result :=
  .next (adminRun s ep.val entry { op := 0x61, named := false, used := [(20, 2)], proofed := false }
    (fun b => decide (leAt b 20 1 ≤ 1) && decide (leAt b 21 1 < (if leAt b 20 1 = 1 then 64 else 128))) (slabTest ep.val))

/-! HBM_RETIRE (R39). -/

/-- Channel 15 of a stack is taken, or will be at the next boundary. -/
def stackSpareUsed (s : State) (stack : Nat) : Bool :=
  s.hbmU.retired.any (fun c => c / 16 == stack) || s.hbmU.due.any (fun d => d.1 / 16 == stack)

def hbmRetire (ep : Nat) (s : State) (b : List Byte) : AdminAnswer :=
  if stackSpareUsed s (leAt b 20 1) then adminFail s 4
  else
    adminLater { s with hbmU := { s.hbmU with due := s.hbmU.due ++ [(16 * leAt b 20 1 + leAt b 21 1, adminWaiter ep b)] } }

def execHbmRetire (ep : Fin 2) (entry _data : List Byte) (s : State) : Result :=
  .next (adminRun s ep.val entry { op := 0x62, named := false, used := [(20, 2)], proofed := false }
    (fun b => decide (leAt b 20 1 < 4) && decide (leAt b 21 1 < 15)) (hbmRetire ep.val))

/-! FAULT_ACK (R568). -/

/-- The parameters of an admin entry, and those of FLT_ACK. -/
def ackOfEntry (b : List Byte) : AckParams :=
  let f := leAt b 21 1
  { index := leAt b 20 1, recover := bitN f 0, rearm := bitN f 1, all := bitN f 2, seq := BitVec.ofNat 32 (leAt b 24 4),
    bad := decide (8 ≤ f) }

def ackOfRegister (v : W64) : AckParams :=
  { index := fieldN v.toNat 0 8, recover := v.getLsbD 8, rearm := v.getLsbD 9, all := v.getLsbD 10,
    seq := BitVec.ofNat 32 (v.toNat / 2 ^ 32), bad := fieldN v.toNat 11 21 != 0 }

def faultAckAdmin (s : State) (b : List Byte) : AdminAnswer :=
  let (s, st, n, acts) := faultAck s (ackOfEntry b)
  adminDone s st.toNat (if st = 0#8 then leBytes 1 n ++ leBytes 1 (if acts then 1 else 0) else [])

/-- A write of FLT_ACK: its status and count stand in the register. -/
def faultAckRegister (s : State) (v : W64) : State :=
  if !collectorRuns s then s
  else
    let (s, st, n, _) := faultAck s (ackOfRegister v)
    fltMod s (fun f => { f with ackStatus := st, ackCount := BitVec.ofNat 8 n })

def execFaultAck (source : AckSource) (s : State) : Result :=
  .next (match source with
    | .admin ep entry =>
      adminRun s ep.val entry { op := 0x63, named := false, used := [(20, 2), (24, 4)], proofed := false } (fun _ => true)
        faultAckAdmin
    | .register v => faultAckRegister s v)

/-! NVM_READ, NVM_WRITE (R98, R99). -/

def nvmSize (s : State) (second : Bool) : Nat := if second then s.board.nvm1Size else s.board.nvm0Size

/-- The range lies on the device. -/
def nvmHas (s : State) (b : List Byte) : Bool := decide (leAt b 24 4 + adminLen b ≤ nvmSize s (leAt b 20 1 == 1))

def nvmOk (b : List Byte) : Bool := decide (leAt b 20 1 ≤ 1) && decide (adminLen b ≤ 1048576)

def nvmRead (ep : Nat) (s : State) (b : List Byte) : AdminAnswer :=
  if !nvmHas s b then adminFail s 4
  else adminOk (adminOut s ep b (nvmGet s (leAt b 20 1 == 1) (leAt b 24 4) (adminLen b)))

def nvmForm (op : Nat) : AdminForm := { op := op, named := false, used := [(20, 1), (24, 4)], proofed := false }

def execNvmRead (ep : Fin 2) (entry _data : List Byte) (s : State) : Result :=
  .next (adminRun s ep.val entry (nvmForm 0x70) nvmOk (nvmRead ep.val))

/-- The sectors that a write touches: first byte and length. -/
def sectorsOf (a n : Nat) : Nat × Nat := (a / 65536 * 65536, (cdiv (a + n) 65536 - a / 65536) * 65536)

/-- A region in the form of SLOT_A, SLOT_B and JOURNAL (R100) meets a range of a device. -/
def regionMeets (v : W32) (second : Bool) (valid : Bool) (r : Nat × Nat) : Bool :=
  valid && v.getLsbD 1 == second
  && overlapping (fieldN v.toNat 2 13 * 65536) (fieldN v.toNat 15 13 * 65536) r.1 r.2

/-- The write touches what R99 protects. -/
def nvmProtected (s : State) (second : Bool) (r : Nat × Nat) : Bool :=
  let o := s.rst.options
  let slot := if s.rst.activeB then o.slotB else o.slotA
  s.rst.loaded
  && (regionMeets slot second (slot.getLsbD 0) r
      || (o.journal.getLsbD 0 == second && overlapping (journalBase s) (journalSectors s * 65536) r.1 r.2)
      || (s.rst.policyEff.getLsbD 3 && !second && decide (r.1 < 65536)))

def nvmWrite (data : List Byte) (s : State) (b : List Byte) : AdminAnswer :=
  let second := leAt b 20 1 == 1
  let a := leAt b 24 4
  let n := adminLen b
  let r := sectorsOf a n
  if !nvmHas s b then adminFail s 4
  else if n = 0 then adminOk s
  else if nvmProtected s second r then adminFail s 4
  else adminOk (nvmPut (nvmErase s second r.1 r.2) second a (adminData b data))

def execNvmWrite (ep : Fin 2) (entry data : List Byte) (s : State) : Result :=
  .next (adminRun s ep.val entry (nvmForm 0x71) nvmOk (nvmWrite data))

/-! OWNER_KEY_PROGRAM, OWNER_KEY_REVOKE (R112). -/

def ownerKeySet (s : State) (i : Nat) (k : OwnerKey) : State :=
  { s with board := { s.board with ownerKeys := s.board.ownerKeys.set i k } }

def ownerKeyProgram (data : List Byte) (s : State) (b : List Byte) : AdminAnswer :=
  if s.board.ownerKeys.getD (leAt b 20 1) .revoked = .blank then
    adminOk (ownerKeySet s (leAt b 20 1) (.programmed (sha384 (adminData b data))))
  else adminFail s 4

def execOwnerKeyProgram (ep : Fin 2) (entry data : List Byte) (s : State) : Result :=
  .next (adminRun s ep.val entry { op := 0x72, named := false, used := [(20, 1)], proofed := false }
    (fun b => decide (leAt b 20 1 ≤ 3) && adminLen b == 97) (ownerKeyProgram data))

def execOwnerKeyRevoke (ep : Fin 2) (entry _data : List Byte) (s : State) : Result :=
  .next (adminRun s ep.val entry { op := 0x73, named := false, used := [(20, 8)], proofed := false }
    (fun b => decide (leAt b 20 4 ≤ 3) && leAt b 20 4 + leAt b 24 4 == 2 ^ 32 - 1)
    (fun s b => adminOk (ownerKeySet s (leAt b 20 4) .revoked)))

/-! DEVICE_RESET. -/

def execDeviceReset (ep : Fin 2) (entry _data : List Byte) (s : State) : Result :=
  .next (adminRun s ep.val entry { op := 0x74, named := false, used := [(20, 8)], proofed := false }
    (fun b => leAt b 20 4 == 0 && leAt b 24 4 == 2 ^ 32 - 1)
    (fun s _ => adminLater (deviceReset s .software false false)))

end Sys2Proof.Machine
end

