-- ==== Sys2Proof/Machine/AdminPorts.lean ====
section
/-!
DEFINITION. Admin commands on ports, macros and gate lists (R142-R148, R167, R171-R174, R265-R267).
-/

namespace Sys2Proof.Machine

/-! PORT_ADMIN, one command per ACTION. -/

/-- A drain that a further change of the port does not interrupt (R174). -/
def draining (p : Port) : Bool :=
  match p.drain with
  | some (.adminDown, _) | some (.test, _) | some (.speed, _) => true
  | _ => false

/-- The form of a PORT_ADMIN: `last` takes every ACTION that does not exist. -/
def portForm : AdminForm := { op := 0x20, named := false, used := [(20, 3)], proofed := false }

/-- A PORT_ADMIN entry of one ACTION runs; an ACTION that does not exist is malformed. -/
def portRun (action : Nat) (ep : Nat) (entry : List Byte) (body : State → Nat → Port → AdminAnswer) (s : State) : State :=
  let a := leAt (slice entry 0 64) 22 1
  if a = action ∨ 3 < a then
    adminRun s ep entry portForm (fun b => decide (leAt b 22 1 ≤ 3)) (fun s b =>
      match portOf s (leAt b 20 2) with
      | none => adminFail s 4
      | some p => body s (leAt b 20 2) p)
  else s

/-- ADMIN_DOWN. A drain in progress keeps its deadline; R174 rejects other commands there and not this one, and a drain toward TEST or
a speed change then ends in ADMIN_DOWN (DEDUCED, log entry 158). -/
def portAdminDown (s : State) (n : Nat) (p : Port) : AdminAnswer :=
  match p.state with
  | .test | .safe | .offline => adminOk s
  | _ =>
    match p.drain with
    | some (_, k) => adminOk (portMod s n (fun p => { p with drain := some (.adminDown, k), newSpeed := none }))
    | none => if p.state = .adminDown then adminOk s else adminOk (portMod s n (fun p => { p with due := stopDue p .adminDown }))

def execPortAdminDown (ep : Fin 2) (entry _data : List Byte) (s : State) : Result := .next (portRun 0 ep.val entry portAdminDown s)

/-- TRAINING: ADMIN_UP is raised (R172). A port that a halt of this tick stops trains at the boundary after (R622). -/
def portAdminTraining (s : State) (n : Nat) (p : Port) : AdminAnswer :=
  if p.state = .safe then adminFail s 4
  else if draining p then adminFail s 8
  else
    let due := match p.due, p.state with
      | some .halt, _ => some .haltTraining
      | some .haltTraining, _ => some .haltTraining
      | some (.haltStop k), _ => some (.haltStop k)
      | _, .test | _, .halted | _, .adminDown => some .training
      | d, _ => d
    adminOk (portMod s n (fun p => { p with adminUp := true, due := due }))

def execPortAdminTraining (ep : Fin 2) (entry _data : List Byte) (s : State) : Result :=
  .next (portRun 1 ep.val entry portAdminTraining s)

/-- TEST. -/
def portAdminTest (s : State) (n : Nat) (p : Port) : AdminAnswer :=
  match p.state with
  | .safe | .offline => adminFail s 4
  | .test => adminOk s
  | _ => if draining p then adminFail s 8 else adminOk (portMod s n (fun p => { p with due := stopDue p .test }))

def execPortAdminTest (ep : Fin 2) (entry _data : List Byte) (s : State) : Result := .next (portRun 2 ep.val entry portAdminTest s)

/-- HALT. -/
def execPortAdminHalt (ep : Fin 2) (entry _data : List Byte) (s : State) : Result :=
  .next (portRun 3 ep.val entry (fun s n _ => adminOk (portMod s n askHalt)) s)

/-! PORT_SPEED. -/

/-- Check PORT_MAP of a speed change: a combination of R136 whose lanes lie within the port's entry (R121). -/
def speedCheck (s : State) (n : Nat) (p : Port) (b : List Byte) : ProofResult :=
  if comboOk (leAt b 22 1) (leAt b 23 1) (leAt b 24 1) && decide (leAt b 22 1 ≤ p.cfg.lanes) then
    proofChange s (fun c => c) [0x0F]
  else refusal 0x03 0xFF n (leAt b 22 1) p.cfg.lanes

def portSpeed (s : State) (b : List Byte) : AdminAnswer :=
  let n := leAt b 20 2
  match portOf s n with
  | none => proofFail s 4
  | some p =>
    let r := speedCheck s n p b
    if p.state = .safe ∨ p.state = .test ∨ p.state = .offline then proofFail s 4
    else if r.status ≠ 0 then proofDone s r
    else if draining p then proofFail s 8
    else
      proofDone (portMod s n (fun p =>
        { p with due := stopDue p .speed, newSpeed := some (leAt b 22 1, leAt b 23 1, leAt b 24 1) })) r

def execPortSpeed (ep : Fin 2) (entry _data : List Byte) (s : State) : Result :=
  .next (adminRun s ep.val entry { op := 0x21, named := false, used := [(20, 5)], proofed := true } (fun _ => true) portSpeed)

/-! MACRO_POWER, one command per ACTION. -/

def macroForm : AdminForm := { op := 0x22, named := false, used := [(20, 2)], proofed := false }

def macroRun (action : Nat) (ep : Nat) (entry : List Byte) (body : State → Nat → Macro → Waiter → AdminAnswer) (s : State) : State :=
  let a := leAt (slice entry 0 64) 21 1
  if a = action ∨ 1 < a then
    adminRun s ep entry macroForm (fun b => decide (leAt b 20 1 < 16) && decide (leAt b 21 1 ≤ 1)) (fun s b =>
      if (macroOf s (leAt b 20 1)).state = .absent then adminFail s 4
      else body s (leAt b 20 1) (macroOf s (leAt b 20 1)) (adminWaiter ep b))
  else s

/-- One more change that the next boundary brings; each is listed once. -/
def dueAdd (l : List MacroDue) (d : MacroDue) : List MacroDue := if l.contains d then l else l ++ [d]

def macroPowerDown (s : State) (m : Nat) (x : Macro) (w : Waiter) : AdminAnswer :=
  match x.state with
  | .on => adminLater (macroMod s m (fun x => { x with due := [.powerDown], downWait := x.downWait ++ [w] }))
  | .draining => adminLater (macroMod s m (fun x => { x with downWait := x.downWait ++ [w] }))
  | .pllFailed => adminLater (macroMod s m (fun x => { x with due := dueAdd x.due .turnOff, downWait := x.downWait ++ [w] }))
  | .off | .locking | .absent => adminOk s

def execMacroPowerDown (ep : Fin 2) (entry _data : List Byte) (s : State) : Result :=
  .next (macroRun 0 ep.val entry macroPowerDown s)

def macroPowerUp (s : State) (m : Nat) (x : Macro) (w : Waiter) : AdminAnswer :=
  match x.state with
  | .off | .pllFailed => adminLater (macroMod s m (fun x => { x with due := dueAdd x.due .powerUp, upWait := x.upWait ++ [w] }))
  | .draining => adminLater (macroMod s m (fun x => { x with upAfterOff := true, upWait := x.upWait ++ [w] }))
  | .locking => adminLater (macroMod s m (fun x => { x with upWait := x.upWait ++ [w] }))
  | .on | .absent => adminOk s

def execMacroPowerUp (ep : Fin 2) (entry _data : List Byte) (s : State) : Result :=
  .next (macroRun 1 ep.val entry macroPowerUp s)

/-! STAGE_GATE_LIST. -/

/-- The activation boundary of a list accepted now: at or after BASE, the next at the earliest, and in a pair the one after
that (R266, R267, R529). -/
def gateBoundary (s : State) (g : GateList) : Nat :=
  max (now s + (if s.mir.pair.mode = 0 then 1 else 2)) (g.baseS * 1000000 + cdiv g.baseNs 1000)

/-- The list joins its port's pending place. -/
def gateStage (s : State) (n : Nat) (g : GateList) : State :=
  schPortMod s n (fun p => { p with pendingList := some g, actTick := gateBoundary s g })

def stageGateList (data : List Byte) (s : State) (b : List Byte) : AdminAnswer :=
  let d := adminData b data
  let (n, g) := gateOfBytes d
  if !gateOk d || (portOf s n).isNone then proofDone s (refusal 0x13 0xFF n g.entries.length 256)
  else if (schPort s n).pendingList.isSome && decide ((schPort s n).actTick ≤ now s + 1) then proofFail s 9
  else proofDone (gateStage (deltaAdd s 0x09 d) n g) (proofChange s (fun c => c) [])

def execStageGateList (ep : Fin 2) (entry data : List Byte) (s : State) : Result :=
  .next (adminRun s ep.val entry { op := 0x23, named := false, used := [], proofed := true }
    (fun b => decide (32 ≤ adminLen b) && gateLengthOk (adminData b data)) (stageGateList data))

end Sys2Proof.Machine
end

