-- ==== Sys2Proof/Machine/AdminQueues.lean ====
section
/-!
DEFINITION. Admin commands on queues and functions (R465, R477-R481, R490-R493).
-/

namespace Sys2Proof.Machine

/-! CREATE_QUEUE. -/

def kindOfCode (k : Nat) : QueueKind := match k with | 0 => .send | 1 => .receive | 2 => .capture | _ => .event

/-- The form of R477. -/
def createQueueOk (s : State) (b : List Byte) : Bool :=
  let k := leAt b 24 1
  let rx := k == 1 || k == 2
  decide (k ≤ 3) && decide (leAt b 22 2 ≤ 1023) && decide (4 ≤ leAt b 25 1) && decide (leAt b 25 1 ≤ 15)
  && decide (leAt b 26 1 < 8)
  && (if k = 0 then decide (leAt b 27 1 < (if s.board.f256 then 8 else 16)) else leAt b 27 1 == 0)
  && leAt b 28 8 % 4096 == 0 && (k != 3 || leAt b 28 8 == 0) && leAt b 36 8 % 4096 == 0
  && (k == 0 || leAt b 46 2 == 0) && (if k = 0 then decide (leAt b 48 1 < 16) else leAt b 48 1 == 0)
  && (if rx then
        decide (leAt b 49 1 ≤ 15) && decide (leAt b 50 1 ≤ 7) && decide (256 ≤ leAt b 54 2) && decide (leAt b 54 2 ≤ 16384)
        && leAt b 54 2 % 64 == 0 && decide (64 ≤ leAt b 56 4) && decide (leAt b 56 4 ≤ 1048575)
      else allZero (slice b 49 2) && allZero (slice b 52 12))

/-- The function is present, and created where it is a VF. -/
def fnReady (s : State) (fn : Nat) : Bool :=
  fnExists s fn && (funcOf s fn).isSome && (!isVf fn || ((funcOf s fn).bind (·.grant)).isSome)

/-- R465: the kinds a function may have. -/
def kindAllowed (s : State) (fn : Nat) (k : QueueKind) : Bool :=
  match k, kindOf fn with
  | .send, 0 | .send, 1 | .send, 3 | .receive, 0 | .receive, 1 | .receive, 3 | .event, 0 => true
  | .capture, 0 | .capture, 1 => featOn s fn featCaptureIcing
  | _, _ => false

def grantHas (g : Grant) (qid : Nat) : Bool := decide (g.queueBase ≤ qid) && decide (qid < g.queueBase + g.queueCount)

/-- Grants in force. -/
def grantsOf (s : State) : List (Nat × Grant) := s.hif.funcs.filterMap (fun e => e.2.grant.map (fun g => (e.1, g)))

/-- R491. -/
def idAllowed (s : State) (fn qid : Nat) : Bool :=
  match (funcOf s fn).bind (·.grant) with
  | some g => grantHas g qid
  | none => !((grantsOf s).any (fun x => grantHas x.2 qid))

def tenantAllowed (s : State) (fn tenant : Nat) (k : QueueKind) : Bool :=
  match (funcOf s fn).bind (·.grant) with
  | some g => k != .send || (decide (g.tenantBase ≤ tenant) && decide (tenant < g.tenantBase + g.tenantCount))
  | none => true

/-- Queue pairs in use, those of NVM Express controllers among them (R422). -/
def pairsInUse (s : State) : Nat := s.que.queues.length + sumOf (s.sto.ctls.map (fun c => c.2.sqs.length))

/-- The queue a CREATE_QUEUE entry describes. -/
def queueFrom (s : State) (b : List Byte) : HostQueue :=
  let fn := adminFn b
  { state := if bitN (leAt b 26 1) 0 then .enabled else .disabled
    kind := kindOfCode (leAt b 24 1), fn := BitVec.ofNat 16 fn, loc := leAt b 22 2, sizeLog2 := leAt b 25 1
    restart := bitN (leAt b 26 1) 1, wakeEn := bitN (leAt b 26 1) 2, slice := leAt b 27 1
    ringAddr := BitVec.ofNat 64 (leAt b 28 8), cqAddr := BitVec.ofNat 64 (leAt b 36 8), vector := leAt b 44 2
    tenant := leAt b 46 2, startSel := leAt b 48 1, bufSize := leAt b 54 2, head := 0#16, producer := 0#16, fetched := 0#16
    consumer := 0#16, completions := 0#16, dbErrors := 0#16
    features := ((funcOf s fn).map (fun f => if f.featuresOk then f.active else 0#256)).getD 0#256
    work := [], fetching := [], stale := 0, held := [], dma := [], seq := 0#32, disabling := [] }

/-- The scheduler's queue of a receive or capture queue (R259). -/
def schFrom (b : List Byte) : SchQueue :=
  { SchQueue.blank with min := leAt b 52 2, alpha := leAt b 49 1, yellowShift := leAt b 50 1, quantum := leAt b 56 4,
                        maxResidence := leAt b 60 4 }

/-- The proof of R478. -/
def createQueueProof (s : State) (b : List Byte) : ProofResult :=
  proofChange s (fun c => { c with minSum := c.minSum + leAt b 52 2 })
    ([0x0D, 0x0E] ++ (if leAt b 52 2 = 0 then [] else [0x11]))

def createQueue (s : State) (b : List Byte) : AdminAnswer :=
  let fn := adminFn b
  let qid := leAt b 20 2
  let k := kindOfCode (leAt b 24 1)
  let r := createQueueProof s b
  if !fnReady s fn || !kindAllowed s fn k || !idAllowed s fn qid || !tenantAllowed s fn (leAt b 46 2) k
      || (leAt b 44 2 != 0xFFFF && decide (msixSize s fn ≤ leAt b 44 2)) then proofFail s 4
  else if r.status ≠ 0 then proofDone s r
  else if queueIdUsed s qid || (queuesOf s fn).any (fun q => ((queueOf s q).map (·.loc)).getD 1024 == leAt b 22 2)
      || (k == .event && s.que.queues.any (fun e => e.2.kind == .event && epOf e.2.fn.toNat == epOf fn))
      || decide (65536 ≤ pairsInUse s) then proofFail s 6
  else
    let s := { s with que := { s.que with queues := tset s.que.queues qid (queueFrom s b) } }
    let s := if k = .receive ∨ k = .capture then schQueueMod s (8192 + qid) (fun _ => schFrom b) else s
    proofDone s r

def execCreateQueue (ep : Fin 2) (entry _data : List Byte) (s : State) : Result :=
  .next (adminRun s ep.val entry { op := 0x01, named := true, used := [(20, 31), (52, 12)], proofed := true }
    (createQueueOk s) createQueue)

/-! DESTROY_QUEUE, ENABLE_QUEUE, DISABLE_QUEUE, QUERY_QUEUE. -/

def queueForm (op : Nat) : AdminForm := { op := op, named := true, used := [(20, 2)], proofed := false }

/-- A queue removed; a DISABLE_QUEUE of it in process completes first. -/
def queueDestroy (s : State) (qid : Nat) : State :=
  match queueOf s qid with
  | none => s
  | some q =>
    let s := q.disabling.foldl (fun s w => answer s w 0#8 (leBytes 2 q.head.toNat)) s
    let s := hostFramesDrop (dropAll s (q.dma.map (·.pkt)) .hostQueueAbsent) qid .hostQueueAbsent
    let s := { s with crb := { s.crb with waiting := s.crb.waiting.filter (fun w => !waitsFor qid w) } }
    { s with que := { s.que with queues := tdel s.que.queues qid }
             sch := { s.sch with queues := tdel s.sch.queues (8192 + qid) } }

def destroyQueue (s : State) (b : List Byte) : AdminAnswer :=
  match queueOf s (leAt b 20 2) with
  | none => adminFail s 4
  | some q => if q.state = .enabled then adminFail s 4 else adminOk (queueDestroy s (leAt b 20 2))

def execDestroyQueue (ep : Fin 2) (entry _data : List Byte) (s : State) : Result :=
  .next (adminRun s ep.val entry (queueForm 0x02) (fun _ => true) destroyQueue)

def enableQueue (s : State) (b : List Byte) : AdminAnswer :=
  if thas s.que.queues (leAt b 20 2) then adminOk (queueEnable s (leAt b 20 2)) else adminFail s 4

def execEnableQueue (ep : Fin 2) (entry _data : List Byte) (s : State) : Result :=
  .next (adminRun s ep.val entry (queueForm 0x03) (fun _ => true) enableQueue)

def disableQueue (ep : Nat) (s : State) (b : List Byte) : AdminAnswer :=
  if thas s.que.queues (leAt b 20 2) then adminLater (queueDisable s (leAt b 20 2) (adminWaiter ep b)) else adminFail s 4

def execDisableQueue (ep : Fin 2) (entry _data : List Byte) (s : State) : Result :=
  .next (adminRun s ep.val entry (queueForm 0x04) (fun _ => true) (disableQueue ep.val))

def queryQueue (s : State) (b : List Byte) : AdminAnswer :=
  match queueOf s (leAt b 20 2) with
  | none => adminDone s 0 []
  | some q =>
    adminDone s 0 (leBytes 1 q.state.code ++ leBytes 1 q.kind.code ++ leBytes 2 q.head.toNat ++ leBytes 2 q.producer.toNat
      ++ leBytes 2 q.consumer.toNat ++ leBytes 2 q.fn.toNat)

def execQueryQueue (ep : Fin 2) (entry _data : List Byte) (s : State) : Result :=
  .next (adminRun s ep.val entry (queueForm 0x05) (fun _ => true) queryQueue)

/-! CREATE_VF, DESTROY_VF, QUERY_FUNCTION. -/

/-- The form of R492: FUNCTION is a VF of PF1 or PF2. -/
def createVfOk (b : List Byte) : Bool :=
  let fn := adminFn b
  isVf fn && (pfNum fn == 1 || pfNum fn == 2) && decide (1 ≤ leAt b 24 2) && decide (leAt b 24 2 ≤ 256)
  && (if pfNum fn = 1 then decide (1 ≤ leAt b 28 2) && decide (1 ≤ leAt b 30 2) && decide (leAt b 30 2 ≤ 256)
      else leAt b 28 2 == 0 && leAt b 30 2 == 65)

/-- The pool suits the VF, and holds the ranges named. -/
def poolFits (p : Pool) (b : List Byte) : Bool :=
  let fn := adminFn b
  p.storage == (pfNum fn == 2) && (if epOf fn = 0 then p.hp0 else p.hp1)
  && decide (p.queueBase ≤ leAt b 22 2) && decide (leAt b 22 2 + leAt b 24 2 ≤ p.queueBase + p.queueCount)
  && (pfNum fn == 2
      || (decide (p.tenantBase ≤ leAt b 26 2) && decide (leAt b 26 2 + leAt b 28 2 ≤ p.tenantBase + p.tenantCount)))

def grantFrom (b : List Byte) : Grant :=
  { pool := leAt b 20 2, queueBase := leAt b 22 2, queueCount := leAt b 24 2, tenantBase := leAt b 26 2,
    tenantCount := leAt b 28 2, vectors := leAt b 30 2, features := BitVec.ofNat 64 (leAt b 32 8) }

/-- Storage indices in use, and the lowest free one (R419, R492). -/
def storageIndices (s : State) : List Nat := s.hif.funcs.filterMap (fun e => e.2.storageIndex)
def freeStorageIndex (s : State) : Option Nat := (List.range 1022).findSome? (fun i =>
  if (storageIndices s).contains (i + 2) then none else some (i + 2))

/-- GEN, storage index and FEAT_STATUS. -/
def vfResult (s : State) (fn : Nat) : List Byte :=
  leBytes 2 (genOf s fn).toNat
    ++ leBytes 2 (((funcOf s fn).bind (·.storageIndex)).getD 0xFFFF)
    ++ [((funcOf s fn).map (·.featStatus)).getD 0#8]

def createVf (ep : Nat) (s : State) (b : List Byte) : AdminAnswer :=
  let fn := adminFn b
  let g := grantFrom b
  match s.que.pools.pools[g.pool]? with
  | none => adminFail s 4
  | some p =>
    if !fnExists s fn || (funcOf s fn).isNone || ((funcOf s fn).bind (·.grant)).isSome || !poolFits p b
        || (g.features &&& ~~~ p.featureMask) != 0#64
        || (BitVec.ofNat 256 g.features.toNat &&& ~~~ offerOf s fn) != 0#256 then adminFail s 4
    else if (grantsOf s).any (fun x => overlapping x.2.queueBase x.2.queueCount g.queueBase g.queueCount)
        || decide (p.vectors < sumOf (((grantsOf s).filter (fun x => x.2.pool == g.pool)).map (·.2.vectors)) + g.vectors)
        || (pfNum fn == 2 && (freeStorageIndex s).isNone) then adminFail s 6
    else
      let index := if pfNum fn = 2 then freeStorageIndex s else none
      let s := funcMod s fn (fun f =>
        { f with grant := some g, storageIndex := index, featuresOk := false, featStatus := 0#8, accept := 0#256, active := 0#256 })
      let s := genAdvance (presetLatch s fn (BitVec.ofNat 256 g.features.toNat)) fn
      let s := adminRegen s ep b
      adminDone s 0 (vfResult s fn)

def execCreateVf (ep : Fin 2) (entry _data : List Byte) (s : State) : Result :=
  .next (adminRun s ep.val entry { op := 0x08, named := true, used := [(20, 20)], proofed := false } createVfOk (createVf ep.val))

/-- What DESTROY_VF takes away; the record of the function stays while VF Enable has it. -/
def vfRemove (s : State) (fn : Nat) : State :=
  let s := (queuesOf s fn).foldl (fun s q => queueDestroy (queueDisable s q .none_) q) s
  let s := match (if pfNum fn = 2 then ctlIndex s fn else none) with
    | some i => ctlForget s i
    | none => s
  genAdvance (funcMod s fn (fun f =>
    { f with grant := none, storageIndex := none, featuresOk := false, featStatus := 0#8, accept := 0#256, active := 0#256 })) fn

def destroyVf (ep : Nat) (s : State) (b : List Byte) : AdminAnswer :=
  let fn := adminFn b
  match funcOf s fn with
  | none => adminFail s 4
  | some f =>
    if f.grant.isNone || (f.storageIndex.map (fun i => !(nsAttached s i).isEmpty)).getD false then adminFail s 4
    else
      let s := adminRegen (vfRemove s fn) ep b
      adminDone s 0 (leBytes 2 (genOf s fn).toNat)

def execDestroyVf (ep : Fin 2) (entry _data : List Byte) (s : State) : Result :=
  .next (adminRun s ep.val entry { op := 0x09, named := true, used := [], proofed := false } (fun b => isVf (adminFn b))
    (destroyVf ep.val))

/-- MSI-X vectors of a function. -/
def vectorsOf (s : State) (fn : Nat) : Nat :=
  if isVf fn then (((funcOf s fn).bind (·.grant)).map (·.vectors)).getD 0 else msixSize s fn

def queryFunction (s : State) (b : List Byte) : AdminAnswer :=
  let fn := adminFn b
  match (if fnExists s fn then funcOf s fn else none) with
  | none => adminFail s 4
  | some f =>
    adminDone s 0 (leBytes 2 (genNamed s fn) ++ leBytes 1 (if fnReady s fn then 1 else 0) ++ leBytes 2 (queuesOf s fn).length
      ++ leBytes 2 (vectorsOf s fn) ++ zeroBytes 1 ++ leBytes 8 f.active.toNat)

def execQueryFunction (ep : Fin 2) (entry _data : List Byte) (s : State) : Result :=
  .next (adminRun s ep.val entry { op := 0x0A, named := true, used := [], proofed := false } (fun _ => true) queryFunction)

end Sys2Proof.Machine
end

