-- ==== Sys2Proof/Machine/Ptp.lean ====
section
/-!
DEFINITION. The IEEE 1588 instance: its messages, its port states, and PTP_MESSAGE_RX, PTP_MESSAGE_SEND and
PTP_ANNOUNCE_TIMEOUT (R314, R320, R330, R331). What the spec takes from IEEE 1588-2019 by name (message layouts, the data set
comparison, the addresses of its transports) is PRESUMED from that standard: log entry 59.
-/

namespace Sys2Proof

/-! Messages. Kinds of PTP_MESSAGE_SEND: 0 Sync, 1 Announce, 2 Delay_Req, or Pdelay_Req on a peer-to-peer port. -/

/-- A message's header and body. -/
def ptpMessage (type control flags domain : Nat) (sender : List Byte) (seq : W16) (log : Int) (body : List Byte) : List Byte :=
  leBytes 1 type ++ [0x12#8] ++ beBytes 2 (34 + body.length) ++ leBytes 1 domain ++ [0#8] ++ beBytes 2 flags ++ zeroBytes 12
    ++ sender ++ beBytes 2 seq.toNat ++ leBytes 1 control ++ [BitVec.ofInt 8 log] ++ body

/-- The body of an Announce: currentUtcOffset, the grandmaster, stepsRemoved and timeSource. -/
def announceBody (utc : W16) (a : Announce) (source : Nat) : List Byte :=
  zeroBytes 10 ++ beBytes 2 utc.toNat ++ [0#8, a.priority1, a.clockClass, a.accuracy] ++ beBytes 2 a.variance.toNat ++ [a.priority2]
    ++ beBytes 8 a.identity.toNat ++ beBytes 2 a.steps.toNat ++ leBytes 1 source

/-- UDP over IPv4 and IPv6: Annexes C and D. `event` says which UDP port, `peer` which group. -/
def ptpUdp4 (event peer : Bool) (ip msg : List Byte) : List Byte :=
  let dst := if peer then beBytes 4 0xE000006B else beBytes 4 0xE0000181
  let head := fun (c : Nat) => beBytes 2 0x4500 ++ beBytes 2 (28 + msg.length) ++ zeroBytes 4 ++ [1#8, 17#8] ++ beBytes 2 c ++ ip ++ dst
  let port := if event then 319 else 320
  head (csumOf (sumWords (head 0))) ++ beBytes 2 port ++ beBytes 2 port ++ beBytes 2 (8 + msg.length) ++ zeroBytes 2 ++ msg

def ptpUdp6 (event peer : Bool) (ip msg : List Byte) : List Byte :=
  let dst := if peer then beBytes 16 0xFF02000000000000000000000000006B else beBytes 16 0xFF0E0000000000000000000000000181
  let port := if event then 319 else 320
  let n := 10 + msg.length
  let udp := fun (c : Nat) => beBytes 2 port ++ beBytes 2 port ++ beBytes 2 n ++ beBytes 2 c ++ msg ++ zeroBytes 2
  beBytes 4 0x60000000 ++ beBytes 2 n ++ [17#8, 1#8] ++ ip ++ dst ++ udp (csumOf (sumWords (ip ++ dst ++ udp 0) + 17 + n))

/-- A message in the frame of its transport, padded to a legal frame, and the message's offset in it. -/
def ptpFrame (transport : Nat) (event peer : Bool) (mac ip msg : List Byte) : List Byte × Nat :=
  let (dst, type, body, off) :=
    if transport = 0 then (if peer then 0x0180C200000E else 0x011B19000000, 0x88F7, msg, 14)
    else if transport = 1 then (if peer then 0x01005E00006B else 0x01005E000181, 0x0800, ptpUdp4 event peer (slice ip 0 4) msg, 42)
    else (if peer then 0x33330000006B else 0x333300000181, 0x86DD, ptpUdp6 event peer ip msg, 62)
  let f := beBytes 6 dst ++ mac ++ beBytes 2 type ++ body
  (f ++ List.replicate (60 - f.length) 0#8, off)

/-! The data set comparison of the default BMCA: the lesser is the better. -/

def Announce.key (a : Announce) : List Nat :=
  [a.priority1.toNat, a.clockClass.toNat, a.accuracy.toNat, a.variance.toNat, a.priority2.toNat, a.identity.toNat, a.steps.toNat,
   a.sender.toNat]

def lexLess : List Nat → List Nat → Bool
  | a :: as, b :: bs => decide (a < b) || (a == b && lexLess as bs)
  | _, _ => false

def Announce.better (a b : Announce) : Bool := lexLess a.key b.key

/-- Ticks of a message interval 2^log seconds. -/
def logTicks (log : Int) : Nat := 1000000 * 2 ^ log.toNat / 2 ^ (-log).toNat

inductive PtpState where
  | transmitter | receiver | passive
  deriving DecidableEq, Repr

end Sys2Proof

namespace Sys2Proof.Machine

def ptpMod (s : State) (n : Nat) (f : PtpPort → PtpPort) : State :=
  { s with ptp := { s.ptp with ports := s.ptp.ports.map (fun p => if p.port = n then f p else p) } }

/-- The clock's own data set; its identity is the device's serial number. -/
def ptpOwn (s : State) : Announce :=
  { priority1 := s.ptp.priority1, clockClass := s.ptp.clockClass, accuracy := 0xFE#8, variance := 0xFFFF#16,
    priority2 := s.ptp.priority2, identity := s.board.serial.setWidth 64, steps := 0#16, sender := s.board.serial.setWidth 64 }

/-- The master heard on a port, until the announce receipt timeout of three intervals. -/
def ptpHeard (s : State) (p : PtpPort) : Option PtpMaster :=
  p.foreign.filter (fun m => decide (now s < m.tick + 3 * logTicks p.logAnnounce))

/-- The best master heard, and its port. -/
def ptpBest (s : State) : Option (Nat × PtpMaster) :=
  s.ptp.ports.foldl (fun best p =>
    match ptpHeard s p, best with
    | some m, some b => if m.data.better b.2.data then some (p.port, m) else best
    | some m, none => some (p.port, m)
    | none, _ => best) none

/-- The state of a port: the external one where it is configured, otherwise that of the default BMCA (R330, R488). -/
def ptpState (s : State) (p : PtpPort) : PtpState :=
  if s.ptp.external && p.external != 0 then
    if p.external = 1 then .transmitter else if p.external = 2 then .receiver else .passive
  else
    let own := ptpOwn s
    let heard := ptpHeard s p
    if decide (1 ≤ own.clockClass.toNat) && decide (own.clockClass.toNat ≤ 127) then
      if (heard.map (fun m => m.data.better own)).getD false then .passive else .transmitter
    else
      match ptpBest s with
      | none => .transmitter
      | some (n, m) =>
        if own.better m.data then .transmitter
        else if n = p.port then .receiver
        else if (heard.map (fun h => h.data.identity == m.data.identity)).getD false then .passive
        else .transmitter

/-- The PTP port, where the instance runs and receives its messages through the control class. -/
def ptpPortOf (s : State) (n : Nat) : Option PtpPort :=
  if s.ptp.enable then s.ptp.ports.find? (fun p => p.port == n && !p.noControlRule) else none

/-- Whether a frame that came on a port would match a control-class rule. -/
def ptpRuled (s : State) (n : Nat) (bytes : List Byte) : Bool :=
  let start := startEntry s { madePacket 0 0 bytes with port := n }
  let r := parseHead s.app.parse start bytes
  let kv := r.kv.set 0 (kvW0 n 0 s.dec.current (bytes.length + 4) start.profile 0)
  s.app.control.any (fun c => ctlMatch c 0 n { r with kv := kv })

/-- NO_CONTROL_RULE (R331): no rule of the control class takes an event message, or a general one, that comes on the port by its
transport. The addresses of the sender are zeros here (DEDUCED, log entry 60). -/
def ptpUnruled (s : State) (p : PtpPort) : Bool :=
  let msg := fun (type len : Nat) => ptpMessage type 0 0 s.ptp.domainNumber.toNat (zeroBytes 10) 0#16 0 (zeroBytes (len - 34))
  let frame := fun (event : Bool) (m : List Byte) => (ptpFrame p.transport event false (zeroBytes 6) (zeroBytes 16) m).1
  !(ptpRuled s p.port (frame true (msg 0 44)) && ptpRuled s p.port (frame false (msg 11 64)))

/-- The instance follows the best master: PTP's timeTraceable is the grandmaster's (R319). -/
def ptpFollow (s : State) : State :=
  match s.ptp.ports.find? (fun p => ptpState s p = .receiver) with
  | some p => tmbMod s (fun t => t.modSource .ptp (fun v => { v with traceable := ((ptpHeard s p).map (·.traceable)).getD false }))
  | none => s

/-- An offset from the master, in hundredths of a SUB step; Sync intervals within the limit count toward qualification (R320). -/
def ptpMeasure (s : State) (offset : Int) (sub : Nat) (counts : Bool) : State :=
  let s := tmbMod s (fun t => t.modSource .ptp (fun v => { v with lastEdge := some (t.tick.toNat * 32000 + sub) }))
  let s := sourceMeasure s .ptp offset
  if counts then sourceCount s .ptp (s.tmb.within offset) 16 else s

/-- PTP_MESSAGE_RX: `offset` is the offset from the master that the message's exchange completes, and `good` says that it completes
one; for an Announce, `good` is its timeTraceable. A peer delay answer measures the link, not the offset. -/
def ptpRx (s : State) (n : Nat) (kind : PtpKind) (offset : Int) (good : Bool) (sub : Nat) : State :=
  match ptpPortOf s n with
  | none => s
  | some p =>
    match kind with
    | .management | .pdelayResp => s
    | .announce a =>
      let better := ((ptpHeard s p).map (fun m => m.data.sender == a.sender || a.better m.data)).getD true
      if !better then s
      else ptpFollow (ptpMod s n (fun p => { p with foreign := some { data := a, traceable := good, tick := now s } }))
    | .sync | .followUp => if !good || ptpState s p != .receiver then s else ptpMeasure s offset sub true
    | .delayResp => if !good || p.peerDelay || ptpState s p != .receiver then s else ptpMeasure s offset sub false

def execPtpMessageRx (port : Fin 512) (kind : PtpKind) (offset : Int) (good : Bool) (sub : Fin 32000) (s : State) : Result :=
  .next (ptpRx s port.val kind offset good sub.val)

/-- The message of a kind is due on a port: the state sends it, and its interval has passed. Announce goes at most 8 times a
second (R330). -/
def ptpDue (s : State) (p : PtpPort) (kind : Nat) : Bool :=
  let state := ptpState s p
  let sends := if kind = 2 then p.peerDelay || state == .receiver else state == .transmitter
  let gap := if kind = 0 then logTicks p.logSync else if kind = 1 then max 125000 (logTicks p.logAnnounce) else logTicks p.logDelayReq
  s.ptp.enable && sends && ((tget p.last kind).map (fun t => decide (t + gap ≤ now s))).getD true

/-- What an Announce of this clock says: a boundary clock that follows a master passes its grandmaster on. -/
def ptpAnnounced (s : State) : Announce :=
  match s.ptp.boundary && s.ptp.ports.any (fun p => ptpState s p = .receiver), ptpBest s with
  | true, some (_, m) => { m.data with steps := m.data.steps + 1#16 }
  | _, _ => ptpOwn s

/-- The message of a kind: Announce carries UTC_OFFSET of TMB_UTC, with its valid flag, the PTP time scale and TRACEABLE. -/
def ptpBytes (s : State) (p : PtpPort) (kind : Nat) : List Byte :=
  let sender := beBytes 8 s.board.serial.toNat ++ beBytes 2 (s.ptp.ports.findIdx (fun x => x.port == p.port) + 1)
  let d := s.ptp.domainNumber.toNat
  let flags := putB s.tmb.utcValid 2 + 8 + putB s.tmb.traceable 4 + putB s.tmb.traceable 5
  match kind with
  | 0 => ptpMessage 0 0 0 d sender p.seq p.logSync (zeroBytes 10)
  | 1 => ptpMessage 11 5 flags d sender p.seq p.logAnnounce (announceBody s.tmb.utcOffset (ptpAnnounced s) 0xA0)
  | _ => if p.peerDelay then ptpMessage 2 5 0 d sender p.seq 127 (zeroBytes 20) else ptpMessage 1 1 0 d sender p.seq 127 (zeroBytes 10)

/-- Sync is stamped one-step at its originTimestamp; the record of a Delay_Req goes to the Supervisor (R317, R318). -/
def ptpEdits (kind off : Nat) (seq : W16) : List Edit :=
  match kind with
  | 0 => [{ kind := .tsWrite, offset := off + 34, len := 0, arg := 0#16, bytes := none }]
  | 1 => []
  | _ => [{ kind := .tsCapture, offset := 0, len := 0, arg := seq, bytes := none }]

/-- A message of the instance goes out on its port through the control queue (R25, R263). Its addresses are not given: free bytes. -/
def ptpSend (s : State) (p : PtpPort) (kind : Nat) : State :=
  let (mac, s) := freshBytes 6 s
  let (ip, s) := freshBytes 16 s
  let (frame, off) := ptpFrame p.transport (kind != 1) (kind == 2 && p.peerDelay) mac ip (ptpBytes s p kind)
  controlSend (ptpMod s p.port (fun p => { p with last := tset p.last kind (now s), seq := wrapInc p.seq })) p.port frame
    (ptpEdits kind off p.seq)

/-- PTP_MESSAGE_SEND: Sync, Announce or Delay_Req on the interval timer of a port of the instance. -/
def execPtpMessageSend (port : Fin 512) (kind : Fin 3) (s : State) : Result :=
  .next (match s.ptp.ports.find? (fun p => p.port == port.val) with
    | some p => if ptpDue s p kind.val then ptpSend s p kind.val else s
    | none => s)

/-- PTP_ANNOUNCE_TIMEOUT: announce receipt timeout, or three Sync intervals without a Sync. -/
def execPtpAnnounceTimeout (s : State) : Result := .next (sourceLost s .ptp)

end Sys2Proof.Machine
end

