-- ==== Sys2Proof/Machine/AdminTables.lean ====
section
/-!
DEFINITION. Admin commands on tables, versions, cuts and the clock's configuration (R200-R207, R229, R301-R303, R330,
R376, R487-R489).
-/

namespace Sys2Proof.Machine

/-! TABLE_WRITE, one command per OP. -/

/-- Record i of a TABLE_WRITE's DATA. -/
def writeRecord (delete : Bool) (table : Nat) (d : List Byte) (i : Nat) : Option TblRec :=
  let r := slice d (160 * i) 160
  if allZero (slice r 4 4) && allZero (slice r 152 8) then tblRecOf table delete (leAt r 0 4) (slice r 8 144) else none

def tableRecords (delete : Bool) (b data : List Byte) : List (Option TblRec) :=
  (List.range (leAt b 22 2)).map (writeRecord delete (leAt b 20 1) (adminData b data))

def tableWriteOk (delete : Bool) (data b : List Byte) : Bool :=
  decide (leAt b 20 1 ≤ 6) && decide (leAt b 21 1 ≤ 1) && decide (1 ≤ leAt b 22 2) && decide (leAt b 22 2 ≤ 1024)
  && adminLen b == 160 * leAt b 22 2 && (tableRecords delete b data).all (·.isSome)

def tableWrite (delete : Bool) (data : List Byte) (s : State) (b : List Byte) : AdminAnswer :=
  match writeTables s delete ((tableRecords delete b data).filterMap id) with
  | some s => adminDone s 0 (leBytes 4 (leAt b 22 2))
  | none => adminFail s 6

/-- A TABLE_WRITE entry of one OP runs; an OP that does not exist is malformed. Mirror backpressure holds it (R525). -/
def tableRun (op : Nat) (ep : Nat) (entry data : List Byte) (s : State) : State :=
  let a := leAt (slice entry 0 64) 21 1
  if s.mir.pressure then s
  else if a = op ∨ 1 < a then
    adminRun s ep entry { op := 0x30, named := false, used := [(20, 4)], proofed := false } (tableWriteOk (op == 1) data)
      (tableWrite (op == 1) data)
  else s

def execTableWrite (ep : Fin 2) (entry data : List Byte) (s : State) : Result := .next (tableRun 0 ep.val entry data s)
def execTableDelete (ep : Fin 2) (entry data : List Byte) (s : State) : Result := .next (tableRun 1 ep.val entry data s)

/-! MAC_WRITE, one command per OP (R229). -/

def macNamedEntry (b : List Byte) : MacEntry := macOfBytes (slice b 24 16)

/-- The place that a way and a stash place name for an entry; none for AUTO. -/
def macNamed (f : Fwd) (way place : Nat) (e : MacEntry) : Option Nat :=
  if way < 4 then some (macPlaceOf f way e.bd e.mac) else if way = 4 then some (macStash + place) else none

/-- The place where a move or delete finds the key. -/
def macAt (f : Fwd) (b : List Byte) (e : MacEntry) : Option Nat :=
  match macNamed f (leAt b 21 1) (leAt b 22 2) e with
  | some p => if macHolds f p e.bd e.mac then some p else none
  | none => macFind f e.bd e.mac

/-- A place holds another valid key. -/
def macTaken (f : Fwd) (p : Nat) (e : MacEntry) : Bool :=
  ((tget f.mac p).map (fun x => x.valid)).getD false && !macHolds f p e.bd e.mac

/-- RESULT: way, and the place of a stash entry. -/
def macResult (p : Nat) : List Byte := leBytes 1 (macWay p) ++ leBytes 2 (if macWay p = 4 then p - macStash else 0)

/-- The MAC table after a write, with the pair's record of it. -/
def macApply (s : State) (f : Fwd) (delete : Bool) (e : MacEntry) : State := tblDelta { s with fwd := f } delete (.mac e)

def macInsert (s : State) (b : List Byte) : AdminAnswer :=
  let e := macNamedEntry b
  let place := match macNamed s.fwd (leAt b 21 1) (leAt b 22 2) e with
    | some p => if macTaken s.fwd p e then none else some p
    | none => (macFind s.fwd e.bd e.mac).or (macFree s.fwd e.bd e.mac)
  match place with
  | none => adminFail s 6
  | some p => adminDone (macApply s (macWritePlace s.fwd p (some e)) false e) 0 (macResult p)

/-- A move: the entry as it stands, at its new place, and the old place cleared. -/
def macMove (s : State) (b : List Byte) : AdminAnswer :=
  let e := macNamedEntry b
  match macAt s.fwd b e with
  | none => adminFail s 4
  | some p =>
    match macNamed s.fwd (leAt b 40 1) (leAt b 41 2) e, tget s.fwd.mac p with
    | some q, some x =>
      if q = p then adminDone s 0 (macResult q)
      else if macTaken s.fwd q e then adminFail s 6
      else adminDone (macApply s (macWritePlace (macWritePlace s.fwd p none) q (some x)) false x) 0 (macResult q)
    | _, _ => adminFail s 4

def macDelete (s : State) (b : List Byte) : AdminAnswer :=
  let e := macNamedEntry b
  match macAt s.fwd b e with
  | none => adminDone s 0 [0xFF#8]
  | some p => adminDone (macApply s (macWritePlace s.fwd p none) true e) 0 (macResult p)

/-- The entry's form: WAY and place, the MAC entry, and for a move its new place. -/
def macWriteOk (op : Nat) (b : List Byte) : Bool :=
  let stashOk := fun (way place : Nat) => if way = 4 then decide (place < 1024) else place == 0
  decide (leAt b 20 1 ≤ 2) && decide (leAt b 21 1 ≤ 5) && stashOk (leAt b 21 1) (leAt b 22 2)
  && macReservedOk (slice b 24 16) && (op == 2 || macDestOk (macNamedEntry b))
  && (if op = 1 then decide (leAt b 40 1 ≤ 4) && stashOk (leAt b 40 1) (leAt b 41 2) else allZero (slice b 40 3))

def macRun (op : Nat) (ep : Nat) (entry : List Byte) (body : State → List Byte → AdminAnswer) (s : State) : State :=
  let a := leAt (slice entry 0 64) 20 1
  if s.mir.pressure then s
  else if a = op ∨ 2 < a then
    adminRun s ep entry { op := 0x31, named := false, used := [(20, 23)], proofed := false } (macWriteOk op) body
  else s

def execMacInsert (ep : Fin 2) (entry _data : List Byte) (s : State) : Result := .next (macRun 0 ep.val entry macInsert s)
def execMacMove (ep : Fin 2) (entry _data : List Byte) (s : State) : Result := .next (macRun 1 ep.val entry macMove s)
def execMacDelete (ep : Fin 2) (entry _data : List Byte) (s : State) : Result := .next (macRun 2 ep.val entry macDelete s)

/-! VERSION_COMMIT, VERSION_SELECT (R205-R207). -/

/-- A commit seals the open version, unless another waits or a select does: then it completes VERSION_BUSY, counted. -/
def versionCommit (s : State) (w : Waiter) : AdminAnswer :=
  if s.dec.sealed_.isSome || s.dec.select.isSome then
    adminFail { s with dec := { s.dec with busyCount := wrapInc s.dec.busyCount } } 9
  else
    adminLater { s with dec := sealNow s.dec (now s) w true }

def execVersionCommit (ep : Fin 2) (entry _data : List Byte) (s : State) : Result :=
  .next (adminRun s ep.val entry { op := 0x32, named := false, used := [], proofed := false } (fun _ => true)
    (fun s b => versionCommit s (adminWaiter ep.val b)))

/-- RESULT of a select: the tick at which the version is current, in bytes 24-31. -/
def selectResult (tick : Nat) : List Byte := zeroBytes 8 ++ leBytes 8 tick

/-- A select ends a sealed commit and an earlier select with ABORTED. One of the current version answers the tick at which that
became current, and leaves a sealed commit and an earlier select as they are (DEDUCED, log entry 129). -/
def versionSelect (s : State) (v : Nat) (w : Waiter) : AdminAnswer :=
  if (slotOfVersion s.dec v).isNone then adminFail s 7
  else if v = s.dec.current then adminDone s 0 (selectResult (vslot s.dec s.dec.currentSlot).sinceTick.toNat)
  else
    let old := s.dec
    let s := { s with dec := { old with
      sealed_ := none, openWrites := (old.sealed_.map (·.writes)).getD [] ++ old.openWrites
      select := some { version := v, tick := now s, waiter := w } } }
    let s := verRelease s
    let s := match old.sealed_ with
      | some x => answer s x.waiter 2#8 []
      | none => s
    adminLater (match old.select with
      | some x => answer s x.waiter 2#8 []
      | none => s)

def execVersionSelect (ep : Fin 2) (entry _data : List Byte) (s : State) : Result :=
  .next (adminRun s ep.val entry { op := 0x33, named := false, used := [(20, 1)], proofed := false }
    (fun b => decide (leAt b 20 1 < 16)) (fun s b => versionSelect s (leAt b 20 1) (adminWaiter ep.val b)))

/-! TABLE_READ. -/

/-- The MAC place that a read names: by way and the key's index, in the stash, or where the key is. -/
def readMacPlace (f : Fwd) (b : List Byte) : Option Nat :=
  let e := macOfBytes (slice b 28 16)
  match macNamed f (leAt b 24 1) (leAt b 25 2) e with
  | some p => some p
  | none => macFind f e.bd e.mac

/-- The entry that a read finds in its table and version: the record's index word and the entry. -/
def tableEntry (s : State) (t : VTables) (b : List Byte) : Option (Nat × List Byte) :=
  let k := slice b 28 36
  let i := leAt b 24 4
  match leAt b 20 1 with
  | 0 => ((readMacPlace s.fwd b).bind (tget s.fwd.mac)).bind (fun e => if e.valid then some (0, macBytes e) else none)
  | 1 => (tget s.fwd.tenants i).bind (fun e => if e.valid then some (i, tenantBytes e (tgetD t.vrf i 0)) else none)
  | 2 => (tget t.segment (leAt k 0 3)).map (fun x => (0, segmentBytes (leAt k 0 3) x))
  | 3 => (tget s.fwd.adjacencies i).bind (fun a => if a.valid then some (i, adjBytes a) else none)
  | 4 => (lpmGet t.ipv4 (lpm4OfBytes k).1).map (fun d => (0, lpm4Bytes (lpm4OfBytes k).1 d))
  | 5 => (lpmGet t.ipv6 (lpm6OfBytes k).1).map (fun d => (0, lpm6Bytes (lpm6OfBytes k).1 d))
  | _ => (tget t.ternary i).map (fun e => (0, ternBytes i e))

def tableReadOk (b : List Byte) : Bool :=
  decide (leAt b 20 1 ≤ 6) && (decide (leAt b 21 1 ≤ 15) || leAt b 21 1 == 0xFF) && decide (160 ≤ adminLen b)
  && (leAt b 20 1 != 0 || (decide (leAt b 24 1 ≤ 5) && decide (leAt b 25 2 < 1024)))

/-- The tables of the version named; none where no slot holds it. -/
def readVersion (s : State) (b : List Byte) : Option VTables :=
  if leAt b 21 1 = 0xFF then some (currentTables s.dec)
  else (slotOfVersion s.dec (leAt b 21 1)).map (fun i => (vslot s.dec i).tables)

def tableRead (ep : Nat) (s : State) (b : List Byte) : AdminAnswer :=
  match readVersion s b with
  | none => adminFail s 7
  | some t =>
    let e := tableEntry s t b
    let r := e.getD (0, [])
    adminDone (adminOut s ep b (leBytes 4 r.1 ++ zeroBytes 4 ++ slice r.2 0 152)) 0 [if e.isSome then 1#8 else 0#8]

def execTableRead (ep : Fin 2) (entry _data : List Byte) (s : State) : Result :=
  .next (adminRun s ep.val entry { op := 0x34, named := false, used := [(20, 2), (24, 40)], proofed := false } tableReadOk
    (tableRead ep.val))

/-! CUT_REQUEST, CUT_READ. -/

def cutRequest (s : State) (b : List Byte) : AdminAnswer :=
  let (s, a) := cutSubmit s (if leAt b 21 1 = 1 then .pair else .demand) (leAt b 20 1 == 1) (BitVec.ofNat 64 (leAt b 24 8))
    (BitVec.ofNat 64 (leAt b 32 8))
  adminDone s a.status.toNat (match a with | .ok id => leBytes 4 id.toNat | _ => [])

def execCutRequest (ep : Fin 2) (entry _data : List Byte) (s : State) : Result :=
  .next (adminRun s ep.val entry { op := 0x40, named := false, used := [(20, 2), (24, 16)], proofed := false }
    (fun b => decide (leAt b 20 1 ≤ 1) && decide (leAt b 21 1 ≤ 1)) cutRequest)

/-- The buffer that holds a cut, copying or readable. -/
def cutBufferOf (s : State) (id : Nat) : Option (CutBuf × CutRecord) :=
  (List.range 4).findSome? (fun k =>
    let x := tgetD s.ldg.bufs k CutBuf.empty
    match x.record with
    | some r => if (x.state == 1 || x.state == 2) && r.id.toNat == id then some (x, r) else none
    | none => none)

/-- A run of counters of a buffer, 16 bytes each. -/
def cutCounters (x : CutBuf) (first n : Nat) : List Byte :=
  (List.range n).flatMap (fun i =>
    let v := tgetD x.content (first + i) (0#64, 0#64)
    leBytes 8 v.1.toNat ++ leBytes 8 v.2.toNat)

def cutRead (ep : Nat) (s : State) (b : List Byte) : AdminAnswer :=
  match cutBufferOf s (leAt b 20 4) with
  | none => adminFail s 7
  | some (x, r) =>
    if x.state ≠ 2 then adminFail s 3
    else adminOk (adminOut s ep b (cutRecordBytes r ++ cutCounters x (leAt b 24 4) ((adminLen b - 64) / 16)))

def cutReadOk (b : List Byte) : Bool :=
  decide (64 ≤ adminLen b) && adminLen b % 16 == 0 && decide (leAt b 24 4 + (adminLen b - 64) / 16 ≤ definedEnd)

def execCutRead (ep : Fin 2) (entry _data : List Byte) (s : State) : Result :=
  .next (adminRun s ep.val entry { op := 0x41, named := false, used := [(20, 8)], proofed := false } cutReadOk (cutRead ep.val))

/-! TIME_CONFIG (R330, R488). -/

def ptpPortBytesOk (b : List Byte) : Bool :=
  let logOk := fun i => decide (-7 ≤ signedOf 8 (leAt b i 1)) && decide (signedOf 8 (leAt b i 1) ≤ 4)
  decide (leAt b 2 1 ≤ 2) && decide (leAt b 3 1 ≤ 1) && logOk 4 && logOk 5 && logOk 6 && decide (leAt b 7 1 ≤ 3)
  && allZero (slice b 8 8)

def ptpPortOfBytes (b : List Byte) : PtpPort :=
  { port := leAt b 0 2, transport := leAt b 2 1, peerDelay := leAt b 3 1 == 1, logSync := signedOf 8 (leAt b 4 1),
    logAnnounce := signedOf 8 (leAt b 5 1), logDelayReq := signedOf 8 (leAt b 6 1), external := leAt b 7 1,
    noControlRule := false, foreign := none, last := [], seq := 0#16 }

def ptpBytesOk (d : List Byte) : Bool :=
  let n := leAt d 3 1
  decide (leAt d 0 1 ≤ 1) && decide (leAt d 2 1 ≤ 1) && decide (1 ≤ n) && decide (n ≤ 32) && decide (leAt d 7 1 ≤ 1)
  && allZero (slice d 8 8) && d.length == 16 + 16 * n && (List.range n).all (fun i => ptpPortBytesOk (slice d (16 + 16 * i) 16))

def ptpOfBytes (d : List Byte) : Ptp :=
  { enable := leAt d 0 1 == 1, domainNumber := d.getD 1 0#8, boundary := leAt d 2 1 == 1, priority1 := d.getD 4 0#8,
    priority2 := d.getD 5 0#8, clockClass := d.getD 6 0#8, external := leAt d 7 1 == 1,
    ports := (List.range (leAt d 3 1)).map (fun i => ptpPortOfBytes (slice d (16 + 16 * i) 16)) }

def timeConfig (data : List Byte) (s : State) (b : List Byte) : AdminAnswer :=
  let p := ptpOfBytes (adminData b data)
  if p.ports.any (fun x => (portOf s x.port).isNone) then adminFail s 4
  else
    let s := { s with ptp := p }
    adminOk { s with ptp := { p with ports := p.ports.map (fun x => { x with noControlRule := ptpUnruled s x }) } }

def execTimeConfig (ep : Fin 2) (entry data : List Byte) (s : State) : Result :=
  .next (adminRun s ep.val entry { op := 0x42, named := false, used := [], proofed := false }
    (fun b => ptpBytesOk (adminData b data)) (timeConfig data))

end Sys2Proof.Machine
end

