-- ==== Sys2Proof/Machine/MirrorOps.lean ====
section
/-!
DEFINITION. The mirror link and the pair: frames sent and acknowledged, the records of a delta as the partner applies them,
plans, and the changes of a side's state (R521-R539).
-/

namespace Sys2Proof.Machine

/-- Unit id of the mirror unit (R23). -/
def mirrorUnit : Nat := 0x06

def mirMod (s : State) (f : Mir → Mir) : State := { s with mir := f s.mir }

/-- The mirror unit works: MIR is released and a pair is configured (R517, R593). -/
def mirrorOn (s : State) : Bool := releasedOf s 13 && s.mir.pair.mode != 0

/-- The link carries frames. -/
def mirrorCarries (s : State) : Bool := mirrorOn s && decide (2 ≤ mirrorLink s)

/-- The side is up to date and so is its partner. -/
def inStep (s : State) : Bool := s.mir.state == .active || s.mir.state == .standby

/-! Frames (R523-R525). -/

def mlpHeader (s : State) (type : Nat) (length : Nat) (seq : W32) : List Byte :=
  leBytes 1 type ++ leBytes 1 (if s.rst.options.sideB then 1 else 0) ++ leBytes 2 length ++ leBytes 4 seq.toNat
    ++ leBytes 4 s.mir.received.toNat ++ leBytes 4 s.mir.generation.toNat

def mirrorEmit (s : State) (type : Nat) (seq : W32) (payload : List Byte) : State :=
  emit s (.mirror type seq (mlpHeader s type payload.length seq ++ payload))

def unackedBytes (m : Mir) : Nat := sumOf (m.unacked.map (fun f => 16 + f.payload.length))

/-- Backpressure from 6 MiB of unacknowledged bytes until they fall below 4 MiB (R525). -/
def pressureSet (m : Mir) : Mir :=
  let n := unackedBytes m
  { m with pressure := if 6291456 ≤ n then true else if n < 4194304 then false else m.pressure }

/-- A frame of the SEQ space leaves, and stays in the retransmit store until it is acknowledged. -/
def mirrorSend (s : State) (type : Nat) (payload : List Byte) : State :=
  if !mirrorCarries s then s
  else
    let seq := s.mir.nextSeq
    let s := mirrorEmit s type seq payload
    mirMod s (fun m => pressureSet { m with
      nextSeq := wrapInc seq, ackTick := if m.unacked.isEmpty then intervalStart s else m.ackTick
      unacked := m.unacked ++ [{ seq := seq, type := type, payload := payload }] })

/-- One more frame of the SEQ space has come in order. -/
def mirrorTook (s : State) : State := mirMod s (fun m => { m with received := wrapInc m.received })

/-- Counter blocks whose delta frame is acknowledged become usable (R406). -/
def blockAcked (ack : W32) (b : CtrBlock) : CtrBlock :=
  match b.seq with
  | some q => if decide (q.toNat ≤ ack.toNat) then { b with usable := true, seq := none } else b
  | none => b

/-- A block that no acknowledgement can free is usable on its record write: the side is solo (R406, R417). -/
def blockSolo (b : CtrBlock) : CtrBlock := { b with usable := true, seq := none }

def blocksMap (s : State) (f : CtrBlock → CtrBlock) : State :=
  cphMod s (fun k => { k with cache := tmap k.cache (fun _ e => { e with block := e.block.map f, nextBlock := e.nextBlock.map f }) })

/-- ACK of a heartbeat: the highest SEQ that the partner has in order. -/
def ackTake (s : State) (ack : W32) : State :=
  if ack.toNat ≤ s.mir.lastAck.toNat || decide (s.mir.nextSeq.toNat ≤ ack.toNat) then s
  else
    blocksMap (mirMod s (fun m => pressureSet { m with
      lastAck := ack, ackTick := intervalStart s, unacked := m.unacked.filter (fun f => decide (ack.toNat < f.seq.toNat)) }))
      (blockAcked ack)

/-! Plans (R527, R529). -/

def planBody (k : PlanKind) (version tick : Nat) : List Byte :=
  leBytes 1 k.code ++ leBytes 1 version ++ zeroBytes 6 ++ leBytes 8 tick

/-- A plan of this side, with its record in the delta. -/
def planLocal (s : State) (k : PlanKind) (version tick : Nat) : State :=
  deltaAdd (mirMod s (fun m => { m with plans := m.plans ++ [{ kind := k, version := version, tick := tick, remote := false }] }))
    0x04 (planBody k version tick)

/-- Out of step: PAIR_OUT_OF_STEP, and STALE at the next boundary (R536). -/
def outOfStep (s : State) : State :=
  raise (mirMod s (fun m => { m with staleDue := true })) .pairOutOfStep mirrorUnit wholeUnit

/-! Records of a received delta. -/

/-- A record of `n` body bytes arrives on a side that takes it: delta bytes count toward the SEQ of their frames, which hold
9,196 bytes each. A solo side expects no delta, and discards it (R523). -/
def recordIn (s : State) (n : Nat) (f : State → State) : State :=
  if !mirrorCarries s || s.mir.state == .init then s
  else
    let old := s.mir.rxBytes
    let bytes := old + 4 + n
    let s := mirMod s (fun m => { m with rxBytes := bytes, received := wrapAdd m.received (bytes / 9196 - old / 9196) })
    if s.mir.state = .solo then s else f s

/-- A frame other than a delta arrives. -/
def frameIn (s : State) (f : State → State) : State :=
  if !mirrorCarries s || s.mir.state == .init then s else f (mirrorTook s)

/-- A received MAC entry as this side installs it: unchanged for a PAIRED or TRUNK port, else by the trunk; none without a
trunk (R528). -/
def macReceived (s : State) (e : MacEntry) : Option MacEntry :=
  let n := destPortOf e.dest
  if !e.valid || dtypeOf e.dest ≠ .port || tgetD s.mir.pair.roles n 0 = 2 || tgetD s.mir.pair.roles n 0 = 3 then some e
  else
    s.mir.pair.trunkGroup.map (fun g => { e with dest := BitVec.ofNat 32 (0x20000000 + g % 256 + destQueueOf e.dest * 1024) })

/-- This side wrote the same entry in a later tick, or in the same tick as side B: the received write loses (R528). -/
def ownPrevails (s : State) (r : TblRec) (tick : Nat) : Bool :=
  s.mir.ownWrites.any (fun w => w.1 == r.table && w.2.1 == r.place
    && (decide (tick < w.2.2) || (tick == w.2.2 && s.rst.options.sideB)))

/-- A received record: the index word and the entry. -/
def recordRead (table : Nat) (delete : Bool) (bytes : List Byte) : Option TblRec :=
  tblRecOf table delete (leAt bytes 0 6) (bytes.drop 6)

/-- An ordinary write of the partner under R200. -/
def ordApply (s : State) (delete : Bool) (r : TblRec) : State :=
  let r' := match r with
    | .mac e => if delete then some r else (macReceived s e).map TblRec.mac
    | _ => some r
  match r'.bind (fun r => r.apply delete s.fwd) with
  | some f => { s with fwd := f }
  | none => s

def ordReceived (s : State) (tick table : Nat) (delete : Bool) (bytes : List Byte) : State :=
  match recordRead table delete bytes with
  | some r => if !r.ordinary || ownPrevails s r tick then s else ordApply s delete r
  | none => s

/-- A versioned write of the partner goes to this side's open version; one that does not fit is lost. -/
def verReceived (s : State) (table : Nat) (delete : Bool) (bytes : List Byte) : State :=
  match recordRead table delete bytes with
  | some r => ((openWrite s.dec (r.vwrites delete)).map (fun d => { s with dec := d })).getD s
  | none => s

/-- A plan of the partner: too late, it puts this side out of step. A commit seals this side's open version, and a select
takes the place of one that waits and ends a planned commit (R207; log entry 125). -/
def planReceived (s : State) (k : PlanKind) (version tick : Nat) : State :=
  if tick ≤ now s then outOfStep s
  else
    let s := mirMod s (fun m =>
      { m with plans := m.plans.filter (fun p => !(k == .select && p.kind == .commit && p.remote))
                 ++ [{ kind := k, version := version, tick := tick, remote := true }] })
    match k, s.dec.sealed_ with
    | .commit, none => { s with dec := sealNow s.dec (now s) .plan false }
    | .select, some x =>
      if x.waiter = .plan then { s with dec := { s.dec with sealed_ := none, openWrites := x.writes ++ s.dec.openWrites } } else s
    | _, _ => s

/-- A flow-state entry of the partner: this side keeps its own COUNTERS of a key that it holds. -/
def flowReceived (s : State) (i : Nat) (delete : Bool) (b : List Byte) : State :=
  if !hbmAnswers s (i * 64) then s
  else
    let old := flowRead s i
    if delete then (if flowValid old then flowEnd s i 1 (flowCounters old) else s)
    else
      let keep := flowValid old && flowKeyOf old == flowKeyOf b
      let b := slice b 0 56 ++ (if keep then slice old 56 8 else zeroBytes 8)
      flowValidAdj (flowWrite s i b) (flowValid old) (flowValid b)

/-- Words of a mirrored channel's state record, from one on, for the channel that shadows it. -/
def channelWords (s : State) (c first : Nat) (words : List W48) : State :=
  match (s.mir.pair.shadows.find? (fun x => x.1 == c)).bind (fun x => channelOf s x.2) with
  | some ch => stateSetAll s ch.bind first (words.take (ch.bind.stateWords - first))
  | none => s

/-- A mirrored channel's state record replaces that of the channel that shadows it. -/
def channelReceived (s : State) (c : Nat) (words : List W48) : State := channelWords s c 0 words

def hwmReceived (s : State) (i hwm : Nat) : State := ctxMod s i (fun c => { c with ctrHwm := max c.ctrHwm hwm })

/-- A PAIRED context of the partner, unwrapped under V1; without V1, or where the unwrap fails, nothing changes. CTR_HWM is the higher
of the two: no value repeats across the pair (R405). -/
def contextReceived (s : State) (i : Nat) (destroy : Bool) (image : List Byte) : State :=
  match (tget s.kvl.vbat 1).bind (fun k => ctxOfImage image (some k)) with
  | none => s
  | some c =>
    let own := (ctxOf s i).ctrHwm
    let s := ctxRemove s i
    if destroy then s
    else ctxMod s i (fun _ => { c with epoch := s.cph.bootEpoch, saveSeq := 0#32, ctrHwm := max own c.ctrHwm })

/-- A gate list that the partner accepted in the tick before: it takes effect at the same boundary (R267, R529). -/
def gateReceived (s : State) (b : List Byte) : State :=
  let (n, g) := gateOfBytes b
  if !gateOk b || (portOf s n).isNone then s
  else
    schPortMod s n (fun p =>
      { p with pendingList := some g, actTick := max (now s + 1) (g.baseS * 1000000 + cdiv g.baseNs 1000) })

/-- A PAIR cut of the partner is admitted at rank 2 as of the tick whose delta carried it, and answered; an answer is
kept with the cut of its tick (R304). -/
def cutReceived (s : State) (answer_ : Bool) (status : Byte) (id : W32) (tick tag : W64) : State :=
  if answer_ then
    { s with ldg := { s.ldg with
        scheduled := s.ldg.scheduled.map (fun c =>
          if c.kind == .pair && c.tick == tick.toNat then { c with partnerOk := status == 0#8 } else c) } }
  else
    let (l, a) := cutAdmit (now s - 1) s.ldg
      { kind := .pair, summary := false, tick := tick.toNat, tag := tag, id := 0#32, partnerOk := true }
    deltaAdd { s with ldg := l } 0x0A (cutBody true a.status id tick tag)

def windowReceived (s : State) (a : Nat) (bytes : List Byte) : State :=
  if hbmRangeOk s a bytes.length then hbmPutBytes s a bytes else s

/-! Sides (R534, R536). -/

/-- The side takes over: its generation advances and it is SOLO, leader of the pair's time; what waits on the partner's
acknowledgements is free. -/
def takeover (s : State) (cls : FaultClass) : State :=
  let s := mirMod s (fun m =>
    { m with state := .solo, generation := wrapInc m.generation, takeovers := wrapInc m.takeovers, forceDue := false })
  let s := blocksMap { s with tmb := { s.tmb with leader := true } } blockSolo
  raiseDetail s cls mirrorUnit wholeUnit (putB s.mir.e1 0 + putB s.mir.e2 1 + putB s.mir.e3 2)

/-- A joiner or a side out of step is STALE, and no sync runs. -/
def toStale (m : Mir) : Mir :=
  { m with state := .stale, staleDue := false, syncActive := false, syncReceiving := false, syncQueue := [], syncDone := none,
           plans := m.plans.filter (fun p => p.kind != .join) }

end Sys2Proof.Machine
end

