-- ==== Sys2Proof/Machine/Mirror.lean ====
section
/-!
DEFINITION. The commands of the mirror unit: training, heartbeats, the records of the partner's delta, the bulk sync, evidence
and the guarded actions of MIR_CMD (R304, R332, R333, R521-R539, R621).
-/

namespace Sys2Proof.Machine

/-! Training (R521, R522). -/

/-- MIRROR_TRAINING_ATTEMPT: with both halves down and the wait over. -/
def mirrorTrain (s : State) : State :=
  if !mirrorOn s || mirrorLink s ≠ 0 || decide (now s < s.mir.waitUntil) then s
  else mirMod s (fun m => { m with trainingSince := some (intervalStart s), attempts := wrapInc m.attempts })

def execMirrorTrainingAttempt (s : State) : Result := .next (mirrorTrain s)

/-- The wait after a failed attempt, in ms: 50, then doubled up to 3,200. -/
def backoffNext (ms : Nat) : Nat := if ms = 0 then 50 else min 3200 (2 * ms)

/-- MIRROR_TRAINING_TIMEOUT: 50,000 ticks after the attempt began. -/
def mirrorTrainFail (s : State) : State :=
  match s.mir.trainingSince with
  | none => s
  | some t =>
    if decide (2 ≤ mirrorLink s) || decide (now s < t + 50000) then s
    else
      mirMod s (fun m =>
        { m with trainingSince := none, backoffMs := backoffNext m.backoffMs
                 waitUntil := intervalStart s + backoffNext m.backoffMs * 1000 })

def execMirrorTrainingTimeout (s : State) : Result := .next (mirrorTrainFail s)

/-- The link reaches HALF: each direction's SEQ starts at 1, and the backoff ends (R524). -/
def linkStart (m : Mir) (tick : Nat) : Mir :=
  { m with nextSeq := 1#32, received := 0#32, lastAck := 0#32, ackTick := tick, unacked := [], rxBytes := 0, delta := [], verHeld := [],
           pressure := false, trainingSince := none, backoffMs := 0, linkLost := none }

def halfSet (m : Mir) (half : Nat) (up : Bool) : Mir := if half = 0 then { m with half0 := up } else { m with half1 := up }

/-- MIRROR_HALF_UP: a half aligns in an attempt, or beside the half that carries the link. -/
def mirrorHalfUp (s : State) (half : Nat) : State :=
  if !mirrorOn s || mirrorLink s = 0 then s
  else mirMod s (fun m => halfSet (if mirrorLink s = 1 then linkStart m (now s) else m) half true)

def execMirrorHalfUp (half : Fin 2) (s : State) : Result := .next (mirrorHalfUp s half.val)

/-- The link is lost: a joiner returns to STALE, a sync ends, and counter blocks that wait become usable (R406, R539). -/
def linkLose (s : State) : State :=
  let s := mirMod s (fun m => { m with linkLost := some (intervalStart s), waitUntil := now s })
  let s := mirMod s (fun m => if m.state == .syncing || m.syncActive then
    { toStale m with state := if m.syncReceiving then .stale else m.state } else m)
  sourceLost (blocksMap s blockSolo) .partner

/-- MIRROR_HALF_DOWN. -/
def mirrorHalfDown (s : State) (half : Nat) : State :=
  let up := if half = 0 then s.mir.half0 else s.mir.half1
  if !up then s
  else
    let s := raise (mirMod s (fun m => halfSet m half false)) .mirrorHalfDown mirrorUnit half
    if mirrorLink s = 0 then linkLose s else s

def execMirrorHalfDown (half : Fin 2) (s : State) : Result := .next (mirrorHalfDown s half.val)

/-- MIRROR_RETRANSMIT: ACK has not advanced for 4 ticks; every unacknowledged frame is sent again (R524). -/
def mirrorRetransmit (s : State) : State :=
  if !mirrorCarries s || s.mir.unacked.isEmpty || decide (now s < s.mir.ackTick + 4) then s
  else
    let s := mirMod s (fun m =>
      { m with ackTick := intervalStart s, retransmits := wrapAdd m.retransmits m.unacked.length })
    s.mir.unacked.foldl (fun s f => mirrorEmit s f.type f.seq f.payload) s

def execMirrorRetransmit (s : State) : Result := .next (mirrorRetransmit s)

/-! Heartbeats (R332, R333, R526, R539). -/

/-- The offset of the partner's time from this side's, in hundredths of a SUB step, from the four stamps of an exchange, less
ASYM of TMB_MIR_ASYM. -/
def pairOffset (s : State) (txPrev rxPrev : Stamp) : Int :=
  (((txPrev.steps : Int) - s.mir.prevRx.steps) + ((rxPrev.steps : Int) - s.mir.prevTx.steps)) * 50 - s.tmb.mirAsym.toInt * 100

/-- PARTNER as a time source: qualified while the partner leads, and measured by the follower (R320, R333). -/
def partnerTime (s : State) (hb : Heartbeat) (txPrev rxPrev : Stamp) : State :=
  if !isFollower s || !hb.leader then sourceLost s .partner
  else
    let s := sourceQualify s .partner
    let s := tmbMod s (fun t => t.modSource .partner (fun v => { v with traceable := hb.traceable }))
    sourceMeasure s .partner (pairOffset s txPrev rxPrev)

/-- SYNC_DONE is acknowledged: JOIN is planned (R539). -/
def joinPlan (s : State) : State :=
  match s.mir.syncDone with
  | some q =>
    if decide (q.toNat ≤ s.mir.lastAck.toNat) then planLocal (mirMod s (fun m => { m with syncDone := none })) .join 0 (now s + 2)
    else s
  | none => s

/-- HEARTBEAT_RX. -/
def heartbeatRx (s : State) (hb : Heartbeat) (ack : W32) (txPrev rxPrev : Stamp) (sub : Nat) : State :=
  if !mirrorCarries s then s
  else
    let s := partnerTime s hb txPrev rxPrev
    let s := mirMod s (fun m => { m with heartbeat := some hb, hbSeen := true, prevRx := { tick := now s, sub := sub } })
    joinPlan (ackTake s ack)

def execHeartbeatRx (hb : Heartbeat) (ack : W32) (txPrev rxPrev : Stamp) (sub : Fin 32000) (s : State) : Result :=
  .next (heartbeatRx s hb ack txPrev rxPrev sub.val)

/-! The records of the partner's delta (R527, R528). -/

def execBoundaryRecord (v : W64) (s : State) : Result :=
  .next (recordIn s 8 (fun s => mirMod s (fun m => { m with partnerBoundary := v })))

def execOrdWrite (tick : W64) (table : Fin 7) (delete : Bool) (record : List Byte) (s : State) : Result :=
  .next (recordIn s (12 + record.length) (fun s => ordReceived s tick.toNat table.val delete record))

def execVerWrite (_tick : W64) (table : Fin 7) (delete : Bool) (record : List Byte) (s : State) : Result :=
  .next (recordIn s (12 + record.length) (fun s => verReceived s table.val delete record))

def execPlan (kind : PlanKind) (version : Fin 16) (tick : W64) (s : State) : Result :=
  .next (recordIn s 16 (fun s => planReceived s kind version.val tick.toNat))

def execFlow (index : BitVec 27) (delete : Bool) (bytes : List Byte) (s : State) : Result :=
  .next (recordIn s 72 (fun s => flowReceived s index.toNat delete (slice bytes 0 64)))

def execChannel (channel : W24) (words : List W48) (s : State) : Result :=
  .next (recordIn s (8 + 8 * words.length) (fun s => channelReceived s channel.toNat words))

def execCtr (ctx : BitVec 18) (hwm : W64) (s : State) : Result :=
  .next (recordIn s 16 (fun s => hwmReceived s ctx.toNat hwm.toNat))

def execContext (ctx : BitVec 18) (destroy : Bool) (image : List Byte) (s : State) : Result :=
  .next (recordIn s 144 (fun s => contextReceived s ctx.toNat destroy image))

def execGate (bytes : List Byte) (s : State) : Result :=
  .next (recordIn s bytes.length (fun s => gateReceived s bytes))

def execCut (answer : Bool) (status : Byte) (id : W32) (tick tag : W64) (s : State) : Result :=
  .next (recordIn s 24 (fun s => cutReceived s answer status id tick tag))

/-- MIGRATION changes nothing local. -/
def execMigration (bytes : List Byte) (s : State) : Result :=
  .next (recordIn s bytes.length (fun s => mirMod s (fun m => { m with partnerUnits := bytes })))

def execHbmWrite (hda : BitVec 37) (bytes : List Byte) (s : State) : Result :=
  .next (recordIn s 72 (fun s => windowReceived s hda.toNat (slice bytes 0 64)))

/-- LEADER takes effect at the next boundary (R332). -/
def execLeader (sideB : Bool) (s : State) : Result :=
  .next (recordIn s 8 (fun s => mirMod s (fun m => { m with leaderDue := some sideB })))

/-- END: the last frame of the delta has come. -/
def deltaEnd (s : State) : State :=
  if !mirrorCarries s || s.mir.state == .init then s
  else
    mirMod (recordIn s 8 (fun s => s)) (fun m =>
      { m with rxBytes := 0, received := if m.rxBytes % 9196 = 0 then m.received else wrapInc m.received })

def execEnd (_count : W32) (s : State) : Result := .next (deltaEnd s)

/-! The bulk sync (R538, R539). -/

/-- SYNC_REQ at the survivor: the sync starts at the next boundary; another PAIR_ID stops the rejoin. -/
def syncRequested (s : State) (mirrorIn : Nat) (pairId : W32) : State :=
  if pairId ≠ s.mir.pair.pairId then raise s .pairConfigMismatch mirrorUnit wholeUnit
  else if s.mir.state == .active || s.mir.state == .standby || s.mir.state == .solo then
    mirMod s (fun m => { m with syncStart := true, partnerIn := mirrorIn })
  else s

def execSyncReq (mirrorIn pairId : W32) (s : State) : Result :=
  .next (frameIn s (fun s => syncRequested s mirrorIn.toNat pairId))

/-- What a sync replaces goes at its first data: tables, adjacencies, flow-state entries and PAIRED contexts. -/
def syncClear (s : State) : State :=
  let s := (s.cph.ctxs.filter (fun e => e.2.paired)).foldl (fun s e => ctxRemove s e.1) s
  { s with
    fwd := { s.fwd with mac := [], tenants := [], adjacencies := [], flowValid := 0#28 }
    dec := { vslotMod s.dec s.dec.currentSlot (fun v => { v with tables := VTables.empty }) with openWrites := [] }
    hbm := s.hbm.filter (fun e => decide (2 ^ 33 ≤ e.1)) }

/-- A table entry of the current version, or an ordinary one. -/
def syncEntry (s : State) (b : List Byte) : State :=
  match recordRead (leAt b 8 1) false (b.drop 12) with
  | none => s
  | some r =>
    let s := ordApply s false r
    { s with dec := vslotMod s.dec s.dec.currentSlot (fun v => { v with tables := vApplyAll v.tables (r.vwrites false) }) }

/-- One chunk of the image. A chunk of parts 1, 2, 5 and 7 is a record in the form of R527, one of parts 3 and 6 is bytes for a
place in HBM, and one of part 4 is words of a state record: the channel and the first word stand in the offset. -/
def syncChunk (s : State) (part : Nat) (offset : Nat) (b : List Byte) : State :=
  let body := b.drop 4
  match part, leAt b 0 1 with
  | 1, 0x02 | 2, 0x02 => syncEntry s body
  | 1, 0x03 => verReceived s (leAt body 8 1) (leAt body 9 1 == 1) (body.drop 12)
  | 3, _ => flowReceived s (offset / 64) false (slice b 0 64)
  | 4, _ =>
    channelWords s (offset / 65536) (offset % 65536) ((List.range (b.length / 8)).map (fun i => BitVec.ofNat 48 (leAt b (8 * i) 6)))
  | 5, 0x08 => contextReceived s (leAt body 0 4) (leAt body 4 1 == 1) (body.drop 8)
  | 6, _ => windowReceived s offset b
  | 7, 0x04 =>
    match leAt body 0 1 with
    | 0 => planReceived s .commit (leAt body 1 1 % 16) (leAt body 8 8)
    | 1 => planReceived s .select (leAt body 1 1 % 16) (leAt body 8 8)
    | _ => s
  | 7, 0x07 => hwmReceived s (leAt body 0 4) (leAt body 8 8)
  | 7, 0x09 => gateReceived s body
  | _, _ => s

/-- This side receives a sync. -/
def joining (s : State) : Bool := s.mir.state == .stale && s.mir.syncActive && s.mir.syncReceiving

def syncTake (s : State) (part offset : Nat) (b : List Byte) : State :=
  if !joining s then s
  else
    let s := if s.mir.syncParts.isEmpty then syncClear s else s
    let s := syncChunk s part offset b
    mirMod s (fun m => { m with
      syncBytes := m.syncBytes + b.length
      syncParts := if m.syncParts.contains part then m.syncParts else m.syncParts ++ [part] })

def execSyncData (part : Byte) (offset : W64) (bytes : List Byte) (s : State) : Result :=
  .next (frameIn s (fun s => syncTake s part.toNat offset.toNat bytes))

/-- SYNC_DONE: the joiner takes the generation and is SYNCING until JOIN. -/
def execSyncDone (gen : W32) (_size : W64) (s : State) : Result :=
  .next (frameIn s (fun s =>
    if !joining s then s
    else
      let s := if s.mir.syncParts.isEmpty then syncClear s else s
      mirMod s (fun m => { m with state := .syncing, generation := gen, leaving := false })))

/-! MIR_CMD (R534, R535). -/

/-- SWAP: planned at the next boundary, when no sync runs. -/
def mirSwap (s : State) : State := if inStep s then mirMod s (fun m => { m with swapDue := true }) else s

def execMirSwap (s : State) : Result := .next (mirSwap s)

/-- FORCE_TAKEOVER: at the next boundary, without evidence. -/
def mirForce (s : State) : State := if inStep s then mirMod s (fun m => { m with forceDue := true }) else s

def execMirForceTakeover (s : State) : Result := .next (mirForce s)

/-- LEAVE: LEAVING is set, and the side is STALE at the next boundary. -/
def mirLeave (s : State) : State :=
  if s.mir.state == .init then s else mirMod s (fun m => { m with leaving := true, staleDue := true })

def execMirLeave (s : State) : Result := .next (mirLeave s)

/-! Evidence (R533, R621). -/

/-- The partner is confirmed alive by STATUS OK and another serial. -/
def execPartnerStatusResponse (status : Byte) (serial : W32) (s : State) : Result :=
  .next (if s.mir.pollSince.isNone then s
    else
      let alive := status == 0#8 && serial != s.board.serial
      mirMod s (fun m => { m with pollSince := none, e3 := !alive, pollAlive := alive }))

/-- No response within 100 ticks. -/
def execPartnerPollTimeout (s : State) : Result :=
  .next (match s.mir.pollSince with
    | some t =>
      if now s < t + 100 then s else mirMod s (fun m => { m with pollSince := none, e3 := true, pollAlive := false })
    | none => s)

/-- PAIR_SENSE is pulled low in beats 0-159 by side A, in beats 800-959 by side B. -/
def senseWindow (s : State) : Bool :=
  let b := s.tmb.beat
  if s.rst.options.sideB then decide (800 ≤ b) && decide (b < 960) else decide (b < 160)

def execPairSenseDrive (low : Bool) (s : State) : Result :=
  .next (mirMod s (fun m => { m with senseDrive := low && mirrorOn s && senseWindow s }))

/-- The partner's window ends: its pulse was there, or was absent once more. -/
def execPairSenseSample (present : Bool) (s : State) : Result :=
  .next (if !mirrorOn s then s
    else mirMod s (fun m => { m with senseSeen := present, senseAbsent := if present then 0 else m.senseAbsent + 1 }))

/-! Exports over the mirror link (R293, R309, R311). -/

/-- A copy for the mirror link is created: its SEQ and its icing at its enqueue time are taken before any admission (R310, R311),
and U16 owns it from there (R292). The spec names neither a destination (R210, R211) nor a command that makes a packet a mirror
export, and the model gives none: nothing calls this operation (R28; DESIGN CHOICE, log entry 139). -/
def exportEnter (s : State) (id : Nat) : State :=
  match pktOf s id with
  | none => s
  | some p =>
    let s := pktMod (transfer s id 16) id (fun x =>
      { x with icing := some (icingBytes s p 1 s.mir.exportSeq), crumbs := icedCrumbs p, stage := .exporting })
    mirMod s (fun m => { m with exportSeq := wrapInc m.exportSeq })

/-- MIRROR_EXPORT_DEPART: the first packet that waits for the link has entered it with its icing. -/
def exportDepart (s : State) : State :=
  match s.crb.pkts.find? (fun e => e.2.stage == .exporting) with
  | none => s
  | some (id, p) =>
    if !mirrorCarries s then s
    else
      departPkt (mirrorSend s 6 (p.bytes ++ leBytes 4 p.fcs.toNat ++ p.icing.getD [])) id (frameLen p)

def execMirrorExportDepart (s : State) : Result := .next (exportDepart s)

/-- EXPORT: the frame takes its place in SEQ order. -/
def execExport (_bytes : List Byte) (s : State) : Result := .next (frameIn s (fun s => s))

end Sys2Proof.Machine
end

