-- ==== Sys2Proof/Machine/Domain.lean ====
section
/-!
DEFINITION. The commands of the domain: HELLO, time transfer, domain cuts, fault reports (R544-R549).
-/

namespace Sys2Proof.Machine

/-- A domain frame is heard: the device is a member and the port is a domain link (R544). -/
def domHears (s : State) (n : Nat) : Bool := domMember s && s.mir.pair.domainLinks.contains n

/-! HELLO (R545). -/

/-- HELLO_SEND. -/
def helloSend (s : State) : State :=
  if domMember s then
    domainSendAll s none 1 (leBytes 1 s.dom.hops ++ leBytes 1 (if s.tmb.traceable then 1 else 0) ++ leBytes 2 s.dom.parent)
  else s

def execHelloSend (s : State) : Result := .next (helloSend s)

/-- HELLO received. -/
def helloRx (s : State) (n : Nat) (device hops : Nat) (traceable : Bool) : State :=
  if !domHears s n then s
  else
    parentSelect (domMod s (fun d => { d with neighbours := d.neighbours.filter (fun x => x.port != n) ++
      [{ port := n, device := device, hops := hops, traceable := traceable, lastHello := intervalStart s }] }))

def execHello (port : Fin 512) (device : BitVec 11) (hops : Byte) (traceable : Bool) (parent : W16) (s : State) : Result :=
  .next (let _ := parent; helloRx s port.val device.toNat hops.toNat traceable)

/-- NEIGHBOUR_LOST: four periods without a HELLO. -/
def neighbourLost (s : State) (n : Nat) : State :=
  if s.dom.neighbours.any (fun x => x.port == n && decide (x.lastHello + 4096 ≤ now s)) then
    parentSelect (domMod s (fun d => { d with neighbours := d.neighbours.filter (fun x => x.port != n) }))
  else s

def execNeighbourLost (port : Fin 512) (s : State) : Result := .next (neighbourLost s port.val)

/-! Time transfer (R546). -/

/-- DOMAIN_SYNC_SEND: a Sync toward a child, its stamp written one-step as it leaves (R317). -/
def syncSend (s : State) (n : Nat) : State :=
  if domHears s n then domainSend s n 2 0xFFFF (zeroBytes 34) else s

def execDomainSyncSend (port : Fin 512) (s : State) : Result := .next (syncSend s port.val)

/-- SYNC from the parent: t1 and t2; the child answers DELAY_REQ, whose egress is t3. -/
def syncRx (s : State) (n : Nat) (t1 : Stamp) (sub : Nat) : State :=
  if !domHears s n || s.dom.parent = 0 || s.dom.parentPort != n then s
  else
    let s := domMod s (fun d => { d with t1 := (t1.steps : Int), t2 := ((now s * 32000 + sub : Nat) : Int) })
    domainSend s n 3 s.dom.parent []

def execSync (port : Fin 512) (t1 : Stamp) (sub : Fin 32000) (s : State) : Result := .next (syncRx s port.val t1 sub.val)

/-- DELAY_REQ from a child: its arrival stamp returns in DELAY_RESP. -/
def delayReqRx (s : State) (n source sub : Nat) : State :=
  if domHears s n then domainSend s n 4 source (leBytes 8 (now s) ++ leBytes 2 sub) else s

def execDelayReq (port : Fin 512) (source : BitVec 11) (sub : Fin 32000) (s : State) : Result :=
  .next (delayReqRx s port.val source.toNat sub.val)

/-- DELAY_RESP from the parent: the exchange is one measurement of DOMAIN (R320). The offset is the parent's time minus
local time: the negative of ((t2 - t1) - (t4 - t3)) / 2, less the port's asymmetry. -/
def delayRespRx (s : State) (n : Nat) (t4 : Stamp) : State :=
  if !domHears s n || s.dom.parent = 0 || s.dom.parentPort != n then s
  else
    let d := s.dom
    let half : Int := ((d.t2 - d.t1) - ((t4.steps : Int) - d.t3)) * 50 - (tgetD d.linkAsym n 0#16).toInt * 100
    let s := tmbMod s (fun t => t.modSource .domain (fun v => { v with lastEdge := some (t.tick.toNat * 32000) }))
    let traceable := ((d.neighbours.find? (fun x => x.port == n)).map (fun x => x.traceable)).getD false
    let s := sourceMeasure s .domain (-half)
    let s := sourceCount s .domain (s.tmb.within (-half)) 16
    tmbMod s (fun t => t.modSource .domain (fun v => { v with traceable := v.qualified && traceable }))

def execDelayResp (port : Fin 512) (t4 : Stamp) (s : State) : Result := .next (delayRespRx s port.val t4)

/-! Domain cuts (R547). -/

/-- The payload of CUT_PLAN. -/
def cutPlanBytes (tick tag : W64) (id : W32) : List Byte := leBytes 8 tick.toNat ++ leBytes 8 tag.toNat ++ leBytes 4 id.toNat

/-- DOM_CUT_GO: a write of DOM_CUT_CTL. With GO at the root, the cut of DOM_CUT_REQ is admitted and its plan sent on all
domain links; elsewhere it is ignored. -/
def domCutGo (s : State) (v : W64) : State :=
  if !v.getLsbD 0 || !domRoot s then s
  else
    let tag := s.dom.cutTag
    let (s, a) := cutSubmit s .domain false s.dom.cutTick tag
    let s := domMod s (fun d => { d with cutStatus := a.status })
    match a with
    | .ok id =>
      domainSendAll (domMod s (fun d => { d with cutId := id, answerOk := 0#16, answerRefused := 0#16 })) none 5
        (cutPlanBytes s.dom.cutTick tag id)
    | _ => s

def execDomCutGo (v : W64) (s : State) : Result := .next (domCutGo s v)

/-- CUT_PLAN received: admitted once, forwarded on the other domain links with its source and SEQ, and answered toward
the root. -/
def cutPlanRx (s : State) (n source : Nat) (seq : W32) (tick tag : W64) (id : W32) : State :=
  if !domHears s n || domRoot s || s.dom.seen.contains (source, seq) then s
  else
    let s := domMod s (fun d => { d with seen := (source, seq) :: d.seen })
    let (s, a) := cutSubmit s .domain false tick tag
    let s := (s.mir.pair.domainLinks.filter (fun m => m != n)).foldl
      (fun s m => domainSendAs s m 5 source 0xFFFF seq (cutPlanBytes tick tag id)) s
    let own : W32 := match a with | .ok i => i | _ => 0#32
    if s.dom.parent = 0 then s
    else domainSend s s.dom.parentPort 6 s.mir.pair.root ([a.status] ++ leBytes 4 own.toNat)

def execCutPlan (port : Fin 512) (source : BitVec 11) (seq : W32) (tick tag : W64) (id : W32) (s : State) : Result :=
  .next (cutPlanRx s port.val source.toNat seq tick tag id)

/-- CUT_ANSWER: counted at the root, relayed elsewhere. -/
def cutAnswerRx (s : State) (n source : Nat) (seq : W32) (status : Byte) (id : W32) : State :=
  if !domHears s n then s
  else if domRoot s then
    domMod s (fun d => if status = 0#8 then { d with answerOk := wrapInc d.answerOk }
                       else { d with answerRefused := wrapInc d.answerRefused })
  else relayUp s 6 source seq ([status] ++ leBytes 4 id.toNat)

def execCutAnswer (port : Fin 512) (source : BitVec 11) (seq : W32) (status : Byte) (id : W32) (s : State) :
    Result := .next (cutAnswerRx s port.val source.toNat seq status id)

/-! Fault reports (R548, R549). -/

/-- FAULT_REPORT_FRAME: merged at the root, relayed elsewhere without a rate limit. -/
def reportFrameRx (s : State) (n source : Nat) (seq : W32) (cls : W16) (level : Nat) (subj count : W32) (first last : W64) : State :=
  if !domHears s n then s
  else if domRoot s then rootMerge s source cls level subj count first last
  else relayUp s 7 source seq (reportBytes cls level subj count first last)

def execFaultReportFrame (port : Fin 512) (source : BitVec 11) (seq : W32) (cls : W16) (level : Fin 5)
    (subject count : W32) (first last : W64) (s : State) : Result :=
  .next (reportFrameRx s port.val source.toNat seq cls level.val subject count first last)

/-- DOMAIN_REPORT_WINDOW: a window's 1,024 ticks have passed; what it held back travels in the next report. -/
def windowClose (s : State) (cls : W16) (subj : W32) : State :=
  match reportWindow s cls subj with
  | none => s
  | some w =>
    if now s < w.stop then s
    else if w.count = 0#32 then domMod s (fun d => { d with windows := d.windows.filter (fun x => x ≠ w) })
    else
      let s := domMod s (fun d => { d with windows := d.windows.map (fun x =>
        if x = w then { w with stop := intervalStart s + 1024, count := 0#32 } else x) })
      reportSend s cls w.level subj w.count w.firstTick w.lastTick

def execDomainReportWindow (cls : W16) (subject : W32) (s : State) : Result := .next (windowClose s cls subject)

/-- The 48-byte record of a domain summary (R566, KIND 3). -/
def summaryBytes (r : RootRecord) : List Byte :=
  leBytes 2 r.cls.toNat ++ leBytes 1 r.level ++ leBytes 1 3 ++ leBytes 4 r.subject.toNat ++ leBytes 4 r.count.toNat
    ++ leBytes 2 r.devices ++ zeroBytes 2 ++ leBytes 8 r.firstTick.toNat ++ leBytes 8 r.lastTick.toNat
    ++ slice ((r.reporters.take 8).flatMap (fun d => leBytes 2 d)) 0 16

/-- DOMAIN_SUMMARY_CLOSE: a root record's 1,024 ticks have passed; one summary is posted. -/
def summaryClose (s : State) (cls : W16) (subj : W32) : State :=
  match s.dom.store.find? (fun r => r.cls == cls && r.subject == subj) with
  | none => s
  | some r =>
    if now s < r.opened + 1024 then s
    else event (domMod s (fun d => { d with store := d.store.filter (fun x => x ≠ r) })) .fault (summaryBytes r)

def execDomainSummaryClose (cls : W16) (subject : W32) (s : State) : Result := .next (summaryClose s cls subject)

end Sys2Proof.Machine
end

