-- ==== Sys2Proof/Machine/MirrorTick.lean ====
section
/-!
DEFINITION. What the pair does at a tick boundary: evidence, plans, takeover, the start of a rejoin, leadership, the bulk sync,
the delta and the heartbeat (R62, R206, R207, R332, R526-R539).
-/

namespace Sys2Proof.Machine

/-! Versions at a boundary (R206, R207, R529). -/

/-- RESULT of a commit: its version in byte 16, its tick in bytes 24-31. -/
def commitResult (v tick : Nat) : List Byte := leBytes 1 v ++ zeroBytes 7 ++ leBytes 8 tick

/-- The sealed version becomes current as version `v`. -/
def commitNow (s : State) (v : Nat) : State :=
  match s.dec.sealed_, commitSlot s.dec with
  | some x, some i =>
    let t := sealedTables s.dec
    let d := vslotMod s.dec i (fun e => { e with version := v, tables := t, refs := 0 })
    let d := { slotCurrent d i (now s) with lastAssigned := v, sealed_ := none }
    answer (verRelease { s with dec := d }) x.waiter 0#8 (commitResult v (now s))
  | _, _ => s

/-- The select that waits takes effect; a version that no slot holds any more ends it STALE. -/
def selectNow (s : State) : State :=
  match s.dec.select with
  | none => s
  | some x =>
    match slotOfVersion s.dec x.version with
    | some i => answer { s with dec := selectAt s.dec (now s) i } x.waiter 0#8 (selectResult (now s))
    | none => answer { s with dec := { s.dec with select := none } } x.waiter 7#8 []

/-- A select that the partner planned. -/
def selectPlanned (s : State) (v : Nat) : State :=
  selectNow { s with dec := { s.dec with select := some { version := v, tick := now s, waiter := .plan } } }

/-- A sealed version that found no boundary within 64 ticks (R206): without a plan, past tick 64 after the sealing, it gives up
at a boundary that the 2-tick rule admits and that has no slot for it, on this side or, in a pair in step, on either. -/
def commitTimeout (s : State) : State :=
  match s.dec.sealed_ with
  | some x =>
    let pair := inStep s && s.mir.pair.mode != 0
    if now s ≤ x.tick + 64 || s.mir.plans.any (fun p => p.kind == .commit)
        || (!pair && (!twoTicks s.dec (now s) || (commitSlot s.dec).isSome)) then s
    else answer (verRelease { s with dec := commitGiveUp s.dec }) x.waiter 9#8 []
  | none => s

/-- VERSION_COMMIT_TIMEOUT. -/
def execVersionCommitTimeout (s : State) : Result := .next (commitTimeout s)

/-- The commit or select of a device that plans with no partner. -/
def versionLocal (s : State) : State :=
  if inStep s && s.mir.pair.mode != 0 then s
  else if !twoTicks s.dec (now s) then s
  else
    match s.dec.select, s.dec.sealed_ with
    | some x, _ => if x.tick < now s then selectNow s else s
    | none, some x => if x.tick < now s && (commitSlot s.dec).isSome then commitNow s (nextVersion s.dec) else s
    | none, none => s

/-- A commit or select of this side is planned in the delta of the tick that ends, once both sides have room (R529). -/
def versionPlan (s : State) : State :=
  let room := (commitSlot s.dec).isSome && ((s.mir.heartbeat.map (fun h => h.slotFree)).getD false)
  let b := max (now s + 1) (s.dec.lastCommit + 2)
  if s.mir.pair.mode = 0 || !inStep s || !room then s
  else
    match s.dec.select, s.dec.sealed_ with
    | some x, _ => if planned s .select || x.waiter == .plan then s else planLocal s .select x.version b
    | none, some x => if planned s .commit || x.waiter == .plan then s
      else verRelease (planLocal s .commit (nextVersion s.dec) b)
    | none, none => s

/-! Plans that are due. -/

/-- This side's time is aligned with its leader's, a condition of becoming active: the measured offset is within TRACE_LIMIT_NS
(R334; DESIGN CHOICE, log entry 96). -/
def pairAligned (s : State) : Bool := s.tmb.leader || s.tmb.within s.tmb.partner.offset

/-- JOIN: the joiner is up to date while the generations agree and its time is aligned, and its survivor too (R334, R539). -/
def joinNow (s : State) (remote : Bool) : State :=
  if remote then
    if s.mir.state ≠ .syncing then s
    else if (s.mir.heartbeat.map (fun h => h.generation == s.mir.generation)).getD false && mirrorCarries s && pairAligned s then
      mirMod s (fun m => { m with
        state := if m.pair.mode = 2 then .standby else .active, rejoins := wrapInc m.rejoins, syncActive := false
        syncReceiving := false })
    else mirMod s toStale
  else
    mirMod s (fun m => { m with
      state := if m.state == .solo then .active else m.state, rejoins := wrapInc m.rejoins, syncActive := false })

/-- SWAP: the sides exchange roles, and the generation advances (R530, R535). -/
def swapNow (s : State) : State :=
  mirMod s (fun m => { m with
    generation := wrapInc m.generation
    state := if m.pair.mode ≠ 2 then m.state
      else if m.state == .active then .standby else if m.state == .standby then .active else m.state })

def planNow (s : State) (p : PlanDue) : State :=
  match p.kind with
  | .commit => commitNow s p.version
  | .select => if p.remote then selectPlanned s p.version else selectNow s
  | .join => joinNow s p.remote
  | .swap => swapNow s

/-- The plans of this boundary, in the order in which they were made. -/
def plansDue (s : State) : State :=
  let due := s.mir.plans.filter (fun p => decide (p.tick ≤ now s))
  due.foldl planNow (mirMod s (fun m => { m with plans := m.plans.filter (fun p => decide (now s < p.tick)) }))

/-! Evidence and takeover (R532-R537). -/

/-- E1 and E2 as of the boundary; without either, an old E3 says nothing. -/
def evidenceUpdate (s : State) : State :=
  let s := mirMod s (fun m =>
    let miss := if m.hbSeen then 0 else min 15 (m.miss + 1)
    let e1 := decide (8 ≤ miss)
    let e2 := m.pair.senseEn && decide (4 ≤ m.senseAbsent)
    { m with hbSeen := false, miss := miss, e1 := e1, e2 := e2, e3 := m.e3 && (e1 || e2) })
  if s.mir.e1 then sourceLost s .partner else s

def evidences (m : Mir) : Nat := m.e1.toNat + m.e2.toNat + m.e3.toNat

/-- The partner shows itself by PAIR_SENSE or on the sideband. -/
def partnerAlive (m : Mir) : Bool := (m.pair.senseEn && m.senseSeen) || (m.pair.pollEn && m.pollAlive)

/-- The sideband read of the partner starts when exactly one of E1 and E2 holds. -/
def pollStart (s : State) : State :=
  if s.mir.pair.pollEn && s.mir.e1 != s.mir.e2 && s.mir.pollSince.isNone then
    emit (mirMod s (fun m => { m with pollSince := some (now s) })) (.sideband (sbMessage 0x01#8 0#8 0#8 []))
  else s

def takeoverDue (s : State) : Bool :=
  inStep s && (decide (2 ≤ evidences s.mir) || s.mir.forceDue || ((s.mir.heartbeat.map (fun h => h.leaving)).getD false))

/-- STALE: out of step, or on its way out of service (R535, R536). -/
def staleNow (s : State) : State :=
  let s := if s.sch.deviceSafe && (inStep s || s.mir.state == .solo) then
      mirMod s (fun m => { m with leaving := true, staleDue := true })
    else s
  if s.mir.staleDue then mirMod s toStale else s

/-- Two SOLO sides meet: the lower generation gives way, at equal ones side B (R537). -/
def soloMeet (s : State) : State :=
  match s.mir.heartbeat with
  | some h =>
    if s.mir.state == .solo && h.state == .solo && mirrorCarries s && s.mir.miss == 0
        && (decide (s.mir.generation.toNat < h.generation.toNat) || (s.mir.generation == h.generation && s.rst.options.sideB)) then
      mirMod s toStale
    else s
  | none => s

/-- The state that the partner's last heartbeat shows. -/
def partnerState (s : State) : SideState := ((s.mir.heartbeat.map (fun h => h.state)).getD .init)

/-- SYNC_REQ: MIRROR_IN_BYTES and PAIR_ID (R539). -/
def syncRequest (s : State) : State :=
  mirrorSend (mirMod s (fun m => { m with
      syncActive := true, syncReceiving := true, syncBytes := 0, syncParts := [], syncQueue := [] }))
    3 (leBytes 4 s.app.demand.mirrorIn ++ leBytes 4 s.mir.pair.pairId.toNat)

/-- A STALE side leaves under the first row of R532 that applies. A side in the safe state stays. -/
def staleLeave (s : State) : State :=
  let down := match s.mir.linkLost with
    | some t => decide (t + 50000 ≤ now s)
    | none => false
  if s.mir.state ≠ .stale || s.mir.syncActive || s.sch.deviceSafe then s
  else if mirrorCarries s then
    match partnerState s with
    | .active | .standby | .solo => if s.mir.miss = 0 then syncRequest s else s
    | .stale =>
      if s.mir.generation == 0#32 && !s.rst.options.sideB then
        mirMod s (fun m => { m with state := .solo, generation := 1#32 })
      else s
    | _ => s
  else if !down then s
  else if 2 ≤ evidences s.mir then takeover s .pairColdTakeover
  else if partnerAlive s.mir && !s.rst.options.sideB then mirMod s (fun m => { m with state := .solo })
  else s

/-- A joiner that no longer hears its survivor asks anew. -/
def syncDrop (s : State) : State := if s.mir.e1 && joining s then mirMod s toStale else s

/-! Leadership (R332). -/

/-- This side has a traceable external source to select. -/
def hasSource (s : State) : Bool :=
  match s.tmb.choose (now s) false with
  | .refPps | .ptp | .domain | .tickIn => (s.tmb.source (s.tmb.choose (now s) false)).traceable
  | _ => false

/-- The partner leads with a traceable time: all that R526 shows of its source (DEDUCED, log entry 96). -/
def partnerSourced (s : State) : Bool := (s.mir.heartbeat.map (fun h => h.leader && h.traceable)).getD false

/-- Side B leads: it alone has a source. -/
def leaderB (s : State) : Bool :=
  if s.rst.options.sideB then hasSource s && !partnerSourced s else partnerSourced s && !hasSource s

/-- The partner's last heartbeat shows the leadership in force; one from before a change says nothing of the partner's source. -/
def leaderShown (s : State) : Bool := (s.mir.heartbeat.map (fun h => h.leader != s.tmb.leader)).getD true

/-- A change that a delta reported takes effect; a new one is reported, and takes effect at the next boundary. -/
def leaderStep (s : State) : State :=
  if s.mir.pair.mode = 0 || !inStep s then s
  else
    let s := match s.mir.leaderDue with
      | some b => tmbMod (mirMod s (fun m => { m with leaderDue := none })) (fun t => { t with leader := b == s.rst.options.sideB })
      | none => s
    let b := leaderB s
    if !leaderShown s || s.tmb.leader == (b == s.rst.options.sideB) then s
    else deltaAdd (mirMod s (fun m => { m with leaderDue := some b })) 0x0D (leBytes 1 (if b then 1 else 0) ++ zeroBytes 7)

/-! The bulk sync at the survivor (R538, R539). -/

/-- What the image holds now, in its order. -/
def syncTables (s : State) : List SyncItem :=
  let t := currentTables s.dec
  (s.fwd.mac.filter (fun e => e.2.valid)).map (fun e => .mac e.1) ++ s.fwd.tenants.map (fun e => .tenant e.1)
    ++ t.segment.map (fun e => .segment e.1) ++ t.ipv4.map (fun e => .ipv4 e.1) ++ t.ipv6.map (fun e => .ipv6 e.1)
    ++ t.ternary.map (fun e => .ternary e.1) ++ s.dec.openWrites.map .openWrite

def syncRest (s : State) : List SyncItem :=
  s.fwd.adjacencies.map (fun e => .adjacency e.1)
    ++ (s.hbm.filter (fun e => decide (e.1 < 2 ^ 33) && e.1 % 64 == 3 && e.2.getLsbD 0)).map (fun e => .flow (e.1 / 64))
    ++ s.mir.pair.mirrored.map (fun c => .channel c 0)
    ++ (s.cph.ctxs.filter (fun e => e.2.paired)).map (fun e => .context e.1)
    ++ ((List.range 8).filter (fun c => s.mir.pair.windows.getLsbD c)).map (fun c =>
        .window (clusterOf s c).hbmBase ((clusterOf s c).hbmBase + (clusterOf s c).hbmSize))
    ++ s.mir.plans.map .plan
    ++ (s.sch.ports.filter (fun e => e.2.pendingList.isSome)).map (fun e => .gate e.1)
    ++ (s.cph.ctxs.filter (fun e => e.2.paired)).map (fun e => .hwm e.1)

def syncBegin (s : State) : State :=
  if !s.mir.syncStart then s
  else
    mirMod s (fun m => { m with
      syncStart := false, syncActive := true, syncReceiving := false, syncBytes := 0, syncQueue := syncTables s ++ syncRest s
      syncDone := none })

/-- A record in the form of R527. -/
def recordBytes (kind : Nat) (body : List Byte) : List Byte := leBytes 1 kind ++ leBytes 2 body.length ++ [0#8] ++ body

def entryRecord (s : State) (r : TblRec) : List Byte := recordBytes 0x02 (writeBody s false r)

/-- A write of the open version as a record of its table. -/
def vwriteRecord (s : State) (w : VWrite) : Option (Bool × TblRec) :=
  match w with
  | .segment i v => some (v.isNone, .segment i v)
  | .ipv4 k v => some (v.isNone, .ipv4 k (v.getD 0#32))
  | .ipv6 k v => some (v.isNone, .ipv6 k (v.getD 0#32))
  | .ternary i (some e) => some (false, .ternary i e)
  | .ternary i none => (tget (currentTables s.dec).ternary i).map (fun e => (true, .ternary i e))
  | .vrf i v => (tget s.fwd.tenants i).map (fun e => (false, .tenant i e v))

/-- One chunk of an item as it reads now: its part, its place where it has one, and its bytes; and what is left of the
item. A long item is cut to the bytes that the tick has left. -/
def syncPiece (s : State) (budget : Nat) (x : SyncItem) : Option (Nat × Option Nat × List Byte) × Option SyncItem :=
  let t := currentTables s.dec
  let entry := fun (part : Nat) (r : Option TblRec) => (r.map (fun r => (part, (none : Option Nat), entryRecord s r)), none)
  match x with
  | .mac p => entry 1 ((tget s.fwd.mac p).bind (fun e => if e.valid then some (.mac e) else none))
  | .tenant i => entry 1 ((tget s.fwd.tenants i).map (fun e => .tenant i e (tgetD t.vrf i 0)))
  | .segment i => entry 1 ((tget t.segment i).map (fun v => .segment i (some v)))
  | .ipv4 k => entry 1 ((lpmGet t.ipv4 k).map (fun d => .ipv4 k d))
  | .ipv6 k => entry 1 ((lpmGet t.ipv6 k).map (fun d => .ipv6 k d))
  | .ternary i => entry 1 ((tget t.ternary i).map (fun e => .ternary i e))
  | .openWrite w =>
    if s.dec.openWrites.contains w then
      ((vwriteRecord s w).map (fun r => (1, none, recordBytes 0x03 (writeBody s r.1 r.2))), none)
    else (none, none)
  | .adjacency i => entry 2 ((tget s.fwd.adjacencies i).map (fun a => .adjacency i a))
  | .flow i =>
    let b := flowRead s i
    (if flowValid b then some (3, some (i * 64), slice b 0 56 ++ zeroBytes 8) else none, none)
  | .channel c first =>
    match channelOf s c with
    | none => (none, none)
    | some ch =>
      let n := min (max 1 (min 1024 (budget / 8))) (ch.bind.stateWords - first)
      (if n = 0 then none
       else some (4, some (c * 65536 + first),
         (List.range n).flatMap (fun i => leBytes 8 (stateGet s ch.bind (first + i)).toNat)),
       if first + n < ch.bind.stateWords then some (.channel c (first + n)) else none)
  | .context i =>
    match tget s.kvl.vbat 1, (ctxOf s i).paired with
    | some k, true =>
      (some (5, none, recordBytes 0x08 (leBytes 4 i ++ zeroBytes 4 ++ ctxImage i (ctxOf s i) 1 s.board.serial.toNat (some k))), none)
    | _, _ => (none, none)
  | .window a stop =>
    let n := min (max 1 (min 9152 budget)) (stop - a)
    (if n = 0 then none else some (6, some a, hbmRead s a n), if a + n < stop then some (.window (a + n) stop) else none)
  | .plan p =>
    (if s.mir.plans.contains p then some (7, none, recordBytes 0x04 (planBody p.kind p.version p.tick)) else none, none)
  | .gate n =>
    ((schPort s n).pendingList.map (fun g => (7, none, recordBytes 0x09 (gateBytes n g))), none)
  | .hwm i =>
    (some (7, none, recordBytes 0x07 (leBytes 4 i ++ zeroBytes 4 ++ leBytes 8 (ctxOf s i).ctrHwm)), none)

/-- SYNC_DATA while bytes of the tick are left, and SYNC_DONE after the last. -/
def syncRun : Nat → Nat → State → State
  | 0, _, s => s
  | fuel + 1, budget, s =>
    match s.mir.syncQueue with
    | [] =>
      let s := mirMod s (fun m => { m with syncDone := some m.nextSeq })
      mirrorSend s 5 (leBytes 4 s.mir.generation.toNat ++ leBytes 8 s.mir.syncBytes)
    | x :: q =>
      match syncPiece s budget x with
      | (none, rest) => syncRun fuel budget (mirMod s (fun m => { m with syncQueue := rest.toList ++ q }))
      | (some (part, place, bytes), rest) =>
        if budget < bytes.length then s
        else
          let s := mirrorSend s 4 (leBytes 1 part ++ zeroBytes 3 ++ leBytes 8 (place.getD s.mir.syncBytes) ++ bytes)
          syncRun fuel (budget - bytes.length)
            (mirMod s (fun m => { m with syncBytes := m.syncBytes + bytes.length, syncQueue := rest.toList ++ q }))

/-- The sync's share of a tick: `used` are the bytes of heartbeat and delta. -/
def mirrorSyncSend (s : State) (used : Nat) : State :=
  if !s.mir.syncActive || s.mir.syncReceiving || s.mir.syncDone.isSome || planned s .join || !mirrorCarries s then s
  else
    syncRun (s.mir.syncQueue.length + 6400) (min 400000 (min s.app.demand.mirrorOut s.mir.partnerIn) - used) s

/-! The delta and the heartbeat (R526, R527). -/

/-- Bytes cut into the payloads of frames. -/
def framesOf : Nat → List Byte → List (List Byte)
  | 0, _ => []
  | fuel + 1, b => if b.isEmpty then [] else b.take 9196 :: framesOf fuel (b.drop 9196)

/-- The delta of the tick that ended: BOUNDARY, the tick's records, END. Counter blocks whose CTR record it carries wait for
its last frame. -/
def deltaSend (s : State) (boundary : Nat) : State :=
  if !mirrorCarries s then mirMod s (fun m => { m with delta := [], verHeld := [], deltaFrames := 0 })
  else
    let recs := { kind := 0x01, body := leBytes 8 boundary } :: s.mir.delta
    let bytes := recs.flatMap (fun r => recordBytes r.kind r.body) ++ recordBytes 0x0E (leBytes 4 (recs.length + 1) ++ zeroBytes 4)
    let fs := framesOf (bytes.length / 9196 + 1) bytes
    let s := fs.foldl (fun s f => mirrorSend s 2 f) (mirMod s (fun m => { m with delta := [], deltaFrames := fs.length }))
    let last := s.mir.nextSeq - 1#32
    blocksMap s (fun b => if b.usable || b.seq.isSome then b else { b with seq := some last })

/-- ADMIT: bit p tells that port Pp admits. -/
def admitBytes (s : State) : List Byte :=
  (List.range 64).flatMap (fun i => leBytes 1 ((List.range 8).foldl (fun a j =>
    a + putB (((portOf s (8 * i + j)).map (·.admitting)).getD false) j) 0))

/-- The heartbeat of the tick that ended, with the ADMIT bits of that tick. Its egress stamp lies in the first 48 beats, and is
free. -/
def heartbeatSend (s : State) (admits : List Byte) : State :=
  if !mirrorCarries s then s
  else
    let m := s.mir
    let flags := putB s.tmb.leader 0 + putB s.tmb.traceable 1 + putB (commitSlot s.dec).isSome 2 + putB m.leaving 3
      + putB m.senseSeen 4
    let payload := leBytes 8 (now s - 1) ++ leBytes 1 m.state.code ++ leBytes 1 flags ++ zeroBytes 6 ++ tickSubBytes m.lastTx
      ++ tickSubBytes m.prevRx ++ leBytes 4 m.deltaFrames ++ zeroBytes 8 ++ admits
    let s := mirrorEmit s 1 0#32 payload
    let (x, s) := fresh 10 s
    mirMod s (fun m => { m with prevTx := m.lastTx, lastTx := { tick := now s, sub := x.toNat % 960 } })

/-! The boundary. -/

/-- The pair's part of a boundary before the duties that depend on the side's state. -/
def pairBoundary (s : State) : State :=
  if !mirrorOn s then s
  else
    let s := pollStart (evidenceUpdate s)
    let s := plansDue s
    let s := if takeoverDue s then takeover s .pairTakeover else s
    let s := leaderStep (soloMeet (staleNow (syncDrop s)))
    let s := if s.mir.swapDue && inStep s && !s.mir.syncActive then
        planLocal (mirMod s (fun m => { m with swapDue := false })) .swap 0 (now s + 1)
      else s
    versionPlan (syncBegin (staleLeave s))

/-- The versions' part: a sync in progress sends the tables of a version that became current. -/
def versionBoundary (s : State) : State :=
  let old := s.dec.commitCount
  let s := commitTimeout (versionLocal s)
  if s.dec.commitCount != old && s.mir.syncActive && !s.mir.syncReceiving then
    mirMod s (fun m => { m with syncQueue := syncTables s ++ m.syncQueue })
  else s

/-- What leaves on the mirror link at a boundary, by beat 48; `admits` are the ADMIT bits of the tick that ended. The bytes of the
heartbeat are 128, and those of a delta frame its header and payload. -/
def pairSend (s : State) (boundary : Nat) (admits : List Byte) : State :=
  if !mirrorOn s then mirMod s (fun m => { m with delta := [], verHeld := [] })
  else
    let first := s.mir.nextSeq
    let s := heartbeatSend (deltaSend s boundary) admits
    let mine := s.mir.unacked.filter (fun f => decide (first.toNat ≤ f.seq.toNat))
    mirrorSyncSend s (128 + sumOf (mine.map (fun f => 16 + f.payload.length)))

end Sys2Proof.Machine
end

