-- ==== Sys2Proof/Machine/Sideband.lean ====
section
/-!
DEFINITION. The sideband port and the test access port (R616-R621, R630).
-/

namespace Sys2Proof.Machine

/-- The sideband answers from AON release on. -/
def sbRuns (s : State) : Bool := releasedOf s 1

/-- A request that was held is taken. -/
def sbTake (s : State) (r : SbRequest) : State := { s with sb := { s.sb with held := s.sb.held.erase r } }

/-! STATUS_READ (R619). -/

/-- No enabled endpoint has its link up. -/
def headless (s : State) : Bool :=
  !((s.rst.options.hp0En && (endpointOf s 0).linkUp) || (s.rst.options.hp1En && (endpointOf s 1).linkUp))

def vslotCode : VSlotState → Nat
  | .empty => 0 | .current => 1 | .holding => 2 | .retained => 3

def latchedMask (x : Sec) : Nat := AlarmKind.all.foldl (fun a k => a + putB (x.alarm k).latched k.index) 0

/-- The 40 bytes of the device's status. -/
def statusBytes (s : State) : List Byte :=
  let o := s.rst.options
  let slots := List.range 4
  let count := fun (f : Port → Bool) => (s.lnm.ports.filter (fun e => f e.2)).length
  leBytes 4 s.board.serial.toNat ++ leBytes 2 (o.device.toNat + putB o.sideB 11)
    ++ leBytes 1 (putB s.rst.loaded 0 + putB s.hif.deviceReady 1 + putB s.rst.recovery 2 + putB s.rst.testMode 3
        + putB (headless s) 4 + putB s.tmb.traceable 5 + putB s.rst.restarting 6 + putB s.rst.epochFailed 7)
    ++ leBytes 1 (s.mir.state.code + put (mirrorLink s) 3 2) ++ leBytes 8 (now s) ++ leBytes 4 s.mir.generation.toNat
    ++ leBytes 4 s.rst.recipeId.toNat ++ leBytes 3 s.rst.epoch.toNat
    ++ leBytes 1 (put s.dec.current 0 4 + putB s.dec.sealed_.isSome 4)
    ++ leBytes 1 (slots.foldl (fun a i => a + vslotCode (vslot s.dec i).state * 4 ^ i) 0)
    ++ leBytes 1 (openMax s.flt.store + latchedMask s.sec * 8)
    ++ leBytes 2 (toTwos 16 s.sec.junction.toInt).toNat
    ++ leBytes 2 (count stateAdmits)
    ++ leBytes 2 (count (fun p => p.state == .halted))
    ++ leBytes 2 (slots.foldl (fun a i => a + (vslot s.dec i).version % 16 * 16 ^ i) 0) ++ zeroBytes 2

/-- STATUS_READ. -/
def execStatusRead (tag : Byte) (s : State) : Result :=
  .next (if sbRuns s then sbAnswer (sbTake s (.statusRead tag)) 0x01#8 tag 0#8 (statusBytes s) else s)

/-! PORT_HALT, VERSION_SELECT (R618). -/

/-- The status of a command that the Supervisor cannot take; REFUSED comes before NOT_READY (R19, R618). -/
def sbRefusal (s : State) : Option Nat :=
  if s.rst.recovery then some 4 else if s.rst.restarting then some 3 else if !deviceReady s then some 3 else none

/-- PORT_HALT of one port, or of every mapped port. -/
def portHalt (s : State) (tag : Byte) (port : Nat) : State :=
  if port ≠ 0xFFFF && (portOf s port).isNone then sbAnswer s 0x02#8 tag 4#8 []
  else
    match sbRefusal s with
    | some st => sbAnswer s 0x02#8 tag (BitVec.ofNat 8 st) []
    | none =>
      let ask := if port = 0xFFFF then
          { s with lnm := { s.lnm with ports := tmap s.lnm.ports (fun _ p => askHalt p) } }
        else portMod s port askHalt
      sbAnswer ask 0x02#8 tag 0#8 (leBytes 8 (now s + 1))

def execPortHalt (tag : Byte) (port : W16) (s : State) : Result :=
  .next (if sbRuns s then portHalt (sbTake s (.portHalt tag port)) tag port.toNat else s)

/-- VERSION_SELECT: as the admin command, with the answer when the select completes. -/
def sbVersionSelect (s : State) (tag version : Byte) : State :=
  if 16 ≤ version.toNat then sbAnswer s 0x03#8 tag 1#8 []
  else if (slotOfVersion s.dec version.toNat).isNone then sbAnswer s 0x03#8 tag 7#8 []
  else
    match sbRefusal s with
    | some st => sbAnswer s 0x03#8 tag (BitVec.ofNat 8 st) []
    | none =>
      match versionSelect s version.toNat .sideband with
      | (s, some (st, r)) => sbAnswer s 0x03#8 tag st (if st = 0#8 then slice r 8 8 else [])
      | (s, none) => { s with sb := { s.sb with selectTag := tag } }

def execSbVersionSelect (tag version : Byte) (s : State) : Result :=
  .next (if sbRuns s then sbVersionSelect (sbTake s (.versionSelect tag version)) tag version else s)

/-! Requests (R617, R620). -/

/-- A message of the device's vendor type, and what it asks for; none inside for a malformed one. -/
def sbParse (b : List Byte) : Option (Option SbRequest) :=
  if leAt b 0 1 ≠ 0x7E || beAt b 1 2 ≠ 0x1F7C || decide (b.length < 8) then none
  else
    let tag := b.getD 4 0#8
    let zero := allZero (slice b 5 3)
    match leAt b 3 1, b.length with
    | 0x01, 8 => some (if zero then some (.statusRead tag) else none)
    | 0x02, 10 => some (if zero then some (.portHalt tag (BitVec.ofNat 16 (leAt b 8 2))) else none)
    | 0x03, 9 => some (if zero then some (.versionSelect tag (b.getD 8 0#8)) else none)
    | _, _ => some none

/-- SB_REQUEST_RX: held, discarded as the fifth, or answered MALFORMED. A message of another type or vendor is not
supported, and has no effect. -/
def sbRequestRx (s : State) (b : List Byte) : State :=
  match sbParse b with
  | none => s
  | some r =>
    if 4 ≤ s.sb.held.length then { s with sb := { s.sb with discarded := wrapInc s.sb.discarded } }
    else
      match r with
      | some r => { s with sb := { s.sb with held := s.sb.held ++ [r] } }
      | none => sbAnswer s (b.getD 3 0#8) (b.getD 4 0#8) 1#8 []

def execSbRequestRx (bytes : List Byte) (s : State) : Result := .next (if sbRuns s then sbRequestRx s bytes else s)

/-! MCTP control (R616). PRESUMED (DSP0236): the messages' formats. `tag` is the byte of instance id and request bits. -/

/-- A control response with completion code 0. -/
def mctpAnswer (s : State) (tag : Byte) (command : Nat) (data : List Byte) : State :=
  if sbRuns s then emit s (.sideband ([0x00#8, tag &&& 0x1F#8] ++ leBytes 1 command ++ [0x00#8] ++ data)) else s

/-- Set Endpoint ID: the assignment is accepted; 0 and 0xFF are no endpoint IDs. -/
def setEndpointId (s : State) (tag eid : Byte) : State :=
  if !sbRuns s then s
  else if eid = 0#8 ∨ eid = 0xFF#8 then emit s (.sideband [0x00#8, tag &&& 0x1F#8, 0x01#8, 0x02#8])
  else mctpAnswer { s with sb := { s.sb with eid := eid } } tag 1 [0x00#8, eid, 0x00#8]

def execSetEndpointId (tag eid : Byte) (s : State) : Result := .next (setEndpointId s tag eid)

def execGetEndpointId (tag : Byte) (s : State) : Result := .next (mctpAnswer s tag 2 [s.sb.eid, 0x00#8, 0x00#8])

def execGetMctpVersionSupport (tag : Byte) (s : State) : Result :=
  .next (mctpAnswer s tag 4 (0x01#8 :: beBytes 4 Config.mctpVersion.toNat))

def execGetMessageTypeSupport (tag : Byte) (s : State) : Result := .next (mctpAnswer s tag 5 [0x01#8, 0x7E#8])

def execGetVendorDefinedMessageSupport (tag : Byte) (s : State) : Result :=
  .next (mctpAnswer s tag 6 ([0xFF#8, 0x00#8] ++ beBytes 2 0x1F7C ++ beBytes 2 Config.vendorSet.toNat))

/-! The TAP (R630). PRESUMED (IEEE 1149.1): its states, an instruction register of 8 bits whose all-ones code and every code
but IDCODE's select BYPASS, and the edges of TCK on which it acts. -/

/-- The TAP controller's next state on a rising edge. -/
def tapNext (x : TapState) (tms : Bool) : TapState :=
  match x, tms with
  | .reset, true => .reset | .reset, false => .idle
  | .idle, true => .selectDr | .idle, false => .idle
  | .selectDr, true => .selectIr | .selectDr, false => .captureDr
  | .captureDr, true => .exit1Dr | .captureDr, false => .shiftDr
  | .shiftDr, true => .exit1Dr | .shiftDr, false => .shiftDr
  | .exit1Dr, true => .updateDr | .exit1Dr, false => .pauseDr
  | .pauseDr, true => .exit2Dr | .pauseDr, false => .pauseDr
  | .exit2Dr, true => .updateDr | .exit2Dr, false => .shiftDr
  | .updateDr, true => .selectDr | .updateDr, false => .idle
  | .selectIr, true => .reset | .selectIr, false => .captureIr
  | .captureIr, true => .exit1Ir | .captureIr, false => .shiftIr
  | .shiftIr, true => .exit1Ir | .shiftIr, false => .shiftIr
  | .exit1Ir, true => .updateIr | .exit1Ir, false => .pauseIr
  | .pauseIr, true => .exit2Ir | .pauseIr, false => .pauseIr
  | .exit2Ir, true => .updateIr | .exit2Ir, false => .shiftIr
  | .updateIr, true => .selectDr | .updateIr, false => .idle

/-- The code of IDCODE. -/
def tapIdcode : Byte := 0xFE#8

/-- What a rising edge does in the state it leaves: captures and shifts. -/
def tapShift (t : Tap) (tdi : Bool) : Tap :=
  match t.state with
  | .captureIr => { t with irShift := 0x01#8 }
  | .shiftIr => { t with irShift := (t.irShift >>> 1) ||| (BitVec.ofNat 8 (putB tdi 7)) }
  | .captureDr => if t.ir = tapIdcode then { t with drShift := 0x19602677#32 } else { t with bypass := false }
  | .shiftDr =>
    if t.ir = tapIdcode then { t with drShift := (t.drShift >>> 1) ||| (BitVec.ofNat 32 (putB tdi 31)) }
    else { t with bypass := tdi }
  | _ => t

/-- A falling edge: TDO, and the instruction in Update-IR. -/
def tapFall (t : Tap) : Tap :=
  match t.state with
  | .reset => { t with ir := tapIdcode, tdoDriven := false }
  | .updateIr => { t with ir := t.irShift, tdoDriven := false }
  | .shiftIr => { t with tdo := t.irShift.getLsbD 0, tdoDriven := true }
  | .shiftDr => { t with tdo := if t.ir = tapIdcode then t.drShift.getLsbD 0 else t.bypass, tdoDriven := true }
  | _ => { t with tdoDriven := false }

/-- TCK_EDGE, once DBG is released. -/
def tckEdge (s : State) (rising tms tdi : Bool) : State :=
  if !releasedOf s 14 then s
  else if rising then
    let t := tapShift s.tap tdi
    { s with tap := { t with state := tapNext s.tap.state tms } }
  else { s with tap := tapFall s.tap }

def execTckEdge (rising tms tdi : Bool) (s : State) : Result := .next (tckEdge s rising tms tdi)

end Sys2Proof.Machine
end

