-- ==== Sys2Proof/Machine/RegRead.lean ====
section
/-!
DEFINITION. The value that a read of each device register returns (R601-R611 and the register tables of every chapter).
Offsets are those of PF0 BAR0, and every function takes the offset within its block.
-/

namespace Sys2Proof.Machine

/-- Sum of the placed fields of a register. -/
def fields (l : List Nat) : Nat := l.foldl (· + ·) 0

def flag (b : Bool) : Nat := if b then 1 else 0

/-- A register of an array: index and rest of an offset above a base, for `n` elements of a stride. -/
def arrayOf (base stride n o : Nat) : Option (Nat × Nat) :=
  if base ≤ o ∧ o < base + stride * n then some ((o - base) / stride, (o - base) % stride) else none

/-- Number of entries of a table for which `p` holds. -/
def countIf {α : Type} (t : Tbl α) (p : α → Bool) : Nat := (t.filter (fun e => p e.2)).length

/-- A set of numbers as a bit mask of the `n` numbers from `lo` on. -/
def maskOf (l : List Nat) (lo n : Nat) : Nat := sumOf ((List.range n).map (fun i => putB (l.contains (lo + i)) i))

/-! Host interface. -/

def readsOutWord (s : State) : Nat :=
  fields [put s.win.readsOut0 0 5, put s.win.readsOut1 5 5, put s.win.refused.toNat 16 16, put s.win.lastRefused.toNat 32 32]

def guardWord (s : State) : Nat :=
  fields [s.win.guardOk.toNat, put s.win.guardFail.toNat 16 8, put s.win.guardTimeout.toNat 24 8,
    put s.win.lastRequester.toNat 32 2, put s.win.lastAddr.toNat 40 24]

/-- HIF_SB_STAT: the address is 0x68 plus the straps, read at AON release (R616). -/
def sbWord (s : State) : Nat :=
  fields [0x68 + s.board.straps.toNat, put s.sb.eid.toNat 8 8, put s.sb.held.length 16 3, put s.sb.discarded.toNat 24 8,
    put s.sb.commands.toNat 32 16, put s.sb.pecErrors.toNat 48 8, put s.sb.arbLost.toNat 56 8]

def epStatWord (s : State) (e : Nat) : Nat :=
  let x := endpointOf s e
  let d := fun (k : Nat) => if inD3 s (pf0Of e + k * 0x2000) then 3 else 0
  fields [putB x.linkUp 0, put x.rate.toNat 1 3, put x.width.toNat 4 3, putB x.flit 7, putB x.inReset 8, putB x.contained 9,
    put (d 0) 10 2, put (d 1) 12 2, put (d 2) 14 2, put x.numVfs1.toNat 16 13, put x.numVfs2.toNat 29 13,
    put x.resets.toNat 48 16]

def hifValue (s : State) (o : Nat) : Nat :=
  match o with
  | 0x0000 => fields [putB (deviceReady s) 0, putB (recoveryMode s) 1, putB (endpointOf s 0).linkUp 2, putB (endpointOf s 1).linkUp 3,
      putB (headless s) 4, put s.board.serial.toNat 32 32]
  | 0x0010 => epStatWord s 0
  | 0x0020 => epStatWord s 1
  | 0x0018 => (endpointOf s 0).correctable.toNat + put (endpointOf s 0).uncorrectable.toNat 32 32
  | 0x0028 => (endpointOf s 1).correctable.toNat + put (endpointOf s 1).uncorrectable.toNat 32 32
  | 0x0040 => s.hif.wakeLevel.toNat + put s.hif.doorbellMask.toNat 32 32
  | 0x0200 => put s.win.base0.toNat 26 11
  | 0x0208 => put s.win.base1.toNat 26 11
  | 0x0210 => readsOutWord s
  | 0x0218 => guardWord s
  | 0x0300 => sbWord s
  | _ =>
    match arrayOf 0x0100 0x8 8 o with
    | some (k, _) => fieldN (if k < 4 then s.hif.preset0 else s.hif.preset1).toNat (k % 4 * 64) 64
    | none => 0

/-! Slot tables (R77). -/

/-- RESERVE_LEFT. -/
def reserveLeft (s : State) (n : Nat) : Nat :=
  if n = 0 then (slabReserve s false).length + put (slabReserve s true).length 8 8
  else if n = 1 then (spareEngines s).length
  else 0

def slotStatWord (s : State) (n : Nat) : Nat :=
  let t := slotTableOf s n
  let cur := if t.active1 then t.bank1 else t.bank0
  let oth := if t.active1 then t.bank0 else t.bank1
  fields [putB t.active1 0, putB t.pending.isSome 1, put cur.ringLog2 4 3, put oth.ringLog2 8 3, put t.page 16 4,
    putB (n == 1 && t.shedDefer) 20, put (reserveLeft s n) 32 16]

/-- The registers of slot table n (0 CPH, 1 ENG, 2 QUE) at 0x200 to 0x218 of its block. -/
def slotValue (s : State) (r : Requester) (n o : Nat) : Nat :=
  let t := slotTableOf s n
  match o with
  | 0x200 => slotStatWord s n
  | 0x208 => t.actTick.toNat % 2 ^ 32
  | 0x210 => (t.actHi.get r).toNat
  | 0x218 => if n = 2 then 0 else t.migCount.toNat + put t.replayCount.toNat 32 32
  | _ => 0

/-! Queues, DMA and mailboxes. -/

def aqValue (s : State) (e o : Nat) : Nat :=
  let q := adminOf s e
  match o with
  | 0x00 => q.sqAddr.toNat
  | 0x08 => q.cqAddr.toNat
  | 0x10 => fields [putB q.enable 0, put q.sizeLog2.toNat 8 4, put q.vector.toNat 16 11]
  | 0x18 => q.producer.toNat
  | 0x20 => q.consumer.toNat
  | 0x28 => fields [q.head.toNat, putB (!q.accepted.isEmpty) 16, put (min 255 q.accepted.length) 24 8, put q.commands.toNat 32 32]
  | _ => 0

def queInfoWord (s : State) : Nat :=
  match queueOf s s.que.qSel.toNat with
  | none => 0
  | some q => fields [q.state.code, put q.kind.code 2 2, put q.sizeLog2 4 4, put q.fn.toNat 8 16, put q.loc 24 10,
      put q.dbErrors.toNat 48 16]

def quePtrsWord (s : State) : Nat :=
  match queueOf s s.que.qSel.toNat with
  | none => 0
  | some q => fields [q.head.toNat, put q.producer.toNat 16 16, put q.fetched.toNat 32 16, put q.consumer.toNat 48 16]

def queValue (s : State) (r : Requester) (o : Nat) : Nat :=
  if 0x200 ≤ o ∧ o < 0x220 then slotValue s r 2 o
  else
    match o with
    | 0x300 => s.que.qSel.toNat
    | 0x308 => queInfoWord s
    | 0x310 => quePtrsWord s
    | _ =>
      match arrayOf 0x1000 0x200 2 o with
      | some (e, k) => aqValue s e k
      | none => 0

def dmaChValue (s : State) (e c o : Nat) : Nat :=
  let x := dmaChannelOf s e c
  match o with
  | 0x00 => x.sizeLog2.toNat + x.ringAddr.toNat
  | 0x08 => fields [putB x.enable 0, putB x.irqOnHalt 1, put x.vector.toNat 16 11]
  | 0x10 => x.producer.toNat + put x.dbErrors.toNat 16 16
  | 0x18 => fields [x.state.code, putB x.failDir 2, putB x.failHbm 3, put x.failCause.toNat 4 4, put x.head.toNat 16 16,
      put x.descriptors.toNat 32 32]
  | 0x20 => x.failAddr.toNat
  | 0x28 => fields [x.failI0.toNat, put x.failI1.toNat 16 16, put x.failI2.toNat 32 16, putB x.failFetch 48]
  | 0x38 => x.bytes.toNat
  | _ => 0

def dmaValue (s : State) (o : Nat) : Nat :=
  if o = 0x100 then put s.dma.winBase.toNat 16 21
  else if o = 0x108 then put s.dma.winSize.toNat 16 21 + putB (dmaWindowBad s) 37
  else
    let e := o / 0x10000
    let k := o % 0x10000
    if e < 4 then
      if k = 0 then fields [dmaEp e, put (dmaEngineOf s e).active 4 4, put (dmaEngineOf s e).halts.toNat 32 32]
      else
        match arrayOf 0x1000 0x100 16 k with
        | some (c, x) => dmaChValue s e c x
        | none => 0
    else 0

def boxMaskOf (s : State) (p : Mailbox → Bool) : Nat := sumOf ((List.range 32).map (fun m => putB (p (boxOf s m)) m))

/-- The pair m that a requester reads: the owner's, while MAILBOX is active there (R510). -/
def boxReaches (s : State) (r : Requester) (m : Nat) : Bool :=
  boxActive s m && (match r with | .hp0 => boxOwner s m == 0 | .hp1 => boxOwner s m == 1 | .sup => true)

def mbxValue (s : State) (r : Requester) (o : Nat) : Nat :=
  if o < 0x800 then (if boxReaches s r (o / 0x40) then leAt (boxOf s (o / 0x40)).h2s (o % 0x40) 8 else 0)
  else if o < 0x1000 then (if boxReaches s r ((o - 0x800) / 0x40) then leAt (boxOf s ((o - 0x800) / 0x40)).s2h (o % 0x40) 8 else 0)
  else
    match o with
    | 0x1008 => boxMaskOf s (·.h2sFull) + put (boxMaskOf s (·.h2sAborted)) 32 32
    | 0x1010 => boxMaskOf s (·.s2hFull)
    | 0x1020 => s.mbx.mask0.toNat
    | 0x1028 => s.mbx.mask1.toNat
    | 0x1030 => s.mbx.owner.toNat
    | 0x1038 => boxMaskOf s (fun b => b.reject || b.rejectOther) + put s.mbx.last.toNat 32 5 + put s.mbx.rejects.toNat 48 16
    | 0x1040 => fields [s.mbx.s2hLost.toNat, put s.mbx.s2hAborted.toNat 16 16, put s.mbx.h2sAborted.toNat 32 16]
    | 0x1048 => s.mbx.alive.toNat
    | _ => 0

/-! Faults, resets and alarms. -/

def fltStatWord (s : State) : Nat :=
  let f := s.flt
  fields [(openRecords f.store).length % 512, put (openMax f.store) 9 3, putB (fltPulsing s) 12, putB (storePlace f.store).isNone 13,
    putB f.injArm 14, putB s.rst.testMode 15, put f.dropped.toNat 16 8, put f.forceRefused.toNat 24 8, put f.lastOpenSeq.toNat 32 32]

/-- The guarded registers return their fields' current values (R606). -/
def fltInjWord (s : State) : Nat :=
  fields [s.flt.injUnit.toNat, put s.flt.injChecker.toNat 8 16, put s.flt.injMode.toNat 24 2, putB s.flt.injArm 26]

def fltValue (s : State) (o : Nat) : Nat :=
  let f := s.flt
  match o with
  | 0x0000 => fltStatWord s
  | 0x0008 => fields [putB f.fltNLevel 0, put f.irqLevel.toNat 1 3, put f.journalLevel.toNat 4 3, putB f.l4Action 7, put f.pulses.toNat 16 16]
  | 0x0010 => f.recSel.toNat
  | 0x0020 => f.ackStatus.toNat + put f.ackCount.toNat 8 8
  | 0x0028 => f.chkUnit.toNat + put f.chkNumber.toNat 8 16
  | 0x0200 => fltInjWord s
  | 0x0220 => f.forceClass.toNat + put f.forceSubject.toNat 16 32
  | 0x0300 => fields [f.ring.length % 2048, putB f.erasing 12, put f.ringLost.toNat 16 16, put f.lastWrittenSeq.toNat 32 32]
  | _ =>
    if 0x40 ≤ o ∧ o < 0x60 then
      match tget f.checkers (f.chkUnit.toNat * 65536 + f.chkNumber.toNat) with
      | some c => leAt c.bytes (o - 0x40) 8
      | none => 0
    else if 0x100 ≤ o ∧ o < 0x180 then
      match tget f.store f.recSel.toNat with
      | some x => leAt x.bytes (o - 0x100) 8
      | none => 0
    else 0

def rstValue (s : State) (o : Nat) : Nat :=
  let x := s.rst
  let p := x.options
  match o with
  | 0x0000 => fields [x.source.code, putB x.testMode 3, putB x.testRefused 4, putB x.clockLossFlag 5, put x.supervisorResets.toNat 8 8,
      put x.resets.toNat 32 32]
  | 0x0008 => fields [x.released.toNat, put x.waiting 16 4, putB x.recovery 20, put x.supervisorMs.toNat 32 32]
  | 0x0010 => fields [x.epoch.toNat, putB x.committed 24, putB x.epochFailed 25, putB x.exhausted 26, putB x.vbatHigher 27,
      putB x.refreshing 28, put x.slot0.toNat 32 11, put x.slot1.toNat 48 11]
  | 0x0018 => fields [putB x.wdogRunning 0, putB x.restarting 1, put x.expiries.toNat 8 8, put x.lastExpiry.toNat 32 32]
  | 0x0400 => fields [putB (p.ob != 0) 0, put p.ob 1 2, putB x.recovery 3, put p.device.toNat 4 11, put p.cluster.toNat 15 6,
      putB p.sideB 21, putB p.paired 22, put x.policyEff.toNat 23 4, put p.seq.toNat 32 16, put p.minSecurity.toNat 48 16]
  | 0x0408 => if s.board.f256 then p.lanes.toNat % 2 ^ 32 else p.lanes.toNat
  | 0x0410 => fields [putB x.loaded 0, putB x.activeB 1, putB x.fellBack 2, putB x.aTried 3, putB x.bTried 4, put x.aResult.toNat 8 8,
      put x.bResult.toNat 16 8, put x.proofCheck.toNat 24 8, put x.securityVersion.toNat 32 16]
  | 0x0418 => x.recipeId.toNat + put x.loadMs.toNat 32 32
  | _ => 0

def policyCode : AlarmPolicy → Nat
  | .log => 0 | .alarm => 1 | .erase => 2

def secValue (s : State) (o : Nat) : Nat :=
  let x := s.sec
  let all := fun (f : AlarmKind → Nat) => sumOf (AlarmKind.all.map f)
  if o = 0 then
    fields [all (fun k => putB (x.alarm k).cause k.index), put (latchedMask x) 8 5,
      all (fun k => put (policyCode (x.alarm k).policy) (16 + 2 * k.index) 2), putB x.alarmLow 26,
      putB (AlarmKind.all.any (fun k => (x.alarm k).stored.isSome)) 27, put x.junction.toNat 32 10]
  else 0

/-! Timebase. -/

/-- CORE_LOCKED: the PLLs of CORE, ENGC0-ENGC7 and CPH are all locked (R57). -/
def coreLocked (s : State) : Bool := releasedOf s 10 && (List.range 10).all (fun k => !s.rst.unlocked.contains (k + 2))

/-- OFFSET: source minus local time in SUB steps, saturating; 0 when no source is steering. -/
def offsetWord (t : Tmb) : Nat :=
  (toTwos 48 (clampTo (t.offset / 100) (2 ^ 47 - 1))).toNat

def tmbValue (s : State) (r : Requester) (o : Nat) : Nat :=
  let t := s.tmb
  match o with
  | 0x0000 => fields [t.prio0.toNat, put t.prio1.toNat 4 4, put t.prio2.toNat 8 4, put t.prio3.toNat 12 4, putB t.revertive 16,
      put t.traceLimit.toNat 32 16]
  | 0x0008 => fields [t.selected.code, sumOf (measuring.map (fun x => putB (t.source x).qualified (x.code + 2))), putB t.leader 8,
      putB t.baseRefTime 9, putB t.slewFast 10, put t.switches.toNat 32 32]
  | 0x0010 => offsetWord t
  | 0x0018 => t.maxTicks.toNat + put t.elapsed.toNat 32 32
  | 0x0020 => t.todSeconds.toNat + putB t.todArmed 49
  | 0x0028 => fields [t.ppsWidth.toNat, put t.ppsOutMode.toNat 20 2, putB t.tickOutEn 22]
  | 0x0030 => fields [t.ppsInDelay.toNat, put t.tickInDelay.toNat 16 16, put t.outAdvance.toNat 32 16]
  | 0x0038 => t.mirAsym.toNat
  | 0x0040 => fields [t.refLosses.toNat, put t.expiries.toNat 16 16, put t.jumps.toNat 32 8, put t.todRejects.toNat 40 8,
      put t.tsEditSkips.toNat 48 8]
  | 0x0048 => t.utcOffset.toNat + putB t.utcValid 16
  | 0x0100 => now s % 2 ^ 32
  | 0x0108 => (t.tickHi.get r).toNat
  | 0x0110 => t.beat % 2048
  | 0x0118 => fields [putB t.traceable 0, putB (coreLocked s) 1, put t.stepCount.toNat 8 8]
  | 0x0208 => t.snapTick.toNat
  | 0x0210 => t.snapSub.toNat
  | _ => 0

/-! Pair and domain. -/

def mirValue (s : State) (o : Nat) : Nat :=
  let m := s.mir
  match o with
  | 0x0000 => fields [m.state.code, put m.pair.mode 3 2, putB s.rst.options.sideB 5, put (mirrorLink s) 6 2, putB m.e1 8, putB m.e2 9,
      putB m.e3 10, put (min 15 m.miss) 11 4, put ((m.heartbeat.map (fun h => h.state.code)).getD 0) 16 3, putB m.pressure 19]
  | 0x0008 => fields [m.generation.toNat, put m.takeovers.toNat 32 16, put m.rejoins.toNat 48 16]
  | 0x0010 => fields [m.attempts.toNat, put m.backoffMs 16 12, put m.retransmits.toNat 32 32]
  | 0x0018 => fields [put m.syncBytes 0 40, putB m.syncActive 40, putB m.syncReceiving 41]
  | _ => 0

def domValue (s : State) (o : Nat) : Nat :=
  let d := s.dom
  match o with
  | 0x0000 => fields [putB (domMember s) 0, putB (domRoot s) 1, put d.hops 2 4, put d.parent 6 11, put d.parentPort 17 10,
      put d.neighbours.length 27 9]
  | 0x0100 => d.cutTick.toNat
  | 0x0108 => put d.cutStatus.toNat 8 8 + put d.cutId.toNat 32 32
  | 0x0110 => d.answerOk.toNat + put d.answerRefused.toNat 16 16
  | 0x0200 => fields [d.sent.toNat, put d.suppressed.toNat 16 16, put d.relayLost.toNat 32 16, put d.summaryLost.toNat 48 16]
  | _ =>
    match arrayOf 0x1000 0x8 512 o with
    | some (n, _) => if (portOf s n).isNone then 0 else (tgetD d.linkAsym n 0#16).toNat
    | none => 0

/-! Lines, parsing, versions. -/

def log2Of (n : Nat) : Nat := Nat.log2 n

def portValue (s : State) (n o : Nat) : Nat :=
  match portOf s n with
  | none => 0
  | some p =>
    match o with
    | 0x00 => fields [putB true 0, put (log2Of p.lanes) 1 3, put p.laneRate 4 3, put p.fec 7 2, putB p.cfg.anEn 9, putB p.cfg.ltEn 10,
        putB p.cfg.degradeAction 11, put p.cfg.maxFrame 16 14]
    | 0x08 => fields [p.state.code, putB p.admitting 4, putB p.localFaultRx 5, putB p.remoteFaultRx 6, putB (p.state == .degraded) 7,
        putB p.remoteDegraded 8, put p.blockLock.toNat 16 8, putB p.aligned 24, put p.txStartNow 32 5, put p.downTicks 48 7]
    | 0x10 => p.txStartBase % 32
    | 0x18 => p.degradeSet.toNat + put p.degradeClear.toNat 16 16
    | 0x20 => p.windowSum.toNat + put p.evalTickLo.toNat 32 32
    | _ => 0

def laneValue (s : State) (k o : Nat) : Nat :=
  let l := tgetD s.lnm.lanes k Lane.reset
  let test := ((portOfLane s k).map (fun e => e.2.state == .test)).getD false
  match o with
  | 0x00 => fields [putB l.genEn 0, putB l.chkEn 1, put l.pattern.toNat 2 4, putB l.invert 6]
  | 0x08 => fields [putB l.locked 0, putB l.badCfg 1, putB (test && (l.genEn || l.chkEn)) 2, put l.errors.toNat 16 48]
  | 0x10 => l.bits.toNat
  | _ => 0

def macroWord (s : State) (m : Nat) : Nat :=
  let x := macroOf s m
  let ports := (portsOf s m).filterMap (portOf s)
  fields [x.state.code, putB x.pllLocked 3, put (ports.filter stateAdmits).length 8 6, put x.drainLeft 16 7, put x.powerDowns.toNat 32 32]

def lnmValue (s : State) (o : Nat) : Nat :=
  let m := o / 0x40000
  let k := o % 0x40000
  if k = 0 then macroWord s m
  else
    match arrayOf 0x1000 0x100 32 k, arrayOf 0x4000 0x40 32 k, arrayOf 0x10000 0x200 32 k with
    | some (j, x), _, _ => portValue s (32 * m + j) x
    | _, some (j, x), _ => laneValue s (32 * m + j) x
    | _, _, some (j, x) => (statValue s (32 * m + j) x).toNat
    | _, _, _ => 0

def startWord (e : StartEntry) : Nat := fields [e.profile % 256, putB e.fragDrop 8, put e.fragClass 16 8]

def prsValue (s : State) (o : Nat) : Nat :=
  let n := o / 0x10000
  let k := o % 0x10000
  let x := tgetD s.prs n PrsSlice.reset
  let depth := (injectQueue s n).length
  match k with
  | 0x0000 => fields [depth % 8192, putB (decide (injectCapacity ≤ depth)) 13, put (s.app.parse.profiles.length - 1) 16 8,
      put (s.app.parse.classes.length - 1) 24 8, put s.app.control.length 32 5]
  | 0x0008 => x.headers.toNat
  | 0x0010 => fields [x.frags.toNat, put x.depthWindow.toNat 16 16, put x.shortBad.toNat 32 16, put x.control.toNat 48 16]
  | _ =>
    match arrayOf 0x1000 0x8 32 k with
    | some (j, _) => ((tget s.app.parse.portStart (32 * n + j)).map startWord).getD 0
    | none => 0

def decValue (s : State) (o : Nat) : Nat :=
  let d := s.dec
  let slot := fun (i : Nat) =>
    let v := vslot d i
    fields [vslotCode v.state, put v.version 2 4, put v.refs 8 23, put v.sinceTick.toNat 32 32]
  let u := fun (_ : Unit) => reserveUsed d (openTables d)
  match o with
  | 0x00 => fields [put d.current 0 4, put d.currentSlot 4 2, putB d.sealed_.isSome 6, put d.busyCount.toNat 8 8,
      put d.commitCount.toNat 16 16, put d.lastCommitTick.toNat 32 32]
  | 0x08 => slot 0
  | 0x10 => slot 1
  | 0x18 => slot 2
  | 0x20 => slot 3
  | 0x30 => fields [put (u ()).1 0 16, put (u ()).2.1 16 16, put (u ()).2.2.1 32 18]
  | 0x38 => fields [put (u ()).2.2.2.1 0 17, put (u ()).2.2.2.2 17 14]
  | 0x40 => d.openWriteCount.toNat + put d.openDiscards.toNat 32 32
  | _ => 0

/-! Tables and scheduler. -/

def portLearnWord (s : State) (n : Nat) : Nat :=
  let c := portCtl s.fwd n
  fields [put c.learned 0 16, put c.learnLimit.toNat 16 16, putB c.limitAction 32, putB c.unknownSaDrop 33, putB c.moveDeny 34]

def fwdValue (s : State) (o : Nat) : Nat :=
  let f := s.fwd
  let t := currentTables s.dec
  let valid := f.mac.filter (fun e => e.2.valid)
  match o with
  | 0x0000 => fields [(valid.filter (fun e => decide (e.1 < macStash))).length, put (valid.filter (fun e => decide (macStash ≤ e.1))).length 32 11]
  | 0x0008 => fields [put f.learnQ.length 0 13, put f.queueOverflow.toNat 16 16, put f.noRoomCount.toNat 32 16,
      put f.eventOverflow.toNat 48 16]
  | 0x0010 => f.agePeriod.toNat + put f.flowAgePeriod.toNat 32 16
  | 0x0020 => fields [put t.segment.length 0 19, put t.ipv4.length 32 22]
  | 0x0028 => fields [put (t.ipv6.filter (fun e => decide (e.1.len ≤ 64))).length 0 21,
      put (t.ipv6.filter (fun e => decide (64 < e.1.len))).length 32 18]
  | 0x0030 => fields [put (countIf t.ternary (·.valid)) 0 19, put (vrfsOf t.ipv4) 32 8, put (vrfsOf t.ipv6) 40 8]
  | 0x0038 => f.repairs.toNat + put f.passes.toNat 32 32
  | 0x0100 => f.flowValid.toNat + put f.flowInserts.toNat 32 32
  | 0x0108 => f.collisions.toNat + put f.shedRefusals.toNat 32 32
  | _ =>
    match arrayOf 0x1000 0x10 512 o with
    | some (n, 0) => portLearnWord s n
    | some (n, 8) => (portCtl f n).limitHits.toNat + put (portCtl f n).moves.toNat 32 32
    | _ => 0

def crbValue (s : State) (o : Nat) : Nat :=
  match o with
  | 0x0000 => fields [put (sharedFree s).toNat 0 23, putB (decide (sharedFree s < arrivalFloor)) 23, put s.crb.controlUsed 24 17]
  | 0x0008 => fields [put (sharedSize s).toNat 0 23, put (minTotal s) 24 23]
  | 0x0010 => fields [put (transitUsed s) 0 23, put s.crb.exhausted.toNat 24 32]
  | _ =>
    match arrayOf 0x100 0x8 8 o with
    | some (c, _) => fields [put (holdUsed s c) 0 23, put (s.crb.holdLimit.getD c 0) 24 23]
    | none => 0

/-- Queue index of queue q of port n, with 8 for CQ (R283). -/
def portQueue (n q : Nat) : Nat := if q < 8 then n * 8 + q else 4096 + n

/-- ALPHA and YELLOW_SHIFT as written last. -/
def queueShare (s : State) (qx : Nat) : Nat × Nat :=
  match s.sch.shareDue.find? (fun x => x.1 == qx) with
  | some x => x.2
  | none => ((schQueue s qx).alpha, (schQueue s qx).yellowShift)

def schQueueValue (s : State) (qx o : Nat) : Nat :=
  let q := schQueue s qx
  match o with
  | 0x00 => fields [put q.occ 0 23, put q.frames.length 24 24, put q.min 48 16]
  | 0x08 => fields [put q.quantum 0 20, put (queueShare s qx).1 20 4, put (queueShare s qx).2 24 3, put q.maxResidence 32 32]
  | 0x10 => fields [put q.hwmCrumbs 0 23, put q.hwmRes 32 32]
  | 0x18 => fields [put q.lastCrumbs 0 23, put q.lastRes 32 32]
  | _ => 0

def schPortValue (s : State) (n o : Nat) : Nat :=
  let p := schPort s n
  match o with
  | 0x000 => fields [p.gates.toNat, putB p.list.isSome 8, putB p.pendingList.isSome 9, putB p.squelched 10, put p.entry 16 8, put p.v 32 32]
  | 0x008 => put ((p.list.map (·.baseS)).getD 0) 0 48
  | 0x010 => fields [put ((p.list.map (·.baseNs)).getD 0) 0 32, put ((p.list.map (·.cycleNs)).getD 0) 32 32]
  | 0x018 => fields [put p.actTick 0 32, put ((p.pendingList.map (·.entries.length)).getD 0) 32 9]
  | 0x020 => p.gateOverruns.toNat + put (toTwos 32 (p.ctlCredit / 4)).toNat 32 32
  | _ =>
    match arrayOf 0x100 0x20 9 o with
    | some (q, x) => schQueueValue s (portQueue n q) x
    | none => 0

def schValue (s : State) (o : Nat) : Nat :=
  if o = 0 then fields [put s.sch.hwmPeriodLog2 0 5, putB s.sch.deviceSafe 8, put s.sch.squelchedSlices.toNat 16 16]
  else
    match arrayOf 0x10000 0x400 512 o with
    | some (n, x) => schPortValue s n x
    | none => 0

/-! Ledger. -/

def cutBufWord (s : State) (b : Nat) : Nat :=
  let x := tgetD s.ldg.bufs b CutBuf.empty
  fields [put x.state 0 2, putB x.held 2, put ((x.record.map (fun r => r.id.toNat)).getD 0) 32 32]

def mismatchValue (s : State) (r o : Nat) : Nat :=
  let m := tgetD s.ldg.mismatch r Mismatch.blank
  match o with
  | 0x00 => m.tick.toNat
  | 0x08 => m.arrivals.toNat + put m.replicas.toNat 32 32
  | 0x10 => m.xferIn.toNat + put m.xferOut.toNat 32 32
  | 0x18 => m.departures.toNat + put m.drops.toNat 32 32
  | 0x20 => m.occStart.toNat + put m.occEnd.toNat 32 32
  | 0x28 => fields [m.diff.toNat, put m.later.toNat 32 16, putB m.valid 48]
  | _ => 0

/-- Carries that wait in the carry store (R287). -/
def carriesHeld (l : Ldg) : Nat := sumOf (l.ctrs.map (fun e => e.2.heldP / 2 ^ 24 + e.2.heldB / 2 ^ 40))

def ldgReg (s : State) (r : Requester) (o : Nat) : Nat :=
  let l := s.ldg
  match o with
  | 0x0000 => fields [putB l.parityMain 0, putB l.paritySummary 1, putB l.running.isSome 2,
      put (l.scheduled.filter (fun c => c.kind != .periodic)).length 8 5,
      sumOf ((List.range 18).map (fun i => putB (tgetD l.mismatch i Mismatch.blank).valid (16 + i)))]
  | 0x0100 => l.reqTick.toNat
  | 0x0108 => l.reqTag.toNat
  | 0x0110 => putB l.reqSummary 1 + putB l.reqPair 2
  | 0x0118 => l.reqStatus.toNat + put l.reqCutId.toNat 32 32
  | 0x0120 => l.periodLog2.toNat + putB l.periodSummary 5
  | 0x0128 => fields [l.lastReadyId.toNat, put l.skipped.toNat 32 16, put l.aborted.toNat 48 16]
  | 0x0200 => l.mismatches.toNat + put l.checked.toNat 32 32
  | 0x0300 => (l.rdIdx.get r).toNat
  | 0x0308 => (l.rdPkts.get r).toNat
  | 0x0310 => (l.rdBytes.get r).toNat
  | 0x0320 => fields [put (carriesHeld l) 0 13, put l.carries.toNat 32 32]
  | 0x0328 => fields [l.sweeps.toNat, put l.eccCorrected.toNat 32 16, put l.lost.toNat 48 16]
  | 0x0330 => fields [l.flowQueue.toNat, putB l.flowToEvents 16, put l.flowLost.toNat 32 16]
  | _ =>
    match arrayOf 0x140 0x10 4 o, arrayOf 0x1000 0x40 18 o with
    | some (b, 0), _ => cutBufWord s b
    | some (b, 8), _ => (((tgetD l.bufs b CutBuf.empty).record.map (fun x => x.tick.toNat))).getD 0
    | _, some (i, x) => mismatchValue s i x
    | _, _ => 0

/-! Engines, cipher, vault, storage, HBM. -/

def engineCount (s : State) (p : EngineState → Bool) : Nat := countIf s.eng.engines (fun e => p e.state)

def engineValue (s : State) (k o : Nat) : Nat :=
  let e := engineOf s k
  match o with
  | 0x00 => fields [e.state.code, putB (s.eng.control.any (fun c => c.2 == k)) 3, put e.lastCause 8 8, put e.lastThread 16 3,
      put e.faults.toNat 32 32]
  | 0x08 => fields [put e.faultPc 0 15, put e.faultProgram.toNat 16 16, put e.faultTick.toNat 32 32]
  | 0x10 => e.batches.toNat
  | _ =>
    match arrayOf 0x40 0x10 8 o with
    | some (t, x) =>
      let h := tgetD s.eng.threads (8 * k + t) Thread.reset
      if x = 0 then fields [h.timerTick.toNat, put h.timerBeat 48 11, putB h.timerArmed 59]
      else if x = 8 then put h.timerChannel 0 24
      else 0
    | none => 0

def clusterWord (s : State) (c : Nat) : Nat :=
  let x := clusterOf s c
  fields [put (descriptorsUsed s c) 0 17, put x.controlFifo.length 18 13, put x.shmemLost.toNat 32 16, put x.imemRepairs.toNat 48 16]

def testWord (s : State) : Nat :=
  let left := ((s.eng.test.bind (·.ends)).map (fun t => t - now s)).getD 0
  fields [put s.eng.testEngine 0 7, putB ((s.eng.test.bind (·.ends)).isSome) 7, put left 8 11, putB s.eng.lastPass 19,
    put s.eng.tests.toNat 32 32]

def engValue (s : State) (r : Requester) (o : Nat) : Nat :=
  let c := o / 0x200000
  let k := o % 0x200000
  match arrayOf 0x2000 0x100 12 k with
  | some (j, x) => engineValue s (12 * c + j) x
  | none =>
    if k = 0x1000 then clusterWord s c
    else if c ≠ 0 then 0
    else if 0x200 ≤ k ∧ k < 0x220 then slotValue s r 1 k
    else
      match k with
      | 0x00 => fields [put (engineCount s (· == .spare)) 0 5, put (engineCount s (· == .inService)) 8 7,
          put (engineCount s (fun x => x == .failed || x == .copySource)) 16 7, put (engineCount s (· == .retired)) 24 7]
      | 0x08 => maskOf (spareEngines s) 0 64
      | 0x10 => maskOf (spareEngines s) 64 32
      | 0x18 => sumOf ((List.range 8).map (fun c => put (tgetD s.eng.control c 0) (7 * c) 7))
      | 0x20 => testWord s
      | 0x28 => fields [s.eng.editSkips.toNat, put s.eng.emitFails.toNat 16 16, put s.eng.writeFails.toNat 32 16]
      | _ => 0

def cphValue (s : State) (r : Requester) (o : Nat) : Nat :=
  let x := s.cph
  let st := fun (k : CtxState) => countIf x.ctxs (fun c => c.state == k)
  if 0x200 ≤ o ∧ o < 0x220 then slotValue s r 0 o
  else
    match o with
    | 0x00 => fields [putB x.enabled 0, put x.bootEpoch.toNat 8 24, put (x.lost.filter (fun i => decide (i < 128))).length 32 8,
        put (x.lost.filter (fun i => decide (128 ≤ i))).length 40 7]
    | 0x08 => x.ctxBase.toNat
    | 0x10 => fields [put (st .active) 0 19, put (st .saved) 32 19]
    | 0x18 => fields [put (countIf x.cache (·.pinned)) 0 13, put (countIf x.cache (fun e => !e.pinned)) 16 13, put x.loads.toNat 32 32]
    | 0x20 => fields [x.completed.toNat, put x.rejected.toNat 32 16, put x.retries.toNat 48 16]
    | 0x28 => fields [x.blocks.toNat, put x.waits.toNat 32 16, put x.abandoned.toNat 48 16]
    | 0x30 => maskOf x.lost 0 64
    | 0x38 => maskOf x.lost 64 64
    | 0x40 => maskOf x.lost 128 64
    | _ => 0

def kvlValue (s : State) (o : Nat) : Nat :=
  let k := s.kvl
  match o with
  | 0x00 => fields [put k.vol.length 0 15, put k.vbat.length 16 7, putB (thas k.vol 0) 23, putB (thas k.vbat 0) 24, putB (thas k.vbat 1) 25,
      putB k.erasing 26, put k.erases.toNat 32 16]
  | 0x08 => fields [k.rng.code, put k.startupTicks.toNat 16 16, put k.healthFails.toNat 32 16]
  | 0x10 => k.reseeds.toNat + put k.calls.toNat 32 21
  | 0x18 => k.eraseTick.toNat
  | _ => 0

def targetWord (s : State) (t : Nat) : Nat :=
  match tget s.sto.targets t with
  | none => 0
  | some x =>
    let st := fun (i : Nat) => ((x.paths[i]?).map (fun p => p.state.code)).getD 0
    let sent := sumOf (s.sto.cmds.map (fun c => (c.sentTo.filter (fun d => d.1 == t)).length))
    fields [st 0, put (st 1) 2 2, putB (!(x.paths.any (fun p => p.state == .live))) 4, put x.failures.toNat 16 16, put sent 32 32]

def nsWord (s : State) (n : Nat) : Nat :=
  let x := nsOf s n
  let st := if !x.valid || x.fn == 0xFFFF then 0 else if nsKeyLost s x then 3 else if x.notReady then 2 else 1
  fields [st, put (if x.valid then x.fn else 0xFFFF) 16 16, put x.errors.toNat 32 32]

def stoValue (s : State) (o : Nat) : Nat :=
  let x := s.sto
  match o with
  | 0x00 => fields [put (countIf x.ctls (·.rdy)) 0 11, put x.cmds.length 16 19]
  | 0x08 => fields [put (granulesTotal s - (granulesUsed s).length) 0 23, put (granulesTotal s) 24 23]
  | 0x10 => fields [x.timeouts.toNat, put x.reissues.toNat 16 16, put x.transient.toNat 32 16, put x.internal.toNat 48 16]
  | _ =>
    match arrayOf 0x1000 0x10 1024 o, arrayOf 0x20000 0x8 16384 o with
    | some (t, 0), _ => targetWord s t
    | _, some (n, _) => nsWord s n
    | _, _ => 0

def hbmValue (s : State) (o : Nat) : Nat :=
  let h := s.hbmU
  match o with
  | 0x300 => fields [put h.step 0 2, put h.quiet 8 5, put h.rises.toNat 16 16, put h.step3Ticks.toNat 32 16]
  | 0x308 => h.declared.toNat + put h.backlog.toNat 32 32
  | _ => 0

/-! The map (R610, R611). -/

/-- The release of R593 whose domain holds the block of an offset. -/
def blockRelease (a : Nat) : Nat :=
  if a < 0x280000 then 7
  else if a < 0x340000 then 1
  else if a < 0x380000 then 2
  else if a < 0x3C0000 then 3
  else if a < 0x400000 then 13
  else if a < 0x1000000 then 9
  else if a < 0x1400000 then 12
  else if a < 0x5000000 then 9
  else if a < 0x6000000 then 10
  else if a < 0x6400000 then 11
  else if a < 0x6800000 then 2
  else if a < 0x7000000 then 7
  else 8

/-- A register of LM8 to LM15, which are permanently powered down on HX9602-F256 (R6, R610). -/
def macroAbsent (s : State) (a : Nat) : Bool := s.board.f256 && decide (0x1200000 ≤ a) && decide (a < 0x1400000)

/-- A block's domain has been released; the sideband fields of HIF are held in SB, which AON's release releases. -/
def blockRuns (s : State) (a : Nat) : Bool := releasedOf s (if a = 0x300 then 1 else blockRelease a) && !macroAbsent s a

/-- The value of the register at an aligned offset below 0x0800_0000; 0 where none is. -/
def mapValue (s : State) (r : Requester) (a : Nat) : Nat :=
  if a < 0x100000 then hifValue s a
  else if a < 0x200000 then queValue s r (a - 0x100000)
  else if a < 0x240000 then dmaValue s (a - 0x200000)
  else if a < 0x280000 then mbxValue s r (a - 0x240000)
  else if a < 0x300000 then fltValue s (a - 0x280000)
  else if a < 0x340000 then rstValue s (a - 0x300000)
  else if a < 0x380000 then secValue s (a - 0x340000)
  else if a < 0x3C0000 then tmbValue s r (a - 0x380000)
  else if a < 0x400000 then mirValue s (a - 0x3C0000)
  else if a < 0x410000 then domValue s (a - 0x400000)
  else if a < 0x1000000 then 0
  else if a < 0x1400000 then lnmValue s (a - 0x1000000)
  else if a < 0x1500000 then prsValue s (a - 0x1400000)
  else if a < 0x1600000 then decValue s (a - 0x1500000)
  else if a < 0x2000000 then 0
  else if a < 0x3000000 then fwdValue s (a - 0x2000000)
  else if a < 0x3100000 then crbValue s (a - 0x3000000)
  else if a < 0x4000000 then schValue s (a - 0x3100000)
  else if a < 0x5000000 then ldgReg s r (a - 0x4000000)
  else if a < 0x6000000 then engValue s r (a - 0x5000000)
  else if a < 0x6400000 then cphValue s r (a - 0x6000000)
  else if a < 0x6800000 then kvlValue s (a - 0x6400000)
  else if a < 0x7000000 then stoValue s (a - 0x6800000)
  else if a < 0x8000000 then hbmValue s (a - 0x7000000)
  else 0

/-- An offset of an LNM_PORT_STAT, whose TX_START_NOW resets to 2. -/
def portStatAt (a : Nat) : Bool :=
  decide (0x1000000 ≤ a) && decide (a < 0x1400000)
    && (match arrayOf 0x1000 0x100 32 ((a - 0x1000000) % 0x40000) with
        | some (_, x) => x == 8
        | none => false)

/-- The reset values, which are not always values of the state: those of the crumb buffer and of the slab's reserve are
computed from what runs, and read 0 while it does not. -/
def resetValue (s : State) (r : Requester) (a : Nat) : Nat :=
  if portStatAt a then put 2 32 5
  else if (0x3000000 ≤ a ∧ a < 0x3100000) ∨ a = 0x6000200 then 0
  else mapValue (State.onBoard s.board Sec.reset []) r a

/-- The blocks that PF0 BAR0 serves before DEVICE_READY (R449). -/
def servedEarly (a : Nat) : Bool := decide (a < 0x3C0000)

/-- A requester's access reaches the block of an offset. -/
def reaches (s : State) (r : Requester) (a : Nat) : Bool := r = .sup || deviceReady s || servedEarly a

/-- What a read of the 64-bit register at an aligned offset returns (R601, R610). -/
def regValue (s : State) (r : Requester) (a : Nat) : W64 :=
  if !reaches s r a then 0#64
  else if !blockRuns s a then BitVec.ofNat 64 (resetValue s r a)
  else BitVec.ofNat 64 (mapValue s r a)

/-! Reads that act (R58, R165). -/

/-- The port and the offset of a MAC statistic. -/
def statOf (a : Nat) : Option (Nat × Nat) :=
  if 0x1000000 ≤ a ∧ a < 0x1400000 then
    (arrayOf 0x10000 0x200 32 ((a - 0x1000000) % 0x40000)).map (fun x => (32 * ((a - 0x1000000) / 0x40000) + x.1, x.2))
  else none

/-- What a read of the register at an aligned offset leaves: a latch of R58 taken, or, by an 8-byte read of HP0, a MAC
statistic cleared (R165, R602). HP1's are answered when the beat ends. -/
def regTouch (s : State) (r : Requester) (a : Nat) (whole : Bool) : State :=
  if !reaches s r a || !blockRuns s a then s
  else
    match a with
    | 0x380100 => tmbMod s (fun x => { x with tickHi := x.tickHi.set r (BitVec.ofNat 32 (now s / 2 ^ 32)) })
    | 0x6000208 => slotTableMod s 0 (fun x => { x with actHi := x.actHi.set r (BitVec.ofNat 32 (x.actTick.toNat / 2 ^ 32)) })
    | 0x5000208 => slotTableMod s 1 (fun x => { x with actHi := x.actHi.set r (BitVec.ofNat 32 (x.actTick.toNat / 2 ^ 32)) })
    | 0x100208 => slotTableMod s 2 (fun x => { x with actHi := x.actHi.set r (BitVec.ofNat 32 (x.actTick.toNat / 2 ^ 32)) })
    | _ =>
      match statOf a with
      | some (n, o) => if whole && r == .hp0 then statReadHp0 s n o else s
      | none => s

end Sys2Proof.Machine
end

