-- ==== Sys2Proof/Machine/RegWrite.lean ====
section
/-!
DEFINITION. What a write of a device register does (R601-R610), the guarded pair writes (R606, R607), and the commands
REGISTER_WRITE and GUARD_TIMEOUT.
-/

namespace Sys2Proof.Machine

/-! The bits that a write reaches (R602). `half` none: all 64; some false: [31:0]; some true: [63:32]. -/

def halfMask (half : Option Bool) : W64 :=
  match half with
  | none => 0xFFFFFFFFFFFFFFFF#64
  | some false => 0x00000000FFFFFFFF#64
  | some true => 0xFFFFFFFF00000000#64

/-- A write reaches bits [31:0]. -/
def lowHalf (half : Option Bool) : Bool := half != some true

/-- The register's value with the bits that the write reaches replaced. -/
def merged (old : W64) (half : Option Bool) (v : W64) : W64 := (old &&& ~~~ halfMask half) ||| (v &&& halfMask half)

/-- A size of 4 to 12; another value stores 4. -/
def sizeField (n : Nat) : BitVec 4 := if 4 ≤ n ∧ n ≤ 12 then BitVec.ofNat 4 n else 4#4

/-- A priority field of TMB_SRC_CFG: a source code 2-5, or 0; another value keeps the field (R603). -/
def prioField (old : BitVec 4) (n : Nat) : BitVec 4 := if n = 0 ∨ (2 ≤ n ∧ n ≤ 5) then BitVec.ofNat 4 n else old

/-! Block by block. Each function takes the merged value `v`. -/

def winMod (s : State) (f : Window → Window) : State := { s with win := f s.win }

def hifWrite (s : State) (o : Nat) (v : W64) : State :=
  match o with
  | 0x0040 => { s with hif := { s.hif with wakeLevel := field v 0 3, doorbellMask := field v 32 32 } }
  | 0x0200 => winMod s (fun w => { w with base0 := field v 26 11 })
  | 0x0208 => winMod s (fun w => { w with base1 := field v 26 11 })
  | _ =>
    match arrayOf 0x0100 0x8 8 o with
    | some (k, 0) =>
      let put64 := fun (x : BitVec 256) =>
        (x &&& ~~~ BitVec.ofNat 256 ((2 ^ 64 - 1) * 2 ^ (k % 4 * 64))) ||| BitVec.ofNat 256 (v.toNat * 2 ^ (k % 4 * 64))
      if k < 4 then { s with hif := { s.hif with preset0 := put64 s.hif.preset0 } }
      else { s with hif := { s.hif with preset1 := put64 s.hif.preset1 } }
    | _ => s

/-- The producer of an admin queue: a value beyond HEAD by more than the ring's size is ignored (R470). -/
def adminProducer (s : State) (e : Nat) (v : W16) : State :=
  adminMod s e (fun q => if producerOk q.head v (2 ^ q.sizeLog2.toNat) then { q with producer := v } else q)

def aqWrite (s : State) (e o : Nat) (low : Bool) (v : W64) : State :=
  match o with
  | 0x00 => adminMod s e (fun q => { q with sqAddr := v &&& ~~~ 0xFFF#64 })
  | 0x08 => adminMod s e (fun q => { q with cqAddr := v &&& ~~~ 0xFFF#64 })
  | 0x10 => if low then adminConfig s e v else s
  | 0x18 => if low then adminProducer s e (field v 0 16) else s
  | 0x20 => if low then adminMod s e (fun q => { q with consumer := field v 0 16 }) else s
  | _ => s

/-- The queue of a function with a local index. -/
def queueAt (s : State) (fn loc : Nat) : Option Nat :=
  (s.que.queues.find? (fun e => e.2.fn.toNat == fn && e.2.loc == loc)).map (·.1)

/-- The doorbells of one local index, at 8 × local: the producer in the low half, the consumer in the high half (R469). -/
def doorbells (s : State) (fn loc : Nat) (half : Option Bool) (v : W64) : State :=
  match queueAt s fn loc with
  | none => s
  | some q =>
    let s := if half != some true then producerDoorbell s q (field v 0 16) else s
    if half != some false then consumerDoorbell s q (field v 32 16) else s

/-- The endpoint whose PF0 a requester uses. -/
def reqEp : Requester → Option Nat
  | .hp0 => some 0
  | .hp1 => some 1
  | .sup => none

def queWrite (s : State) (r : Requester) (o : Nat) (half : Option Bool) (raw v : W64) : State :=
  if o = 0x300 then (if lowHalf half then { s with que := { s.que with qSel := field v 0 16 } } else s)
  else if 0x10000 ≤ o ∧ o < 0x12000 then
    match reqEp r with
    | some e => doorbells s (pf0Of e) ((o - 0x10000) / 8) half raw
    | none => s
  else
    match arrayOf 0x1000 0x200 2 o with
    | some (e, k) => aqWrite s e k (lowHalf half) v
    | none => s

def dmaRing (s : State) (e c : Nat) (v : W64) : State :=
  dmaChannelMod s e c (fun x => { x with sizeLog2 := sizeField (fieldN v.toNat 0 4), ringAddr := v &&& ~~~ 0xFFF#64 })

def dmaAction (s : State) (e c : Nat) (a : Nat) : State :=
  match a with
  | 1 => dmaRetry s e c
  | 2 => dmaSkip s e c
  | 3 => dmaChReset s e c
  | _ => s

def dmaChWrite (s : State) (e c o : Nat) (low : Bool) (v : W64) : State :=
  if c = 0 then s
  else
    match o with
    | 0x00 => dmaRing s e c v
    | 0x08 => if low then dmaConfig s e c v else s
    | 0x10 => if low then dmaProducer s e c (field v 0 16) else s
    | 0x30 => if low then dmaAction s e c (fieldN v.toNat 0 2) else s
    | _ => s

def dmaWrite (s : State) (o : Nat) (low : Bool) (v : W64) : State :=
  if o = 0x100 then { s with dma := { s.dma with winBase := field v 16 21 } }
  else if o = 0x108 then { s with dma := { s.dma with winSize := field v 16 21 } }
  else if o / 0x10000 < 4 then
    match arrayOf 0x1000 0x100 16 (o % 0x10000) with
    | some (c, x) => dmaChWrite s (o / 0x10000) c x low v
    | none => s
  else s

/-- The bytes of an access of 4 or 8 bytes, and its offset from the register's. -/
def halfBytes (half : Option Bool) (v : W64) : Nat × List Byte :=
  match half with
  | none => (0, leBytes 8 v.toNat)
  | some false => (0, leBytes 4 v.toNat)
  | some true => (4, leBytes 4 (v.toNat / 2 ^ 32))

def mbxWrite (s : State) (r : Requester) (o : Nat) (half : Option Bool) (raw v : W64) : State :=
  let low := lowHalf half
  if o < 0x800 then
    match reqEp r with
    | some e =>
      let b := halfBytes half raw
      boxData s e (o / 0x40) (o % 0x40 + b.1) b.2
    | none => s
  else
    match o with
    | 0x1000 => (match reqEp r with | some e => if low then boxRing s e (field v 0 32) else s | none => s)
    | 0x1018 => (match reqEp r with | some e => if low then boxReleaseS2h s e (field v 0 32) else s | none => s)
    | 0x1020 => if low then boxMaskWrite s 0 (field v 0 32) else s
    | 0x1028 => if low then boxMaskWrite s 1 (field v 0 32) else s
    | 0x1030 => if low then { s with mbx := { s.mbx with owner := field v 0 32 } } else s
    | _ => s

def fltWrite (s : State) (o : Nat) (low : Bool) (v : W64) : State :=
  match o with
  | 0x0008 => if low then fltMod s (fun f => { f with fltNLevel := v.getLsbD 0, irqLevel := field v 1 3 }) else s
  | 0x0010 => if low then fltMod s (fun f => { f with recSel := field v 0 8 }) else s
  | 0x0018 => faultAckRegister s v
  | 0x0028 => if low then fltMod s (fun f => { f with chkUnit := field v 0 8, chkNumber := field v 8 16 }) else s
  | _ => s

/-- TMB_PIN_CFG: a width of 0 stores 1, and one above 999,999 keeps the field; mode 3 stores 1.
PPS_OUT is always low in mode 0, TICK_OUT while TICK_OUT_EN is 0 (R328). -/
def pinCfgWrite (t : Tmb) (v : W64) : Tmb :=
  let w := fieldN v.toNat 0 20
  { t with ppsWidth := if w = 0 then 1#20 else if w ≤ 999999 then BitVec.ofNat 20 w else t.ppsWidth,
           ppsOutMode := if fieldN v.toNat 20 2 = 3 then 1#2 else field v 20 2, tickOutEn := v.getLsbD 22
           ppsOut := t.ppsOut && fieldN v.toNat 20 2 != 0, tickOut := t.tickOut && v.getLsbD 22 }

def srcCfgWrite (t : Tmb) (v : W64) : Tmb :=
  { t with prio0 := prioField t.prio0 (fieldN v.toNat 0 4), prio1 := prioField t.prio1 (fieldN v.toNat 4 4),
           prio2 := prioField t.prio2 (fieldN v.toNat 8 4), prio3 := prioField t.prio3 (fieldN v.toNat 12 4),
           revertive := v.getLsbD 16, traceLimit := if field v 32 16 = 0#16 then 1#16 else field v 32 16 }

/-- TMB_SNAP: the time of the write. -/
def snapNow (s : State) : State :=
  tmbMod s (fun t => { t with snapTick := t.tick, snapSub := BitVec.ofNat 15 (t.beat * 20) })

def tmbWrite (s : State) (o : Nat) (low : Bool) (v : W64) : State :=
  match o with
  | 0x0000 => tmbMod s (fun t => srcCfgWrite t v)
  | 0x0018 => tmbMod s (fun t => { t with maxTicks := field v 0 32 })
  | 0x0020 => todWrite s v
  | 0x0028 => if low then tmbMod s (fun t => pinCfgWrite t v) else s
  | 0x0030 => tmbMod s (fun t => { t with ppsInDelay := field v 0 16, tickInDelay := field v 16 16, outAdvance := field v 32 16 })
  | 0x0038 => tmbMod s (fun t => { t with mirAsym := field v 0 16 })
  | 0x0048 => tmbMod s (fun t => { t with utcOffset := field v 0 16, utcValid := v.getLsbD 16 })
  | 0x0200 => if low && v.getLsbD 0 then snapNow s else s
  | _ => s

def domWrite (s : State) (o : Nat) (low : Bool) (v : W64) : State :=
  match o with
  | 0x0100 => domMod s (fun d => { d with cutTick := v })
  | 0x0108 => if low then domCutGo s v else s
  | _ =>
    match arrayOf 0x1000 0x8 512 o with
    | some (n, 0) => if (portOf s n).isNone then s else domMod s (fun d => { d with linkAsym := tput 0#16 d.linkAsym n (field v 0 16) })
    | _ => s

def lnmWrite (s : State) (o : Nat) (low : Bool) (v : W64) : State :=
  let m := o / 0x40000
  let k := o % 0x40000
  if !low then s
  else
    match arrayOf 0x1000 0x100 32 k, arrayOf 0x4000 0x40 32 k with
    | some (j, 0x10), _ => txStartWrite s (32 * m + j) v
    | some (j, 0x18), _ => portMod s (32 * m + j) (fun p => { p with degradeSet := field v 0 16, degradeClear := field v 16 16 })
    | _, some (j, 0) => prbsWrite s (32 * m + j) v
    | _, _ => s

def portLearnWrite (s : State) (n : Nat) (v : W64) : State :=
  if (portOf s n).isNone then s
  else
    { s with fwd := portCtlMod s.fwd n (fun c =>
        { c with learnLimit := field v 16 16, limitAction := v.getLsbD 32, unknownSaDrop := v.getLsbD 33, moveDeny := v.getLsbD 34 }) }

/-- AGE_PERIOD of 1 to 999,999 stores 1,000,000 (R228), FLOW_AGE_PERIOD 1 stores 2 (R240). -/
def ageWrite (f : Fwd) (v : W64) : Fwd :=
  let a := fieldN v.toNat 0 32
  let p := fieldN v.toNat 32 16
  { f with agePeriod := BitVec.ofNat 32 (if a = 0 then 0 else max a 1000000)
           flowAgePeriod := BitVec.ofNat 16 (if p = 1 then 2 else p) }

def fwdWrite (s : State) (o : Nat) (v : W64) : State :=
  if o = 0x10 then { s with fwd := ageWrite s.fwd v }
  else
    match arrayOf 0x1000 0x10 512 o with
    | some (n, 0) => portLearnWrite s n v
    | _ => s

/-- QUANTUM of a port's queue: below MAX_FRAME it stores MAX_FRAME (R260); below 64 it keeps the field (R603). -/
def quantumField (s : State) (n old x : Nat) : Nat :=
  let x := max x (((portOf s n).map (·.cfg.maxFrame)).getD 0)
  if x < 64 then old else x

/-- A write of SCH_Q_CFG: ALPHA and YELLOW_SHIFT apply from the next beat (R274). The queues of a port that is not mapped do not
exist (R4). -/
def queueCfgWrite (s : State) (n q : Nat) (v : W64) : State :=
  if (portOf s n).isNone then s
  else
    let x := v.toNat
    let qx := portQueue n q
    let s := schQueueMod s qx (fun y =>
      { y with quantum := if q = 8 then fieldN x 0 20 else quantumField s n y.quantum (fieldN x 0 20), maxResidence := fieldN x 32 32 })
    { s with sch := { s.sch with
        shareDue := s.sch.shareDue.filter (fun y => y.1 != qx) ++ [(qx, fieldN x 20 4, fieldN x 24 3)] } }

def schWrite (s : State) (o : Nat) (v : W64) : State :=
  match arrayOf 0x10000 0x400 512 o with
  | some (n, x) =>
    match arrayOf 0x100 0x20 9 x with
    | some (q, 8) => queueCfgWrite s n q v
    | _ => s
  | none => s

def ldgWrite (s : State) (r : Requester) (o : Nat) (low : Bool) (v : W64) : State :=
  match o with
  | 0x0100 => { s with ldg := { s.ldg with reqTick := v } }
  | 0x0108 => { s with ldg := { s.ldg with reqTag := v } }
  | 0x0110 => if low then cutReqWrite s v else s
  | 0x0120 => if low then cutPeriodSet s v else s
  | 0x0300 => if low then rdIdxWrite s r v else s
  | 0x0330 => if low then { s with ldg := { s.ldg with flowQueue := field v 0 16, flowToEvents := v.getLsbD 16 } } else s
  | _ =>
    if !low then s
    else
      match arrayOf 0x140 0x10 4 o, arrayOf 0x1000 0x40 18 o with
      | some (b, 0), _ => { s with ldg := { s.ldg with bufs := tmod CutBuf.empty s.ldg.bufs b (fun x => { x with held := v.getLsbD 2 }) } }
      | _, some (i, 0x30) => if v.getLsbD 0 then consRearm s i else s
      | _, _ => s

/-- A write of a register that is no guarded one, at its aligned offset: `raw` is what the access carries, and the merged
value follows from the register's own. -/
def mapWrite (s : State) (r : Requester) (a : Nat) (half : Option Bool) (raw : W64) : State :=
  let v := merged (BitVec.ofNat 64 (mapValue s r a)) half raw
  let low := lowHalf half
  if a < 0x100000 then hifWrite s a v
  else if a < 0x200000 then queWrite s r (a - 0x100000) half raw v
  else if a < 0x240000 then dmaWrite s (a - 0x200000) low v
  else if a < 0x280000 then mbxWrite s r (a - 0x240000) half raw v
  else if a < 0x300000 then fltWrite s (a - 0x280000) low v
  else if a < 0x340000 then s
  else if a < 0x380000 then (if a = 0x340008 ∧ low then alarmAck s v else s)
  else if a < 0x3C0000 then tmbWrite s (a - 0x380000) low v
  else if a < 0x400000 then s
  else if a < 0x410000 then domWrite s (a - 0x400000) low v
  else if a < 0x1000000 then s
  else if a < 0x1400000 then lnmWrite s (a - 0x1000000) low v
  else if a < 0x2000000 then s
  else if a < 0x3000000 then fwdWrite s (a - 0x2000000) v
  else if a < 0x3100000 then s
  else if a < 0x4000000 then schWrite s (a - 0x3100000) v
  else if a < 0x5000000 then ldgWrite s r (a - 0x4000000) low v
  else s

/-! Guarded pair writes (R606, R607). -/

def guardAddrs : List Nat := [0x3C0100, 0x300100, 0x280200, 0x280220]

def winPend (w : Window) : Requester → List GuardPending
  | .hp0 => w.pendHp0
  | .hp1 => w.pendHp1
  | .sup => w.pendSup

def winSetPend (w : Window) (r : Requester) (l : List GuardPending) : Window :=
  match r with
  | .hp0 => { w with pendHp0 := l }
  | .hp1 => { w with pendHp1 := l }
  | .sup => { w with pendSup := l }

def reqCode : Requester → Nat
  | .hp0 => 0 | .hp1 => 1 | .sup => 2

/-- The pending value of a requester at A. -/
def guardOf (s : State) (r : Requester) (a : Nat) : Option GuardPending := (winPend s.win r).find? (fun g => g.addr == a)

/-- The requester's pending state at A is none. -/
def guardDrop (s : State) (r : Requester) (a : Nat) : State :=
  winMod s (fun w => winSetPend w r ((winPend w r).filter (fun g => g.addr != a)))

def guardHold (s : State) (r : Requester) (a : Nat) (v : W64) : State :=
  winMod (guardDrop s r a) (fun w => winSetPend w r (winPend w r ++ [{ addr := a, value := v, beat := nowBeats s }]))

/-- An outcome other than performed latches requester and address. -/
def guardLatch (s : State) (r : Requester) (a : Nat) : State :=
  winMod s (fun w => { w with lastRequester := BitVec.ofNat 2 (reqCode r), lastAddr := BitVec.ofNat 24 a })

def guardFailed (s : State) (r : Requester) (a : Nat) : State :=
  guardLatch (winMod s (fun w => { w with guardFail := wrapInc w.guardFail })) r a

/-- A value has been pending for more than 64 beats. -/
def guardOverdue (s : State) (g : GuardPending) : Bool := decide (g.beat + 64 < nowBeats s)

def guardExpire (s : State) (r : Requester) (a : Nat) : State :=
  match guardOf s r a with
  | none => s
  | some g =>
    if guardOverdue s g then guardLatch (winMod (guardDrop s r a) (fun w => { w with guardTimeout := wrapInc w.guardTimeout })) r a
    else s

/-- A guarded register written. -/
def guardPerform (s : State) (a : Nat) (v : W64) : State :=
  let act := fieldN v.toNat 0 2
  if a = 0x280200 then injWrite s v
  else if a = 0x280220 then forceWrite s v
  else if a = 0x300100 then
    match act with
    | 1 => deviceReset s .software (v.getLsbD 2) false
    | 2 => supervisorReset s none
    | _ => s
  else
    match act with
    | 1 => mirSwap s
    | 2 => mirForce s
    | 3 => mirLeave s
    | _ => s

/-- A write to A, or with `comp` to A + 8. -/
def guardWrite (s : State) (r : Requester) (a : Nat) (comp : Bool) (half : Option Bool) (v : W64) : State :=
  let s := guardExpire s r a
  if half.isSome then guardFailed (guardDrop s r a) r a
  else
    match comp, guardOf s r a with
    | false, none => guardHold s r a v
    | false, some _ => guardHold (guardFailed s r a) r a v
    | true, none => guardFailed s r a
    | true, some g =>
      if v = ~~~ g.value then
        guardPerform (winMod (guardDrop s r a) (fun w => { w with guardOk := wrapInc w.guardOk })) a g.value
      else guardFailed (guardDrop s r a) r a

/-! Commands. -/

/-- A write of a requester to the register at an aligned offset: where the block is not reached or in reset, it is ignored
(R449, R610). -/
def regWrite (s : State) (r : Requester) (a : Nat) (half : Option Bool) (v : W64) : State :=
  if !reaches s r a || !blockRuns s a then s
  else if guardAddrs.contains a then guardWrite s r a false half v
  else if 8 ≤ a ∧ guardAddrs.contains (a - 8) then guardWrite s r (a - 8) true half v
  else mapWrite s r a half v

def execRegisterWrite (r : Requester) (addr : BitVec 28) (half : Option Bool) (v : W64) (s : State) : Result :=
  .next (if addr.toNat < 0x8000000 then regWrite s r (addr.toNat / 8 * 8) half v else s)

def execGuardTimeout (r : Requester) (addr : BitVec 28) (s : State) : Result := .next (guardExpire s r addr.toNat)

end Sys2Proof.Machine
end

