-- ==== Sys2Proof/Machine/Bar.lean ====
section
/-!
DEFINITION. Memory requests to the BARs (R448-R450, R612-R615) and the command BAR_MEMORY_REQUEST. A request arrives as
the function, BAR and offset that it addresses; the address decoding of PCI Express is not shown.
-/

namespace Sys2Proof.Machine

/-- Length of a request. -/
def accessLen : Access → Nat
  | .read n => n
  | .write b => b.length

/-- An aligned access of 4 or 8 bytes. -/
def accessFits (off : Nat) (a : Access) : Bool :=
  (accessLen a == 4 || accessLen a == 8) && off % accessLen a == 0

/-- Memory Space Enable: of a PF its own, of a VF the VF MSE bit of its PF's SR-IOV control. -/
def memEnabled (s : State) (fn : Nat) : Bool :=
  if isVf fn then (cfgReg s (pfOf fn) 0x1A8).getLsbD 3 else ((funcOf s fn).map (·.memorySpace)).getD false

/-- The request meets a BAR that answers (R449). -/
def barAnswers (s : State) (fn bar off : Nat) (a : Access) : Bool :=
  fnExists s fn && (funcOf s fn).isSome && memEnabled s fn && !inD3 s fn && decide (off + accessLen a ≤ barSize fn bar)

/-- The function that logs an error of a request: the one addressed, or PF0 where that does not exist. -/
def logFn (s : State) (fn : Nat) : Nat := if fnExists s fn && (funcOf s fn).isSome then fn else pf0Of (epOf fn)

def isWrite : Access → Bool
  | .read _ => false
  | .write _ => true

/-- Unsupported Request: a read completes so, and a write is dropped; both are logged. -/
def requestUnsupported (s : State) (fn bar off : Nat) (a : Access) : State :=
  let (h, s) := requestHeader s fn bar off (accessLen a) (isWrite a)
  match a with
  | .read _ => emit (aerUncorrectable s (logFn s fn) errUnsupported true h) (.completion fn 1 [])
  | .write _ => aerUncorrectable s (logFn s fn) errUnsupported false h

/-- Completer Abort of a request. -/
def requestAborted (s : State) (fn bar off : Nat) (a : Access) : State :=
  let s := completerAbort s fn bar off (accessLen a) (isWrite a)
  if isWrite a then s else emit s (.completion fn 4 [])

/-- A read's data, or a write's effect. -/
def serve (s : State) (fn : Nat) (a : Access) (data : List Byte) (w : List Byte → State) : State :=
  match a with
  | .read _ => emit s (.completion fn 0 data)
  | .write b => w b

/-- The half of a 64-bit register that an aligned access reaches, and the value placed in it. -/
def halfOf (off len : Nat) : Option Bool := if len = 8 then none else some (off % 8 == 4)
def halfValue (off : Nat) (b : List Byte) : W64 := BitVec.ofNat 64 (leVal b * 2 ^ (off % 8 * 8))

/-! MSI-X tables (R451). -/

/-- The bytes of a vector's table entry. -/
def vectorBytes (v : Vector) : List Byte := leBytes 8 v.addr.toNat ++ leBytes 4 v.data.toNat ++ leBytes 4 (flag v.masked)

def vectorOfBytes (old : Vector) (b : List Byte) : Vector :=
  { old with addr := BitVec.ofNat 64 (leAt b 0 8), data := BitVec.ofNat 32 (leAt b 8 4), masked := bitN (leAt b 12 1) 0 }

/-- Bytes of the Pending Bit Array. -/
def pbaBytes (s : State) (fn o n : Nat) : List Byte :=
  (List.range n).map (fun i => BitVec.ofNat 8 (sumOf ((List.range 8).map (fun k => putB (vectorOf s fn ((o + i) * 8 + k)).pending k))))

/-- A write of a table entry; one that unmasks sends what is pending. -/
def msixWrite (s : State) (fn o : Nat) (b : List Byte) : State :=
  let v := o / 16
  if msixSize s fn ≤ v then s
  else msixSend (vectorMod s fn v (fun x => vectorOfBytes x (patch (vectorBytes x) (o % 16) b))) fn

/-- An access to the MSI-X table at `o`, or to the Pending Bit Array. -/
def msixTable (s : State) (fn o : Nat) (a : Access) : State :=
  serve s fn a (if o / 16 < msixSize s fn then slice (vectorBytes (vectorOf s fn (o / 16))) (o % 16) (accessLen a) else zeroBytes (accessLen a))
    (msixWrite s fn o)

def msixPba (s : State) (fn o : Nat) (a : Access) : State :=
  serve s fn a (if o < (msixSize s fn + 63) / 64 * 8 then pbaBytes s fn o (accessLen a) else zeroBytes (accessLen a)) (fun _ => s)

/-! Queue and controller BARs (R419, R469, R495, R615). -/

/-- QBAR_FUNC_STAT of a function that exists. -/
def funcStatWord (s : State) (fn : Nat) : Nat :=
  fields [genShown s fn, putB true 16, putB (deviceReady s) 17, put (queuesOf s fn).length 32 10]

/-- The queue BAR of a PF1 or of one of its VFs; a VF that is not created reads zero and ignores writes (R445). -/
def queueBar (s : State) (fn o : Nat) (a : Access) : State :=
  let created := !isVf fn || ((funcOf s fn).bind (·.grant)).isSome
  let word := if created ∧ o / 8 * 8 = 0x2000 then funcStatWord s fn else 0
  serve s fn a (slice (leBytes 8 word) (o % 8) (accessLen a)) (fun b =>
    if created ∧ o < 0x2000 then doorbells s fn (o / 8) (halfOf o b.length) (halfValue o b) else s)

/-- The registers of an NVM Express controller; an access of 8 bytes is one of each half. -/
def controllerBar (s : State) (fn o : Nat) (a : Access) : State :=
  match ctlIndex s fn with
  | none => serve s fn a (zeroBytes (accessLen a)) (fun _ => s)
  | some i =>
    let word := leBytes 4 (nvmeReg s i o) ++ leBytes 4 (nvmeReg s i (o + 4))
    serve s fn a (slice word 0 (accessLen a)) (fun b =>
      let s := nvmeWrite s i o (leVal (b.take 4))
      if b.length = 8 then nvmeWrite s i (o + 4) (leVal (b.drop 4)) else s)

/-! The apertures of PF0 BAR0 (R612, R613). -/

/-- The 16 bytes of a MAC place. -/
def macPlaceBytes (s : State) (p : Nat) : List Byte := ((tget s.fwd.mac p).map macBytes).getD (zeroBytes 16)

/-- Segment map place k of the current version. -/
def segmentPlaceBytes (s : State) (k : Nat) : List Byte :=
  (((currentTables s.dec).segment[k]?).map (fun e => segmentBytes e.1 e.2)).getD (zeroBytes 8)

/-- The entry of the table aperture that holds an offset: its first offset and its bytes. -/
def tableApertureEntry (s : State) (o : Nat) : Nat × List Byte :=
  if o < 0x9000000 then
    let k := (o - 0x8000000) / 16
    (0x8000000 + k * 16, macPlaceBytes s k)
  else if o < 0x9004000 then
    let k := (o - 0x9000000) / 16
    (0x9000000 + k * 16, macPlaceBytes s (macStash + k))
  else if 0x9200000 ≤ o ∧ o < 0x9400000 then
    let k := (o - 0x9200000) / 32
    (0x9200000 + k * 32, ((tget s.fwd.tenants k).map (fun e => tenantBytes e (tgetD (currentTables s.dec).vrf k 0))).getD (zeroBytes 32))
  else if 0x9400000 ≤ o ∧ o < 0x9600000 then
    let k := (o - 0x9400000) / 16
    (0x9400000 + k * 16, ((tget s.fwd.adjacencies k).map adjBytes).getD (zeroBytes 16))
  else if 0x9600000 ≤ o ∧ o < 0x9800000 then
    let k := (o - 0x9600000) / 8
    (0x9600000 + k * 8, segmentPlaceBytes s k)
  else (o, [0#8])

/-- One byte of the table aperture. -/
def tableApertureByte (s : State) (o : Nat) : Byte :=
  let e := tableApertureEntry s o
  e.2.getD (o - e.1) 0#8

/-- What the HBM aperture grants at an address: nothing, reads, or reads and writes (R613). -/
def apertureGrant (s : State) (a : Nat) : Nat :=
  let inside := fun (r : Nat × Nat) => decide (r.1 ≤ a) && decide (a < r.1 + r.2)
  if hbmEnd ≤ a then 0
  else if inside (s.cph.ctxBase.toNat, 0x4000000) || inside (s.sto.bufBase, s.sto.bufSize) then 0
  else if !dmaWindowBad s && inside (dmaWindow s) then 2
  else if inside (0, 0x214000100) || s.eng.clusters.any (fun k => inside (k.2.hbmBase, k.2.hbmSize)) then 1
  else 0

/-- A refused aperture access counts, and an HBM one latches its address (R614). -/
def apertureRefused (s : State) (fn o : Nat) (hda : Option Nat) (a : Access) : State :=
  let s := winMod s (fun w => { w with refused := wrapInc w.refused,
                                       lastRefused := (hda.map (BitVec.ofNat 32)).getD w.lastRefused })
  requestAborted s fn 0 o a

def hbmAperture (s : State) (fn x : Nat) (a : Access) : State :=
  let base := (if epOf fn = 0 then s.win.base0 else s.win.base1).toNat * 0x4000000
  let hda := base + x
  let n := accessLen a
  let need := match a with | .read _ => 1 | .write _ => 2
  if !(List.range n).all (fun i => decide (need ≤ apertureGrant s (hda + i))) then apertureRefused s fn (0xC000000 + x) (some hda) a
  else if !hbmRangeOk s hda n then requestAborted s fn 0 (0xC000000 + x) a
  else serve s fn a (hbmShown s hda n) (fun b => hbmPutBytes s hda b)

def tableAperture (s : State) (fn o : Nat) (a : Access) : State :=
  match a with
  | .read n => emit s (.completion fn 0 ((List.range n).map (fun i => tableApertureByte s (o + i))))
  | .write _ => apertureRefused s fn o none a

/-- PF0 BAR0. -/
def reqOf (fn : Nat) : Requester := if epOf fn = 0 then .hp0 else .hp1

/-- The MAC statistic that an 8-byte read of HP1 reads (R166). -/
def lateStat (s : State) (r : Requester) (w n : Nat) : Option (Nat × Nat) :=
  if r == .hp1 && n == 8 && reaches s r w && blockRuns s w then statOf w else none

def deviceRegisters (s : State) (fn o : Nat) (a : Access) : State :=
  let r := reqOf fn
  let w := o / 8 * 8
  match a with
  | .read n =>
    match lateStat s r w n with
    | some (port, offset) => statReadHp1 s { port := port, offset := offset, fn := some fn }
    | none => emit (regTouch s r w (n == 8)) (.completion fn 0 (slice (leBytes 8 (regValue s r w).toNat) (o % 8) n))
  | .write b => regWrite s r w (halfOf o b.length) (halfValue o b)

def apertures (s : State) (fn o : Nat) (a : Access) : State :=
  let n := accessLen a
  if 512 < n || decide (4096 < o % 4096 + n) then requestAborted s fn 0 o a
  else if !deviceReady s then serve s fn a (zeroBytes n) (fun _ => s)
  else if o < 0xC000000 then tableAperture s fn o a
  else hbmAperture s fn (o - 0xC000000) a

/-- A request that its BAR answers. -/
def barServe (s : State) (fn bar o : Nat) (a : Access) : State :=
  let pf0 := pfNum fn == 0
  if pf0 && bar == 0 && decide (0x8000000 ≤ o) then apertures s fn o a
  else if !accessFits o a then requestAborted s fn bar o a
  else if isVf fn && decide (0xC000 ≤ o) then msixPba s fn (o - 0xC000) a
  else if isVf fn && decide (0x8000 ≤ o) then msixTable s fn (o - 0x8000) a
  else if bar = 1 then (if o < 0x8000 then msixTable s fn o a else msixPba s fn (o - 0x8000) a)
  else if pf0 then deviceRegisters s fn o a
  else if pfNum fn = 1 then queueBar s fn o a
  else controllerBar s fn o a

/-- BAR_MEMORY_REQUEST: of an endpoint whose link is up. -/
def barRequest (s : State) (fn bar o : Nat) (a : Access) : State :=
  let e := endpointOf s (epOf fn)
  if !e.linkUp || e.inReset || !epEnabled s (epOf fn) then s
  else if !barAnswers s fn bar o a then requestUnsupported s fn bar o a
  else barServe s fn bar o a

def execBarMemoryRequest (fn : W16) (bar : Fin 2) (offset : BitVec 28) (access : Access) (s : State) : Result :=
  .next (barRequest s fn.toNat bar.val offset.toNat access)

end Sys2Proof.Machine
end

