-- ==== Sys2Proof/Machine/IsaControl.lean ====
section
/-!
DEFINITION. The meanings of the branches, LOOP, JT and COMMIT (R367, R380-R383).
-/

namespace Sys2Proof.Machine

/-- BR. -/
def execBr (e : Fin 96) (t : Fin 8) (f : BF) (s : State) : Result :=
  .next (branch e.val t.val (f.word 0x80) (f.ok && f.ra == 0 && f.rb == 0) f.disp.toNat (fun _ => true) s)

/-- A branch that compares RA with RB. -/
def compareBranch (op : Nat) (c : W48 → W48 → Bool) (e t : Nat) (f : BF) (s : State) : State :=
  branch e t (f.word op) f.ok f.disp.toNat (fun b => c (regGet b f.ra.val) (regGet b f.rb.val)) s

/-- BEQ. -/
def execBeq (e : Fin 96) (t : Fin 8) (f : BF) (s : State) : Result :=
  .next (compareBranch 0x81 (fun x y => x == y) e.val t.val f s)

/-- BNE. -/
def execBne (e : Fin 96) (t : Fin 8) (f : BF) (s : State) : Result :=
  .next (compareBranch 0x82 (fun x y => x != y) e.val t.val f s)

/-- BLT, signed. -/
def execBlt (e : Fin 96) (t : Fin 8) (f : BF) (s : State) : Result :=
  .next (compareBranch 0x83 (fun x y => x.slt y) e.val t.val f s)

/-- BLTU. -/
def execBltu (e : Fin 96) (t : Fin 8) (f : BF) (s : State) : Result :=
  .next (compareBranch 0x84 (fun x y => x.ult y) e.val t.val f s)

/-- BGE, signed. -/
def execBge (e : Fin 96) (t : Fin 8) (f : BF) (s : State) : Result :=
  .next (compareBranch 0x85 (fun x y => y.sle x) e.val t.val f s)

/-- BGEU. -/
def execBgeu (e : Fin 96) (t : Fin 8) (f : BF) (s : State) : Result :=
  .next (compareBranch 0x86 (fun x y => y.ule x) e.val t.val f s)

/-- A branch on bit BIT of RA. -/
def bitBranch (op : Nat) (set : Bool) (e t : Nat) (f : BF) (s : State) : State :=
  branch e t (f.word op) f.bitOk f.disp.toNat (fun b => (regGet b f.ra.val).getLsbD f.bit == set) s

/-- BBS. -/
def execBbs (e : Fin 96) (t : Fin 8) (f : BF) (s : State) : Result := .next (bitBranch 0x87 true e.val t.val f s)

/-- BBC. -/
def execBbc (e : Fin 96) (t : Fin 8) (f : BF) (s : State) : Result := .next (bitBranch 0x88 false e.val t.val f s)

/-- LOOP: the next BODY instructions run COUNT times. -/
def execLoop (e : Fin 96) (t : Fin 8) (f : LF) (s : State) : Result :=
  .next (issue s e.val t.val (f.word 0x89) f.ok (cost 1) (fun b =>
    let x : LoopFrame := { first := b.pc + 1, last := b.pc + f.body.toNat, left := f.count.toNat }
    .next s { b with pc := b.pc + 1, loops := x :: b.loops }))

/-- JT: entry ra of table IMM[7:0] of the running program, as the engine's cluster holds it. -/
def execJt (e : Fin 96) (t : Fin 8) (f : XF) (s : State) : Result :=
  .next (issue s e.val t.val (f.word 0x8A) (f.ok false true false 0xFF) (cost 2) (fun b =>
    let tables := ((tget (clusterOf s (e.val / 12)).programs b.program).map (·.tables)).getD []
    match (tgetD tables f.imm.toNat [])[(regGet b f.ra.val).toNat]? with
    | none => .fault 0x04
    | some x => .next s (jump b (b.entry + x))))

/-- The commit point of a batch (R79, R380): packets without a disposition go back, messages taken leave the inbox;
what is staged waits for its release. A batch that relied on a failed cipher unit is discarded instead (R83). -/
def commitPoint (s : State) (e : Nat) (b : Batch) : Issued :=
  if b.doomed then .discard
  else
    let left := b.taken.filter (fun x => b.handles.any (fun h => h.2.pkt == x.1))
    let s := b.handles.foldl (fun s h =>
      pktMod s h.2.pkt (fun p =>
        { p with bytes := h.2.bytes.take (h.2.bytes.length - 4),
                 fcs := BitVec.ofNat 32 (leAt h.2.bytes (h.2.bytes.length - 4) 4) })) s
    let s := packetsBack s b.channel left
    let s := channelMod s b.channel (fun c => { c with inbox := c.inbox.drop b.msgs })
    let s := engineMod s e (fun x => { x with batches := wrapInc x.batches })
    .next s { b with handles := [], committed := some (now s) }

/-- COMMIT. -/
def execCommit (e : Fin 96) (t : Fin 8) (f : RR) (s : State) : Result :=
  .next (issue s e.val t.val (f.word 0x8F) f.blank (cost 1) (fun b => commitPoint s e.val b))

end Sys2Proof.Machine
end

