-- ==== Sys2Proof/Machine/Beat.lean ====
section
/-!
DEFINITION. The end of a beat: what rules put after everything else of the beat, or into effect from the next one.
-/

namespace Sys2Proof.Machine

/-- An engine's access to a flow-state entry, after those of the slices that wait for the entry (R37, R240, R378). -/
def flowEngineAccess (s : State) (x : Nat × TblEffect) : State :=
  match x.2 with
  | .flowRead i tag off =>
    let s := flowSettle s i
    landingAdd s { channel := x.1, offset := off, tag := tag, ok := hbmAnswers s (i * 64), bytes := flowRead s i }
  | .flowWrite i clear bytes => flowEngineWrite (flowSettle s i) i clear bytes
  | _ => s

/-- The engines' accesses of the beat, in the order of their releases. -/
def flowEnginesEnd (s : State) : State :=
  s.eng.flowDue.foldl flowEngineAccess { s with eng := { s.eng with flowDue := [] } }

/-- The MAC ager's removals of the beat (R230). -/
def agersEnd (s : State) : State := s.fwd.agedDue.foldl macAgedEnd { s with fwd := { s.fwd with agedDue := [] } }

/-- What a beat's end brings: engines' flow-state accesses and the ager's removals are made, HP1's reads are answered (R166), ALPHA
and YELLOW_SHIFT as written come into force (R274), and lookups see the tables as written (R29); a sealing is complete (R209). -/
def beatEnd (s : State) : State :=
  let s := xtsSettle (agersEnd (flowEnginesEnd s))
  let s := s.lnm.lateReads.foldl lateReadAnswer s
  { s with
    lnm := { s.lnm with lateReads := [], readByHp0 := [], ports := tmap s.lnm.ports (fun _ p => { p with statsOld := none }) }
    sch := { s.sch with
      queues := s.sch.shareDue.foldl (fun t x => tadj t x.1 (fun q => { q with alpha := x.2.1, yellowShift := x.2.2 })) s.sch.queues
      shareDue := [] }
    fwd := { s.fwd with beatOld := none }
    ldg := { s.ldg with fresh := [] }
    crb := (keepTurn s).crb
    dec := sealSettle s.dec }

end Sys2Proof.Machine
end

