-- ==== Sys2Proof/Machine/Tick.lean ====
section
/-!
DEFINITION. The tick boundary (R53-R63): the seven duties in order, and what else a boundary puts into effect. One command does at
once what the spec spreads over the first 48 beats of the tick that begins.
-/

namespace Sys2Proof.Machine

/-! Duties 1 and 2: the conservation check, the ledger epoch and the cut of the closing tick (R294-R305). -/

/-- The unit of a check: the slices, U16, the ledger for the transfer balance (R295). -/
def checkUnitId (u : Nat) : Nat := if u < 16 then 0x20 + u else if u = 16 then 0x0A else 0x32

/-- DIFF of a check (R294). -/
def checkDiff (s : State) (u : Nat) : Int :=
  if u < 17 then unitDiff (tallyOf s.ldg u) ((unitHolds s u).1 : Nat)
  else
    (sumOf ((List.range 17).map (fun v => (tallyOf s.ldg v).xin)) : Int) - sumOf ((List.range 17).map (fun v => (tallyOf s.ldg v).xout))

/-- Duty 1: the check of the closing tick. -/
def dutyConservation (s : State) : State :=
  { s with ldg := conservationCheck s.tmb.tick (fun u => ((unitHolds s u).1 : Nat)) s.ldg }

/-- The faults of the checks that failed, raised in the tick that begins; `old` is the state as the tick closed. -/
def checkFaults (old s : State) : State :=
  s.ldg.failed.foldl (fun s u =>
    raiseDetail s .ledgerConservation (checkUnitId u) wholeUnit (toTwos 32 (checkDiff old u)).toNat) s

/-- The higher rank first, then the later tick (R305). -/
def cutFirst (cs : List CutReq) : Option CutReq :=
  cs.foldl (fun best c =>
    match best with
    | none => some c
    | some b => if b.kind.rank < c.kind.rank ∨ (b.kind.rank = c.kind.rank ∧ b.tick < c.tick) then some c else some b) none

/-- The cut of a boundary that begins tick `next`. Of several due over a forward step one is taken. A copy whose window ends at
this boundary ends before the freeze (R300); a cut that meets a copy that has not ended is displaced too. A cut that finds no buffer
completes NO_ROOM in LDG_CUT_REQ_STAT where the register asked for it (R302; log entry 124). -/
def dutyCut (s : State) (next : Nat) : State :=
  let s := { s with ldg := periodicStep s.ldg (now s) next }
  let due := s.ldg.scheduled.filter (fun c => decide (c.tick < next))
  match cutFirst due with
  | none => s
  | some c =>
    let s := cutReadyAt s next
    let l := displaceAll s.ldg (due.filter (fun x => x ≠ c))
    if l.running.isSome then { s with ldg := displaceAll l [c] }
    else
      let ctx := { cutCtx s c.partnerOk with stepped := decide (now s < c.tick) }
      let l := if (cutBufferFor l).isNone && l.reqCutId == c.id && c.kind != .periodic then { l with reqStatus := 6#8 } else l
      { s with ldg := cutFreeze ctx (unitHolds s) next l c }

/-! Containment (R557, R560). -/

/-- The engines of a cluster are lost. -/
def clusterLose (s : State) (c : Nat) : State :=
  (List.range 12).foldl (fun s i =>
    if (engineOf s (12 * c + i)).state = .inService ∨ (engineOf s (12 * c + i)).state = .spare then engineLose s (12 * c + i) else s) s

/-- An endpoint is stopped (R455). -/
def endpointStop (s : State) (ep : Nat) : State :=
  if epEnabled s ep then endpointMod s ep (fun e => { e with contained := true }) else s

/-- CLOCK_LOCK_LOSS by its domain. The stacks, the NVM, the sideband and the debug port stop by what reads the domain's lock. -/
def containClock (s : State) (d : Nat) : State :=
  if 3 ≤ d ∧ d ≤ 10 then clusterLose s (d - 3)
  else if d = 32 then mirrorHalfDown (mirrorHalfDown s 0) 1
  else if d = 33 then endpointStop s 0
  else if d = 34 then endpointStop s 1
  else if d = 35 then endpointStop (endpointStop s 0) 1
  else s

/-- A port stops admitting, drains as for admin down and ends in ADMIN_DOWN. Its 64 whole ticks begin at this boundary, whose clock
duty counts one more (R145). -/
def containPort (s : State) (n : Nat) : State :=
  portMod s n (fun p =>
    match p.state with
    | .up | .degraded | .linkFault | .training => { startDrain p .adminDown with drain := some (.adminDown, 65), contained := true }
    | _ => p)

/-- A DMA channel is halted as in R507. -/
def containDma (s : State) (e c : Nat) : State :=
  let x := dmaChannelOf s e c
  if c = 0 ∨ 15 < c ∨ x.state = .disabled ∨ x.state = .halted then s
  else
    let s := dmaEngineMod s e (fun y => if y.active = c then { y with active := 0, halts := wrapInc y.halts } else y)
    dmaChannelMod s e c (fun x => { x with state := .halted })

/-- A cipher unit is lost. -/
def containSlab (s : State) (u : Nat) : State :=
  if 192 ≤ u ∨ s.cph.lost.contains u then s
  else
    { cphMod s (fun k => { k with lost := k.lost ++ [u] }) with
      sltCph := { s.sltCph with due := s.sltCph.due.filter (fun d => d.1 ≠ u) ++ [(u, .lost)] } }

/-- Containment follows the subject, where the raising rule of the class states none. -/
def containSubject (s : State) (unit sub : Nat) : State :=
  if unit = 0x00 then supervisorReset s (watchdogRecord s)
  else if unit = 0x08 ∨ unit = 0x09 then endpointStop s (unit - 0x08)
  else if 0x0C ≤ unit ∧ unit ≤ 0x0F then containDma s (unit - 0x0C) sub
  else if 0x10 ≤ unit ∧ unit ≤ 0x1F then containPort s sub
  else if 0x38 ≤ unit ∧ unit ≤ 0x3B then
    if sub < 15 then { s with hbmU := { s.hbmU with due := s.hbmU.due ++ [(16 * (unit - 0x38) + sub, .none_)] } } else s
  else if unit = 0x3C then containSlab s sub
  else if 0x40 ≤ unit ∧ unit ≤ 0x9F then
    if (engineOf s (unit - 0x40)).state = .inService ∨ (engineOf s (unit - 0x40)).state = .spare then engineLose s (unit - 0x40) else s
  else s

/-- One containment. The classes whose raising rules state their own have it from there. -/
def containOne (s : State) (c : Containment) : State :=
  match c.cls with
  | .clockLockLoss => containClock s (subjSub c.subj)
  | .ledgerConservation | .macroPllLoss | .hbmSpareExhausted | .engineSparesExhausted | .slabReserveExhausted | .hostIfInternal
  | .dmaBusError | .pairOutOfStep | .sharedMemLost => s
  | _ => if c.cls.row.subj = .u then containSubject s (subjUnit c.subj) (subjSub c.subj) else s

def containments (s : State) : State := s.flt.contain.foldl containOne (fltMod s (fun f => { f with contain := [] }))

/-! Shedding (R131-R133). -/

/-- The step and the quiet count after a tick that ended with a backlog. -/
def shedNext (step quiet backlog : Nat) : Nat × Nat :=
  if 262144 < backlog then (min 3 (step + 1), 0)
  else if backlog < 65536 then
    if step = 0 then (0, min 16 (quiet + 1)) else if quiet + 1 = 16 then (step - 1, 0) else (step, quiet + 1)
  else (step, 0)

def shedUpdate (s : State) (declared backlog : W32) : State :=
  let h := s.hbmU
  let (step, quiet) := shedNext h.step h.quiet backlog.toNat
  let s := { s with
    hbmU := { h with
      step := step, quiet := quiet, declared := declared, backlog := backlog
      shedUsed := if step = 0 then 0 else h.shedUsed - shedCap s
      rises := if h.step = 0 ∧ step = 1 then wrapInc h.rises else h.rises
      step3Ticks := if h.step = 3 then satInc h.step3Ticks else h.step3Ticks }
    sltEng := { s.sltEng with shedDefer := decide (2 ≤ step) } }
  if h.step < step then raiseDetail s .hbmShed 0x38 wholeUnit step else s

/-! Duty 5: slot pages and banks (R66, R75). -/

def slotStep (x : SlotTable) (t : Nat) : SlotTable :=
  let swap := (x.pending.map (fun a => decide (a ≤ t))).getD false
  let x := if swap then { x with active1 := !x.active1, pending := none } else x
  { x with page := t % 2 ^ x.bank.ringLog2 }

def dutySlots (s : State) : State :=
  let s := { s with eng := { s.eng with threads := tmap s.eng.threads (fun _ x => { x with slotsUsed := 0 }) } }
  { cphMod s (fun k => { k with turns := [], cursors := [], loadsTick := 0, allocsTick := 0 }) with
    sltCph := slotStep s.sltCph (now s), sltEng := slotStep s.sltEng (now s), sltQue := slotStep s.sltQue (now s) }

/-! Duty 6: migrations (R85-R90). -/

/-- The migration map with one more move: what `u` served, `v` serves. -/
def movesAdd (ms : List Move) (u v : Nat) : List Move :=
  let ms := ms.map (fun m => if m.spare = u then { m with spare := v } else m)
  if ms.any (fun m => m.lost == u) then ms else ms ++ [{ lost := u, spare := v }]

/-- Rows re-pointed in every page of both banks. -/
def slotMove (x : SlotTable) (per u v : Nat) : SlotTable :=
  let m : List Move := [{ lost := u, spare := v }]
  { x with bank0 := x.bank0.repoint per m, bank1 := x.bank1.repoint per m, moves := movesAdd x.moves u v, migCount := wrapInc x.migCount }

def slotDueDone (x : SlotTable) (u : Nat) : SlotTable := { x with due := x.due.filter (fun d => d.1 ≠ u) }

/-- The spare of R87. A spare that is to be tested is none (DEDUCED, log entry 168). -/
def spareFor (s : State) (e : Nat) : Option Nat :=
  let free := (spareEngines s).filter (fun v =>
    v != e && !(s.sltEng.due.any (fun d => d.1 == v)) && !(s.eng.test.any (fun x => x.engine == v)))
  match free.find? (fun v => v / 12 == e / 12) with
  | some v => some v
  | none => free.head?

/-- Pools with an entry on a row of an engine in some page of the current bank. -/
def poolsOn (s : State) (e : Nat) : List Nat :=
  ((s.sltEng.bank.entries.filter (fun x => x.1 / 8 == e && entryKind x.2 == 2)).map (fun x => entryChannel x.2)).eraseDups

/-- A channel that an engine serves: bound to it, its control thread, or of a pool with an entry there. -/
def servedBy (s : State) (e : Nat) (b : Binding) : Bool :=
  if b.pooled then (poolsOn s e).contains b.pool else channelEngine s b == e

/-- Channels changed by a rule on their binding. -/
def channelsMark (s : State) (p : Binding → Bool) (f : Channel → Channel) : State :=
  { s with eng := { s.eng with channels := tmap s.eng.channels (fun _ c => if p c.bind then f c else c) } }

/-- A thread's local memory and timer move to the same thread of the spare; a batch past its commit point stays to end its
release. -/
def threadMove (u v : Nat) (s : State) (t : Nat) : State :=
  let x := threadOf s u t
  threadMod (threadMod s v t (fun _ => { x with batch := none })) u t (fun x => { x with timerArmed := false })

/-- An engine migration: the spare serves after a copy of four ticks. -/
def engineMigrate (s : State) (u v : Nat) : State :=
  let n := now s + 4
  let s := channelsMark s (servedBy s u) (fun c => { c with migrated := c.migrated.filter (· ≠ v) ++ [v] })
  let s := (List.range 8).foldl (threadMove u v) s
  let s := sltEngMod s (fun x => slotDueDone (slotMove x 8 u v) u)
  let s := engineMod s u (fun e => { e with state := .copySource, copyEnd := some n, copyTo := v })
  let s := engineMod s v (fun e => { e with state := .inService, idleUntil := n })
  { s with eng := { s.eng with control := s.eng.control.map (fun x => if x.2 = u then (x.1, v) else x) } }

/-- A loss that no spare covers (R89): the engine's channels, and those of pools that no engine serves any more, stay
unserved. -/
def engineExhausted (s : State) (u : Nat) : State :=
  let s := engineMod (sltEngMod s (fun x => slotDueDone x u)) u (fun e => { e with state := .failed })
  let gone := fun (b : Binding) => if b.pooled then
      (poolsOn s u).contains b.pool
        && !((List.range 96).any (fun e => engineIs s .inService e && (poolsOn s e).contains b.pool))
    else channelEngine s b == u
  let ids := (s.eng.channels.filter (fun c => gone c.2.bind)).map (·.1)
  let s := channelsMark s gone (fun c => { c with unserved := true })
  let s := ids.foldl channelDrop s
  raise s .engineSparesExhausted (0x40 + u) wholeUnit

/-- One engine due; the count of migrations made so far. -/
def engineDue (x : State × Nat) (d : Nat × MoveCause) : State × Nat :=
  let (s, k) := x
  if 4 ≤ k then x
  else if (engineOf s d.1).state = .spare ∧ d.2 = .lost then
    (engineMod (sltEngMod s (fun x => slotDueDone x d.1)) d.1 (fun e => { e with state := .failed }), k)
  else if (engineOf s d.1).state ≠ .inService then (sltEngMod s (fun x => slotDueDone x d.1), k)
  else
    match spareFor s d.1 with
    | some v => (engineMigrate s d.1 v, k + 1)
    | none => if d.2 = .lost then (engineExhausted s d.1, k) else x

/-- Dues in ascending unit id. -/
def dueSorted (ds : List (Nat × MoveCause)) : List (Nat × MoveCause) := (List.range 192).flatMap (fun u => ds.filter (fun d => d.1 == u))

/-- A unit of the slab due: its row moves to the lowest EMPTY reserve row of its kind. -/
def slabDue (x : State × Nat) (d : Nat × MoveCause) : State × Nat :=
  let (s, k) := x
  let u := d.1
  let done := fun (s : State) =>
    let s := { s with sltCph := slotDueDone s.sltCph u }
    if d.2 = .test then cphMod s (fun c => { c with test := c.test.map (fun t => { t with started := true }) }) else s
  if 4 ≤ k then x
  else if slabRowEmpty s u then (done s, k)
  else
    match (slabReserve s (decide (128 ≤ u))).find? (fun v => v != u && !(s.sltCph.due.any (fun d => d.1 == v))) with
    | some v => (done { s with sltCph := slotMove s.sltCph 1 u v }, k + 1)
    | none =>
      if d.2 = .lost then
        (raise (cphMod (done s) (fun c => { c with uncovered := c.uncovered ++ [u] })) .slabReserveExhausted 0x3C u, k)
      else x

/-- An HBM channel due: channel 15 of its stack takes one channel; a second that fails is lost (R39). -/
def hbmDue (x : State × Nat) (d : Nat × Waiter) : State × Nat :=
  let (s, k) := x
  let u := s.hbmU
  if u.retired.contains d.1 then (answer s d.2 0#8 [], k)
  else if !(u.retired.any (fun c => c / 16 == d.1 / 16)) then
    (answer { s with hbmU := { u with retired := u.retired ++ [d.1] } } d.2 0#8 [], k + 1)
  else if d.2 ≠ .none_ then (answer s d.2 4#8 [], k)
  else if u.lostChannels.contains d.1 then x
  else
    (raise { s with hbmU := { u with lostChannels := u.lostChannels ++ [d.1] } } .hbmSpareExhausted (0x38 + d.1 / 16) (d.1 % 16), k)

/-- The map of the migrations in effect: for each, the subject of the unit left and that of the unit that serves. -/
def unitPairs (s : State) : List Byte :=
  let pair := fun (a b : W32) => leBytes 4 a.toNat ++ leBytes 4 b.toNat
  s.sltEng.moves.flatMap (fun m => pair (subjU (0x40 + m.lost) wholeUnit) (subjU (0x40 + m.spare) wholeUnit))
    ++ s.sltCph.moves.flatMap (fun m => pair (subjU 0x3C m.lost) (subjU 0x3C m.spare))
    ++ s.hbmU.retired.flatMap (fun c => pair (subjU (0x38 + c / 16) (c % 16)) (subjU (0x38 + c / 16) 15))

/-- Duty 6's migrations, with their number. -/
def dutyMigrations (s : State) : State × Nat :=
  let (s, a) := (dueSorted s.sltEng.due).foldl engineDue (s, 0)
  let (s, b) := (dueSorted s.sltCph.due).foldl slabDue (s, 0)
  let (s, c) := s.hbmU.due.foldl hbmDue ({ s with hbmU := { s.hbmU with due := [] } }, 0)
  let hold := fun (x : SlotTable) => { x with held := x.due.map (·.1) }
  let s := { s with sltCph := hold s.sltCph, sltEng := hold s.sltEng }
  (if a + b + c = 0 then s else deltaAdd s 0x0B (unitPairs s), a + b + c)

/-! Duty 6: macros and ports (R143-R148, R171-R173, R273, R569). -/

/-- A port of a macro that powers down drains; in the safe state its transmitter keeps its sequences (R174). -/
def portPowerDown (p : Port) : Port :=
  let tx := p.txCond
  let q := { startDrain p .macroDown with contained := false }
  if p.state = .safe then { q with txCond := tx } else q

/-- A port whose macro failed goes OFFLINE with nothing left queued. -/
def portFailed (s : State) (n : Nat) : State :=
  dropAllQueued (portMod s n (fun p =>
    { p with state := .offline, admitting := false, dist := false, linkLoss := false, drain := none, due := none, newSpeed := none,
             txCond := .electricalIdle })) n .macroOffline

/-- The clock of a macro's drain. -/
def macroStep (s : State) (m : Nat) : State := macroMod s m (fun x => { x with drainLeft := x.drainLeft - 1 })

/-- A macro's change that is due. -/
def macroDue (s : State) (m : Nat) (d : MacroDue) : State :=
  match d with
  | .powerDown =>
    if (macroOf s m).state ≠ .on then s
    else
      (portsOf s m).foldl (fun s n => portMod s n portPowerDown)
        (macroMod s m (fun x => { x with state := .draining, drainLeft := 64, drainTick := now s, powerDowns := wrapInc x.powerDowns }))
  | .powerUp =>
    macroMod s m (fun x => if x.state = .off ∨ x.state = .pllFailed then { x with state := .locking } else x)
  | .failed =>
    let s := (portsOf s m).foldl portFailed s
    if (macroOf s m).downWait.isEmpty && !(macroOf s m).upAfterOff then s else macroOff s m
  | .turnOff => if (macroOf s m).state = .pllFailed then macroOff s m else s

/-- The changes of a macro that are due: its failure first, then a power-down, then a power-up. A power-up that meets a power-down
in PLL_FAILED begins at the boundary after STATE reaches OFF, as one in DRAINING does (R172, R173; DEDUCED, log entry 117). -/
def macroChanges (s : State) (m : Nat) : State :=
  let due := (macroOf s m).due
  let s := macroMod (macroStep s m) m (fun x => { x with due := [], upAfterOff := x.upAfterOff || (due.contains .turnOff && due.contains .powerUp) })
  let s := if due.contains .failed then macroDue s m .failed else s
  let s := if due.contains .powerDown then macroDue s m .powerDown else s
  let s := if due.contains .turnOff then macroDue s m .turnOff else s
  if due.contains .powerUp && !due.contains .turnOff then macroDue s m .powerUp else s

def dutyMacros (s : State) : State := (List.range 16).foldl macroChanges s

/-- The clocks of a port: whole ticks without link, and of a drain. -/
def portClocks (p : Port) : Port :=
  { p with downTicks := if p.link then 0 else if p.downWhole then min 64 (p.downTicks + 1) else p.downTicks,
           downWhole := !p.link, drain := p.drain.map (fun d => (d.1, d.2 - 1)) }

/-- A port's change that is due, but in a state that only other rules let it out of. -/
def portDue (s : State) (n : Nat) (p : Port) (d : PortDue) : State :=
  let s := portMod s n (fun p => { p with due := none })
  match p.state, d with
  | .safe, _ | .unmapped, _ => s
  | .offline, .halt | .offline, .haltTraining | .offline, .haltStop _ => if p.drain.isSome then haltPort s n else s
  | .offline, .safe => portEntersSafe s n
  | .offline, _ => s
  | _, d =>
    match d with
    | .stop k => portMod s n (fun p => startDrain p k)
    | .halt => haltPort s n
    | .haltTraining => portMod (haltPort s n) n (fun p => { p with due := some .training })
    | .haltStop k =>
      let speed := p.newSpeed
      portMod (haltPort s n) n (fun p => { startDrain p k with newSpeed := speed })
    | .training =>
      portMod s n (fun p => if p.drain.isNone ∧ (p.state = .test ∨ p.state = .halted ∨ p.state = .adminDown) then toTraining p else p)
    | .safe => portEntersSafe s n
    | .offline => portFailed s n

def dutyPorts (s : State) : State :=
  (s.lnm.ports.map (·.1)).foldl (fun s n =>
    let s := portMod s n portClocks
    match portOf s n with
    | some p => (p.due.map (portDue s n p)).getD s
    | none => s) s

/-- Trunk ports leave distribution while the side is SOLO (R534). -/
def portDistributes (s : State) (n : Nat) : Bool := !(tgetD s.mir.pair.roles n 0 == 3 && s.mir.state == .solo)

/-- Admission and distribution from beat 0 of the tick that begins (R143, R146, R530). -/
def dutyAdmission (s : State) : State :=
  let side := sideAdmits s && s.hif.deviceReady
  { s with lnm := { s.lnm with ports := tmap s.lnm.ports (fun n p =>
      let a := stateAdmits p && p.link && p.drain.isNone && side
      { p with admitting := a, dist := a && portDistributes s n, linkLoss := p.linkLoss && !a }) } }

/-! The first admitting boundary (R117, R263, R460, R463, R531). -/

def firstAdmit (s : State) : State :=
  if !s.rst.applyDue then s
  else
    let s := rstMod s (fun r => { r with applyDue := false, loadMs := BitVec.ofNat 32 (r.upTicks / 1000) })
    let s := { s with hif := { s.hif with deviceReady := true } }
    let s := s.lnm.ports.foldl (fun s e => gateNow (schPortMod s e.1 (fun q => { q with ctlCredit := 8 * e.2.cfg.maxFrame })) e.1) s
    let s := if s.mir.pair.mode = 0 then s
      else mirMod s (fun m => { m with state := .stale, linkLost := if mirrorLink s = 0 then some (now s) else none })
    [0, 1].foldl (fun s ep =>
      let pf2 := pf0Of ep + 0x4000
      let s := if epEnabled s ep then presetLatch s pf2 (presetOf s pf2) else s
      if (endpointOf s ep).linkUp && !(endpointOf s ep).inReset then
        emit (emit s (.message (pf0Of ep + 0x2000) 1)) (.message pf2 1)
      else s) s

/-! Run-time changes (R126, R344, R392, R426). -/

/-- An unbind: the channel's packets are dropped, its inbox is emptied, its timer disarmed, and it is gone. -/
def unbindNow (s : State) (ch : Nat) : State :=
  let held := (s.eng.threads.filter (fun x => (x.2.batch.map (fun b => b.channel == ch)).getD false)).map (·.1)
  let s := held.foldl (fun s i => batchDiscard s (i / 8) (i % 8)) s
  let s := channelDrop s ch
  { s with eng := { s.eng with
      channels := tdel s.eng.channels ch
      threads := tmap s.eng.threads (fun _ x => if x.timerArmed && x.timerChannel == ch then { x with timerArmed := false } else x)
      landings := s.eng.landings.filter (fun l => l.channel ≠ ch) } }

/-- A bind: the channel's state is the words supplied, or, with none, the Recipe's record for it, and zeros after them (R344,
R386). -/
def bindNow (s : State) (x : Binding × List W48) : State :=
  let s := { s with eng := { s.eng with channels := tset s.eng.channels x.1.channel (Channel.bound x.1) } }
  let ws := if x.2.isEmpty then (tgetD (clusterOf s x.1.cluster).initState x.1.channel []).take x.1.stateWords else x.2
  stateSetAll s x.1 0 (ws ++ List.replicate (x.1.stateWords - ws.length) 0#48)

def bindsDue (s : State) : State :=
  let s := s.eng.unbinds.foldl unbindNow s
  let s := s.eng.binds.foldl bindNow s
  { s with eng := { s.eng with binds := [], unbinds := [] } }

/-- Contexts that the current or the pending bank names in DEDICATED entries are resident, pinned (R397). -/
def cachePins (s : State) : State :=
  let named := (pinnedIds s.sltCph.bank ++ (if s.sltCph.pending.isSome then pinnedIds s.sltCph.other else [])).eraseDups
  let s := cphMod s (fun k => { k with cache := tmap k.cache (fun i e => { e with pinned := named.contains i }) })
  if !s.cph.enabled || s.kvl.erasing then s
  else
    (named.filter (fun i => (ctxOf s i).state == .active && !thas s.cph.cache i)).foldl (fun s i =>
      let s := cacheRoom s
      if s.cph.cache.length < cacheSize then cacheFill s i true else s) s

def changesDue (s : State) : State :=
  let s := bindsDue (restartsDue (imemRewrite s))
  let s := ctxBoundary s
  let s := match s.app.demandDue with
    | some d => { s with app := { s.app with demand := d, demandDue := none } }
    | none => s
  let s := s.sch.minDue.foldl (fun s e => schQueueMod s e.1 (fun q => { q with min := e.2 })) s
  let s := { s with sch := { s.sch with
    minDue := [], meterDue := []
    meters := s.sch.meterDue.foldl (fun t e => tset t e.1 { e.2 with tLast := now s }) s.sch.meters } }
  cachePins (namespacesDue s)

/-! Tests of units (R85, R361). -/

/-- The test of an engine that is out of service begins. -/
def selftestStart (s : State) : State :=
  match s.eng.test with
  | some { engine := e, ends := none, waiter := w } =>
    match (engineOf s e).state with
    | .spare | .failed =>
      let s := engineMod s e (fun x => { x with state := .test })
      { s with eng := { s.eng with test := some { engine := e, ends := some (intervalStart s + 2000), waiter := w } } }
    | _ => s
  | _ => s

/-- The test of a slab unit ends a tick after its unit left service. Whether it passes is a free value; a unit that fails stays out
of use, CIPHER_UNIT_FAIL is raised, and the command completes BUS_ERROR (R85; DESIGN CHOICE, log entry 135). -/
def slabTestEnd (s : State) : State :=
  match s.cph.test with
  | none => s
  | some t =>
    if !t.started then s
    else
      let (pass, s) := fresh 1 (cphMod s (fun k => { k with test := none }))
      if pass = 1#1 then answer s t.waiter 0#8 []
      else
        let s := cphMod s (fun k => { k with lost := if k.lost.contains t.unit then k.lost else k.lost ++ [t.unit] })
        answer (raise s .cipherUnitFail 0x3C t.unit) t.waiter 5#8 []

/-! Duty 7 and the rest. -/

/-- The BOUNDARY record of the tick that closed (R527). -/
def boundaryWord (s : State) (cut : Bool) (moves : Nat) : Nat :=
  s.ldg.failed.foldl (fun a u => a ||| 2 ^ u) 0 + putB cut 18 + put s.dec.current 19 4 + put s.sltEng.page 23 4 + put (min moves 31) 27 5

/-- Marks and pins at the beginning of a tick (R57, R272, R315, R328): `old` is the tick that closed. The edges stand at the pins
OUT_ADVANCE before the boundary. -/
def tickMarks (s : State) (old : Nat) : State :=
  let t := now s
  let s := if old / 1000000 = t / 1000000 then s
    else secMod s (fun x => { x with tickMark := s.tmb.tick, vbatValid := x.vbatValid || !x.vbat.cause })
  let s := if old / 2 ^ s.sch.hwmPeriodLog2 = t / 2 ^ s.sch.hwmPeriodLog2 then s else hwmCopy s
  let pps := t % 1000000 = 0 ∧ (s.tmb.ppsOutMode = 2#2 ∨ (s.tmb.ppsOutMode = 1#2 ∧ s.tmb.traceable))
  let edge : Int := t * 32000 - s.tmb.outAdvance.toInt
  tmbMod s (fun x => { x with
    tickOut := x.tickOutEn, ppsOut := x.ppsOut || decide pps, ppsRise := if pps then t else x.ppsRise
    tickEdge := if x.tickOutEn then edge else x.tickEdge, ppsEdge := if pps then edge else x.ppsEdge })

/-- Duties 1 and 2, before the tick number moves to `next`. -/
def tickClose (s : State) (next : Nat) : State := dutyCut (dutyConservation s) next

/-- The tick number and the beat; a forward step moves what the sources measure. -/
def tickAdvance (s : State) (next : Nat) : State :=
  let k := next - now s - 1
  rstMod (tmbMod (timeStepped s k) (fun t => { t with tick := BitVec.ofNat 64 next, beat := 0 }))
    (fun r => { r with upTicks := r.upTicks + 1 })

/-- The steering of a boundary: TRACEABLE and the slew. -/
def tickTime (s : State) : State := timeSlew (traceableUpdate s)

/-- Duties 3 to 7 in the tick that begins. -/
def tickOpen (s : State) (old : Nat) (cut : Bool) (declared backlog : W32) : State :=
  let admits := admitBytes s
  let s := shedUpdate (containments s) declared backlog
  let s := firstAdmit s
  let s := versionBoundary (cutTakeover (pairBoundary s))
  let s := s.lnm.ports.foldl (fun s e => gateActivate s e.1) s
  let s := slabTestEnd (dutySlots s)
  let (s, moves) := dutyMigrations s
  let s := recoverAt (squelchBoundary (dutyPorts (dutyMacros (heldDeliver s))))
  let s := dutyAdmission s
  let s := storageTick (hostOverdue (selftestStart (changesDue s)))
  let s := s.lnm.ports.foldl (fun s e => creditRefill s e.1) s
  let s := tickMarks s old
  let l := if old + 1 = now s then s.ldg else cutAdmitPeriodic (now s - 1) s.ldg
  let s := { s with ldg := cutAdvance (now s) (cutAdmitPeriodic (now s) l) }
  pairSend s (boundaryWord s cut moves) admits

/-- The restarted firmware has not restarted the watchdog in time (R586). -/
def restartOverdue (s : State) : State :=
  if s.rst.restarting ∧ s.rst.restartTick + 200000 ≤ now s then faultReset s .watchdog (watchdogRecord s) else s

/-- TICK_BOUNDARY. `declared` and `backlog` are the declared-class bytes asked of the HBM in the closing tick, and what of them
was left at its end (R131). The timebase makes ticks from its release on; the duties begin with CORE's. -/
def tickBoundary (s : State) (declared backlog : W32) : State :=
  if !releasedOf s 3 then s
  else
    let s := timeSelect (domainOverdue (beatEnd s))
    let old := now s
    let next := old + 1 + stepTicks s
    if !releasedOf s 9 then restartOverdue (tickTime (tickAdvance s next))
    else
      let s := slotsEnd (flowEnginesEnd (releasesLand s))
      let t := tickClose s next
      let cut := t.ldg.takes != s.ldg.takes
      restartOverdue (tickOpen (checkFaults s (tickTime (tickAdvance t next))) old cut declared backlog)

def execTickBoundary (declared backlog : W32) (s : State) : Result := .next (tickBoundary s declared backlog)

end Sys2Proof.Machine
end

