-- ==== Sys2Proof/Machine/Dispatch.lean ====
section
/-!
DEFINITION. The dispatch: one arm per command, each a direct call of its meaning.
-/

namespace Sys2Proof.Machine

def exec (i : Instr) (s : State) : Host.Outcome State Fault Refusal :=
  match i with
  | .tickBoundary declared backlog => Sys2Proof.Machine.execTickBoundary declared backlog s
  | .ppsOutFall => Sys2Proof.Machine.execPpsOutFall s
  | .tmbTickLoRead r => Sys2Proof.Machine.execTmbTickLoRead r s
  | .sltActLoRead table r => Sys2Proof.Machine.execSltActLoRead table r s
  | .batchDispatch e t start => Sys2Proof.Machine.execBatchDispatch e t start s
  | .batchRelease e t => Sys2Proof.Machine.execBatchRelease e t s
  | .slotOverrun e t => Sys2Proof.Machine.execSlotOverrun e t s
  | .migrationCopyEnd e bad => Sys2Proof.Machine.execMigrationCopyEnd e bad s
  | .timerFire e t => Sys2Proof.Machine.execTimerFire e t s
  | .hbmResultLanding => Sys2Proof.Machine.execHbmResultLanding s
  | .nop e t f => Sys2Proof.Machine.execNop e t f s
  | .add e t f => Sys2Proof.Machine.execAdd e t f s
  | .sub e t f => Sys2Proof.Machine.execSub e t f s
  | .and_ e t f => Sys2Proof.Machine.execAnd e t f s
  | .or_ e t f => Sys2Proof.Machine.execOr e t f s
  | .xor e t f => Sys2Proof.Machine.execXor e t f s
  | .andn e t f => Sys2Proof.Machine.execAndn e t f s
  | .shl e t f => Sys2Proof.Machine.execShl e t f s
  | .shr e t f => Sys2Proof.Machine.execShr e t f s
  | .sar e t f => Sys2Proof.Machine.execSar e t f s
  | .mul e t f => Sys2Proof.Machine.execMul e t f s
  | .minu e t f => Sys2Proof.Machine.execMinu e t f s
  | .maxu e t f => Sys2Proof.Machine.execMaxu e t f s
  | .seq e t f => Sys2Proof.Machine.execSeq e t f s
  | .slt e t f => Sys2Proof.Machine.execSlt e t f s
  | .sltu e t f => Sys2Proof.Machine.execSltu e t f s
  | .sel e t f => Sys2Proof.Machine.execSel e t f s
  | .addi e t f => Sys2Proof.Machine.execAddi e t f s
  | .andi e t f => Sys2Proof.Machine.execAndi e t f s
  | .ori e t f => Sys2Proof.Machine.execOri e t f s
  | .xori e t f => Sys2Proof.Machine.execXori e t f s
  | .shli e t f => Sys2Proof.Machine.execShli e t f s
  | .shri e t f => Sys2Proof.Machine.execShri e t f s
  | .sari e t f => Sys2Proof.Machine.execSari e t f s
  | .seqi e t f => Sys2Proof.Machine.execSeqi e t f s
  | .sltui e t f => Sys2Proof.Machine.execSltui e t f s
  | .movi e t f => Sys2Proof.Machine.execMovi e t f s
  | .ext e t f => Sys2Proof.Machine.execExt e t f s
  | .ins e t f => Sys2Proof.Machine.execIns e t f s
  | .clz e t f => Sys2Proof.Machine.execClz e t f s
  | .popc e t f => Sys2Proof.Machine.execPopc e t f s
  | .bswap e t f => Sys2Proof.Machine.execBswap e t f s
  | .hash e t f => Sys2Proof.Machine.execHash e t f s
  | .ldl e t f => Sys2Proof.Machine.execLdl e t f s
  | .stl e t f => Sys2Proof.Machine.execStl e t f s
  | .lds e t f => Sys2Proof.Machine.execLds e t f s
  | .sts e t f => Sys2Proof.Machine.execSts e t f s
  | .take e t f => Sys2Proof.Machine.execTake e t f s
  | .takek e t f => Sys2Proof.Machine.execTakek e t f s
  | .ldk e t f => Sys2Proof.Machine.execLdk e t f s
  | .ldp e t f => Sys2Proof.Machine.execLdp e t f s
  | .stp e t f => Sys2Proof.Machine.execStp e t f s
  | .keep e t f => Sys2Proof.Machine.execKeep e t f s
  | .rls e t f => Sys2Proof.Machine.execRls e t f s
  | .drop e t f => Sys2Proof.Machine.execDrop e t f s
  | .emit e t f => Sys2Proof.Machine.execEmit e t f s
  | .lkup e t f => Sys2Proof.Machine.execLkup e t f s
  | .twr e t f => Sys2Proof.Machine.execTwr e t f s
  | .frd e t f => Sys2Proof.Machine.execFrd e t f s
  | .fwr e t f => Sys2Proof.Machine.execFwr e t f s
  | .hrd e t f => Sys2Proof.Machine.execHrd e t f s
  | .hwr e t f => Sys2Proof.Machine.execHwr e t f s
  | .csub e t f => Sys2Proof.Machine.execCsub e t f s
  | .ladd e t f => Sys2Proof.Machine.execLadd e t f s
  | .send e t f => Sys2Proof.Machine.execSend e t f s
  | .msgt e t f => Sys2Proof.Machine.execMsgt e t f s
  | .arm e t f => Sys2Proof.Machine.execArm e t f s
  | .time e t f => Sys2Proof.Machine.execTime e t f s
  | .beat e t f => Sys2Proof.Machine.execBeat e t f s
  | .br e t f => Sys2Proof.Machine.execBr e t f s
  | .beq e t f => Sys2Proof.Machine.execBeq e t f s
  | .bne e t f => Sys2Proof.Machine.execBne e t f s
  | .blt e t f => Sys2Proof.Machine.execBlt e t f s
  | .bltu e t f => Sys2Proof.Machine.execBltu e t f s
  | .bge e t f => Sys2Proof.Machine.execBge e t f s
  | .bgeu e t f => Sys2Proof.Machine.execBgeu e t f s
  | .bbs e t f => Sys2Proof.Machine.execBbs e t f s
  | .bbc e t f => Sys2Proof.Machine.execBbc e t f s
  | .loop e t f => Sys2Proof.Machine.execLoop e t f s
  | .jt e t f => Sys2Proof.Machine.execJt e t f s
  | .commit e t f => Sys2Proof.Machine.execCommit e t f s
  | .engineThreadFault e t cause => Sys2Proof.Machine.execEngineThreadFault e t cause s
  | .sharedMemError c word => Sys2Proof.Machine.execSharedMemError c word s
  | .imemScrub c word corrected => Sys2Proof.Machine.execImemScrub c word corrected s
  | .engineSelftestEnd pass => Sys2Proof.Machine.execEngineSelftestEnd pass s
  | .supervisorEngineMessage => Sys2Proof.Machine.execSupervisorEngineMessage s
  | .rxFrameDelimited port bytes start aborted blocks => Sys2Proof.Machine.execRxFrameDelimited port bytes start aborted blocks s
  | .fecCodewordDecode port word frames => Sys2Proof.Machine.execFecCodewordDecode port word frames s
  | .laneLockLost port lock aligned => Sys2Proof.Machine.execLaneLockLost port lock aligned s
  | .linkLost port retrain => Sys2Proof.Machine.execLinkLost port retrain s
  | .faultSetsReceived port remote => Sys2Proof.Machine.execFaultSetsReceived port remote s
  | .faultSetsCease port => Sys2Proof.Machine.execFaultSetsCease port s
  | .trainingRestart port => Sys2Proof.Machine.execTrainingRestart port s
  | .portReachUp reach => Sys2Proof.Machine.execPortReachUp reach s
  | .remoteDegradedRx port set => Sys2Proof.Machine.execRemoteDegradedRx port set s
  | .degradeEvaluation port => Sys2Proof.Machine.execDegradeEvaluation port s
  | .portDrainDeadline port => Sys2Proof.Machine.execPortDrainDeadline port s
  | .headerLaneEntry slice => Sys2Proof.Machine.execHeaderLaneEntry slice s
  | .flowStateAccess => Sys2Proof.Machine.execFlowStateAccess s
  | .packetEnqueue => Sys2Proof.Machine.execPacketEnqueue s
  | .emitAdmit => Sys2Proof.Machine.execEmitAdmit s
  | .schedulerSelect unit => Sys2Proof.Machine.execSchedulerSelect unit s
  | .gateEntryChange port => Sys2Proof.Machine.execGateEntryChange port s
  | .txFrameStart port start => Sys2Proof.Machine.execTxFrameStart port start s
  | .txUnderrun port => Sys2Proof.Machine.execTxUnderrun port s
  | .txFrameDepart port => Sys2Proof.Machine.execTxFrameDepart port s
  | .learnUnitProcess => Sys2Proof.Machine.execLearnUnitProcess s
  | .macAgerVisit place => Sys2Proof.Machine.execMacAgerVisit place s
  | .flowAgerVisit index => Sys2Proof.Machine.execFlowAgerVisit index s
  | .tableScrubVisit table index result => Sys2Proof.Machine.execTableScrubVisit table index result s
  | .spillSweep index => Sys2Proof.Machine.execSpillSweep index s
  | .ledgerEccError index part => Sys2Proof.Machine.execLedgerEccError index part s
  | .cutCopyStart => Sys2Proof.Machine.execCutCopyStart s
  | .cutReady => Sys2Proof.Machine.execCutReady s
  | .ldgCutReqGo v => Sys2Proof.Machine.execLdgCutReqGo v s
  | .ldgCutPeriodWrite v => Sys2Proof.Machine.execLdgCutPeriodWrite v s
  | .ldgConsRearm rec => Sys2Proof.Machine.execLdgConsRearm rec s
  | .ldgRdIdxWrite r v => Sys2Proof.Machine.execLdgRdIdxWrite r v s
  | .macStatRead r port offset => Sys2Proof.Machine.execMacStatRead r port offset s
  | .lnmPortTxStartWrite port v => Sys2Proof.Machine.execLnmPortTxStartWrite port v s
  | .prbsCtrlWrite lane v => Sys2Proof.Machine.execPrbsCtrlWrite lane v s
  | .prbsClear lane => Sys2Proof.Machine.execPrbsClear lane s
  | .macroDrainEnd m => Sys2Proof.Machine.execMacroDrainEnd m s
  | .macroOffComplete m => Sys2Proof.Machine.execMacroOffComplete m s
  | .macroPllLock m => Sys2Proof.Machine.execMacroPllLock m s
  | .macroPllLoss m => Sys2Proof.Machine.execMacroPllLoss m s
  | .versionCommitTimeout => Sys2Proof.Machine.execVersionCommitTimeout s
  | .cipherRequestProcess ctx hbmOk => Sys2Proof.Machine.execCipherRequestProcess ctx hbmOk s
  | .cipherOutputWrite => Sys2Proof.Machine.execCipherOutputWrite s
  | .keyCacheLoad ctx => Sys2Proof.Machine.execKeyCacheLoad ctx s
  | .counterBlockAlloc ctx => Sys2Proof.Machine.execCounterBlockAlloc ctx s
  | .cipherUnitFail unit ctx => Sys2Proof.Machine.execCipherUnitFail unit ctx s
  | .entropyStartupDone => Sys2Proof.Machine.execEntropyStartupDone s
  | .entropyStartup => Sys2Proof.Machine.execEntropyStartup s
  | .entropyHealth => Sys2Proof.Machine.execEntropyHealth s
  | .drbgReseed => Sys2Proof.Machine.execDrbgReseed s
  | .zeroizeComplete => Sys2Proof.Machine.execZeroizeComplete s
  | .alarmMesh present => Sys2Proof.Machine.execAlarmMesh present s
  | .alarmVoltage present => Sys2Proof.Machine.execAlarmVoltage present s
  | .alarmClock present => Sys2Proof.Machine.execAlarmClock present s
  | .alarmTemperature present => Sys2Proof.Machine.execAlarmTemperature present s
  | .alarmVbat present => Sys2Proof.Machine.execAlarmVbat present s
  | .secAlarmAck v => Sys2Proof.Machine.execSecAlarmAck v s
  | .ref100Loss => Sys2Proof.Machine.execRef100Loss s
  | .clockLockLoss domain => Sys2Proof.Machine.execClockLockLoss domain s
  | .dieSensorHigh sensor reading => Sys2Proof.Machine.execDieSensorHigh sensor reading s
  | .junctionCritical sensor reading => Sys2Proof.Machine.execJunctionCritical sensor reading s
  | .hbmUncorrectableError hda => Sys2Proof.Machine.execHbmUncorrectableError hda s
  | .hbmChannelFail stack channel => Sys2Proof.Machine.execHbmChannelFail stack channel s
  | .faultReport report => Sys2Proof.Machine.execFaultReport report s
  | .fltNPulseEnd => Sys2Proof.Machine.execFltNPulseEnd s
  | .faultResetDue => Sys2Proof.Machine.execFaultResetDue s
  | .faultAck source => Sys2Proof.Machine.execFaultAck source s
  | .fltInjWrite v => Sys2Proof.Machine.execFltInjWrite v s
  | .fltForceGo v => Sys2Proof.Machine.execFltForceGo v s
  | .journalWrite => Sys2Proof.Machine.execJournalWrite s
  | .journalEraseDone => Sys2Proof.Machine.execJournalEraseDone s
  | .supervisorWatchdog => Sys2Proof.Machine.execSupervisorWatchdog s
  | .supervisorReset => Sys2Proof.Machine.execSupervisorReset s
  | .supervisorResume verified => Sys2Proof.Machine.execSupervisorResume verified s
  | .powerOnReset => Sys2Proof.Machine.execPowerOnReset s
  | .rstNAssert => Sys2Proof.Machine.execRstNAssert s
  | .domainRelease ready => Sys2Proof.Machine.execDomainRelease ready s
  | .optionByteRead => Sys2Proof.Machine.execOptionByteRead s
  | .recipeSlotLoad slotB badAt => Sys2Proof.Machine.execRecipeSlotLoad slotB badAt s
  | .epochSectorRefresh => Sys2Proof.Machine.execEpochSectorRefresh s
  | .rstSwDeviceReset testMode => Sys2Proof.Machine.execRstSwDeviceReset testMode s
  | .rstSwSupervisorReset => Sys2Proof.Machine.execRstSwSupervisorReset s
  | .guardTimeout r addr => Sys2Proof.Machine.execGuardTimeout r addr s
  | .registerWrite r addr half v => Sys2Proof.Machine.execRegisterWrite r addr half v s
  | .tmbTodArm v => Sys2Proof.Machine.execTmbTodArm v s
  | .tmbSnapGo sub => Sys2Proof.Machine.execTmbSnapGo sub s
  | .ppsInEdge sub refTime => Sys2Proof.Machine.execPpsInEdge sub refTime s
  | .tickInEdge sub => Sys2Proof.Machine.execTickInEdge sub s
  | .refTimeLoss => Sys2Proof.Machine.execRefTimeLoss s
  | .ppsInTimeout => Sys2Proof.Machine.execPpsInTimeout s
  | .ptpMessageRx port kind offset good sub => Sys2Proof.Machine.execPtpMessageRx port kind offset good sub s
  | .ptpMessageSend port kind => Sys2Proof.Machine.execPtpMessageSend port kind s
  | .ptpAnnounceTimeout => Sys2Proof.Machine.execPtpAnnounceTimeout s
  | .holdoverExpired => Sys2Proof.Machine.execHoldoverExpired s
  | .producerDoorbell q v => Sys2Proof.Machine.execProducerDoorbell q v s
  | .consumerDoorbell q v => Sys2Proof.Machine.execConsumerDoorbell q v s
  | .descriptorFetch ep pos => Sys2Proof.Machine.execDescriptorFetch ep pos s
  | .descriptorFetchDone q ok bytes => Sys2Proof.Machine.execDescriptorFetchDone q ok bytes s
  | .sendFrameReadDone q ok bytes => Sys2Proof.Machine.execSendFrameReadDone q ok bytes s
  | .hostRxDma q => Sys2Proof.Machine.execHostRxDma q s
  | .hostRxComplete q ok => Sys2Proof.Machine.execHostRxComplete q ok s
  | .eventPost type => Sys2Proof.Machine.execEventPost type s
  | .adminFetch ep entry => Sys2Proof.Machine.execAdminFetch ep entry s
  | .queAqEnableWrite ep v => Sys2Proof.Machine.execQueAqEnableWrite ep v s
  | .createQueue ep entry data => Sys2Proof.Machine.execCreateQueue ep entry data s
  | .destroyQueue ep entry data => Sys2Proof.Machine.execDestroyQueue ep entry data s
  | .enableQueue ep entry data => Sys2Proof.Machine.execEnableQueue ep entry data s
  | .disableQueue ep entry data => Sys2Proof.Machine.execDisableQueue ep entry data s
  | .queryQueue ep entry data => Sys2Proof.Machine.execQueryQueue ep entry data s
  | .createVf ep entry data => Sys2Proof.Machine.execCreateVf ep entry data s
  | .destroyVf ep entry data => Sys2Proof.Machine.execDestroyVf ep entry data s
  | .queryFunction ep entry data => Sys2Proof.Machine.execQueryFunction ep entry data s
  | .stageSlots ep entry data => Sys2Proof.Machine.execStageSlots ep entry data s
  | .setDemand ep entry data => Sys2Proof.Machine.execSetDemand ep entry data s
  | .bindChannel ep entry data => Sys2Proof.Machine.execBindChannel ep entry data s
  | .unbindChannel ep entry data => Sys2Proof.Machine.execUnbindChannel ep entry data s
  | .sendToChannel ep entry data => Sys2Proof.Machine.execSendToChannel ep entry data s
  | .setQueueMin ep entry data => Sys2Proof.Machine.execSetQueueMin ep entry data s
  | .setMeters ep entry data => Sys2Proof.Machine.execSetMeters ep entry data s
  | .portAdminDown ep entry data => Sys2Proof.Machine.execPortAdminDown ep entry data s
  | .portAdminTraining ep entry data => Sys2Proof.Machine.execPortAdminTraining ep entry data s
  | .portAdminTest ep entry data => Sys2Proof.Machine.execPortAdminTest ep entry data s
  | .portAdminHalt ep entry data => Sys2Proof.Machine.execPortAdminHalt ep entry data s
  | .portSpeed ep entry data => Sys2Proof.Machine.execPortSpeed ep entry data s
  | .macroPowerDown ep entry data => Sys2Proof.Machine.execMacroPowerDown ep entry data s
  | .macroPowerUp ep entry data => Sys2Proof.Machine.execMacroPowerUp ep entry data s
  | .stageGateList ep entry data => Sys2Proof.Machine.execStageGateList ep entry data s
  | .tableWrite ep entry data => Sys2Proof.Machine.execTableWrite ep entry data s
  | .tableDelete ep entry data => Sys2Proof.Machine.execTableDelete ep entry data s
  | .macInsert ep entry data => Sys2Proof.Machine.execMacInsert ep entry data s
  | .macMove ep entry data => Sys2Proof.Machine.execMacMove ep entry data s
  | .macDelete ep entry data => Sys2Proof.Machine.execMacDelete ep entry data s
  | .versionCommit ep entry data => Sys2Proof.Machine.execVersionCommit ep entry data s
  | .versionSelect ep entry data => Sys2Proof.Machine.execVersionSelect ep entry data s
  | .tableRead ep entry data => Sys2Proof.Machine.execTableRead ep entry data s
  | .cutRequest ep entry data => Sys2Proof.Machine.execCutRequest ep entry data s
  | .cutRead ep entry data => Sys2Proof.Machine.execCutRead ep entry data s
  | .timeConfig ep entry data => Sys2Proof.Machine.execTimeConfig ep entry data s
  | .contextCreate ep entry data => Sys2Proof.Machine.execContextCreate ep entry data s
  | .contextDestroy ep entry data => Sys2Proof.Machine.execContextDestroy ep entry data s
  | .contextSave ep entry data => Sys2Proof.Machine.execContextSave ep entry data s
  | .contextRestore ep entry data => Sys2Proof.Machine.execContextRestore ep entry data s
  | .vaultLoad ep entry data => Sys2Proof.Machine.execVaultLoad ep entry data s
  | .vaultClear ep entry data => Sys2Proof.Machine.execVaultClear ep entry data s
  | .namespaceSet ep entry data => Sys2Proof.Machine.execNamespaceSet ep entry data s
  | .engineSelftest ep entry data => Sys2Proof.Machine.execEngineSelftest ep entry data s
  | .slabTest ep entry data => Sys2Proof.Machine.execSlabTest ep entry data s
  | .hbmRetire ep entry data => Sys2Proof.Machine.execHbmRetire ep entry data s
  | .nvmRead ep entry data => Sys2Proof.Machine.execNvmRead ep entry data s
  | .nvmWrite ep entry data => Sys2Proof.Machine.execNvmWrite ep entry data s
  | .ownerKeyProgram ep entry data => Sys2Proof.Machine.execOwnerKeyProgram ep entry data s
  | .ownerKeyRevoke ep entry data => Sys2Proof.Machine.execOwnerKeyRevoke ep entry data s
  | .deviceReset ep entry data => Sys2Proof.Machine.execDeviceReset ep entry data s
  | .flr fn => Sys2Proof.Machine.execFlr fn s
  | .flrComplete fn => Sys2Proof.Machine.execFlrComplete fn s
  | .perstNAssert ep => Sys2Proof.Machine.execPerstNAssert ep s
  | .perstNDeassert ep => Sys2Proof.Machine.execPerstNDeassert ep s
  | .configReady ep => Sys2Proof.Machine.execConfigReady ep s
  | .hotReset ep => Sys2Proof.Machine.execHotReset ep s
  | .linkUp ep rate width flit => Sys2Proof.Machine.execLinkUp ep rate width flit s
  | .configRequest fn offset write => Sys2Proof.Machine.execConfigRequest fn offset write s
  | .barMemoryRequest fn bar offset access => Sys2Proof.Machine.execBarMemoryRequest fn bar offset access s
  | .d3hotEntry fn => Sys2Proof.Machine.execD3hotEntry fn s
  | .d0Return fn => Sys2Proof.Machine.execD0Return fn s
  | .wakeEvent fn cause => Sys2Proof.Machine.execWakeEvent fn cause s
  | .msixUnmask fn vector => Sys2Proof.Machine.execMsixUnmask fn vector s
  | .completionTimeout request => Sys2Proof.Machine.execCompletionTimeout request s
  | .hostIfInternal ep => Sys2Proof.Machine.execHostIfInternal ep s
  | .featuresOkWrite fn => Sys2Proof.Machine.execFeaturesOkWrite fn s
  | .featAcceptWrite fn index v => Sys2Proof.Machine.execFeatAcceptWrite fn index v s
  | .dmaChannelSelect e => Sys2Proof.Machine.execDmaChannelSelect e s
  | .dmaDescriptorStart e bytes => Sys2Proof.Machine.execDmaDescriptorStart e bytes s
  | .dmaTransferDone e data => Sys2Proof.Machine.execDmaTransferDone e data s
  | .dmaBusError e cause fetch write i0 i1 i2 => Sys2Proof.Machine.execDmaBusError e cause fetch write i0 i1 i2 s
  | .dmaChRetry e c => Sys2Proof.Machine.execDmaChRetry e c s
  | .dmaChSkip e c => Sys2Proof.Machine.execDmaChSkip e c s
  | .dmaChReset e c => Sys2Proof.Machine.execDmaChReset e c s
  | .dmaChEnableWrite e c v => Sys2Proof.Machine.execDmaChEnableWrite e c v s
  | .dmaChProdWrite e c v => Sys2Proof.Machine.execDmaChProdWrite e c v s
  | .mbxH2sRing ep v => Sys2Proof.Machine.execMbxH2sRing ep v s
  | .mbxH2sDataWrite ep m offset bytes => Sys2Proof.Machine.execMbxH2sDataWrite ep m offset bytes s
  | .echo m => Sys2Proof.Machine.execEcho m s
  | .toChannel m => Sys2Proof.Machine.execToChannel m s
  | .hostAlive m => Sys2Proof.Machine.execHostAlive m s
  | .s2hPost m => Sys2Proof.Machine.execS2hPost m s
  | .mbxS2hRelease ep v => Sys2Proof.Machine.execMbxS2hRelease ep v s
  | .mbxS2hMaskWrite n v => Sys2Proof.Machine.execMbxS2hMaskWrite n v s
  | .storageCommandFetch ctl sqid entry ranges => Sys2Proof.Machine.execStorageCommandFetch ctl sqid entry ranges s
  | .nvmeDeleteIoSq ctl entry => Sys2Proof.Machine.execNvmeDeleteIoSq ctl entry s
  | .nvmeCreateIoSq ctl entry => Sys2Proof.Machine.execNvmeCreateIoSq ctl entry s
  | .nvmeGetLogPage ctl entry => Sys2Proof.Machine.execNvmeGetLogPage ctl entry s
  | .nvmeDeleteIoCq ctl entry => Sys2Proof.Machine.execNvmeDeleteIoCq ctl entry s
  | .nvmeCreateIoCq ctl entry => Sys2Proof.Machine.execNvmeCreateIoCq ctl entry s
  | .nvmeIdentify ctl entry => Sys2Proof.Machine.execNvmeIdentify ctl entry s
  | .nvmeAbort ctl entry => Sys2Proof.Machine.execNvmeAbort ctl entry s
  | .nvmeSetFeatures ctl entry => Sys2Proof.Machine.execNvmeSetFeatures ctl entry s
  | .nvmeGetFeatures ctl entry => Sys2Proof.Machine.execNvmeGetFeatures ctl entry s
  | .nvmeAsyncEventRequest ctl entry => Sys2Proof.Machine.execNvmeAsyncEventRequest ctl entry s
  | .nvmeFlush ctl sqid cid => Sys2Proof.Machine.execNvmeFlush ctl sqid cid s
  | .nvmeWrite ctl sqid cid ok data => Sys2Proof.Machine.execNvmeWrite ctl sqid cid ok data s
  | .nvmeRead ctl sqid cid ok => Sys2Proof.Machine.execNvmeRead ctl sqid cid ok s
  | .nvmeWriteZeroes ctl sqid cid => Sys2Proof.Machine.execNvmeWriteZeroes ctl sqid cid s
  | .nvmeDatasetManagement ctl sqid cid => Sys2Proof.Machine.execNvmeDatasetManagement ctl sqid cid s
  | .nvmeCcWrite ctl v => Sys2Proof.Machine.execNvmeCcWrite ctl v s
  | .targetResponseRx ctl sqid cid status data => Sys2Proof.Machine.execTargetResponseRx ctl sqid cid status data s
  | .ioTimeout ctl sqid cid => Sys2Proof.Machine.execIoTimeout ctl sqid cid s
  | .pathConnectAttempt tgt path => Sys2Proof.Machine.execPathConnectAttempt tgt path s
  | .pathLive tgt path vwc remote => Sys2Proof.Machine.execPathLive tgt path vwc remote s
  | .storagePathDown tgt path => Sys2Proof.Machine.execStoragePathDown tgt path s
  | .keepAliveSend tgt path => Sys2Proof.Machine.execKeepAliveSend tgt path s
  | .nsLossTimeout ns => Sys2Proof.Machine.execNsLossTimeout ns s
  | .cnpRx tgt path => Sys2Proof.Machine.execCnpRx tgt path s
  | .pacingRecovery tgt path => Sys2Proof.Machine.execPacingRecovery tgt path s
  | .mirrorTrainingAttempt => Sys2Proof.Machine.execMirrorTrainingAttempt s
  | .mirrorTrainingTimeout => Sys2Proof.Machine.execMirrorTrainingTimeout s
  | .mirrorHalfUp half => Sys2Proof.Machine.execMirrorHalfUp half s
  | .mirrorHalfDown half => Sys2Proof.Machine.execMirrorHalfDown half s
  | .mirrorRetransmit => Sys2Proof.Machine.execMirrorRetransmit s
  | .heartbeatRx hb ack txPrev rxPrev sub => Sys2Proof.Machine.execHeartbeatRx hb ack txPrev rxPrev sub s
  | .boundaryRecord v => Sys2Proof.Machine.execBoundaryRecord v s
  | .ordWrite tick table delete record => Sys2Proof.Machine.execOrdWrite tick table delete record s
  | .verWrite tick table delete record => Sys2Proof.Machine.execVerWrite tick table delete record s
  | .plan kind version tick => Sys2Proof.Machine.execPlan kind version tick s
  | .flow index delete bytes => Sys2Proof.Machine.execFlow index delete bytes s
  | .channel channel words => Sys2Proof.Machine.execChannel channel words s
  | .ctr ctx hwm => Sys2Proof.Machine.execCtr ctx hwm s
  | .context ctx destroy image => Sys2Proof.Machine.execContext ctx destroy image s
  | .gate bytes => Sys2Proof.Machine.execGate bytes s
  | .cut answer status id tick tag => Sys2Proof.Machine.execCut answer status id tick tag s
  | .migration bytes => Sys2Proof.Machine.execMigration bytes s
  | .hbmWrite hda bytes => Sys2Proof.Machine.execHbmWrite hda bytes s
  | .leader sideB => Sys2Proof.Machine.execLeader sideB s
  | .end_ count => Sys2Proof.Machine.execEnd count s
  | .syncReq mirrorIn pairId => Sys2Proof.Machine.execSyncReq mirrorIn pairId s
  | .syncData part offset bytes => Sys2Proof.Machine.execSyncData part offset bytes s
  | .syncDone gen size => Sys2Proof.Machine.execSyncDone gen size s
  | .mirSwap => Sys2Proof.Machine.execMirSwap s
  | .mirForceTakeover => Sys2Proof.Machine.execMirForceTakeover s
  | .mirLeave => Sys2Proof.Machine.execMirLeave s
  | .partnerStatusResponse status serial => Sys2Proof.Machine.execPartnerStatusResponse status serial s
  | .partnerPollTimeout => Sys2Proof.Machine.execPartnerPollTimeout s
  | .helloSend => Sys2Proof.Machine.execHelloSend s
  | .hello port device hops traceable parent => Sys2Proof.Machine.execHello port device hops traceable parent s
  | .neighbourLost port => Sys2Proof.Machine.execNeighbourLost port s
  | .domainSyncSend port => Sys2Proof.Machine.execDomainSyncSend port s
  | .sync port t1 sub => Sys2Proof.Machine.execSync port t1 sub s
  | .delayReq port source sub => Sys2Proof.Machine.execDelayReq port source sub s
  | .delayResp port t4 => Sys2Proof.Machine.execDelayResp port t4 s
  | .cutPlan port source seq tick tag id => Sys2Proof.Machine.execCutPlan port source seq tick tag id s
  | .cutAnswer port source seq status id => Sys2Proof.Machine.execCutAnswer port source seq status id s
  | .faultReportFrame port source seq cls level subject count first last => Sys2Proof.Machine.execFaultReportFrame port source seq cls level subject count first last s
  | .domainReportWindow cls subject => Sys2Proof.Machine.execDomainReportWindow cls subject s
  | .domainSummaryClose cls subject => Sys2Proof.Machine.execDomainSummaryClose cls subject s
  | .domCutGo v => Sys2Proof.Machine.execDomCutGo v s
  | .statusRead tag => Sys2Proof.Machine.execStatusRead tag s
  | .portHalt tag port => Sys2Proof.Machine.execPortHalt tag port s
  | .sbVersionSelect tag version => Sys2Proof.Machine.execSbVersionSelect tag version s
  | .sbRequestRx bytes => Sys2Proof.Machine.execSbRequestRx bytes s
  | .setEndpointId tag eid => Sys2Proof.Machine.execSetEndpointId tag eid s
  | .getEndpointId tag => Sys2Proof.Machine.execGetEndpointId tag s
  | .getMctpVersionSupport tag => Sys2Proof.Machine.execGetMctpVersionSupport tag s
  | .getMessageTypeSupport tag => Sys2Proof.Machine.execGetMessageTypeSupport tag s
  | .getVendorDefinedMessageSupport tag => Sys2Proof.Machine.execGetVendorDefinedMessageSupport tag s
  | .rstNDeassert => Sys2Proof.Machine.execRstNDeassert s
  | .clockLockRegained domain => Sys2Proof.Machine.execClockLockRegained domain s
  | .prbsCheckerLock lane locked bits errors => Sys2Proof.Machine.execPrbsCheckerLock lane locked bits errors s
  | .tickOutFall => Sys2Proof.Machine.execTickOutFall s
  | .pairSenseDrive low => Sys2Proof.Machine.execPairSenseDrive low s
  | .pairSenseSample present => Sys2Proof.Machine.execPairSenseSample present s
  | .tickInTimeout => Sys2Proof.Machine.execTickInTimeout s
  | .mirrorExportDepart => Sys2Proof.Machine.execMirrorExportDepart s
  | .export_ bytes => Sys2Proof.Machine.execExport bytes s
  | .nvmeShutdownTimeout ctl => Sys2Proof.Machine.execNvmeShutdownTimeout ctl s
  | .pcieLinkError ep error header => Sys2Proof.Machine.execPcieLinkError ep error header s
  | .unexpectedCompletion ep header => Sys2Proof.Machine.execUnexpectedCompletion ep header s
  | .tckEdge rising tms tdi => Sys2Proof.Machine.execTckEdge rising tms tdi s

end Sys2Proof.Machine
end

