-- ==== Sys2Proof/Machine/Step.lean ====
section
/-!
DEFINITION. The step: the command at the front of the queue, or, with none waiting, one beat of the tick that passes.
-/

namespace Sys2Proof.Machine

/-- With no command waiting a beat passes, up to the last of the tick (R53); the tick itself ends by command. -/
def idle (s : State) : State := if s.tmb.beat < 1599 then tmbMod (beatEnd s) (fun t => { t with beat := t.beat + 1 }) else s

/-- The command at the front runs on the state with the queue's rest. -/
def step (s : State) : Host.Outcome State Fault Refusal :=
  match s.pending with
  | [] => .next (idle s)
  | c :: rest => exec c { s with pending := rest }

/-- The command that a word spells goes to the front of the queue. -/
def State.withFetchWord (s : State) (nbits w : Nat) : State :=
  match decodeTableWord nbits w with
  | some c => { s with pending := c :: s.pending }
  | none => s

end Sys2Proof.Machine
end

