-- ==== Sys2Proof/Safety.lean ====
section
/-!
DEFINITION. What a safe state is: the canonical form of the memories the spec gives the device, and the ranges of the counters and
modes that no command may leave.
-/

namespace Sys2Proof.Machine

/-- HBM and NVM hold their bytes in canonical form: addresses strictly rising, and nothing listed that an unlisted address reads as
(0 of HBM, 0xFF of erased NVM). -/
def memoryWf (s : State) : Bool := twf 0#8 s.hbm && twf 0xFF#8 s.board.nvm0 && twf 0xFF#8 s.board.nvm1

/-- The beat is one of the 1,600 of a tick (R53). -/
def beatOk (s : State) : Bool := decide (s.tmb.beat < 1600)

/-- A shedding step of 0 to 3 with its quiet count: 0 to 16, and below 16 while a step is in force (R131). -/
def shedRange (step quiet : Nat) : Bool := decide (step ≤ 3) && decide (quiet ≤ 16) && (decide (step = 0) || decide (quiet < 16))

def shedOk (s : State) : Bool := shedRange s.hbmU.step s.hbmU.quiet

/-- The cipher slab without the requests of the storage unit, which go with the commands of a function that is reset (R440). -/
def ownSlab (c : Cph) : Cph :=
  { c with
    ctxs := tmap c.ctxs (fun _ x => { x with queue := x.queue.filter (fun r => r.disk.isNone) })
    outputs := c.outputs.filter (fun o => o.req.disk.isNone) }

/-- One step stays a next state: nothing stops the device. -/
def stepRuns (s : State) : Prop := ∃ t, step s = .next t

end Sys2Proof.Machine
end

