-- ==== Sys2Proof/WellFormed.lean ====
section
/-!
DEFINITION. Well-formed commands: the operands that a type alone does not bound have the size that the spec gives what they carry.
-/

namespace Sys2Proof

/-- A command entry of an admin or an NVM Express queue is 64 bytes (R482, R421). -/
def entryFits (entry : List Byte) : Bool := entry.length == 64

/-- A TLP header log is 16 bytes (R454). -/
def headerFits (header : List Byte) : Bool := header.length == 16

/-- An access of a BAR writes at least one byte, or reads at most a page (R449). -/
def accessFits : Access → Bool
  | .read len => decide (len ≤ 4096)
  | .write bytes => decide (1 ≤ bytes.length) && decide (bytes.length ≤ 4096)

/-- A report has the level of its class and subject, LINK_DEGRADED L1 or L2 (R551, R557), and names listed units (R23). -/
def reportFits : Option Report → Bool
  | some r => r.listed && (r.level == classLevel r.cls r.subj || (r.cls == .linkDegraded && r.level == 2))
  | none => true

/-- The checks. A command that no line names has no operand that its type does not bound. -/
def Instr.wellFormed : Instr → Bool
  | .adminFetch _ entry | .createQueue _ entry _ | .destroyQueue _ entry _ | .enableQueue _ entry _ | .disableQueue _ entry _
  | .queryQueue _ entry _ | .createVf _ entry _ | .destroyVf _ entry _ | .queryFunction _ entry _ | .stageSlots _ entry _
  | .setDemand _ entry _ | .bindChannel _ entry _ | .unbindChannel _ entry _ | .sendToChannel _ entry _ | .setQueueMin _ entry _
  | .setMeters _ entry _ | .portAdminDown _ entry _ | .portAdminTraining _ entry _ | .portAdminTest _ entry _
  | .portAdminHalt _ entry _ | .portSpeed _ entry _ | .macroPowerDown _ entry _ | .macroPowerUp _ entry _
  | .stageGateList _ entry _ | .tableWrite _ entry _ | .tableDelete _ entry _ | .macInsert _ entry _ | .macMove _ entry _
  | .macDelete _ entry _ | .versionCommit _ entry _ | .versionSelect _ entry _ | .tableRead _ entry _ | .cutRequest _ entry _
  | .cutRead _ entry _ | .timeConfig _ entry _ | .contextCreate _ entry _ | .contextDestroy _ entry _ | .contextSave _ entry _
  | .contextRestore _ entry _ | .vaultLoad _ entry _ | .vaultClear _ entry _ | .namespaceSet _ entry _ | .engineSelftest _ entry _
  | .slabTest _ entry _ | .hbmRetire _ entry _ | .nvmRead _ entry _ | .nvmWrite _ entry _ | .ownerKeyProgram _ entry _
  | .ownerKeyRevoke _ entry _ | .deviceReset _ entry _ | .storageCommandFetch _ _ entry _ | .nvmeDeleteIoSq _ entry
  | .nvmeCreateIoSq _ entry | .nvmeGetLogPage _ entry | .nvmeDeleteIoCq _ entry | .nvmeCreateIoCq _ entry | .nvmeIdentify _ entry
  | .nvmeAbort _ entry | .nvmeSetFeatures _ entry | .nvmeGetFeatures _ entry | .nvmeAsyncEventRequest _ entry => entryFits entry
  | .faultAck (.admin _ entry) => entryFits entry
  | .pcieLinkError _ _ header | .unexpectedCompletion _ header => headerFits header
  | .barMemoryRequest _ _ _ access => accessFits access
  | .faultReport report => reportFits report
  | .flow _ _ bytes | .hbmWrite _ bytes => bytes.length == 64
  | .dmaDescriptorStart _ bytes => bytes.length == 64
  | .context _ _ image => image.length == 136
  | _ => true

end Sys2Proof
end

