-- ==== Sys2Proof/Certificates/Slice0/Obligations.lean ====
section
/-!
DEFINITION. The statements, with what they are said in: helpers of namespace Sys2Proof.Spec, parts of merged
statements among them.
-/

namespace Sys2Proof.Spec
open Sys2Proof.Machine

/-! ## Slazer instructions -/

/-- Thread `t` of engine `e` runs batch `b`, which issues its next instruction: it has not reached its commit point,
its slot has not ended, and the instruction word is good (R79, R83, R358). -/
def Issues (s : State) (e : Fin 96) (t : Fin 8) (b : Batch) : Prop :=
  batchOf s e t = some b ∧ b.committed = none ∧ b.slot < b.slotStart + b.slotLen ∧
  b.pc ∉ (clusterOf s (e.val / 12)).imemBad

/-- The instruction memory of the engine's cluster holds word `w` at the batch's pc: an instruction issues only where it stands in
the memory that the Recipe loaded (R3, R381). -/
def fetches (s : State) (e : Fin 96) (b : Batch) (w : W48) : Prop :=
  tgetD (clusterOf s (e.val / 12)).imem b.pc 0#48 = w

/-- The instruction has issued: `n` issue slots have passed and the thread's batch is `b'`; nothing else changed. -/
def issued (s : State) (e : Fin 96) (t : Fin 8) (b : Batch) (n : Nat) (b' : Batch) : State :=
  batchPut s e t (some { b' with slot := b.slot + n })

/-- A general register read: g0 reads 0 (R364). -/
def reg (b : Batch) (r : Fin 32) : W48 := if r = 0 then 0#48 else b.regs.getD r 0#48

/-- The batch after a register write that goes on to the next instruction: g0 discards it (R364); the loops of R383
decide which instruction is next. -/
def wrote (b : Batch) (r : Fin 32) (v : W48) : Batch :=
  { b with regs := if r = 0 then b.regs else b.regs.set r v
           pc := (fallFrom b.loops b.pc).1, loops := (fallFrom b.loops b.pc).2 }

/-- The batch at the next instruction, or at a branch target (R383). -/
def nextPc (b : Batch) : Batch := { b with pc := (fallFrom b.loops b.pc).1, loops := (fallFrom b.loops b.pc).2 }
def branched (b : Batch) (target : Nat) : Batch :=
  { b with pc := (jumpFrom b.loops target).1, loops := (jumpFrom b.loops target).2 }

/-- 1 for true and 0 for false. -/
def truth (c : Bool) : W48 := if c then 1#48 else 0#48

/-- What a half mode writes: mode 1 the low 24 bits, mode 2 the high, mode 3 both halves on their own; what the mode
does not write keeps its value (R364). -/
def halfWrite (h : Fin 4) (old : W48) (op : W24 → W24 → W24) (x y : W48) : W48 :=
  let lo := op (x.extractLsb' 0 24) (y.extractLsb' 0 24)
  let hi := op (x.extractLsb' 24 24) (y.extractLsb' 24 24)
  (if h = 1 then old.extractLsb' 24 24 else hi) ++ (if h = 2 then old.extractLsb' 0 24 else lo)

end Sys2Proof.Spec

open Sys2Proof Sys2Proof.Machine Sys2Proof.Spec

/-- The register-to-register instructions in FULL mode (R367): the destination register, the next pc, and the issue
slots; nothing else changes. -/
def Sys2Proof.Spec.IsaRegisterFull : Prop :=
  ∀ (s : State) (e : Fin 96) (t : Fin 8) (b : Batch) (f : RR), Issues s e t b → f.h = 0 → f.zero = 0#23 →
    let x := reg b f.ra
    let y := reg b f.rb
    let sh := y.toNat % 64
    let put := fun (n : Nat) (v : W48) => (.next (issued s e t b n (wrote b f.rd v)) : Result)
    (fetches s e b (f.word 0x10) → exec (.add e t f) s = put 1 (x + y)) ∧
    (fetches s e b (f.word 0x11) → exec (.sub e t f) s = put 1 (x - y)) ∧
    (fetches s e b (f.word 0x12) → exec (.and_ e t f) s = put 1 (x &&& y)) ∧
    (fetches s e b (f.word 0x13) → exec (.or_ e t f) s = put 1 (x ||| y)) ∧
    (fetches s e b (f.word 0x14) → exec (.xor e t f) s = put 1 (x ^^^ y)) ∧
    (fetches s e b (f.word 0x15) → exec (.andn e t f) s = put 1 (x &&& ~~~y)) ∧
    (fetches s e b (f.word 0x16) → exec (.shl e t f) s = put 1 (x <<< sh)) ∧
    (fetches s e b (f.word 0x17) → exec (.shr e t f) s = put 1 (x >>> sh)) ∧
    (fetches s e b (f.word 0x18) → exec (.sar e t f) s = put 1 (x.sshiftRight sh)) ∧
    (fetches s e b (f.word 0x19) → exec (.mul e t f) s = put 2 (x * y)) ∧
    (fetches s e b (f.word 0x1A) → exec (.minu e t f) s = put 1 (if x.toNat ≤ y.toNat then x else y)) ∧
    (fetches s e b (f.word 0x1B) → exec (.maxu e t f) s = put 1 (if x.toNat ≤ y.toNat then y else x)) ∧
    (fetches s e b (f.word 0x1C) → exec (.seq e t f) s = put 1 (truth (x == y))) ∧
    (fetches s e b (f.word 0x1D) → exec (.slt e t f) s = put 1 (truth (x.slt y))) ∧
    (fetches s e b (f.word 0x1E) → exec (.sltu e t f) s = put 1 (truth (x.ult y))) ∧
    (fetches s e b (f.word 0x1F) → exec (.sel e t f) s = put 1 (if reg b f.rd = 0#48 then y else x)) ∧
    (f.rd = 0 → f.ra = 0 → f.rb = 0 → fetches s e b (f.word 0x01) → exec (.nop e t f) s = .next (issued s e t b 1 (nextPc b)))

/-- The register-to-register instructions in the half modes (R364, R367): each half is computed on its own, with 5-bit
shift amounts; a half that the mode does not write keeps its value. -/
def Sys2Proof.Spec.IsaRegisterHalves : Prop :=
  ∀ (s : State) (e : Fin 96) (t : Fin 8) (b : Batch) (f : RR), Issues s e t b → f.h ≠ 0 → f.zero = 0#23 →
    let put := fun (op : W24 → W24 → W24) =>
      (.next (issued s e t b 1 (wrote b f.rd (halfWrite f.h (reg b f.rd) op (reg b f.ra) (reg b f.rb)))) : Result)
    let flag := fun (c : Bool) => if c then 1#24 else 0#24
    (fetches s e b (f.word 0x10) → exec (.add e t f) s = put (fun x y => x + y)) ∧
    (fetches s e b (f.word 0x11) → exec (.sub e t f) s = put (fun x y => x - y)) ∧
    (fetches s e b (f.word 0x12) → exec (.and_ e t f) s = put (fun x y => x &&& y)) ∧
    (fetches s e b (f.word 0x13) → exec (.or_ e t f) s = put (fun x y => x ||| y)) ∧
    (fetches s e b (f.word 0x14) → exec (.xor e t f) s = put (fun x y => x ^^^ y)) ∧
    (fetches s e b (f.word 0x15) → exec (.andn e t f) s = put (fun x y => x &&& ~~~y)) ∧
    (fetches s e b (f.word 0x16) → exec (.shl e t f) s = put (fun x y => x <<< (y.toNat % 32))) ∧
    (fetches s e b (f.word 0x17) → exec (.shr e t f) s = put (fun x y => x >>> (y.toNat % 32))) ∧
    (fetches s e b (f.word 0x18) → exec (.sar e t f) s = put (fun x y => x.sshiftRight (y.toNat % 32))) ∧
    (fetches s e b (f.word 0x1A) → exec (.minu e t f) s = put (fun x y => if x.toNat ≤ y.toNat then x else y)) ∧
    (fetches s e b (f.word 0x1B) → exec (.maxu e t f) s = put (fun x y => if x.toNat ≤ y.toNat then y else x)) ∧
    (fetches s e b (f.word 0x1C) → exec (.seq e t f) s = put (fun x y => flag (x == y))) ∧
    (fetches s e b (f.word 0x1D) → exec (.slt e t f) s = put (fun x y => flag (x.slt y))) ∧
    (fetches s e b (f.word 0x1E) → exec (.sltu e t f) s = put (fun x y => flag (x.ult y)))

/-- The immediate instructions (R368): in FULL mode IMM is sign-extended by ADDI and MOVI and zero-extended by the
others; in the half modes it is the operand of each half. -/
def Sys2Proof.Spec.IsaImmediates : Prop :=
  ∀ (s : State) (e : Fin 96) (t : Fin 8) (b : Batch) (f : RI), Issues s e t b → f.zero = 0#4 →
    let x := reg b f.ra
    let put := fun (v : W48) => (.next (issued s e t b 1 (wrote b f.rd v)) : Result)
    let half := fun (op : W24 → W24 → W24) => put (halfWrite f.h (reg b f.rd) op x (f.imm ++ f.imm))
    let flag := fun (c : Bool) => if c then 1#24 else 0#24
    let z := f.imm.setWidth 48
    let sh := f.imm.toNat
    (f.h = 0 →
      (fetches s e b (f.word 0x20) → exec (.addi e t f) s = put (x + f.imm.signExtend 48)) ∧
      (fetches s e b (f.word 0x21) → exec (.andi e t f) s = put (x &&& z)) ∧
      (fetches s e b (f.word 0x22) → exec (.ori e t f) s = put (x ||| z)) ∧
      (fetches s e b (f.word 0x23) → exec (.xori e t f) s = put (x ^^^ z)) ∧
      (fetches s e b (f.word 0x24) → exec (.shli e t f) s = put (x <<< (sh % 64))) ∧
      (fetches s e b (f.word 0x25) → exec (.shri e t f) s = put (x >>> (sh % 64))) ∧
      (fetches s e b (f.word 0x26) → exec (.sari e t f) s = put (x.sshiftRight (sh % 64))) ∧
      (fetches s e b (f.word 0x27) → exec (.seqi e t f) s = put (truth (x == z))) ∧
      (fetches s e b (f.word 0x28) → exec (.sltui e t f) s = put (truth (x.ult z))) ∧
      (f.ra = 0 → fetches s e b (f.word 0x29) → exec (.movi e t f) s = put (f.imm.signExtend 48))) ∧
    (f.h ≠ 0 →
      (fetches s e b (f.word 0x20) → exec (.addi e t f) s = half (fun x y => x + y)) ∧
      (fetches s e b (f.word 0x21) → exec (.andi e t f) s = half (fun x y => x &&& y)) ∧
      (fetches s e b (f.word 0x22) → exec (.ori e t f) s = half (fun x y => x ||| y)) ∧
      (fetches s e b (f.word 0x23) → exec (.xori e t f) s = half (fun x y => x ^^^ y)) ∧
      (fetches s e b (f.word 0x24) → exec (.shli e t f) s = half (fun x y => x <<< (y.toNat % 32))) ∧
      (fetches s e b (f.word 0x25) → exec (.shri e t f) s = half (fun x y => x >>> (y.toNat % 32))) ∧
      (fetches s e b (f.word 0x26) → exec (.sari e t f) s = half (fun x y => x.sshiftRight (y.toNat % 32))) ∧
      (fetches s e b (f.word 0x27) → exec (.seqi e t f) s = half (fun x y => flag (x == y))) ∧
      (fetches s e b (f.word 0x28) → exec (.sltui e t f) s = half (fun x y => flag (x.ult y))) ∧
      (f.ra = 0 → fetches s e b (f.word 0x29) → exec (.movi e t f) s = half (fun _ y => y)))

/-- The register and immediate instructions: in FULL mode, in the half modes, and with an immediate. -/
def Obligations.IsaRegisters : Prop := Spec.IsaRegisterFull ∧ Spec.IsaRegisterHalves ∧ Spec.IsaImmediates

/-- The bit-field instructions, TIME and BEAT (R367, R368): each writes only rd. -/
def Obligations.IsaBitFields : Prop :=
  ∀ (s : State) (e : Fin 96) (t : Fin 8) (b : Batch) (f : XF), Issues s e t b → f.rb = 0 →
    let x := reg b f.ra
    let old := reg b f.rd
    let put := fun (n : Nat) (v : W48) => (.next (issued s e t b n (wrote b f.rd v)) : Result)
    let pos := f.imm.toNat % 64
    let width := f.imm.toNat / 64
    (1 ≤ width → pos + width ≤ 48 →
      let mask := BitVec.ofNat 48 ((2 ^ width - 1) * 2 ^ pos)
      (fetches s e b (f.word 0x30) → exec (.ext e t f) s = put 1 ((x >>> pos) &&& BitVec.ofNat 48 (2 ^ width - 1))) ∧
      (fetches s e b (f.word 0x31) → exec (.ins e t f) s = put 1 ((old &&& ~~~mask) ||| ((x <<< pos) &&& mask)))) ∧
    (f.imm = 0#25 →
      (fetches s e b (f.word 0x32) → ∃ n, exec (.clz e t f) s = put 1 (BitVec.ofNat 48 n) ∧ n ≤ 48 ∧ (∀ i < n, x.getMsbD i = false) ∧
        (n < 48 → x.getMsbD n = true)) ∧
      (fetches s e b (f.word 0x33) → exec (.popc e t f) s = put 1 (BitVec.ofNat 48 ((List.range 48).countP (fun i => x.getLsbD i)))) ∧
      (fetches s e b (f.word 0x34) → exec (.bswap e t f) s = put 1 (BitVec.ofNat 48 (leVal (beBytes 6 x.toNat)))) ∧
      (fetches s e b (f.word 0x35) → exec (.hash e t f) s = put 2 ((crcFrom (old.setWidth 32) (leBytes 6 x.toNat)).setWidth 48)) ∧
      (f.ra = 0 → (fetches s e b (f.word 0x75) → exec (.time e t f) s = put 1 (s.tmb.tick.setWidth 48)) ∧
        (fetches s e b (f.word 0x76) → exec (.beat e t f) s = put 1 (BitVec.ofNat 48 ((8 * b.slot + t.val) * 4 / 5)))))

/-- The branches (R367, R383): taken to pc + 1 + DISP, and otherwise on to the next instruction; they write no
register. -/
def Sys2Proof.Spec.IsaBranches : Prop :=
  ∀ (s : State) (e : Fin 96) (t : Fin 8) (b : Batch) (f : BF), Issues s e t b → f.zero = 0#5 →
    let x := reg b f.ra
    let y := reg b f.rb
    let go := fun (c : Prop) [Decidable c] =>
      (.next (issued s e t b 1 (if c then branched b (b.pc + 1 + f.disp.toNat) else nextPc b)) : Result)
    (f.mid = 0#10 →
      (f.ra = 0 → f.rb = 0 → fetches s e b (f.word 0x80) → exec (.br e t f) s = go True) ∧
      (fetches s e b (f.word 0x81) → exec (.beq e t f) s = go (x = y)) ∧
      (fetches s e b (f.word 0x82) → exec (.bne e t f) s = go (x ≠ y)) ∧
      (fetches s e b (f.word 0x83) → exec (.blt e t f) s = go (x.toInt < y.toInt)) ∧
      (fetches s e b (f.word 0x84) → exec (.bltu e t f) s = go (x.toNat < y.toNat)) ∧
      (fetches s e b (f.word 0x85) → exec (.bge e t f) s = go (y.toInt ≤ x.toInt)) ∧
      (fetches s e b (f.word 0x86) → exec (.bgeu e t f) s = go (y.toNat ≤ x.toNat))) ∧
    (f.mid.extractLsb' 0 9 = 0#9 →
      let bit := (BitVec.ofNat 5 f.rb.val ++ f.mid.extractLsb' 9 1).toNat
      bit < 48 →
      (fetches s e b (f.word 0x87) → exec (.bbs e t f) s = go (x.getLsbD bit = true)) ∧
      (fetches s e b (f.word 0x88) → exec (.bbc e t f) s = go (x.getLsbD bit = false)))

/-- LOOP, JT and COMMIT (R79, R380, R382, R383): LOOP runs its body COUNT times; JT jumps to an entry of the
program's table; COMMIT is the batch's commit point: what it took and did not dispose of goes back, the messages it
took leave the inbox, and the engine's BATCHES counts one. -/
def Sys2Proof.Spec.IsaLoopJumpCommit : Prop :=
  ∀ (s : State) (e : Fin 96) (t : Fin 8) (b : Batch), Issues s e t b →
    (∀ f : LF, f.zero = 0#17 → f.count ≠ 0#8 → f.body ≠ 0#15 →
      fetches s e b (f.word 0x89) → exec (.loop e t f) s = .next (issued s e t b 1 { b with
        pc := b.pc + 1
        loops := { first := b.pc + 1, last := b.pc + f.body.toNat, left := f.count.toNat } :: b.loops })) ∧
    (∀ (f : XF) (p : Program) (x : Nat), f.rd = 0 → f.rb = 0 → f.imm.toNat < 256 →
      tget (clusterOf s (e.val / 12)).programs b.program = some p →
      (tgetD p.tables f.imm.toNat [])[(reg b f.ra).toNat]? = some x →
      fetches s e b (f.word 0x8A) → exec (.jt e t f) s = .next (issued s e t b 2 (branched b (b.entry + x)))) ∧
    (∀ f : RR, f = ⟨0, 0, 0, 0, 0#23⟩ → b.doomed = false → b.handles = [] →
      fetches s e b (f.word 0x8F) → exec (.commit e t f) s = .next (issued
        (engineMod (channelMod s b.channel (fun c => { c with inbox := c.inbox.drop b.msgs })) e
          (fun x => { x with batches := x.batches + 1#64 }))
        e t b 1 { b with committed := some s.tmb.tick.toNat })) ∧
    (∀ (f : RR) (c : Channel), f = ⟨0, 0, 0, 0, 0#23⟩ → b.doomed = false → b.channel < 0x1000000 →
      channelOf s b.channel = some c →
      fetches s e b (f.word 0x8F) → ∃ u, exec (.commit e t f) s = .next u ∧
        u = { s with crb := { s.crb with pkts := u.crb.pkts },
                     eng := { s.eng with engines := u.eng.engines, channels := u.eng.channels, threads := u.eng.threads } } ∧
        batchOf u e t = some { b with handles := [], committed := some s.tmb.tick.toNat, slot := b.slot + 1 } ∧
        (engineOf u e).batches = (engineOf s e).batches + 1#64 ∧
        channelOf u b.channel = some { c with
          inbox := c.inbox.drop b.msgs
          fifo := ((b.taken.filter (fun x => x.2.isNone && b.handles.any (fun h => h.2.pkt == x.1))).map (·.1)) ++ c.fifo })

/-- The control instructions: branches, and LOOP, JT and COMMIT. -/
def Obligations.IsaControl : Prop := Spec.IsaBranches ∧ Spec.IsaLoopJumpCommit

namespace Sys2Proof.Spec
open Sys2Proof.Machine

/-- RA + OFF as LDL, STL, LDS and STS use it: over 48 bits, OFF zero-extended (R369). -/
def address (b : Batch) (f : MF) : Nat := (reg b f.ra + f.off.setWidth 48).toNat

/-- Word `a` of local memory as the batch sees it: its own write, else CTX, else the result window, else PROGRAM_AREA
(R339, R341). -/
def localWord (s : State) (e : Fin 96) (t : Fin 8) (b : Batch) (a : Nat) : W48 :=
  (tget b.localW a).getD
    (if a < 16 then b.ctx.getD a 0#48 else if a < 80 then b.window.getD (a - 16) 0#48
     else tgetD (threadOf s e t).area a 0#48)

/-- `n` local words from `a` on. -/
def localRun (s : State) (e : Fin 96) (t : Fin 8) (b : Batch) (a n : Nat) : List W48 :=
  (List.range n).map (fun i => localWord s e t b (a + i))

/-- A handle of the batch. -/
def handle (b : Batch) (h : Fin 16) : Option Handle := tget b.handles h.val

/-- A batch whose handle has given its packet a disposition (R372). -/
def disposed (b : Batch) (h : Fin 16) (x : PktEffect) : Batch :=
  { b with handles := tdel b.handles h.val, packets := b.packets ++ [x] }

end Sys2Proof.Spec

/-- LDL, STL, LDS and STS inside their memories (R339-R341, R350, R369): a load writes rd, a store is staged in the
batch, and shared memory costs four issue slots from outside the home cluster. -/
def Sys2Proof.Spec.IsaMemoryInside : Prop :=
  ∀ (s : State) (e : Fin 96) (t : Fin 8) (b : Batch) (f : MF), Issues s e t b → f.zero = 0#10 →
    let a := address b f
    let n := if b.remote then 4 else 1
    (a < 8192 → fetches s e b (f.word 0x40) → exec (.ldl e t f) s = .next (issued s e t b 1 (wrote b f.rd (localWord s e t b a)))) ∧
    (16 ≤ a → a < 8192 → b.nLocal < 512 → fetches s e b (f.word 0x41) → exec (.stl e t f) s = .next (issued s e t b 1
      (nextPc { b with localW := tset b.localW a (reg b f.rd), nLocal := b.nLocal + 1 }))) ∧
    (a < 1048576 → a ∉ (clusterOf s b.cluster).lost ∨ tget b.sharedW a ≠ none →
      fetches s e b (f.word 0x42) → exec (.lds e t f) s = .next (issued s e t b n { wrote b f.rd ((tget b.sharedW a).getD
        (if a < 65536 then inboxWord s b.cluster a else tgetD (clusterOf s b.cluster).shared a 0#48)) with
          read := a :: b.read })) ∧
    (65536 ≤ a → a < 1048576 → b.nShared < 128 → fetches s e b (f.word 0x43) → exec (.sts e t f) s = .next (issued s e t b n
      (nextPc { b with sharedW := tset b.sharedW a (reg b f.rd), nShared := b.nShared + 1 })))

/-- A memory instruction outside its memory, a store to CTX or to an inbox, and a store beyond a batch's staged words
are thread faults with causes ADDRESS and LIMIT; a load of a lost shared word discards the batch (R341, R350, R356,
R357). -/
def Sys2Proof.Spec.IsaMemoryFaults : Prop :=
  ∀ (s : State) (e : Fin 96) (t : Fin 8) (b : Batch) (f : MF), Issues s e t b → f.zero = 0#10 →
    let a := address b f
    (8192 ≤ a → fetches s e b (f.word 0x40) → exec (.ldl e t f) s = .next (threadFault s e t 0x02)) ∧
    (a < 16 ∨ 8192 ≤ a → fetches s e b (f.word 0x41) → exec (.stl e t f) s = .next (threadFault s e t 0x02)) ∧
    (16 ≤ a → a < 8192 → 512 ≤ b.nLocal → fetches s e b (f.word 0x41) → exec (.stl e t f) s = .next (threadFault s e t 0x03)) ∧
    (1048576 ≤ a → fetches s e b (f.word 0x42) → exec (.lds e t f) s = .next (threadFault s e t 0x02)) ∧
    (a < 65536 ∨ 1048576 ≤ a → fetches s e b (f.word 0x43) → exec (.sts e t f) s = .next (threadFault s e t 0x02)) ∧
    (65536 ≤ a → a < 1048576 → 128 ≤ b.nShared → fetches s e b (f.word 0x43) → exec (.sts e t f) s = .next (threadFault s e t 0x03)) ∧
    (a < 1048576 → a ∈ (clusterOf s b.cluster).lost → tget b.sharedW a = none →
      fetches s e b (f.word 0x42) → exec (.lds e t f) s = .next (batchDiscard s e t))

/-- LDL, STL, LDS and STS: inside their memories, and where they fault. -/
def Obligations.IsaMemory : Prop := Spec.IsaMemoryInside ∧ Spec.IsaMemoryFaults

/-- TAKE, TAKEK, LDK, LDP, STP, KEEP, RLS and DROP (R370-R372). -/
def Sys2Proof.Spec.IsaPacketHandles : Prop :=
  ∀ (s : State) (e : Fin 96) (t : Fin 8) (b : Batch) (f : PF) (h : Handle) (p : Packet),
    Issues s e t b → f.zero = 0#2 →
    let next := fun (n : Nat) (b' : Batch) => (.next (issued s e t b n b') : Result)
    let filled := fun (kept : Option Nat) => wrote { b with
      handles := tset b.handles f.handle.val { pkt := h.pkt, bytes := p.bytes ++ leBytes 4 p.fcs.toNat, keptFrom := kept }
      taken := b.taken ++ [(h.pkt, kept)] } f.rd (BitVec.ofNat 48 (p.bytes.length + 4))
    let offset := (reg b f.ra + BitVec.ofNat 48 (f.imm.toNat % 2 ^ 14)).toNat
    (f.ra = 0 → f.imm = 0#24 → handle b f.handle = none →
      (fifoOf s b.channel = [] → fetches s e b (f.word 0x50) → exec (.take e t f) s = next 2 (wrote b f.rd 0#48)) ∧
      (∀ rest, fifoOf s b.channel = h.pkt :: rest → pktOf s h.pkt = some p → b.taken.length < 16 →
        fetches s e b (f.word 0x50) → exec (.take e t f) s = .next (issued
          (pktMod (fifoSet s b.channel rest) h.pkt (fun p => { p with stage := .handle b.channel f.handle.val }))
          e t b 2 (filled none)))) ∧
    (f.ra = 0 → f.imm.toNat < 64 → handle b f.handle = none →
      (keptAt s b f.imm.toNat = none → fetches s e b (f.word 0x51) → exec (.takek e t f) s = next 1 (wrote b f.rd 0#48)) ∧
      (keptAt s b f.imm.toNat = some h.pkt → pktOf s h.pkt = some p → b.taken.length < 16 →
        fetches s e b (f.word 0x51) → exec (.takek e t f) s = .next (issued
          (pktMod s h.pkt (fun p => { p with stage := .handle b.channel f.handle.val }))
          e t b 1 (filled (some f.imm.toNat))))) ∧
    (handle b f.handle = some h →
      (f.ra = 0 → f.imm.toNat < 64 → pktOf s h.pkt = some p →
        fetches s e b (f.word 0x52) → exec (.ldk e t f) s = next 1 (wrote b f.rd (p.kv.getD f.imm.toNat 0#48))) ∧
      (f.imm.toNat < 2 ^ 14 →
        fetches s e b (f.word 0x53) → exec (.ldp e t f) s = next 2 (wrote b f.rd (BitVec.ofNat 48 (beVal (slice h.bytes offset 6))))) ∧
      (f.imm.toNat / 2 ^ 14 < 6 →
        let h' := { h with bytes := patch h.bytes offset (beBytes (f.imm.toNat / 2 ^ 14 + 1) (reg b f.rd).toNat) }
        (fetches s e b (f.word 0x54) → exec (.stp e t f) s = next 1 (nextPc { b with handles := tset b.handles f.handle.val h' }))) ∧
      (∀ k, f.ra = 0 → f.imm = 0#24 → k < 64 → keptBusy s b h.pkt k = false → (∀ j < k, keptBusy s b h.pkt j = true) →
        fetches s e b (f.word 0x55) → exec (.keep e t f) s =
          next 1 (wrote (disposed b f.handle (.keep h.pkt h.bytes k f.handle.val)) f.rd (BitVec.ofNat 48 k))) ∧
      (∀ es, f.rd = 0 → f.imm.toNat < 2 ^ 14 →
        (if f.imm.getLsbD 13 then editsFrom s e t b 8 (f.imm.toNat % 2 ^ 13) = some es else es = []) →
        fetches s e b (f.word 0x56) → exec (.rls e t f) s =
          next 1 (nextPc (disposed b f.handle (.release h.pkt h.bytes ((reg b f.ra).setWidth 32) es)))) ∧
      (f.rd = 0 → f.ra = 0 → f.imm.toNat < 256 →
        fetches s e b (f.word 0x57) → exec (.drop e t f) s = next 1 (nextPc (disposed b f.handle (.drop h.pkt f.imm.toNat)))))

/-- EMIT (R373): a descriptor that fails its checks counts; else the frame's bytes are the local words' bytes from the
most significant on, or the handle's frame less its FCS; the emit is staged, a consumed handle is given up, and the F256
variant has slices 0 to 7. -/
def Sys2Proof.Spec.IsaEmit : Prop :=
  ∀ (s : State) (e : Fin 96) (t : Fin 8) (b : Batch) (f : PF), Issues s e t b → f.zero = 0#2 → f.rd = 0 → f.ra = 0 →
    f.handle = 0 → f.imm.toNat + 3 ≤ 8192 →
    let w0 := (localWord s e t b f.imm.toNat).toNat
    let w1 := (localWord s e t b (f.imm.toNat + 1)).toNat
    let w2 := (localWord s e t b (f.imm.toNat + 2)).toNat
    let bytes := w1 / 2 ^ 13 % 2 ^ 14
    let staged := fun (bs : List Byte) (es : List Edit) =>
      let x : Emit := { slice := if s.board.f256 then w0 % 8 else w0 % 16, startSel := w0 / 16 % 16,
                        tenant := w0 / 256 % 65536, bytes := bs, edits := es }
      { b with emits := b.emits + 1, packets := b.packets ++ [.emit x] }
    let next := fun (b' : Batch) => (.next (issued s e t b 2 (nextPc b')) : Result)
    (emitOk w0 w1 w2 = false → fetches s e b (f.word 0x58) → exec (.emit e t f) s = next { b with emitFails := b.emitFails + 1 }) ∧
    (∀ es, emitOk w0 w1 w2 = true → b.emits < 16 →
      (if w2 / 2 ^ 13 % 2 = 1 then editsFrom s e t b 8 (w2 % 2 ^ 13) = some es else es = []) →
      (w0 / 2 ^ 28 % 4 = 0 →
        fetches s e b (f.word 0x58) → exec (.emit e t f) s = next (staged
          (((localRun s e t b (w1 % 2 ^ 13) ((bytes + 5) / 6)).flatMap (fun w => beBytes 6 w.toNat)).take bytes) es)) ∧
      (∀ h, tget b.handles (w0 / 2 ^ 24 % 16) = some h →
        (w0 / 2 ^ 28 % 4 = 1 →
          fetches s e b (f.word 0x58) → exec (.emit e t f) s = next (staged (h.bytes.take (h.bytes.length - 4)) es)) ∧
        (w0 / 2 ^ 28 % 4 = 3 →
          fetches s e b (f.word 0x58) → exec (.emit e t f) s = next (disposed (staged (h.bytes.take (h.bytes.length - 4)) es)
            (Fin.ofNat 16 (w0 / 2 ^ 24)) (.consumed h.pkt)))))

/-- The packet instructions: handles, bytes and dispositions, and EMIT. -/
def Obligations.IsaPackets : Prop := Spec.IsaPacketHandles ∧ Spec.IsaEmit

/-- LKUP (R376): the key in registers, rd and the registers after it take the entry, the version is the batch's or the
packet's, and the lookup is counted when the batch is released, with the packet's length where it names one. -/
def Sys2Proof.Spec.IsaLookup : Prop :=
  ∀ (s : State) (e : Fin 96) (t : Fin 8) (b : Batch) (f : XF) (code : Nat) (h : Fin 16), Issues s e t b → f.rb = 0 →
    code < 7 → f.ra.val + (lkupRegs code).1 ≤ 32 → f.rd.val + (lkupRegs code).2 ≤ 32 →
    let key := (List.range (lkupRegs code).1).map (fun i => regGet b (f.ra.val + i))
    let result := fun (version len : Nat) =>
      let found := lkup s.fwd (versionTables s.dec version) code (key.map BitVec.toNat)
      (.next (issued s e t b (if code < 4 then 8 else 12)
        (nextPc (regSetAll { b with lookups := b.lookups ++ match lkupTable code with
          | some k => [(cTable (lkupSlice s (e.val / 12)) k (if found.2 then 0 else 1), 1, len)]
          | none => [] } f.rd.val found.1))) : Result)
    (f.imm.toNat = code → fetches s e b (f.word 0x60) → exec (.lkup e t f) s = result b.version 0) ∧
    (∀ (x : Handle) (p : Packet), f.imm.toNat = code + 256 + 512 * h.val → handle b h = some x → pktOf s x.pkt = some p →
      fetches s e b (f.word 0x60) → exec (.lkup e t f) s = result p.version (p.bytes.length + 4))

/-- The staged operations (R350, R377-R379): TWR, FRD, FWR, HRD and HWR stage one table operation each, LADD a counter
addition, CSUB a cipher request, SEND a message, ARM a timer; MSGT takes the next inbox message. Nothing outside the
batch changes before its release. -/
def Sys2Proof.Spec.IsaStaged : Prop :=
  ∀ (s : State) (e : Fin 96) (t : Fin 8) (b : Batch) (f : XF), Issues s e t b →
    let next := fun (b' : Batch) => (.next (issued s e t b 1 (nextPc b')) : Result)
    let a := (reg b f.ra).toNat
    let tag := BitVec.ofNat 16 (reg b f.rb).toNat
    let line := fun (at_ : Nat) => ((localRun s e t b at_ 11).flatMap (fun w => leBytes 6 w.toNat)).take 64
    let stage := fun (x : TblEffect) => next { b with tables := b.tables ++ [x] }
    (b.tables.length < 16 →
      (∀ table at_ del, f.rd = 0 → f.ra = 0 → f.rb = 0 → table < 7 → at_ + 1 + cdiv (entrySize table) 6 ≤ 8192 →
        f.imm.toNat = at_ + 8192 * table + (if del then 131072 else 0) →
        fetches s e b (f.word 0x61) → exec (.twr e t f) s = stage (.write table del (localWord s e t b at_).toNat
          (((localRun s e t b (at_ + 1) (cdiv (entrySize table) 6)).flatMap (fun w => leBytes 6 w.toNat)).take
            (entrySize table)))) ∧
      (f.rd = 0 → f.imm.toNat < 1024 →
        (fetches s e b (f.word 0x62) → exec (.frd e t f) s = stage (.flowRead (a % 2 ^ 27) tag f.imm.toNat)) ∧
        (fetches s e b (f.word 0x64) → exec (.hrd e t f) s = stage (.hbmRead a tag f.imm.toNat))) ∧
      (f.rd = 0 → f.rb = 0 → f.imm.toNat + 11 ≤ 8192 →
        (fetches s e b (f.word 0x63) → exec (.fwr e t f) s = stage (.flowWrite (a % 2 ^ 27) false (line f.imm.toNat))) ∧
        (fetches s e b (f.word 0x65) → exec (.hwr e t f) s = stage (.hbmWrite a (line f.imm.toNat)))) ∧
      (f.rd = 0 → f.rb = 0 → f.imm.toNat = 8192 → fetches s e b (f.word 0x63) → exec (.fwr e t f) s = stage (.flowWrite (a % 2 ^ 27) true []))) ∧
    (f.imm = 0#25 → b.adds.length < 64 → fetches s e b (f.word 0x71) → exec (.ladd e t f) s = next { b with
      adds := b.adds ++ [(cProgram (a % 2 ^ 17), (reg b f.rb).toNat % 2 ^ 24, (reg b f.rd).toNat % 2 ^ 40)] }) ∧
    (f.rd = 0 → f.rb = 0 → f.imm.toNat + 28 ≤ 8192 → b.csubs.length < 16 →
      let w := localWord s e t b f.imm.toNat
      (fetches s e b (f.word 0x70) → exec (.csub e t f) s = next { b with csubs := b.csubs ++ [{
        ctx := a % 2 ^ 18, words := localRun s e t b f.imm.toNat 28,
        pkt := if w.getLsbD 7 then requestPkt b (w.toNat / 8 % 16) else none }] })) ∧
    (∀ n at_, f.rd = 0 → n < 7 → at_ + n ≤ 8192 → f.imm.toNat = at_ + 8192 * n → at_ < 8192 → b.sends.length < 8 →
      fetches s e b (f.word 0x72) → exec (.send e t f) s = next { b with
        sends := b.sends ++ [{ target := a % 2 ^ 24, tag := tag, payload := localRun s e t b at_ n }] }) ∧
    (f.rd = 0 → f.imm = 0#25 → b.arm = none → fetches s e b (f.word 0x74) → exec (.arm e t f) s = next { b with
      arm := some { tick := reg b f.ra, beat := min 1599 ((reg b f.rb).toNat % 2048) } }) ∧
    (f.ra = 0 → f.rb = 0 → f.imm = 0#25 → ∀ (c : Channel) (i : Nat), channelOf s b.channel = some c →
      c.bind.inbox = some i →
      fetches s e b (f.word 0x73) → exec (.msgt e t f) s = .next (issued s e t b 1 (if b.msgs < c.inbox.length
        then wrote { b with msgs := b.msgs + 1 } f.rd (BitVec.ofNat 48 (64 * i + 8 * b.msgs))
        else wrote b f.rd 0xFFFFFFFFFFFF#48)))

/-- LKUP, and the operations that a batch stages for its release. -/
def Obligations.IsaTables : Prop := Spec.IsaLookup ∧ Spec.IsaStaged

namespace Sys2Proof.Spec
open Sys2Proof.Machine

/-- The command completes with a next state, of which `P` holds. -/
def runs (i : Instr) (s : State) (P : State → Prop) : Prop := ∃ u, exec i s = .next u ∧ P u

/-- Between two states one more report of a class about a unit and sub-unit has gone to the fault collector, at the
level of R551; earlier reports stand. -/
def raised (s u : State) (cls : FaultClass) (unit sub : Nat) : Prop :=
  ∃ r, u.flt.inbox = s.flt.inbox ++ [r] ∧ r.cls = cls ∧ r.subj = subjU unit sub ∧ r.level = cls.row.level

/-- An engine has stopped on a fault (R355): its batches before their commit point are gone, it holds the cause and
the thread and counts the fault, the collector has the report, and it is lost at the next boundary. -/
def stopped (s u : State) (e : Fin 96) (t : Fin 8) (cause : Nat) (cls : FaultClass) : Prop :=
  engineStopped u e = true ∧
  (∀ k < 8, ∀ c, batchOf s e k = some c → c.committed = none → batchOf u e k = none) ∧
  (engineOf u e).lastCause = cause ∧ (engineOf u e).lastThread = t.val ∧
  (engineOf u e).faults = (engineOf s e).faults + 1#32 ∧ raised s u cls (0x40 + e.val) t.val

end Sys2Proof.Spec

/-- BATCH_DISPATCH (R345, R346): on a free thread of an engine in service, the slot that starts here runs its pending
channel: registers read 0, the program counter is the program's entry, and the first issue slot is the next one, or
the one after it outside the home cluster. The channel's marks that were set before the slot began, and the mark of a first batch on
this engine, go to the batch; other threads are as before. The batch of a pooled channel whose record holds a lost word is discarded at
once (R357). -/
def Sys2Proof.Spec.BatchDispatch : Prop :=
  ∀ (s : State) (e : Fin 96) (t : Fin 8) (start : Fin 250) (w : W64) (c : Channel) (p : Program),
    threadFree s e t = true → (threadOf s e t).slotsUsed ≤ start.val →
    controlOf s e t = none → slotAt s e t start = some w → entryKind w = 1 →
    entryDefer w = false → channelOf s (entryChannel w) = some c →
    let first := slotFirst s t.val start.val
    channelPending s first (entryChannel w) = true →
    inFlight s (entryChannel w) = false → tget (clusterOf s (e.val / 12)).programs c.bind.program = some p →
    c.retryAreas = [] →
    ((recordWords c.bind).any (clusterOf s c.bind.cluster).lost.contains = true → runs (.batchDispatch e t start) s (fun u =>
      batchOf u e t = none ∧ (threadOf u e t).slotsUsed = start.val + entryLength w)) ∧
    ((recordWords c.bind).any (clusterOf s c.bind.cluster).lost.contains = false → runs (.batchDispatch e t start) s (fun u =>
      u = { s with eng := { s.eng with threads := u.eng.threads, channels := u.eng.channels } } ∧
      (∃ b, batchOf u e t = some b ∧ b.channel = entryChannel w ∧ b.pc = p.entry ∧ b.committed = none ∧
        b.slotStart = start.val ∧ b.slotLen = entryLength w ∧ b.version = s.dec.current ∧ b.doomed = false ∧
        b.slot = start.val + (if e.val / 12 = c.bind.cluster then 1 else 2) ∧ ∀ r, reg b r = 0#48) ∧
      (threadOf u e t).slotsUsed = start.val + entryLength w ∧
      (∀ x : Nat, x ≠ 8 * e.val + t.val → tget u.eng.threads x = tget s.eng.threads x) ∧
      (∀ x : Nat, x ≠ entryChannel w → channelOf u x = channelOf s x) ∧
      channelOf u (entryChannel w) = some { c with
        wake := c.wake && !wakeReady c first, wakeEarly := c.wakeEarly && !wakeReady c first,
        cipher := c.cipher && !cipherReady c first, migrated := c.migrated.filter (· ≠ e.val), restarted := false,
        sendFailed := 0, failTag := 0#16, failStatus := 0 }))

/-- BATCH_RELEASE of a batch that staged one local word, one shared word and one table read, once the releases of earlier commits
have landed (R82, R341, R350, R378): the thread is free, the words are written and the read waits to land; nothing else changes
but the emit count. -/
def Sys2Proof.Spec.BatchRelease : Prop :=
  ∀ (s : State) (e : Fin 96) (t : Fin 8) (b : Batch) (n a x hda offset : Nat) (tag : W16) (v w : W48),
    (commitsWaiting s).takeWhile (fun i => i != 8 * e.val + t.val) = [] →
    batchOf s e t = some b → b.committed = some n → b.localW = [(a, v)] → b.sharedW = [(x, w)] → 80 ≤ a →
    b.arm = none → b.tables = [.hbmRead hda tag offset] → b.adds = [] → b.lookups = [] → b.csubs = [] → b.sends = [] →
    b.packets = [] → s.mir.pair.mirrored.contains b.channel = false →
    runs (.batchRelease e t) s (fun u =>
      u = { s with eng := { s.eng with threads := u.eng.threads, clusters := u.eng.clusters, channels := u.eng.channels,
                                       landings := u.eng.landings, emitFails := u.eng.emitFails } } ∧
      threadOf u e t = { threadOf s e t with batch := none, area := tput 0#48 (threadOf s e t).area a v } ∧
      clusterOf u b.cluster = { clusterOf s b.cluster with shared := tput 0#48 (clusterOf s b.cluster).shared x w } ∧
      (∀ y, y ≠ 8 * e.val + t.val → tget u.eng.threads y = tget s.eng.threads y) ∧
      (∀ y, y ≠ b.cluster → clusterOf u y = clusterOf s y) ∧
      u.eng.emitFails = s.eng.emitFails + BitVec.ofNat 16 b.emitFails ∧
      ∃ l : Landing, u.eng.landings = s.eng.landings ++ [l] ∧ l.channel = b.channel ∧ l.offset = offset ∧ l.tag = tag ∧
        l.bytes = (List.range 64).map (fun i => tgetD s.hbm (hda + i) 0#8))

/-- A batch begins, and its commit is released. -/
def Obligations.Batches : Prop := Spec.BatchDispatch ∧ Spec.BatchRelease

/-- SLOT_OVERRUN and ENGINE_THREAD_FAULT stop their engine (R83, R355, R356): causes SLOT_OVERRUN and 1 to 8. -/
def Obligations.EngineStops : Prop :=
  ∀ (s : State) (e : Fin 96) (t : Fin 8), (engineOf s e).state = .inService → engineStopped s e = false →
    (∀ b, batchOf s e t = some b → b.committed = none → b.slotStart + b.slotLen ≤ b.slot →
      runs (.slotOverrun e t) s (fun u => stopped s u e t 0x08 .slotOverrun ∧
        u = { s with eng := u.eng, flt := u.flt, sltEng := u.sltEng, sltCph := u.sltCph, crb := u.crb })) ∧
    (∀ cause : Byte, 1 ≤ cause.toNat → cause.toNat ≤ 8 →
      runs (.engineThreadFault e t cause) s (fun u => stopped s u e t cause.toNat .engineThreadFault ∧
        u = { s with eng := u.eng, flt := u.flt, sltEng := u.sltEng, sltCph := u.sltCph, crb := u.crb }))

/-- Timers, copies, landings, memory errors, the self-test's end and the Supervisor's engine queue (R85, R351, R353,
R357, R358, R361, R378). -/
def Obligations.EngineEvents : Prop :=
  (∀ (s : State) (e : Fin 96) (n : Nat), (engineOf s e).state = .copySource → (engineOf s e).copyEnd = some n →
    n ≤ s.tmb.tick.toNat → s.eng.test = none →
    runs (.migrationCopyEnd e none) s (fun u => (engineOf u e).state = .failed ∧ (engineOf u e).copyEnd = none ∧
      u = { s with eng := { s.eng with engines := u.eng.engines } })) ∧
  (∀ (s : State) (e : Fin 96) (t : Fin 8) (c : Channel), timerDue s (threadOf s e t) = true →
    (engineOf s e).idleUntil ≤ s.tmb.tick.toNat → channelOf s (threadOf s e t).timerChannel = some c →
    runs (.timerFire e t) s (fun u => (threadOf u e t).timerArmed = false ∧ batchOf u e t = batchOf s e t ∧
      channelOf u (threadOf s e t).timerChannel = some { c with
        wake := true, wakeAt := if c.wake then c.wakeAt else nowBeats s } ∧
      u = { s with eng := { s.eng with threads := u.eng.threads, channels := u.eng.channels } })) ∧
  (∀ (s : State) (x : Landing) (rest : List Landing) (c : Channel), s.eng.landings = x :: rest →
    channelIdle s x.channel = false → x.ok = true → channelOf s x.channel = some c →
    let words := (List.range 11).map (fun i => BitVec.ofNat 48 (leAt x.bytes (6 * i) (min 6 (64 - 6 * i))))
      ++ [BitVec.ofNat 48 (x.tag.toNat + 2 ^ 24)]
    exec .hbmResultLanding s = .next (stateSetAll { s with eng := { s.eng with landings := rest } } c.bind x.offset words)) ∧
  (∀ (s : State) (c : Fin 8) (w : Fin 1048576),
    runs (.sharedMemError c w) s (fun u => w.val ∈ (clusterOf u c).lost ∧
      (clusterOf u c).shmemLost = (clusterOf s c).shmemLost + 1#16 ∧ raised s u .sharedMemLost (0xA0 + c.val) 0xFFFF ∧
      u = { s with eng := u.eng, flt := u.flt, sltEng := u.sltEng, sltCph := u.sltCph, crb := u.crb })) ∧
  (∀ (s : State) (c : Fin 8) (w : Fin 21845),
    (w.val ∉ (clusterOf s c).imemBad → runs (.imemScrub c w false) s (fun u =>
      (clusterOf u c).imemBad = w.val :: (clusterOf s c).imemBad ∧
      u = { s with eng := { s.eng with clusters := u.eng.clusters } })) ∧
    exec (.imemScrub c w true) s = .next s) ∧
  (∀ (s : State) (x : SelfTest) (n : Nat), s.eng.test = some x → x.ends = some n → n ≤ s.tmb.tick.toNat →
    x.waiter = .none_ →
    runs (.engineSelftestEnd true) s (fun u => (engineOf u x.engine).state = .spare ∧ u.eng.test = none ∧
      u.eng.lastPass = true ∧ u.eng.tests = s.eng.tests + 1#32 ∧
      u = { s with eng := { s.eng with engines := u.eng.engines, test := u.eng.test, lastPass := u.eng.lastPass, tests := u.eng.tests } }) ∧
    runs (.engineSelftestEnd false) s (fun u => (engineOf u x.engine).state = .retired ∧ u.eng.test = none ∧
      u.eng.lastPass = false ∧ raised s u .engineBistFail (0x40 + x.engine) 0xFFFF ∧
      u = { s with eng := u.eng, flt := u.flt })) ∧
  (∀ (s : State) (x : Msg) (rest : List Msg), s.eng.supQueue = x :: rest → supervisorRuns s = true →
    x.tag.getLsbD 15 = true → boxActive s (x.tag.toNat % 32) = true → (boxOf s (x.tag.toNat % 32)).heldEngine = none →
    runs .supervisorEngineMessage s (fun u => u.eng.supQueue = rest ∧
      (boxOf u (x.tag.toNat % 32)).heldEngine = some (engineMessage x) ∧
      u = { s with eng := { s.eng with supQueue := rest }, mbx := u.mbx }))

/-- An undefined encoding and an instruction word with an error that is not corrected stop the engine with causes
ILLEGAL_INSTRUCTION and IMEM_ECC (R355, R356, R358, R366); the engine holds the program counter. -/
def Obligations.IsaIllegal : Prop :=
  ∀ (s : State) (e : Fin 96) (t : Fin 8) (b : Batch), (engineOf s e).state = .inService → engineStopped s e = false →
    batchOf s e t = some b → b.committed = none → b.slot < b.slotStart + b.slotLen →
    let fault := fun (i : Instr) (cause : Nat) =>
      runs i s (fun u => stopped s u e t cause .engineThreadFault ∧ (engineOf u e).faultPc = b.pc)
    let bad := (clusterOf s (e.val / 12)).imemBad
    (∀ f : RR, fetches s e b (f.word 0x19) → b.pc ∉ bad → f.zero ≠ 0#23 ∨ f.h ≠ 0 → fault (.mul e t f) 0x01) ∧
    (∀ f : BF, fetches s e b (f.word 0x81) → b.pc ∉ bad → f.zero ≠ 0#5 → fault (.beq e t f) 0x01) ∧
    (∀ f : LF, fetches s e b (f.word 0x89) → b.pc ∉ bad → f.count = 0#8 → fault (.loop e t f) 0x01) ∧
    (∀ f : XF, fetches s e b (f.word 0x32) → b.pc ∉ bad → f.rb ≠ 0 → fault (.clz e t f) 0x01) ∧
    (∀ f : MF, fetches s e b (f.word 0x40) → b.pc ∉ bad → f.zero ≠ 0#10 → fault (.ldl e t f) 0x01) ∧
    (∀ f : PF, fetches s e b (f.word 0x50) → b.pc ∉ bad → f.zero ≠ 0#2 → fault (.take e t f) 0x01) ∧
    (∀ f : RI, fetches s e b (f.word 0x20) → b.pc ∈ bad → fault (.addi e t f) 0x07) ∧
    (∀ (f : RR) (w : W48), fetches s e b w → opDefined w = false → b.pc ∉ bad → fault (.add e t f) 0x01)

namespace Sys2Proof.Spec
open Sys2Proof.Machine

/-- A port with a MAC statistic raised by `k`; it stays at its largest value, and a read of the same beat still sees what the port
counted before the beat (R165). -/
def counted (p : Port) (offset k : Nat) : Port :=
  { p with stats := tset p.stats offset (satAdd (tgetD p.stats offset 0#64) k), statsOld := some (p.statsOld.getD p.stats) }

/-- The command changes port `n` to `p'` and nothing else. -/
def portBecomes (i : Instr) (s : State) (n : Fin 512) (p' : Port) : Prop :=
  runs i s (fun u => portOf u n = some p' ∧ (∀ m, m ≠ n.val → portOf u m = portOf s m) ∧
    u = { s with lnm := { s.lnm with ports := u.lnm.ports } })

/-- The command changes lane `n` to `l` and nothing else. -/
def laneBecomes (i : Instr) (s : State) (n : Fin 512) (l : Lane) : Prop :=
  runs i s (fun u => tgetD u.lnm.lanes n.val Lane.reset = l ∧
    (∀ m, m ≠ n.val → tgetD u.lnm.lanes m Lane.reset = tgetD s.lnm.lanes m Lane.reset) ∧
    u = { s with lnm := { s.lnm with lanes := u.lnm.lanes } })

/-- A port whose link is lost (R143, R145): it stops admitting at once, and its ticks without link count from here. -/
def linkless (p : Port) : Port :=
  { p with link := false, linkLoss := p.linkLoss || p.admitting, admitting := false, downTicks := 0, downWhole := false }

/-- A port in TRAINING (R149, R155, R161): where it negotiates, it advertises the technology of its combination alone. -/
def inTraining (p : Port) : Port :=
  { p with
    state := .training, admitting := false, link := false, bins := [], bin := 0, txStartNow := p.txStartBase
    txCond := .training (if p.cfg.anEn then some { lanes := p.lanes, laneRate := p.laneRate, fec := p.fec, pause := false
                                                   asymPause := false, eee := false } else none) p.cfg.ltEn p.cfg.txPreset
    localFaultRx := false, remoteFaultRx := false, blockLock := 0#8
    aligned := false, rxOrder := [], txRaise := false, contained := false }

/-- A port that reaches UP (R143, R151); it admits from the next boundary. -/
def reachedUp (p : Port) : Port :=
  { p with state := .up, link := true, fecHit := 0, txCond := .frames, localFaultRx := false, remoteFaultRx := false }

end Sys2Proof.Spec

/-- RX_FRAME_DELIMITED (R152, R158, R162, R176, R252): a good frame at an admitting port becomes the packet of the next id, which
waits in the header lanes of its slice and holds one crumb for every 64 bytes begun; its stamp is the instant at the pins. -/
def Sys2Proof.Spec.FrameReceived : Prop :=
  ∀ (s : State) (n : Fin 512) (p : Port) (bytes : List Byte) (ago : Fin 16) (sub : Fin 32000) (blocks : Nat),
    portOf s n = some p → p.state ≠ .test → p.fecHit = 0 → receptionCut s n (s.tmb.tick.toNat - ago.val) = false →
    p.admitting = true → 64 ≤ bytes.length → bytes.length ≤ p.cfg.maxFrame →
    BitVec.ofNat 32 (leVal (bytes.drop (bytes.length - 4))) = crc32 (bytes.take (bytes.length - 4)) →
    beVal (slice bytes 12 2) ≠ 0x8808 → (crumbsOf bytes.length : Int) ≤ sharedFree s →
    runs (.rxFrameDelimited n bytes ⟨ago, sub⟩ false blocks) s (fun u =>
      u = { s with crb := { s.crb with pkts := u.crb.pkts, nextId := s.crb.nextId + 1, laneQ := u.crb.laneQ }
                   lnm := { s.lnm with ports := u.lnm.ports }, ldg := u.ldg } ∧
      (∃ x, pktOf u s.crb.nextId = some x ∧ x.bytes = bytes.take (bytes.length - 4) ∧ x.port = n.val ∧ x.origin = 0 ∧
        x.owner = n.val / 32 ∧ x.stamp = { tick := s.tmb.tick.toNat - ago.val, sub := sub.val } ∧ x.stage = .lane ∧
        x.crumbs = (bytes.length + 63) / 64) ∧
      (∀ i, i ≠ s.crb.nextId → pktOf u i = pktOf s i) ∧
      tgetD u.crb.laneQ (n.val / 32) [] = tgetD s.crb.laneQ (n.val / 32) [] ++ [s.crb.nextId])

/-- RX_FRAME_DELIMITED with a receive error, or of a frame in reception when its macro began to drain (R152, R171): the frame is
dropped at the MAC under the condition that applies first, and no packet comes into being; the drop is counted against the slice and the port. -/
def Sys2Proof.Spec.FrameRefused : Prop :=
  ∀ (s : State) (n : Fin 512) (p : Port) (bytes : List Byte) (ago : Fin 16) (sub : Fin 32000) (aborted : Bool) (blocks : Nat),
    portOf s n = some p → p.state ≠ .test →
    let badFcs := bytes.length < 4 ∨
      BitVec.ofNat 32 (leVal (bytes.drop (bytes.length - 4))) ≠ crc32 (bytes.take (bytes.length - 4))
    let reason : Option DropReason :=
      if receptionCut s n (s.tmb.tick.toNat - ago.val) then some .macroOffline
      else if aborted then some .rxAborted else if 0 < p.fecHit then some .rxFecUncorrectable
      else if badFcs then some .rxFcsError else if p.cfg.maxFrame < bytes.length then some .rxOversize
      else if bytes.length < 64 then some .rxUndersize
      else if beVal (slice bytes 12 2) = 0x8808 then some .rxMacControl else none
    ∀ r, reason = some r →
    runs (.rxFrameDelimited n bytes ⟨ago, sub⟩ aborted blocks) s (fun u =>
      u = { s with lnm := { s.lnm with ports := u.lnm.ports }, ldg := u.ldg } ∧
      u.ldg = (countDrop (addTo (countArrival s (n.val / 32) 0 (min bytes.length (p.cfg.maxFrame + 1))) (cPort n 0) 1
        (min bytes.length (p.cfg.maxFrame + 1))) (n.val / 32) (some n.val) none r.code
        (min bytes.length (p.cfg.maxFrame + 1))).ldg)

/-- A frame at a port: received, or dropped at the MAC. -/
def Obligations.FramesReceived : Prop := Spec.FrameReceived ∧ Spec.FrameRefused

/-- FEC, lock, link and fault signals of a port (R138, R143, R149, R151, R153, R154, R156, R170). -/
def Sys2Proof.Spec.PortSignals : Prop :=
  ∀ (s : State) (n : Fin 512) (p : Port), portOf s n = some p →
    (p.fec ≠ 0 → p.state ≠ .test → ∀ (frames : Nat),
      let limit := if p.fec = 1 then 7 else 15
      let failed := counted (counted p 0x180 1) 0x190 1
      let uncorrected : Port := { failed with bin := p.bin + 1, fecHit := max p.fecHit frames }
      portBecomes (.fecCodewordDecode n ⟨0, false⟩ frames) s n (counted p 0x180 1) ∧
      (∀ k, k ≠ 0 → k ≤ limit → portBecomes (.fecCodewordDecode n ⟨k, false⟩ frames) s n
        (counted (counted (counted p 0x180 1) 0x188 1) 0x198 k)) ∧
      (∀ k, limit < k → portBecomes (.fecCodewordDecode n ⟨k, false⟩ frames) s n uncorrected) ∧
      (∀ k, portBecomes (.fecCodewordDecode n ⟨k, true⟩ frames) s n uncorrected)) ∧
    (p.state = .test → ∀ k bad frames, exec (.fecCodewordDecode n ⟨k, bad⟩ frames) s = .next s) ∧
    (∀ set, p.fec = 2 → portBecomes (.remoteDegradedRx n set) s n { p with remoteDegraded := set }) ∧
    (p.state = .up ∨ p.state = .degraded → p.link = true →
      (∀ lock aligned, portBecomes (.laneLockLost n lock aligned) s n (counted { linkless p with
        blockLock := lock, aligned := aligned, state := .linkFault, txCond := .remoteFault } 0x1A8 1)) ∧
      portBecomes (.linkLost n false) s n (counted { linkless p with state := .linkFault, txCond := .remoteFault } 0x1A8 1) ∧
      portBecomes (.linkLost n true) s n (inTraining (linkless p)) ∧
      portBecomes (.faultSetsReceived n false) s n (counted { linkless p with
        localFaultRx := true, state := .linkFault, txCond := .remoteFault } 0x1A8 1) ∧
      portBecomes (.faultSetsReceived n true) s n (counted { linkless p with
        remoteFaultRx := true, state := .linkFault, txCond := .idle } 0x1A8 1)) ∧
    (p.state = .linkFault → p.aligned = true → p.blockLock = BitVec.ofNat 8 (2 ^ p.lanes - 1) →
      portBecomes (.faultSetsCease n) s n (reachedUp p)) ∧
    (p.state = .linkFault → p.aligned = false ∨ p.blockLock ≠ BitVec.ofNat 8 (2 ^ p.lanes - 1) →
      portBecomes (.faultSetsCease n) s n { p with localFaultRx := false, remoteFaultRx := false }) ∧
    (p.state = .training → macroOffline s (n.val / 32) = false → ∀ partner order,
      (p.cfg.anEn = true → (p.lanes, p.laneRate, p.fec) ∈ partner) → order.length = p.lanes → (∀ i < p.lanes, i ∈ order) →
      portBecomes (.portReachUp ⟨n, partner, order⟩) s n
        (reachedUp { p with blockLock := BitVec.ofNat 8 (2 ^ p.lanes - 1), aligned := true, rxOrder := order })) ∧
    (p.state = .training → p.cfg.anEn = true → ∀ partner order, (p.lanes, p.laneRate, p.fec) ∉ partner →
      portBecomes (.portReachUp ⟨n, partner, order⟩) s n p) ∧
    (p.state = .training ∨ p.state = .linkFault → portBecomes (.trainingRestart n) s n (counted (inTraining p) 0x1B0 1))

/-- DEGRADE_EVALUATION at a multiple of 1,000 ticks (R155): the bins of ten evaluations, the entry to DEGRADED above
the set threshold with a report of LINK_DEGRADED, which ACTION 1 makes a drain (a halt that is due still comes), and the return to UP at the clear threshold. -/
def Sys2Proof.Spec.PortDegrade : Prop :=
  ∀ (s : State) (n : Fin 512) (p : Port), portOf s n = some p → p.fec ≠ 0 → s.tmb.tick.toNat % 1000 = 0 →
    let bins := (p.bin :: p.bins).take 10
    let sum := bins.foldl (· + ·) 0
    let p' := { p with
      bins := bins, bin := 0, windowSum := BitVec.ofNat 32 sum, evalTickLo := BitVec.ofNat 32 s.tmb.tick.toNat }
    (p.state = .up → sum ≤ p.degradeSet.toNat → portBecomes (.degradeEvaluation n) s n p') ∧
    (p.state = .degraded → (p.degradeClear.toNat < p.degradeSet.toNat → sum ≤ p.degradeClear.toNat) →
      (p.degradeSet.toNat ≤ p.degradeClear.toNat → sum ≤ p.degradeSet.toNat - 1) →
      portBecomes (.degradeEvaluation n) s n { p' with state := .up, txCond := .frames }) ∧
    (p.state = .up → p.degradeSet.toNat < sum → p.cfg.degradeAction = false →
      runs (.degradeEvaluation n) s (fun u => portOf u n = some (counted { p' with
        state := .degraded, txCond := if p.fec = 2 then .framesDegraded else p.txCond } 0x1B8 1) ∧
        (∀ m, m ≠ n.val → portOf u m = portOf s m) ∧
        u = { s with lnm := { s.lnm with ports := u.lnm.ports }, flt := u.flt } ∧
        ∃ r, u.flt.inbox = s.flt.inbox ++ [r] ∧ r.cls = .linkDegraded ∧ r.level = 1)) ∧
    (p.state = .up → p.degradeSet.toNat < sum → p.cfg.degradeAction = true →
      runs (.degradeEvaluation n) s (fun u => portOf u n = some (counted { p' with
        state := .adminDown, admitting := false, dist := false, linkLoss := false, drain := some (.adminDown, 64)
        due := (match p.due with | some .halt | some .haltTraining | some (.haltStop _) => p.due | _ => none)
        txCond := .frames, contained := true } 0x1B8 1) ∧
        (∀ m, m ≠ n.val → portOf u m = portOf s m) ∧
        u = { s with lnm := { s.lnm with ports := u.lnm.ports }, flt := u.flt } ∧
        ∃ r, u.flt.inbox = s.flt.inbox ++ [r] ∧ r.cls = .linkDegraded ∧ r.level = 2))

/-- Ports: their signals, and the evaluation of DEGRADED. -/
def Obligations.Ports : Prop := Spec.PortSignals ∧ Spec.PortDegrade

/-- Reads and writes of the line side's registers, and the lanes' pattern generators and checkers (R6, R161, R165-R169, R610): a
read by HP1 is answered when the beat ends (log entry 119). -/
def Sys2Proof.Spec.LaneCommands : Prop :=
  ∀ (s : State) (n : Fin 512),
    (∀ (p : Port) (offset : BitVec 12), portOf s n = some p → p.statsOld = none →
      runs (.macStatRead .hp0 n offset) s (fun u =>
        portOf u n = some { p with stats := tdel p.stats offset.toNat } ∧
        (∀ m, m ≠ n.val → portOf u m = portOf s m) ∧
        u = { s with lnm := { s.lnm with ports := u.lnm.ports, readByHp0 := (n.val, offset.toNat) :: s.lnm.readByHp0 }
                     out := .regData .hp0 (tgetD p.stats offset.toNat 0#64) :: s.out })) ∧
    (∀ offset : BitVec 12,
      exec (.macStatRead .hp1 n offset) s = .next { s with lnm := { s.lnm with
        lateReads := s.lnm.lateReads ++ [{ port := n.val, offset := offset.toNat, fn := none }] } } ∧
      exec (.macStatRead .sup n offset) s = .next s) ∧
    (∀ (p : Port) (v : W64), portOf s n = some p →
      let b := max 1 (min 16 (v.toNat % 32))
      portBecomes (.lnmPortTxStartWrite n v) s n { p with txStartBase := b, txStartNow := b }) ∧
    (let l := tgetD s.lnm.lanes n.val Lane.reset
     (s.board.f256 = false ∨ n.val < 256 → laneBecomes (.prbsClear n) s n { l with errors := 0#48, bits := 0#64 }) ∧
     (s.board.f256 = true → 256 ≤ n.val → ∀ v, exec (.prbsClear n) s = .next s ∧ exec (.prbsCtrlWrite n v) s = .next s) ∧
     (∀ (x : Nat) (p : Port) (v : W64), portOfLane s n = some (x, p) → s.board.f256 = false ∨ n.val < 256 →
       let fits := patternFits p.laneRate (v.extractLsb' 2 4).toNat
       let clear := (v.getLsbD 1 && !l.chkEn) || v.getLsbD 8
       laneBecomes (.prbsCtrlWrite n v) s n
         { genEn := v.getLsbD 0, chkEn := v.getLsbD 1, pattern := v.extractLsb' 2 4, invert := v.getLsbD 6, badCfg := !fits,
           locked := l.locked && v.getLsbD 1 && fits, errors := if clear then 0#48 else l.errors,
           bits := if clear then 0#64 else l.bits }) ∧
     (∀ (x : Nat) (p : Port) (locked : Bool) (bits errors : Nat), portOfLane s n = some (x, p) → p.state = .test →
       laneBecomes (.prbsCheckerLock n locked bits errors) s n { l with
         bits := if l.locked then satAdd l.bits bits else l.bits
         errors := if l.locked then satAdd l.errors errors else l.errors
         locked := locked && l.chkEn && !l.badCfg && l.pattern ≠ 8#4 }))

/-- The end of a drain and the macros (R145, R148, R167, R171-R173): the port goes where its drain leads; a macro's
ports drop what they hold, the macro turns off, locks again, or fails with a report of MACRO_PLL_LOSS. -/
def Sys2Proof.Spec.DrainsAndMacros : Prop :=
  (∀ (s : State) (n : Fin 512) (p : Port) (k : DrainKind), portOf s n = some p → p.drain = some (k, 0) → k ≠ .macroDown →
    runs (.portDrainDeadline n) s (fun u => ∃ q, portOf u n = some q ∧ q.drain = none ∧ q.link = false ∧
      q.state = (match k with | .adminDown => .adminDown | .test => .test | .speed => .training | .macroDown => q.state) ∧
      (k = .speed → ∀ l r f, p.newSpeed = some (l, r, f) → q.lanes = l ∧ q.laneRate = r ∧ q.fec = f) ∧
      (∀ m, m ≠ n.val → portOf u m = portOf s m) ∧ u.lnm.macros = s.lnm.macros)) ∧
  (∀ (s : State) (m : Fin 16), (macroOf s m).state = .draining → (macroOf s m).drainLeft = 0 →
    runs (.macroDrainEnd m) s (fun u => u.lnm.macros = s.lnm.macros ∧
      ∀ n p, portOf s n = some p → ∃ q, portOf u n = some q ∧ (n / 32 = m.val → q.drain = none) ∧
        (n / 32 ≠ m.val → q = p)) ∧
    ((∀ n p, portOf s n = some p → n / 32 = m.val → p.drain = none ∧ txBusy s n = false) → (macroOf s m).downWait = [] →
      runs (.macroOffComplete m) s (fun u =>
        u = { s with lnm := { s.lnm with macros := u.lnm.macros, ports := u.lnm.ports } } ∧
        (macroOf u m).state = .off ∧ (macroOf u m).pllLocked = false ∧
        (∀ k, k ≠ m.val → macroOf u k = macroOf s k) ∧
        ∀ n p, portOf s n = some p → portOf u n =
          some (if n / 32 = m.val then
            { p with state := .offline, admitting := false, dist := false, link := false, due := none, txCond := .electricalIdle }
            else p)))) ∧
  (∀ (s : State) (m : Fin 16), (macroOf s m).state = .locking → (macroOf s m).upWait = [] →
    runs (.macroPllLock m) s (fun u =>
      u = { s with lnm := { s.lnm with macros := u.lnm.macros, ports := u.lnm.ports } } ∧
      (macroOf u m).state = .on ∧ (macroOf u m).pllLocked = true ∧ (∀ k, k ≠ m.val → macroOf u k = macroOf s k) ∧
      ∀ n p, portOf s n = some p → portOf u n = some (
        if n / 32 = m.val ∧ p.state = .offline then
          (if (schPort s n).squelched then { p with state := .safe, txCond := .localFault } else if p.adminUp then inTraining p else { p with state := .adminDown, txCond := .electricalIdle }) else p))) ∧
  (∀ (s : State) (m : Fin 16), (macroOf s m).state = .on →
    runs (.macroPllLoss m) s (fun u => (macroOf u m).state = .pllFailed ∧ (macroOf u m).pllLocked = false ∧
      (macroOf u m).powerDowns = (macroOf s m).powerDowns + 1#32 ∧ (∀ k, k ≠ m.val → macroOf u k = macroOf s k) ∧
      raised s u .macroPllLoss (0x10 + m.val) 0xFFFF ∧
      ∀ n p, portOf s n = some p → ∃ q, portOf u n = some q ∧ (n / 32 ≠ m.val → q = p) ∧
        (n / 32 = m.val → q.link = false ∧ q.drain = none ∧ q.txCond = .electricalIdle)))

/-- Lanes and line-side registers, drains and macros. -/
def Obligations.LanesAndMacros : Prop := Spec.LaneCommands ∧ Spec.DrainsAndMacros

/-- HEADER_LANE_ENTRY of a control-class packet (R176, R195, R196): it leaves the slice's lane queue for the control FIFO of the
slice's cluster, where it is pending 64 beats on (R93), with its key vector's word 0, and holds the current version's slot. -/
def Sys2Proof.Spec.HeaderLaneControl : Prop :=
  ∀ (s : State) (k : Fin 16) (id : Nat) (rest : List Nat) (p : Packet) (cls : ClassEntry),
    tgetD s.crb.laneQ k.val [] = id :: rest → pktOf s id = some p → p.origin = 0 → domainFrame s p = false →
    let start := startEntry s p
    let r := parseHead s.app.parse start p.bytes
    let kv := r.kv.set 0 (kvW0 p.port 0 s.dec.current (p.bytes.length + 4) start.profile 0)
    s.app.parse.classes[r.cls]? = some cls → s.app.control.any (fun c => ctlMatch c 0 p.port { r with kv := kv }) = true →
    (r.frag && start.fragDrop) = false → (clusterOf s (k.val % 8)).controlFifo.length < 4096 →
    runs (.headerLaneEntry k) s (fun u =>
      u = { s with crb := { s.crb with laneQ := u.crb.laneQ, injectQ := u.crb.injectQ, pkts := u.crb.pkts }
                   prs := u.prs, dec := u.dec, ldg := u.ldg
                   eng := { s.eng with clusters := u.eng.clusters, handed := u.eng.handed } } ∧
      (clusterOf u (k.val % 8)).controlFifo = (clusterOf s (k.val % 8)).controlFifo ++ [id] ∧
      u.eng.handed.head? = some (id, nowBeats s + 64) ∧
      id ∉ tgetD u.crb.laneQ k.val [] ∧
      (tgetD u.prs k.val PrsSlice.reset).headers = (tgetD s.prs k.val PrsSlice.reset).headers + 1#64 ∧
      ∃ q, pktOf u id = some q ∧ q.control = true ∧ q.stage = .control ∧ q.version = s.dec.current ∧ q.tenant = none ∧
        q.bytes = p.bytes ∧ q.slot = some s.dec.currentSlot)

/-- PACKET_ENQUEUE of an unmetered packet toward a port's queue (R256, R262, R292) and EMIT_ADMIT (R26, R252): the packet joins the
end of its queue and its crumbs are the queue's; the waiting emit whose turn it is joins its slice's injection queue. -/
def Sys2Proof.Spec.PacketsEnter : Prop :=
  (∀ (s : State) (id : Nat) (rest : List Nat) (p : Packet), s.crb.enqueueQ = id :: rest → pktOf s id = some p →
    dtypeOf p.dest = .port → enqueueReason s (destPortOf p.dest) = none → p.control = false → p.copyQueue = none →
    p.meter = none →
    let qx := destPortOf p.dest * 8 + destQueueOf p.dest
    let crumbs := (p.bytes.length + 4 + 63) / 64
    admits s (schQueue s qx) crumbs 3 = true → qx < 4096 →
    runs .packetEnqueue s (fun u =>
      u = { s with crb := { s.crb with enqueueQ := rest, pkts := u.crb.pkts }, sch := u.sch, ldg := u.ldg, dec := u.dec } ∧
      (schQueue u qx).frames = (schQueue s qx).frames ++ [id] ∧ (schQueue u qx).occ = (schQueue s qx).occ + crumbs ∧
      (∀ y, y ≠ qx → schQueue u y = schQueue s y) ∧
      ∃ q, pktOf u id = some q ∧ q.queue = some qx ∧ q.crumbs = crumbs ∧ q.stage = .queued ∧ q.bytes = p.bytes ∧
        q.colour = 3 ∧ q.owner = qx / 8 / 32)) ∧
  (∀ (s : State) (w : Waiting), s.sch.hostStopped = false → waitingTurn s = some w → w.pkt.sendFrom = none →
    (crumbsOf (w.pkt.bytes.length + 4) : Int) ≤ sharedFree s →
    runs .emitAdmit s (fun u =>
      u = { s with crb := { s.crb with
              waiting := s.crb.waiting.erase w, lastSlice := w.slice, turn := u.crb.turn, pkts := u.crb.pkts
              nextId := s.crb.nextId + 1, injectQ := u.crb.injectQ }
                   ldg := u.ldg } ∧
      injectQueue u w.slice = injectQueue s w.slice ++ [s.crb.nextId] ∧
      ∃ q, pktOf u s.crb.nextId = some q ∧ q.bytes = w.pkt.bytes ∧ q.owner = w.slice ∧ q.stage = .inject ∧
        q.stamp = nowStamp s))

/-- Packets on their way: into a control FIFO, into a port's queue and into a slice. -/
def Obligations.PacketPaths : Prop := Spec.HeaderLaneControl ∧ Spec.PacketsEnter

/-- FLOW_STATE_ACCESS of a flow whose entry drops (R238): HIT is set and the entry's counters take the packet; the
packet leaves the unit. The flow ager clears HIT, or ends an entry that has not been hit (R240). -/
def Sys2Proof.Spec.FlowState : Prop :=
  (∀ (s : State) (id : Nat) (rest : List Nat) (p : Packet) (cls : ClassEntry) (t : TenantEntry),
    s.crb.flowQ = id :: rest → pktOf s id = some p → classOf s p = some cls →
    p.tenant.bind (tget s.fwd.seen.tenants) = some t →
    let key := flowKeyBytes (p.tenant.getD 0) p.cls cls p.kv
    let i := flowIndex s.fwd.flowSeed key
    let e := flowRead s i
    let n := flowCount (flowCounters e) (p.bytes.length + 4)
    hbmAnswers s (i * 64) = true → flowValid e = true → flowKeyOf e = key → n.2 = (false, false) →
    flowDest e ≠ destContinue → dtypeOf (flowDest e) = .drop →
    runs .flowStateAccess s (fun u =>
      u.hbm = putBytes 0#8 s.hbm (i * 64) (patch (patch e 3 [BitVec.ofNat 8 (leAt e 3 1 ||| 4)]) 56 (leBytes 8 n.1.toNat)) ∧
      u.crb.flowQ = rest.filter (· ≠ id) ∧ (∀ j, j ≠ id → pktOf u j = pktOf s j))) ∧
  (∀ (s : State) (index : BitVec 27), s.fwd.flowAgePeriod ≠ 0#16 → hbmAnswers s (index.toNat * 64) = true →
    let e := flowRead s index.toNat
    flowValid e = true → flowPinned e = false →
    (flowHit e = true → exec (.flowAgerVisit index) s =
      .next { s with hbm := putBytes 0#8 s.hbm (index.toNat * 64) (patch e 3 [BitVec.ofNat 8 (leAt e 3 1 - 4)]) }) ∧
    (flowHit e = false → runs (.flowAgerVisit index) s (fun u =>
      u.hbm = putBytes 0#8 s.hbm (index.toNat * 64) (patch e 3 [BitVec.ofNat 8 (leAt e 3 1 / 2 * 2)]) ∧
      u = { s with hbm := u.hbm, fwd := u.fwd, ldg := u.ldg, mir := u.mir })))

/-- Learning, ageing and the table scrub (R224, R228, R249): a new address enters the free place that the ways give it; an
unhit dynamic entry leaves as the beat ends, unless a source address has hit it by then (R230); the scrub reports TABLE_ECC of the replica, and TABLE_ENTRY_LOST with the entry cleared. -/
def Sys2Proof.Spec.LearnAndAge : Prop :=
  (∀ (s : State) (r : LearnReq) (rest : List LearnReq) (place : Nat), s.mir.pressure = false → s.fwd.learnQ = r :: rest →
    macFind s.fwd r.bd r.sa = none → macFree s.fwd r.bd r.sa = some place →
    runs .learnUnitProcess s (fun u => u.fwd.learnQ = rest ∧
      u.fwd.mac = tset s.fwd.mac place {
        mac := r.sa, bd := r.bd, dest := destPort r.port 0, valid := true, isStatic := false, router := false
        discard := false, hit := true } ∧
      u = { s with fwd := u.fwd, mir := u.mir })) ∧
  (∀ (s : State) (place : Fin 1049600) (e : MacEntry), tget s.fwd.mac place.val = some e → s.fwd.agePeriod ≠ 0#32 →
    e.valid = true → e.isStatic = false →
    (e.hit = true → exec (.macAgerVisit place) s =
      .next { s with fwd := { s.fwd with mac := tset s.fwd.mac place.val { e with hit := false } } }) ∧
    (e.hit = false → exec (.macAgerVisit place) s = .next { s with fwd := { s.fwd with
      agedDue := if s.fwd.agedDue.contains place.val then s.fwd.agedDue else s.fwd.agedDue ++ [place.val] } }) ∧
    (macAgedEnd s place.val).fwd.mac = if e.hit then s.fwd.mac else tdel s.fwd.mac place.val) ∧
  (∀ (s : State) (table : Fin 7) (index : BitVec 56) (q : Fin 4), q.val < (if s.board.f256 then 2 else 4) →
    (table ≠ 6 ∨ index ≠ 262143#56) →
    exec (.tableScrubVisit (table.castSucc) index .good) s = .next s ∧
    runs (.tableScrubVisit table.castSucc index (.corrected q)) s (fun u => u = { s with flt := u.flt } ∧
      raised s u .tableEcc (0x33 + q.val) table.val) ∧
    runs (.tableScrubVisit table.castSucc index (.badReplica q)) s (fun u =>
      u = { s with flt := u.flt, fwd := { s.fwd with repairs := s.fwd.repairs + 1#32 } } ∧
      raised s u .tableEcc (0x33 + q.val) table.val) ∧
    runs (.tableScrubVisit table.castSucc index .badAll) s (fun u => raised s u .tableEntryLost 0x33 table.val ∧
      u = { s with flt := u.flt, fwd := u.fwd, dec := u.dec } ∧
      (table = 0 → u.fwd.mac = tdel s.fwd.mac index.toNat) ∧
      (table = 1 → u.fwd.tenants = tadj s.fwd.tenants index.toNat (fun t => { t with valid := false })) ∧
      (table = 3 → u.fwd.adjacencies = tadj s.fwd.adjacencies index.toNat (fun a => { a with valid := false }))))

/-- Flow state, learning, ageing and the table scrub. -/
def Obligations.FlowsAndLearning : Prop := Spec.FlowState ∧ Spec.LearnAndAge

/-- SCHEDULER_SELECT, GATE_ENTRY_CHANGE and the MAC's transmission (R159, R160, R262, R263, R266, R293): the control queue is
served first while it has credit, else the active queue of the least round; the frame begins when the transmit FIFO holds enough of
it, and goes out as edited, after preamble and SFD, padded and with its FCS; an underrun ends it with the FCS inverted, is reported,
and raises the threshold by one crumb at the next frame start (the last frame of a macro that has powered down leaves its port
idle, R171). -/
def Obligations.Egress : Prop :=
  (∀ (s : State) (u : Fin 514) (id : Nat) (rest : List Nat), u.val < 512 → (schPort s u).tx = none →
    portSends s u = true → (schQueue s (4096 + u.val)).frames = id :: rest → headStale s (4096 + u.val) = false →
    0 < (schPort s u).ctlCredit →
    runs (.schedulerSelect u) s (fun w => (schPort w u).tx = some (id, 4096 + u.val, false) ∧
      (schPort w u).ctlCredit = (schPort s u).ctlCredit - 4 * headLen s id ∧
      (schQueue w (4096 + u.val)).frames = (id :: rest).filter (· ≠ id) ∧
      w = { s with sch := w.sch, crb := { s.crb with pkts := w.crb.pkts } })) ∧
  (∀ (s : State) (u : Fin 514) (qx id : Nat) (rest : List Nat), (schPort s u).tx = none → (schPort s u).cur = none →
    (u.val < 512 → portSends s u = true ∧ (schQueue s (4096 + u.val)).frames = []) → (512 ≤ u.val → shedOpen s = true) →
    nextVisit s u = some qx →
    (schQueue s qx).frames = id :: rest → headStale s qx = false → isCQ qx = false →
    runs (.schedulerSelect u) s (fun w => (schPort w u).tx = some (id, qx, false) ∧
      (schQueue w qx).frames = (id :: rest).filter (· ≠ id) ∧
      (∀ p, pktOf s id = some p → pktOf w id = some { p with stage := if u.val < 512 then .sending else .hostDma }) ∧
      w = { s with sch := w.sch, crb := { s.crb with pkts := w.crb.pkts }, hbmU := w.hbmU } ∧
      (s.hbmU.step = 0 ∨ u.val < 512 → w.hbmU = s.hbmU))) ∧
  (∀ (s : State) (n : Fin 512) (g : GateList) (x : GateEntry), (schPort s n).list = some g →
    let i := (gateEntryAt g.entries 0 (gatePhase g (nowSteps s))).1
    g.entries[i]? = some x →
    runs (.gateEntryChange n) s (fun w => (schPort w n).gates = x.gates ∧ (schPort w n).entry = i ∧
      w = { s with sch := w.sch })) ∧
  (∀ (s : State) (n : Fin 512) (id qx : Nat) (p : Packet) (q : Port) (sub : Fin 32000) (fifo : Nat),
    (schPort s n).tx = some (id, qx, false) → portOf s n = some q → pktOf s id = some p → portSends s n = true →
    let out : Stamp := { tick := s.tmb.tick.toNat, sub := sub.val }
    let level := if q.txRaise then min 16 (q.txStartNow + 1) else q.txStartNow
    let crumbs := (max 60 (egressEdit s.app.parse p out).bytes.length + 4 + 63) / 64
    (fifo < min level crumbs → exec (.txFrameStart n ⟨sub, fifo⟩) s = .next s) ∧
    (min level crumbs ≤ fifo →
    runs (.txFrameStart n ⟨sub, fifo⟩) s (fun w => (schPort w n).tx = some (id, qx, true) ∧ (schPort w n).txFifo = fifo ∧
      portOf w n = some { q with txStartNow := level, txRaise := false } ∧ (∀ m, m ≠ n.val → portOf w m = portOf s m) ∧
      pktOf w id = some { p with bytes := (egressEdit s.app.parse p out).bytes, egress := some out } ∧
      (∀ j, j ≠ id → pktOf w j = pktOf s j) ∧
      w = { s with sch := w.sch, crb := { s.crb with pkts := w.crb.pkts }, eng := { s.eng with editSkips := w.eng.editSkips }
                   lnm := { s.lnm with ports := w.lnm.ports }, tmb := { s.tmb with tsEditSkips := w.tmb.tsEditSkips }
                   dom := { s.dom with t3 := w.dom.t3 } }))) ∧
  (∀ (s : State) (n : Fin 512) (id qx : Nat) (p : Port), (schPort s n).tx = some (id, qx, true) → portOf s n = some p →
    (schPort s n).txFifo * 64 < headLen s id →
    let q := { counted p 0x128 1 with txRaise := true }
    runs (.txUnderrun n) s (fun w => (schPort w n).tx = none ∧
      portOf w n = some (if p.state = .offline ∧ p.drain = none then
        { q with txCond := if p.txCond = .localFault then .localFault else .electricalIdle } else q) ∧ (∀ m, m ≠ n.val → portOf w m = portOf s m) ∧
      raised s w (if 16 ≤ p.txStartNow then .txUnderrunLimit else .txUnderrun) (0x10 + n.val / 32) n.val ∧
      ∀ q, pktOf s id = some q → q.sendFrom = none → ∃ k, w.out = .badFrame n.val (cutBytes q.bytes k) :: s.out)) ∧
  (∀ (s : State) (n : Fin 512) (id qx : Nat) (p : Packet), (schPort s n).tx = some (id, qx, true) →
    pktOf s id = some p → p.edits = [] →
    runs (.txFrameDepart n) s (fun w =>
      let body := p.bytes ++ List.replicate (60 - p.bytes.length) 0#8
      w.out = .frame n.val (List.replicate 7 0x55#8 ++ 0xD5#8 :: (body ++ leBytes 4 (crc32 body).toNat)) :: s.out ∧ (schPort w n).tx = none ∧
      (∀ j, j ≠ id → pktOf w j = pktOf s j) ∧
      w = { s with lnm := { s.lnm with ports := w.lnm.ports }, sch := w.sch, crb := w.crb, ldg := w.ldg, dec := w.dec, out := w.out }))

/-- The ledger's exactness (R279, R280, R286, R287, R299): an addition raises one counter by what is added, at any parity and while
a cut waits; the spill sweep and the end of a cut's copy leave every counter's value as it was. -/
def Obligations.LedgerExact : Prop :=
  (∀ (late : Bool) (l : Ldg) (i pkts bytes : Nat), i < definedEnd →
    ldgValue (ldgAdd late l { idx := i, pkts := pkts, bytes := bytes }) i =
      ((ldgValue l i).1 + BitVec.ofNat 64 pkts, (ldgValue l i).2 + BitVec.ofNat 64 bytes) ∧
    ∀ j, j ≠ i → ldgValue (ldgAdd late l { idx := i, pkts := pkts, bytes := bytes }) j = ldgValue l j) ∧
  (∀ (s : State) (index : BitVec 22), runs (.spillSweep index) s (fun u =>
    u = { s with ldg := { s.ldg with ctrs := u.ldg.ctrs, sweeps := u.ldg.sweeps } } ∧
    ∀ i, ldgValue u.ldg i = ldgValue s.ldg i)) ∧
  (∀ (s : State) (r : CutRun), s.ldg.running = some r → r.started = true →
    r.freezeTick + (if r.req.summary then 476 else 5532) ≤ s.tmb.tick.toNat →
    runs .cutReady s (fun u => u.ldg.running = none ∧ u.ldg.lastReadyId = r.req.id ∧
      (tgetD u.ldg.bufs r.buffer CutBuf.empty).state = 2 ∧
      u = { s with ldg := { s.ldg with ctrs := u.ldg.ctrs, running := none, lastReadyId := r.req.id, bufs := u.ldg.bufs }
                   que := { s.que with events := u.que.events } } ∧
      ∀ i, ldgValue u.ldg i = ldgValue s.ldg i))

/-- The ledger's requests, registers and errors (R289, R296, R298, R299, R301, R308). -/
def Obligations.LedgerCommands : Prop :=
  (∀ (s : State) (v : W64), v.getLsbD 0 = true → v.getLsbD 2 = false → s.ldg.scheduled = [] → s.ldg.running = none →
    s.tmb.tick.toNat + CutKind.demand.lead ≤ s.ldg.reqTick.toNat →
    exec (.ldgCutReqGo v) s = .next { s with ldg := { s.ldg with
      reqSummary := v.getLsbD 1, reqPair := false, reqStatus := 0#8, reqCutId := s.ldg.nextCutId
      nextCutId := s.ldg.nextCutId + 1#32
      scheduled := [{ kind := .demand, summary := v.getLsbD 1, tick := s.ldg.reqTick.toNat, tag := s.ldg.reqTag,
                      id := s.ldg.nextCutId, partnerOk := false }] } }) ∧
  (∀ (s : State) (v : W64), v.getLsbD 0 = false → exec (.ldgCutReqGo v) s =
    .next { s with ldg := { s.ldg with reqSummary := v.getLsbD 1, reqPair := v.getLsbD 2 } }) ∧
  (∀ (s : State) (v : W64) (k : Nat), v.toNat % 32 = k → 10 ≤ k → k ≤ 30 →
    let summary := v.getLsbD 5 || decide (k < 13)
    let l := { s.ldg with
      scheduled := s.ldg.scheduled.filter (fun c => c.kind ≠ .periodic)
      skipped := s.ldg.skipped + BitVec.ofNat 16 (s.ldg.scheduled.filter (fun c => c.kind = .periodic)).length
      periodLog2 := BitVec.ofNat 5 k, periodSummary := summary }
    runs (.ldgCutPeriodWrite v) s (fun u => u = { s with ldg := u.ldg } ∧ u.ldg.periodLog2 = BitVec.ofNat 5 k ∧
      u.ldg.periodSummary = summary) ∧
    ((s.tmb.tick.toNat + 2) % 2 ^ k ≠ 0 → exec (.ldgCutPeriodWrite v) s = .next { s with ldg := l }) ∧
    ((s.tmb.tick.toNat + 2) % 2 ^ k = 0 → s.ldg.running = none → (∀ c ∈ s.ldg.scheduled, c.kind = .periodic) →
      exec (.ldgCutPeriodWrite v) s = .next { s with ldg := { l with
        nextCutId := s.ldg.nextCutId + 1#32
        scheduled := [{ kind := .periodic, summary := summary, tick := s.tmb.tick.toNat + 1, tag := 0#64
                        id := s.ldg.nextCutId, partnerOk := false }] } })) ∧
  (∀ (s : State) (v : W64), v.toNat % 32 < 10 ∨ v.toNat % 32 = 31 →
    runs (.ldgCutPeriodWrite v) s (fun u => u = { s with ldg := u.ldg } ∧
      (∀ c ∈ u.ldg.scheduled, c.kind = .periodic → v.toNat % 32 ≠ 0 ∧ c.tick = s.tmb.tick.toNat + 1) ∧
      u.ldg.periodLog2 = (if v.toNat % 32 = 0 then 0 else if v.toNat % 32 = 31 then 30 else 10) ∧
      (v.toNat % 32 < 10 → u.ldg.periodSummary = true))) ∧
  (∀ (s : State) (r : CutRun), s.ldg.running = some r → r.freezeTick + 64 ≤ s.tmb.tick.toNat →
    exec .cutCopyStart s = .next { s with ldg := { s.ldg with running := some { r with started := true } } }) ∧
  (∀ (s : State) (r : Fin 18) (m : Mismatch), tget s.ldg.mismatch r.val = some m →
    exec (.ldgConsRearm r) s = .next { s with ldg := { s.ldg with
      mismatch := tset s.ldg.mismatch r.val
        ((tget s.ldg.fresh r.val).getD { m with valid := false, later := 0#16 }) } }) ∧
  (∀ (s : State) (r : Requester) (v : W64), exec (.ldgRdIdxWrite r v) s = .next { s with ldg := { s.ldg with
      rdIdx := s.ldg.rdIdx.set r (v.setWidth 22)
      rdPkts := s.ldg.rdPkts.set r (ldgValue s.ldg (v.toNat % 2 ^ 22)).1
      rdBytes := s.ldg.rdBytes.set r (ldgValue s.ldg (v.toNat % 2 ^ 22)).2 } }) ∧
  (∀ (s : State) (i : BitVec 22) (c : Ctr), tget s.ldg.ctrs i.toNat = some c →
    let lost := fun (cls : FaultClass) (c' : Ctr) (u : State) =>
      u = { s with flt := u.flt, ldg := { s.ldg with
              ctrs := tset s.ldg.ctrs i.toNat c', lost := s.ldg.lost + 1#16, loss := true } } ∧
      ∃ r, u.flt.inbox = s.flt.inbox ++ [r] ∧ r.cls = cls ∧ r.subj = i.setWidth 32 ∧ r.level = 2
    let total := (newestCutValue s.ldg i.toNat).getD (0#64, 0#64)
    runs (.ledgerEccError i .slot0) s (lost .ledgerPartialLost { c with s0 := { p := 0#24, b := 0#40 } }) ∧
    runs (.ledgerEccError i .slot1) s (lost .ledgerPartialLost { c with s1 := { p := 0#24, b := 0#40 } }) ∧
    runs (.ledgerEccError i .total) s (lost .ledgerTotalLost { c with totP := total.1, totB := total.2 }) ∧
    exec (.ledgerEccError i .corrected) s = .next { s with ldg := { s.ldg with eccCorrected := s.ldg.eccCorrected + 1 } })

/-- TICK_BOUNDARY (R53, R56, R59; one command, log entries 29 and 30): once the timebase is released, the tick number rises by one
and by the forward step that the selected source asks for, and the beat restarts; before CORE's release nothing else happens but the
end of the beat and the timebase's own work. A restarting Supervisor that is overdue resets the device instead (R586). -/
def Obligations.TickBoundary : Prop :=
  ∀ (s : State) (declared backlog : W32),
    let b := timeSelect (domainOverdue (beatEnd s))
    let next : W64 := BitVec.ofNat 64 (s.tmb.tick.toNat + 1 + stepTicks b)
    (releasedOf s 3 = false → exec (.tickBoundary declared backlog) s = .next s) ∧
    (releasedOf s 3 = true → s.rst.restarting = false →
      runs (.tickBoundary declared backlog) s (fun u => u.tmb.tick = next ∧ u.tmb.beat = 0)) ∧
    (releasedOf s 3 = true → releasedOf s 9 = false → s.rst.restarting = false → stepTicks b = 0 →
      runs (.tickBoundary declared backlog) s (fun u =>
        u = { beatEnd s with tmb := u.tmb, rst := { (beatEnd s).rst with upTicks := (beatEnd s).rst.upTicks + 1 }, flt := u.flt })) ∧
    (releasedOf s 3 = true → s.rst.restarting = true → s.rst.restartTick + 200000 ≤ next.toNat →
      runs (.tickBoundary declared backlog) s (fun u => u.rst.source = .watchdog ∧ u.rst.released = 0#14))

/-- Latched reads of times and the pins' own ends (R58, R77, R315, R327, R328, R329). -/
def Sys2Proof.Spec.TimeRegisters : Prop :=
  (∀ (s : State) (r : Requester), exec (.tmbTickLoRead r) s = .next { s with
    tmb := { s.tmb with tickHi := s.tmb.tickHi.set r (BitVec.ofNat 32 (s.tmb.tick.toNat / 2 ^ 32)) }
    out := .regData r (BitVec.ofNat 64 (s.tmb.tick.toNat % 2 ^ 32)) :: s.out }) ∧
  (∀ (s : State) (r : Requester),
    let lo := fun (x : SlotTable) => Out.regData r (BitVec.ofNat 64 (x.actTick.toNat % 2 ^ 32))
    let hi := fun (x : SlotTable) => { x with actHi := x.actHi.set r (BitVec.ofNat 32 (x.actTick.toNat / 2 ^ 32)) }
    exec (.sltActLoRead 0 r) s = .next { s with sltCph := hi s.sltCph, out := lo s.sltCph :: s.out } ∧
    exec (.sltActLoRead 1 r) s = .next { s with sltEng := hi s.sltEng, out := lo s.sltEng :: s.out } ∧
    exec (.sltActLoRead 2 r) s = .next { s with sltQue := hi s.sltQue, out := lo s.sltQue :: s.out }) ∧
  (∀ (s : State) (sub : Fin 32000), exec (.tmbSnapGo sub) s = .next { s with
    tmb := { s.tmb with snapTick := s.tmb.tick, snapSub := BitVec.ofNat 15 sub.val } }) ∧
  (∀ (s : State) (v : W64), v.getLsbD 48 = true → exec (.tmbTodArm v) s = .next { s with
    tmb := { s.tmb with todSeconds := v.setWidth 48, todArmed := true, todTick := s.tmb.tick.toNat, todBeat := s.tmb.beat } }) ∧
  (∀ s : State, s.tmb.ppsOut = true → s.tmb.ppsRise + s.tmb.ppsWidth.toNat ≤ s.tmb.tick.toNat →
    exec .ppsOutFall s = .next { s with tmb := { s.tmb with ppsOut := false } }) ∧
  (∀ s : State, 800 ≤ s.tmb.beat → exec .tickOutFall s = .next { s with tmb := { s.tmb with tickOut := false } }) ∧
  (∀ s : State, s.tmb.selected = .holdover → s.tmb.traceable = true → s.tmb.maxTicks.toNat ≤ s.tmb.elapsed.toNat →
    runs .holdoverExpired s (fun u => raised s u .holdoverExpired 0x02 0xFFFF ∧
      u = { s with flt := u.flt, tmb := { s.tmb with traceable := false, expiries := s.tmb.expiries + 1#16 } }))

/-- The time sources (R319, R320, R321, R330): an edge in phase within its tolerance, as the base of the DCO counts it, counts toward
qualification, a missing one loses the source, and the loss of the selected source is reported. A PTP port keeps the best master that
announces itself, measures where it receives, and a message that is due goes out through the port's control queue (the data set
comparison and the message layouts are presumed from IEEE 1588, log entry 59). -/
def Sys2Proof.Spec.TimeSources : Prop :=
  let lost := fun (x : SourceState) =>
    { x with qualified := false, lostBefore := true, good := 0, traceable := false, edgeTime := none }
  (∀ (s : State) (sub : Fin 32000) (l : Nat), s.tmb.refPps.lastEdge = some l → s.tmb.todArmed = false →
    s.tmb.refPps.qualified = false → s.tmb.refPps.edgeTime = none → s.tmb.refPps.good = 0 →
    let at_ : Int := (s.tmb.tick.toNat * 32000 + sub.val : Nat) - s.tmb.ppsInDelay.toInt
    ((at_ - l - 32000000000) * 100 - (s.tmb.slewed - s.tmb.refPps.edgeSlew)).natAbs ≤ 3200000 →
    exec (.ppsInEdge sub true) s = .next { s with tmb := { s.tmb with
      baseRefTime := true
      refPps := { s.tmb.refPps with
        lastEdge := some at_.toNat, edgeSlew := s.tmb.slewed, offset := (nearest at_ 32000000000 - at_) * 100, good := 1 } } }) ∧
  (∀ (s : State) (sub : Fin 32000) (l : Nat), s.tmb.tickIn.lastEdge = some l → s.tmb.todArmed = false →
    s.tmb.tickIn.qualified = false → s.tmb.tickIn.edgeTime = none → s.tmb.tickIn.good = 15 →
    let at_ : Int := (s.tmb.tick.toNat * 32000 + sub.val : Nat) - s.tmb.tickInDelay.toInt
    ((at_ - l - 32000) * 100 - (s.tmb.slewed - s.tmb.tickIn.edgeSlew)).natAbs ≤ 16000 →
    exec (.tickInEdge sub) s = .next { s with tmb := { s.tmb with tickIn := { s.tmb.tickIn with
      lastEdge := some at_.toNat, edgeSlew := s.tmb.slewed, offset := (nearest at_ 32000 - at_) * 100, good := 16, qualified := true
      since := s.tmb.tick.toNat } } }) ∧
  (∀ s : State, s.tmb.refPps.qualified = true →
    let u := { s with tmb := { s.tmb with
      baseRefTime := false, refPps := lost s.tmb.refPps, refLosses := s.tmb.refLosses + 1#16 } }
    (s.tmb.selected ≠ .refPps → exec .refTimeLoss s = .next u) ∧
    (s.tmb.selected = .refPps → runs .refTimeLoss s (fun w => w = { u with flt := w.flt } ∧ raised s w .timeRefLoss 0x02 2))) ∧
  (∀ (s : State) (l : Nat), s.tmb.refPps.qualified = true → s.tmb.refPps.lastEdge = some l → s.tmb.selected ≠ .refPps →
    l + 1000001 * 32000 ≤ s.tmb.tick.toNat * 32000 + s.tmb.beat * 20 →
    exec .ppsInTimeout s = .next { s with tmb := { s.tmb with
      refPps := lost s.tmb.refPps, refLosses := s.tmb.refLosses + 1#16 } }) ∧
  (∀ (s : State) (l : Nat), s.tmb.tickIn.qualified = true → s.tmb.tickIn.lastEdge = some l → s.tmb.selected = .tickIn →
    l + 64000 ≤ s.tmb.tick.toNat * 32000 + s.tmb.beat * 20 →
    runs .tickInTimeout s (fun w => raised s w .timeRefLoss 0x02 5 ∧ w = { s with flt := w.flt, tmb := { s.tmb with
      tickIn := lost s.tmb.tickIn, refLosses := s.tmb.refLosses + 1#16 } })) ∧
  (∀ s : State, s.tmb.ptp.qualified = true → s.tmb.selected = .ptp →
    runs .ptpAnnounceTimeout s (fun w => raised s w .timeRefLoss 0x02 3 ∧ w = { s with flt := w.flt, tmb := { s.tmb with
      ptp := lost s.tmb.ptp, refLosses := s.tmb.refLosses + 1#16 } })) ∧
  (∀ (s : State) (n : Fin 512) (p : PtpPort) (sub : Fin 32000), ptpPortOf s n = some p →
    (∀ (a : Announce) (good : Bool), (∀ m, ptpHeard s p = some m → m.data.sender = a.sender ∨ a.better m.data = true) →
      runs (.ptpMessageRx n (.announce a) 0 good sub) s (fun u =>
        ptpPortOf u n = some { p with foreign := some { data := a, traceable := good, tick := s.tmb.tick.toNat } } ∧
        u = { s with ptp := { s.ptp with ports := u.ptp.ports }, tmb := { s.tmb with ptp := { s.tmb.ptp with
          traceable := u.tmb.ptp.traceable } } })) ∧
    (∀ (a : Announce) (good : Bool) (m : PtpMaster), ptpHeard s p = some m → m.data.sender ≠ a.sender → a.better m.data = false →
      exec (.ptpMessageRx n (.announce a) 0 good sub) s = .next s) ∧
    (∀ offset, ptpState s p = .receiver → p.peerDelay = false → s.tmb.ptp.qualified = false →
      exec (.ptpMessageRx n .delayResp offset true sub) s = .next { s with tmb := { s.tmb with ptp := { s.tmb.ptp with
        lastEdge := some (s.tmb.tick.toNat * 32000 + sub.val), offset := offset } } }) ∧
    (∀ offset good, ptpState s p ≠ .receiver → exec (.ptpMessageRx n .sync offset good sub) s = .next s ∧
      exec (.ptpMessageRx n .followUp offset good sub) s = .next s ∧
      exec (.ptpMessageRx n .delayResp offset good sub) s = .next s)) ∧
  (∀ (s : State) (n : Fin 512) (p : PtpPort) (k : Fin 3), s.ptp.ports.find? (fun p => p.port == n.val) = some p →
    (ptpDue s p k.val = false → exec (.ptpMessageSend n k) s = .next s) ∧
    (let mac := (List.range 6).map (fun i => Config.freeBits 8 (s.free + i))
     let ip := (List.range 16).map (fun i => Config.freeBits 8 (s.free + 6 + i))
     let frame := (ptpFrame p.transport (k.val != 1) (k.val == 2 && p.peerDelay) mac ip (ptpBytes s p k.val)).1
     ptpDue s p k.val = true → enqueueReason s n = none → s.crb.controlUsed + (frame.length + 4 + 63) / 64 ≤ controlReserve →
     runs (.ptpMessageSend n k) s (fun u =>
       u.ptp.ports.find? (fun p => p.port == n.val) =
         some { p with last := tset p.last k.val s.tmb.tick.toNat, seq := p.seq + 1#16 } ∧
       (schQueue u (4096 + n.val)).frames = (schQueue s (4096 + n.val)).frames ++ [s.crb.nextId] ∧
       ∃ x, pktOf u s.crb.nextId = some x ∧ x.bytes = frame ∧ x.control = true ∧ x.origin = 2 ∧ x.queue = some (4096 + n.val))))

/-- The timebase: its registers and pins, and its sources. -/
def Obligations.Time : Prop := Spec.TimeRegisters ∧ Spec.TimeSources

namespace Sys2Proof.Spec
open Sys2Proof.Machine

/-- The command by which an alarm class's cause comes or goes (R576). -/
def alarmCommand : AlarmKind → Bool → Instr
  | .mesh, b => .alarmMesh b
  | .voltage, b => .alarmVoltage b
  | .clock, b => .alarmClock b
  | .temperature, b => .alarmTemperature b
  | .vbat, b => .alarmVbat b

/-- The monitors run and reports go to the collector: from CORE release on (R582, R584). -/
def watching (s : State) : Prop := releasedOf s 2 = true ∧ releasedOf s 9 = true

end Sys2Proof.Spec

/-- The security alarms (R576, R577, R581): a cause that appears while its class is not LATCHED latches it, drives ALRM_N
unless the policy is LOG and is reported; a cause that goes leaves LATCHED; the loss of VBAT first clears what VBAT keeps. -/
def Sys2Proof.Spec.AlarmsRaised : Prop :=
  ∀ (s : State) (k : AlarmKind), watching s →
    exec (alarmCommand k false) s = .next { s with sec := s.sec.setAlarm k { s.sec.alarm k with cause := false } } ∧
    (k ≠ .vbat → (s.sec.alarm k).latched = false → (s.sec.alarm k).policy ≠ .erase →
      runs (alarmCommand k true) s (fun u => raised s u k.cls 0x03 k.index ∧
        u = { s with
          flt := u.flt
          sec := s.sec.setAlarm k { s.sec.alarm k with
            cause := true, latched := true, drive := (s.sec.alarm k).policy ≠ .log } })) ∧
    (k ≠ .vbat → (s.sec.alarm k).latched = false → (s.sec.alarm k).policy = .erase →
      runs (alarmCommand k true) s (fun u => raised s u k.cls 0x03 k.index ∧ u.kvl.erasing = true ∧
        u.sec = s.sec.setAlarm k { s.sec.alarm k with cause := true, latched := true, drive := true })) ∧
    (k ≠ .vbat → (s.sec.alarm k).latched = true →
      runs (alarmCommand k true) s (fun u => raised s u k.cls 0x03 k.index ∧
        u = { s with flt := u.flt, sec := s.sec.setAlarm k { s.sec.alarm k with cause := true } })) ∧
    ((s.sec.vbat).latched = false → s.sec.vbat.policy ≠ .erase →
      runs (.alarmVbat true) s (fun u => raised s u .alarmVbat 0x03 4 ∧ u = { s with flt := u.flt, sec := u.sec, kvl := u.kvl } ∧
        u.kvl = { s.kvl with vbat := [], erases := 0#16 } ∧ u.sec.tickMark = 0 ∧ u.sec.vbatEpoch = 0 ∧ u.sec.refLossFlag = false ∧
        u.sec.vbat.latched = true ∧ ∀ j, (u.sec.alarm j).stored = none))

/-- SEC_ALARM_ACK (R578): LATCHED clears for each named class whose cause is clear, and with it its hold of ALRM_N. -/
def Sys2Proof.Spec.AlarmsAcknowledged : Prop :=
  ∀ (s : State) (v : W64), runs (.secAlarmAck v) s (fun u =>
    u = { s with sec := { s.sec with
      mesh := u.sec.mesh, voltage := u.sec.voltage, clock := u.sec.clock, temperature := u.sec.temperature
      vbat := u.sec.vbat } } ∧
    ∀ k : AlarmKind, u.sec.alarm k =
      if v.getLsbD k.index = true ∧ (s.sec.alarm k).cause = false then { s.sec.alarm k with latched := false, drive := false }
      else s.sec.alarm k)

/-- The security alarms: raised and gone, and acknowledged. -/
def Obligations.Alarms : Prop := Spec.AlarmsRaised ∧ Spec.AlarmsAcknowledged

/-- The clocks (R557, R558): the loss of REF_100 stops AON, keeps its flag, holds FLT_N low, forces every port to the safe
state and is detected under ALARM_CLOCK; the loss of another PLL that the collector watches is reported at the level of
its domain, and relock ends it. -/
def Sys2Proof.Spec.ClockLoss : Prop :=
  (∀ s : State, watching s → s.sec.clock.latched = false →
    runs .ref100Loss s (fun u => 0 ∈ u.rst.unlocked ∧ u.flt.holdLow = true ∧ u.sec.refLossFlag = true ∧
      u.sec.clock.latched = true ∧ (∃ r ∈ u.flt.inbox, r.cls = .alarmClock) ∧
      ∀ n p, portOf u n = some p → p.state = .safe ∨ p.state = .offline)) ∧
  (∀ s : State, exec (.clockLockLoss 0) s = exec .ref100Loss s) ∧
  (∀ (s : State) (d : Fin 40), watching s → d.val ∉ s.rst.unlocked → d.val ≠ 0 → d.val ≠ 38 → (d.val < 16 ∨ 32 ≤ d.val) →
    runs (.clockLockLoss d) s (fun u =>
      u = { s with rst := { s.rst with unlocked := s.rst.unlocked ++ [d.val] }, flt := u.flt } ∧
      ∃ r, u.flt.inbox = s.flt.inbox ++ [r] ∧ r.cls = .clockLockLoss ∧
        r.detail = BitVec.ofNat 256 d.val ∧
        r.level = (if d.val ∈ [1, 2, 11] then 4 else if d.val < 16 then 3 else if d.val < 37 then 2 else 1))) ∧
  (∀ (s : State) (d : Fin 40), exec (.clockLockRegained d) s =
    .next { s with rst := { s.rst with unlocked := s.rst.unlocked.filter (fun x => x != d.val) } })

/-- Sensors and HBM (R39, R241, R551): a reading above 105 °C that stands, or one above 115 °C, is reported, and SEC shows the
hottest sensor; a failed HBM channel is reported against its controller; an uncorrectable error counts against its
channel, and sixteen within 1,000,000 ticks fail it. -/
def Sys2Proof.Spec.SensorsAndHbm : Prop :=
  (∀ (s : State) (i : Fin 16) (v : BitVec 10), s.flt.sensors = [] →
    let read := { s with flt := { s.flt with sensors := [(i.val, v)] }, sec := { s.sec with junction := v } }
    ((v.toInt ≤ 105 → exec (.dieSensorHigh i v) s = .next read) ∧
    (105 < v.toInt → runs (.dieSensorHigh i v) s (fun u => u = { read with flt := u.flt } ∧ u.flt.sensors = [(i.val, v)] ∧
      raised s u .junctionHigh 0x03 i.val)) ∧
    (v.toInt ≤ 115 → exec (.junctionCritical i v) s = .next read) ∧
    (115 < v.toInt → runs (.junctionCritical i v) s (fun u => u = { read with flt := u.flt } ∧
      u.flt.sensors = [(i.val, v)] ∧ raised s u .junctionCritical 0x03 i.val)))) ∧
  (∀ (s : State) (stack : Fin 4) (channel : Fin 16), runs (.hbmChannelFail stack channel) s (fun u =>
    u = { s with flt := u.flt } ∧ raised s u .hbmChannelFail (0x38 + stack.val) channel.val)) ∧
  (∀ (s : State) (a : BitVec 37), 0x204000000 ≤ a.toNat → a.toNat < 0x1680000000 →
    tgetD s.hbmU.errors (hbmChannelOf a.toNat) [] = [] →
    exec (.hbmUncorrectableError a) s = .next { s with hbmU := { s.hbmU with
      errors := tset s.hbmU.errors (hbmChannelOf a.toNat) [s.tmb.tick.toNat] } }) ∧
  (∀ (s : State) (a : BitVec 37) (ts : List Nat), 0x204000000 ≤ a.toNat → a.toNat < 0x1680000000 →
    tgetD s.hbmU.errors (hbmChannelOf a.toNat) [] = ts → ts.length = 15 → (∀ t ∈ ts, s.tmb.tick.toNat < t + 1000000) →
    runs (.hbmUncorrectableError a) s (fun u => u = { s with flt := u.flt, hbmU := u.hbmU } ∧
      raised s u .hbmChannelFail (0x38 + hbmChannelOf a.toNat / 16) (hbmChannelOf a.toNat % 16)))

/-- Lost clocks, sensors and HBM errors. -/
def Obligations.ClockAndSensors : Prop := Spec.ClockLoss ∧ Spec.SensorsAndHbm

/-- FAULT_REPORT (R555, R562, R563, R566, R567, R570): the record of a checker that raised the report is frozen, or the frozen one
counts. A report of the class and subject of an OPEN record counts there; another opens a record, at the class's level where nothing
raises it. One of L0 only enters the store; one of L1 posts a NEW event; one of L2 is contained at the next boundary, drives FLT_N low
from 4 beats on for 16,000 beats, and enters the journal's ring. A report given that names a unit outside R23 is none. -/
def Sys2Proof.Spec.FaultReports : Prop :=
  ∀ (s : State) (r : Report), releasedOf s 9 = true → 0 ∉ s.rst.unlocked → domMember s = false →
    (r.listed = false → exec (.faultReport (some r)) s = .next s) ∧
    (s.flt.inbox = [] → exec (.faultReport none) s = .next s) ∧
    (r.listed = true →
    let checker := checkerUnit r.cls r.subj
    let key := checker * 65536 + r.cap.checker.toNat
    let old := tgetD s.flt.checkers key Capture.blank
    let hit := s.flt.injArm = true ∧ s.flt.injUnit.toNat = checker ∧ s.flt.injChecker = r.cap.checker
    let cap : Capture := if r.cap.valid = false then r.cap
      else if old.valid then { old with count := satInc old.count }
      else { r.cap with injected := r.cap.injected || decide hit, count := 0#16 }
    let f : Flt := if r.cap.valid = false then s.flt
      else { s.flt with checkers := tset s.flt.checkers key cap, injArm := s.flt.injArm && !decide hit }
    (∀ i x, openRecord s.flt.store r.cls.code r.subj = some i → tget s.flt.store i = some x →
      exec (.faultReport (some r)) s = .next { s with flt := { f with
        store := tset s.flt.store i { x with count := satInc x.count, lastTick := s.tmb.tick } } } ∧
      (s.flt.inbox = [r] → exec (.faultReport none) s = .next { s with flt := { s.flt with
        inbox := [], store := tset s.flt.store i { x with count := satInc x.count, lastTick := s.tmb.tick } } })) ∧
    (openRecord s.flt.store r.cls.code r.subj = none → s.flt.overrides = [] → r.cls.row.esc = false →
      r.cls.isAlarm = false → s.flt.ringLoss = none → s.flt.ring.length < 1024 → r.level < 3 →
      2 < s.flt.irqLevel.toNat → s.flt.journalLevel = 2 → ∀ i, storePlace s.flt.store = some i → i < 256 →
      runs (.faultReport (some r)) s (fun u => ∃ x : FaultRecord,
        u = { s with flt := u.flt, que := u.que } ∧ u.flt.inbox = s.flt.inbox ∧
        u.flt.checkers = f.checkers ∧ u.flt.injArm = f.injArm ∧
        u.flt.store = tset s.flt.store i x ∧ u.flt.lastOpenSeq = x.seq ∧ u.flt.lastAnySeq = x.seq ∧
        x.seq = seqAfter s.flt.lastAnySeq ∧ x.kind = .fault ∧ x.level = r.level ∧ x.escalated = false ∧ x.acked = false ∧
        x.injected = cap.injected ∧ x.forced = r.forced ∧
        x.cls = BitVec.ofNat 16 r.cls.code ∧ x.subject = r.subj ∧ x.index = BitVec.ofNat 8 i ∧ x.count = 1 ∧
        x.firstTick = s.tmb.tick ∧ x.lastTick = s.tmb.tick ∧ x.bootEpoch = s.rst.epoch ∧ x.capture = cap ∧
        x.detail = r.detail ∧
        (r.level = 0 → u.que = s.que) ∧
        (1 ≤ r.level → u.que = { s.que with events := s.que.events ++
          [{ type := .fault, tick := s.tmb.tick, record := FaultRecord.event 0 x }] }) ∧
        (r.level ≤ 1 → u.flt.ring = s.flt.ring ∧ u.flt.contain = s.flt.contain ∧ u.flt.pulseEnd = s.flt.pulseEnd) ∧
        (r.level = 2 → u.flt.ring = s.flt.ring ++ [x] ∧
          u.flt.contain = s.flt.contain ++ [{ cls := r.cls, subj := r.subj, level := 2 }] ∧
          u.flt.pulseEnd = some ((nowBeats s + 16004) / 1600, (nowBeats s + 16004) % 1600) ∧
          u.flt.pulseFrom = if s.flt.pulseEnd.isSome then s.flt.pulseFrom else nowBeats s + 4))) ∧
    (s.flt.inbox = [r] → r.cap.valid = false →
      exec (.faultReport none) s = exec (.faultReport (some r)) { s with flt := { s.flt with inbox := [] } }))

/-- FAULT_ACK through FLT_ACK (R564, R568): the first status that applies. A record named by place and SEQ becomes ACKED with its
event; one that was journaled has an ACK record in the ring that names it. -/
def Sys2Proof.Spec.FaultAcknowledged : Prop :=
  ∀ (s : State) (v : W64), releasedOf s 9 = true →
    let place := v.toNat % 256
    let seq : W32 := BitVec.ofNat 32 (v.toNat / 2 ^ 32)
    (fieldN v.toNat 11 21 ≠ 0 →
      exec (.faultAck (.register v)) s = .next { s with flt := { s.flt with ackStatus := 1, ackCount := 0 } }) ∧
    (fieldN v.toNat 11 21 = 0 → v.getLsbD 10 = false → (∀ x, (place, x) ∈ s.flt.store → x.seq ≠ seq) →
      exec (.faultAck (.register v)) s = .next { s with flt := { s.flt with ackStatus := 7, ackCount := 0 } }) ∧
    (∀ x : FaultRecord, fieldN v.toNat 8 24 = 0 → s.flt.store = [(place, x)] → x.seq = seq → x.acked = false → 1 ≤ x.level →
      s.flt.ringLoss = none → s.flt.ring.length < 1024 →
      runs (.faultAck (.register v)) s (fun u => u = { s with flt := u.flt, que := u.que } ∧
        u.flt.store = [(place, { x with acked := true })] ∧ u.flt.ackStatus = 0 ∧ u.flt.ackCount = 1 ∧
        u.que = { s.que with events := s.que.events ++
          [{ type := .fault, tick := s.tmb.tick, record := FaultRecord.event 2 { x with acked := true } }] } ∧
        (x.journaled = false → u.flt.ring = s.flt.ring) ∧
        (x.journaled = true → ∃ a : FaultRecord, u.flt.ring = s.flt.ring ++ [a] ∧ a.kind = .ack ∧ a.refSeq = x.seq ∧
          a.seq = seqAfter s.flt.lastAnySeq ∧ a.cls = x.cls ∧ a.subject = x.subject ∧ a.level = x.level ∧
          a.acked = true ∧ a.count = x.count ∧ a.capture = x.capture ∧ a.detail = x.detail)))

/-- Fault records: opened and merged, and acknowledged. -/
def Obligations.FaultRecords : Prop := Spec.FaultReports ∧ Spec.FaultAcknowledged

/-- FLT_N, injection and forcing (R567, R570, R571): the pulse ends at its beat, and not without one; a write of FLT_INJ stores its
fields and arms an injection for MODE 1 and 2, the reserved MODE 3 being kept out; a forced report of a class of R551 is taken before
DEVICE_READY, in test mode and in recovery mode, at the level of R551, R557 and R155, and is counted as refused otherwise. -/
def Sys2Proof.Spec.FaultControlsSet : Prop :=
  (∀ s : State,
    (s.flt.pulseEnd = none → exec .fltNPulseEnd s = .next s) ∧
    (∀ t b, s.flt.pulseEnd = some (t, b) →
      (t * 1600 + b ≤ nowBeats s → exec .fltNPulseEnd s = .next { s with flt := { s.flt with pulseEnd := none } }) ∧
      (nowBeats s < t * 1600 + b → exec .fltNPulseEnd s = .next s))) ∧
  (∀ (s : State) (v : W64),
    let mode : BitVec 2 := if v.extractLsb' 24 2 = 3#2 then s.flt.injMode else v.extractLsb' 24 2
    exec (.fltInjWrite v) s = .next { s with flt := { s.flt with
      injUnit := v.extractLsb' 0 8, injChecker := v.extractLsb' 8 16, injMode := mode
      injArm := v.getLsbD 26 && (mode == 1#2 || mode == 2#2) } }) ∧
  (∀ (s : State) (v : W64),
    let taken : Flt := { s.flt with forceClass := v.extractLsb' 0 16, forceSubject := v.extractLsb' 16 32 }
    (v.getLsbD 48 = false → exec (.fltForceGo v) s = .next { s with flt := taken }) ∧
    (v.getLsbD 48 = true →
      (s.hif.deviceReady = true ∧ s.rst.testMode = false ∧ s.rst.recovery = false) ∨ FaultClass.ofCode (v.toNat % 65536) = none →
      exec (.fltForceGo v) s = .next { s with flt := { taken with forceRefused := s.flt.forceRefused + 1 } }) ∧
    (∀ c, v.getLsbD 48 = true → s.hif.deviceReady = false ∨ s.rst.testMode = true ∨ s.rst.recovery = true →
      FaultClass.ofCode (v.toNat % 65536) = some c →
      runs (.fltForceGo v) s (fun u => u = { s with flt := { taken with inbox := u.flt.inbox } } ∧
        ∃ r, u.flt.inbox = s.flt.inbox ++ [r] ∧ r.cls = c ∧ r.subj = v.extractLsb' 16 32 ∧
          r.forced = true ∧ r.cap.access = 0x0F ∧ r.cap.valid = false ∧
          (c = .clockLockLoss → r.level = clockLossLevel (v.toNat / 2 ^ 24 % 65536)) ∧
          (c = .linkDegraded → r.level = if ((subjPort r.subj).bind (portOf s)).any (fun p => p.cfg.degradeAction) then 2 else 1) ∧
          (c ≠ .clockLockLoss → c ≠ .linkDegraded → r.level = c.row.level))))

/-- The journal (R560, R572, R573): the oldest entry leaves the ring for its place with its WRITE_TICK, on the device of the option
bytes; entering a sector starts an erase, which leaves the next sector blank when it is done, and until then that sector is not
entered. With L4_ACTION, the reset that an L4 record ordered comes at its beat, which the writing of that record to the journal brings
forward to the present one. -/
def Sys2Proof.Spec.FaultJournal : Prop :=
  (∀ s : State, s.flt.ring = [] ∨ 36 ∈ s.rst.unlocked ∨ journalSectors s < 16 ∨ (s.flt.erasing = true ∧ s.flt.nextPlace % 512 = 0) →
    exec .journalWrite s = .next s) ∧
  (∀ (s : State) (r : FaultRecord) (rest : List FaultRecord), s.flt.ring = r :: rest → 36 ∉ s.rst.unlocked →
    16 ≤ journalSectors s → (s.flt.erasing = false ∨ s.flt.nextPlace % 512 ≠ 0) →
    let put := fun (nvm : Tbl Byte) => putBytes 0xFF nvm (journalBase s + 131072 + s.flt.nextPlace * 128)
      (FaultRecord.bytes { r with writeTick := s.tmb.tick })
    runs .journalWrite s (fun u => u = { s with board := u.board, flt := u.flt } ∧
      u.board = (if journalDev s then { s.board with nvm1 := put s.board.nvm1 } else { s.board with nvm0 := put s.board.nvm0 }) ∧
      u.flt.ring = rest ∧ u.flt.lastWrittenSeq = r.seq ∧
      u.flt.resetDue = s.flt.resetDue.map (fun d => if d.1 = r.seq then (d.1, s.tmb.tick.toNat, s.tmb.beat) else d) ∧
      u.flt.nextPlace = (s.flt.nextPlace + 1) % ((journalSectors s - 2) * 512) ∧
      u.flt.erasing = (s.flt.erasing || s.flt.nextPlace % 512 == 0) ∧ u.flt.inbox = s.flt.inbox)) ∧
  (∀ s : State, s.flt.erasing = false → exec .journalEraseDone s = .next s) ∧
  (∀ s : State, s.flt.erasing = true → 16 ≤ journalSectors s →
    runs .journalEraseDone s (fun u => u = { s with board := u.board, flt := { s.flt with erasing := false } } ∧
      u.board = (if journalDev s then { s.board with nvm1 := u.board.nvm1 } else { s.board with nvm0 := u.board.nvm0 }) ∧
      ∃ k, k < journalSectors s - 2 ∧ ∀ a : Nat,
        let was := tget (if journalDev s then s.board.nvm1 else s.board.nvm0) a
        let is := tget (if journalDev s then u.board.nvm1 else u.board.nvm0) a
        (journalBase s + 131072 + k * 65536 ≤ a ∧ a < journalBase s + 131072 + (k + 1) * 65536 → is = none) ∧
        (a < journalBase s + 131072 + k * 65536 ∨ journalBase s + 131072 + (k + 1) * 65536 ≤ a → is = was))) ∧
  (∀ s : State, s.flt.resetDue = none ∨ s.flt.l4Action = false → exec .faultResetDue s = .next s) ∧
  (∀ (s : State) (q : W32) (t b : Nat), s.flt.resetDue = some (q, t, b) → s.flt.l4Action = true →
    (t * 1600 + b ≤ nowBeats s → runs .faultResetDue s (fun u => u.rst.source = .fault ∧ u.rst.released = 0 ∧ u.rst.waiting = 1 ∧
      u.rst.resets = s.rst.resets + 1 ∧ u.pending = s.pending)) ∧
    (nowBeats s < t * 1600 + b → exec .faultResetDue s = .next s))

/-- FLT_N, injection, forcing and the journal. -/
def Obligations.FaultControls : Prop := Spec.FaultControlsSet ∧ Spec.FaultJournal

/-- The device resets (R583, R584, R585): every domain is back at its reset state, the sequence starts over, the board and what
VBAT keeps stay, and a reset of code 1 to 4 is counted and leaves the alarms LATCHED. -/
def Sys2Proof.Spec.DeviceResets : Prop :=
  ∀ (s : State) (test : Bool) (i : Instr) (code : ResetSource),
    (i = .powerOnReset ∧ code = .powerOn) ∨ (i = .rstNAssert ∧ code = .rstN) ∨ (i = .rstSwDeviceReset test ∧ code = .software) →
    runs i s (fun u =>
      u.board = s.board ∧ u.rst.source = code ∧ u.rst.released = 0 ∧ u.hif.deviceReady = false ∧
      u.rst.resets = (if code = .powerOn then 0 else s.rst.resets + 1) ∧
      u.rst.inReset = (code = .powerOn ∨ code = .rstN) ∧ u.rst.waiting = (if code = .software then 1 else 0) ∧
      u.rst.testRequested = (code = .software ∧ test = true) ∧
      u.lnm = Lnm.reset s.board.f256 ∧ u.fwd = Fwd.reset ∧ u.dec = Dec.reset ∧ u.crb = Crb.reset ∧ u.sch = Sch.reset ∧
      u.ldg = Ldg.reset ∧ u.eng = Eng.reset ∧ u.cph = Cph.reset ∧ u.que = Que.reset ∧ u.dma = Dma.reset ∧
      u.mbx = Mbx.reset ∧ u.sto = Sto.reset ∧ u.mir = Mir.reset ∧ u.dom = Dom.reset ∧ u.tmb = Tmb.reset ∧
      u.kvl.vol = [] ∧ u.kvl.vbat = (if s.kvl.erasing then [] else s.kvl.vbat) ∧
      u.kvl.erases = (if s.kvl.erasing then s.kvl.erases + 1#16 else s.kvl.erases) ∧
      u.sec.tickMark = s.sec.tickMark ∧ u.sec.vbatEpoch = s.sec.vbatEpoch ∧ u.sec.vbatValid = s.sec.vbatValid ∧
      u.sec.refLossFlag = s.sec.refLossFlag ∧
      (∀ k, (u.sec.alarm k).stored = (s.sec.alarm k).stored ∧
        (u.sec.alarm k).latched = (code ≠ .powerOn ∧ (s.sec.alarm k).latched = true)))

/-- The Supervisor (R586, R587): a Supervisor reset sets RESTARTING, is counted, and enters the ring as a RESET record of code 5
while forwarding state stays; the verified firmware resumes; the first expiry of the watchdog raises its fault, and one
during a Supervisor reset resets the device. -/
def Sys2Proof.Spec.SupervisorRestart : Prop :=
  (∀ (s : State) (i : Instr), i = .supervisorReset ∨ i = .rstSwSupervisorReset → releasedOf s 6 = true →
    s.rst.restarting = false → s.ptp.enable = false → s.flt.ringLoss = none → s.flt.ring.length < 1024 →
    openRecords s.flt.store = [] →
    runs i s (fun u => u = { s with
        rst := { s.rst with
          restarting := true, restartTick := intervalStart s, supervisorResets := s.rst.supervisorResets + 1
          wdogRunning := false }
        mbx := u.mbx, flt := u.flt } ∧
      (∃ r : FaultRecord, u.flt.ring = s.flt.ring ++ [r] ∧ r.kind = .reset ∧ r.cls = 0 ∧ r.level = 0 ∧ r.count = 1 ∧
        r.detail = 5 ∧ r.seq = seqAfter s.flt.lastAnySeq) ∧
      u.flt.store = s.flt.store ∧ ∀ b, (tgetD u.mbx.boxes b Mailbox.reset).h2sFull = false)) ∧
  (∀ s : State, s.rst.restarting = true → s.que.admin0.accepted = [] → s.que.admin1.accepted = [] →
    exec (.supervisorResume true) s = .next { s with rst := { s.rst with restarting := false, wdogRunning := true } } ∧
    exec (.supervisorResume false) s = .next s) ∧
  (∀ s : State, releasedOf s 6 = true →
    (s.rst.restarting = false → releasedOf s 9 = true → runs .supervisorWatchdog s (fun u =>
      raised s u .supervisorWatchdog 0x00 0xFFFF ∧ u = { s with flt := u.flt, rst := { s.rst with
        expiries := s.rst.expiries + 1, lastExpiry := BitVec.ofNat 32 s.tmb.tick.toNat } })) ∧
    (s.rst.restarting = true → runs .supervisorWatchdog s (fun u =>
      u.rst.source = .watchdog ∧ u.rst.released = 0 ∧ u.rst.waiting = 1 ∧ u.rst.resets = s.rst.resets + 1)))

/-- The device resets and the resets of the Supervisor. -/
def Obligations.Resets : Prop := Spec.DeviceResets ∧ Spec.SupervisorRestart

/-- The start (R57, R592, R593, R596): RST_N released begins the sequence; each release waits for its conditions; the option bytes
give the configuration or recovery mode; CORE's release starts the tick number and commits the next boot epoch. -/
def Sys2Proof.Spec.StartSequence : Prop :=
  (∀ s : State, s.rst.inReset = true →
    exec .rstNDeassert s = .next { s with rst := { s.rst with inReset := false, waiting := 1, upTicks := 0 } }) ∧
  (∀ s : State, exec (.domainRelease false) s = .next s) ∧
  (∀ (s : State) (k : Nat), s.rst.waiting = k → 1 ≤ k → k ≤ 14 → s.rst.inReset = false → releaseHolds s k = true →
    releaseSkipped s k = false →
    runs (.domainRelease true) s (fun u => u.rst.released = s.rst.released ||| BitVec.ofNat 14 (2 ^ (k - 1)) ∧
      (k ≠ 9 → u.tmb = s.tmb ∧ u.board = s.board) ∧
      (k = 11 → u.cph.enabled = true ∧ u.cph.bootEpoch = s.rst.epoch) ∧
      (k = 9 → s.tmb.traceable = true → u.tmb = s.tmb) ∧
      (k = 9 → s.tmb.traceable = false → s.sec.vbatValid = false → journalNewest s = none →
        u.tmb.tick = BitVec.ofNat 64 2000000) ∧
      (k = 9 → journalOpen s = false → u.rst.epochFailed = true ∧ u.rst.committed = s.rst.committed ∧ u.board = s.board) ∧
      (k = 9 → journalOpen s = true → u.rst.committed = true ∧ u.sec.vbatEpoch = u.rst.epoch ∧
        u.rst.epoch = BitVec.ofNat 24 (min (max (max (sectorEpoch s 0) (sectorEpoch s 1))
          (if s.sec.vbatValid then s.sec.vbatEpoch.toNat else 0) + 1) 0xFFFFFF)))) ∧
  (∀ s : State, releasedOf s 5 = true → s.rst.optRead = false →
    (∀ o one, optionSelect s = some (o, one) → runs .optionByteRead s (fun u =>
      u.rst.options = o ∧ u.rst.policyEff = o.policy ∧ u.rst.optRead = true ∧
      u.rst.testMode = (s.rst.testRequested && !o.policy.getLsbD 1) ∧
      u.rst.recovery = s.rst.recovery ∧ u = { s with rst := u.rst, flt := u.flt } ∧ (one = false → u.flt = s.flt))) ∧
    (optionSelect s = none → runs .optionByteRead s (fun u =>
      u.rst.recovery = true ∧ u.rst.options = optionsRecovery ∧ u.rst.policyEff = 0 ∧ u.rst.optRead = true ∧
      ∃ r ∈ u.flt.inbox, r.cls = .optionBytesBad))) ∧
  (∀ s : State, deviceReady s = true → s.rst.committed = true → journalOpen s = true →
    (sectorNext s 0 < 2048 → sectorNext s 1 < 2048 → exec .epochSectorRefresh s = .next s) ∧
    (2048 ≤ sectorNext s 0 → runs .epochSectorRefresh s (fun u =>
      u = { s with rst := { s.rst with refreshing := decide (2048 ≤ sectorNext s 1) }, board := u.board } ∧
      nvmGet u (journalDev s) (sectorBase s 0) 32 = epochRecord 0 s.rst.epoch s.tmb.tick s.board.serial)))

/-- The load of a Recipe slot (R113, R114, R116, R269): a slot whose bytes pass every step gives the configuration they hold; the
result of one that fails is kept, and the failure of the last slot to be tried enters recovery mode. `bad` is the offset of the first
byte that the NVM does not give. -/
def Sys2Proof.Spec.RecipeLoad : Prop :=
  ∀ (s : State) (b : Bool) (bad : Option Nat), releasedOf s 8 = true → slotNext s = some b →
    match recipeVerdict s b bad with
    | .ok r => runs (.recipeSlotLoad b bad) s (fun u =>
      u.rst.staged = true ∧ u.rst.activeB = b ∧ u.rst.recipeId = r.header.recipeId ∧
      u.rst.securityVersion = r.header.securityVersion ∧
      u.rst.policyEff = s.rst.options.policy ||| r.header.requiredPolicy ∧
      u.rst.fellBack = (b ≠ s.rst.options.preferB) ∧ u.app.demand = r.demand ∧ u.app.parse = r.parse ∧
      u.app.portMap = r.portMap ∧ u.sltCph.bank0 = r.cphBank ∧ u.sltEng.bank0 = r.engBank ∧ u.sltQue.bank0 = r.queBank ∧
      u.sch.meters = r.meters.map (fun e => (e.1, meterFull e.2 s.tmb.tick.toNat)) ∧ u.flt.irqLevel = r.irqLevel ∧
      u.flt.journalLevel = r.journalLevel ∧ u.flt.l4Action = r.l4Action ∧ u.board = s.board ∧ u.tmb.tick = s.tmb.tick)
    | .error (st, check) => runs (.recipeSlotLoad b bad) s (fun u =>
        u.rst.staged = false ∧ u = { s with rst := u.rst, flt := u.flt } ∧
        (if b then u.rst.bResult else u.rst.aResult) = BitVec.ofNat 8 st ∧
        (st = 0 ∨ check ≠ 0 → u.rst.proofCheck = BitVec.ofNat 8 check) ∧
        (s.rst.options.noFallback = true → u.rst.recovery = true ∧ ∃ r ∈ u.flt.inbox, r.cls = .recipeNone))

/-- The start of the device and the load of a Recipe. -/
def Obligations.StartAndLoad : Prop := Spec.StartSequence ∧ Spec.RecipeLoad

/-- Register writes (R601, R602, R606, R607): an offset outside the map holds no register; FLT_CTL takes its fields by the half
written; a guarded register is written by a value and then its complement, and by nothing else; a value that waits too
long is dropped and counted. -/
def Obligations.RegisterWrites : Prop :=
  (∀ (s : State) (r : Requester) (a : BitVec 28) (half : Option Bool) (v : W64), 0x8000000 ≤ a.toNat →
    exec (.registerWrite r a half v) s = .next s) ∧
  (∀ (s : State) (r : Requester) (v : W64), releasedOf s 1 = true →
    exec (.registerWrite r 0x280008 none v) s = .next { s with
      flt := { s.flt with fltNLevel := v.getLsbD 0, irqLevel := v.extractLsb' 1 3 } } ∧
    exec (.registerWrite r 0x280008 (some false) v) s = .next { s with
      flt := { s.flt with fltNLevel := v.getLsbD 0, irqLevel := v.extractLsb' 1 3 } } ∧
    exec (.registerWrite r 0x280008 (some true) v) s = .next s) ∧
  (∀ (s : State) (v : W64), releasedOf s 1 = true →
    (s.win.pendSup = [] →
      exec (.registerWrite .sup 0x280200 none v) s = .next { s with win := { s.win with
        pendSup := [{ addr := 0x280200, value := v, beat := nowBeats s }] } }) ∧
    (∀ (x : W64) (t : Nat), s.win.pendSup = [{ addr := 0x280200, value := x, beat := t }] → nowBeats s ≤ t + 64 →
      (exec (.registerWrite .sup 0x280208 none (~~~ x)) s =
        exec (.fltInjWrite x) { s with win := { s.win with pendSup := [], guardOk := s.win.guardOk + 1 } }) ∧
      (v ≠ ~~~ x → exec (.registerWrite .sup 0x280208 none v) s = .next { s with win := { s.win with
        pendSup := [], guardFail := s.win.guardFail + 1, lastRequester := 2, lastAddr := 0x280200 } }))) ∧
  (∀ (s : State) (x : W64) (t : Nat), s.win.pendSup = [{ addr := 0x280200, value := x, beat := t }] →
    (t + 64 < nowBeats s → exec (.guardTimeout .sup 0x280200) s = .next { s with win := { s.win with
      pendSup := [], guardTimeout := s.win.guardTimeout + 1, lastRequester := 2, lastAddr := 0x280200 } }) ∧
    (nowBeats s ≤ t + 64 → exec (.guardTimeout .sup 0x280200) s = .next s))

/-- The command's own effect is `u`, of which `P` holds; then the storage unit settles what the slab has ended for it, and hands its next
logical blocks to queues that have room (R427). -/
def Sys2Proof.Spec.settles (i : Instr) (s : State) (P : State → Prop) : Prop := ∃ u, exec i s = .next (xtsSettle u) ∧ P u

/-- CIPHER_REQUEST_PROCESS (R71, R84, R89, R399-R402, R405): while a slot that serves the context is under way, the request at the head
of its queue takes positions; one that has them all leaves the queue, and its outputs wait until 64 beats after the last beat of its
slot. A request that uses a counter value takes the next of its block; a BLOCK run of an inline block gives the AES encryption of that
block. Without random values ready a request that needs them ends with its status, and one of a context that no unit covers ends at
once with BUS_ERROR, which the storage unit is told of where the request is one of its logical blocks. -/
def Sys2Proof.Spec.CipherProcess : Prop :=
  ∀ (s : State) (i : BitVec 18) (r : CipherReq) (rest : List CipherReq), (ctxOf s i.toNat).queue = r :: rest →
    let ended := fun (status : Nat) => BitVec.ofNat 48 (rqTag r.words + status * 65536 + 2 ^ 24)
    let turned := match ctxPool s i.toNat with
      | some p => slabTurns s p
      | none => s
    let took := (requestTake turned i.toNat r).1
    (uncoveredCtx s i.toNat = true → (ctxOf s i.toNat).state = .active → ∀ k ok, r.disk = some k →
      settles (.cipherRequestProcess i ok) s (fun u =>
        (ctxOf u i.toNat).queue = rest ∧ u.cph.completed = s.cph.completed + 1 ∧ u.sto.xtsEnds = s.sto.xtsEnds ++ [(k, 5)])) ∧
    (uncoveredCtx s i.toNat = true → (ctxOf s i.toNat).state = .active → r.disk = none → channelIdle s r.channel = false →
      ∀ ch ok, channelOf s r.channel = some ch → ch.bind.pooled = false →
      settles (.cipherRequestProcess i ok) s (fun u =>
        (ctxOf u i.toNat).queue = rest ∧ u.cph.completed = s.cph.completed + 1 ∧ u.cph.outputs = s.cph.outputs ∧
        channelOf u r.channel = some { ch with
          cipher := true, cipherAt := if ch.cipher then ch.cipherAt else nowBeats s
          retryAreas := ch.retryAreas.filter (fun a => a ≠ rqResult r.words) } ∧
        stateGet u ch.bind (rqResult r.words + 15) = ended 5)) ∧
    (uncoveredCtx s i.toNat = false → requestEligible turned i.toNat r = true →
      (rqRandom r.words = true → s.kvl.rng ≠ .ready → ∀ ok, settles (.cipherRequestProcess i ok) s (fun u => ∃ o : CipherOutput,
        (ctxOf u i.toNat).queue = rest ∧ u.cph.completed = s.cph.completed ∧ u.cph.outputs = s.cph.outputs ++ [o] ∧
        o.req.channel = r.channel ∧ o.words.getD 15 0 = ended 3 ∧ o.hbm = [] ∧ o.patches = [] ∧ nowBeats s + 64 ≤ o.due ∧
        u.hbm = s.hbm ∧ u.crb = s.crb ∧ u.eng = s.eng)) ∧
      ((rqRandom r.words = true → s.kvl.rng = .ready) → rqRanges r.words = [] →
        (rqCounts r.words = false → requestWhole took = true → settles (.cipherRequestProcess i true) s (fun u => ∃ o : CipherOutput,
          (ctxOf u i.toNat).queue = rest ∧ u.cph.completed = s.cph.completed ∧ u.cph.outputs = s.cph.outputs ++ [o] ∧
          o.ctx = i.toNat ∧ o.req = took ∧ o.retry = false ∧ o.due = took.stop + 63 ∧
          u.hbm = s.hbm ∧ u.crb = s.crb ∧ u.eng = s.eng ∧
          (∀ run, runsOf r.words = [run] → run.kind = 1 → run.src = 2 → run.dst = 3 → run.b = 0 → run.len = 16 →
            run.index < 3 →
            (o.words.drop (3 + 3 * run.index)).take 3 =
              wordsOfBlock (aesEnc (ctxOf s i.toNat).key1 (blockOfWords r.words 16))))) ∧
        (rqCounts r.words = false → requestWhole took = false → settles (.cipherRequestProcess i true) s (fun u =>
          (ctxOf u i.toNat).queue = took :: rest ∧ u.cph.outputs = s.cph.outputs ∧
          u.hbm = s.hbm ∧ u.crb = s.crb ∧ u.eng = s.eng)) ∧
        (∀ e v e', rqCounts r.words = true → tget s.cph.cache i.toNat = some e → counterReady e = some (v, e') →
          requestWhole took = true →
          settles (.cipherRequestProcess i true) s (fun u => ∃ o : CipherOutput,
            u.cph.outputs = s.cph.outputs ++ [o] ∧ o.words.getD 12 0 = BitVec.ofNat 48 v ∧ o.due = took.stop + 63 ∧
            tget u.cph.cache i.toNat = some { e' with lastServed := took.stop }))))

/-- Outputs, the key schedule cache, counter blocks and failed units (R397, R402, R403, R406, R427): a result that is due is written,
and its channel learns of it, or the storage unit of the end of its logical block; a pooled context's key schedule is loaded in queue order, at most 128 in a tick; a counter block is
allocated, at most 32 in a tick. -/
def Sys2Proof.Spec.CipherUpkeep : Prop :=
  (∀ s : State, s.sto.xtsEnds = [] → (∀ c ∈ s.sto.cmds, c.stage ≠ .xts) → xtsSettle s = s) ∧
  (∀ (s : State) (o : CipherOutput) (k : Nat × Nat × W16), s.cph.outputs = [o] → o.due ≤ nowBeats s → o.req.pkt = none →
    o.req.disk = some k → o.retry = false → settles .cipherOutputWrite s (fun u =>
      u = { s with cph := u.cph, hbm := u.hbm, sto := { s.sto with
        xtsEnds := s.sto.xtsEnds ++ [(k, (o.words.getD 15 0#48).toNat / 2 ^ 16 % 2 ^ 8)] } } ∧
      u.cph = { s.cph with outputs := [], completed := s.cph.completed + 1 })) ∧
  (∀ (s : State) (o : CipherOutput) (ch : Channel), s.cph.outputs = [o] → o.due ≤ nowBeats s → o.req.pkt = none →
    o.req.disk = none → channelIdle s o.req.channel = false → inFlight s o.req.channel = false → channelOf s o.req.channel = some ch → ch.bind.pooled = true →
    let area := rqResult o.req.words
    settles .cipherOutputWrite s (fun u => u.cph = { s.cph with
        outputs := [], completed := if o.retry then s.cph.completed else s.cph.completed + 1 } ∧
      u = { s with
        cph := u.cph, hbm := u.hbm, eng := { s.eng with clusters := u.eng.clusters, channels := u.eng.channels } } ∧
      channelOf u o.req.channel = some { ch with
        cipher := true, cipherAt := if ch.cipher then ch.cipherAt else nowBeats s
        retryAreas := ch.retryAreas.filter (fun a => a ≠ area) ++ (if o.retry then [area] else []) } ∧
      (o.hbm = [] → u.hbm = s.hbm) ∧
      (∀ a bs, o.hbm = [(a, bs)] → u.hbm = putBytes 0 s.hbm a bs))) ∧
  (∀ (s : State) (i : BitVec 18), (ctxOf s i.toNat).state = .active → (ctxOf s i.toNat).queue ≠ [] →
    tget s.cph.cache i.toNat = none → s.kvl.erasing = false → s.cph.enabled = true →
    (s.cph.cache.length < 4096 → loadFirst s i.toNat = true → s.cph.loadsTick < 128 → exec (.keyCacheLoad i) s = .next { s with
      cph := { s.cph with
        loads := s.cph.loads + 1, loadsTick := s.cph.loadsTick + 1
        cache := tset s.cph.cache i.toNat
          { pinned := false, ready := s.tmb.tick.toNat, lastServed := nowBeats s, block := none, nextBlock := none } } }) ∧
    (loadFirst s i.toNat = false ∨ 128 ≤ s.cph.loadsTick → exec (.keyCacheLoad i) s = .next s) ∧
    (4096 ≤ s.cph.cache.length → (∀ x ∈ s.cph.cache, x.2.pinned = true) → exec (.keyCacheLoad i) s = .next s)) ∧
  (∀ (s : State) (i : BitVec 18) (e : CacheEntry), (ctxOf s i.toNat).state = .active → tget s.cph.cache i.toNat = some e →
    (e.block = none → e.nextBlock = none → s.mir.pair.mode = 0 → (ctxOf s i.toNat).ctrHwm + 2 ^ 20 ≤ 2 ^ 64 → s.cph.allocsTick < 32 →
      runs (.counterBlockAlloc i) s (fun u => u = { s with cph := u.cph } ∧ u.cph.blocks = s.cph.blocks + 1 ∧
        (ctxOf u i.toNat).ctrHwm = (ctxOf s i.toNat).ctrHwm + 2 ^ 20 ∧ u.cph.allocsTick = s.cph.allocsTick + 1 ∧
        ∃ b : CtrBlock, tget u.cph.cache i.toNat = some { e with block := some b } ∧ b.next = (ctxOf s i.toNat).ctrHwm ∧
          b.stop = (ctxOf s i.toNat).ctrHwm + 2 ^ 20 ∧ b.usable = true)) ∧
    (32 ≤ s.cph.allocsTick ∨ e.nextBlock ≠ none → exec (.counterBlockAlloc i) s = .next s)) ∧
  (∀ (s : State) (n : Fin 192),
    (n.val ∈ s.cph.lost → ∀ ctx, exec (.cipherUnitFail n ctx) s = .next s) ∧
    (n.val ∉ s.cph.lost → runs (.cipherUnitFail n none) s (fun u => raised s u .cipherUnitFail 0x3C n.val ∧
      u = { s with
        flt := u.flt, cph := { s.cph with lost := s.cph.lost ++ [n.val] }
        sltCph := { s.sltCph with due := s.sltCph.due.filter (fun d => d.1 ≠ n.val) ++ [(n.val, .lost)] } })))

/-- The cipher slab: a request in process, and the upkeep of outputs, caches, blocks and units. -/
def Obligations.Cipher : Prop := Spec.CipherProcess ∧ Spec.CipherUpkeep

/-- The random service and the erase (R409, R410, R411, R414, R416): K0 and, when blank, V0 are generated as the service becomes
READY; late start-up tests and a health failure are reported; the DRBG is reseeded when it must be, from 384 bits that are free; an erase leaves no key, and every context ERASED. -/
def Obligations.RandomAndErase : Prop :=
  (∀ s : State, s.kvl.rng ≠ .ready → s.kvl.erasing = false → releasedOf s 2 = true →
    runs .entropyStartupDone s (fun u => u.kvl.rng = .ready ∧ u = { s with kvl := u.kvl, free := u.free } ∧
      u.kvl.reseedTick = intervalStart s ∧ (∃ k, tget u.kvl.vol 0 = some k) ∧ (∃ k, tget u.kvl.vbat 0 = some k) ∧
      (∀ n, (n ≠ 0 ∨ thas s.kvl.vol 0 = true) → tget u.kvl.vol n = tget s.kvl.vol n) ∧
      (∀ n, (n ≠ 0 ∨ thas s.kvl.vbat 0 = true) → tget u.kvl.vbat n = tget s.kvl.vbat n))) ∧
  (∀ s : State, s.kvl.rng ≠ .ready → releasedOf s 2 = true →
    (s.kvl.startTick + 10000 ≤ s.tmb.tick.toNat → runs .entropyStartup s (fun u =>
      raised s u .entropyStartup 0x03 0xFFFF ∧
        u = { s with flt := u.flt, kvl := { s.kvl with startTick := intervalStart s } })) ∧
    (s.tmb.tick.toNat < s.kvl.startTick + 10000 → exec .entropyStartup s = .next s)) ∧
  (∀ s : State, releasedOf s 2 = true → runs .entropyHealth s (fun u =>
    raised s u .entropyHealth 0x03 0xFFFF ∧ u = { s with flt := u.flt, kvl := { s.kvl with
      rng := .failed, healthFails := s.kvl.healthFails + 1, startTick := intervalStart s, calls := 0, drbgKey := []
      drbgV := [] } })) ∧
  (∀ s : State, s.kvl.rng = .ready →
    let seed := (List.range 48).map (fun i => Config.freeBits 8 (s.free + i))
    let x := drbgUpdate s.kvl.drbgKey s.kvl.drbgV seed
    (1048576 ≤ s.kvl.calls.toNat ∨ s.kvl.reseedTick + 1000000 ≤ s.tmb.tick.toNat →
      exec .drbgReseed s = .next { s with free := s.free + 48, kvl := { s.kvl with
        reseeds := s.kvl.reseeds + 1, calls := 0, reseedTick := intervalStart s, drbgKey := x.1, drbgV := x.2 } }) ∧
    (s.kvl.calls.toNat < 1048576 → s.tmb.tick.toNat < s.kvl.reseedTick + 1000000 → exec .drbgReseed s = .next s)) ∧
  (∀ s : State, s.kvl.erasing = true → runs .zeroizeComplete s (fun u =>
    u = { s with kvl := u.kvl, cph := { s.cph with
      ctxs := u.cph.ctxs, unlisted := .erased, due := s.cph.due.filter keylessDue } } ∧
    (∀ i, (ctxOf u i).state = .erased ∧ (ctxOf u i).key1 = [] ∧ (ctxOf u i).key2 = []) ∧
    u.kvl.vol = [] ∧ u.kvl.vbat = [] ∧ u.kvl.erasing = false ∧ u.kvl.erases = s.kvl.erases + 1 ∧
    ∀ i c, tget u.cph.ctxs i = some c → c.key1 = [] ∧ c.key2 = [] ∧ c.state = .erased ∧ c.queue = []))

namespace Sys2Proof.Spec
open Sys2Proof.Machine

/-- The command changes host queue `n` to `h` and nothing else. -/
def queueBecomes (i : Instr) (s : State) (n : Nat) (h : HostQueue) : Prop :=
  runs i s (fun u => queueOf u n = some h ∧ (∀ m, m ≠ n → queueOf u m = queueOf s m) ∧
    u = { s with que := { s.que with queues := u.que.queues } })

end Sys2Proof.Spec

/-- Doorbells and descriptor reads (R66, R469, R470, R471, R476): a producer value is taken unless it runs further than the ring
beyond HEAD; a dedicated fetch position reads what its queue may fetch, within 256 bytes and the ring's end; a posted buffer or
a send descriptor that returns joins the queue's work, and a failed read puts the queue in ERROR. -/
def Sys2Proof.Spec.QueueFetch : Prop :=
  ∀ (s : State) (n : W16) (h : HostQueue), queueOf s n.toNat = some h →
    (∀ v : W16, h.kind ≠ .event →
      ((v - h.head).toNat ≤ 2 ^ h.sizeLog2 → queueBecomes (.producerDoorbell n v) s n.toNat { h with producer := v }) ∧
      (2 ^ h.sizeLog2 < (v - h.head).toNat →
        queueBecomes (.producerDoorbell n v) s n.toNat { h with dbErrors := h.dbErrors + 1 })) ∧
    (∀ v : W16, queueBecomes (.consumerDoorbell n v) s n.toNat { h with consumer := v }) ∧
    (∀ (ep : Fin 2) (pos : Fin 240) (w : W64), s.sltQue.row ep.val = [w] → entryKind w = 1 → entryChannel w = n.toNat →
      entryStart w ≤ pos.val → pos.val < entryStart w + entryLength w → h.state = .enabled → h.kind ≠ .event →
      epOf h.fn.toNat = ep.val → fnRuns s h.fn.toNat = true → h.fetching = [] →
      (h.kind = .send → s.sch.hostStopped = false ∧ slicePaused s h.slice = false) →
      let d := if h.kind = .send then 64 else 8
      let k := h.fetched.toNat % 2 ^ h.sizeLog2
      let free := 2 ^ h.sizeLog2 - ((h.fetched - h.head).toNat + (h.completions - h.consumer).toNat)
      let m := min (min ((h.producer - h.head).toNat - (h.fetched - h.head).toNat) free) (min (256 / d) (2 ^ h.sizeLog2 - k))
      (0 < m ∧ shedRoom s (m * d) = true → runs (.descriptorFetch ep pos) s (fun u =>
        queueOf u n.toNat = some { h with fetching := [(m, true)] } ∧
        u = { shedUse s (m * d) with
              que := { s.que with queues := u.que.queues }
              out := .hostRead (2 * epOf h.fn.toNat + n.toNat % 2) h.fn.toNat (h.ringAddr.toNat + k * d) (m * d) :: s.out })) ∧
      (m = 0 ∨ shedRoom s (m * d) = false → exec (.descriptorFetch ep pos) s = .next s)) ∧
    (∀ (ep : Fin 2) (pos : Fin 240) (w : W64), s.sltQue.row ep.val = [w] → entryKind w = 1 → entryChannel w = n.toNat →
      h.state ≠ .enabled ∨ h.kind = .event ∨ epOf h.fn.toNat ≠ ep.val ∨ fnRuns s h.fn.toNat = false ∨
        (h.kind = .send ∧ (s.sch.hostStopped = true ∨ slicePaused s h.slice = true)) →
      exec (.descriptorFetch ep pos) s = .next s) ∧
    (∀ bytes : List Byte, h.fetching = [(1, true)] → h.disabling = [] →
      (h.kind ≠ .send → queueBecomes (.descriptorFetchDone n true bytes) s n.toNat { h with
        fetching := [], fetched := h.fetched + 1
        work := h.work ++ [{ number := h.fetched.toNat, bytes := slice bytes 0 8, read := true }] }) ∧
      (h.kind = .send → sendWellFormed h.features (slice bytes 0 64) = true →
        runs (.descriptorFetchDone n true bytes) s (fun u =>
          queueOf u n.toNat = some { h with
            fetching := [], fetched := h.fetched + 1
            work := h.work ++ [{ number := h.fetched.toNat, bytes := slice bytes 0 64, read := false }] } ∧
          u.out = .hostRead (2 * epOf h.fn.toNat + n.toNat % 2) h.fn.toNat (leAt bytes 0 8) (leAt bytes 8 2) :: s.out ∧
          u = { s with que := { s.que with queues := u.que.queues }, out := u.out })) ∧
      ((schQueue s (8192 + n.toNat)).frames = [] → (schPort s (512 + epOf h.fn.toNat)).tx = none →
        runs (.descriptorFetchDone n false bytes) s (fun u =>
          ∃ q, queueOf u n.toNat = some q ∧ q.state = .error ∧ q.head = h.head ∧
            q.work = (if h.kind = .send then
              h.work.takeWhile (fun w => w.read && !(s.crb.waiting.any (waitsFirst n.toNat w.number))) else [])))) ∧
    (∀ (w : Fetched) (bytes : List Byte), h.kind = .send → h.stale = 0 → h.work = [w] → w.read = false →
      sendSegment w.bytes = false → sendCsum w.bytes = false → bytes.length = sendLength w.bytes → s.crb.waiting = [] →
      (injectQueue s h.slice).length < 4096 → (crumbsOf (bytes.length + 4) : Int) ≤ sharedFree s →
      s.sch.hostStopped = false →
      runs (.sendFrameReadDone n true bytes) s (fun u =>
        injectQueue u h.slice = injectQueue s h.slice ++ [s.crb.nextId] ∧
        ∃ x, pktOf u s.crb.nextId = some x ∧ x.bytes = bytes ∧ x.origin = 1 ∧ x.owner = h.slice ∧ x.stage = .inject ∧
          x.tenant = some h.tenant ∧ x.startSel = h.startSel ∧ x.edits = sendEdits w.bytes ∧
          x.crumbs = crumbsOf (bytes.length + 4)))

/-- Receive DMA, events and the admin queue (R473, R474, R475, R482, R485, R495): a frame is written into the next posted buffer
and completes with its entry; an event is posted while the ring has room and no admin command waits to run; an admin entry is read from the
submission ring and accepted, and the DATA that its command reads is read. -/
def Sys2Proof.Spec.QueueDelivery : Prop :=
  (∀ (s : State) (n : W16) (h : HostQueue) (id : Nat) (p : Packet),
    queueOf s n.toNat = some h → h.state = .enabled → h.dma = [] →
    (∃ l, (schPort s (512 + epOf h.fn.toNat)).tx = some (id, 8192 + n.toNat, l)) → pktOf s id = some p →
    BitVec.ofNat 16 p.gen = genOf s h.fn.toNat → fnRuns s h.fn.toNat = true →
    let stamp := nowStamp s
    let edited := (egressEdit s.app.parse p stamp).bytes
    let data := match p.icing with
      | some i => p.bytes ++ i
      | none => edited
    let len := if p.icing.isSome then p.bytes.length + 32 else edited.length
    let k := (len + max 1 h.bufSize - 1) / max 1 h.bufSize
    (k ≤ h.work.length → runs (.hostRxDma n) s (fun u =>
      u.out = ((h.work.take k).zipIdx.map (fun x =>
        Out.hostWrite (2 * epOf h.fn.toNat + n.toNat % 2) h.fn.toNat (leAt x.1.bytes 0 8) ((data.drop (x.2 * h.bufSize)).take h.bufSize))).reverse ++ s.out ∧
      queueOf u n.toNat = some { h with
        dma := [{ pkt := id, gen := genOf s h.fn.toNat, buffers := (h.work.take k).map (·.number), live := true }] } ∧
      (schPort u (512 + epOf h.fn.toNat)).tx = none ∧
      pktOf u id = some (if p.icing.isSome then p else { p with bytes := edited, egress := some stamp }) ∧
      (∀ j, j ≠ id → pktOf u j = pktOf s j) ∧
      u = { s with que := { s.que with queues := u.que.queues }, out := u.out, sch := { s.sch with ports := u.sch.ports }
                   crb := { s.crb with pkts := u.crb.pkts }, eng := { s.eng with editSkips := u.eng.editSkips }
                   tmb := { s.tmb with tsEditSkips := u.tmb.tsEditSkips } })) ∧
    (h.work.length < k → exec (.hostRxDma n) s = .next s)) ∧
  (∀ (s : State) (n : W16) (h : HostQueue) (d : RxDma) (p : Packet) (b : Nat),
    queueOf s n.toNat = some h → h.dma = [d] → h.disabling = [] → d.live = true → d.gen = genOf s h.fn.toNat →
    d.buffers = [b] → pktOf s d.pkt = some p → p.sendFrom = none → fnRuns s h.fn.toNat = true →
    ∀ ok : Bool, runs (.hostRxComplete n ok) s (fun u =>
      queueOf u n.toNat = some { h with
        dma := [], work := h.work.filter (fun w => w.number ≠ b), head := h.head + 1, completions := h.completions + 1 } ∧
      ∃ entry rest, .hostWrite (2 * epOf h.fn.toNat + n.toNat % 2) h.fn.toNat (h.cqAddr.toNat + h.completions.toNat % 2 ^ h.sizeLog2 * 32) entry ∈ u.out ∧
        entry = leBytes 2 (h.head + 1).toNat ++ [if ok then 0 else 5] ++ rest)) ∧
  (∀ (s : State) (n : Nat) (h : HostQueue) (e : Event), eventQueue s = some (n, h) → queueOf s n = some h →
    s.que.events = [e] → e.type = .fault → fnRuns s h.fn.toNat = true →
    (adminPending s = true → exec (.eventPost .fault) s = .next s) ∧
    (adminPending s = false → (h.completions - h.consumer).toNat < 2 ^ h.sizeLog2 → runs (.eventPost .fault) s (fun u =>
      u.que.events = [] ∧ queueOf u n = some { h with completions := h.completions + 1, seq := h.seq + 1 } ∧
      .hostWrite (2 * epOf h.fn.toNat + n % 2) h.fn.toNat (h.cqAddr.toNat + h.completions.toNat % 2 ^ h.sizeLog2 * 64)
        (leBytes 1 4 ++ leBytes 1 (1 - h.completions.toNat / 2 ^ h.sizeLog2 % 2) ++ leBytes 2 e.record.length ++
          leBytes 4 h.seq.toNat ++ leBytes 8 e.tick.toNat ++ slice e.record 0 48) ∈ u.out)) ∧
    (2 ^ h.sizeLog2 ≤ (h.completions - h.consumer).toNat → exec (.eventPost .fault) s = .next s)) ∧
  (∀ (s : State) (entry : List Byte), adminFetches s 0 = true → leAt entry 0 1 ∈ adminOpcodes →
    let fn := leAt entry 4 2 % 65536
    let c : AdminCmd :=
      { cid := BitVec.ofNat 16 (leAt entry 2 2), fn := BitVec.ofNat 16 fn, gen := genOf s fn, started := false }
    let n := leAt entry 16 4
    let reads := leAt entry 0 1 ∈ adminReaders ∧ 1 ≤ n ∧ n ≤ 16777216
    exec (.adminFetch 0 entry) s = .next { s with
      que := { s.que with admin0 := { s.que.admin0 with head := s.que.admin0.head + 1, accepted := s.que.admin0.accepted ++ [c] } }
      out := (if reads then [.hostRead (if n ≤ 65536 then 0 else 1) 0 (leAt entry 8 8) n] else []) ++
        .hostRead 0 0 (s.que.admin0.sqAddr.toNat + s.que.admin0.head.toNat % 2 ^ s.que.admin0.sizeLog2.toNat * 64) 64 :: s.out }) ∧
  (∀ (s : State) (v : W64), 4 ≤ fieldN v.toNat 8 4 → fieldN v.toNat 8 4 ≤ 12 → 2 ≤ fieldN v.toNat 16 11 →
    v.getLsbD 0 = true → s.que.admin1.enable = false →
    exec (.queAqEnableWrite 1 v) s = .next { s with que := { s.que with admin1 := { s.que.admin1 with
      enable := true, sizeLog2 := v.extractLsb' 8 4, vector := v.extractLsb' 16 11, head := 0, completions := 0 } } })

/-- Host queues: doorbells and descriptor reads, and what is delivered. -/
def Obligations.Queues : Prop := Spec.QueueFetch ∧ Spec.QueueDelivery

namespace Sys2Proof.Spec
open Sys2Proof.Machine

/-- An admin entry of an opcode that runs (R483, R485): 64 bytes, reserved bytes and unused parameters 0, no generation to
check, on a device that is ready, with nothing else of the endpoint in process and no command of that CID left from before a reset of
PF0. -/
def admits (s : State) (ep : Fin 2) (op : Nat) (named : Bool) (used : List (Nat × Nat)) (b : List Byte) : Prop :=
  releasedOf s 6 = true ∧ s.rst.restarting = false ∧ s.rst.recovery = false ∧ s.hif.deviceReady = true ∧
  (adminOf s ep).accepted = [] ∧ BitVec.ofNat 16 (leAt b 2 2) ∉ (adminOf s ep).orphans ∧ fnRuns s (0x8000 * ep.val) = true ∧ b.length = 64 ∧ leAt b 0 1 = op ∧ leAt b 1 1 = 0 ∧
  (named = false → leAt b 4 2 = 0) ∧ leAt b 6 2 = 0xFFFF ∧ leAt b 16 4 ≤ 16777216 ∧ paramsZero used b = true

/-- The completion of the command: its entry of R484 is written with its message, and the command is counted. -/
def finished (t : State) (ep : Fin 2) (b : List Byte) (status : Byte) (result : List Byte) : State :=
  adminWrite (adminMod t ep (fun q => { q with commands := q.commands + 1 })) ep (BitVec.ofNat 16 (leAt b 2 2))
    (BitVec.ofNat 16 (leAt b 4 2)) status result

/-- The admin command has its effect and completes with a status and a RESULT. -/
def completes (i : Instr) (s : State) (ep : Fin 2) (b : List Byte) (status : Byte) (result : List Byte)
    (P : State → Prop) : Prop := ∃ t, exec i s = .next (finished t ep b status result) ∧ P t

/-- The admin command's DATA has gone to the host by channel 0 of the engine for its length, which counts it (R498). -/
def dataOut (s : State) (ep : Fin 2) (b bytes : List Byte) : State :=
  let e := 2 * ep.val + if leAt b 16 4 ≤ 65536 then 0 else 1
  hostWrite (dmaChannelMod s e 0 (fun x => { x with bytes := wrapAdd x.bytes bytes.length })) e (pf0Of ep.val) (leAt b 8 8) bytes

/-- The admin command has its effect and is in process, to complete later. -/
def inProcess (i : Instr) (s : State) (ep : Fin 2) (b : List Byte) (P : State → Prop) : Prop :=
  ∃ u c, exec i s = .next u ∧ (adminOf u ep).accepted = [c] ∧ c.cid = BitVec.ofNat 16 (leAt b 2 2) ∧ c.started = true ∧ P u

end Sys2Proof.Spec

/-- The queue commands (R477-R481, R487): a queue is created as its entry describes, disabled until it is quiet, enabled,
reported and removed. -/
def Sys2Proof.Spec.AdminQueueCommands : Prop :=
  ∀ (s : State) (ep : Fin 2) (b data : List Byte),
    let q := leAt b 20 2
    (∀ k, k = kindOfCode (leAt b 24 1) → admits s ep 0x01 true [(20, 31), (52, 12)] b → createQueueOk s b = true →
      fnReady s (leAt b 4 2) = true → kindAllowed s (leAt b 4 2) k = true → idAllowed s (leAt b 4 2) q = true →
      tenantAllowed s (leAt b 4 2) (leAt b 46 2) k = true → leAt b 44 2 = 0xFFFF ∨ leAt b 44 2 < msixSize s (leAt b 4 2) →
      (createQueueProof s b).status = 0 → queueIdUsed s q = false →
      (∀ j ∈ queuesOf s (leAt b 4 2), ∀ x, queueOf s j = some x → x.loc ≠ leAt b 22 2) →
      (k = .event → ∀ e ∈ s.que.queues, e.2.kind = .event → epOf e.2.fn.toNat ≠ epOf (leAt b 4 2)) → pairsInUse s < 65536 →
      completes (.createQueue ep b data) s ep b 0 (createQueueProof s b).bytes (fun t => ∃ h,
        t = { s with que := { s.que with queues := tset s.que.queues q h }, sch := t.sch } ∧ h.kind = k ∧
        h.fn = BitVec.ofNat 16 (leAt b 4 2) ∧
        h.loc = leAt b 22 2 ∧ h.sizeLog2 = leAt b 25 1 ∧ h.slice = leAt b 27 1 ∧ h.ringAddr = BitVec.ofNat 64 (leAt b 28 8) ∧
        h.cqAddr = BitVec.ofNat 64 (leAt b 36 8) ∧ h.vector = leAt b 44 2 ∧ h.tenant = leAt b 46 2 ∧ h.startSel = leAt b 48 1 ∧
        h.bufSize = leAt b 54 2 ∧ h.head = 0 ∧ h.producer = 0 ∧ h.consumer = 0 ∧ h.completions = 0 ∧
        h.restart = bitN (leAt b 26 1) 1 ∧ h.wakeEn = bitN (leAt b 26 1) 2 ∧
        h.state = (if bitN (leAt b 26 1) 0 then .enabled else .disabled) ∧
        (k = .send ∨ k = .event → t.sch = s.sch) ∧
        (k = .receive ∨ k = .capture → t.sch = { s.sch with queues := t.sch.queues } ∧
          (∀ j, j ≠ 8192 + q → schQueue t j = schQueue s j) ∧
          schQueue t (8192 + q) = { SchQueue.blank with
            min := leAt b 52 2, alpha := leAt b 49 1, yellowShift := leAt b 50 1, quantum := leAt b 56 4
            maxResidence := leAt b 60 4 }))) ∧
    (queueOf s q = none →
      (admits s ep 0x02 true [(20, 2)] b → completes (.destroyQueue ep b data) s ep b 4 [] (fun t => t = s)) ∧
      (admits s ep 0x03 true [(20, 2)] b → completes (.enableQueue ep b data) s ep b 4 [] (fun t => t = s)) ∧
      (admits s ep 0x04 true [(20, 2)] b → completes (.disableQueue ep b data) s ep b 4 [] (fun t => t = s))) ∧
    (∀ h, queueOf s q = some h → h.disabling = [] → h.dma = [] → s.crb.waiting = [] →
      (schQueue s (8192 + q)).frames = [] → (schPort s (512 + epOf h.fn.toNat)).tx = none →
      (admits s ep 0x02 true [(20, 2)] b → h.state ≠ .enabled → completes (.destroyQueue ep b data) s ep b 0 [] (fun t =>
        t = { s with que := { s.que with queues := tdel s.que.queues q }
                     sch := { s.sch with queues := tdel s.sch.queues (8192 + q) } })) ∧
      (admits s ep 0x02 true [(20, 2)] b → h.state = .enabled →
        completes (.destroyQueue ep b data) s ep b 4 [] (fun t => t = s)) ∧
      (admits s ep 0x03 true [(20, 2)] b → h.state = .enabled → completes (.enableQueue ep b data) s ep b 0 [] (fun t =>
        queueOf t q = some h ∧ t = { s with que := { s.que with queues := t.que.queues } })) ∧
      (admits s ep 0x03 true [(20, 2)] b → h.state ≠ .enabled → completes (.enableQueue ep b data) s ep b 0 [] (fun t =>
        queueOf t q = some { h with state := .enabled, fetched := h.head + BitVec.ofNat 16 h.work.length } ∧
        t = { s with que := { s.que with queues := t.que.queues } })) ∧
      (admits s ep 0x04 true [(20, 2)] b → (h.kind = .send → h.work = []) → h.fetching = [] → h.held = [] → h.stale = 0 →
        completes (.disableQueue ep b data) s ep b 0 (leBytes 2 h.head.toNat) (fun t =>
          queueOf t q = some { h with state := .disabled, fetched := h.head, work := [] } ∧
          t = { s with que := { s.que with queues := t.que.queues } })) ∧
      (admits s ep 0x04 true [(20, 2)] b → h.fetching ≠ [] →
        inProcess (.disableQueue ep b data) s ep b (fun t => ∃ k, queueOf t q = some k ∧ k.state = .disabled))) ∧
    (∀ h, queueOf s q = some h → admits s ep 0x05 true [(20, 2)] b →
      completes (.queryQueue ep b data) s ep b 0
        (leBytes 1 h.state.code ++ leBytes 1 h.kind.code ++ leBytes 2 h.head.toNat ++ leBytes 2 h.producer.toNat ++
          leBytes 2 h.consumer.toNat ++ leBytes 2 h.fn.toNat) (fun t => t = s))

/-- The commands on functions (R487, R490, R491, R492, R493): a VF gets its grant and a new generation, loses both with
DESTROY_VF, and is reported. -/
def Sys2Proof.Spec.AdminFunctions : Prop :=
  ∀ (s : State) (ep : Fin 2) (b data : List Byte) (f : Func), funcOf s (leAt b 4 2) = some f →
    let fn := leAt b 4 2
    (∀ p, admits s ep 0x08 true [(20, 20)] b → createVfOk b = true → pfNum fn = 1 → s.que.pools.pools[leAt b 20 2]? = some p →
      fnExists s fn = true → f.grant = none → poolFits p b = true → leAt b 32 8 = 0 → grantsOf s = [] →
      leAt b 30 2 ≤ p.vectors → queuesOf s fn = [] →
      ∃ r, completes (.createVf ep b data) s ep b 0 r (fun t => ∃ g k, funcOf t fn = some g ∧ g.grant = some k ∧
        k.pool = leAt b 20 2 ∧ k.queueBase = leAt b 22 2 ∧ k.queueCount = leAt b 24 2 ∧ k.tenantBase = leAt b 26 2 ∧
        k.tenantCount = leAt b 28 2 ∧ k.vectors = leAt b 30 2 ∧
        (f.gen ≠ 0xFFFF → g.gen = (if f.gen = 0xFFFE then 1 else f.gen + 1)) ∧ r.take 2 = leBytes 2 g.gen.toNat)) ∧
    (∀ k, admits s ep 0x09 true [] b → isVf fn = true → pfNum fn = 1 → f.grant = some k → f.storageIndex = none →
      queuesOf s fn = [] →
      ∃ r, completes (.destroyVf ep b data) s ep b 0 r (fun t => ∃ g, funcOf t fn = some g ∧ g.grant = none ∧
        g.featuresOk = false ∧ r = leBytes 2 g.gen.toNat)) ∧
    (admits s ep 0x0A true [] b → fnExists s fn = true → queuesOf s fn = [] → pfNum fn ≠ 0 →
      completes (.queryFunction ep b data) s ep b 0
        (leBytes 2 f.gen.toNat ++ leBytes 1 (if fnReady s fn then 1 else 0) ++ leBytes 2 0 ++ leBytes 2 (vectorsOf s fn) ++
          [0] ++ leBytes 8 f.active.toNat) (fun t => t = s))

/-- The admin commands on queues and on functions. -/
def Obligations.AdminQueuesAndFunctions : Prop := Spec.AdminQueueCommands ∧ Spec.AdminFunctions

namespace Sys2Proof.Spec
open Sys2Proof.Machine

/-- The admin command completes OK, port `n` becomes `p'`, and nothing else changes. -/
def portSet (i : Instr) (s : State) (ep : Fin 2) (b result : List Byte) (n : Nat) (p' : Port) : Prop :=
  completes i s ep b 0 result (fun t => portOf t n = some p' ∧ (∀ m, m ≠ n → portOf t m = portOf s m) ∧
    t = { s with lnm := { s.lnm with ports := t.lnm.ports } })

/-- The admin command waits, macro `m` becomes `x'`, and no other macro changes. -/
def macroWaits (i : Instr) (s : State) (ep : Fin 2) (b : List Byte) (m : Nat) (x' : Macro) : Prop :=
  inProcess i s ep b (fun t => macroOf t m = x' ∧ (∀ k, k ≠ m → macroOf t k = macroOf s k) ∧ t.lnm.ports = s.lnm.ports)

end Sys2Proof.Spec

/-- Slot banks, demand, channels, minima and meters (R75, R126, R128, R270, R342, R344, R353, R487): a change that passes its
proof is accepted with the proof's record, and takes effect at the boundary it is due at. -/
def Sys2Proof.Spec.AdminSlotCommands : Prop :=
  ∀ (s : State) (ep : Fin 2) (b data : List Byte),
    (∀ k, admits s ep 0x10 false [(20, 2), (24, 8)] b → stageSlotsOk b = true → k = stagedBank s b (adminData b data) →
      (stageProof s (leAt b 20 1) k).status = 0 →
      let staged := fun (x : SlotTable) =>
        { (if x.active1 then { x with bank0 := k } else { x with bank1 := k }) with
          pending := some (leAt b 24 8), actTick := BitVec.ofNat 64 (leAt b 24 8) }
      (leAt b 20 1 = 0 → slotsImminent s 0 = false →
        completes (.stageSlots ep b data) s ep b 0 (stageProof s 0 k).bytes (fun t => t = { s with sltCph := staged s.sltCph })) ∧
      (leAt b 20 1 = 1 → slotsImminent s 1 = false →
        completes (.stageSlots ep b data) s ep b 0 (stageProof s 1 k).bytes (fun t => t = { s with sltEng := staged s.sltEng })) ∧
      (leAt b 20 1 = 2 → slotsImminent s 2 = false →
        completes (.stageSlots ep b data) s ep b 0 (stageProof s 2 k).bytes (fun t => t = { s with sltQue := staged s.sltQue })) ∧
      (slotsImminent s (leAt b 20 1) = true →
        completes (.stageSlots ep b data) s ep b 9 (statusRecord 9 (leAt b 20 1)) (fun t => t = s))) ∧
    (∀ d r, admits s ep 0x11 false [] b → demandBytesOk (adminData b data) = true → d = demandOf (adminData b data) →
      d.spares = s.app.demand.spares → r = proofChange s (fun c => { c with demand := d }) [0x0B, 0x0C, 0x0D, 0x0E, 0x0F, 0x10] →
      r.status = 0 →
      completes (.setDemand ep b data) s ep b 0 r.bytes (fun t => t = { s with app := { s.app with demandDue := some d } })) ∧
    (∀ x r, admits s ep 0x12 false [] b → bindOk data b = true → x = bindingOf (adminData b data) →
      (∀ y ∈ bindingsNow s, y.channel ≠ x.channel) → bindFits s x = true →
      r = proofChange s (fun c => { c with bindings := c.bindings ++ [x] }) [0x07, 0x09, 0x0B, 0x0E] → r.status = 0 →
      completes (.bindChannel ep b data) s ep b 0 r.bytes (fun t => t = { s with eng := { s.eng with
        binds := s.eng.binds ++ [(x, words48 (adminData b data) 16 ((leAt b 16 4 - 16) / 8))] } })) ∧
    (∀ r, admits s ep 0x13 false [(20, 4)] b → leAt b 20 4 ≤ 16777214 → (∃ y ∈ bindingsNow s, y.channel = leAt b 20 4) →
      r = proofChange s (fun c => { c with bindings := c.bindings.filter (fun y => y.channel ≠ leAt b 20 4) }) [0x09, 0x0B, 0x0E] →
      r.status = 0 →
      completes (.unbindChannel ep b data) s ep b 0 r.bytes (fun t =>
        t = (if ∃ x ∈ s.eng.binds, x.1.channel = leAt b 20 4 then
            { s with eng := { s.eng with binds := s.eng.binds.filter (fun x => x.1.channel ≠ leAt b 20 4) } }
          else { s with eng := { s.eng with unbinds := s.eng.unbinds ++ [leAt b 20 4] } }))) ∧
    (∀ c, admits s ep 0x14 false [(20, 7)] b → sendToChannelOk data b = true → channelOf s (leAt b 20 4) = some c →
      c.bind.inbox.isSome = true →
      (c.inbox.length + c.held.length < 8 → completes (.sendToChannel ep b data) s ep b 0 [] (fun t =>
        t = { s with eng := { s.eng with channels := t.eng.channels } } ∧ ∃ m : Msg,
        channelOf t (leAt b 20 4) = some (if channelIdle s (leAt b 20 4) then { c with held := c.held ++ [m] }
          else { c with inbox := c.inbox ++ [m] }) ∧ m.source = 0xFFFFFF ∧
        m.tag = BitVec.ofNat 16 (leAt b 24 2) ∧ m.payload = words48 (adminData b data) 0 (leAt b 26 1) ∧
        m.tick = BitVec.ofNat 48 s.tmb.tick.toNat ∧ m.since = nowBeats s)) ∧
      (8 ≤ c.inbox.length + c.held.length → completes (.sendToChannel ep b data) s ep b 8 [] (fun t => t = s))) ∧
    (∀ t0 r, admits s ep 0x15 false [(20, 2), (24, 2)] b → leAt b 20 2 ≤ 4095 → portMapped s (leAt b 20 2 / 8) = true →
      t0 = { s with sch := { s.sch with minDue := tset s.sch.minDue (leAt b 20 2) (leAt b 24 2) } } →
      r = proofChange t0 (fun c => c) [0x11] → r.status = 0 →
      completes (.setQueueMin ep b data) s ep b 0 r.bytes (fun t => t = t0)) ∧
    (admits s ep 0x16 false [(20, 8)] b → setMetersOk data b = true → leAt b 20 4 + leAt b 24 4 ≤ 1048576 →
      completes (.setMeters ep b data) s ep b 0 (proofChange s (fun c => c) []).bytes (fun t =>
        t = { s with sch := { s.sch with meterDue := t.sch.meterDue } } ∧
        (∀ i, i < leAt b 24 4 → tget t.sch.meterDue (leAt b 20 4 + i) =
          some (meterLoaded (slice (adminData b data) (32 * i) 32))) ∧
        (∀ m, m < leAt b 20 4 ∨ leAt b 20 4 + leAt b 24 4 ≤ m → tget t.sch.meterDue m = tget s.sch.meterDue m)))

/-- Ports, macros and gate lists (R145, R147, R148, R167, R171, R172, R265, R266, R487): each change is put down for the boundary
it takes effect at, a halt of the same tick coming first (R174); a port in SAFE does not leave it, and a macro that changes state answers when it has. -/
def Sys2Proof.Spec.AdminPortCommands : Prop :=
  ∀ (s : State) (ep : Fin 2) (b data : List Byte),
    let n := leAt b 20 2
    let stop := fun (p : Port) (k : DrainKind) => match p.due with
      | some .halt | some .haltTraining | some (.haltStop _) => some (PortDue.haltStop k)
      | _ => some (PortDue.stop k)
    (∀ p, admits s ep 0x20 false [(20, 3)] b → portOf s n = some p →
      (leAt b 22 1 = 0 →
        (p.state ∈ [.test, .safe, .offline] → completes (.portAdminDown ep b data) s ep b 0 [] (fun t => t = s)) ∧
        (p.state ∉ [.test, .safe, .offline] →
          (∀ k left, p.drain = some (k, left) →
            portSet (.portAdminDown ep b data) s ep b [] n { p with drain := some (.adminDown, left), newSpeed := none }) ∧
          (p.drain = none → portSet (.portAdminDown ep b data) s ep b [] n
            (if p.state = .adminDown then p else { p with due := stop p .adminDown })))) ∧
      (leAt b 22 1 = 1 →
        (p.state = .safe → completes (.portAdminTraining ep b data) s ep b 4 [] (fun t => t = s)) ∧
        (p.state ≠ .safe → draining p = true → completes (.portAdminTraining ep b data) s ep b 8 [] (fun t => t = s)) ∧
        (p.state ≠ .safe → draining p = false → portSet (.portAdminTraining ep b data) s ep b [] n { p with
          adminUp := true
          due := match p.due with
            | some .halt | some .haltTraining => some .haltTraining
            | some (.haltStop k) => some (.haltStop k)
            | d => if p.state ∈ [.test, .halted, .adminDown] then some .training else d })) ∧
      (leAt b 22 1 = 2 →
        (p.state ∈ [.safe, .offline] → completes (.portAdminTest ep b data) s ep b 4 [] (fun t => t = s)) ∧
        (p.state = .test → completes (.portAdminTest ep b data) s ep b 0 [] (fun t => t = s)) ∧
        (p.state ∉ [.test, .safe, .offline] → draining p = true →
          completes (.portAdminTest ep b data) s ep b 8 [] (fun t => t = s)) ∧
        (p.state ∉ [.test, .safe, .offline] → draining p = false →
          portSet (.portAdminTest ep b data) s ep b [] n { p with due := stop p .test })) ∧
      (leAt b 22 1 = 3 → portSet (.portAdminHalt ep b data) s ep b [] n
        (if p.state ∈ [.halted, .safe, .test] ∨ (p.state = .offline ∧ p.drain = none) then p
          else if p.state ≠ .offline ∧ (p.due = some .training ∨ p.due = some .haltTraining) then
            { p with due := some .haltTraining }
          else match (if p.state = .offline then none else p.due) with
            | some (.haltStop _) => p
            | _ => { p with due := some .halt }))) ∧
    (admits s ep 0x20 false [(20, 3)] b → portOf s n = none →
      (leAt b 22 1 = 0 → completes (.portAdminDown ep b data) s ep b 4 [] (fun t => t = s)) ∧
      (leAt b 22 1 = 1 → completes (.portAdminTraining ep b data) s ep b 4 [] (fun t => t = s)) ∧
      (leAt b 22 1 = 2 → completes (.portAdminTest ep b data) s ep b 4 [] (fun t => t = s)) ∧
      (leAt b 22 1 = 3 → completes (.portAdminHalt ep b data) s ep b 4 [] (fun t => t = s))) ∧
    (∀ p, admits s ep 0x21 false [(20, 5)] b → portOf s n = some p → p.state ∉ [.test, .safe, .offline] → draining p = false →
      (speedCheck s n p b).status = 0 →
      portSet (.portSpeed ep b data) s ep b (speedCheck s n p b).bytes n
        { p with due := stop p .speed, newSpeed := some (leAt b 22 1, leAt b 23 1, leAt b 24 1) }) ∧
    (admits s ep 0x22 false [(20, 2)] b → leAt b 20 1 < 16 →
      let x := macroOf s (leAt b 20 1)
      let w : Waiter := .admin ep.val (leAt b 2 2)
      (leAt b 21 1 = 0 →
        (x.state = .on → macroWaits (.macroPowerDown ep b data) s ep b (leAt b 20 1)
          { x with due := [.powerDown], downWait := x.downWait ++ [w] }) ∧
        (x.state = .draining → macroWaits (.macroPowerDown ep b data) s ep b (leAt b 20 1)
          { x with downWait := x.downWait ++ [w] }) ∧
        (x.state = .pllFailed → macroWaits (.macroPowerDown ep b data) s ep b (leAt b 20 1)
          { x with due := if .turnOff ∈ x.due then x.due else x.due ++ [.turnOff], downWait := x.downWait ++ [w] }) ∧
        (x.state = .absent → completes (.macroPowerDown ep b data) s ep b 4 [] (fun t => t = s)) ∧
        (x.state = .off ∨ x.state = .locking → completes (.macroPowerDown ep b data) s ep b 0 [] (fun t => t = s))) ∧
      (leAt b 21 1 = 1 →
        (x.state = .off ∨ x.state = .pllFailed → macroWaits (.macroPowerUp ep b data) s ep b (leAt b 20 1)
          { x with due := if .powerUp ∈ x.due then x.due else x.due ++ [.powerUp], upWait := x.upWait ++ [w] }) ∧
        (x.state = .draining → macroWaits (.macroPowerUp ep b data) s ep b (leAt b 20 1)
          { x with upAfterOff := true, upWait := x.upWait ++ [w] }) ∧
        (x.state = .locking → macroWaits (.macroPowerUp ep b data) s ep b (leAt b 20 1) { x with upWait := x.upWait ++ [w] }) ∧
        (x.state = .absent → completes (.macroPowerUp ep b data) s ep b 4 [] (fun t => t = s)) ∧
        (x.state = .on → completes (.macroPowerUp ep b data) s ep b 0 [] (fun t => t = s)))) ∧
    (∀ k g, admits s ep 0x23 false [] b → 32 ≤ leAt b 16 4 → gateLengthOk (adminData b data) = true →
      gateOk (adminData b data) = true → gateOfBytes (adminData b data) = (k, g) → (portOf s k).isSome = true →
      ¬((schPort s k).pendingList.isSome = true ∧ (schPort s k).actTick ≤ s.tmb.tick.toNat + 1) →
      completes (.stageGateList ep b data) s ep b 0 (proofChange s (fun c => c) []).bytes (fun t =>
        schPort t k = { schPort s k with
          pendingList := some g, actTick := max (s.tmb.tick.toNat + (if s.mir.pair.mode = 0 then 1 else 2)) (g.baseS * 1000000 + cdiv g.baseNs 1000) } ∧
        (∀ m, m ≠ k → schPort t m = schPort s m) ∧
        t.mir.delta = s.mir.delta ++
          (if s.mir.pair.mode = 0 then [] else [{ kind := 0x09, body := adminData b data }]) ∧
        t = { s with sch := { s.sch with ports := t.sch.ports }, mir := { s.mir with delta := t.mir.delta } }))

/-- The admin commands on slot banks, channels and meters, and on ports, macros and gate lists. -/
def Obligations.AdminSlotsAndPorts : Prop := Spec.AdminSlotCommands ∧ Spec.AdminPortCommands

/-- Table writes and MAC entries (R199, R200, R204, R227, R229, R377, R487, R489): the records of a command are applied all or
none, the versioned part into the open version; a MAC entry is placed, moved or cleared, and RESULT says where. -/
def Obligations.AdminTableWrites : Prop :=
  (∀ (s : State) (ep : Fin 2) (b data : List Byte), s.mir.pressure = true →
    exec (.tableWrite ep b data) s = .next s ∧ exec (.tableDelete ep b data) s = .next s ∧
    exec (.macInsert ep b data) s = .next s ∧ exec (.macMove ep b data) s = .next s ∧ exec (.macDelete ep b data) s = .next s) ∧
  ∀ (s : State) (ep : Fin 2) (b data : List Byte), s.mir.pressure = false →
    let written := fun (f : Fwd) (d : Dec) (t : State) =>
      t = { s with fwd := f, dec := d, mir := { s.mir with
        delta := t.mir.delta, verHeld := t.mir.verHeld, ownWrites := t.mir.ownWrites } } ∧ (s.mir.pair.mode = 0 → t.mir = s.mir)
    (∀ del rs, admits s ep 0x30 false [(20, 4)] b → leAt b 20 1 ≤ 6 → leAt b 21 1 = (if del then 1 else 0) → 1 ≤ leAt b 22 2 →
      leAt b 22 2 ≤ 1024 → leAt b 16 4 = 160 * leAt b 22 2 → tableRecords del b data = rs.map some →
      let i : Instr := if del then .tableDelete ep b data else .tableWrite ep b data
      (∀ f ws d, applyRecs del s.fwd rs = some (f, ws) → (if ws = [] then d = s.dec else openWrite s.dec ws = some d) →
        completes i s ep b 0 (leBytes 4 (leAt b 22 2)) (written f d)) ∧
      (applyRecs del s.fwd rs = none ∨ (∃ f ws, applyRecs del s.fwd rs = some (f, ws) ∧ ws ≠ [] ∧ openWrite s.dec ws = none) →
        completes i s ep b 6 [] (fun t => t = s))) ∧
    (admits s ep 0x31 false [(20, 23)] b →
      let e := macNamedEntry b
      let named := macNamed s.fwd (leAt b 21 1) (leAt b 22 2) e
      let result := fun p => leBytes 1 (macWay p) ++ leBytes 2 (if macWay p = 4 then p - macStash else 0)
      (leAt b 20 1 = 0 → macWriteOk 0 b = true →
        (∀ p, named = some p ∧ macTaken s.fwd p e = false ∨
            named = none ∧ (macFind s.fwd e.bd e.mac).or (macFree s.fwd e.bd e.mac) = some p →
          completes (.macInsert ep b data) s ep b 0 (result p) (written (macWritePlace s.fwd p (some e)) s.dec)) ∧
        (∀ p, named = some p → macTaken s.fwd p e = true →
          completes (.macInsert ep b data) s ep b 6 [] (fun t => t = s)) ∧
        (named = none → macFind s.fwd e.bd e.mac = none → macFree s.fwd e.bd e.mac = none →
          completes (.macInsert ep b data) s ep b 6 [] (fun t => t = s))) ∧
      (leAt b 20 1 = 1 → macWriteOk 1 b = true → macAt s.fwd b e = none →
        completes (.macMove ep b data) s ep b 4 [] (fun t => t = s)) ∧
      (leAt b 20 1 = 1 → macWriteOk 1 b = true → ∀ p q x, macAt s.fwd b e = some p →
        macNamed s.fwd (leAt b 40 1) (leAt b 41 2) e = some q → tget s.fwd.mac p = some x →
        (q = p → completes (.macMove ep b data) s ep b 0 (result q) (fun t => t = s)) ∧
        (q ≠ p → macTaken s.fwd q e = false → completes (.macMove ep b data) s ep b 0 (result q)
          (written (macWritePlace (macWritePlace s.fwd p none) q (some x)) s.dec)) ∧
        (q ≠ p → macTaken s.fwd q e = true → completes (.macMove ep b data) s ep b 6 [] (fun t => t = s))) ∧
      (leAt b 20 1 = 2 → macWriteOk 2 b = true →
        (∀ p, macAt s.fwd b e = some p → completes (.macDelete ep b data) s ep b 0 (result p)
          (written (macWritePlace s.fwd p none) s.dec)) ∧
        (macAt s.fwd b e = none → completes (.macDelete ep b data) s ep b 0 [0xFF] (fun t => t = s))))

/-- Versions, cuts, reads and the clock's configuration (R205-R207, R298, R301, R303, R330, R376): a commit seals the open version
and a select names another one, each for a boundary to come; what a read names goes to the host. -/
def Obligations.AdminVersionsAndCuts : Prop :=
  ∀ (s : State) (ep : Fin 2) (b data : List Byte),
    let w := adminWaiter ep.val b
    let v := leAt b 20 1
    (admits s ep 0x32 false [] b →
      (s.dec.sealed_ = none → s.dec.select = none → inProcess (.versionCommit ep b data) s ep b (fun u =>
        { u with que := s.que } = { s with dec := { s.dec with
          sealed_ := some { writes := s.dec.openWrites, tick := s.tmb.tick.toNat, waiter := w, fresh := true }, openWrites := []
          openWriteCount := 0 } })) ∧
      (s.dec.sealed_.isSome = true ∨ s.dec.select.isSome = true → completes (.versionCommit ep b data) s ep b 9 [] (fun t =>
        t = { s with dec := { s.dec with busyCount := wrapInc s.dec.busyCount } }))) ∧
    (admits s ep 0x33 false [(20, 1)] b → v < 16 →
      (slotOfVersion s.dec v = none → completes (.versionSelect ep b data) s ep b 7 [] (fun t => t = s)) ∧
      (∀ k, slotOfVersion s.dec v = some k → v = s.dec.current → completes (.versionSelect ep b data) s ep b 0
        (zeroBytes 8 ++ leBytes 8 (vslot s.dec s.dec.currentSlot).sinceTick.toNat) (fun t => t = s)) ∧
      (∀ k, slotOfVersion s.dec v = some k → v ≠ s.dec.current → runs (.versionSelect ep b data) s (fun u =>
        u.dec = { s.dec with
          sealed_ := none, openWrites := (s.dec.sealed_.map (·.writes)).getD [] ++ s.dec.openWrites
          select := some { version := v, tick := s.tmb.tick.toNat, waiter := w } } ∧
        u.mir = { s.mir with delta := s.mir.delta ++ s.mir.verHeld, verHeld := [] })) ∧
      (∀ k, slotOfVersion s.dec v = some k → v ≠ s.dec.current → s.dec.sealed_ = none → s.dec.select = none →
        inProcess (.versionSelect ep b data) s ep b (fun u => { u with que := s.que } = { s with
          dec := { s.dec with select := some { version := v, tick := s.tmb.tick.toNat, waiter := w } }
          mir := { s.mir with delta := s.mir.delta ++ s.mir.verHeld, verHeld := [] } }))) ∧
    (s.dec.sealed_ = none → exec .versionCommitTimeout s = .next s) ∧
    (∀ x, s.dec.sealed_ = some x →
      let pair := inStep s = true ∧ s.mir.pair.mode ≠ 0
      let planned := ∃ p ∈ s.mir.plans, p.kind = .commit
      let stuck := pair ∨ (twoTicks s.dec s.tmb.tick.toNat = true ∧ commitSlot s.dec = none)
      (x.tick + 64 < s.tmb.tick.toNat ∧ ¬planned ∧ stuck → exec .versionCommitTimeout s = .next (answer { s with
        dec := { s.dec with
          sealed_ := none, openWrites := x.writes ++ s.dec.openWrites, busyCount := wrapInc s.dec.busyCount
          openWriteCount := wrapAdd s.dec.openWriteCount x.writes.length }
        mir := { s.mir with delta := s.mir.delta ++ s.mir.verHeld, verHeld := [] } } x.waiter 9 [])) ∧
      (¬(x.tick + 64 < s.tmb.tick.toNat ∧ ¬planned ∧ stuck) → exec .versionCommitTimeout s = .next s)) ∧
    (∀ t0, admits s ep 0x34 false [(20, 2), (24, 40)] b → tableReadOk b = true → readVersion s b = some t0 →
      completes (.tableRead ep b data) s ep b 0 [if (tableEntry s t0 b).isSome then 1 else 0] (fun t => ∃ n bytes,
        (tableEntry s t0 b = some (n, bytes) ∨ tableEntry s t0 b = none ∧ n = 0 ∧ bytes = []) ∧
        t = dataOut s ep b (leBytes 4 n ++ zeroBytes 4 ++ slice bytes 0 152))) ∧
    (admits s ep 0x40 false [(20, 2), (24, 16)] b → leAt b 20 1 ≤ 1 → leAt b 21 1 = 0 →
      (s.ldg.scheduled = [] → s.ldg.running = none → s.tmb.tick.toNat + 1 ≤ leAt b 24 8 →
        completes (.cutRequest ep b data) s ep b 0 (leBytes 4 s.ldg.nextCutId.toNat) (fun t => t = { s with ldg := { s.ldg with
          scheduled := [{ kind := .demand, summary := leAt b 20 1 == 1, tick := leAt b 24 8, tag := BitVec.ofNat 64 (leAt b 32 8)
                          id := s.ldg.nextCutId, partnerOk := false }]
          nextCutId := wrapInc s.ldg.nextCutId } })) ∧
      (leAt b 24 8 ≤ s.tmb.tick.toNat → completes (.cutRequest ep b data) s ep b 7 [] (fun t => t = s))) ∧
    (admits s ep 0x41 false [(20, 8)] b → cutReadOk b = true →
      (∀ x r, cutBufferOf s (leAt b 20 4) = some (x, r) → x.state = 2 → completes (.cutRead ep b data) s ep b 0 [] (fun t =>
        t = dataOut s ep b
          (cutRecordBytes r ++ cutCounters x (leAt b 24 4) ((leAt b 16 4 - 64) / 16)))) ∧
      (∀ x r, cutBufferOf s (leAt b 20 4) = some (x, r) → x.state ≠ 2 →
        completes (.cutRead ep b data) s ep b 3 [] (fun t => t = s)) ∧
      (cutBufferOf s (leAt b 20 4) = none → completes (.cutRead ep b data) s ep b 7 [] (fun t => t = s))) ∧
    (admits s ep 0x42 false [] b → ptpBytesOk (adminData b data) = true →
      ((∀ x ∈ (ptpOfBytes (adminData b data)).ports, (portOf s x.port).isSome = true) →
        completes (.timeConfig ep b data) s ep b 0 [] (fun t => t = { s with ptp := t.ptp } ∧
          t.ptp.enable = (leAt (adminData b data) 0 1 == 1) ∧ t.ptp.ports.length = leAt (adminData b data) 3 1 ∧
          t.ptp.ports.map (·.port) = (ptpOfBytes (adminData b data)).ports.map (·.port))) ∧
      ((∃ x ∈ (ptpOfBytes (adminData b data)).ports, portOf s x.port = none) →
        completes (.timeConfig ep b data) s ep b 4 [] (fun t => t = s)))

/-- Contexts, keys and namespaces (R126, R392, R393, R396, R412-R414, R425, R426): a change that passes is put down for the next
boundary, a vault slot is written or cleared at once. -/
def Obligations.AdminKeys : Prop :=
  ∀ (s : State) (ep : Fin 2) (b data : List Byte),
    let i := ctxId b
    let later := fun (d : CtxDue) => ({ s with cph := { s.cph with due := s.cph.due ++ [d] } } : State)
    (admits s ep 0x50 false [(20, 20)] b → contextCreateOk data b = true → (ctxPlanned s i).state = .empty →
      bitN (leAt b 24 1) 3 = false ∨ (s.rst.testMode = true ∧ s.rst.policyEff.getLsbD 2 = false) →
      (ctxProof s).status = 0 → thas s.kvl.vol 0 = true → s.kvl.erasing = false →
      (∀ keys, leAt b 23 1 ≤ 1 → createKeys s b data = some keys →
        completes (.contextCreate ep b data) s ep b 0 (ctxProof s).bytes (fun t =>
          t = later (.create i (ctxCreated b keys s.cph.bootEpoch)))) ∧
      (leAt b 23 1 = 2 → s.kvl.rng = .ready → completes (.contextCreate ep b data) s ep b 0 (ctxProof s).bytes (fun t =>
        ∃ keys, keys.length = 64 ∧ t.cph = (later (.create i (ctxCreated b keys s.cph.bootEpoch))).cph)) ∧
      (leAt b 23 1 = 1 → createKeys s b data = none →
        completes (.contextCreate ep b data) s ep b 10 (statusRecord 10 0xFF) (fun t => t = s))) ∧
    (admits s ep 0x51 false [(20, 3)] b → i < 262144 →
      ((ctxPlanned s i).state ≠ .empty → (ctxProof s).status = 0 →
        completes (.contextDestroy ep b data) s ep b 0 (ctxProof s).bytes (fun t => t = later (.destroy i))) ∧
      ((ctxPlanned s i).state = .empty →
        completes (.contextDestroy ep b data) s ep b 4 (statusRecord 4 0xFF) (fun t => t = s))) ∧
    (admits s ep 0x52 false [(20, 4)] b → i < 262144 → 136 ≤ leAt b 16 4 → leAt b 23 1 ≤ 2 →
      let allowed := leAt b 23 1 = 2 → (ctxPlanned s i).exportable = true ∧ s.rst.testMode = true
      let keyed := leAt b 23 1 = 2 ∨ (tget s.kvl.vbat (leAt b 23 1)).isSome = true
      ((ctxPlanned s i).state = .active → allowed → (ctxBusy s i = true ∨ ¬keyed) →
        completes (.contextSave ep b data) s ep b 3 [] (fun t => t = s)) ∧
      (¬allowed → completes (.contextSave ep b data) s ep b 4 [] (fun t => t = s)) ∧
      ((ctxPlanned s i).state = .active → allowed → ctxBusy s i = false → keyed →
        inProcess (.contextSave ep b data) s ep b (fun u => { u with que := s.que } =
          later (.save i (leAt b 23 1) (leAt b 8 8) (adminWaiter ep.val b)))) ∧
      ((ctxPlanned s i).state ≠ .active → completes (.contextSave ep b data) s ep b 4 [] (fun t => t = s))) ∧
    (∀ img, admits s ep 0x53 false [(20, 3)] b → i < 262144 → leAt b 16 4 = 136 → img = adminData b data →
      imageCtx s img = none → completes (.contextRestore ep b data) s ep b 10 [] (fun t => t = s)) ∧
    (∀ img c, admits s ep 0x53 false [(20, 3)] b → i < 262144 → leAt b 16 4 = 136 → img = adminData b data →
      imageCtx s img = some c → imageOk img = false →
      completes (.contextRestore ep b data) s ep b 1 [] (fun t => t = s)) ∧
    (∀ img c, admits s ep 0x53 false [(20, 3)] b → i < 262144 → leAt b 16 4 = 136 → img = adminData b data →
      imageOk img = true → imageCtx s img = some c → leAt img 6 1 ≠ 2 ∨ s.rst.testMode = true →
      leAt img 28 4 ≠ s.board.serial.toNat ∨ c.epoch ≠ s.cph.bootEpoch →
      ((ctxPlanned s i).state = .empty → completes (.contextRestore ep b data) s ep b 0 [] (fun t =>
        t = later (.restore i { c with epoch := s.cph.bootEpoch, saveSeq := 0 } false))) ∧
      ((ctxPlanned s i).state ≠ .empty → completes (.contextRestore ep b data) s ep b 4 [] (fun t => t = s))) ∧
    (∀ img c, admits s ep 0x53 false [(20, 3)] b → i < 262144 → leAt b 16 4 = 136 → img = adminData b data →
      imageOk img = true → imageCtx s img = some c → leAt img 6 1 ≠ 2 ∨ s.rst.testMode = true →
      leAt img 28 4 = s.board.serial.toNat → c.epoch = s.cph.bootEpoch →
      ((ctxPlanned s i).state ≠ .saved → completes (.contextRestore ep b data) s ep b 7 [] (fun t => t = s)) ∧
      ((ctxPlanned s i).state = .saved → (ctxPlanned s i).saveSeq = c.saveSeq → completes (.contextRestore ep b data) s ep b 0 [] (fun t =>
        t = later (.restore i c true))) ∧
      ((ctxPlanned s i).state = .saved → (ctxPlanned s i).saveSeq ≠ c.saveSeq → completes (.contextRestore ep b data) s ep b 7 [] (fun t => t = s))) ∧
    (admits s ep 0x54 false [(20, 6)] b → vaultLoadOk b = true →
      let key := if leAt b 22 1 = 1 then (vaultKey s.kvl (leAt b 24 2)).bind (fun k => kwUnwrap k (adminData b data))
        else some (adminData b data)
      (key = none → completes (.vaultLoad ep b data) s ep b 10 [] (fun t => t = s)) ∧
      (key ≠ none → s.kvl.erasing = true → completes (.vaultLoad ep b data) s ep b 3 [] (fun t => t = s)) ∧
      (key ≠ none → s.kvl.erasing = false → completes (.vaultLoad ep b data) s ep b 0 [] (fun t =>
        vaultKey t.kvl (leAt b 20 2) = key ∧ (∀ n, n ≠ leAt b 20 2 → vaultKey t.kvl n = vaultKey s.kvl n) ∧
        t = { s with kvl := { s.kvl with vol := t.kvl.vol, vbat := t.kvl.vbat } }))) ∧
    (admits s ep 0x55 false [(20, 2)] b → vaultSlotOk (leAt b 20 2) = true →
      completes (.vaultClear ep b data) s ep b 0 [] (fun t => t = { s with kvl := vaultPut s.kvl (leAt b 20 2) none })) ∧
    (∀ x, admits s ep 0x58 false [(20, 2)] b → leAt b 20 2 < 16384 → leAt b 16 4 = 64 →
      namespaceBytesOk (adminData b data) = true → x = namespaceOf (adminData b data) →
      (namespaceFits s (leAt b 20 2) x = true → completes (.namespaceSet ep b data) s ep b 0 [] (fun t =>
        t = { s with sto := { s.sto with nsDue := s.sto.nsDue ++ [(leAt b 20 2, x, .none_)] } })) ∧
      (namespaceFits s (leAt b 20 2) x = false → completes (.namespaceSet ep b data) s ep b 4 [] (fun t => t = s)))

namespace Sys2Proof.Spec
open Sys2Proof.Machine

/-- The bytes of an NVM device; erased bytes read 0xFF (R97). -/
def nvmByte (s : State) (second : Bool) (a : Nat) : Byte := tgetD (if second then s.board.nvm1 else s.board.nvm0) a 0xFF

end Sys2Proof.Spec

/-- Maintenance (R39, R85, R97-R99, R112, R361, R487): a unit under test waits for its boundary; an NVM write erases whole sectors and
programs its bytes; owner keys are one-time; DEVICE_RESET resets. -/
def Obligations.AdminMaintenance : Prop :=
  ∀ (s : State) (ep : Fin 2) (b data : List Byte),
    let w := adminWaiter ep.val b
    let second := leAt b 20 1 == 1
    (∀ e, e = leAt b 20 1 → admits s ep 0x60 false [(20, 1)] b → e < 96 →
      let begun : State := { s with eng := { s.eng with testEngine := e, test := some { engine := e, ends := none, waiter := w } } }
      ((engineOf s e).state ∈ [.spare, .failed, .copySource] → 1 ≤ sparesBeside s e → s.eng.test = none →
        inProcess (.engineSelftest ep b data) s ep b (fun u => { u with que := s.que } = begun)) ∧
      ((engineOf s e).state = .inService → 2 ≤ sparesBeside s e → s.eng.test = none → engineStopped begun e = false →
        inProcess (.engineSelftest ep b data) s ep b (fun u => { u with que := s.que } =
          { begun with sltEng := { s.sltEng with due := s.sltEng.due ++ [(e, .test)] } })) ∧
      ((engineOf s e).state = .inService → 2 ≤ sparesBeside s e → s.eng.test = none → engineStopped begun e = true →
        inProcess (.engineSelftest ep b data) s ep b (fun u => { u with que := s.que } = begun)) ∧
      (s.eng.test.isSome = true → completes (.engineSelftest ep b data) s ep b 8 [] (fun t => t = s)) ∧
      (s.eng.test = none →
        (engineOf s e).state ∈ [.inactive, .test, .retired] ∨ ((engineOf s e).state = .inService ∧ sparesBeside s e < 2) →
        completes (.engineSelftest ep b data) s ep b 4 [] (fun t => t = s)) ∧
      (s.eng.test = none → sparesBeside s e = 0 → completes (.engineSelftest ep b data) s ep b 4 [] (fun t => t = s))) ∧
    (∀ u0, u0 = leAt b 21 1 + (if leAt b 20 1 = 1 then 128 else 0) → admits s ep 0x61 false [(20, 2)] b → leAt b 20 1 ≤ 1 →
      leAt b 21 1 < (if leAt b 20 1 = 1 then 64 else 128) →
      let free := u0 ∉ s.cph.lost ∧ (slabReserve s (leAt b 20 1 == 1)).filter (· ≠ u0) ≠ []
      (free → s.cph.test = none → inProcess (.slabTest ep b data) s ep b (fun u => { u with que := s.que } = { s with
        cph := { s.cph with test := some { unit := u0, started := false, waiter := w } }
        sltCph := { s.sltCph with due := s.sltCph.due ++ [(u0, .test)] } })) ∧
      (¬free → completes (.slabTest ep b data) s ep b 4 [] (fun t => t = s)) ∧
      (free → s.cph.test.isSome = true → completes (.slabTest ep b data) s ep b 8 [] (fun t => t = s))) ∧
    (admits s ep 0x62 false [(20, 2)] b → leAt b 20 1 < 4 → leAt b 21 1 < 15 →
      (stackSpareUsed s (leAt b 20 1) = false → inProcess (.hbmRetire ep b data) s ep b (fun u => { u with que := s.que } =
        { s with hbmU := { s.hbmU with due := s.hbmU.due ++ [(16 * leAt b 20 1 + leAt b 21 1, w)] } })) ∧
      (stackSpareUsed s (leAt b 20 1) = true → completes (.hbmRetire ep b data) s ep b 4 [] (fun t => t = s))) ∧
    (admits s ep 0x70 false [(20, 1), (24, 4)] b → leAt b 20 1 ≤ 1 → leAt b 16 4 ≤ 1048576 →
      (leAt b 24 4 + leAt b 16 4 ≤ nvmSize s second → completes (.nvmRead ep b data) s ep b 0 [] (fun t =>
        t = dataOut s ep b ((List.range (leAt b 16 4)).map (fun k => nvmByte s second (leAt b 24 4 + k))))) ∧
      (nvmSize s second < leAt b 24 4 + leAt b 16 4 → completes (.nvmRead ep b data) s ep b 4 [] (fun t => t = s))) ∧
    (admits s ep 0x71 false [(20, 1), (24, 4)] b → leAt b 20 1 ≤ 1 → leAt b 16 4 = 0 →
      leAt b 24 4 ≤ nvmSize s second → completes (.nvmWrite ep b data) s ep b 0 [] (fun t => t = s)) ∧
    (admits s ep 0x71 false [(20, 1), (24, 4)] b → leAt b 20 1 ≤ 1 → leAt b 16 4 ≤ 1048576 →
      nvmSize s second < leAt b 24 4 + leAt b 16 4 → completes (.nvmWrite ep b data) s ep b 4 [] (fun t => t = s)) ∧
    (∀ a n, a = leAt b 24 4 → n = leAt b 16 4 → admits s ep 0x71 false [(20, 1), (24, 4)] b → leAt b 20 1 ≤ 1 → 0 < n →
      n ≤ 1048576 → a + n ≤ nvmSize s second → memoryWf s = true →
      (nvmProtected s second (sectorsOf a n) = false → completes (.nvmWrite ep b data) s ep b 0 [] (fun t =>
        (∀ k, k < n → nvmByte t second (a + k) = (adminData b data).getD k 0xFF) ∧
        (∀ x, x / 65536 < a / 65536 ∨ (a + n - 1) / 65536 < x / 65536 → nvmByte t second x = nvmByte s second x) ∧
        (∀ x, a / 65536 ≤ x / 65536 → x / 65536 ≤ (a + n - 1) / 65536 → x < a ∨ a + n ≤ x → nvmByte t second x = 0xFF) ∧
        (∀ x, nvmByte t (!second) x = nvmByte s (!second) x) ∧
        t = { s with board := { s.board with nvm0 := t.board.nvm0, nvm1 := t.board.nvm1 } })) ∧
      (nvmProtected s second (sectorsOf a n) = true → completes (.nvmWrite ep b data) s ep b 4 [] (fun t => t = s))) ∧
    (admits s ep 0x72 false [(20, 1)] b → leAt b 20 1 ≤ 3 → leAt b 16 4 = 97 →
      (s.board.ownerKeys.getD (leAt b 20 1) .revoked = .blank → completes (.ownerKeyProgram ep b data) s ep b 0 [] (fun t =>
        t = { s with board := { s.board with
          ownerKeys := s.board.ownerKeys.set (leAt b 20 1) (.programmed (sha384 (adminData b data))) } })) ∧
      (s.board.ownerKeys.getD (leAt b 20 1) .revoked ≠ .blank →
        completes (.ownerKeyProgram ep b data) s ep b 4 [] (fun t => t = s))) ∧
    (admits s ep 0x73 false [(20, 8)] b → leAt b 20 4 ≤ 3 → leAt b 20 4 + leAt b 24 4 = 2 ^ 32 - 1 →
      completes (.ownerKeyRevoke ep b data) s ep b 0 [] (fun t =>
        t = { s with board := { s.board with ownerKeys := s.board.ownerKeys.set (leAt b 20 4) .revoked } })) ∧
    (admits s ep 0x74 false [(20, 8)] b → leAt b 20 4 = 0 → leAt b 24 4 = 2 ^ 32 - 1 →
      exec (.deviceReset ep b data) s = .next (deviceReset (adminStart s ep.val b) .software false false))

namespace Sys2Proof.Spec
open Sys2Proof.Machine

/-- Function `fn` becomes `g`, and nothing else changes. -/
def funcBecomes (s : State) (fn : Nat) (g : Func) : State := { s with hif := { s.hif with funcs := tset s.hif.funcs fn g } }

/-- Endpoint `ep` becomes `e`, and nothing else changes. -/
def endpointBecomes (s : State) (ep : Nat) (e : Endpoint) : State :=
  { s with hif := { s.hif with eps := tset s.hif.eps ep e } }

/-- The endpoint as its reset leaves it (R459, R460). -/
def resetEndpoint (e : Endpoint) (perst : Bool) (readyBy : Option Nat) : Endpoint :=
  { e with
    linkUp := false, rate := 0, width := 0, flit := false, inReset := true, contained := false, resets := e.resets + 1
    numVfs1 := 0, numVfs2 := 0, vfEnable1 := false, vfEnable2 := false, configReady := false, perst := perst
    readyBy := readyBy }

/-- Every function of the endpoint is reset and keeps what a reset keeps: its grant and its PME bits (R458, R494). -/
def functionsReset (s u : State) (ep : Nat) : Prop :=
  ∀ fn f, epOf fn = ep → funcOf s fn = some f → ∃ g, funcOf u fn = some g ∧ g.resetting = some none ∧ g.grant = f.grant ∧
    g.pmeEn = f.pmeEn ∧ g.pmeStatus = f.pmeStatus ∧ g.featuresOk = false ∧ g.active = 0

end Sys2Proof.Spec

/-- Features, resets and readiness of the host interface (R442, R459-R463, R494, R495). -/
def Obligations.HostFeaturesAndResets : Prop :=
  (∀ (s : State) (fn : W16) (f : Func), funcOf s fn.toNat = some f → f.featuresOk = false →
    (f.resetting = none → fnCreated s fn.toNat = false → exec (.featuresOkWrite fn) s = .next s) ∧
    (f.resetting = none → fnCreated s fn.toNat = true →
      (s.hif.deviceReady = false → exec (.featuresOkWrite fn) s = .next (funcBecomes s fn.toNat { f with featStatus := 3 })) ∧
      (s.hif.deviceReady = true → breaksDependency (f.accept &&& offerOf s fn.toNat) = true →
        exec (.featuresOkWrite fn) s = .next (funcBecomes s fn.toNat { f with featStatus := 4 })) ∧
      (s.hif.deviceReady = true → breaksDependency (f.accept &&& offerOf s fn.toNat) = false →
        exec (.featuresOkWrite fn) s = .next (funcBecomes s fn.toNat { f with
          active := f.accept &&& offerOf s fn.toNat, featuresOk := true, featStatus := 0 }))) ∧
    (∀ (i : Fin 8) (v : W32), ∃ x : BitVec 256,
      (∀ k, k < 256 → x.getLsbD k =
        if k / 32 = i.val then v.getLsbD (k % 32) && (offerOf s fn.toNat).getLsbD k else f.accept.getLsbD k) ∧
      exec (.featAcceptWrite fn i v) s = .next (funcBecomes s fn.toNat { f with accept := x }))) ∧
  (∀ (s : State) (fn : W16) (f : Func) (k : Grant), isVf fn.toNat = true → pfNum fn.toNat = 1 → queuesOf s fn.toNat = [] →
    funcOf s fn.toNat = some f → f.grant = some k →
    (fnExists s fn.toNat = true → runs (.flr fn) s (fun u => ∃ g, u = funcBecomes s fn.toNat g ∧
      g.resetting = some (some (intervalStart s + 2)) ∧ g.grant = f.grant ∧ g.pmeEn = f.pmeEn ∧ g.pmeStatus = f.pmeStatus ∧
      g.featuresOk = false ∧ g.active = 0 ∧ g.accept = 0 ∧ g.vectors = [] ∧ g.busMaster = false ∧
      (f.gen ≠ 0xFFFF → g.gen = (if f.gen = 0xFFFE then 1 else f.gen + 1)))) ∧
    (∀ x, f.resetting = some (some x) → k.features = 0 →
      exec (.flrComplete fn) s = .next { funcBecomes s fn.toNat { f with resetting := none } with
        que := { s.que with events := s.que.events ++ [{
          type := .functionReset, tick := s.tmb.tick
          record := leBytes 2 fn.toNat ++ leBytes 2 f.gen.toNat ++ leBytes 1 0 }] } })) ∧
  (∀ (s : State) (fn : W16) (f : Func), funcOf s fn.toNat = some f →
    (fnExists s fn.toNat = true → runs (.flr fn) s (fun u => ∃ g, funcOf u fn.toNat = some g ∧
      g.resetting = some (some (intervalStart s + 2)) ∧ g.grant = f.grant ∧ g.pmeEn = f.pmeEn ∧ g.pmeStatus = f.pmeStatus ∧
      g.featuresOk = false ∧ g.active = 0 ∧ g.accept = 0 ∧ g.vectors = [] ∧ g.busMaster = false)) ∧
    (fnExists s fn.toNat = false → exec (.flr fn) s = .next s) ∧
    (∀ x, f.resetting = some (some x) → runs (.flrComplete fn) s (fun u => ∃ g, funcOf u fn.toNat = some g ∧
      g.resetting = none)) ∧
    (f.resetting = none ∨ f.resetting = some none → exec (.flrComplete fn) s = .next s)) ∧
  (∀ (s : State) (ep : Fin 2) (e : Endpoint), e = endpointOf s ep.val → epEnabled s ep.val = true →
    (e.perst = false → s.que.queues = [] → runs (.perstNAssert ep) s (fun u =>
      endpointOf u ep.val = resetEndpoint e true none ∧ functionsReset s u ep.val)) ∧
    (e.perst = false → hostReleased s = true → s.que.queues = [] → runs (.hotReset ep) s (fun u =>
      endpointOf u ep.val = resetEndpoint e false (some (intervalStart s + 100000)) ∧ functionsReset s u ep.val)) ∧
    (e.perst = true → hostReleased s = true → exec (.perstNDeassert ep) s = .next (endpointBecomes s ep.val { e with
      perst := false, inReset := false, wake := false, readyBy := some (intervalStart s + 100000) })) ∧
    (e.perst = true → hostReleased s = false → exec (.perstNDeassert ep) s = .next (endpointBecomes s ep.val { e with
      perst := false, wake := false })) ∧
    (e.perst = true → exec (.perstNAssert ep) s = .next s ∧ exec (.hotReset ep) s = .next s) ∧
    (e.perst = false → exec (.perstNDeassert ep) s = .next s) ∧
    (e.perst = false → e.readyBy.isSome = true → runs (.configReady ep) s (fun u =>
      endpointOf u ep.val = { e with configReady := true, readyBy := none, inReset := false } ∧
      ∀ fn f, funcOf s fn = some f → epOf fn = ep.val → ∃ g, funcOf u fn = some g ∧ g.resetting = none)) ∧
    (e.perst = false → e.readyBy.isSome = true →
      (∀ fn f, funcOf s fn = some f → epOf fn = ep.val → f.resetting = none) →
      exec (.configReady ep) s = .next (endpointBecomes s ep.val { e with
        configReady := true, readyBy := none, inReset := false })) ∧
    (∀ (rate width : BitVec 3) (flit : Bool), e.perst = false → e.linkUp = false → hostReleased s = true →
      e.pmePending = false → linkAllowed s ep.val rate width flit = true →
      exec (.linkUp ep rate width flit) s = .next (endpointBecomes s ep.val { e with
        linkUp := true, rate := rate, width := width, flit := flit, inReset := false })))

/-- Power states, wake events and interrupts of the host interface (R451, R452, R457, R458, R464). -/
def Obligations.HostPowerAndInterrupts : Prop :=
  (∀ (s : State) (fn : W16) (f : Func), isVf fn.toNat = false → pfNum fn.toNat = 1 → funcOf s fn.toNat = some f →
    vfsOf s fn.toNat = [] → queuesOf s fn.toNat = [] →
    (f.d3hot = false → fnExists s fn.toNat = true → (schPort s (512 + epOf fn.toNat)).tx = none →
      exec (.d3hotEntry fn) s = .next (funcBecomes s fn.toNat { f with d3hot := true })) ∧
    (f.d3hot = true → f.vectors = [] →
      exec (.d0Return fn) s = .next (funcBecomes s fn.toNat { f with d3hot := false }))) ∧
  (∀ (s : State) (ep : Fin 2) (fn : W16) (f : Func) (level : Fin 5), fn.toNat = 0x8000 * ep.val → funcOf s fn.toNat = some f →
    f.pmeEn = true → s.hif.wakeLevel.toNat ≤ level.val →
    let e := endpointOf s ep.val
    (f.d3hot = true → e.perst = false → e.linkUp = true → exec (.wakeEvent fn (.fault level)) s =
      .next { funcBecomes s fn.toNat { f with pmeStatus := true } with out := .message fn.toNat 0 :: s.out }) ∧
    (e.perst = true ∨ e.linkUp = false → exec (.wakeEvent fn (.fault level)) s =
      .next (endpointBecomes (funcBecomes s fn.toNat { f with pmeStatus := true }) ep.val { e with
        wake := true, pmePending := true })) ∧
    (f.d3hot = false → e.perst = false → e.linkUp = true → exec (.wakeEvent fn (.fault level)) s = .next s)) ∧
  (∀ (s : State) (fn : W16) (f : Func) (v : Fin 2048) (x : Vector), funcOf s fn.toNat = some f → f.msixEnable = true →
    fnRuns s fn.toNat = true → f.vectors = [(v.val, x)] → x.pending = true →
    (f.functionMask = false → exec (.msixUnmask fn (some v)) s =
      .next { funcBecomes s fn.toNat { f with vectors := [(v.val, { x with masked := false, pending := false })] } with
        out := .msix fn.toNat v.val :: s.out }) ∧
    (f.functionMask = true → exec (.msixUnmask fn (some v)) s =
      .next (funcBecomes s fn.toNat { f with vectors := [(v.val, { x with masked := false })] })) ∧
    (x.masked = false → exec (.msixUnmask fn none) s =
      .next { funcBecomes s fn.toNat { f with functionMask := false, vectors := [(v.val, { x with pending := false })] } with
        out := .msix fn.toNat v.val :: s.out }))

/-- Errors and requests of the host interface (R447, R449, R454-R456, R460, R612, R613): an error is logged and counted on its
endpoint, an internal one stops the endpoint, and a request is answered with data, an effect or a status. -/
def Obligations.HostErrorsAndRequests : Prop :=
  (∀ (s : State) (ep : Fin 2) (f : Func) (header : List Byte), (endpointOf s ep.val).linkUp = true →
    funcOf s (0x8000 * ep.val) = some f →
    let e := endpointOf s ep.val
    let logged := fun (i : Instr) (b : Nat) => runs i s (fun u => ∃ g, funcOf u (0x8000 * ep.val) = some g ∧
      (endpointOf u ep.val).uncorrectable = e.uncorrectable + 1 ∧ g.aerUncorr = f.aerUncorr ||| BitVec.ofNat 32 (2 ^ b) ∧
      ((cfgReg s (0x8000 * ep.val) 0x108).getLsbD b = false → f.aerFirst = none →
        g.aerFirst = some b ∧ g.aerHeader = header))
    (∀ err b, linkErrorBit err = (false, b) → runs (.pcieLinkError ep err header) s (fun u =>
      (endpointOf u ep.val) = { e with correctable := e.correctable + 1 } ∧ ∃ g, funcOf u (0x8000 * ep.val) = some g ∧
      g.aerCorr = f.aerCorr ||| BitVec.ofNat 32 (2 ^ b) ∧ g.aerUncorr = f.aerUncorr)) ∧
    (∀ err b, linkErrorBit err = (true, b) → logged (.pcieLinkError ep err header) b) ∧
    (let fn := 0x8000 * ep.val
     (cfgReg s fn 0x10C).getLsbD 16 = true → logged (.unexpectedCompletion ep header) 16) ∧
    (let fn := 0x8000 * ep.val
     (cfgReg s fn 0x10C).getLsbD 16 = false → runs (.unexpectedCompletion ep header) s (fun u => ∃ g, funcOf u fn = some g ∧
      (endpointOf u ep.val).uncorrectable = e.uncorrectable + 1 ∧ g.aerCorr.getLsbD 13 = true ∧
      ((cfgReg s fn 0x114).getLsbD 13 = true → (endpointOf u ep.val).correctable = e.correctable + 1 ∧
        g.aerCorr = f.aerCorr ||| BitVec.ofNat 32 (2 ^ 13) ∧ g.aerUncorr = f.aerUncorr ∧ g.aerFirst = f.aerFirst ∧
        g.aerHeader = f.aerHeader) ∧
      ((cfgReg s fn 0x114).getLsbD 13 = false → g.aerUncorr = f.aerUncorr ||| BitVec.ofNat 32 (2 ^ 16) ∧
        ((cfgReg s fn 0x108).getLsbD 16 = false → f.aerFirst = none → g.aerFirst = some 16 ∧ g.aerHeader = header))))) ∧
  (∀ (s : State) (ep : Fin 2) (f : Func), hostReleased s = true → epEnabled s ep.val = true →
    funcOf s (0x8000 * ep.val) = some f → runs (.hostIfInternal ep) s (fun u =>
      raised s u .hostIfInternal (0x08 + ep.val) 0xFFFF ∧ (endpointOf u ep.val).contained = true ∧
      (endpointOf u ep.val).uncorrectable = (endpointOf s ep.val).uncorrectable + 1 ∧
      ∃ g, funcOf u (0x8000 * ep.val) = some g ∧ g.aerUncorr.getLsbD 22 = true)) ∧
  (∀ (s : State) (ep : Fin 2) (c : AdminCmd), (adminOf s ep.val).accepted.find? (fun c => !c.started) = some c →
    exec (.completionTimeout (.admin ep)) s = .next (adminFinish (timeoutLog s (0x8000 * ep.val)) ep.val c.cid 5 [])) ∧
  (∀ (s : State) (n : W16) (h : HostQueue), queueOf s n.toNat = some h →
    (h.fetching ≠ [] → exec (.completionTimeout (.queueRing n)) s =
      .next (descriptorFetchDone (timeoutLog s h.fn.toNat) n.toNat false [])) ∧
    (h.fetching = [] → exec (.completionTimeout (.queueRing n)) s = .next s) ∧
    (h.stale ≠ 0 ∨ (∃ w ∈ h.work, w.read = false) → exec (.completionTimeout (.queueData n)) s =
      .next (sendFrameReadDone (timeoutLog s h.fn.toNat) n.toNat false [])) ∧
    (h.stale = 0 → (∀ w ∈ h.work, w.read = true) → exec (.completionTimeout (.queueData n)) s = .next s)) ∧
  (∀ (s : State) (e : Fin 4), let c := (dmaEngineOf s e.val).active
    (c = 0 → exec (.completionTimeout (.dmaChannel e)) s = .next s) ∧
    (c ≠ 0 → (dmaChannelOf s e.val c).desc = none → exec (.completionTimeout (.dmaChannel e)) s =
      .next (dmaBusError s e.val 2 true false (0, 0, 0))) ∧
    (∀ d, c ≠ 0 → (dmaChannelOf s e.val c).desc = some d → (dmaChannelOf s e.val c).flushing = true →
      exec (.completionTimeout (.dmaChannel e)) s =
        .next (dmaBusError (timeoutLog s (0x8000 * (e.val / 2))) e.val 5 false true (dmaLast d))) ∧
    (∀ d, (dmaChannelOf s e.val c).desc = some d → (dmaChannelOf s e.val c).flushing = false → d.srcHbm = true →
      exec (.completionTimeout (.dmaChannel e)) s = .next s)) ∧
  (∀ (s : State) (fn : W16) (f : Func) (off : BitVec 12), (endpointOf s (epOf fn.toNat)).linkUp = true →
    epEnabled s (epOf fn.toNat) = true → s.hif.deviceReady = true →
    ((endpointOf s (epOf fn.toNat)).configReady = true →
      (fnExists s fn.toNat = true → funcOf s fn.toNat = some f →
        exec (.configRequest fn off none) s =
          .next { s with out := .completion fn.toNat 0 (leBytes 4 (cfgRead s fn.toNat f (off.toNat / 4 * 4))) :: s.out } ∧
        ∀ v, exec (.configRequest fn off (some v)) s = .next
          { cfgWrite s fn.toNat (off.toNat / 4 * 4) v.toNat with
            out := .completion fn.toNat 0 [] :: (cfgWrite s fn.toNat (off.toNat / 4 * 4) v.toNat).out }) ∧
      (fnExists s fn.toNat = false → ∀ w, exec (.configRequest fn off w) s =
        .next { s with out := .completion fn.toNat 1 [] :: s.out })) ∧
    ((endpointOf s (epOf fn.toNat)).configReady = false → ∀ w, exec (.configRequest fn off w) s =
      .next { s with out := .completion fn.toNat 2 [] :: s.out })) ∧
  (∀ (s : State) (ep : Fin 2) (fn : W16) (off : BitVec 28), fn.toNat = 0x8000 * ep.val → (endpointOf s ep.val).linkUp = true →
    (endpointOf s ep.val).inReset = false → epEnabled s ep.val = true →
    (∀ n, barAnswers s fn.toNat 0 off.toNat (.read n) = true → off.toNat < 0x8000000 → (n = 4 ∨ n = 8) → off.toNat % n = 0 →
      let r : Requester := if ep = 0 then .hp0 else .hp1
      (∀ p o, lateStat s r (off.toNat / 8 * 8) n = some (p, o) → exec (.barMemoryRequest fn 0 off (.read n)) s =
        .next { s with lnm := { s.lnm with lateReads := s.lnm.lateReads ++ [{ port := p, offset := o, fn := some fn.toNat }] } }) ∧
      (lateStat s r (off.toNat / 8 * 8) n = none → runs (.barMemoryRequest fn 0 off (.read n)) s (fun u =>
        u.out = .completion fn.toNat 0 (slice (leBytes 8 (regValue s r (off.toNat / 8 * 8)).toNat) (off.toNat % 8) n)
          :: (regTouch s r (off.toNat / 8 * 8) (n == 8)).out))) ∧
    (∀ n x, barAnswers s fn.toNat 0 off.toNat (.read n) = true → 0xC000000 ≤ off.toNat → 0 < n → n ≤ 512 →
      off.toNat % 4096 + n ≤ 4096 → s.hif.deviceReady = true →
      x = (if ep = 0 then s.win.base0 else s.win.base1).toNat * 0x4000000 + (off.toNat - 0xC000000) →
      (∀ i, i < n → apertureGrant s (x + i) ≠ 0) → hbmRangeOk s x n = true →
      exec (.barMemoryRequest fn 0 off (.read n)) s =
        .next { s with out := .completion fn.toNat 0 ((List.range n).map (fun i =>
          if 0x200000000 ≤ x + i ∧ x + i < 0x214000100 then ledgerByte s.ldg (x + i)
          else (hbmRead s (x + i) 1).getD 0 0)) :: s.out }) ∧
    (∀ bs x, barAnswers s fn.toNat 0 off.toNat (.write bs) = true → 0xC000000 ≤ off.toNat → bs.length ≤ 512 →
      off.toNat % 4096 + bs.length ≤ 4096 → s.hif.deviceReady = true →
      x = (if ep = 0 then s.win.base0 else s.win.base1).toNat * 0x4000000 + (off.toNat - 0xC000000) →
      (∀ i, i < bs.length → apertureGrant s (x + i) = 2) → hbmRangeOk s x bs.length = true → memoryWf s = true →
      runs (.barMemoryRequest fn 0 off (.write bs)) s (fun u => u = { s with hbm := u.hbm } ∧
        ∀ a, hbmGet u a = if x ≤ a ∧ a < x + bs.length then bs.getD (a - x) 0 else hbmGet s a)))

namespace Sys2Proof.Spec
open Sys2Proof.Machine

/-- DMA channel `c` of engine `e` becomes `x`, and nothing else changes. -/
def dmaBecomes (s : State) (e c : Nat) (x : DmaChannel) : State :=
  { s with dma := { s.dma with channels := tset s.dma.channels (16 * e + c) x } }

/-- Mailbox pair `m` becomes `b`, and nothing else changes. -/
def boxBecomes (s : State) (m : Nat) (b : Mailbox) : State :=
  { s with mbx := { s.mbx with boxes := tset s.mbx.boxes m b } }

/-- The channel's descriptor has ended: STATUS and DONE are in it, HEAD is past it, and the engine is free (R506, R509). -/
def dmaEnded (s u : State) (e c : Nat) (status : Byte) : Prop :=
  let x := dmaChannelOf s e c
  let y := dmaChannelOf u e c
  (dmaEngineOf u e).active = 0 ∧ y.head = x.head + 1 ∧ y.descriptors = x.descriptors + 1 ∧ y.desc = none ∧
  y.state = (if x.enable then .idle else .disabled) ∧
  .hostWrite e (dmaFn e) (x.ringAddr.toNat + x.head.toNat % 2 ^ x.sizeLog2.toNat * 64 + 56) [status, 1] ∈ u.out

end Sys2Proof.Spec

/-- Programmed DMA channels (R499-R509): the channel chosen fetches its descriptor, a good one copies its element and a bad one ends
with its status, an error halts the channel, and RETRY, SKIP and RESET lead out of the halt. -/
def Obligations.DmaChannels : Prop :=
  (∀ (s : State) (e : Fin 4) (c : Nat) (x : DmaChannel), x = dmaChannelOf s e.val c → (dmaEngineOf s e.val).active = 0 →
    dmaNext s e.val = some c →
    exec (.dmaChannelSelect e) s = .next { s with
      dma := { s.dma with
        engines := tset s.dma.engines e.val { dmaEngineOf s e.val with last := c, active := c }
        channels := tset s.dma.channels (16 * e.val + c) { x with state := .running, desc := none, flushing := false } }
      out := .hostRead e.val (dmaFn e.val) (x.ringAddr.toNat + x.head.toNat % 2 ^ x.sizeLog2.toNat * 64) 64 :: s.out }) ∧
  (∀ (s : State) (e : Fin 4) (c : Nat) (x : DmaChannel) (bytes : List Byte) (d : DmaDesc), x = dmaChannelOf s e.val c →
    (dmaEngineOf s e.val).active = c → 0 < c → c < 16 → x.desc = none → bytes.length = 64 →
    (dmaRuns s e.val = false → exec (.dmaDescriptorStart e bytes) s = .next s ∧ ∀ data, exec (.dmaTransferDone e data) s = .next s) ∧
    (dmaRuns s e.val = true → d = dmaDescOf (featOn s (dmaFn e.val) featDma) bytes →
    (dmaWellFormed bytes d = false → runs (.dmaDescriptorStart e bytes) s (fun u => dmaEnded s u e.val c 1)) ∧
    let inside := dmaWindowBad s = false ∧ (d.srcHbm = true → spanInWindow s d.srcSpan = true) ∧
      (d.dstHbm = true → spanInWindow s d.dstSpan = true)
    (dmaWellFormed bytes d = true → ¬inside → runs (.dmaDescriptorStart e bytes) s (fun u => dmaEnded s u e.val c 4)) ∧
    (dmaWellFormed bytes d = true → inside → exec (.dmaDescriptorStart e bytes) s =
      .next { dmaBecomes s e.val c { x with desc := some d } with
        out := (if d.srcHbm then [] else
          (d.elements.map (fun i => Out.hostRead e.val (dmaFn e.val) (d.srcAt i.1 i.2.1 i.2.2) d.elem)).reverse) ++ s.out }))) ∧
  (∀ (s : State) (e : Fin 4) (c : Nat) (x : DmaChannel) (data : List Byte) (d : DmaDesc), x = dmaChannelOf s e.val c →
    (dmaEngineOf s e.val).active = c → 0 < c → c < 16 → x.desc = some d → dmaRuns s e.val = true → d.count0 = 1 →
    d.count1 = 1 → d.count2 = 1 → x.flushing = false → s.hbmU.step = 0 ∨ s.hbmU.shedUsed < 2 * (s.app.demand.hostHbm + s.app.demand.storage) → memoryWf s = true →
    (d.srcHbm = true → hbmRangeOk s d.src d.elem = true) →
    runs (.dmaTransferDone e data) s (fun u =>
      (d.barrier = false ∨ d.dstHbm = true → dmaEnded s u e.val c 0) ∧
      (d.barrier = true → d.dstHbm = false → .hostRead e.val (dmaFn e.val) d.dst 0 ∈ u.out ∧
        dmaEngineOf u e.val = dmaEngineOf s e.val ∧
        dmaChannelOf u e.val c = { x with flushing := true, bytes := (dmaChannelOf u e.val c).bytes }) ∧
      let bytes := if d.srcHbm then hbmRead s d.src d.elem else slice data 0 d.elem
      (d.dstHbm = true → ∀ a, hbmGet u a =
        if d.dst ≤ a ∧ a < d.dst + d.elem then bytes.getD (a - d.dst) 0 else hbmGet s a) ∧
      (d.dstHbm = false → .hostWrite e.val (dmaFn e.val) d.dst bytes ∈ u.out ∧ ∀ a, hbmGet u a = hbmGet s a) ∧
      (dmaChannelOf u e.val c).bytes.toNat = (x.bytes.toNat + d.elem) % 2 ^ 64)) ∧
  (∀ (s : State) (e : Fin 4) (c : Nat) (data : List Byte) (d : DmaDesc), (dmaEngineOf s e.val).active = c → 0 < c → c < 16 →
    (dmaChannelOf s e.val c).desc = some d → dmaRuns s e.val = true → (dmaChannelOf s e.val c).flushing = true →
    runs (.dmaTransferDone e data) s (fun u => dmaEnded s u e.val c 0) ∧
    ∀ i0 i1 i2 w, runs (.dmaBusError e 5 false w i0 i1 i2) s (fun u => raised s u .dmaBusError (0x0C + e.val) c ∧
      let y := dmaChannelOf u e.val c
      (dmaEngineOf u e.val).active = 0 ∧ y.state = .halted ∧ y.failDir = true ∧ y.failHbm = false ∧ y.failCause = 5 ∧
      y.failAddr = BitVec.ofNat 64 (dmaLastDst d) ∧ y.failI0 = i0 ∧ y.failI1 = i1 ∧ y.failI2 = i2 ∧ y.failFetch = false)) ∧
  (∀ (s : State) (e : Fin 4) (c : Nat) (x : DmaChannel) (cause : Fin 6) (w : Bool) (i0 i1 i2 : W16), x = dmaChannelOf s e.val c →
    (dmaEngineOf s e.val).active = c → 0 < c → c < 16 → x.desc = none → cause.val < 4 → x.irqOnHalt = false →
    runs (.dmaBusError e cause true w i0 i1 i2) s (fun u => raised s u .dmaBusError (0x0C + e.val) c ∧
      dmaEngineOf u e.val = { dmaEngineOf s e.val with active := 0, halts := (dmaEngineOf s e.val).halts + 1 } ∧
      dmaChannelOf u e.val c = { x with
        state := .halted, failDir := false, failHbm := false, failCause := BitVec.ofNat 4 cause.val
        failAddr := BitVec.ofNat 64 (x.ringAddr.toNat + x.head.toNat % 2 ^ x.sizeLog2.toNat * 64)
        failI0 := 0, failI1 := 0, failI2 := 0, failFetch := true } ∧
      (cause.val < 2 → u = { s with dma := u.dma, flt := u.flt }) ∧
      (2 ≤ cause.val → u = { s with dma := u.dma, flt := u.flt, hif := u.hif, out := u.out, free := u.free } ∧
        (endpointOf u (e.val / 2)).uncorrectable = (endpointOf s (e.val / 2)).uncorrectable + 1))) ∧
  (∀ (s : State) (e : Fin 4) (c : Nat) (d : DmaDesc) (cause : Fin 6) (i0 i1 i2 : W16), (dmaEngineOf s e.val).active = c → 0 < c →
    c < 16 → (dmaChannelOf s e.val c).desc = some d → (dmaChannelOf s e.val c).flushing = false →
    s.hbmU.step = 0 ∨ s.hbmU.shedUsed < 2 * (s.app.demand.hostHbm + s.app.demand.storage) → cause ≠ 5 → d.srcHbm = (cause.val == 4) →
    (i2.toNat, i1.toNat, i0.toNat) ∈ d.elements →
    runs (.dmaBusError e cause false false i0 i1 i2) s (fun u => raised s u .dmaBusError (0x0C + e.val) c ∧
      (dmaEngineOf u e.val).active = 0 ∧ (dmaEngineOf u e.val).halts = (dmaEngineOf s e.val).halts + 1 ∧
      let y := dmaChannelOf u e.val c
      y.state = .halted ∧ y.failDir = false ∧ y.failHbm = d.srcHbm ∧ y.failCause = BitVec.ofNat 4 cause.val ∧
      y.failI0 = i0 ∧ y.failI1 = i1 ∧ y.failI2 = i2 ∧ y.failFetch = false ∧
      let a := d.srcAt i2.toNat i1.toNat i0.toNat
      (d.srcHbm = true → y.failAddr =
        BitVec.ofNat 64 (((accessesAt 256 a d.elem).find? (fun x => !hbmAnswers s x)).getD a)) ∧
      (d.srcHbm = false → ∃ x ∈ readsAt s (dmaFn e.val) a d.elem, y.failAddr = BitVec.ofNat 64 x))) ∧
  (∀ (s : State) (e : Fin 4) (data : List Byte), (dmaChannelOf s e.val (dmaEngineOf s e.val).active).flushing = false →
    s.hbmU.step ≠ 0 → 2 * (s.app.demand.hostHbm + s.app.demand.storage) ≤ s.hbmU.shedUsed → exec (.dmaTransferDone e data) s = .next s) ∧
  (∀ (s : State) (e : Fin 4) (c : Fin 16) (x : DmaChannel), c ≠ 0 → x = dmaChannelOf s e.val c.val →
    (x.state = .halted → (dmaEngineOf s e.val).active ≠ c.val →
      exec (.dmaChReset e c) s = .next (dmaBecomes s e.val c.val { x with
        state := .disabled, desc := none, flushing := false }) ∧
      runs (.dmaChRetry e c) s (fun u => dmaChannelOf u e.val c.val = { x with
        state := if x.enable then .idle else .disabled, desc := none, flushing := false } ∧ u = { s with dma := u.dma }) ∧
      (dmaRuns s e.val = false → exec (.dmaChSkip e c) s = .next s) ∧
      (dmaRuns s e.val = true → (dmaEngineOf s e.val).active = 0 → runs (.dmaChSkip e c) s (fun u => dmaEnded s u e.val c.val 5))) ∧
    (x.state ≠ .halted → exec (.dmaChRetry e c) s = .next s ∧ exec (.dmaChSkip e c) s = .next s ∧
      exec (.dmaChReset e c) s = .next s) ∧
    (∀ v : W64, v.getLsbD 0 = true → x.enable = false → x.state = .disabled → 2 ≤ v.toNat / 2 ^ 16 % 2 ^ 11 →
      exec (.dmaChEnableWrite e c v) s = .next (dmaBecomes s e.val c.val { x with
        enable := true, irqOnHalt := v.getLsbD 1, vector := BitVec.ofNat 11 (v.toNat / 2 ^ 16), state := .idle })) ∧
    (∀ v : W16, ((v - x.head).toNat ≤ 2 ^ x.sizeLog2.toNat →
        exec (.dmaChProdWrite e c v) s = .next (dmaBecomes s e.val c.val { x with producer := v })) ∧
      (2 ^ x.sizeLog2.toNat < (v - x.head).toNat →
        exec (.dmaChProdWrite e c v) s = .next (dmaBecomes s e.val c.val { x with dbErrors := x.dbErrors + 1 }))))

/-- Mailboxes (R353, R510-R514): the host's data and rings land while the mailbox is EMPTY, the Supervisor takes a message and replies,
and what it posts is released by the host; engine messages to the Supervisor are taken in order. -/
def Obligations.Mailboxes : Prop :=
  (∀ (s : State) (ep : Fin 2) (m : Fin 32) (b : Mailbox), b = boxOf s m.val → boxActive s m.val = true →
    boxOwner s m.val = ep.val → b.rejectOther = false →
    (b.h2sFull = false →
      exec (.mbxH2sRing ep (1#32 <<< m.val)) s = .next (boxBecomes s m.val { b with h2sFull := true, h2sAborted := false }) ∧
      ∀ (o : Fin 64) (bytes : List Byte), (bytes.length = 4 ∨ bytes.length = 8) → o.val % bytes.length = 0 →
        exec (.mbxH2sDataWrite ep m o bytes) s = .next (boxBecomes s m.val { b with h2s := patch b.h2s o.val bytes })) ∧
    (b.h2sFull = true → ∀ (o : Fin 64) (bytes : List Byte), (bytes.length = 4 ∨ bytes.length = 8) → o.val % bytes.length = 0 →
      runs (.mbxH2sDataWrite ep m o bytes) s (fun u => boxOf u m.val = { b with reject := true } ∧
        u.mbx.rejects = s.mbx.rejects + 1 ∧ u.mbx.last = BitVec.ofNat 5 m.val)) ∧
    exec (.mbxS2hRelease ep (1#32 <<< m.val)) s = .next (boxBecomes s m.val { b with s2hFull := false })) ∧
  (∀ (s : State) (m : Fin 32) (b : Mailbox), b = boxOf s m.val → boxNext s = some m.val → releasedOf s 6 = true →
    s.rst.restarting = false → boxWellFormed b.h2s = true →
    (leAt b.h2s 0 1 = 1 → b.s2hFull = false → (boxMask s (boxOwner s m.val)).getLsbD m.val = true →
      exec (.echo m) s = .next (boxBecomes s m.val { b with
        heldReply := none, h2sFull := false, reject := false, s2hFull := true
        s2h := patch ([1, 0] ++ slice b.h2s 2 6 ++ zeroBytes 8 ++ slice b.h2s 16 48) 8 (leBytes 8 s.tmb.tick.toNat) })) ∧
    (leAt b.h2s 0 1 = 1 → b.s2hFull = true → exec (.echo m) s = .next (boxBecomes s m.val { b with
      heldReply := some ([1, 0] ++ slice b.h2s 2 6 ++ zeroBytes 8 ++ slice b.h2s 16 48) })) ∧
    (∀ c, leAt b.h2s 0 1 = 2 → b.s2hFull = true → channelOf s (leAt b.h2s 4 3) = some c → c.bind.inbox.isSome = true →
      isControl (leAt b.h2s 4 3) = false → c.inbox.length + c.held.length < 8 →
      runs (.toChannel m) s (fun u => ∃ x, channelOf u (leAt b.h2s 4 3) = some
          (if channelIdle s (leAt b.h2s 4 3) then { c with held := c.held ++ [x] } else { c with inbox := c.inbox ++ [x] }) ∧ x.source = 0xFFFFFF ∧ x.tag = BitVec.ofNat 16 (leAt b.h2s 2 2) ∧
        x.payload = boxWords b.h2s ∧
        boxOf u m.val = { b with heldReply := some ([2, 0] ++ slice b.h2s 2 5 ++ zeroBytes 57) } ∧
        u = { s with eng := u.eng, mbx := u.mbx })) ∧
    (leAt b.h2s 0 1 = 3 → exec (.hostAlive m) s = .next { s with
      mbx := { s.mbx with
        boxes := tset s.mbx.boxes m.val { b with h2sFull := false, reject := false }, alive := s.tmb.tick } })) ∧
  (∀ (s : State) (m : Fin 32) (b : Mailbox) (x : List Byte), b = boxOf s m.val → b.s2hFull = false → releasedOf s 6 = true →
    s.rst.restarting = false → b.heldReply = none → b.heldEngine = some x →
    (boxActive s m.val = true → (boxMask s (boxOwner s m.val)).getLsbD m.val = true →
      exec (.s2hPost m) s = .next (boxBecomes s m.val { b with
        heldEngine := none, s2hFull := true, s2h := patch x 8 (leBytes 8 s.tmb.tick.toNat) })) ∧
    (boxActive s m.val = false → exec (.s2hPost m) s = .next { s with mbx := { s.mbx with
      boxes := tset s.mbx.boxes m.val { b with heldEngine := none }, s2hLost := s.mbx.s2hLost + 1 } })) ∧
  (∀ (s : State) (v : W32), (∀ m < 32, s.mbx.mask0.getLsbD m = true → v.getLsbD m = true) →
    exec (.mbxS2hMaskWrite 0 v) s = .next { s with mbx := { s.mbx with mask0 := v } }) ∧
  (∀ (s : State) (x : Msg) (rest : List Msg), s.eng.supQueue = x :: rest → releasedOf s 6 = true → s.rst.restarting = false →
    (adminPending s = true → exec .supervisorEngineMessage s = .next s) ∧
    (adminPending s = false → x.tag.getLsbD 15 = true →
    let m := x.tag.toNat % 32
    (boxActive s m = true → (boxOf s m).heldEngine = none → exec .supervisorEngineMessage s = .next
      { s with
        eng := { s.eng with supQueue := rest }
        mbx := { s.mbx with boxes := tset s.mbx.boxes m { boxOf s m with heldEngine := some (engineMessage x) } } }) ∧
    (boxActive s m = true → (boxOf s m).heldEngine.isSome = true → exec .supervisorEngineMessage s = .next
      { s with
        eng := { s.eng with supQueue := rest }
        mbx := { s.mbx with s2hLost := s.mbx.s2hLost + 1 } })))

namespace Sys2Proof.Spec
open Sys2Proof.Machine

/-- The controller can write a completion of queue `sqid` now: the function issues requests and its completion queue has room. -/
def canAnswer (s : State) (i : Nat) (c : Controller) (sqid : Nat) (q : NvmeSq) (k : NvmeCq) : Prop :=
  ctlOf s i = some c ∧ c.posts = [] ∧ tget c.sqs sqid = some q ∧ tget c.cqs q.cqid = some k ∧ cqFull k = false ∧
  fnRuns s c.fn.toNat = true

/-- The completion entry that the controller has written. -/
def answeredAs (u : State) (c : Controller) (k : NvmeCq) (sqid cid status dw0 head : Nat) : Prop :=
  .hostWrite (sqEngine c sqid) c.fn.toNat (k.base.toNat + k.tail * 16)
    (nvmeEntry { sqid := sqid, cid := cid, status := status, dw0 := dw0 } head k.phase) ∈ u.out

/-- An admin command waits in the controller's admin queue, and `b` is its entry (R419, R421). -/
def adminWaits (s : State) (i : Nat) (c : Controller) (q : NvmeSq) (k : NvmeCq) (b : List Byte) (op : Nat) : Prop :=
  canAnswer s i c 0 q k ∧ c.rdy = true ∧ c.shst = 0 ∧ q.head ≠ q.tail ∧ 0 < q.granted ∧ b.length = 64 ∧
  leAt b 0 1 = op ∧ fieldN (leAt b 0 4) 8 2 = 0 ∧ fieldN (leAt b 0 4) 14 2 = 0

/-- The admin command is taken and completes with a status field and Dword 0, and its controller is as `P` says. -/
def adminAnswers (x : Instr) (s : State) (i : Nat) (c : Controller) (q : NvmeSq) (k : NvmeCq) (b : List Byte) (status dw0 : Nat)
    (P : State → Controller → Prop) : Prop :=
  runs x s (fun u => answeredAs u c k 0 (leAt b 2 2) status dw0 ((q.head + 1) % q.size) ∧
    ∃ c', ctlOf u i = some c' ∧ P u c')

/-- The one storage command in process. -/
def onlyCmd (s : State) (i : Fin 1024) (sqid cid : W16) (op : IoOp) (st : IoStage) (c : IoCmd) : Prop :=
  s.sto.cmds = [c] ∧ c.ctl = i.val ∧ c.sqid = sqid.toNat ∧ c.cid = cid ∧ c.op = op ∧ c.stage = st ∧ c.orphan = false

/-- A command of its own queue ends with a status field, and its granules are free. -/
def ends (x : Instr) (s : State) (k : Controller) (q : NvmeSq) (w : NvmeCq) (c : IoCmd) (status : Nat) : Prop :=
  runs x s (fun u => answeredAs u k w c.sqid c.cid.toNat status 0 q.head ∧ u.sto.cmds = [])

def pathOf (s : State) (t p : Nat) : Option Path := (targetOf s t).bind (fun x => x.paths[p]?)

/-- A capsule goes out on a path of target `x`: an opcode for a namespace, a descriptor for `n` bytes of data, and dwords 10 to 15; its
CID and the descriptor's address and key are the device's own (R434). -/
def capsuleSent (w u : State) (x : Target) (t p queue op ns n : Nat) (cid : W16) (dwords : List Byte) : Prop :=
  ∃ (f : Nat) (fill : List Byte), fill.length = 12 ∧ u = pathPost { w with free := f } t p
    [capsulePdu x.roce queue (capsuleOf op ns cid (capsuleSgl x.roce fill n) dwords)]

/-- The one storage command is sent to its target on path `p`: its capsule, on the fabric queue that its CID chooses (R427, R434). -/
def commandSent (w u : State) (c : IoCmd) (t p op ns n : Nat) (dwords : List Byte) : Prop :=
  ∃ x cid, targetOf w t = some x ∧ capsuleSent
    { w with sto := { w.sto with cmds := [{ c with
        stage := .sent, sentTo := [(t, p)], sentTick := intervalStart w, fabricCid := cid }] } }
    u x t p (ioQueueOf x c) op ns n cid dwords

/-- First block of the target's namespace, and the number of blocks less one. -/
def rangeDwords (x : Namespace) (lba n : Nat) : List Byte := leBytes 8 (x.remoteOffset + lba) ++ leBytes 4 (n - 1)

/-- The slab works on `total` blocks of a command: requests for the first of them join the queue of its context, as many as there is
room for while shedding lets storage work (R396, R427, R439). -/
def slabWorks (w u : State) (c : IoCmd) (total : Nat) : Prop :=
  let i := c.space.context
  let n := if shedOpen w then min total (32 - (ctxOf w i).queue.length) else 0
  u.sto.cmds = [{ c with stage := .xts, xtsNext := n, xtsDone := 0 }] ∧ u.hbm = w.hbm ∧ u.out = w.out ∧
  (ctxOf u i).queue = (ctxOf w i).queue ++ (List.range n).map (xtsRequest w c)

/-- Paths on which a command's capsule can go now. -/
def pathsFree (s : State) (c : IoCmd) : List Nat := (pathsFor s c.space).filter (fabricRoom s c c.space.target)

end Sys2Proof.Spec

/-- The admin commands of a storage function's controller (R419, R421, R436, R438): queues are created and deleted, features set and
read, data returned, and requests for events kept. -/
def Obligations.StorageAdminCommands : Prop :=
  ∀ (s : State) (i : Fin 1024) (c : Controller) (q : NvmeSq) (k : NvmeCq) (b : List Byte),
    let n := fieldN (dw10 b) 0 16
    let lid := fieldN (dw10 b) 0 8
    let v : W32 := BitVec.ofNat 32 (dw11 b)
    let pairs := ioPairs s c.fn.toNat - 1
    (adminWaits s i.val c q k b 0x01 → queueRefused s c b (thas c.sqs n) = none → fieldN (dw11 b) 16 16 ≠ 0 →
      thas c.cqs (fieldN (dw11 b) 16 16) = true →
      (nvmeQueueId s c.fn.toNat = none → adminAnswers (.nvmeCreateIoSq i b) s i.val c q k b 0x4006 0 (fun _ _ => True)) ∧
      ∀ id, nvmeQueueId s c.fn.toNat = some id →
      adminAnswers (.nvmeCreateIoSq i b) s i.val c q k b 0 0 (fun _ c' => tget c'.sqs n = some {
        id := id, granted := 0
        base := BitVec.ofNat 64 (leAt b 24 8), size := fieldN (dw10 b) 16 16 + 1, cqid := fieldN (dw11 b) 16 16, head := 0
        tail := 0 })) ∧
    (adminWaits s i.val c q k b 0x05 → queueRefused s c b (thas c.cqs n) = none → fieldN (dw11 b) 16 16 < 65 →
      adminAnswers (.nvmeCreateIoCq i b) s i.val c q k b 0 0 (fun _ c' => tget c'.cqs n = some {
        base := BitVec.ofNat 64 (leAt b 24 8), size := fieldN (dw10 b) 16 16 + 1
        vector := if bitN (dw11 b) 1 then some (fieldN (dw11 b) 16 16) else none, tail := 0, head := 0, phase := true
        gathered := 0, since := 0 })) ∧
    (adminWaits s i.val c q k b 0x00 → n ≠ 0 → thas c.sqs n = true → s.sto.cmds = [] → trising none c.sqs = true →
      adminAnswers (.nvmeDeleteIoSq i b) s i.val c q k b 0 0 (fun _ c' => tget c'.sqs n = none)) ∧
    (adminWaits s i.val c q k b 0x04 → n ≠ 0 → thas c.cqs n = true → trising none c.cqs = true →
      (c.sqs.any (fun e => e.2.cqid == n) = false → n ≠ q.cqid →
        adminAnswers (.nvmeDeleteIoCq i b) s i.val c q k b 0 0 (fun _ c' => tget c'.cqs n = none)) ∧
      (c.sqs.any (fun e => e.2.cqid == n) = true →
        adminAnswers (.nvmeDeleteIoCq i b) s i.val c q k b 0x410C 0 (fun _ c' => (tget c'.cqs n).isSome = true))) ∧
    (∀ data, adminWaits s i.val c q k b 0x02 → logPage s c lid = some data → leAt b 24 8 % 4096 = 0 → data.length ≤ 4096 →
      adminAnswers (.nvmeGetLogPage i b) s i.val c q k b 0 0 (fun u c' =>
        .hostWrite (sqEngine c 0) c.fn.toNat (leAt b 24 8) (data.take ((fieldN (dw10 b) 16 16 + fieldN (dw11 b) 0 16 * 65536 + 1) * 4)) ∈ u.out ∧
        (lid = 4 → bitN (dw10 b) 15 = false → c'.changed = []))) ∧
    (∀ data, adminWaits s i.val c q k b 0x06 → identifyData s i.val lid (leAt b 4 4) = some data → leAt b 24 8 % 4096 = 0 →
      data.length ≤ 4096 → adminAnswers (.nvmeIdentify i b) s i.val c q k b 0 0 (fun u _ =>
        .hostWrite (sqEngine c 0) c.fn.toNat (leAt b 24 8) data ∈ u.out)) ∧
    (adminWaits s i.val c q k b 0x08 →
      (ioOf s i.val n (BitVec.ofNat 16 (dw10 b / 65536)) = none →
        adminAnswers (.nvmeAbort i b) s i.val c q k b 0 1 (fun u _ => u.sto.cmds = s.sto.cmds)) ∧
      (∀ d, ioOf s i.val n (BitVec.ofNat 16 (dw10 b / 65536)) = some d → ioWasSent d = true →
        adminAnswers (.nvmeAbort i b) s i.val c q k b 0 1 (fun u _ => u.sto.cmds = s.sto.cmds)) ∧
      (∀ d, ioOf s i.val n (BitVec.ofNat 16 (dw10 b / 65536)) = some d → s.sto.cmds = [d] → ioWasSent d = false →
        runs (.nvmeAbort i b) s (fun u => u.sto.cmds = []))) ∧
    (adminWaits s i.val c q k b 0x09 →
      let set := fun (dw0 : Nat) (P : Controller → Prop) =>
        adminAnswers (.nvmeSetFeatures i b) s i.val c q k b 0 dw0 (fun _ c' => P c')
      (lid = 0x01 → set 0 (fun c' => c'.arbitration = v)) ∧ (lid = 0x06 → set 0 (fun c' => c'.vwcEnable = v.getLsbD 0)) ∧
      (lid = 0x08 → set 0 (fun c' => c'.coalescing = v)) ∧ (lid = 0x0B → set 0 (fun c' => c'.aec = v &&& 0x100)) ∧
      (lid = 0x07 → fieldN (dw11 b) 0 16 ≠ 0xFFFF → fieldN (dw11 b) 16 16 ≠ 0xFFFF → c.sqs.length ≤ 1 → c.cqs.length ≤ 1 →
        set (pairs + pairs * 65536) (fun _ => True))) ∧
    (adminWaits s i.val c q k b 0x0A →
      let gives := fun (dw0 : Nat) => adminAnswers (.nvmeGetFeatures i b) s i.val c q k b 0 dw0 (fun u _ => u.sto.cmds = s.sto.cmds)
      (lid = 0x01 → gives c.arbitration.toNat) ∧ (lid = 0x06 → gives (if c.vwcEnable then 1 else 0)) ∧
      (lid = 0x07 → gives (pairs + pairs * 65536)) ∧ (lid = 0x08 → gives c.coalescing.toNat) ∧
      (lid = 0x0B → gives c.aec.toNat)) ∧
    (adminWaits s i.val c q k b 0x0C →
      (c.aers.length < 4 → c.notice = .none_ → runs (.nvmeAsyncEventRequest i b) s (fun u => ∃ c', ctlOf u i.val = some c' ∧
        c'.aers = c.aers ++ [BitVec.ofNat 16 (leAt b 2 2)] ∧ u.out = s.out)) ∧
      (c.aers = [] → c.notice = .due → adminAnswers (.nvmeAsyncEventRequest i b) s i.val c q k b 0 0x00040002 (fun _ c' =>
        c'.aers = [] ∧ c'.notice = .reported)) ∧
      (4 ≤ c.aers.length →
        adminAnswers (.nvmeAsyncEventRequest i b) s i.val c q k b 0x4105 0 (fun _ c' => c'.aers = c.aers)))

/-- Storage commands in process (R419, R422, R427-R431, R435, R437, R440): fetched with its granules or turned away by its row, its
data moved, sent to its target on a live path, answered, timed out and reissued; a controller is enabled and shut down. -/
def Obligations.StorageCommands : Prop :=
  (∀ (s : State) (i : Fin 1024) (sqid : W16) (c : Controller) (q : NvmeSq) (k : NvmeCq) (b ranges : List Byte),
    canAnswer s i.val c sqid.toNat q k → sqid ≠ 0 → ioFetches s i.val sqid.toNat = true → b.length = 64 →
    (∀ row n, ioCheck s i.val b ranges = .error (row, n) → runs (.storageCommandFetch i sqid b ranges) s (fun u =>
      answeredAs u c k sqid.toNat (leAt b 2 2) (ioStatus row) 0 ((q.head + 1) % q.size) ∧ u.sto.cmds = s.sto.cmds)) ∧
    (∀ op n l, ioCheck s i.val b ranges = .ok (op, n) → s.sto.cmds = [] →
      granuleTake s (ioCmdOf s i.val sqid.toNat b ranges op n).need = some l → (op = .read → pathsFor s (nsOf s n) = []) →
      runs (.storageCommandFetch i sqid b ranges) s (fun u =>
        u.sto.cmds = [{ ioCmdOf s i.val sqid.toNat b ranges op n with
          bufs := l
          stage := match op with | .write => .dataIn | .read => .waitPath | _ => .carryOut }]))) ∧
  (∀ (s : State) (i : Fin 1024) (sqid cid : W16) (c : IoCmd) (p : Nat) (ps : List Nat) (x : Namespace) (y : Target), x = c.space →
    pathsFree s c = p :: ps → channelIdle s x.channel = false → targetOf s x.target = some y →
    let n := c.blocks * nsLba x
    let rns := x.remoteNsid.toNat
    let runsNow := fnRuns s ((ctlFn s i.val).getD 0) = true
    (∀ data, onlyCmd s i sqid cid .write .dataIn c → runsNow → bufsAnswer s c.bufs = true → shedOpen s = true →
      let w := bufWrite (shedUse s n) c.bufs (slice data 0 n)
      (x.xts = false → runs (.nvmeWrite i sqid cid true data) s (fun u =>
        commandSent w u c x.target p 1 rns n (rangeDwords x c.slba c.blocks))) ∧
      (x.xts = true → xtsServes s x = true → runs (.nvmeWrite i sqid cid true data) s (fun u => slabWorks w u c c.blocks))) ∧
    (∀ data, onlyCmd s i sqid cid .write .dataIn c → bufsAnswer s c.bufs = true → (shedOpen s = false ∨ ¬runsNow) →
      exec (.nvmeWrite i sqid cid true data) s = .next s) ∧
    (x.xts = false → onlyCmd s i sqid cid .writeZeroes .carryOut c → runs (.nvmeWriteZeroes i sqid cid) s (fun u =>
      commandSent s u c x.target p 8 rns 0 (rangeDwords x c.slba c.blocks))) ∧
    (x.xts = true → xtsServes s x = true → bufsAnswer s c.bufs = true → onlyCmd s i sqid cid .writeZeroes .carryOut c →
      let part := min (c.blocks - c.done) (131072 / nsLba x)
      let m := part * nsLba x
      (shedOpen s = true → runs (.nvmeWriteZeroes i sqid cid) s (fun u =>
        slabWorks (bufWrite (shedUse s m) c.bufs (zeroBytes m)) u { c with part := part } part)) ∧
      (shedOpen s = false → exec (.nvmeWriteZeroes i sqid cid) s = .next s)) ∧
    (onlyCmd s i sqid cid .dsm .carryOut c → runs (.nvmeDatasetManagement i sqid cid) s (fun u =>
      commandSent s u c x.target p 9 rns (16 * c.ranges.length) (leBytes 4 (c.ranges.length - 1) ++ leBytes 4 4)))) ∧
  (∀ (s : State) (i : Fin 1024) (sqid cid : W16) (c : IoCmd), pathsFree s c = [] ∨ channelIdle s c.space.channel = true →
    let waits : State := { s with sto := { s.sto with cmds := [{ c with stage := .waitPath }] } }
    (c.space.xts = false → onlyCmd s i sqid cid .writeZeroes .carryOut c →
      exec (.nvmeWriteZeroes i sqid cid) s = .next waits) ∧
    (onlyCmd s i sqid cid .dsm .carryOut c → exec (.nvmeDatasetManagement i sqid cid) s = .next waits)) ∧
  (∀ (s : State) (i : Fin 1024) (sqid cid : W16) (c : IoCmd) (k : Controller) (q : NvmeSq) (w : NvmeCq) (x : Target),
    canAnswer s i.val k sqid.toNat q w → k.shst = 0 → ctlFn s i.val = some k.fn.toNat → targetOf s c.space.target = some x →
    let n := c.blocks * nsLba c.space
    (∀ data, onlyCmd s i sqid cid .write .dataIn c → ends (.nvmeWrite i sqid cid false data) s k q w c 0x0004) ∧
    (onlyCmd s i sqid cid .flush .carryOut c →
      (flushTargets s c = [] → ends (.nvmeFlush i sqid cid) s k q w c 0) ∧
      (∀ t p, flushTargets s c = [t] → flushPath s c t = some p → channelIdle s c.space.channel = false →
        runs (.nvmeFlush i sqid cid) s (fun u =>
          commandSent s u c t p 0 (if c.all then 0xFFFFFFFF else c.space.remoteNsid.toNat) 0 []))) ∧
    (onlyCmd s i sqid cid .read .dataOut c → bufsAnswer s c.bufs = true → shedOpen s = true →
      runs (.nvmeRead i sqid cid true) s (fun u =>
        (∀ j a m, c.segs[j]? = some (a, m) → .hostWrite (sqEngine k c.sqid) k.fn.toNat a
          (slice (bufRead s c.bufs n) (sumOf ((c.segs.take j).map (·.2))) m) ∈ u.out) ∧
        answeredAs u k w c.sqid c.cid.toNat 0 0 q.head ∧ u.sto.cmds = [])) ∧
    (∀ (a : TargetAnswer) (status : W16) (data : List Byte), (a.target.val, a.path.val) ∈ c.sentTo → a.kind = .completion status →
      (onlyCmd s i sqid cid .write .sent c → ends (.targetResponseRx i sqid cid a data) s k q w c
        (if guestStatus status.toNat % 2 ^ 11 = 0 then 0 else guestStatus status.toNat)) ∧
      (onlyCmd s i sqid cid .read .sent c → a.ecn = false → guestStatus status.toNat % 2 ^ 11 = 0 → bufsAnswer s c.bufs = true →
        (c.space.xts = false → exec (.targetResponseRx i sqid cid a data) s = .next { s with
          sto := { s.sto with cmds := [{ c with stage := .dataOut, sentTo := [] }] } }) ∧
        (c.space.xts = true → xtsServes s c.space = true → runs (.targetResponseRx i sqid cid a data) s (fun u =>
          slabWorks s u { c with sentTo := [] } c.blocks)))) ∧
    (∀ (a : TargetAnswer) (data : List Byte), (a.target.val, a.path.val) ∈ c.sentTo → a.ecn = false →
      (∀ o, a.kind = .data o → onlyCmd s i sqid cid .read .sent c →
        (shedOpen s = true → exec (.targetResponseRx i sqid cid a data) s = .next
          (bufWrite (shedUse s data.length) c.bufs (slice (patch (bufRead s c.bufs n) o data) 0 n))) ∧
        (shedOpen s = false → exec (.targetResponseRx i sqid cid a data) s = .next s)) ∧
      (∀ tag o m, a.kind = .pull tag o m → onlyCmd s i sqid cid .write .sent c → a.target.val = c.space.target → shedOpen s = true →
        let bytes := ((bufRead s c.bufs n).drop o).take m
        bytes ≠ [] → exec (.targetResponseRx i sqid cid a data) s = .next
          (pathPost (shedUse s bytes.length) a.target.val a.path.val
            [dataPdu x.roce (ioQueueOf x c) c.fabricCid tag o bytes]))) ∧
    (∀ (a : TargetAnswer) (data : List Byte), (a.target.val, a.path.val) ∉ c.sentTo → s.sto.cmds = [c] → a.ecn = false →
      exec (.targetResponseRx i sqid cid a data) s = .next s) ∧
    (∀ t p, onlyCmd s i sqid cid .write .sent c → t = c.space.target → c.sentTo = [(t, p)] →
      (s.tmb.tick.toNat < c.sentTick + s.sto.ioTimeout → exec (.ioTimeout i sqid cid) s = .next s) ∧
      (c.sentTick + s.sto.ioTimeout ≤ s.tmb.tick.toNat →
        (s.sto.retryLimit ≤ c.reissues → ends (.ioTimeout i sqid cid) s k q w c 0x0022) ∧
        (c.reissues < s.sto.retryLimit → ∀ p', reissuePath s c (t, p) = some (t, p') → runs (.ioTimeout i sqid cid) s (fun u =>
          commandSent { s with sto := { s.sto with timeouts := s.sto.timeouts + 1, reissues := s.sto.reissues + 1 } } u
            { c with reissues := c.reissues + 1 } t p' 1 c.space.remoteNsid.toNat n (rangeDwords c.space c.slba c.blocks)))))) ∧
  (∀ (s : State) (i : Fin 1024) (c : Controller), ctlOf s i.val = some c →
    (∀ v : W32, c.cc.getLsbD 0 = false → v.getLsbD 0 = true → v.toNat / 16 % 1024 = 0 → v.toNat / 16384 % 4 = 0 →
      (∀ fn id, ctlFn s i.val = some fn → nvmeQueueId s fn = some id →
        runs (.nvmeCcWrite i v) s (fun u => ctlOf u i.val = some (ctlEnable id { c with cc := v }))) ∧
      (∀ fn, ctlFn s i.val = some fn → nvmeQueueId s fn = none →
        runs (.nvmeCcWrite i v) s (fun u => ctlOf u i.val = some { c with cc := v }))) ∧
    (∀ v : W32, c.cc.getLsbD 0 = true → v.getLsbD 0 = false → s.sto.cmds = [] →
      runs (.nvmeCcWrite i v) s (fun u => ctlOf u i.val = some { Controller.reset c.fn with
        cc := v, aqa := c.aqa, asq := c.asq, acq := c.acq })) ∧
    (∀ t, c.shutBy = some t →
      (t ≤ s.tmb.tick.toNat → runs (.nvmeShutdownTimeout i) s (fun u =>
        ctlOf u i.val = some { c with shst := 2, shutBy := none })) ∧
      (s.tmb.tick.toNat < t → exec (.nvmeShutdownTimeout i) s = .next s)))

/-- Paths to storage targets (R429, R430, R434, R435, R438): attempts back off, a path becomes LIVE and is lost, keep-alives go out, the
pacing rate is halved and recovers, and a namespace without a path is lost in the end. -/
def Obligations.StoragePaths : Prop :=
  (∀ (s : State) (t : Fin 1024) (p : Fin 2) (x : Target) (y : Path), targetOf s t.val = some x → x.paths[p.val]? = some y →
    let now := s.tmb.tick.toNat
    let start := intervalStart s
    let becomes := fun (y' : Path) => pathMod s t.val p.val (fun _ => y')
    (y.state = .connecting → y.attemptAt ≤ now → runs (.pathConnectAttempt t p) s (fun u => ∃ (f : Nat) (fill : List Byte),
      fill.length = 30 * (x.ioQueues + 1) + 6 ∧ u = pathPost { becomes { y with
          attempting := true, attemptAt := start + y.backoff, backoff := min 6400000 (2 * y.backoff) } with free := f } t.val p.val
        (connectPdus s x fill 0 ++ propertyPdus x (fill.drop (30 * (x.ioQueues + 1))) ++
          (List.range x.ioQueues).flatMap (fun i => connectPdus s x (fill.drop (30 * (i + 1))) (i + 1))))) ∧
    (now < y.attemptAt ∨ y.state ≠ .connecting → exec (.pathConnectAttempt t p) s = .next s) ∧
    (∀ vwc remote, y.state = .connecting → y.attempting = true → s.sto.cmds = [] →
      let live := targetMod (becomes { y with
          state := .live, attempting := false, backoff := 100000, pace := 2 ^ 32, keepAliveAt := start + s.sto.nsLoss / 4
          remotes := remote }) t.val (fun x => { x with vwc := vwc, lostSince := none })
      ((∀ e ∈ s.sto.namespaces, e.2.valid = true → e.2.target ≠ t.val) → runs (.pathLive t p vwc remote) s (fun u =>
        ∃ cid, capsuleSent live u x t.val p.val 0 0x06 0 4096 cid (leBytes 4 1))) ∧
      (∀ n ns, s.sto.namespaces = [(n, ns)] → ns.valid = true → ns.target = t.val → pathLive s t.val (1 - p.val) = false →
        ctlOf s ns.fn = none → runs (.pathLive t p vwc remote) s (fun u => nsOf u n = { ns with notReady :=
          !(remote.any (fun r => r.nsid == ns.remoteNsid && r.lba4k == ns.lba4k &&
            decide (ns.remoteOffset + ns.size ≤ r.size))) }))) ∧
    (y.state = .live → collectorRuns s = true → pathLive s t.val (1 - p.val) = true →
      runs (.storagePathDown t p) s (fun u => pathOf u t.val p.val = some { y with
          state := .failed, attempting := false, sendQ := [], remotes := [] } ∧
        (∃ x', targetOf u t.val = some x' ∧ x'.failures = x.failures + 1) ∧
        ∃ r, u.flt.inbox = s.flt.inbox ++ [r] ∧ r.cls = .storagePathDown ∧ r.subj = BitVec.ofNat 32 t.val)) ∧
    (y.state = .live → y.keepAliveAt ≤ now →
      let y' := { y with keepAliveAt := start + s.sto.nsLoss / 4 }
      let unit := fun (cid : W16) => capsulePdu x.roce 0 (capsuleOf 0x18 0 cid (zeroBytes 16) (leBytes 4 0))
      runs (.keepAliveSend t p) s (fun u => ∃ cid, capsuleSent (becomes y') u x t.val p.val 0 0x18 0 0 cid (leBytes 4 0)) ∧
      (x.roce = true → y.credit ≤ 0 → runs (.keepAliveSend t p) s (fun u => ∃ cid,
        pathOf u t.val p.val = some { y' with sendQ := y.sendQ ++ [unit cid] } ∧ u.crb = s.crb ∧ u.sch = s.sch)) ∧
      (x.roce = false → y.sendQ = [] → (∀ q, portOf s y.port = some q → 1518 ≤ q.cfg.maxFrame) →
        runs (.keepAliveSend t p) s (fun u => ∃ cid, ∃ (f : Nat) (fill : List Byte), fill.length = 64 ∧
          u = pathSend { becomes y' with free := f } y.port x.tenant (pathFrame false y 4 (unit cid).bytes fill)))) ∧
    (y.state = .live → collectorRuns s = true → pathLive s t.val (1 - p.val) = false → s.sto.cmds = [] →
      runs (.storagePathDown t p) s (fun u => ∃ x', targetOf u t.val = some x' ∧ x'.failures = x.failures + 1 ∧
        x'.lostSince = some start)) ∧
    (y.state ≠ .live → exec (.storagePathDown t p) s = .next s ∧ exec (.keepAliveSend t p) s = .next s ∧
      exec (.cnpRx t p) s = .next s ∧ exec (.pacingRecovery t p) s = .next s) ∧
    (y.state = .live → now < y.keepAliveAt → exec (.keepAliveSend t p) s = .next s) ∧
    (y.state = .live → x.roce = true →
      runs (.cnpRx t p) s (fun u => pathOf u t.val p.val = some { y with pace := y.pace / 2, paceAt := start + 64 }) ∧
      (y.paceAt ≤ now → runs (.pacingRecovery t p) s (fun u => pathOf u t.val p.val = some { y with
        pace := min (2 ^ 32) (y.pace + 2 ^ 28), paceAt := start + 64 })) ∧
      (now < y.paceAt → runs (.pacingRecovery t p) s (fun u => pathOf u t.val p.val = some y)))) ∧
  (∀ (s : State) (n : Fin 16384) (x : Namespace) (y : Target) (l : Nat), tget s.sto.namespaces n.val = some x → x.valid = true →
    targetOf s x.target = some y → y.lostSince = some l → s.sto.cmds = [] → x.notReady = false → ctlOf s x.fn = none →
    (l + s.sto.nsLoss ≤ s.tmb.tick.toNat → runs (.nsLossTimeout n) s (fun u => nsOf u n.val = { x with notReady := true })) ∧
    (s.tmb.tick.toNat < l + s.sto.nsLoss → exec (.nsLossTimeout n) s = .next s))

namespace Sys2Proof.Spec
open Sys2Proof.Machine

/-- The mirror unit becomes `m`, and nothing else changes. -/
def mirBecomes (s : State) (m : Mir) : State := { s with mir := m }

/-- The mirror unit once a record of `n` body bytes has taken its place in the frames of the partner's delta (R523, R527). -/
def received (s : State) (n : Nat) : Mir :=
  { s.mir with
    rxBytes := s.mir.rxBytes + 4 + n
    received := wrapAdd s.mir.received ((s.mir.rxBytes + 4 + n) / 9196 - s.mir.rxBytes / 9196) }

/-- The mirror unit once a frame of the SEQ space has come (R523). -/
def framed (s : State) : Mir := { s.mir with received := s.mir.received + 1 }

/-- The side takes the records of its partner's delta. -/
def takes (s : State) : Prop := mirrorCarries s = true ∧ s.mir.state ≠ .init ∧ s.mir.state ≠ .solo

end Sys2Proof.Spec

/-- The mirror link (R333, R521-R526): training and its backoff, the halves, retransmission, and what a heartbeat brings. -/
def Obligations.MirrorLink : Prop :=
  (∀ s : State, mirrorOn s = true →
    let m := s.mir
    let now := s.tmb.tick.toNat
    let start := intervalStart s
    (mirrorLink s = 0 → m.waitUntil ≤ now → exec .mirrorTrainingAttempt s =
      .next (mirBecomes s { m with trainingSince := some start, attempts := m.attempts + 1 })) ∧
    (mirrorLink s = 0 → now < m.waitUntil → exec .mirrorTrainingAttempt s = .next s) ∧
    (∀ t, mirrorLink s = 1 → m.trainingSince = some t →
      (t + 50000 ≤ now → exec .mirrorTrainingTimeout s = .next (mirBecomes s { m with
        trainingSince := none, backoffMs := if m.backoffMs = 0 then 50 else min 3200 (2 * m.backoffMs)
        waitUntil := start + (if m.backoffMs = 0 then 50 else min 3200 (2 * m.backoffMs)) * 1000 })) ∧
      (now < t + 50000 → exec .mirrorTrainingTimeout s = .next s) ∧
      exec (.mirrorHalfUp 0) s = .next (mirBecomes s { m with
        nextSeq := 1, received := 0, lastAck := 0, ackTick := now, unacked := [], rxBytes := 0, delta := [], verHeld := []
        pressure := false, trainingSince := none, backoffMs := 0, linkLost := none, half0 := true })) ∧
    (m.half0 = true → m.half1 = false → exec (.mirrorHalfUp 1) s = .next (mirBecomes s { m with half1 := true })) ∧
    (m.half0 = true → m.half1 = true → runs (.mirrorHalfDown 0) s (fun u => raised s u .mirrorHalfDown 0x06 0 ∧
      u = { s with mir := { m with half0 := false }, flt := u.flt })) ∧
    (m.half0 = true → m.half1 = false → runs (.mirrorHalfDown 0) s (fun u => u.mir.half0 = false ∧
      u.mir.linkLost = some start ∧ u.mir.waitUntil = now)) ∧
    (mirrorCarries s = true → m.unacked ≠ [] →
      (m.ackTick + 4 ≤ now → runs .mirrorRetransmit s (fun u =>
        u.mir = { m with ackTick := start, retransmits := wrapAdd m.retransmits m.unacked.length } ∧
        u.out.length = s.out.length + m.unacked.length)) ∧
      (now < m.ackTick + 4 → exec .mirrorRetransmit s = .next s)) ∧
    (∀ hb ack tx rx (sub : Fin 32000), mirrorCarries s = true → m.syncDone = none → runs (.heartbeatRx hb ack tx rx sub) s (fun u =>
      u.mir.heartbeat = some hb ∧ u.mir.hbSeen = true ∧ u.mir.prevRx = { tick := now, sub := sub.val } ∧
      (m.lastAck.toNat < ack.toNat → ack.toNat < m.nextSeq.toNat → u.mir.lastAck = ack ∧ u.mir.ackTick = start ∧
        u.mir.unacked = m.unacked.filter (fun f => decide (ack.toNat < f.seq.toNat))) ∧
      (ack.toNat ≤ m.lastAck.toNat → u.mir.lastAck = m.lastAck ∧ u.mir.unacked = m.unacked)))) ∧
  (∀ (s : State) (id : Nat) (p : Packet), mirrorCarries s = true →
    s.crb.pkts.find? (fun e => e.2.stage == .exporting) = some (id, p) →
    runs .mirrorExportDepart s (fun u => u.mir.exportSeq = s.mir.exportSeq ∧ u.mir.nextSeq = s.mir.nextSeq + 1 ∧
      u.mir.unacked = s.mir.unacked ++ [{
        seq := s.mir.nextSeq, type := 6, payload := p.bytes ++ leBytes 4 p.fcs.toNat ++ p.icing.getD [] }])) ∧
  (∀ (s : State) (bytes : List Byte), mirrorCarries s = true → s.mir.state ≠ .init →
    exec (.export_ bytes) s = .next (mirBecomes s (framed s)))

/-- The records of the partner's delta (R304, R332, R415, R523, R527-R529): each takes its place in the frames and is applied to this
side; a SOLO side takes the place and discards the record. That a context which does not unwrap changes nothing is the model's
reading (log entry 111). -/
def Obligations.DeltaRecords : Prop :=
  (∀ s : State, takes s →
    (∀ v, exec (.boundaryRecord v) s = .next (mirBecomes s { received s 8 with partnerBoundary := v })) ∧
    (∀ tick table del record r f, recordRead table.val del record = some r → r.ordinary = true →
      ownPrevails s r tick.toNat = false → (∀ e, r = .mac e → del = true ∨ macReceived s e = some e) →
      r.apply del s.fwd = some f →
      exec (.ordWrite tick table del record) s = .next { s with mir := received s (12 + record.length), fwd := f }) ∧
    (∀ tick table del record r, recordRead table.val del record = some r → ownPrevails s r tick.toNat = true →
      exec (.ordWrite tick table del record) s = .next (mirBecomes s (received s (12 + record.length)))) ∧
    (∀ tick table del record r d, recordRead table.val del record = some r → openWrite s.dec (r.vwrites del) = some d →
      exec (.verWrite tick table del record) s = .next { s with mir := received s (12 + record.length), dec := d }) ∧
    (∀ kind version tick,
      (s.tmb.tick.toNat < tick.toNat →
        let plans := s.mir.plans.filter (fun p => !(kind == .select && p.kind == .commit && p.remote)) ++
          [{ kind := kind, version := version.val, tick := tick.toNat, remote := true }]
        exec (.plan kind version tick) s = .next { s with
          mir := { received s 16 with plans := plans }
          dec := match kind, s.dec.sealed_ with
            | .commit, none => { s.dec with
                sealed_ := some { writes := s.dec.openWrites, tick := s.tmb.tick.toNat, waiter := .plan, fresh := false }
                openWrites := [], openWriteCount := 0 }
            | .select, some x => if x.waiter = .plan then
                { s.dec with sealed_ := none, openWrites := x.writes ++ s.dec.openWrites } else s.dec
            | _, _ => s.dec }) ∧
      (tick.toNat ≤ s.tmb.tick.toNat → runs (.plan kind version tick) s (fun u => raised s u .pairOutOfStep 0x06 0xFFFF ∧
        u = { s with mir := { received s 16 with staleDue := true }, flt := u.flt }))) ∧
    (∀ (i : BitVec 27) bytes, memoryWf s = true → hbmAnswers s (i.toNat * 64) = true → flowValid (flowRead s i.toNat) = false →
      runs (.flow i false bytes) s (fun u => flowRead u i.toNat = slice bytes 0 56 ++ zeroBytes 8 ∧
        (∀ a, a < i.toNat * 64 ∨ i.toNat * 64 + 64 ≤ a → hbmGet u a = hbmGet s a) ∧ u.mir = received s 72)) ∧
    (∀ (c : W24) words x ch, s.mir.pair.shadows.find? (fun x => x.1 == c.toNat) = some x → channelOf s x.2 = some ch →
      exec (.channel c words) s = .next (stateSetAll (mirBecomes s (received s (8 + 8 * words.length))) ch.bind 0
        (words.take ch.bind.stateWords))) ∧
    (∀ (c : BitVec 18) hwm, twf (ctxUnlisted s) s.cph.ctxs = true → runs (.ctr c hwm) s (fun u =>
      ctxOf u c.toNat = { ctxOf s c.toNat with ctrHwm := max (ctxOf s c.toNat).ctrHwm hwm.toNat } ∧
      (∀ k, k ≠ c.toNat → ctxOf u k = ctxOf s k) ∧ u = { s with mir := received s 16, cph := u.cph })) ∧
    (∀ (c : BitVec 18) image, twf (ctxUnlisted s) s.cph.ctxs = true → (ctxOf s c.toNat).queue = [] →
      let sent := (tget s.kvl.vbat 1).bind (fun key => ctxOfImage image (some key))
      runs (.context c false image) s (fun u => ctxOf u c.toNat =
        (sent.map (fun x => { x with
          epoch := s.cph.bootEpoch, saveSeq := 0, ctrHwm := max (ctxOf s c.toNat).ctrHwm x.ctrHwm })).getD (ctxOf s c.toNat)) ∧
      runs (.context c true image) s (fun u => ctxOf u c.toNat = if sent.isSome then Ctx.empty else ctxOf s c.toNat)) ∧
    (∀ bytes n g, gateOfBytes bytes = (n, g) → gateOk bytes = true → (portOf s n).isSome = true →
      runs (.gate bytes) s (fun u => schPort u n = { schPort s n with
        pendingList := some g, actTick := max (s.tmb.tick.toNat + 1) (g.baseS * 1000000 + cdiv g.baseNs 1000) } ∧
        u = { s with mir := received s bytes.length, sch := { s.sch with ports := u.sch.ports } })) ∧
    (∀ id tick tag,
      (s.ldg.scheduled = [] → s.ldg.running = none → s.mir.pair.mode ≠ 0 → s.tmb.tick.toNat + 15 ≤ tick.toNat →
        0 < s.tmb.tick.toNat → exec (.cut false 0 id tick tag) s = .next { s with
          ldg := { s.ldg with
            scheduled := [{ kind := .pair, summary := false, tick := tick.toNat, tag := tag, id := s.ldg.nextCutId
                            partnerOk := true }]
            nextCutId := wrapInc s.ldg.nextCutId }
          mir := { received s 24 with delta := s.mir.delta ++ [{ kind := 0x0A, body := cutBody true 0 id tick tag }] } }) ∧
      (∀ status, exec (.cut true status id tick tag) s = .next { s with
        ldg := { s.ldg with scheduled := s.ldg.scheduled.map (fun c =>
          if c.kind = .pair ∧ c.tick = tick.toNat then { c with partnerOk := status == 0 } else c) }
        mir := received s 24 })) ∧
    (∀ bytes, exec (.migration bytes) s = .next (mirBecomes s { received s bytes.length with partnerUnits := bytes })) ∧
    (∀ (a : BitVec 37) bytes, memoryWf s = true → hbmRangeOk s a.toNat 64 = true → runs (.hbmWrite a bytes) s (fun u =>
      u = { s with mir := received s 72, hbm := u.hbm } ∧ ∀ x, hbmGet u x =
        if a.toNat ≤ x ∧ x < a.toNat + 64 then (slice bytes 0 64).getD (x - a.toNat) 0 else hbmGet s x)) ∧
    (∀ b, exec (.leader b) s = .next (mirBecomes s { received s 8 with leaderDue := some b }))) ∧
  (∀ (s : State) (n : W32), mirrorCarries s = true → s.mir.state ≠ .init → exec (.end_ n) s = .next (mirBecomes s { s.mir with
    rxBytes := 0, received := wrapAdd s.mir.received (cdiv (s.mir.rxBytes + 12) 9196 - s.mir.rxBytes / 9196) })) ∧
  (∀ s : State, mirrorCarries s = true → s.mir.state = .solo →
    (∀ tick table del record, exec (.ordWrite tick table del record) s =
      .next (mirBecomes s (received s (12 + record.length)))) ∧
    (∀ kind version tick, exec (.plan kind version tick) s = .next (mirBecomes s (received s 16))))

/-- The pair's sides (R533-R539, R621): the bulk sync, the guarded actions, and the evidence of the partner. -/
def Obligations.PairSides : Prop :=
  (∀ s : State, mirrorCarries s = true → s.mir.state ≠ .init →
    (∀ mirrorIn : W32, s.mir.state = .active ∨ s.mir.state = .solo →
      exec (.syncReq mirrorIn s.mir.pair.pairId) s = .next (mirBecomes s { framed s with
        syncStart := true, partnerIn := mirrorIn.toNat })) ∧
    (∀ mirrorIn pairId : W32, pairId ≠ s.mir.pair.pairId → runs (.syncReq mirrorIn pairId) s (fun u =>
      raised s u .pairConfigMismatch 0x06 0xFFFF ∧ u = { s with mir := framed s, flt := u.flt })) ∧
    (joining s = true → s.mir.syncParts ≠ [] →
      (∀ (offset : W64) bytes, memoryWf s = true → hbmRangeOk s offset.toNat bytes.length = true →
        runs (.syncData 6 offset bytes) s (fun u =>
          (∀ x, hbmGet u x = if offset.toNat ≤ x ∧ x < offset.toNat + bytes.length then bytes.getD (x - offset.toNat) 0
            else hbmGet s x) ∧
          u = { s with hbm := u.hbm, mir := { framed s with
            syncBytes := s.mir.syncBytes + bytes.length
            syncParts := if s.mir.syncParts.contains 6 then s.mir.syncParts else s.mir.syncParts ++ [6] } })) ∧
      (∀ gen size, exec (.syncDone gen size) s = .next (mirBecomes s { framed s with
        state := .syncing, generation := gen, leaving := false })))) ∧
  (∀ s : State,
    (s.mir.state = .active ∨ s.mir.state = .standby →
      exec .mirSwap s = .next (mirBecomes s { s.mir with swapDue := true }) ∧
      exec .mirForceTakeover s = .next (mirBecomes s { s.mir with forceDue := true })) ∧
    (s.mir.state ≠ .active → s.mir.state ≠ .standby → exec .mirSwap s = .next s ∧ exec .mirForceTakeover s = .next s) ∧
    (s.mir.state ≠ .init → exec .mirLeave s = .next (mirBecomes s { s.mir with leaving := true, staleDue := true })) ∧
    (∀ t, s.mir.pollSince = some t →
      (∀ serial, serial ≠ s.board.serial → exec (.partnerStatusResponse 0 serial) s =
        .next (mirBecomes s { s.mir with pollSince := none, e3 := false, pollAlive := true })) ∧
      (∀ status serial, status ≠ 0 ∨ serial = s.board.serial → exec (.partnerStatusResponse status serial) s =
        .next (mirBecomes s { s.mir with pollSince := none, e3 := true, pollAlive := false })) ∧
      (t + 100 ≤ s.tmb.tick.toNat → exec .partnerPollTimeout s =
        .next (mirBecomes s { s.mir with pollSince := none, e3 := true, pollAlive := false })) ∧
      (s.tmb.tick.toNat < t + 100 → exec .partnerPollTimeout s = .next s)) ∧
    (mirrorOn s = true →
      (∀ low, exec (.pairSenseDrive low) s = .next (mirBecomes s { s.mir with
        senseDrive := low && (if s.rst.options.sideB then decide (800 ≤ s.tmb.beat ∧ s.tmb.beat < 960)
          else decide (s.tmb.beat < 160)) })) ∧
      (∀ present, exec (.pairSenseSample present) s = .next (mirBecomes s { s.mir with
        senseSeen := present, senseAbsent := if present then 0 else s.mir.senseAbsent + 1 }))))

/-- The domain (R544-R549): neighbours and the parent, time transfer, domain cuts, reports and their windows. -/
def Obligations.Domain : Prop :=
  (∀ (s : State) (n : Fin 512), domHears s n.val = true →
    let now := s.tmb.tick.toNat
    let others := s.dom.neighbours.filter (fun x => x.port != n.val)
    (∀ (device : BitVec 11) (hops : Byte) (traceable : Bool) (parent : W16) nbs, s.dom.relay = [] →
      nbs = others ++ [{ port := n.val, device := device.toNat, hops := hops.toNat, traceable := traceable
                         lastHello := intervalStart s }] →
      (∀ b, domRoot s = false → isFollower s = false → parentOf nbs = some b →
        runs (.hello n device hops traceable parent) s (fun u => u.dom = { s.dom with
          neighbours := nbs, hops := b.hops + 1, parent := b.device, parentPort := b.port })) ∧
      (domRoot s = true → s.tmb.domain.qualified = false → exec (.hello n device hops traceable parent) s = .next { s with
        dom := { s.dom with neighbours := nbs, hops := 0, parent := 0, parentPort := 0 } })) ∧
    exec (.domainSyncSend n) s = .next (domainSend s n.val 2 0xFFFF (zeroBytes 34)) ∧
    (∀ (source : BitVec 11) (sub : Fin 32000), exec (.delayReq n source sub) s =
      .next (domainSend s n.val 4 source.toNat (leBytes 8 now ++ leBytes 2 sub.val))) ∧
    (s.dom.parent ≠ 0 → s.dom.parentPort = n.val →
      (∀ (t1 : Stamp) (sub : Fin 32000), exec (.sync n t1 sub) s = .next (domainSend
        { s with dom := { s.dom with t1 := t1.steps, t2 := ((now * 32000 + sub.val : Nat) : Int) } } n.val 3 s.dom.parent [])) ∧
      (∀ t4 : Stamp, s.tmb.traceable = false → runs (.delayResp n t4) s (fun u => u.tmb.domain.offset =
          (tgetD s.dom.linkAsym n.val 0).toInt * 100 - ((s.dom.t2 - s.dom.t1) - ((t4.steps : Int) - s.dom.t3)) * 50))) ∧
    (∀ (source : BitVec 11) (seq : W32) (tick tag : W64) (id : W32), domRoot s = false → s.dom.parent = 0 →
      s.mir.pair.domainLinks = [n.val] →
      (s.dom.seen.contains (source.toNat, seq) = true → exec (.cutPlan n source seq tick tag id) s = .next s) ∧
      (s.dom.seen.contains (source.toNat, seq) = false → s.ldg.scheduled = [] → s.ldg.running = none →
        now + 4096 ≤ tick.toNat → exec (.cutPlan n source seq tick tag id) s = .next { s with
          dom := { s.dom with seen := (source.toNat, seq) :: s.dom.seen }
          ldg := { s.ldg with
            scheduled := [{ kind := .domain, summary := false, tick := tick.toNat, tag := tag, id := s.ldg.nextCutId
                            partnerOk := false }]
            nextCutId := wrapInc s.ldg.nextCutId } })) ∧
    (∀ (source : BitVec 11) (seq : W32) (status : Byte) (id : W32),
      (domRoot s = true → exec (.cutAnswer n source seq status id) s = .next { s with dom := { s.dom with
        answerOk := if status = 0 then s.dom.answerOk + 1 else s.dom.answerOk
        answerRefused := if status = 0 then s.dom.answerRefused else s.dom.answerRefused + 1 } }) ∧
      (domRoot s = false → s.dom.parent = 0 → s.dom.relay.length < 4096 → exec (.cutAnswer n source seq status id) s =
        .next { s with dom := { s.dom with relay := s.dom.relay ++
          [leBytes 1 6 ++ leBytes 2 source.toNat ++ leBytes 4 seq.toNat ++ ([status] ++ leBytes 4 id.toNat)] } })) ∧
    (∀ (source : BitVec 11) (seq : W32) (cls : W16) (level : Fin 5) (subject count : W32) (first last : W64),
      (domRoot s = true → s.dom.store.find? (fun r => r.cls == cls && r.subject == subject) = none → s.dom.store.length < 4096 →
        exec (.faultReportFrame n source seq cls level subject count first last) s = .next { s with dom := { s.dom with
          store := s.dom.store ++ [{ cls := cls, subject := subject, level := level.val, opened := intervalStart s
                                     reporters := [source.toNat], devices := 1, count := count, firstTick := first
                                     lastTick := last }] } }) ∧
      (domRoot s = true → s.dom.store.find? (fun r => r.cls == cls && r.subject == subject) = none → 4096 ≤ s.dom.store.length →
        exec (.faultReportFrame n source seq cls level subject count first last) s =
          .next { s with dom := { s.dom with summaryLost := s.dom.summaryLost + 1 } }) ∧
      (∀ r, domRoot s = true → s.dom.store = [r] → r.cls = cls → r.subject = subject →
        exec (.faultReportFrame n source seq cls level subject count first last) s = .next { s with dom := { s.dom with
          store := [{ r with
            level := max r.level level.val
            reporters := if source.toNat ∈ r.reporters then r.reporters else r.reporters ++ [source.toNat]
            devices := if source.toNat ∈ r.reporters then r.devices else r.devices + 1
            count := r.count + count
            firstTick := if first.toNat < r.firstTick.toNat then first else r.firstTick
            lastTick := if r.lastTick.toNat < last.toNat then last else r.lastTick }] } }) ∧
      (domRoot s = false → s.dom.parent = 0 → s.dom.relay.length < 4096 →
        exec (.faultReportFrame n source seq cls level subject count first last) s = .next { s with dom := { s.dom with
          relay := s.dom.relay ++ [leBytes 1 7 ++ leBytes 2 source.toNat ++ leBytes 4 seq.toNat ++
            reportBytes cls level subject count first last] } }) ∧
      (domRoot s = false → 4096 ≤ s.dom.relay.length →
        exec (.faultReportFrame n source seq cls level subject count first last) s =
          .next { s with dom := { s.dom with relayLost := s.dom.relayLost + 1 } }))) ∧
  (∀ s : State, domMember s = true → exec .helloSend s = .next (domainSendAll s none 1
    (leBytes 1 s.dom.hops ++ leBytes 1 (if s.tmb.traceable then 1 else 0) ++ leBytes 2 s.dom.parent))) ∧
  (∀ (s : State) (n : Fin 512) (x : Neighbour), s.dom.neighbours = [x] → x.port = n.val →
    (x.lastHello + 4096 ≤ s.tmb.tick.toNat → domRoot s = false → s.tmb.domain.qualified = false →
      exec (.neighbourLost n) s = .next { s with dom := { s.dom with
        neighbours := [], hops := 15, parent := 0, parentPort := 0 } }) ∧
    (s.tmb.tick.toNat < x.lastHello + 4096 → exec (.neighbourLost n) s = .next s)) ∧
  (∀ (s : State) (v : W64),
    (domRoot s = false ∨ v.getLsbD 0 = false → exec (.domCutGo v) s = .next s) ∧
    (domRoot s = true → v.getLsbD 0 = true → s.mir.pair.domainLinks = [] →
      (s.tmb.tick.toNat + 4096 ≤ s.dom.cutTick.toNat → s.ldg.scheduled = [] → s.ldg.running = none →
        exec (.domCutGo v) s = .next { s with
          dom := { s.dom with cutStatus := 0, cutId := s.ldg.nextCutId, answerOk := 0, answerRefused := 0 }
          ldg := { s.ldg with
            scheduled := [{ kind := .domain, summary := false, tick := s.dom.cutTick.toNat, tag := s.dom.cutTag
                            id := s.ldg.nextCutId, partnerOk := false }]
            nextCutId := wrapInc s.ldg.nextCutId } }) ∧
      (s.dom.cutTick.toNat < s.tmb.tick.toNat + 4096 → exec (.domCutGo v) s =
        .next { s with dom := { s.dom with cutStatus := 7 } }))) ∧
  (∀ (s : State) (cls : W16) (subject : W32) (w : ReportWindow), reportWindow s cls subject = some w →
    (s.tmb.tick.toNat < w.stop → exec (.domainReportWindow cls subject) s = .next s) ∧
    (w.stop ≤ s.tmb.tick.toNat → w.count = 0 → exec (.domainReportWindow cls subject) s =
      .next { s with dom := { s.dom with windows := s.dom.windows.filter (fun x => x ≠ w) } })) ∧
  (∀ (s : State) (cls : W16) (subject : W32) (r : RootRecord),
    s.dom.store.find? (fun r => r.cls == cls && r.subject == subject) = some r →
    (s.tmb.tick.toNat < r.opened + 1024 → exec (.domainSummaryClose cls subject) s = .next s) ∧
    (r.opened + 1024 ≤ s.tmb.tick.toNat → exec (.domainSummaryClose cls subject) s = .next { s with
      dom := { s.dom with store := s.dom.store.filter (fun x => x ≠ r) }
      que := { s.que with events := s.que.events ++ [{ type := .fault, tick := s.tmb.tick, record := summaryBytes r }] } }))

/-- The sideband port and the test access port (R616-R620, R630). -/
def Obligations.Sideband : Prop :=
  (∀ s : State, releasedOf s 1 = true →
    let sent := fun (bytes : List Byte) => ({ s with out := .sideband bytes :: s.out } : State)
    let answered := fun (held : List SbRequest) (bytes : List Byte) => ({ s with
      sb := { s.sb with held := held, commands := s.sb.commands + 1 }, out := .sideband bytes :: s.out } : State)
    (∀ tag, exec (.statusRead tag) s = .next (answered (s.sb.held.erase (.statusRead tag))
      (sbMessage 0x01 tag 0 (statusBytes s)))) ∧
    (∀ tag (port : W16),
      let reply := fun (st : Byte) (data : List Byte) => answered (s.sb.held.erase (.portHalt tag port)) (sbMessage 0x02 tag st data)
      (port ≠ 0xFFFF → portOf s port.toNat = none → exec (.portHalt tag port) s = .next (reply 4 [])) ∧
      (port = 0xFFFF ∨ (portOf s port.toNat).isSome = true →
        (s.rst.recovery = false → s.rst.restarting = true ∨ s.hif.deviceReady = false →
          exec (.portHalt tag port) s = .next (reply 3 [])) ∧
        (s.rst.recovery = true → exec (.portHalt tag port) s = .next (reply 4 []))) ∧
      (s.rst.restarting = false → s.rst.recovery = false → s.hif.deviceReady = true →
        (∀ p, port ≠ 0xFFFF → portOf s port.toNat = some p → exec (.portHalt tag port) s =
          .next { reply 0 (leBytes 8 (s.tmb.tick.toNat + 1)) with
            lnm := { s.lnm with ports := tset s.lnm.ports port.toNat (askHalt p) } }) ∧
        (port = 0xFFFF → exec (.portHalt tag port) s = .next { reply 0 (leBytes 8 (s.tmb.tick.toNat + 1)) with
          lnm := { s.lnm with ports := s.lnm.ports.map (fun e => (e.1, askHalt e.2)) } }))) ∧
    (∀ (tag v : Byte),
      let held := s.sb.held.erase (.versionSelect tag v)
      let reply := fun (st : Byte) (data : List Byte) => answered held (sbMessage 0x03 tag st data)
      (16 ≤ v.toNat → exec (.sbVersionSelect tag v) s = .next (reply 1 [])) ∧
      (v.toNat < 16 → slotOfVersion s.dec v.toNat = none → exec (.sbVersionSelect tag v) s = .next (reply 7 [])) ∧
      (∀ k, v.toNat < 16 → slotOfVersion s.dec v.toNat = some k →
        (s.rst.recovery = false → s.rst.restarting = true ∨ s.hif.deviceReady = false →
          exec (.sbVersionSelect tag v) s = .next (reply 3 [])) ∧
        (s.rst.recovery = true → exec (.sbVersionSelect tag v) s = .next (reply 4 [])) ∧
        (s.rst.restarting = false → s.rst.recovery = false → s.hif.deviceReady = true →
          (v.toNat = s.dec.current → exec (.sbVersionSelect tag v) s =
            .next (reply 0 (leBytes 8 (vslot s.dec s.dec.currentSlot).sinceTick.toNat))) ∧
          (v.toNat ≠ s.dec.current → s.dec.sealed_ = none → s.dec.select = none →
            exec (.sbVersionSelect tag v) s = .next { s with
              sb := { s.sb with held := held, selectTag := tag }
              mir := { s.mir with delta := s.mir.delta ++ s.mir.verHeld, verHeld := [] }
              dec := { s.dec with
                select := some { version := v.toNat, tick := s.tmb.tick.toNat, waiter := .sideband } } })))) ∧
    (∀ bytes r, sbParse bytes = some (some r) →
      (s.sb.held.length < 4 → exec (.sbRequestRx bytes) s = .next { s with sb := { s.sb with held := s.sb.held ++ [r] } }) ∧
      (4 ≤ s.sb.held.length → exec (.sbRequestRx bytes) s =
        .next { s with sb := { s.sb with discarded := s.sb.discarded + 1 } })) ∧
    (∀ tag eid : Byte, eid ≠ 0 → eid ≠ 0xFF → exec (.setEndpointId tag eid) s = .next { s with
      sb := { s.sb with eid := eid }, out := .sideband [0, tag &&& 0x1F, 1, 0, 0, eid, 0] :: s.out }) ∧
    (∀ tag : Byte, exec (.getEndpointId tag) s = .next (sent [0, tag &&& 0x1F, 2, 0, s.sb.eid, 0, 0]) ∧
      exec (.getMctpVersionSupport tag) s = .next (sent ([0, tag &&& 0x1F, 4, 0, 1] ++ beBytes 4 Config.mctpVersion.toNat)) ∧
      exec (.getMessageTypeSupport tag) s = .next (sent [0, tag &&& 0x1F, 5, 0, 1, 0x7E]) ∧
      exec (.getVendorDefinedMessageSupport tag) s =
        .next (sent ([0, tag &&& 0x1F, 6, 0, 0xFF, 0, 0x1F, 0x7C] ++ beBytes 2 Config.vendorSet.toNat)))) ∧
  (∀ (s : State) (tdi : Bool), releasedOf s 14 = true →
    (∃ s1 s2 s3 s4 s5 : State, exec (.tckEdge true true tdi) s = .next s1 ∧ exec (.tckEdge true true tdi) s1 = .next s2 ∧
      exec (.tckEdge true true tdi) s2 = .next s3 ∧ exec (.tckEdge true true tdi) s3 = .next s4 ∧
      exec (.tckEdge true true tdi) s4 = .next s5 ∧ s5.tap.state = .reset) ∧
    (s.tap.state = .captureDr → s.tap.ir = 0xFE → exec (.tckEdge true false tdi) s =
      .next { s with tap := { s.tap with state := .shiftDr, drShift := 0x19602677 } }) ∧
    (s.tap.state = .shiftDr → s.tap.ir = 0xFE → exec (.tckEdge true false tdi) s = .next { s with tap := { s.tap with
      drShift := BitVec.cons tdi (s.tap.drShift.extractLsb' 1 31) } }) ∧
    (∀ tms, s.tap.state = .shiftDr → s.tap.ir = 0xFE → exec (.tckEdge false tms tdi) s =
      .next { s with tap := { s.tap with tdo := s.tap.drShift.getLsbD 0, tdoDriven := true } }))

namespace Sys2Proof.Spec
open Sys2Proof.Machine

/-! ## The whole device -/

/-- What holds of every state a run can reach: the beat lies in the tick (R53), the shedding step and its quiet count
keep their ranges (R131), and HBM and both NVM devices list their bytes in canonical form (R38, R418). -/
def Inv (s : State) : Prop := beatOk s = true ∧ shedOk s = true ∧ memoryWf s = true

/-- The commands that may begin another tick: the boundary itself, a reset of the device, and those that may reset it or
release CORE (a register write may be RST_SW or write the time of day; a BAR request may be such a write). -/
def movesTick : Instr → Prop
  | .tickBoundary _ _ | .powerOnReset | .rstNAssert | .rstSwDeviceReset _ | .faultResetDue | .supervisorWatchdog
  | .deviceReset _ _ _ | .registerWrite _ _ _ _ | .barMemoryRequest _ _ _ _ | .domainRelease _ => True
  | _ => False

end Sys2Proof.Spec

/-- With a command at the front of the queue a step is that command on the state with the queue's rest. -/
def Obligations.StepRunsFront : Prop :=
  ∀ (s : State) (c : Instr) (rest : List Instr), s.pending = c :: rest → step s = exec c { s with pending := rest }

/-- With no command waiting a step is one beat that passes, up to the last of the 1,600 (the model's choice, log entry 2): the reads
of HP1 that wait are answered and what the beat wrote comes into force; where nothing waits for the beat's end, only the beat
changes. -/
def Obligations.StepIdles : Prop :=
  ∀ s : State, s.pending = [] →
    (s.tmb.beat < 1599 → step s = .next { beatEnd s with tmb := { s.tmb with beat := s.tmb.beat + 1 } }) ∧
    (s.tmb.beat < 1599 → s.lnm.lateReads = [] → s.lnm.readByHp0 = [] → (∀ e ∈ s.lnm.ports, e.2.statsOld = none) →
      s.sch.shareDue = [] → s.fwd.beatOld = none → sealSettle s.dec = s.dec → s.fwd.agedDue = [] → s.eng.flowDue = [] →
      s.sto.cmds = [] → s.sto.xtsEnds = [] → s.ldg.fresh = [] → s.crb.waiting = [] → s.crb.turn = none →
      step s = .next { s with tmb := { s.tmb with beat := s.tmb.beat + 1 } }) ∧
    (1599 ≤ s.tmb.beat → step s = .next s)

/-- The invariant holds at reset, where no command waits, tick 0 has begun, no domain is released, no table entry, packet,
frame, key or memory byte is held, the pair generation is 0 (R530) and every function of the host is unready; on a board
whose parts the model chose, and with HBM reading 0 (log entries 4 and 5). -/
def Obligations.ResetState : Prop :=
  Inv State.reset ∧ State.reset.pending = [] ∧ State.reset.tmb.tick = 0 ∧ State.reset.tmb.beat = 0 ∧
  State.reset.rst.released = 0 ∧ State.reset.rst.source = .powerOn ∧ State.reset.mir.generation = 0 ∧
  State.reset.hif.deviceReady = false ∧ State.reset.crb.pkts = [] ∧ State.reset.fwd.mac = [] ∧ State.reset.kvl.vol = [] ∧
  State.reset.hbm = [] ∧ State.reset.flt.fltNLevel = true ∧ State.reset.que.queues = []

/-- Every command completes: each of the table's commands, with any operands and in any state, answers a next state, so that from
every state, with any commands waiting, a step does too (log entry 3). -/
def Obligations.NothingStops : Prop :=
  (∀ (c : Instr) (s : State), ∃ t, exec c s = .next t) ∧ ∀ s : State, stepRuns s

/-- Every step, of any command with any operands from any state, keeps the invariant. -/
def Obligations.StepKeepsInvariant : Prop :=
  ∀ s t : State, Inv s → step s = .next t → Inv t

/-- A step takes the front command off the queue and adds none, and it changes nothing manufacturing fixed: the
variant (R5), the serial number and the straps. -/
def Obligations.StepTakesFront : Prop :=
  ∀ (s t : State) (c : Instr) (rest : List Instr), s.pending = c :: rest → step s = .next t →
    t.pending = rest ∧ t.board.f256 = s.board.f256 ∧ t.board.serial = s.board.serial ∧ t.board.straps = s.board.straps

/-- The tick and the beat move only at a boundary, at a reset of the device and at CORE's release: every other command of the table,
in every state, leaves both as they are (R53, R57). -/
def Obligations.OnlyBoundariesMoveTime : Prop :=
  ∀ (s t : State) (c : Instr) (rest : List Instr), s.pending = c :: rest → ¬ movesTick c → step s = .next t →
    t.tmb.tick = s.tmb.tick ∧ t.tmb.beat = s.tmb.beat

/-- JT jumps to ENTRY + TARGET[i] of table IMM[7:0] of the running program; i beyond the table is a thread fault with
cause JUMP_TABLE, and IMM[24:8] other than 0 is no defined encoding (R382). -/
def Obligations.JumpTable : Prop :=
  ∀ (s : State) (e : Fin 96) (t : Fin 8) (b : Batch) (f : XF) (p : Program), Issues s e t b →
    tget (clusterOf s (e.val / 12)).programs b.program = some p → f.rd = 0 → f.rb = 0 →
    let i := (reg b f.ra).toNat
    let targets := tgetD p.tables (f.imm.toNat % 256) []
    (f.imm.toNat < 256 → ∀ x, targets[i]? = some x →
      fetches s e b (f.word 0x8A) → exec (.jt e t f) s = .next (issued s e t b 2 (branched b (b.entry + x)))) ∧
    (f.imm.toNat < 256 → targets.length ≤ i → fetches s e b (f.word 0x8A) → exec (.jt e t f) s = .next (threadFault s e t 0x04)) ∧
    (256 ≤ f.imm.toNat → fetches s e b (f.word 0x8A) → exec (.jt e t f) s = .next (threadFault s e t 0x01))

/-- The Device Serial Number capability of PF0 reads 0x0000_9602 in its high word and DEVICE_SERIAL in its low word, the same on
both endpoints (R446). -/
def Obligations.DeviceSerialNumber : Prop :=
  ∀ (s : State) (ep : Fin 2) (fn : W16), fn.toNat = 0x8000 * ep.val → (endpointOf s ep.val).linkUp = true →
    (endpointOf s ep.val).configReady = true → epEnabled s ep.val = true → fnExists s fn.toNat = true →
    (funcOf s fn.toNat).isSome = true →
    exec (.configRequest fn 0x18C none) s =
      .next { s with out := .completion fn.toNat 0 (leBytes 4 s.board.serial.toNat) :: s.out } ∧
    exec (.configRequest fn 0x190 none) s = .next { s with out := .completion fn.toNat 0 (leBytes 4 0x00009602) :: s.out }

/-- A set of features that holds bit 3 or 6 without 4, or 11 without 10, is refused: the function's FEATURE status says so and
nothing is latched; a set that holds none of these passes this check (R462). -/
def Obligations.FeatureDependencies : Prop :=
  ∀ (s : State) (fn : W16) (f : Func), funcOf s fn.toNat = some f → f.resetting = none → f.featuresOk = false →
    s.hif.deviceReady = true → fnCreated s fn.toNat = true →
    let set := f.accept &&& offerOf s fn.toNat
    let lacks := fun (b r : Nat) => set.getLsbD b = true ∧ set.getLsbD r = false
    (lacks 3 4 ∨ lacks 6 4 ∨ lacks 11 10 →
      exec (.featuresOkWrite fn) s = .next (funcBecomes s fn.toNat { f with featStatus := 4 })) ∧
    (¬ (lacks 3 4 ∨ lacks 6 4 ∨ lacks 11 10) → exec (.featuresOkWrite fn) s = .next (funcBecomes s fn.toNat { f with
      active := set, featuresOk := true, featStatus := 0 }))

namespace Sys2Proof.Spec
open Sys2Proof.Machine

/-- What the host does to its own interface: PERST_N, resets and readiness of endpoints and functions, link state, power
states, wake events and configuration requests. -/
def hostEvent : Instr → Prop
  | .perstNAssert _ | .perstNDeassert _ | .configReady _ | .hotReset _ | .linkUp _ _ _ _ | .flr _ | .flrComplete _
  | .d3hotEntry _ | .d0Return _ | .wakeEvent _ _ | .configRequest _ _ _ | .msixUnmask _ _ => True
  | _ => False

end Sys2Proof.Spec

/-- Forwarding does not depend on the host (R1, R51): PERST_N, a hot reset, a function-level reset, a link coming up, a power state
and any configuration request leave the ports and lanes, the forwarding tables, the parser, the timebase, the slot tables,
the cipher slab but for the requests of the storage unit, the key vault, the domain and every byte of HBM as they are, whatever the state. -/
def Obligations.HostLeavesForwarding : Prop :=
  ∀ (s t : State) (c : Instr), hostEvent c → exec c s = .next t →
    t.lnm = s.lnm ∧ t.prs = s.prs ∧ t.fwd = s.fwd ∧ t.tmb = s.tmb ∧ t.ptp = s.ptp ∧ t.sltEng = s.sltEng ∧
    t.sltCph = s.sltCph ∧ ownSlab t.cph = ownSlab s.cph ∧ t.kvl = s.kvl ∧ t.dom = s.dom ∧ t.hbm = s.hbm ∧ t.board = s.board
end

