-- ==== Sys2Proof/Laws/Admin.lean ====
section
/-!
SUPPORT. What an admin command that passes the queue's checks does, said once: it is begun, its body runs with it in
hand, and it finishes with its status and result.
-/

namespace Sys2Proof.Machine

/-- A little-endian value lies below 256 to the number of its bytes. -/
theorem leVal_lt (l : List Byte) : leVal l < 256 ^ l.length := by
  induction l with
  | nil => simp [leVal]
  | cons x l ih =>
    simp only [leVal, List.length_cons, Nat.pow_succ]
    have := x.isLt
    omega
theorem slice_length (b : List Byte) (i n : Nat) : (slice b i n).length = n := by
  simp [slice] <;> omega
theorem leAt_lt (b : List Byte) (i n : Nat) : leAt b i n < 256 ^ n := by
  have := leVal_lt (slice b i n)
  rwa [slice_length] at this
theorem slice_whole {b : List Byte} {n : Nat} (h : b.length = n) : slice b 0 n = b := by
  subst h; simp [slice]
/-- The command in process. -/
def begun (s : State) (b : List Byte) : AdminCmd :=
  { cid := adminCid b, fn := BitVec.ofNat 16 (leAt b 4 2), gen := genOf s (leAt b 4 2), started := true }
def inHand (t : State) (ep : Nat) (c : AdminCmd) : State := adminMod t ep (fun q => { q with accepted := [c] })

theorem adminStart_begun {s : State} {ep : Fin 2} {b : List Byte} (h : (adminOf s ep).accepted = [])
    (ho : BitVec.ofNat 16 (leAt b 2 2) ∉ (adminOf s ep).orphans) :
    adminStart s ep b = inHand s ep (begun s b) := by
  have h2 : leAt b 4 2 % 65536 = leAt b 4 2 := Nat.mod_eq_of_lt (leAt_lt b 4 2)
  rcases (by decide : ∀ e : Fin 2, e = 0 ∨ e = 1) ep with rfl | rfl <;> simp [adminOf] at h ho <;> simp [adminStart, h, ho, adminAccept, adminMod, inHand, begun, adminOf, startFirst, adminCid, h2]
theorem adminStale_begun {s : State} {ep : Fin 2} {b : List Byte} : adminStale (inHand s ep (begun s b)) ep b = false := by
  have h2 : leAt b 4 2 % 65536 = leAt b 4 2 := Nat.mod_eq_of_lt (leAt_lt b 4 2)
  have hg : genOf (inHand s ep (begun s b)) (leAt b 4 2) = genOf s (leAt b 4 2) := by unfold inHand adminMod; split <;> rfl
  have ha : (adminOf (inHand s ep (begun s b)) ep).accepted = [begun s b] := by
    rcases (by decide : ∀ e : Fin 2, e = 0 ∨ e = 1) ep with rfl | rfl <;> simp [adminOf, inHand, adminMod]
  have hf : [begun s b].find? (fun c => c.cid == adminCid b && c.started) = some (begun s b) := by simp [begun]
  have hc : (begun s b).gen = genOf (inHand s ep (begun s b)) (begun s b).fn.toNat := by simp only [begun, BitVec.toNat_ofNat]; rw [show leAt b 4 2 % 2 ^ 16 = leAt b 4 2 from h2]; exact hg.symm
  rw [adminStale, ha, hf]
  simp [← hc]
theorem adminFinish_inHand {t : State} {ep : Fin 2} {c : AdminCmd} (st : Byte) (r : List Byte) (h : (adminOf t ep).accepted = [])
    (hs : c.started = true) (hg : c.gen = genOf t c.fn.toNat) (hr : fnRuns t (0x8000 * ep.val) = true) :
    adminFinish (inHand t ep c) ep c.cid st r
      = adminWrite (adminMod t ep (fun q => { q with commands := q.commands + 1 })) ep c.cid c.fn st r := by
  have hw : ∀ x : W32, wrapInc x = x + 1 := fun _ => rfl
  have e1 : genOf (inHand t ep c) c.fn.toNat = genOf t c.fn.toNat := by unfold inHand adminMod; split <;> rfl
  have e2 : ∀ f, fnRuns (adminMod t ep f) (0x8000 * ep.val) = true := by intro f; unfold adminMod; split <;> exact hr
  have e4 : pf0Of ep.val = 0x8000 * ep.val := by rcases (by decide : ∀ e : Fin 2, e = 0 ∨ e = 1) ep with rfl | rfl <;> rfl
  have e3 : (adminMod (inHand t ep c) ep (fun q => { q with accepted := q.accepted.erase c, commands := wrapInc q.commands }))
     = adminMod t ep (fun q => { q with commands := q.commands + 1 }) := by
    rcases (by decide : ∀ e : Fin 2, e = 0 ∨ e = 1) ep with rfl | rfl <;> simp [adminOf] at h <;> simp [inHand, adminMod, wrapInc, h]
  have e5 : (adminOf (inHand t ep c) ep).accepted = [c] := by rcases (by decide : ∀ e : Fin 2, e = 0 ∨ e = 1) ep with rfl | rfl <;> simp [adminOf, inHand, adminMod]
  have e6 : ((adminOf (inHand t ep c) ep).accepted.find? (fun x => x.cid == c.cid && x.started)).or
      ((adminOf (inHand t ep c) ep).accepted.find? (fun x => x.cid == c.cid)) = some c := by
    simp [e5, hs]
  unfold adminFinish
  simp only [e6]
  simp only [e1, hg, e3, e4, e2, bne_self_eq_false, Bool.false_and, Bool.false_eq_true, if_false, if_true]
theorem adminRun_inProcess {s : State} {ep : Fin 2} {b : List Byte} {f : AdminForm} {ok : List Byte → Bool} {body : State → List Byte → AdminAnswer}
    (h : Spec.admits s ep f.op f.named f.used b) (hok : ok b = true) {u : State} (hb : body (inHand s ep (begun s b)) b = (u, none)) :
    adminRun s ep b f ok body = u := by
  obtain ⟨h1, h2, h3, h4, h5, ho, h6, h7, h8, h9, h10, h11, h12, h13⟩ := h
  have hg : adminGate (inHand s ep (begun s b)) f b (ok b) false = none := by
    have a1 : recoveryMode (inHand s ep (begun s b)) = false := by unfold inHand adminMod; split <;> exact h3
    have a2 : deviceReady (inHand s ep (begun s b)) = true := by unfold inHand adminMod; split <;> exact h4
    simp only [adminGate, a1, a2, hok, adminForm, adminLen, adminGen, adminFn, h9, h11, h13]
    cases hn : f.named
    · simp [h12, h10 hn]
    · simp [h12]
  simp only [adminRun, slice_whole h7, h8, supervisorRuns, h1, h2]
  simp [adminStart_begun h5 ho, adminStale_begun, hg, hb]
theorem adminRun_done {s : State} {ep : Fin 2} {b : List Byte} {f : AdminForm} {ok : List Byte → Bool} {body : State → List Byte → AdminAnswer}
    (h : Spec.admits s ep f.op f.named f.used b) (hok : ok b = true) {t : State} {st : Byte} {r : List Byte}
    (hb : body (inHand s ep (begun s b)) b = (inHand t ep (begun s b), some (st, r)))
    (ha : (adminOf t ep).accepted = []) (hg : genOf t (leAt b 4 2) = genOf s (leAt b 4 2))
    (hr : fnRuns t (0x8000 * ep.val) = fnRuns s (0x8000 * ep.val)) :
    adminRun s ep b f ok body = Spec.finished t ep b st r := by
  obtain ⟨h1, h2, h3, h4, h5, ho, h6, h7, h8, h9, h10, h11, h12, h13⟩ := h
  have hgate : adminGate (inHand s ep (begun s b)) f b (ok b) false = none := by
    have a1 : recoveryMode (inHand s ep (begun s b)) = false := by unfold inHand adminMod; split <;> exact h3
    have a2 : deviceReady (inHand s ep (begun s b)) = true := by unfold inHand adminMod; split <;> exact h4
    simp only [adminGate, a1, a2, hok, adminForm, adminLen, adminGen, adminFn, h9, h11, h13]
    cases hn : f.named
    · simp [h12, h10 hn]
    · simp [h12]
  simp only [adminRun, slice_whole h7, h8, supervisorRuns, h1, h2]
  have h4' : leAt b 4 2 % 65536 = leAt b 4 2 := Nat.mod_eq_of_lt (leAt_lt b 4 2)
  simp [adminStart_begun h5 ho, adminStale_begun, hgate, hb]
  refine (adminFinish_inHand (c := begun s b) st r ha rfl ?_ (hr.trans h6)).trans ?_
  · simp [begun, h4', hg]
  · rfl

end Sys2Proof.Machine
end

