-- ==== Sys2Proof/Laws/Tbl.lean ====
section
/-!
SUPPORT. The laws of the sparse tables: what a table reads at a key after each operation, and that every operation keeps the
canonical form.
-/

namespace Sys2Proof

variable {α : Type}

/-! Reads. -/

@[simp] theorem tget_tset_same (t : Tbl α) (i : Nat) (x : α) : tget (tset t i x) i = some x := by
  induction t with
  | nil => simp [tset, tget]
  | cons e t ih =>
    obtain ⟨k, v⟩ := e
    simp only [tset]
    split
    · simp [tget]
    · split
      · simp [tget]
      · simp [tget, *]

theorem tget_tset_other (t : Tbl α) {i j : Nat} (x : α) (h : j ≠ i) : tget (tset t i x) j = tget t j := by
  induction t with
  | nil => simp [tset, tget, Ne.symm h]
  | cons e t ih =>
    obtain ⟨k, v⟩ := e
    simp only [tset]
    split
    · simp [tget, Ne.symm h]
    · split
      · subst_vars; simp [tget, Ne.symm h]
      · simp [tget, ih]

theorem tget_tdel_other (t : Tbl α) {i j : Nat} (h : j ≠ i) : tget (tdel t i) j = tget t j := by
  induction t with
  | nil => rfl
  | cons e t ih =>
    obtain ⟨k, v⟩ := e
    simp only [tdel]
    split
    · subst_vars; simp [tget, Ne.symm h]
    · simp [tget, ih]

@[simp] theorem tgetD_tset_same (t : Tbl α) (i : Nat) (x d : α) : tgetD (tset t i x) i d = x := by simp [tgetD]

theorem tgetD_tset_other (t : Tbl α) {i j : Nat} (x d : α) (h : j ≠ i) : tgetD (tset t i x) j d = tgetD t j d := by
  simp [tgetD, tget_tset_other t x h]

@[simp] theorem tgetD_tmod_same (d : α) (t : Tbl α) (i : Nat) (f : α → α) : tgetD (tmod d t i f) i d = f (tgetD t i d) := by
  simp [tmod]

theorem tgetD_tmod_other (d : α) (t : Tbl α) {i j : Nat} (f : α → α) (h : j ≠ i) : tgetD (tmod d t i f) j d = tgetD t j d := by
  simp [tmod, tgetD_tset_other t _ d h]

@[simp] theorem tget_tadj_same (t : Tbl α) (i : Nat) (f : α → α) : tget (tadj t i f) i = (tget t i).map f := by
  unfold tadj; split <;> simp_all

theorem tget_tadj_other (t : Tbl α) {i j : Nat} (f : α → α) (h : j ≠ i) : tget (tadj t i f) j = tget t j := by
  unfold tadj; split
  · exact tget_tset_other t _ h
  · rfl

@[simp] theorem tget_tmap (t : Tbl α) (f : Nat → α → α) (i : Nat) : tget (tmap t f) i = (tget t i).map (f i) := by
  induction t with
  | nil => rfl
  | cons e t ih =>
    simp only [tmap, List.map, tget] at *
    split
    · subst_vars; rfl
    · exact ih

/-! The canonical form. -/

/-- Keys that rise from above a bound rise from above any lower one. -/
theorem trising_weaken {t : Tbl α} {a b : Nat} (h : trising (some b) t = true) (hab : a ≤ b) : trising (some a) t = true := by
  cases t with
  | nil => rfl
  | cons e t =>
    simp only [trising, Bool.and_eq_true, decide_eq_true_eq] at *
    exact ⟨by omega, h.2⟩

theorem tget_below {t : Tbl α} {b i : Nat} (h : trising (some b) t = true) (hi : i ≤ b) : tget t i = none := by
  induction t generalizing b with
  | nil => rfl
  | cons e t ih =>
    simp only [trising, Bool.and_eq_true, decide_eq_true_eq] at h
    have : e.1 ≠ i := by omega
    simp only [tget, this, if_false]
    exact ih h.2 (by omega)

theorem trising_tset {t : Tbl α} {b i : Nat} (x : α) (h : trising (some b) t = true) (hi : b < i) :
    trising (some b) (tset t i x) = true := by
  induction t generalizing b with
  | nil => simp [tset, trising, hi]
  | cons e t ih =>
    obtain ⟨k, v⟩ := e
    simp only [trising, Bool.and_eq_true, decide_eq_true_eq] at h
    simp only [tset]
    split
    · simp [trising, *]
    · split
      · subst_vars; simp [trising, h]
      · simp only [trising, Bool.and_eq_true, decide_eq_true_eq]
        exact ⟨h.1, ih h.2 (by omega)⟩

theorem trising_tdel {t : Tbl α} {b i : Nat} (h : trising (some b) t = true) : trising (some b) (tdel t i) = true := by
  induction t generalizing b with
  | nil => rfl
  | cons e t ih =>
    obtain ⟨k, v⟩ := e
    simp only [trising, Bool.and_eq_true, decide_eq_true_eq] at h
    simp only [tdel]
    split
    · exact trising_weaken h.2 (Nat.le_of_lt h.1)
    · simp only [trising, Bool.and_eq_true, decide_eq_true_eq]; exact ⟨h.1, ih h.2⟩

theorem trising_tset_top {t : Tbl α} {i : Nat} (x : α) (h : trising none t = true) : trising none (tset t i x) = true := by
  cases t with
  | nil => rfl
  | cons e t =>
    obtain ⟨k, v⟩ := e
    simp only [trising] at h
    simp only [tset]
    split
    · simp [trising, *]
    · split
      · subst_vars; exact h
      · exact trising_tset x h (by omega)

theorem trising_tdel_top {t : Tbl α} {i : Nat} (h : trising none t = true) : trising none (tdel t i) = true := by
  cases t with
  | nil => rfl
  | cons e t =>
    obtain ⟨k, v⟩ := e
    simp only [trising] at h
    simp only [tdel]
    split
    · cases t with
      | nil => rfl
      | cons e t => simp only [trising, Bool.and_eq_true] at h; exact h.2
    · exact trising_tdel h

theorem mem_tset {t : Tbl α} {i : Nat} {x : α} {e : Nat × α} (h : e ∈ tset t i x) : e = (i, x) ∨ e ∈ t := by
  induction t with
  | nil => simpa [tset] using h
  | cons y t ih =>
    obtain ⟨k, v⟩ := y
    simp only [tset] at h
    split at h
    · simpa using h
    · split at h
      · simp only [List.mem_cons] at *; rcases h with h | h <;> simp [h]
      · simp only [List.mem_cons] at *; rcases h with h | h
        · simp [h]
        · rcases ih h with h | h <;> simp [h]

theorem mem_tdel {t : Tbl α} {i : Nat} {e : Nat × α} (h : e ∈ tdel t i) : e ∈ t := by
  induction t with
  | nil => exact h
  | cons y t ih =>
    obtain ⟨k, v⟩ := y
    simp only [tdel] at h
    split at h
    · exact List.mem_cons_of_mem _ h
    · simp only [List.mem_cons] at *; rcases h with h | h
      · exact .inl h
      · exact .inr (ih h)

theorem tget_tdel_same {t : Tbl α} {i : Nat} (h : trising none t = true) : tget (tdel t i) i = none := by
  have key : ∀ {t : Tbl α} {b : Nat}, trising (some b) t = true → tget (tdel t i) i = none := by
    intro t
    induction t with
    | nil => intro _ _; rfl
    | cons e t ih =>
      intro b h
      obtain ⟨k, v⟩ := e
      simp only [trising, Bool.and_eq_true, decide_eq_true_eq] at h
      simp only [tdel]
      split
      · exact tget_below h.2 (by omega)
      · simp only [tget, *, if_false]; exact ih h.2
  cases t with
  | nil => rfl
  | cons e t =>
    obtain ⟨k, v⟩ := e
    simp only [trising] at h
    simp only [tdel]
    split
    · exact tget_below h (by omega)
    · simp only [tget, *, if_false]; exact key h

variable [DecidableEq α]

theorem twf_tset {d : α} {t : Tbl α} (i : Nat) {x : α} (h : twf d t = true) (hx : x ≠ d) : twf d (tset t i x) = true := by
  simp only [twf, Bool.and_eq_true, List.all_eq_true, decide_eq_true_eq] at *
  refine ⟨trising_tset_top x h.1, fun e he => ?_⟩
  rcases mem_tset he with rfl | he
  · exact hx
  · exact h.2 e he

theorem twf_tdel {d : α} {t : Tbl α} (i : Nat) (h : twf d t = true) : twf d (tdel t i) = true := by
  simp only [twf, Bool.and_eq_true, List.all_eq_true] at *
  exact ⟨trising_tdel_top h.1, fun e he => h.2 e (mem_tdel he)⟩

theorem twf_tput {d : α} {t : Tbl α} (i : Nat) (x : α) (h : twf d t = true) : twf d (tput d t i x) = true := by
  unfold tput; split
  · exact twf_tdel i h
  · exact twf_tset i h (by assumption)

theorem tgetD_tput_same {d : α} {t : Tbl α} (i : Nat) (x : α) (h : twf d t = true) : tgetD (tput d t i x) i d = x := by
  simp only [twf, Bool.and_eq_true] at h
  unfold tput; split
  · subst_vars; simp [tgetD, tget_tdel_same h.1]
  · simp

theorem tgetD_tput_other {d : α} (t : Tbl α) {i j : Nat} (x : α) (h : j ≠ i) : tgetD (tput d t i x) j d = tgetD t j d := by
  unfold tput; split
  · simp [tgetD, tget_tdel_other t h]
  · exact tgetD_tset_other t x d h

end Sys2Proof
end

