-- ==== Sys2Proof/Laws/Memory.lean ====
section
/-!
SUPPORT. The operations over HBM and NVM bytes: what each byte reads after one, and that each keeps the canonical form.
-/

namespace Sys2Proof.Machine

theorem putBytes_wf (d : Byte) (t : Tbl Byte) (a : Nat) (bs : List Byte) (h : twf d t = true) :
    twf d (putBytes d t a bs) = true := by
  induction bs generalizing t a with
  | nil => exact h
  | cons b bs ih => exact ih _ _ (twf_tput a b h)

/-- A byte outside the written range reads as before. -/
theorem putBytes_outside (d : Byte) (t : Tbl Byte) (a : Nat) (bs : List Byte) (i : Nat) (h : i < a ∨ a + bs.length ≤ i) :
    tgetD (putBytes d t a bs) i d = tgetD t i d := by
  induction bs generalizing t a with
  | nil => rfl
  | cons b bs ih =>
    simp only [List.length_cons] at h
    rw [putBytes, ih _ _ (by omega), tgetD_tput_other t b (by omega)]

/-- A byte inside the written range reads as written. -/
theorem putBytes_inside (d : Byte) (t : Tbl Byte) (a : Nat) (bs : List Byte) (i : Nat) (hw : twf d t = true) (h : i < bs.length) :
    tgetD (putBytes d t a bs) (a + i) d = bs.getD i d := by
  induction bs generalizing t a i with
  | nil => simp at h
  | cons b bs ih =>
    cases i with
    | zero =>
      simp only [Nat.add_zero, putBytes]
      rw [putBytes_outside _ _ _ _ _ (by omega), tgetD_tput_same a b hw]; simp
    | succ i =>
      have := ih (tput d t a b) (a + 1) i (twf_tput a b hw) (by simpa using h)
      rw [putBytes, show a + (i + 1) = a + 1 + i by omega, this]; simp

theorem hbmPutBytes_wf (s : State) (a : Nat) (bs : List Byte) (h : twf 0#8 s.hbm = true) :
    twf 0#8 (hbmPutBytes s a bs).hbm = true := putBytes_wf _ _ _ _ h

theorem hbmGet_hbmPutBytes_outside (s : State) (a : Nat) (bs : List Byte) (i : Nat) (h : i < a ∨ a + bs.length ≤ i) :
    hbmGet (hbmPutBytes s a bs) i = hbmGet s i := putBytes_outside _ _ _ _ _ h

theorem hbmGet_hbmPutBytes_inside (s : State) (a : Nat) (bs : List Byte) (i : Nat) (hw : twf 0#8 s.hbm = true) (h : i < bs.length) :
    hbmGet (hbmPutBytes s a bs) (a + i) = bs.getD i 0#8 := putBytes_inside _ _ _ _ _ hw h

theorem hbmPutBytes_memoryWf (s : State) (a : Nat) (bs : List Byte) (h : memoryWf s = true) :
    memoryWf (hbmPutBytes s a bs) = true := by
  simp only [memoryWf, Bool.and_eq_true] at *
  exact ⟨⟨hbmPutBytes_wf s a bs h.1.1, h.1.2⟩, h.2⟩

theorem trising_filter {t : Tbl Byte} {b : Nat} (p : Nat × Byte → Bool) (h : trising (some b) t = true) :
    trising (some b) (t.filter p) = true := by
  induction t generalizing b with
  | nil => rfl
  | cons e t ih =>
    simp only [trising, Bool.and_eq_true, decide_eq_true_eq] at h
    simp only [List.filter]
    split
    · simp only [trising, Bool.and_eq_true, decide_eq_true_eq]; exact ⟨h.1, ih h.2⟩
    · exact trising_weaken (ih h.2) (Nat.le_of_lt h.1)

theorem trising_filter_top {t : Tbl Byte} (p : Nat × Byte → Bool) (h : trising none t = true) : trising none (t.filter p) = true := by
  induction t with
  | nil => rfl
  | cons e t ih =>
    simp only [List.filter]
    split
    · exact trising_filter p h
    · apply ih
      cases t with
      | nil => rfl
      | cons x t => simp only [trising, Bool.and_eq_true] at h; exact h.2

theorem tfilter_wf {d : Byte} {t : Tbl Byte} (p : Nat → Byte → Bool) (h : twf d t = true) : twf d (tfilter t p) = true := by
  simp only [twf, Bool.and_eq_true, List.all_eq_true] at *
  exact ⟨trising_filter_top _ h.1, fun e he => h.2 e ((List.mem_filter.mp he).1)⟩

theorem nvmPut_memoryWf (s : State) (second : Bool) (a : Nat) (bs : List Byte) (h : memoryWf s = true) :
    memoryWf (nvmPut s second a bs) = true := by
  simp only [memoryWf, Bool.and_eq_true] at *
  cases second
  · exact ⟨⟨h.1.1, putBytes_wf _ _ _ _ h.1.2⟩, h.2⟩
  · exact ⟨h.1, putBytes_wf _ _ _ _ h.2⟩

theorem nvmErase_memoryWf (s : State) (second : Bool) (a n : Nat) (h : memoryWf s = true) :
    memoryWf (nvmErase s second a n) = true := by
  simp only [memoryWf, Bool.and_eq_true] at *
  cases second
  · exact ⟨⟨h.1.1, tfilter_wf (fun k _ => decide (k < a) || decide (a + n ≤ k)) h.1.2⟩, h.2⟩
  · exact ⟨h.1, tfilter_wf (fun k _ => decide (k < a) || decide (a + n ≤ k)) h.2⟩

/-- Memory at reset lists nothing. -/
theorem reset_memoryWf : memoryWf State.reset = true := rfl

end Sys2Proof.Machine
end

