-- ==== Sys2Proof/Laws/Forwarding.lean ====
section
/-!
SUPPORT. What the host's events leave alone: one lemma per operation says that the forwarding side, the timebase, the
slot tables, the cipher slab, the key vault and HBM stay as they were.
-/

namespace Sys2Proof.Machine

/-- The forwarding side, the timebase and the units that no host event touches. -/
structure Line where
  tmb : Tmb
  ptp : Ptp
  lnm : Lnm
  prs : Tbl PrsSlice
  fwd : Fwd
  sltCph : SlotTable
  sltEng : SlotTable
  app : Applied
  board : Board
  kvl : Kvl
  dom : Dom
  hbm : Tbl Byte
  cph : Cph

/-- The forwarding side of a state. -/
def line (s : State) : Line := ⟨s.tmb, s.ptp, s.lnm, s.prs, s.fwd, s.sltCph, s.sltEng, s.app, s.board, s.kvl, s.dom, s.hbm, ownSlab s.cph⟩

@[simp] theorem line_fold (s : State) : Line.mk s.tmb s.ptp s.lnm s.prs s.fwd s.sltCph s.sltEng s.app s.board s.kvl s.dom s.hbm (ownSlab s.cph) = line s := rfl

@[simp] theorem line_mk {board rst app tmb ptp sltCph sltEng sltQue lnm prs dec fwd crb sch ldg eng cph kvl flt sec hif win sb que dma mbx sto mir dom hbmU hbm tap out free pending} : line (State.mk board rst app tmb ptp sltCph sltEng sltQue lnm prs dec fwd crb sch ldg eng cph kvl flt sec hif win sb que dma mbx sto mir dom hbmU hbm tap out free pending) = ⟨tmb, ptp, lnm, prs, fwd, sltCph, sltEng, app, board, kvl, dom, hbm, ownSlab cph⟩ := rfl

@[simp] theorem line_ite {c : Prop} [Decidable c] {s t : State} : line (if c then s else t) = if c then line s else line t := apply_ite _ _ _ _

@[simp] theorem line_foldl {α : Type} (f : State → α → State) (h : ∀ s a, line (f s a) = line s) (l : List α) (s : State) :
    line (l.foldl f s) = line s := by
  induction l generalizing s with
  | nil => rfl
  | cons a l ih => simp [List.foldl, ih, h]

theorem line_foldl_fst {α β : Type} (f : State × β → α → State × β) (h : ∀ x a, line (f x a).1 = line x.1) (l : List α)
    (x : State × β) : line (l.foldl f x).1 = line x.1 := by
  induction l generalizing x with
  | nil => rfl
  | cons a l ih => simp only [List.foldl, ih, h]

@[simp] theorem emit_line {s a1} : line (emit s a1) = line s := by simp only [emit]; rfl

@[simp] theorem freshBytes_line {a0 s} : line (freshBytes a0 s).2 = line s := by simp only [freshBytes]; rfl

@[simp] theorem addTo_line {s a1 a2 a3} : line (addTo s a1 a2 a3) = line s := by simp only [addTo]; rfl

@[simp] theorem tally_line {s a1 a2} : line (tally s a1 a2) = line s := by simp only [tally]; rfl

@[simp] theorem funcMod_line {s a1 a2} : line (funcMod s a1 a2) = line s := by simp only [funcMod]; rfl

@[simp] theorem endpointMod_line {s a1 a2} : line (endpointMod s a1 a2) = line s := by simp only [endpointMod]; rfl

@[simp] theorem vectorMod_line {s a1 a2 a3} : line (vectorMod s a1 a2 a3) = line s := by simp only [vectorMod]; rfl

@[simp] theorem msix_line {s a1 a2} : line (msix s a1 a2) = line s := by unfold msix; (repeat' split) <;> first | rfl | (simp; done) | (simp_all; done)

@[simp] theorem hostWrite_line {s a1 a2 a3 a4} : line (hostWrite s a1 a2 a3 a4) = line s := by simp only [hostWrite]; rfl

@[simp] theorem hostRead_line {s a1 a2 a3 a4} : line (hostRead s a1 a2 a3 a4) = line s := by simp only [hostRead]; rfl

@[simp] theorem event_line {s a1 a2} : line (event s a1 a2) = line s := by simp only [event]; rfl

@[simp] theorem adminMod_line {s a1 a2} : line (adminMod s a1 a2) = line s := by simp [adminMod]; try rfl

@[simp] theorem adminWrite_line {s a1 a2 a3 a4 a5} : line (adminWrite s a1 a2 a3 a4 a5) = line s := by simp [adminWrite]; try rfl

@[simp] theorem adminFinish_line {s a1 a2 a3 a4} : line (adminFinish s a1 a2 a3 a4) = line s := by unfold adminFinish; dsimp only; (repeat' split) <;> first | rfl | (simp; done) | (simp_all; done)

@[simp] theorem answer_line {s a1 a2 a3} : line (answer s a1 a2 a3) = line s := by unfold answer; split <;> first | rfl | (simp)

@[simp] theorem queueMod_line {s a1 a2} : line (queueMod s a1 a2) = line s := by simp only [queueMod]; rfl

@[simp] theorem completionWrite_line {s a1 a2} : line (completionWrite s a1 a2) = line s := by unfold completionWrite; split <;> first | rfl | (simp)

@[simp] theorem queueSignal_line {s a1} : line (queueSignal s a1) = line s := by unfold queueSignal; split <;> first | rfl | (simp)

@[simp] theorem sendFlush_line {q n s} : line (sendFlush q n s) = line s := by
  induction n generalizing s with
  | zero => rfl
  | succ n ih => unfold sendFlush; (repeat' split) <;> simp [ih]

@[simp] theorem disableCheck_line {s a1} : line (disableCheck s a1) = line s := by unfold disableCheck; (repeat' split) <;> first | rfl | (simp; done) | (simp_all; done)

@[simp] theorem sendFlushAll_line {s a1} : line (sendFlushAll s a1) = line s := by simp [sendFlushAll]; try rfl

@[simp] theorem pktMod_line {s a1 a2} : line (pktMod s a1 a2) = line s := by simp only [pktMod]; rfl

@[simp] theorem pktAdd_line {s a1} : line (pktAdd s a1).1 = line s := by simp only [pktAdd]; rfl

@[simp] theorem schQueueMod_line {s a1 a2} : line (schQueueMod s a1 a2) = line s := by simp only [schQueueMod]; rfl

@[simp] theorem schPortMod_line {s a1 a2} : line (schPortMod s a1 a2) = line s := by simp only [schPortMod]; rfl

@[simp] theorem wake_line {s a1} : line (wake s a1) = line s := by simp [wake]; try rfl

@[simp] theorem queueEmptied_line {s a1} : line (queueEmptied s a1) = line s := by simp [queueEmptied]; try rfl

@[simp] theorem queueTake_line {s a1 a2} : line (queueTake s a1 a2) = line s := by simp [queueTake]; try rfl

@[simp] theorem releaseRef_line {s a1} : line (releaseRef s a1) = line s := by unfold releaseRef; split <;> first | rfl | (simp)

@[simp] theorem pktFree_line {s a1} : line (pktFree s a1) = line s := by unfold pktFree; (repeat' split) <;> first | rfl | (simp; done) | (simp_all; done)

@[simp] theorem addPkt_line {s a1 a2} : line (addPkt s a1 a2) = line s := by simp only [addPkt]; rfl

@[simp] theorem countDrop_line {s o p t c l} : line (countDrop s o p t c l) = line s := by
  unfold countDrop; cases p <;> cases t <;> simp

@[simp] theorem sendDropped_line {s a1 a2} : line (sendDropped s a1 a2) = line s := by unfold sendDropped; split <;> first | rfl | (simp)

@[simp] theorem dropPktAt_line {s a1 a2 a3} : line (dropPktAt s a1 a2 a3) = line s := by unfold dropPktAt; split <;> first | rfl | (simp)

@[simp] theorem dropPkt_line {s a1 a2} : line (dropPkt s a1 a2) = line s := by simp [dropPkt]; try rfl

@[simp] theorem dropQueue_line {s a1 a2} : line (dropQueue s a1 a2) = line s := by simp [dropQueue]; try rfl

@[simp] theorem transfer_line {s a1 a2} : line (transfer s a1 a2) = line s := by unfold transfer; split <;> first | rfl | (simp)

@[simp] theorem countArrival_line {s a1 a2 a3} : line (countArrival s a1 a2 a3) = line s := by simp only [countArrival]; rfl

@[simp] theorem enterQueue_line {s a1 a2 a3} : line (enterQueue s a1 a2 a3) = line s := by unfold enterQueue; dsimp only; (repeat' split) <;> first | rfl | (simp; done) | (simp_all; done)

@[simp] theorem enqueuePort_line {s a1 a2 a3} : line (enqueuePort s a1 a2 a3) = line s := by simp only [enqueuePort]; (repeat' split) <;> first | rfl | (simp; done) | (simp_all; done)

@[simp] theorem dropAll_line {s a1 a2} : line (dropAll s a1 a2) = line s := by simp [dropAll]; try rfl

@[simp] theorem dmaEngineMod_line {s a1 a2} : line (dmaEngineMod s a1 a2) = line s := by simp only [dmaEngineMod]; rfl

@[simp] theorem dmaChannelMod_line {s a1 a2 a3} : line (dmaChannelMod s a1 a2 a3) = line s := by simp only [dmaChannelMod]; rfl

@[simp] theorem adminPut_line {s a1 a2 a3 a4} : line (adminPut s a1 a2 a3 a4) = line s := by simp [adminPut]; try rfl

@[simp] theorem dmaAbandon_line {s a1} : line (dmaAbandon s a1) = line s := by simp [dmaAbandon]; try rfl

@[simp] theorem mailboxesReset_line {s a1} : line (mailboxesReset s a1) = line s := by simp only [mailboxesReset]; rfl

@[simp] theorem stoMod_line {s a1} : line (stoMod s a1) = line s := by simp only [stoMod]; rfl

@[simp] theorem ctlMod_line {s a1 a2} : line (ctlMod s a1 a2) = line s := by unfold ctlMod; split <;> first | rfl | (simp)

@[simp] theorem cqInterrupt_line {s a1 a2} : line (cqInterrupt s a1 a2) = line s := by unfold cqInterrupt; split <;> first | rfl | (simp)

@[simp] theorem postFlush_line {i n s} : line (postFlush i n s) = line s := by
  induction n generalizing s with
  | zero => rfl
  | succ n ih =>
    unfold postFlush
    split <;> try rfl
    split <;> try rfl
    split <;> try rfl
    simp only [ih]
    split <;> simp

@[simp] theorem postAll_line {s a1} : line (postAll s a1) = line s := by simp [postAll]; try rfl

@[simp] theorem pathMod_line {s a1 a2 a3} : line (pathMod s a1 a2 a3) = line s := by simp only [pathMod]; rfl

@[simp] theorem pathSend_line {s a1 a2 a3} : line (pathSend s a1 a2 a3) = line s := by simp only [pathSend]; (repeat' split) <;> first | rfl | (simp; done) | (simp_all; done)

@[simp] theorem pduSend_line {a0 a1 a2 s a4} : line (pduSend a0 a1 a2 s a4) = line s := by simp only [pduSend]; (repeat' split) <;> first | rfl | (simp; done) | (simp_all; done)

@[simp] theorem pathFlush_line {s a1 a2} : line (pathFlush s a1 a2) = line s := by simp only [pathFlush]; (repeat' split) <;> first | rfl | (simp; done) | (simp_all; done)

@[simp] theorem pathPost_line {s a1 a2 a3} : line (pathPost s a1 a2 a3) = line s := by simp only [pathPost]; (repeat' split) <;> first | rfl | (simp; done) | (simp_all; done)

@[simp] theorem ioSet_line {s a1 a2} : line (ioSet s a1 a2) = line s := by simp only [ioSet]; rfl

theorem filter_isNone_ne {α β : Type} [BEq β] (f : α → Option β) (k : β) (l : List α) :
    (l.filter (fun r => !(f r == some k))).filter (fun r => (f r).isNone) = l.filter (fun r => (f r).isNone) := by
  rw [List.filter_filter]
  refine List.filter_congr (fun r _ => ?_)
  cases h : f r <;> simp

@[simp] theorem xtsDrop_line {s a1} : line (xtsDrop s a1) = line s := by
  have e : ∀ (c : Cph), ownSlab { c with
      ctxs := tmap c.ctxs (fun _ x => { x with queue := x.queue.filter (fun r => !(r.disk == some (ioKey a1))) })
      outputs := c.outputs.filter (fun o => !(o.req.disk == some (ioKey a1))) } = ownSlab c := by
    intro c
    have h1 := fun (l : List CipherReq) => filter_isNone_ne (fun r : CipherReq => r.disk) (ioKey a1) l
    have h2 := fun (l : List CipherOutput) => filter_isNone_ne (fun o : CipherOutput => o.req.disk) (ioKey a1) l
    simp only [ownSlab, tmap, List.map_map, Function.comp_def, h1, h2]
  unfold xtsDrop; dsimp only; split
  · rfl
  · rw [stoMod_line]; unfold cphMod line; dsimp only; rw [e]

@[simp] theorem ioEmit_line {s a1 a2 a3} : line (ioEmit s a1 a2 a3) = line s := by simp only [ioEmit]; (repeat' split) <;> first | rfl | (simp; done) | (simp_all; done)

@[simp] theorem ioSent_line {s a1 a2} : line (ioSent s a1 a2) = line s := by simp only [ioSent]; (repeat' split) <;> first | rfl | (simp; done) | (simp_all; done)

@[simp] theorem ioSend_line {s a1} : line (ioSend s a1) = line s := by simp only [ioSend]; (repeat' split) <;> first | rfl | (simp; done) | (simp_all; done)

@[simp] theorem ioReads_line {s a1} : line (ioReads s a1) = line s := by simp [ioReads]; try rfl

@[simp] theorem ioBegin_line {s a1} : line (ioBegin s a1) = line s := by simp only [ioBegin]; (repeat' split) <;> first | rfl | (simp; done) | (simp_all; done)

@[simp] theorem ioStart_line {n s} : line (ioStart n s) = line s := by
  induction n generalizing s with
  | zero => rfl
  | succ n ih => unfold ioStart; (repeat' split) <;> simp [ih]

@[simp] theorem ioStartAll_line {s} : line (ioStartAll s) = line s := by simp [ioStartAll]; try rfl

@[simp] theorem ctlStop_line {s a1} : line (ctlStop s a1) = line s := by simp only [ctlStop]; (repeat' split) <;> first | rfl | (simp; done) | (simp_all; done)

@[simp] theorem ctlForget_line {s a1} : line (ctlForget s a1) = line s := by simp [ctlForget]; try rfl

@[simp] theorem hostTxDrop_line {s a1 a2 a3} : line (hostTxDrop s a1 a2 a3) = line s := by unfold hostTxDrop; split <;> first | rfl | (simp)

@[simp] theorem hostFramesDrop_line {s a1 a2} : line (hostFramesDrop s a1 a2) = line s := by unfold hostFramesDrop; split <;> first | rfl | (simp)

@[simp] theorem queueEnable_line {s a1} : line (queueEnable s a1) = line s := by simp only [queueEnable]; rfl

@[simp] theorem queueReset_line {a0 s a2} : line (queueReset a0 s a2) = line s := by unfold queueReset; (repeat' split) <;> first | rfl | (simp; done) | (simp_all; done)

@[simp] theorem setVfs_line {s a1 a2 a3} : line (setVfs s a1 a2 a3) = line s := by simp only [setVfs]; rfl

@[simp] theorem featuresOk_line {s a1} : line (featuresOk s a1) = line s := by unfold featuresOk; split <;> first | rfl | (simp)

@[simp] theorem presetLatch_line {s a1 a2} : line (presetLatch s a1 a2) = line s := by simp [presetLatch]; try rfl

@[simp] theorem genAdvance_line {s a1} : line (genAdvance s a1) = line s := by simp [genAdvance]; try rfl

@[simp] theorem fnReset_line {a0 s a2} : line (fnReset a0 s a2) = line s := by unfold fnReset; dsimp only; (repeat' split) <;> first | rfl | (simp; done) | (simp_all; done)

@[simp] theorem pf0Reset_line {s a1} : line (pf0Reset s a1) = line s := by simp [pf0Reset]; try rfl

@[simp] theorem flr_line {s a1} : line (flr s a1) = line s := by simp [flr]; try rfl

@[simp] theorem resetEvent_line {s a1 a2} : line (resetEvent s a1 a2) = line s := by simp [resetEvent]; try rfl

@[simp] theorem resetEnd_line {s a1} : line (resetEnd s a1) = line s := by unfold resetEnd; split <;> first | rfl | (simp)

@[simp] theorem flrComplete_line {s a1} : line (flrComplete s a1) = line s := by unfold flrComplete; split <;> first | rfl | (simp)

@[simp] theorem epReset_line {s a1} : line (epReset s a1) = line s := by simp [epReset]; try rfl

@[simp] theorem perstAssert_line {s a1} : line (perstAssert s a1) = line s := by simp [perstAssert]; try rfl

@[simp] theorem perstDeassert_line {s a1} : line (perstDeassert s a1) = line s := by simp [perstDeassert]; try rfl

@[simp] theorem configReady_line {s a1} : line (configReady s a1) = line s := by simp [configReady]; try rfl

@[simp] theorem hotReset_line {s a1} : line (hotReset s a1) = line s := by simp [hotReset]; try rfl

@[simp] theorem linkUp_line {s a1 a2 a3 a4} : line (linkUp s a1 a2 a3 a4) = line s := by simp [linkUp]; try rfl

@[simp] theorem msixSend_line {s a1} : line (msixSend s a1) = line s := by unfold msixSend; split <;> first | rfl | (simp)

@[simp] theorem msixUnmask_line {s a1 a2} : line (msixUnmask s a1 a2) = line s := by unfold msixUnmask; split <;> first | rfl | (simp)

@[simp] theorem hostTxReturn_line {s a1} : line (hostTxReturn s a1) = line s := by unfold hostTxReturn; dsimp only; (repeat' split) <;> first | rfl | (simp; done) | (simp_all; done)

@[simp] theorem queuePause_line {s a1} : line (queuePause s a1) = line s := by simp only [queuePause]; rfl

@[simp] theorem nvmePause_line {s a1} : line (nvmePause s a1) = line s := by unfold nvmePause; split <;> first | rfl | (simp)

@[simp] theorem nvmeResume_line {s a1} : line (nvmeResume s a1) = line s := by simp [nvmeResume]; try rfl

@[simp] theorem d3Entry_line {s a1} : line (d3Entry s a1) = line s := by simp only [d3Entry]; (repeat' split) <;> first | rfl | (simp; done) | (simp_all; done)

@[simp] theorem fnResume_line {s a1} : line (fnResume s a1) = line s := by simp only [fnResume]; (repeat' split) <;> first | rfl | (simp; done) | (simp_all; done)

@[simp] theorem d0Return_line {s a1} : line (d0Return s a1) = line s := by simp [d0Return]; try rfl

@[simp] theorem wakeEvent_line {s a1 a2} : line (wakeEvent s a1 a2) = line s := by unfold wakeEvent; split <;> first | rfl | (simp)

@[simp] theorem cfgPut_line {s a1 a2 a3} : line (cfgPut s a1 a2 a3) = line s := by simp only [cfgPut]; rfl

@[simp] theorem sriovWrite_line {s a1 a2 a3} : line (sriovWrite s a1 a2 a3) = line s := by unfold sriovWrite; (repeat' split) <;> first | rfl | (simp; done) | (simp_all; done)

@[simp] theorem deviceControl_line {s a1 a2} : line (deviceControl s a1 a2) = line s := by simp [deviceControl]; try rfl

@[simp] theorem powerWrite_line {s a1 a2} : line (powerWrite s a1 a2) = line s := by simp [powerWrite]; try rfl

@[simp] theorem cfgWrite_line {s a1 a2 a3} : line (cfgWrite s a1 a2 a3) = line s := by unfold cfgWrite; (repeat' split) <;> first | rfl | (simp; done) | (simp_all; done)

@[simp] theorem configRequest_line {s a1 a2 a3} : line (configRequest s a1 a2 a3) = line s := by unfold configRequest; (repeat' split) <;> first | rfl | (simp; done) | (simp_all; done)

end Sys2Proof.Machine
end

