-- ==== Sys2Proof/Laws/Front.lean ====
section
/-!
SUPPORT. What the operations leave alone: the queue of waiting commands, the beat, the shedding place, the board and
the memories. One lemma per operation says that the whole of `front` stays as it was.
-/

namespace Sys2Proof.Machine

/-- What `front` shows. -/
structure Front where
  pending : List Instr
  beat : Nat
  step : Nat
  quiet : Nat
  f256 : Bool
  serial : W32
  straps : BitVec 3
  hbm : Tbl Byte
  nvm0 : Tbl Byte
  nvm1 : Tbl Byte
  tick : W64
/-- What no command changes but through the queue, the tick and the memory operations. -/
def front (s : State) : Front :=
  ⟨s.pending, s.tmb.beat, s.hbmU.step, s.hbmU.quiet, s.board.f256, s.board.serial, s.board.straps, s.hbm, s.board.nvm0,
    s.board.nvm1, s.tmb.tick⟩

@[simp] theorem front_fold (s : State) : Front.mk s.pending s.tmb.beat s.hbmU.step s.hbmU.quiet s.board.f256 s.board.serial s.board.straps s.hbm s.board.nvm0 s.board.nvm1 s.tmb.tick = front s := rfl

@[simp] theorem front_mk {board rst app tmb ptp sltCph sltEng sltQue lnm prs dec fwd crb sch ldg eng cph kvl flt sec hif win sb que dma mbx sto mir dom hbmU hbm tap out free pending} : front (State.mk board rst app tmb ptp sltCph sltEng sltQue lnm prs dec fwd crb sch ldg eng cph kvl flt sec hif win sb que dma mbx sto mir dom hbmU hbm tap out free pending) = ⟨pending, tmb.beat, hbmU.step, hbmU.quiet, board.f256, board.serial, board.straps, hbm, board.nvm0, board.nvm1, tmb.tick⟩ := rfl

@[simp] theorem front_ite {c : Prop} [Decidable c] {s t : State} : front (if c then s else t) = if c then front s else front t := apply_ite _ _ _ _

@[simp] theorem front_foldl {α : Type} (f : State → α → State) (h : ∀ s a, front (f s a) = front s) (l : List α) (s : State) :
    front (l.foldl f s) = front s := by
  induction l generalizing s with
  | nil => rfl
  | cons a l ih => simp [List.foldl, ih, h]

theorem tmbFold_beat {α : Type} {f : Tmb → α → Tmb} (h : ∀ t x, (f t x).beat = t.beat) (l : List α) (t : Tmb) :
    (l.foldl f t).beat = t.beat := by
  induction l generalizing t with
  | nil => rfl
  | cons x l ih => simp only [List.foldl, ih, h]

@[simp] theorem setSource_beat {t : Tmb} {x s} : (t.setSource x s).beat = t.beat := by
  cases x <;> rfl

@[simp] theorem modSource_beat {t : Tmb} {x f} : (t.modSource x f).beat = t.beat := setSource_beat

@[simp] theorem moveLocal_beat {t : Tmb} {d} : (t.moveLocal d).beat = t.beat :=
  tmbFold_beat (fun _ _ => modSource_beat) _ _

theorem tmbFold_tick {α : Type} {f : Tmb → α → Tmb} (h : ∀ t x, (f t x).tick = t.tick) (l : List α) (t : Tmb) :
    (l.foldl f t).tick = t.tick := by
  induction l generalizing t with
  | nil => rfl
  | cons x l ih => simp only [List.foldl, ih, h]

@[simp] theorem setSource_tick {t : Tmb} {x s} : (t.setSource x s).tick = t.tick := by
  cases x <;> rfl

@[simp] theorem modSource_tick {t : Tmb} {x f} : (t.modSource x f).tick = t.tick := setSource_tick

@[simp] theorem moveLocal_tick {t : Tmb} {d} : (t.moveLocal d).tick = t.tick :=
  tmbFold_tick (fun _ _ => modSource_tick) _ _

theorem front_foldl_fst {α β : Type} (f : State × β → α → State × β) (h : ∀ x a, front (f x a).1 = front x.1) (l : List α)
    (x : State × β) : front (l.foldl f x).1 = front x.1 := by
  induction l generalizing x with
  | nil => rfl
  | cons a l ih => simp only [List.foldl, ih, h]

@[simp] theorem emit_front {s a1} : front (emit s a1) = front s := by simp only [emit]; rfl

@[simp] theorem fresh_front {a0 s} : front (fresh a0 s).2 = front s := by simp only [fresh]; rfl

@[simp] theorem freshBytes_front {a0 s} : front (freshBytes a0 s).2 = front s := by simp only [freshBytes]; rfl

@[simp] theorem raiseAt_front {s a1 a2 a3 a4 a5} : front (raiseAt s a1 a2 a3 a4 a5) = front s := by simp only [raiseAt]; rfl

@[simp] theorem raise_front {s a1 a2 a3} : front (raise s a1 a2 a3) = front s := by simp only [raise]; rfl

@[simp] theorem raiseDetail_front {s a1 a2 a3 a4} : front (raiseDetail s a1 a2 a3 a4) = front s := by simp only [raiseDetail]; rfl

@[simp] theorem raiseFirmware_front {s a1 a2} : front (raiseFirmware s a1 a2) = front s := by simp only [raiseFirmware]; rfl

@[simp] theorem reportHeld_front {s} : front (reportHeld s) = front s := by simp [reportHeld]; try rfl

@[simp] theorem addTo_front {s a1 a2 a3} : front (addTo s a1 a2 a3) = front s := by simp only [addTo]; rfl

@[simp] theorem addAll_front {s a1} : front (addAll s a1) = front s := by simp only [addAll]; rfl

@[simp] theorem tally_front {s a1 a2} : front (tally s a1 a2) = front s := by simp only [tally]; rfl

@[simp] theorem funcMod_front {s a1 a2} : front (funcMod s a1 a2) = front s := by simp only [funcMod]; rfl

@[simp] theorem endpointMod_front {s a1 a2} : front (endpointMod s a1 a2) = front s := by simp only [endpointMod]; rfl

@[simp] theorem vectorMod_front {s a1 a2 a3} : front (vectorMod s a1 a2 a3) = front s := by simp only [vectorMod]; rfl

@[simp] theorem msix_front {s a1 a2} : front (msix s a1 a2) = front s := by unfold msix; (repeat' split) <;> first | rfl | (simp; done) | (simp_all; done)

@[simp] theorem hostWrite_front {s a1 a2 a3 a4} : front (hostWrite s a1 a2 a3 a4) = front s := by simp only [hostWrite]; rfl

@[simp] theorem hostRead_front {s a1 a2 a3 a4} : front (hostRead s a1 a2 a3 a4) = front s := by simp only [hostRead]; rfl

@[simp] theorem event_front {s a1 a2} : front (event s a1 a2) = front s := by simp only [event]; rfl

@[simp] theorem adminMod_front {s a1 a2} : front (adminMod s a1 a2) = front s := by simp [adminMod]; try rfl

@[simp] theorem adminWrite_front {s a1 a2 a3 a4 a5} : front (adminWrite s a1 a2 a3 a4 a5) = front s := by simp [adminWrite]; try rfl

@[simp] theorem adminFinish_front {s a1 a2 a3 a4} : front (adminFinish s a1 a2 a3 a4) = front s := by unfold adminFinish; dsimp only; (repeat' split) <;> first | rfl | (simp; done) | (simp_all; done)

@[simp] theorem sbAnswer_front {s a1 a2 a3 a4} : front (sbAnswer s a1 a2 a3 a4) = front s := by simp only [sbAnswer]; rfl

@[simp] theorem answer_front {s a1 a2 a3} : front (answer s a1 a2 a3) = front s := by unfold answer; split <;> first | rfl | (simp)

@[simp] theorem deltaAdd_front {s a1 a2} : front (deltaAdd s a1 a2) = front s := by simp [deltaAdd]; try rfl

@[simp] theorem verDelta_front {s a1} : front (verDelta s a1) = front s := by simp [verDelta]; try rfl

@[simp] theorem verRelease_front {s} : front (verRelease s) = front s := by simp only [verRelease]; rfl

@[simp] theorem queueMod_front {s a1 a2} : front (queueMod s a1 a2) = front s := by simp only [queueMod]; rfl

@[simp] theorem completionWrite_front {s a1 a2} : front (completionWrite s a1 a2) = front s := by unfold completionWrite; split <;> first | rfl | (simp)

@[simp] theorem queueSignal_front {s a1} : front (queueSignal s a1) = front s := by unfold queueSignal; split <;> first | rfl | (simp)

@[simp] theorem sendFlush_front {q n s} : front (sendFlush q n s) = front s := by
  induction n generalizing s with
  | zero => rfl
  | succ n ih => unfold sendFlush; (repeat' split) <;> simp [ih]

@[simp] theorem shedUse_front {s a1} : front (shedUse s a1) = front s := by simp [shedUse]; try rfl

@[simp] theorem disableCheck_front {s a1} : front (disableCheck s a1) = front s := by unfold disableCheck; (repeat' split) <;> first | rfl | (simp; done) | (simp_all; done)

@[simp] theorem sendFlushAll_front {s a1} : front (sendFlushAll s a1) = front s := by simp [sendFlushAll]; try rfl

@[simp] theorem sendHold_front {s a1 a2} : front (sendHold s a1 a2) = front s := by simp [sendHold]; try rfl

@[simp] theorem sendEntered_front {s a1 a2} : front (sendEntered s a1 a2) = front s := by unfold sendEntered; (repeat' split) <;> first | rfl | (simp; done) | (simp_all; done)

@[simp] theorem sendDeparted_front {s a1 a2 a3} : front (sendDeparted s a1 a2 a3) = front s := by unfold sendDeparted; split <;> first | rfl | (simp)

@[simp] theorem sendFailed_front {s a1 a2 a3 a4} : front (sendFailed s a1 a2 a3 a4) = front s := by simp [sendFailed]; try rfl

@[simp] theorem errorCount_front {s a1 a2} : front (errorCount s a1 a2) = front s := by simp only [errorCount]; rfl

@[simp] theorem errorSeen_front {s a1 a2} : front (errorSeen s a1 a2) = front s := by simp only [errorSeen]; rfl

@[simp] theorem errorMessage_front {s a1 a2} : front (errorMessage s a1 a2) = front s := by simp [errorMessage]; try rfl

@[simp] theorem corrLogged_front {s a1 a2} : front (corrLogged s a1 a2) = front s := by simp only [corrLogged]; rfl

@[simp] theorem aerCorrectable_front {s a1 a2} : front (aerCorrectable s a1 a2) = front s := by simp [aerCorrectable]; try rfl

@[simp] theorem aerFirst_front {s a1 a2 a3} : front (aerFirst s a1 a2 a3) = front s := by unfold aerFirst; split <;> first | rfl | (simp)

@[simp] theorem uncorrLogged_front {s a1 a2 a3 a4} : front (uncorrLogged s a1 a2 a3 a4) = front s := by simp [uncorrLogged]; try rfl

@[simp] theorem aerUncorrectable_front {s a1 a2 a3 a4} : front (aerUncorrectable s a1 a2 a3 a4) = front s := by simp [aerUncorrectable]; try rfl

@[simp] theorem requestHeader_front {s a1 a2 a3 a4 a5} : front (requestHeader s a1 a2 a3 a4 a5).2 = front s := by simp only [requestHeader]; rfl

@[simp] theorem completerAbort_front {s a1 a2 a3 a4 a5} : front (completerAbort s a1 a2 a3 a4 a5) = front s := by simp only [completerAbort]; (repeat' split) <;> first | rfl | (simp; done) | (simp_all; done)

@[simp] theorem pktMod_front {s a1 a2} : front (pktMod s a1 a2) = front s := by simp only [pktMod]; rfl

@[simp] theorem pktAdd_front {s a1} : front (pktAdd s a1).1 = front s := by simp only [pktAdd]; rfl

@[simp] theorem schQueueMod_front {s a1 a2} : front (schQueueMod s a1 a2) = front s := by simp only [schQueueMod]; rfl

@[simp] theorem schPortMod_front {s a1 a2} : front (schPortMod s a1 a2) = front s := by simp only [schPortMod]; rfl

@[simp] theorem wake_front {s a1} : front (wake s a1) = front s := by simp [wake]; try rfl

@[simp] theorem queueEmptied_front {s a1} : front (queueEmptied s a1) = front s := by simp [queueEmptied]; try rfl

@[simp] theorem queueTake_front {s a1 a2} : front (queueTake s a1 a2) = front s := by simp [queueTake]; try rfl

@[simp] theorem releaseRef_front {s a1} : front (releaseRef s a1) = front s := by unfold releaseRef; split <;> first | rfl | (simp)

@[simp] theorem pktFree_front {s a1} : front (pktFree s a1) = front s := by unfold pktFree; (repeat' split) <;> first | rfl | (simp; done) | (simp_all; done)

@[simp] theorem addPkt_front {s a1 a2} : front (addPkt s a1 a2) = front s := by simp only [addPkt]; rfl

@[simp] theorem countDrop_front {s o p t c l} : front (countDrop s o p t c l) = front s := by
  unfold countDrop; cases p <;> cases t <;> simp

@[simp] theorem sendDropped_front {s a1 a2} : front (sendDropped s a1 a2) = front s := by unfold sendDropped; split <;> first | rfl | (simp)

@[simp] theorem dropPktAt_front {s a1 a2 a3} : front (dropPktAt s a1 a2 a3) = front s := by unfold dropPktAt; split <;> first | rfl | (simp)

@[simp] theorem dropPkt_front {s a1 a2} : front (dropPkt s a1 a2) = front s := by simp [dropPkt]; try rfl

@[simp] theorem dropQueue_front {s a1 a2} : front (dropQueue s a1 a2) = front s := by simp [dropQueue]; try rfl

@[simp] theorem dropPortQueues_front {s a1 a2} : front (dropPortQueues s a1 a2) = front s := by simp [dropPortQueues]; try rfl

@[simp] theorem transfer_front {s a1 a2} : front (transfer s a1 a2) = front s := by unfold transfer; split <;> first | rfl | (simp)

@[simp] theorem countArrival_front {s a1 a2 a3} : front (countArrival s a1 a2 a3) = front s := by simp only [countArrival]; rfl

@[simp] theorem departPkt_front {s a1 a2} : front (departPkt s a1 a2) = front s := by unfold departPkt; (repeat' split) <;> first | rfl | (simp; done) | (simp_all; done)

@[simp] theorem enterQueue_front {s a1 a2 a3} : front (enterQueue s a1 a2 a3) = front s := by unfold enterQueue; dsimp only; (repeat' split) <;> first | rfl | (simp; done) | (simp_all; done)

@[simp] theorem ownWrite_front {s a1} : front (ownWrite s a1) = front s := by simp [ownWrite]; try rfl

@[simp] theorem tblDelta_front {s a1 a2} : front (tblDelta s a1 a2) = front s := by simp only [tblDelta]; (repeat' split) <;> first | rfl | (simp; done) | (simp_all; done)

@[simp] theorem tblDeltas_front {s a1 a2} : front (tblDeltas s a1 a2) = front s := by simp [tblDeltas]; try rfl

@[simp] theorem learnKeep_front {s a1} : front (learnKeep s a1) = front s := by simp [learnKeep]; try rfl

theorem writeRecs_front {s d rs} : ∀ t, writeRecs s d rs = some t → front t = front s := by
  intro t h; unfold writeRecs at h
  split at h
  · cases h
  · split at h
    · cases h; rfl
    · simp only [Option.map_eq_some_iff] at h; obtain ⟨_, _, rfl⟩ := h; rfl

theorem writeTables_front {s d rs} : ∀ t, writeTables s d rs = some t → front t = front s := by
  intro t h
  simp only [writeTables, Option.map_eq_some_iff] at h
  obtain ⟨u, hu, rfl⟩ := h
  simp [writeRecs_front u hu]

@[simp] theorem flowValidAdj_front {s a1 a2} : front (flowValidAdj s a1 a2) = front s := by simp [flowValidAdj]; try rfl

@[simp] theorem flowDelta_front {s a1 a2 a3} : front (flowDelta s a1 a2 a3) = front s := by simp [flowDelta]; try rfl

@[simp] theorem flowRecord_front {s a1 a2 a3 a4 a5} : front (flowRecord s a1 a2 a3 a4 a5) = front s := by simp only [flowRecord]; rfl

@[simp] theorem portMod_front {s a1 a2} : front (portMod s a1 a2) = front s := by simp only [portMod]; rfl

@[simp] theorem macroMod_front {s a1 a2} : front (macroMod s a1 a2) = front s := by simp only [macroMod]; rfl

@[simp] theorem statAdd_front {s a1 a2 a3} : front (statAdd s a1 a2 a3) = front s := by simp only [statAdd]; rfl

@[simp] theorem statFrame_front {s a1 a2 a3 a4} : front (statFrame s a1 a2 a3 a4) = front s := by simp only [statFrame]; rfl

@[simp] theorem txAbandon_front {s a1 a2} : front (txAbandon s a1 a2) = front s := by unfold txAbandon; split <;> first | rfl | (simp)

@[simp] theorem txTruncate_front {s a1 a2} : front (txTruncate s a1 a2) = front s := by simp only [txTruncate]; (repeat' split) <;> first | rfl | (simp; done) | (simp_all; done)

@[simp] theorem txCut_front {s a1 a2} : front (txCut s a1 a2) = front s := by unfold txCut; split <;> first | rfl | (simp)

@[simp] theorem dropAllQueued_front {s n r} : front (dropAllQueued s n r) = front s := by
  unfold dropAllQueued; dsimp only; split <;> simp

@[simp] theorem haltPort_front {s a1} : front (haltPort s a1) = front s := by simp [haltPort]; try rfl

@[simp] theorem injectEnter_front {s a1 a2} : front (injectEnter s a1 a2) = front s := by simp [injectEnter]; try rfl

@[simp] theorem keepTurn_front {s} : front (keepTurn s) = front s := by simp only [keepTurn]; rfl

@[simp] theorem inject_front {s a1 a2 a3} : front (inject s a1 a2 a3) = front s := by unfold inject; dsimp only; (repeat' split) <;> first | rfl | (simp; done) | (simp_all; done)

@[simp] theorem admitWaiting_front {s} : front (admitWaiting s) = front s := by simp only [admitWaiting]; (repeat' split) <;> first | rfl | (simp; done) | (simp_all; done)

@[simp] theorem channelMod_front {s a1 a2} : front (channelMod s a1 a2) = front s := by simp only [channelMod]; rfl

@[simp] theorem clusterMod_front {s a1 a2} : front (clusterMod s a1 a2) = front s := by simp only [clusterMod]; rfl

@[simp] theorem handedAt_front {s a1} : front (handedAt s a1) = front s := by simp only [handedAt]; rfl

@[simp] theorem handOff_front {s a1 a2} : front (handOff s a1 a2) = front s := by
  unfold handOff
  split
  · rfl
  · dsimp only; split
    · simp
    · split
      · simp
      · split
        · simp
        · rw [channelMod_front, handedAt_front, pktMod_front]; split <;> simp

@[simp] theorem controlHandOff_front {s a1 a2} : front (controlHandOff s a1 a2) = front s := by unfold controlHandOff; dsimp only; (repeat' split) <;> first | rfl | (simp; done) | (simp_all; done)

@[simp] theorem enqueuePort_front {s a1 a2 a3} : front (enqueuePort s a1 a2 a3) = front s := by unfold enqueuePort; (repeat' split) <;> first | rfl | (simp; done) | (simp_all; done)

@[simp] theorem enqueueHost_front {s a1 a2 a3} : front (enqueueHost s a1 a2 a3) = front s := by unfold enqueueHost; split <;> first | rfl | (simp)

@[simp] theorem copyPkt_front {s a1 a2} : front (copyPkt s a1 a2).1 = front s := by
  unfold copyPkt
  rw [pktAdd_front, tally_front]
  split
  · rw [addPkt_front, addPkt_front]
  · rw [addPkt_front]

@[simp] theorem copyToPort_front {p q x n} : front (copyToPort p q x n).1 = front x.1 := by
  unfold copyToPort; dsimp only; split <;> simp

@[simp] theorem copyToHost_front {s a1 a2 a3} : front (copyToHost s a1 a2 a3) = front s := by simp [copyToHost]; try rfl

@[simp] theorem captureAfter_front {x p} : front (captureAfter x p) = front x.1 := by unfold captureAfter; split <;> simp

@[simp] theorem delivered_front {s a1} : front (delivered s a1).1 = front s := by simp [delivered]; try rfl

@[simp] theorem deliver_front {s a1 a2} : front (deliver s a1 a2) = front s := by
  unfold deliver
  split
  · rfl
  · split <;> (try simp) <;> split <;> (try simp)
    rw [front_foldl_fst _ (fun _ _ => copyToPort_front)]; simp

@[simp] theorem tmbMod_front {s f} (h : ∀ x : Tmb, (f x).beat = x.beat) (k : ∀ x : Tmb, (f x).tick = x.tick) : front (tmbMod s f) = front s := by
  simp only [tmbMod, front_mk, h, k, front_fold]

@[simp] theorem sourceQualify_front {s x} : front (sourceQualify s x) = front s := by
  unfold sourceQualify; split
  · rfl
  · exact tmbMod_front (fun _ => modSource_beat) (fun _ => modSource_tick)

@[simp] theorem sourceLost_front {s x} : front (sourceLost s x) = front s := by
  unfold sourceLost; split
  · rfl
  · dsimp only; split <;> (try rw [raise_front]) <;> exact tmbMod_front (fun _ => modSource_beat) (fun _ => modSource_tick)

@[simp] theorem sourceMeasure_front {s a1 a2} : front (sourceMeasure s a1 a2) = front s := by simp [sourceMeasure]; try rfl

@[simp] theorem sourceCount_front {s a1 a2 a3} : front (sourceCount s a1 a2 a3) = front s := by simp [sourceCount]; try rfl

@[simp] theorem todMeet_front {s a1 a2 a3} : front (todMeet s a1 a2 a3) = front s := by simp [todMeet]; try rfl

@[simp] theorem sourceEdge_front {s a1 a2 a3 a4} : front (sourceEdge s a1 a2 a3 a4) = front s := by simp [sourceEdge]; try rfl

@[simp] theorem holdoverExpire_front {s} : front (holdoverExpire s) = front s := by simp [holdoverExpire]; try rfl

@[simp] theorem timeSelect_front {s} : front (timeSelect s) = front s := by simp only [timeSelect]; rfl

@[simp] theorem timeStepped_front {s n} : front (timeStepped s n) = front s := by
  unfold timeStepped; split
  · rfl
  · exact tmbMod_front (fun t => by simp [tmbFold_beat]) (fun t => by simp [tmbFold_tick])

@[simp] theorem traceableUpdate_front {s} : front (traceableUpdate s) = front s := by simp [traceableUpdate]; try rfl

@[simp] theorem timeSlew_front {s} : front (timeSlew s) = front s := by simp [timeSlew]; try rfl

@[simp] theorem domainOverdue_front {s} : front (domainOverdue s) = front s := by unfold domainOverdue; split <;> first | rfl | (simp)

@[simp] theorem domMod_front {s a1} : front (domMod s a1) = front s := by simp only [domMod]; rfl

@[simp] theorem controlSend_front {s a1 a2 a3} : front (controlSend s a1 a2 a3) = front s := by simp [controlSend]; try rfl

@[simp] theorem domainSendAs_front {s a1 a2 a3 a4 a5 a6} : front (domainSendAs s a1 a2 a3 a4 a5 a6) = front s := by simp [domainSendAs]; try rfl

@[simp] theorem domainSend_front {s a1 a2 a3 a4} : front (domainSend s a1 a2 a3 a4) = front s := by simp [domainSend]; try rfl

@[simp] theorem domainSendAll_front {s a1 a2 a3} : front (domainSendAll s a1 a2 a3) = front s := by simp [domainSendAll]; try rfl

@[simp] theorem relayDrain_front {s} : front (relayDrain s) = front s := by simp [relayDrain]; try rfl

@[simp] theorem relayUp_front {s a1 a2 a3 a4} : front (relayUp s a1 a2 a3 a4) = front s := by simp [relayUp]; try rfl

@[simp] theorem parentSelect_front {s} : front (parentSelect s) = front s := by unfold parentSelect; dsimp only; (repeat' split) <;> first | rfl | (simp; done) | (simp_all; done)

@[simp] theorem rootMerge_front {s a1 a2 a3 a4 a5 a6 a7} : front (rootMerge s a1 a2 a3 a4 a5 a6 a7) = front s := by unfold rootMerge; split <;> first | rfl | (simp)

@[simp] theorem reportSend_front {s a1 a2 a3 a4 a5 a6} : front (reportSend s a1 a2 a3 a4 a5 a6) = front s := by simp [reportSend]; try rfl

@[simp] theorem domainReport_front {s a1 a2 a3} : front (domainReport s a1 a2 a3) = front s := by unfold domainReport; (repeat' split) <;> first | rfl | (simp; done) | (simp_all; done)

@[simp] theorem cutSubmit_front {s a1 a2 a3 a4} : front (cutSubmit s a1 a2 a3 a4).1 = front s := by unfold cutSubmit; (repeat' split) <;> first | rfl | (simp; done) | (simp_all; done)

@[simp] theorem cutReqWrite_front {s a1} : front (cutReqWrite s a1) = front s := by simp [cutReqWrite]; try rfl

@[simp] theorem cutPeriodSet_front {s a1} : front (cutPeriodSet s a1) = front s := by simp only [cutPeriodSet]; rfl

@[simp] theorem cutCopyStart_front {s} : front (cutCopyStart s) = front s := by unfold cutCopyStart; split <;> first | rfl | (simp)

@[simp] theorem cutReadyAt_front {s a1} : front (cutReadyAt s a1) = front s := by unfold cutReadyAt; split <;> first | rfl | (simp)

@[simp] theorem cutReady_front {s} : front (cutReady s) = front s := by simp [cutReady]; try rfl

@[simp] theorem ledgerError_front {s a1 a2} : front (ledgerError s a1 a2) = front s := by unfold ledgerError; split <;> first | rfl | (simp)

@[simp] theorem consRearm_front {s a1} : front (consRearm s a1) = front s := by simp only [consRearm]; rfl

@[simp] theorem rdIdxWrite_front {s a1 a2} : front (rdIdxWrite s a1 a2) = front s := by simp only [rdIdxWrite]; rfl

@[simp] theorem fltMod_front {s a1} : front (fltMod s a1) = front s := by simp only [fltMod]; rfl

@[simp] theorem takeSeq_front {s} : front (takeSeq s).2 = front s := by simp only [takeSeq]; rfl

@[simp] theorem ringLose_front {s a1} : front (ringLose s a1) = front s := by simp only [ringLose]; rfl

@[simp] theorem ringSummary_front {s} : front (ringSummary s) = front s := by unfold ringSummary; split <;> first | rfl | (simp)

@[simp] theorem ringPush_front {s a1} : front (ringPush s a1) = front s := by simp [ringPush]; try rfl

@[simp] theorem journalReset_front {s a1 a2} : front (journalReset s a1 a2) = front s := by simp [journalReset]; try rfl

@[simp] theorem faultInterrupt_front {s} : front (faultInterrupt s) = front s := by simp [faultInterrupt]; try rfl

@[simp] theorem fltPulse_front {s} : front (fltPulse s) = front s := by simp only [fltPulse]; rfl

@[simp] theorem squelchNow_front {s a1 a2} : front (squelchNow s a1 a2) = front s := by simp only [squelchNow]; (repeat' split) <;> first | rfl | (simp; done) | (simp_all; done)

@[simp] theorem takeoverRequest_front {s} : front (takeoverRequest s).1 = front s := by unfold takeoverRequest; (repeat' split) <;> first | rfl | (simp; done) | (simp_all; done)

@[simp] theorem react_front {s a1 a2 a3} : front (react s a1 a2 a3).1 = front s := by unfold react; (repeat' split) <;> first | rfl | (simp; done) | (simp_all; done)

@[simp] theorem mergeReport_front {s a1 a2} : front (mergeReport s a1 a2) = front s := by simp [mergeReport]; try rfl

@[simp] theorem openReport_front {s a1} : front (openReport s a1) = front s := by simp [openReport]; try rfl

@[simp] theorem takeReport_front {s a1} : front (takeReport s a1) = front s := by unfold takeReport; split <;> first | rfl | (simp)

@[simp] theorem faultReport_front {s a1} : front (faultReport s a1) = front s := by unfold faultReport; (repeat' split) <;> first | rfl | (simp; done) | (simp_all; done)

@[simp] theorem rearm_front {s a1} : front (rearm s a1) = front s := by unfold rearm; split <;> first | rfl | (simp)

@[simp] theorem ackOne_front {s a1} : front (ackOne s a1) = front s := by simp [ackOne]; try rfl

@[simp] theorem faultAck_front {s a1} : front (faultAck s a1).1 = front s := by unfold faultAck; dsimp only; (repeat' split) <;> first | rfl | (simp; done) | (simp_all; done)

@[simp] theorem recoverAt_front {s} : front (recoverAt s) = front s := by simp [recoverAt]; try rfl

@[simp] theorem portEntersSafe_front {s a1} : front (portEntersSafe s a1) = front s := by simp only [portEntersSafe]; rfl

@[simp] theorem squelchStep_front {s a1} : front (squelchStep s a1) = front s := by simp only [squelchStep]; (repeat' split) <;> first | rfl | (simp; done) | (simp_all; done)

@[simp] theorem squelchBoundary_front {s} : front (squelchBoundary s) = front s := by simp [squelchBoundary]; try rfl

@[simp] theorem threadMod_front {s a1 a2 a3} : front (threadMod s a1 a2 a3) = front s := by simp only [threadMod]; rfl

@[simp] theorem engineMod_front {s a1 a2} : front (engineMod s a1 a2) = front s := by simp only [engineMod]; rfl

@[simp] theorem batchPut_front {s a1 a2 a3} : front (batchPut s a1 a2 a3) = front s := by simp only [batchPut]; rfl

@[simp] theorem sltEngMod_front {s a1} : front (sltEngMod s a1) = front s := by simp only [sltEngMod]; rfl

@[simp] theorem fifoSet_front {s a1 a2} : front (fifoSet s a1 a2) = front s := by simp [fifoSet]; try rfl

@[simp] theorem sharedSet_front {s a1 a2 a3} : front (sharedSet s a1 a2 a3) = front s := by simp only [sharedSet]; rfl

@[simp] theorem areaSet_front {s a1 a2 a3 a4} : front (areaSet s a1 a2 a3 a4) = front s := by simp only [areaSet]; rfl

@[simp] theorem stateSet_front {s a1 a2 a3} : front (stateSet s a1 a2 a3) = front s := by simp [stateSet]; try rfl

@[simp] theorem stateSetAll_front {s b i ws} : front (stateSetAll s b i ws) = front s := by
  induction ws generalizing s i with
  | nil => rfl
  | cons w ws ih => simp [stateSetAll, ih]

@[simp] theorem batchBegin_front {s a1 a2 a3 a4 a5 a6} : front (batchBegin s a1 a2 a3 a4 a5 a6) = front s := by unfold batchBegin; (repeat' split) <;> first | rfl | (simp; done) | (simp_all; done)

@[simp] theorem packetBack_front {s a1 a2} : front (packetBack s a1 a2) = front s := by unfold packetBack; split <;> first | rfl | (simp)

@[simp] theorem packetsBack_front {s c xs} : front (packetsBack s c xs) = front s := by
  unfold packetsBack; exact front_foldl _ (fun _ _ => packetBack_front) _ _

@[simp] theorem batchDiscard_front {s a1 a2} : front (batchDiscard s a1 a2) = front s := by unfold batchDiscard; split <;> first | rfl | (simp)

@[simp] theorem dispatch_front {s a1 a2 a3 a4 a5 a6} : front (dispatch s a1 a2 a3 a4 a5 a6) = front s := by simp only [dispatch]; (repeat' split) <;> first | rfl | (simp; done) | (simp_all; done)

@[simp] theorem engineLose_front {s a1} : front (engineLose s a1) = front s := by simp only [engineLose]; rfl

@[simp] theorem engineStop_front {s a1 a2 a3 a4 a5} : front (engineStop s a1 a2 a3 a4 a5) = front s := by simp [engineStop]; try rfl

@[simp] theorem threadFault_front {s a1 a2 a3} : front (threadFault s a1 a2 a3) = front s := by simp [threadFault]; try rfl

@[simp] theorem sendChannel_front {s a1 a2 a3 a4} : front (sendChannel s a1 a2 a3 a4).1 = front s := by unfold sendChannel; (repeat' split) <;> first | rfl | (simp; done) | (simp_all; done)

@[simp] theorem sendRelease_front {s a1 a2} : front (sendRelease s a1 a2).1 = front s := by unfold sendRelease; (repeat' split) <;> first | rfl | (simp; done) | (simp_all; done)

@[simp] theorem channelWake_front {s a1 a2} : front (channelWake s a1 a2) = front s := by simp only [channelWake]; rfl

@[simp] theorem timerArm_front {s a1 a2 a3 a4} : front (timerArm s a1 a2 a3 a4) = front s := by simp [timerArm]; try rfl

@[simp] theorem dropAll_front {s a1 a2} : front (dropAll s a1 a2) = front s := by simp [dropAll]; try rfl

@[simp] theorem channelDrop_front {s a1} : front (channelDrop s a1) = front s := by unfold channelDrop; split <;> first | rfl | (simp)

@[simp] theorem channelRestart_front {s a1} : front (channelRestart s a1) = front s := by unfold channelRestart; split <;> first | rfl | (simp)

@[simp] theorem dmaEngineMod_front {s a1 a2} : front (dmaEngineMod s a1 a2) = front s := by simp only [dmaEngineMod]; rfl

@[simp] theorem dmaChannelMod_front {s a1 a2 a3} : front (dmaChannelMod s a1 a2 a3) = front s := by simp only [dmaChannelMod]; rfl

@[simp] theorem dmaSelect_front {s a1} : front (dmaSelect s a1) = front s := by unfold dmaSelect; (repeat' split) <;> first | rfl | (simp; done) | (simp_all; done)

@[simp] theorem dmaEnd_front {s a1 a2} : front (dmaEnd s a1 a2) = front s := by simp only [dmaEnd]; rfl

@[simp] theorem dmaWriteback_front {s a1 a2 a3 a4} : front (dmaWriteback s a1 a2 a3 a4) = front s := by simp [dmaWriteback]; try rfl

@[simp] theorem dmaStart_front {s a1 a2} : front (dmaStart s a1 a2) = front s := by simp [dmaStart]; try rfl

@[simp] theorem dmaHalt_front {s a1 a2 a3 a4 a5 a6 a7 a8} : front (dmaHalt s a1 a2 a3 a4 a5 a6 a7 a8) = front s := by simp [dmaHalt]; try rfl

@[simp] theorem dmaRetry_front {s a1 a2} : front (dmaRetry s a1 a2) = front s := by simp [dmaRetry]; try rfl

@[simp] theorem dmaSkip_front {s a1 a2} : front (dmaSkip s a1 a2) = front s := by simp [dmaSkip]; try rfl

@[simp] theorem dmaChReset_front {s a1 a2} : front (dmaChReset s a1 a2) = front s := by simp [dmaChReset]; try rfl

@[simp] theorem dmaConfig_front {s a1 a2 a3} : front (dmaConfig s a1 a2 a3) = front s := by simp [dmaConfig]; try rfl

@[simp] theorem dmaProducer_front {s a1 a2 a3} : front (dmaProducer s a1 a2 a3) = front s := by simp [dmaProducer]; try rfl

@[simp] theorem dmaAbandon_front {s a1} : front (dmaAbandon s a1) = front s := by simp [dmaAbandon]; try rfl

theorem issue_front {s e t w l c f} (h : ∀ b s' b', f b = .next s' b' → front s' = front s) :
    front (issue s e t w l c f) = front s := by
  unfold issue
  split
  · rfl
  · dsimp only; split
    · rfl
    · split
      · simp
      · split
        · simp
        · split
          · rename_i h1; simpa using h _ _ _ h1
          · simp
          · simp

@[simp] theorem issueReg_front {s e t w l n r v} : front (issueReg s e t w l n r v) = front s :=
  issue_front (fun b s' b' h => by cases h; rfl)

@[simp] theorem aluRR_front {a0 a1 a2 a3 a4 s} : front (aluRR a0 a1 a2 a3 a4 s) = front s := by simp [aluRR]; try rfl

@[simp] theorem aluRI_front {a0 a1 a2 a3 a4 a5 s} : front (aluRI a0 a1 a2 a3 a4 a5 s) = front s := by simp [aluRI]; try rfl

@[simp] theorem branch_front {e t w l d k s} : front (branch e t w l d k s) = front s :=
  issue_front (fun b s' b' h => by cases h; rfl)

@[simp] theorem boxMod_front {s a1 a2} : front (boxMod s a1 a2) = front s := by simp only [boxMod]; rfl

@[simp] theorem boxReject_front {s a1 a2 a3 a4 a5} : front (boxReject s a1 a2 a3 a4 a5) = front s := by simp [boxReject]; try rfl

@[simp] theorem boxWrite_front {s e m o n f} (h : ∀ s, front (f s) = front s) : front (boxWrite s e m o n f) = front s := by
  unfold boxWrite; dsimp only; (repeat' split) <;> simp [h]

@[simp] theorem boxRing_front {s a1 a2} : front (boxRing s a1 a2) = front s := by simp [boxRing]; try rfl

@[simp] theorem boxData_front {s a1 a2 a3 a4} : front (boxData s a1 a2 a3 a4) = front s := by simp [boxData]; try rfl

@[simp] theorem boxPost_front {s a1 a2} : front (boxPost s a1 a2) = front s := by simp [boxPost]; try rfl

@[simp] theorem boxRelease_front {s a1} : front (boxRelease s a1) = front s := by simp only [boxRelease]; rfl

@[simp] theorem s2hPost_front {s a1} : front (s2hPost s a1) = front s := by unfold s2hPost; dsimp only; (repeat' split) <;> first | rfl | (simp; done) | (simp_all; done)

@[simp] theorem boxReply_front {s a1 a2} : front (boxReply s a1 a2) = front s := by simp [boxReply]; try rfl

@[simp] theorem boxTake_front {s m k f} (h : ∀ b, front (f b) = front s) : front (boxTake s m k f) = front s := by
  unfold boxTake; dsimp only; (repeat' split) <;> simp [h]

@[simp] theorem boxEcho_front {s a1} : front (boxEcho s a1) = front s := by simp [boxEcho]; try rfl

@[simp] theorem boxToChannel_front {s a1} : front (boxToChannel s a1) = front s := by simp [boxToChannel]; try rfl

@[simp] theorem boxAlive_front {s a1} : front (boxAlive s a1) = front s := by simp [boxAlive]; try rfl

@[simp] theorem boxReleaseS2h_front {s a1 a2} : front (boxReleaseS2h s a1 a2) = front s := by simp [boxReleaseS2h]; try rfl

@[simp] theorem boxMaskWrite_front {s a1 a2} : front (boxMaskWrite s a1 a2) = front s := by simp [boxMaskWrite]; try rfl

@[simp] theorem dupReport_front {s a1} : front (dupReport s a1) = front s := by simp [dupReport]; try rfl

@[simp] theorem supervisorMessage_front {s} : front (supervisorMessage s) = front s := by unfold supervisorMessage; split <;> first | rfl | (simp)

@[simp] theorem mailboxesReset_front {s a1} : front (mailboxesReset s a1) = front s := by simp only [mailboxesReset]; rfl

@[simp] theorem stoMod_front {s a1} : front (stoMod s a1) = front s := by simp only [stoMod]; rfl

@[simp] theorem ctlMod_front {s a1 a2} : front (ctlMod s a1 a2) = front s := by unfold ctlMod; split <;> first | rfl | (simp)

@[simp] theorem cqInterrupt_front {s a1 a2} : front (cqInterrupt s a1 a2) = front s := by unfold cqInterrupt; split <;> first | rfl | (simp)

@[simp] theorem postFlush_front {i n s} : front (postFlush i n s) = front s := by
  induction n generalizing s with
  | zero => rfl
  | succ n ih =>
    unfold postFlush
    split <;> try rfl
    split <;> try rfl
    split <;> try rfl
    simp only [ih]
    split <;> simp

@[simp] theorem postAll_front {s a1} : front (postAll s a1) = front s := by simp [postAll]; try rfl

@[simp] theorem nvmeComplete_front {s a1 a2 a3 a4 a5} : front (nvmeComplete s a1 a2 a3 a4 a5) = front s := by simp [nvmeComplete]; try rfl

@[simp] theorem noticeSend_front {s a1} : front (noticeSend s a1) = front s := by unfold noticeSend; (repeat' split) <;> first | rfl | (simp; done) | (simp_all; done)

@[simp] theorem nsNotice_front {s a1 a2} : front (nsNotice s a1 a2) = front s := by simp [nsNotice]; try rfl

@[simp] theorem nsMod_front {s a1 a2} : front (nsMod s a1 a2) = front s := by simp only [nsMod]; rfl

@[simp] theorem nsReady_front {s a1 a2} : front (nsReady s a1 a2) = front s := by simp [nsReady]; try rfl

@[simp] theorem prpWrite_front {s a1 a2 a3 a4} : front (prpWrite s a1 a2 a3 a4) = front s := by simp [prpWrite]; try rfl

@[simp] theorem ctxMod_front {s a1 a2} : front (ctxMod s a1 a2) = front s := by simp only [ctxMod]; rfl

@[simp] theorem cphMod_front {s a1} : front (cphMod s a1) = front s := by simp only [cphMod]; rfl

@[simp] theorem kvlMod_front {s a1} : front (kvlMod s a1) = front s := by simp only [kvlMod]; rfl

@[simp] theorem cacheMod_front {s a1 a2} : front (cacheMod s a1 a2) = front s := by simp only [cacheMod]; rfl

@[simp] theorem drbgReseed_front {s} : front (drbgReseed s) = front s := by unfold drbgReseed; split <;> first | rfl | (simp)

@[simp] theorem drbg_front {a0 s} : front (drbg a0 s).2 = front s := by simp [drbg]; try rfl

@[simp] theorem writeResult_front {s a1 a2 a3 a4} : front (writeResult s a1 a2 a3 a4) = front s := by unfold writeResult; split <;> first | rfl | (simp)

@[simp] theorem resultDeliver_front {s a1 a2 a3} : front (resultDeliver s a1 a2 a3) = front s := by unfold resultDeliver; split <;> first | rfl | (simp)

@[simp] theorem endWords_front {s a1 a2 a3 a4 a5} : front (endWords s a1 a2 a3 a4 a5).2 = front s := by simp only [endWords]; rfl

@[simp] theorem requestEnd_front {s a1 a2 a3} : front (requestEnd s a1 a2 a3) = front s := by simp only [requestEnd]; (repeat' split) <;> first | rfl | (simp; done) | (simp_all; done)

@[simp] theorem requestFail_front {s a1 a2 a3 a4 a5} : front (requestFail s a1 a2 a3 a4 a5) = front s := by simp only [requestFail]; rfl

@[simp] theorem csubRelease_front {s a1 a2 a3} : front (csubRelease s a1 a2 a3) = front s := by simp [csubRelease]; try rfl

@[simp] theorem requestPop_front {s a1} : front (requestPop s a1) = front s := by simp only [requestPop]; rfl

@[simp] theorem requestsAbort_front {s a1} : front (requestsAbort s a1) = front s := by simp [requestsAbort]; try rfl

@[simp] theorem cacheDrop_front {s a1} : front (cacheDrop s a1) = front s := by unfold cacheDrop; split <;> first | rfl | (simp)

@[simp] theorem blockAlloc_front {s a1} : front (blockAlloc s a1) = front s := by unfold blockAlloc; split <;> first | rfl | (simp)

@[simp] theorem zeroizeStart_front {s} : front (zeroizeStart s) = front s := by simp [zeroizeStart]; try rfl

@[simp] theorem targetMod_front {s a1 a2} : front (targetMod s a1 a2) = front s := by simp only [targetMod]; rfl

@[simp] theorem pathMod_front {s a1 a2 a3} : front (pathMod s a1 a2 a3) = front s := by simp only [pathMod]; rfl

@[simp] theorem ioSet_front {s a1 a2} : front (ioSet s a1 a2) = front s := by simp only [ioSet]; rfl

end Sys2Proof.Machine
end

