-- ==== Sys2Proof/Laws/FrontUnits.lean ====
section
/-!
SUPPORT. The units' operations leave `front` alone.
-/

namespace Sys2Proof.Machine

@[simp] theorem adminPut_front {s a1 a2 a3 a4} : front (adminPut s a1 a2 a3 a4) = front s := by simp [adminPut]; try rfl

@[simp] theorem sqFetch_front {s a1 a2} : front (sqFetch s a1 a2) = front s := by simp [sqFetch]; try rfl

@[simp] theorem drbgSeed_front {a0 s} : front (drbgSeed a0 s) = front s := by simp only [drbgSeed]; rfl

@[simp] theorem pathSend_front {s a1 a2 a3} : front (pathSend s a1 a2 a3) = front s := by simp [pathSend]; try rfl

@[simp] theorem pduSend_front {a0 a1 a2 s a4} : front (pduSend a0 a1 a2 s a4) = front s := by simp only [pduSend]; (repeat' split) <;> first | rfl | (simp; done) | (simp_all; done)

@[simp] theorem pathFlush_front {s a1 a2} : front (pathFlush s a1 a2) = front s := by simp only [pathFlush]; (repeat' split) <;> first | rfl | (simp; done) | (simp_all; done)

@[simp] theorem pathPost_front {s a1 a2 a3} : front (pathPost s a1 a2 a3) = front s := by simp only [pathPost]; (repeat' split) <;> first | rfl | (simp; done) | (simp_all; done)

@[simp] theorem pathConnect_front {s a1 a2} : front (pathConnect s a1 a2) = front s := by unfold pathConnect; split <;> first | rfl | (simp)

@[simp] theorem pathAdmin_front {s a1 a2 a3 a4 a5 a6} : front (pathAdmin s a1 a2 a3 a4 a5 a6) = front s := by simp [pathAdmin]; try rfl

@[simp] theorem pathIdentify_front {s a1 a2 a3} : front (pathIdentify s a1 a2 a3) = front s := by simp [pathIdentify]; try rfl

@[simp] theorem ioCount_front {s a1 a2 a3 a4 a5 a6 a7} : front (ioCount s a1 a2 a3 a4 a5 a6 a7) = front s := by simp [ioCount]; try rfl

@[simp] theorem shutdownCheck_front {s a1} : front (shutdownCheck s a1) = front s := by unfold shutdownCheck; split <;> first | rfl | (simp)

@[simp] theorem xtsDrop_front {s a1} : front (xtsDrop s a1) = front s := by simp [xtsDrop]; try rfl

@[simp] theorem ioEmit_front {s a1 a2 a3} : front (ioEmit s a1 a2 a3) = front s := by simp only [ioEmit]; (repeat' split) <;> first | rfl | (simp; done) | (simp_all; done)

@[simp] theorem ioSent_front {s a1 a2} : front (ioSent s a1 a2) = front s := by simp [ioSent]; try rfl

@[simp] theorem ioSend_front {s a1} : front (ioSend s a1) = front s := by simp only [ioSend]; (repeat' split) <;> first | rfl | (simp; done) | (simp_all; done)

@[simp] theorem ioReads_front {s a1} : front (ioReads s a1) = front s := by simp [ioReads]; try rfl

@[simp] theorem ioBegin_front {s a1} : front (ioBegin s a1) = front s := by simp only [ioBegin]; (repeat' split) <;> first | rfl | (simp; done) | (simp_all; done)

@[simp] theorem ioStart_front {n s} : front (ioStart n s) = front s := by
  induction n generalizing s with
  | zero => rfl
  | succ n ih => unfold ioStart; (repeat' split) <;> simp [ih]

@[simp] theorem ioStartAll_front {s} : front (ioStartAll s) = front s := by simp [ioStartAll]; try rfl

@[simp] theorem ioLeave_front {s a1} : front (ioLeave s a1) = front s := by simp only [ioLeave]; (repeat' split) <;> first | rfl | (simp; done) | (simp_all; done)

@[simp] theorem ioEnd_front {s a1 a2 a3} : front (ioEnd s a1 a2 a3) = front s := by simp [ioEnd]; try rfl

@[simp] theorem ioFail_front {s a1 a2} : front (ioFail s a1 a2) = front s := by simp [ioFail]; try rfl

@[simp] theorem sqAdvance_front {s a1 a2} : front (sqAdvance s a1 a2) = front s := by simp [sqAdvance]; try rfl

@[simp] theorem ioFetch_front {s a1 a2 a3 a4} : front (ioFetch s a1 a2 a3 a4) = front s := by unfold ioFetch; dsimp only; (repeat' split) <;> first | rfl | (simp; done) | (simp_all; done)

@[simp] theorem ioAt_front {s i q c o st f} (h : ∀ c, front (f c) = front s) : front (ioAt s i q c o st f) = front s := by
  unfold ioAt; (repeat' split) <;> simp [h]

@[simp] theorem ioDeallocate_front {s a1 a2 a3} : front (ioDeallocate s a1 a2 a3) = front s := by simp [ioDeallocate]; try rfl

@[simp] theorem flushSend_front {s a1 a2} : front (flushSend s a1 a2) = front s := by simp only [flushSend]; (repeat' split) <;> first | rfl | (simp; done) | (simp_all; done)

@[simp] theorem ioFlush_front {s i q c} : front (ioFlush s i q c) = front s := by
  unfold ioFlush
  refine ioAt_front (fun c => ?_)
  split <;> simp

@[simp] theorem ioRetry_front {s} : front (ioRetry s) = front s := by simp [ioRetry]; try rfl

@[simp] theorem ioTimeout_front {s a1 a2 a3} : front (ioTimeout s a1 a2 a3) = front s := by simp only [ioTimeout]; (repeat' split) <;> first | rfl | (simp; done) | (simp_all; done)

@[simp] theorem pathAttempt_front {s a1 a2} : front (pathAttempt s a1 a2) = front s := by simp only [pathAttempt]; (repeat' split) <;> first | rfl | (simp; done) | (simp_all; done)

@[simp] theorem pathCheck_front {a0 s a2} : front (pathCheck a0 s a2) = front s := by simp [pathCheck]; try rfl

@[simp] theorem nsWaiters_front {s a1} : front (nsWaiters s a1) = front s := by simp [nsWaiters]; try rfl

@[simp] theorem pathUp_front {s a1 a2 a3 a4} : front (pathUp s a1 a2 a3 a4) = front s := by simp only [pathUp]; (repeat' split) <;> first | rfl | (simp; done) | (simp_all; done)

@[simp] theorem pathDown_front {s a1 a2} : front (pathDown s a1 a2) = front s := by simp [pathDown]; try rfl

@[simp] theorem keepAlive_front {s a1 a2} : front (keepAlive s a1 a2) = front s := by simp only [keepAlive]; (repeat' split) <;> first | rfl | (simp; done) | (simp_all; done)

@[simp] theorem nsLoss_front {s a1} : front (nsLoss s a1) = front s := by unfold nsLoss; dsimp only; (repeat' split) <;> first | rfl | (simp; done) | (simp_all; done)

@[simp] theorem cnp_front {s a1 a2} : front (cnp s a1 a2) = front s := by simp [cnp]; try rfl

@[simp] theorem paceRecover_front {s a1 a2} : front (paceRecover s a1 a2) = front s := by simp [paceRecover]; try rfl

@[simp] theorem remoteAsked_front {a0 s a2} : front (remoteAsked a0 s a2) = front s := by unfold remoteAsked; split <;> first | rfl | (simp)

@[simp] theorem namespaceNow_front {s a1} : front (namespaceNow s a1) = front s := by simp only [namespaceNow]; (repeat' split) <;> first | rfl | (simp; done) | (simp_all; done)

@[simp] theorem namespacesDue_front {s} : front (namespacesDue s) = front s := by simp [namespacesDue]; try rfl

@[simp] theorem ctlStop_front {s a1} : front (ctlStop s a1) = front s := by simp only [ctlStop]; (repeat' split) <;> first | rfl | (simp; done) | (simp_all; done)

@[simp] theorem ctlReset_front {s a1 a2} : front (ctlReset s a1 a2) = front s := by simp [ctlReset]; try rfl

@[simp] theorem ctlForget_front {s a1} : front (ctlForget s a1) = front s := by simp [ctlForget]; try rfl

@[simp] theorem ctlStart_front {s a1} : front (ctlStart s a1) = front s := by unfold ctlStart; split <;> first | rfl | (simp)

@[simp] theorem ctlShut_front {s a1 a2} : front (ctlShut s a1 a2) = front s := by simp [ctlShut]; try rfl

@[simp] theorem nvmeCc_front {s a1 a2} : front (nvmeCc s a1 a2) = front s := by simp only [nvmeCc]; (repeat' split) <;> first | rfl | (simp; done) | (simp_all; done)

@[simp] theorem shutdownTimeout_front {s a1} : front (shutdownTimeout s a1) = front s := by unfold shutdownTimeout; split <;> first | rfl | (simp)

@[simp] theorem nvmeDoorbell_front {s a1 a2 a3} : front (nvmeDoorbell s a1 a2 a3) = front s := by simp [nvmeDoorbell]; try rfl

@[simp] theorem nvmeWrite_front {s a1 a2 a3} : front (nvmeWrite s a1 a2 a3) = front s := by unfold nvmeWrite; (repeat' split) <;> first | rfl | (simp; done) | (simp_all; done)

theorem nvmeAdmin_front {s i e op f} (h : ∀ s c b, front (f s c b).1 = front s) : front (nvmeAdmin s i e op f) = front s := by
  unfold nvmeAdmin; dsimp only
  split
  · rfl
  · rename_i c _
    have h1 := h (sqAdvance s i 0) c (slice e 0 64)
    (repeat' split) <;> (try simp) <;> rename_i h2 <;> rw [h2] at h1 <;> simpa using h1

@[simp] theorem deleteSq_front {s a1 a2} : front (deleteSq s a1 a2).1 = front s := by simp only [deleteSq]; (repeat' split) <;> first | rfl | (simp; done) | (simp_all; done)

@[simp] theorem createSq_front {s a1 a2 a3} : front (createSq s a1 a2 a3).1 = front s := by unfold createSq; dsimp only; (repeat' split) <;> first | rfl | (simp; done) | (simp_all; done)

@[simp] theorem deleteCq_front {s a1 a2 a3} : front (deleteCq s a1 a2 a3).1 = front s := by unfold deleteCq; dsimp only; (repeat' split) <;> first | rfl | (simp; done) | (simp_all; done)

@[simp] theorem createCq_front {s a1 a2 a3} : front (createCq s a1 a2 a3).1 = front s := by unfold createCq; dsimp only; (repeat' split) <;> first | rfl | (simp; done) | (simp_all; done)

@[simp] theorem getLog_front {s a1 a2 a3} : front (getLog s a1 a2 a3).1 = front s := by unfold getLog; dsimp only; (repeat' split) <;> first | rfl | (simp; done) | (simp_all; done)

@[simp] theorem identify_front {s a1 a2 a3} : front (identify s a1 a2 a3).1 = front s := by unfold identify; dsimp only; (repeat' split) <;> first | rfl | (simp; done) | (simp_all; done)

@[simp] theorem abortCmd_front {s a1 a2} : front (abortCmd s a1 a2).1 = front s := by unfold abortCmd; (repeat' split) <;> first | rfl | (simp; done) | (simp_all; done)

@[simp] theorem setFeature_front {s a1 a2 a3} : front (setFeature s a1 a2 a3).1 = front s := by unfold setFeature; (repeat' split) <;> first | rfl | (simp; done) | (simp_all; done)

@[simp] theorem getFeature_front {s a1 a2} : front (getFeature s a1 a2).1 = front s := by unfold getFeature; split <;> first | rfl | (simp)

@[simp] theorem eventRequest_front {s a1 a2 a3} : front (eventRequest s a1 a2 a3).1 = front s := by unfold eventRequest; split <;> first | rfl | (simp)

@[simp] theorem laneJoin_front {s a1 a2} : front (laneJoin s a1 a2) = front s := by simp only [laneJoin]; rfl

/-- A frame of the line side that has been counted: dropped, or let in. -/
theorem rxTaken_front {s t : State} (h : front t = front s) {p : Packet} {m : Nat} :
    front (laneJoin (pktAdd t p).1 m (pktAdd t p).2) = front s := by
  rw [laneJoin_front, pktAdd_front, h]

@[simp] theorem rxFrame_front {s a1 a2 a3 a4 a5 a6} : front (rxFrame s a1 a2 a3 a4 a5 a6) = front s := by
  unfold rxFrame
  split
  · rfl
  · split
    · rfl
    · dsimp only
      generalize hb : (if a6 = 0 then s else statAdd s a1 416 a6) = b
      have h0 : front b = front s := by subst hb; split <;> simp
      split
      · simp [h0]
      · split
        · simp [h0]
        · exact rxTaken_front (by simp [h0])

@[simp] theorem enterLinkFault_front {s a1 a2} : front (enterLinkFault s a1 a2) = front s := by unfold enterLinkFault; (repeat' split) <;> first | rfl | (simp; done) | (simp_all; done)

@[simp] theorem degradeEval_front {s a1} : front (degradeEval s a1) = front s := by unfold degradeEval; dsimp only; (repeat' split) <;> first | rfl | (simp; done) | (simp_all; done)

@[simp] theorem laneMod_front {s a1 a2} : front (laneMod s a1 a2) = front s := by simp only [laneMod]; rfl

@[simp] theorem lanesCheck_front {s a1 a2} : front (lanesCheck s a1 a2) = front s := by simp only [lanesCheck]; rfl

@[simp] theorem lanesEnterTest_front {s a1 a2} : front (lanesEnterTest s a1 a2) = front s := by simp only [lanesEnterTest]; rfl

@[simp] theorem drainDeadline_front {s n} : front (drainDeadline s n) = front s := by
  unfold drainDeadline
  (repeat' split) <;> (try dsimp only) <;> (try split) <;> (try split) <;> simp

@[simp] theorem txStartWrite_front {s a1 a2} : front (txStartWrite s a1 a2) = front s := by simp only [txStartWrite]; rfl

@[simp] theorem prbsWrite_front {s a1 a2} : front (prbsWrite s a1 a2) = front s := by simp [prbsWrite]; try rfl

@[simp] theorem macroDrainEnd_front {s a1} : front (macroDrainEnd s a1) = front s := by simp [macroDrainEnd]; try rfl

@[simp] theorem answerAll_front {s a1} : front (answerAll s a1) = front s := by simp [answerAll]; try rfl

@[simp] theorem macroOff_front {s a1} : front (macroOff s a1) = front s := by simp [macroOff]; try rfl

@[simp] theorem macroPllLoss_front {s a1} : front (macroPllLoss s a1) = front s := by simp only [macroPllLoss]; (repeat' split) <;> first | rfl | (simp; done) | (simp_all; done)

@[simp] theorem gateSet_front {s a1 a2 a3} : front (gateSet s a1 a2 a3) = front s := by simp [gateSet]; try rfl

@[simp] theorem gateNow_front {s a1} : front (gateNow s a1) = front s := by simp only [gateNow]; (repeat' split) <;> first | rfl | (simp; done) | (simp_all; done)

@[simp] theorem gateActivate_front {s a1} : front (gateActivate s a1) = front s := by unfold gateActivate; dsimp only; (repeat' split) <;> first | rfl | (simp; done) | (simp_all; done)

@[simp] theorem sendHead_front {s a1 a2} : front (sendHead s a1 a2) = front s := by unfold sendHead; split <;> first | rfl | (simp)

@[simp] theorem dropHead_front {s a1} : front (dropHead s a1) = front s := by unfold dropHead; split <;> first | rfl | (simp)

@[simp] theorem serveControl_front {u n s} : front (serveControl u n s) = front s := by
  induction n generalizing s with
  | zero => rfl
  | succ n ih => unfold serveControl; split <;> simp [ih]

@[simp] theorem nextFrame_front {u n s} : front (nextFrame u n s) = front s := by
  induction n generalizing s with
  | zero => rfl
  | succ n ih =>
    unfold nextFrame; dsimp only
    split
    · split
      · split <;> simp [ih]
      · simp [ih]
    · split
      · rfl
      · split <;> simp [ih]

@[simp] theorem schedulerSelect_front {s u} : front (schedulerSelect s u) = front s := by
  unfold schedulerSelect; dsimp only
  (repeat' split) <;> simp

@[simp] theorem creditRefill_front {s a1} : front (creditRefill s a1) = front s := by unfold creditRefill; split <;> first | rfl | (simp)

@[simp] theorem lastFrame_front {s a1} : front (lastFrame s a1) = front s := by simp only [lastFrame]; rfl

@[simp] theorem txFrameStart_front {s a1 a2 a3} : front (txFrameStart s a1 a2 a3) = front s := by unfold txFrameStart; (repeat' split) <;> first | rfl | (simp; done) | (simp_all; done)

@[simp] theorem txUnderrun_front {s a1} : front (txUnderrun s a1) = front s := by simp only [txUnderrun]; (repeat' split) <;> first | rfl | (simp; done) | (simp_all; done)

@[simp] theorem captureRecords_front {s a1 a2 a3} : front (captureRecords s a1 a2 a3) = front s := by unfold captureRecords; split <;> first | rfl | (simp)

@[simp] theorem txFrameDepart_front {s a1} : front (txFrameDepart s a1) = front s := by simp only [txFrameDepart]; (repeat' split) <;> first | rfl | (simp; done) | (simp_all; done)

@[simp] theorem hwmCopy_front {s} : front (hwmCopy s) = front s := by simp only [hwmCopy]; rfl

@[simp] theorem producerDoorbell_front {s a1 a2} : front (producerDoorbell s a1 a2) = front s := by unfold producerDoorbell; split <;> first | rfl | (simp)

@[simp] theorem consumerDoorbell_front {s a1 a2} : front (consumerDoorbell s a1 a2) = front s := by simp only [consumerDoorbell]; rfl

@[simp] theorem queueFetch_front {s a1 a2} : front (queueFetch s a1 a2) = front s := by simp only [queueFetch]; (repeat' split) <;> first | rfl | (simp; done) | (simp_all; done)

@[simp] theorem descriptorFetch_front {s a1 a2} : front (descriptorFetch s a1 a2) = front s := by unfold descriptorFetch; dsimp only; (repeat' split) <;> first | rfl | (simp; done) | (simp_all; done)

@[simp] theorem takeDescriptor_front {s a1 a2 a3} : front (takeDescriptor s a1 a2 a3) = front s := by unfold takeDescriptor; split <;> first | rfl | (simp)

@[simp] theorem takeDescriptors_front {q d b i n s} : front (takeDescriptors q d b i n s) = front s := by
  induction n generalizing s i with
  | zero => rfl
  | succ n ih => unfold takeDescriptors; split <;> simp [ih]

@[simp] theorem queueCut_front {s a1} : front (queueCut s a1) = front s := by unfold queueCut; split <;> first | rfl | (simp)

@[simp] theorem hostTxDrop_front {s a1 a2 a3} : front (hostTxDrop s a1 a2 a3) = front s := by unfold hostTxDrop; split <;> first | rfl | (simp)

@[simp] theorem hostFramesDrop_front {s a1 a2} : front (hostFramesDrop s a1 a2) = front s := by unfold hostFramesDrop; split <;> first | rfl | (simp)

@[simp] theorem queueError_front {s a1} : front (queueError s a1) = front s := by simp [queueError]; try rfl

@[simp] theorem descriptorFetchDone_front {s a1 a2 a3} : front (descriptorFetchDone s a1 a2 a3) = front s := by unfold descriptorFetchDone; (repeat' split) <;> first | rfl | (simp; done) | (simp_all; done)

@[simp] theorem sendInject_front {s a1 a2 a3 a4 a5 a6} : front (sendInject s a1 a2 a3 a4 a5 a6) = front s := by simp [sendInject]; try rfl

@[simp] theorem sendInjectAll_front {s a1 a2 a3 a4} : front (sendInjectAll s a1 a2 a3 a4) = front s := by simp [sendInjectAll]; try rfl

@[simp] theorem sendFrameReadDone_front {s a1 a2 a3} : front (sendFrameReadDone s a1 a2 a3) = front s := by unfold sendFrameReadDone; (repeat' split) <;> first | rfl | (simp; done) | (simp_all; done)

@[simp] theorem hostStage_front {s a1 a2} : front (hostStage s a1 a2) = front s := by unfold hostStage; split <;> first | rfl | (simp)

@[simp] theorem hostRxDma_front {s a1} : front (hostRxDma s a1) = front s := by simp only [hostRxDma]; (repeat' split) <;> first | rfl | (simp; done) | (simp_all; done)

@[simp] theorem rxCompletions_front {s q p st bs} : front (rxCompletions s q p st bs) = front s := by
  unfold rxCompletions; dsimp only
  refine front_foldl _ (fun s x => ?_) _ _
  split <;> simp

@[simp] theorem hostDepart_front {s a1 a2 a3} : front (hostDepart s a1 a2 a3) = front s := by unfold hostDepart; dsimp only; (repeat' split) <;> first | rfl | (simp; done) | (simp_all; done)

@[simp] theorem hostRxComplete_front {s a1 a2} : front (hostRxComplete s a1 a2) = front s := by simp only [hostRxComplete]; (repeat' split) <;> first | rfl | (simp; done) | (simp_all; done)

@[simp] theorem eventWrite_front {s a1 a2 a3 a4 a5} : front (eventWrite s a1 a2 a3 a4 a5) = front s := by simp [eventWrite]; try rfl

@[simp] theorem flowToQueue_front {s a1 a2} : front (flowToQueue s a1 a2) = front s := by unfold flowToQueue; (repeat' split) <;> first | rfl | (simp; done) | (simp_all; done)

@[simp] theorem eventPost_front {s a1} : front (eventPost s a1) = front s := by unfold eventPost; (repeat' split) <;> first | rfl | (simp; done) | (simp_all; done)

@[simp] theorem adminAccept_front {s a1 a2} : front (adminAccept s a1 a2) = front s := by simp [adminAccept]; try rfl

@[simp] theorem adminDataRead_front {s a1 a2} : front (adminDataRead s a1 a2) = front s := by simp [adminDataRead]; try rfl

@[simp] theorem adminFetch_front {s a1 a2} : front (adminFetch s a1 a2) = front s := by simp only [adminFetch]; (repeat' split) <;> first | rfl | (simp; done) | (simp_all; done)

@[simp] theorem adminConfig_front {s a1 a2} : front (adminConfig s a1 a2) = front s := by simp [adminConfig]; try rfl

@[simp] theorem queueDisable_front {s a1 a2} : front (queueDisable s a1 a2) = front s := by simp [queueDisable]; try rfl

@[simp] theorem queueEnable_front {s a1} : front (queueEnable s a1) = front s := by simp only [queueEnable]; rfl

@[simp] theorem queueReset_front {a0 s a2} : front (queueReset a0 s a2) = front s := by unfold queueReset; (repeat' split) <;> first | rfl | (simp; done) | (simp_all; done)

@[simp] theorem setVfs_front {s a1 a2 a3} : front (setVfs s a1 a2 a3) = front s := by simp only [setVfs]; rfl

@[simp] theorem featuresOk_front {s a1} : front (featuresOk s a1) = front s := by unfold featuresOk; split <;> first | rfl | (simp)

@[simp] theorem featAccept_front {s a1 a2 a3} : front (featAccept s a1 a2 a3) = front s := by simp only [featAccept]; rfl

@[simp] theorem presetLatch_front {s a1 a2} : front (presetLatch s a1 a2) = front s := by simp [presetLatch]; try rfl

@[simp] theorem genAdvance_front {s a1} : front (genAdvance s a1) = front s := by simp [genAdvance]; try rfl

@[simp] theorem fnReset_front {a0 s a2} : front (fnReset a0 s a2) = front s := by unfold fnReset; dsimp only; (repeat' split) <;> first | rfl | (simp; done) | (simp_all; done)

@[simp] theorem pf0Reset_front {s a1} : front (pf0Reset s a1) = front s := by simp [pf0Reset]; try rfl

@[simp] theorem flr_front {s a1} : front (flr s a1) = front s := by simp [flr]; try rfl

@[simp] theorem resetEvent_front {s a1 a2} : front (resetEvent s a1 a2) = front s := by simp [resetEvent]; try rfl

@[simp] theorem resetEnd_front {s a1} : front (resetEnd s a1) = front s := by unfold resetEnd; split <;> first | rfl | (simp)

@[simp] theorem flrComplete_front {s a1} : front (flrComplete s a1) = front s := by unfold flrComplete; split <;> first | rfl | (simp)

@[simp] theorem epReset_front {s a1} : front (epReset s a1) = front s := by simp [epReset]; try rfl

@[simp] theorem perstAssert_front {s a1} : front (perstAssert s a1) = front s := by simp [perstAssert]; try rfl

@[simp] theorem perstDeassert_front {s a1} : front (perstDeassert s a1) = front s := by simp [perstDeassert]; try rfl

@[simp] theorem configReady_front {s a1} : front (configReady s a1) = front s := by simp [configReady]; try rfl

@[simp] theorem hotReset_front {s a1} : front (hotReset s a1) = front s := by simp [hotReset]; try rfl

@[simp] theorem linkUp_front {s a1 a2 a3 a4} : front (linkUp s a1 a2 a3 a4) = front s := by simp [linkUp]; try rfl

@[simp] theorem msixSend_front {s a1} : front (msixSend s a1) = front s := by unfold msixSend; split <;> first | rfl | (simp)

@[simp] theorem msixUnmask_front {s a1 a2} : front (msixUnmask s a1 a2) = front s := by unfold msixUnmask; split <;> first | rfl | (simp)

@[simp] theorem hostTxReturn_front {s a1} : front (hostTxReturn s a1) = front s := by unfold hostTxReturn; dsimp only; (repeat' split) <;> first | rfl | (simp; done) | (simp_all; done)

@[simp] theorem queuePause_front {s a1} : front (queuePause s a1) = front s := by simp only [queuePause]; rfl

@[simp] theorem nvmePause_front {s a1} : front (nvmePause s a1) = front s := by unfold nvmePause; split <;> first | rfl | (simp)

@[simp] theorem nvmeResume_front {s a1} : front (nvmeResume s a1) = front s := by simp [nvmeResume]; try rfl

@[simp] theorem d3Entry_front {s a1} : front (d3Entry s a1) = front s := by simp only [d3Entry]; (repeat' split) <;> first | rfl | (simp; done) | (simp_all; done)

@[simp] theorem fnResume_front {s a1} : front (fnResume s a1) = front s := by simp only [fnResume]; (repeat' split) <;> first | rfl | (simp; done) | (simp_all; done)

@[simp] theorem d0Return_front {s a1} : front (d0Return s a1) = front s := by simp [d0Return]; try rfl

@[simp] theorem wakeEvent_front {s a1 a2} : front (wakeEvent s a1 a2) = front s := by unfold wakeEvent; split <;> first | rfl | (simp)

@[simp] theorem linkError_front {s a1 a2 a3} : front (linkError s a1 a2 a3) = front s := by unfold linkError; (repeat' split) <;> first | rfl | (simp; done) | (simp_all; done)

@[simp] theorem unexpectedCompletion_front {s a1 a2} : front (unexpectedCompletion s a1 a2) = front s := by simp [unexpectedCompletion]; try rfl

@[simp] theorem timeoutLog_front {s a1} : front (timeoutLog s a1) = front s := by simp [timeoutLog]; try rfl

@[simp] theorem hostInternal_front {s a1} : front (hostInternal s a1) = front s := by simp [hostInternal]; try rfl

@[simp] theorem cfgPut_front {s a1 a2 a3} : front (cfgPut s a1 a2 a3) = front s := by simp only [cfgPut]; rfl

@[simp] theorem sriovWrite_front {s a1 a2 a3} : front (sriovWrite s a1 a2 a3) = front s := by unfold sriovWrite; (repeat' split) <;> first | rfl | (simp; done) | (simp_all; done)

@[simp] theorem deviceControl_front {s a1 a2} : front (deviceControl s a1 a2) = front s := by simp [deviceControl]; try rfl

@[simp] theorem powerWrite_front {s a1 a2} : front (powerWrite s a1 a2) = front s := by simp [powerWrite]; try rfl

@[simp] theorem cfgWrite_front {s a1 a2 a3} : front (cfgWrite s a1 a2 a3) = front s := by unfold cfgWrite; (repeat' split) <;> first | rfl | (simp; done) | (simp_all; done)

@[simp] theorem configRequest_front {s a1 a2 a3} : front (configRequest s a1 a2 a3) = front s := by unfold configRequest; (repeat' split) <;> first | rfl | (simp; done) | (simp_all; done)

@[simp] theorem adminDone_front {s a1 a2} : front (adminDone s a1 a2).1 = front s := by simp [adminDone]; try rfl

@[simp] theorem adminOk_front {s} : front (adminOk s).1 = front s := by simp only [adminOk]; rfl

@[simp] theorem adminFail_front {s a1} : front (adminFail s a1).1 = front s := by simp only [adminFail]; rfl

@[simp] theorem adminLater_front {s} : front (adminLater s).1 = front s := by simp [adminLater]; try rfl

@[simp] theorem proofDone_front {s a1} : front (proofDone s a1).1 = front s := by simp only [proofDone]; rfl

@[simp] theorem proofFail_front {s a1} : front (proofFail s a1).1 = front s := by simp only [proofFail]; rfl

@[simp] theorem adminStart_front {s a1 a2} : front (adminStart s a1 a2) = front s := by simp [adminStart]; try rfl

theorem adminRun_front {s ep e f ok body} (h : ∀ s b, front (body s b).1 = front s) : front (adminRun s ep e f ok body) = front s := by
  unfold adminRun; dsimp only
  split
  · rfl
  · split
    · simp
    · have := h (adminStart s ep (slice e 0 64)) (slice e 0 64)
      split <;> rename_i h2 <;> rw [h2] at this <;> simp_all

@[simp] theorem adminOut_front {s a1 a2 a3} : front (adminOut s a1 a2 a3) = front s := by simp only [adminOut]; (repeat' split) <;> first | rfl | (simp; done) | (simp_all; done)

@[simp] theorem adminRegen_front {s a1 a2} : front (adminRegen s a1 a2) = front s := by simp [adminRegen]; try rfl

@[simp] theorem slabTurn_front {s a1} : front (slabTurn s a1) = front s := by unfold slabTurn; dsimp only; (repeat' split) <;> first | rfl | (simp; done) | (simp_all; done)

@[simp] theorem slabTurns_front {s a1} : front (slabTurns s a1) = front s := by simp [slabTurns]; try rfl

@[simp] theorem runOutput_st {w r y} : (runOutput w r y).st = w.st := by
  unfold runOutput; (repeat' split) <;> rfl

theorem runStep_front {c ws iv w r} : front (runStep c ws iv w r).st = front w.st := by
  unfold runStep; dsimp only; split <;> simp

@[simp] theorem requestIv_front {s a1 a2 a3} : front (requestIv s a1 a2 a3).2 = front s := by unfold requestIv; split <;> first | rfl | (simp)

theorem runs_front {c ws iv} (l : List Run) (w : CipherWork) : front (l.foldl (runStep c ws iv) w).st = front w.st := by
  induction l generalizing w with
  | nil => rfl
  | cons x l ih => simp only [List.foldl, ih, runStep_front]

theorem putCounter_st {ws n w} : (putCounter ws n w).st = w.st := by
  unfold putCounter; dsimp only; (repeat' split) <;> rfl

@[simp] theorem requestRun_front {s i r n} : front (requestRun s i r n) = front s := by
  unfold requestRun; dsimp only
  rw [cphMod_front, runs_front, putCounter_st]
  exact freshBytes_front.trans requestIv_front

@[simp] theorem retryCount_front {s a1} : front (retryCount s a1) = front s := by simp [retryCount]; try rfl

@[simp] theorem requestTaken_front {s a1 a2} : front (requestTaken s a1 a2) = front s := by simp only [requestTaken]; (repeat' split) <;> first | rfl | (simp; done) | (simp_all; done)

@[simp] theorem requestServe_front {s a1 a2 a3 a4} : front (requestServe s a1 a2 a3 a4) = front s := by simp only [requestServe]; (repeat' split) <;> first | rfl | (simp; done) | (simp_all; done)

@[simp] theorem requestAdvance_front {s a1 a2 a3 a4 a5} : front (requestAdvance s a1 a2 a3 a4 a5) = front s := by unfold requestAdvance; (repeat' split) <;> first | rfl | (simp; done) | (simp_all; done)

@[simp] theorem requestRefuse_front {s a1 a2 a3} : front (requestRefuse s a1 a2 a3) = front s := by simp [requestRefuse]; try rfl

@[simp] theorem cipherRequestProcess_front {s i h} : front (cipherRequestProcess s i h) = front s := by
  unfold cipherRequestProcess
  split
  · rfl
  · split
    · split <;> simp
    · generalize ctxPool s i = o
      cases o <;> dsimp only <;>
      · split
        · simp
        · split
          · simp
          · split
            · simp
            · split
              · simp
              · split <;> simp
              · simp

@[simp] theorem cacheFill_front {s a1 a2} : front (cacheFill s a1 a2) = front s := by simp only [cacheFill]; rfl

@[simp] theorem cacheRoom_front {s} : front (cacheRoom s) = front s := by unfold cacheRoom; (repeat' split) <;> first | rfl | (simp; done) | (simp_all; done)

@[simp] theorem keyCacheLoad_front {s a1} : front (keyCacheLoad s a1) = front s := by unfold keyCacheLoad; (repeat' split) <;> first | rfl | (simp; done) | (simp_all; done)

@[simp] theorem requestReturn_front {s a1 a2} : front (requestReturn s a1 a2) = front s := by unfold requestReturn; dsimp only; (repeat' split) <;> first | rfl | (simp; done) | (simp_all; done)

@[simp] theorem cipherUnitFail_front {s a1 a2} : front (cipherUnitFail s a1 a2) = front s := by simp only [cipherUnitFail]; (repeat' split) <;> first | rfl | (simp; done) | (simp_all; done)

@[simp] theorem entropyStartupDone_front {s} : front (entropyStartupDone s) = front s := by simp only [entropyStartupDone]; (repeat' split) <;> first | rfl | (simp; done) | (simp_all; done)

@[simp] theorem entropyStartup_front {s} : front (entropyStartup s) = front s := by simp [entropyStartup]; try rfl

@[simp] theorem entropyHealth_front {s} : front (entropyHealth s) = front s := by simp [entropyHealth]; try rfl

@[simp] theorem zeroizeComplete_front {s} : front (zeroizeComplete s) = front s := by simp [zeroizeComplete]; try rfl

@[simp] theorem ctxLater_front {s a1} : front (ctxLater s a1) = front s := by simp only [ctxLater]; rfl

@[simp] theorem contextCreate_front {a0 s a2} : front (contextCreate a0 s a2).1 = front s := by unfold contextCreate; dsimp only; (repeat' split) <;> first | rfl | (simp; done) | (simp_all; done)

@[simp] theorem contextDestroy_front {s a1} : front (contextDestroy s a1).1 = front s := by unfold contextDestroy; dsimp only; (repeat' split) <;> first | rfl | (simp; done) | (simp_all; done)

@[simp] theorem contextSave_front {a0 s a2} : front (contextSave a0 s a2).1 = front s := by unfold contextSave; dsimp only; (repeat' split) <;> first | rfl | (simp; done) | (simp_all; done)

@[simp] theorem ctxSave_front {s a1 a2 a3 a4} : front (ctxSave s a1 a2 a3 a4) = front s := by simp only [ctxSave]; (repeat' split) <;> first | rfl | (simp; done) | (simp_all; done)

@[simp] theorem contextRestore_front {a0 s a2} : front (contextRestore a0 s a2).1 = front s := by unfold contextRestore; dsimp only; (repeat' split) <;> first | rfl | (simp; done) | (simp_all; done)

@[simp] theorem ctxDelta_front {s a1 a2 a3} : front (ctxDelta s a1 a2 a3) = front s := by unfold ctxDelta; split <;> first | rfl | (simp)

@[simp] theorem ctxRemove_front {s a1} : front (ctxRemove s a1) = front s := by simp [ctxRemove]; try rfl

@[simp] theorem ctxPlace_front {s a1 a2} : front (ctxPlace s a1 a2) = front s := by simp [ctxPlace]; try rfl

@[simp] theorem ctxEffect_front {s a1} : front (ctxEffect s a1) = front s := by simp only [ctxEffect]; (repeat' split) <;> first | rfl | (simp; done) | (simp_all; done)

@[simp] theorem ctxBoundary_front {s} : front (ctxBoundary s) = front s := by simp [ctxBoundary]; try rfl

@[simp] theorem vaultLoad_front {a0 s a2} : front (vaultLoad a0 s a2).1 = front s := by unfold vaultLoad; dsimp only; (repeat' split) <;> first | rfl | (simp; done) | (simp_all; done)

@[simp] theorem namespaceSet_front {a0 s a2} : front (namespaceSet a0 s a2).1 = front s := by unfold namespaceSet; dsimp only; (repeat' split) <;> first | rfl | (simp; done) | (simp_all; done)

@[simp] theorem laneTake_front {s a1 a2} : front (laneTake s a1 a2) = front s := by simp only [laneTake]; rfl

@[simp] theorem prsMod_front {s a1 a2} : front (prsMod s a1 a2) = front s := by simp only [prsMod]; rfl

@[simp] theorem countParse_front {s a1 a2 a3} : front (countParse s a1 a2 a3) = front s := by simp only [countParse]; rfl

@[simp] theorem useMeter_front {s a1 a2 a3 a4} : front (useMeter s a1 a2 a3 a4).1 = front s := by simp [useMeter]; try rfl

@[simp] theorem meterSteps_front {s a1 a2} : front (meterSteps s a1 a2).1 = front s := by unfold meterSteps; dsimp only; (repeat' split) <;> first | rfl | (simp; done) | (simp_all; done)

@[simp] theorem flowJoin_front {s a1} : front (flowJoin s a1) = front s := by simp only [flowJoin]; rfl

@[simp] theorem decisionEnd_front {s a1 a2} : front (decisionEnd s a1 a2) = front s := by unfold decisionEnd; dsimp only; (repeat' split) <;> first | rfl | (simp; done) | (simp_all; done)

@[simp] theorem decision_front {s a1 a2 a3} : front (decision s a1 a2 a3) = front s := by simp only [decision]; (repeat' split) <;> first | rfl | (simp; done) | (simp_all; done)

@[simp] theorem extract_front {s a1 a2 a3} : front (extract s a1 a2 a3) = front s := by unfold extract; dsimp only; (repeat' split) <;> first | rfl | (simp; done) | (simp_all; done)

@[simp] theorem headerLaneEntry_front {s a1} : front (headerLaneEntry s a1) = front s := by unfold headerLaneEntry; (repeat' split) <;> first | rfl | (simp; done) | (simp_all; done)

@[simp] theorem flowPass_front {s a1} : front (flowPass s a1) = front s := by simp [flowPass]; try rfl

@[simp] theorem flowEngine_front {s a1 a2} : front (flowEngine s a1 a2) = front s := by simp [flowEngine]; try rfl

@[simp] theorem flowRefused_front {s a1 a2} : front (flowRefused s a1 a2) = front s := by unfold flowRefused; split <;> first | rfl | (simp)

@[simp] theorem enqueueTake_front {s a1} : front (enqueueTake s a1) = front s := by unfold enqueueTake; split <;> first | rfl | (simp)

@[simp] theorem packetEnqueue_front {s} : front (packetEnqueue s) = front s := by simp only [packetEnqueue]; (repeat' split) <;> first | rfl | (simp; done) | (simp_all; done)

@[simp] theorem enqueueBefore_front {k n s} : front (enqueueBefore k n s) = front s := by
  induction n generalizing s with
  | zero => rfl
  | succ n ih => unfold enqueueBefore; (repeat' split) <;> simp [ih]

@[simp] theorem releaseDeliver_front {s id} : front (releaseDeliver s id) = front s := by simp [releaseDeliver]

@[simp] theorem learnUnitProcess_front {s} : front (learnUnitProcess s) = front s := by unfold learnUnitProcess; dsimp only; (repeat' split) <;> first | rfl | (simp; done) | (simp_all; done)

@[simp] theorem macAgerStep_front {s a1} : front (macAgerStep s a1) = front s := by simp only [macAgerStep]; rfl

@[simp] theorem tableClear_front {s a1 a2} : front (tableClear s a1 a2) = front s := by unfold tableClear; dsimp only; (repeat' split) <;> first | rfl | (simp; done) | (simp_all; done)

@[simp] theorem tableScrubStep_front {s a1 a2 a3} : front (tableScrubStep s a1 a2 a3) = front s := by unfold tableScrubStep; (repeat' split) <;> first | rfl | (simp; done) | (simp_all; done)

@[simp] theorem slotBegin_front {s a1 a2 a3 a4} : front (slotBegin s a1 a2 a3 a4) = front s := by unfold slotBegin; dsimp only; (repeat' split) <;> first | rfl | (simp; done) | (simp_all; done)

@[simp] theorem slotsTake_front {s a1 a2 a3} : front (slotsTake s a1 a2 a3) = front s := by simp only [slotsTake]; rfl

@[simp] theorem batchDispatch_front {s a1 a2 a3} : front (batchDispatch s a1 a2 a3) = front s := by simp only [batchDispatch]; (repeat' split) <;> first | rfl | (simp; done) | (simp_all; done)

@[simp] theorem releaseState_front {s e t b} : front (releaseState s e t b) = front s := by
  unfold releaseState
  have h2 : ∀ (l : List (Nat × W48)) (s : State), front (l.foldl (fun s w => sharedSet s b.cluster w.1 w.2) s) = front s :=
    fun l s => front_foldl _ (fun _ _ => sharedSet_front) _ _
  dsimp only
  split <;> (try rw [timerArm_front]) <;> rw [h2] <;> refine front_foldl _ (fun s x => ?_) _ _ <;> (repeat' split) <;> simp

@[simp] theorem channelDelta_front {s a1} : front (channelDelta s a1) = front s := by unfold channelDelta; split <;> first | rfl | (simp)

@[simp] theorem writeFailed_front {s a1 a2} : front (writeFailed s a1 a2) = front s := by simp only [writeFailed]; rfl

@[simp] theorem landingAdd_front {s a1} : front (landingAdd s a1) = front s := by simp only [landingAdd]; rfl

@[simp] theorem releaseAdds_front {s b} : front (releaseAdds s b) = front s := by
  unfold releaseAdds; dsimp only; refine front_foldl _ ?_ _ _; intros; rfl

@[simp] theorem releaseCiphers_front {s b} : front (releaseCiphers s b) = front s := by
  unfold releaseCiphers
  refine front_foldl _ (fun s x => ?_) _ _
  split <;> simp

@[simp] theorem releaseSends_front {s a1} : front (releaseSends s a1) = front s := by simp [releaseSends]; try rfl

@[simp] theorem packetWrite_front {s a1 a2} : front (packetWrite s a1 a2) = front s := by simp only [packetWrite]; rfl

@[simp] theorem releasePkt_front {s a1 a2 a3 a4} : front (releasePkt s a1 a2 a3 a4) = front s := by
  unfold releasePkt; dsimp only
  split
  · simp
  · split
    all_goals first | (simp; done) | (split <;> simp)

@[simp] theorem releaseEffect_front {s a1 a2} : front (releaseEffect s a1 a2) = front s := by unfold releaseEffect; split <;> first | rfl | (simp)

@[simp] theorem releaseKept_front {s a1} : front (releaseKept s a1) = front s := by simp only [releaseKept]; rfl

@[simp] theorem slotOverrun_front {s a1 a2} : front (slotOverrun s a1 a2) = front s := by unfold slotOverrun; split <;> first | rfl | (simp)

@[simp] theorem migrationCopyEnd_front {s a1 a2} : front (migrationCopyEnd s a1 a2) = front s := by unfold migrationCopyEnd; dsimp only; (repeat' split) <;> first | rfl | (simp; done) | (simp_all; done)

@[simp] theorem timerFire_front {s a1 a2} : front (timerFire s a1 a2) = front s := by simp [timerFire]; try rfl

@[simp] theorem hbmResultLanding_front {s} : front (hbmResultLanding s) = front s := by unfold hbmResultLanding; dsimp only; (repeat' split) <;> first | rfl | (simp; done) | (simp_all; done)

@[simp] theorem sharedMemError_front {s a1 a2} : front (sharedMemError s a1 a2) = front s := by simp [sharedMemError]; try rfl

@[simp] theorem imemScrub_front {s a1 a2 a3} : front (imemScrub s a1 a2 a3) = front s := by simp [imemScrub]; try rfl

@[simp] theorem imemRewrite_front {s} : front (imemRewrite s) = front s := by simp only [imemRewrite]; rfl

@[simp] theorem restartsDue_front {s} : front (restartsDue s) = front s := by simp [restartsDue]; try rfl

@[simp] theorem engineSelftestEnd_front {s a1} : front (engineSelftestEnd s a1) = front s := by unfold engineSelftestEnd; (repeat' split) <;> first | rfl | (simp; done) | (simp_all; done)

@[simp] theorem checkerRecord_front {s a1} : front (checkerRecord s a1).1 = front s := by unfold checkerRecord; split <;> first | rfl | (simp)

@[simp] theorem faultReportCmd_front {s a1} : front (faultReportCmd s a1) = front s := by simp only [faultReportCmd]; (repeat' split) <;> first | rfl | (simp; done) | (simp_all; done)

@[simp] theorem injWrite_front {s a1} : front (injWrite s a1) = front s := by simp only [injWrite]; rfl

@[simp] theorem forceWrite_front {s a1} : front (forceWrite s a1) = front s := by unfold forceWrite; dsimp only; (repeat' split) <;> first | rfl | (simp; done) | (simp_all; done)

@[simp] theorem clockLoss_front {s a1} : front (clockLoss s a1) = front s := by simp [clockLoss]; try rfl

@[simp] theorem sensorRead_front {s a1 a2} : front (sensorRead s a1 a2) = front s := by simp only [sensorRead]; rfl

@[simp] theorem channelFail_front {s a1} : front (channelFail s a1) = front s := by simp only [channelFail]; rfl

@[simp] theorem channelError_front {s a1} : front (channelError s a1) = front s := by simp [channelError]; try rfl

@[simp] theorem secMod_front {s a1} : front (secMod s a1) = front s := by simp only [secMod]; rfl

@[simp] theorem alarmMod_front {s a1 a2} : front (alarmMod s a1 a2) = front s := by simp only [alarmMod]; rfl

@[simp] theorem vbatLost_front {s} : front (vbatLost s) = front s := by simp [vbatLost]; try rfl

@[simp] theorem alarmDetect_front {s a1} : front (alarmDetect s a1) = front s := by simp [alarmDetect]; try rfl

@[simp] theorem alarmCause_front {s a1 a2} : front (alarmCause s a1 a2) = front s := by simp [alarmCause]; try rfl

@[simp] theorem alarmAck_front {s a1} : front (alarmAck s a1) = front s := by simp [alarmAck]; try rfl

@[simp] theorem ref100Loss_front {s} : front (ref100Loss s) = front s := by simp only [ref100Loss]; (repeat' split) <;> first | rfl | (simp; done) | (simp_all; done)

end Sys2Proof.Machine
end

