-- ==== Sys2Proof/Laws/FrontCommands.lean ====
section
/-!
SUPPORT. The commands' operations leave `front` alone.
-/

namespace Sys2Proof.Machine

@[simp] theorem dmaCharge_front {s a1 a2} : front (dmaCharge s a1 a2) = front s := by simp [dmaCharge]; try rfl

@[simp] theorem dmaFailAddr_front {s a1 a2 a3} : front (dmaFailAddr s a1 a2 a3).2 = front s := by unfold dmaFailAddr; dsimp only; (repeat' split) <;> first | rfl | (simp; done) | (simp_all; done)

@[simp] theorem dmaLog_front {s a1 a2} : front (dmaLog s a1 a2) = front s := by simp [dmaLog]; try rfl

@[simp] theorem coalesceDue_front {s} : front (coalesceDue s) = front s := by simp [coalesceDue]; try rfl

@[simp] theorem pathTick_front {s a1 a2} : front (pathTick s a1 a2) = front s := by simp [pathTick]; try rfl

@[simp] theorem pathsTick_front {s} : front (pathsTick s) = front s := by simp [pathsTick]; try rfl

@[simp] theorem xtsFeed_front {s a1} : front (xtsFeed s a1) = front s := by simp [xtsFeed]; try rfl

@[simp] theorem xtsBegin_front {s a1} : front (xtsBegin s a1) = front s := by simp [xtsBegin]; try rfl

@[simp] theorem ioOnward_front {s a1} : front (ioOnward s a1) = front s := by unfold ioOnward; split <;> first | rfl | (simp)

@[simp] theorem ioThrough_front {s a1} : front (ioThrough s a1) = front s := by simp [ioThrough]; try rfl

@[simp] theorem xtsEnd_front {s a1} : front (xtsEnd s a1) = front s := by unfold xtsEnd; split <;> first | rfl | (simp)

@[simp] theorem xtsSettle_front {s} : front (xtsSettle s) = front s := by simp [xtsSettle]; try rfl

@[simp] theorem ioAnswered_front {s a1 a2 a3} : front (ioAnswered s a1 a2 a3) = front s := by unfold ioAnswered; dsimp only; (repeat' split) <;> first | rfl | (simp; done) | (simp_all; done)

@[simp] theorem ioPulled_front {s a1 a2 a3 a4 a5 a6} : front (ioPulled s a1 a2 a3 a4 a5 a6) = front s := by unfold ioPulled; split <;> first | rfl | (simp)

@[simp] theorem pathPorts_front {s} : front (pathPorts s) = front s := by
  unfold pathPorts
  refine front_foldl _ (fun s e => front_foldl _ (fun s p => ?_) _ _) _ _
  split
  · split <;> simp
  · rfl

@[simp] theorem storageTick_front {s} : front (storageTick s) = front s := by simp [storageTick]; try rfl

@[simp] theorem macAgedEnd_front {s a1} : front (macAgedEnd s a1) = front s := by unfold macAgedEnd; split <;> first | rfl | (simp)

@[simp] theorem rstMod_front {s a1} : front (rstMod s a1) = front s := by simp only [rstMod]; rfl

@[simp] theorem journalResume_front {s} : front (journalResume s) = front s := by unfold journalResume; split <;> first | rfl | (simp)

@[simp] theorem mailboxesAborted_front {s} : front (mailboxesAborted s) = front s := by simp only [mailboxesAborted]; rfl

@[simp] theorem supervisorReset_front {s c} : front (supervisorReset s c) = front s := by simp [supervisorReset]; try rfl

@[simp] theorem supervisorResume_front {s a1} : front (supervisorResume s a1) = front s := by simp [supervisorResume]; try rfl

@[simp] theorem tickLoRead_front {s a1} : front (tickLoRead s a1) = front s := by simp only [tickLoRead]; rfl

@[simp] theorem slotTableMod_front {s a1 a2} : front (slotTableMod s a1 a2) = front s := by simp [slotTableMod]; try rfl

@[simp] theorem actLoRead_front {s a1 a2} : front (actLoRead s a1 a2) = front s := by simp [actLoRead]; try rfl

@[simp] theorem todWrite_front {s a1} : front (todWrite s a1) = front s := by unfold todWrite; split <;> first | rfl | (simp)

@[simp] theorem stageSlots_front {a0 s a2} : front (stageSlots a0 s a2).1 = front s := by unfold stageSlots; dsimp only; (repeat' split) <;> first | rfl | (simp; done) | (simp_all; done)

@[simp] theorem setDemand_front {a0 s a2} : front (setDemand a0 s a2).1 = front s := by unfold setDemand; dsimp only; (repeat' split) <;> first | rfl | (simp; done) | (simp_all; done)

@[simp] theorem bindChannel_front {a0 s a2} : front (bindChannel a0 s a2).1 = front s := by unfold bindChannel; dsimp only; (repeat' split) <;> first | rfl | (simp; done) | (simp_all; done)

@[simp] theorem channelUnbind_front {s a1} : front (channelUnbind s a1) = front s := by simp [channelUnbind]; try rfl

@[simp] theorem unbindChannel_front {s a1} : front (unbindChannel s a1).1 = front s := by unfold unbindChannel; dsimp only; (repeat' split) <;> first | rfl | (simp; done) | (simp_all; done)

@[simp] theorem sendToChannel_front {a0 s a2} : front (sendToChannel a0 s a2).1 = front s := by simp [sendToChannel]; try rfl

@[simp] theorem setQueueMin_front {s a1} : front (setQueueMin s a1).1 = front s := by unfold setQueueMin; dsimp only; (repeat' split) <;> first | rfl | (simp; done) | (simp_all; done)

@[simp] theorem setMeters_front {a0 s a2} : front (setMeters a0 s a2).1 = front s := by unfold setMeters; dsimp only; (repeat' split) <;> first | rfl | (simp; done) | (simp_all; done)

@[simp] theorem holdFirmware_front {s a1 a2} : front (holdFirmware s a1 a2) = front s := by simp [holdFirmware]; try rfl

@[simp] theorem heldReports_front {s} : front (heldReports s) = front s := by simp only [heldReports]; rfl

@[simp] theorem enterRecovery_front {s} : front (enterRecovery s) = front s := by simp only [enterRecovery]; rfl

@[simp] theorem testDecide_front {s} : front (testDecide s) = front s := by simp only [testDecide]; rfl

@[simp] theorem optionByteRead_front {s} : front (optionByteRead s) = front s := by unfold optionByteRead; (repeat' split) <;> first | rfl | (simp; done) | (simp_all; done)

@[simp] theorem vbatRecord_front {s} : front (vbatRecord s) = front s := by simp [vbatRecord]; try rfl

@[simp] theorem resetRecord_front {s} : front (resetRecord s) = front s := by simp [resetRecord]; try rfl

@[simp] theorem versionStart_front {s} : front (versionStart s) = front s := by simp only [versionStart]; rfl

@[simp] theorem macrosReleased_front {s} : front (macrosReleased s) = front s := by simp [macrosReleased]; try rfl

@[simp] theorem endpointsReleased_front {s} : front (endpointsReleased s) = front s := by simp [endpointsReleased]; try rfl

@[simp] theorem releasesEnd_front {s} : front (releasesEnd s) = front s := by simp [releasesEnd]; try rfl

@[simp] theorem applyForward_front {s a1} : front (applyForward s a1) = front s := by simp only [applyForward]; rfl

@[simp] theorem applyEngines_front {s a1} : front (applyEngines s a1) = front s := by simp [applyEngines]; try rfl

@[simp] theorem gateLoad_front {s a1 a2} : front (gateLoad s a1 a2) = front s := by simp only [gateLoad]; (repeat' split) <;> first | rfl | (simp; done) | (simp_all; done)

@[simp] theorem applyQueues_front {s a1 a2} : front (applyQueues s a1 a2) = front s := by simp only [applyQueues]; (repeat' split) <;> first | rfl | (simp; done) | (simp_all; done)

@[simp] theorem applyPolicy_front {s a1} : front (applyPolicy s a1) = front s := by simp [applyPolicy]; try rfl

@[simp] theorem applyRecipe_front {s a1} : front (applyRecipe s a1) = front s := by simp [applyRecipe]; try rfl

@[simp] theorem slotResult_front {s a1 a2 a3} : front (slotResult s a1 a2 a3) = front s := by simp only [slotResult]; rfl

@[simp] theorem slotApplied_front {s a1 a2} : front (slotApplied s a1 a2) = front s := by simp [slotApplied]; try rfl

@[simp] theorem slotFailed_front {s} : front (slotFailed s) = front s := by unfold slotFailed; split <;> first | rfl | (simp)

@[simp] theorem recipeSlotLoad_front {s a1 a2} : front (recipeSlotLoad s a1 a2) = front s := by simp only [recipeSlotLoad]; (repeat' split) <;> first | rfl | (simp; done) | (simp_all; done)

@[simp] theorem engineSelftest_front {a0 s a2} : front (engineSelftest a0 s a2).1 = front s := by unfold engineSelftest; dsimp only; (repeat' split) <;> first | rfl | (simp; done) | (simp_all; done)

@[simp] theorem slabTest_front {a0 s a2} : front (slabTest a0 s a2).1 = front s := by unfold slabTest; dsimp only; (repeat' split) <;> first | rfl | (simp; done) | (simp_all; done)

@[simp] theorem hbmRetire_front {a0 s a2} : front (hbmRetire a0 s a2).1 = front s := by unfold hbmRetire; split <;> first | rfl | (simp)

@[simp] theorem faultAckAdmin_front {s a1} : front (faultAckAdmin s a1).1 = front s := by simp [faultAckAdmin]; try rfl

@[simp] theorem faultAckRegister_front {s a1} : front (faultAckRegister s a1) = front s := by simp [faultAckRegister]; try rfl

@[simp] theorem nvmRead_front {a0 s a2} : front (nvmRead a0 s a2).1 = front s := by unfold nvmRead; split <;> first | rfl | (simp)

@[simp] theorem ownerKeySet_front {s a1 a2} : front (ownerKeySet s a1 a2) = front s := by simp only [ownerKeySet]; rfl

@[simp] theorem ownerKeyProgram_front {a0 s a2} : front (ownerKeyProgram a0 s a2).1 = front s := by unfold ownerKeyProgram; split <;> first | rfl | (simp)

theorem portRun_front {a ep e body s} (h : ∀ s n p, front (body s n p).1 = front s) :
    front (portRun a ep e body s) = front s := by
  unfold portRun; dsimp only; split
  · refine adminRun_front (fun s b => ?_)
    split
    · rfl
    · exact h _ _ _
  · rfl

@[simp] theorem portAdminDown_front {s a1 a2} : front (portAdminDown s a1 a2).1 = front s := by unfold portAdminDown; (repeat' split) <;> first | rfl | (simp; done) | (simp_all; done)

@[simp] theorem portAdminTraining_front {s a1 a2} : front (portAdminTraining s a1 a2).1 = front s := by unfold portAdminTraining; (repeat' split) <;> first | rfl | (simp; done) | (simp_all; done)

@[simp] theorem portAdminTest_front {s a1 a2} : front (portAdminTest s a1 a2).1 = front s := by unfold portAdminTest; (repeat' split) <;> first | rfl | (simp; done) | (simp_all; done)

@[simp] theorem portSpeed_front {s a1} : front (portSpeed s a1).1 = front s := by unfold portSpeed; dsimp only; (repeat' split) <;> first | rfl | (simp; done) | (simp_all; done)

theorem macroRun_front {a ep e body s} (h : ∀ s n m w, front (body s n m w).1 = front s) :
    front (macroRun a ep e body s) = front s := by
  unfold macroRun; dsimp only; split
  · refine adminRun_front (fun s b => ?_)
    split
    · rfl
    · exact h _ _ _ _
  · rfl

@[simp] theorem macroPowerDown_front {s a1 a2 a3} : front (macroPowerDown s a1 a2 a3).1 = front s := by unfold macroPowerDown; split <;> first | rfl | (simp)

@[simp] theorem macroPowerUp_front {s a1 a2 a3} : front (macroPowerUp s a1 a2 a3).1 = front s := by unfold macroPowerUp; split <;> first | rfl | (simp)

@[simp] theorem gateStage_front {s a1 a2} : front (gateStage s a1 a2) = front s := by simp only [gateStage]; rfl

@[simp] theorem stageGateList_front {a0 s a2} : front (stageGateList a0 s a2).1 = front s := by unfold stageGateList; dsimp only; (repeat' split) <;> first | rfl | (simp; done) | (simp_all; done)

@[simp] theorem createQueue_front {s a1} : front (createQueue s a1).1 = front s := by unfold createQueue; dsimp only; (repeat' split) <;> first | rfl | (simp; done) | (simp_all; done)

@[simp] theorem queueDestroy_front {s a1} : front (queueDestroy s a1) = front s := by unfold queueDestroy; (repeat' split) <;> first | rfl | (simp; done) | (simp_all; done)

@[simp] theorem destroyQueue_front {s a1} : front (destroyQueue s a1).1 = front s := by unfold destroyQueue; (repeat' split) <;> first | rfl | (simp; done) | (simp_all; done)

@[simp] theorem enableQueue_front {s a1} : front (enableQueue s a1).1 = front s := by unfold enableQueue; split <;> first | rfl | (simp)

@[simp] theorem disableQueue_front {a0 s a2} : front (disableQueue a0 s a2).1 = front s := by unfold disableQueue; split <;> first | rfl | (simp)

@[simp] theorem queryQueue_front {s a1} : front (queryQueue s a1).1 = front s := by unfold queryQueue; split <;> first | rfl | (simp)

@[simp] theorem createVf_front {a0 s a2} : front (createVf a0 s a2).1 = front s := by unfold createVf; dsimp only; (repeat' split) <;> first | rfl | (simp; done) | (simp_all; done)

@[simp] theorem vfRemove_front {s a1} : front (vfRemove s a1) = front s := by unfold vfRemove; dsimp only; (repeat' split) <;> first | rfl | (simp; done) | (simp_all; done)

@[simp] theorem destroyVf_front {a0 s a2} : front (destroyVf a0 s a2).1 = front s := by unfold destroyVf; dsimp only; (repeat' split) <;> first | rfl | (simp; done) | (simp_all; done)

@[simp] theorem queryFunction_front {s a1} : front (queryFunction s a1).1 = front s := by unfold queryFunction; dsimp only; (repeat' split) <;> first | rfl | (simp; done) | (simp_all; done)

@[simp] theorem ptpMod_front {s a1 a2} : front (ptpMod s a1 a2) = front s := by simp only [ptpMod]; rfl

@[simp] theorem ptpFollow_front {s} : front (ptpFollow s) = front s := by unfold ptpFollow; split <;> first | rfl | (simp)

@[simp] theorem ptpMeasure_front {s a1 a2 a3} : front (ptpMeasure s a1 a2 a3) = front s := by simp [ptpMeasure]; try rfl

@[simp] theorem ptpRx_front {s a1 a2 a3 a4 a5} : front (ptpRx s a1 a2 a3 a4 a5) = front s := by simp only [ptpRx]; (repeat' split) <;> first | rfl | (simp; done) | (simp_all; done)

@[simp] theorem tableWrite_front {d data s b} : front (tableWrite d data s b).1 = front s := by
  unfold tableWrite; split
  · rename_i h; exact writeTables_front _ h
  · rfl

theorem hostWrites_front {e fn data} (l : List (Nat × Nat)) (x : State × Nat) :
    front (l.foldl (fun (a : State × Nat) g => (hostWrite a.1 e fn g.1 (slice data a.2 g.2), a.2 + g.2)) x).1 = front x.1 :=
  front_foldl_fst (fun (a : State × Nat) (g : Nat × Nat) => (hostWrite a.1 e fn g.1 (slice data a.2 g.2), a.2 + g.2))
    (fun _ _ => hostWrite_front) _ _

@[simp] theorem tableRun_front {op ep e d s} : front (tableRun op ep e d s) = front s := by
  unfold tableRun; dsimp only
  (repeat' split) <;> (try rfl)
  exact adminRun_front (fun _ _ => tableWrite_front)

@[simp] theorem macApply_front {s a1 a2 a3} : front (macApply s a1 a2 a3) = front s := by simp [macApply]; try rfl

@[simp] theorem macInsert_front {s a1} : front (macInsert s a1).1 = front s := by unfold macInsert; dsimp only; (repeat' split) <;> first | rfl | (simp; done) | (simp_all; done)

@[simp] theorem macMove_front {s a1} : front (macMove s a1).1 = front s := by unfold macMove; dsimp only; (repeat' split) <;> first | rfl | (simp; done) | (simp_all; done)

@[simp] theorem macDelete_front {s a1} : front (macDelete s a1).1 = front s := by unfold macDelete; dsimp only; (repeat' split) <;> first | rfl | (simp; done) | (simp_all; done)

theorem macRun_front {op ep e body s} (h : ∀ s b, front (body s b).1 = front s) : front (macRun op ep e body s) = front s := by
  unfold macRun; dsimp only; (repeat' split) <;> simp [adminRun_front h]

@[simp] theorem versionCommit_front {s a1} : front (versionCommit s a1).1 = front s := by unfold versionCommit; split <;> first | rfl | (simp)

@[simp] theorem versionSelect_front {s a1 a2} : front (versionSelect s a1 a2).1 = front s := by simp only [versionSelect]; (repeat' split) <;> first | rfl | (simp; done) | (simp_all; done)

@[simp] theorem tableRead_front {a0 s a2} : front (tableRead a0 s a2).1 = front s := by unfold tableRead; split <;> first | rfl | (simp)

@[simp] theorem cutRequest_front {s a1} : front (cutRequest s a1).1 = front s := by simp [cutRequest]; try rfl

@[simp] theorem cutRead_front {a0 s a2} : front (cutRead a0 s a2).1 = front s := by unfold cutRead; (repeat' split) <;> first | rfl | (simp; done) | (simp_all; done)

@[simp] theorem timeConfig_front {a0 s a2} : front (timeConfig a0 s a2).1 = front s := by unfold timeConfig; dsimp only; (repeat' split) <;> first | rfl | (simp; done) | (simp_all; done)

@[simp] theorem mirMod_front {s a1} : front (mirMod s a1) = front s := by simp only [mirMod]; rfl

@[simp] theorem mirrorEmit_front {s a1 a2 a3} : front (mirrorEmit s a1 a2 a3) = front s := by simp only [mirrorEmit]; rfl

@[simp] theorem mirrorSend_front {s a1 a2} : front (mirrorSend s a1 a2) = front s := by simp [mirrorSend]; try rfl

@[simp] theorem mirrorTook_front {s} : front (mirrorTook s) = front s := by simp only [mirrorTook]; rfl

@[simp] theorem blocksMap_front {s a1} : front (blocksMap s a1) = front s := by simp only [blocksMap]; rfl

@[simp] theorem ackTake_front {s a1} : front (ackTake s a1) = front s := by simp [ackTake]; try rfl

@[simp] theorem planLocal_front {s a1 a2 a3} : front (planLocal s a1 a2 a3) = front s := by simp [planLocal]; try rfl

@[simp] theorem outOfStep_front {s} : front (outOfStep s) = front s := by simp only [outOfStep]; rfl

@[simp] theorem recordIn_front {s n f} (h : ∀ s, front (f s) = front s) : front (recordIn s n f) = front s := by
  unfold recordIn; split
  · rfl
  · dsimp only; split <;> simp [h]

@[simp] theorem frameIn_front {s f} (h : ∀ s, front (f s) = front s) : front (frameIn s f) = front s := by
  unfold frameIn; split <;> simp [h]

@[simp] theorem ordApply_front {s a1 a2} : front (ordApply s a1 a2) = front s := by unfold ordApply; dsimp only; (repeat' split) <;> first | rfl | (simp; done) | (simp_all; done)

@[simp] theorem ordReceived_front {s a1 a2 a3 a4} : front (ordReceived s a1 a2 a3 a4) = front s := by unfold ordReceived; split <;> first | rfl | (simp)

@[simp] theorem verReceived_front {s a1 a2 a3} : front (verReceived s a1 a2 a3) = front s := by unfold verReceived; split <;> first | rfl | (simp)

@[simp] theorem planReceived_front {s a1 a2 a3} : front (planReceived s a1 a2 a3) = front s := by unfold planReceived; dsimp only; (repeat' split) <;> first | rfl | (simp; done) | (simp_all; done)

@[simp] theorem channelWords_front {s a1 a2 a3} : front (channelWords s a1 a2 a3) = front s := by unfold channelWords; split <;> first | rfl | (simp)

@[simp] theorem channelReceived_front {s a1 a2} : front (channelReceived s a1 a2) = front s := by simp [channelReceived]; try rfl

@[simp] theorem hwmReceived_front {s a1 a2} : front (hwmReceived s a1 a2) = front s := by simp only [hwmReceived]; rfl

@[simp] theorem contextReceived_front {s a1 a2 a3} : front (contextReceived s a1 a2 a3) = front s := by unfold contextReceived; split <;> first | rfl | (simp)

@[simp] theorem gateReceived_front {s a1} : front (gateReceived s a1) = front s := by simp [gateReceived]; try rfl

@[simp] theorem cutReceived_front {s a1 a2 a3 a4 a5} : front (cutReceived s a1 a2 a3 a4 a5) = front s := by simp [cutReceived]; try rfl

@[simp] theorem takeover_front {s a1} : front (takeover s a1) = front s := by simp only [takeover]; rfl

@[simp] theorem mirrorTrain_front {s} : front (mirrorTrain s) = front s := by simp [mirrorTrain]; try rfl

@[simp] theorem mirrorTrainFail_front {s} : front (mirrorTrainFail s) = front s := by unfold mirrorTrainFail; split <;> first | rfl | (simp)

@[simp] theorem mirrorHalfUp_front {s a1} : front (mirrorHalfUp s a1) = front s := by simp [mirrorHalfUp]; try rfl

@[simp] theorem linkLose_front {s} : front (linkLose s) = front s := by simp [linkLose]; try rfl

@[simp] theorem mirrorHalfDown_front {s a1} : front (mirrorHalfDown s a1) = front s := by simp [mirrorHalfDown]; try rfl

@[simp] theorem mirrorRetransmit_front {s} : front (mirrorRetransmit s) = front s := by simp [mirrorRetransmit]; try rfl

@[simp] theorem partnerTime_front {s a1 a2 a3} : front (partnerTime s a1 a2 a3) = front s := by simp [partnerTime]; try rfl

@[simp] theorem joinPlan_front {s} : front (joinPlan s) = front s := by unfold joinPlan; split <;> first | rfl | (simp)

@[simp] theorem heartbeatRx_front {s a1 a2 a3 a4 a5} : front (heartbeatRx s a1 a2 a3 a4 a5) = front s := by simp [heartbeatRx]; try rfl

@[simp] theorem deltaEnd_front {s} : front (deltaEnd s) = front s := by simp [deltaEnd]; try rfl

@[simp] theorem syncRequested_front {s a1 a2} : front (syncRequested s a1 a2) = front s := by simp [syncRequested]; try rfl

@[simp] theorem syncEntry_front {s a1} : front (syncEntry s a1) = front s := by unfold syncEntry; split <;> first | rfl | (simp)

@[simp] theorem mirSwap_front {s} : front (mirSwap s) = front s := by simp [mirSwap]; try rfl

@[simp] theorem mirForce_front {s} : front (mirForce s) = front s := by simp [mirForce]; try rfl

@[simp] theorem mirLeave_front {s} : front (mirLeave s) = front s := by simp [mirLeave]; try rfl

@[simp] theorem exportDepart_front {s} : front (exportDepart s) = front s := by unfold exportDepart; split <;> first | rfl | (simp)

@[simp] theorem commitNow_front {s a1} : front (commitNow s a1) = front s := by simp only [commitNow]; (repeat' split) <;> first | rfl | (simp; done) | (simp_all; done)

@[simp] theorem selectNow_front {s} : front (selectNow s) = front s := by unfold selectNow; (repeat' split) <;> first | rfl | (simp; done) | (simp_all; done)

@[simp] theorem selectPlanned_front {s a1} : front (selectPlanned s a1) = front s := by simp [selectPlanned]; try rfl

@[simp] theorem commitTimeout_front {s} : front (commitTimeout s) = front s := by simp only [commitTimeout]; (repeat' split) <;> first | rfl | (simp; done) | (simp_all; done)

@[simp] theorem versionLocal_front {s} : front (versionLocal s) = front s := by unfold versionLocal; (repeat' split) <;> first | rfl | (simp; done) | (simp_all; done)

@[simp] theorem versionPlan_front {s} : front (versionPlan s) = front s := by simp only [versionPlan]; (repeat' split) <;> first | rfl | (simp; done) | (simp_all; done)

@[simp] theorem joinNow_front {s a1} : front (joinNow s a1) = front s := by simp [joinNow]; try rfl

@[simp] theorem swapNow_front {s} : front (swapNow s) = front s := by simp only [swapNow]; rfl

@[simp] theorem planNow_front {s a1} : front (planNow s a1) = front s := by unfold planNow; split <;> first | rfl | (simp)

@[simp] theorem plansDue_front {s} : front (plansDue s) = front s := by simp [plansDue]; try rfl

@[simp] theorem evidenceUpdate_front {s} : front (evidenceUpdate s) = front s := by simp [evidenceUpdate]; try rfl

@[simp] theorem pollStart_front {s} : front (pollStart s) = front s := by simp [pollStart]; try rfl

@[simp] theorem staleNow_front {s} : front (staleNow s) = front s := by simp [staleNow]; try rfl

@[simp] theorem soloMeet_front {s} : front (soloMeet s) = front s := by unfold soloMeet; split <;> first | rfl | (simp)

@[simp] theorem syncRequest_front {s} : front (syncRequest s) = front s := by simp [syncRequest]; try rfl

@[simp] theorem staleLeave_front {s} : front (staleLeave s) = front s := by unfold staleLeave; (repeat' split) <;> first | rfl | (simp; done) | (simp_all; done)

@[simp] theorem syncDrop_front {s} : front (syncDrop s) = front s := by simp [syncDrop]; try rfl

@[simp] theorem leaderStep_front {s} : front (leaderStep s) = front s := by unfold leaderStep; (repeat' split) <;> first | rfl | (simp; done) | (simp_all; done)

@[simp] theorem syncBegin_front {s} : front (syncBegin s) = front s := by simp [syncBegin]; try rfl

@[simp] theorem syncRun_front {n b s} : front (syncRun n b s) = front s := by
  induction n generalizing s b with
  | zero => rfl
  | succ n ih => unfold syncRun; (repeat' split) <;> simp [ih]

@[simp] theorem mirrorSyncSend_front {s a1} : front (mirrorSyncSend s a1) = front s := by simp [mirrorSyncSend]; try rfl

@[simp] theorem deltaSend_front {s a1} : front (deltaSend s a1) = front s := by simp [deltaSend]; try rfl

@[simp] theorem heartbeatSend_front {s a1} : front (heartbeatSend s a1) = front s := by simp [heartbeatSend]; try rfl

@[simp] theorem pairBoundary_front {s} : front (pairBoundary s) = front s := by simp [pairBoundary]; try rfl

@[simp] theorem versionBoundary_front {s} : front (versionBoundary s) = front s := by simp [versionBoundary]; try rfl

@[simp] theorem pairSend_front {s a1 a2} : front (pairSend s a1 a2) = front s := by simp [pairSend]; try rfl

@[simp] theorem sbTake_front {s a1} : front (sbTake s a1) = front s := by simp only [sbTake]; rfl

@[simp] theorem portHalt_front {s a1 a2} : front (portHalt s a1 a2) = front s := by unfold portHalt; (repeat' split) <;> first | rfl | (simp; done) | (simp_all; done)

@[simp] theorem sbVersionSelect_front {s t v} : front (sbVersionSelect s t v) = front s := by
  unfold sbVersionSelect
  split
  · simp
  · split
    · simp
    · split
      · simp
      · have := @versionSelect_front s v.toNat .sideband
        split <;> rename_i h2 <;> rw [h2] at this
        · simpa using this
        · exact this

@[simp] theorem sbRequestRx_front {s a1} : front (sbRequestRx s a1) = front s := by unfold sbRequestRx; (repeat' split) <;> first | rfl | (simp; done) | (simp_all; done)

@[simp] theorem mctpAnswer_front {s a1 a2 a3} : front (mctpAnswer s a1 a2 a3) = front s := by simp [mctpAnswer]; try rfl

@[simp] theorem setEndpointId_front {s a1 a2} : front (setEndpointId s a1 a2) = front s := by simp [setEndpointId]; try rfl

@[simp] theorem tckEdge_front {s a1 a2 a3} : front (tckEdge s a1 a2 a3) = front s := by simp [tckEdge]; try rfl

@[simp] theorem helloSend_front {s} : front (helloSend s) = front s := by simp [helloSend]; try rfl

@[simp] theorem helloRx_front {s a1 a2 a3 a4} : front (helloRx s a1 a2 a3 a4) = front s := by simp [helloRx]; try rfl

@[simp] theorem neighbourLost_front {s a1} : front (neighbourLost s a1) = front s := by simp [neighbourLost]; try rfl

@[simp] theorem syncSend_front {s a1} : front (syncSend s a1) = front s := by simp [syncSend]; try rfl

@[simp] theorem syncRx_front {s a1 a2 a3} : front (syncRx s a1 a2 a3) = front s := by simp [syncRx]; try rfl

@[simp] theorem delayReqRx_front {s a1 a2 a3} : front (delayReqRx s a1 a2 a3) = front s := by simp [delayReqRx]; try rfl

@[simp] theorem delayRespRx_front {s a1 a2} : front (delayRespRx s a1 a2) = front s := by simp [delayRespRx]; try rfl

@[simp] theorem domCutGo_front {s a1} : front (domCutGo s a1) = front s := by unfold domCutGo; dsimp only; (repeat' split) <;> first | rfl | (simp; done) | (simp_all; done)

@[simp] theorem cutPlanRx_front {s a1 a2 a3 a4 a5 a6} : front (cutPlanRx s a1 a2 a3 a4 a5 a6) = front s := by simp [cutPlanRx]; try rfl

@[simp] theorem cutAnswerRx_front {s a1 a2 a3 a4 a5} : front (cutAnswerRx s a1 a2 a3 a4 a5) = front s := by simp [cutAnswerRx]; try rfl

@[simp] theorem reportFrameRx_front {s a1 a2 a3 a4 a5 a6 a7 a8 a9} : front (reportFrameRx s a1 a2 a3 a4 a5 a6 a7 a8 a9) = front s := by simp [reportFrameRx]; try rfl

@[simp] theorem windowClose_front {s a1 a2} : front (windowClose s a1 a2) = front s := by unfold windowClose; split <;> first | rfl | (simp)

@[simp] theorem summaryClose_front {s a1 a2} : front (summaryClose s a1 a2) = front s := by unfold summaryClose; split <;> first | rfl | (simp)

@[simp] theorem regTouch_front {s a1 a2 a3} : front (regTouch s a1 a2 a3) = front s := by unfold regTouch; (repeat' split) <;> first | rfl | (simp; done) | (simp_all; done)

@[simp] theorem winMod_front {s a1} : front (winMod s a1) = front s := by simp only [winMod]; rfl

@[simp] theorem hifWrite_front {s a1 a2} : front (hifWrite s a1 a2) = front s := by unfold hifWrite; (repeat' split) <;> first | rfl | (simp; done) | (simp_all; done)

@[simp] theorem adminProducer_front {s a1 a2} : front (adminProducer s a1 a2) = front s := by simp [adminProducer]; try rfl

@[simp] theorem aqWrite_front {s a1 a2 a3 a4} : front (aqWrite s a1 a2 a3 a4) = front s := by unfold aqWrite; split <;> first | rfl | (simp)

@[simp] theorem doorbells_front {s a1 a2 a3 a4} : front (doorbells s a1 a2 a3 a4) = front s := by unfold doorbells; split <;> first | rfl | (simp)

@[simp] theorem queWrite_front {s a1 a2 a3 a4 a5} : front (queWrite s a1 a2 a3 a4 a5) = front s := by unfold queWrite; (repeat' split) <;> first | rfl | (simp; done) | (simp_all; done)

@[simp] theorem dmaRing_front {s a1 a2 a3} : front (dmaRing s a1 a2 a3) = front s := by simp only [dmaRing]; rfl

@[simp] theorem dmaAction_front {s a1 a2 a3} : front (dmaAction s a1 a2 a3) = front s := by unfold dmaAction; split <;> first | rfl | (simp)

@[simp] theorem dmaChWrite_front {s a1 a2 a3 a4 a5} : front (dmaChWrite s a1 a2 a3 a4 a5) = front s := by unfold dmaChWrite; (repeat' split) <;> first | rfl | (simp; done) | (simp_all; done)

@[simp] theorem dmaWrite_front {s a1 a2 a3} : front (dmaWrite s a1 a2 a3) = front s := by unfold dmaWrite; (repeat' split) <;> first | rfl | (simp; done) | (simp_all; done)

@[simp] theorem mbxWrite_front {s a1 a2 a3 a4 a5} : front (mbxWrite s a1 a2 a3 a4 a5) = front s := by unfold mbxWrite; (repeat' split) <;> first | rfl | (simp; done) | (simp_all; done)

@[simp] theorem fltWrite_front {s a1 a2 a3} : front (fltWrite s a1 a2 a3) = front s := by unfold fltWrite; split <;> first | rfl | (simp)

@[simp] theorem snapNow_front {s} : front (snapNow s) = front s := by simp only [snapNow]; rfl

@[simp] theorem tmbWrite_front {s a1 a2 a3} : front (tmbWrite s a1 a2 a3) = front s := by unfold tmbWrite; (repeat' split) <;> first | rfl | (simp; done) | (simp_all; done)

@[simp] theorem domWrite_front {s a1 a2 a3} : front (domWrite s a1 a2 a3) = front s := by unfold domWrite; (repeat' split) <;> first | rfl | (simp; done) | (simp_all; done)

@[simp] theorem lnmWrite_front {s a1 a2 a3} : front (lnmWrite s a1 a2 a3) = front s := by unfold lnmWrite; dsimp only; (repeat' split) <;> first | rfl | (simp; done) | (simp_all; done)

@[simp] theorem portLearnWrite_front {s a1 a2} : front (portLearnWrite s a1 a2) = front s := by simp [portLearnWrite]; try rfl

@[simp] theorem fwdWrite_front {s a1 a2} : front (fwdWrite s a1 a2) = front s := by unfold fwdWrite; (repeat' split) <;> first | rfl | (simp; done) | (simp_all; done)

@[simp] theorem queueCfgWrite_front {s a1 a2 a3} : front (queueCfgWrite s a1 a2 a3) = front s := by simp [queueCfgWrite]; try rfl

@[simp] theorem schWrite_front {s a1 a2} : front (schWrite s a1 a2) = front s := by unfold schWrite; (repeat' split) <;> first | rfl | (simp; done) | (simp_all; done)

@[simp] theorem ldgWrite_front {s a1 a2 a3 a4} : front (ldgWrite s a1 a2 a3 a4) = front s := by unfold ldgWrite; (repeat' split) <;> first | rfl | (simp; done) | (simp_all; done)

@[simp] theorem mapWrite_front {s a1 a2 a3 a4} : front (mapWrite s a1 a2 a3 a4) = front s := by simp [mapWrite]; try rfl

@[simp] theorem guardDrop_front {s a1 a2} : front (guardDrop s a1 a2) = front s := by simp only [guardDrop]; rfl

@[simp] theorem guardHold_front {s a1 a2 a3} : front (guardHold s a1 a2 a3) = front s := by simp only [guardHold]; rfl

@[simp] theorem guardLatch_front {s a1 a2} : front (guardLatch s a1 a2) = front s := by simp only [guardLatch]; rfl

@[simp] theorem guardFailed_front {s a1 a2} : front (guardFailed s a1 a2) = front s := by simp only [guardFailed]; rfl

@[simp] theorem guardExpire_front {s a1 a2} : front (guardExpire s a1 a2) = front s := by unfold guardExpire; split <;> first | rfl | (simp)

@[simp] theorem requestUnsupported_front {s a1 a2 a3 a4} : front (requestUnsupported s a1 a2 a3 a4) = front s := by
  unfold requestUnsupported; dsimp only; split <;> simp

@[simp] theorem requestAborted_front {s a1 a2 a3 a4} : front (requestAborted s a1 a2 a3 a4) = front s := by simp [requestAborted]; try rfl

@[simp] theorem serve_front {s fn a d w} (h : ∀ b, front (w b) = front s) : front (serve s fn a d w) = front s := by
  unfold serve; split <;> simp [h]

@[simp] theorem msixWrite_front {s a1 a2 a3} : front (msixWrite s a1 a2 a3) = front s := by simp [msixWrite]; try rfl

@[simp] theorem msixTable_front {s a1 a2 a3} : front (msixTable s a1 a2 a3) = front s := by simp [msixTable]; try rfl

@[simp] theorem msixPba_front {s a1 a2 a3} : front (msixPba s a1 a2 a3) = front s := by simp [msixPba]; try rfl

@[simp] theorem queueBar_front {s a1 a2 a3} : front (queueBar s a1 a2 a3) = front s := by simp [queueBar]; try rfl

@[simp] theorem controllerBar_front {s a1 a2 a3} : front (controllerBar s a1 a2 a3) = front s := by unfold controllerBar; split <;> first | rfl | (simp)

@[simp] theorem apertureRefused_front {s a1 a2 a3 a4} : front (apertureRefused s a1 a2 a3 a4) = front s := by simp [apertureRefused]; try rfl

@[simp] theorem tableAperture_front {s a1 a2 a3} : front (tableAperture s a1 a2 a3) = front s := by unfold tableAperture; split <;> first | rfl | (simp)

@[simp] theorem compareBranch_front {a0 a1 a2 a3 a4 s} : front (compareBranch a0 a1 a2 a3 a4 s) = front s := by simp [compareBranch]; try rfl

@[simp] theorem bitBranch_front {a0 a1 a2 a3 a4 s} : front (bitBranch a0 a1 a2 a3 a4 s) = front s := by simp [bitBranch]; try rfl

@[simp] theorem agersEnd_front {s} : front (agersEnd s) = front s := by simp [agersEnd]; try rfl

@[simp] theorem dutyConservation_front {s} : front (dutyConservation s) = front s := by simp [dutyConservation]; try rfl

@[simp] theorem checkFaults_front {a0 s} : front (checkFaults a0 s) = front s := by simp [checkFaults]; try rfl

@[simp] theorem dutyCut_front {s a1} : front (dutyCut s a1) = front s := by unfold dutyCut; dsimp only; (repeat' split) <;> first | rfl | (simp; done) | (simp_all; done)

@[simp] theorem clusterLose_front {s a1} : front (clusterLose s a1) = front s := by simp [clusterLose]; try rfl

@[simp] theorem endpointStop_front {s a1} : front (endpointStop s a1) = front s := by simp [endpointStop]; try rfl

@[simp] theorem containClock_front {s a1} : front (containClock s a1) = front s := by simp [containClock]; try rfl

@[simp] theorem containPort_front {s a1} : front (containPort s a1) = front s := by simp only [containPort]; rfl

@[simp] theorem containDma_front {s a1 a2} : front (containDma s a1 a2) = front s := by simp [containDma]; try rfl

@[simp] theorem containSlab_front {s a1} : front (containSlab s a1) = front s := by simp [containSlab]; try rfl

@[simp] theorem containSubject_front {s a1 a2} : front (containSubject s a1 a2) = front s := by simp [containSubject]; try rfl

@[simp] theorem containOne_front {s a1} : front (containOne s a1) = front s := by unfold containOne; split <;> first | rfl | (simp)

@[simp] theorem containments_front {s} : front (containments s) = front s := by simp [containments]; try rfl

@[simp] theorem dutySlots_front {s} : front (dutySlots s) = front s := by simp only [dutySlots]; rfl

@[simp] theorem channelsMark_front {s a1 a2} : front (channelsMark s a1 a2) = front s := by simp only [channelsMark]; rfl

@[simp] theorem threadMove_front {a0 a1 s a3} : front (threadMove a0 a1 s a3) = front s := by simp only [threadMove]; rfl

@[simp] theorem engineMigrate_front {s a1 a2} : front (engineMigrate s a1 a2) = front s := by simp [engineMigrate]; try rfl

@[simp] theorem engineExhausted_front {s a1} : front (engineExhausted s a1) = front s := by simp [engineExhausted]; try rfl

@[simp] theorem engineDue_front {x d} : front (engineDue x d).1 = front x.1 := by
  unfold engineDue; dsimp only; (repeat' split) <;> simp

@[simp] theorem slabDue_front {x d} : front (slabDue x d).1 = front x.1 := by
  unfold slabDue; dsimp only; (repeat' split) <;> simp

@[simp] theorem hbmDue_front {x d} : front (hbmDue x d).1 = front x.1 := by
  unfold hbmDue; dsimp only; (repeat' split) <;> simp

@[simp] theorem dutyMigrations_front {s} : front (dutyMigrations s).1 = front s := by
  have h : ∀ x l, front (List.foldl hbmDue x l).1 = front x.1 := fun x l => front_foldl_fst _ (fun _ _ => hbmDue_front) l x
  have h2 : ∀ x l, front (List.foldl slabDue x l).1 = front x.1 := fun x l => front_foldl_fst _ (fun _ _ => slabDue_front) l x
  have h3 : ∀ x l, front (List.foldl engineDue x l).1 = front x.1 := fun x l => front_foldl_fst _ (fun _ _ => engineDue_front) l x
  unfold dutyMigrations
  generalize e3 : List.foldl engineDue _ _ = x3
  have q3 := h3 (s, 0) (dueSorted s.sltEng.due); rw [e3] at q3
  obtain ⟨s3, n3⟩ := x3; dsimp only at q3 ⊢
  generalize e2 : List.foldl slabDue _ _ = x2
  have q2 := h2 (s3, 0) (dueSorted s3.sltCph.due); rw [e2] at q2
  obtain ⟨s2, n2⟩ := x2; dsimp only at q2 ⊢
  generalize e1 : List.foldl hbmDue _ _ = x1
  have q1 := h ({ s2 with hbmU := { s2.hbmU with due := [] } }, 0) s2.hbmU.due; rw [e1] at q1
  obtain ⟨s1, n1⟩ := x1; dsimp only at q1 ⊢
  rw [← q3, ← q2]
  refine Eq.trans ?_ q1
  split <;> (try rw [deltaAdd_front]) <;> rfl

@[simp] theorem portFailed_front {s a1} : front (portFailed s a1) = front s := by simp [portFailed]; try rfl

@[simp] theorem macroStep_front {s a1} : front (macroStep s a1) = front s := by simp only [macroStep]; rfl

@[simp] theorem macroDue_front {s a1 a2} : front (macroDue s a1 a2) = front s := by unfold macroDue; split <;> first | rfl | (simp)

@[simp] theorem macroChanges_front {s a1} : front (macroChanges s a1) = front s := by simp [macroChanges]; try rfl

@[simp] theorem dutyMacros_front {s} : front (dutyMacros s) = front s := by simp [dutyMacros]; try rfl

@[simp] theorem portDue_front {s n p d} : front (portDue s n p d) = front s := by
  unfold portDue; dsimp only
  (repeat' split) <;> simp

@[simp] theorem dutyPorts_front {s} : front (dutyPorts s) = front s := by
  unfold dutyPorts
  refine front_foldl _ (fun s n => ?_) _ _
  dsimp only
  split
  · rename_i p _; cases p.due <;> simp
  · simp

@[simp] theorem dutyAdmission_front {s} : front (dutyAdmission s) = front s := by simp only [dutyAdmission]; rfl

@[simp] theorem firstAdmit_front {s} : front (firstAdmit s) = front s := by simp [firstAdmit]; try rfl

@[simp] theorem unbindNow_front {s a1} : front (unbindNow s a1) = front s := by simp [unbindNow]; try rfl

@[simp] theorem bindNow_front {s a1} : front (bindNow s a1) = front s := by simp [bindNow]; try rfl

@[simp] theorem bindsDue_front {s} : front (bindsDue s) = front s := by simp [bindsDue]; try rfl

@[simp] theorem cachePins_front {s} : front (cachePins s) = front s := by simp only [cachePins]; (repeat' split) <;> first | rfl | (simp; done) | (simp_all; done)

@[simp] theorem changesDue_front {s} : front (changesDue s) = front s := by unfold changesDue; dsimp only; (repeat' split) <;> first | rfl | (simp; done) | (simp_all; done)

@[simp] theorem selftestStart_front {s} : front (selftestStart s) = front s := by unfold selftestStart; (repeat' split) <;> first | rfl | (simp; done) | (simp_all; done)

@[simp] theorem slabTestEnd_front {s} : front (slabTestEnd s) = front s := by unfold slabTestEnd; split <;> first | rfl | (simp)

@[simp] theorem tickMarks_front {s a1} : front (tickMarks s a1) = front s := by simp [tickMarks]; try rfl

@[simp] theorem tickClose_front {s a1} : front (tickClose s a1) = front s := by simp [tickClose]; try rfl

@[simp] theorem tickTime_front {s} : front (tickTime s) = front s := by simp [tickTime]; try rfl

@[simp] theorem State.withFetchWord_front {s a1 a2} : front (State.withFetchWord s a1 a2) = front s := by simp only [State.withFetchWord]; rfl

end Sys2Proof.Machine
end

