-- ==== Sys2Proof/Laws/Kept.lean ====
section
/-!
SUPPORT. What the operations that write memory, reset the device or close a tick keep: the queue, the board, the form
of the memories and the ranges of the beat and of the shedding place.
-/

namespace Sys2Proof.Machine

/-- What every command keeps of `front`: the queue and what manufacturing fixed as they are, and, where they hold before, the
range of the beat, the range of the shedding state, and the canonical form of the memories. -/

structure Kept (tk : Bool) (a b : Front) : Prop where
  pending : b.pending = a.pending
  beat : a.beat < 1600 → b.beat < 1600
  shed : shedRange a.step a.quiet = true → shedRange b.step b.quiet = true
  f256 : b.f256 = a.f256
  serial : b.serial = a.serial
  straps : b.straps = a.straps
  hbm : twf 0#8 a.hbm = true → twf 0#8 b.hbm = true
  nvm0 : twf 0xFF#8 a.nvm0 = true → twf 0xFF#8 b.nvm0 = true
  nvm1 : twf 0xFF#8 a.nvm1 = true → twf 0xFF#8 b.nvm1 = true
  tick : tk = true → b.tick = a.tick ∧ b.beat = a.beat

@[simp] theorem Kept.refl {tk a} : Kept tk a a := ⟨rfl, id, id, rfl, rfl, rfl, id, id, id, fun _ => ⟨rfl, rfl⟩⟩

theorem Kept.trans {tk a b c} (h : Kept tk a b) (k : Kept tk b c) : Kept tk a c :=
  ⟨k.1.trans h.1, k.2 ∘ h.2, k.3 ∘ h.3, k.4.trans h.4, k.5.trans h.5, k.6.trans h.6, k.7 ∘ h.7, k.8 ∘ h.8, k.9 ∘ h.9, fun e => ⟨(k.10 e).1.trans (h.10 e).1, (k.10 e).2.trans (h.10 e).2⟩⟩

theorem Kept.foldl {α : Type} {tk a}  {f : State → α → State} (hf : ∀ s x, Kept tk a (front s) → Kept tk a (front (f s x)))
    (l : List α) {s : State} (h : Kept tk a (front s)) : Kept tk a (front (l.foldl f s)) := by
  induction l generalizing s with
  | nil => exact h
  | cons x l ih => exact ih (hf s x h)

/-! The operations that write memory. -/

@[simp] theorem hbmPutBytes_kept {tk a s i bs} (h : Kept tk a (front s)) : Kept tk a (front (hbmPutBytes s i bs)) :=
  h.trans ⟨rfl, id, id, rfl, rfl, rfl, putBytes_wf _ _ _ _, id, id, fun _ => ⟨rfl, rfl⟩⟩

@[simp] theorem nvmPut_kept {tk a s k i bs} (h : Kept tk a (front s)) : Kept tk a (front (nvmPut s k i bs)) := by
  cases k
  · exact h.trans ⟨rfl, id, id, rfl, rfl, rfl, id, putBytes_wf _ _ _ _, id, fun _ => ⟨rfl, rfl⟩⟩
  · exact h.trans ⟨rfl, id, id, rfl, rfl, rfl, id, id, putBytes_wf _ _ _ _, fun _ => ⟨rfl, rfl⟩⟩

@[simp] theorem nvmErase_kept {tk a s k i n} (h : Kept tk a (front s)) : Kept tk a (front (nvmErase s k i n)) := by
  cases k
  · exact h.trans ⟨rfl, id, id, rfl, rfl, rfl, id, tfilter_wf (fun k _ => decide (k < i) || decide (i + n ≤ k)), id, fun _ => ⟨rfl, rfl⟩⟩
  · exact h.trans ⟨rfl, id, id, rfl, rfl, rfl, id, id, tfilter_wf (fun k _ => decide (k < i) || decide (i + n ≤ k)), fun _ => ⟨rfl, rfl⟩⟩

@[simp] theorem syncClear_kept {tk a s} (h : Kept tk a (front s)) : Kept tk a (front (syncClear s)) := by
  unfold syncClear; dsimp only
  have k : Kept tk a (front ((s.cph.ctxs.filter (fun e => e.2.paired)).foldl (fun s e => ctxRemove s e.1) s)) := by simpa using h
  exact k.trans ⟨rfl, id, id, rfl, rfl, rfl, tfilter_wf (fun k _ => decide (2 ^ 33 ≤ k)), id, id, fun _ => ⟨rfl, rfl⟩⟩

@[simp] theorem hbmEngineWrite_kept {tk a s a1 a2 a3 a4} (h : Kept tk a (front s)) : Kept tk a (front (hbmEngineWrite s a1 a2 a3 a4)) := by unfold hbmEngineWrite; split <;> simp [*]

@[simp] theorem journalEraseDone_kept {tk a s} (h : Kept tk a (front s)) : Kept tk a (front (journalEraseDone s)) := by unfold journalEraseDone; split <;> simp [*]

@[simp] theorem flowWrite_kept {tk a s a1 a2} (h : Kept tk a (front s)) : Kept tk a (front (flowWrite s a1 a2)) := by unfold flowWrite; simp [*]

@[simp] theorem windowReceived_kept {tk a s a1 a2} (h : Kept tk a (front s)) : Kept tk a (front (windowReceived s a1 a2)) := by unfold windowReceived; split <;> simp [*]

@[simp] theorem bufWrite_kept {tk a s a1 a2} (h : Kept tk a (front s)) : Kept tk a (front (bufWrite s a1 a2)) := by unfold bufWrite; exact Kept.foldl (fun s x h => by simp [*]) _ h

@[simp] theorem dmaElement_kept {tk a s a1 a2 a3 a4 a5} (h : Kept tk a (front s)) : Kept tk a (front (dmaElement s a1 a2 a3 a4 a5)) := by unfold dmaElement; split <;> simp [*]

@[simp] theorem journalWrite_kept {tk a s} (h : Kept tk a (front s)) : Kept tk a (front (journalWrite s)) := by unfold journalWrite; dsimp only; (repeat' split) <;> (try simp [*])

@[simp] theorem epochWrite_kept {tk a s a1 a2} (h : Kept tk a (front s)) : Kept tk a (front (epochWrite s a1 a2).1) := by unfold epochWrite; dsimp only; (repeat' split) <;> (try simp [*])

@[simp] theorem nvmWrite_kept {tk a a0 s a2} (h : Kept tk a (front s)) : Kept tk a (front (nvmWrite a0 s a2).1) := by unfold nvmWrite; dsimp only; (repeat' split) <;> (try simp [*])

@[simp] theorem flowHitAt_kept {tk a s a1 a2 a3 a4} (h : Kept tk a (front s)) : Kept tk a (front (flowHitAt s a1 a2 a3 a4)) := by unfold flowHitAt; simp [*]

@[simp] theorem dmaCopyOpen_kept {tk a a0 a1 a2 a3 s} (h : Kept tk a (front s)) : Kept tk a (front (dmaCopyOpen a0 a1 a2 a3 s)) := by unfold dmaCopyOpen; exact Kept.foldl (fun s x h => by simp [*]) _ h

@[simp] theorem commitEpoch_kept {tk a s} (h : Kept tk a (front s)) : Kept tk a (front (commitEpoch s)) := by unfold commitEpoch; dsimp only; (repeat' split) <;> (try simp [*])

@[simp] theorem ioLanded_kept {tk a s a1 a2 a3} (h : Kept tk a (front s)) : Kept tk a (front (ioLanded s a1 a2 a3)) := by unfold ioLanded; dsimp only; (repeat' split) <;> (try simp [*])

@[simp] theorem ioResponse_kept {tk a s a1 a2 a3 a4 a5} (h : Kept tk a (front s)) : Kept tk a (front (ioResponse s a1 a2 a3 a4 a5)) := by unfold ioResponse; dsimp only; (repeat' split) <;> (try simp [*])

@[simp] theorem dmaCopy_kept {tk a a0 a1 a2 a3 a4 s} (h : Kept tk a (front s)) : Kept tk a (front (dmaCopy a0 a1 a2 a3 a4 s)) := by unfold dmaCopy; exact Kept.foldl (fun s x h => by simp [*]) _ h

@[simp] theorem flowEnd_kept {tk a s a1 a2 a3} (h : Kept tk a (front s)) : Kept tk a (front (flowEnd s a1 a2 a3)) := by unfold flowEnd; simp [*]

@[simp] theorem flowMissed_kept {tk a s a1 a2 a3 a4 a5 a6} (h : Kept tk a (front s)) : Kept tk a (front (flowMissed s a1 a2 a3 a4 a5 a6)) := by unfold flowMissed; dsimp only; (repeat' split) <;> (try simp [*])

@[simp] theorem epochRefresh_kept {tk a s} (h : Kept tk a (front s)) : Kept tk a (front (epochRefresh s)) := by unfold epochRefresh; dsimp only; (repeat' split) <;> (try simp [*])

@[simp] theorem flowAccessOf_kept {tk a s a1 a2 a3 a4} (h : Kept tk a (front s)) : Kept tk a (front (flowAccessOf s a1 a2 a3 a4)) := by unfold flowAccessOf; dsimp only; (repeat' split) <;> (try simp [*])

@[simp] theorem dmaBusError_kept {tk a s a1 a2 a3 a4 a5} (h : Kept tk a (front s)) : Kept tk a (front (dmaBusError s a1 a2 a3 a4 a5)) := by unfold dmaBusError; dsimp only; (repeat' split) <;> (try simp [*])

@[simp] theorem flowReceived_kept {tk a s a1 a2 a3} (h : Kept tk a (front s)) : Kept tk a (front (flowReceived s a1 a2 a3)) := by unfold flowReceived; dsimp only; (repeat' split) <;> (try simp [*])

@[simp] theorem dmaDone_kept {tk a s a1 a2} (h : Kept tk a (front s)) : Kept tk a (front (dmaDone s a1 a2)) := by unfold dmaDone; dsimp only; (repeat' split) <;> (try simp [*])

@[simp] theorem flowClose_kept {tk a s a1 a2 a3} (h : Kept tk a (front s)) : Kept tk a (front (flowClose s a1 a2 a3)) := by unfold flowClose; simp [*]

theorem setTick_kept {s : State} (t : W64) : Kept false (front s) (front { s with tmb := { s.tmb with tick := t } }) :=
  ⟨rfl, id, id, rfl, rfl, rfl, id, id, id, nofun⟩

@[simp] theorem tickStart_kept {a s} (h : Kept false a (front s)) : Kept false a (front (tickStart s)) := by
  unfold tickStart; split
  · exact h
  · exact h.trans (setTick_kept _)

@[simp] theorem coreReleased_kept {a s} (h : Kept false a (front s)) : Kept false a (front (coreReleased s)) := by unfold coreReleased; simp [*]

@[simp] theorem syncChunk_kept {tk a s a1 a2 a3} (h : Kept tk a (front s)) : Kept tk a (front (syncChunk s a1 a2 a3)) := by unfold syncChunk; dsimp only; (repeat' split) <;> (try simp [*])

@[simp] theorem flowEngineWrite_kept {tk a s a1 a2 a3} (h : Kept tk a (front s)) : Kept tk a (front (flowEngineWrite s a1 a2 a3)) := by unfold flowEngineWrite; dsimp only; (repeat' split) <;> (try simp [*])

@[simp] theorem domainEffect_kept {a s a1} (h : Kept false a (front s)) : Kept false a (front (domainEffect s a1)) := by unfold domainEffect; split <;> simp [*]

@[simp] theorem completionTimeout_kept {tk a s a1} (h : Kept tk a (front s)) : Kept tk a (front (completionTimeout s a1)) := by unfold completionTimeout; dsimp only; (repeat' split) <;> (try simp [*])

@[simp] theorem flowAgerStep_kept {tk a s a1} (h : Kept tk a (front s)) : Kept tk a (front (flowAgerStep s a1)) := by unfold flowAgerStep; dsimp only; (repeat' split) <;> (try simp [*])

@[simp] theorem flowEntryLost_kept {tk a s a1} (h : Kept tk a (front s)) : Kept tk a (front (flowEntryLost s a1)) := by unfold flowEntryLost; dsimp only; (repeat' split) <;> (try simp [*])

@[simp] theorem syncTake_kept {tk a s a1 a2 a3} (h : Kept tk a (front s)) : Kept tk a (front (syncTake s a1 a2 a3)) := by unfold syncTake; dsimp only; (repeat' split) <;> (try simp [*])

@[simp] theorem hbmError_kept {tk a s a1} (h : Kept tk a (front s)) : Kept tk a (front (hbmError s a1)) := by unfold hbmError; dsimp only; (repeat' split) <;> (try simp [*])

@[simp] theorem domainRelease_kept {a s a1} (h : Kept false a (front s)) : Kept false a (front (domainRelease s a1)) := by unfold domainRelease; dsimp only; (repeat' split) <;> (try simp [*])

@[simp] theorem journalFlush_kept {a n s} (h : Kept tk a (front s)) : Kept tk a (front (journalFlush n s)) := by
  induction n generalizing s with
  | zero => exact h
  | succ n ih =>
    unfold journalFlush; split
    · exact h
    · exact ih (by simp [h])

theorem hbmWrites_kept {a : Front} (l : List (Nat × List Byte)) {s : State} (h : Kept tk a (front s)) :
    Kept tk a (front (l.foldl (fun s x => hbmPutBytes s x.1 x.2) s)) :=
  Kept.foldl (f := fun (s : State) (x : Nat × List Byte) => hbmPutBytes s x.1 x.2) (fun _ _ h => hbmPutBytes_kept h) l h

@[simp] theorem cipherOutputWrite_kept {tk a s} (h : Kept tk a (front s)) : Kept tk a (front (cipherOutputWrite s)) := by
  unfold cipherOutputWrite; dsimp only
  split
  · exact h
  · rw [resultDeliver_front]
    split
    · exact hbmWrites_kept _ (by simpa using h)
    · split
      · exact hbmWrites_kept _ (by simpa using h)
      · rw [pktMod_front]; exact hbmWrites_kept _ (by simpa using h)

theorem serve_kept {a : Front} {s fn x d w} (h : Kept tk a (front s)) (hw : ∀ b, Kept tk a (front (w b))) :
    Kept tk a (front (serve s fn x d w)) := by
  unfold serve; split
  · simpa using h
  · exact hw _

@[simp] theorem hbmAperture_kept {tk a s fn x k} (h : Kept tk a (front s)) : Kept tk a (front (hbmAperture s fn x k)) := by
  unfold hbmAperture; dsimp only
  (repeat' split) <;> first | exact serve_kept h (fun _ => hbmPutBytes_kept h) | simpa using h

theorem ioAt_kept {a : Front} {s i q c o st f} (h : Kept tk a (front s)) (hf : ∀ c, Kept tk a (front (f c))) :
    Kept tk a (front (ioAt s i q c o st f)) := by
  unfold ioAt
  (repeat' split) <;> first | exact h | exact hf _

@[simp] theorem ioZeroes_kept {tk a s i q c} (h : Kept tk a (front s)) : Kept tk a (front (ioZeroes s i q c)) := by
  unfold ioZeroes
  refine ioAt_kept h (fun c => ?_)
  dsimp only; (repeat' split) <;> simp [h]

@[simp] theorem ioWrite_kept {tk a s i q c ok d} (h : Kept tk a (front s)) : Kept tk a (front (ioWrite s i q c ok d)) := by
  unfold ioWrite
  refine ioAt_kept h (fun c => ?_)
  dsimp only; (repeat' split) <;> simp [h]

@[simp] theorem ioRead_kept {tk a s i q c ok} (h : Kept tk a (front s)) : Kept tk a (front (ioRead s i q c ok)) := by
  unfold ioRead
  refine ioAt_kept h (fun c => ?_)
  dsimp only
  (repeat' split) <;> (try rw [ioEnd_front, hostWrites_front]) <;> simp [h]

@[simp] theorem flowTake_kept {tk a s id} (h : Kept tk a (front s)) : Kept tk a (front (flowTake s id)) := by
  have k : Kept tk a (front { s with crb := { s.crb with flowQ := s.crb.flowQ.filter (· ≠ id) } }) := h
  unfold flowTake; dsimp only
  split
  · exact k
  · split
    · exact flowAccessOf_kept k
    · simpa using k

@[simp] theorem flowStateAccess_kept {tk a s} (h : Kept tk a (front s)) : Kept tk a (front (flowStateAccess s)) := by
  unfold flowStateAccess; (repeat' split) <;> first | exact h | (simp [h]; done)

@[simp] theorem flowSettle_kept {tk a s i} (h : Kept tk a (front s)) : Kept tk a (front (flowSettle s i)) := by
  unfold flowSettle; exact Kept.foldl (fun _ _ h => flowTake_kept h) _ h

@[simp] theorem releaseTable_kept {tk a s b x} (h : Kept tk a (front s)) : Kept tk a (front (releaseTable s b x)) := by
  unfold releaseTable
  split
  · split
    · simpa using h
    · split
      · simpa using h
      · rename_i k; rw [writeTables_front _ k]; exact h
  all_goals simp [h]

@[simp] theorem apertures_kept {tk a s a1 a2 a3} (h : Kept tk a (front s)) : Kept tk a (front (apertures s a1 a2 a3)) := by unfold apertures; dsimp only; (repeat' split) <;> (try simp [*])

@[simp] theorem batchRelease_kept {tk a s e t} (h : Kept tk a (front s)) : Kept tk a (front (batchRelease s e t)) := by
  have h1 : ∀ (b : Batch) (s : State), Kept tk a (front s) → Kept tk a (front (b.tables.foldl (fun s x => releaseTable s b x) s)) :=
    fun b s h => Kept.foldl (f := fun (s : State) x => releaseTable s b x) (fun _ _ h => releaseTable_kept h) _ h
  have h2 : ∀ (b : Batch) (s : State), front (b.packets.foldl (fun s x => releaseEffect s b x) s) = front s :=
    fun b s => front_foldl (fun s x => releaseEffect s b x) (fun _ _ => releaseEffect_front) _ _
  unfold batchRelease
  split
  · exact h
  · rename_i b _
    split
    · exact h
    · dsimp only
      have k := h1 b (channelDelta (releaseState (batchPut s e t none) e t b) b.channel) (by simpa using h)
      refine k.trans ?_
      simp only [front_mk, front_fold, h2, releaseKept_front, releaseSends_front, releaseCiphers_front, releaseAdds_front, Kept.refl]

@[simp] theorem releaseAll_kept {tk a s l} (h : Kept tk a (front s)) : Kept tk a (front (releaseAll s l)) := by
  unfold releaseAll; exact Kept.foldl (f := fun (s : State) (i : Nat) => batchRelease s (i / 8) (i % 8)) (fun _ _ h => batchRelease_kept h) _ h

@[simp] theorem releaseInTurn_kept {tk a s e t} (h : Kept tk a (front s)) : Kept tk a (front (releaseInTurn s e t)) := by
  unfold releaseInTurn; simp [h]

@[simp] theorem releasesLand_kept {tk a s} (h : Kept tk a (front s)) : Kept tk a (front (releasesLand s)) := by
  unfold releasesLand; simp [h]

@[simp] theorem slotsEnd_front {s} : front (slotsEnd s) = front s := by
  unfold slotsEnd; exact front_foldl _ (fun s x => by simp) _ _

@[simp] theorem statTake_front {s n i} : front (statTake s n i) = front s := by simp [statTake]

@[simp] theorem lateReadAnswer_front {s r} : front (lateReadAnswer s r) = front s := by
  unfold lateReadAnswer; dsimp only; split <;> simp

@[simp] theorem flowEngineAccess_kept {tk a s x} (h : Kept tk a (front s)) : Kept tk a (front (flowEngineAccess s x)) := by
  unfold flowEngineAccess; split <;> simp [h]

@[simp] theorem flowEnginesEnd_kept {tk a s} (h : Kept tk a (front s)) : Kept tk a (front (flowEnginesEnd s)) := by
  unfold flowEnginesEnd; exact Kept.foldl (fun _ _ h => flowEngineAccess_kept h) _ h

@[simp] theorem beatEnd_kept {tk a s} (h : Kept tk a (front s)) : Kept tk a (front (beatEnd s)) := by
  have k : ∀ s : State, front (s.lnm.lateReads.foldl lateReadAnswer s) = front s :=
    fun s => front_foldl _ (fun _ _ => lateReadAnswer_front) _ _
  have k2 : Kept tk a (front (xtsSettle (agersEnd (flowEnginesEnd s)))) := by simp [h]
  rw [← k] at k2
  exact k2

@[simp] theorem hostOverdue_front {s} : front (hostOverdue s) = front s := by
  unfold hostOverdue; dsimp only; simp

@[simp] theorem deviceReset_kept {a s x b c} (h : Kept false a (front s)) : Kept false a (front (deviceReset s x b c)) :=
  h.trans ⟨rfl, fun _ => (by decide : 0 < 1600), fun _ => (by decide : shedRange 0 0 = true), rfl, rfl, rfl, fun _ => rfl, id, id, nofun⟩

@[simp] theorem faultReset_kept {a s x c} (h : Kept false a (front s)) : Kept false a (front (faultReset s x c)) := by
  unfold faultReset; simp [h]

@[simp] theorem supervisorWatchdog_kept {a s} (h : Kept false a (front s)) : Kept false a (front (supervisorWatchdog s)) := by
  unfold supervisorWatchdog; dsimp only; (repeat' split) <;> simp [h]

@[simp] theorem faultResetDue_kept {a s} (h : Kept false a (front s)) : Kept false a (front (faultResetDue s)) := by
  unfold faultResetDue
  split
  · exact h
  · dsimp only; split <;> simp [h]

@[simp] theorem restartOverdue_kept {a s} (h : Kept false a (front s)) : Kept false a (front (restartOverdue s)) := by
  unfold restartOverdue; split <;> simp [h]

theorem shedNext_range {a b n} (h : shedRange a b = true) : shedRange (shedNext a b n).1 (shedNext a b n).2 = true := by
  simp only [shedRange, Bool.and_eq_true, Bool.or_eq_true, decide_eq_true_eq] at *
  unfold shedNext; (repeat' split) <;> dsimp only <;> omega

@[simp] theorem shedUpdate_kept {tk a s d b} (h : Kept tk a (front s)) : Kept tk a (front (shedUpdate s d b)) := by
  refine h.trans ?_
  unfold shedUpdate; dsimp only
  split <;> (try rw [raiseDetail_front]) <;> exact ⟨rfl, id, shedNext_range, rfl, rfl, rfl, id, id, id, fun _ => ⟨rfl, rfl⟩⟩

@[simp] theorem tickAdvance_kept {a s n} (h : Kept false a (front s)) : Kept false a (front (tickAdvance s n)) := by
  have k : Kept false a (front (timeStepped s (n - now s - 1))) := by simpa using h
  refine k.trans ?_
  unfold tickAdvance
  exact ⟨rfl, fun _ => (by decide : 0 < 1600), id, rfl, rfl, rfl, id, id, id, nofun⟩

@[simp] theorem cutTakeover_front {s} : front (cutTakeover s) = front s := by unfold cutTakeover; (repeat' split) <;> rfl

@[simp] theorem heldDeliver_front {s} : front (heldDeliver s) = front s := rfl

@[simp] theorem tickOpen_kept {tk a s o c d b} (h : Kept tk a (front s)) : Kept tk a (front (tickOpen s o c d b)) := by
  have k : front (tickOpen s o c d b) = front (shedUpdate (containments s) d b) := by
    unfold tickOpen; dsimp only; simp
  rw [k]; simp [h]

@[simp] theorem tickBoundary_kept {a s d b} (h : Kept false a (front s)) : Kept false a (front (tickBoundary s d b)) := by
  have k : Kept false a (front (timeSelect (domainOverdue (beatEnd s)))) := by simp [h]
  unfold tickBoundary
  split
  · exact h
  · generalize timeSelect (domainOverdue (beatEnd s)) = s' at k
    dsimp only
    split
    · exact restartOverdue_kept (by simpa using tickAdvance_kept k)
    · refine restartOverdue_kept (tickOpen_kept ?_)
      have k2 : ∀ n, Kept false a (front (tickClose (slotsEnd (flowEnginesEnd (releasesLand s'))) n)) := fun n => by simp [k]
      simpa using tickAdvance_kept (k2 _)

@[simp] theorem guardPerform_kept {a s i v} (h : Kept false a (front s)) : Kept false a (front (guardPerform s i v)) := by
  unfold guardPerform; dsimp only; (repeat' split) <;> simp [h]

@[simp] theorem guardWrite_kept {a s r i c x v} (h : Kept false a (front s)) : Kept false a (front (guardWrite s r i c x v)) := by
  unfold guardWrite; dsimp only; (repeat' split) <;> simp [h]

@[simp] theorem regWrite_kept {a s r i x v} (h : Kept false a (front s)) : Kept false a (front (regWrite s r i x v)) := by
  unfold regWrite; (repeat' split) <;> simp [h]

@[simp] theorem statReadHp1_front {s r} : front (statReadHp1 s r) = front s := by
  rfl

@[simp] theorem deviceRegisters_kept {a s f o x} (h : Kept false a (front s)) : Kept false a (front (deviceRegisters s f o x)) := by
  unfold deviceRegisters; dsimp only; (repeat' split) <;> simp [h]

@[simp] theorem barServe_kept {a s f b o x} (h : Kept false a (front s)) : Kept false a (front (barServe s f b o x)) := by
  unfold barServe; dsimp only; (repeat' split) <;> simp [h]

@[simp] theorem barRequest_kept {a s f b o x} (h : Kept false a (front s)) : Kept false a (front (barRequest s f b o x)) := by
  unfold barRequest; dsimp only; (repeat' split) <;> simp [h]

theorem beatEnd_beat {s : State} : (beatEnd s).tmb.beat = s.tmb.beat :=
  ((beatEnd_kept (tk := true) (Kept.refl (a := front s))).tick rfl).2

theorem setBeat_kept {s : State} (n : Nat) (h : n < 1600) :
    Kept false (front s) (front (tmbMod s (fun t => { t with beat := n }))) :=
  ⟨rfl, fun _ => h, id, rfl, rfl, rfl, id, id, id, nofun⟩

@[simp] theorem idle_kept {a s} (h : Kept false a (front s)) : Kept false a (front (idle s)) := by
  unfold idle; split
  · rename_i k
    exact (beatEnd_kept h).trans (setBeat_kept _ (by rw [beatEnd_beat]; omega))
  · exact h

theorem recordIn_kept {tk a s n f} (hf : ∀ s, Kept tk a (front s) → Kept tk a (front (f s))) (h : Kept tk a (front s)) :
    Kept tk a (front (recordIn s n f)) := by
  unfold recordIn; dsimp only; (repeat' split)
  · exact h
  · simpa using h
  · exact hf _ (by simpa using h)

theorem frameIn_kept {tk a s f} (hf : ∀ s, Kept tk a (front s) → Kept tk a (front (f s))) (h : Kept tk a (front s)) :
    Kept tk a (front (frameIn s f)) := by
  unfold frameIn; split
  · exact h
  · exact hf _ (by simpa using h)

theorem adminRun_kept {tk a s ep e f ok body} (hf : ∀ s b, Kept tk a (front s) → Kept tk a (front (body s b).1)) (h : Kept tk a (front s)) :
    Kept tk a (front (adminRun s ep e f ok body)) := by
  have hb := hf (adminStart s ep (slice e 0 64)) (slice e 0 64) (by simpa using h)
  unfold adminRun; dsimp only
  split
  · exact h
  · split
    · simpa using h
    · split <;> rename_i h2 <;> rw [h2] at hb <;> simpa using hb

theorem stageTable_front {s b x s' b'} (h : stageTable s b x = .next s' b') : front s' = front s := by
  unfold stageTable at h; split at h
  · cases h
  · cases h; rfl

theorem commitPoint_front {s e b s' b'} (h : commitPoint s e b = .next s' b') : front s' = front s := by
  unfold commitPoint at h; dsimp only at h; split at h
  · cases h
  · cases h; simp

theorem handleFill_front {s b x rd id k s' b'} (h : handleFill s b x rd id k = .next s' b') : front s' = front s := by
  unfold handleFill at h; split at h
  · cases h; rfl
  · cases h; simp

theorem emitStage_front {s e t b w0 w1 es s' b'} (h : emitStage s e t b w0 w1 es = .next s' b') : front s' = front s := by
  unfold emitStage at h; dsimp only at h; split at h
  · cases h
  · split at h
    · cases h
    · split at h <;> (cases h; rfl)

end Sys2Proof.Machine
end

