-- ==== Sys2Proof/Laws/State.lean ====
section
/-!
SUPPORT. What the update operations leave alone, one lemma per field, and what the accessors read after them.
-/

namespace Sys2Proof.Machine


@[simp] theorem secMod_board (s : State) (f : Sec → Sec) : (secMod s f).board = s.board := rfl
@[simp] theorem secMod_rst (s : State) (f : Sec → Sec) : (secMod s f).rst = s.rst := rfl
@[simp] theorem secMod_app (s : State) (f : Sec → Sec) : (secMod s f).app = s.app := rfl
@[simp] theorem secMod_tmb (s : State) (f : Sec → Sec) : (secMod s f).tmb = s.tmb := rfl
@[simp] theorem secMod_ptp (s : State) (f : Sec → Sec) : (secMod s f).ptp = s.ptp := rfl
@[simp] theorem secMod_sltCph (s : State) (f : Sec → Sec) : (secMod s f).sltCph = s.sltCph := rfl
@[simp] theorem secMod_sltEng (s : State) (f : Sec → Sec) : (secMod s f).sltEng = s.sltEng := rfl
@[simp] theorem secMod_sltQue (s : State) (f : Sec → Sec) : (secMod s f).sltQue = s.sltQue := rfl
@[simp] theorem secMod_lnm (s : State) (f : Sec → Sec) : (secMod s f).lnm = s.lnm := rfl
@[simp] theorem secMod_prs (s : State) (f : Sec → Sec) : (secMod s f).prs = s.prs := rfl
@[simp] theorem secMod_dec (s : State) (f : Sec → Sec) : (secMod s f).dec = s.dec := rfl
@[simp] theorem secMod_fwd (s : State) (f : Sec → Sec) : (secMod s f).fwd = s.fwd := rfl
@[simp] theorem secMod_crb (s : State) (f : Sec → Sec) : (secMod s f).crb = s.crb := rfl
@[simp] theorem secMod_sch (s : State) (f : Sec → Sec) : (secMod s f).sch = s.sch := rfl
@[simp] theorem secMod_ldg (s : State) (f : Sec → Sec) : (secMod s f).ldg = s.ldg := rfl
@[simp] theorem secMod_eng (s : State) (f : Sec → Sec) : (secMod s f).eng = s.eng := rfl
@[simp] theorem secMod_cph (s : State) (f : Sec → Sec) : (secMod s f).cph = s.cph := rfl
@[simp] theorem secMod_kvl (s : State) (f : Sec → Sec) : (secMod s f).kvl = s.kvl := rfl
@[simp] theorem secMod_flt (s : State) (f : Sec → Sec) : (secMod s f).flt = s.flt := rfl
@[simp] theorem secMod_sec (s : State) (f : Sec → Sec) : (secMod s f).sec = f s.sec := rfl
@[simp] theorem secMod_hif (s : State) (f : Sec → Sec) : (secMod s f).hif = s.hif := rfl
@[simp] theorem secMod_win (s : State) (f : Sec → Sec) : (secMod s f).win = s.win := rfl
@[simp] theorem secMod_sb (s : State) (f : Sec → Sec) : (secMod s f).sb = s.sb := rfl
@[simp] theorem secMod_que (s : State) (f : Sec → Sec) : (secMod s f).que = s.que := rfl
@[simp] theorem secMod_dma (s : State) (f : Sec → Sec) : (secMod s f).dma = s.dma := rfl
@[simp] theorem secMod_mbx (s : State) (f : Sec → Sec) : (secMod s f).mbx = s.mbx := rfl
@[simp] theorem secMod_sto (s : State) (f : Sec → Sec) : (secMod s f).sto = s.sto := rfl
@[simp] theorem secMod_mir (s : State) (f : Sec → Sec) : (secMod s f).mir = s.mir := rfl
@[simp] theorem secMod_dom (s : State) (f : Sec → Sec) : (secMod s f).dom = s.dom := rfl
@[simp] theorem secMod_hbmU (s : State) (f : Sec → Sec) : (secMod s f).hbmU = s.hbmU := rfl
@[simp] theorem secMod_hbm (s : State) (f : Sec → Sec) : (secMod s f).hbm = s.hbm := rfl
@[simp] theorem secMod_tap (s : State) (f : Sec → Sec) : (secMod s f).tap = s.tap := rfl
@[simp] theorem secMod_out (s : State) (f : Sec → Sec) : (secMod s f).out = s.out := rfl
@[simp] theorem secMod_free (s : State) (f : Sec → Sec) : (secMod s f).free = s.free := rfl
@[simp] theorem secMod_pending (s : State) (f : Sec → Sec) : (secMod s f).pending = s.pending := rfl

@[simp] theorem cphMod_board (s : State) (f : Cph → Cph) : (cphMod s f).board = s.board := rfl
@[simp] theorem cphMod_rst (s : State) (f : Cph → Cph) : (cphMod s f).rst = s.rst := rfl
@[simp] theorem cphMod_app (s : State) (f : Cph → Cph) : (cphMod s f).app = s.app := rfl
@[simp] theorem cphMod_tmb (s : State) (f : Cph → Cph) : (cphMod s f).tmb = s.tmb := rfl
@[simp] theorem cphMod_ptp (s : State) (f : Cph → Cph) : (cphMod s f).ptp = s.ptp := rfl
@[simp] theorem cphMod_sltCph (s : State) (f : Cph → Cph) : (cphMod s f).sltCph = s.sltCph := rfl
@[simp] theorem cphMod_sltEng (s : State) (f : Cph → Cph) : (cphMod s f).sltEng = s.sltEng := rfl
@[simp] theorem cphMod_sltQue (s : State) (f : Cph → Cph) : (cphMod s f).sltQue = s.sltQue := rfl
@[simp] theorem cphMod_lnm (s : State) (f : Cph → Cph) : (cphMod s f).lnm = s.lnm := rfl
@[simp] theorem cphMod_prs (s : State) (f : Cph → Cph) : (cphMod s f).prs = s.prs := rfl
@[simp] theorem cphMod_dec (s : State) (f : Cph → Cph) : (cphMod s f).dec = s.dec := rfl
@[simp] theorem cphMod_fwd (s : State) (f : Cph → Cph) : (cphMod s f).fwd = s.fwd := rfl
@[simp] theorem cphMod_crb (s : State) (f : Cph → Cph) : (cphMod s f).crb = s.crb := rfl
@[simp] theorem cphMod_sch (s : State) (f : Cph → Cph) : (cphMod s f).sch = s.sch := rfl
@[simp] theorem cphMod_ldg (s : State) (f : Cph → Cph) : (cphMod s f).ldg = s.ldg := rfl
@[simp] theorem cphMod_eng (s : State) (f : Cph → Cph) : (cphMod s f).eng = s.eng := rfl
@[simp] theorem cphMod_cph (s : State) (f : Cph → Cph) : (cphMod s f).cph = f s.cph := rfl
@[simp] theorem cphMod_kvl (s : State) (f : Cph → Cph) : (cphMod s f).kvl = s.kvl := rfl
@[simp] theorem cphMod_flt (s : State) (f : Cph → Cph) : (cphMod s f).flt = s.flt := rfl
@[simp] theorem cphMod_sec (s : State) (f : Cph → Cph) : (cphMod s f).sec = s.sec := rfl
@[simp] theorem cphMod_hif (s : State) (f : Cph → Cph) : (cphMod s f).hif = s.hif := rfl
@[simp] theorem cphMod_win (s : State) (f : Cph → Cph) : (cphMod s f).win = s.win := rfl
@[simp] theorem cphMod_sb (s : State) (f : Cph → Cph) : (cphMod s f).sb = s.sb := rfl
@[simp] theorem cphMod_que (s : State) (f : Cph → Cph) : (cphMod s f).que = s.que := rfl
@[simp] theorem cphMod_dma (s : State) (f : Cph → Cph) : (cphMod s f).dma = s.dma := rfl
@[simp] theorem cphMod_mbx (s : State) (f : Cph → Cph) : (cphMod s f).mbx = s.mbx := rfl
@[simp] theorem cphMod_sto (s : State) (f : Cph → Cph) : (cphMod s f).sto = s.sto := rfl
@[simp] theorem cphMod_mir (s : State) (f : Cph → Cph) : (cphMod s f).mir = s.mir := rfl
@[simp] theorem cphMod_dom (s : State) (f : Cph → Cph) : (cphMod s f).dom = s.dom := rfl
@[simp] theorem cphMod_hbmU (s : State) (f : Cph → Cph) : (cphMod s f).hbmU = s.hbmU := rfl
@[simp] theorem cphMod_hbm (s : State) (f : Cph → Cph) : (cphMod s f).hbm = s.hbm := rfl
@[simp] theorem cphMod_tap (s : State) (f : Cph → Cph) : (cphMod s f).tap = s.tap := rfl
@[simp] theorem cphMod_out (s : State) (f : Cph → Cph) : (cphMod s f).out = s.out := rfl
@[simp] theorem cphMod_free (s : State) (f : Cph → Cph) : (cphMod s f).free = s.free := rfl
@[simp] theorem cphMod_pending (s : State) (f : Cph → Cph) : (cphMod s f).pending = s.pending := rfl

@[simp] theorem kvlMod_board (s : State) (f : Kvl → Kvl) : (kvlMod s f).board = s.board := rfl
@[simp] theorem kvlMod_rst (s : State) (f : Kvl → Kvl) : (kvlMod s f).rst = s.rst := rfl
@[simp] theorem kvlMod_app (s : State) (f : Kvl → Kvl) : (kvlMod s f).app = s.app := rfl
@[simp] theorem kvlMod_tmb (s : State) (f : Kvl → Kvl) : (kvlMod s f).tmb = s.tmb := rfl
@[simp] theorem kvlMod_ptp (s : State) (f : Kvl → Kvl) : (kvlMod s f).ptp = s.ptp := rfl
@[simp] theorem kvlMod_sltCph (s : State) (f : Kvl → Kvl) : (kvlMod s f).sltCph = s.sltCph := rfl
@[simp] theorem kvlMod_sltEng (s : State) (f : Kvl → Kvl) : (kvlMod s f).sltEng = s.sltEng := rfl
@[simp] theorem kvlMod_sltQue (s : State) (f : Kvl → Kvl) : (kvlMod s f).sltQue = s.sltQue := rfl
@[simp] theorem kvlMod_lnm (s : State) (f : Kvl → Kvl) : (kvlMod s f).lnm = s.lnm := rfl
@[simp] theorem kvlMod_prs (s : State) (f : Kvl → Kvl) : (kvlMod s f).prs = s.prs := rfl
@[simp] theorem kvlMod_dec (s : State) (f : Kvl → Kvl) : (kvlMod s f).dec = s.dec := rfl
@[simp] theorem kvlMod_fwd (s : State) (f : Kvl → Kvl) : (kvlMod s f).fwd = s.fwd := rfl
@[simp] theorem kvlMod_crb (s : State) (f : Kvl → Kvl) : (kvlMod s f).crb = s.crb := rfl
@[simp] theorem kvlMod_sch (s : State) (f : Kvl → Kvl) : (kvlMod s f).sch = s.sch := rfl
@[simp] theorem kvlMod_ldg (s : State) (f : Kvl → Kvl) : (kvlMod s f).ldg = s.ldg := rfl
@[simp] theorem kvlMod_eng (s : State) (f : Kvl → Kvl) : (kvlMod s f).eng = s.eng := rfl
@[simp] theorem kvlMod_cph (s : State) (f : Kvl → Kvl) : (kvlMod s f).cph = s.cph := rfl
@[simp] theorem kvlMod_kvl (s : State) (f : Kvl → Kvl) : (kvlMod s f).kvl = f s.kvl := rfl
@[simp] theorem kvlMod_flt (s : State) (f : Kvl → Kvl) : (kvlMod s f).flt = s.flt := rfl
@[simp] theorem kvlMod_sec (s : State) (f : Kvl → Kvl) : (kvlMod s f).sec = s.sec := rfl
@[simp] theorem kvlMod_hif (s : State) (f : Kvl → Kvl) : (kvlMod s f).hif = s.hif := rfl
@[simp] theorem kvlMod_win (s : State) (f : Kvl → Kvl) : (kvlMod s f).win = s.win := rfl
@[simp] theorem kvlMod_sb (s : State) (f : Kvl → Kvl) : (kvlMod s f).sb = s.sb := rfl
@[simp] theorem kvlMod_que (s : State) (f : Kvl → Kvl) : (kvlMod s f).que = s.que := rfl
@[simp] theorem kvlMod_dma (s : State) (f : Kvl → Kvl) : (kvlMod s f).dma = s.dma := rfl
@[simp] theorem kvlMod_mbx (s : State) (f : Kvl → Kvl) : (kvlMod s f).mbx = s.mbx := rfl
@[simp] theorem kvlMod_sto (s : State) (f : Kvl → Kvl) : (kvlMod s f).sto = s.sto := rfl
@[simp] theorem kvlMod_mir (s : State) (f : Kvl → Kvl) : (kvlMod s f).mir = s.mir := rfl
@[simp] theorem kvlMod_dom (s : State) (f : Kvl → Kvl) : (kvlMod s f).dom = s.dom := rfl
@[simp] theorem kvlMod_hbmU (s : State) (f : Kvl → Kvl) : (kvlMod s f).hbmU = s.hbmU := rfl
@[simp] theorem kvlMod_hbm (s : State) (f : Kvl → Kvl) : (kvlMod s f).hbm = s.hbm := rfl
@[simp] theorem kvlMod_tap (s : State) (f : Kvl → Kvl) : (kvlMod s f).tap = s.tap := rfl
@[simp] theorem kvlMod_out (s : State) (f : Kvl → Kvl) : (kvlMod s f).out = s.out := rfl
@[simp] theorem kvlMod_free (s : State) (f : Kvl → Kvl) : (kvlMod s f).free = s.free := rfl
@[simp] theorem kvlMod_pending (s : State) (f : Kvl → Kvl) : (kvlMod s f).pending = s.pending := rfl

@[simp] theorem fltMod_board (s : State) (f : Flt → Flt) : (fltMod s f).board = s.board := rfl
@[simp] theorem fltMod_rst (s : State) (f : Flt → Flt) : (fltMod s f).rst = s.rst := rfl
@[simp] theorem fltMod_app (s : State) (f : Flt → Flt) : (fltMod s f).app = s.app := rfl
@[simp] theorem fltMod_tmb (s : State) (f : Flt → Flt) : (fltMod s f).tmb = s.tmb := rfl
@[simp] theorem fltMod_ptp (s : State) (f : Flt → Flt) : (fltMod s f).ptp = s.ptp := rfl
@[simp] theorem fltMod_sltCph (s : State) (f : Flt → Flt) : (fltMod s f).sltCph = s.sltCph := rfl
@[simp] theorem fltMod_sltEng (s : State) (f : Flt → Flt) : (fltMod s f).sltEng = s.sltEng := rfl
@[simp] theorem fltMod_sltQue (s : State) (f : Flt → Flt) : (fltMod s f).sltQue = s.sltQue := rfl
@[simp] theorem fltMod_lnm (s : State) (f : Flt → Flt) : (fltMod s f).lnm = s.lnm := rfl
@[simp] theorem fltMod_prs (s : State) (f : Flt → Flt) : (fltMod s f).prs = s.prs := rfl
@[simp] theorem fltMod_dec (s : State) (f : Flt → Flt) : (fltMod s f).dec = s.dec := rfl
@[simp] theorem fltMod_fwd (s : State) (f : Flt → Flt) : (fltMod s f).fwd = s.fwd := rfl
@[simp] theorem fltMod_crb (s : State) (f : Flt → Flt) : (fltMod s f).crb = s.crb := rfl
@[simp] theorem fltMod_sch (s : State) (f : Flt → Flt) : (fltMod s f).sch = s.sch := rfl
@[simp] theorem fltMod_ldg (s : State) (f : Flt → Flt) : (fltMod s f).ldg = s.ldg := rfl
@[simp] theorem fltMod_eng (s : State) (f : Flt → Flt) : (fltMod s f).eng = s.eng := rfl
@[simp] theorem fltMod_cph (s : State) (f : Flt → Flt) : (fltMod s f).cph = s.cph := rfl
@[simp] theorem fltMod_kvl (s : State) (f : Flt → Flt) : (fltMod s f).kvl = s.kvl := rfl
@[simp] theorem fltMod_flt (s : State) (f : Flt → Flt) : (fltMod s f).flt = f s.flt := rfl
@[simp] theorem fltMod_sec (s : State) (f : Flt → Flt) : (fltMod s f).sec = s.sec := rfl
@[simp] theorem fltMod_hif (s : State) (f : Flt → Flt) : (fltMod s f).hif = s.hif := rfl
@[simp] theorem fltMod_win (s : State) (f : Flt → Flt) : (fltMod s f).win = s.win := rfl
@[simp] theorem fltMod_sb (s : State) (f : Flt → Flt) : (fltMod s f).sb = s.sb := rfl
@[simp] theorem fltMod_que (s : State) (f : Flt → Flt) : (fltMod s f).que = s.que := rfl
@[simp] theorem fltMod_dma (s : State) (f : Flt → Flt) : (fltMod s f).dma = s.dma := rfl
@[simp] theorem fltMod_mbx (s : State) (f : Flt → Flt) : (fltMod s f).mbx = s.mbx := rfl
@[simp] theorem fltMod_sto (s : State) (f : Flt → Flt) : (fltMod s f).sto = s.sto := rfl
@[simp] theorem fltMod_mir (s : State) (f : Flt → Flt) : (fltMod s f).mir = s.mir := rfl
@[simp] theorem fltMod_dom (s : State) (f : Flt → Flt) : (fltMod s f).dom = s.dom := rfl
@[simp] theorem fltMod_hbmU (s : State) (f : Flt → Flt) : (fltMod s f).hbmU = s.hbmU := rfl
@[simp] theorem fltMod_hbm (s : State) (f : Flt → Flt) : (fltMod s f).hbm = s.hbm := rfl
@[simp] theorem fltMod_tap (s : State) (f : Flt → Flt) : (fltMod s f).tap = s.tap := rfl
@[simp] theorem fltMod_out (s : State) (f : Flt → Flt) : (fltMod s f).out = s.out := rfl
@[simp] theorem fltMod_free (s : State) (f : Flt → Flt) : (fltMod s f).free = s.free := rfl
@[simp] theorem fltMod_pending (s : State) (f : Flt → Flt) : (fltMod s f).pending = s.pending := rfl

@[simp] theorem domMod_board (s : State) (f : Dom → Dom) : (domMod s f).board = s.board := rfl
@[simp] theorem domMod_rst (s : State) (f : Dom → Dom) : (domMod s f).rst = s.rst := rfl
@[simp] theorem domMod_app (s : State) (f : Dom → Dom) : (domMod s f).app = s.app := rfl
@[simp] theorem domMod_tmb (s : State) (f : Dom → Dom) : (domMod s f).tmb = s.tmb := rfl
@[simp] theorem domMod_ptp (s : State) (f : Dom → Dom) : (domMod s f).ptp = s.ptp := rfl
@[simp] theorem domMod_sltCph (s : State) (f : Dom → Dom) : (domMod s f).sltCph = s.sltCph := rfl
@[simp] theorem domMod_sltEng (s : State) (f : Dom → Dom) : (domMod s f).sltEng = s.sltEng := rfl
@[simp] theorem domMod_sltQue (s : State) (f : Dom → Dom) : (domMod s f).sltQue = s.sltQue := rfl
@[simp] theorem domMod_lnm (s : State) (f : Dom → Dom) : (domMod s f).lnm = s.lnm := rfl
@[simp] theorem domMod_prs (s : State) (f : Dom → Dom) : (domMod s f).prs = s.prs := rfl
@[simp] theorem domMod_dec (s : State) (f : Dom → Dom) : (domMod s f).dec = s.dec := rfl
@[simp] theorem domMod_fwd (s : State) (f : Dom → Dom) : (domMod s f).fwd = s.fwd := rfl
@[simp] theorem domMod_crb (s : State) (f : Dom → Dom) : (domMod s f).crb = s.crb := rfl
@[simp] theorem domMod_sch (s : State) (f : Dom → Dom) : (domMod s f).sch = s.sch := rfl
@[simp] theorem domMod_ldg (s : State) (f : Dom → Dom) : (domMod s f).ldg = s.ldg := rfl
@[simp] theorem domMod_eng (s : State) (f : Dom → Dom) : (domMod s f).eng = s.eng := rfl
@[simp] theorem domMod_cph (s : State) (f : Dom → Dom) : (domMod s f).cph = s.cph := rfl
@[simp] theorem domMod_kvl (s : State) (f : Dom → Dom) : (domMod s f).kvl = s.kvl := rfl
@[simp] theorem domMod_flt (s : State) (f : Dom → Dom) : (domMod s f).flt = s.flt := rfl
@[simp] theorem domMod_sec (s : State) (f : Dom → Dom) : (domMod s f).sec = s.sec := rfl
@[simp] theorem domMod_hif (s : State) (f : Dom → Dom) : (domMod s f).hif = s.hif := rfl
@[simp] theorem domMod_win (s : State) (f : Dom → Dom) : (domMod s f).win = s.win := rfl
@[simp] theorem domMod_sb (s : State) (f : Dom → Dom) : (domMod s f).sb = s.sb := rfl
@[simp] theorem domMod_que (s : State) (f : Dom → Dom) : (domMod s f).que = s.que := rfl
@[simp] theorem domMod_dma (s : State) (f : Dom → Dom) : (domMod s f).dma = s.dma := rfl
@[simp] theorem domMod_mbx (s : State) (f : Dom → Dom) : (domMod s f).mbx = s.mbx := rfl
@[simp] theorem domMod_sto (s : State) (f : Dom → Dom) : (domMod s f).sto = s.sto := rfl
@[simp] theorem domMod_mir (s : State) (f : Dom → Dom) : (domMod s f).mir = s.mir := rfl
@[simp] theorem domMod_dom (s : State) (f : Dom → Dom) : (domMod s f).dom = f s.dom := rfl
@[simp] theorem domMod_hbmU (s : State) (f : Dom → Dom) : (domMod s f).hbmU = s.hbmU := rfl
@[simp] theorem domMod_hbm (s : State) (f : Dom → Dom) : (domMod s f).hbm = s.hbm := rfl
@[simp] theorem domMod_tap (s : State) (f : Dom → Dom) : (domMod s f).tap = s.tap := rfl
@[simp] theorem domMod_out (s : State) (f : Dom → Dom) : (domMod s f).out = s.out := rfl
@[simp] theorem domMod_free (s : State) (f : Dom → Dom) : (domMod s f).free = s.free := rfl
@[simp] theorem domMod_pending (s : State) (f : Dom → Dom) : (domMod s f).pending = s.pending := rfl

@[simp] theorem mirMod_board (s : State) (f : Mir → Mir) : (mirMod s f).board = s.board := rfl
@[simp] theorem mirMod_rst (s : State) (f : Mir → Mir) : (mirMod s f).rst = s.rst := rfl
@[simp] theorem mirMod_app (s : State) (f : Mir → Mir) : (mirMod s f).app = s.app := rfl
@[simp] theorem mirMod_tmb (s : State) (f : Mir → Mir) : (mirMod s f).tmb = s.tmb := rfl
@[simp] theorem mirMod_ptp (s : State) (f : Mir → Mir) : (mirMod s f).ptp = s.ptp := rfl
@[simp] theorem mirMod_sltCph (s : State) (f : Mir → Mir) : (mirMod s f).sltCph = s.sltCph := rfl
@[simp] theorem mirMod_sltEng (s : State) (f : Mir → Mir) : (mirMod s f).sltEng = s.sltEng := rfl
@[simp] theorem mirMod_sltQue (s : State) (f : Mir → Mir) : (mirMod s f).sltQue = s.sltQue := rfl
@[simp] theorem mirMod_lnm (s : State) (f : Mir → Mir) : (mirMod s f).lnm = s.lnm := rfl
@[simp] theorem mirMod_prs (s : State) (f : Mir → Mir) : (mirMod s f).prs = s.prs := rfl
@[simp] theorem mirMod_dec (s : State) (f : Mir → Mir) : (mirMod s f).dec = s.dec := rfl
@[simp] theorem mirMod_fwd (s : State) (f : Mir → Mir) : (mirMod s f).fwd = s.fwd := rfl
@[simp] theorem mirMod_crb (s : State) (f : Mir → Mir) : (mirMod s f).crb = s.crb := rfl
@[simp] theorem mirMod_sch (s : State) (f : Mir → Mir) : (mirMod s f).sch = s.sch := rfl
@[simp] theorem mirMod_ldg (s : State) (f : Mir → Mir) : (mirMod s f).ldg = s.ldg := rfl
@[simp] theorem mirMod_eng (s : State) (f : Mir → Mir) : (mirMod s f).eng = s.eng := rfl
@[simp] theorem mirMod_cph (s : State) (f : Mir → Mir) : (mirMod s f).cph = s.cph := rfl
@[simp] theorem mirMod_kvl (s : State) (f : Mir → Mir) : (mirMod s f).kvl = s.kvl := rfl
@[simp] theorem mirMod_flt (s : State) (f : Mir → Mir) : (mirMod s f).flt = s.flt := rfl
@[simp] theorem mirMod_sec (s : State) (f : Mir → Mir) : (mirMod s f).sec = s.sec := rfl
@[simp] theorem mirMod_hif (s : State) (f : Mir → Mir) : (mirMod s f).hif = s.hif := rfl
@[simp] theorem mirMod_win (s : State) (f : Mir → Mir) : (mirMod s f).win = s.win := rfl
@[simp] theorem mirMod_sb (s : State) (f : Mir → Mir) : (mirMod s f).sb = s.sb := rfl
@[simp] theorem mirMod_que (s : State) (f : Mir → Mir) : (mirMod s f).que = s.que := rfl
@[simp] theorem mirMod_dma (s : State) (f : Mir → Mir) : (mirMod s f).dma = s.dma := rfl
@[simp] theorem mirMod_mbx (s : State) (f : Mir → Mir) : (mirMod s f).mbx = s.mbx := rfl
@[simp] theorem mirMod_sto (s : State) (f : Mir → Mir) : (mirMod s f).sto = s.sto := rfl
@[simp] theorem mirMod_mir (s : State) (f : Mir → Mir) : (mirMod s f).mir = f s.mir := rfl
@[simp] theorem mirMod_dom (s : State) (f : Mir → Mir) : (mirMod s f).dom = s.dom := rfl
@[simp] theorem mirMod_hbmU (s : State) (f : Mir → Mir) : (mirMod s f).hbmU = s.hbmU := rfl
@[simp] theorem mirMod_hbm (s : State) (f : Mir → Mir) : (mirMod s f).hbm = s.hbm := rfl
@[simp] theorem mirMod_tap (s : State) (f : Mir → Mir) : (mirMod s f).tap = s.tap := rfl
@[simp] theorem mirMod_out (s : State) (f : Mir → Mir) : (mirMod s f).out = s.out := rfl
@[simp] theorem mirMod_free (s : State) (f : Mir → Mir) : (mirMod s f).free = s.free := rfl
@[simp] theorem mirMod_pending (s : State) (f : Mir → Mir) : (mirMod s f).pending = s.pending := rfl

@[simp] theorem winMod_board (s : State) (f : Window → Window) : (winMod s f).board = s.board := rfl
@[simp] theorem winMod_rst (s : State) (f : Window → Window) : (winMod s f).rst = s.rst := rfl
@[simp] theorem winMod_app (s : State) (f : Window → Window) : (winMod s f).app = s.app := rfl
@[simp] theorem winMod_tmb (s : State) (f : Window → Window) : (winMod s f).tmb = s.tmb := rfl
@[simp] theorem winMod_ptp (s : State) (f : Window → Window) : (winMod s f).ptp = s.ptp := rfl
@[simp] theorem winMod_sltCph (s : State) (f : Window → Window) : (winMod s f).sltCph = s.sltCph := rfl
@[simp] theorem winMod_sltEng (s : State) (f : Window → Window) : (winMod s f).sltEng = s.sltEng := rfl
@[simp] theorem winMod_sltQue (s : State) (f : Window → Window) : (winMod s f).sltQue = s.sltQue := rfl
@[simp] theorem winMod_lnm (s : State) (f : Window → Window) : (winMod s f).lnm = s.lnm := rfl
@[simp] theorem winMod_prs (s : State) (f : Window → Window) : (winMod s f).prs = s.prs := rfl
@[simp] theorem winMod_dec (s : State) (f : Window → Window) : (winMod s f).dec = s.dec := rfl
@[simp] theorem winMod_fwd (s : State) (f : Window → Window) : (winMod s f).fwd = s.fwd := rfl
@[simp] theorem winMod_crb (s : State) (f : Window → Window) : (winMod s f).crb = s.crb := rfl
@[simp] theorem winMod_sch (s : State) (f : Window → Window) : (winMod s f).sch = s.sch := rfl
@[simp] theorem winMod_ldg (s : State) (f : Window → Window) : (winMod s f).ldg = s.ldg := rfl
@[simp] theorem winMod_eng (s : State) (f : Window → Window) : (winMod s f).eng = s.eng := rfl
@[simp] theorem winMod_cph (s : State) (f : Window → Window) : (winMod s f).cph = s.cph := rfl
@[simp] theorem winMod_kvl (s : State) (f : Window → Window) : (winMod s f).kvl = s.kvl := rfl
@[simp] theorem winMod_flt (s : State) (f : Window → Window) : (winMod s f).flt = s.flt := rfl
@[simp] theorem winMod_sec (s : State) (f : Window → Window) : (winMod s f).sec = s.sec := rfl
@[simp] theorem winMod_hif (s : State) (f : Window → Window) : (winMod s f).hif = s.hif := rfl
@[simp] theorem winMod_win (s : State) (f : Window → Window) : (winMod s f).win = f s.win := rfl
@[simp] theorem winMod_sb (s : State) (f : Window → Window) : (winMod s f).sb = s.sb := rfl
@[simp] theorem winMod_que (s : State) (f : Window → Window) : (winMod s f).que = s.que := rfl
@[simp] theorem winMod_dma (s : State) (f : Window → Window) : (winMod s f).dma = s.dma := rfl
@[simp] theorem winMod_mbx (s : State) (f : Window → Window) : (winMod s f).mbx = s.mbx := rfl
@[simp] theorem winMod_sto (s : State) (f : Window → Window) : (winMod s f).sto = s.sto := rfl
@[simp] theorem winMod_mir (s : State) (f : Window → Window) : (winMod s f).mir = s.mir := rfl
@[simp] theorem winMod_dom (s : State) (f : Window → Window) : (winMod s f).dom = s.dom := rfl
@[simp] theorem winMod_hbmU (s : State) (f : Window → Window) : (winMod s f).hbmU = s.hbmU := rfl
@[simp] theorem winMod_hbm (s : State) (f : Window → Window) : (winMod s f).hbm = s.hbm := rfl
@[simp] theorem winMod_tap (s : State) (f : Window → Window) : (winMod s f).tap = s.tap := rfl
@[simp] theorem winMod_out (s : State) (f : Window → Window) : (winMod s f).out = s.out := rfl
@[simp] theorem winMod_free (s : State) (f : Window → Window) : (winMod s f).free = s.free := rfl
@[simp] theorem winMod_pending (s : State) (f : Window → Window) : (winMod s f).pending = s.pending := rfl

@[simp] theorem rstMod_board (s : State) (f : Rst → Rst) : (rstMod s f).board = s.board := rfl
@[simp] theorem rstMod_rst (s : State) (f : Rst → Rst) : (rstMod s f).rst = f s.rst := rfl
@[simp] theorem rstMod_app (s : State) (f : Rst → Rst) : (rstMod s f).app = s.app := rfl
@[simp] theorem rstMod_tmb (s : State) (f : Rst → Rst) : (rstMod s f).tmb = s.tmb := rfl
@[simp] theorem rstMod_ptp (s : State) (f : Rst → Rst) : (rstMod s f).ptp = s.ptp := rfl
@[simp] theorem rstMod_sltCph (s : State) (f : Rst → Rst) : (rstMod s f).sltCph = s.sltCph := rfl
@[simp] theorem rstMod_sltEng (s : State) (f : Rst → Rst) : (rstMod s f).sltEng = s.sltEng := rfl
@[simp] theorem rstMod_sltQue (s : State) (f : Rst → Rst) : (rstMod s f).sltQue = s.sltQue := rfl
@[simp] theorem rstMod_lnm (s : State) (f : Rst → Rst) : (rstMod s f).lnm = s.lnm := rfl
@[simp] theorem rstMod_prs (s : State) (f : Rst → Rst) : (rstMod s f).prs = s.prs := rfl
@[simp] theorem rstMod_dec (s : State) (f : Rst → Rst) : (rstMod s f).dec = s.dec := rfl
@[simp] theorem rstMod_fwd (s : State) (f : Rst → Rst) : (rstMod s f).fwd = s.fwd := rfl
@[simp] theorem rstMod_crb (s : State) (f : Rst → Rst) : (rstMod s f).crb = s.crb := rfl
@[simp] theorem rstMod_sch (s : State) (f : Rst → Rst) : (rstMod s f).sch = s.sch := rfl
@[simp] theorem rstMod_ldg (s : State) (f : Rst → Rst) : (rstMod s f).ldg = s.ldg := rfl
@[simp] theorem rstMod_eng (s : State) (f : Rst → Rst) : (rstMod s f).eng = s.eng := rfl
@[simp] theorem rstMod_cph (s : State) (f : Rst → Rst) : (rstMod s f).cph = s.cph := rfl
@[simp] theorem rstMod_kvl (s : State) (f : Rst → Rst) : (rstMod s f).kvl = s.kvl := rfl
@[simp] theorem rstMod_flt (s : State) (f : Rst → Rst) : (rstMod s f).flt = s.flt := rfl
@[simp] theorem rstMod_sec (s : State) (f : Rst → Rst) : (rstMod s f).sec = s.sec := rfl
@[simp] theorem rstMod_hif (s : State) (f : Rst → Rst) : (rstMod s f).hif = s.hif := rfl
@[simp] theorem rstMod_win (s : State) (f : Rst → Rst) : (rstMod s f).win = s.win := rfl
@[simp] theorem rstMod_sb (s : State) (f : Rst → Rst) : (rstMod s f).sb = s.sb := rfl
@[simp] theorem rstMod_que (s : State) (f : Rst → Rst) : (rstMod s f).que = s.que := rfl
@[simp] theorem rstMod_dma (s : State) (f : Rst → Rst) : (rstMod s f).dma = s.dma := rfl
@[simp] theorem rstMod_mbx (s : State) (f : Rst → Rst) : (rstMod s f).mbx = s.mbx := rfl
@[simp] theorem rstMod_sto (s : State) (f : Rst → Rst) : (rstMod s f).sto = s.sto := rfl
@[simp] theorem rstMod_mir (s : State) (f : Rst → Rst) : (rstMod s f).mir = s.mir := rfl
@[simp] theorem rstMod_dom (s : State) (f : Rst → Rst) : (rstMod s f).dom = s.dom := rfl
@[simp] theorem rstMod_hbmU (s : State) (f : Rst → Rst) : (rstMod s f).hbmU = s.hbmU := rfl
@[simp] theorem rstMod_hbm (s : State) (f : Rst → Rst) : (rstMod s f).hbm = s.hbm := rfl
@[simp] theorem rstMod_tap (s : State) (f : Rst → Rst) : (rstMod s f).tap = s.tap := rfl
@[simp] theorem rstMod_out (s : State) (f : Rst → Rst) : (rstMod s f).out = s.out := rfl
@[simp] theorem rstMod_free (s : State) (f : Rst → Rst) : (rstMod s f).free = s.free := rfl
@[simp] theorem rstMod_pending (s : State) (f : Rst → Rst) : (rstMod s f).pending = s.pending := rfl

@[simp] theorem stoMod_board (s : State) (f : Sto → Sto) : (stoMod s f).board = s.board := rfl
@[simp] theorem stoMod_rst (s : State) (f : Sto → Sto) : (stoMod s f).rst = s.rst := rfl
@[simp] theorem stoMod_app (s : State) (f : Sto → Sto) : (stoMod s f).app = s.app := rfl
@[simp] theorem stoMod_tmb (s : State) (f : Sto → Sto) : (stoMod s f).tmb = s.tmb := rfl
@[simp] theorem stoMod_ptp (s : State) (f : Sto → Sto) : (stoMod s f).ptp = s.ptp := rfl
@[simp] theorem stoMod_sltCph (s : State) (f : Sto → Sto) : (stoMod s f).sltCph = s.sltCph := rfl
@[simp] theorem stoMod_sltEng (s : State) (f : Sto → Sto) : (stoMod s f).sltEng = s.sltEng := rfl
@[simp] theorem stoMod_sltQue (s : State) (f : Sto → Sto) : (stoMod s f).sltQue = s.sltQue := rfl
@[simp] theorem stoMod_lnm (s : State) (f : Sto → Sto) : (stoMod s f).lnm = s.lnm := rfl
@[simp] theorem stoMod_prs (s : State) (f : Sto → Sto) : (stoMod s f).prs = s.prs := rfl
@[simp] theorem stoMod_dec (s : State) (f : Sto → Sto) : (stoMod s f).dec = s.dec := rfl
@[simp] theorem stoMod_fwd (s : State) (f : Sto → Sto) : (stoMod s f).fwd = s.fwd := rfl
@[simp] theorem stoMod_crb (s : State) (f : Sto → Sto) : (stoMod s f).crb = s.crb := rfl
@[simp] theorem stoMod_sch (s : State) (f : Sto → Sto) : (stoMod s f).sch = s.sch := rfl
@[simp] theorem stoMod_ldg (s : State) (f : Sto → Sto) : (stoMod s f).ldg = s.ldg := rfl
@[simp] theorem stoMod_eng (s : State) (f : Sto → Sto) : (stoMod s f).eng = s.eng := rfl
@[simp] theorem stoMod_cph (s : State) (f : Sto → Sto) : (stoMod s f).cph = s.cph := rfl
@[simp] theorem stoMod_kvl (s : State) (f : Sto → Sto) : (stoMod s f).kvl = s.kvl := rfl
@[simp] theorem stoMod_flt (s : State) (f : Sto → Sto) : (stoMod s f).flt = s.flt := rfl
@[simp] theorem stoMod_sec (s : State) (f : Sto → Sto) : (stoMod s f).sec = s.sec := rfl
@[simp] theorem stoMod_hif (s : State) (f : Sto → Sto) : (stoMod s f).hif = s.hif := rfl
@[simp] theorem stoMod_win (s : State) (f : Sto → Sto) : (stoMod s f).win = s.win := rfl
@[simp] theorem stoMod_sb (s : State) (f : Sto → Sto) : (stoMod s f).sb = s.sb := rfl
@[simp] theorem stoMod_que (s : State) (f : Sto → Sto) : (stoMod s f).que = s.que := rfl
@[simp] theorem stoMod_dma (s : State) (f : Sto → Sto) : (stoMod s f).dma = s.dma := rfl
@[simp] theorem stoMod_mbx (s : State) (f : Sto → Sto) : (stoMod s f).mbx = s.mbx := rfl
@[simp] theorem stoMod_sto (s : State) (f : Sto → Sto) : (stoMod s f).sto = f s.sto := rfl
@[simp] theorem stoMod_mir (s : State) (f : Sto → Sto) : (stoMod s f).mir = s.mir := rfl
@[simp] theorem stoMod_dom (s : State) (f : Sto → Sto) : (stoMod s f).dom = s.dom := rfl
@[simp] theorem stoMod_hbmU (s : State) (f : Sto → Sto) : (stoMod s f).hbmU = s.hbmU := rfl
@[simp] theorem stoMod_hbm (s : State) (f : Sto → Sto) : (stoMod s f).hbm = s.hbm := rfl
@[simp] theorem stoMod_tap (s : State) (f : Sto → Sto) : (stoMod s f).tap = s.tap := rfl
@[simp] theorem stoMod_out (s : State) (f : Sto → Sto) : (stoMod s f).out = s.out := rfl
@[simp] theorem stoMod_free (s : State) (f : Sto → Sto) : (stoMod s f).free = s.free := rfl
@[simp] theorem stoMod_pending (s : State) (f : Sto → Sto) : (stoMod s f).pending = s.pending := rfl

@[simp] theorem tmbMod_board (s : State) (f : Tmb → Tmb) : (tmbMod s f).board = s.board := rfl
@[simp] theorem tmbMod_rst (s : State) (f : Tmb → Tmb) : (tmbMod s f).rst = s.rst := rfl
@[simp] theorem tmbMod_app (s : State) (f : Tmb → Tmb) : (tmbMod s f).app = s.app := rfl
@[simp] theorem tmbMod_tmb (s : State) (f : Tmb → Tmb) : (tmbMod s f).tmb = f s.tmb := rfl
@[simp] theorem tmbMod_ptp (s : State) (f : Tmb → Tmb) : (tmbMod s f).ptp = s.ptp := rfl
@[simp] theorem tmbMod_sltCph (s : State) (f : Tmb → Tmb) : (tmbMod s f).sltCph = s.sltCph := rfl
@[simp] theorem tmbMod_sltEng (s : State) (f : Tmb → Tmb) : (tmbMod s f).sltEng = s.sltEng := rfl
@[simp] theorem tmbMod_sltQue (s : State) (f : Tmb → Tmb) : (tmbMod s f).sltQue = s.sltQue := rfl
@[simp] theorem tmbMod_lnm (s : State) (f : Tmb → Tmb) : (tmbMod s f).lnm = s.lnm := rfl
@[simp] theorem tmbMod_prs (s : State) (f : Tmb → Tmb) : (tmbMod s f).prs = s.prs := rfl
@[simp] theorem tmbMod_dec (s : State) (f : Tmb → Tmb) : (tmbMod s f).dec = s.dec := rfl
@[simp] theorem tmbMod_fwd (s : State) (f : Tmb → Tmb) : (tmbMod s f).fwd = s.fwd := rfl
@[simp] theorem tmbMod_crb (s : State) (f : Tmb → Tmb) : (tmbMod s f).crb = s.crb := rfl
@[simp] theorem tmbMod_sch (s : State) (f : Tmb → Tmb) : (tmbMod s f).sch = s.sch := rfl
@[simp] theorem tmbMod_ldg (s : State) (f : Tmb → Tmb) : (tmbMod s f).ldg = s.ldg := rfl
@[simp] theorem tmbMod_eng (s : State) (f : Tmb → Tmb) : (tmbMod s f).eng = s.eng := rfl
@[simp] theorem tmbMod_cph (s : State) (f : Tmb → Tmb) : (tmbMod s f).cph = s.cph := rfl
@[simp] theorem tmbMod_kvl (s : State) (f : Tmb → Tmb) : (tmbMod s f).kvl = s.kvl := rfl
@[simp] theorem tmbMod_flt (s : State) (f : Tmb → Tmb) : (tmbMod s f).flt = s.flt := rfl
@[simp] theorem tmbMod_sec (s : State) (f : Tmb → Tmb) : (tmbMod s f).sec = s.sec := rfl
@[simp] theorem tmbMod_hif (s : State) (f : Tmb → Tmb) : (tmbMod s f).hif = s.hif := rfl
@[simp] theorem tmbMod_win (s : State) (f : Tmb → Tmb) : (tmbMod s f).win = s.win := rfl
@[simp] theorem tmbMod_sb (s : State) (f : Tmb → Tmb) : (tmbMod s f).sb = s.sb := rfl
@[simp] theorem tmbMod_que (s : State) (f : Tmb → Tmb) : (tmbMod s f).que = s.que := rfl
@[simp] theorem tmbMod_dma (s : State) (f : Tmb → Tmb) : (tmbMod s f).dma = s.dma := rfl
@[simp] theorem tmbMod_mbx (s : State) (f : Tmb → Tmb) : (tmbMod s f).mbx = s.mbx := rfl
@[simp] theorem tmbMod_sto (s : State) (f : Tmb → Tmb) : (tmbMod s f).sto = s.sto := rfl
@[simp] theorem tmbMod_mir (s : State) (f : Tmb → Tmb) : (tmbMod s f).mir = s.mir := rfl
@[simp] theorem tmbMod_dom (s : State) (f : Tmb → Tmb) : (tmbMod s f).dom = s.dom := rfl
@[simp] theorem tmbMod_hbmU (s : State) (f : Tmb → Tmb) : (tmbMod s f).hbmU = s.hbmU := rfl
@[simp] theorem tmbMod_hbm (s : State) (f : Tmb → Tmb) : (tmbMod s f).hbm = s.hbm := rfl
@[simp] theorem tmbMod_tap (s : State) (f : Tmb → Tmb) : (tmbMod s f).tap = s.tap := rfl
@[simp] theorem tmbMod_out (s : State) (f : Tmb → Tmb) : (tmbMod s f).out = s.out := rfl
@[simp] theorem tmbMod_free (s : State) (f : Tmb → Tmb) : (tmbMod s f).free = s.free := rfl
@[simp] theorem tmbMod_pending (s : State) (f : Tmb → Tmb) : (tmbMod s f).pending = s.pending := rfl

@[simp] theorem sltEngMod_board (s : State) (f : SlotTable → SlotTable) : (sltEngMod s f).board = s.board := rfl
@[simp] theorem sltEngMod_rst (s : State) (f : SlotTable → SlotTable) : (sltEngMod s f).rst = s.rst := rfl
@[simp] theorem sltEngMod_app (s : State) (f : SlotTable → SlotTable) : (sltEngMod s f).app = s.app := rfl
@[simp] theorem sltEngMod_tmb (s : State) (f : SlotTable → SlotTable) : (sltEngMod s f).tmb = s.tmb := rfl
@[simp] theorem sltEngMod_ptp (s : State) (f : SlotTable → SlotTable) : (sltEngMod s f).ptp = s.ptp := rfl
@[simp] theorem sltEngMod_sltCph (s : State) (f : SlotTable → SlotTable) : (sltEngMod s f).sltCph = s.sltCph := rfl
@[simp] theorem sltEngMod_sltEng (s : State) (f : SlotTable → SlotTable) : (sltEngMod s f).sltEng = f s.sltEng := rfl
@[simp] theorem sltEngMod_sltQue (s : State) (f : SlotTable → SlotTable) : (sltEngMod s f).sltQue = s.sltQue := rfl
@[simp] theorem sltEngMod_lnm (s : State) (f : SlotTable → SlotTable) : (sltEngMod s f).lnm = s.lnm := rfl
@[simp] theorem sltEngMod_prs (s : State) (f : SlotTable → SlotTable) : (sltEngMod s f).prs = s.prs := rfl
@[simp] theorem sltEngMod_dec (s : State) (f : SlotTable → SlotTable) : (sltEngMod s f).dec = s.dec := rfl
@[simp] theorem sltEngMod_fwd (s : State) (f : SlotTable → SlotTable) : (sltEngMod s f).fwd = s.fwd := rfl
@[simp] theorem sltEngMod_crb (s : State) (f : SlotTable → SlotTable) : (sltEngMod s f).crb = s.crb := rfl
@[simp] theorem sltEngMod_sch (s : State) (f : SlotTable → SlotTable) : (sltEngMod s f).sch = s.sch := rfl
@[simp] theorem sltEngMod_ldg (s : State) (f : SlotTable → SlotTable) : (sltEngMod s f).ldg = s.ldg := rfl
@[simp] theorem sltEngMod_eng (s : State) (f : SlotTable → SlotTable) : (sltEngMod s f).eng = s.eng := rfl
@[simp] theorem sltEngMod_cph (s : State) (f : SlotTable → SlotTable) : (sltEngMod s f).cph = s.cph := rfl
@[simp] theorem sltEngMod_kvl (s : State) (f : SlotTable → SlotTable) : (sltEngMod s f).kvl = s.kvl := rfl
@[simp] theorem sltEngMod_flt (s : State) (f : SlotTable → SlotTable) : (sltEngMod s f).flt = s.flt := rfl
@[simp] theorem sltEngMod_sec (s : State) (f : SlotTable → SlotTable) : (sltEngMod s f).sec = s.sec := rfl
@[simp] theorem sltEngMod_hif (s : State) (f : SlotTable → SlotTable) : (sltEngMod s f).hif = s.hif := rfl
@[simp] theorem sltEngMod_win (s : State) (f : SlotTable → SlotTable) : (sltEngMod s f).win = s.win := rfl
@[simp] theorem sltEngMod_sb (s : State) (f : SlotTable → SlotTable) : (sltEngMod s f).sb = s.sb := rfl
@[simp] theorem sltEngMod_que (s : State) (f : SlotTable → SlotTable) : (sltEngMod s f).que = s.que := rfl
@[simp] theorem sltEngMod_dma (s : State) (f : SlotTable → SlotTable) : (sltEngMod s f).dma = s.dma := rfl
@[simp] theorem sltEngMod_mbx (s : State) (f : SlotTable → SlotTable) : (sltEngMod s f).mbx = s.mbx := rfl
@[simp] theorem sltEngMod_sto (s : State) (f : SlotTable → SlotTable) : (sltEngMod s f).sto = s.sto := rfl
@[simp] theorem sltEngMod_mir (s : State) (f : SlotTable → SlotTable) : (sltEngMod s f).mir = s.mir := rfl
@[simp] theorem sltEngMod_dom (s : State) (f : SlotTable → SlotTable) : (sltEngMod s f).dom = s.dom := rfl
@[simp] theorem sltEngMod_hbmU (s : State) (f : SlotTable → SlotTable) : (sltEngMod s f).hbmU = s.hbmU := rfl
@[simp] theorem sltEngMod_hbm (s : State) (f : SlotTable → SlotTable) : (sltEngMod s f).hbm = s.hbm := rfl
@[simp] theorem sltEngMod_tap (s : State) (f : SlotTable → SlotTable) : (sltEngMod s f).tap = s.tap := rfl
@[simp] theorem sltEngMod_out (s : State) (f : SlotTable → SlotTable) : (sltEngMod s f).out = s.out := rfl
@[simp] theorem sltEngMod_free (s : State) (f : SlotTable → SlotTable) : (sltEngMod s f).free = s.free := rfl
@[simp] theorem sltEngMod_pending (s : State) (f : SlotTable → SlotTable) : (sltEngMod s f).pending = s.pending := rfl

@[simp] theorem prsMod_board (s : State) (k : Nat) (f : PrsSlice → PrsSlice) : (prsMod s k f).board = s.board := rfl
@[simp] theorem prsMod_rst (s : State) (k : Nat) (f : PrsSlice → PrsSlice) : (prsMod s k f).rst = s.rst := rfl
@[simp] theorem prsMod_app (s : State) (k : Nat) (f : PrsSlice → PrsSlice) : (prsMod s k f).app = s.app := rfl
@[simp] theorem prsMod_tmb (s : State) (k : Nat) (f : PrsSlice → PrsSlice) : (prsMod s k f).tmb = s.tmb := rfl
@[simp] theorem prsMod_ptp (s : State) (k : Nat) (f : PrsSlice → PrsSlice) : (prsMod s k f).ptp = s.ptp := rfl
@[simp] theorem prsMod_sltCph (s : State) (k : Nat) (f : PrsSlice → PrsSlice) : (prsMod s k f).sltCph = s.sltCph := rfl
@[simp] theorem prsMod_sltEng (s : State) (k : Nat) (f : PrsSlice → PrsSlice) : (prsMod s k f).sltEng = s.sltEng := rfl
@[simp] theorem prsMod_sltQue (s : State) (k : Nat) (f : PrsSlice → PrsSlice) : (prsMod s k f).sltQue = s.sltQue := rfl
@[simp] theorem prsMod_lnm (s : State) (k : Nat) (f : PrsSlice → PrsSlice) : (prsMod s k f).lnm = s.lnm := rfl
@[simp] theorem prsMod_dec (s : State) (k : Nat) (f : PrsSlice → PrsSlice) : (prsMod s k f).dec = s.dec := rfl
@[simp] theorem prsMod_fwd (s : State) (k : Nat) (f : PrsSlice → PrsSlice) : (prsMod s k f).fwd = s.fwd := rfl
@[simp] theorem prsMod_crb (s : State) (k : Nat) (f : PrsSlice → PrsSlice) : (prsMod s k f).crb = s.crb := rfl
@[simp] theorem prsMod_sch (s : State) (k : Nat) (f : PrsSlice → PrsSlice) : (prsMod s k f).sch = s.sch := rfl
@[simp] theorem prsMod_ldg (s : State) (k : Nat) (f : PrsSlice → PrsSlice) : (prsMod s k f).ldg = s.ldg := rfl
@[simp] theorem prsMod_eng (s : State) (k : Nat) (f : PrsSlice → PrsSlice) : (prsMod s k f).eng = s.eng := rfl
@[simp] theorem prsMod_cph (s : State) (k : Nat) (f : PrsSlice → PrsSlice) : (prsMod s k f).cph = s.cph := rfl
@[simp] theorem prsMod_kvl (s : State) (k : Nat) (f : PrsSlice → PrsSlice) : (prsMod s k f).kvl = s.kvl := rfl
@[simp] theorem prsMod_flt (s : State) (k : Nat) (f : PrsSlice → PrsSlice) : (prsMod s k f).flt = s.flt := rfl
@[simp] theorem prsMod_sec (s : State) (k : Nat) (f : PrsSlice → PrsSlice) : (prsMod s k f).sec = s.sec := rfl
@[simp] theorem prsMod_hif (s : State) (k : Nat) (f : PrsSlice → PrsSlice) : (prsMod s k f).hif = s.hif := rfl
@[simp] theorem prsMod_win (s : State) (k : Nat) (f : PrsSlice → PrsSlice) : (prsMod s k f).win = s.win := rfl
@[simp] theorem prsMod_sb (s : State) (k : Nat) (f : PrsSlice → PrsSlice) : (prsMod s k f).sb = s.sb := rfl
@[simp] theorem prsMod_que (s : State) (k : Nat) (f : PrsSlice → PrsSlice) : (prsMod s k f).que = s.que := rfl
@[simp] theorem prsMod_dma (s : State) (k : Nat) (f : PrsSlice → PrsSlice) : (prsMod s k f).dma = s.dma := rfl
@[simp] theorem prsMod_mbx (s : State) (k : Nat) (f : PrsSlice → PrsSlice) : (prsMod s k f).mbx = s.mbx := rfl
@[simp] theorem prsMod_sto (s : State) (k : Nat) (f : PrsSlice → PrsSlice) : (prsMod s k f).sto = s.sto := rfl
@[simp] theorem prsMod_mir (s : State) (k : Nat) (f : PrsSlice → PrsSlice) : (prsMod s k f).mir = s.mir := rfl
@[simp] theorem prsMod_dom (s : State) (k : Nat) (f : PrsSlice → PrsSlice) : (prsMod s k f).dom = s.dom := rfl
@[simp] theorem prsMod_hbmU (s : State) (k : Nat) (f : PrsSlice → PrsSlice) : (prsMod s k f).hbmU = s.hbmU := rfl
@[simp] theorem prsMod_hbm (s : State) (k : Nat) (f : PrsSlice → PrsSlice) : (prsMod s k f).hbm = s.hbm := rfl
@[simp] theorem prsMod_tap (s : State) (k : Nat) (f : PrsSlice → PrsSlice) : (prsMod s k f).tap = s.tap := rfl
@[simp] theorem prsMod_out (s : State) (k : Nat) (f : PrsSlice → PrsSlice) : (prsMod s k f).out = s.out := rfl
@[simp] theorem prsMod_free (s : State) (k : Nat) (f : PrsSlice → PrsSlice) : (prsMod s k f).free = s.free := rfl
@[simp] theorem prsMod_pending (s : State) (k : Nat) (f : PrsSlice → PrsSlice) : (prsMod s k f).pending = s.pending := rfl

@[simp] theorem alarmMod_board (s : State) (k : AlarmKind) (f : AlarmState → AlarmState) : (alarmMod s k f).board = s.board := rfl
@[simp] theorem alarmMod_rst (s : State) (k : AlarmKind) (f : AlarmState → AlarmState) : (alarmMod s k f).rst = s.rst := rfl
@[simp] theorem alarmMod_app (s : State) (k : AlarmKind) (f : AlarmState → AlarmState) : (alarmMod s k f).app = s.app := rfl
@[simp] theorem alarmMod_tmb (s : State) (k : AlarmKind) (f : AlarmState → AlarmState) : (alarmMod s k f).tmb = s.tmb := rfl
@[simp] theorem alarmMod_ptp (s : State) (k : AlarmKind) (f : AlarmState → AlarmState) : (alarmMod s k f).ptp = s.ptp := rfl
@[simp] theorem alarmMod_sltCph (s : State) (k : AlarmKind) (f : AlarmState → AlarmState) : (alarmMod s k f).sltCph = s.sltCph := rfl
@[simp] theorem alarmMod_sltEng (s : State) (k : AlarmKind) (f : AlarmState → AlarmState) : (alarmMod s k f).sltEng = s.sltEng := rfl
@[simp] theorem alarmMod_sltQue (s : State) (k : AlarmKind) (f : AlarmState → AlarmState) : (alarmMod s k f).sltQue = s.sltQue := rfl
@[simp] theorem alarmMod_lnm (s : State) (k : AlarmKind) (f : AlarmState → AlarmState) : (alarmMod s k f).lnm = s.lnm := rfl
@[simp] theorem alarmMod_prs (s : State) (k : AlarmKind) (f : AlarmState → AlarmState) : (alarmMod s k f).prs = s.prs := rfl
@[simp] theorem alarmMod_dec (s : State) (k : AlarmKind) (f : AlarmState → AlarmState) : (alarmMod s k f).dec = s.dec := rfl
@[simp] theorem alarmMod_fwd (s : State) (k : AlarmKind) (f : AlarmState → AlarmState) : (alarmMod s k f).fwd = s.fwd := rfl
@[simp] theorem alarmMod_crb (s : State) (k : AlarmKind) (f : AlarmState → AlarmState) : (alarmMod s k f).crb = s.crb := rfl
@[simp] theorem alarmMod_sch (s : State) (k : AlarmKind) (f : AlarmState → AlarmState) : (alarmMod s k f).sch = s.sch := rfl
@[simp] theorem alarmMod_ldg (s : State) (k : AlarmKind) (f : AlarmState → AlarmState) : (alarmMod s k f).ldg = s.ldg := rfl
@[simp] theorem alarmMod_eng (s : State) (k : AlarmKind) (f : AlarmState → AlarmState) : (alarmMod s k f).eng = s.eng := rfl
@[simp] theorem alarmMod_cph (s : State) (k : AlarmKind) (f : AlarmState → AlarmState) : (alarmMod s k f).cph = s.cph := rfl
@[simp] theorem alarmMod_kvl (s : State) (k : AlarmKind) (f : AlarmState → AlarmState) : (alarmMod s k f).kvl = s.kvl := rfl
@[simp] theorem alarmMod_flt (s : State) (k : AlarmKind) (f : AlarmState → AlarmState) : (alarmMod s k f).flt = s.flt := rfl
@[simp] theorem alarmMod_hif (s : State) (k : AlarmKind) (f : AlarmState → AlarmState) : (alarmMod s k f).hif = s.hif := rfl
@[simp] theorem alarmMod_win (s : State) (k : AlarmKind) (f : AlarmState → AlarmState) : (alarmMod s k f).win = s.win := rfl
@[simp] theorem alarmMod_sb (s : State) (k : AlarmKind) (f : AlarmState → AlarmState) : (alarmMod s k f).sb = s.sb := rfl
@[simp] theorem alarmMod_que (s : State) (k : AlarmKind) (f : AlarmState → AlarmState) : (alarmMod s k f).que = s.que := rfl
@[simp] theorem alarmMod_dma (s : State) (k : AlarmKind) (f : AlarmState → AlarmState) : (alarmMod s k f).dma = s.dma := rfl
@[simp] theorem alarmMod_mbx (s : State) (k : AlarmKind) (f : AlarmState → AlarmState) : (alarmMod s k f).mbx = s.mbx := rfl
@[simp] theorem alarmMod_sto (s : State) (k : AlarmKind) (f : AlarmState → AlarmState) : (alarmMod s k f).sto = s.sto := rfl
@[simp] theorem alarmMod_mir (s : State) (k : AlarmKind) (f : AlarmState → AlarmState) : (alarmMod s k f).mir = s.mir := rfl
@[simp] theorem alarmMod_dom (s : State) (k : AlarmKind) (f : AlarmState → AlarmState) : (alarmMod s k f).dom = s.dom := rfl
@[simp] theorem alarmMod_hbmU (s : State) (k : AlarmKind) (f : AlarmState → AlarmState) : (alarmMod s k f).hbmU = s.hbmU := rfl
@[simp] theorem alarmMod_hbm (s : State) (k : AlarmKind) (f : AlarmState → AlarmState) : (alarmMod s k f).hbm = s.hbm := rfl
@[simp] theorem alarmMod_tap (s : State) (k : AlarmKind) (f : AlarmState → AlarmState) : (alarmMod s k f).tap = s.tap := rfl
@[simp] theorem alarmMod_out (s : State) (k : AlarmKind) (f : AlarmState → AlarmState) : (alarmMod s k f).out = s.out := rfl
@[simp] theorem alarmMod_free (s : State) (k : AlarmKind) (f : AlarmState → AlarmState) : (alarmMod s k f).free = s.free := rfl
@[simp] theorem alarmMod_pending (s : State) (k : AlarmKind) (f : AlarmState → AlarmState) : (alarmMod s k f).pending = s.pending := rfl

@[simp] theorem threadMod_board (s : State) (e t : Nat) (f : Thread → Thread) : (threadMod s e t f).board = s.board := rfl
@[simp] theorem threadMod_rst (s : State) (e t : Nat) (f : Thread → Thread) : (threadMod s e t f).rst = s.rst := rfl
@[simp] theorem threadMod_app (s : State) (e t : Nat) (f : Thread → Thread) : (threadMod s e t f).app = s.app := rfl
@[simp] theorem threadMod_tmb (s : State) (e t : Nat) (f : Thread → Thread) : (threadMod s e t f).tmb = s.tmb := rfl
@[simp] theorem threadMod_ptp (s : State) (e t : Nat) (f : Thread → Thread) : (threadMod s e t f).ptp = s.ptp := rfl
@[simp] theorem threadMod_sltCph (s : State) (e t : Nat) (f : Thread → Thread) : (threadMod s e t f).sltCph = s.sltCph := rfl
@[simp] theorem threadMod_sltEng (s : State) (e t : Nat) (f : Thread → Thread) : (threadMod s e t f).sltEng = s.sltEng := rfl
@[simp] theorem threadMod_sltQue (s : State) (e t : Nat) (f : Thread → Thread) : (threadMod s e t f).sltQue = s.sltQue := rfl
@[simp] theorem threadMod_lnm (s : State) (e t : Nat) (f : Thread → Thread) : (threadMod s e t f).lnm = s.lnm := rfl
@[simp] theorem threadMod_prs (s : State) (e t : Nat) (f : Thread → Thread) : (threadMod s e t f).prs = s.prs := rfl
@[simp] theorem threadMod_dec (s : State) (e t : Nat) (f : Thread → Thread) : (threadMod s e t f).dec = s.dec := rfl
@[simp] theorem threadMod_fwd (s : State) (e t : Nat) (f : Thread → Thread) : (threadMod s e t f).fwd = s.fwd := rfl
@[simp] theorem threadMod_crb (s : State) (e t : Nat) (f : Thread → Thread) : (threadMod s e t f).crb = s.crb := rfl
@[simp] theorem threadMod_sch (s : State) (e t : Nat) (f : Thread → Thread) : (threadMod s e t f).sch = s.sch := rfl
@[simp] theorem threadMod_ldg (s : State) (e t : Nat) (f : Thread → Thread) : (threadMod s e t f).ldg = s.ldg := rfl
@[simp] theorem threadMod_cph (s : State) (e t : Nat) (f : Thread → Thread) : (threadMod s e t f).cph = s.cph := rfl
@[simp] theorem threadMod_kvl (s : State) (e t : Nat) (f : Thread → Thread) : (threadMod s e t f).kvl = s.kvl := rfl
@[simp] theorem threadMod_flt (s : State) (e t : Nat) (f : Thread → Thread) : (threadMod s e t f).flt = s.flt := rfl
@[simp] theorem threadMod_sec (s : State) (e t : Nat) (f : Thread → Thread) : (threadMod s e t f).sec = s.sec := rfl
@[simp] theorem threadMod_hif (s : State) (e t : Nat) (f : Thread → Thread) : (threadMod s e t f).hif = s.hif := rfl
@[simp] theorem threadMod_win (s : State) (e t : Nat) (f : Thread → Thread) : (threadMod s e t f).win = s.win := rfl
@[simp] theorem threadMod_sb (s : State) (e t : Nat) (f : Thread → Thread) : (threadMod s e t f).sb = s.sb := rfl
@[simp] theorem threadMod_que (s : State) (e t : Nat) (f : Thread → Thread) : (threadMod s e t f).que = s.que := rfl
@[simp] theorem threadMod_dma (s : State) (e t : Nat) (f : Thread → Thread) : (threadMod s e t f).dma = s.dma := rfl
@[simp] theorem threadMod_mbx (s : State) (e t : Nat) (f : Thread → Thread) : (threadMod s e t f).mbx = s.mbx := rfl
@[simp] theorem threadMod_sto (s : State) (e t : Nat) (f : Thread → Thread) : (threadMod s e t f).sto = s.sto := rfl
@[simp] theorem threadMod_mir (s : State) (e t : Nat) (f : Thread → Thread) : (threadMod s e t f).mir = s.mir := rfl
@[simp] theorem threadMod_dom (s : State) (e t : Nat) (f : Thread → Thread) : (threadMod s e t f).dom = s.dom := rfl
@[simp] theorem threadMod_hbmU (s : State) (e t : Nat) (f : Thread → Thread) : (threadMod s e t f).hbmU = s.hbmU := rfl
@[simp] theorem threadMod_hbm (s : State) (e t : Nat) (f : Thread → Thread) : (threadMod s e t f).hbm = s.hbm := rfl
@[simp] theorem threadMod_tap (s : State) (e t : Nat) (f : Thread → Thread) : (threadMod s e t f).tap = s.tap := rfl
@[simp] theorem threadMod_out (s : State) (e t : Nat) (f : Thread → Thread) : (threadMod s e t f).out = s.out := rfl
@[simp] theorem threadMod_free (s : State) (e t : Nat) (f : Thread → Thread) : (threadMod s e t f).free = s.free := rfl
@[simp] theorem threadMod_pending (s : State) (e t : Nat) (f : Thread → Thread) : (threadMod s e t f).pending = s.pending := rfl

@[simp] theorem engineMod_board (s : State) (e : Nat) (f : Engine → Engine) : (engineMod s e f).board = s.board := rfl
@[simp] theorem engineMod_rst (s : State) (e : Nat) (f : Engine → Engine) : (engineMod s e f).rst = s.rst := rfl
@[simp] theorem engineMod_app (s : State) (e : Nat) (f : Engine → Engine) : (engineMod s e f).app = s.app := rfl
@[simp] theorem engineMod_tmb (s : State) (e : Nat) (f : Engine → Engine) : (engineMod s e f).tmb = s.tmb := rfl
@[simp] theorem engineMod_ptp (s : State) (e : Nat) (f : Engine → Engine) : (engineMod s e f).ptp = s.ptp := rfl
@[simp] theorem engineMod_sltCph (s : State) (e : Nat) (f : Engine → Engine) : (engineMod s e f).sltCph = s.sltCph := rfl
@[simp] theorem engineMod_sltEng (s : State) (e : Nat) (f : Engine → Engine) : (engineMod s e f).sltEng = s.sltEng := rfl
@[simp] theorem engineMod_sltQue (s : State) (e : Nat) (f : Engine → Engine) : (engineMod s e f).sltQue = s.sltQue := rfl
@[simp] theorem engineMod_lnm (s : State) (e : Nat) (f : Engine → Engine) : (engineMod s e f).lnm = s.lnm := rfl
@[simp] theorem engineMod_prs (s : State) (e : Nat) (f : Engine → Engine) : (engineMod s e f).prs = s.prs := rfl
@[simp] theorem engineMod_dec (s : State) (e : Nat) (f : Engine → Engine) : (engineMod s e f).dec = s.dec := rfl
@[simp] theorem engineMod_fwd (s : State) (e : Nat) (f : Engine → Engine) : (engineMod s e f).fwd = s.fwd := rfl
@[simp] theorem engineMod_crb (s : State) (e : Nat) (f : Engine → Engine) : (engineMod s e f).crb = s.crb := rfl
@[simp] theorem engineMod_sch (s : State) (e : Nat) (f : Engine → Engine) : (engineMod s e f).sch = s.sch := rfl
@[simp] theorem engineMod_ldg (s : State) (e : Nat) (f : Engine → Engine) : (engineMod s e f).ldg = s.ldg := rfl
@[simp] theorem engineMod_cph (s : State) (e : Nat) (f : Engine → Engine) : (engineMod s e f).cph = s.cph := rfl
@[simp] theorem engineMod_kvl (s : State) (e : Nat) (f : Engine → Engine) : (engineMod s e f).kvl = s.kvl := rfl
@[simp] theorem engineMod_flt (s : State) (e : Nat) (f : Engine → Engine) : (engineMod s e f).flt = s.flt := rfl
@[simp] theorem engineMod_sec (s : State) (e : Nat) (f : Engine → Engine) : (engineMod s e f).sec = s.sec := rfl
@[simp] theorem engineMod_hif (s : State) (e : Nat) (f : Engine → Engine) : (engineMod s e f).hif = s.hif := rfl
@[simp] theorem engineMod_win (s : State) (e : Nat) (f : Engine → Engine) : (engineMod s e f).win = s.win := rfl
@[simp] theorem engineMod_sb (s : State) (e : Nat) (f : Engine → Engine) : (engineMod s e f).sb = s.sb := rfl
@[simp] theorem engineMod_que (s : State) (e : Nat) (f : Engine → Engine) : (engineMod s e f).que = s.que := rfl
@[simp] theorem engineMod_dma (s : State) (e : Nat) (f : Engine → Engine) : (engineMod s e f).dma = s.dma := rfl
@[simp] theorem engineMod_mbx (s : State) (e : Nat) (f : Engine → Engine) : (engineMod s e f).mbx = s.mbx := rfl
@[simp] theorem engineMod_sto (s : State) (e : Nat) (f : Engine → Engine) : (engineMod s e f).sto = s.sto := rfl
@[simp] theorem engineMod_mir (s : State) (e : Nat) (f : Engine → Engine) : (engineMod s e f).mir = s.mir := rfl
@[simp] theorem engineMod_dom (s : State) (e : Nat) (f : Engine → Engine) : (engineMod s e f).dom = s.dom := rfl
@[simp] theorem engineMod_hbmU (s : State) (e : Nat) (f : Engine → Engine) : (engineMod s e f).hbmU = s.hbmU := rfl
@[simp] theorem engineMod_hbm (s : State) (e : Nat) (f : Engine → Engine) : (engineMod s e f).hbm = s.hbm := rfl
@[simp] theorem engineMod_tap (s : State) (e : Nat) (f : Engine → Engine) : (engineMod s e f).tap = s.tap := rfl
@[simp] theorem engineMod_out (s : State) (e : Nat) (f : Engine → Engine) : (engineMod s e f).out = s.out := rfl
@[simp] theorem engineMod_free (s : State) (e : Nat) (f : Engine → Engine) : (engineMod s e f).free = s.free := rfl
@[simp] theorem engineMod_pending (s : State) (e : Nat) (f : Engine → Engine) : (engineMod s e f).pending = s.pending := rfl

@[simp] theorem batchPut_board (s : State) (e t : Nat) (b : Option Batch) : (batchPut s e t b).board = s.board := rfl
@[simp] theorem batchPut_rst (s : State) (e t : Nat) (b : Option Batch) : (batchPut s e t b).rst = s.rst := rfl
@[simp] theorem batchPut_app (s : State) (e t : Nat) (b : Option Batch) : (batchPut s e t b).app = s.app := rfl
@[simp] theorem batchPut_tmb (s : State) (e t : Nat) (b : Option Batch) : (batchPut s e t b).tmb = s.tmb := rfl
@[simp] theorem batchPut_ptp (s : State) (e t : Nat) (b : Option Batch) : (batchPut s e t b).ptp = s.ptp := rfl
@[simp] theorem batchPut_sltCph (s : State) (e t : Nat) (b : Option Batch) : (batchPut s e t b).sltCph = s.sltCph := rfl
@[simp] theorem batchPut_sltEng (s : State) (e t : Nat) (b : Option Batch) : (batchPut s e t b).sltEng = s.sltEng := rfl
@[simp] theorem batchPut_sltQue (s : State) (e t : Nat) (b : Option Batch) : (batchPut s e t b).sltQue = s.sltQue := rfl
@[simp] theorem batchPut_lnm (s : State) (e t : Nat) (b : Option Batch) : (batchPut s e t b).lnm = s.lnm := rfl
@[simp] theorem batchPut_prs (s : State) (e t : Nat) (b : Option Batch) : (batchPut s e t b).prs = s.prs := rfl
@[simp] theorem batchPut_dec (s : State) (e t : Nat) (b : Option Batch) : (batchPut s e t b).dec = s.dec := rfl
@[simp] theorem batchPut_fwd (s : State) (e t : Nat) (b : Option Batch) : (batchPut s e t b).fwd = s.fwd := rfl
@[simp] theorem batchPut_crb (s : State) (e t : Nat) (b : Option Batch) : (batchPut s e t b).crb = s.crb := rfl
@[simp] theorem batchPut_sch (s : State) (e t : Nat) (b : Option Batch) : (batchPut s e t b).sch = s.sch := rfl
@[simp] theorem batchPut_ldg (s : State) (e t : Nat) (b : Option Batch) : (batchPut s e t b).ldg = s.ldg := rfl
@[simp] theorem batchPut_cph (s : State) (e t : Nat) (b : Option Batch) : (batchPut s e t b).cph = s.cph := rfl
@[simp] theorem batchPut_kvl (s : State) (e t : Nat) (b : Option Batch) : (batchPut s e t b).kvl = s.kvl := rfl
@[simp] theorem batchPut_flt (s : State) (e t : Nat) (b : Option Batch) : (batchPut s e t b).flt = s.flt := rfl
@[simp] theorem batchPut_sec (s : State) (e t : Nat) (b : Option Batch) : (batchPut s e t b).sec = s.sec := rfl
@[simp] theorem batchPut_hif (s : State) (e t : Nat) (b : Option Batch) : (batchPut s e t b).hif = s.hif := rfl
@[simp] theorem batchPut_win (s : State) (e t : Nat) (b : Option Batch) : (batchPut s e t b).win = s.win := rfl
@[simp] theorem batchPut_sb (s : State) (e t : Nat) (b : Option Batch) : (batchPut s e t b).sb = s.sb := rfl
@[simp] theorem batchPut_que (s : State) (e t : Nat) (b : Option Batch) : (batchPut s e t b).que = s.que := rfl
@[simp] theorem batchPut_dma (s : State) (e t : Nat) (b : Option Batch) : (batchPut s e t b).dma = s.dma := rfl
@[simp] theorem batchPut_mbx (s : State) (e t : Nat) (b : Option Batch) : (batchPut s e t b).mbx = s.mbx := rfl
@[simp] theorem batchPut_sto (s : State) (e t : Nat) (b : Option Batch) : (batchPut s e t b).sto = s.sto := rfl
@[simp] theorem batchPut_mir (s : State) (e t : Nat) (b : Option Batch) : (batchPut s e t b).mir = s.mir := rfl
@[simp] theorem batchPut_dom (s : State) (e t : Nat) (b : Option Batch) : (batchPut s e t b).dom = s.dom := rfl
@[simp] theorem batchPut_hbmU (s : State) (e t : Nat) (b : Option Batch) : (batchPut s e t b).hbmU = s.hbmU := rfl
@[simp] theorem batchPut_hbm (s : State) (e t : Nat) (b : Option Batch) : (batchPut s e t b).hbm = s.hbm := rfl
@[simp] theorem batchPut_tap (s : State) (e t : Nat) (b : Option Batch) : (batchPut s e t b).tap = s.tap := rfl
@[simp] theorem batchPut_out (s : State) (e t : Nat) (b : Option Batch) : (batchPut s e t b).out = s.out := rfl
@[simp] theorem batchPut_free (s : State) (e t : Nat) (b : Option Batch) : (batchPut s e t b).free = s.free := rfl
@[simp] theorem batchPut_pending (s : State) (e t : Nat) (b : Option Batch) : (batchPut s e t b).pending = s.pending := rfl

@[simp] theorem channelMod_board (s : State) (c : Nat) (f : Channel → Channel) : (channelMod s c f).board = s.board := rfl
@[simp] theorem channelMod_rst (s : State) (c : Nat) (f : Channel → Channel) : (channelMod s c f).rst = s.rst := rfl
@[simp] theorem channelMod_app (s : State) (c : Nat) (f : Channel → Channel) : (channelMod s c f).app = s.app := rfl
@[simp] theorem channelMod_tmb (s : State) (c : Nat) (f : Channel → Channel) : (channelMod s c f).tmb = s.tmb := rfl
@[simp] theorem channelMod_ptp (s : State) (c : Nat) (f : Channel → Channel) : (channelMod s c f).ptp = s.ptp := rfl
@[simp] theorem channelMod_sltCph (s : State) (c : Nat) (f : Channel → Channel) : (channelMod s c f).sltCph = s.sltCph := rfl
@[simp] theorem channelMod_sltEng (s : State) (c : Nat) (f : Channel → Channel) : (channelMod s c f).sltEng = s.sltEng := rfl
@[simp] theorem channelMod_sltQue (s : State) (c : Nat) (f : Channel → Channel) : (channelMod s c f).sltQue = s.sltQue := rfl
@[simp] theorem channelMod_lnm (s : State) (c : Nat) (f : Channel → Channel) : (channelMod s c f).lnm = s.lnm := rfl
@[simp] theorem channelMod_prs (s : State) (c : Nat) (f : Channel → Channel) : (channelMod s c f).prs = s.prs := rfl
@[simp] theorem channelMod_dec (s : State) (c : Nat) (f : Channel → Channel) : (channelMod s c f).dec = s.dec := rfl
@[simp] theorem channelMod_fwd (s : State) (c : Nat) (f : Channel → Channel) : (channelMod s c f).fwd = s.fwd := rfl
@[simp] theorem channelMod_crb (s : State) (c : Nat) (f : Channel → Channel) : (channelMod s c f).crb = s.crb := rfl
@[simp] theorem channelMod_sch (s : State) (c : Nat) (f : Channel → Channel) : (channelMod s c f).sch = s.sch := rfl
@[simp] theorem channelMod_ldg (s : State) (c : Nat) (f : Channel → Channel) : (channelMod s c f).ldg = s.ldg := rfl
@[simp] theorem channelMod_cph (s : State) (c : Nat) (f : Channel → Channel) : (channelMod s c f).cph = s.cph := rfl
@[simp] theorem channelMod_kvl (s : State) (c : Nat) (f : Channel → Channel) : (channelMod s c f).kvl = s.kvl := rfl
@[simp] theorem channelMod_flt (s : State) (c : Nat) (f : Channel → Channel) : (channelMod s c f).flt = s.flt := rfl
@[simp] theorem channelMod_sec (s : State) (c : Nat) (f : Channel → Channel) : (channelMod s c f).sec = s.sec := rfl
@[simp] theorem channelMod_hif (s : State) (c : Nat) (f : Channel → Channel) : (channelMod s c f).hif = s.hif := rfl
@[simp] theorem channelMod_win (s : State) (c : Nat) (f : Channel → Channel) : (channelMod s c f).win = s.win := rfl
@[simp] theorem channelMod_sb (s : State) (c : Nat) (f : Channel → Channel) : (channelMod s c f).sb = s.sb := rfl
@[simp] theorem channelMod_que (s : State) (c : Nat) (f : Channel → Channel) : (channelMod s c f).que = s.que := rfl
@[simp] theorem channelMod_dma (s : State) (c : Nat) (f : Channel → Channel) : (channelMod s c f).dma = s.dma := rfl
@[simp] theorem channelMod_mbx (s : State) (c : Nat) (f : Channel → Channel) : (channelMod s c f).mbx = s.mbx := rfl
@[simp] theorem channelMod_sto (s : State) (c : Nat) (f : Channel → Channel) : (channelMod s c f).sto = s.sto := rfl
@[simp] theorem channelMod_mir (s : State) (c : Nat) (f : Channel → Channel) : (channelMod s c f).mir = s.mir := rfl
@[simp] theorem channelMod_dom (s : State) (c : Nat) (f : Channel → Channel) : (channelMod s c f).dom = s.dom := rfl
@[simp] theorem channelMod_hbmU (s : State) (c : Nat) (f : Channel → Channel) : (channelMod s c f).hbmU = s.hbmU := rfl
@[simp] theorem channelMod_hbm (s : State) (c : Nat) (f : Channel → Channel) : (channelMod s c f).hbm = s.hbm := rfl
@[simp] theorem channelMod_tap (s : State) (c : Nat) (f : Channel → Channel) : (channelMod s c f).tap = s.tap := rfl
@[simp] theorem channelMod_out (s : State) (c : Nat) (f : Channel → Channel) : (channelMod s c f).out = s.out := rfl
@[simp] theorem channelMod_free (s : State) (c : Nat) (f : Channel → Channel) : (channelMod s c f).free = s.free := rfl
@[simp] theorem channelMod_pending (s : State) (c : Nat) (f : Channel → Channel) : (channelMod s c f).pending = s.pending := rfl

@[simp] theorem clusterMod_board (s : State) (c : Nat) (f : Cluster → Cluster) : (clusterMod s c f).board = s.board := rfl
@[simp] theorem clusterMod_rst (s : State) (c : Nat) (f : Cluster → Cluster) : (clusterMod s c f).rst = s.rst := rfl
@[simp] theorem clusterMod_app (s : State) (c : Nat) (f : Cluster → Cluster) : (clusterMod s c f).app = s.app := rfl
@[simp] theorem clusterMod_tmb (s : State) (c : Nat) (f : Cluster → Cluster) : (clusterMod s c f).tmb = s.tmb := rfl
@[simp] theorem clusterMod_ptp (s : State) (c : Nat) (f : Cluster → Cluster) : (clusterMod s c f).ptp = s.ptp := rfl
@[simp] theorem clusterMod_sltCph (s : State) (c : Nat) (f : Cluster → Cluster) : (clusterMod s c f).sltCph = s.sltCph := rfl
@[simp] theorem clusterMod_sltEng (s : State) (c : Nat) (f : Cluster → Cluster) : (clusterMod s c f).sltEng = s.sltEng := rfl
@[simp] theorem clusterMod_sltQue (s : State) (c : Nat) (f : Cluster → Cluster) : (clusterMod s c f).sltQue = s.sltQue := rfl
@[simp] theorem clusterMod_lnm (s : State) (c : Nat) (f : Cluster → Cluster) : (clusterMod s c f).lnm = s.lnm := rfl
@[simp] theorem clusterMod_prs (s : State) (c : Nat) (f : Cluster → Cluster) : (clusterMod s c f).prs = s.prs := rfl
@[simp] theorem clusterMod_dec (s : State) (c : Nat) (f : Cluster → Cluster) : (clusterMod s c f).dec = s.dec := rfl
@[simp] theorem clusterMod_fwd (s : State) (c : Nat) (f : Cluster → Cluster) : (clusterMod s c f).fwd = s.fwd := rfl
@[simp] theorem clusterMod_crb (s : State) (c : Nat) (f : Cluster → Cluster) : (clusterMod s c f).crb = s.crb := rfl
@[simp] theorem clusterMod_sch (s : State) (c : Nat) (f : Cluster → Cluster) : (clusterMod s c f).sch = s.sch := rfl
@[simp] theorem clusterMod_ldg (s : State) (c : Nat) (f : Cluster → Cluster) : (clusterMod s c f).ldg = s.ldg := rfl
@[simp] theorem clusterMod_cph (s : State) (c : Nat) (f : Cluster → Cluster) : (clusterMod s c f).cph = s.cph := rfl
@[simp] theorem clusterMod_kvl (s : State) (c : Nat) (f : Cluster → Cluster) : (clusterMod s c f).kvl = s.kvl := rfl
@[simp] theorem clusterMod_flt (s : State) (c : Nat) (f : Cluster → Cluster) : (clusterMod s c f).flt = s.flt := rfl
@[simp] theorem clusterMod_sec (s : State) (c : Nat) (f : Cluster → Cluster) : (clusterMod s c f).sec = s.sec := rfl
@[simp] theorem clusterMod_hif (s : State) (c : Nat) (f : Cluster → Cluster) : (clusterMod s c f).hif = s.hif := rfl
@[simp] theorem clusterMod_win (s : State) (c : Nat) (f : Cluster → Cluster) : (clusterMod s c f).win = s.win := rfl
@[simp] theorem clusterMod_sb (s : State) (c : Nat) (f : Cluster → Cluster) : (clusterMod s c f).sb = s.sb := rfl
@[simp] theorem clusterMod_que (s : State) (c : Nat) (f : Cluster → Cluster) : (clusterMod s c f).que = s.que := rfl
@[simp] theorem clusterMod_dma (s : State) (c : Nat) (f : Cluster → Cluster) : (clusterMod s c f).dma = s.dma := rfl
@[simp] theorem clusterMod_mbx (s : State) (c : Nat) (f : Cluster → Cluster) : (clusterMod s c f).mbx = s.mbx := rfl
@[simp] theorem clusterMod_sto (s : State) (c : Nat) (f : Cluster → Cluster) : (clusterMod s c f).sto = s.sto := rfl
@[simp] theorem clusterMod_mir (s : State) (c : Nat) (f : Cluster → Cluster) : (clusterMod s c f).mir = s.mir := rfl
@[simp] theorem clusterMod_dom (s : State) (c : Nat) (f : Cluster → Cluster) : (clusterMod s c f).dom = s.dom := rfl
@[simp] theorem clusterMod_hbmU (s : State) (c : Nat) (f : Cluster → Cluster) : (clusterMod s c f).hbmU = s.hbmU := rfl
@[simp] theorem clusterMod_hbm (s : State) (c : Nat) (f : Cluster → Cluster) : (clusterMod s c f).hbm = s.hbm := rfl
@[simp] theorem clusterMod_tap (s : State) (c : Nat) (f : Cluster → Cluster) : (clusterMod s c f).tap = s.tap := rfl
@[simp] theorem clusterMod_out (s : State) (c : Nat) (f : Cluster → Cluster) : (clusterMod s c f).out = s.out := rfl
@[simp] theorem clusterMod_free (s : State) (c : Nat) (f : Cluster → Cluster) : (clusterMod s c f).free = s.free := rfl
@[simp] theorem clusterMod_pending (s : State) (c : Nat) (f : Cluster → Cluster) : (clusterMod s c f).pending = s.pending := rfl

@[simp] theorem ctxMod_board (s : State) (i : Nat) (f : Ctx → Ctx) : (ctxMod s i f).board = s.board := rfl
@[simp] theorem ctxMod_rst (s : State) (i : Nat) (f : Ctx → Ctx) : (ctxMod s i f).rst = s.rst := rfl
@[simp] theorem ctxMod_app (s : State) (i : Nat) (f : Ctx → Ctx) : (ctxMod s i f).app = s.app := rfl
@[simp] theorem ctxMod_tmb (s : State) (i : Nat) (f : Ctx → Ctx) : (ctxMod s i f).tmb = s.tmb := rfl
@[simp] theorem ctxMod_ptp (s : State) (i : Nat) (f : Ctx → Ctx) : (ctxMod s i f).ptp = s.ptp := rfl
@[simp] theorem ctxMod_sltCph (s : State) (i : Nat) (f : Ctx → Ctx) : (ctxMod s i f).sltCph = s.sltCph := rfl
@[simp] theorem ctxMod_sltEng (s : State) (i : Nat) (f : Ctx → Ctx) : (ctxMod s i f).sltEng = s.sltEng := rfl
@[simp] theorem ctxMod_sltQue (s : State) (i : Nat) (f : Ctx → Ctx) : (ctxMod s i f).sltQue = s.sltQue := rfl
@[simp] theorem ctxMod_lnm (s : State) (i : Nat) (f : Ctx → Ctx) : (ctxMod s i f).lnm = s.lnm := rfl
@[simp] theorem ctxMod_prs (s : State) (i : Nat) (f : Ctx → Ctx) : (ctxMod s i f).prs = s.prs := rfl
@[simp] theorem ctxMod_dec (s : State) (i : Nat) (f : Ctx → Ctx) : (ctxMod s i f).dec = s.dec := rfl
@[simp] theorem ctxMod_fwd (s : State) (i : Nat) (f : Ctx → Ctx) : (ctxMod s i f).fwd = s.fwd := rfl
@[simp] theorem ctxMod_crb (s : State) (i : Nat) (f : Ctx → Ctx) : (ctxMod s i f).crb = s.crb := rfl
@[simp] theorem ctxMod_sch (s : State) (i : Nat) (f : Ctx → Ctx) : (ctxMod s i f).sch = s.sch := rfl
@[simp] theorem ctxMod_ldg (s : State) (i : Nat) (f : Ctx → Ctx) : (ctxMod s i f).ldg = s.ldg := rfl
@[simp] theorem ctxMod_eng (s : State) (i : Nat) (f : Ctx → Ctx) : (ctxMod s i f).eng = s.eng := rfl
@[simp] theorem ctxMod_kvl (s : State) (i : Nat) (f : Ctx → Ctx) : (ctxMod s i f).kvl = s.kvl := rfl
@[simp] theorem ctxMod_flt (s : State) (i : Nat) (f : Ctx → Ctx) : (ctxMod s i f).flt = s.flt := rfl
@[simp] theorem ctxMod_sec (s : State) (i : Nat) (f : Ctx → Ctx) : (ctxMod s i f).sec = s.sec := rfl
@[simp] theorem ctxMod_hif (s : State) (i : Nat) (f : Ctx → Ctx) : (ctxMod s i f).hif = s.hif := rfl
@[simp] theorem ctxMod_win (s : State) (i : Nat) (f : Ctx → Ctx) : (ctxMod s i f).win = s.win := rfl
@[simp] theorem ctxMod_sb (s : State) (i : Nat) (f : Ctx → Ctx) : (ctxMod s i f).sb = s.sb := rfl
@[simp] theorem ctxMod_que (s : State) (i : Nat) (f : Ctx → Ctx) : (ctxMod s i f).que = s.que := rfl
@[simp] theorem ctxMod_dma (s : State) (i : Nat) (f : Ctx → Ctx) : (ctxMod s i f).dma = s.dma := rfl
@[simp] theorem ctxMod_mbx (s : State) (i : Nat) (f : Ctx → Ctx) : (ctxMod s i f).mbx = s.mbx := rfl
@[simp] theorem ctxMod_sto (s : State) (i : Nat) (f : Ctx → Ctx) : (ctxMod s i f).sto = s.sto := rfl
@[simp] theorem ctxMod_mir (s : State) (i : Nat) (f : Ctx → Ctx) : (ctxMod s i f).mir = s.mir := rfl
@[simp] theorem ctxMod_dom (s : State) (i : Nat) (f : Ctx → Ctx) : (ctxMod s i f).dom = s.dom := rfl
@[simp] theorem ctxMod_hbmU (s : State) (i : Nat) (f : Ctx → Ctx) : (ctxMod s i f).hbmU = s.hbmU := rfl
@[simp] theorem ctxMod_hbm (s : State) (i : Nat) (f : Ctx → Ctx) : (ctxMod s i f).hbm = s.hbm := rfl
@[simp] theorem ctxMod_tap (s : State) (i : Nat) (f : Ctx → Ctx) : (ctxMod s i f).tap = s.tap := rfl
@[simp] theorem ctxMod_out (s : State) (i : Nat) (f : Ctx → Ctx) : (ctxMod s i f).out = s.out := rfl
@[simp] theorem ctxMod_free (s : State) (i : Nat) (f : Ctx → Ctx) : (ctxMod s i f).free = s.free := rfl
@[simp] theorem ctxMod_pending (s : State) (i : Nat) (f : Ctx → Ctx) : (ctxMod s i f).pending = s.pending := rfl

@[simp] theorem cacheMod_board (s : State) (i : Nat) (f : CacheEntry → CacheEntry) : (cacheMod s i f).board = s.board := rfl
@[simp] theorem cacheMod_rst (s : State) (i : Nat) (f : CacheEntry → CacheEntry) : (cacheMod s i f).rst = s.rst := rfl
@[simp] theorem cacheMod_app (s : State) (i : Nat) (f : CacheEntry → CacheEntry) : (cacheMod s i f).app = s.app := rfl
@[simp] theorem cacheMod_tmb (s : State) (i : Nat) (f : CacheEntry → CacheEntry) : (cacheMod s i f).tmb = s.tmb := rfl
@[simp] theorem cacheMod_ptp (s : State) (i : Nat) (f : CacheEntry → CacheEntry) : (cacheMod s i f).ptp = s.ptp := rfl
@[simp] theorem cacheMod_sltCph (s : State) (i : Nat) (f : CacheEntry → CacheEntry) : (cacheMod s i f).sltCph = s.sltCph := rfl
@[simp] theorem cacheMod_sltEng (s : State) (i : Nat) (f : CacheEntry → CacheEntry) : (cacheMod s i f).sltEng = s.sltEng := rfl
@[simp] theorem cacheMod_sltQue (s : State) (i : Nat) (f : CacheEntry → CacheEntry) : (cacheMod s i f).sltQue = s.sltQue := rfl
@[simp] theorem cacheMod_lnm (s : State) (i : Nat) (f : CacheEntry → CacheEntry) : (cacheMod s i f).lnm = s.lnm := rfl
@[simp] theorem cacheMod_prs (s : State) (i : Nat) (f : CacheEntry → CacheEntry) : (cacheMod s i f).prs = s.prs := rfl
@[simp] theorem cacheMod_dec (s : State) (i : Nat) (f : CacheEntry → CacheEntry) : (cacheMod s i f).dec = s.dec := rfl
@[simp] theorem cacheMod_fwd (s : State) (i : Nat) (f : CacheEntry → CacheEntry) : (cacheMod s i f).fwd = s.fwd := rfl
@[simp] theorem cacheMod_crb (s : State) (i : Nat) (f : CacheEntry → CacheEntry) : (cacheMod s i f).crb = s.crb := rfl
@[simp] theorem cacheMod_sch (s : State) (i : Nat) (f : CacheEntry → CacheEntry) : (cacheMod s i f).sch = s.sch := rfl
@[simp] theorem cacheMod_ldg (s : State) (i : Nat) (f : CacheEntry → CacheEntry) : (cacheMod s i f).ldg = s.ldg := rfl
@[simp] theorem cacheMod_eng (s : State) (i : Nat) (f : CacheEntry → CacheEntry) : (cacheMod s i f).eng = s.eng := rfl
@[simp] theorem cacheMod_kvl (s : State) (i : Nat) (f : CacheEntry → CacheEntry) : (cacheMod s i f).kvl = s.kvl := rfl
@[simp] theorem cacheMod_flt (s : State) (i : Nat) (f : CacheEntry → CacheEntry) : (cacheMod s i f).flt = s.flt := rfl
@[simp] theorem cacheMod_sec (s : State) (i : Nat) (f : CacheEntry → CacheEntry) : (cacheMod s i f).sec = s.sec := rfl
@[simp] theorem cacheMod_hif (s : State) (i : Nat) (f : CacheEntry → CacheEntry) : (cacheMod s i f).hif = s.hif := rfl
@[simp] theorem cacheMod_win (s : State) (i : Nat) (f : CacheEntry → CacheEntry) : (cacheMod s i f).win = s.win := rfl
@[simp] theorem cacheMod_sb (s : State) (i : Nat) (f : CacheEntry → CacheEntry) : (cacheMod s i f).sb = s.sb := rfl
@[simp] theorem cacheMod_que (s : State) (i : Nat) (f : CacheEntry → CacheEntry) : (cacheMod s i f).que = s.que := rfl
@[simp] theorem cacheMod_dma (s : State) (i : Nat) (f : CacheEntry → CacheEntry) : (cacheMod s i f).dma = s.dma := rfl
@[simp] theorem cacheMod_mbx (s : State) (i : Nat) (f : CacheEntry → CacheEntry) : (cacheMod s i f).mbx = s.mbx := rfl
@[simp] theorem cacheMod_sto (s : State) (i : Nat) (f : CacheEntry → CacheEntry) : (cacheMod s i f).sto = s.sto := rfl
@[simp] theorem cacheMod_mir (s : State) (i : Nat) (f : CacheEntry → CacheEntry) : (cacheMod s i f).mir = s.mir := rfl
@[simp] theorem cacheMod_dom (s : State) (i : Nat) (f : CacheEntry → CacheEntry) : (cacheMod s i f).dom = s.dom := rfl
@[simp] theorem cacheMod_hbmU (s : State) (i : Nat) (f : CacheEntry → CacheEntry) : (cacheMod s i f).hbmU = s.hbmU := rfl
@[simp] theorem cacheMod_hbm (s : State) (i : Nat) (f : CacheEntry → CacheEntry) : (cacheMod s i f).hbm = s.hbm := rfl
@[simp] theorem cacheMod_tap (s : State) (i : Nat) (f : CacheEntry → CacheEntry) : (cacheMod s i f).tap = s.tap := rfl
@[simp] theorem cacheMod_out (s : State) (i : Nat) (f : CacheEntry → CacheEntry) : (cacheMod s i f).out = s.out := rfl
@[simp] theorem cacheMod_free (s : State) (i : Nat) (f : CacheEntry → CacheEntry) : (cacheMod s i f).free = s.free := rfl
@[simp] theorem cacheMod_pending (s : State) (i : Nat) (f : CacheEntry → CacheEntry) : (cacheMod s i f).pending = s.pending := rfl

@[simp] theorem dmaEngineMod_board (s : State) (e : Nat) (f : DmaEngine → DmaEngine) : (dmaEngineMod s e f).board = s.board := rfl
@[simp] theorem dmaEngineMod_rst (s : State) (e : Nat) (f : DmaEngine → DmaEngine) : (dmaEngineMod s e f).rst = s.rst := rfl
@[simp] theorem dmaEngineMod_app (s : State) (e : Nat) (f : DmaEngine → DmaEngine) : (dmaEngineMod s e f).app = s.app := rfl
@[simp] theorem dmaEngineMod_tmb (s : State) (e : Nat) (f : DmaEngine → DmaEngine) : (dmaEngineMod s e f).tmb = s.tmb := rfl
@[simp] theorem dmaEngineMod_ptp (s : State) (e : Nat) (f : DmaEngine → DmaEngine) : (dmaEngineMod s e f).ptp = s.ptp := rfl
@[simp] theorem dmaEngineMod_sltCph (s : State) (e : Nat) (f : DmaEngine → DmaEngine) : (dmaEngineMod s e f).sltCph = s.sltCph := rfl
@[simp] theorem dmaEngineMod_sltEng (s : State) (e : Nat) (f : DmaEngine → DmaEngine) : (dmaEngineMod s e f).sltEng = s.sltEng := rfl
@[simp] theorem dmaEngineMod_sltQue (s : State) (e : Nat) (f : DmaEngine → DmaEngine) : (dmaEngineMod s e f).sltQue = s.sltQue := rfl
@[simp] theorem dmaEngineMod_lnm (s : State) (e : Nat) (f : DmaEngine → DmaEngine) : (dmaEngineMod s e f).lnm = s.lnm := rfl
@[simp] theorem dmaEngineMod_prs (s : State) (e : Nat) (f : DmaEngine → DmaEngine) : (dmaEngineMod s e f).prs = s.prs := rfl
@[simp] theorem dmaEngineMod_dec (s : State) (e : Nat) (f : DmaEngine → DmaEngine) : (dmaEngineMod s e f).dec = s.dec := rfl
@[simp] theorem dmaEngineMod_fwd (s : State) (e : Nat) (f : DmaEngine → DmaEngine) : (dmaEngineMod s e f).fwd = s.fwd := rfl
@[simp] theorem dmaEngineMod_crb (s : State) (e : Nat) (f : DmaEngine → DmaEngine) : (dmaEngineMod s e f).crb = s.crb := rfl
@[simp] theorem dmaEngineMod_sch (s : State) (e : Nat) (f : DmaEngine → DmaEngine) : (dmaEngineMod s e f).sch = s.sch := rfl
@[simp] theorem dmaEngineMod_ldg (s : State) (e : Nat) (f : DmaEngine → DmaEngine) : (dmaEngineMod s e f).ldg = s.ldg := rfl
@[simp] theorem dmaEngineMod_eng (s : State) (e : Nat) (f : DmaEngine → DmaEngine) : (dmaEngineMod s e f).eng = s.eng := rfl
@[simp] theorem dmaEngineMod_cph (s : State) (e : Nat) (f : DmaEngine → DmaEngine) : (dmaEngineMod s e f).cph = s.cph := rfl
@[simp] theorem dmaEngineMod_kvl (s : State) (e : Nat) (f : DmaEngine → DmaEngine) : (dmaEngineMod s e f).kvl = s.kvl := rfl
@[simp] theorem dmaEngineMod_flt (s : State) (e : Nat) (f : DmaEngine → DmaEngine) : (dmaEngineMod s e f).flt = s.flt := rfl
@[simp] theorem dmaEngineMod_sec (s : State) (e : Nat) (f : DmaEngine → DmaEngine) : (dmaEngineMod s e f).sec = s.sec := rfl
@[simp] theorem dmaEngineMod_hif (s : State) (e : Nat) (f : DmaEngine → DmaEngine) : (dmaEngineMod s e f).hif = s.hif := rfl
@[simp] theorem dmaEngineMod_win (s : State) (e : Nat) (f : DmaEngine → DmaEngine) : (dmaEngineMod s e f).win = s.win := rfl
@[simp] theorem dmaEngineMod_sb (s : State) (e : Nat) (f : DmaEngine → DmaEngine) : (dmaEngineMod s e f).sb = s.sb := rfl
@[simp] theorem dmaEngineMod_que (s : State) (e : Nat) (f : DmaEngine → DmaEngine) : (dmaEngineMod s e f).que = s.que := rfl
@[simp] theorem dmaEngineMod_mbx (s : State) (e : Nat) (f : DmaEngine → DmaEngine) : (dmaEngineMod s e f).mbx = s.mbx := rfl
@[simp] theorem dmaEngineMod_sto (s : State) (e : Nat) (f : DmaEngine → DmaEngine) : (dmaEngineMod s e f).sto = s.sto := rfl
@[simp] theorem dmaEngineMod_mir (s : State) (e : Nat) (f : DmaEngine → DmaEngine) : (dmaEngineMod s e f).mir = s.mir := rfl
@[simp] theorem dmaEngineMod_dom (s : State) (e : Nat) (f : DmaEngine → DmaEngine) : (dmaEngineMod s e f).dom = s.dom := rfl
@[simp] theorem dmaEngineMod_hbmU (s : State) (e : Nat) (f : DmaEngine → DmaEngine) : (dmaEngineMod s e f).hbmU = s.hbmU := rfl
@[simp] theorem dmaEngineMod_hbm (s : State) (e : Nat) (f : DmaEngine → DmaEngine) : (dmaEngineMod s e f).hbm = s.hbm := rfl
@[simp] theorem dmaEngineMod_tap (s : State) (e : Nat) (f : DmaEngine → DmaEngine) : (dmaEngineMod s e f).tap = s.tap := rfl
@[simp] theorem dmaEngineMod_out (s : State) (e : Nat) (f : DmaEngine → DmaEngine) : (dmaEngineMod s e f).out = s.out := rfl
@[simp] theorem dmaEngineMod_free (s : State) (e : Nat) (f : DmaEngine → DmaEngine) : (dmaEngineMod s e f).free = s.free := rfl
@[simp] theorem dmaEngineMod_pending (s : State) (e : Nat) (f : DmaEngine → DmaEngine) : (dmaEngineMod s e f).pending = s.pending := rfl

@[simp] theorem dmaChannelMod_board (s : State) (e c : Nat) (f : DmaChannel → DmaChannel) : (dmaChannelMod s e c f).board = s.board := rfl
@[simp] theorem dmaChannelMod_rst (s : State) (e c : Nat) (f : DmaChannel → DmaChannel) : (dmaChannelMod s e c f).rst = s.rst := rfl
@[simp] theorem dmaChannelMod_app (s : State) (e c : Nat) (f : DmaChannel → DmaChannel) : (dmaChannelMod s e c f).app = s.app := rfl
@[simp] theorem dmaChannelMod_tmb (s : State) (e c : Nat) (f : DmaChannel → DmaChannel) : (dmaChannelMod s e c f).tmb = s.tmb := rfl
@[simp] theorem dmaChannelMod_ptp (s : State) (e c : Nat) (f : DmaChannel → DmaChannel) : (dmaChannelMod s e c f).ptp = s.ptp := rfl
@[simp] theorem dmaChannelMod_sltCph (s : State) (e c : Nat) (f : DmaChannel → DmaChannel) : (dmaChannelMod s e c f).sltCph = s.sltCph := rfl
@[simp] theorem dmaChannelMod_sltEng (s : State) (e c : Nat) (f : DmaChannel → DmaChannel) : (dmaChannelMod s e c f).sltEng = s.sltEng := rfl
@[simp] theorem dmaChannelMod_sltQue (s : State) (e c : Nat) (f : DmaChannel → DmaChannel) : (dmaChannelMod s e c f).sltQue = s.sltQue := rfl
@[simp] theorem dmaChannelMod_lnm (s : State) (e c : Nat) (f : DmaChannel → DmaChannel) : (dmaChannelMod s e c f).lnm = s.lnm := rfl
@[simp] theorem dmaChannelMod_prs (s : State) (e c : Nat) (f : DmaChannel → DmaChannel) : (dmaChannelMod s e c f).prs = s.prs := rfl
@[simp] theorem dmaChannelMod_dec (s : State) (e c : Nat) (f : DmaChannel → DmaChannel) : (dmaChannelMod s e c f).dec = s.dec := rfl
@[simp] theorem dmaChannelMod_fwd (s : State) (e c : Nat) (f : DmaChannel → DmaChannel) : (dmaChannelMod s e c f).fwd = s.fwd := rfl
@[simp] theorem dmaChannelMod_crb (s : State) (e c : Nat) (f : DmaChannel → DmaChannel) : (dmaChannelMod s e c f).crb = s.crb := rfl
@[simp] theorem dmaChannelMod_sch (s : State) (e c : Nat) (f : DmaChannel → DmaChannel) : (dmaChannelMod s e c f).sch = s.sch := rfl
@[simp] theorem dmaChannelMod_ldg (s : State) (e c : Nat) (f : DmaChannel → DmaChannel) : (dmaChannelMod s e c f).ldg = s.ldg := rfl
@[simp] theorem dmaChannelMod_eng (s : State) (e c : Nat) (f : DmaChannel → DmaChannel) : (dmaChannelMod s e c f).eng = s.eng := rfl
@[simp] theorem dmaChannelMod_cph (s : State) (e c : Nat) (f : DmaChannel → DmaChannel) : (dmaChannelMod s e c f).cph = s.cph := rfl
@[simp] theorem dmaChannelMod_kvl (s : State) (e c : Nat) (f : DmaChannel → DmaChannel) : (dmaChannelMod s e c f).kvl = s.kvl := rfl
@[simp] theorem dmaChannelMod_flt (s : State) (e c : Nat) (f : DmaChannel → DmaChannel) : (dmaChannelMod s e c f).flt = s.flt := rfl
@[simp] theorem dmaChannelMod_sec (s : State) (e c : Nat) (f : DmaChannel → DmaChannel) : (dmaChannelMod s e c f).sec = s.sec := rfl
@[simp] theorem dmaChannelMod_hif (s : State) (e c : Nat) (f : DmaChannel → DmaChannel) : (dmaChannelMod s e c f).hif = s.hif := rfl
@[simp] theorem dmaChannelMod_win (s : State) (e c : Nat) (f : DmaChannel → DmaChannel) : (dmaChannelMod s e c f).win = s.win := rfl
@[simp] theorem dmaChannelMod_sb (s : State) (e c : Nat) (f : DmaChannel → DmaChannel) : (dmaChannelMod s e c f).sb = s.sb := rfl
@[simp] theorem dmaChannelMod_que (s : State) (e c : Nat) (f : DmaChannel → DmaChannel) : (dmaChannelMod s e c f).que = s.que := rfl
@[simp] theorem dmaChannelMod_mbx (s : State) (e c : Nat) (f : DmaChannel → DmaChannel) : (dmaChannelMod s e c f).mbx = s.mbx := rfl
@[simp] theorem dmaChannelMod_sto (s : State) (e c : Nat) (f : DmaChannel → DmaChannel) : (dmaChannelMod s e c f).sto = s.sto := rfl
@[simp] theorem dmaChannelMod_mir (s : State) (e c : Nat) (f : DmaChannel → DmaChannel) : (dmaChannelMod s e c f).mir = s.mir := rfl
@[simp] theorem dmaChannelMod_dom (s : State) (e c : Nat) (f : DmaChannel → DmaChannel) : (dmaChannelMod s e c f).dom = s.dom := rfl
@[simp] theorem dmaChannelMod_hbmU (s : State) (e c : Nat) (f : DmaChannel → DmaChannel) : (dmaChannelMod s e c f).hbmU = s.hbmU := rfl
@[simp] theorem dmaChannelMod_hbm (s : State) (e c : Nat) (f : DmaChannel → DmaChannel) : (dmaChannelMod s e c f).hbm = s.hbm := rfl
@[simp] theorem dmaChannelMod_tap (s : State) (e c : Nat) (f : DmaChannel → DmaChannel) : (dmaChannelMod s e c f).tap = s.tap := rfl
@[simp] theorem dmaChannelMod_out (s : State) (e c : Nat) (f : DmaChannel → DmaChannel) : (dmaChannelMod s e c f).out = s.out := rfl
@[simp] theorem dmaChannelMod_free (s : State) (e c : Nat) (f : DmaChannel → DmaChannel) : (dmaChannelMod s e c f).free = s.free := rfl
@[simp] theorem dmaChannelMod_pending (s : State) (e c : Nat) (f : DmaChannel → DmaChannel) : (dmaChannelMod s e c f).pending = s.pending := rfl

@[simp] theorem queueMod_board (s : State) (q : Nat) (f : HostQueue → HostQueue) : (queueMod s q f).board = s.board := rfl
@[simp] theorem queueMod_rst (s : State) (q : Nat) (f : HostQueue → HostQueue) : (queueMod s q f).rst = s.rst := rfl
@[simp] theorem queueMod_app (s : State) (q : Nat) (f : HostQueue → HostQueue) : (queueMod s q f).app = s.app := rfl
@[simp] theorem queueMod_tmb (s : State) (q : Nat) (f : HostQueue → HostQueue) : (queueMod s q f).tmb = s.tmb := rfl
@[simp] theorem queueMod_ptp (s : State) (q : Nat) (f : HostQueue → HostQueue) : (queueMod s q f).ptp = s.ptp := rfl
@[simp] theorem queueMod_sltCph (s : State) (q : Nat) (f : HostQueue → HostQueue) : (queueMod s q f).sltCph = s.sltCph := rfl
@[simp] theorem queueMod_sltEng (s : State) (q : Nat) (f : HostQueue → HostQueue) : (queueMod s q f).sltEng = s.sltEng := rfl
@[simp] theorem queueMod_sltQue (s : State) (q : Nat) (f : HostQueue → HostQueue) : (queueMod s q f).sltQue = s.sltQue := rfl
@[simp] theorem queueMod_lnm (s : State) (q : Nat) (f : HostQueue → HostQueue) : (queueMod s q f).lnm = s.lnm := rfl
@[simp] theorem queueMod_prs (s : State) (q : Nat) (f : HostQueue → HostQueue) : (queueMod s q f).prs = s.prs := rfl
@[simp] theorem queueMod_dec (s : State) (q : Nat) (f : HostQueue → HostQueue) : (queueMod s q f).dec = s.dec := rfl
@[simp] theorem queueMod_fwd (s : State) (q : Nat) (f : HostQueue → HostQueue) : (queueMod s q f).fwd = s.fwd := rfl
@[simp] theorem queueMod_crb (s : State) (q : Nat) (f : HostQueue → HostQueue) : (queueMod s q f).crb = s.crb := rfl
@[simp] theorem queueMod_sch (s : State) (q : Nat) (f : HostQueue → HostQueue) : (queueMod s q f).sch = s.sch := rfl
@[simp] theorem queueMod_ldg (s : State) (q : Nat) (f : HostQueue → HostQueue) : (queueMod s q f).ldg = s.ldg := rfl
@[simp] theorem queueMod_eng (s : State) (q : Nat) (f : HostQueue → HostQueue) : (queueMod s q f).eng = s.eng := rfl
@[simp] theorem queueMod_cph (s : State) (q : Nat) (f : HostQueue → HostQueue) : (queueMod s q f).cph = s.cph := rfl
@[simp] theorem queueMod_kvl (s : State) (q : Nat) (f : HostQueue → HostQueue) : (queueMod s q f).kvl = s.kvl := rfl
@[simp] theorem queueMod_flt (s : State) (q : Nat) (f : HostQueue → HostQueue) : (queueMod s q f).flt = s.flt := rfl
@[simp] theorem queueMod_sec (s : State) (q : Nat) (f : HostQueue → HostQueue) : (queueMod s q f).sec = s.sec := rfl
@[simp] theorem queueMod_hif (s : State) (q : Nat) (f : HostQueue → HostQueue) : (queueMod s q f).hif = s.hif := rfl
@[simp] theorem queueMod_win (s : State) (q : Nat) (f : HostQueue → HostQueue) : (queueMod s q f).win = s.win := rfl
@[simp] theorem queueMod_sb (s : State) (q : Nat) (f : HostQueue → HostQueue) : (queueMod s q f).sb = s.sb := rfl
@[simp] theorem queueMod_dma (s : State) (q : Nat) (f : HostQueue → HostQueue) : (queueMod s q f).dma = s.dma := rfl
@[simp] theorem queueMod_mbx (s : State) (q : Nat) (f : HostQueue → HostQueue) : (queueMod s q f).mbx = s.mbx := rfl
@[simp] theorem queueMod_sto (s : State) (q : Nat) (f : HostQueue → HostQueue) : (queueMod s q f).sto = s.sto := rfl
@[simp] theorem queueMod_mir (s : State) (q : Nat) (f : HostQueue → HostQueue) : (queueMod s q f).mir = s.mir := rfl
@[simp] theorem queueMod_dom (s : State) (q : Nat) (f : HostQueue → HostQueue) : (queueMod s q f).dom = s.dom := rfl
@[simp] theorem queueMod_hbmU (s : State) (q : Nat) (f : HostQueue → HostQueue) : (queueMod s q f).hbmU = s.hbmU := rfl
@[simp] theorem queueMod_hbm (s : State) (q : Nat) (f : HostQueue → HostQueue) : (queueMod s q f).hbm = s.hbm := rfl
@[simp] theorem queueMod_tap (s : State) (q : Nat) (f : HostQueue → HostQueue) : (queueMod s q f).tap = s.tap := rfl
@[simp] theorem queueMod_out (s : State) (q : Nat) (f : HostQueue → HostQueue) : (queueMod s q f).out = s.out := rfl
@[simp] theorem queueMod_free (s : State) (q : Nat) (f : HostQueue → HostQueue) : (queueMod s q f).free = s.free := rfl
@[simp] theorem queueMod_pending (s : State) (q : Nat) (f : HostQueue → HostQueue) : (queueMod s q f).pending = s.pending := rfl

@[simp] theorem event_board (s : State) (t : EventType) (r : List Byte) : (event s t r).board = s.board := rfl
@[simp] theorem event_rst (s : State) (t : EventType) (r : List Byte) : (event s t r).rst = s.rst := rfl
@[simp] theorem event_app (s : State) (t : EventType) (r : List Byte) : (event s t r).app = s.app := rfl
@[simp] theorem event_tmb (s : State) (t : EventType) (r : List Byte) : (event s t r).tmb = s.tmb := rfl
@[simp] theorem event_ptp (s : State) (t : EventType) (r : List Byte) : (event s t r).ptp = s.ptp := rfl
@[simp] theorem event_sltCph (s : State) (t : EventType) (r : List Byte) : (event s t r).sltCph = s.sltCph := rfl
@[simp] theorem event_sltEng (s : State) (t : EventType) (r : List Byte) : (event s t r).sltEng = s.sltEng := rfl
@[simp] theorem event_sltQue (s : State) (t : EventType) (r : List Byte) : (event s t r).sltQue = s.sltQue := rfl
@[simp] theorem event_lnm (s : State) (t : EventType) (r : List Byte) : (event s t r).lnm = s.lnm := rfl
@[simp] theorem event_prs (s : State) (t : EventType) (r : List Byte) : (event s t r).prs = s.prs := rfl
@[simp] theorem event_dec (s : State) (t : EventType) (r : List Byte) : (event s t r).dec = s.dec := rfl
@[simp] theorem event_fwd (s : State) (t : EventType) (r : List Byte) : (event s t r).fwd = s.fwd := rfl
@[simp] theorem event_crb (s : State) (t : EventType) (r : List Byte) : (event s t r).crb = s.crb := rfl
@[simp] theorem event_sch (s : State) (t : EventType) (r : List Byte) : (event s t r).sch = s.sch := rfl
@[simp] theorem event_ldg (s : State) (t : EventType) (r : List Byte) : (event s t r).ldg = s.ldg := rfl
@[simp] theorem event_eng (s : State) (t : EventType) (r : List Byte) : (event s t r).eng = s.eng := rfl
@[simp] theorem event_cph (s : State) (t : EventType) (r : List Byte) : (event s t r).cph = s.cph := rfl
@[simp] theorem event_kvl (s : State) (t : EventType) (r : List Byte) : (event s t r).kvl = s.kvl := rfl
@[simp] theorem event_flt (s : State) (t : EventType) (r : List Byte) : (event s t r).flt = s.flt := rfl
@[simp] theorem event_sec (s : State) (t : EventType) (r : List Byte) : (event s t r).sec = s.sec := rfl
@[simp] theorem event_hif (s : State) (t : EventType) (r : List Byte) : (event s t r).hif = s.hif := rfl
@[simp] theorem event_win (s : State) (t : EventType) (r : List Byte) : (event s t r).win = s.win := rfl
@[simp] theorem event_sb (s : State) (t : EventType) (r : List Byte) : (event s t r).sb = s.sb := rfl
@[simp] theorem event_dma (s : State) (t : EventType) (r : List Byte) : (event s t r).dma = s.dma := rfl
@[simp] theorem event_mbx (s : State) (t : EventType) (r : List Byte) : (event s t r).mbx = s.mbx := rfl
@[simp] theorem event_sto (s : State) (t : EventType) (r : List Byte) : (event s t r).sto = s.sto := rfl
@[simp] theorem event_mir (s : State) (t : EventType) (r : List Byte) : (event s t r).mir = s.mir := rfl
@[simp] theorem event_dom (s : State) (t : EventType) (r : List Byte) : (event s t r).dom = s.dom := rfl
@[simp] theorem event_hbmU (s : State) (t : EventType) (r : List Byte) : (event s t r).hbmU = s.hbmU := rfl
@[simp] theorem event_hbm (s : State) (t : EventType) (r : List Byte) : (event s t r).hbm = s.hbm := rfl
@[simp] theorem event_tap (s : State) (t : EventType) (r : List Byte) : (event s t r).tap = s.tap := rfl
@[simp] theorem event_out (s : State) (t : EventType) (r : List Byte) : (event s t r).out = s.out := rfl
@[simp] theorem event_free (s : State) (t : EventType) (r : List Byte) : (event s t r).free = s.free := rfl
@[simp] theorem event_pending (s : State) (t : EventType) (r : List Byte) : (event s t r).pending = s.pending := rfl

@[simp] theorem laneMod_board (s : State) (n : Nat) (f : Lane → Lane) : (laneMod s n f).board = s.board := rfl
@[simp] theorem laneMod_rst (s : State) (n : Nat) (f : Lane → Lane) : (laneMod s n f).rst = s.rst := rfl
@[simp] theorem laneMod_app (s : State) (n : Nat) (f : Lane → Lane) : (laneMod s n f).app = s.app := rfl
@[simp] theorem laneMod_tmb (s : State) (n : Nat) (f : Lane → Lane) : (laneMod s n f).tmb = s.tmb := rfl
@[simp] theorem laneMod_ptp (s : State) (n : Nat) (f : Lane → Lane) : (laneMod s n f).ptp = s.ptp := rfl
@[simp] theorem laneMod_sltCph (s : State) (n : Nat) (f : Lane → Lane) : (laneMod s n f).sltCph = s.sltCph := rfl
@[simp] theorem laneMod_sltEng (s : State) (n : Nat) (f : Lane → Lane) : (laneMod s n f).sltEng = s.sltEng := rfl
@[simp] theorem laneMod_sltQue (s : State) (n : Nat) (f : Lane → Lane) : (laneMod s n f).sltQue = s.sltQue := rfl
@[simp] theorem laneMod_prs (s : State) (n : Nat) (f : Lane → Lane) : (laneMod s n f).prs = s.prs := rfl
@[simp] theorem laneMod_dec (s : State) (n : Nat) (f : Lane → Lane) : (laneMod s n f).dec = s.dec := rfl
@[simp] theorem laneMod_fwd (s : State) (n : Nat) (f : Lane → Lane) : (laneMod s n f).fwd = s.fwd := rfl
@[simp] theorem laneMod_crb (s : State) (n : Nat) (f : Lane → Lane) : (laneMod s n f).crb = s.crb := rfl
@[simp] theorem laneMod_sch (s : State) (n : Nat) (f : Lane → Lane) : (laneMod s n f).sch = s.sch := rfl
@[simp] theorem laneMod_ldg (s : State) (n : Nat) (f : Lane → Lane) : (laneMod s n f).ldg = s.ldg := rfl
@[simp] theorem laneMod_eng (s : State) (n : Nat) (f : Lane → Lane) : (laneMod s n f).eng = s.eng := rfl
@[simp] theorem laneMod_cph (s : State) (n : Nat) (f : Lane → Lane) : (laneMod s n f).cph = s.cph := rfl
@[simp] theorem laneMod_kvl (s : State) (n : Nat) (f : Lane → Lane) : (laneMod s n f).kvl = s.kvl := rfl
@[simp] theorem laneMod_flt (s : State) (n : Nat) (f : Lane → Lane) : (laneMod s n f).flt = s.flt := rfl
@[simp] theorem laneMod_sec (s : State) (n : Nat) (f : Lane → Lane) : (laneMod s n f).sec = s.sec := rfl
@[simp] theorem laneMod_hif (s : State) (n : Nat) (f : Lane → Lane) : (laneMod s n f).hif = s.hif := rfl
@[simp] theorem laneMod_win (s : State) (n : Nat) (f : Lane → Lane) : (laneMod s n f).win = s.win := rfl
@[simp] theorem laneMod_sb (s : State) (n : Nat) (f : Lane → Lane) : (laneMod s n f).sb = s.sb := rfl
@[simp] theorem laneMod_que (s : State) (n : Nat) (f : Lane → Lane) : (laneMod s n f).que = s.que := rfl
@[simp] theorem laneMod_dma (s : State) (n : Nat) (f : Lane → Lane) : (laneMod s n f).dma = s.dma := rfl
@[simp] theorem laneMod_mbx (s : State) (n : Nat) (f : Lane → Lane) : (laneMod s n f).mbx = s.mbx := rfl
@[simp] theorem laneMod_sto (s : State) (n : Nat) (f : Lane → Lane) : (laneMod s n f).sto = s.sto := rfl
@[simp] theorem laneMod_mir (s : State) (n : Nat) (f : Lane → Lane) : (laneMod s n f).mir = s.mir := rfl
@[simp] theorem laneMod_dom (s : State) (n : Nat) (f : Lane → Lane) : (laneMod s n f).dom = s.dom := rfl
@[simp] theorem laneMod_hbmU (s : State) (n : Nat) (f : Lane → Lane) : (laneMod s n f).hbmU = s.hbmU := rfl
@[simp] theorem laneMod_hbm (s : State) (n : Nat) (f : Lane → Lane) : (laneMod s n f).hbm = s.hbm := rfl
@[simp] theorem laneMod_tap (s : State) (n : Nat) (f : Lane → Lane) : (laneMod s n f).tap = s.tap := rfl
@[simp] theorem laneMod_out (s : State) (n : Nat) (f : Lane → Lane) : (laneMod s n f).out = s.out := rfl
@[simp] theorem laneMod_free (s : State) (n : Nat) (f : Lane → Lane) : (laneMod s n f).free = s.free := rfl
@[simp] theorem laneMod_pending (s : State) (n : Nat) (f : Lane → Lane) : (laneMod s n f).pending = s.pending := rfl

@[simp] theorem portMod_board (s : State) (n : Nat) (f : Port → Port) : (portMod s n f).board = s.board := rfl
@[simp] theorem portMod_rst (s : State) (n : Nat) (f : Port → Port) : (portMod s n f).rst = s.rst := rfl
@[simp] theorem portMod_app (s : State) (n : Nat) (f : Port → Port) : (portMod s n f).app = s.app := rfl
@[simp] theorem portMod_tmb (s : State) (n : Nat) (f : Port → Port) : (portMod s n f).tmb = s.tmb := rfl
@[simp] theorem portMod_ptp (s : State) (n : Nat) (f : Port → Port) : (portMod s n f).ptp = s.ptp := rfl
@[simp] theorem portMod_sltCph (s : State) (n : Nat) (f : Port → Port) : (portMod s n f).sltCph = s.sltCph := rfl
@[simp] theorem portMod_sltEng (s : State) (n : Nat) (f : Port → Port) : (portMod s n f).sltEng = s.sltEng := rfl
@[simp] theorem portMod_sltQue (s : State) (n : Nat) (f : Port → Port) : (portMod s n f).sltQue = s.sltQue := rfl
@[simp] theorem portMod_prs (s : State) (n : Nat) (f : Port → Port) : (portMod s n f).prs = s.prs := rfl
@[simp] theorem portMod_dec (s : State) (n : Nat) (f : Port → Port) : (portMod s n f).dec = s.dec := rfl
@[simp] theorem portMod_fwd (s : State) (n : Nat) (f : Port → Port) : (portMod s n f).fwd = s.fwd := rfl
@[simp] theorem portMod_crb (s : State) (n : Nat) (f : Port → Port) : (portMod s n f).crb = s.crb := rfl
@[simp] theorem portMod_sch (s : State) (n : Nat) (f : Port → Port) : (portMod s n f).sch = s.sch := rfl
@[simp] theorem portMod_ldg (s : State) (n : Nat) (f : Port → Port) : (portMod s n f).ldg = s.ldg := rfl
@[simp] theorem portMod_eng (s : State) (n : Nat) (f : Port → Port) : (portMod s n f).eng = s.eng := rfl
@[simp] theorem portMod_cph (s : State) (n : Nat) (f : Port → Port) : (portMod s n f).cph = s.cph := rfl
@[simp] theorem portMod_kvl (s : State) (n : Nat) (f : Port → Port) : (portMod s n f).kvl = s.kvl := rfl
@[simp] theorem portMod_flt (s : State) (n : Nat) (f : Port → Port) : (portMod s n f).flt = s.flt := rfl
@[simp] theorem portMod_sec (s : State) (n : Nat) (f : Port → Port) : (portMod s n f).sec = s.sec := rfl
@[simp] theorem portMod_hif (s : State) (n : Nat) (f : Port → Port) : (portMod s n f).hif = s.hif := rfl
@[simp] theorem portMod_win (s : State) (n : Nat) (f : Port → Port) : (portMod s n f).win = s.win := rfl
@[simp] theorem portMod_sb (s : State) (n : Nat) (f : Port → Port) : (portMod s n f).sb = s.sb := rfl
@[simp] theorem portMod_que (s : State) (n : Nat) (f : Port → Port) : (portMod s n f).que = s.que := rfl
@[simp] theorem portMod_dma (s : State) (n : Nat) (f : Port → Port) : (portMod s n f).dma = s.dma := rfl
@[simp] theorem portMod_mbx (s : State) (n : Nat) (f : Port → Port) : (portMod s n f).mbx = s.mbx := rfl
@[simp] theorem portMod_sto (s : State) (n : Nat) (f : Port → Port) : (portMod s n f).sto = s.sto := rfl
@[simp] theorem portMod_mir (s : State) (n : Nat) (f : Port → Port) : (portMod s n f).mir = s.mir := rfl
@[simp] theorem portMod_dom (s : State) (n : Nat) (f : Port → Port) : (portMod s n f).dom = s.dom := rfl
@[simp] theorem portMod_hbmU (s : State) (n : Nat) (f : Port → Port) : (portMod s n f).hbmU = s.hbmU := rfl
@[simp] theorem portMod_hbm (s : State) (n : Nat) (f : Port → Port) : (portMod s n f).hbm = s.hbm := rfl
@[simp] theorem portMod_tap (s : State) (n : Nat) (f : Port → Port) : (portMod s n f).tap = s.tap := rfl
@[simp] theorem portMod_out (s : State) (n : Nat) (f : Port → Port) : (portMod s n f).out = s.out := rfl
@[simp] theorem portMod_free (s : State) (n : Nat) (f : Port → Port) : (portMod s n f).free = s.free := rfl
@[simp] theorem portMod_pending (s : State) (n : Nat) (f : Port → Port) : (portMod s n f).pending = s.pending := rfl

@[simp] theorem macroMod_board (s : State) (n : Nat) (f : Macro → Macro) : (macroMod s n f).board = s.board := rfl
@[simp] theorem macroMod_rst (s : State) (n : Nat) (f : Macro → Macro) : (macroMod s n f).rst = s.rst := rfl
@[simp] theorem macroMod_app (s : State) (n : Nat) (f : Macro → Macro) : (macroMod s n f).app = s.app := rfl
@[simp] theorem macroMod_tmb (s : State) (n : Nat) (f : Macro → Macro) : (macroMod s n f).tmb = s.tmb := rfl
@[simp] theorem macroMod_ptp (s : State) (n : Nat) (f : Macro → Macro) : (macroMod s n f).ptp = s.ptp := rfl
@[simp] theorem macroMod_sltCph (s : State) (n : Nat) (f : Macro → Macro) : (macroMod s n f).sltCph = s.sltCph := rfl
@[simp] theorem macroMod_sltEng (s : State) (n : Nat) (f : Macro → Macro) : (macroMod s n f).sltEng = s.sltEng := rfl
@[simp] theorem macroMod_sltQue (s : State) (n : Nat) (f : Macro → Macro) : (macroMod s n f).sltQue = s.sltQue := rfl
@[simp] theorem macroMod_prs (s : State) (n : Nat) (f : Macro → Macro) : (macroMod s n f).prs = s.prs := rfl
@[simp] theorem macroMod_dec (s : State) (n : Nat) (f : Macro → Macro) : (macroMod s n f).dec = s.dec := rfl
@[simp] theorem macroMod_fwd (s : State) (n : Nat) (f : Macro → Macro) : (macroMod s n f).fwd = s.fwd := rfl
@[simp] theorem macroMod_crb (s : State) (n : Nat) (f : Macro → Macro) : (macroMod s n f).crb = s.crb := rfl
@[simp] theorem macroMod_sch (s : State) (n : Nat) (f : Macro → Macro) : (macroMod s n f).sch = s.sch := rfl
@[simp] theorem macroMod_ldg (s : State) (n : Nat) (f : Macro → Macro) : (macroMod s n f).ldg = s.ldg := rfl
@[simp] theorem macroMod_eng (s : State) (n : Nat) (f : Macro → Macro) : (macroMod s n f).eng = s.eng := rfl
@[simp] theorem macroMod_cph (s : State) (n : Nat) (f : Macro → Macro) : (macroMod s n f).cph = s.cph := rfl
@[simp] theorem macroMod_kvl (s : State) (n : Nat) (f : Macro → Macro) : (macroMod s n f).kvl = s.kvl := rfl
@[simp] theorem macroMod_flt (s : State) (n : Nat) (f : Macro → Macro) : (macroMod s n f).flt = s.flt := rfl
@[simp] theorem macroMod_sec (s : State) (n : Nat) (f : Macro → Macro) : (macroMod s n f).sec = s.sec := rfl
@[simp] theorem macroMod_hif (s : State) (n : Nat) (f : Macro → Macro) : (macroMod s n f).hif = s.hif := rfl
@[simp] theorem macroMod_win (s : State) (n : Nat) (f : Macro → Macro) : (macroMod s n f).win = s.win := rfl
@[simp] theorem macroMod_sb (s : State) (n : Nat) (f : Macro → Macro) : (macroMod s n f).sb = s.sb := rfl
@[simp] theorem macroMod_que (s : State) (n : Nat) (f : Macro → Macro) : (macroMod s n f).que = s.que := rfl
@[simp] theorem macroMod_dma (s : State) (n : Nat) (f : Macro → Macro) : (macroMod s n f).dma = s.dma := rfl
@[simp] theorem macroMod_mbx (s : State) (n : Nat) (f : Macro → Macro) : (macroMod s n f).mbx = s.mbx := rfl
@[simp] theorem macroMod_sto (s : State) (n : Nat) (f : Macro → Macro) : (macroMod s n f).sto = s.sto := rfl
@[simp] theorem macroMod_mir (s : State) (n : Nat) (f : Macro → Macro) : (macroMod s n f).mir = s.mir := rfl
@[simp] theorem macroMod_dom (s : State) (n : Nat) (f : Macro → Macro) : (macroMod s n f).dom = s.dom := rfl
@[simp] theorem macroMod_hbmU (s : State) (n : Nat) (f : Macro → Macro) : (macroMod s n f).hbmU = s.hbmU := rfl
@[simp] theorem macroMod_hbm (s : State) (n : Nat) (f : Macro → Macro) : (macroMod s n f).hbm = s.hbm := rfl
@[simp] theorem macroMod_tap (s : State) (n : Nat) (f : Macro → Macro) : (macroMod s n f).tap = s.tap := rfl
@[simp] theorem macroMod_out (s : State) (n : Nat) (f : Macro → Macro) : (macroMod s n f).out = s.out := rfl
@[simp] theorem macroMod_free (s : State) (n : Nat) (f : Macro → Macro) : (macroMod s n f).free = s.free := rfl
@[simp] theorem macroMod_pending (s : State) (n : Nat) (f : Macro → Macro) : (macroMod s n f).pending = s.pending := rfl

@[simp] theorem boxMod_board (s : State) (m : Nat) (f : Mailbox → Mailbox) : (boxMod s m f).board = s.board := rfl
@[simp] theorem boxMod_rst (s : State) (m : Nat) (f : Mailbox → Mailbox) : (boxMod s m f).rst = s.rst := rfl
@[simp] theorem boxMod_app (s : State) (m : Nat) (f : Mailbox → Mailbox) : (boxMod s m f).app = s.app := rfl
@[simp] theorem boxMod_tmb (s : State) (m : Nat) (f : Mailbox → Mailbox) : (boxMod s m f).tmb = s.tmb := rfl
@[simp] theorem boxMod_ptp (s : State) (m : Nat) (f : Mailbox → Mailbox) : (boxMod s m f).ptp = s.ptp := rfl
@[simp] theorem boxMod_sltCph (s : State) (m : Nat) (f : Mailbox → Mailbox) : (boxMod s m f).sltCph = s.sltCph := rfl
@[simp] theorem boxMod_sltEng (s : State) (m : Nat) (f : Mailbox → Mailbox) : (boxMod s m f).sltEng = s.sltEng := rfl
@[simp] theorem boxMod_sltQue (s : State) (m : Nat) (f : Mailbox → Mailbox) : (boxMod s m f).sltQue = s.sltQue := rfl
@[simp] theorem boxMod_lnm (s : State) (m : Nat) (f : Mailbox → Mailbox) : (boxMod s m f).lnm = s.lnm := rfl
@[simp] theorem boxMod_prs (s : State) (m : Nat) (f : Mailbox → Mailbox) : (boxMod s m f).prs = s.prs := rfl
@[simp] theorem boxMod_dec (s : State) (m : Nat) (f : Mailbox → Mailbox) : (boxMod s m f).dec = s.dec := rfl
@[simp] theorem boxMod_fwd (s : State) (m : Nat) (f : Mailbox → Mailbox) : (boxMod s m f).fwd = s.fwd := rfl
@[simp] theorem boxMod_crb (s : State) (m : Nat) (f : Mailbox → Mailbox) : (boxMod s m f).crb = s.crb := rfl
@[simp] theorem boxMod_sch (s : State) (m : Nat) (f : Mailbox → Mailbox) : (boxMod s m f).sch = s.sch := rfl
@[simp] theorem boxMod_ldg (s : State) (m : Nat) (f : Mailbox → Mailbox) : (boxMod s m f).ldg = s.ldg := rfl
@[simp] theorem boxMod_eng (s : State) (m : Nat) (f : Mailbox → Mailbox) : (boxMod s m f).eng = s.eng := rfl
@[simp] theorem boxMod_cph (s : State) (m : Nat) (f : Mailbox → Mailbox) : (boxMod s m f).cph = s.cph := rfl
@[simp] theorem boxMod_kvl (s : State) (m : Nat) (f : Mailbox → Mailbox) : (boxMod s m f).kvl = s.kvl := rfl
@[simp] theorem boxMod_flt (s : State) (m : Nat) (f : Mailbox → Mailbox) : (boxMod s m f).flt = s.flt := rfl
@[simp] theorem boxMod_sec (s : State) (m : Nat) (f : Mailbox → Mailbox) : (boxMod s m f).sec = s.sec := rfl
@[simp] theorem boxMod_hif (s : State) (m : Nat) (f : Mailbox → Mailbox) : (boxMod s m f).hif = s.hif := rfl
@[simp] theorem boxMod_win (s : State) (m : Nat) (f : Mailbox → Mailbox) : (boxMod s m f).win = s.win := rfl
@[simp] theorem boxMod_sb (s : State) (m : Nat) (f : Mailbox → Mailbox) : (boxMod s m f).sb = s.sb := rfl
@[simp] theorem boxMod_que (s : State) (m : Nat) (f : Mailbox → Mailbox) : (boxMod s m f).que = s.que := rfl
@[simp] theorem boxMod_dma (s : State) (m : Nat) (f : Mailbox → Mailbox) : (boxMod s m f).dma = s.dma := rfl
@[simp] theorem boxMod_sto (s : State) (m : Nat) (f : Mailbox → Mailbox) : (boxMod s m f).sto = s.sto := rfl
@[simp] theorem boxMod_mir (s : State) (m : Nat) (f : Mailbox → Mailbox) : (boxMod s m f).mir = s.mir := rfl
@[simp] theorem boxMod_dom (s : State) (m : Nat) (f : Mailbox → Mailbox) : (boxMod s m f).dom = s.dom := rfl
@[simp] theorem boxMod_hbmU (s : State) (m : Nat) (f : Mailbox → Mailbox) : (boxMod s m f).hbmU = s.hbmU := rfl
@[simp] theorem boxMod_hbm (s : State) (m : Nat) (f : Mailbox → Mailbox) : (boxMod s m f).hbm = s.hbm := rfl
@[simp] theorem boxMod_tap (s : State) (m : Nat) (f : Mailbox → Mailbox) : (boxMod s m f).tap = s.tap := rfl
@[simp] theorem boxMod_out (s : State) (m : Nat) (f : Mailbox → Mailbox) : (boxMod s m f).out = s.out := rfl
@[simp] theorem boxMod_free (s : State) (m : Nat) (f : Mailbox → Mailbox) : (boxMod s m f).free = s.free := rfl
@[simp] theorem boxMod_pending (s : State) (m : Nat) (f : Mailbox → Mailbox) : (boxMod s m f).pending = s.pending := rfl

@[simp] theorem emit_board (s : State) (o : Out) : (emit s o).board = s.board := rfl
@[simp] theorem emit_rst (s : State) (o : Out) : (emit s o).rst = s.rst := rfl
@[simp] theorem emit_app (s : State) (o : Out) : (emit s o).app = s.app := rfl
@[simp] theorem emit_tmb (s : State) (o : Out) : (emit s o).tmb = s.tmb := rfl
@[simp] theorem emit_ptp (s : State) (o : Out) : (emit s o).ptp = s.ptp := rfl
@[simp] theorem emit_sltCph (s : State) (o : Out) : (emit s o).sltCph = s.sltCph := rfl
@[simp] theorem emit_sltEng (s : State) (o : Out) : (emit s o).sltEng = s.sltEng := rfl
@[simp] theorem emit_sltQue (s : State) (o : Out) : (emit s o).sltQue = s.sltQue := rfl
@[simp] theorem emit_lnm (s : State) (o : Out) : (emit s o).lnm = s.lnm := rfl
@[simp] theorem emit_prs (s : State) (o : Out) : (emit s o).prs = s.prs := rfl
@[simp] theorem emit_dec (s : State) (o : Out) : (emit s o).dec = s.dec := rfl
@[simp] theorem emit_fwd (s : State) (o : Out) : (emit s o).fwd = s.fwd := rfl
@[simp] theorem emit_crb (s : State) (o : Out) : (emit s o).crb = s.crb := rfl
@[simp] theorem emit_sch (s : State) (o : Out) : (emit s o).sch = s.sch := rfl
@[simp] theorem emit_ldg (s : State) (o : Out) : (emit s o).ldg = s.ldg := rfl
@[simp] theorem emit_eng (s : State) (o : Out) : (emit s o).eng = s.eng := rfl
@[simp] theorem emit_cph (s : State) (o : Out) : (emit s o).cph = s.cph := rfl
@[simp] theorem emit_kvl (s : State) (o : Out) : (emit s o).kvl = s.kvl := rfl
@[simp] theorem emit_flt (s : State) (o : Out) : (emit s o).flt = s.flt := rfl
@[simp] theorem emit_sec (s : State) (o : Out) : (emit s o).sec = s.sec := rfl
@[simp] theorem emit_hif (s : State) (o : Out) : (emit s o).hif = s.hif := rfl
@[simp] theorem emit_win (s : State) (o : Out) : (emit s o).win = s.win := rfl
@[simp] theorem emit_sb (s : State) (o : Out) : (emit s o).sb = s.sb := rfl
@[simp] theorem emit_que (s : State) (o : Out) : (emit s o).que = s.que := rfl
@[simp] theorem emit_dma (s : State) (o : Out) : (emit s o).dma = s.dma := rfl
@[simp] theorem emit_mbx (s : State) (o : Out) : (emit s o).mbx = s.mbx := rfl
@[simp] theorem emit_sto (s : State) (o : Out) : (emit s o).sto = s.sto := rfl
@[simp] theorem emit_mir (s : State) (o : Out) : (emit s o).mir = s.mir := rfl
@[simp] theorem emit_dom (s : State) (o : Out) : (emit s o).dom = s.dom := rfl
@[simp] theorem emit_hbmU (s : State) (o : Out) : (emit s o).hbmU = s.hbmU := rfl
@[simp] theorem emit_hbm (s : State) (o : Out) : (emit s o).hbm = s.hbm := rfl
@[simp] theorem emit_tap (s : State) (o : Out) : (emit s o).tap = s.tap := rfl
@[simp] theorem emit_free (s : State) (o : Out) : (emit s o).free = s.free := rfl
@[simp] theorem emit_pending (s : State) (o : Out) : (emit s o).pending = s.pending := rfl

@[simp] theorem addTo_board (s : State) (i p b : Nat) : (addTo s i p b).board = s.board := rfl
@[simp] theorem addTo_rst (s : State) (i p b : Nat) : (addTo s i p b).rst = s.rst := rfl
@[simp] theorem addTo_app (s : State) (i p b : Nat) : (addTo s i p b).app = s.app := rfl
@[simp] theorem addTo_tmb (s : State) (i p b : Nat) : (addTo s i p b).tmb = s.tmb := rfl
@[simp] theorem addTo_ptp (s : State) (i p b : Nat) : (addTo s i p b).ptp = s.ptp := rfl
@[simp] theorem addTo_sltCph (s : State) (i p b : Nat) : (addTo s i p b).sltCph = s.sltCph := rfl
@[simp] theorem addTo_sltEng (s : State) (i p b : Nat) : (addTo s i p b).sltEng = s.sltEng := rfl
@[simp] theorem addTo_sltQue (s : State) (i p b : Nat) : (addTo s i p b).sltQue = s.sltQue := rfl
@[simp] theorem addTo_lnm (s : State) (i p b : Nat) : (addTo s i p b).lnm = s.lnm := rfl
@[simp] theorem addTo_prs (s : State) (i p b : Nat) : (addTo s i p b).prs = s.prs := rfl
@[simp] theorem addTo_dec (s : State) (i p b : Nat) : (addTo s i p b).dec = s.dec := rfl
@[simp] theorem addTo_fwd (s : State) (i p b : Nat) : (addTo s i p b).fwd = s.fwd := rfl
@[simp] theorem addTo_crb (s : State) (i p b : Nat) : (addTo s i p b).crb = s.crb := rfl
@[simp] theorem addTo_sch (s : State) (i p b : Nat) : (addTo s i p b).sch = s.sch := rfl
@[simp] theorem addTo_eng (s : State) (i p b : Nat) : (addTo s i p b).eng = s.eng := rfl
@[simp] theorem addTo_cph (s : State) (i p b : Nat) : (addTo s i p b).cph = s.cph := rfl
@[simp] theorem addTo_kvl (s : State) (i p b : Nat) : (addTo s i p b).kvl = s.kvl := rfl
@[simp] theorem addTo_flt (s : State) (i p b : Nat) : (addTo s i p b).flt = s.flt := rfl
@[simp] theorem addTo_sec (s : State) (i p b : Nat) : (addTo s i p b).sec = s.sec := rfl
@[simp] theorem addTo_hif (s : State) (i p b : Nat) : (addTo s i p b).hif = s.hif := rfl
@[simp] theorem addTo_win (s : State) (i p b : Nat) : (addTo s i p b).win = s.win := rfl
@[simp] theorem addTo_sb (s : State) (i p b : Nat) : (addTo s i p b).sb = s.sb := rfl
@[simp] theorem addTo_que (s : State) (i p b : Nat) : (addTo s i p b).que = s.que := rfl
@[simp] theorem addTo_dma (s : State) (i p b : Nat) : (addTo s i p b).dma = s.dma := rfl
@[simp] theorem addTo_mbx (s : State) (i p b : Nat) : (addTo s i p b).mbx = s.mbx := rfl
@[simp] theorem addTo_sto (s : State) (i p b : Nat) : (addTo s i p b).sto = s.sto := rfl
@[simp] theorem addTo_mir (s : State) (i p b : Nat) : (addTo s i p b).mir = s.mir := rfl
@[simp] theorem addTo_dom (s : State) (i p b : Nat) : (addTo s i p b).dom = s.dom := rfl
@[simp] theorem addTo_hbmU (s : State) (i p b : Nat) : (addTo s i p b).hbmU = s.hbmU := rfl
@[simp] theorem addTo_hbm (s : State) (i p b : Nat) : (addTo s i p b).hbm = s.hbm := rfl
@[simp] theorem addTo_tap (s : State) (i p b : Nat) : (addTo s i p b).tap = s.tap := rfl
@[simp] theorem addTo_out (s : State) (i p b : Nat) : (addTo s i p b).out = s.out := rfl
@[simp] theorem addTo_free (s : State) (i p b : Nat) : (addTo s i p b).free = s.free := rfl
@[simp] theorem addTo_pending (s : State) (i p b : Nat) : (addTo s i p b).pending = s.pending := rfl

@[simp] theorem addAll_board (s : State) (l : List Add) : (addAll s l).board = s.board := rfl
@[simp] theorem addAll_rst (s : State) (l : List Add) : (addAll s l).rst = s.rst := rfl
@[simp] theorem addAll_app (s : State) (l : List Add) : (addAll s l).app = s.app := rfl
@[simp] theorem addAll_tmb (s : State) (l : List Add) : (addAll s l).tmb = s.tmb := rfl
@[simp] theorem addAll_ptp (s : State) (l : List Add) : (addAll s l).ptp = s.ptp := rfl
@[simp] theorem addAll_sltCph (s : State) (l : List Add) : (addAll s l).sltCph = s.sltCph := rfl
@[simp] theorem addAll_sltEng (s : State) (l : List Add) : (addAll s l).sltEng = s.sltEng := rfl
@[simp] theorem addAll_sltQue (s : State) (l : List Add) : (addAll s l).sltQue = s.sltQue := rfl
@[simp] theorem addAll_lnm (s : State) (l : List Add) : (addAll s l).lnm = s.lnm := rfl
@[simp] theorem addAll_prs (s : State) (l : List Add) : (addAll s l).prs = s.prs := rfl
@[simp] theorem addAll_dec (s : State) (l : List Add) : (addAll s l).dec = s.dec := rfl
@[simp] theorem addAll_fwd (s : State) (l : List Add) : (addAll s l).fwd = s.fwd := rfl
@[simp] theorem addAll_crb (s : State) (l : List Add) : (addAll s l).crb = s.crb := rfl
@[simp] theorem addAll_sch (s : State) (l : List Add) : (addAll s l).sch = s.sch := rfl
@[simp] theorem addAll_eng (s : State) (l : List Add) : (addAll s l).eng = s.eng := rfl
@[simp] theorem addAll_cph (s : State) (l : List Add) : (addAll s l).cph = s.cph := rfl
@[simp] theorem addAll_kvl (s : State) (l : List Add) : (addAll s l).kvl = s.kvl := rfl
@[simp] theorem addAll_flt (s : State) (l : List Add) : (addAll s l).flt = s.flt := rfl
@[simp] theorem addAll_sec (s : State) (l : List Add) : (addAll s l).sec = s.sec := rfl
@[simp] theorem addAll_hif (s : State) (l : List Add) : (addAll s l).hif = s.hif := rfl
@[simp] theorem addAll_win (s : State) (l : List Add) : (addAll s l).win = s.win := rfl
@[simp] theorem addAll_sb (s : State) (l : List Add) : (addAll s l).sb = s.sb := rfl
@[simp] theorem addAll_que (s : State) (l : List Add) : (addAll s l).que = s.que := rfl
@[simp] theorem addAll_dma (s : State) (l : List Add) : (addAll s l).dma = s.dma := rfl
@[simp] theorem addAll_mbx (s : State) (l : List Add) : (addAll s l).mbx = s.mbx := rfl
@[simp] theorem addAll_sto (s : State) (l : List Add) : (addAll s l).sto = s.sto := rfl
@[simp] theorem addAll_mir (s : State) (l : List Add) : (addAll s l).mir = s.mir := rfl
@[simp] theorem addAll_dom (s : State) (l : List Add) : (addAll s l).dom = s.dom := rfl
@[simp] theorem addAll_hbmU (s : State) (l : List Add) : (addAll s l).hbmU = s.hbmU := rfl
@[simp] theorem addAll_hbm (s : State) (l : List Add) : (addAll s l).hbm = s.hbm := rfl
@[simp] theorem addAll_tap (s : State) (l : List Add) : (addAll s l).tap = s.tap := rfl
@[simp] theorem addAll_out (s : State) (l : List Add) : (addAll s l).out = s.out := rfl
@[simp] theorem addAll_free (s : State) (l : List Add) : (addAll s l).free = s.free := rfl
@[simp] theorem addAll_pending (s : State) (l : List Add) : (addAll s l).pending = s.pending := rfl

@[simp] theorem tally_board (s : State) (u : Nat) (f : Tally → Tally) : (tally s u f).board = s.board := rfl
@[simp] theorem tally_rst (s : State) (u : Nat) (f : Tally → Tally) : (tally s u f).rst = s.rst := rfl
@[simp] theorem tally_app (s : State) (u : Nat) (f : Tally → Tally) : (tally s u f).app = s.app := rfl
@[simp] theorem tally_tmb (s : State) (u : Nat) (f : Tally → Tally) : (tally s u f).tmb = s.tmb := rfl
@[simp] theorem tally_ptp (s : State) (u : Nat) (f : Tally → Tally) : (tally s u f).ptp = s.ptp := rfl
@[simp] theorem tally_sltCph (s : State) (u : Nat) (f : Tally → Tally) : (tally s u f).sltCph = s.sltCph := rfl
@[simp] theorem tally_sltEng (s : State) (u : Nat) (f : Tally → Tally) : (tally s u f).sltEng = s.sltEng := rfl
@[simp] theorem tally_sltQue (s : State) (u : Nat) (f : Tally → Tally) : (tally s u f).sltQue = s.sltQue := rfl
@[simp] theorem tally_lnm (s : State) (u : Nat) (f : Tally → Tally) : (tally s u f).lnm = s.lnm := rfl
@[simp] theorem tally_prs (s : State) (u : Nat) (f : Tally → Tally) : (tally s u f).prs = s.prs := rfl
@[simp] theorem tally_dec (s : State) (u : Nat) (f : Tally → Tally) : (tally s u f).dec = s.dec := rfl
@[simp] theorem tally_fwd (s : State) (u : Nat) (f : Tally → Tally) : (tally s u f).fwd = s.fwd := rfl
@[simp] theorem tally_crb (s : State) (u : Nat) (f : Tally → Tally) : (tally s u f).crb = s.crb := rfl
@[simp] theorem tally_sch (s : State) (u : Nat) (f : Tally → Tally) : (tally s u f).sch = s.sch := rfl
@[simp] theorem tally_eng (s : State) (u : Nat) (f : Tally → Tally) : (tally s u f).eng = s.eng := rfl
@[simp] theorem tally_cph (s : State) (u : Nat) (f : Tally → Tally) : (tally s u f).cph = s.cph := rfl
@[simp] theorem tally_kvl (s : State) (u : Nat) (f : Tally → Tally) : (tally s u f).kvl = s.kvl := rfl
@[simp] theorem tally_flt (s : State) (u : Nat) (f : Tally → Tally) : (tally s u f).flt = s.flt := rfl
@[simp] theorem tally_sec (s : State) (u : Nat) (f : Tally → Tally) : (tally s u f).sec = s.sec := rfl
@[simp] theorem tally_hif (s : State) (u : Nat) (f : Tally → Tally) : (tally s u f).hif = s.hif := rfl
@[simp] theorem tally_win (s : State) (u : Nat) (f : Tally → Tally) : (tally s u f).win = s.win := rfl
@[simp] theorem tally_sb (s : State) (u : Nat) (f : Tally → Tally) : (tally s u f).sb = s.sb := rfl
@[simp] theorem tally_que (s : State) (u : Nat) (f : Tally → Tally) : (tally s u f).que = s.que := rfl
@[simp] theorem tally_dma (s : State) (u : Nat) (f : Tally → Tally) : (tally s u f).dma = s.dma := rfl
@[simp] theorem tally_mbx (s : State) (u : Nat) (f : Tally → Tally) : (tally s u f).mbx = s.mbx := rfl
@[simp] theorem tally_sto (s : State) (u : Nat) (f : Tally → Tally) : (tally s u f).sto = s.sto := rfl
@[simp] theorem tally_mir (s : State) (u : Nat) (f : Tally → Tally) : (tally s u f).mir = s.mir := rfl
@[simp] theorem tally_dom (s : State) (u : Nat) (f : Tally → Tally) : (tally s u f).dom = s.dom := rfl
@[simp] theorem tally_hbmU (s : State) (u : Nat) (f : Tally → Tally) : (tally s u f).hbmU = s.hbmU := rfl
@[simp] theorem tally_hbm (s : State) (u : Nat) (f : Tally → Tally) : (tally s u f).hbm = s.hbm := rfl
@[simp] theorem tally_tap (s : State) (u : Nat) (f : Tally → Tally) : (tally s u f).tap = s.tap := rfl
@[simp] theorem tally_out (s : State) (u : Nat) (f : Tally → Tally) : (tally s u f).out = s.out := rfl
@[simp] theorem tally_free (s : State) (u : Nat) (f : Tally → Tally) : (tally s u f).free = s.free := rfl
@[simp] theorem tally_pending (s : State) (u : Nat) (f : Tally → Tally) : (tally s u f).pending = s.pending := rfl

@[simp] theorem hbmPutBytes_board (s : State) (a : Nat) (bs : List Byte) : (hbmPutBytes s a bs).board = s.board := rfl
@[simp] theorem hbmPutBytes_rst (s : State) (a : Nat) (bs : List Byte) : (hbmPutBytes s a bs).rst = s.rst := rfl
@[simp] theorem hbmPutBytes_app (s : State) (a : Nat) (bs : List Byte) : (hbmPutBytes s a bs).app = s.app := rfl
@[simp] theorem hbmPutBytes_tmb (s : State) (a : Nat) (bs : List Byte) : (hbmPutBytes s a bs).tmb = s.tmb := rfl
@[simp] theorem hbmPutBytes_ptp (s : State) (a : Nat) (bs : List Byte) : (hbmPutBytes s a bs).ptp = s.ptp := rfl
@[simp] theorem hbmPutBytes_sltCph (s : State) (a : Nat) (bs : List Byte) : (hbmPutBytes s a bs).sltCph = s.sltCph := rfl
@[simp] theorem hbmPutBytes_sltEng (s : State) (a : Nat) (bs : List Byte) : (hbmPutBytes s a bs).sltEng = s.sltEng := rfl
@[simp] theorem hbmPutBytes_sltQue (s : State) (a : Nat) (bs : List Byte) : (hbmPutBytes s a bs).sltQue = s.sltQue := rfl
@[simp] theorem hbmPutBytes_lnm (s : State) (a : Nat) (bs : List Byte) : (hbmPutBytes s a bs).lnm = s.lnm := rfl
@[simp] theorem hbmPutBytes_prs (s : State) (a : Nat) (bs : List Byte) : (hbmPutBytes s a bs).prs = s.prs := rfl
@[simp] theorem hbmPutBytes_dec (s : State) (a : Nat) (bs : List Byte) : (hbmPutBytes s a bs).dec = s.dec := rfl
@[simp] theorem hbmPutBytes_fwd (s : State) (a : Nat) (bs : List Byte) : (hbmPutBytes s a bs).fwd = s.fwd := rfl
@[simp] theorem hbmPutBytes_crb (s : State) (a : Nat) (bs : List Byte) : (hbmPutBytes s a bs).crb = s.crb := rfl
@[simp] theorem hbmPutBytes_sch (s : State) (a : Nat) (bs : List Byte) : (hbmPutBytes s a bs).sch = s.sch := rfl
@[simp] theorem hbmPutBytes_ldg (s : State) (a : Nat) (bs : List Byte) : (hbmPutBytes s a bs).ldg = s.ldg := rfl
@[simp] theorem hbmPutBytes_eng (s : State) (a : Nat) (bs : List Byte) : (hbmPutBytes s a bs).eng = s.eng := rfl
@[simp] theorem hbmPutBytes_cph (s : State) (a : Nat) (bs : List Byte) : (hbmPutBytes s a bs).cph = s.cph := rfl
@[simp] theorem hbmPutBytes_kvl (s : State) (a : Nat) (bs : List Byte) : (hbmPutBytes s a bs).kvl = s.kvl := rfl
@[simp] theorem hbmPutBytes_flt (s : State) (a : Nat) (bs : List Byte) : (hbmPutBytes s a bs).flt = s.flt := rfl
@[simp] theorem hbmPutBytes_sec (s : State) (a : Nat) (bs : List Byte) : (hbmPutBytes s a bs).sec = s.sec := rfl
@[simp] theorem hbmPutBytes_hif (s : State) (a : Nat) (bs : List Byte) : (hbmPutBytes s a bs).hif = s.hif := rfl
@[simp] theorem hbmPutBytes_win (s : State) (a : Nat) (bs : List Byte) : (hbmPutBytes s a bs).win = s.win := rfl
@[simp] theorem hbmPutBytes_sb (s : State) (a : Nat) (bs : List Byte) : (hbmPutBytes s a bs).sb = s.sb := rfl
@[simp] theorem hbmPutBytes_que (s : State) (a : Nat) (bs : List Byte) : (hbmPutBytes s a bs).que = s.que := rfl
@[simp] theorem hbmPutBytes_dma (s : State) (a : Nat) (bs : List Byte) : (hbmPutBytes s a bs).dma = s.dma := rfl
@[simp] theorem hbmPutBytes_mbx (s : State) (a : Nat) (bs : List Byte) : (hbmPutBytes s a bs).mbx = s.mbx := rfl
@[simp] theorem hbmPutBytes_sto (s : State) (a : Nat) (bs : List Byte) : (hbmPutBytes s a bs).sto = s.sto := rfl
@[simp] theorem hbmPutBytes_mir (s : State) (a : Nat) (bs : List Byte) : (hbmPutBytes s a bs).mir = s.mir := rfl
@[simp] theorem hbmPutBytes_dom (s : State) (a : Nat) (bs : List Byte) : (hbmPutBytes s a bs).dom = s.dom := rfl
@[simp] theorem hbmPutBytes_hbmU (s : State) (a : Nat) (bs : List Byte) : (hbmPutBytes s a bs).hbmU = s.hbmU := rfl
@[simp] theorem hbmPutBytes_tap (s : State) (a : Nat) (bs : List Byte) : (hbmPutBytes s a bs).tap = s.tap := rfl
@[simp] theorem hbmPutBytes_out (s : State) (a : Nat) (bs : List Byte) : (hbmPutBytes s a bs).out = s.out := rfl
@[simp] theorem hbmPutBytes_free (s : State) (a : Nat) (bs : List Byte) : (hbmPutBytes s a bs).free = s.free := rfl
@[simp] theorem hbmPutBytes_pending (s : State) (a : Nat) (bs : List Byte) : (hbmPutBytes s a bs).pending = s.pending := rfl

@[simp] theorem funcMod_board (s : State) (n : Nat) (f : Func → Func) : (funcMod s n f).board = s.board := rfl
@[simp] theorem funcMod_rst (s : State) (n : Nat) (f : Func → Func) : (funcMod s n f).rst = s.rst := rfl
@[simp] theorem funcMod_app (s : State) (n : Nat) (f : Func → Func) : (funcMod s n f).app = s.app := rfl
@[simp] theorem funcMod_tmb (s : State) (n : Nat) (f : Func → Func) : (funcMod s n f).tmb = s.tmb := rfl
@[simp] theorem funcMod_ptp (s : State) (n : Nat) (f : Func → Func) : (funcMod s n f).ptp = s.ptp := rfl
@[simp] theorem funcMod_sltCph (s : State) (n : Nat) (f : Func → Func) : (funcMod s n f).sltCph = s.sltCph := rfl
@[simp] theorem funcMod_sltEng (s : State) (n : Nat) (f : Func → Func) : (funcMod s n f).sltEng = s.sltEng := rfl
@[simp] theorem funcMod_sltQue (s : State) (n : Nat) (f : Func → Func) : (funcMod s n f).sltQue = s.sltQue := rfl
@[simp] theorem funcMod_lnm (s : State) (n : Nat) (f : Func → Func) : (funcMod s n f).lnm = s.lnm := rfl
@[simp] theorem funcMod_prs (s : State) (n : Nat) (f : Func → Func) : (funcMod s n f).prs = s.prs := rfl
@[simp] theorem funcMod_dec (s : State) (n : Nat) (f : Func → Func) : (funcMod s n f).dec = s.dec := rfl
@[simp] theorem funcMod_fwd (s : State) (n : Nat) (f : Func → Func) : (funcMod s n f).fwd = s.fwd := rfl
@[simp] theorem funcMod_crb (s : State) (n : Nat) (f : Func → Func) : (funcMod s n f).crb = s.crb := rfl
@[simp] theorem funcMod_sch (s : State) (n : Nat) (f : Func → Func) : (funcMod s n f).sch = s.sch := rfl
@[simp] theorem funcMod_ldg (s : State) (n : Nat) (f : Func → Func) : (funcMod s n f).ldg = s.ldg := rfl
@[simp] theorem funcMod_eng (s : State) (n : Nat) (f : Func → Func) : (funcMod s n f).eng = s.eng := rfl
@[simp] theorem funcMod_cph (s : State) (n : Nat) (f : Func → Func) : (funcMod s n f).cph = s.cph := rfl
@[simp] theorem funcMod_kvl (s : State) (n : Nat) (f : Func → Func) : (funcMod s n f).kvl = s.kvl := rfl
@[simp] theorem funcMod_flt (s : State) (n : Nat) (f : Func → Func) : (funcMod s n f).flt = s.flt := rfl
@[simp] theorem funcMod_sec (s : State) (n : Nat) (f : Func → Func) : (funcMod s n f).sec = s.sec := rfl
@[simp] theorem funcMod_win (s : State) (n : Nat) (f : Func → Func) : (funcMod s n f).win = s.win := rfl
@[simp] theorem funcMod_sb (s : State) (n : Nat) (f : Func → Func) : (funcMod s n f).sb = s.sb := rfl
@[simp] theorem funcMod_que (s : State) (n : Nat) (f : Func → Func) : (funcMod s n f).que = s.que := rfl
@[simp] theorem funcMod_dma (s : State) (n : Nat) (f : Func → Func) : (funcMod s n f).dma = s.dma := rfl
@[simp] theorem funcMod_mbx (s : State) (n : Nat) (f : Func → Func) : (funcMod s n f).mbx = s.mbx := rfl
@[simp] theorem funcMod_sto (s : State) (n : Nat) (f : Func → Func) : (funcMod s n f).sto = s.sto := rfl
@[simp] theorem funcMod_mir (s : State) (n : Nat) (f : Func → Func) : (funcMod s n f).mir = s.mir := rfl
@[simp] theorem funcMod_dom (s : State) (n : Nat) (f : Func → Func) : (funcMod s n f).dom = s.dom := rfl
@[simp] theorem funcMod_hbmU (s : State) (n : Nat) (f : Func → Func) : (funcMod s n f).hbmU = s.hbmU := rfl
@[simp] theorem funcMod_hbm (s : State) (n : Nat) (f : Func → Func) : (funcMod s n f).hbm = s.hbm := rfl
@[simp] theorem funcMod_tap (s : State) (n : Nat) (f : Func → Func) : (funcMod s n f).tap = s.tap := rfl
@[simp] theorem funcMod_out (s : State) (n : Nat) (f : Func → Func) : (funcMod s n f).out = s.out := rfl
@[simp] theorem funcMod_free (s : State) (n : Nat) (f : Func → Func) : (funcMod s n f).free = s.free := rfl
@[simp] theorem funcMod_pending (s : State) (n : Nat) (f : Func → Func) : (funcMod s n f).pending = s.pending := rfl

@[simp] theorem endpointMod_board (s : State) (n : Nat) (f : Endpoint → Endpoint) : (endpointMod s n f).board = s.board := rfl
@[simp] theorem endpointMod_rst (s : State) (n : Nat) (f : Endpoint → Endpoint) : (endpointMod s n f).rst = s.rst := rfl
@[simp] theorem endpointMod_app (s : State) (n : Nat) (f : Endpoint → Endpoint) : (endpointMod s n f).app = s.app := rfl
@[simp] theorem endpointMod_tmb (s : State) (n : Nat) (f : Endpoint → Endpoint) : (endpointMod s n f).tmb = s.tmb := rfl
@[simp] theorem endpointMod_ptp (s : State) (n : Nat) (f : Endpoint → Endpoint) : (endpointMod s n f).ptp = s.ptp := rfl
@[simp] theorem endpointMod_sltCph (s : State) (n : Nat) (f : Endpoint → Endpoint) : (endpointMod s n f).sltCph = s.sltCph := rfl
@[simp] theorem endpointMod_sltEng (s : State) (n : Nat) (f : Endpoint → Endpoint) : (endpointMod s n f).sltEng = s.sltEng := rfl
@[simp] theorem endpointMod_sltQue (s : State) (n : Nat) (f : Endpoint → Endpoint) : (endpointMod s n f).sltQue = s.sltQue := rfl
@[simp] theorem endpointMod_lnm (s : State) (n : Nat) (f : Endpoint → Endpoint) : (endpointMod s n f).lnm = s.lnm := rfl
@[simp] theorem endpointMod_prs (s : State) (n : Nat) (f : Endpoint → Endpoint) : (endpointMod s n f).prs = s.prs := rfl
@[simp] theorem endpointMod_dec (s : State) (n : Nat) (f : Endpoint → Endpoint) : (endpointMod s n f).dec = s.dec := rfl
@[simp] theorem endpointMod_fwd (s : State) (n : Nat) (f : Endpoint → Endpoint) : (endpointMod s n f).fwd = s.fwd := rfl
@[simp] theorem endpointMod_crb (s : State) (n : Nat) (f : Endpoint → Endpoint) : (endpointMod s n f).crb = s.crb := rfl
@[simp] theorem endpointMod_sch (s : State) (n : Nat) (f : Endpoint → Endpoint) : (endpointMod s n f).sch = s.sch := rfl
@[simp] theorem endpointMod_ldg (s : State) (n : Nat) (f : Endpoint → Endpoint) : (endpointMod s n f).ldg = s.ldg := rfl
@[simp] theorem endpointMod_eng (s : State) (n : Nat) (f : Endpoint → Endpoint) : (endpointMod s n f).eng = s.eng := rfl
@[simp] theorem endpointMod_cph (s : State) (n : Nat) (f : Endpoint → Endpoint) : (endpointMod s n f).cph = s.cph := rfl
@[simp] theorem endpointMod_kvl (s : State) (n : Nat) (f : Endpoint → Endpoint) : (endpointMod s n f).kvl = s.kvl := rfl
@[simp] theorem endpointMod_flt (s : State) (n : Nat) (f : Endpoint → Endpoint) : (endpointMod s n f).flt = s.flt := rfl
@[simp] theorem endpointMod_sec (s : State) (n : Nat) (f : Endpoint → Endpoint) : (endpointMod s n f).sec = s.sec := rfl
@[simp] theorem endpointMod_win (s : State) (n : Nat) (f : Endpoint → Endpoint) : (endpointMod s n f).win = s.win := rfl
@[simp] theorem endpointMod_sb (s : State) (n : Nat) (f : Endpoint → Endpoint) : (endpointMod s n f).sb = s.sb := rfl
@[simp] theorem endpointMod_que (s : State) (n : Nat) (f : Endpoint → Endpoint) : (endpointMod s n f).que = s.que := rfl
@[simp] theorem endpointMod_dma (s : State) (n : Nat) (f : Endpoint → Endpoint) : (endpointMod s n f).dma = s.dma := rfl
@[simp] theorem endpointMod_mbx (s : State) (n : Nat) (f : Endpoint → Endpoint) : (endpointMod s n f).mbx = s.mbx := rfl
@[simp] theorem endpointMod_sto (s : State) (n : Nat) (f : Endpoint → Endpoint) : (endpointMod s n f).sto = s.sto := rfl
@[simp] theorem endpointMod_mir (s : State) (n : Nat) (f : Endpoint → Endpoint) : (endpointMod s n f).mir = s.mir := rfl
@[simp] theorem endpointMod_dom (s : State) (n : Nat) (f : Endpoint → Endpoint) : (endpointMod s n f).dom = s.dom := rfl
@[simp] theorem endpointMod_hbmU (s : State) (n : Nat) (f : Endpoint → Endpoint) : (endpointMod s n f).hbmU = s.hbmU := rfl
@[simp] theorem endpointMod_hbm (s : State) (n : Nat) (f : Endpoint → Endpoint) : (endpointMod s n f).hbm = s.hbm := rfl
@[simp] theorem endpointMod_tap (s : State) (n : Nat) (f : Endpoint → Endpoint) : (endpointMod s n f).tap = s.tap := rfl
@[simp] theorem endpointMod_out (s : State) (n : Nat) (f : Endpoint → Endpoint) : (endpointMod s n f).out = s.out := rfl
@[simp] theorem endpointMod_free (s : State) (n : Nat) (f : Endpoint → Endpoint) : (endpointMod s n f).free = s.free := rfl
@[simp] theorem endpointMod_pending (s : State) (n : Nat) (f : Endpoint → Endpoint) : (endpointMod s n f).pending = s.pending := rfl

@[simp] theorem pktMod_board (s : State) (i : Nat) (f : Packet → Packet) : (pktMod s i f).board = s.board := rfl
@[simp] theorem pktMod_rst (s : State) (i : Nat) (f : Packet → Packet) : (pktMod s i f).rst = s.rst := rfl
@[simp] theorem pktMod_app (s : State) (i : Nat) (f : Packet → Packet) : (pktMod s i f).app = s.app := rfl
@[simp] theorem pktMod_tmb (s : State) (i : Nat) (f : Packet → Packet) : (pktMod s i f).tmb = s.tmb := rfl
@[simp] theorem pktMod_ptp (s : State) (i : Nat) (f : Packet → Packet) : (pktMod s i f).ptp = s.ptp := rfl
@[simp] theorem pktMod_sltCph (s : State) (i : Nat) (f : Packet → Packet) : (pktMod s i f).sltCph = s.sltCph := rfl
@[simp] theorem pktMod_sltEng (s : State) (i : Nat) (f : Packet → Packet) : (pktMod s i f).sltEng = s.sltEng := rfl
@[simp] theorem pktMod_sltQue (s : State) (i : Nat) (f : Packet → Packet) : (pktMod s i f).sltQue = s.sltQue := rfl
@[simp] theorem pktMod_lnm (s : State) (i : Nat) (f : Packet → Packet) : (pktMod s i f).lnm = s.lnm := rfl
@[simp] theorem pktMod_prs (s : State) (i : Nat) (f : Packet → Packet) : (pktMod s i f).prs = s.prs := rfl
@[simp] theorem pktMod_dec (s : State) (i : Nat) (f : Packet → Packet) : (pktMod s i f).dec = s.dec := rfl
@[simp] theorem pktMod_fwd (s : State) (i : Nat) (f : Packet → Packet) : (pktMod s i f).fwd = s.fwd := rfl
@[simp] theorem pktMod_sch (s : State) (i : Nat) (f : Packet → Packet) : (pktMod s i f).sch = s.sch := rfl
@[simp] theorem pktMod_ldg (s : State) (i : Nat) (f : Packet → Packet) : (pktMod s i f).ldg = s.ldg := rfl
@[simp] theorem pktMod_eng (s : State) (i : Nat) (f : Packet → Packet) : (pktMod s i f).eng = s.eng := rfl
@[simp] theorem pktMod_cph (s : State) (i : Nat) (f : Packet → Packet) : (pktMod s i f).cph = s.cph := rfl
@[simp] theorem pktMod_kvl (s : State) (i : Nat) (f : Packet → Packet) : (pktMod s i f).kvl = s.kvl := rfl
@[simp] theorem pktMod_flt (s : State) (i : Nat) (f : Packet → Packet) : (pktMod s i f).flt = s.flt := rfl
@[simp] theorem pktMod_sec (s : State) (i : Nat) (f : Packet → Packet) : (pktMod s i f).sec = s.sec := rfl
@[simp] theorem pktMod_hif (s : State) (i : Nat) (f : Packet → Packet) : (pktMod s i f).hif = s.hif := rfl
@[simp] theorem pktMod_win (s : State) (i : Nat) (f : Packet → Packet) : (pktMod s i f).win = s.win := rfl
@[simp] theorem pktMod_sb (s : State) (i : Nat) (f : Packet → Packet) : (pktMod s i f).sb = s.sb := rfl
@[simp] theorem pktMod_que (s : State) (i : Nat) (f : Packet → Packet) : (pktMod s i f).que = s.que := rfl
@[simp] theorem pktMod_dma (s : State) (i : Nat) (f : Packet → Packet) : (pktMod s i f).dma = s.dma := rfl
@[simp] theorem pktMod_mbx (s : State) (i : Nat) (f : Packet → Packet) : (pktMod s i f).mbx = s.mbx := rfl
@[simp] theorem pktMod_sto (s : State) (i : Nat) (f : Packet → Packet) : (pktMod s i f).sto = s.sto := rfl
@[simp] theorem pktMod_mir (s : State) (i : Nat) (f : Packet → Packet) : (pktMod s i f).mir = s.mir := rfl
@[simp] theorem pktMod_dom (s : State) (i : Nat) (f : Packet → Packet) : (pktMod s i f).dom = s.dom := rfl
@[simp] theorem pktMod_hbmU (s : State) (i : Nat) (f : Packet → Packet) : (pktMod s i f).hbmU = s.hbmU := rfl
@[simp] theorem pktMod_hbm (s : State) (i : Nat) (f : Packet → Packet) : (pktMod s i f).hbm = s.hbm := rfl
@[simp] theorem pktMod_tap (s : State) (i : Nat) (f : Packet → Packet) : (pktMod s i f).tap = s.tap := rfl
@[simp] theorem pktMod_out (s : State) (i : Nat) (f : Packet → Packet) : (pktMod s i f).out = s.out := rfl
@[simp] theorem pktMod_free (s : State) (i : Nat) (f : Packet → Packet) : (pktMod s i f).free = s.free := rfl
@[simp] theorem pktMod_pending (s : State) (i : Nat) (f : Packet → Packet) : (pktMod s i f).pending = s.pending := rfl

@[simp] theorem schQueueMod_board (s : State) (q : Nat) (f : SchQueue → SchQueue) : (schQueueMod s q f).board = s.board := rfl
@[simp] theorem schQueueMod_rst (s : State) (q : Nat) (f : SchQueue → SchQueue) : (schQueueMod s q f).rst = s.rst := rfl
@[simp] theorem schQueueMod_app (s : State) (q : Nat) (f : SchQueue → SchQueue) : (schQueueMod s q f).app = s.app := rfl
@[simp] theorem schQueueMod_tmb (s : State) (q : Nat) (f : SchQueue → SchQueue) : (schQueueMod s q f).tmb = s.tmb := rfl
@[simp] theorem schQueueMod_ptp (s : State) (q : Nat) (f : SchQueue → SchQueue) : (schQueueMod s q f).ptp = s.ptp := rfl
@[simp] theorem schQueueMod_sltCph (s : State) (q : Nat) (f : SchQueue → SchQueue) : (schQueueMod s q f).sltCph = s.sltCph := rfl
@[simp] theorem schQueueMod_sltEng (s : State) (q : Nat) (f : SchQueue → SchQueue) : (schQueueMod s q f).sltEng = s.sltEng := rfl
@[simp] theorem schQueueMod_sltQue (s : State) (q : Nat) (f : SchQueue → SchQueue) : (schQueueMod s q f).sltQue = s.sltQue := rfl
@[simp] theorem schQueueMod_lnm (s : State) (q : Nat) (f : SchQueue → SchQueue) : (schQueueMod s q f).lnm = s.lnm := rfl
@[simp] theorem schQueueMod_prs (s : State) (q : Nat) (f : SchQueue → SchQueue) : (schQueueMod s q f).prs = s.prs := rfl
@[simp] theorem schQueueMod_dec (s : State) (q : Nat) (f : SchQueue → SchQueue) : (schQueueMod s q f).dec = s.dec := rfl
@[simp] theorem schQueueMod_fwd (s : State) (q : Nat) (f : SchQueue → SchQueue) : (schQueueMod s q f).fwd = s.fwd := rfl
@[simp] theorem schQueueMod_crb (s : State) (q : Nat) (f : SchQueue → SchQueue) : (schQueueMod s q f).crb = s.crb := rfl
@[simp] theorem schQueueMod_ldg (s : State) (q : Nat) (f : SchQueue → SchQueue) : (schQueueMod s q f).ldg = s.ldg := rfl
@[simp] theorem schQueueMod_eng (s : State) (q : Nat) (f : SchQueue → SchQueue) : (schQueueMod s q f).eng = s.eng := rfl
@[simp] theorem schQueueMod_cph (s : State) (q : Nat) (f : SchQueue → SchQueue) : (schQueueMod s q f).cph = s.cph := rfl
@[simp] theorem schQueueMod_kvl (s : State) (q : Nat) (f : SchQueue → SchQueue) : (schQueueMod s q f).kvl = s.kvl := rfl
@[simp] theorem schQueueMod_flt (s : State) (q : Nat) (f : SchQueue → SchQueue) : (schQueueMod s q f).flt = s.flt := rfl
@[simp] theorem schQueueMod_sec (s : State) (q : Nat) (f : SchQueue → SchQueue) : (schQueueMod s q f).sec = s.sec := rfl
@[simp] theorem schQueueMod_hif (s : State) (q : Nat) (f : SchQueue → SchQueue) : (schQueueMod s q f).hif = s.hif := rfl
@[simp] theorem schQueueMod_win (s : State) (q : Nat) (f : SchQueue → SchQueue) : (schQueueMod s q f).win = s.win := rfl
@[simp] theorem schQueueMod_sb (s : State) (q : Nat) (f : SchQueue → SchQueue) : (schQueueMod s q f).sb = s.sb := rfl
@[simp] theorem schQueueMod_que (s : State) (q : Nat) (f : SchQueue → SchQueue) : (schQueueMod s q f).que = s.que := rfl
@[simp] theorem schQueueMod_dma (s : State) (q : Nat) (f : SchQueue → SchQueue) : (schQueueMod s q f).dma = s.dma := rfl
@[simp] theorem schQueueMod_mbx (s : State) (q : Nat) (f : SchQueue → SchQueue) : (schQueueMod s q f).mbx = s.mbx := rfl
@[simp] theorem schQueueMod_sto (s : State) (q : Nat) (f : SchQueue → SchQueue) : (schQueueMod s q f).sto = s.sto := rfl
@[simp] theorem schQueueMod_mir (s : State) (q : Nat) (f : SchQueue → SchQueue) : (schQueueMod s q f).mir = s.mir := rfl
@[simp] theorem schQueueMod_dom (s : State) (q : Nat) (f : SchQueue → SchQueue) : (schQueueMod s q f).dom = s.dom := rfl
@[simp] theorem schQueueMod_hbmU (s : State) (q : Nat) (f : SchQueue → SchQueue) : (schQueueMod s q f).hbmU = s.hbmU := rfl
@[simp] theorem schQueueMod_hbm (s : State) (q : Nat) (f : SchQueue → SchQueue) : (schQueueMod s q f).hbm = s.hbm := rfl
@[simp] theorem schQueueMod_tap (s : State) (q : Nat) (f : SchQueue → SchQueue) : (schQueueMod s q f).tap = s.tap := rfl
@[simp] theorem schQueueMod_out (s : State) (q : Nat) (f : SchQueue → SchQueue) : (schQueueMod s q f).out = s.out := rfl
@[simp] theorem schQueueMod_free (s : State) (q : Nat) (f : SchQueue → SchQueue) : (schQueueMod s q f).free = s.free := rfl
@[simp] theorem schQueueMod_pending (s : State) (q : Nat) (f : SchQueue → SchQueue) : (schQueueMod s q f).pending = s.pending := rfl

@[simp] theorem schPortMod_board (s : State) (n : Nat) (f : SchPort → SchPort) : (schPortMod s n f).board = s.board := rfl
@[simp] theorem schPortMod_rst (s : State) (n : Nat) (f : SchPort → SchPort) : (schPortMod s n f).rst = s.rst := rfl
@[simp] theorem schPortMod_app (s : State) (n : Nat) (f : SchPort → SchPort) : (schPortMod s n f).app = s.app := rfl
@[simp] theorem schPortMod_tmb (s : State) (n : Nat) (f : SchPort → SchPort) : (schPortMod s n f).tmb = s.tmb := rfl
@[simp] theorem schPortMod_ptp (s : State) (n : Nat) (f : SchPort → SchPort) : (schPortMod s n f).ptp = s.ptp := rfl
@[simp] theorem schPortMod_sltCph (s : State) (n : Nat) (f : SchPort → SchPort) : (schPortMod s n f).sltCph = s.sltCph := rfl
@[simp] theorem schPortMod_sltEng (s : State) (n : Nat) (f : SchPort → SchPort) : (schPortMod s n f).sltEng = s.sltEng := rfl
@[simp] theorem schPortMod_sltQue (s : State) (n : Nat) (f : SchPort → SchPort) : (schPortMod s n f).sltQue = s.sltQue := rfl
@[simp] theorem schPortMod_lnm (s : State) (n : Nat) (f : SchPort → SchPort) : (schPortMod s n f).lnm = s.lnm := rfl
@[simp] theorem schPortMod_prs (s : State) (n : Nat) (f : SchPort → SchPort) : (schPortMod s n f).prs = s.prs := rfl
@[simp] theorem schPortMod_dec (s : State) (n : Nat) (f : SchPort → SchPort) : (schPortMod s n f).dec = s.dec := rfl
@[simp] theorem schPortMod_fwd (s : State) (n : Nat) (f : SchPort → SchPort) : (schPortMod s n f).fwd = s.fwd := rfl
@[simp] theorem schPortMod_crb (s : State) (n : Nat) (f : SchPort → SchPort) : (schPortMod s n f).crb = s.crb := rfl
@[simp] theorem schPortMod_ldg (s : State) (n : Nat) (f : SchPort → SchPort) : (schPortMod s n f).ldg = s.ldg := rfl
@[simp] theorem schPortMod_eng (s : State) (n : Nat) (f : SchPort → SchPort) : (schPortMod s n f).eng = s.eng := rfl
@[simp] theorem schPortMod_cph (s : State) (n : Nat) (f : SchPort → SchPort) : (schPortMod s n f).cph = s.cph := rfl
@[simp] theorem schPortMod_kvl (s : State) (n : Nat) (f : SchPort → SchPort) : (schPortMod s n f).kvl = s.kvl := rfl
@[simp] theorem schPortMod_flt (s : State) (n : Nat) (f : SchPort → SchPort) : (schPortMod s n f).flt = s.flt := rfl
@[simp] theorem schPortMod_sec (s : State) (n : Nat) (f : SchPort → SchPort) : (schPortMod s n f).sec = s.sec := rfl
@[simp] theorem schPortMod_hif (s : State) (n : Nat) (f : SchPort → SchPort) : (schPortMod s n f).hif = s.hif := rfl
@[simp] theorem schPortMod_win (s : State) (n : Nat) (f : SchPort → SchPort) : (schPortMod s n f).win = s.win := rfl
@[simp] theorem schPortMod_sb (s : State) (n : Nat) (f : SchPort → SchPort) : (schPortMod s n f).sb = s.sb := rfl
@[simp] theorem schPortMod_que (s : State) (n : Nat) (f : SchPort → SchPort) : (schPortMod s n f).que = s.que := rfl
@[simp] theorem schPortMod_dma (s : State) (n : Nat) (f : SchPort → SchPort) : (schPortMod s n f).dma = s.dma := rfl
@[simp] theorem schPortMod_mbx (s : State) (n : Nat) (f : SchPort → SchPort) : (schPortMod s n f).mbx = s.mbx := rfl
@[simp] theorem schPortMod_sto (s : State) (n : Nat) (f : SchPort → SchPort) : (schPortMod s n f).sto = s.sto := rfl
@[simp] theorem schPortMod_mir (s : State) (n : Nat) (f : SchPort → SchPort) : (schPortMod s n f).mir = s.mir := rfl
@[simp] theorem schPortMod_dom (s : State) (n : Nat) (f : SchPort → SchPort) : (schPortMod s n f).dom = s.dom := rfl
@[simp] theorem schPortMod_hbmU (s : State) (n : Nat) (f : SchPort → SchPort) : (schPortMod s n f).hbmU = s.hbmU := rfl
@[simp] theorem schPortMod_hbm (s : State) (n : Nat) (f : SchPort → SchPort) : (schPortMod s n f).hbm = s.hbm := rfl
@[simp] theorem schPortMod_tap (s : State) (n : Nat) (f : SchPort → SchPort) : (schPortMod s n f).tap = s.tap := rfl
@[simp] theorem schPortMod_out (s : State) (n : Nat) (f : SchPort → SchPort) : (schPortMod s n f).out = s.out := rfl
@[simp] theorem schPortMod_free (s : State) (n : Nat) (f : SchPort → SchPort) : (schPortMod s n f).free = s.free := rfl
@[simp] theorem schPortMod_pending (s : State) (n : Nat) (f : SchPort → SchPort) : (schPortMod s n f).pending = s.pending := rfl

@[simp] theorem targetMod_board (s : State) (n : Nat) (f : Target → Target) : (targetMod s n f).board = s.board := rfl
@[simp] theorem targetMod_rst (s : State) (n : Nat) (f : Target → Target) : (targetMod s n f).rst = s.rst := rfl
@[simp] theorem targetMod_app (s : State) (n : Nat) (f : Target → Target) : (targetMod s n f).app = s.app := rfl
@[simp] theorem targetMod_tmb (s : State) (n : Nat) (f : Target → Target) : (targetMod s n f).tmb = s.tmb := rfl
@[simp] theorem targetMod_ptp (s : State) (n : Nat) (f : Target → Target) : (targetMod s n f).ptp = s.ptp := rfl
@[simp] theorem targetMod_sltCph (s : State) (n : Nat) (f : Target → Target) : (targetMod s n f).sltCph = s.sltCph := rfl
@[simp] theorem targetMod_sltEng (s : State) (n : Nat) (f : Target → Target) : (targetMod s n f).sltEng = s.sltEng := rfl
@[simp] theorem targetMod_sltQue (s : State) (n : Nat) (f : Target → Target) : (targetMod s n f).sltQue = s.sltQue := rfl
@[simp] theorem targetMod_lnm (s : State) (n : Nat) (f : Target → Target) : (targetMod s n f).lnm = s.lnm := rfl
@[simp] theorem targetMod_prs (s : State) (n : Nat) (f : Target → Target) : (targetMod s n f).prs = s.prs := rfl
@[simp] theorem targetMod_dec (s : State) (n : Nat) (f : Target → Target) : (targetMod s n f).dec = s.dec := rfl
@[simp] theorem targetMod_fwd (s : State) (n : Nat) (f : Target → Target) : (targetMod s n f).fwd = s.fwd := rfl
@[simp] theorem targetMod_crb (s : State) (n : Nat) (f : Target → Target) : (targetMod s n f).crb = s.crb := rfl
@[simp] theorem targetMod_sch (s : State) (n : Nat) (f : Target → Target) : (targetMod s n f).sch = s.sch := rfl
@[simp] theorem targetMod_ldg (s : State) (n : Nat) (f : Target → Target) : (targetMod s n f).ldg = s.ldg := rfl
@[simp] theorem targetMod_eng (s : State) (n : Nat) (f : Target → Target) : (targetMod s n f).eng = s.eng := rfl
@[simp] theorem targetMod_cph (s : State) (n : Nat) (f : Target → Target) : (targetMod s n f).cph = s.cph := rfl
@[simp] theorem targetMod_kvl (s : State) (n : Nat) (f : Target → Target) : (targetMod s n f).kvl = s.kvl := rfl
@[simp] theorem targetMod_flt (s : State) (n : Nat) (f : Target → Target) : (targetMod s n f).flt = s.flt := rfl
@[simp] theorem targetMod_sec (s : State) (n : Nat) (f : Target → Target) : (targetMod s n f).sec = s.sec := rfl
@[simp] theorem targetMod_hif (s : State) (n : Nat) (f : Target → Target) : (targetMod s n f).hif = s.hif := rfl
@[simp] theorem targetMod_win (s : State) (n : Nat) (f : Target → Target) : (targetMod s n f).win = s.win := rfl
@[simp] theorem targetMod_sb (s : State) (n : Nat) (f : Target → Target) : (targetMod s n f).sb = s.sb := rfl
@[simp] theorem targetMod_que (s : State) (n : Nat) (f : Target → Target) : (targetMod s n f).que = s.que := rfl
@[simp] theorem targetMod_dma (s : State) (n : Nat) (f : Target → Target) : (targetMod s n f).dma = s.dma := rfl
@[simp] theorem targetMod_mbx (s : State) (n : Nat) (f : Target → Target) : (targetMod s n f).mbx = s.mbx := rfl
@[simp] theorem targetMod_mir (s : State) (n : Nat) (f : Target → Target) : (targetMod s n f).mir = s.mir := rfl
@[simp] theorem targetMod_dom (s : State) (n : Nat) (f : Target → Target) : (targetMod s n f).dom = s.dom := rfl
@[simp] theorem targetMod_hbmU (s : State) (n : Nat) (f : Target → Target) : (targetMod s n f).hbmU = s.hbmU := rfl
@[simp] theorem targetMod_hbm (s : State) (n : Nat) (f : Target → Target) : (targetMod s n f).hbm = s.hbm := rfl
@[simp] theorem targetMod_tap (s : State) (n : Nat) (f : Target → Target) : (targetMod s n f).tap = s.tap := rfl
@[simp] theorem targetMod_out (s : State) (n : Nat) (f : Target → Target) : (targetMod s n f).out = s.out := rfl
@[simp] theorem targetMod_free (s : State) (n : Nat) (f : Target → Target) : (targetMod s n f).free = s.free := rfl
@[simp] theorem targetMod_pending (s : State) (n : Nat) (f : Target → Target) : (targetMod s n f).pending = s.pending := rfl

@[simp] theorem nsMod_board (s : State) (n : Nat) (f : Namespace → Namespace) : (nsMod s n f).board = s.board := rfl
@[simp] theorem nsMod_rst (s : State) (n : Nat) (f : Namespace → Namespace) : (nsMod s n f).rst = s.rst := rfl
@[simp] theorem nsMod_app (s : State) (n : Nat) (f : Namespace → Namespace) : (nsMod s n f).app = s.app := rfl
@[simp] theorem nsMod_tmb (s : State) (n : Nat) (f : Namespace → Namespace) : (nsMod s n f).tmb = s.tmb := rfl
@[simp] theorem nsMod_ptp (s : State) (n : Nat) (f : Namespace → Namespace) : (nsMod s n f).ptp = s.ptp := rfl
@[simp] theorem nsMod_sltCph (s : State) (n : Nat) (f : Namespace → Namespace) : (nsMod s n f).sltCph = s.sltCph := rfl
@[simp] theorem nsMod_sltEng (s : State) (n : Nat) (f : Namespace → Namespace) : (nsMod s n f).sltEng = s.sltEng := rfl
@[simp] theorem nsMod_sltQue (s : State) (n : Nat) (f : Namespace → Namespace) : (nsMod s n f).sltQue = s.sltQue := rfl
@[simp] theorem nsMod_lnm (s : State) (n : Nat) (f : Namespace → Namespace) : (nsMod s n f).lnm = s.lnm := rfl
@[simp] theorem nsMod_prs (s : State) (n : Nat) (f : Namespace → Namespace) : (nsMod s n f).prs = s.prs := rfl
@[simp] theorem nsMod_dec (s : State) (n : Nat) (f : Namespace → Namespace) : (nsMod s n f).dec = s.dec := rfl
@[simp] theorem nsMod_fwd (s : State) (n : Nat) (f : Namespace → Namespace) : (nsMod s n f).fwd = s.fwd := rfl
@[simp] theorem nsMod_crb (s : State) (n : Nat) (f : Namespace → Namespace) : (nsMod s n f).crb = s.crb := rfl
@[simp] theorem nsMod_sch (s : State) (n : Nat) (f : Namespace → Namespace) : (nsMod s n f).sch = s.sch := rfl
@[simp] theorem nsMod_ldg (s : State) (n : Nat) (f : Namespace → Namespace) : (nsMod s n f).ldg = s.ldg := rfl
@[simp] theorem nsMod_eng (s : State) (n : Nat) (f : Namespace → Namespace) : (nsMod s n f).eng = s.eng := rfl
@[simp] theorem nsMod_cph (s : State) (n : Nat) (f : Namespace → Namespace) : (nsMod s n f).cph = s.cph := rfl
@[simp] theorem nsMod_kvl (s : State) (n : Nat) (f : Namespace → Namespace) : (nsMod s n f).kvl = s.kvl := rfl
@[simp] theorem nsMod_flt (s : State) (n : Nat) (f : Namespace → Namespace) : (nsMod s n f).flt = s.flt := rfl
@[simp] theorem nsMod_sec (s : State) (n : Nat) (f : Namespace → Namespace) : (nsMod s n f).sec = s.sec := rfl
@[simp] theorem nsMod_hif (s : State) (n : Nat) (f : Namespace → Namespace) : (nsMod s n f).hif = s.hif := rfl
@[simp] theorem nsMod_win (s : State) (n : Nat) (f : Namespace → Namespace) : (nsMod s n f).win = s.win := rfl
@[simp] theorem nsMod_sb (s : State) (n : Nat) (f : Namespace → Namespace) : (nsMod s n f).sb = s.sb := rfl
@[simp] theorem nsMod_que (s : State) (n : Nat) (f : Namespace → Namespace) : (nsMod s n f).que = s.que := rfl
@[simp] theorem nsMod_dma (s : State) (n : Nat) (f : Namespace → Namespace) : (nsMod s n f).dma = s.dma := rfl
@[simp] theorem nsMod_mbx (s : State) (n : Nat) (f : Namespace → Namespace) : (nsMod s n f).mbx = s.mbx := rfl
@[simp] theorem nsMod_mir (s : State) (n : Nat) (f : Namespace → Namespace) : (nsMod s n f).mir = s.mir := rfl
@[simp] theorem nsMod_dom (s : State) (n : Nat) (f : Namespace → Namespace) : (nsMod s n f).dom = s.dom := rfl
@[simp] theorem nsMod_hbmU (s : State) (n : Nat) (f : Namespace → Namespace) : (nsMod s n f).hbmU = s.hbmU := rfl
@[simp] theorem nsMod_hbm (s : State) (n : Nat) (f : Namespace → Namespace) : (nsMod s n f).hbm = s.hbm := rfl
@[simp] theorem nsMod_tap (s : State) (n : Nat) (f : Namespace → Namespace) : (nsMod s n f).tap = s.tap := rfl
@[simp] theorem nsMod_out (s : State) (n : Nat) (f : Namespace → Namespace) : (nsMod s n f).out = s.out := rfl
@[simp] theorem nsMod_free (s : State) (n : Nat) (f : Namespace → Namespace) : (nsMod s n f).free = s.free := rfl
@[simp] theorem nsMod_pending (s : State) (n : Nat) (f : Namespace → Namespace) : (nsMod s n f).pending = s.pending := rfl

/-! The two admin queues. -/

@[simp] theorem adminMod_board (s : State) (n : Nat) (f : AdminQueue → AdminQueue) : (adminMod s n f).board = s.board := by unfold adminMod; split <;> rfl
@[simp] theorem adminMod_rst (s : State) (n : Nat) (f : AdminQueue → AdminQueue) : (adminMod s n f).rst = s.rst := by unfold adminMod; split <;> rfl
@[simp] theorem adminMod_app (s : State) (n : Nat) (f : AdminQueue → AdminQueue) : (adminMod s n f).app = s.app := by unfold adminMod; split <;> rfl
@[simp] theorem adminMod_tmb (s : State) (n : Nat) (f : AdminQueue → AdminQueue) : (adminMod s n f).tmb = s.tmb := by unfold adminMod; split <;> rfl
@[simp] theorem adminMod_ptp (s : State) (n : Nat) (f : AdminQueue → AdminQueue) : (adminMod s n f).ptp = s.ptp := by unfold adminMod; split <;> rfl
@[simp] theorem adminMod_sltCph (s : State) (n : Nat) (f : AdminQueue → AdminQueue) : (adminMod s n f).sltCph = s.sltCph := by unfold adminMod; split <;> rfl
@[simp] theorem adminMod_sltEng (s : State) (n : Nat) (f : AdminQueue → AdminQueue) : (adminMod s n f).sltEng = s.sltEng := by unfold adminMod; split <;> rfl
@[simp] theorem adminMod_sltQue (s : State) (n : Nat) (f : AdminQueue → AdminQueue) : (adminMod s n f).sltQue = s.sltQue := by unfold adminMod; split <;> rfl
@[simp] theorem adminMod_lnm (s : State) (n : Nat) (f : AdminQueue → AdminQueue) : (adminMod s n f).lnm = s.lnm := by unfold adminMod; split <;> rfl
@[simp] theorem adminMod_prs (s : State) (n : Nat) (f : AdminQueue → AdminQueue) : (adminMod s n f).prs = s.prs := by unfold adminMod; split <;> rfl
@[simp] theorem adminMod_dec (s : State) (n : Nat) (f : AdminQueue → AdminQueue) : (adminMod s n f).dec = s.dec := by unfold adminMod; split <;> rfl
@[simp] theorem adminMod_fwd (s : State) (n : Nat) (f : AdminQueue → AdminQueue) : (adminMod s n f).fwd = s.fwd := by unfold adminMod; split <;> rfl
@[simp] theorem adminMod_crb (s : State) (n : Nat) (f : AdminQueue → AdminQueue) : (adminMod s n f).crb = s.crb := by unfold adminMod; split <;> rfl
@[simp] theorem adminMod_sch (s : State) (n : Nat) (f : AdminQueue → AdminQueue) : (adminMod s n f).sch = s.sch := by unfold adminMod; split <;> rfl
@[simp] theorem adminMod_ldg (s : State) (n : Nat) (f : AdminQueue → AdminQueue) : (adminMod s n f).ldg = s.ldg := by unfold adminMod; split <;> rfl
@[simp] theorem adminMod_eng (s : State) (n : Nat) (f : AdminQueue → AdminQueue) : (adminMod s n f).eng = s.eng := by unfold adminMod; split <;> rfl
@[simp] theorem adminMod_cph (s : State) (n : Nat) (f : AdminQueue → AdminQueue) : (adminMod s n f).cph = s.cph := by unfold adminMod; split <;> rfl
@[simp] theorem adminMod_kvl (s : State) (n : Nat) (f : AdminQueue → AdminQueue) : (adminMod s n f).kvl = s.kvl := by unfold adminMod; split <;> rfl
@[simp] theorem adminMod_flt (s : State) (n : Nat) (f : AdminQueue → AdminQueue) : (adminMod s n f).flt = s.flt := by unfold adminMod; split <;> rfl
@[simp] theorem adminMod_sec (s : State) (n : Nat) (f : AdminQueue → AdminQueue) : (adminMod s n f).sec = s.sec := by unfold adminMod; split <;> rfl
@[simp] theorem adminMod_hif (s : State) (n : Nat) (f : AdminQueue → AdminQueue) : (adminMod s n f).hif = s.hif := by unfold adminMod; split <;> rfl
@[simp] theorem adminMod_win (s : State) (n : Nat) (f : AdminQueue → AdminQueue) : (adminMod s n f).win = s.win := by unfold adminMod; split <;> rfl
@[simp] theorem adminMod_sb (s : State) (n : Nat) (f : AdminQueue → AdminQueue) : (adminMod s n f).sb = s.sb := by unfold adminMod; split <;> rfl
@[simp] theorem adminMod_dma (s : State) (n : Nat) (f : AdminQueue → AdminQueue) : (adminMod s n f).dma = s.dma := by unfold adminMod; split <;> rfl
@[simp] theorem adminMod_mbx (s : State) (n : Nat) (f : AdminQueue → AdminQueue) : (adminMod s n f).mbx = s.mbx := by unfold adminMod; split <;> rfl
@[simp] theorem adminMod_sto (s : State) (n : Nat) (f : AdminQueue → AdminQueue) : (adminMod s n f).sto = s.sto := by unfold adminMod; split <;> rfl
@[simp] theorem adminMod_mir (s : State) (n : Nat) (f : AdminQueue → AdminQueue) : (adminMod s n f).mir = s.mir := by unfold adminMod; split <;> rfl
@[simp] theorem adminMod_dom (s : State) (n : Nat) (f : AdminQueue → AdminQueue) : (adminMod s n f).dom = s.dom := by unfold adminMod; split <;> rfl
@[simp] theorem adminMod_hbmU (s : State) (n : Nat) (f : AdminQueue → AdminQueue) : (adminMod s n f).hbmU = s.hbmU := by unfold adminMod; split <;> rfl
@[simp] theorem adminMod_hbm (s : State) (n : Nat) (f : AdminQueue → AdminQueue) : (adminMod s n f).hbm = s.hbm := by unfold adminMod; split <;> rfl
@[simp] theorem adminMod_tap (s : State) (n : Nat) (f : AdminQueue → AdminQueue) : (adminMod s n f).tap = s.tap := by unfold adminMod; split <;> rfl
@[simp] theorem adminMod_out (s : State) (n : Nat) (f : AdminQueue → AdminQueue) : (adminMod s n f).out = s.out := by unfold adminMod; split <;> rfl
@[simp] theorem adminMod_free (s : State) (n : Nat) (f : AdminQueue → AdminQueue) : (adminMod s n f).free = s.free := by unfold adminMod; split <;> rfl
@[simp] theorem adminMod_pending (s : State) (n : Nat) (f : AdminQueue → AdminQueue) : (adminMod s n f).pending = s.pending := by unfold adminMod; split <;> rfl

/-! What is read after an update: the same entry, and another. -/

@[simp] theorem portOf_portMod_same (s : State) (n : Nat) (f : Port → Port) : portOf (portMod s n f) n = (portOf s n).map f := tget_tadj_same _ _ _
theorem portOf_portMod_other (s : State) (f : Port → Port) {m n : Nat} (h : m ≠ n) : portOf (portMod s n f) m = portOf s m := tget_tadj_other _ _ h
@[simp] theorem funcOf_funcMod_same (s : State) (n : Nat) (f : Func → Func) : funcOf (funcMod s n f) n = (funcOf s n).map f := tget_tadj_same _ _ _
theorem funcOf_funcMod_other (s : State) (f : Func → Func) {m n : Nat} (h : m ≠ n) : funcOf (funcMod s n f) m = funcOf s m := tget_tadj_other _ _ h
@[simp] theorem queueOf_queueMod_same (s : State) (n : Nat) (f : HostQueue → HostQueue) : queueOf (queueMod s n f) n = (queueOf s n).map f := tget_tadj_same _ _ _
theorem queueOf_queueMod_other (s : State) (f : HostQueue → HostQueue) {m n : Nat} (h : m ≠ n) : queueOf (queueMod s n f) m = queueOf s m := tget_tadj_other _ _ h
@[simp] theorem pktOf_pktMod_same (s : State) (n : Nat) (f : Packet → Packet) : pktOf (pktMod s n f) n = (pktOf s n).map f := tget_tadj_same _ _ _
theorem pktOf_pktMod_other (s : State) (f : Packet → Packet) {m n : Nat} (h : m ≠ n) : pktOf (pktMod s n f) m = pktOf s m := tget_tadj_other _ _ h
@[simp] theorem channelOf_channelMod_same (s : State) (n : Nat) (f : Channel → Channel) : channelOf (channelMod s n f) n = (channelOf s n).map f := tget_tadj_same _ _ _
theorem channelOf_channelMod_other (s : State) (f : Channel → Channel) {m n : Nat} (h : m ≠ n) : channelOf (channelMod s n f) m = channelOf s m := tget_tadj_other _ _ h
@[simp] theorem targetOf_targetMod_same (s : State) (n : Nat) (f : Target → Target) : targetOf (targetMod s n f) n = (targetOf s n).map f := tget_tadj_same _ _ _
theorem targetOf_targetMod_other (s : State) (f : Target → Target) {m n : Nat} (h : m ≠ n) : targetOf (targetMod s n f) m = targetOf s m := tget_tadj_other _ _ h
@[simp] theorem macroOf_macroMod_same (s : State) (n : Nat) (f : Macro → Macro) : macroOf (macroMod s n f) n = f (macroOf s n) := tgetD_tmod_same _ _ _ _
theorem macroOf_macroMod_other (s : State) (f : Macro → Macro) {m n : Nat} (h : m ≠ n) : macroOf (macroMod s n f) m = macroOf s m := tgetD_tmod_other _ _ _ h
@[simp] theorem endpointOf_endpointMod_same (s : State) (n : Nat) (f : Endpoint → Endpoint) : endpointOf (endpointMod s n f) n = f (endpointOf s n) := tgetD_tmod_same _ _ _ _
theorem endpointOf_endpointMod_other (s : State) (f : Endpoint → Endpoint) {m n : Nat} (h : m ≠ n) : endpointOf (endpointMod s n f) m = endpointOf s m := tgetD_tmod_other _ _ _ h
@[simp] theorem engineOf_engineMod_same (s : State) (n : Nat) (f : Engine → Engine) : engineOf (engineMod s n f) n = f (engineOf s n) := tgetD_tmod_same _ _ _ _
theorem engineOf_engineMod_other (s : State) (f : Engine → Engine) {m n : Nat} (h : m ≠ n) : engineOf (engineMod s n f) m = engineOf s m := tgetD_tmod_other _ _ _ h
@[simp] theorem clusterOf_clusterMod_same (s : State) (n : Nat) (f : Cluster → Cluster) : clusterOf (clusterMod s n f) n = f (clusterOf s n) := tgetD_tmod_same _ _ _ _
theorem clusterOf_clusterMod_other (s : State) (f : Cluster → Cluster) {m n : Nat} (h : m ≠ n) : clusterOf (clusterMod s n f) m = clusterOf s m := tgetD_tmod_other _ _ _ h
@[simp] theorem boxOf_boxMod_same (s : State) (n : Nat) (f : Mailbox → Mailbox) : boxOf (boxMod s n f) n = f (boxOf s n) := tgetD_tmod_same _ _ _ _
theorem boxOf_boxMod_other (s : State) (f : Mailbox → Mailbox) {m n : Nat} (h : m ≠ n) : boxOf (boxMod s n f) m = boxOf s m := tgetD_tmod_other _ _ _ h
@[simp] theorem dmaEngineOf_dmaEngineMod_same (s : State) (n : Nat) (f : DmaEngine → DmaEngine) : dmaEngineOf (dmaEngineMod s n f) n = f (dmaEngineOf s n) := tgetD_tmod_same _ _ _ _
theorem dmaEngineOf_dmaEngineMod_other (s : State) (f : DmaEngine → DmaEngine) {m n : Nat} (h : m ≠ n) : dmaEngineOf (dmaEngineMod s n f) m = dmaEngineOf s m := tgetD_tmod_other _ _ _ h
@[simp] theorem schQueue_schQueueMod_same (s : State) (n : Nat) (f : SchQueue → SchQueue) : schQueue (schQueueMod s n f) n = f (schQueue s n) := tgetD_tmod_same _ _ _ _
theorem schQueue_schQueueMod_other (s : State) (f : SchQueue → SchQueue) {m n : Nat} (h : m ≠ n) : schQueue (schQueueMod s n f) m = schQueue s m := tgetD_tmod_other _ _ _ h
@[simp] theorem schPort_schPortMod_same (s : State) (n : Nat) (f : SchPort → SchPort) : schPort (schPortMod s n f) n = f (schPort s n) := tgetD_tmod_same _ _ _ _
theorem schPort_schPortMod_other (s : State) (f : SchPort → SchPort) {m n : Nat} (h : m ≠ n) : schPort (schPortMod s n f) m = schPort s m := tgetD_tmod_other _ _ _ h
@[simp] theorem threadOf_threadMod_same (s : State) (e t : Nat) (f : Thread → Thread) : threadOf (threadMod s e t f) e t = f (threadOf s e t) := tgetD_tmod_same _ _ _ _
@[simp] theorem batchOf_batchPut_same (s : State) (e t : Nat) (b : Option Batch) : batchOf (batchPut s e t b) e t = b := by simp [batchOf, batchPut]
@[simp] theorem slotTableOf_slotTableMod_same (s : State) (n : Nat) (f : SlotTable → SlotTable) :
    slotTableOf (slotTableMod s n f) n = f (slotTableOf s n) := by
  by_cases h0 : n = 0
  · subst h0; rfl
  · by_cases h1 : n = 1
    · subst h1; rfl
    · simp [slotTableMod, slotTableOf, h0, h1]

end Sys2Proof.Machine
end

