-- ==== Sys2Proof/Tests/Slice0.lean ====
section
/-!
SUPPORT. The tests: ill-formed commands, small steps, and for each statement with hypotheses a theorem that names states and
operands which meet them, clause by clause (a statement made of parts has one theorem for each part).
-/

namespace Sys2Proof.Tests
open Sys2Proof Sys2Proof.Machine

set_option Elab.async false

/-! ## Small states -/

/-- Reset with a tick and a beat, every domain released, ready for the host. -/
def up : State :=
  { State.reset with
    rst := { Rst.reset with released := 0x3FFF#14, inReset := false, waiting := 15, optRead := true }
    tmb := { Tmb.reset with tick := 5000000#64, beat := 100 }
    hif := { Hif.reset with deviceReady := true } }

/-! ## Slazer instructions -/

/-- A batch of channel 7 at pc 10, with 3 in g1, 5 in g2 and −2 in g3. -/
def batch : Batch :=
  { channel := 7, program := 0, entry := 8, length := 100, cluster := 0, remote := false, pooled := false
    slotStart := 0, slotLen := 100
    regs := [0, 3, 5, 0xFFFFFFFFFFFE, 20, 70000, 65536, 1048576] ++ List.replicate 24 0#48
    pc := 10, slot := 20, loops := [], version := 0
    ctx := List.replicate 16 0x123#48, window := List.replicate 64 0#48, localW := [], sharedW := [], nLocal := 0, nShared := 0
    tables := [], adds := [], lookups := [], csubs := [], sends := [], arm := none, handles := [], taken := [], packets := []
    emits := 0, emitFails := 0, msgs := 0, read := [], doomed := false, committed := none }

def binding : Binding :=
  { channel := 7, program := 0, pooled := false, cluster := 0, pool := 0, engine := 0, thread := 0, inbox := some 2
    stateAddr := 80, stateWords := 40 }

def msg : Msg := { source := 9, tag := 0x8001#16, payload := [1, 2], tick := 4, since := 6400 }

def channel : Channel := { Channel.bound binding with wake := true, inbox := [msg], fifo := [0], kept := [(0, 1)] }

def program : Program := { entry := 8, length := 100, tables := [(0, [1, 2, 3, 4])] }

def packet : Packet :=
  { bytes := List.replicate 14 0xAB#8 ++ List.replicate 50 0x11#8, fcs := 0x01020304#32, origin := 0, port := 0, startSel := 0
    stamp := ⟨4000000, 5⟩, kv := List.replicate 64 7#48, version := 0, slot := none, owner := 0, tenant := none, cls := 0
    control := false, dest := 0, colour := 0, flowSkip := false, flowNoInsert := false, queueSet := none, meter := none
    copyQueue := none, route := none, edits := [], fn := 0, gen := 0, sendFrom := none, icing := none, crumbs := 2, queue := none
    hold := none, egress := none, since := 0, stage := .engine 7 }

def withBatch (b : Batch) : State :=
  { up with
    eng := { Eng.reset with
      engines := [(0, { Engine.reset with state := .inService })]
      threads := [(0, { Thread.reset with area := [(100, 0x10)], batch := some b })]
      clusters := [(0, { Cluster.empty with programs := [(0, program)], shared := [(70000, 9)], lost := [70001] })]
      channels := [(7, channel)] }
    crb := { Crb.reset with pkts := [(0, packet), (1, packet)] } }

def running : State := withBatch batch

def held : Handle := { pkt := 0, bytes := packet.bytes ++ [4, 3, 2, 1], keptFrom := none }

def batchHolds : Batch := { batch with handles := [(3, held)], taken := [(0, none)] }

/-- The descriptor of an emit at local words 200 to 202: 64 bytes from word 300, slice 5, no edit list. -/
def batchEmits : Batch := { batchHolds with localW := [(200, 5), (201, 300 + 64 * 8192), (202, 0)] }
/-- The same, of the frame that handle 3 holds, which it gives up. -/
def batchEmitsHandle : Batch := { batchHolds with localW := [(200, 5 + 3 * 2 ^ 24 + 3 * 2 ^ 28), (201, 0), (202, 0)] }
def batchEmitsCopy : Batch := { batchHolds with localW := [(200, 5 + 3 * 2 ^ 24 + 2 ^ 28), (201, 0), (202, 0)] }
/-- The same, with a descriptor that fails its checks. -/
def batchEmitsBad : Batch := { batchHolds with localW := [(200, 2 ^ 40), (201, 0), (202, 0)] }

def batchFull : Batch := { batch with nLocal := 512, nShared := 128 }
def batchOther : Batch := { batch with channel := 8 }
def rr0 : RR := ⟨4, 1, 2, 0, 0⟩
def rrHalf : RR := ⟨4, 1, 3, 3, 0⟩
def rrNone : RR := ⟨0, 0, 0, 0, 0⟩
def riFull : RI := ⟨4, 1, 0, 0, 0xFFFFFE⟩
def riHalf : RI := ⟨4, 0, 2, 0, 0xFFFFFE⟩
def riMovi : RI := ⟨4, 0, 0, 0, 0xFFFFFE⟩
def xfField : XF := ⟨4, 3, 0, 64 * 8 + 4⟩
def xfPlain : XF := ⟨4, 3, 0, 0⟩
def xfTime : XF := ⟨4, 0, 0, 0⟩
def bfBoth : BF := ⟨0, 1, 2, 0, 9⟩
def bfZero : BF := ⟨0, 0, 0, 0, 9⟩
def lf : LF := ⟨3, 0, 5⟩
def jtIn : XF := ⟨0, 1, 0, 0⟩
def jtBeyond : XF := ⟨0, 2, 0, 0⟩
def jtBad : XF := ⟨0, 2, 0, 0x100⟩
/-- RA + OFF at each limit of R369; g6 is 65,536 in `batch`, and the offset has 17 bits. -/
def mfLow : MF := ⟨4, 0, 0, 15⟩
def mfFirst : MF := ⟨4, 0, 0, 16⟩
def mfBeyond : MF := ⟨4, 0, 0, 8192⟩
def mfShared : MF := ⟨4, 0, 0, 65536⟩
def mfLost : MF := ⟨4, 5, 0, 1⟩
def mfOut : MF := ⟨4, 7, 0, 0⟩

/-! Packets. -/
def pfTake : PF := ⟨4, 0, 3, 0, 0⟩
def pfLdk : PF := ⟨4, 0, 3, 0, 5⟩
def pfRls : PF := ⟨0, 1, 3, 0, 0⟩
def pfDrop : PF := ⟨0, 0, 3, 0, 5⟩
def pfEmit : PF := ⟨0, 0, 0, 0, 200⟩
def emitWord : W48 := pfEmit.word 0x58
/-- The packet that channel 7 keeps at index 0. -/
def keptHandle : Handle := { held with pkt := 1, keptFrom := some 0 }
/-- Channel 8 has no binding, so its FIFO is empty. -/
def runningOther : State := withBatch batchOther
def runningHolds : State := withBatch batchHolds
def noEdits : List Edit := []

/-! ## Lookups and staged operations -/

def h3 : Fin 16 := 3
def xfLkup : XF := ⟨8, 1, 0, 3⟩
def xfLkupPkt : XF := ⟨8, 1, 0, 4 + 256 + 512 * 3⟩
/-- A staging instruction with word 300 in IMM, and with the largest start of eleven words. -/
def xfAt : XF := ⟨0, 1, 0, 300⟩
def xfClear : XF := ⟨0, 1, 0, 8192⟩
def xfTwr : XF := ⟨0, 0, 0, 300 + 8192 * 2 + 131072⟩
def xfLadd : XF := ⟨1, 2, 4, 0⟩
def xfSend : XF := ⟨0, 1, 2, 300 + 8192 * 6⟩
def xfArm : XF := ⟨0, 1, 2, 0⟩
def xfMsgt : XF := ⟨4, 0, 0, 0⟩

/-! ## Batches, engines and their events -/

/-- Channel 7 pending for thread 0 of engine 0, in the slot at issue slot 16. -/
def slotWord : W64 := 0x4000000007064010#64
def unbatched : State := { running with
  eng := { running.eng with threads := [(0, { Thread.reset with area := [(100, 0x10)] })] }
  sltEng := { SlotTable.empty with bank0 := { ringLog2 := 0, pages := [[(0, [slotWord])]] } } }
def batchDone : Batch := { batch with
  committed := some 4999999, localW := [(100, 0)], sharedW := [(70000, 1)], nLocal := 1, nShared := 1
  tables := [.hbmRead 0x1000 0x77 4], emitFails := 2 }
def committedState : State := withBatch batchDone
def batchLate : Batch := { batch with slot := 100 }
def overrunState : State := withBatch batchLate
def engineMem : Landing := { channel := 7, offset := 2, tag := 0x55#16, ok := true, bytes := List.replicate 64 0x5A }
def waker : Thread := { Thread.reset with timerTick := 4999999#48, timerBeat := 3, timerArmed := true, timerChannel := 7 }
def engineBusy : State := { running with eng := { running.eng with
  engines := [(0, { Engine.reset with state := .inService }), (1, { Engine.reset with state := .copySource, copyEnd := some 5000000, copyTo := 2 })]
  threads := [(0, waker)]
  landings := [engineMem] } }
def selfTest : SelfTest := { engine := 5, ends := some 4999000, waiter := .none_ }
def engineTested : State := { running with
  eng := { running.eng with
    engines := [(5, { Engine.reset with state := .test })], test := some selfTest, supQueue := [msg] }
  mbx := { Mbx.reset with boxes := [(1, Mailbox.reset)] } }
def badWords : State := { running with eng := { running.eng with
  clusters := [(0, { Cluster.empty with programs := [(0, program)], imemBad := [10] })] } }
def xfBad : XF := ⟨4, 3, 1, 0⟩
def rrBad : RR := ⟨4, 1, 2, 1, 0⟩
def bfBad : BF := ⟨1, 1, 2, 0, 9⟩
def lfBad : LF := ⟨0, 0, 5⟩
def mfBad : MF := ⟨4, 0, 1, 100⟩
def pfBad : PF := ⟨4, 0, 3, 1, 0⟩

/-- The word at pc 10 of cluster 0's instruction memory, where the batches of these states stand, is `w`. -/
def loaded (s : State) (w : W48) : State := { s with
  eng := { s.eng with clusters := tadj s.eng.clusters 0 (fun c => { c with imem := [(10, w)] }) } }

/-! ## Ports -/

def portCfg : PortMapEntry :=
  { port := 5, lanes := 1, laneRate := 3, fec := 2, anEn := false, ltEn := true, degradeAction := false, adminUp := true
    maxFrame := 1522, txStart := 2, degradeSet := 8#16, degradeClear := 2#16, txInvert := 0#8, rxInvert := 0#8, txPreset := 0 }
def port : Port :=
  { cfg := portCfg, lanes := 1, laneRate := 3, fec := 2, newSpeed := none, state := .up, admitting := true, link := true
    dist := true, contained := false, adminUp := true, localFaultRx := false, remoteFaultRx := false, remoteDegraded := false
    blockLock := 1#8, aligned := true, rxOrder := [0], linkLoss := false, fecHit := 0, txRaise := false, txStartNow := 2, txStartBase := 2, degradeSet := 8#16, degradeClear := 2#16, bin := 1
    bins := [1], windowSum := 1#32, evalTickLo := 0#32, downTicks := 0, downWhole := false, drain := none, due := none
    txCond := .frames, stats := [], statsOld := none }
def portDegraded : Port := { port with state := .degraded }
def portNoisy : Port := { port with bin := 9 }
def portFault : Port := { port with state := .linkFault, link := false, admitting := false }
def portTraining : Port := { portFault with state := .training, aligned := false }
def portTest : Port := { portTraining with state := .test }
def portOffline : Port := { portTraining with state := .offline }
def portDraining : Port := { port with state := .adminDown, drain := some (.speed, 0), newSpeed := some (1, 1, 1) }
def lined (p : Port) : State := { up with
  lnm := { macros := [(0, { Macro.reset with state := .on })], ports := [(5, p)], lanes := [(5, { Lane.reset with chkEn := true, locked := true, errors := 3 })], lateReads := [], readByHp0 := [] } }
/-- The same port with macro 0 in a state. -/
def macroed (x : Macro) (p : Port) : State := { up with lnm := { macros := [(0, x)], ports := [(5, p)], lanes := [], lateReads := [], readByHp0 := [] } }
def frameBody : List Byte := List.replicate 12 0xAB#8 ++ [8, 0] ++ List.replicate 46 0x11#8
/-- 64 bytes with their FCS, the least good frame. -/
def frame : List Byte := frameBody ++ leBytes 4 (crc32 frameBody).toNat
def shortFrame : List Byte := frameBody.take 59 ++ leBytes 4 (crc32 (frameBody.take 59)).toNat
def p5 : Fin 512 := 5
def drainMacro : Macro := { Macro.reset with state := .draining, drainLeft := 0 }

/-! ## Packets on their way -/

def generic : Profile :=
  { kind := .generic, lenMode := false, lenBase := 14, lenOffset := 0, lenShift := 0, lenMask := 0, lenScale := 0
    lenMin := 0, mark := 0, encap := false, nhSels := [], miss := .end_ 0, fields := [], transitions := [] }
def classEntry : ClassEntry :=
  { disposition := .lookup, macDa := true, macSa := true, segment := false, ipv4Lpm := false, ipv6Lpm := false
    ternary := false, flowState := true, daWord := 8, saWord := 9, l3Word := 10, ternBase := 8, ternWords := 4, flowBase := 8
    flowWords := 2, engineChannel := 7 }
def parseSection : ParseSection := { ParseSection.empty with profiles := [generic], classes := [classEntry] }
def packetLane : Packet := { packet with stage := .lane, port := 5 }
def packetToPort : Packet := { packet with dest := destPort 5 2, stage := .enqueue, crumbs := 2 }
def packetFlow : Packet := { packet with tenant := some 3, stage := .flow }
def emitWaits : Waiting := { slice := 4, kind := .emit, pkt := { packet with stage := .inject } }
def tenant : TenantEntry :=
  { bd := 7, unknownDest := 0, floodDest := 0, noRouteDest := 0, ttlDest := 0, routerMac := 0x020000000001, valid := true
    routeV4 := false, routeV6 := false, flowMiss := 0, flowFallback := 0, arpMode := 0, flowChannel := 7 }
/-- Packet 0 in the lanes of slice 0, whose rule takes every line frame into the control class. -/
def laned : State := { up with
  app := { up.app with
    parse := parseSection
    control := [{ portMask := BitVec.allOnes 512, line := true, host := false, engine := false, terms := [] }] }
  crb := { Crb.reset with pkts := [(0, packetLane)], nextId := 1, laneQ := [(0, [0])] } }
def entering : State := { lined port with
  crb := { Crb.reset with pkts := [(0, packetToPort)], nextId := 1, enqueueQ := [0], waiting := [emitWaits] } }
def flowKey : List Byte × List Byte := flowKeyBytes 3 0 classEntry packet.kv
def flowPlace : Nat := flowIndex 0 flowKey
def flowed (flags : Nat) : State := { up with
  app := { up.app with parse := parseSection }
  crb := { Crb.reset with pkts := [(0, packetFlow)], nextId := 1, flowQ := [0] }
  fwd := { Fwd.reset with tenants := [(3, tenant)], flowAgePeriod := 10, flowValid := 1 }
  hbm := putBytes 0#8 [] (flowPlace * 64) (flowEntry flowKey flags 0 5) }
def flowState : State := flowed 1
def flowHitState : State := flowed 5
def flowIndexBits : BitVec 27 := BitVec.ofNat 27 flowPlace
def learnReq : LearnReq := { bd := 7, sa := 0x0200000000AA, port := 5, slice := 0, beat := 8000000100 }
def macEntry : MacEntry :=
  { mac := 0x0200000000BB, bd := 7, dest := destPort 5 0, valid := true, isStatic := false, router := false, discard := false, hit := true }
def macUnhit : MacEntry := { macEntry with hit := false }
def adjacency : Adjacency := { dmac := 0x0200000000CC, dest := destPort 5 0, valid := true, decTtl := true }
def learning : State := { up with fwd := { Fwd.reset with
  mac := [(9, macEntry), (10, macUnhit)], agePeriod := 1000000, learnQ := [learnReq], tenants := [(3, tenant)]
  adjacencies := [(4, adjacency)] } }

/-! ## Egress and the ledger -/

def gateList : GateList := { baseS := 0, baseNs := 0, cycleNs := 2000, entries := [⟨0xFF, 1000⟩, ⟨0x0F, 1000⟩] }
def portQueue (ids : List Nat) : SchQueue := { SchQueue.blank with frames := ids, occ := 2, quantum := 2000, d := 0 }
def packetQueued : Packet := { packet with queue := some 42, stage := .queued, dest := destPort 5 2 }
def packetControl : Packet := { packet with queue := some 4101, stage := .queued }
def egressing (tx : Option (Nat × Nat × Bool)) (control : List Nat) : State := { lined port with
  crb := { Crb.reset with pkts := [(0, packetQueued), (1, packetControl)], nextId := 2, controlUsed := 2 }
  sch := { Sch.reset with
    queues := [(42, portQueue [0]), (4101, portQueue control)]
    ports := [(5, { SchPort.blank with active := [42], ctlCredit := 100, list := some gateList, tx := tx })] } }
def toSelect : State := egressing none [1]
def toVisit : State := egressing none []
def toStart : State := egressing (some (0, 42, false)) []
def toEnd : State := egressing (some (0, 42, true)) []
def gateEntry : GateEntry := ⟨0xFF, 1000⟩
def u5 : Fin 514 := 5
def ctr : Ctr := { totP := 5, totB := 500, s0 := ⟨1, 60⟩, s1 := ⟨2, 70⟩, heldP := 0, heldB := 0 }
def cutReq : CutReq := { kind := .demand, summary := true, tick := 4999000, tag := 0, id := 1, partnerOk := false }
def cutRun : CutRun := { req := cutReq, buffer := 0, freezeTick := 4999000, started := true, next := 0 }
def ledger : State := { up with ldg := { Ldg.reset with ctrs := [(3, ctr)], running := some cutRun, bufs := [(0, { CutBuf.empty with state := 1 })], mismatch := [(2, { Mismatch.blank with valid := true })] } }
def ledgerIdle : State := { up with ldg := { Ldg.reset with reqTick := 5000100 } }
def mismatch : Mismatch := { Mismatch.blank with valid := true }

/-! ## The timebase -/

def src : SourceState := { SourceState.blank with lastEdge := some 128000000000 }
def srcGood : SourceState := { src with lastEdge := some 127000000000, qualified := true }
def timed : State := { up with tmb := { up.tmb with
  tick := 5000000, ppsOut := true, ppsRise := 4000000, beat := 900, refPps := src, tickIn := { src with lastEdge := some 159999968000, good := 15 }
  ppsWidth := 100000 } }
/-- Qualified sources whose last edges are long past, of which one is selected. -/
def timedGood (x : TimeSource) : State := { up with tmb := { up.tmb with
  selected := x, traceable := true, elapsed := 1000000, refPps := srcGood, tickIn := srcGood, ptp := srcGood } }
def ptpPort : PtpPort :=
  { port := 5, transport := 0, peerDelay := false, logSync := 0, logAnnounce := 0, logDelayReq := 0, external := 0, noControlRule := false, foreign := none
    last := [], seq := 0 }
def clocked : State := { timed with ptp := { Ptp.off with enable := true, ports := [ptpPort] } }

/-! ## Faults, resets and the start -/

def options : Options := { Options.none_ with
  ob := 1, hp0En := true, hp1En := true, hp0Rate := 6, hp1Rate := 6, hp0Width := 4, hp1Width := 4, journal := 0x100004#32
  slotA := 0x100201#32, keyAccept := 1, noFallback := true, lanes := BitVec.allOnes 64 }
/-- The journal of 32 sectors at 64 KiB of NVM0, slot A behind it. -/
def board : State := { up with rst := { up.rst with options := options, committed := true } }
def report (c : FaultClass) (l : Nat) : Report :=
  { cls := c, subj := 0x00FFFF10#32, level := l, cap := Capture.firmware, forced := false, detail := 7, since := 8000000000 }
def faultRecord : FaultRecord := { FaultRecord.blank with
  seq := 9, cls := BitVec.ofNat 16 FaultClass.tableEcc.code, subject := 0x00FFFF10#32, level := 1, count := 1, index := 0
  journaled := true }
def reportEcc : Report := report .tableEcc 1
def collecting : State := { board with flt := { Flt.reset with irqLevel := 7, journalLevel := 2 } }
def collected : State := { board with flt := { Flt.reset with
  inbox := [reportEcc], store := [(0, faultRecord)], irqLevel := 7, lastAnySeq := 9 } }
/-- Place 0 with SEQ 9, place 0 with another SEQ, and a reserved bit. -/
def ackWord : W64 := 0x900000000#64
def ackOther : W64 := 0x800000000#64
def ackReserved : W64 := 0x900000800#64
def pulsing (n : Nat) : State := { board with flt := { Flt.reset with pulseEnd := some (n, 0) } }
def forceWord : W64 := 0x1000000000000#64 + BitVec.ofNat 64 FaultClass.tableEcc.code
def unready : State := { board with hif := { board.hif with deviceReady := false } }
def journaling : State := { board with flt := { Flt.reset with ring := [faultRecord], nextPlace := 1 } }
def erasing : State := { board with flt := { Flt.reset with erasing := true, nextPlace := 1 } }
def resetDue (n : Nat) : State := { board with flt := { Flt.reset with
  ring := [faultRecord], resetDue := some (9, n, 0), l4Action := true } }
def restarting : State := { board with rst := { board.rst with restarting := true } }
def powered : State := { board with rst := { board.rst with inReset := true, waiting := 0 } }
/-- Every release before the `k`th has taken place, and the load has passed. -/
def releasing (k : Nat) : State := { unready with rst := { unready.rst with
  released := BitVec.ofNat 14 (2 ^ (k - 1) - 1), waiting := k, staged := true, optRead := true, committed := decide (9 < k)
  options := { options with paired := true } } }
def optionBytesHead : List Byte := leBytes 4 0x0B9602A5 ++ [1, 0, 5, 0] ++ leBytes 4 3 ++ leBytes 8 0xFF ++
  leBytes 4 (3 + 6 * 4 + 6 * 32 + 4 * 256 + 4 * 2048) ++ leBytes 4 0x100201 ++ leBytes 4 0 ++ leBytes 4 0 ++
  leBytes 4 0x100004 ++ leBytes 4 0 ++ leBytes 4 1 ++ zeroBytes 12
def optionBytes : List Byte := optionBytesHead ++ leBytes 4 (crc32 optionBytesHead).toNat
def unread : State := { releasing 6 with
  rst := { (releasing 6).rst with optRead := false }
  board := { Board.blank with nvm0 := putBytes 0xFF [] 0 optionBytes } }
def unreadBlank : State := { unread with board := Board.blank }
/-- Sector 0 of the journal is full: its last slot holds a record of epoch 5. -/
def epochFull : State := { board with
  rst := { board.rst with epoch := 6 }
  board := { Board.blank with nvm0 := putBytes 0xFF [] (65536 + 2047 * 32) (epochRecord 0 5 0 0) } }
def loading : State := { releasing 9 with
  rst := { (releasing 9).rst with staged := false, options := options }
  board := { Board.blank with ownerKeys := [.programmed 7, .blank, .blank, .blank] } }

/-! ## The cipher slab and the random service -/

/-- One BLOCK run over the inline block at word 16 into result block 1; IV_SRC is `iv`, the tag 0x77. -/
def cipherWords (iv : Nat) : List W48 :=
  [BitVec.ofNat 48 (1 + 256 * iv + 2 ^ 21 * 0x77), 0, 0, 0, BitVec.ofNat 48 (1 + 16 * 2 + 64 * 3 + 1024 + 4096 * 16)] ++
    List.replicate 11 0 ++ List.replicate 12 5
/-- One RANDOM run of 16 bytes. -/
def randomWords : List W48 := [1, 0, 0, 0, BitVec.ofNat 48 (8 + 64 * 3 + 4096 * 16)] ++ List.replicate 23 0
def cipherReq (ws : List W48) : CipherReq := { channel := 7, words := ws, pkt := none, landed := 0, retry := none, aesAt := [], gfAt := [], stop := 0, disk := none }
def reqRandom : CipherReq := cipherReq randomWords
def reqPlain : CipherReq := cipherReq (cipherWords 0)
def reqCounts : CipherReq := cipherReq (cipherWords 2)
def ctx : Ctx := { Ctx.empty with state := .active, owner := 7, key1 := List.replicate 16 0x2B, key2 := [] }
def ctrBlock : CtrBlock := { next := 1048570, stop := 1048576, usable := true, seq := none }
def cacheEntry : CacheEntry := { pinned := false, ready := 4000000, lastServed := 0, block := none, nextBlock := none }
def cacheCounts : CacheEntry := { cacheEntry with block := some ctrBlock }
/-- The counter that `cacheCounts` gives, and the entry after it. -/
def countedValue : Nat := 1048570
def cacheCounted : CacheEntry := { cacheCounts with block := some { ctrBlock with next := 1048571 } }
def context (q : List CipherReq) (c : CacheEntry) : State := { running with
  cph := { Cph.reset with enabled := true, ctxs := [(3, { ctx with queue := q })], cache := [(3, c)] } }
def contextRandom : State := context [reqRandom, reqPlain] cacheEntry
def contextPlain : State := context [reqPlain] cacheEntry
def contextCounts : State := context [reqCounts] cacheCounts
def uncached : State := { contextPlain with cph := { contextPlain.cph with cache := [] } }
def cipherOutput : CipherOutput :=
  { ctx := 3, req := { reqPlain with channel := 12 }, words := List.replicate 16 9, retry := false, patches := []
    hbm := [(0x300000000, [1, 2, 3])], due := 8000000100 }
def pooledBinding : Binding := { binding with channel := 12, pooled := true, pool := 1 }
def outputting (bytes : List (Nat × List Byte)) : State := { running with
  eng := { running.eng with channels := [(7, channel), (12, Channel.bound pooledBinding)] }
  cph := { Cph.reset with enabled := true, outputs := [{ cipherOutput with hbm := bytes }] } }
def random (k : Kvl) : State := { up with kvl := k }
def rngStarting : State := random { Kvl.reset with startTick := 4990000 }
def rngEarly : State := random { Kvl.reset with startTick := 4990001 }
def rngGood : State := random { Kvl.reset with rng := .ready, reseedTick := 4000000 }
def rngFresh : State := random { Kvl.reset with rng := .ready, reseedTick := 4000001, calls := 1048575 }
def erasingKeys : State := random { Kvl.reset with erasing := true, vol := [(1, [2])] }
def cacheFull : State := { uncached with cph := { uncached.cph with cache := List.replicate 4096 (5, { cacheEntry with pinned := true }) } }

/-! ## Host queues -/

/-- A function that answers and masters the bus. -/
def func : Func := { Func.reset with memorySpace := true, busMaster := true }
def endpoint : Endpoint :=
  { Endpoint.reset with linkUp := true, rate := 4, width := 4, inReset := false, perst := false, configReady := true }
/-- The host's side of the device, both endpoints up. -/
def hosted : State := { board with hif := { board.hif with
  eps := [(0, endpoint), (1, endpoint)], funcs := pfIds.map (fun f => (f, func)) } }
def hostQueue (k : QueueKind) : HostQueue :=
  { state := .enabled, kind := k, fn := 0, loc := 0, sizeLog2 := 4, restart := false, wakeEn := false, slice := 4
    ringAddr := 0x10000, cqAddr := 0x20000, vector := 0xFFFF, tenant := 3, startSel := 0, bufSize := 2048, head := 20
    producer := 36, fetched := 22, consumer := 18, completions := 18, dbErrors := 0, features := 0, work := [], fetching := []
    stale := 0, held := [], dma := [], seq := 5, disabling := [] }
def sending : HostQueue := hostQueue .send
def receiving : HostQueue := hostQueue .receive
def receivingRead : HostQueue := { receiving with fetching := [(1, true)] }
def sendingRead : HostQueue := { sending with fetching := [(1, true)] }
/-- A send descriptor of 64 bytes at host address 0x40000, and its two descriptors' worth of bytes. -/
def sendDesc : List Byte := leBytes 8 0x40000 ++ leBytes 2 64 ++ zeroBytes 54
def sendWork : Fetched := { number := 20, bytes := sendDesc, read := false }
def sendingFrame : HostQueue := { sending with work := [sendWork] }
/-- Queue 5, with its DEDICATED entry at position 0 of the fetch row of endpoint 0. -/
def queueWord : W64 := 0x4000000005008000#64
def queued (h : HostQueue) : State := { hosted with
  que := { hosted.que with queues := [(5, h)] }
  sltQue := { SlotTable.empty with bank0 := { ringLog2 := 0, pages := [[(0, [queueWord])]] } } }
def posted : Fetched := { number := 20, bytes := leBytes 8 0x50000, read := true }
def receivingPosted : HostQueue := { receiving with work := [posted] }
def packetHost : Packet := { packet with dest := 0, queue := some 8197, stage := .queued, gen := 1 }
def delivering : State := { queued receivingPosted with
  crb := { Crb.reset with pkts := [(0, packetHost)], nextId := 1 }
  sch := { Sch.reset with ports := [(512, { SchPort.blank with tx := some (0, 8197, false) })] } }
def rxDma : RxDma := { pkt := 0, gen := 1, buffers := [20], live := true }
def receivingDma : HostQueue := { receivingPosted with dma := [rxDma] }
def completing : State := { delivering with que := { delivering.que with queues := [(5, receivingDma)] } }
def eventing : HostQueue := { hostQueue .event with vector := 2 }
def eventingFull : HostQueue := { eventing with completions := 34 }
def hostEvent0 : Event := { type := .fault, tick := 77, record := List.replicate 48 0x3C }
def eventful (h : HostQueue) : State := { hosted with que := { hosted.que with queues := [(5, h)], events := [hostEvent0] } }
def adminEnabled : AdminQueue := { AdminQueue.reset with enable := true, producer := 3, sqAddr := 0x60000, cqAddr := 0x61000 }
def administered : State := { hosted with que := { hosted.que with admin0 := adminEnabled } }
def adminEntry (op fn : Nat) (len : Nat) (params : List Byte) : List Byte :=
  leBytes 1 op ++ [0] ++ leBytes 2 0x1234 ++ leBytes 2 fn ++ leBytes 2 0xFFFF ++ leBytes 8 0x70000 ++ leBytes 4 len ++
    slice params 0 44
def queryEntry : List Byte := adminEntry 0x05 0 0 [5, 0]

/-! ## Admin commands on queues and functions -/

def zeros (n : Nat) : List Byte := List.replicate n 0
def createSend : List Byte := adminEntry 0x01 0 0
  (leBytes 2 6 ++ leBytes 2 3 ++ [0, 4, 1, 2] ++ leBytes 8 0x80000 ++ leBytes 8 0x90000 ++ leBytes 2 0xFFFF ++ leBytes 2 3 ++ [1])
def queueEntry (op : Nat) : List Byte := adminEntry op 0 0 [5, 0]
def sendingOff : HostQueue := { sending with state := .disabled }
def vf : Nat := 0x2001
def pool : Pool :=
  { storage := false, hp0 := true, hp1 := false, fetchPool := none, queueBase := 100, queueCount := 64, tenantBase := 10
    tenantCount := 8, vectors := 64, featureMask := 0 }
def grant : Grant := { pool := 0, queueBase := 100, queueCount := 4, tenantBase := 10, tenantCount := 2, vectors := 8, features := 0 }
def vfFunc (g : Option Grant) : Func := { func with gen := 0xFFFE, grant := g }
def withVf (g : Option Grant) : State := { hosted with
  hif := { hosted.hif with
    eps := [(0, { endpoint with numVfs1 := 4, vfEnable1 := true }), (1, endpoint)]
    funcs := [(0x0000, func), (0x2000, func), (0x2001, vfFunc g), (0x4000, func), (0x8000, func), (0xA000, func), (0xC000, func)] }
  que := { hosted.que with pools := { totalVfs := [4, 0, 0, 0], pools := [pool] } } }
def vfFree : State := withVf none
def vfGranted : State := withVf (some grant)
def createVfEntry : List Byte := adminEntry 0x08 vf 0
  (leBytes 2 0 ++ leBytes 2 100 ++ leBytes 2 4 ++ leBytes 2 10 ++ leBytes 2 2 ++ leBytes 2 8)
def destroyVfEntry : List Byte := adminEntry 0x09 vf 0 []
def queryFunctionEntry : List Byte := adminEntry 0x0A vf 0 []
def noData : List Byte := []

/-! ## Admin commands on slots, channels, meters, ports, macros and gate lists -/

def stageEntry (t : Nat) : List Byte :=
  adminEntry 0x10 0 (if t = 2 then 3840 else 98304) (leBytes 1 t ++ [0, 0, 0] ++ leBytes 8 5000100)
def hostedRunning : State := { hosted with
  eng := running.eng, app := { hosted.app with portMap := [portCfg] }, sch := { Sch.reset with minDue := [(40, 7)] } }
def demandEntry : List Byte := adminEntry 0x11 0 80 []
def demandData : List Byte := leBytes 4 1000 ++ zeros 76
def bindEntry : List Byte := adminEntry 0x12 0 24 []
def bindData : List Byte := [9, 0, 0, 0, 0, 0, 0, 0, 0, 0] ++ leBytes 2 0x7FF ++ leBytes 4 (200 + 40 * 2 ^ 20) ++ leBytes 8 99
def unbindEntry : List Byte := adminEntry 0x13 0 0 [7]
def sendEntry : List Byte := adminEntry 0x14 0 16 (leBytes 4 7 ++ leBytes 2 0x55 ++ [2])
def sendData : List Byte := leBytes 8 11 ++ leBytes 8 12
def channelFull : Channel := { channel with inbox := List.replicate 8 msg }
def hostedFull : State := { hostedRunning with eng := { running.eng with channels := [(7, channelFull)] } }
def minEntry : List Byte := adminEntry 0x15 0 0 (leBytes 4 41 ++ leBytes 2 300)
def metersEntry : List Byte := adminEntry 0x16 0 32 (leBytes 4 1000 ++ leBytes 4 1)
def meterData : List Byte := zeros 12 ++ leBytes 4 1500 ++ leBytes 4 3000 ++ zeros 12
def portEntry (action : Nat) : List Byte := adminEntry 0x20 0 0 (leBytes 2 5 ++ leBytes 1 action)
def adminPort (p : Port) : State := { hostedRunning with lnm := (lined p).lnm }
def portIdle : Port := { port with state := .adminDown, link := false, admitting := false }
def portSafe : Port := { portIdle with state := .safe }
def speedEntry : List Byte := adminEntry 0x21 0 0 (leBytes 2 5 ++ [1, 3, 2])
def macroEntry (action : Nat) : List Byte := adminEntry 0x22 0 0 (leBytes 1 0 ++ leBytes 1 action)
def macroOn : State := adminPort port
def macroOff : State := { hostedRunning with lnm := { macros := [], ports := [(5, port)], lanes := [], lateReads := [], readByHp0 := [] } }
def gateEntryBytes : List Byte := adminEntry 0x23 0 48 []
def gateData : List Byte := gateBytes 5 gateList
def bound9 : Binding := bindingOf bindData
def newDemand : Demand := demandOf demandData

/-! ## Admin commands on tables, versions, cuts and the clock -/

def recordBytes (r : TblRec) : List Byte := leBytes 4 r.index ++ zeros 4 ++ slice r.bytes 0 144 ++ zeros 8
def tableEntryBytes (op table n : Nat) : List Byte := adminEntry 0x30 0 (160 * n) ([BitVec.ofNat 8 table, BitVec.ofNat 8 op] ++ leBytes 2 n)
def macRec : TblRec := .mac { macEntry with mac := 0x0200000000DD }
def segmentRec : TblRec := .segment 77 (some 5)
def recordData (r : TblRec) : List Byte := recordBytes r ++ recordBytes r
def macRecs : List TblRec := [macRec, macRec]
def segmentRecs : List TblRec := [segmentRec, segmentRec]
def tabled : State := { hosted with fwd := learning.fwd }
/-- More VRFs than the IPv4 tables take, so no versioned write fits. -/
def vrfsFull : List (LpmKey × W32) := (List.range 129).map (fun i => ({ vrf := i, len := 8, pfx := 0 }, 0))
def tabledFull : State := { tabled with
  dec := { tabled.dec with slots := [(0, { VSlot.empty with state := .current, tables := { VTables.empty with ipv4 := vrfsFull } })] } }
def macWriteEntry (op way place : Nat) (e : MacEntry) (tail : List Byte) : List Byte :=
  adminEntry 0x31 0 0 (leBytes 1 op ++ leBytes 1 way ++ leBytes 2 place ++ macBytes e ++ tail)
def macInsertAuto : List Byte := macWriteEntry 0 5 0 { macEntry with mac := 0x0200000000DD } []
def macMoveStash : List Byte := macWriteEntry 1 4 9 macEntry ([4] ++ leBytes 2 10)
def macDeleteStash : List Byte := macWriteEntry 2 4 9 macEntry []
/-- A table that holds `macEntry` at stash place 9, and `other` at stash place 10. -/
def stashed (other : Option MacEntry) : State := { tabled with
  fwd := { learning.fwd with mac := (macStash + 9, macEntry) :: (other.map (fun e => (macStash + 10, e))).toList } }
def macOther : MacEntry := { macEntry with mac := 0x0200000000EE }
def macFull : State := { tabled with fwd := { learning.fwd with
  mac := (List.range 4).map (fun w => (macPlaceOf learning.fwd w 7 0x0200000000DD, macOther)) ++
    (List.range 1024).map (fun j => (macStash + j, macOther)) } }

def commitEntry : List Byte := adminEntry 0x32 0 0 []
def selectEntry (v : Nat) : List Byte := adminEntry 0x33 0 0 (leBytes 1 v)
def commitWaits (t : Nat) : Sealed := { writes := [.segment 77 (some 5)], tick := t, waiter := .none_, fresh := false }
def sealedAt (t : Nat) : State := { tabled with dec := { tabled.dec with sealed_ := some (commitWaits t) } }
def retained : State := { tabled with
  dec := { tabled.dec with slots := [(0, { VSlot.empty with state := .current }), (1, { VSlot.empty with state := .retained, version := 3 })] } }
def tableReadEntry (place : Nat) : List Byte :=
  adminEntry 0x34 0 160 ([0, 0xFF, 0, 0] ++ leBytes 1 4 ++ leBytes 2 place ++ [0] ++ macBytes macEntry)
def stashRead : State := stashed none
def cutEntry (tick : Nat) : List Byte := adminEntry 0x40 0 0 ([0, 0, 0, 0] ++ leBytes 8 tick ++ leBytes 8 0x99)
def cutReadEntry : List Byte := adminEntry 0x41 0 96 (leBytes 4 6 ++ leBytes 4 3)
def cutRecord : CutRecord :=
  { state := 2, kind := .demand, summary := false, id := 6, tick := 4000000, unitMismatch := 0, transferMismatch := false
    pairIncomplete := false, untraceable := true, stepped := false, loss := false, shed := false, version := 0, device := 0
    sideB := false, readyTick := 4000100, generation := 0, count := 0, buffer := 1, tag := 0, bootEpoch := 6 }
def cutBuf : CutBuf := { CutBuf.empty with state := 2, record := some cutRecord, content := [(3, (7, 700))] }
def cutReady : State := { tabled with ldg := { Ldg.reset with bufs := [(1, cutBuf)] } }
def timeEntry : List Byte := adminEntry 0x42 0 32 []
def timeData : List Byte := [1, 0, 0, 1] ++ zeros 12 ++ leBytes 2 5 ++ zeros 14
def timeKnown : State := { hosted with lnm := (lined port).lnm }

/-! ## Admin commands on contexts, keys and namespaces -/

def createEntry (src flags len : Nat) (wrapSlot : Nat) : List Byte :=
  adminEntry 0x50 0 len (leBytes 3 3 ++ leBytes 1 src ++ leBytes 1 flags ++ [0x5A] ++ leBytes 4 7 ++ leBytes 2 wrapSlot ++ leBytes 8 4096)
def createClear : List Byte := createEntry 0 0 64 0
def createRandom : List Byte := createEntry 2 0 0 0
def createWrapped : List Byte := createEntry 1 0 72 5
def keyData : List Byte := List.replicate 16 0x2B ++ zeros 48
def vaulted : State := { hosted with
  cph := { Cph.reset with enabled := true, bootEpoch := 6 }
  kvl := { Kvl.reset with rng := .ready, vol := [(0, List.replicate 32 1)], vbat := [(0, List.replicate 32 2)] } }
def ctxNow : Ctx := { ctx with epoch := 6, saveSeq := 4, ctrHwm := 8192 }
def contexts (c : Ctx) : State := { vaulted with
  rst := { vaulted.rst with testMode := true }, cph := { vaulted.cph with ctxs := [(3, c)] } }
def ctxActive : State := contexts ctxNow
def ctxSaved : State := contexts { ctxNow with state := .saved }
def ctxSavedLater : State := contexts { ctxNow with state := .saved, saveSeq := 5 }
def destroyEntry : List Byte := adminEntry 0x51 0 0 (leBytes 3 3)
def saveEntry : List Byte := adminEntry 0x52 0 136 (leBytes 3 3 ++ [0])
def restoreEntry : List Byte := adminEntry 0x53 0 136 (leBytes 3 3)
def image : List Byte := ctxImage 3 ctxNow 2 0 none
def vaultLoadEntry : List Byte := adminEntry 0x54 0 16 (leBytes 2 9 ++ [0, 0])
def vaultClearEntry : List Byte := adminEntry 0x55 0 0 (leBytes 2 0x8002)
def namespaceEntry : List Byte := adminEntry 0x58 0 64 (leBytes 2 40)
def namespaceData (target : Nat) : List Byte :=
  leBytes 2 2 ++ leBytes 4 1 ++ [1, 0] ++ leBytes 8 1000 ++ leBytes 2 target ++ [0, 0] ++ leBytes 4 3 ++ zeros 40

/-! ## Storage -/

def path0 : Path :=
  { port := 5, family := 0, svcPort := 4420, remote := 1, localAddr := 2, state := .live, backoff := 100000, attemptAt := 0
    attempting := false, pace := 2 ^ 31, paceAt := 0, credit := 0, sendQ := [], keepAliveAt := 6000000
    remotes := [{ nsid := 3, lba4k := false, size := 1050 }] }
def target : Target :=
  { roce := true, ioQueues := 1, depthLog2 := 7, tenant := 3, subnqn := 0, paths := [path0], failures := 0, vwc := false
    lostSince := none }
def stored : State := { hosted with sto := { Sto.reset with
  present := true, bufBase := 0x300000000, bufSize := 0x1000000, ioTimeout := 1000000, nsLoss := 4000000, retryLimit := 3
  targets := [(6, target)] } }

/-! ## Maintenance -/

def spareEngine (st : EngineState) : Engine := { Engine.reset with state := st }
def maintained : State := { board with
  hif := hosted.hif
  eng := { Eng.reset with engines := [(4, spareEngine .spare), (5, spareEngine .spare), (6, spareEngine .inService)] } }
def noSpares : State := { hosted with eng := { Eng.reset with engines := [(6, spareEngine .inService)] } }
def selftestEntry (e : Nat) : List Byte := adminEntry 0x60 0 0 (leBytes 1 e)
def slabTestEntry : List Byte := adminEntry 0x61 0 0 [1, 63]
def retireEntry : List Byte := adminEntry 0x62 0 0 [2, 14]
def stackUsed : State := { hosted with hbmU := { HbmUnit.reset with retired := [33] } }
def nvmReadEntry (a n : Nat) : List Byte := adminEntry 0x70 0 n ([0, 0, 0, 0] ++ leBytes 4 a)
def nvmWriteEntry (a n : Nat) : List Byte := adminEntry 0x71 0 n ([0, 0, 0, 0] ++ leBytes 4 a)
def nvmLoaded : State := { hosted with
  rst := { hosted.rst with loaded := true }
  board := { Board.blank with nvm0 := [(0x800000, 7), (0x80FFFF, 8), (0x810000, 9)] } }
def keyProgramEntry : List Byte := adminEntry 0x72 0 97 [1]
def keyRevokeEntry : List Byte := adminEntry 0x73 0 0 (leBytes 4 3 ++ leBytes 4 0xFFFFFFFC)
def resetEntry : List Byte := adminEntry 0x74 0 0 (leBytes 4 0 ++ leBytes 4 0xFFFFFFFF)
def keyProgrammed : State := { hosted with board := { Board.blank with ownerKeys := [.blank, .revoked, .blank, .blank] } }

/-! ## The host interface -/

def offered (accept : BitVec 256) : State := { hosted with
  hif := { hosted.hif with funcs := [(0, { func with accept := accept })] }
  que := { hosted.que with offers := [0xFFF#256] } }
def offeredGood : State := offered 0x18
def offeredBad : State := offered 0x48
def offeredEarly : State := { offeredGood with hif := { offeredGood.hif with deviceReady := false } }
def vfResetting : State := { vfGranted with
  hif := { vfGranted.hif with funcs := [(0x2001, { vfFunc (some grant) with resetting := some (some 5000000) })] } }
def ep0 (e : Endpoint) : State := { hosted with hif := { hosted.hif with eps := [(0, e)] } }
def epUp : State := ep0 endpoint
def epPerst : State := ep0 { endpoint with perst := true, linkUp := false, inReset := true, configReady := false }
def epReadying : State := ep0 { endpoint with readyBy := some 5100000, configReady := false, linkUp := false }
def epConfigured : State := ep0 { endpoint with configReady := false }
def pf1 (f : Func) : State := { hosted with hif := { hosted.hif with funcs := [(0x2000, f)] } }
def pf1Up : State := pf1 func
def pf1Down : State := pf1 { func with d3hot := true }
def pf0Func (f : Func) (e : Endpoint) : State :=
  { hosted with hif := { hosted.hif with eps := [(0, e)], funcs := [(0, f)], wakeLevel := 2 } }
def pmeFunc : Func := { func with pmeEn := true }
def pmeDown : Func := { pmeFunc with d3hot := true }
def wakesLinked : State := pf0Func pmeDown endpoint
def wakesUnlinked : State := pf0Func pmeDown { endpoint with linkUp := false }
def wakesAwake : State := pf0Func pmeFunc endpoint
def vector : Vector := { Vector.reset with addr := 0xFEE00000, data := 0x31, masked := true, pending := true }
def vectorOpen : Vector := { vector with masked := false }
def msixFunc (m : Bool) (x : Vector) : Func := { func with msixEnable := true, functionMask := m, vectors := [(3, x)] }
def msixMasked : State := pf0Func (msixFunc true vector) endpoint
def msixOpen : State := pf0Func (msixFunc false vector) endpoint
def msixWaits : State := pf0Func (msixFunc true vectorOpen) endpoint

def windowed : State := { hosted with
  dma := { Dma.reset with winBase := 0x30000, winSize := 16 }
  win := { Window.reset with base0 := 0xC0 }
  hbm := [(0x300000010, 0x77)] }
def timingOut : State := { hosted with que := { hosted.que with
  admin0 := { adminEnabled with accepted := [{ cid := 0x1234, fn := 0, gen := 1, started := false }] } } }
def waitingCmd : AdminCmd := { cid := 0x1234, fn := 0, gen := 1, started := false }
def fourBytes : List Byte := [1, 2, 3, 4]

/-! ## DMA channels and mailboxes -/

/-- A descriptor of one 64-byte element: the HBM address 0x300000100, or host memory at 0x50000. -/
def dmaBytes (flags elem : Nat) : List Byte :=
  let hbm := 0x300000100
  leBytes 8 (if flags % 2 = 1 then hbm else 0x50000) ++ leBytes 8 (if flags % 2 = 1 then 0x50000 else hbm) ++ leBytes 4 elem ++
    leBytes 2 1 ++ leBytes 2 1 ++ leBytes 2 1 ++ leBytes 2 flags ++ zeros 36
def dmaRead : List Byte := dmaBytes 1 64
def dmaBad : List Byte := dmaBytes 1 0
def dmaChan (st : DmaState) (d : Option DmaDesc) : DmaChannel :=
  { DmaChannel.reset with ringAddr := 0x80000, sizeLog2 := 4, enable := true, producer := 9, state := st, head := 5, desc := d }
def dmaWith (x : DmaChannel) (active size : Nat) : State := { hosted with
  dma := { winBase := 0x30000, winSize := BitVec.ofNat 21 size
           engines := [(1, { last := 3, active := active, halts := 2 })], channels := [(16 + 3, x)] }
  hbm := [(0x300000110, 0x5A)] }
def dmaIdle : State := dmaWith (dmaChan .idle none) 0 16
def dmaFetched : State := dmaWith (dmaChan .running none) 3 16
def dmaNoWindow : State := dmaWith (dmaChan .running none) 3 0
def dmaReads : State := dmaWith (dmaChan .running (some (dmaDescOf false dmaRead))) 3 16
def dmaWrites : State := dmaWith (dmaChan .running (some (dmaDescOf false (dmaBytes 2 64)))) 3 16
def dmaHalted : State := dmaWith (dmaChan .halted none) 0 16
def dmaOff : State := dmaWith { dmaChan .disabled none with enable := false } 0 16

def mailed (b : Mailbox) : State := { hostedRunning with
  hif := { hostedRunning.hif with funcs := pfIds.map (fun f => (f, { func with active := 1#256 <<< featMailbox })) }
  mbx := { Mbx.reset with boxes := [(3, b)], mask0 := 0xFFFFFFFF, alive := 1 } }
def boxMessage (kind : Nat) : List Byte := [BitVec.ofNat 8 kind, 0, 0x34, 0x12, 7, 0, 0, 2] ++ zeros 8 ++ leBytes 8 11 ++ leBytes 8 12 ++ zeros 32
def boxWith (kind : Nat) (full : Bool) : Mailbox := { Mailbox.reset with h2s := boxMessage kind, h2sFull := true, s2hFull := full }
def boxEmpty : State := mailed Mailbox.reset
def boxEcho : State := mailed (boxWith 1 false)
def boxEchoHeld : State := mailed (boxWith 1 true)
def boxToChannel : State := mailed (boxWith 2 true)
def boxAlive : State := mailed (boxWith 3 false)
def engineMail : List Byte := zeros 64
def boxPosts : State := mailed { Mailbox.reset with heldEngine := some engineMail }
def boxLost : State := { boxPosts with hif := hosted.hif }
def bit15Msg : Msg := { msg with tag := 0x8003 }
def supMail (b : Mailbox) : State := { mailed b with eng := { running.eng with supQueue := [bit15Msg] } }
def supFree : State := supMail Mailbox.reset
def supBusy : State := supMail { Mailbox.reset with heldEngine := some engineMail }
def noMsgs : List Msg := []

/-! ## Storage -/

def sq (k : Nat) : NvmeSq := { id := 300 + k, granted := 1, base := 0x100000, size := 8, cqid := k, head := 2, tail := 4 }
def cq : NvmeCq := { base := 0x200000, size := 8, vector := none, tail := 3, head := 1, phase := true, gathered := 0, since := 0 }
def ctl : Controller := { Controller.reset 0x4000 with
  cc := 1, rdy := true, sqs := [(0, sq 0), (1, sq 1)], cqs := [(0, cq), (1, cq), (3, cq)], arbitration := 5, coalescing := 6
  aec := 0x100, changed := [5] }
def ctlBare : Controller := { ctl with sqs := [(0, sq 0)], cqs := [(0, cq)] }
def ctlDue : Controller := { ctl with notice := .due }
def ctlFull : Controller := { ctl with aers := [1, 2, 3, 4] }
def ctlOff : Controller := { ctl with cc := 0, rdy := false }
def ctlShutting : Controller := { ctl with shst := 1, shutBy := some 5000001 }
def ctlShutDue : Controller := { ctl with shst := 1, shutBy := some 4999999 }
def space : Namespace := { Namespace.blank with
  fn := 0, nsid := 1, valid := true, size := 1000, target := 6, remoteNsid := 3, remoteOffset := 50, notReady := false }
def controlled (k : Controller) (cs : List IoCmd) : State := { stored with
  hif := { hosted.hif with funcs := pfIds.map (fun f => (f, { func with active := 1#256 <<< featNvme })) }
  sto := { stored.sto with ctls := [(0, k)], cmds := cs, namespaces := [(40, space)] } }
def ctlState : State := controlled ctl []
def ctlBareState : State := controlled ctlBare []
def ctlDueState : State := controlled ctlDue []
def ctlFullState : State := controlled ctlFull []
/-- A storage command of 64 bytes: opcode, identifier 0x77, namespace 1, PRP1 and Dwords 10 to 12. -/
def nvmeBytes (op d10 d11 d12 : Nat) : List Byte :=
  leBytes 4 (op + 0x770000) ++ leBytes 4 1 ++ zeros 16 ++ leBytes 8 0x300000 ++ leBytes 8 0x301000 ++ leBytes 4 d10 ++
    leBytes 4 d11 ++ leBytes 4 d12 ++ zeros 12
def sqCreate : List Byte := nvmeBytes 1 (2 + 7 * 65536) (1 + 65536) 0
def cqCreate : List Byte := nvmeBytes 5 (2 + 7 * 65536) (3 + 5 * 65536) 0
def sqDelete : List Byte := nvmeBytes 0 1 0 0
def cqDelete (n : Nat) : List Byte := nvmeBytes 4 n 0 0
def logChanged : List Byte := nvmeBytes 2 (4 + 31 * 65536) 0 0
def identifyCtl : List Byte := nvmeBytes 6 1 0 0
def abortEntry : List Byte := nvmeBytes 8 (1 + 0x99 * 65536) 0 0
def setFeature (f v : Nat) : List Byte := nvmeBytes 9 f v 0
def getFeature (f : Nat) : List Byte := nvmeBytes 10 f 0 0
def aerEntry : List Byte := nvmeBytes 12 0 0 0
def io (op : IoOp) (st : IoStage) : IoCmd :=
  { ctl := 0, sqid := 1, cid := 0x99, op := op, ns := 40, space := space, all := false, slba := 7, blocks := if op = .flush then 0 else 1, segs := [(0x300000, 512)]
    need := 1, bufs := [0x300000000], stage := st, sentTo := [], sentTick := 0, fabricCid := 4, reissues := 0, done := 0, part := 0
    xtsNext := 0, xtsDone := 0
    ranges := [], failed := 0, orphan := false }
def ioSent (op : IoOp) (tick again : Nat) : IoCmd :=
  { io op .sent with sentTo := [(6, 0)], sentTick := tick, reissues := again }
def abortSent : State := controlled ctl [ioSent .write 4999999 0]
def abortWaits : State := controlled ctl [io .read .waitPath]
def cmdSent : IoCmd := ioSent .write 4999999 0
def cmdWaits : IoCmd := io .read .waitPath
/-- An I/O command for namespace 1: LBA 7, one logical block. -/
def ioBytes (op : Nat) : List Byte := nvmeBytes op 7 (if op = 9 then 4 else 0) 0
def ioBadOp : List Byte := ioBytes 15
def ioState (c : IoCmd) : State := { controlled ctl [c] with tmb := { hosted.tmb with tick := 5000000 } }
def ioDsm : IoCmd := { io .dsm .carryOut with ranges := [(0, 2, 5), (1, 3, 6)] }
def ioTwoPaths (c : IoCmd) : State := { ioState c with
  sto := { (ioState c).sto with targets := [(6, { target with vwc := true, paths := [path0, path0] })] } }
def cmdDataIn : IoCmd := io .write .dataIn
def cmdZeroes : IoCmd := io .writeZeroes .carryOut
def cmdFlush : IoCmd := io .flush .carryOut
def cmdRead : IoCmd := io .read .dataOut
def cmdReadSent : IoCmd := ioSent .read 4999999 0
def cmdLate : IoCmd := ioSent .write 3999999 0
def cmdSpent : IoCmd := ioSent .write 3999999 3
def stDataIn : State := ioState cmdDataIn
def stZeroes : State := ioState cmdZeroes
def stDsm : State := ioState ioDsm
def stFlush : State := ioState cmdFlush
def stFlushSends : State := ioTwoPaths cmdFlush
def stRead : State := ioState cmdRead
def stReadSent : State := ioState cmdReadSent
def stSent : State := ioState cmdSent
def stLate : State := ioTwoPaths cmdLate
def stSpent : State := ioTwoPaths cmdSpent
def ctlOffState : State := controlled ctlOff []
def ctlShutState : State := controlled ctlShutting []
def ctlShutDueState : State := controlled ctlShutDue []

def paths (f : Path → Path) (roce : Bool) : State := { stored with
  sto := { stored.sto with targets := [(6, { target with roce := roce, paths := [f path0, path0], failures := 2 })] } }
def pathUp : State := paths id true
def pathConnecting : State := paths (fun p => { p with state := .connecting, attemptAt := 4999999 }) true
def pathAttempting : State := paths (fun p => { p with state := .connecting, attempting := true }) true
def pathQuiet : State := paths (fun p => { p with keepAliveAt := 4999999 }) true
def spaceLost (l : Nat) : State := { stored with
  sto := { stored.sto with namespaces := [(40, space)], targets := [(6, { target with lostSince := some l })] } }
def spaceLate : State := spaceLost 0
def spaceSoon : State := spaceLost 4999999

/-! ## The mirror link -/

def mirrored (m : Mir) : State := { tabled with
  lnm := (lined port).lnm
  mir := { m with pair := { PairSection.empty with mode := 2, pairId := 0x55, shadows := [(9, 7)], roles := [(5, 2)] } } }
def link0 : Mir := { Mir.reset with state := .active, waitUntil := 5000000, backoffMs := 100 }
def linkWaits : Mir := { link0 with waitUntil := 5000001 }
def linkTrains (t : Nat) : Mir := { link0 with trainingSince := some t }
def linkHalf : Mir := { link0 with half0 := true, nextSeq := 9, lastAck := 5, ackTick := 4999996, received := 6, rxBytes := 9190 }
def sentFrame (n : W32) : SentFrame := { seq := n, type := 6, payload := [1, 2] }
def linkUnacked : Mir := { linkHalf with unacked := [sentFrame 6, sentFrame 7, sentFrame 8] }
def linkFresh : Mir := { linkUnacked with ackTick := 4999997 }
def linkBoth : Mir := { linkHalf with half1 := true }
def mirDown : State := mirrored link0
def mirWaits : State := mirrored linkWaits
def mirTrains : State := mirrored (linkTrains 4950001)
def mirTrained : State := mirrored (linkTrains 4950000)
def mirHalf : State := mirrored linkHalf
def mirBoth : State := mirrored linkBoth
def mirUnacked : State := mirrored linkUnacked
def mirFresh : State := mirrored linkFresh
def mirExports : State := { mirHalf with crb := { Crb.reset with pkts := [(2, { packet with stage := .exporting, icing := none })] } }
def mirState (st : SideState) : State := mirrored { linkHalf with state := st }
def mirActive : State := mirState .active
def mirSolo : State := mirState .solo
def macSent : MacEntry := { macEntry with mac := 0x0200000000DD }
def macRecord : List Byte := leBytes 6 0 ++ macBytes macSent
def macSentRec : TblRec := .mac macSent
def taking : State := { mirActive with
  eng := running.eng
  cph := { Cph.reset with ctxs := [(3, { ctx with ctrHwm := 8192 })], bootEpoch := 6 }
  kvl := { Kvl.reset with vbat := [(1, List.replicate 32 2)] } }
def takingOwn : State := { taking with mir := { taking.mir with ownWrites := [(macSentRec.table, macSentRec.place, 5000001)] } }
def joiningState : State := { mirState .stale with
  mir := { (mirState .stale).mir with syncActive := true, syncReceiving := true, syncParts := [1, 2], syncBytes := 100 } }
def polled (t : Nat) : State := { mirActive with mir := { mirActive.mir with pollSince := some t }, board := { mirActive.board with serial := 9 } }
def polledNow : State := polled 4999901
def polledLate : State := polled 4999900

/-! ## The domain, the sideband port and the test access port -/

def neighbour (hops last : Nat) : Neighbour := { port := 5, device := 9, hops := hops, traceable := true, lastHello := last }
def windowOf (stop : Nat) : ReportWindow :=
  { cls := 3, subject := 0x10, level := 1, stop := stop, count := 0, firstTick := 0, lastTick := 0 }
def rootRecord (opened : Nat) : RootRecord :=
  { cls := 3, subject := 0x10, level := 1, opened := opened, reporters := [9], devices := 1, count := 2, firstTick := 5
    lastTick := 6 }
/-- Device 7 of a domain whose root is `root`, with one link at port 5. -/
def domained (root : Nat) (d : Dom) : State := { hosted with
  rst := { hosted.rst with options := { hosted.rst.options with device := 7 } }
  lnm := (lined port).lnm
  mir := { Mir.reset with pair := { PairSection.empty with domainId := 1, root := root, domainLinks := [5] } }
  dom := d }
def domBase : Dom := { Dom.reset with seen := [(9, 4)], cutTick := 5004096, cutTag := 0x77 }
def domLeaf : State := domained 1 domBase
def domTop : State := domained 7 domBase
def domChild : State := domained 1 { domBase with parent := 9, parentPort := 5, hops := 2, neighbours := [neighbour 1 4999000] }
def domRelayFull : State := domained 1 { domBase with relay := List.replicate 4096 [] }
def domAlone : State := { domained 7 domBase with
  mir := { (domained 7 domBase).mir with pair := { (domained 7 domBase).mir.pair with domainLinks := [] } } }
def domAloneLate : State := { domAlone with dom := { domBase with cutTick := 5004095 } }
def nbNear : List Neighbour := [{ port := 5, device := 9, hops := 1, traceable := true, lastHello := 5000001 }]
def nbFirst : Neighbour := { port := 5, device := 9, hops := 1, traceable := true, lastHello := 5000001 }
def domLost : State := domained 1 { domBase with neighbours := [neighbour 1 4995904] }
def domWindows (stop : Nat) : State := domained 1 { domBase with windows := [windowOf stop] }
def domWindowOpen : State := domWindows 5000001
def domWindowDone : State := domWindows 5000000
def domStore (opened : Nat) : State := domained 7 { domBase with store := [rootRecord opened] }
def domStoreOpen : State := domStore 4998977
def domStoreDone : State := domStore 4998976

def sideband (s : State) : State := { s with sb := { Sb.reset with held := [.statusRead 5] } }
def sbUp : State := sideband { hostedRunning with lnm := (lined port).lnm, dec := retained.dec }
def sbRestarting : State := { sbUp with rst := { sbUp.rst with restarting := true } }
def sbFull : State := { sbUp with sb := { sbUp.sb with held := List.replicate 4 (.statusRead 5) } }
def sbBytes : List Byte := [0x7E, 0x1F, 0x7C, 2, 0x33, 0, 0, 0, 5, 0]
def tapped (st : TapState) : State := { up with tap := { Tap.reset with state := st, ir := 0xFE, drShift := 0x80000001 } }
def tapCapture : State := tapped .captureDr
def tapShift : State := tapped .shiftDr
def ep1Fn : W16 := 0x8000

/-! ## More states -/

def watchedMesh (x : AlarmState) : State := { up with sec := { up.sec with mesh := x } }
def watchErase : State := watchedMesh { up.sec.mesh with policy := .erase }
def watchLatched : State := watchedMesh { up.sec.mesh with latched := true }
def busyChannel : State := { up with hbmU := { HbmUnit.reset with errors := [(hbmChannelOf 0x204000000, List.replicate 15 4999000)] } }
def boundaryStart : State := { up with rst := { up.rst with released := 0x4 } }
def lateBeat : State := { up with tmb := { up.tmb with beat := 1599 } }
def guarded (t : Nat) : State := { up with win := { Window.reset with
  pendSup := [{ addr := 0x280200, value := 0x1000005, beat := nowBeats up - t }] } }
def guardOpen : State := guarded 64
def guardLate : State := guarded 65
def adminWith (h : HostQueue) : State := { queued h with que := { (queued h).que with admin0 := adminEnabled } }
def macAutoPlace : Nat := (macFree tabled.fwd (macNamedEntry macInsertAuto).bd (macNamedEntry macInsertAuto).mac).getD 0
def macLocking : State := macroed { Macro.reset with state := .locking } portOffline
def fwdZero : Fwd := Fwd.reset
def sqZero : NvmeSq := sq 0
def neighbourZero : Neighbour := neighbour 1 0
def windowZero : ReportWindow := windowOf 0
def rootZero : RootRecord := rootRecord 0
def guardZero : GuardPending := { addr := 0, value := 0, beat := 0 }
def sealedZero : Sealed := commitWaits 0
def sbZero : SbRequest := .statusRead 0
def dmaDescZero : DmaDesc := dmaDescOf false dmaRead

/-! ## States for the further clauses -/

def hostedNoPorts : State := { hostedRunning with lnm := { macros := [], ports := [], lanes := [], lateReads := [], readByHp0 := [] } }
def portDrains : Port := { portIdle with drain := some (.adminDown, 5) }
def portInTest : Port := { portIdle with state := .test }
def macroIn (st : MacroState) : State := { hostedRunning with
  lnm := { macros := [(0, { Macro.reset with state := st })], ports := [(5, port)], lanes := [], lateReads := [], readByHp0 := [] } }
/-- A bank waits for the next boundary. -/
def hostedPending : State := { hosted with sltQue := { hosted.sltQue with pending := some 5000001 } }
def ctxBusySave : State := contexts { ctxNow with queue := [reqPlain] }
def saveTest : List Byte := adminEntry 0x52 0 136 (leBytes 3 3 ++ [2])
def ctxElsewhere : State := { ctxSaved with board := { ctxSaved.board with serial := 5 } }
def ctxEmptyElsewhere : State := { contexts Ctx.empty with board := { ctxSaved.board with serial := 5 } }
def vaultLoadWrapped : List Byte := adminEntry 0x54 0 24 (leBytes 2 9 ++ [1, 0] ++ leBytes 2 8)
def vaultErasing : State := { vaulted with kvl := { vaulted.kvl with erasing := true } }
/-- The engine's last migration has not come to its boundary. -/
def maintainedLost : State := { maintained with sltEng := { maintained.sltEng with due := [(6, .lost)] } }
def maintainedTesting : State := { maintained with eng := { maintained.eng with test := some { engine := 4, ends := none, waiter := .none_ } } }
def slabUsed : State := { hosted with cph := { hosted.cph with lost := [191] } }
def slabTesting : State := { hosted with cph := { hosted.cph with test := some { unit := 3, started := false, waiter := .none_ } } }
def tabledPressed : State := { tabled with mir := { tabled.mir with pressure := true } }
def macInsertTaken : List Byte := macWriteEntry 0 4 10 { macEntry with mac := 0x0200000000DD } []
def macMoveNone : List Byte := macWriteEntry 1 4 9 macOther ([4] ++ leBytes 2 10)
def macMoveSame : List Byte := macWriteEntry 1 4 9 macEntry ([4] ++ leBytes 2 9)
/-- A commit that waits in an active pair for longer than 64 ticks. -/
def sealedPair : State := { sealedAt 4999935 with mir := { tabled.mir with
  state := .active, pair := { tabled.mir.pair with mode := 1 } } }
def cutCopying : State := { tabled with ldg := { Ldg.reset with bufs := [(1, { cutBuf with state := 1 })] } }
/-- Core row 0 serves context 3 from beat `a` on for `n` beats of every tick. -/
def slabSlot (a n : Nat) : SlotTable :=
  { SlotTable.empty with bank0 := { ringLog2 := 0, pages := [[(0, [BitVec.ofNat 64 (a + n * 4096 + 3 * 2 ^ 24 + 2 ^ 62)])]] } }
def slabbed (a n : Nat) (s : State) : State := { s with sltCph := slabSlot a n }
def servedRandom : State := slabbed 50 1000 contextRandom
def servedPlain : State := slabbed 50 1000 contextPlain
def servedCounts : State := slabbed 50 1000 contextCounts
/-- Two blocks, of which the slot has a position for one. -/
def cipherTwo : List W48 :=
  [BitVec.ofNat 48 (1 + 2 ^ 21 * 0x77), 0, 0, 0, BitVec.ofNat 48 (4 + 16 * 2 + 64 * 3 + 1024 + 4096 * 32)] ++
    List.replicate 11 0 ++ List.replicate 12 5
def reqTwo : CipherReq := cipherReq cipherTwo
def servedPart : State := slabbed 100 1 (context [reqTwo] cacheEntry)
def unservedPlain : State := { servedPlain with cph := { servedPlain.cph with uncovered := [0] } }
def loadsSpent : State := { uncached with cph := { uncached.cph with loadsTick := 128 } }
def allocsSpent : State := { contextPlain with cph := { contextPlain.cph with allocsTick := 32 } }
def unitLost : State := { contextPlain with cph := { contextPlain.cph with lost := [5] } }
def dmaShed : State := { dmaWrites with hbmU := { HbmUnit.reset with step := 1, shedUsed := 1000000000 } }
def domTopFull : State := domained 7 { domBase with store := List.replicate 4096 { rootRecord 4999000 with cls := 4 } }
def vfGone : State := { vfGranted with hif := { vfGranted.hif with
  eps := [(0, { endpoint with numVfs1 := 0, vfEnable1 := true }), (1, endpoint)] } }
def epPerstEarly : State := { epPerst with rst := { epPerst.rst with released := 0x3F } }
def lined256 (p : Port) : State := { lined p with board := { (lined p).board with f256 := true } }
def portNoisyDrains : Port := { portNoisy with cfg := { portCfg with degradeAction := true } }
def portTrainingAn : Port := { portTraining with cfg := { portCfg with anEn := true } }
def itsCombination : List (Nat × Nat × Nat) := [(1, 3, 2)]
def noCombination : List (Nat × Nat × Nat) := []
def laneOrder : List Nat := [0]
def receivingSmall : HostQueue := { receivingPosted with bufSize := 16 }
def deliveringSmall : State := { delivering with que := { delivering.que with queues := [(5, receivingSmall)] } }
def sendingDrawn : HostQueue := { sending with fetched := 36 }
def sbRecovery : State := { sbUp with rst := { sbUp.rst with recovery := true } }
def stDataShed : State := { stDataIn with hbmU := { HbmUnit.reset with step := 1, shedUsed := 1000000000 } }
def pathless (s : State) : State := { s with
  sto := { s.sto with targets := [(6, { target with paths := [{ path0 with state := .connecting }] })] } }
def stZeroesLost : State := pathless stZeroes
def stDsmLost : State := pathless stDsm
def pathPaced : State := paths (fun p => { p with paceAt := 6000000 }) true
def unclocked : State := { up with rst := { up.rst with released := 0 } }
def boundaryLate : State := { up with rst := { up.rst with restarting := true, restartTick := 0 } }
/-! ## States for the clauses on unlisted units, storage transport, PTP and halts -/

/-- A binding of a pooled channel whose record begins at the lost word. -/
def bindingLost : Binding := { pooledBinding with channel := 7, stateAddr := 70001 }
def channelLost : Channel := { channel with bind := bindingLost }
def unbatchedLost : State := { unbatched with eng := { unbatched.eng with channels := [(7, channelLost)] } }
/-- An image whose STATE byte is not SAVED's. -/
def imageBad : List Byte :=
  let h := ctxHeader 3 ctxNow CtxState.active.code 2 0
  h ++ List.replicate 16 0x2B ++ zeros 48 ++ h ++ zeros 8
def reqDisk : CipherReq := { reqPlain with disk := some (0, 1, 0x99) }
def unservedDisk : State := { slabbed 50 1000 (context [reqDisk] cacheEntry) with
  cph := { (context [reqDisk] cacheEntry).cph with uncovered := [0] } }
def diskOutput : CipherOutput := { cipherOutput with req := reqDisk, hbm := [] }
def outputtingDisk : State := { running with cph := { Cph.reset with enabled := true, outputs := [diskOutput] } }
def dmaFlushes : State :=
  dmaWith { dmaChan .running (some (dmaDescOf false (dmaBytes 4 64))) with flushing := true } 3 16
def dmaUnmastered (s : State) : State := { s with hif := { s.hif with funcs := pfIds.map (fun f => (f, Func.reset)) } }
def dmaFetchedOff : State := dmaUnmastered dmaFetched
def dmaHaltedOff : State := dmaUnmastered dmaHalted
def reportUnlisted : Report := { reportEcc with cap := { Capture.firmware with valid := true, masterUnit := 0x3F } }
/-- An unexpected completion is not advisory where its severity is fatal. -/
def funcFatal : Func := { func with config := [(0x10C, 0x10000)] }
def hostedFatal : State := pf0Func funcFatal endpoint
def ledgerDue : State := { ledgerIdle with tmb := { ledgerIdle.tmb with tick := 0x3FFFFFFE } }
def supPending : State := { supFree with que := { supFree.que with admin0 := { AdminQueue.reset with accepted := [waitingCmd] } } }
def portUnaligned : Port := { portFault with aligned := false }
def eventPending : State := { eventful eventing with
  que := { (eventful eventing).que with admin0 := { AdminQueue.reset with accepted := [waitingCmd] } } }
/-- A storage function whose grant holds `n` ids, from 300 on. -/
def granted (n : Nat) (s : State) : State := { s with hif := { s.hif with
  funcs := pfIds.map (fun f => (f, { func with active := 1#256 <<< featNvme, grant := some { grant with queueBase := 300, queueCount := n } })) } }
def ctlNoId : State := granted 2 ctlState
def ctlOffNoId : State := granted 0 ctlOffState
/-- The same with the namespace's blocks encrypted by context 3. -/
def spaceXts : Namespace := { space with xts := true, context := 3, channel := 7 }
def ioXts (c : IoCmd) : IoCmd := { c with space := spaceXts }
def stXts (c : IoCmd) : State := { ioState (ioXts c) with
  cph := { Cph.reset with enabled := true, ctxs := [(3, { ctx with xts := true, storage := true, key2 := List.replicate 16 1 })] }
  sto := { (ioState (ioXts c)).sto with namespaces := [(40, spaceXts)] } }
def stShed (s : State) : State := { s with hbmU := { HbmUnit.reset with step := 1, shedUsed := 1000000000 } }
def answer (k : AnswerKind) : TargetAnswer := { target := 6, path := 0, ecn := false, kind := k }
def pathQuietTcp : State := paths (fun p => { p with keepAliveAt := 4999999 }) false
def announce : Announce :=
  { priority1 := 1, clockClass := 6, accuracy := 0x20, variance := 0, priority2 := 128, identity := 5, steps := 0, sender := 5 }
def announceWorse : Announce := { announce with priority1 := 2, identity := 6, sender := 6 }
def master : PtpMaster := { data := announce, traceable := true, tick := 4999999 }
def ptpPortHears : PtpPort := { ptpPort with foreign := some master }
def ptpPortReceives : PtpPort := { ptpPort with external := 2 }
def clockedHears : State := { clocked with ptp := { clocked.ptp with ports := [ptpPortHears] } }
def clockedReceives : State := { clocked with ptp := { clocked.ptp with external := true, ports := [ptpPortReceives] } }
def clockedUp : State := { clocked with lnm := (lined port).lnm }
def pathChecks : State := { stored with sto := { stored.sto with
  namespaces := [(40, { space with notReady := true })]
  targets := [(6, { target with paths := [{ path0 with state := .connecting, attempting := true }] })] } }

/-! ## Ill-formed commands: one for each check of WellFormed -/

theorem test_entry_of_63_bytes_refused : (Instr.createQueue 0 (zeros 63) []).wellFormed = false := by decide
theorem test_entry_of_64_bytes_allowed : (Instr.createQueue 0 (zeros 64) []).wellFormed = true := by decide
theorem test_ack_entry_refused : (Instr.faultAck (.admin 0 (zeros 65))).wellFormed = false := by decide
theorem test_header_of_15_bytes_refused : (Instr.unexpectedCompletion 0 (zeros 15)).wellFormed = false := by decide
theorem test_long_read_refused : (Instr.barMemoryRequest 0 0 0 (.read 4097)).wellFormed = false := by decide
theorem test_empty_write_refused : (Instr.barMemoryRequest 0 0 0 (.write [])).wellFormed = false := by decide
theorem test_level_5_refused : (Instr.faultReport (some (report .tableEcc 5))).wellFormed = false := by decide
theorem test_flow_record_refused : (Instr.flow 0 false (zeros 56)).wellFormed = false := by decide
theorem test_window_record_refused : (Instr.hbmWrite 0 (zeros 63)).wellFormed = false := by decide
theorem test_descriptor_refused : (Instr.dmaDescriptorStart 0 (zeros 60)).wellFormed = false := by decide
theorem test_context_image_refused : (Instr.context 0 false (zeros 128)).wellFormed = false := by decide +kernel

/-! ## Small steps: the expected results are the spec's, worked by hand -/

/-- The state that a command leaves. -/
def after (o : Host.Outcome State Fault Refusal) : State := match o with | .next t => t | _ => State.reset
/-- Register 4 of the batch in thread 0 of engine 0, after an instruction. -/
def result4 (o : Host.Outcome State Fault Refusal) : Option W48 := (batchOf (after o) 0 0).map (fun b => b.regs.getD 4 0)

/-- g3 is −2 and g1 is 3: the sum wraps at 48 bits (R367). -/
theorem test_add_wraps : result4 (exec (.add 0 0 ⟨4, 3, 1, 0, 0⟩) (loaded running (RR.word 0x10 ⟨4, 3, 1, 0, 0⟩))) = some 1 := by decide +kernel
/-- CLZ of zero is 48, and register 0 reads as zero (R366, R380). -/
theorem test_clz_zero : result4 (exec (.clz 0 0 xfTime) (loaded running (xfTime.word 0x32))) = some 48 := by decide +kernel
/-- Two bits of 5 are set. -/
theorem test_popc : result4 (exec (.popc 0 0 ⟨4, 2, 0, 0⟩) (loaded running (XF.word 0x33 ⟨4, 2, 0, 0⟩))) = some 2 := by decide +kernel
/-- JT with 3 in g1 jumps to ENTRY 8 plus TARGET[3], which is 4 (R382). -/
theorem test_jt : (batchOf (after (exec (.jt 0 0 jtIn) (loaded running (jtIn.word 0x8A)))) 0 0).map (·.pc) = some 12 := by decide +kernel
/-- An instruction that the memory does not hold does not issue (R3). -/
theorem test_other_word : exec (.add 0 0 ⟨4, 3, 1, 0, 0⟩) (loaded running (RR.word 0x11 ⟨4, 3, 1, 0, 0⟩)) =
    .next (loaded running (RR.word 0x11 ⟨4, 3, 1, 0, 0⟩)) := rfl
/-- A word never written reads 0, which no instruction has: cause 0x01 (R366). -/
theorem test_blank_word : (engineOf (after (exec (.add 0 0 ⟨4, 3, 1, 0, 0⟩) (loaded running 0))) 0).faultPc = 10 := by decide +kernel
/-- The check value of the Ethernet FCS polynomial: the CRC of the digits 1 to 9. -/
theorem test_crc32 : crc32 [0x31, 0x32, 0x33, 0x34, 0x35, 0x36, 0x37, 0x38, 0x39] = 0xCBF43926 := by decide +kernel
/-- A good frame of 64 bytes becomes a packet of 60 bytes; one of 63 bytes becomes none (R157). -/
theorem test_frame_received : (pktOf (after (exec (.rxFrameDelimited 5 frame ⟨0, 0⟩ false 1) (lined port))) 0).map (·.bytes.length)
    = some 60 := by decide +kernel
theorem test_frame_undersize : (after (exec (.rxFrameDelimited 5 shortFrame ⟨0, 0⟩ false 1) (lined port))).crb.pkts = [] := by
  decide +kernel
/-- Writing the value that an unlisted byte reads as removes the entry. -/
theorem test_write_zero : putBytes 0#8 [(5, 7#8)] 5 [0] = [] := by decide +kernel
/-- IDCODE is captured as 0x19602677 (R630). -/
theorem test_idcode : (after (exec (.tckEdge true false true) tapCapture)).tap.drShift = 0x19602677 := by decide +kernel
/-- D3hot is entered on the function that the command names, and on no other (R457). -/
theorem test_d3hot : ((funcOf (after (exec (.d3hotEntry 0x2000) hosted)) 0x2000).map (·.d3hot),
    (funcOf (after (exec (.d3hotEntry 0x2000) hosted)) 0).map (·.d3hot)) = (some true, some false) := by decide +kernel
/-- The table of commands has no bits. -/
theorem test_no_words : decodeTableWord 32 0 = none := by decide

/-- A command at the front of the queue, and one behind it. -/
def waits (c : Instr) : State := { hosted with pending := [c, .tickOutFall] }
theorem test_step_takes_front : (after (step (waits (.d3hotEntry 0x2000)))).pending = [.tickOutFall] := by decide +kernel
theorem test_idle_beat : (after (step up)).tmb.beat = 101 := by decide +kernel

/-! ## Small lemmas for the witnesses -/

theorem tget_mem {α : Type} {i : Nat} {x : α} : ∀ {t : Tbl α}, tget t i = some x → (i, x) ∈ t
  | [], h => by simp [tget] at h
  | (k, v) :: t, h => by
    unfold tget at h
    split at h
    · simp_all
    · exact List.mem_cons_of_mem _ (tget_mem h)

theorem some_pair {α β : Type} {o : Option (α × β)} {P : α → β → Prop} (h : ∃ z ∈ o, P z.1 z.2) : ∃ a b, o = some (a, b) ∧ P a b := by
  obtain ⟨z, hz, hp⟩ := h
  exact ⟨z.1, z.2, hz, hp⟩


theorem except_error {α β : Type} [DecidableEq α] {x : Except α β} {a : α}
    (h : (match x with | .error y => decide (y = a) | .ok _ => false) = true) : x = .error a := by
  cases x with
  | error y => exact congrArg Except.error (of_decide_eq_true h)
  | ok y => cases h

theorem except_ok {α β : Type} [DecidableEq β] {x : Except α β} {b : β}
    (h : (match x with | .ok y => decide (y = b) | .error _ => false) = true) : x = .ok b := by
  cases x with
  | error y => cases h
  | ok y => exact congrArg Except.ok (of_decide_eq_true h)

theorem leVal_zeros : ∀ {l : List Byte}, (∀ x ∈ l, x = 0#8) → leVal l = 0
  | [], _ => rfl
  | b :: l, h => by
    rw [leVal, leVal_zeros (fun x hx => h x (List.mem_cons_of_mem _ hx)), h b (List.mem_cons_self ..)]
    rfl

theorem slice_zeros {l : List Byte} (h : ∀ x ∈ l, x = 0#8) (i n : Nat) : ∀ x ∈ slice l i n, x = 0#8 := by
  intro x hx
  rcases List.mem_append.1 hx with hx | hx
  · exact h x (List.mem_of_mem_drop (List.mem_of_mem_take hx))
  · exact (List.mem_replicate.1 hx).2

theorem pageOfBytes_zeros (t : Nat) {l : List Byte} (h : ∀ x ∈ l, x = 0#8) : pageOfBytes t l = [] := by
  have hz : ∀ i n, leAt l i n = 0 := fun i n => leVal_zeros (slice_zeros h i n)
  simp [pageOfBytes, hz]

/-- A page of zero bytes holds no entry, in each of the three tables. -/
theorem stagedBank_zeros (s : State) (b : List Byte) {data : List Byte} (h : ∀ x ∈ data, x = 0#8) (hr : leAt b 21 1 = 0) :
    stagedBank s b data = { ringLog2 := 0, pages := [[]] } := by
  simp [stagedBank, hr, bankOfBytes, pageOfBytes_zeros _ (slice_zeros h _ _), Bank.repoint]

theorem tget_append {α : Type} {i : Nat} : ∀ {a b : Tbl α}, (∀ e ∈ a, e.1 ≠ i) → tget (a ++ b) i = tget b i
  | [], _, _ => rfl
  | (k, v) :: a, b, h => by
    have hk : k ≠ i := h (k, v) (List.mem_cons_self ..)
    rw [List.cons_append, tget, if_neg hk]
    exact tget_append (fun e he => h e (List.mem_cons_of_mem _ he))

theorem tget_range {α : Type} (x : α) (b : Nat) {i : Nat} : ∀ {l : List Nat}, i ∈ l →
    tget (l.map (fun j => (b + j, x))) (b + i) = some x
  | k :: l, h => by
    rw [List.map_cons, tget]
    split
    · rfl
    · next hne =>
      rcases List.mem_cons.1 h with rfl | h
      · exact absurd rfl hne
      · exact tget_range x b h

theorem macFree_none {f : Fwd} {bd : W16} {mac : W48}
    (hw : ∀ w < 4, ∃ e, tget f.mac (macPlaceOf f w bd mac) = some e ∧ e.valid = true)
    (hs : ∀ j < 1024, ∃ e, tget f.mac (macStash + j) = some e ∧ e.valid = true) : macFree f bd mac = none := by
  unfold macFree
  dsimp only
  split
  · next w h =>
    obtain ⟨e, he, hv⟩ := hw w (List.mem_range.1 (List.mem_of_find?_eq_some h))
    have := List.find?_some h
    rw [he] at this
    simp [hv] at this
  · rw [Option.map_eq_none_iff, List.find?_eq_none]
    intro j hj
    obtain ⟨e, he, hv⟩ := hs j (List.mem_range.1 hj)
    rw [he]
    simp [hv]

theorem macFull_free : macFree macFull.fwd (macNamedEntry macInsertAuto).bd (macNamedEntry macInsertAuto).mac = none := by
  have hw : ∀ w < 4, tget macFull.fwd.mac (macPlaceOf macFull.fwd w (macNamedEntry macInsertAuto).bd
      (macNamedEntry macInsertAuto).mac) = some macOther := by decide +kernel
  have hb : ∀ e ∈ (List.range 4).map (fun w => (macPlaceOf learning.fwd w 7 0x0200000000DD, macOther)), e.1 < macStash := by
    decide +kernel
  refine macFree_none (fun w h => ⟨_, hw w h, rfl⟩) (fun j h => ⟨macOther, ?_, rfl⟩)
  exact (tget_append (fun e he => by have := hb e he; omega)).trans (tget_range macOther macStash (List.mem_range.2 h))

theorem witness_StageSlots : ∀ t < 3,
    Spec.admits hosted 0 16 false [(20, 2), (24, 8)] (stageEntry t) ∧ stageSlotsOk (stageEntry t) = true ∧
      (stageProof hosted (leAt (stageEntry t) 20 1) (stagedBank hosted (stageEntry t) (adminData (stageEntry t) noData))).status = 0 ∧
      leAt (stageEntry t) 20 1 = t ∧ (slotTableOf hosted t).active1 = false ∧ (slotTableOf hosted t).pending = none := by
  have h : ∀ t < 3, leAt (stageEntry t) 21 1 = 0 := by decide +kernel
  have hp : ∀ t < 3, (stageProof hosted (leAt (stageEntry t) 20 1) { ringLog2 := 0, pages := [[]] }).status = 0 := by decide +kernel
  have ha : ∀ t < 3, Spec.admits hosted 0 16 false [(20, 2), (24, 8)] (stageEntry t) := by
    unfold Spec.admits
    decide +kernel
  have hr : ∀ t < 3, stageSlotsOk (stageEntry t) = true ∧ leAt (stageEntry t) 20 1 = t ∧ (slotTableOf hosted t).active1 = false ∧
      (slotTableOf hosted t).pending = none := by decide +kernel
  intro t ht
  refine ⟨ha t ht, (hr t ht).1, ?_, (hr t ht).2⟩
  rw [adminData, stagedBank_zeros hosted _ (slice_zeros (by simp [noData]) _ _) (h t ht)]
  exact hp t ht

/-- A bank that waits for the coming boundary keeps STAGE_SLOTS out. -/
theorem witness_StageSlotsImminent :
    Spec.admits hostedPending 0 16 false [(20, 2), (24, 8)] (stageEntry 2) ∧ stageSlotsOk (stageEntry 2) = true ∧
      (stageProof hostedPending (leAt (stageEntry 2) 20 1)
        (stagedBank hostedPending (stageEntry 2) (adminData (stageEntry 2) noData))).status = 0 ∧
      slotsImminent hostedPending (leAt (stageEntry 2) 20 1) = true := by
  have h : leAt (stageEntry 2) 21 1 = 0 := by decide +kernel
  have hp : (stageProof hostedPending (leAt (stageEntry 2) 20 1) { ringLog2 := 0, pages := [[]] }).status = 0 := by decide +kernel
  have ha : Spec.admits hostedPending 0 16 false [(20, 2), (24, 8)] (stageEntry 2) := by
    unfold Spec.admits
    decide +kernel
  refine ⟨ha, by decide +kernel, ?_, by decide +kernel⟩
  rw [adminData, stagedBank_zeros hostedPending _ (slice_zeros (by simp [noData]) _ _) h]
  exact hp

/-! ## States and operands that meet the hypotheses of each statement -/

theorem witness_IsaRegisters (w : W48) :
    Spec.Issues (loaded running w) 0 0 batch ∧ Spec.fetches (loaded running w) 0 batch w ∧
      (rr0.h = 0 ∧ rr0.zero = (0#23)) ∧
      (rrNone.h = 0 ∧ rrNone.zero = (0#23) ∧ rrNone.rd = 0 ∧ rrNone.ra = 0 ∧ rrNone.rb = 0) ∧
      (rrHalf.h ≠ 0 ∧ rrHalf.zero = (0#23)) ∧
      (riFull.zero = (0#4) ∧ riFull.h = 0) ∧
      (riMovi.zero = (0#4) ∧ riMovi.h = 0 ∧ riMovi.ra = 0) ∧
      (riHalf.zero = (0#4) ∧ riHalf.h ≠ 0 ∧ riHalf.ra = 0) := by
  unfold Spec.Issues
  and_intros <;> first | rfl | decide +kernel | exact of_decide_eq_true rfl

theorem witness_IsaBitFields (w : W48) :
    Spec.Issues (loaded running w) 0 0 batch ∧ Spec.fetches (loaded running w) 0 batch w ∧
      (xfField.rb = 0 ∧ 1 ≤ xfField.imm.toNat / 64 ∧ xfField.imm.toNat % 64 + xfField.imm.toNat / 64 ≤ 48) ∧
      (xfPlain.rb = 0 ∧ xfPlain.imm = (0#25)) ∧
      (xfTime.rb = 0 ∧ xfTime.imm = (0#25) ∧ xfTime.ra = 0) := by
  unfold Spec.Issues
  and_intros <;> first | rfl | decide +kernel | exact of_decide_eq_true rfl

theorem witness_IsaControl (w : W48) :
    Spec.Issues (loaded running w) 0 0 batch ∧ Spec.fetches (loaded running w) 0 batch w ∧
      (bfZero.zero = (0#5) ∧ bfZero.mid = (0#10) ∧ bfZero.ra = 0 ∧ bfZero.rb = 0) ∧
      (bfBoth.zero = (0#5) ∧
        (bfBoth.mid = (0#10)) ∧
        (BitVec.extractLsb' 0 9 bfBoth.mid = (0#9) ∧ (BitVec.ofNat 5 ↑bfBoth.rb ++ BitVec.extractLsb' 9 1 bfBoth.mid).toNat < 48)) ∧
      (lf.zero = (0#17) ∧ lf.count ≠ (0#8) ∧ lf.body ≠ (0#15)) ∧
      (jtIn.rd = 0 ∧ jtIn.rb = 0 ∧ jtIn.imm.toNat < 256 ∧ tget (clusterOf (loaded running w) (0 / 12 : Nat)).programs batch.program
        = some program ∧ ((tgetD program.tables jtIn.imm.toNat [])[BitVec.toNat (Spec.reg batch jtIn.ra)]? = some ((tgetD
        program.tables jtIn.imm.toNat [])[BitVec.toNat (if jtIn.ra = 0 then (0#48) else batch.regs.getD (↑jtIn.ra) (0#48))]?.getD
        0))) ∧
      (rrNone = { rd := 0, ra := 0, rb := 0, h := 0, zero := (0#23) } ∧ batch.doomed = false ∧
        (batch.handles = []) ∧
        (batch.channel < 16777216 ∧ channelOf (loaded running w) batch.channel = some channel)) := by
  unfold Spec.Issues Spec.reg
  and_intros <;> first | rfl | decide +kernel | exact of_decide_eq_true rfl

theorem witness_IsaMemory (w : W48) :
    (Spec.Issues (loaded running w) 0 0 batch ∧ Spec.fetches (loaded running w) 0 batch w ∧
      (mfLow.zero = (0#10) ∧
        (Spec.address batch mfLow < 8192) ∧
        (Spec.address batch mfLow < 1048576 ∧ (¬Spec.address batch mfLow ∈ (clusterOf (loaded running w) batch.cluster).lost ∨ tget
          batch.sharedW (Spec.address batch mfLow) ≠ none)) ∧
        ((Spec.address batch mfLow < 16 ∨ 8192 ≤ Spec.address batch mfLow)) ∧
        ((Spec.address batch mfLow < 65536 ∨ 1048576 ≤ Spec.address batch mfLow))) ∧
      (mfFirst.zero = (0#10) ∧ 16 ≤ Spec.address batch mfFirst ∧ Spec.address batch mfFirst < 8192 ∧ batch.nLocal < 512) ∧
      (mfShared.zero = (0#10) ∧ 65536 ≤ Spec.address batch mfShared ∧ Spec.address batch mfShared < 1048576 ∧ batch.nShared < 128) ∧
      (mfBeyond.zero = (0#10) ∧ 8192 ≤ Spec.address batch mfBeyond) ∧
      (mfOut.zero = (0#10) ∧ 1048576 ≤ Spec.address batch mfOut) ∧
      (mfLost.zero = (0#10) ∧ Spec.address batch mfLost < 1048576 ∧ Spec.address batch mfLost ∈ (clusterOf (loaded running w)
        batch.cluster).lost ∧ tget batch.sharedW (Spec.address batch mfLost) = none)) ∧
    (Spec.Issues (loaded (withBatch batchFull) w) 0 0 batchFull ∧ Spec.fetches (loaded (withBatch batchFull) w) 0 batchFull w ∧
      (mfFirst.zero = (0#10) ∧ 16 ≤ Spec.address batchFull mfFirst ∧ Spec.address batchFull mfFirst < 8192 ∧ 512 ≤ batchFull.nLocal)
        ∧
      (mfShared.zero = (0#10) ∧ 65536 ≤ Spec.address batchFull mfShared ∧ Spec.address batchFull mfShared < 1048576 ∧ 128 ≤
        batchFull.nShared)) := by
  unfold Spec.Issues Spec.address
  and_intros <;> first | rfl | decide +kernel | exact of_decide_eq_true rfl

theorem witness_IsaPacketHandles (w : W48) :
    (Spec.Issues (loaded runningOther w) 0 0 batchOther ∧ Spec.fetches (loaded runningOther w) 0 batchOther w ∧ pfTake.zero = (0#2)
      ∧ pfTake.ra = 0 ∧ pfTake.imm = (0#24) ∧ Spec.handle batchOther pfTake.handle = none ∧ fifoOf (loaded runningOther w)
      batchOther.channel = []) ∧
    (Spec.Issues (loaded running w) 0 0 batch ∧ Spec.fetches (loaded running w) 0 batch w ∧
      (pfTake.zero = (0#2) ∧ pfTake.ra = 0 ∧
        (pfTake.imm = (0#24) ∧ Spec.handle batch pfTake.handle = none ∧ fifoOf (loaded running w) batch.channel = held.pkt ::
          (fifoOf (loaded running w) batch.channel).tail ∧ pktOf (loaded running w) held.pkt = some packet ∧ batch.taken.length <
          16) ∧
        (pfTake.imm.toNat < 64 ∧ Spec.handle batch pfTake.handle = none ∧ keptAt (loaded running w) batch pfTake.imm.toNat = some
          keptHandle.pkt ∧ pktOf (loaded running w) keptHandle.pkt = some packet ∧ batch.taken.length < 16)) ∧
      (pfLdk.zero = (0#2) ∧ pfLdk.ra = 0 ∧ pfLdk.imm.toNat < 64 ∧ Spec.handle batch pfLdk.handle = none ∧ keptAt (loaded running w)
        batch pfLdk.imm.toNat = none)) ∧
    (Spec.Issues (loaded runningHolds w) 0 0 batchHolds ∧ Spec.fetches (loaded runningHolds w) 0 batchHolds w ∧
      (pfTake.zero = (0#2) ∧ Spec.handle batchHolds pfTake.handle = some held ∧
        (pfTake.ra = 0 ∧
          (pfTake.imm.toNat < 64 ∧ pktOf (loaded runningHolds w) held.pkt = some packet) ∧
          (pfTake.imm = (0#24) ∧ 1 < 64 ∧ keptBusy (loaded runningHolds w) batchHolds held.pkt 1 = false ∧ (∀ (j : Nat), j < 1 →
            keptBusy (loaded runningHolds w) batchHolds held.pkt j = true))) ∧
        (pfTake.imm.toNat < 2 ^ 14) ∧
        (pfTake.imm.toNat / 2 ^ 14 < 6)) ∧
      (pfRls.zero = (0#2) ∧ Spec.handle batchHolds pfRls.handle = some held ∧ pfRls.rd = 0 ∧ pfRls.imm.toNat < 2 ^ 14 ∧ (if
        pfRls.imm.getLsbD 13 = true then editsFrom (loaded runningHolds w) 0 0 batchHolds 8 (pfRls.imm.toNat % 2 ^ 13) = some
        noEdits else noEdits = [])) ∧
      (pfDrop.zero = (0#2) ∧ Spec.handle batchHolds pfDrop.handle = some held ∧ pfDrop.rd = 0 ∧ pfDrop.ra = 0 ∧ pfDrop.imm.toNat <
        256)) := by
  unfold Spec.Issues Spec.handle
  and_intros <;> first | rfl | decide +kernel | exact of_decide_eq_true rfl

theorem witness_IsaEmit :
    (Spec.Issues (loaded (withBatch batchEmitsBad) emitWord) 0 0 batchEmitsBad ∧ Spec.fetches (loaded (withBatch batchEmitsBad) emitWord) 0
      batchEmitsBad emitWord ∧ pfEmit.zero = (0#2) ∧ pfEmit.rd = 0 ∧ pfEmit.ra = 0 ∧ pfEmit.handle = 0 ∧ pfEmit.imm.toNat + 3 ≤ 8192 ∧
      emitOk (BitVec.toNat (Spec.localWord (loaded (withBatch batchEmitsBad) emitWord) 0 0 batchEmitsBad pfEmit.imm.toNat)) (BitVec.toNat
      (Spec.localWord (loaded (withBatch batchEmitsBad) emitWord) 0 0 batchEmitsBad (pfEmit.imm.toNat + 1))) (BitVec.toNat (Spec.localWord
      (loaded (withBatch batchEmitsBad) emitWord) 0 0 batchEmitsBad (pfEmit.imm.toNat + 2))) = false) ∧
    (Spec.Issues (loaded (withBatch batchEmits) emitWord) 0 0 batchEmits ∧ Spec.fetches (loaded (withBatch batchEmits) emitWord) 0 batchEmits emitWord ∧
      pfEmit.zero = (0#2) ∧ pfEmit.rd = 0 ∧ pfEmit.ra = 0 ∧ pfEmit.handle = 0 ∧ pfEmit.imm.toNat + 3 ≤ 8192 ∧ emitOk (BitVec.toNat
      (Spec.localWord (loaded (withBatch batchEmits) emitWord) 0 0 batchEmits pfEmit.imm.toNat)) (BitVec.toNat (Spec.localWord (loaded
      (withBatch batchEmits) emitWord) 0 0 batchEmits (pfEmit.imm.toNat + 1))) (BitVec.toNat (Spec.localWord (loaded (withBatch batchEmits)
      emitWord) 0 0 batchEmits (pfEmit.imm.toNat + 2))) = true ∧ batchEmits.emits < 16 ∧ (if BitVec.toNat (Spec.localWord (loaded
      (withBatch batchEmits) emitWord) 0 0 batchEmits (pfEmit.imm.toNat + 2)) / 2 ^ 13 % 2 = 1 then editsFrom (loaded (withBatch
      batchEmits) emitWord) 0 0 batchEmits 8 (BitVec.toNat (Spec.localWord (loaded (withBatch batchEmits) emitWord) 0 0 batchEmits
      (pfEmit.imm.toNat + 2)) % 2 ^ 13) = some noEdits else noEdits = []) ∧ BitVec.toNat (Spec.localWord (loaded (withBatch
      batchEmits) emitWord) 0 0 batchEmits pfEmit.imm.toNat) / 2 ^ 28 % 4 = 0) ∧
    (Spec.Issues (loaded (withBatch batchEmitsCopy) emitWord) 0 0 batchEmitsCopy ∧ Spec.fetches (loaded (withBatch batchEmitsCopy) emitWord) 0
      batchEmitsCopy emitWord ∧ pfEmit.zero = (0#2) ∧ pfEmit.rd = 0 ∧ pfEmit.ra = 0 ∧ pfEmit.handle = 0 ∧ pfEmit.imm.toNat + 3 ≤ 8192 ∧
      emitOk (BitVec.toNat (Spec.localWord (loaded (withBatch batchEmitsCopy) emitWord) 0 0 batchEmitsCopy pfEmit.imm.toNat)) (BitVec.toNat
      (Spec.localWord (loaded (withBatch batchEmitsCopy) emitWord) 0 0 batchEmitsCopy (pfEmit.imm.toNat + 1))) (BitVec.toNat
      (Spec.localWord (loaded (withBatch batchEmitsCopy) emitWord) 0 0 batchEmitsCopy (pfEmit.imm.toNat + 2))) = true ∧
      batchEmitsCopy.emits < 16 ∧ (if BitVec.toNat (Spec.localWord (loaded (withBatch batchEmitsCopy) emitWord) 0 0 batchEmitsCopy
      (pfEmit.imm.toNat + 2)) / 2 ^ 13 % 2 = 1 then editsFrom (loaded (withBatch batchEmitsCopy) emitWord) 0 0 batchEmitsCopy 8
      (BitVec.toNat (Spec.localWord (loaded (withBatch batchEmitsCopy) emitWord) 0 0 batchEmitsCopy (pfEmit.imm.toNat + 2)) % 2 ^ 13) =
      some noEdits else noEdits = []) ∧ tget batchEmitsCopy.handles (BitVec.toNat (Spec.localWord (loaded (withBatch batchEmitsCopy)
      emitWord) 0 0 batchEmitsCopy pfEmit.imm.toNat) / 2 ^ 24 % 16) = some held ∧ BitVec.toNat (Spec.localWord (loaded (withBatch
      batchEmitsCopy) emitWord) 0 0 batchEmitsCopy pfEmit.imm.toNat) / 2 ^ 28 % 4 = 1) ∧
    (Spec.Issues (loaded (withBatch batchEmitsHandle) emitWord) 0 0 batchEmitsHandle ∧ Spec.fetches (loaded (withBatch batchEmitsHandle) emitWord)
      0 batchEmitsHandle emitWord ∧ pfEmit.zero = (0#2) ∧ pfEmit.rd = 0 ∧ pfEmit.ra = 0 ∧ pfEmit.handle = 0 ∧ pfEmit.imm.toNat + 3 ≤ 8192 ∧
      emitOk (BitVec.toNat (Spec.localWord (loaded (withBatch batchEmitsHandle) emitWord) 0 0 batchEmitsHandle pfEmit.imm.toNat))
      (BitVec.toNat (Spec.localWord (loaded (withBatch batchEmitsHandle) emitWord) 0 0 batchEmitsHandle (pfEmit.imm.toNat + 1)))
      (BitVec.toNat (Spec.localWord (loaded (withBatch batchEmitsHandle) emitWord) 0 0 batchEmitsHandle (pfEmit.imm.toNat + 2))) = true ∧
      batchEmitsHandle.emits < 16 ∧ (if BitVec.toNat (Spec.localWord (loaded (withBatch batchEmitsHandle) emitWord) 0 0 batchEmitsHandle
      (pfEmit.imm.toNat + 2)) / 2 ^ 13 % 2 = 1 then editsFrom (loaded (withBatch batchEmitsHandle) emitWord) 0 0 batchEmitsHandle 8
      (BitVec.toNat (Spec.localWord (loaded (withBatch batchEmitsHandle) emitWord) 0 0 batchEmitsHandle (pfEmit.imm.toNat + 2)) % 2 ^ 13) =
      some noEdits else noEdits = []) ∧ tget batchEmitsHandle.handles (BitVec.toNat (Spec.localWord (loaded (withBatch
      batchEmitsHandle) emitWord) 0 0 batchEmitsHandle pfEmit.imm.toNat) / 2 ^ 24 % 16) = some held ∧ BitVec.toNat (Spec.localWord (loaded
      (withBatch batchEmitsHandle) emitWord) 0 0 batchEmitsHandle pfEmit.imm.toNat) / 2 ^ 28 % 4 = 3) := by
  unfold Spec.Issues Spec.localWord
  and_intros <;> first | rfl | decide +kernel | exact of_decide_eq_true rfl

theorem witness_IsaLookup (w : W48) :
    (Spec.Issues (loaded running w) 0 0 batch ∧ Spec.fetches (loaded running w) 0 batch w ∧ xfLkup.rb = 0 ∧ 3 < 7 ∧ ↑xfLkup.ra +
      (lkupRegs 3).fst ≤ 32 ∧ ↑xfLkup.rd + (lkupRegs 3).snd ≤ 32 ∧ xfLkup.imm.toNat = 3) ∧
    (Spec.Issues (loaded runningHolds w) 0 0 batchHolds ∧ Spec.fetches (loaded runningHolds w) 0 batchHolds w ∧ xfLkupPkt.rb = 0 ∧ 4
      < 7 ∧ ↑xfLkupPkt.ra + (lkupRegs 4).fst ≤ 32 ∧ ↑xfLkupPkt.rd + (lkupRegs 4).snd ≤ 32 ∧ xfLkupPkt.imm.toNat = 4 + 256 + 512 *
      ↑h3 ∧ Spec.handle batchHolds h3 = some held ∧ pktOf (loaded runningHolds w) held.pkt = some packet) := by
  unfold Spec.Issues Spec.handle
  and_intros <;> first | rfl | decide +kernel | exact of_decide_eq_true rfl

theorem witness_IsaStaged (w : W48) :
    Spec.Issues (loaded running w) 0 0 batch ∧ Spec.fetches (loaded running w) 0 batch w ∧
      (batch.tables.length < 16 ∧
        (xfTwr.rd = 0 ∧ xfTwr.ra = 0 ∧ xfTwr.rb = 0 ∧ 2 < 7 ∧ 300 + 1 + cdiv (entrySize 2) 6 ≤ 8192 ∧ (xfTwr.imm.toNat = 300 + 8192
          * 2 + if true = true then 131072 else 0)) ∧
        (xfAt.rd = 0 ∧
          (xfAt.imm.toNat < 1024) ∧
          (xfAt.rb = 0 ∧ xfAt.imm.toNat + 11 ≤ 8192)) ∧
        (xfClear.rd = 0 ∧ xfClear.rb = 0 ∧ xfClear.imm.toNat = 8192)) ∧
      (xfLadd.imm = (0#25) ∧ batch.adds.length < 64) ∧
      (xfAt.rd = 0 ∧ xfAt.rb = 0 ∧ xfAt.imm.toNat + 28 ≤ 8192 ∧ batch.csubs.length < 16) ∧
      (xfSend.rd = 0 ∧ 6 < 7 ∧ 300 + 6 ≤ 8192 ∧ xfSend.imm.toNat = 300 + 8192 * 6 ∧ 300 < 8192 ∧ batch.sends.length < 8) ∧
      (xfArm.rd = 0 ∧ xfArm.imm = (0#25) ∧ batch.arm = none) ∧
      (xfMsgt.ra = 0 ∧ xfMsgt.rb = 0 ∧ xfMsgt.imm = (0#25) ∧ channelOf (loaded running w) batch.channel = some channel ∧
        channel.bind.inbox = some 2) := by
  unfold Spec.Issues
  and_intros <;> first | rfl | decide +kernel | exact of_decide_eq_true rfl

theorem witness_BatchDispatch :
    (threadFree unbatchedLost 0 0 = true ∧ (threadOf unbatchedLost 0 0).slotsUsed ≤ 16 ∧ controlOf unbatchedLost 0 0 = none ∧ slotAt
      unbatchedLost 0 0 16 = some slotWord ∧ entryKind slotWord = 1 ∧ entryDefer slotWord = false ∧ channelOf unbatchedLost
      (entryChannel slotWord) = some channelLost ∧ channelPending unbatchedLost (slotFirst unbatchedLost 0 16) (entryChannel
      slotWord) = true ∧ inFlight unbatchedLost (entryChannel slotWord) = false ∧ tget (clusterOf unbatchedLost (0 / 12 :
      Nat)).programs channelLost.bind.program = some program ∧ channelLost.retryAreas = [] ∧ (recordWords channelLost.bind).any
      (clusterOf unbatchedLost channelLost.bind.cluster).lost.contains = true) ∧
    (threadFree unbatched 0 0 = true ∧ (threadOf unbatched 0 0).slotsUsed ≤ 16 ∧ controlOf unbatched 0 0 = none ∧ slotAt unbatched 0
      0 16 = some slotWord ∧ entryKind slotWord = 1 ∧ entryDefer slotWord = false ∧ channelOf unbatched (entryChannel slotWord) =
      some channel ∧ channelPending unbatched (slotFirst unbatched 0 16) (entryChannel slotWord) = true ∧ inFlight unbatched
      (entryChannel slotWord) = false ∧ tget (clusterOf unbatched (0 / 12 : Nat)).programs channel.bind.program = some program ∧
      channel.retryAreas = [] ∧ (recordWords channel.bind).any (clusterOf unbatched channel.bind.cluster).lost.contains = false) := by and_intros <;> decide +kernel

theorem witness_BatchRelease :
    (List.takeWhile (fun i => i != 8 * 0 + 0) (commitsWaiting committedState) = []) ∧ batchOf committedState 0 0 = some batchDone ∧
      batchDone.committed = some 4999999 ∧ batchDone.localW = [(100, (0#48))] ∧ batchDone.sharedW = [(70000, (1#48))] ∧ 80 ≤ 100 ∧
      batchDone.arm = none ∧ batchDone.tables = [TblEffect.hbmRead 4096 (119#16) 4] ∧ batchDone.adds = [] ∧ batchDone.lookups = [] ∧
      batchDone.csubs = [] ∧ batchDone.sends = [] ∧ batchDone.packets = [] ∧ committedState.mir.pair.mirrored.contains
      batchDone.channel = false := by and_intros <;> decide +kernel

theorem witness_EngineStops :
    (engineOf overrunState 0).state = EngineState.inService ∧ engineStopped overrunState 0 = false ∧
      (batchOf overrunState 0 0 = some batchLate ∧ batchLate.committed = none ∧ batchLate.slotStart + batchLate.slotLen ≤
        batchLate.slot) ∧
      (1 ≤ (1#8).toNat ∧ (1#8).toNat ≤ 8) := by and_intros <;> decide +kernel

theorem witness_EngineEvents :
    ((engineOf engineBusy 1).state = EngineState.copySource ∧ (engineOf engineBusy 1).copyEnd = some 5000000 ∧ 5000000 ≤
      BitVec.toNat engineBusy.tmb.tick ∧ engineBusy.eng.test = none) ∧
    (timerDue engineBusy (threadOf engineBusy 0 0) = true ∧ (engineOf engineBusy 0).idleUntil ≤ BitVec.toNat engineBusy.tmb.tick ∧
      channelOf engineBusy (threadOf engineBusy 0 0).timerChannel = some channel) ∧
    (engineBusy.eng.landings = engineMem :: engineBusy.eng.landings.tail ∧ channelIdle engineBusy engineMem.channel = false ∧
      engineMem.ok = true ∧ channelOf engineBusy engineMem.channel = some channel) ∧
    (¬10 ∈ (clusterOf engineBusy 0).imemBad) ∧
    (engineTested.eng.test = some selfTest ∧ selfTest.ends = some 4999000 ∧ 4999000 ≤ BitVec.toNat engineTested.tmb.tick ∧
      selfTest.waiter = Waiter.none_) ∧
    (supFree.eng.supQueue = supFree.eng.supQueue.head?.getD msg :: supFree.eng.supQueue.tail ∧ supervisorRuns supFree = true ∧
      BitVec.getLsbD (supFree.eng.supQueue.head?.getD msg).tag 15 = true ∧ boxActive supFree (BitVec.toNat
      (supFree.eng.supQueue.head?.getD msg).tag % 32) = true ∧ (boxOf supFree (BitVec.toNat (supFree.eng.supQueue.head?.getD
      msg).tag % 32)).heldEngine = none) := by and_intros <;> decide +kernel

theorem witness_IsaIllegal (w : W48) :
    ((engineOf (loaded running w) 0).state = EngineState.inService ∧ engineStopped (loaded running w) 0 = false ∧ batchOf (loaded
      running w) 0 0 = some batch ∧ batch.committed = none ∧ batch.slot < batch.slotStart + batch.slotLen ∧ Spec.fetches (loaded
      running w) 0 batch w ∧ ¬batch.pc ∈ (clusterOf (loaded running w) (0 / 12 : Nat)).imemBad ∧
      ((rrBad.zero ≠ (0#23) ∨ rrBad.h ≠ 0)) ∧
      (bfBad.zero ≠ (0#5)) ∧
      (lfBad.count = (0#8)) ∧
      (xfBad.rb ≠ 0) ∧
      (mfBad.zero ≠ (0#10)) ∧
      (pfBad.zero ≠ (0#2))) ∧
    ((engineOf (loaded badWords w) 0).state = EngineState.inService ∧ engineStopped (loaded badWords w) 0 = false ∧ batchOf (loaded
      badWords w) 0 0 = some batch ∧ batch.committed = none ∧ batch.slot < batch.slotStart + batch.slotLen ∧ Spec.fetches (loaded
      badWords w) 0 batch w ∧ batch.pc ∈ (clusterOf (loaded badWords w) (0 / 12 : Nat)).imemBad) ∧
    ((engineOf (loaded running 0) 0).state = EngineState.inService ∧ engineStopped (loaded running 0) 0 = false ∧ batchOf (loaded
      running 0) 0 0 = some batch ∧ batch.committed = none ∧ batch.slot < batch.slotStart + batch.slotLen ∧ Spec.fetches (loaded
      running 0) 0 batch 0 ∧ opDefined 0 = false ∧ ¬batch.pc ∈ (clusterOf (loaded running 0) (0 / 12 : Nat)).imemBad) := by
  and_intros <;> first | rfl | decide +kernel | exact of_decide_eq_true rfl

theorem witness_FrameReceived :
    (portOf (lined port) ↑p5).isSome = true ∧ ((portOf (lined port) ↑p5).getD port).state ≠ PortState.test ∧ ((portOf (lined port)
      ↑p5).getD port).fecHit = 0 ∧ receptionCut (lined port) (↑p5) (BitVec.toNat (lined port).tmb.tick - 0) = false ∧ ((portOf
      (lined port) ↑p5).getD port).admitting = true ∧ 64 ≤ frame.length ∧ frame.length ≤ ((portOf (lined port) ↑p5).getD
      port).cfg.maxFrame ∧ BitVec.ofNat 32 (leVal (List.drop (frame.length - 4) frame)) = crc32 (List.take (frame.length - 4) frame)
      ∧ beVal (slice frame 12 2) ≠ 34824 ∧ ↑(crumbsOf frame.length) ≤ sharedFree (lined port) := by and_intros <;> decide +kernel

theorem witness_FrameRefused :
    (portOf (lined port) ↑p5).isSome = true ∧ ((portOf (lined port) ↑p5).getD port).state ≠ PortState.test ∧ ((if receptionCut
      (lined port) (↑p5) (BitVec.toNat (lined port).tmb.tick - 0) = true then some DropReason.macroOffline else if true = true then
      some DropReason.rxAborted else if 0 < ((portOf (lined port) ↑p5).getD port).fecHit then some DropReason.rxFecUncorrectable
      else if frame.length < 4 ∨ BitVec.ofNat 32 (leVal (List.drop (frame.length - 4) frame)) ≠ crc32 (List.take (frame.length - 4)
      frame) then some DropReason.rxFcsError else if ((portOf (lined port) ↑p5).getD port).cfg.maxFrame < frame.length then some
      DropReason.rxOversize else if frame.length < 64 then some DropReason.rxUndersize else if beVal (slice frame 12 2) = 34824 then
      some DropReason.rxMacControl else none).isSome = true) := by and_intros <;> decide +kernel

theorem witness_PortSignals :
    (portOf (lined port) ↑p5 = some port ∧
      (port.fec ≠ 0 ∧ port.state ≠ PortState.test ∧ 3 ≠ 0 ∧ (3 ≤ if port.fec = 1 then 7 else 15)) ∧
      (port.fec = 2) ∧
      ((port.state = PortState.up ∨ port.state = PortState.degraded) ∧ port.link = true)) ∧
    (portOf (lined portTraining) ↑p5 = some portTraining ∧
      (portTraining.fec ≠ 0 ∧ portTraining.state ≠ PortState.test ∧ ((if portTraining.fec = 1 then 7 else 15) < 16)) ∧
      (portTraining.state = PortState.training ∧ macroOffline (lined portTraining) (↑p5 / 32) = false ∧ (portTraining.cfg.anEn =
        true → (portTraining.lanes, portTraining.laneRate, portTraining.fec) ∈ itsCombination) ∧ laneOrder.length =
        portTraining.lanes ∧ (∀ (i : Nat), i < portTraining.lanes → i ∈ laneOrder))) ∧
    (portOf (lined portTest) ↑p5 = some portTest ∧ portTest.state = PortState.test) ∧
    (portOf (lined portFault) ↑p5 = some portFault ∧
      (portFault.state = PortState.linkFault ∧ portFault.aligned = true ∧ portFault.blockLock = BitVec.ofNat 8 (2 ^ portFault.lanes
        - 1)) ∧
      ((portFault.state = PortState.training ∨ portFault.state = PortState.linkFault))) ∧
    (portOf (lined portUnaligned) ↑p5 = some portUnaligned ∧ portUnaligned.state = PortState.linkFault ∧ (portUnaligned.aligned =
      false ∨ portUnaligned.blockLock ≠ BitVec.ofNat 8 (2 ^ portUnaligned.lanes - 1))) ∧
    (portOf (lined portTrainingAn) ↑p5 = some portTrainingAn ∧ portTrainingAn.state = PortState.training ∧ portTrainingAn.cfg.anEn =
      true ∧ ¬(portTrainingAn.lanes, portTrainingAn.laneRate, portTrainingAn.fec) ∈ noCombination) := by and_intros <;> decide +kernel

theorem witness_PortDegrade :
    ((portOf (lined port) ↑p5).isSome = true ∧ ((portOf (lined port) ↑p5).getD port).fec ≠ 0 ∧ BitVec.toNat (lined port).tmb.tick %
      1000 = 0 ∧ ((portOf (lined port) ↑p5).getD port).state = PortState.up ∧ (List.foldl (fun x1 x2 => x1 + x2) 0 (List.take 10
      (((portOf (lined port) ↑p5).getD port).bin :: ((portOf (lined port) ↑p5).getD port).bins)) ≤ BitVec.toNat ((portOf (lined
      port) ↑p5).getD port).degradeSet)) ∧
    ((portOf (lined portDegraded) ↑p5).isSome = true ∧ ((portOf (lined portDegraded) ↑p5).getD port).fec ≠ 0 ∧ BitVec.toNat (lined
      portDegraded).tmb.tick % 1000 = 0 ∧ ((portOf (lined portDegraded) ↑p5).getD port).state = PortState.degraded ∧ (BitVec.toNat
      ((portOf (lined portDegraded) ↑p5).getD port).degradeClear < BitVec.toNat ((portOf (lined portDegraded) ↑p5).getD
      port).degradeSet → List.foldl (fun x1 x2 => x1 + x2) 0 (List.take 10 (((portOf (lined portDegraded) ↑p5).getD port).bin ::
      ((portOf (lined portDegraded) ↑p5).getD port).bins)) ≤ BitVec.toNat ((portOf (lined portDegraded) ↑p5).getD
      port).degradeClear) ∧ (BitVec.toNat ((portOf (lined portDegraded) ↑p5).getD port).degradeSet ≤ BitVec.toNat ((portOf (lined
      portDegraded) ↑p5).getD port).degradeClear → List.foldl (fun x1 x2 => x1 + x2) 0 (List.take 10 (((portOf (lined portDegraded)
      ↑p5).getD port).bin :: ((portOf (lined portDegraded) ↑p5).getD port).bins)) ≤ BitVec.toNat ((portOf (lined portDegraded)
      ↑p5).getD port).degradeSet - 1)) ∧
    ((portOf (lined portNoisy) ↑p5).isSome = true ∧ ((portOf (lined portNoisy) ↑p5).getD port).fec ≠ 0 ∧ BitVec.toNat (lined
      portNoisy).tmb.tick % 1000 = 0 ∧ ((portOf (lined portNoisy) ↑p5).getD port).state = PortState.up ∧ (BitVec.toNat ((portOf
      (lined portNoisy) ↑p5).getD port).degradeSet < List.foldl (fun x1 x2 => x1 + x2) 0 (List.take 10 (((portOf (lined portNoisy)
      ↑p5).getD port).bin :: ((portOf (lined portNoisy) ↑p5).getD port).bins))) ∧ ((portOf (lined portNoisy) ↑p5).getD
      port).cfg.degradeAction = false) ∧
    (portOf (lined portNoisyDrains) ↑p5 = some portNoisyDrains ∧ portNoisyDrains.fec ≠ 0 ∧ BitVec.toNat (lined
      portNoisyDrains).tmb.tick % 1000 = 0 ∧ portNoisyDrains.state = PortState.up ∧ (BitVec.toNat portNoisyDrains.degradeSet <
      List.foldl (fun x1 x2 => x1 + x2) 0 (List.take 10 (portNoisyDrains.bin :: portNoisyDrains.bins))) ∧
      portNoisyDrains.cfg.degradeAction = true) := by and_intros <;> decide +kernel

theorem witness_LaneCommands :
    (portOf (lined port) ↑p5 = some port ∧ port.statsOld = none) ∧
    (((lined port).board.f256 = false ∨ ↑p5 < 256)) ∧
    ((lined256 portTest).board.f256 = true ∧ 256 ≤ 300) ∧
    (portOfLane (lined port) ↑p5 = some (5, port) ∧ ((lined port).board.f256 = false ∨ ↑p5 < 256)) ∧
    (portOfLane (lined portTest) ↑p5 = some (5, portTest) ∧ portTest.state = PortState.test) := by and_intros <;> decide +kernel

theorem witness_DrainsAndMacros :
    (portOf (lined portDraining) ↑p5 = some portDraining ∧ portDraining.drain = some (DrainKind.speed, 0) ∧ DrainKind.speed ≠
      DrainKind.macroDown) ∧
    ((macroOf (macroed drainMacro port) 0).state = MacroState.draining ∧ (macroOf (macroed drainMacro port) 0).drainLeft = 0 ∧ (∀ (n
      : Nat) (p : Port), portOf (macroed drainMacro port) n = some p → n / 32 = 0 → p.drain = none ∧ txBusy (macroed drainMacro
      port) n = false) ∧ (macroOf (macroed drainMacro port) 0).downWait = []) ∧
    ((macroOf macLocking 0).state = MacroState.locking ∧ (macroOf macLocking 0).upWait = []) ∧
    ((macroOf (lined portDraining) 0).state = MacroState.on) := by
  have key : ∀ e ∈ (macroed drainMacro port).lnm.ports, e.2.drain = none := by decide +kernel
  and_intros <;> first | exact fun _ _ h _ => ⟨key _ (tget_mem h), rfl⟩ | decide +kernel

theorem witness_HeaderLaneControl :
    tgetD laned.crb.laneQ 0 [] = (tgetD laned.crb.laneQ 0 []).head?.getD 0 :: (tgetD laned.crb.laneQ 0 []).tail ∧ pktOf laned
      ((tgetD laned.crb.laneQ 0 []).head?.getD 0) = some packetLane ∧ packetLane.origin = 0 ∧ domainFrame laned packetLane = false ∧
      laned.app.parse.classes[(parseHead laned.app.parse (startEntry laned packetLane) packetLane.bytes).cls]? = some classEntry ∧
      ((laned.app.control.any fun c => ctlMatch c 0 packetLane.port
      { (parseHead laned.app.parse (startEntry laned packetLane) packetLane.bytes) with kv := (parseHead laned.app.parse (startEntry laned packetLane) packetLane.bytes).kv.set 0 (kvW0 packetLane.port 0 laned.dec.current (packetLane.bytes.length + 4) (startEntry laned packetLane).profile 0) })
      = true) ∧ ((parseHead laned.app.parse (startEntry laned packetLane) packetLane.bytes).frag && (startEntry laned
      packetLane).fragDrop) = false ∧ (clusterOf laned (0 % 8)).controlFifo.length < 4096 := by and_intros <;> decide +kernel

theorem witness_PacketsEnter :
    (entering.crb.enqueueQ = entering.crb.enqueueQ.head?.getD 0 :: entering.crb.enqueueQ.tail ∧ pktOf entering
      (entering.crb.enqueueQ.head?.getD 0) = some packetToPort ∧ dtypeOf packetToPort.dest = DType.port ∧ enqueueReason entering
      (destPortOf packetToPort.dest) = none ∧ packetToPort.control = false ∧ packetToPort.copyQueue = none ∧ packetToPort.meter =
      none ∧ admits entering (schQueue entering (destPortOf packetToPort.dest * 8 + destQueueOf packetToPort.dest))
      ((packetToPort.bytes.length + 4 + 63) / 64) 3 = true ∧ destPortOf packetToPort.dest * 8 + destQueueOf packetToPort.dest <
      4096) ∧
    (entering.sch.hostStopped = false ∧ waitingTurn entering = some emitWaits ∧ emitWaits.pkt.sendFrom = none ∧ ↑(crumbsOf
      (emitWaits.pkt.bytes.length + 4)) ≤ sharedFree entering) := by and_intros <;> decide +kernel

theorem witness_FlowState :
    (flowState.crb.flowQ = flowState.crb.flowQ.head?.getD 0 :: flowState.crb.flowQ.tail ∧ pktOf flowState
      (flowState.crb.flowQ.head?.getD 0) = some packetFlow ∧ classOf flowState packetFlow = some classEntry ∧ packetFlow.tenant.bind
      (tget flowState.fwd.seen.tenants) = some tenant ∧ hbmAnswers flowState (flowIndex flowState.fwd.flowSeed (flowKeyBytes
      (packetFlow.tenant.getD 0) packetFlow.cls classEntry packetFlow.kv) * 64) = true ∧ flowValid (flowRead flowState (flowIndex
      flowState.fwd.flowSeed (flowKeyBytes (packetFlow.tenant.getD 0) packetFlow.cls classEntry packetFlow.kv))) = true ∧ flowKeyOf
      (flowRead flowState (flowIndex flowState.fwd.flowSeed (flowKeyBytes (packetFlow.tenant.getD 0) packetFlow.cls classEntry
      packetFlow.kv))) = flowKeyBytes (packetFlow.tenant.getD 0) packetFlow.cls classEntry packetFlow.kv ∧ (flowCount (flowCounters
      (flowRead flowState (flowIndex flowState.fwd.flowSeed (flowKeyBytes (packetFlow.tenant.getD 0) packetFlow.cls classEntry
      packetFlow.kv)))) (packetFlow.bytes.length + 4)).snd = (false, false) ∧ flowDest (flowRead flowState (flowIndex
      flowState.fwd.flowSeed (flowKeyBytes (packetFlow.tenant.getD 0) packetFlow.cls classEntry packetFlow.kv))) ≠ destContinue ∧
      dtypeOf (flowDest (flowRead flowState (flowIndex flowState.fwd.flowSeed (flowKeyBytes (packetFlow.tenant.getD 0)
      packetFlow.cls classEntry packetFlow.kv)))) = DType.drop) ∧
    (flowHitState.fwd.flowAgePeriod ≠ (0#16) ∧ hbmAnswers flowHitState (flowIndexBits.toNat * 64) = true ∧ flowValid (flowRead
      flowHitState flowIndexBits.toNat) = true ∧ flowPinned (flowRead flowHitState flowIndexBits.toNat) = false ∧ flowHit (flowRead
      flowHitState flowIndexBits.toNat) = true) ∧
    (flowState.fwd.flowAgePeriod ≠ (0#16) ∧ hbmAnswers flowState (flowIndexBits.toNat * 64) = true ∧ flowValid (flowRead flowState
      flowIndexBits.toNat) = true ∧ flowPinned (flowRead flowState flowIndexBits.toNat) = false ∧ flowHit (flowRead flowState
      flowIndexBits.toNat) = false) := by and_intros <;> decide +kernel

theorem witness_LearnAndAge :
    (learning.mir.pressure = false ∧ learning.fwd.learnQ = learnReq :: learning.fwd.learnQ.tail ∧ macFind learning.fwd learnReq.bd
      learnReq.sa = none ∧ (macFree learning.fwd learnReq.bd learnReq.sa).isSome = true) ∧
    (tget learning.fwd.mac 9 = some macEntry ∧ learning.fwd.agePeriod ≠ (0#32) ∧ macEntry.valid = true ∧ macEntry.isStatic = false ∧
      macEntry.hit = true) ∧
    (tget learning.fwd.mac 10 = some macUnhit ∧ learning.fwd.agePeriod ≠ (0#32) ∧ macUnhit.valid = true ∧ macUnhit.isStatic = false
      ∧ macUnhit.hit = false) ∧
    ((0 < if learning.board.f256 = true then 2 else 4) ∧ (0 ≠ 6 ∨ (9#56) ≠ (262143#56))) := by and_intros <;> decide +kernel

theorem witness_Egress :
    (↑u5 < 512 ∧ (schPort toSelect ↑u5).tx = none ∧ portSends toSelect ↑u5 = true ∧ (schQueue toSelect (4096 + ↑u5)).frames =
      (schQueue toSelect (4096 + ↑u5)).frames.head?.getD 0 :: (schQueue toSelect (4096 + ↑u5)).frames.tail ∧ headStale toSelect
      (4096 + ↑u5) = false ∧ (0 : Int) < (schPort toSelect ↑u5).ctlCredit) ∧
    ((schPort toVisit ↑u5).tx = none ∧ (schPort toVisit ↑u5).cur = none ∧ (↑u5 < 512 → portSends toVisit ↑u5 = true ∧ (schQueue
      toVisit (4096 + ↑u5)).frames = []) ∧ (512 ≤ ↑u5 → shedOpen toVisit = true) ∧ nextVisit toVisit ↑u5 = some 42 ∧ (schQueue
      toVisit 42).frames = (schQueue toVisit 42).frames.head?.getD 0 :: (schQueue toVisit 42).frames.tail ∧ headStale toVisit 42 =
      false ∧ isCQ 42 = false) ∧
    ((schPort toSelect ↑p5).list = some gateList ∧ gateList.entries[(gateEntryAt gateList.entries 0 (gatePhase gateList (nowSteps
      toSelect))).fst]? = some gateEntry) ∧
    ((schPort toStart ↑p5).tx = some (0, 42, false) ∧ (portOf toStart ↑p5).isSome = true ∧ (pktOf toStart 0).isSome = true ∧
      portSends toStart ↑p5 = true ∧ (0 < min (if ((portOf toStart ↑p5).getD port).txRaise = true then min 16 (((portOf toStart
      ↑p5).getD port).txStartNow + 1) else ((portOf toStart ↑p5).getD port).txStartNow) ((max 60 (egressEdit toStart.app.parse
      ((pktOf toStart 0).getD packet) { tick := BitVec.toNat toStart.tmb.tick, sub := 0 }).bytes.length + 4 + 63) / 64))) ∧
    ((schPort toStart ↑p5).tx = some (((schPort toStart ↑p5).tx.getD (0, 0, true)).fst, 42, false) ∧ portOf toStart ↑p5 = some port
      ∧ (pktOf toStart ((schPort toStart ↑p5).tx.getD (0, 0, true)).fst).isSome = true ∧ portSends toStart ↑p5 = true ∧ (min (if
      port.txRaise = true then min 16 (port.txStartNow + 1) else port.txStartNow) ((max 60 (egressEdit toStart.app.parse ((pktOf
      toStart ((schPort toStart ↑p5).tx.getD (0, 0, true)).fst).getD packet)
      { tick := BitVec.toNat toStart.tmb.tick, sub := 0 }).bytes.length + 4 + 63) / 64) ≤ 42)) ∧
    ((schPort toEnd ↑p5).tx = some (((schPort toEnd ↑p5).tx.getD (0, 0, true)).fst, 42, true) ∧
      (portOf toEnd ↑p5 = some port ∧ (schPort toEnd ↑p5).txFifo * 64 < headLen toEnd ((schPort toEnd ↑p5).tx.getD (0, 0,
        true)).fst) ∧
      ((pktOf toEnd ((schPort toEnd ↑p5).tx.getD (0, 0, true)).fst).isSome = true ∧ ((pktOf toEnd ((schPort toEnd ↑p5).tx.getD (0,
        0, true)).fst).getD packet).edits = [])) := by and_intros <;> decide +kernel

theorem witness_LedgerExact :
    (3 < definedEnd ∧ 70000 ≠ 3) ∧
    (ledger.ldg.running = some cutRun ∧ cutRun.started = true ∧ ((cutRun.freezeTick + if cutRun.req.summary = true then 476 else
      5532) ≤ BitVec.toNat ledger.tmb.tick)) := by and_intros <;> decide +kernel

theorem witness_LedgerCommands :
    ((1#64).getLsbD 0 = true ∧ (1#64).getLsbD 2 = false ∧ ledgerIdle.ldg.scheduled = [] ∧ ledgerIdle.ldg.running = none ∧
      BitVec.toNat ledgerIdle.tmb.tick + CutKind.demand.lead ≤ BitVec.toNat ledgerIdle.ldg.reqTick) ∧
    ((0#64).getLsbD 0 = false) ∧
    (10 ≤ (10#64).toNat % 32 ∧ (10#64).toNat % 32 ≤ 30 ∧
      ((BitVec.toNat ledger.tmb.tick + 2) % 2 ^ ((10#64).toNat % 32) ≠ 0) ∧
      ((BitVec.toNat ledgerDue.tmb.tick + 2) % 2 ^ ((10#64).toNat % 32) = 0 ∧ ledgerDue.ldg.running = none ∧ (∀ (c : CutReq), c ∈
        ledgerDue.ldg.scheduled → c.kind = CutKind.periodic))) ∧
    (((1#64).toNat % 32 < 10 ∨ (1#64).toNat % 32 = 31)) ∧
    (ledger.ldg.running = some cutRun ∧ cutRun.freezeTick + 64 ≤ BitVec.toNat ledger.tmb.tick) ∧
    (tget ledger.ldg.mismatch 2 = some mismatch) ∧
    (tget ledger.ldg.ctrs (3#22).toNat = some ctr) := by and_intros <;> decide +kernel

theorem witness_TickBoundary :
    (releasedOf unclocked 3 = false) ∧
    (releasedOf boundaryStart 3 = true ∧
      (boundaryStart.rst.restarting = false) ∧
      (releasedOf boundaryStart 9 = false ∧ boundaryStart.rst.restarting = false ∧ stepTicks (timeSelect (domainOverdue (beatEnd
        boundaryStart))) = 0)) ∧
    (releasedOf boundaryLate 3 = true ∧ boundaryLate.rst.restarting = true ∧ boundaryLate.rst.restartTick + 200000 ≤ (BitVec.ofNat
      64 (BitVec.toNat boundaryLate.tmb.tick + 1 + stepTicks (timeSelect (domainOverdue (beatEnd boundaryLate))))).toNat) := by and_intros <;> decide +kernel

theorem witness_TimeRegisters :
    ((281474976710663#64).getLsbD 48 = true) ∧
    (timed.tmb.ppsOut = true ∧ timed.tmb.ppsRise + timed.tmb.ppsWidth.toNat ≤ BitVec.toNat timed.tmb.tick) ∧
    (800 ≤ timed.tmb.beat) ∧
    ((timedGood TimeSource.holdover).tmb.selected = TimeSource.holdover ∧ (timedGood TimeSource.holdover).tmb.traceable = true ∧
      BitVec.toNat (timedGood TimeSource.holdover).tmb.maxTicks ≤ BitVec.toNat (timedGood TimeSource.holdover).tmb.elapsed) := by and_intros <;> decide +kernel

theorem witness_TimeSources :
    (clocked.tmb.refPps.lastEdge = some 128000000000 ∧ clocked.tmb.todArmed = false ∧ clocked.tmb.refPps.qualified = false ∧
      clocked.tmb.refPps.edgeTime = none ∧ clocked.tmb.refPps.good = 0 ∧ ((↑(BitVec.toNat clocked.tmb.tick * 32000 + 0) -
      BitVec.toInt clocked.tmb.ppsInDelay - ↑128000000000 - (32000000000 : Int)) * (100 : Int) - (clocked.tmb.slewed -
      clocked.tmb.refPps.edgeSlew)).natAbs ≤ 3200000) ∧
    (clocked.tmb.tickIn.lastEdge = some 159999968000 ∧ clocked.tmb.todArmed = false ∧ clocked.tmb.tickIn.qualified = false ∧
      clocked.tmb.tickIn.edgeTime = none ∧ clocked.tmb.tickIn.good = 15 ∧ ((↑(BitVec.toNat clocked.tmb.tick * 32000 + 0) -
      BitVec.toInt clocked.tmb.tickInDelay - ↑159999968000 - (32000 : Int)) * (100 : Int) - (clocked.tmb.slewed -
      clocked.tmb.tickIn.edgeSlew)).natAbs ≤ 16000) ∧
    ((timedGood TimeSource.holdover).tmb.refPps.qualified = true ∧
      ((timedGood TimeSource.holdover).tmb.selected ≠ TimeSource.refPps) ∧
      ((timedGood TimeSource.holdover).tmb.refPps.lastEdge.isSome = true ∧ (timedGood TimeSource.holdover).tmb.selected ≠
        TimeSource.refPps ∧ (timedGood TimeSource.holdover).tmb.refPps.lastEdge.getD 0 + 1000001 * 32000 ≤ BitVec.toNat (timedGood
        TimeSource.holdover).tmb.tick * 32000 + (timedGood TimeSource.holdover).tmb.beat * 20)) ∧
    ((timedGood TimeSource.refPps).tmb.refPps.qualified = true ∧ (timedGood TimeSource.refPps).tmb.selected = TimeSource.refPps) ∧
    ((timedGood TimeSource.tickIn).tmb.tickIn.qualified = true ∧ (timedGood TimeSource.tickIn).tmb.tickIn.lastEdge.isSome = true ∧
      (timedGood TimeSource.tickIn).tmb.selected = TimeSource.tickIn ∧ (timedGood TimeSource.tickIn).tmb.tickIn.lastEdge.getD 0 +
      64000 ≤ BitVec.toNat (timedGood TimeSource.tickIn).tmb.tick * 32000 + (timedGood TimeSource.tickIn).tmb.beat * 20) ∧
    ((timedGood TimeSource.ptp).tmb.ptp.qualified = true ∧ (timedGood TimeSource.ptp).tmb.selected = TimeSource.ptp) ∧
    (ptpPortOf clocked ↑p5 = some ptpPort ∧
      ((∀ (m : PtpMaster), ptpHeard clocked ptpPort = some m → m.data.sender = announce.sender ∨ announce.better m.data = true)) ∧
      (ptpState clocked ptpPort ≠ PtpState.receiver)) ∧
    (ptpPortOf clockedHears ↑p5 = some ptpPortHears ∧ ptpHeard clockedHears ptpPortHears = some master ∧ master.data.sender ≠
      announceWorse.sender ∧ announceWorse.better master.data = false) ∧
    (ptpPortOf clockedReceives ↑p5 = some ptpPortReceives ∧ ptpState clockedReceives ptpPortReceives = PtpState.receiver ∧
      ptpPortReceives.peerDelay = false ∧ clockedReceives.tmb.ptp.qualified = false) ∧
    ((List.find? (fun p => p.port == ↑p5) clockedReceives.ptp.ports = some ptpPortReceives) ∧ ptpDue clockedReceives ptpPortReceives
      0 = false) ∧
    ((List.find? (fun p => p.port == ↑p5) clockedUp.ptp.ports = some ptpPort) ∧ ptpDue clockedUp ptpPort 0 = true ∧ enqueueReason
      clockedUp ↑p5 = none ∧ (clockedUp.crb.controlUsed + ((ptpFrame ptpPort.transport (0 != 1) (0 == 2 && ptpPort.peerDelay)
      (List.map (fun i => Config.freeBits 8 (clockedUp.free + i)) (List.range 6)) (List.map (fun i => Config.freeBits 8
      (clockedUp.free + 6 + i)) (List.range 16)) (ptpBytes clockedUp ptpPort 0)).fst.length + 4 + 63) / 64 ≤ controlReserve)) := by and_intros <;> decide +kernel

theorem witness_AlarmsRaised :
    (Spec.watching up ∧
      (AlarmKind.mesh ≠ AlarmKind.vbat ∧ (up.sec.alarm AlarmKind.mesh).latched = false ∧ (up.sec.alarm AlarmKind.mesh).policy ≠
        AlarmPolicy.erase) ∧
      (up.sec.vbat.latched = false ∧ up.sec.vbat.policy ≠ AlarmPolicy.erase)) ∧
    (Spec.watching watchErase ∧ AlarmKind.mesh ≠ AlarmKind.vbat ∧ (watchErase.sec.alarm AlarmKind.mesh).latched = false ∧
      (watchErase.sec.alarm AlarmKind.mesh).policy = AlarmPolicy.erase) ∧
    (Spec.watching watchLatched ∧ AlarmKind.mesh ≠ AlarmKind.vbat ∧ (watchLatched.sec.alarm AlarmKind.mesh).latched = true) := by
  unfold Spec.watching
  and_intros <;> decide +kernel

theorem witness_ClockAndSensors :
    (Spec.watching up ∧
      (up.sec.clock.latched = false) ∧
      (¬1 ∈ up.rst.unlocked ∧ 1 ≠ 0 ∧ 1 ≠ 38 ∧ (1 < 16 ∨ 32 ≤ 1))) ∧
    (up.flt.sensors = [] ∧
      ((105#10).toInt ≤ (105 : Int)) ∧
      ((105 : Int) < (106#10).toInt) ∧
      ((105#10).toInt ≤ (115 : Int)) ∧
      ((115 : Int) < (116#10).toInt)) ∧
    (8657043456 ≤ (8657043456#37).toNat ∧ (8657043456#37).toNat < 96636764160 ∧
      (tgetD up.hbmU.errors (hbmChannelOf (8657043456#37).toNat) [] = []) ∧
      ((tgetD busyChannel.hbmU.errors (hbmChannelOf (8657043456#37).toNat) []).length = 15 ∧ (∀ (t : Nat), t ∈ tgetD
        busyChannel.hbmU.errors (hbmChannelOf (8657043456#37).toNat) [] → BitVec.toNat busyChannel.tmb.tick < t + 1000000))) := by
  unfold Spec.watching
  and_intros <;> decide +kernel

theorem witness_FaultReports :
    (releasedOf collecting 9 = true ∧ ¬0 ∈ collecting.rst.unlocked ∧ domMember collecting = false ∧
      (reportUnlisted.listed = false) ∧
      (collecting.flt.inbox = []) ∧
      (reportEcc.listed = true ∧ openRecord collecting.flt.store reportEcc.cls.code reportEcc.subj = none ∧ collecting.flt.overrides
        = [] ∧ reportEcc.cls.row.esc = false ∧ reportEcc.cls.isAlarm = false ∧ collecting.flt.ringLoss = none ∧
        collecting.flt.ring.length < 1024 ∧ reportEcc.level < 3 ∧ 2 < collecting.flt.irqLevel.toNat ∧ collecting.flt.journalLevel =
        (2 : BitVec 3) ∧ (storePlace collecting.flt.store).isSome = true ∧ (storePlace collecting.flt.store).getD 0 < 256)) ∧
    (releasedOf collected 9 = true ∧ ¬0 ∈ collected.rst.unlocked ∧ domMember collected = false ∧ reportEcc.listed = true ∧
      ((openRecord collected.flt.store reportEcc.cls.code reportEcc.subj).isSome = true ∧ (tget collected.flt.store ((openRecord
        collected.flt.store reportEcc.cls.code reportEcc.subj).getD 0)).isSome = true ∧ collected.flt.inbox = [reportEcc]) ∧
      (collected.flt.inbox = [reportEcc] ∧ reportEcc.cap.valid = false)) := by and_intros <;> decide +kernel

theorem witness_FaultAcknowledged :
    releasedOf collected 9 = true ∧
      (fieldN (BitVec.toNat ackReserved) 11 21 ≠ 0) ∧
      (fieldN (BitVec.toNat ackOther) 11 21 = 0 ∧ BitVec.getLsbD ackOther 10 = false ∧ (∀ (x : FaultRecord), (BitVec.toNat ackOther
        % 256, x) ∈ collected.flt.store → x.seq ≠ BitVec.ofNat 32 (BitVec.toNat ackOther / 2 ^ 32))) ∧
      (fieldN (BitVec.toNat ackWord) 8 24 = 0 ∧ collected.flt.store = [(BitVec.toNat ackWord % 256, ((List.head?
        collected.flt.store).getD (0, faultRecord)).snd)] ∧ ((List.head? collected.flt.store).getD (0, faultRecord)).snd.seq =
        BitVec.ofNat 32 (BitVec.toNat ackWord / 2 ^ 32) ∧ ((List.head? collected.flt.store).getD (0, faultRecord)).snd.acked = false
        ∧ 1 ≤ ((List.head? collected.flt.store).getD (0, faultRecord)).snd.level ∧ collected.flt.ringLoss = none ∧
        collected.flt.ring.length < 1024) := by
  have key : ∀ e ∈ collected.flt.store, e.2.seq ≠ BitVec.ofNat 32 (ackOther.toNat / 2 ^ 32) := by decide +kernel
  and_intros <;> first | exact fun _ h => key _ h | decide +kernel

theorem witness_FaultControlsSet :
    (unready.flt.pulseEnd = none) ∧
    ((pulsing 4999999).flt.pulseEnd = some (((pulsing 4999999).flt.pulseEnd.getD (0, 0)).fst, ((pulsing 4999999).flt.pulseEnd.getD
      (0, 0)).snd) ∧ ((pulsing 4999999).flt.pulseEnd.getD (0, 0)).fst * 1600 + ((pulsing 4999999).flt.pulseEnd.getD (0, 0)).snd ≤
      nowBeats (pulsing 4999999)) ∧
    ((pulsing 5000001).flt.pulseEnd = some (((pulsing 5000001).flt.pulseEnd.getD (0, 0)).fst, ((pulsing 5000001).flt.pulseEnd.getD
      (0, 0)).snd) ∧ nowBeats (pulsing 5000001) < ((pulsing 5000001).flt.pulseEnd.getD (0, 0)).fst * 1600 + ((pulsing
      5000001).flt.pulseEnd.getD (0, 0)).snd) ∧
    ((0#64).getLsbD 48 = false) ∧
    (BitVec.getLsbD forceWord 48 = true ∧
      (((pulsing 5000001).hif.deviceReady = true ∧ (pulsing 5000001).rst.testMode = false ∧ (pulsing 5000001).rst.recovery = false ∨
        FaultClass.ofCode (BitVec.toNat forceWord % 65536) = none)) ∧
      ((unready.hif.deviceReady = false ∨ unready.rst.testMode = true ∨ unready.rst.recovery = true) ∧ (FaultClass.ofCode
        (BitVec.toNat forceWord % 65536)).isSome = true)) := by and_intros <;> decide +kernel

theorem witness_FaultJournal :
    ((erasing.flt.ring = [] ∨ 36 ∈ erasing.rst.unlocked ∨ journalSectors erasing < 16 ∨ erasing.flt.erasing = true ∧
      erasing.flt.nextPlace % 512 = 0)) ∧
    (journaling.flt.ring = journaling.flt.ring.head?.getD faultRecord :: journaling.flt.ring.tail ∧ ¬36 ∈ journaling.rst.unlocked ∧
      16 ≤ journalSectors journaling ∧ (journaling.flt.erasing = false ∨ journaling.flt.nextPlace % 512 ≠ 0)) ∧
    (journaling.flt.erasing = false) ∧
    (erasing.flt.erasing = true ∧ 16 ≤ journalSectors erasing) ∧
    ((journaling.flt.resetDue = none ∨ journaling.flt.l4Action = false)) ∧
    ((resetDue 4999999).flt.resetDue = some (((resetDue 4999999).flt.resetDue.getD ((0#32), 0, 0)).fst, ((resetDue
      4999999).flt.resetDue.getD ((0#32), 0, 0)).snd.fst, ((resetDue 4999999).flt.resetDue.getD ((0#32), 0, 0)).snd.snd) ∧ (resetDue
      4999999).flt.l4Action = true ∧ ((resetDue 4999999).flt.resetDue.getD ((0#32), 0, 0)).snd.fst * 1600 + ((resetDue
      4999999).flt.resetDue.getD ((0#32), 0, 0)).snd.snd ≤ nowBeats (resetDue 4999999)) ∧
    ((resetDue 5000001).flt.resetDue = some (((resetDue 5000001).flt.resetDue.getD ((0#32), 0, 0)).fst, ((resetDue
      5000001).flt.resetDue.getD ((0#32), 0, 0)).snd.fst, ((resetDue 5000001).flt.resetDue.getD ((0#32), 0, 0)).snd.snd) ∧ (resetDue
      5000001).flt.l4Action = true ∧ nowBeats (resetDue 5000001) < ((resetDue 5000001).flt.resetDue.getD ((0#32), 0, 0)).snd.fst *
      1600 + ((resetDue 5000001).flt.resetDue.getD ((0#32), 0, 0)).snd.snd) := by and_intros <;> decide +kernel

theorem witness_DeviceResets :
    (Instr.powerOnReset = Instr.powerOnReset ∧ ResetSource.powerOn = ResetSource.powerOn ∨ Instr.powerOnReset = Instr.rstNAssert ∧
      ResetSource.powerOn = ResetSource.rstN ∨ Instr.powerOnReset = Instr.rstSwDeviceReset true ∧ ResetSource.powerOn =
      ResetSource.software) := by and_intros <;> decide +kernel

theorem witness_SupervisorRestart :
    ((Instr.supervisorReset = Instr.supervisorReset ∨ Instr.supervisorReset = Instr.rstSwSupervisorReset) ∧ releasedOf board 6 =
      true ∧ board.rst.restarting = false ∧ board.ptp.enable = false ∧ board.flt.ringLoss = none ∧ board.flt.ring.length < 1024 ∧
      openRecords board.flt.store = []) ∧
    (restarting.rst.restarting = true ∧ restarting.que.admin0.accepted = [] ∧ restarting.que.admin1.accepted = []) ∧
    (releasedOf board 6 = true ∧ board.rst.restarting = false ∧ releasedOf board 9 = true) ∧
    (releasedOf restarting 6 = true ∧ restarting.rst.restarting = true) := by and_intros <;> decide +kernel

theorem witness_StartSequence :
    (powered.rst.inReset = true) ∧
    (1 ≤ (releasing 2).rst.waiting ∧ (releasing 2).rst.waiting ≤ 14 ∧ (releasing 2).rst.inReset = false ∧ releaseHolds (releasing 2)
      (releasing 2).rst.waiting = true ∧ releaseSkipped (releasing 2) (releasing 2).rst.waiting = false) ∧
    (releasedOf unread 5 = true ∧ unread.rst.optRead = false ∧ optionSelect unread = some (((optionSelect unread).getD (options,
      true)).fst, ((optionSelect unread).getD (options, true)).snd)) ∧
    (releasedOf unreadBlank 5 = true ∧ unreadBlank.rst.optRead = false ∧ optionSelect unreadBlank = none) ∧
    (deviceReady powered = true ∧ powered.rst.committed = true ∧ journalOpen powered = true ∧ sectorNext powered 0 < 2048 ∧
      sectorNext powered 1 < 2048) ∧
    (deviceReady epochFull = true ∧ epochFull.rst.committed = true ∧ journalOpen epochFull = true ∧ 2048 ≤ sectorNext epochFull 0) := by and_intros <;> decide +kernel

theorem witness_RegisterWrites :
    (134217728 ≤ (134217728#28).toNat) ∧
    (releasedOf up 1 = true ∧ up.win.pendSup = []) ∧
    (releasedOf guardOpen 1 = true ∧ guardOpen.win.pendSup =
      [{ addr := 2621952, value := (16777221#64), beat := (guardOpen.win.pendSup.head?.getD guardZero).3 }] ∧ nowBeats guardOpen ≤
      (guardOpen.win.pendSup.head?.getD guardZero).3 + 64 ∧ (5#64) ≠ ~~~(16777221#64)) ∧
    (guardLate.win.pendSup = [{ addr := 2621952, value := (16777221#64), beat := (guardLate.win.pendSup.head?.getD guardZero).3 }] ∧
      (guardLate.win.pendSup.head?.getD guardZero).3 + 64 < nowBeats guardLate) ∧
    (guardOpen.win.pendSup = [{ addr := 2621952, value := (16777221#64), beat := (guardOpen.win.pendSup.head?.getD guardZero).3 }] ∧
      nowBeats guardOpen ≤ (guardOpen.win.pendSup.head?.getD guardZero).3 + 64) := by and_intros <;> decide +kernel

theorem witness_CipherProcess :
    ((ctxOf unservedDisk (3#18).toNat).queue = reqDisk :: (ctxOf unservedDisk (3#18).toNat).queue.tail ∧ uncoveredCtx unservedDisk
      (3#18).toNat = true ∧ (ctxOf unservedDisk (3#18).toNat).state = CtxState.active ∧ reqDisk.disk.isSome = true) ∧
    ((ctxOf unservedPlain (3#18).toNat).queue = reqPlain :: (ctxOf unservedPlain (3#18).toNat).queue.tail ∧ uncoveredCtx
      unservedPlain (3#18).toNat = true ∧ (ctxOf unservedPlain (3#18).toNat).state = CtxState.active ∧ reqPlain.disk = none ∧
      channelIdle unservedPlain reqPlain.channel = false ∧ channelOf unservedPlain reqPlain.channel = some channel ∧
      channel.bind.pooled = false) ∧
    ((ctxOf servedRandom (3#18).toNat).queue = reqRandom :: (ctxOf servedRandom (3#18).toNat).queue.tail ∧ uncoveredCtx servedRandom
      (3#18).toNat = false ∧ requestEligible ((ctxPool servedRandom (3#18).toNat).elim servedRandom (slabTurns servedRandom))
      (3#18).toNat reqRandom = true ∧ rqRandom reqRandom.words = true ∧ servedRandom.kvl.rng ≠ RngState.ready) ∧
    ((ctxOf servedPlain (3#18).toNat).queue = reqPlain :: (ctxOf servedPlain (3#18).toNat).queue.tail ∧ uncoveredCtx servedPlain
      (3#18).toNat = false ∧ requestEligible ((ctxPool servedPlain (3#18).toNat).elim servedPlain (slabTurns servedPlain))
      (3#18).toNat reqPlain = true ∧ (rqRandom reqPlain.words = true → servedPlain.kvl.rng = RngState.ready) ∧ rqRanges
      reqPlain.words = [] ∧ rqCounts reqPlain.words = false ∧ requestWhole (requestTake ((ctxPool servedPlain (3#18).toNat).elim
      servedPlain (slabTurns servedPlain)) (3#18).toNat reqPlain).fst = true) ∧
    ((ctxOf servedPart (3#18).toNat).queue = reqTwo :: (ctxOf servedPart (3#18).toNat).queue.tail ∧ uncoveredCtx servedPart
      (3#18).toNat = false ∧ requestEligible ((ctxPool servedPart (3#18).toNat).elim servedPart (slabTurns servedPart)) (3#18).toNat
      reqTwo = true ∧ (rqRandom reqTwo.words = true → servedPart.kvl.rng = RngState.ready) ∧ rqRanges reqTwo.words = [] ∧ rqCounts
      reqTwo.words = false ∧ requestWhole (requestTake ((ctxPool servedPart (3#18).toNat).elim servedPart (slabTurns servedPart))
      (3#18).toNat reqTwo).fst = false) ∧
    ((ctxOf servedCounts (3#18).toNat).queue = reqCounts :: (ctxOf servedCounts (3#18).toNat).queue.tail ∧ uncoveredCtx servedCounts
      (3#18).toNat = false ∧ requestEligible ((ctxPool servedCounts (3#18).toNat).elim servedCounts (slabTurns servedCounts))
      (3#18).toNat reqCounts = true ∧ (rqRandom reqCounts.words = true → servedCounts.kvl.rng = RngState.ready) ∧ rqRanges
      reqCounts.words = [] ∧ rqCounts reqCounts.words = true ∧ tget servedCounts.cph.cache (3#18).toNat = some cacheCounts ∧
      counterReady cacheCounts = some (countedValue, cacheCounted) ∧ requestWhole (requestTake ((ctxPool servedCounts
      (3#18).toNat).elim servedCounts (slabTurns servedCounts)) (3#18).toNat reqCounts).fst = true) := by and_intros <;> decide +kernel

set_option maxRecDepth 4000 in
theorem witness_CipherUpkeep :
    ((outputting []).sto.xtsEnds = [] ∧ (∀ (c : IoCmd), c ∈ (outputting []).sto.cmds → c.stage ≠ IoStage.xts)) ∧
    (outputtingDisk.cph.outputs = [diskOutput] ∧ diskOutput.due ≤ nowBeats outputtingDisk ∧ diskOutput.req.pkt = none ∧
      diskOutput.req.disk.isSome = true ∧ diskOutput.retry = false) ∧
    ((outputting [(12884901888, [(1 : Byte), (2 : Byte), (3 : Byte)])]).cph.outputs = [cipherOutput] ∧ cipherOutput.due ≤ nowBeats
      (outputting [(12884901888, [(1 : Byte), (2 : Byte), (3 : Byte)])]) ∧ cipherOutput.req.pkt = none ∧ cipherOutput.req.disk =
      none ∧ channelIdle (outputting [(12884901888, [(1 : Byte), (2 : Byte), (3 : Byte)])]) cipherOutput.req.channel = false ∧
      inFlight (outputting [(12884901888, [(1 : Byte), (2 : Byte), (3 : Byte)])]) cipherOutput.req.channel = false ∧ channelOf
      (outputting [(12884901888, [(1 : Byte), (2 : Byte), (3 : Byte)])]) cipherOutput.req.channel = some (Channel.bound
      pooledBinding) ∧ (Channel.bound pooledBinding).bind.pooled = true) ∧
    ((ctxOf uncached (3#18).toNat).state = CtxState.active ∧ (ctxOf uncached (3#18).toNat).queue ≠ [] ∧ tget uncached.cph.cache
      (3#18).toNat = none ∧ uncached.kvl.erasing = false ∧ uncached.cph.enabled = true ∧ List.length uncached.cph.cache < 4096 ∧
      loadFirst uncached (3#18).toNat = true ∧ uncached.cph.loadsTick < 128) ∧
    ((ctxOf loadsSpent (3#18).toNat).state = CtxState.active ∧ (ctxOf loadsSpent (3#18).toNat).queue ≠ [] ∧ tget
      loadsSpent.cph.cache (3#18).toNat = none ∧ loadsSpent.kvl.erasing = false ∧ loadsSpent.cph.enabled = true ∧ (loadFirst
      loadsSpent (3#18).toNat = false ∨ 128 ≤ loadsSpent.cph.loadsTick)) ∧
    ((ctxOf cacheFull (3#18).toNat).state = CtxState.active ∧ (ctxOf cacheFull (3#18).toNat).queue ≠ [] ∧ tget cacheFull.cph.cache
      (3#18).toNat = none ∧ cacheFull.kvl.erasing = false ∧ cacheFull.cph.enabled = true ∧ 4096 ≤ List.length cacheFull.cph.cache ∧
      (∀ (x : Nat × CacheEntry), x ∈ cacheFull.cph.cache → x.snd.pinned = true)) ∧
    ((ctxOf contextPlain (3#18).toNat).state = CtxState.active ∧ tget contextPlain.cph.cache (3#18).toNat = some cacheEntry ∧
      cacheEntry.block = none ∧ cacheEntry.nextBlock = none ∧ contextPlain.mir.pair.mode = 0 ∧ (ctxOf contextPlain
      (3#18).toNat).ctrHwm + 2 ^ 20 ≤ 2 ^ 64 ∧ contextPlain.cph.allocsTick < 32) ∧
    ((ctxOf allocsSpent (3#18).toNat).state = CtxState.active ∧ tget allocsSpent.cph.cache (3#18).toNat = some cacheEntry ∧ (32 ≤
      allocsSpent.cph.allocsTick ∨ cacheEntry.nextBlock ≠ none)) ∧
    (5 ∈ unitLost.cph.lost) ∧
    (¬5 ∈ (outputting []).cph.lost) := by and_intros <;> decide +kernel

theorem witness_RandomAndErase :
    (rngStarting.kvl.rng ≠ RngState.ready ∧
      (rngStarting.kvl.erasing = false ∧ releasedOf rngStarting 2 = true) ∧
      (releasedOf rngStarting 2 = true ∧ rngStarting.kvl.startTick + 10000 ≤ BitVec.toNat rngStarting.tmb.tick)) ∧
    (rngEarly.kvl.rng ≠ RngState.ready ∧ releasedOf rngEarly 2 = true ∧ BitVec.toNat rngEarly.tmb.tick < rngEarly.kvl.startTick +
      10000) ∧
    (releasedOf rngStarting 2 = true) ∧
    (rngGood.kvl.rng = RngState.ready ∧ (1048576 ≤ rngGood.kvl.calls.toNat ∨ rngGood.kvl.reseedTick + 1000000 ≤ BitVec.toNat
      rngGood.tmb.tick)) ∧
    (rngFresh.kvl.rng = RngState.ready ∧ rngFresh.kvl.calls.toNat < 1048576 ∧ BitVec.toNat rngFresh.tmb.tick <
      rngFresh.kvl.reseedTick + 1000000) ∧
    (erasingKeys.kvl.erasing = true) := by and_intros <;> decide +kernel

theorem witness_QueueFetch :
    (queueOf (queued sending) (5#16).toNat = some sending ∧
      (sending.kind ≠ QueueKind.event ∧
        (BitVec.toNat ((36#16) - sending.head) ≤ 2 ^ sending.sizeLog2) ∧
        (2 ^ sending.sizeLog2 < BitVec.toNat ((5#16) - sending.head))) ∧
      ((queued sending).sltQue.row 0 = [((queued sending).sltQue.row 0).head?.getD (0#64)] ∧ entryKind (((queued sending).sltQue.row
        0).head?.getD (0#64)) = 1 ∧ entryChannel (((queued sending).sltQue.row 0).head?.getD (0#64)) = (5#16).toNat ∧ entryStart
        (((queued sending).sltQue.row 0).head?.getD (0#64)) ≤ 3 ∧ 3 < entryStart (((queued sending).sltQue.row 0).head?.getD (0#64))
        + entryLength (((queued sending).sltQue.row 0).head?.getD (0#64)) ∧ sending.state = QueueState.enabled ∧ sending.kind ≠
        QueueKind.event ∧ epOf (BitVec.toNat sending.fn) = 0 ∧ fnRuns (queued sending) (BitVec.toNat sending.fn) = true ∧
        sending.fetching = [] ∧ (sending.kind = QueueKind.send → (queued sending).sch.hostStopped = false ∧ slicePaused (queued
        sending) sending.slice = false) ∧ (0 < min (min (BitVec.toNat (sending.producer - sending.head) - BitVec.toNat
        (sending.fetched - sending.head)) (2 ^ sending.sizeLog2 - (BitVec.toNat (sending.fetched - sending.head) + BitVec.toNat
        (sending.completions - sending.consumer)))) (min (256 / if sending.kind = QueueKind.send then 64 else 8) (2 ^
        sending.sizeLog2 - BitVec.toNat sending.fetched % 2 ^ sending.sizeLog2)) ∧ shedRoom (queued sending) (min (min (BitVec.toNat
        (sending.producer - sending.head) - BitVec.toNat (sending.fetched - sending.head)) (2 ^ sending.sizeLog2 - (BitVec.toNat
        (sending.fetched - sending.head) + BitVec.toNat (sending.completions - sending.consumer)))) (min (256 / if sending.kind =
        QueueKind.send then 64 else 8) (2 ^ sending.sizeLog2 - BitVec.toNat sending.fetched % 2 ^ sending.sizeLog2)) * if
        sending.kind = QueueKind.send then 64 else 8) = true))) ∧
    (queueOf (queued sendingDrawn) (5#16).toNat = some sendingDrawn ∧ (queued sendingDrawn).sltQue.row 0 = [((queued
      sendingDrawn).sltQue.row 0).head?.getD (0#64)] ∧ entryKind (((queued sendingDrawn).sltQue.row 0).head?.getD (0#64)) = 1 ∧
      entryChannel (((queued sendingDrawn).sltQue.row 0).head?.getD (0#64)) = (5#16).toNat ∧ entryStart (((queued
      sendingDrawn).sltQue.row 0).head?.getD (0#64)) ≤ 3 ∧ 3 < entryStart (((queued sendingDrawn).sltQue.row 0).head?.getD (0#64)) +
      entryLength (((queued sendingDrawn).sltQue.row 0).head?.getD (0#64)) ∧ sendingDrawn.state = QueueState.enabled ∧
      sendingDrawn.kind ≠ QueueKind.event ∧ epOf (BitVec.toNat sendingDrawn.fn) = 0 ∧ fnRuns (queued sendingDrawn) (BitVec.toNat
      sendingDrawn.fn) = true ∧ sendingDrawn.fetching = [] ∧ (sendingDrawn.kind = QueueKind.send → (queued
      sendingDrawn).sch.hostStopped = false ∧ slicePaused (queued sendingDrawn) sendingDrawn.slice = false) ∧ (min (min
      (BitVec.toNat (sendingDrawn.producer - sendingDrawn.head) - BitVec.toNat (sendingDrawn.fetched - sendingDrawn.head)) (2 ^
      sendingDrawn.sizeLog2 - (BitVec.toNat (sendingDrawn.fetched - sendingDrawn.head) + BitVec.toNat (sendingDrawn.completions -
      sendingDrawn.consumer)))) (min (256 / if sendingDrawn.kind = QueueKind.send then 64 else 8) (2 ^ sendingDrawn.sizeLog2 -
      BitVec.toNat sendingDrawn.fetched % 2 ^ sendingDrawn.sizeLog2)) = 0 ∨ shedRoom (queued sendingDrawn) (min (min (BitVec.toNat
      (sendingDrawn.producer - sendingDrawn.head) - BitVec.toNat (sendingDrawn.fetched - sendingDrawn.head)) (2 ^
      sendingDrawn.sizeLog2 - (BitVec.toNat (sendingDrawn.fetched - sendingDrawn.head) + BitVec.toNat (sendingDrawn.completions -
      sendingDrawn.consumer)))) (min (256 / if sendingDrawn.kind = QueueKind.send then 64 else 8) (2 ^ sendingDrawn.sizeLog2 -
      BitVec.toNat sendingDrawn.fetched % 2 ^ sendingDrawn.sizeLog2)) * if sendingDrawn.kind = QueueKind.send then 64 else 8) =
      false)) ∧
    (queueOf (queued eventing) (5#16).toNat = some eventing ∧ (queued eventing).sltQue.row 0 = [((queued eventing).sltQue.row
      0).head?.getD (0#64)] ∧ entryKind (((queued eventing).sltQue.row 0).head?.getD (0#64)) = 1 ∧ entryChannel (((queued
      eventing).sltQue.row 0).head?.getD (0#64)) = (5#16).toNat ∧ (eventing.state ≠ QueueState.enabled ∨ eventing.kind =
      QueueKind.event ∨ epOf (BitVec.toNat eventing.fn) ≠ 0 ∨ fnRuns (queued eventing) (BitVec.toNat eventing.fn) = false ∨
      eventing.kind = QueueKind.send ∧ ((queued eventing).sch.hostStopped = true ∨ slicePaused (queued eventing) eventing.slice =
      true))) ∧
    (queueOf (queued receivingRead) (5#16).toNat = some receivingRead ∧ receivingRead.fetching = [(1, true)] ∧
      receivingRead.disabling = [] ∧
      (receivingRead.kind ≠ QueueKind.send) ∧
      ((schQueue (queued receivingRead) (8192 + (5#16).toNat)).frames = [] ∧ (schPort (queued receivingRead) (512 + epOf
        (BitVec.toNat receivingRead.fn))).tx = none)) ∧
    (queueOf (queued sendingRead) (5#16).toNat = some sendingRead ∧ sendingRead.fetching = [(1, true)] ∧ sendingRead.disabling = []
      ∧ sendingRead.kind = QueueKind.send ∧ sendWellFormed sendingRead.features (slice sendDesc 0 64) = true) ∧
    (queueOf (queued sendingFrame) (5#16).toNat = some sendingFrame ∧ sendingFrame.kind = QueueKind.send ∧ sendingFrame.stale = 0 ∧
      sendingFrame.work = [sendWork] ∧ sendWork.read = false ∧ sendSegment sendWork.bytes = false ∧ sendCsum sendWork.bytes = false
      ∧ sendDesc.length = sendLength sendWork.bytes ∧ (queued sendingFrame).crb.waiting = [] ∧ (injectQueue (queued sendingFrame)
      sendingFrame.slice).length < 4096 ∧ ↑(crumbsOf (sendDesc.length + 4)) ≤ sharedFree (queued sendingFrame) ∧ (queued
      sendingFrame).sch.hostStopped = false) := by and_intros <;> decide +kernel

theorem witness_QueueDelivery :
    (queueOf delivering (5#16).toNat = some receivingPosted ∧ receivingPosted.state = QueueState.enabled ∧ receivingPosted.dma = []
      ∧ (∃ l, (schPort delivering (512 + epOf (BitVec.toNat receivingPosted.fn))).tx = some (0, 8192 + (5#16).toNat, l)) ∧ pktOf
      delivering 0 = some packetHost ∧ BitVec.ofNat 16 packetHost.gen = genOf delivering (BitVec.toNat receivingPosted.fn) ∧ fnRuns
      delivering (BitVec.toNat receivingPosted.fn) = true ∧ (((if packetHost.icing.isSome = true then packetHost.bytes.length + 32
      else (egressEdit delivering.app.parse packetHost (nowStamp delivering)).bytes.length) + max 1 receivingPosted.bufSize - 1) /
      max 1 receivingPosted.bufSize ≤ receivingPosted.work.length)) ∧
    (queueOf deliveringSmall (5#16).toNat = some receivingSmall ∧ receivingSmall.state = QueueState.enabled ∧ receivingSmall.dma =
      [] ∧ (∃ l, (schPort deliveringSmall (512 + epOf (BitVec.toNat receivingSmall.fn))).tx = some (0, 8192 + (5#16).toNat, l)) ∧
      pktOf deliveringSmall 0 = some packetHost ∧ BitVec.ofNat 16 packetHost.gen = genOf deliveringSmall (BitVec.toNat
      receivingSmall.fn) ∧ fnRuns deliveringSmall (BitVec.toNat receivingSmall.fn) = true ∧ (receivingSmall.work.length < ((if
      packetHost.icing.isSome = true then packetHost.bytes.length + 32 else (egressEdit deliveringSmall.app.parse packetHost
      (nowStamp deliveringSmall)).bytes.length) + max 1 receivingSmall.bufSize - 1) / max 1 receivingSmall.bufSize)) ∧
    (queueOf completing (5#16).toNat = some receivingDma ∧ receivingDma.dma = [rxDma] ∧ receivingDma.disabling = [] ∧ rxDma.live =
      true ∧ rxDma.gen = genOf completing (BitVec.toNat receivingDma.fn) ∧ rxDma.buffers = [20] ∧ pktOf completing rxDma.pkt = some
      packetHost ∧ packetHost.sendFrom = none ∧ fnRuns completing (BitVec.toNat receivingDma.fn) = true) ∧
    (eventQueue eventPending = some (5, eventing) ∧ queueOf eventPending 5 = some eventing ∧ eventPending.que.events = [hostEvent0]
      ∧ hostEvent0.type = EventType.fault ∧ fnRuns eventPending (BitVec.toNat eventing.fn) = true ∧ adminPending eventPending =
      true) ∧
    (eventQueue (eventful eventing) = some (5, eventing) ∧ queueOf (eventful eventing) 5 = some eventing ∧ (eventful
      eventing).que.events = [hostEvent0] ∧ hostEvent0.type = EventType.fault ∧ fnRuns (eventful eventing) (BitVec.toNat
      eventing.fn) = true ∧ adminPending (eventful eventing) = false ∧ BitVec.toNat (eventing.completions - eventing.consumer) < 2 ^
      eventing.sizeLog2) ∧
    (eventQueue (eventful eventingFull) = some (5, eventingFull) ∧ queueOf (eventful eventingFull) 5 = some eventingFull ∧ (eventful
      eventingFull).que.events = [hostEvent0] ∧ hostEvent0.type = EventType.fault ∧ fnRuns (eventful eventingFull) (BitVec.toNat
      eventingFull.fn) = true ∧ 2 ^ eventingFull.sizeLog2 ≤ BitVec.toNat (eventingFull.completions - eventingFull.consumer)) ∧
    (adminFetches administered 0 = true ∧ leAt queryEntry 0 1 ∈ adminOpcodes) ∧
    (4 ≤ fieldN (133121#64).toNat 8 4 ∧ fieldN (133121#64).toNat 8 4 ≤ 12 ∧ 2 ≤ fieldN (133121#64).toNat 16 11 ∧ (133121#64).getLsbD
      0 = true ∧ delivering.que.admin1.enable = false) := by and_intros <;> decide +kernel

theorem witness_AdminQueueCommands :
    (Spec.admits administered 0 1 true [(20, 31), (52, 12)] createSend ∧ createQueueOk administered createSend = true ∧ fnReady
      administered (leAt createSend 4 2) = true ∧ kindAllowed administered (leAt createSend 4 2) (kindOfCode (leAt createSend 24 1))
      = true ∧ idAllowed administered (leAt createSend 4 2) (leAt createSend 20 2) = true ∧ tenantAllowed administered (leAt
      createSend 4 2) (leAt createSend 46 2) (kindOfCode (leAt createSend 24 1)) = true ∧ (leAt createSend 44 2 = 65535 ∨ leAt
      createSend 44 2 < msixSize administered (leAt createSend 4 2)) ∧ (createQueueProof administered createSend).status = 0 ∧
      queueIdUsed administered (leAt createSend 20 2) = false ∧ (∀ (j : Nat), j ∈ queuesOf administered (leAt createSend 4 2) → ∀ (x
      : HostQueue), queueOf administered j = some x → x.loc ≠ leAt createSend 22 2) ∧ (kindOfCode (leAt createSend 24 1) =
      QueueKind.event → ∀ (e : Nat × HostQueue), e ∈ administered.que.queues → e.snd.kind = QueueKind.event → epOf (BitVec.toNat
      e.snd.fn) ≠ epOf (leAt createSend 4 2)) ∧ pairsInUse administered < 65536) ∧
    (queueOf administered (leAt (queueEntry 2) 20 2) = none ∧ Spec.admits administered 0 2 true [(20, 2)] (queueEntry 2)) ∧
    (queueOf administered (leAt (queueEntry 3) 20 2) = none ∧ Spec.admits administered 0 3 true [(20, 2)] (queueEntry 3)) ∧
    (queueOf administered (leAt (queueEntry 4) 20 2) = none ∧ Spec.admits administered 0 4 true [(20, 2)] (queueEntry 4)) ∧
    ((queueOf (adminWith sendingOff) (leAt (queueEntry 2) 20 2)).isSome = true ∧ ((queueOf (adminWith sendingOff) (leAt (queueEntry
      2) 20 2)).getD sending).disabling = [] ∧ ((queueOf (adminWith sendingOff) (leAt (queueEntry 2) 20 2)).getD sending).dma = [] ∧
      (adminWith sendingOff).crb.waiting = [] ∧ (schQueue (adminWith sendingOff) (8192 + leAt (queueEntry 2) 20 2)).frames = [] ∧
      (schPort (adminWith sendingOff) (512 + epOf (BitVec.toNat ((queueOf (adminWith sendingOff) (leAt (queueEntry 2) 20 2)).getD
      sending).fn))).tx = none ∧ Spec.admits (adminWith sendingOff) 0 2 true [(20, 2)] (queueEntry 2) ∧ ((queueOf (adminWith
      sendingOff) (leAt (queueEntry 2) 20 2)).getD sending).state ≠ QueueState.enabled) ∧
    ((queueOf (adminWith sending) (leAt (queueEntry 2) 20 2)).isSome = true ∧ ((queueOf (adminWith sending) (leAt (queueEntry 2) 20
      2)).getD sending).disabling = [] ∧ ((queueOf (adminWith sending) (leAt (queueEntry 2) 20 2)).getD sending).dma = [] ∧
      (adminWith sending).crb.waiting = [] ∧ (schQueue (adminWith sending) (8192 + leAt (queueEntry 2) 20 2)).frames = [] ∧ (schPort
      (adminWith sending) (512 + epOf (BitVec.toNat ((queueOf (adminWith sending) (leAt (queueEntry 2) 20 2)).getD sending).fn))).tx
      = none ∧ Spec.admits (adminWith sending) 0 2 true [(20, 2)] (queueEntry 2) ∧ ((queueOf (adminWith sending) (leAt (queueEntry
      2) 20 2)).getD sending).state = QueueState.enabled) ∧
    ((queueOf (adminWith sending) (leAt (queueEntry 3) 20 2)).isSome = true ∧ ((queueOf (adminWith sending) (leAt (queueEntry 3) 20
      2)).getD sending).disabling = [] ∧ ((queueOf (adminWith sending) (leAt (queueEntry 3) 20 2)).getD sending).dma = [] ∧
      (adminWith sending).crb.waiting = [] ∧ (schQueue (adminWith sending) (8192 + leAt (queueEntry 3) 20 2)).frames = [] ∧ (schPort
      (adminWith sending) (512 + epOf (BitVec.toNat ((queueOf (adminWith sending) (leAt (queueEntry 3) 20 2)).getD sending).fn))).tx
      = none ∧ Spec.admits (adminWith sending) 0 3 true [(20, 2)] (queueEntry 3) ∧ ((queueOf (adminWith sending) (leAt (queueEntry
      3) 20 2)).getD sending).state = QueueState.enabled) ∧
    ((queueOf (adminWith sendingOff) (leAt (queueEntry 3) 20 2)).isSome = true ∧ ((queueOf (adminWith sendingOff) (leAt (queueEntry
      3) 20 2)).getD sending).disabling = [] ∧ ((queueOf (adminWith sendingOff) (leAt (queueEntry 3) 20 2)).getD sending).dma = [] ∧
      (adminWith sendingOff).crb.waiting = [] ∧ (schQueue (adminWith sendingOff) (8192 + leAt (queueEntry 3) 20 2)).frames = [] ∧
      (schPort (adminWith sendingOff) (512 + epOf (BitVec.toNat ((queueOf (adminWith sendingOff) (leAt (queueEntry 3) 20 2)).getD
      sending).fn))).tx = none ∧ Spec.admits (adminWith sendingOff) 0 3 true [(20, 2)] (queueEntry 3) ∧ ((queueOf (adminWith
      sendingOff) (leAt (queueEntry 3) 20 2)).getD sending).state ≠ QueueState.enabled) ∧
    ((queueOf (adminWith sending) (leAt (queueEntry 4) 20 2)).isSome = true ∧ ((queueOf (adminWith sending) (leAt (queueEntry 4) 20
      2)).getD sending).disabling = [] ∧ ((queueOf (adminWith sending) (leAt (queueEntry 4) 20 2)).getD sending).dma = [] ∧
      (adminWith sending).crb.waiting = [] ∧ (schQueue (adminWith sending) (8192 + leAt (queueEntry 4) 20 2)).frames = [] ∧ (schPort
      (adminWith sending) (512 + epOf (BitVec.toNat ((queueOf (adminWith sending) (leAt (queueEntry 4) 20 2)).getD sending).fn))).tx
      = none ∧ Spec.admits (adminWith sending) 0 4 true [(20, 2)] (queueEntry 4) ∧ (((queueOf (adminWith sending) (leAt (queueEntry
      4) 20 2)).getD sending).kind = QueueKind.send → ((queueOf (adminWith sending) (leAt (queueEntry 4) 20 2)).getD sending).work =
      []) ∧ ((queueOf (adminWith sending) (leAt (queueEntry 4) 20 2)).getD sending).fetching = [] ∧ ((queueOf (adminWith sending)
      (leAt (queueEntry 4) 20 2)).getD sending).held = [] ∧ ((queueOf (adminWith sending) (leAt (queueEntry 4) 20 2)).getD
      sending).stale = 0) ∧
    ((queueOf (adminWith sendingRead) (leAt (queueEntry 4) 20 2)).isSome = true ∧ ((queueOf (adminWith sendingRead) (leAt
      (queueEntry 4) 20 2)).getD sending).disabling = [] ∧ ((queueOf (adminWith sendingRead) (leAt (queueEntry 4) 20 2)).getD
      sending).dma = [] ∧ (adminWith sendingRead).crb.waiting = [] ∧ (schQueue (adminWith sendingRead) (8192 + leAt (queueEntry 4)
      20 2)).frames = [] ∧ (schPort (adminWith sendingRead) (512 + epOf (BitVec.toNat ((queueOf (adminWith sendingRead) (leAt
      (queueEntry 4) 20 2)).getD sending).fn))).tx = none ∧ Spec.admits (adminWith sendingRead) 0 4 true [(20, 2)] (queueEntry 4) ∧
      ((queueOf (adminWith sendingRead) (leAt (queueEntry 4) 20 2)).getD sending).fetching ≠ []) ∧
    ((queueOf (adminWith sending) (leAt (queueEntry 5) 20 2)).isSome = true ∧ Spec.admits (adminWith sending) 0 5 true [(20, 2)]
      (queueEntry 5)) := by
  unfold Spec.admits
  and_intros <;> decide +kernel

theorem witness_AdminFunctions :
    ((funcOf vfFree (leAt createVfEntry 4 2)).isSome = true ∧ Spec.admits vfFree 0 8 true [(20, 20)] createVfEntry ∧ createVfOk
      createVfEntry = true ∧ pfNum (leAt createVfEntry 4 2) = 1 ∧ vfFree.que.pools.pools[leAt createVfEntry 20 2]? = some pool ∧
      fnExists vfFree (leAt createVfEntry 4 2) = true ∧ ((funcOf vfFree (leAt createVfEntry 4 2)).getD func).grant = none ∧ poolFits
      pool createVfEntry = true ∧ leAt createVfEntry 32 8 = 0 ∧ grantsOf vfFree = [] ∧ leAt createVfEntry 30 2 ≤ pool.vectors ∧
      queuesOf vfFree (leAt createVfEntry 4 2) = []) ∧
    ((funcOf vfGranted (leAt destroyVfEntry 4 2)).isSome = true ∧ Spec.admits vfGranted 0 9 true [] destroyVfEntry ∧ isVf (leAt
      destroyVfEntry 4 2) = true ∧ pfNum (leAt destroyVfEntry 4 2) = 1 ∧ ((funcOf vfGranted (leAt destroyVfEntry 4 2)).getD
      func).grant = some grant ∧ ((funcOf vfGranted (leAt destroyVfEntry 4 2)).getD func).storageIndex = none ∧ queuesOf vfGranted
      (leAt destroyVfEntry 4 2) = []) ∧
    ((funcOf vfFree (leAt queryFunctionEntry 4 2)).isSome = true ∧ Spec.admits vfFree 0 10 true [] queryFunctionEntry ∧ fnExists
      vfFree (leAt queryFunctionEntry 4 2) = true ∧ queuesOf vfFree (leAt queryFunctionEntry 4 2) = [] ∧ pfNum (leAt
      queryFunctionEntry 4 2) ≠ 0) := by
  unfold Spec.admits
  and_intros <;> decide +kernel

theorem witness_AdminSlotCommands :
    (Spec.admits hostedRunning 0 17 false [] demandEntry ∧ demandBytesOk (adminData demandEntry demandData) = true ∧ newDemand =
      demandOf (adminData demandEntry demandData) ∧ newDemand.spares = hostedRunning.app.demand.spares ∧ ((proofChange hostedRunning
      (fun c => { c with demand := newDemand }) [11, 12, 13, 14, 15, 16]).status = 0)) ∧
    (Spec.admits hostedRunning 0 18 false [] bindEntry ∧ bindOk bindData bindEntry = true ∧ bound9 = bindingOf (adminData bindEntry
      bindData) ∧ (∀ (y : Binding), y ∈ bindingsNow hostedRunning → y.channel ≠ bound9.channel) ∧ bindFits hostedRunning bound9 =
      true ∧ ((proofChange hostedRunning (fun c => { c with bindings := c.bindings ++ [bound9] }) [7, 9, 11, 14]).status = 0)) ∧
    (Spec.admits hostedRunning 0 19 false [(20, 4)] unbindEntry ∧ leAt unbindEntry 20 4 ≤ 16777214 ∧ (∃ y, y ∈ bindingsNow
      hostedRunning ∧ y.channel = leAt unbindEntry 20 4) ∧ ((proofChange hostedRunning (fun c =>
      { c with bindings := List.filter (fun y => decide (y.channel ≠ leAt unbindEntry 20 4)) c.bindings }) [9, 11, 14]).status = 0))
      ∧
    (Spec.admits hostedRunning 0 20 false [(20, 7)] sendEntry ∧ sendToChannelOk sendData sendEntry = true ∧ (channelOf hostedRunning
      (leAt sendEntry 20 4)).isSome = true ∧ ((channelOf hostedRunning (leAt sendEntry 20 4)).getD channel).bind.inbox.isSome = true
      ∧ ((channelOf hostedRunning (leAt sendEntry 20 4)).getD channel).inbox.length + ((channelOf hostedRunning (leAt sendEntry 20
      4)).getD channel).held.length < 8) ∧
    (Spec.admits hostedFull 0 20 false [(20, 7)] sendEntry ∧ sendToChannelOk sendData sendEntry = true ∧ (channelOf hostedFull (leAt
      sendEntry 20 4)).isSome = true ∧ ((channelOf hostedFull (leAt sendEntry 20 4)).getD channel).bind.inbox.isSome = true ∧ 8 ≤
      ((channelOf hostedFull (leAt sendEntry 20 4)).getD channel).inbox.length + ((channelOf hostedFull (leAt sendEntry 20 4)).getD
      channel).held.length) ∧
    (Spec.admits hostedRunning 0 21 false [(20, 2), (24, 2)] minEntry ∧ leAt minEntry 20 2 ≤ 4095 ∧ portMapped hostedRunning (leAt
      minEntry 20 2 / 8) = true ∧ ((proofChange
      { hostedRunning with sch := { hostedRunning.sch with minDue := tset hostedRunning.sch.minDue (leAt minEntry 20 2) (leAt minEntry 24 2) } }
      (fun c => c) [17]).status = 0)) ∧
    (Spec.admits hostedRunning 0 22 false [(20, 8)] metersEntry ∧ setMetersOk meterData metersEntry = true ∧ leAt metersEntry 20 4 +
      leAt metersEntry 24 4 ≤ 1048576) := by
  unfold Spec.admits
  and_intros <;> decide +kernel

theorem witness_AdminPortCommands :
    (Spec.admits (adminPort portSafe) 0 32 false [(20, 3)] (portEntry 0) ∧ (portOf (adminPort portSafe) (leAt (portEntry 0) 20
      2)).isSome = true ∧ leAt (portEntry 0) 22 1 = 0 ∧ ((portOf (adminPort portSafe) (leAt (portEntry 0) 20 2)).getD port).state ∈
      [PortState.test, PortState.safe, PortState.offline]) ∧
    (Spec.admits (adminPort portDrains) 0 32 false [(20, 3)] (portEntry 0) ∧ (portOf (adminPort portDrains) (leAt (portEntry 0) 20
      2)).isSome = true ∧ leAt (portEntry 0) 22 1 = 0 ∧ ¬((portOf (adminPort portDrains) (leAt (portEntry 0) 20 2)).getD port).state
      ∈ [PortState.test, PortState.safe, PortState.offline] ∧ ((portOf (adminPort portDrains) (leAt (portEntry 0) 20 2)).getD
      port).drain = some (DrainKind.adminDown, 5)) ∧
    (Spec.admits (adminPort port) 0 32 false [(20, 3)] (portEntry 0) ∧ (portOf (adminPort port) (leAt (portEntry 0) 20 2)).isSome =
      true ∧ leAt (portEntry 0) 22 1 = 0 ∧ ¬((portOf (adminPort port) (leAt (portEntry 0) 20 2)).getD port).state ∈ [PortState.test,
      PortState.safe, PortState.offline] ∧ ((portOf (adminPort port) (leAt (portEntry 0) 20 2)).getD port).drain = none) ∧
    (Spec.admits (adminPort portSafe) 0 32 false [(20, 3)] (portEntry 1) ∧ (portOf (adminPort portSafe) (leAt (portEntry 1) 20
      2)).isSome = true ∧ leAt (portEntry 1) 22 1 = 1 ∧ ((portOf (adminPort portSafe) (leAt (portEntry 1) 20 2)).getD port).state =
      PortState.safe) ∧
    (Spec.admits (adminPort portDrains) 0 32 false [(20, 3)] (portEntry 1) ∧ (portOf (adminPort portDrains) (leAt (portEntry 1) 20
      2)).isSome = true ∧ leAt (portEntry 1) 22 1 = 1 ∧ ((portOf (adminPort portDrains) (leAt (portEntry 1) 20 2)).getD port).state
      ≠ PortState.safe ∧ draining ((portOf (adminPort portDrains) (leAt (portEntry 1) 20 2)).getD port) = true) ∧
    (Spec.admits (adminPort port) 0 32 false [(20, 3)] (portEntry 1) ∧ (portOf (adminPort port) (leAt (portEntry 1) 20 2)).isSome =
      true ∧ leAt (portEntry 1) 22 1 = 1 ∧ ((portOf (adminPort port) (leAt (portEntry 1) 20 2)).getD port).state ≠ PortState.safe ∧
      draining ((portOf (adminPort port) (leAt (portEntry 1) 20 2)).getD port) = false) ∧
    (Spec.admits (adminPort portSafe) 0 32 false [(20, 3)] (portEntry 2) ∧ (portOf (adminPort portSafe) (leAt (portEntry 2) 20
      2)).isSome = true ∧ leAt (portEntry 2) 22 1 = 2 ∧ ((portOf (adminPort portSafe) (leAt (portEntry 2) 20 2)).getD port).state ∈
      [PortState.safe, PortState.offline]) ∧
    (Spec.admits (adminPort portInTest) 0 32 false [(20, 3)] (portEntry 2) ∧ (portOf (adminPort portInTest) (leAt (portEntry 2) 20
      2)).isSome = true ∧ leAt (portEntry 2) 22 1 = 2 ∧ ((portOf (adminPort portInTest) (leAt (portEntry 2) 20 2)).getD port).state
      = PortState.test) ∧
    (Spec.admits (adminPort portDrains) 0 32 false [(20, 3)] (portEntry 2) ∧ (portOf (adminPort portDrains) (leAt (portEntry 2) 20
      2)).isSome = true ∧ leAt (portEntry 2) 22 1 = 2 ∧ ¬((portOf (adminPort portDrains) (leAt (portEntry 2) 20 2)).getD port).state
      ∈ [PortState.test, PortState.safe, PortState.offline] ∧ draining ((portOf (adminPort portDrains) (leAt (portEntry 2) 20
      2)).getD port) = true) ∧
    (Spec.admits (adminPort port) 0 32 false [(20, 3)] (portEntry 2) ∧ (portOf (adminPort port) (leAt (portEntry 2) 20 2)).isSome =
      true ∧ leAt (portEntry 2) 22 1 = 2 ∧ ¬((portOf (adminPort port) (leAt (portEntry 2) 20 2)).getD port).state ∈ [PortState.test,
      PortState.safe, PortState.offline] ∧ draining ((portOf (adminPort port) (leAt (portEntry 2) 20 2)).getD port) = false) ∧
    (Spec.admits (adminPort port) 0 32 false [(20, 3)] (portEntry 3) ∧ (portOf (adminPort port) (leAt (portEntry 3) 20 2)).isSome =
      true ∧ leAt (portEntry 3) 22 1 = 3) ∧
    (Spec.admits hostedNoPorts 0 32 false [(20, 3)] (portEntry 0) ∧ portOf hostedNoPorts (leAt (portEntry 0) 20 2) = none ∧ leAt
      (portEntry 0) 22 1 = 0) ∧
    (Spec.admits hostedNoPorts 0 32 false [(20, 3)] (portEntry 1) ∧ portOf hostedNoPorts (leAt (portEntry 1) 20 2) = none ∧ leAt
      (portEntry 1) 22 1 = 1) ∧
    (Spec.admits hostedNoPorts 0 32 false [(20, 3)] (portEntry 2) ∧ portOf hostedNoPorts (leAt (portEntry 2) 20 2) = none ∧ leAt
      (portEntry 2) 22 1 = 2) ∧
    (Spec.admits hostedNoPorts 0 32 false [(20, 3)] (portEntry 3) ∧ portOf hostedNoPorts (leAt (portEntry 3) 20 2) = none ∧ leAt
      (portEntry 3) 22 1 = 3) ∧
    (Spec.admits macroOn 0 33 false [(20, 5)] speedEntry ∧ (portOf macroOn (leAt speedEntry 20 2)).isSome = true ∧ ¬((portOf macroOn
      (leAt speedEntry 20 2)).getD port).state ∈ [PortState.test, PortState.safe, PortState.offline] ∧ draining ((portOf macroOn
      (leAt speedEntry 20 2)).getD port) = false ∧ (speedCheck macroOn (leAt speedEntry 20 2) ((portOf macroOn (leAt speedEntry 20
      2)).getD port) speedEntry).status = 0) ∧
    (Spec.admits macroOn 0 34 false [(20, 2)] (macroEntry 0) ∧ leAt (macroEntry 0) 20 1 < 16 ∧ leAt (macroEntry 0) 21 1 = 0 ∧
      (macroOf macroOn (leAt (macroEntry 0) 20 1)).state = MacroState.on) ∧
    (Spec.admits (macroIn MacroState.draining) 0 34 false [(20, 2)] (macroEntry 0) ∧ leAt (macroEntry 0) 20 1 < 16 ∧ leAt
      (macroEntry 0) 21 1 = 0 ∧ (macroOf (macroIn MacroState.draining) (leAt (macroEntry 0) 20 1)).state = MacroState.draining) ∧
    (Spec.admits (macroIn MacroState.pllFailed) 0 34 false [(20, 2)] (macroEntry 0) ∧ leAt (macroEntry 0) 20 1 < 16 ∧ leAt
      (macroEntry 0) 21 1 = 0 ∧ (macroOf (macroIn MacroState.pllFailed) (leAt (macroEntry 0) 20 1)).state = MacroState.pllFailed) ∧
    (Spec.admits (macroIn MacroState.absent) 0 34 false [(20, 2)] (macroEntry 0) ∧ leAt (macroEntry 0) 20 1 < 16 ∧ leAt (macroEntry
      0) 21 1 = 0 ∧ (macroOf (macroIn MacroState.absent) (leAt (macroEntry 0) 20 1)).state = MacroState.absent) ∧
    (Spec.admits macroOff 0 34 false [(20, 2)] (macroEntry 0) ∧ leAt (macroEntry 0) 20 1 < 16 ∧ leAt (macroEntry 0) 21 1 = 0 ∧
      ((macroOf macroOff (leAt (macroEntry 0) 20 1)).state = MacroState.off ∨ (macroOf macroOff (leAt (macroEntry 0) 20 1)).state =
      MacroState.locking)) ∧
    (Spec.admits macroOff 0 34 false [(20, 2)] (macroEntry 1) ∧ leAt (macroEntry 1) 20 1 < 16 ∧ leAt (macroEntry 1) 21 1 = 1 ∧
      ((macroOf macroOff (leAt (macroEntry 1) 20 1)).state = MacroState.off ∨ (macroOf macroOff (leAt (macroEntry 1) 20 1)).state =
      MacroState.pllFailed)) ∧
    (Spec.admits (macroIn MacroState.draining) 0 34 false [(20, 2)] (macroEntry 1) ∧ leAt (macroEntry 1) 20 1 < 16 ∧ leAt
      (macroEntry 1) 21 1 = 1 ∧ (macroOf (macroIn MacroState.draining) (leAt (macroEntry 1) 20 1)).state = MacroState.draining) ∧
    (Spec.admits (macroIn MacroState.locking) 0 34 false [(20, 2)] (macroEntry 1) ∧ leAt (macroEntry 1) 20 1 < 16 ∧ leAt (macroEntry
      1) 21 1 = 1 ∧ (macroOf (macroIn MacroState.locking) (leAt (macroEntry 1) 20 1)).state = MacroState.locking) ∧
    (Spec.admits (macroIn MacroState.absent) 0 34 false [(20, 2)] (macroEntry 1) ∧ leAt (macroEntry 1) 20 1 < 16 ∧ leAt (macroEntry
      1) 21 1 = 1 ∧ (macroOf (macroIn MacroState.absent) (leAt (macroEntry 1) 20 1)).state = MacroState.absent) ∧
    (Spec.admits macroOn 0 34 false [(20, 2)] (macroEntry 1) ∧ leAt (macroEntry 1) 20 1 < 16 ∧ leAt (macroEntry 1) 21 1 = 1 ∧
      (macroOf macroOn (leAt (macroEntry 1) 20 1)).state = MacroState.on) ∧
    (Spec.admits macroOn 0 35 false [] gateEntryBytes ∧ 32 ≤ leAt gateEntryBytes 16 4 ∧ gateLengthOk (adminData gateEntryBytes
      gateData) = true ∧ gateOk (adminData gateEntryBytes gateData) = true ∧ gateOfBytes (adminData gateEntryBytes gateData) =
      ((gateOfBytes (adminData gateEntryBytes gateData)).fst, (gateOfBytes (adminData gateEntryBytes gateData)).snd) ∧ (portOf
      macroOn (gateOfBytes (adminData gateEntryBytes gateData)).fst).isSome = true ∧ (¬((schPort macroOn (gateOfBytes (adminData
      gateEntryBytes gateData)).fst).pendingList.isSome = true ∧ (schPort macroOn (gateOfBytes (adminData gateEntryBytes
      gateData)).fst).actTick ≤ BitVec.toNat macroOn.tmb.tick + 1))) := by
  unfold Spec.admits
  and_intros <;> decide +kernel

set_option maxRecDepth 4000 in
theorem witness_AdminTableWrites :
    (tabledPressed.mir.pressure = true) ∧
    (tabled.mir.pressure = false ∧
      (Spec.admits tabled 0 48 false [(20, 4)] (tableEntryBytes 0 0 2) ∧ leAt (tableEntryBytes 0 0 2) 20 1 ≤ 6 ∧ (leAt
        (tableEntryBytes 0 0 2) 21 1 = if false = true then 1 else 0) ∧ 1 ≤ leAt (tableEntryBytes 0 0 2) 22 2 ∧ leAt
        (tableEntryBytes 0 0 2) 22 2 ≤ 1024 ∧ leAt (tableEntryBytes 0 0 2) 16 4 = 160 * leAt (tableEntryBytes 0 0 2) 22 2 ∧
        tableRecords false (tableEntryBytes 0 0 2) (recordData macRec) = List.map some macRecs ∧ applyRecs false tabled.fwd macRecs
        = some (((applyRecs false tabled.fwd macRecs).getD (fwdZero, [])).fst, ((applyRecs false tabled.fwd macRecs).getD (fwdZero,
        [])).snd) ∧ (if ((applyRecs false tabled.fwd macRecs).getD (fwdZero, [])).snd = [] then tabled.dec = tabled.dec else
        openWrite tabled.dec ((applyRecs false tabled.fwd macRecs).getD (fwdZero, [])).snd = some tabled.dec)) ∧
      (Spec.admits tabled 0 49 false [(20, 23)] macInsertAuto ∧ leAt macInsertAuto 20 1 = 0 ∧ macWriteOk 0 macInsertAuto = true ∧
        (macNamed tabled.fwd (leAt macInsertAuto 21 1) (leAt macInsertAuto 22 2) (macNamedEntry macInsertAuto) = some macAutoPlace ∧
        macTaken tabled.fwd macAutoPlace (macNamedEntry macInsertAuto) = false ∨ macNamed tabled.fwd (leAt macInsertAuto 21 1) (leAt
        macInsertAuto 22 2) (macNamedEntry macInsertAuto) = none ∧ (macFind tabled.fwd (macNamedEntry macInsertAuto).bd
        (macNamedEntry macInsertAuto).mac).or (macFree tabled.fwd (macNamedEntry macInsertAuto).bd (macNamedEntry
        macInsertAuto).mac) = some macAutoPlace)) ∧
      (Spec.admits tabled 0 49 false [(20, 23)] macDeleteStash ∧ leAt macDeleteStash 20 1 = 2 ∧ macWriteOk 2 macDeleteStash = true ∧
        macAt tabled.fwd macDeleteStash (macNamedEntry macDeleteStash) = none)) ∧
    (tabledFull.mir.pressure = false ∧ Spec.admits tabledFull 0 48 false [(20, 4)] (tableEntryBytes 0 2 2) ∧ leAt (tableEntryBytes 0
      2 2) 20 1 ≤ 6 ∧ (leAt (tableEntryBytes 0 2 2) 21 1 = if false = true then 1 else 0) ∧ 1 ≤ leAt (tableEntryBytes 0 2 2) 22 2 ∧
      leAt (tableEntryBytes 0 2 2) 22 2 ≤ 1024 ∧ leAt (tableEntryBytes 0 2 2) 16 4 = 160 * leAt (tableEntryBytes 0 2 2) 22 2 ∧
      tableRecords false (tableEntryBytes 0 2 2) (recordData segmentRec) = List.map some segmentRecs ∧ (applyRecs false
      tabledFull.fwd segmentRecs = none ∨ ∃ f ws, applyRecs false tabledFull.fwd segmentRecs = some (f, ws) ∧ ws ≠ [] ∧ openWrite
      tabledFull.dec ws = none)) ∧
    ((stashed (some macOther)).mir.pressure = false ∧
      (Spec.admits (stashed (some macOther)) 0 49 false [(20, 23)] macInsertTaken ∧ leAt macInsertTaken 20 1 = 0 ∧ macWriteOk 0
        macInsertTaken = true ∧ (macNamed (stashed (some macOther)).fwd (leAt macInsertTaken 21 1) (leAt macInsertTaken 22 2)
        (macNamedEntry macInsertTaken)).isSome = true ∧ macTaken (stashed (some macOther)).fwd ((macNamed (stashed (some
        macOther)).fwd (leAt macInsertTaken 21 1) (leAt macInsertTaken 22 2) (macNamedEntry macInsertTaken)).getD 0) (macNamedEntry
        macInsertTaken) = true) ∧
      (Spec.admits (stashed (some macOther)) 0 49 false [(20, 23)] macMoveStash ∧ leAt macMoveStash 20 1 = 1 ∧ macWriteOk 1
        macMoveStash = true ∧ (macAt (stashed (some macOther)).fwd macMoveStash (macNamedEntry macMoveStash)).isSome = true ∧
        (macNamed (stashed (some macOther)).fwd (leAt macMoveStash 40 1) (leAt macMoveStash 41 2) (macNamedEntry
        macMoveStash)).isSome = true ∧ (tget (stashed (some macOther)).fwd.mac ((macAt (stashed (some macOther)).fwd macMoveStash
        (macNamedEntry macMoveStash)).getD 0)).isSome = true ∧ (macNamed (stashed (some macOther)).fwd (leAt macMoveStash 40 1)
        (leAt macMoveStash 41 2) (macNamedEntry macMoveStash)).getD 0 ≠ (macAt (stashed (some macOther)).fwd macMoveStash
        (macNamedEntry macMoveStash)).getD 0 ∧ macTaken (stashed (some macOther)).fwd ((macNamed (stashed (some macOther)).fwd (leAt
        macMoveStash 40 1) (leAt macMoveStash 41 2) (macNamedEntry macMoveStash)).getD 0) (macNamedEntry macMoveStash) = true)) ∧
    (macFull.mir.pressure = false ∧ Spec.admits macFull 0 49 false [(20, 23)] macInsertAuto ∧ leAt macInsertAuto 20 1 = 0 ∧
      macWriteOk 0 macInsertAuto = true ∧ macNamed macFull.fwd (leAt macInsertAuto 21 1) (leAt macInsertAuto 22 2) (macNamedEntry
      macInsertAuto) = none ∧ macFind macFull.fwd (macNamedEntry macInsertAuto).bd (macNamedEntry macInsertAuto).mac = none ∧
      macFree macFull.fwd (macNamedEntry macInsertAuto).bd (macNamedEntry macInsertAuto).mac = none) ∧
    ((stashed none).mir.pressure = false ∧
      (Spec.admits (stashed none) 0 49 false [(20, 23)] macMoveNone ∧ leAt macMoveNone 20 1 = 1 ∧ macWriteOk 1 macMoveNone = true ∧
        macAt (stashed none).fwd macMoveNone (macNamedEntry macMoveNone) = none) ∧
      (Spec.admits (stashed none) 0 49 false [(20, 23)] macMoveSame ∧ leAt macMoveSame 20 1 = 1 ∧ macWriteOk 1 macMoveSame = true ∧
        (macAt (stashed none).fwd macMoveSame (macNamedEntry macMoveSame)).isSome = true ∧ (macNamed (stashed none).fwd (leAt
        macMoveSame 40 1) (leAt macMoveSame 41 2) (macNamedEntry macMoveSame)).isSome = true ∧ (tget (stashed none).fwd.mac ((macAt
        (stashed none).fwd macMoveSame (macNamedEntry macMoveSame)).getD 0)).isSome = true ∧ (macNamed (stashed none).fwd (leAt
        macMoveSame 40 1) (leAt macMoveSame 41 2) (macNamedEntry macMoveSame)).getD 0 = (macAt (stashed none).fwd macMoveSame
        (macNamedEntry macMoveSame)).getD 0) ∧
      (Spec.admits (stashed none) 0 49 false [(20, 23)] macMoveStash ∧ leAt macMoveStash 20 1 = 1 ∧ macWriteOk 1 macMoveStash = true
        ∧ (macAt (stashed none).fwd macMoveStash (macNamedEntry macMoveStash)).isSome = true ∧ (macNamed (stashed none).fwd (leAt
        macMoveStash 40 1) (leAt macMoveStash 41 2) (macNamedEntry macMoveStash)).isSome = true ∧ (tget (stashed none).fwd.mac
        ((macAt (stashed none).fwd macMoveStash (macNamedEntry macMoveStash)).getD 0)).isSome = true ∧ (macNamed (stashed none).fwd
        (leAt macMoveStash 40 1) (leAt macMoveStash 41 2) (macNamedEntry macMoveStash)).getD 0 ≠ (macAt (stashed none).fwd
        macMoveStash (macNamedEntry macMoveStash)).getD 0 ∧ macTaken (stashed none).fwd ((macNamed (stashed none).fwd (leAt
        macMoveStash 40 1) (leAt macMoveStash 41 2) (macNamedEntry macMoveStash)).getD 0) (macNamedEntry macMoveStash) = false) ∧
      (Spec.admits (stashed none) 0 49 false [(20, 23)] macDeleteStash ∧ leAt macDeleteStash 20 1 = 2 ∧ macWriteOk 2 macDeleteStash
        = true ∧ (macAt (stashed none).fwd macDeleteStash (macNamedEntry macDeleteStash)).isSome = true)) := by
  unfold Spec.admits
  and_intros <;> first | with_reducible exact macFull_free | decide +kernel | exact Or.inr (some_pair (P := fun _ ws => ws ≠ [] ∧ openWrite tabledFull.dec ws = none) (by decide +kernel))

theorem witness_AdminVersionsAndCuts :
    (Spec.admits tabled 0 50 false [] commitEntry ∧ tabled.dec.sealed_ = none ∧ tabled.dec.select = none) ∧
    (Spec.admits (sealedAt 5000000) 0 50 false [] commitEntry ∧ ((sealedAt 5000000).dec.sealed_.isSome = true ∨ (sealedAt
      5000000).dec.select.isSome = true)) ∧
    (Spec.admits tabled 0 51 false [(20, 1)] (selectEntry 5) ∧ leAt (selectEntry 5) 20 1 < 16 ∧ slotOfVersion tabled.dec (leAt
      (selectEntry 5) 20 1) = none) ∧
    (Spec.admits retained 0 51 false [(20, 1)] (selectEntry 0) ∧ leAt (selectEntry 0) 20 1 < 16 ∧ (slotOfVersion retained.dec (leAt
      (selectEntry 0) 20 1)).isSome = true ∧ leAt (selectEntry 0) 20 1 = retained.dec.current) ∧
    (Spec.admits retained 0 51 false [(20, 1)] (selectEntry 3) ∧ leAt (selectEntry 3) 20 1 < 16 ∧ (slotOfVersion retained.dec (leAt
      (selectEntry 3) 20 1)).isSome = true ∧ leAt (selectEntry 3) 20 1 ≠ retained.dec.current ∧ retained.dec.sealed_ = none ∧
      retained.dec.select = none) ∧
    (stashRead.dec.sealed_ = none) ∧
    (sealedPair.dec.sealed_.isSome = true ∧ ((sealedPair.dec.sealed_.getD sealedZero).tick + 64 < BitVec.toNat sealedPair.tmb.tick ∧
      (¬∃ p, p ∈ sealedPair.mir.plans ∧ p.kind = PlanKind.commit) ∧ (inStep sealedPair = true ∧ sealedPair.mir.pair.mode ≠ 0 ∨
      twoTicks sealedPair.dec (BitVec.toNat sealedPair.tmb.tick) = true ∧ commitSlot sealedPair.dec = none))) ∧
    ((sealedAt 5000000).dec.sealed_.isSome = true ∧ (¬(((sealedAt 5000000).dec.sealed_.getD sealedZero).tick + 64 < BitVec.toNat
      (sealedAt 5000000).tmb.tick ∧ (¬∃ p, p ∈ (sealedAt 5000000).mir.plans ∧ p.kind = PlanKind.commit) ∧ (inStep (sealedAt 5000000)
      = true ∧ (sealedAt 5000000).mir.pair.mode ≠ 0 ∨ twoTicks (sealedAt 5000000).dec (BitVec.toNat (sealedAt 5000000).tmb.tick) =
      true ∧ commitSlot (sealedAt 5000000).dec = none)))) ∧
    (Spec.admits stashRead 0 52 false [(20, 2), (24, 40)] (tableReadEntry 9) ∧ tableReadOk (tableReadEntry 9) = true ∧ (readVersion
      stashRead (tableReadEntry 9)).isSome = true) ∧
    (Spec.admits stashRead 0 64 false [(20, 2), (24, 16)] (cutEntry 5000001) ∧ leAt (cutEntry 5000001) 20 1 ≤ 1 ∧ leAt (cutEntry
      5000001) 21 1 = 0 ∧ stashRead.ldg.scheduled = [] ∧ stashRead.ldg.running = none ∧ BitVec.toNat stashRead.tmb.tick + 1 ≤ leAt
      (cutEntry 5000001) 24 8) ∧
    (Spec.admits tabled 0 64 false [(20, 2), (24, 16)] (cutEntry 5000000) ∧ leAt (cutEntry 5000000) 20 1 ≤ 1 ∧ leAt (cutEntry
      5000000) 21 1 = 0 ∧ leAt (cutEntry 5000000) 24 8 ≤ BitVec.toNat tabled.tmb.tick) ∧
    (Spec.admits cutReady 0 65 false [(20, 8)] cutReadEntry ∧ cutReadOk cutReadEntry = true ∧ cutBufferOf cutReady (leAt
      cutReadEntry 20 4) = some (cutBuf, cutRecord) ∧ cutBuf.state = 2) ∧
    (Spec.admits cutCopying 0 65 false [(20, 8)] cutReadEntry ∧ cutReadOk cutReadEntry = true ∧ cutBufferOf cutCopying (leAt
      cutReadEntry 20 4) = some ({ cutBuf with state := 1 }, ((cutBufferOf cutCopying (leAt cutReadEntry 20 4)).getD (cutBuf,
      cutRecord)).snd) ∧ { cutBuf with state := 1 }.state ≠ 2) ∧
    (Spec.admits stashRead 0 65 false [(20, 8)] cutReadEntry ∧ cutReadOk cutReadEntry = true ∧ cutBufferOf stashRead (leAt
      cutReadEntry 20 4) = none) ∧
    (Spec.admits timeKnown 0 66 false [] timeEntry ∧ ptpBytesOk (adminData timeEntry timeData) = true ∧ (∀ (x : PtpPort), x ∈
      (ptpOfBytes (adminData timeEntry timeData)).ports → (portOf timeKnown x.port).isSome = true)) ∧
    (Spec.admits tabled 0 66 false [] timeEntry ∧ ptpBytesOk (adminData timeEntry timeData) = true ∧ (∃ x, x ∈ (ptpOfBytes
      (adminData timeEntry timeData)).ports ∧ portOf tabled x.port = none)) := by
  unfold Spec.admits
  and_intros <;> decide +kernel

theorem witness_AdminKeys :
    (Spec.admits vaulted 0 80 false [(20, 20)] createClear ∧ contextCreateOk keyData createClear = true ∧ (ctxPlanned vaulted (ctxId
      createClear)).state = CtxState.empty ∧ (bitN (leAt createClear 24 1) 3 = false ∨ vaulted.rst.testMode = true ∧
      vaulted.rst.policyEff.getLsbD 2 = false) ∧ (ctxProof vaulted).status = 0 ∧ thas vaulted.kvl.vol 0 = true ∧ vaulted.kvl.erasing
      = false ∧ leAt createClear 23 1 ≤ 1 ∧ createKeys vaulted createClear keyData = some keyData) ∧
    (Spec.admits vaulted 0 80 false [(20, 20)] createRandom ∧ contextCreateOk createRandom createRandom = true ∧ (ctxPlanned vaulted
      (ctxId createRandom)).state = CtxState.empty ∧ (bitN (leAt createRandom 24 1) 3 = false ∨ vaulted.rst.testMode = true ∧
      vaulted.rst.policyEff.getLsbD 2 = false) ∧ (ctxProof vaulted).status = 0 ∧ thas vaulted.kvl.vol 0 = true ∧ vaulted.kvl.erasing
      = false ∧ leAt createRandom 23 1 = 2 ∧ vaulted.kvl.rng = RngState.ready) ∧
    (Spec.admits vaulted 0 80 false [(20, 20)] createWrapped ∧ contextCreateOk createWrapped createWrapped = true ∧ (ctxPlanned
      vaulted (ctxId createWrapped)).state = CtxState.empty ∧ (bitN (leAt createWrapped 24 1) 3 = false ∨ vaulted.rst.testMode =
      true ∧ vaulted.rst.policyEff.getLsbD 2 = false) ∧ (ctxProof vaulted).status = 0 ∧ thas vaulted.kvl.vol 0 = true ∧
      vaulted.kvl.erasing = false ∧ leAt createWrapped 23 1 = 1 ∧ createKeys vaulted createWrapped createWrapped = none) ∧
    (Spec.admits ctxActive 0 81 false [(20, 3)] destroyEntry ∧ ctxId destroyEntry < 262144 ∧ (ctxPlanned ctxActive (ctxId
      destroyEntry)).state ≠ CtxState.empty ∧ (ctxProof ctxActive).status = 0) ∧
    (Spec.admits vaulted 0 81 false [(20, 3)] destroyEntry ∧ ctxId destroyEntry < 262144 ∧ (ctxPlanned vaulted (ctxId
      destroyEntry)).state = CtxState.empty) ∧
    (Spec.admits ctxBusySave 0 82 false [(20, 4)] saveEntry ∧ ctxId saveEntry < 262144 ∧ 136 ≤ leAt saveEntry 16 4 ∧ leAt saveEntry
      23 1 ≤ 2 ∧ (ctxPlanned ctxBusySave (ctxId saveEntry)).state = CtxState.active ∧ (leAt saveEntry 23 1 = 2 → (ctxPlanned
      ctxBusySave (ctxId saveEntry)).exportable = true ∧ ctxBusySave.rst.testMode = true) ∧ (ctxBusy ctxBusySave (ctxId saveEntry) =
      true ∨ ¬(leAt saveEntry 23 1 = 2 ∨ (tget ctxBusySave.kvl.vbat (leAt saveEntry 23 1)).isSome = true))) ∧
    (Spec.admits vaulted 0 82 false [(20, 4)] saveTest ∧ ctxId saveTest < 262144 ∧ 136 ≤ leAt saveTest 16 4 ∧ leAt saveTest 23 1 ≤ 2
      ∧ (¬(leAt saveTest 23 1 = 2 → (ctxPlanned vaulted (ctxId saveTest)).exportable = true ∧ vaulted.rst.testMode = true))) ∧
    (Spec.admits ctxActive 0 82 false [(20, 4)] saveEntry ∧ ctxId saveEntry < 262144 ∧ 136 ≤ leAt saveEntry 16 4 ∧ leAt saveEntry 23
      1 ≤ 2 ∧ (ctxPlanned ctxActive (ctxId saveEntry)).state = CtxState.active ∧ (leAt saveEntry 23 1 = 2 → (ctxPlanned ctxActive
      (ctxId saveEntry)).exportable = true ∧ ctxActive.rst.testMode = true) ∧ ctxBusy ctxActive (ctxId saveEntry) = false ∧ (leAt
      saveEntry 23 1 = 2 ∨ (tget ctxActive.kvl.vbat (leAt saveEntry 23 1)).isSome = true)) ∧
    (Spec.admits vaulted 0 82 false [(20, 4)] saveEntry ∧ ctxId saveEntry < 262144 ∧ 136 ≤ leAt saveEntry 16 4 ∧ leAt saveEntry 23 1
      ≤ 2 ∧ (ctxPlanned vaulted (ctxId saveEntry)).state ≠ CtxState.active) ∧
    (Spec.admits ctxSaved 0 83 false [(20, 3)] restoreEntry ∧ ctxId restoreEntry < 262144 ∧ leAt restoreEntry 16 4 = 136 ∧
      (imageCtx ctxSaved (adminData restoreEntry restoreEntry) = none) ∧
      (imageBad = adminData restoreEntry imageBad ∧ (imageCtx ctxSaved imageBad).isSome = true ∧ imageOk imageBad = false) ∧
      (image = adminData restoreEntry image ∧ imageOk image = true ∧ (imageCtx ctxSaved image).isSome = true ∧ (leAt image 6 1 ≠ 2 ∨
        ctxSaved.rst.testMode = true) ∧ leAt image 28 4 = BitVec.toNat ctxSaved.board.serial ∧ ((imageCtx ctxSaved image).getD
        ctx).epoch = ctxSaved.cph.bootEpoch ∧ (ctxPlanned ctxSaved (ctxId restoreEntry)).state = CtxState.saved ∧ (ctxPlanned
        ctxSaved (ctxId restoreEntry)).saveSeq = ((imageCtx ctxSaved image).getD ctx).saveSeq)) ∧
    (Spec.admits ctxEmptyElsewhere 0 83 false [(20, 3)] restoreEntry ∧ ctxId restoreEntry < 262144 ∧ leAt restoreEntry 16 4 = 136 ∧
      image = adminData restoreEntry image ∧ imageOk image = true ∧ (imageCtx ctxEmptyElsewhere image).isSome = true ∧ (leAt image 6
      1 ≠ 2 ∨ ctxEmptyElsewhere.rst.testMode = true) ∧ (leAt image 28 4 ≠ BitVec.toNat ctxEmptyElsewhere.board.serial ∨ ((imageCtx
      ctxEmptyElsewhere image).getD ctx).epoch ≠ ctxEmptyElsewhere.cph.bootEpoch) ∧ (ctxPlanned ctxEmptyElsewhere (ctxId
      restoreEntry)).state = CtxState.empty) ∧
    (Spec.admits ctxElsewhere 0 83 false [(20, 3)] restoreEntry ∧ ctxId restoreEntry < 262144 ∧ leAt restoreEntry 16 4 = 136 ∧ image
      = adminData restoreEntry image ∧ imageOk image = true ∧ (imageCtx ctxElsewhere image).isSome = true ∧ (leAt image 6 1 ≠ 2 ∨
      ctxElsewhere.rst.testMode = true) ∧ (leAt image 28 4 ≠ BitVec.toNat ctxElsewhere.board.serial ∨ ((imageCtx ctxElsewhere
      image).getD ctx).epoch ≠ ctxElsewhere.cph.bootEpoch) ∧ (ctxPlanned ctxElsewhere (ctxId restoreEntry)).state ≠ CtxState.empty)
      ∧
    (Spec.admits ctxActive 0 83 false [(20, 3)] restoreEntry ∧ ctxId restoreEntry < 262144 ∧ leAt restoreEntry 16 4 = 136 ∧ image =
      adminData restoreEntry image ∧ imageOk image = true ∧ (imageCtx ctxActive image).isSome = true ∧ (leAt image 6 1 ≠ 2 ∨
      ctxActive.rst.testMode = true) ∧ leAt image 28 4 = BitVec.toNat ctxActive.board.serial ∧ ((imageCtx ctxActive image).getD
      ctx).epoch = ctxActive.cph.bootEpoch ∧ (ctxPlanned ctxActive (ctxId restoreEntry)).state ≠ CtxState.saved) ∧
    (Spec.admits ctxSavedLater 0 83 false [(20, 3)] restoreEntry ∧ ctxId restoreEntry < 262144 ∧ leAt restoreEntry 16 4 = 136 ∧
      image = adminData restoreEntry image ∧ imageOk image = true ∧ (imageCtx ctxSavedLater image).isSome = true ∧ (leAt image 6 1 ≠
      2 ∨ ctxSavedLater.rst.testMode = true) ∧ leAt image 28 4 = BitVec.toNat ctxSavedLater.board.serial ∧ ((imageCtx ctxSavedLater
      image).getD ctx).epoch = ctxSavedLater.cph.bootEpoch ∧ (ctxPlanned ctxSavedLater (ctxId restoreEntry)).state = CtxState.saved
      ∧ (ctxPlanned ctxSavedLater (ctxId restoreEntry)).saveSeq ≠ ((imageCtx ctxSavedLater image).getD ctx).saveSeq) ∧
    (Spec.admits vaulted 0 84 false [(20, 6)] vaultLoadWrapped ∧ vaultLoadOk vaultLoadWrapped = true ∧ ((if leAt vaultLoadWrapped 22
      1 = 1 then (vaultKey vaulted.kvl (leAt vaultLoadWrapped 24 2)).bind fun k => kwUnwrap k (adminData vaultLoadWrapped
      vaultLoadWrapped) else some (adminData vaultLoadWrapped vaultLoadWrapped)) = none)) ∧
    (Spec.admits vaultErasing 0 84 false [(20, 6)] vaultLoadEntry ∧ vaultLoadOk vaultLoadEntry = true ∧ ((if leAt vaultLoadEntry 22
      1 = 1 then (vaultKey vaultErasing.kvl (leAt vaultLoadEntry 24 2)).bind fun k => kwUnwrap k (adminData vaultLoadEntry
      vaultLoadEntry) else some (adminData vaultLoadEntry vaultLoadEntry)) ≠ none) ∧ vaultErasing.kvl.erasing = true) ∧
    (Spec.admits vaulted 0 84 false [(20, 6)] vaultLoadEntry ∧ vaultLoadOk vaultLoadEntry = true ∧ ((if leAt vaultLoadEntry 22 1 = 1
      then (vaultKey vaulted.kvl (leAt vaultLoadEntry 24 2)).bind fun k => kwUnwrap k (adminData vaultLoadEntry vaultLoadEntry) else
      some (adminData vaultLoadEntry vaultLoadEntry)) ≠ none) ∧ vaulted.kvl.erasing = false) ∧
    (Spec.admits vaulted 0 85 false [(20, 2)] vaultClearEntry ∧ vaultSlotOk (leAt vaultClearEntry 20 2) = true) ∧
    (Spec.admits stored 0 88 false [(20, 2)] namespaceEntry ∧ leAt namespaceEntry 20 2 < 16384 ∧ leAt namespaceEntry 16 4 = 64 ∧
      (namespaceBytesOk (adminData namespaceEntry (namespaceData 6)) = true ∧ namespaceFits stored (leAt namespaceEntry 20 2)
        (namespaceOf (adminData namespaceEntry (namespaceData 6))) = true) ∧
      (namespaceBytesOk (adminData namespaceEntry (namespaceData 7)) = true ∧ namespaceFits stored (leAt namespaceEntry 20 2)
        (namespaceOf (adminData namespaceEntry (namespaceData 7))) = false)) := by
  unfold Spec.admits
  and_intros <;> decide +kernel

theorem witness_AdminMaintenance :
    (Spec.admits maintained 0 96 false [(20, 1)] (selftestEntry 5) ∧ leAt (selftestEntry 5) 20 1 < 96 ∧ (engineOf maintained (leAt
      (selftestEntry 5) 20 1)).state ∈ [EngineState.spare, EngineState.failed, EngineState.copySource] ∧ 1 ≤ sparesBeside maintained
      (leAt (selftestEntry 5) 20 1) ∧ maintained.eng.test = none) ∧
    (Spec.admits maintained 0 96 false [(20, 1)] (selftestEntry 6) ∧ leAt (selftestEntry 6) 20 1 < 96 ∧ (engineOf maintained (leAt
      (selftestEntry 6) 20 1)).state = EngineState.inService ∧ 2 ≤ sparesBeside maintained (leAt (selftestEntry 6) 20 1) ∧
      maintained.eng.test = none ∧ engineStopped
      { maintained with eng := { maintained.eng with testEngine := leAt (selftestEntry 6) 20 1, test := some { engine := leAt (selftestEntry 6) 20 1, ends := none, waiter := adminWaiter 0 (selftestEntry 6) } } }
      (leAt (selftestEntry 6) 20 1) = false) ∧
    (Spec.admits maintainedLost 0 96 false [(20, 1)] (selftestEntry 6) ∧ leAt (selftestEntry 6) 20 1 < 96 ∧ (engineOf maintainedLost
      (leAt (selftestEntry 6) 20 1)).state = EngineState.inService ∧ 2 ≤ sparesBeside maintainedLost (leAt (selftestEntry 6) 20 1) ∧
      maintainedLost.eng.test = none ∧ engineStopped
      { maintainedLost with eng := { maintainedLost.eng with testEngine := leAt (selftestEntry 6) 20 1, test := some { engine := leAt (selftestEntry 6) 20 1, ends := none, waiter := adminWaiter 0 (selftestEntry 6) } } }
      (leAt (selftestEntry 6) 20 1) = true) ∧
    (Spec.admits maintainedTesting 0 96 false [(20, 1)] (selftestEntry 5) ∧ leAt (selftestEntry 5) 20 1 < 96 ∧
      maintainedTesting.eng.test.isSome = true) ∧
    (Spec.admits noSpares 0 96 false [(20, 1)] (selftestEntry 5) ∧ leAt (selftestEntry 5) 20 1 < 96 ∧ noSpares.eng.test = none ∧
      (((engineOf noSpares (leAt (selftestEntry 5) 20 1)).state ∈ [EngineState.inactive, EngineState.test, EngineState.retired] ∨
        (engineOf noSpares (leAt (selftestEntry 5) 20 1)).state = EngineState.inService ∧ sparesBeside noSpares (leAt (selftestEntry
        5) 20 1) < 2)) ∧
      (sparesBeside noSpares (leAt (selftestEntry 5) 20 1) = 0)) ∧
    (((leAt slabTestEntry 21 1 + if leAt slabTestEntry 20 1 = 1 then 128 else 0) = leAt slabTestEntry 21 1 + if leAt slabTestEntry
      20 1 = 1 then 128 else 0) ∧
      (Spec.admits maintained 0 97 false [(20, 2)] slabTestEntry ∧ leAt slabTestEntry 20 1 ≤ 1 ∧ (leAt slabTestEntry 21 1 < if leAt
        slabTestEntry 20 1 = 1 then 64 else 128) ∧ (¬(leAt slabTestEntry 21 1 + if leAt slabTestEntry 20 1 = 1 then 128 else 0) ∈
        maintained.cph.lost ∧ List.filter (fun x => decide (x ≠ leAt slabTestEntry 21 1 + if leAt slabTestEntry 20 1 = 1 then 128
        else 0)) (slabReserve maintained (leAt slabTestEntry 20 1 == 1)) ≠ []) ∧ maintained.cph.test = none) ∧
      (Spec.admits slabUsed 0 97 false [(20, 2)] slabTestEntry ∧ leAt slabTestEntry 20 1 ≤ 1 ∧ (leAt slabTestEntry 21 1 < if leAt
        slabTestEntry 20 1 = 1 then 64 else 128) ∧ (¬(¬(leAt slabTestEntry 21 1 + if leAt slabTestEntry 20 1 = 1 then 128 else 0) ∈
        slabUsed.cph.lost ∧ List.filter (fun x => decide (x ≠ leAt slabTestEntry 21 1 + if leAt slabTestEntry 20 1 = 1 then 128 else
        0)) (slabReserve slabUsed (leAt slabTestEntry 20 1 == 1)) ≠ []))) ∧
      (Spec.admits slabTesting 0 97 false [(20, 2)] slabTestEntry ∧ leAt slabTestEntry 20 1 ≤ 1 ∧ (leAt slabTestEntry 21 1 < if leAt
        slabTestEntry 20 1 = 1 then 64 else 128) ∧ (¬(leAt slabTestEntry 21 1 + if leAt slabTestEntry 20 1 = 1 then 128 else 0) ∈
        slabTesting.cph.lost ∧ List.filter (fun x => decide (x ≠ leAt slabTestEntry 21 1 + if leAt slabTestEntry 20 1 = 1 then 128
        else 0)) (slabReserve slabTesting (leAt slabTestEntry 20 1 == 1)) ≠ []) ∧ slabTesting.cph.test.isSome = true)) ∧
    (Spec.admits maintained 0 98 false [(20, 2)] retireEntry ∧ leAt retireEntry 20 1 < 4 ∧ leAt retireEntry 21 1 < 15 ∧
      stackSpareUsed maintained (leAt retireEntry 20 1) = false) ∧
    (Spec.admits stackUsed 0 98 false [(20, 2)] retireEntry ∧ leAt retireEntry 20 1 < 4 ∧ leAt retireEntry 21 1 < 15 ∧
      stackSpareUsed stackUsed (leAt retireEntry 20 1) = true) ∧
    (Spec.admits hosted 0 112 false [(20, 1), (24, 4)] (nvmReadEntry 16777214 2) ∧ leAt (nvmReadEntry 16777214 2) 20 1 ≤ 1 ∧ leAt
      (nvmReadEntry 16777214 2) 16 4 ≤ 1048576 ∧ leAt (nvmReadEntry 16777214 2) 24 4 + leAt (nvmReadEntry 16777214 2) 16 4 ≤ nvmSize
      hosted (leAt (nvmReadEntry 16777214 2) 20 1 == 1)) ∧
    (Spec.admits hosted 0 112 false [(20, 1), (24, 4)] (nvmReadEntry 16777214 3) ∧ leAt (nvmReadEntry 16777214 3) 20 1 ≤ 1 ∧ leAt
      (nvmReadEntry 16777214 3) 16 4 ≤ 1048576 ∧ nvmSize hosted (leAt (nvmReadEntry 16777214 3) 20 1 == 1) < leAt (nvmReadEntry
      16777214 3) 24 4 + leAt (nvmReadEntry 16777214 3) 16 4) ∧
    (Spec.admits hosted 0 113 false [(20, 1), (24, 4)] (nvmWriteEntry 65530 0) ∧ leAt (nvmWriteEntry 65530 0) 20 1 ≤ 1 ∧ leAt
      (nvmWriteEntry 65530 0) 16 4 = 0 ∧ leAt (nvmWriteEntry 65530 0) 24 4 ≤ nvmSize hosted (leAt (nvmWriteEntry 65530 0) 20 1 ==
      1)) ∧
    (Spec.admits hosted 0 113 false [(20, 1), (24, 4)] (nvmWriteEntry 16777214 10) ∧ leAt (nvmWriteEntry 16777214 10) 20 1 ≤ 1 ∧
      leAt (nvmWriteEntry 16777214 10) 16 4 ≤ 1048576 ∧ nvmSize hosted (leAt (nvmWriteEntry 16777214 10) 20 1 == 1) < leAt
      (nvmWriteEntry 16777214 10) 24 4 + leAt (nvmWriteEntry 16777214 10) 16 4) ∧
    (Spec.admits hosted 0 113 false [(20, 1), (24, 4)] (nvmWriteEntry 65530 10) ∧ leAt (nvmWriteEntry 65530 10) 20 1 ≤ 1 ∧ 0 < leAt
      (nvmWriteEntry 65530 10) 16 4 ∧ leAt (nvmWriteEntry 65530 10) 16 4 ≤ 1048576 ∧ leAt (nvmWriteEntry 65530 10) 24 4 + leAt
      (nvmWriteEntry 65530 10) 16 4 ≤ nvmSize hosted (leAt (nvmWriteEntry 65530 10) 20 1 == 1) ∧ memoryWf hosted = true ∧
      nvmProtected hosted (leAt (nvmWriteEntry 65530 10) 20 1 == 1) (sectorsOf (leAt (nvmWriteEntry 65530 10) 24 4) (leAt
      (nvmWriteEntry 65530 10) 16 4)) = false) ∧
    (Spec.admits nvmLoaded 0 113 false [(20, 1), (24, 4)] (nvmWriteEntry 65530 10) ∧ leAt (nvmWriteEntry 65530 10) 20 1 ≤ 1 ∧ 0 <
      leAt (nvmWriteEntry 65530 10) 16 4 ∧ leAt (nvmWriteEntry 65530 10) 16 4 ≤ 1048576 ∧ leAt (nvmWriteEntry 65530 10) 24 4 + leAt
      (nvmWriteEntry 65530 10) 16 4 ≤ nvmSize nvmLoaded (leAt (nvmWriteEntry 65530 10) 20 1 == 1) ∧ memoryWf nvmLoaded = true ∧
      nvmProtected nvmLoaded (leAt (nvmWriteEntry 65530 10) 20 1 == 1) (sectorsOf (leAt (nvmWriteEntry 65530 10) 24 4) (leAt
      (nvmWriteEntry 65530 10) 16 4)) = true) ∧
    (Spec.admits hosted 0 114 false [(20, 1)] keyProgramEntry ∧ leAt keyProgramEntry 20 1 ≤ 3 ∧ leAt keyProgramEntry 16 4 = 97 ∧
      hosted.board.ownerKeys.getD (leAt keyProgramEntry 20 1) OwnerKey.revoked = OwnerKey.blank) ∧
    (Spec.admits keyProgrammed 0 114 false [(20, 1)] keyProgramEntry ∧ leAt keyProgramEntry 20 1 ≤ 3 ∧ leAt keyProgramEntry 16 4 =
      97 ∧ keyProgrammed.board.ownerKeys.getD (leAt keyProgramEntry 20 1) OwnerKey.revoked ≠ OwnerKey.blank) ∧
    (Spec.admits hosted 0 115 false [(20, 8)] keyRevokeEntry ∧ leAt keyRevokeEntry 20 4 ≤ 3 ∧ leAt keyRevokeEntry 20 4 + leAt
      keyRevokeEntry 24 4 = 2 ^ 32 - 1) ∧
    (Spec.admits hosted 0 116 false [(20, 8)] resetEntry ∧ leAt resetEntry 20 4 = 0 ∧ leAt resetEntry 24 4 = 2 ^ 32 - 1) := by
  unfold Spec.admits
  and_intros <;> decide +kernel

theorem witness_HostFeaturesAndResets :
    ((funcOf vfFree (8193#16).toNat).isSome = true ∧ ((funcOf vfFree (8193#16).toNat).getD func).featuresOk = false ∧ ((funcOf
      vfFree (8193#16).toNat).getD func).resetting = none ∧ fnCreated vfFree (8193#16).toNat = false) ∧
    ((funcOf offeredEarly (0#16).toNat).isSome = true ∧ ((funcOf offeredEarly (0#16).toNat).getD func).featuresOk = false ∧ ((funcOf
      offeredEarly (0#16).toNat).getD func).resetting = none ∧ fnCreated offeredEarly (0#16).toNat = true ∧
      offeredEarly.hif.deviceReady = false) ∧
    ((funcOf offeredBad (0#16).toNat).isSome = true ∧ ((funcOf offeredBad (0#16).toNat).getD func).featuresOk = false ∧ ((funcOf
      offeredBad (0#16).toNat).getD func).resetting = none ∧ fnCreated offeredBad (0#16).toNat = true ∧ offeredBad.hif.deviceReady =
      true ∧ breaksDependency (((funcOf offeredBad (0#16).toNat).getD func).accept &&& offerOf offeredBad (0#16).toNat) = true) ∧
    ((funcOf offeredGood (0#16).toNat).isSome = true ∧
      (((funcOf offeredGood (0#16).toNat).getD func).featuresOk = false ∧ ((funcOf offeredGood (0#16).toNat).getD func).resetting =
        none ∧ fnCreated offeredGood (0#16).toNat = true ∧ offeredGood.hif.deviceReady = true ∧ breaksDependency (((funcOf
        offeredGood (0#16).toNat).getD func).accept &&& offerOf offeredGood (0#16).toNat) = false) ∧
      (fnExists offeredGood (0#16).toNat = true) ∧
      ((((funcOf offeredGood (0#16).toNat).getD func).resetting = none ∨ ((funcOf offeredGood (0#16).toNat).getD func).resetting =
        some none))) ∧
    (isVf (8193#16).toNat = true ∧ pfNum (8193#16).toNat = 1 ∧
      (queuesOf vfGranted (8193#16).toNat = [] ∧ (funcOf vfGranted (8193#16).toNat).isSome = true ∧ ((funcOf vfGranted
        (8193#16).toNat).getD func).grant = some grant ∧ fnExists vfGranted (8193#16).toNat = true) ∧
      (queuesOf vfResetting (8193#16).toNat = [] ∧ (funcOf vfResetting (8193#16).toNat).isSome = true ∧ ((funcOf vfResetting
        (8193#16).toNat).getD func).grant = some grant ∧ ((funcOf vfResetting (8193#16).toNat).getD func).resetting = some (some
        ((((funcOf vfResetting (8193#16).toNat).getD func).resetting.getD none).getD 0)) ∧ grant.features = (0 : W64))) ∧
    ((funcOf vfGone (8193#16).toNat).isSome = true ∧ fnExists vfGone (8193#16).toNat = false) ∧
    ((funcOf vfResetting (8193#16).toNat).isSome = true ∧ ((funcOf vfResetting (8193#16).toNat).getD func).resetting = some (some
      ((((funcOf vfResetting (8193#16).toNat).getD func).resetting.getD none).getD 0))) ∧
    (epEnabled epUp 0 = true ∧ (endpointOf epUp 0).perst = false ∧
      (epUp.que.queues = []) ∧
      (hostReleased epUp = true ∧ epUp.que.queues = [])) ∧
    (epEnabled epPerst 0 = true ∧ (endpointOf epPerst 0).perst = true ∧ hostReleased epPerst = true) ∧
    (epEnabled epPerstEarly 0 = true ∧ (endpointOf epPerstEarly 0).perst = true ∧ hostReleased epPerstEarly = false) ∧
    (epEnabled epReadying 0 = true ∧ (endpointOf epReadying 0).perst = false ∧
      ((endpointOf epReadying 0).readyBy.isSome = true ∧ (∀ (fn : Nat) (f : Func), funcOf epReadying fn = some f → epOf fn = 0 →
        f.resetting = none)) ∧
      ((endpointOf epReadying 0).linkUp = false ∧ hostReleased epReadying = true ∧ (endpointOf epReadying 0).pmePending = false ∧
        linkAllowed epReadying 0 (3#3) (3#3) true = true)) := by
  have key : ∀ e ∈ epReadying.hif.funcs, e.2.resetting = none := by decide +kernel
  and_intros <;> first | exact fun _ _ h _ => key _ (tget_mem h) | decide +kernel

theorem witness_HostPowerAndInterrupts :
    (isVf (8192#16).toNat = false ∧ pfNum (8192#16).toNat = 1 ∧
      ((funcOf pf1Up (8192#16).toNat).isSome = true ∧ vfsOf pf1Up (8192#16).toNat = [] ∧ queuesOf pf1Up (8192#16).toNat = [] ∧
        ((funcOf pf1Up (8192#16).toNat).getD func).d3hot = false ∧ fnExists pf1Up (8192#16).toNat = true ∧ (schPort pf1Up (512 +
        epOf (8192#16).toNat)).tx = none) ∧
      ((funcOf pf1Down (8192#16).toNat).isSome = true ∧ vfsOf pf1Down (8192#16).toNat = [] ∧ queuesOf pf1Down (8192#16).toNat = [] ∧
        ((funcOf pf1Down (8192#16).toNat).getD func).d3hot = true ∧ ((funcOf pf1Down (8192#16).toNat).getD func).vectors = [])) ∧
    ((0#16).toNat = 32768 * 0 ∧
      ((funcOf wakesLinked (0#16).toNat).isSome = true ∧ ((funcOf wakesLinked (0#16).toNat).getD func).pmeEn = true ∧
        wakesLinked.hif.wakeLevel.toNat ≤ 2 ∧ ((funcOf wakesLinked (0#16).toNat).getD func).d3hot = true ∧ (endpointOf wakesLinked
        0).perst = false ∧ (endpointOf wakesLinked 0).linkUp = true) ∧
      ((funcOf wakesUnlinked (0#16).toNat).isSome = true ∧ ((funcOf wakesUnlinked (0#16).toNat).getD func).pmeEn = true ∧
        wakesUnlinked.hif.wakeLevel.toNat ≤ 2 ∧ ((endpointOf wakesUnlinked 0).perst = true ∨ (endpointOf wakesUnlinked 0).linkUp =
        false)) ∧
      ((funcOf wakesAwake (0#16).toNat).isSome = true ∧ ((funcOf wakesAwake (0#16).toNat).getD func).pmeEn = true ∧
        wakesAwake.hif.wakeLevel.toNat ≤ 2 ∧ ((funcOf wakesAwake (0#16).toNat).getD func).d3hot = false ∧ (endpointOf wakesAwake
        0).perst = false ∧ (endpointOf wakesAwake 0).linkUp = true)) ∧
    ((funcOf msixOpen (0#16).toNat).isSome = true ∧ ((funcOf msixOpen (0#16).toNat).getD func).msixEnable = true ∧ fnRuns msixOpen
      (0#16).toNat = true ∧ ((funcOf msixOpen (0#16).toNat).getD func).vectors = [(3, vector)] ∧ vector.pending = true ∧ ((funcOf
      msixOpen (0#16).toNat).getD func).functionMask = false) ∧
    ((funcOf msixMasked (0#16).toNat).isSome = true ∧ ((funcOf msixMasked (0#16).toNat).getD func).msixEnable = true ∧ fnRuns
      msixMasked (0#16).toNat = true ∧ ((funcOf msixMasked (0#16).toNat).getD func).vectors = [(3, vector)] ∧ vector.pending = true
      ∧ ((funcOf msixMasked (0#16).toNat).getD func).functionMask = true) ∧
    ((funcOf msixWaits (0#16).toNat).isSome = true ∧ ((funcOf msixWaits (0#16).toNat).getD func).msixEnable = true ∧ fnRuns
      msixWaits (0#16).toNat = true ∧ ((funcOf msixWaits (0#16).toNat).getD func).vectors = [(3, vectorOpen)] ∧ vectorOpen.pending =
      true ∧ vectorOpen.masked = false) := by and_intros <;> decide +kernel

theorem witness_HostErrorsAndRequests :
    ((endpointOf hosted 0).linkUp = true ∧ (funcOf hosted (32768 * 0)).isSome = true ∧
      (linkErrorBit LinkError.badTlp = (false, (linkErrorBit LinkError.badTlp).snd)) ∧
      (linkErrorBit LinkError.malformed = (true, (linkErrorBit LinkError.malformed).snd)) ∧
      (BitVec.getLsbD (cfgReg hosted (32768 * 0) 268) 16 = false)) ∧
    ((endpointOf hostedFatal 0).linkUp = true ∧ (funcOf hostedFatal (32768 * 0)).isSome = true ∧ BitVec.getLsbD (cfgReg hostedFatal
      (32768 * 0) 268) 16 = true) ∧
    (hostReleased hosted = true ∧ epEnabled hosted 0 = true ∧ (funcOf hosted (32768 * 0)).isSome = true) ∧
    ((List.find? (fun c => !c.started) (adminOf timingOut 0).accepted = some waitingCmd)) ∧
    (queueOf (queued receivingRead) (5#16).toNat = some receivingRead ∧
      (receivingRead.fetching ≠ []) ∧
      (receivingRead.stale = 0 ∧ (∀ (w : Fetched), w ∈ receivingRead.work → w.read = true))) ∧
    (queueOf (queued sendingFrame) (5#16).toNat = some sendingFrame ∧
      (sendingFrame.fetching = []) ∧
      ((sendingFrame.stale ≠ 0 ∨ ∃ w, w ∈ sendingFrame.work ∧ w.read = false))) ∧
    ((dmaEngineOf dmaIdle 1).active = 0) ∧
    ((dmaEngineOf dmaFetched 1).active ≠ 0 ∧ (dmaChannelOf dmaFetched 1 (dmaEngineOf dmaFetched 1).active).desc = none) ∧
    ((dmaEngineOf dmaFlushes 1).active ≠ 0 ∧ (dmaChannelOf dmaFlushes 1 (dmaEngineOf dmaFlushes 1).active).desc.isSome = true ∧
      (dmaChannelOf dmaFlushes 1 (dmaEngineOf dmaFlushes 1).active).flushing = true) ∧
    ((dmaChannelOf dmaReads 1 (dmaEngineOf dmaReads 1).active).desc.isSome = true ∧ (dmaChannelOf dmaReads 1 (dmaEngineOf dmaReads
      1).active).flushing = false ∧ ((dmaChannelOf dmaReads 1 (dmaEngineOf dmaReads 1).active).desc.getD dmaDescZero).srcHbm = true)
      ∧
    ((endpointOf hosted (epOf (0#16).toNat)).linkUp = true ∧ epEnabled hosted (epOf (0#16).toNat) = true ∧ hosted.hif.deviceReady =
      true ∧ (endpointOf hosted (epOf (0#16).toNat)).configReady = true ∧ fnExists hosted (0#16).toNat = true ∧ funcOf hosted
      (0#16).toNat = some func) ∧
    ((endpointOf hosted (epOf (1#16).toNat)).linkUp = true ∧ epEnabled hosted (epOf (1#16).toNat) = true ∧ hosted.hif.deviceReady =
      true ∧ (endpointOf hosted (epOf (1#16).toNat)).configReady = true ∧ fnExists hosted (1#16).toNat = false) ∧
    ((endpointOf epConfigured (epOf (0#16).toNat)).linkUp = true ∧ epEnabled epConfigured (epOf (0#16).toNat) = true ∧
      epConfigured.hif.deviceReady = true ∧ (endpointOf epConfigured (epOf (0#16).toNat)).configReady = false) ∧
    ((32768#16).toNat = 32768 * 1 ∧ (endpointOf windowed 1).linkUp = true ∧ (endpointOf windowed 1).inReset = false ∧ epEnabled
      windowed 1 = true ∧ barAnswers windowed (32768#16).toNat 0 (16842752#28).toNat (Access.read 8) = true ∧ (16842752#28).toNat <
      134217728 ∧ (8 = 4 ∨ 8 = 8) ∧ (16842752#28).toNat % 8 = 0 ∧ (lateStat windowed (if 1 = 0 then Requester.hp0 else
      Requester.hp1) ((16842752#28).toNat / 8 * 8) 8 = some (((lateStat windowed (if 1 = 0 then Requester.hp0 else Requester.hp1)
      ((16842752#28).toNat / 8 * 8) 8).getD (0, 0)).fst, ((lateStat windowed (if 1 = 0 then Requester.hp0 else Requester.hp1)
      ((16842752#28).toNat / 8 * 8) 8).getD (0, 0)).snd))) ∧
    ((0#16).toNat = 32768 * 0 ∧ (endpointOf windowed 0).linkUp = true ∧ (endpointOf windowed 0).inReset = false ∧ epEnabled windowed
      0 = true ∧
      (barAnswers windowed (0#16).toNat 0 (2621448#28).toNat (Access.read 4) = true ∧ (2621448#28).toNat < 134217728 ∧ (4 = 4 ∨ 4 =
        8) ∧ (2621448#28).toNat % 4 = 0 ∧ (lateStat windowed (if 0 = 0 then Requester.hp0 else Requester.hp1) ((2621448#28).toNat /
        8 * 8) 4 = none)) ∧
      (barAnswers windowed (0#16).toNat 0 (201326592#28).toNat (Access.read 4) = true ∧ 201326592 ≤ (201326592#28).toNat ∧ 0 < 4 ∧ 4
        ≤ 512 ∧ (201326592#28).toNat % 4096 + 4 ≤ 4096 ∧ windowed.hif.deviceReady = true ∧ (∀ (i : Nat), i < 4 → apertureGrant
        windowed ((if 0 = 0 then windowed.win.base0 else windowed.win.base1).toNat * 67108864 + ((201326592#28).toNat - 201326592) +
        i) ≠ 0) ∧ (hbmRangeOk windowed ((if 0 = 0 then windowed.win.base0 else windowed.win.base1).toNat * 67108864 +
        ((201326592#28).toNat - 201326592)) 4 = true)) ∧
      (barAnswers windowed (0#16).toNat 0 (201326592#28).toNat (Access.write fourBytes) = true ∧ 201326592 ≤ (201326592#28).toNat ∧
        fourBytes.length ≤ 512 ∧ (201326592#28).toNat % 4096 + fourBytes.length ≤ 4096 ∧ windowed.hif.deviceReady = true ∧ (∀ (i :
        Nat), i < fourBytes.length → apertureGrant windowed ((if 0 = 0 then windowed.win.base0 else windowed.win.base1).toNat *
        67108864 + ((201326592#28).toNat - 201326592) + i) = 2) ∧ (hbmRangeOk windowed ((if 0 = 0 then windowed.win.base0 else
        windowed.win.base1).toNat * 67108864 + ((201326592#28).toNat - 201326592)) fourBytes.length = true) ∧ memoryWf windowed =
        true)) := by and_intros <;> decide +kernel

theorem witness_DmaChannels :
    ((dmaEngineOf dmaIdle 1).active = 0 ∧ dmaNext dmaIdle 1 = some 3) ∧
    ((dmaEngineOf dmaFetchedOff 1).active = 3 ∧ 0 < 3 ∧ 3 < 16 ∧ (dmaChannelOf dmaFetchedOff 1 3).desc = none ∧ dmaRead.length = 64
      ∧ dmaRuns dmaFetchedOff 1 = false) ∧
    ((dmaEngineOf dmaFetched 1).active = 3 ∧ 0 < 3 ∧ 3 < 16 ∧ (dmaChannelOf dmaFetched 1 3).desc = none ∧
      (dmaBad.length = 64 ∧ dmaRuns dmaFetched 1 = true ∧ dmaDescOf false dmaBad = dmaDescOf (featOn dmaFetched (dmaFn 1) featDma)
        dmaBad ∧ dmaWellFormed dmaBad (dmaDescOf false dmaBad) = false) ∧
      (dmaRead.length = 64 ∧ dmaRuns dmaFetched 1 = true ∧ dmaDescOf false dmaRead = dmaDescOf (featOn dmaFetched (dmaFn 1) featDma)
        dmaRead ∧ dmaWellFormed dmaRead (dmaDescOf false dmaRead) = true ∧ (dmaWindowBad dmaFetched = false ∧ ((dmaDescOf false
        dmaRead).srcHbm = true → spanInWindow dmaFetched (dmaDescOf false dmaRead).srcSpan = true) ∧ ((dmaDescOf false
        dmaRead).dstHbm = true → spanInWindow dmaFetched (dmaDescOf false dmaRead).dstSpan = true))) ∧
      (2 < 4 ∧ (dmaChannelOf dmaFetched 1 3).irqOnHalt = false)) ∧
    ((dmaEngineOf dmaNoWindow 1).active = 3 ∧ 0 < 3 ∧ 3 < 16 ∧ (dmaChannelOf dmaNoWindow 1 3).desc = none ∧ dmaRead.length = 64 ∧
      dmaRuns dmaNoWindow 1 = true ∧ dmaDescOf false dmaRead = dmaDescOf (featOn dmaNoWindow (dmaFn 1) featDma) dmaRead ∧
      dmaWellFormed dmaRead (dmaDescOf false dmaRead) = true ∧ (¬(dmaWindowBad dmaNoWindow = false ∧ ((dmaDescOf false
      dmaRead).srcHbm = true → spanInWindow dmaNoWindow (dmaDescOf false dmaRead).srcSpan = true) ∧ ((dmaDescOf false
      dmaRead).dstHbm = true → spanInWindow dmaNoWindow (dmaDescOf false dmaRead).dstSpan = true)))) ∧
    ((dmaEngineOf dmaReads 1).active = 3 ∧ 0 < 3 ∧ 3 < 16 ∧ (dmaChannelOf dmaReads 1 3).desc.isSome = true ∧ dmaRuns dmaReads 1 =
      true ∧ ((dmaChannelOf dmaReads 1 3).desc.getD dmaDescZero).count0 = 1 ∧ ((dmaChannelOf dmaReads 1 3).desc.getD
      dmaDescZero).count1 = 1 ∧ ((dmaChannelOf dmaReads 1 3).desc.getD dmaDescZero).count2 = 1 ∧ (dmaChannelOf dmaReads 1
      3).flushing = false ∧ (dmaReads.hbmU.step = 0 ∨ dmaReads.hbmU.shedUsed < 2 * (dmaReads.app.demand.hostHbm +
      dmaReads.app.demand.storage)) ∧ memoryWf dmaReads = true ∧ (((dmaChannelOf dmaReads 1 3).desc.getD dmaDescZero).srcHbm = true
      → hbmRangeOk dmaReads ((dmaChannelOf dmaReads 1 3).desc.getD dmaDescZero).src ((dmaChannelOf dmaReads 1 3).desc.getD
      dmaDescZero).elem = true)) ∧
    ((dmaEngineOf dmaFlushes 1).active = 3 ∧ 0 < 3 ∧ 3 < 16 ∧ (dmaChannelOf dmaFlushes 1 3).desc.isSome = true ∧ dmaRuns dmaFlushes
      1 = true ∧ (dmaChannelOf dmaFlushes 1 3).flushing = true) ∧
    (0 < (dmaEngineOf dmaReads 1).active ∧ (dmaEngineOf dmaReads 1).active < 16 ∧ (dmaChannelOf dmaReads 1 (dmaEngineOf dmaReads
      1).active).desc.isSome = true ∧ (dmaChannelOf dmaReads 1 (dmaEngineOf dmaReads 1).active).flushing = false ∧
      (dmaReads.hbmU.step = 0 ∨ dmaReads.hbmU.shedUsed < 2 * (dmaReads.app.demand.hostHbm + dmaReads.app.demand.storage)) ∧ 4 ≠ 5 ∧
      ((dmaChannelOf dmaReads 1 (dmaEngineOf dmaReads 1).active).desc.getD dmaDescZero).srcHbm = (4 == 4) ∧ ((0#16).toNat,
      (0#16).toNat, (0#16).toNat) ∈ ((dmaChannelOf dmaReads 1 (dmaEngineOf dmaReads 1).active).desc.getD dmaDescZero).elements) ∧
    ((dmaChannelOf dmaShed 1 (dmaEngineOf dmaShed 1).active).flushing = false ∧ dmaShed.hbmU.step ≠ 0 ∧ 2 *
      (dmaShed.app.demand.hostHbm + dmaShed.app.demand.storage) ≤ dmaShed.hbmU.shedUsed) ∧
    (3 ≠ 0 ∧
      ((dmaChannelOf dmaHalted 1 3).state = DmaState.halted ∧ (dmaEngineOf dmaHalted 1).active ≠ 3 ∧ dmaRuns dmaHalted 1 = true ∧
        (dmaEngineOf dmaHalted 1).active = 0) ∧
      ((dmaChannelOf dmaHaltedOff 1 3).state = DmaState.halted ∧ (dmaEngineOf dmaHaltedOff 1).active ≠ 3 ∧ dmaRuns dmaHaltedOff 1 =
        false) ∧
      ((dmaChannelOf dmaOff 1 3).state ≠ DmaState.halted) ∧
      ((196611#64).getLsbD 0 = true ∧ (dmaChannelOf dmaOff 1 3).enable = false ∧ (dmaChannelOf dmaOff 1 3).state = DmaState.disabled
        ∧ 2 ≤ (196611#64).toNat / 2 ^ 16 % 2 ^ 11) ∧
      (BitVec.toNat ((16#16) - (dmaChannelOf dmaHalted 1 3).head) ≤ 2 ^ (dmaChannelOf dmaHalted 1 3).sizeLog2.toNat) ∧
      (2 ^ (dmaChannelOf dmaHalted 1 3).sizeLog2.toNat < BitVec.toNat ((64#16) - (dmaChannelOf dmaHalted 1 3).head))) := by and_intros <;> decide +kernel

theorem witness_Mailboxes :
    (boxActive boxEmpty 3 = true ∧ boxOwner boxEmpty 3 = 0 ∧ (boxOf boxEmpty 3).rejectOther = false ∧ (boxOf boxEmpty 3).h2sFull =
      false ∧ (fourBytes.length = 4 ∨ fourBytes.length = 8) ∧ 8 % fourBytes.length = 0) ∧
    (boxActive boxEcho 3 = true ∧ boxOwner boxEcho 3 = 0 ∧ (boxOf boxEcho 3).rejectOther = false ∧ (boxOf boxEcho 3).h2sFull = true
      ∧ (fourBytes.length = 4 ∨ fourBytes.length = 8) ∧ 8 % fourBytes.length = 0) ∧
    (boxNext boxEcho = some 3 ∧ releasedOf boxEcho 6 = true ∧ boxEcho.rst.restarting = false ∧ boxWellFormed (boxOf boxEcho 3).h2s =
      true ∧ leAt (boxOf boxEcho 3).h2s 0 1 = 1 ∧ (boxOf boxEcho 3).s2hFull = false ∧ BitVec.getLsbD (boxMask boxEcho (boxOwner
      boxEcho 3)) 3 = true) ∧
    (boxNext boxEchoHeld = some 3 ∧ releasedOf boxEchoHeld 6 = true ∧ boxEchoHeld.rst.restarting = false ∧ boxWellFormed (boxOf
      boxEchoHeld 3).h2s = true ∧ leAt (boxOf boxEchoHeld 3).h2s 0 1 = 1 ∧ (boxOf boxEchoHeld 3).s2hFull = true) ∧
    (boxNext boxToChannel = some 3 ∧ releasedOf boxToChannel 6 = true ∧ boxToChannel.rst.restarting = false ∧ boxWellFormed (boxOf
      boxToChannel 3).h2s = true ∧ leAt (boxOf boxToChannel 3).h2s 0 1 = 2 ∧ (boxOf boxToChannel 3).s2hFull = true ∧ (channelOf
      boxToChannel (leAt (boxOf boxToChannel 3).h2s 4 3)).isSome = true ∧ ((channelOf boxToChannel (leAt (boxOf boxToChannel 3).h2s
      4 3)).getD channel).bind.inbox.isSome = true ∧ isControl (leAt (boxOf boxToChannel 3).h2s 4 3) = false ∧ ((channelOf
      boxToChannel (leAt (boxOf boxToChannel 3).h2s 4 3)).getD channel).inbox.length + ((channelOf boxToChannel (leAt (boxOf
      boxToChannel 3).h2s 4 3)).getD channel).held.length < 8) ∧
    (boxNext boxAlive = some 3 ∧ releasedOf boxAlive 6 = true ∧ boxAlive.rst.restarting = false ∧ boxWellFormed (boxOf boxAlive
      3).h2s = true ∧ leAt (boxOf boxAlive 3).h2s 0 1 = 3) ∧
    ((boxOf boxPosts 3).s2hFull = false ∧ releasedOf boxPosts 6 = true ∧ boxPosts.rst.restarting = false ∧ (boxOf boxPosts
      3).heldReply = none ∧ (boxOf boxPosts 3).heldEngine = some engineMail ∧ boxActive boxPosts 3 = true ∧ BitVec.getLsbD (boxMask
      boxPosts (boxOwner boxPosts 3)) 3 = true) ∧
    ((boxOf boxLost 3).s2hFull = false ∧ releasedOf boxLost 6 = true ∧ boxLost.rst.restarting = false ∧ (boxOf boxLost 3).heldReply
      = none ∧ (boxOf boxLost 3).heldEngine = some engineMail ∧ boxActive boxLost 3 = false) ∧
    ((∀ (m : Nat), m < 32 → BitVec.getLsbD boxToChannel.mbx.mask0 m = true → (4294967295#32).getLsbD m = true)) ∧
    (supPending.eng.supQueue = bit15Msg :: noMsgs ∧ releasedOf supPending 6 = true ∧ supPending.rst.restarting = false ∧
      adminPending supPending = true) ∧
    (supFree.eng.supQueue = bit15Msg :: noMsgs ∧ releasedOf supFree 6 = true ∧ supFree.rst.restarting = false ∧ adminPending supFree
      = false ∧ BitVec.getLsbD bit15Msg.tag 15 = true ∧ boxActive supFree (BitVec.toNat bit15Msg.tag % 32) = true ∧ (boxOf supFree
      (BitVec.toNat bit15Msg.tag % 32)).heldEngine = none) ∧
    (supBusy.eng.supQueue = bit15Msg :: noMsgs ∧ releasedOf supBusy 6 = true ∧ supBusy.rst.restarting = false ∧ adminPending supBusy
      = false ∧ BitVec.getLsbD bit15Msg.tag 15 = true ∧ boxActive supBusy (BitVec.toNat bit15Msg.tag % 32) = true ∧ (boxOf supBusy
      (BitVec.toNat bit15Msg.tag % 32)).heldEngine.isSome = true) := by and_intros <;> decide +kernel

theorem witness_StorageAdminCommands :
    (Spec.adminWaits ctlNoId 0 ctl (sq 0) cq sqCreate 1 ∧ queueRefused ctlNoId ctl sqCreate (thas ctl.sqs (fieldN (dw10 sqCreate) 0
      16)) = none ∧ fieldN (dw11 sqCreate) 16 16 ≠ 0 ∧ thas ctl.cqs (fieldN (dw11 sqCreate) 16 16) = true ∧ nvmeQueueId ctlNoId
      (BitVec.toNat ctl.fn) = none) ∧
    (Spec.adminWaits ctlState 0 ctl (sq 0) cq sqCreate 1 ∧ queueRefused ctlState ctl sqCreate (thas ctl.sqs (fieldN (dw10 sqCreate)
      0 16)) = none ∧ fieldN (dw11 sqCreate) 16 16 ≠ 0 ∧ thas ctl.cqs (fieldN (dw11 sqCreate) 16 16) = true ∧ (nvmeQueueId ctlState
      (BitVec.toNat ctl.fn)).isSome = true) ∧
    (Spec.adminWaits ctlState 0 ctl (sq 0) cq cqCreate 5 ∧ queueRefused ctlState ctl cqCreate (thas ctl.cqs (fieldN (dw10 cqCreate)
      0 16)) = none ∧ fieldN (dw11 cqCreate) 16 16 < 65) ∧
    (Spec.adminWaits ctlState 0 ctl (sq 0) cq sqDelete 0 ∧ fieldN (dw10 sqDelete) 0 16 ≠ 0 ∧ thas ctl.sqs (fieldN (dw10 sqDelete) 0
      16) = true ∧ ctlState.sto.cmds = [] ∧ trising none ctl.sqs = true) ∧
    (Spec.adminWaits ctlState 0 ctl (sq 0) cq (cqDelete 3) 4 ∧ fieldN (dw10 (cqDelete 3)) 0 16 ≠ 0 ∧ thas ctl.cqs (fieldN (dw10
      (cqDelete 3)) 0 16) = true ∧ trising none ctl.cqs = true ∧ ((List.any ctl.sqs fun e => e.snd.cqid == fieldN (dw10 (cqDelete
      3)) 0 16) = false) ∧ fieldN (dw10 (cqDelete 3)) 0 16 ≠ (sq 0).cqid) ∧
    (Spec.adminWaits ctlState 0 ctl (sq 0) cq (cqDelete 1) 4 ∧ fieldN (dw10 (cqDelete 1)) 0 16 ≠ 0 ∧ thas ctl.cqs (fieldN (dw10
      (cqDelete 1)) 0 16) = true ∧ trising none ctl.cqs = true ∧ ((List.any ctl.sqs fun e => e.snd.cqid == fieldN (dw10 (cqDelete
      1)) 0 16) = true)) ∧
    (Spec.adminWaits ctlState 0 ctl (sq 0) cq logChanged 2 ∧ (logPage ctlState ctl (fieldN (dw10 logChanged) 0 8)).isSome = true ∧
      leAt logChanged 24 8 % 4096 = 0 ∧ ((logPage ctlState ctl (fieldN (dw10 logChanged) 0 8)).getD []).length ≤ 4096) ∧
    (Spec.adminWaits ctlState 0 ctl (sq 0) cq identifyCtl 6 ∧ (identifyData ctlState 0 (fieldN (dw10 identifyCtl) 0 8) (leAt
      identifyCtl 4 4)).isSome = true ∧ leAt identifyCtl 24 8 % 4096 = 0 ∧ ((identifyData ctlState 0 (fieldN (dw10 identifyCtl) 0 8)
      (leAt identifyCtl 4 4)).getD []).length ≤ 4096) ∧
    (Spec.adminWaits ctlState 0 ctl (sq 0) cq abortEntry 8 ∧ ioOf ctlState 0 (fieldN (dw10 abortEntry) 0 16) (BitVec.ofNat 16 (dw10
      abortEntry / 65536)) = none) ∧
    (Spec.adminWaits abortSent 0 ctl (sq 0) cq abortEntry 8 ∧ ioOf abortSent 0 (fieldN (dw10 abortEntry) 0 16) (BitVec.ofNat 16
      (dw10 abortEntry / 65536)) = some cmdSent ∧ ioWasSent cmdSent = true) ∧
    (Spec.adminWaits abortWaits 0 ctl (sq 0) cq abortEntry 8 ∧ ioOf abortWaits 0 (fieldN (dw10 abortEntry) 0 16) (BitVec.ofNat 16
      (dw10 abortEntry / 65536)) = some cmdWaits ∧ abortWaits.sto.cmds = [cmdWaits] ∧ ioWasSent cmdWaits = false) ∧
    (Spec.adminWaits ctlState 0 ctl (sq 0) cq (setFeature 1 51) 9 ∧ fieldN (dw10 (setFeature 1 51)) 0 8 = 1) ∧
    (Spec.adminWaits ctlState 0 ctl (sq 0) cq (setFeature 6 0) 9 ∧ fieldN (dw10 (setFeature 6 0)) 0 8 = 6) ∧
    (Spec.adminWaits ctlState 0 ctl (sq 0) cq (setFeature 8 258) 9 ∧ fieldN (dw10 (setFeature 8 258)) 0 8 = 8) ∧
    (Spec.adminWaits ctlState 0 ctl (sq 0) cq (setFeature 11 768) 9 ∧ fieldN (dw10 (setFeature 11 768)) 0 8 = 11) ∧
    (Spec.adminWaits ctlBareState 0 ctlBare (sq 0) cq (setFeature 7 1048592) 9 ∧ fieldN (dw10 (setFeature 7 1048592)) 0 8 = 7 ∧
      fieldN (dw11 (setFeature 7 1048592)) 0 16 ≠ 65535 ∧ fieldN (dw11 (setFeature 7 1048592)) 16 16 ≠ 65535 ∧ List.length
      ctlBare.sqs ≤ 1 ∧ List.length ctlBare.cqs ≤ 1) ∧
    (Spec.adminWaits ctlState 0 ctl (sq 0) cq (getFeature 1) 10 ∧ fieldN (dw10 (getFeature 1)) 0 8 = 1) ∧
    (Spec.adminWaits ctlState 0 ctl (sq 0) cq (getFeature 6) 10 ∧ fieldN (dw10 (getFeature 6)) 0 8 = 6) ∧
    (Spec.adminWaits ctlState 0 ctl (sq 0) cq (getFeature 7) 10 ∧ fieldN (dw10 (getFeature 7)) 0 8 = 7) ∧
    (Spec.adminWaits ctlState 0 ctl (sq 0) cq (getFeature 8) 10 ∧ fieldN (dw10 (getFeature 8)) 0 8 = 8) ∧
    (Spec.adminWaits ctlState 0 ctl (sq 0) cq (getFeature 11) 10 ∧ fieldN (dw10 (getFeature 11)) 0 8 = 11) ∧
    (Spec.adminWaits ctlState 0 ctl (sq 0) cq aerEntry 12 ∧ ctl.aers.length < 4 ∧ ctl.notice = Notice.none_) ∧
    (Spec.adminWaits ctlDueState 0 ctlDue (sq 0) cq aerEntry 12 ∧ ctlDue.aers = [] ∧ ctlDue.notice = Notice.due) ∧
    (Spec.adminWaits ctlFullState 0 ctlFull (sq 0) cq aerEntry 12 ∧ 4 ≤ ctlFull.aers.length) := by
  unfold Spec.adminWaits Spec.canAnswer
  and_intros <;> decide +kernel

theorem witness_StorageCommands :
    (Spec.canAnswer ctlState 0 ((ctlOf ctlState 0).getD ctl) (1#16).toNat ((tget ((ctlOf ctlState 0).getD ctl).sqs
      (1#16).toNat).getD sqZero) ((tget ((ctlOf ctlState 0).getD ctl).cqs ((tget ((ctlOf ctlState 0).getD ctl).sqs
      (1#16).toNat).getD sqZero).cqid).getD cq) ∧ (1#16) ≠ (0 : W16) ∧ ioFetches ctlState 0 (1#16).toNat = true ∧
      (ioBadOp.length = 64 ∧ ioCheck ctlState 0 ioBadOp ioBadOp = Except.error (1, 0)) ∧
      ((ioBytes 1).length = 64 ∧ ioCheck ctlState 0 (ioBytes 1) (ioBytes 1) = Except.ok (IoOp.write, 40) ∧ ctlState.sto.cmds = [] ∧
        (granuleTake ctlState (ioCmdOf ctlState 0 (1#16).toNat (ioBytes 1) (ioBytes 1) IoOp.write 40).need).isSome = true ∧
        (IoOp.write = IoOp.read → pathsFor ctlState (nsOf ctlState 40) = []))) ∧
    (Spec.pathsFree stDataIn cmdDataIn = (List.filter (fabricRoom stDataIn cmdDataIn cmdDataIn.space.target) (pathsFor stDataIn
      cmdDataIn.space)).head?.getD 0 :: (List.filter (fabricRoom stDataIn cmdDataIn cmdDataIn.space.target) (pathsFor stDataIn
      cmdDataIn.space)).tail ∧ channelIdle stDataIn cmdDataIn.space.channel = false ∧ (targetOf stDataIn
      cmdDataIn.space.target).isSome = true ∧ Spec.onlyCmd stDataIn 0 (1#16) (153#16) IoOp.write IoStage.dataIn cmdDataIn ∧ fnRuns
      stDataIn ((ctlFn stDataIn 0).getD 0) = true ∧ bufsAnswer stDataIn cmdDataIn.bufs = true ∧ shedOpen stDataIn = true ∧
      cmdDataIn.space.xts = false) ∧
    (Spec.pathsFree (stXts cmdDataIn) (ioXts cmdDataIn) = 0 :: (List.filter (fabricRoom (stXts cmdDataIn) (ioXts cmdDataIn) (ioXts
      cmdDataIn).space.target) (pathsFor (stXts cmdDataIn) (ioXts cmdDataIn).space)).tail ∧ channelIdle (stXts cmdDataIn) (ioXts
      cmdDataIn).space.channel = false ∧ (targetOf (stXts cmdDataIn) (ioXts cmdDataIn).space.target).isSome = true ∧ Spec.onlyCmd
      (stXts cmdDataIn) 0 (1#16) (153#16) IoOp.write IoStage.dataIn (ioXts cmdDataIn) ∧ fnRuns (stXts cmdDataIn) ((ctlFn (stXts
      cmdDataIn) 0).getD 0) = true ∧ bufsAnswer (stXts cmdDataIn) (ioXts cmdDataIn).bufs = true ∧ shedOpen (stXts cmdDataIn) = true
      ∧ (ioXts cmdDataIn).space.xts = true ∧ xtsServes (stXts cmdDataIn) (ioXts cmdDataIn).space = true) ∧
    (Spec.pathsFree stDataShed cmdDataIn = (List.filter (fabricRoom stDataShed cmdDataIn cmdDataIn.space.target) (pathsFor
      stDataShed cmdDataIn.space)).head?.getD 0 :: (List.filter (fabricRoom stDataShed cmdDataIn cmdDataIn.space.target) (pathsFor
      stDataShed cmdDataIn.space)).tail ∧ channelIdle stDataShed cmdDataIn.space.channel = false ∧ (targetOf stDataShed
      cmdDataIn.space.target).isSome = true ∧ Spec.onlyCmd stDataShed 0 (1#16) (153#16) IoOp.write IoStage.dataIn cmdDataIn ∧
      bufsAnswer stDataShed cmdDataIn.bufs = true ∧ (shedOpen stDataShed = false ∨ ¬fnRuns stDataShed ((ctlFn stDataShed 0).getD 0)
      = true)) ∧
    (Spec.pathsFree stZeroes cmdZeroes = (List.filter (fabricRoom stZeroes cmdZeroes cmdZeroes.space.target) (pathsFor stZeroes
      cmdZeroes.space)).head?.getD 0 :: (List.filter (fabricRoom stZeroes cmdZeroes cmdZeroes.space.target) (pathsFor stZeroes
      cmdZeroes.space)).tail ∧ channelIdle stZeroes cmdZeroes.space.channel = false ∧ (targetOf stZeroes
      cmdZeroes.space.target).isSome = true ∧ cmdZeroes.space.xts = false ∧ Spec.onlyCmd stZeroes 0 (1#16) (153#16) IoOp.writeZeroes
      IoStage.carryOut cmdZeroes) ∧
    (Spec.pathsFree (stXts cmdZeroes) (ioXts cmdZeroes) = 0 :: (List.filter (fabricRoom (stXts cmdZeroes) (ioXts cmdZeroes) (ioXts
      cmdZeroes).space.target) (pathsFor (stXts cmdZeroes) (ioXts cmdZeroes).space)).tail ∧ channelIdle (stXts cmdZeroes) (ioXts
      cmdZeroes).space.channel = false ∧ (targetOf (stXts cmdZeroes) (ioXts cmdZeroes).space.target).isSome = true ∧ (ioXts
      cmdZeroes).space.xts = true ∧ xtsServes (stXts cmdZeroes) (ioXts cmdZeroes).space = true ∧ bufsAnswer (stXts cmdZeroes) (ioXts
      cmdZeroes).bufs = true ∧ Spec.onlyCmd (stXts cmdZeroes) 0 (1#16) (153#16) IoOp.writeZeroes IoStage.carryOut (ioXts cmdZeroes)
      ∧ shedOpen (stXts cmdZeroes) = true) ∧
    (Spec.pathsFree (stShed (stXts cmdZeroes)) (ioXts cmdZeroes) = 0 :: (List.filter (fabricRoom (stShed (stXts cmdZeroes)) (ioXts
      cmdZeroes) (ioXts cmdZeroes).space.target) (pathsFor (stShed (stXts cmdZeroes)) (ioXts cmdZeroes).space)).tail ∧ channelIdle
      (stShed (stXts cmdZeroes)) (ioXts cmdZeroes).space.channel = false ∧ (targetOf (stShed (stXts cmdZeroes)) (ioXts
      cmdZeroes).space.target).isSome = true ∧ (ioXts cmdZeroes).space.xts = true ∧ xtsServes (stShed (stXts cmdZeroes)) (ioXts
      cmdZeroes).space = true ∧ bufsAnswer (stShed (stXts cmdZeroes)) (ioXts cmdZeroes).bufs = true ∧ Spec.onlyCmd (stShed (stXts
      cmdZeroes)) 0 (1#16) (153#16) IoOp.writeZeroes IoStage.carryOut (ioXts cmdZeroes) ∧ shedOpen (stShed (stXts cmdZeroes)) =
      false) ∧
    (Spec.pathsFree stDsm ioDsm = (List.filter (fabricRoom stDsm ioDsm ioDsm.space.target) (pathsFor stDsm ioDsm.space)).head?.getD
      0 :: (List.filter (fabricRoom stDsm ioDsm ioDsm.space.target) (pathsFor stDsm ioDsm.space)).tail ∧ channelIdle stDsm
      ioDsm.space.channel = false ∧ (targetOf stDsm ioDsm.space.target).isSome = true ∧ Spec.onlyCmd stDsm 0 (1#16) (153#16)
      IoOp.dsm IoStage.carryOut ioDsm) ∧
    ((Spec.pathsFree stZeroesLost cmdZeroes = [] ∨ channelIdle stZeroesLost cmdZeroes.space.channel = true) ∧ cmdZeroes.space.xts =
      false ∧ Spec.onlyCmd stZeroesLost 0 (1#16) (153#16) IoOp.writeZeroes IoStage.carryOut cmdZeroes) ∧
    ((Spec.pathsFree stDsmLost ioDsm = [] ∨ channelIdle stDsmLost ioDsm.space.channel = true) ∧ Spec.onlyCmd stDsmLost 0 (1#16)
      (153#16) IoOp.dsm IoStage.carryOut ioDsm) ∧
    (Spec.canAnswer stDataIn 0 ((ctlOf stDataIn 0).getD ctl) (1#16).toNat ((tget ((ctlOf stDataIn 0).getD ctl).sqs
      (1#16).toNat).getD sqZero) ((tget ((ctlOf stDataIn 0).getD ctl).cqs ((tget ((ctlOf stDataIn 0).getD ctl).sqs
      (1#16).toNat).getD sqZero).cqid).getD cq) ∧ ((ctlOf stDataIn 0).getD ctl).shst = (0 : BitVec 2) ∧ ctlFn stDataIn 0 = some
      (BitVec.toNat ((ctlOf stDataIn 0).getD ctl).fn) ∧ (targetOf stDataIn cmdDataIn.space.target).isSome = true ∧ Spec.onlyCmd
      stDataIn 0 (1#16) (153#16) IoOp.write IoStage.dataIn cmdDataIn) ∧
    (Spec.canAnswer stFlush 0 ((ctlOf stFlush 0).getD ctl) (1#16).toNat ((tget ((ctlOf stFlush 0).getD ctl).sqs (1#16).toNat).getD
      sqZero) ((tget ((ctlOf stFlush 0).getD ctl).cqs ((tget ((ctlOf stFlush 0).getD ctl).sqs (1#16).toNat).getD sqZero).cqid).getD
      cq) ∧ ((ctlOf stFlush 0).getD ctl).shst = (0 : BitVec 2) ∧ ctlFn stFlush 0 = some (BitVec.toNat ((ctlOf stFlush 0).getD
      ctl).fn) ∧ (targetOf stFlush cmdFlush.space.target).isSome = true ∧ Spec.onlyCmd stFlush 0 (1#16) (153#16) IoOp.flush
      IoStage.carryOut cmdFlush ∧ flushTargets stFlush cmdFlush = []) ∧
    (Spec.canAnswer stFlushSends 0 ((ctlOf stFlushSends 0).getD ctl) (1#16).toNat ((tget ((ctlOf stFlushSends 0).getD ctl).sqs
      (1#16).toNat).getD sqZero) ((tget ((ctlOf stFlushSends 0).getD ctl).cqs ((tget ((ctlOf stFlushSends 0).getD ctl).sqs
      (1#16).toNat).getD sqZero).cqid).getD cq) ∧ ((ctlOf stFlushSends 0).getD ctl).shst = (0 : BitVec 2) ∧ ctlFn stFlushSends 0 =
      some (BitVec.toNat ((ctlOf stFlushSends 0).getD ctl).fn) ∧ (targetOf stFlushSends cmdFlush.space.target).isSome = true ∧
      Spec.onlyCmd stFlushSends 0 (1#16) (153#16) IoOp.flush IoStage.carryOut cmdFlush ∧ flushTargets stFlushSends cmdFlush =
      [(flushTargets stFlushSends cmdFlush).head?.getD 0] ∧ (flushPath stFlushSends cmdFlush ((flushTargets stFlushSends
      cmdFlush).head?.getD 0)).isSome = true ∧ channelIdle stFlushSends cmdFlush.space.channel = false) ∧
    (Spec.canAnswer stRead 0 ((ctlOf stRead 0).getD ctl) (1#16).toNat ((tget ((ctlOf stRead 0).getD ctl).sqs (1#16).toNat).getD
      sqZero) ((tget ((ctlOf stRead 0).getD ctl).cqs ((tget ((ctlOf stRead 0).getD ctl).sqs (1#16).toNat).getD sqZero).cqid).getD
      cq) ∧ ((ctlOf stRead 0).getD ctl).shst = (0 : BitVec 2) ∧ ctlFn stRead 0 = some (BitVec.toNat ((ctlOf stRead 0).getD ctl).fn)
      ∧ (targetOf stRead cmdRead.space.target).isSome = true ∧ Spec.onlyCmd stRead 0 (1#16) (153#16) IoOp.read IoStage.dataOut
      cmdRead ∧ bufsAnswer stRead cmdRead.bufs = true ∧ shedOpen stRead = true) ∧
    (Spec.canAnswer stSent 0 ctl (1#16).toNat (sq 1) cq ∧ ctl.shst = (0 : BitVec 2) ∧ ctlFn stSent 0 = some (BitVec.toNat ctl.fn) ∧
      (targetOf stSent cmdSent.space.target).isSome = true ∧
      ((↑(answer (AnswerKind.completion (0 : W16))).target, ↑(answer (AnswerKind.completion (0 : W16))).path) ∈ cmdSent.sentTo ∧
        (answer (AnswerKind.completion (0 : W16))).kind = AnswerKind.completion (0#16) ∧ Spec.onlyCmd stSent 0 (1#16) (153#16)
        IoOp.write IoStage.sent cmdSent) ∧
      ((↑(answer (AnswerKind.pull (9 : W16) 0 512)).target, ↑(answer (AnswerKind.pull (9 : W16) 0 512)).path) ∈ cmdSent.sentTo ∧
        (answer (AnswerKind.pull (9 : W16) 0 512)).ecn = false ∧ (answer (AnswerKind.pull (9 : W16) 0 512)).kind = AnswerKind.pull
        (9#16) 0 512 ∧ Spec.onlyCmd stSent 0 (1#16) (153#16) IoOp.write IoStage.sent cmdSent ∧ ↑(answer (AnswerKind.pull (9 : W16) 0
        512)).target = cmdSent.space.target ∧ shedOpen stSent = true ∧ List.take 512 (List.drop 0 (bufRead stSent cmdSent.bufs
        (cmdSent.blocks * nsLba cmdSent.space))) ≠ [])) ∧
    (Spec.canAnswer stReadSent 0 ctl (1#16).toNat (sq 1) cq ∧ ctl.shst = (0 : BitVec 2) ∧ ctlFn stReadSent 0 = some (BitVec.toNat
      ctl.fn) ∧ (targetOf stReadSent cmdReadSent.space.target).isSome = true ∧
      ((↑(answer (AnswerKind.completion (0 : W16))).target, ↑(answer (AnswerKind.completion (0 : W16))).path) ∈ cmdReadSent.sentTo ∧
        (answer (AnswerKind.completion (0 : W16))).kind = AnswerKind.completion (0#16) ∧ Spec.onlyCmd stReadSent 0 (1#16) (153#16)
        IoOp.read IoStage.sent cmdReadSent ∧ (answer (AnswerKind.completion (0 : W16))).ecn = false ∧ guestStatus (0#16).toNat % 2 ^
        11 = 0 ∧ bufsAnswer stReadSent cmdReadSent.bufs = true ∧ cmdReadSent.space.xts = false) ∧
      ((↑(answer (AnswerKind.data 0)).target, ↑(answer (AnswerKind.data 0)).path) ∈ cmdReadSent.sentTo ∧ (answer (AnswerKind.data
        0)).ecn = false ∧ (answer (AnswerKind.data 0)).kind = AnswerKind.data 0 ∧ Spec.onlyCmd stReadSent 0 (1#16) (153#16)
        IoOp.read IoStage.sent cmdReadSent ∧ shedOpen stReadSent = true)) ∧
    (Spec.canAnswer (stXts cmdReadSent) 0 ctl (1#16).toNat (sq 1) cq ∧ ctl.shst = (0 : BitVec 2) ∧ ctlFn (stXts cmdReadSent) 0 =
      some (BitVec.toNat ctl.fn) ∧ (targetOf (stXts cmdReadSent) (ioXts cmdReadSent).space.target).isSome = true ∧ (↑(answer
      (AnswerKind.completion (0 : W16))).target, ↑(answer (AnswerKind.completion (0 : W16))).path) ∈ (ioXts cmdReadSent).sentTo ∧
      (answer (AnswerKind.completion (0 : W16))).kind = AnswerKind.completion (0#16) ∧ Spec.onlyCmd (stXts cmdReadSent) 0 (1#16)
      (153#16) IoOp.read IoStage.sent (ioXts cmdReadSent) ∧ (answer (AnswerKind.completion (0 : W16))).ecn = false ∧ guestStatus
      (0#16).toNat % 2 ^ 11 = 0 ∧ bufsAnswer (stXts cmdReadSent) (ioXts cmdReadSent).bufs = true ∧ (ioXts cmdReadSent).space.xts =
      true ∧ xtsServes (stXts cmdReadSent) (ioXts cmdReadSent).space = true) ∧
    (Spec.canAnswer (stShed stReadSent) 0 ctl (1#16).toNat (sq 1) cq ∧ ctl.shst = (0 : BitVec 2) ∧ ctlFn (stShed stReadSent) 0 =
      some (BitVec.toNat ctl.fn) ∧ (targetOf (stShed stReadSent) cmdReadSent.space.target).isSome = true ∧ (↑(answer
      (AnswerKind.data 0)).target, ↑(answer (AnswerKind.data 0)).path) ∈ cmdReadSent.sentTo ∧ (answer (AnswerKind.data 0)).ecn =
      false ∧ (answer (AnswerKind.data 0)).kind = AnswerKind.data 0 ∧ Spec.onlyCmd (stShed stReadSent) 0 (1#16) (153#16) IoOp.read
      IoStage.sent cmdReadSent ∧ shedOpen (stShed stReadSent) = false) ∧
    (Spec.canAnswer (stShed stDataIn) 0 ctl (1#16).toNat (sq 1) cq ∧ ctl.shst = (0 : BitVec 2) ∧ ctlFn (stShed stDataIn) 0 = some
      (BitVec.toNat ctl.fn) ∧ (targetOf (stShed stDataIn) cmdDataIn.space.target).isSome = true ∧ ¬(↑(answer (AnswerKind.data
      0)).target, ↑(answer (AnswerKind.data 0)).path) ∈ cmdDataIn.sentTo ∧ (stShed stDataIn).sto.cmds = [cmdDataIn] ∧ (answer
      (AnswerKind.data 0)).ecn = false) ∧
    (Spec.canAnswer stSent 0 ((ctlOf stSent 0).getD ctl) (1#16).toNat ((tget ((ctlOf stSent 0).getD ctl).sqs (1#16).toNat).getD
      sqZero) ((tget ((ctlOf stSent 0).getD ctl).cqs ((tget ((ctlOf stSent 0).getD ctl).sqs (1#16).toNat).getD sqZero).cqid).getD
      cq) ∧ ((ctlOf stSent 0).getD ctl).shst = (0 : BitVec 2) ∧ ctlFn stSent 0 = some (BitVec.toNat ((ctlOf stSent 0).getD ctl).fn)
      ∧ (targetOf stSent cmdSent.space.target).isSome = true ∧ Spec.onlyCmd stSent 0 (1#16) (153#16) IoOp.write IoStage.sent cmdSent
      ∧ cmdSent.sentTo = [(cmdSent.space.target, (cmdSent.sentTo.head?.getD (0, 0)).snd)] ∧ BitVec.toNat stSent.tmb.tick <
      cmdSent.sentTick + stSent.sto.ioTimeout) ∧
    (Spec.canAnswer stSpent 0 ((ctlOf stSpent 0).getD ctl) (1#16).toNat ((tget ((ctlOf stSpent 0).getD ctl).sqs (1#16).toNat).getD
      sqZero) ((tget ((ctlOf stSpent 0).getD ctl).cqs ((tget ((ctlOf stSpent 0).getD ctl).sqs (1#16).toNat).getD sqZero).cqid).getD
      cq) ∧ ((ctlOf stSpent 0).getD ctl).shst = (0 : BitVec 2) ∧ ctlFn stSpent 0 = some (BitVec.toNat ((ctlOf stSpent 0).getD
      ctl).fn) ∧ (targetOf stSpent cmdSpent.space.target).isSome = true ∧ Spec.onlyCmd stSpent 0 (1#16) (153#16) IoOp.write
      IoStage.sent cmdSpent ∧ 6 = cmdSpent.space.target ∧ cmdSpent.sentTo = [(6, 0)] ∧ cmdSpent.sentTick + stSpent.sto.ioTimeout ≤
      BitVec.toNat stSpent.tmb.tick ∧ stSpent.sto.retryLimit ≤ cmdSpent.reissues) ∧
    (Spec.canAnswer stLate 0 ((ctlOf stLate 0).getD ctl) (1#16).toNat ((tget ((ctlOf stLate 0).getD ctl).sqs (1#16).toNat).getD
      sqZero) ((tget ((ctlOf stLate 0).getD ctl).cqs ((tget ((ctlOf stLate 0).getD ctl).sqs (1#16).toNat).getD sqZero).cqid).getD
      cq) ∧ ((ctlOf stLate 0).getD ctl).shst = (0 : BitVec 2) ∧ ctlFn stLate 0 = some (BitVec.toNat ((ctlOf stLate 0).getD ctl).fn)
      ∧ (targetOf stLate cmdLate.space.target).isSome = true ∧ Spec.onlyCmd stLate 0 (1#16) (153#16) IoOp.write IoStage.sent cmdLate
      ∧ 6 = cmdLate.space.target ∧ cmdLate.sentTo = [(6, 0)] ∧ cmdLate.sentTick + stLate.sto.ioTimeout ≤ BitVec.toNat
      stLate.tmb.tick ∧ cmdLate.reissues < stLate.sto.retryLimit ∧ reissuePath stLate cmdLate (6, 0) = some (6, 1)) ∧
    ((ctlOf ctlOffState 0).isSome = true ∧ BitVec.getLsbD ((ctlOf ctlOffState 0).getD ctl).cc 0 = false ∧ (1#32).getLsbD 0 = true ∧
      (1#32).toNat / 16 % 1024 = 0 ∧ (1#32).toNat / 16384 % 4 = 0 ∧ (ctlFn ctlOffState 0).isSome = true ∧ (nvmeQueueId ctlOffState
      ((ctlFn ctlOffState 0).getD 0)).isSome = true) ∧
    ((ctlOf ctlOffNoId 0).isSome = true ∧ BitVec.getLsbD ((ctlOf ctlOffNoId 0).getD ctl).cc 0 = false ∧ (1#32).getLsbD 0 = true ∧
      (1#32).toNat / 16 % 1024 = 0 ∧ (1#32).toNat / 16384 % 4 = 0 ∧ (ctlFn ctlOffNoId 0).isSome = true ∧ nvmeQueueId ctlOffNoId
      ((ctlFn ctlOffNoId 0).getD 0) = none) ∧
    ((ctlOf ctlState 0).isSome = true ∧ BitVec.getLsbD ((ctlOf ctlState 0).getD ctl).cc 0 = true ∧ (0#32).getLsbD 0 = false ∧
      ctlState.sto.cmds = []) ∧
    ((ctlOf ctlShutDueState 0).isSome = true ∧ ((ctlOf ctlShutDueState 0).getD ctl).shutBy.isSome = true ∧ ((ctlOf ctlShutDueState
      0).getD ctl).shutBy.getD 0 ≤ BitVec.toNat ctlShutDueState.tmb.tick) ∧
    ((ctlOf ctlShutState 0).isSome = true ∧ ((ctlOf ctlShutState 0).getD ctl).shutBy.isSome = true ∧ BitVec.toNat
      ctlShutState.tmb.tick < ((ctlOf ctlShutState 0).getD ctl).shutBy.getD 0) := by
  unfold Spec.canAnswer Spec.pathsFree Spec.onlyCmd
  and_intros <;> first | decide +kernel | exact except_error (by decide +kernel) | exact except_ok (by decide +kernel)

theorem witness_StoragePaths :
    ((targetOf pathConnecting 6).isSome = true ∧ ((targetOf pathConnecting 6).getD target).paths[0]?.isSome = true ∧
      ((((targetOf pathConnecting 6).getD target).paths[0]?.getD path0).state = PathState.connecting ∧ (((targetOf pathConnecting
        6).getD target).paths[0]?.getD path0).attemptAt ≤ BitVec.toNat pathConnecting.tmb.tick) ∧
      ((((targetOf pathConnecting 6).getD target).paths[0]?.getD path0).state ≠ PathState.live)) ∧
    ((targetOf pathUp 6).isSome = true ∧ ((targetOf pathUp 6).getD target).paths[0]?.isSome = true ∧
      ((BitVec.toNat pathUp.tmb.tick < (((targetOf pathUp 6).getD target).paths[0]?.getD path0).attemptAt ∨ (((targetOf pathUp
        6).getD target).paths[0]?.getD path0).state ≠ PathState.connecting)) ∧
      ((((targetOf pathUp 6).getD target).paths[0]?.getD path0).state = PathState.live ∧
        (collectorRuns pathUp = true ∧ pathLive pathUp 6 (1 - 0) = true) ∧
        (BitVec.toNat pathUp.tmb.tick < (((targetOf pathUp 6).getD target).paths[0]?.getD path0).keepAliveAt) ∧
        (((targetOf pathUp 6).getD target).roce = true ∧ (((targetOf pathUp 6).getD target).paths[0]?.getD path0).paceAt ≤
          BitVec.toNat pathUp.tmb.tick))) ∧
    ((targetOf pathAttempting 6).isSome = true ∧ ((targetOf pathAttempting 6).getD target).paths[0]?.isSome = true ∧ (((targetOf
      pathAttempting 6).getD target).paths[0]?.getD path0).state = PathState.connecting ∧ (((targetOf pathAttempting 6).getD
      target).paths[0]?.getD path0).attempting = true ∧ pathAttempting.sto.cmds = [] ∧ (∀ (e : Nat × Namespace), e ∈
      pathAttempting.sto.namespaces → e.snd.valid = true → e.snd.target ≠ 6)) ∧
    ((targetOf pathChecks 6).isSome = true ∧ ((targetOf pathChecks 6).getD target).paths[0]?.isSome = true ∧ (((targetOf pathChecks
      6).getD target).paths[0]?.getD path0).state = PathState.connecting ∧ (((targetOf pathChecks 6).getD target).paths[0]?.getD
      path0).attempting = true ∧ pathChecks.sto.cmds = [] ∧ pathChecks.sto.namespaces = [(((List.head?
      pathChecks.sto.namespaces).getD (0, space)).fst, ((List.head? pathChecks.sto.namespaces).getD (0, space)).snd)] ∧ ((List.head?
      pathChecks.sto.namespaces).getD (0, space)).snd.valid = true ∧ ((List.head? pathChecks.sto.namespaces).getD (0,
      space)).snd.target = 6 ∧ pathLive pathChecks 6 (1 - 0) = false ∧ ctlOf pathChecks ((List.head? pathChecks.sto.namespaces).getD
      (0, space)).snd.fn = none) ∧
    ((targetOf pathQuiet 6).isSome = true ∧ ((targetOf pathQuiet 6).getD target).paths[0]?.isSome = true ∧ (((targetOf pathQuiet
      6).getD target).paths[0]?.getD path0).state = PathState.live ∧ (((targetOf pathQuiet 6).getD target).paths[0]?.getD
      path0).keepAliveAt ≤ BitVec.toNat pathQuiet.tmb.tick ∧ ((targetOf pathQuiet 6).getD target).roce = true ∧ (((targetOf
      pathQuiet 6).getD target).paths[0]?.getD path0).credit ≤ (0 : Int)) ∧
    ((targetOf pathQuietTcp 6).isSome = true ∧ ((targetOf pathQuietTcp 6).getD target).paths[0]?.isSome = true ∧ (((targetOf
      pathQuietTcp 6).getD target).paths[0]?.getD path0).state = PathState.live ∧ (((targetOf pathQuietTcp 6).getD
      target).paths[0]?.getD path0).keepAliveAt ≤ BitVec.toNat pathQuietTcp.tmb.tick ∧ ((targetOf pathQuietTcp 6).getD target).roce
      = false ∧ (((targetOf pathQuietTcp 6).getD target).paths[0]?.getD path0).sendQ = [] ∧ (∀ (q : Port), portOf pathQuietTcp
      (((targetOf pathQuietTcp 6).getD target).paths[0]?.getD path0).port = some q → 1518 ≤ q.cfg.maxFrame)) ∧
    ((targetOf stored 6).isSome = true ∧ ((targetOf stored 6).getD target).paths[0]?.isSome = true ∧ (((targetOf stored 6).getD
      target).paths[0]?.getD path0).state = PathState.live ∧ collectorRuns stored = true ∧ pathLive stored 6 (1 - 0) = false ∧
      stored.sto.cmds = []) ∧
    ((targetOf pathPaced 6).isSome = true ∧ ((targetOf pathPaced 6).getD target).paths[0]?.isSome = true ∧ (((targetOf pathPaced
      6).getD target).paths[0]?.getD path0).state = PathState.live ∧ ((targetOf pathPaced 6).getD target).roce = true ∧ BitVec.toNat
      pathPaced.tmb.tick < (((targetOf pathPaced 6).getD target).paths[0]?.getD path0).paceAt) ∧
    ((tget spaceLate.sto.namespaces 40).isSome = true ∧ ((tget spaceLate.sto.namespaces 40).getD space).valid = true ∧ (targetOf
      spaceLate ((tget spaceLate.sto.namespaces 40).getD space).target).isSome = true ∧ ((targetOf spaceLate ((tget
      spaceLate.sto.namespaces 40).getD space).target).getD target).lostSince.isSome = true ∧ spaceLate.sto.cmds = [] ∧ ((tget
      spaceLate.sto.namespaces 40).getD space).notReady = false ∧ ctlOf spaceLate ((tget spaceLate.sto.namespaces 40).getD space).fn
      = none ∧ ((targetOf spaceLate ((tget spaceLate.sto.namespaces 40).getD space).target).getD target).lostSince.getD 0 +
      spaceLate.sto.nsLoss ≤ BitVec.toNat spaceLate.tmb.tick) ∧
    ((tget spaceSoon.sto.namespaces 40).isSome = true ∧ ((tget spaceSoon.sto.namespaces 40).getD space).valid = true ∧ (targetOf
      spaceSoon ((tget spaceSoon.sto.namespaces 40).getD space).target).isSome = true ∧ ((targetOf spaceSoon ((tget
      spaceSoon.sto.namespaces 40).getD space).target).getD target).lostSince.isSome = true ∧ spaceSoon.sto.cmds = [] ∧ ((tget
      spaceSoon.sto.namespaces 40).getD space).notReady = false ∧ ctlOf spaceSoon ((tget spaceSoon.sto.namespaces 40).getD space).fn
      = none ∧ BitVec.toNat spaceSoon.tmb.tick < ((targetOf spaceSoon ((tget spaceSoon.sto.namespaces 40).getD space).target).getD
      target).lostSince.getD 0 + spaceSoon.sto.nsLoss) := by and_intros <;> decide +kernel

theorem witness_MirrorLink :
    (mirrorOn mirDown = true ∧ mirrorLink mirDown = 0 ∧ mirDown.mir.waitUntil ≤ BitVec.toNat mirDown.tmb.tick) ∧
    (mirrorOn mirWaits = true ∧ mirrorLink mirWaits = 0 ∧ BitVec.toNat mirWaits.tmb.tick < mirWaits.mir.waitUntil) ∧
    (mirrorOn mirTrained = true ∧ mirrorLink mirTrained = 1 ∧ mirTrained.mir.trainingSince.isSome = true ∧
      mirTrained.mir.trainingSince.getD 0 + 50000 ≤ BitVec.toNat mirTrained.tmb.tick) ∧
    (mirrorOn mirTrains = true ∧ mirrorLink mirTrains = 1 ∧ mirTrains.mir.trainingSince.isSome = true ∧ BitVec.toNat
      mirTrains.tmb.tick < mirTrains.mir.trainingSince.getD 0 + 50000) ∧
    (mirrorOn mirHalf = true ∧ mirHalf.mir.half0 = true ∧ mirHalf.mir.half1 = false) ∧
    (mirrorOn mirBoth = true ∧ mirBoth.mir.half0 = true ∧ mirBoth.mir.half1 = true) ∧
    (mirrorOn mirUnacked = true ∧ mirrorCarries mirUnacked = true ∧
      (mirUnacked.mir.unacked ≠ [] ∧ mirUnacked.mir.ackTick + 4 ≤ BitVec.toNat mirUnacked.tmb.tick) ∧
      (mirUnacked.mir.syncDone = none)) ∧
    (mirrorOn mirFresh = true ∧ mirrorCarries mirFresh = true ∧ mirFresh.mir.unacked ≠ [] ∧ BitVec.toNat mirFresh.tmb.tick <
      mirFresh.mir.ackTick + 4) ∧
    (mirrorCarries mirExports = true ∧
      ((List.find? (fun e => e.snd.stage == PktStage.exporting) mirExports.crb.pkts = some (2, ((List.find? (fun e => e.snd.stage ==
        PktStage.exporting) mirExports.crb.pkts).getD (0, packet)).snd))) ∧
      (mirExports.mir.state ≠ SideState.init)) := by and_intros <;> decide +kernel

theorem witness_DeltaRecords :
    (Spec.takes taking ∧
      ((recordRead 0 true macRecord).isSome = true ∧
        (((recordRead 0 true macRecord).getD macSentRec).ordinary = true ∧ ownPrevails taking ((recordRead 0 true macRecord).getD
          macSentRec) (5000010#64).toNat = false ∧ (∀ (e : MacEntry), (recordRead 0 true macRecord).getD macSentRec = TblRec.mac e →
          true = true ∨ macReceived taking e = some e) ∧ (TblRec.apply true taking.fwd ((recordRead 0 true macRecord).getD
          macSentRec)).isSome = true) ∧
        ((openWrite taking.dec (TblRec.vwrites true ((recordRead 0 true macRecord).getD macSentRec))).isSome = true)) ∧
      (BitVec.toNat taking.tmb.tick < (5000010#64).toNat) ∧
      ((4999000#64).toNat ≤ BitVec.toNat taking.tmb.tick) ∧
      (memoryWf taking = true ∧
        (hbmAnswers taking ((5#27).toNat * 64) = true ∧ flowValid (flowRead taking (5#27).toNat) = false) ∧
        (hbmRangeOk taking (4096#37).toNat 64 = true)) ∧
      (((List.find? (fun x => x.fst == (9#24).toNat) taking.mir.pair.shadows).isSome = true) ∧ ((channelOf taking ((List.find? (fun
        x => x.fst == (9#24).toNat) taking.mir.pair.shadows).getD (0, 0)).snd).isSome = true)) ∧
      (twf (ctxUnlisted taking) taking.cph.ctxs = true ∧ (ctxOf taking (3#18).toNat).queue = []) ∧
      (gateOfBytes gateData = ((gateOfBytes gateData).fst, (gateOfBytes gateData).snd) ∧ gateOk gateData = true ∧ (portOf taking
        (gateOfBytes gateData).fst).isSome = true) ∧
      (taking.ldg.scheduled = [] ∧ taking.ldg.running = none ∧ taking.mir.pair.mode ≠ 0 ∧ BitVec.toNat taking.tmb.tick + 15 ≤
        (5000015#64).toNat ∧ 0 < BitVec.toNat taking.tmb.tick)) ∧
    (Spec.takes takingOwn ∧ (recordRead 0 true macRecord).isSome = true ∧ ownPrevails takingOwn ((recordRead 0 true macRecord).getD
      macSentRec) (4999000#64).toNat = true) ∧
    (mirrorCarries taking = true ∧ taking.mir.state ≠ SideState.init) ∧
    (mirrorCarries mirSolo = true ∧ mirSolo.mir.state = SideState.solo) := by
  unfold Spec.takes
  and_intros <;> first | exact fun _ _ => Or.inl rfl | decide +kernel

theorem witness_PairSides :
    (mirrorCarries mirActive = true ∧ mirActive.mir.state ≠ SideState.init ∧
      ((mirActive.mir.state = SideState.active ∨ mirActive.mir.state = SideState.solo)) ∧
      ((86#32) ≠ mirActive.mir.pair.pairId)) ∧
    (mirrorCarries joiningState = true ∧ joiningState.mir.state ≠ SideState.init ∧ joining joiningState = true ∧
      joiningState.mir.syncParts ≠ [] ∧ memoryWf joiningState = true ∧ hbmRangeOk joiningState (4096#64).toNat fourBytes.length =
      true) ∧
    ((mirActive.mir.state = SideState.active ∨ mirActive.mir.state = SideState.standby)) ∧
    (mirSolo.mir.state ≠ SideState.active ∧ mirSolo.mir.state ≠ SideState.standby) ∧
    (mirActive.mir.state ≠ SideState.init) ∧
    (polledNow.mir.pollSince.isSome = true ∧
      ((8#32) ≠ polledNow.board.serial) ∧
      (((0#8) ≠ (0 : Byte) ∨ (9#32) = polledNow.board.serial)) ∧
      (BitVec.toNat polledNow.tmb.tick < polledNow.mir.pollSince.getD 0 + 100)) ∧
    (polledLate.mir.pollSince.isSome = true ∧ polledLate.mir.pollSince.getD 0 + 100 ≤ BitVec.toNat polledLate.tmb.tick) ∧
    (mirrorOn mirActive = true) := by and_intros <;> decide +kernel

theorem witness_Domain :
    (domHears domLeaf 5 = true ∧
      (domLeaf.dom.relay = [] ∧ (nbNear = List.filter (fun x => x.port != 5) domLeaf.dom.neighbours ++
        [{ port := 5, device := (9#11).toNat, hops := (1#8).toNat, traceable := true, lastHello := intervalStart domLeaf }]) ∧
        domRoot domLeaf = false ∧ isFollower domLeaf = false ∧ parentOf nbNear = some nbFirst) ∧
      (domRoot domLeaf = false ∧ domLeaf.dom.parent = 0 ∧
        (domLeaf.mir.pair.domainLinks = [5] ∧
          (domLeaf.dom.seen.contains ((9#11).toNat, (4#32)) = true) ∧
          (domLeaf.dom.seen.contains ((9#11).toNat, (5#32)) = false ∧ domLeaf.ldg.scheduled = [] ∧ domLeaf.ldg.running = none ∧
            BitVec.toNat domLeaf.tmb.tick + 4096 ≤ (5004096#64).toNat)) ∧
        (domLeaf.dom.relay.length < 4096))) ∧
    (domHears domTop 5 = true ∧
      (domTop.dom.relay = [] ∧ (nbNear = List.filter (fun x => x.port != 5) domTop.dom.neighbours ++
        [{ port := 5, device := (9#11).toNat, hops := (1#8).toNat, traceable := true, lastHello := intervalStart domTop }]) ∧
        domRoot domTop = true ∧ domTop.tmb.domain.qualified = false) ∧
      (domRoot domTop = true ∧ (List.find? (fun r => r.cls == (3#16) && r.subject == (4#32)) domTop.dom.store = none) ∧
        domTop.dom.store.length < 4096)) ∧
    (domHears domChild 5 = true ∧ domChild.dom.parent ≠ 0 ∧ domChild.dom.parentPort = 5 ∧ domChild.tmb.traceable = false) ∧
    (domHears domTopFull 5 = true ∧ domRoot domTopFull = true ∧ (List.find? (fun r => r.cls == (3#16) && r.subject == (4#32))
      domTopFull.dom.store = none) ∧ 4096 ≤ domTopFull.dom.store.length) ∧
    (domHears domStoreOpen 5 = true ∧ domRoot domStoreOpen = true ∧ domStoreOpen.dom.store = [domStoreOpen.dom.store.head?.getD
      rootZero] ∧ (domStoreOpen.dom.store.head?.getD rootZero).cls = (3#16) ∧ (domStoreOpen.dom.store.head?.getD rootZero).subject =
      (16#32)) ∧
    (domHears domRelayFull 5 = true ∧ domRoot domRelayFull = false ∧ 4096 ≤ domRelayFull.dom.relay.length) ∧
    (domMember domLeaf = true) ∧
    (domLost.dom.neighbours = [domLost.dom.neighbours.head?.getD neighbourZero] ∧ (domLost.dom.neighbours.head?.getD
      neighbourZero).port = 5 ∧ (domLost.dom.neighbours.head?.getD neighbourZero).lastHello + 4096 ≤ BitVec.toNat domLost.tmb.tick ∧
      domRoot domLost = false ∧ domLost.tmb.domain.qualified = false) ∧
    (domChild.dom.neighbours = [domChild.dom.neighbours.head?.getD neighbourZero] ∧ (domChild.dom.neighbours.head?.getD
      neighbourZero).port = 5 ∧ BitVec.toNat domChild.tmb.tick < (domChild.dom.neighbours.head?.getD neighbourZero).lastHello +
      4096) ∧
    ((domRoot domLeaf = false ∨ (5004096#64).getLsbD 0 = false)) ∧
    (domRoot domAlone = true ∧ (1#64).getLsbD 0 = true ∧ domAlone.mir.pair.domainLinks = [] ∧ BitVec.toNat domAlone.tmb.tick + 4096
      ≤ BitVec.toNat domAlone.dom.cutTick ∧ domAlone.ldg.scheduled = [] ∧ domAlone.ldg.running = none) ∧
    (domRoot domAloneLate = true ∧ (1#64).getLsbD 0 = true ∧ domAloneLate.mir.pair.domainLinks = [] ∧ BitVec.toNat
      domAloneLate.dom.cutTick < BitVec.toNat domAloneLate.tmb.tick + 4096) ∧
    ((reportWindow domWindowOpen (3#16) (16#32)).isSome = true ∧ BitVec.toNat domWindowOpen.tmb.tick < ((reportWindow domWindowOpen
      (3#16) (16#32)).getD windowZero).stop) ∧
    ((reportWindow domWindowDone (3#16) (16#32)).isSome = true ∧ ((reportWindow domWindowDone (3#16) (16#32)).getD windowZero).stop
      ≤ BitVec.toNat domWindowDone.tmb.tick ∧ ((reportWindow domWindowDone (3#16) (16#32)).getD windowZero).count = (0 : W32)) ∧
    (((List.find? (fun r => r.cls == (3#16) && r.subject == (16#32)) domStoreOpen.dom.store).isSome = true) ∧ (BitVec.toNat
      domStoreOpen.tmb.tick < ((List.find? (fun r => r.cls == (3#16) && r.subject == (16#32)) domStoreOpen.dom.store).getD
      rootZero).opened + 1024)) ∧
    (((List.find? (fun r => r.cls == (3#16) && r.subject == (16#32)) domStoreDone.dom.store).isSome = true) ∧ (((List.find? (fun r
      => r.cls == (3#16) && r.subject == (16#32)) domStoreDone.dom.store).getD rootZero).opened + 1024 ≤ BitVec.toNat
      domStoreDone.tmb.tick)) := by and_intros <;> decide +kernel

theorem witness_Sideband :
    (releasedOf sbUp 1 = true ∧
      ((6#16) ≠ (65535 : W16) ∧ portOf sbUp (6#16).toNat = none) ∧
      (sbUp.rst.restarting = false ∧ sbUp.rst.recovery = false ∧ sbUp.hif.deviceReady = true ∧
        ((5#16) ≠ (65535 : W16) ∧ (portOf sbUp (5#16).toNat).isSome = true) ∧
        ((65535#16) = (65535 : W16))) ∧
      (16 ≤ (16#8).toNat) ∧
      ((5#8).toNat < 16 ∧ slotOfVersion sbUp.dec (5#8).toNat = none) ∧
      ((0#8).toNat < 16 ∧ (slotOfVersion sbUp.dec (0#8).toNat).isSome = true ∧ sbUp.rst.restarting = false ∧ sbUp.rst.recovery =
        false ∧ sbUp.hif.deviceReady = true ∧ (0#8).toNat = sbUp.dec.current) ∧
      ((3#8).toNat < 16 ∧ (slotOfVersion sbUp.dec (3#8).toNat).isSome = true ∧ sbUp.rst.restarting = false ∧ sbUp.rst.recovery =
        false ∧ sbUp.hif.deviceReady = true ∧ (3#8).toNat ≠ sbUp.dec.current ∧ sbUp.dec.sealed_ = none ∧ sbUp.dec.select = none) ∧
      (sbParse sbBytes = some (some (((sbParse sbBytes).getD none).getD sbZero)) ∧ sbUp.sb.held.length < 4) ∧
      ((5#8) ≠ (0 : Byte) ∧ (5#8) ≠ (255 : Byte))) ∧
    (releasedOf sbRestarting 1 = true ∧
      (((5#16) = (65535 : W16) ∨ (portOf sbRestarting (5#16).toNat).isSome = true) ∧ sbRestarting.rst.recovery = false ∧
        (sbRestarting.rst.restarting = true ∨ sbRestarting.hif.deviceReady = false)) ∧
      ((3#8).toNat < 16 ∧ (slotOfVersion sbRestarting.dec (3#8).toNat).isSome = true ∧ sbRestarting.rst.recovery = false ∧
        (sbRestarting.rst.restarting = true ∨ sbRestarting.hif.deviceReady = false))) ∧
    (releasedOf sbRecovery 1 = true ∧
      (((65535#16) = (65535 : W16) ∨ (portOf sbRecovery (65535#16).toNat).isSome = true) ∧ sbRecovery.rst.recovery = true) ∧
      ((3#8).toNat < 16 ∧ (slotOfVersion sbRecovery.dec (3#8).toNat).isSome = true ∧ sbRecovery.rst.recovery = true)) ∧
    (releasedOf sbFull 1 = true ∧ sbParse sbBytes = some (some (((sbParse sbBytes).getD none).getD sbZero)) ∧ 4 ≤
      sbFull.sb.held.length) ∧
    (releasedOf sbUp 14 = true) ∧
    (releasedOf tapCapture 14 = true ∧ tapCapture.tap.state = TapState.captureDr ∧ tapCapture.tap.ir = (254 : BitVec 8)) ∧
    (releasedOf tapShift 14 = true ∧ tapShift.tap.state = TapState.shiftDr ∧ tapShift.tap.ir = (254 : BitVec 8)) := by and_intros <;> decide +kernel

theorem witness_StepIdles :
    (up.pending = [] ∧ up.tmb.beat < 1599 ∧ up.lnm.lateReads = [] ∧ up.lnm.readByHp0 = [] ∧ (∀ (e : Nat × Port), e ∈ up.lnm.ports →
      e.snd.statsOld = none) ∧ up.sch.shareDue = [] ∧ up.fwd.beatOld = none ∧ sealSettle up.dec = up.dec ∧ up.fwd.agedDue = [] ∧
      up.eng.flowDue = [] ∧ up.sto.cmds = [] ∧ up.sto.xtsEnds = [] ∧ up.ldg.fresh = [] ∧ up.crb.waiting = [] ∧ up.crb.turn = none) ∧
    (lateBeat.pending = [] ∧ 1599 ≤ lateBeat.tmb.beat) := by and_intros <;> decide +kernel

theorem witness_JumpTable (w : W48) :
    Spec.Issues (loaded running w) 0 0 batch ∧ Spec.fetches (loaded running w) 0 batch w ∧ (tget (clusterOf (loaded running w) (0 /
      12 : Nat)).programs batch.program).isSome = true ∧
      (jtIn.rd = 0 ∧ jtIn.rb = 0 ∧ jtIn.imm.toNat < 256 ∧ ((tgetD ((tget (clusterOf (loaded running w) (0 / 12 : Nat)).programs
        batch.program).getD program).tables (jtIn.imm.toNat % 256) [])[BitVec.toNat (Spec.reg batch jtIn.ra)]? = some ((tgetD ((tget
        (clusterOf (loaded running w) (0 / 12 : Nat)).programs batch.program).getD program).tables (jtIn.imm.toNat % 256)
        [])[BitVec.toNat (if jtIn.ra = 0 then (0#48) else batch.regs.getD (↑jtIn.ra) (0#48))]?.getD 0))) ∧
      (jtBeyond.rd = 0 ∧ jtBeyond.rb = 0 ∧ jtBeyond.imm.toNat < 256 ∧ (tgetD ((tget (clusterOf (loaded running w) (0 / 12 :
        Nat)).programs batch.program).getD program).tables (jtBeyond.imm.toNat % 256) []).length ≤ BitVec.toNat (Spec.reg batch
        jtBeyond.ra)) ∧
      (jtBad.rd = 0 ∧ jtBad.rb = 0 ∧ 256 ≤ jtBad.imm.toNat) := by
  unfold Spec.Issues Spec.reg
  and_intros <;> first | rfl | decide +kernel | exact of_decide_eq_true rfl

theorem witness_DeviceSerialNumber :
    BitVec.toNat ep1Fn = 32768 * 1 ∧ (endpointOf hosted 1).linkUp = true ∧ (endpointOf hosted 1).configReady = true ∧ epEnabled
      hosted 1 = true ∧ fnExists hosted (BitVec.toNat ep1Fn) = true ∧ (funcOf hosted (BitVec.toNat ep1Fn)).isSome = true := by and_intros <;> decide +kernel

theorem witness_FeatureDependencies :
    ((funcOf offeredBad (0#16).toNat).isSome = true ∧ ((funcOf offeredBad (0#16).toNat).getD func).resetting = none ∧ ((funcOf
      offeredBad (0#16).toNat).getD func).featuresOk = false ∧ offeredBad.hif.deviceReady = true ∧ fnCreated offeredBad (0#16).toNat
      = true ∧ ((((funcOf offeredBad (0#16).toNat).getD func).accept &&& offerOf offeredBad (0#16).toNat).getLsbD 3 = true ∧
      (((funcOf offeredBad (0#16).toNat).getD func).accept &&& offerOf offeredBad (0#16).toNat).getLsbD 4 = false ∨ (((funcOf
      offeredBad (0#16).toNat).getD func).accept &&& offerOf offeredBad (0#16).toNat).getLsbD 6 = true ∧ (((funcOf offeredBad
      (0#16).toNat).getD func).accept &&& offerOf offeredBad (0#16).toNat).getLsbD 4 = false ∨ (((funcOf offeredBad
      (0#16).toNat).getD func).accept &&& offerOf offeredBad (0#16).toNat).getLsbD 11 = true ∧ (((funcOf offeredBad
      (0#16).toNat).getD func).accept &&& offerOf offeredBad (0#16).toNat).getLsbD 10 = false)) ∧
    ((funcOf offeredGood (0#16).toNat).isSome = true ∧ ((funcOf offeredGood (0#16).toNat).getD func).resetting = none ∧ ((funcOf
      offeredGood (0#16).toNat).getD func).featuresOk = false ∧ offeredGood.hif.deviceReady = true ∧ fnCreated offeredGood
      (0#16).toNat = true ∧ (¬((((funcOf offeredGood (0#16).toNat).getD func).accept &&& offerOf offeredGood (0#16).toNat).getLsbD 3
      = true ∧ (((funcOf offeredGood (0#16).toNat).getD func).accept &&& offerOf offeredGood (0#16).toNat).getLsbD 4 = false ∨
      (((funcOf offeredGood (0#16).toNat).getD func).accept &&& offerOf offeredGood (0#16).toNat).getLsbD 6 = true ∧ (((funcOf
      offeredGood (0#16).toNat).getD func).accept &&& offerOf offeredGood (0#16).toNat).getLsbD 4 = false ∨ (((funcOf offeredGood
      (0#16).toNat).getD func).accept &&& offerOf offeredGood (0#16).toNat).getLsbD 11 = true ∧ (((funcOf offeredGood
      (0#16).toNat).getD func).accept &&& offerOf offeredGood (0#16).toNat).getLsbD 10 = false))) := by and_intros <;> decide +kernel

theorem witness_StepRunsFront : (waits (.d3hotEntry 0x2000)).pending = .d3hotEntry 0x2000 :: [.tickOutFall] := by decide +kernel

theorem witness_StepKeepsInvariant :
    Spec.Inv (waits (.d3hotEntry 0x2000)) ∧ step (waits (.d3hotEntry 0x2000)) = .next (after (step (waits (.d3hotEntry 0x2000)))) := by
  unfold Spec.Inv
  exact ⟨by decide +kernel, rfl⟩

theorem witness_StepTakesFront :
    (waits .powerOnReset).pending = .powerOnReset :: [.tickOutFall] ∧
    step (waits .powerOnReset) = .next (after (step (waits .powerOnReset))) := ⟨by decide +kernel, rfl⟩

theorem witness_OnlyBoundariesMoveTime :
    (waits (.d3hotEntry 0x2000)).pending = .d3hotEntry 0x2000 :: [.tickOutFall] ∧ ¬ Spec.movesTick (.d3hotEntry 0x2000) ∧
    step (waits (.d3hotEntry 0x2000)) = .next (after (step (waits (.d3hotEntry 0x2000)))) := ⟨by decide +kernel, id, rfl⟩

theorem witness_HostLeavesForwarding :
    Spec.hostEvent (.perstNAssert 1) ∧ exec (.perstNAssert 1) hosted = .next (after (exec (.perstNAssert 1) hosted)) :=
  ⟨trivial, rfl⟩

/-- The second clause of QueueDelivery: a packet's data that lands in the host's buffer. -/
theorem witness_HostRxComplete :
    queueOf completing 5 = some receivingDma ∧ receivingDma.dma = [rxDma] ∧ receivingDma.disabling = [] ∧ rxDma.live = true ∧
    rxDma.gen = genOf completing receivingDma.fn.toNat ∧ rxDma.buffers = [20] ∧ pktOf completing rxDma.pkt = some packetHost ∧
    packetHost.sendFrom = none ∧ fnRuns completing receivingDma.fn.toNat = true := by and_intros <;> decide +kernel

/-- A slot of blank NVM: its load is the last one tried, and the image has no header. -/
theorem witness_RecipeLoad :
    releasedOf loading 8 = true ∧ slotNext loading = some false ∧ loading.rst.options.noFallback = true ∧
    (match recipeVerdict loading false none with
      | .ok _ => False
      | .error e => e = (1, 0)) := by
  refine ⟨by decide +kernel, by decide +kernel, by decide +kernel, ?_⟩
  rfl

end Sys2Proof.Tests
end

section
/-!
What one command keeps, said of the dispatch as a whole. The laws of the operations are under Laws; here each of the
table's commands is led back to the law of its operation.
-/

namespace Sys2Proof.Machine

/-- What an outcome's next state keeps is what the operation behind it keeps. -/
theorem next_kept {tk : Bool} {a : Front} {u t : State} (hu : Kept tk a (front u)) (h : (.next u : Result) = .next t) :
    Kept tk a (front t) := by
  cases h
  exact hu

theorem next_front {tk : Bool} {s u t : State} (hu : front u = front s) (h : (.next u : Result) = .next t) :
    Kept tk (front s) (front t) := next_kept (hu ▸ .refl) h

/-- Of a command that may begin another tick only the weaker form of `Kept` is asked. -/
theorem kept_of_movesTick {tk : Bool} {c : Instr} {a b : Front} (htk : tk = true → ¬ Spec.movesTick c)
    (hc : Spec.movesTick c) (k : Kept false a b) : Kept tk a b := by
  cases tk with
  | false => exact k
  | true => exact absurd hc (htk rfl)

/-! An engine's instruction: what it issues is staged in its batch, and any state it goes on with shows the same `front`. -/

/-- Whatever state the effect of an instruction goes on with, it shows the same `front`. -/
def Leaves (s : State) (o : Issued) : Prop := ∀ s' b', o = .next s' b' → front s' = front s

@[simp] theorem leaves_next {s s' : State} {b : Batch} : Leaves s (.next s' b) ↔ front s' = front s :=
  ⟨fun h => h s' b rfl, fun h _ _ e => by cases e; exact h⟩

@[simp] theorem leaves_fault {s : State} {c : Nat} : Leaves s (.fault c) := fun _ _ h => by cases h

@[simp] theorem leaves_discard {s : State} : Leaves s .discard := fun _ _ h => by cases h

@[simp] theorem leaves_stageTable {s : State} {b : Batch} {x : TblEffect} : Leaves s (stageTable s b x) :=
  fun _ _ h => stageTable_front h

@[simp] theorem leaves_commitPoint {s : State} {e : Nat} {b : Batch} : Leaves s (commitPoint s e b) :=
  fun _ _ h => commitPoint_front h

theorem leaves_handleFill {s s' : State} {b : Batch} {x rd id : Nat} {k : Option Nat} (hs : front s' = front s) :
    Leaves s (handleFill s' b x rd id k) :=
  fun _ _ h => (handleFill_front h).trans hs

@[simp] theorem leaves_emitStage {s : State} {e t : Nat} {b : Batch} {w0 w1 : Nat} {es : List Edit} :
    Leaves s (emitStage s e t b w0 w1 es) :=
  fun _ _ h => emitStage_front h

theorem issue_leaves {s : State} {e t : Nat} {w : W48} {l : Bool} {c : Batch → Nat} {f : Batch → Issued}
    (h : ∀ b, Leaves s (f b)) : front (issue s e t w l c f) = front s :=
  issue_front fun b => h b

@[simp] theorem statReadHp0_front {s : State} {n o : Nat} : front (statReadHp0 s n o) = front s := by simp [statReadHp0]

@[simp] theorem ptpSend_front {s : State} {p : PtpPort} {k : Nat} : front (ptpSend s p k) = front s := by simp [ptpSend]

/-- Every command keeps the queue, what manufacturing fixed and the ranges and forms of `Kept`; one that does not begin
another tick keeps the tick and the beat too. -/
theorem exec_kept {tk : Bool} {c : Instr} {s t : State} (htk : tk = true → ¬ Spec.movesTick c)
    (h : exec c s = .next t) : Kept tk (front s) (front t) := by
  cases c with
  -- The commands that may begin another tick.
  | tickBoundary | powerOnReset | rstNAssert | rstSwDeviceReset | faultResetDue | supervisorWatchdog
  | barMemoryRequest | domainRelease => exact kept_of_movesTick htk trivial (next_kept (by simp) h)
  | registerWrite =>
    refine kept_of_movesTick htk trivial (next_kept ?_ h)
    split <;> simp
  | deviceReset =>
    exact kept_of_movesTick htk trivial (next_kept (adminRun_kept (fun _ _ hs => deviceReset_kept hs) .refl) h)
  -- Instructions of an engine, without and with operands that they name first.
  | nop | ldp | keep | rls | drop | frd | hrd | hwr | ladd | msgt | commit =>
    refine next_front (issue_leaves fun b => ?_) h
    (repeat' split) <;> simp
  | ldl | stl | lds | sts | ldk | stp | emit | lkup | twr | fwr | csub | send | arm | loop | jt =>
    refine next_front (issue_leaves fun b => ?_) h
    dsimp only
    (repeat' split) <;> simp
  -- The two instructions that fill a handle also change the packet they take.
  | take | takek =>
    refine next_front (issue_leaves fun b => ?_) h
    (repeat' split) <;> simp [leaves_handleFill]
  -- Admin commands: the laws of the shared runs, then those of their bodies.
  | createQueue | destroyQueue | enableQueue | disableQueue | queryQueue | createVf | destroyVf | queryFunction
  | stageSlots | setDemand | bindChannel | unbindChannel | sendToChannel | setQueueMin | setMeters | portSpeed
  | stageGateList | versionCommit | versionSelect | tableRead | cutRequest | cutRead | timeConfig | contextCreate
  | contextDestroy | contextSave | contextRestore | vaultLoad | vaultClear | namespaceSet | engineSelftest | slabTest
  | hbmRetire | nvmRead | ownerKeyProgram | ownerKeyRevoke =>
    exact next_front (adminRun_front fun s b => by simp) h
  | nvmWrite => exact next_kept (adminRun_kept (fun _ _ hs => nvmWrite_kept hs) .refl) h
  | portAdminDown | portAdminTraining | portAdminTest | portAdminHalt =>
    exact next_front (portRun_front fun s n p => by simp) h
  | macroPowerDown | macroPowerUp => exact next_front (macroRun_front fun s n m w => by simp) h
  | macInsert | macMove | macDelete => exact next_front (macRun_front fun s b => by simp) h
  | nvmeDeleteIoSq | nvmeCreateIoSq | nvmeGetLogPage | nvmeDeleteIoCq | nvmeCreateIoCq | nvmeIdentify | nvmeAbort
  | nvmeSetFeatures | nvmeGetFeatures | nvmeAsyncEventRequest =>
    exact next_front (nvmeAdmin_front fun s c b => by simp) h
  -- Records and frames of the mirror.
  | boundaryRecord | ordWrite | verWrite | plan | flow | channel | ctr | context | gate | cut | migration | hbmWrite
  | leader => exact next_kept (recordIn_kept (fun s hs => by simp [hs]) .refl) h
  | syncReq | syncData | export_ => exact next_kept (frameIn_kept (fun s hs => by simp [hs]) .refl) h
  | syncDone =>
    refine next_kept (frameIn_kept (fun s hs => ?_) .refl) h
    (repeat' split) <;> simp [hs]
  -- The operations that write HBM or NVM keep the form of the memories.
  | flowStateAccess | flowAgerVisit | hbmUncorrectableError | journalWrite | journalEraseDone | epochSectorRefresh
  | completionTimeout | dmaTransferDone | dmaBusError | nvmeWrite | nvmeRead | nvmeWriteZeroes | targetResponseRx
  | cipherOutputWrite => exact next_kept (by simp) h
  | batchRelease =>
    refine next_kept ?_ h
    split <;> simp
  | faultAck source =>
    cases source with
    | admin ep entry => exact next_front (adminRun_front fun s b => by simp) h
    | register v => exact next_front (by simp) h
  -- Commands whose meaning is a choice between operations.
  | fecCodewordDecode =>
    refine next_front ?_ h
    dsimp only
    (repeat' split) <;> simp
  | linkLost | trainingRestart | macStatRead | fltNPulseEnd | ptpMessageSend | partnerPollTimeout
  | prbsCheckerLock =>
    refine next_front ?_ h
    (repeat' split) <;> simp
  -- Every other command is one operation, whose law says that it leaves `front` alone.
  | _ => exact next_front (by simp) h

/-- A step with a command at the front takes it off and keeps the rest of `front` as that command does. -/
theorem step_kept {tk : Bool} {s t : State} {c : Instr} {rest : List Instr} (hp : s.pending = c :: rest)
    (htk : tk = true → ¬ Spec.movesTick c) (h : step s = .next t) : Kept tk { front s with pending := rest } (front t) := by
  unfold step at h
  rw [hp] at h
  exact exec_kept htk h

end Sys2Proof.Machine

open Sys2Proof.Machine in
/-- Settles O55: whatever command stands at the front, its `Kept` names the queue and the fixed parts of the board. -/
theorem stepTakesFront : Obligations.StepTakesFront := by
  unfold Obligations.StepTakesFront
  intro s t c rest hp h
  have k := step_kept (tk := false) hp nofun h
  exact ⟨k.pending, k.f256, k.serial, k.straps⟩

end

section
/-! What a command of the host leaves of the forwarding side. -/

namespace Sys2Proof.Machine

theorem line_of_next {s u t : State} (hu : line u = line s) (h : (.next u : Result) = .next t) :
    line t = line s := by
  cases h
  exact hu

/-- Each command of the host is one operation, and its law says that it leaves the forwarding side alone (R1, R51). -/
theorem hostEvent_line {s t : State} {c : Instr} (hc : Spec.hostEvent c) (h : exec c s = .next t) : line t = line s := by
  cases c with
  | perstNAssert ep => exact line_of_next perstAssert_line h
  | perstNDeassert ep => exact line_of_next perstDeassert_line h
  | configReady ep => exact line_of_next configReady_line h
  | hotReset ep => exact line_of_next hotReset_line h
  | linkUp ep rate width flit => exact line_of_next linkUp_line h
  | flr fn => exact line_of_next flr_line h
  | flrComplete fn => exact line_of_next flrComplete_line h
  | d3hotEntry fn => exact line_of_next d3Entry_line h
  | d0Return fn => exact line_of_next d0Return_line h
  | wakeEvent fn cause => exact line_of_next wakeEvent_line h
  | configRequest fn offset write => exact line_of_next configRequest_line h
  | msixUnmask fn vector => exact line_of_next msixUnmask_line h
  | _ => exact hc.elim

end Sys2Proof.Machine

open Sys2Proof.Machine in
/-- Settles O60: `line` holds every unit that the statement names. -/
theorem hostLeavesForwarding : Obligations.HostLeavesForwarding := by
  unfold Obligations.HostLeavesForwarding
  intro s t c hc h
  have e := hostEvent_line hc h
  simp only [line, Line.mk.injEq] at e
  obtain ⟨htmb, hptp, hlnm, hprs, hfwd, hcph, heng, -, hboard, hkvl, hdom, hhbm, hslab⟩ := e
  exact ⟨hlnm, hprs, hfwd, htmb, hptp, heng, hcph, hslab, hkvl, hdom, hhbm, hboard⟩

end

section
/-! The invariant of the whole device, led back to what `Kept` says of `front`. -/

namespace Sys2Proof.Machine

/-- A change that keeps the ranges and forms of `Kept` keeps the invariant, which speaks of nothing outside `front`. -/
theorem Kept.inv {tk : Bool} {s t : State} (k : Kept tk (front s) (front t)) (hs : Spec.Inv s) : Spec.Inv t := by
  obtain ⟨hbeat, hshed, hmem⟩ := hs
  simp only [memoryWf, Bool.and_eq_true] at hmem
  obtain ⟨⟨hhbm, hnvm0⟩, hnvm1⟩ := hmem
  have hbeat' : beatOk t = true := decide_eq_true (k.beat (of_decide_eq_true hbeat))
  have hshed' : shedOk t = true := k.shed hshed
  have hmem' : memoryWf t = true := by
    simp only [memoryWf, Bool.and_eq_true]
    exact ⟨⟨k.hbm hhbm, k.nvm0 hnvm0⟩, k.nvm1 hnvm1⟩
  exact ⟨hbeat', hshed', hmem'⟩

/-- The invariant does not depend on the commands that wait. -/
theorem inv_pending {s : State} {rest : List Instr} : Spec.Inv { s with pending := rest } ↔ Spec.Inv s := Iff.rfl

end Sys2Proof.Machine

open Sys2Proof.Machine in
/-- Settles O54: on an empty queue the step is the beat that passes, else the command at the front; the law of each says
what it keeps (R38, R53, R131). -/
theorem stepKeepsInvariant : Obligations.StepKeepsInvariant := by
  unfold Obligations.StepKeepsInvariant
  intro s t hs h
  cases hp : s.pending with
  | nil =>
    have e : idle s = t := by
      simp only [step, hp] at h
      cases h
      rfl
    subst e
    exact (idle_kept .refl).inv hs
  | cons c rest =>
    have k : Kept false (front { s with pending := rest }) (front t) := step_kept (s := s) hp nofun h
    exact k.inv (inv_pending.mpr hs)

end

section
/-!
An admin command's own part does not see the command in hand. Said once of a body, this leads what an admin command does back to
what its body does on the state before it (R483-R485).
-/

namespace Sys2Proof.Machine

/-- The body neither reads nor changes the command in hand. -/
def IgnoresInHand (body : State → List Byte → AdminAnswer) : Prop :=
  ∀ (s : State) (ep : Nat) (c : AdminCmd) (b : List Byte), body (inHand s ep c) b = (inHand (body s b).1 ep c, (body s b).2)

section
variable {s : State} {ep : Nat} {c : AdminCmd}

@[simp] theorem inHand_rst : (inHand s ep c).rst = s.rst := by unfold inHand adminMod; split <;> rfl
@[simp] theorem inHand_board : (inHand s ep c).board = s.board := by unfold inHand adminMod; split <;> rfl
@[simp] theorem inHand_cph : (inHand s ep c).cph = s.cph := by unfold inHand adminMod; split <;> rfl
@[simp] theorem inHand_kvl : (inHand s ep c).kvl = s.kvl := by unfold inHand adminMod; split <;> rfl
@[simp] theorem inHand_offers : (inHand s ep c).que.offers = s.que.offers := by unfold inHand adminMod; split <;> rfl
@[simp] theorem inHand_sto : (inHand s ep c).sto = s.sto := by unfold inHand adminMod; split <;> rfl

theorem cphMod_inHand {f : Cph → Cph} : cphMod (inHand s ep c) f = inHand (cphMod s f) ep c := by
  unfold inHand adminMod; split <;> rfl
theorem kvlMod_inHand {f : Kvl → Kvl} : kvlMod (inHand s ep c) f = inHand (kvlMod s f) ep c := by
  unfold inHand adminMod; split <;> rfl
theorem stoMod_inHand {f : Sto → Sto} : stoMod (inHand s ep c) f = inHand (stoMod s f) ep c := by
  unfold inHand adminMod; split <;> rfl

theorem inHand_with_que {q : Que} : { inHand s ep c with que := q } = { s with que := q } := by
  unfold inHand adminMod; split <;> rfl
end

theorem adminOf_inHand_accepted {s : State} {ep : Fin 2} {c : AdminCmd} :
    (adminOf (inHand s ep c) ep).accepted = [c] := by
  unfold adminOf inHand adminMod; split <;> simp

variable {s t : State} {ep : Fin 2} {b : List Byte} {f : AdminForm} {ok : List Byte → Bool}
  {body : State → List Byte → AdminAnswer} {i : Instr} {P : State → Prop}

/-- A command whose body answers at once completes with that answer, where the body leaves the host's side alone. -/
theorem completes_of_body {st : Byte} {r : List Byte} (he : exec i s = .next (adminRun s ep.val b f ok body))
    (hi : IgnoresInHand body) (ha : Spec.admits s ep f.op f.named f.used b) (hok : ok b = true)
    (hb : body s b = (t, some (st, r))) (hque : t.que = s.que) (hhif : t.hif = s.hif) (hP : P t) :
    Spec.completes i s ep b st r P := by
  have hempty : (adminOf s ep).accepted = [] := by
    obtain ⟨-, -, -, -, h, -⟩ := ha
    exact h
  have hrun : adminRun s ep.val b f ok body = Spec.finished t ep b st r := by
    refine adminRun_done ha hok (by rw [hi, hb]) ?_ ?_ ?_
    · simpa only [adminOf, hque] using hempty
    · simp only [genOf, funcOf, hhif]
    · simp only [fnRuns, epRuns, endpointOf, inD3, busMasters, funcOf, hhif]
  exact ⟨t, by rw [he, hrun], hP⟩

/-- A command whose body answers nothing is in process. -/
theorem inProcess_of_body (he : exec i s = .next (adminRun s ep.val b f ok body)) (hi : IgnoresInHand body)
    (ha : Spec.admits s ep f.op f.named f.used b) (hok : ok b = true) (hb : body s b = (t, none))
    (hP : P (inHand t ep (begun s b))) : Spec.inProcess i s ep b P := by
  have hrun : adminRun s ep.val b f ok body = inHand t ep (begun s b) := adminRun_inProcess ha hok (by rw [hi, hb])
  exact ⟨_, begun s b, by rw [he, hrun], adminOf_inHand_accepted, rfl, rfl, hP⟩

end Sys2Proof.Machine

end

section
/-! The random service: the bytes that a draw gives, and what it leaves unchanged (R409, R410). -/

namespace Sys2Proof

theorem xorBytes_length (a b : List Byte) : (xorBytes a b).length = a.length := by
  induction a generalizing b with
  | nil => cases b <;> rfl
  | cons x a ih =>
    cases b with
    | nil => rfl
    | cons y b => simp [xorBytes, ih]

/-- A key of any length has round keys, so that a block always passes the last round. -/
theorem aesEnc_length (key block : List Byte) : (aesEnc key block).length = 16 := by
  unfold aesEnc
  split
  case h_1 h => simp [roundKeys, chunks] at h
  case h_2 => simp [xorBytes_length, shiftRows]

theorem drbgBlocks_length (key v : List Byte) (n : Nat) : (drbgBlocks key v n).length = 16 * n := by
  simp only [drbgBlocks, List.length_flatMap, aesEnc_length, List.map_const', List.length_range, List.sum_replicate_nat]
  exact Nat.mul_comm n 16

end Sys2Proof

namespace Sys2Proof.Machine

theorem drbg_length (n : Nat) (s : State) : (drbg n s).1.length = n := by
  simp only [drbg, drbgGenerate, List.length_take, drbgBlocks_length, cdiv]
  omega

/-- A draw changes the random service and uses up free values. -/
theorem drbg_state (n : Nat) (s : State) : ∃ k x, (drbg n s).2 = { s with kvl := k, free := x } := by
  unfold drbg drbgReseed
  split <;> exact ⟨_, _, rfl⟩

theorem drbgSeed_inHand {again : Bool} {s : State} {ep : Nat} {c : AdminCmd} :
    drbgSeed again (inHand s ep c) = inHand (drbgSeed again s) ep c := by
  unfold inHand adminMod; split <;> rfl

theorem drbgReseed_inHand {s : State} {ep : Nat} {c : AdminCmd} :
    drbgReseed (inHand s ep c) = inHand (drbgReseed s) ep c := by
  have hdue : drbgDue (inHand s ep c) = drbgDue s := by unfold inHand adminMod; split <;> rfl
  unfold drbgReseed
  rw [hdue, kvlMod_inHand, drbgSeed_inHand]
  split <;> rfl

theorem drbg_inHand {n : Nat} {s : State} {ep : Nat} {c : AdminCmd} :
    drbg n (inHand s ep c) = ((drbg n s).1, inHand (drbg n s).2 ep c) := by
  simp only [drbg, drbgReseed_inHand, inHand_kvl, kvlMod_inHand]

end Sys2Proof.Machine

end

section
/-! The bodies of the commands on contexts, the key vault and namespaces, case by case (R392, R393, R396, R412-R414, R425, R426). -/

namespace Sys2Proof.Machine

/-! No body sees the command in hand. -/

section
variable {s : State} {ep : Nat} {c : AdminCmd}

@[simp] theorem ctxOf_inHand {i : Nat} : ctxOf (inHand s ep c) i = ctxOf s i := by simp [ctxOf, ctxUnlisted]
@[simp] theorem ctxPlanned_inHand {i : Nat} : ctxPlanned (inHand s ep c) i = ctxPlanned s i := by simp [ctxPlanned]
@[simp] theorem ctxProof_inHand : ctxProof (inHand s ep c) = ctxProof s := by unfold inHand adminMod; split <;> rfl
@[simp] theorem createKeys_inHand {b data : List Byte} : createKeys (inHand s ep c) b data = createKeys s b data := by
  simp [createKeys]
@[simp] theorem exportAllowed_inHand : exportAllowed (inHand s ep c) = exportAllowed s := by simp [exportAllowed]
@[simp] theorem rngReady_inHand : rngReady (inHand s ep c) = rngReady s := by simp [rngReady]
@[simp] theorem saveRefusal_inHand {x : Ctx} {i wrap : Nat} :
    saveRefusal (inHand s ep c) x i wrap = saveRefusal s x i wrap := by
  simp [saveRefusal, ctxBusy, imageKey]
@[simp] theorem imageCtx_inHand {img : List Byte} : imageCtx (inHand s ep c) img = imageCtx s img := by
  simp [imageCtx]
@[simp] theorem namespaceFits_inHand {i : Nat} {x : Namespace} :
    namespaceFits (inHand s ep c) i x = namespaceFits s i x := by
  simp [namespaceFits, namespacesPlanned]
theorem ctxLater_inHand {d : CtxDue} : ctxLater (inHand s ep c) d = inHand (ctxLater s d) ep c := cphMod_inHand
end

theorem contextCreate_ignoresInHand (data : List Byte) : IgnoresInHand (contextCreate data) := by
  intro s ep c b
  simp only [contextCreate, createKeys_inHand, ctxPlanned_inHand, ctxProof_inHand, exportAllowed_inHand, inHand_kvl,
    rngReady_inHand, drbg_inHand]
  cases createKeys s b data with
  | none => rfl
  | some keys =>
    dsimp only
    (repeat' split) <;> simp only [proofFail, proofDone, adminDone, ctxLater_inHand, inHand_cph]

theorem contextDestroy_ignoresInHand : IgnoresInHand contextDestroy := by
  intro s ep c b
  simp only [contextDestroy, ctxPlanned_inHand, ctxProof_inHand, ctxLater_inHand]
  (repeat' split) <;> rfl

theorem contextSave_ignoresInHand (k : Nat) : IgnoresInHand (contextSave k) := by
  intro s ep c b
  simp only [contextSave, ctxPlanned_inHand, saveRefusal_inHand, ctxLater_inHand]
  cases saveRefusal s (ctxPlanned s (ctxId b)) (ctxId b) (leAt b 23 1) <;> rfl

theorem contextRestore_ignoresInHand (data : List Byte) : IgnoresInHand (contextRestore data) := by
  intro s ep c b
  simp only [contextRestore, ctxPlanned_inHand, imageCtx_inHand, inHand_rst, inHand_board, inHand_cph, ctxLater_inHand]
  cases imageCtx s (adminData b data) with
  | none => rfl
  | some x => dsimp only; (repeat' split) <;> rfl

/-- The key that VAULT_LOAD stores; none where its unwrap fails (R414). -/
def loadKey (s : State) (b data : List Byte) : Option (List Byte) :=
  if leAt b 22 1 = 1 then (vaultKey s.kvl (leAt b 24 2)).bind (fun k => kwUnwrap k (adminData b data)) else some (adminData b data)

theorem vaultLoad_eq (data : List Byte) (s : State) (b : List Byte) : vaultLoad data s b =
    match loadKey s b data with
    | none => adminFail s 10
    | some key => if s.kvl.erasing then adminFail s 3 else adminOk (kvlMod s (fun k => vaultPut k (leAt b 20 2) (some key))) := rfl

theorem vaultLoad_ignoresInHand (data : List Byte) : IgnoresInHand (vaultLoad data) := by
  intro s ep c b
  have hkey : loadKey (inHand s ep c) b data = loadKey s b data := by simp only [loadKey, inHand_kvl]
  simp only [vaultLoad_eq, hkey, inHand_kvl, kvlMod_inHand]
  cases loadKey s b data with
  | none => rfl
  | some key => dsimp only; (repeat' split) <;> rfl

theorem vaultClear_ignoresInHand :
    IgnoresInHand (fun s b => adminOk (kvlMod s (fun k => vaultPut k (leAt b 20 2) none))) := by
  intro s ep c b
  simp only [kvlMod_inHand]
  rfl

theorem namespaceSet_ignoresInHand (data : List Byte) : IgnoresInHand (namespaceSet data) := by
  intro s ep c b
  simp only [namespaceSet, namespaceFits_inHand, stoMod_inHand]
  (repeat' split) <;> rfl

/-- A change whose proof passes answers OK with the record of the proof. -/
theorem proofDone_of_passed {s : State} {r : ProofResult} (h : r.status = 0) : proofDone s r = (s, some (0, r.bytes)) := by
  rw [proofDone, adminDone, h]
  rfl

/-! CONTEXT_CREATE. -/

section
variable {s : State} {b data keys : List Byte}

theorem contextCreate_of_noKeys (h : createKeys s b data = none) : contextCreate data s b = proofFail s 10 := by
  simp only [contextCreate, h]

variable (hempty : (ctxPlanned s (ctxId b)).state = .empty)
  (hexp : bitN (leAt b 24 1) 3 = false ∨ (s.rst.testMode = true ∧ s.rst.policyEff.getLsbD 2 = false))
  (hproof : (ctxProof s).status = 0) (hvault : thas s.kvl.vol 0 = true) (herase : s.kvl.erasing = false)
include hempty hexp hproof hvault herase

/-- Past its checks a creation turns on its keys alone: those it was given, or a draw of the random service. -/
theorem contextCreate_of_passed (hk : createKeys s b data = some keys) (hrng : leAt b 23 1 = 2 → s.kvl.rng = .ready) :
    contextCreate data s b =
      let p := if leAt b 23 1 = 2 then drbg 64 s else (keys, s)
      proofDone (ctxLater p.2 (.create (ctxId b) (ctxCreated b p.1 p.2.cph.bootEpoch))) (ctxProof s) := by
  have hallowed : (bitN (createFlags b) 3 && !exportAllowed s) = false := by
    rcases hexp with h | ⟨htest, hpolicy⟩
    · rw [createFlags, h, Bool.false_and]
    · simp only [exportAllowed, htest, hpolicy, Bool.not_false, Bool.and_self, Bool.not_true, Bool.and_false]
  have hready : (leAt b 23 1 == 2 && !rngReady s) = false := by
    by_cases h : leAt b 23 1 = 2 <;> simp [h, rngReady, hrng]
  simp [contextCreate, hk, hempty, hallowed, hproof, hvault, herase, hready]

theorem contextCreate_of_given (hk : createKeys s b data = some keys) (hsrc : leAt b 23 1 ≤ 1) :
    contextCreate data s b =
      (ctxLater s (.create (ctxId b) (ctxCreated b keys s.cph.bootEpoch)), some (0, (ctxProof s).bytes)) := by
  have hne : leAt b 23 1 ≠ 2 := by omega
  rw [contextCreate_of_passed hempty hexp hproof hvault herase hk (absurd · hne), if_neg hne]
  exact proofDone_of_passed hproof

theorem contextCreate_of_drawn (hsrc : leAt b 23 1 = 2) (hrng : s.kvl.rng = .ready) :
    contextCreate data s b =
      (ctxLater (drbg 64 s).2 (.create (ctxId b) (ctxCreated b (drbg 64 s).1 (drbg 64 s).2.cph.bootEpoch)),
        some (0, (ctxProof s).bytes)) := by
  have hk : createKeys s b data = some (adminData b data) := if_neg (by omega)
  rw [contextCreate_of_passed hempty hexp hproof hvault herase hk (fun _ => hrng), if_pos hsrc]
  exact proofDone_of_passed hproof

end

/-! CONTEXT_DESTROY. -/

section
variable {s : State} {b : List Byte}

theorem contextDestroy_of_empty (h : (ctxPlanned s (ctxId b)).state = .empty) : contextDestroy s b = proofFail s 4 :=
  if_pos h

theorem contextDestroy_of_passed (h : (ctxPlanned s (ctxId b)).state ≠ .empty) (hproof : (ctxProof s).status = 0) :
    contextDestroy s b = (ctxLater s (.destroy (ctxId b)), some (0, (ctxProof s).bytes)) := by
  rw [contextDestroy, if_neg h, if_neg (fun hne => hne hproof)]
  exact proofDone_of_passed hproof

end

/-! CONTEXT_SAVE. -/

section
variable {s : State} {c : Ctx} {i wrap : Nat}

/-- The clear form of an image is for an EXPORTABLE context in test mode (R412). -/
def FormAllowed (s : State) (c : Ctx) (wrap : Nat) : Prop := wrap = 2 → c.exportable = true ∧ s.rst.testMode = true

theorem formRefused_iff : (wrap == 2 && !(c.exportable && s.rst.testMode)) = true ↔ ¬FormAllowed s c wrap := by
  unfold FormAllowed
  cases c.exportable <;> cases s.rst.testMode <;> simp

theorem imageKey_eq_some_none :
    imageKey s wrap = some none ↔ ¬(wrap = 2 ∨ (tget s.kvl.vbat wrap).isSome = true) := by
  unfold imageKey
  split <;> simp [*]

theorem saveRefusal_eq_four (h : c.state ≠ .active ∨ ¬FormAllowed s c wrap) : saveRefusal s c i wrap = some 4 := by
  rw [← formRefused_iff] at h
  unfold saveRefusal
  exact if_pos (by simpa only [ne_eq, Bool.or_eq_true, decide_eq_true_eq] using h)

/-- Past its first checks a save meets only the context's requests and a key that is not there. -/
theorem saveRefusal_of_allowed (hc : c.state = .active) (hw : FormAllowed s c wrap) : saveRefusal s c i wrap =
    if ctxBusy s i = true ∨ ¬(wrap = 2 ∨ (tget s.kvl.vbat wrap).isSome = true) then some 3 else none := by
  have hform : ¬(wrap == 2 && !(c.exportable && s.rst.testMode)) = true := fun h => formRefused_iff.mp h hw
  simp only [saveRefusal, ← imageKey_eq_some_none, hc, ne_eq, not_true_eq_false, decide_false, Bool.false_or, hform,
    Bool.or_eq_true, beq_iff_eq, Bool.false_eq_true, if_false]

end

section
variable {s : State} {b : List Byte} {ep st : Nat}

theorem contextSave_of_refused (h : saveRefusal s (ctxPlanned s (ctxId b)) (ctxId b) (leAt b 23 1) = some st) :
    contextSave ep s b = adminFail s st := by
  simp only [contextSave, h]

theorem contextSave_of_passed (h : saveRefusal s (ctxPlanned s (ctxId b)) (ctxId b) (leAt b 23 1) = none) :
    contextSave ep s b =
      adminLater (ctxLater s (.save (ctxId b) (leAt b 23 1) (adminAddr b) (adminWaiter ep b))) := by
  simp only [contextSave, h]

end

/-! CONTEXT_RESTORE (R413). -/

section
variable {s : State} {b data : List Byte} {c : Ctx}

theorem contextRestore_of_authFail (h : imageCtx s (adminData b data) = none) : contextRestore data s b = adminFail s 10 := by
  simp only [contextRestore, h]

variable (hc : imageCtx s (adminData b data) = some c)
include hc

theorem contextRestore_of_malformed (hok : imageOk (adminData b data) = false) : contextRestore data s b = adminFail s 1 := by
  simp only [contextRestore, hc, hok, Bool.not_false, if_true]

variable (hok : imageOk (adminData b data) = true) (hform : leAt (adminData b data) 6 1 ≠ 2 ∨ s.rst.testMode = true)
include hok hform

/-- An image of this board and epoch goes back to the context that it was saved from, any other to an empty context. -/
theorem contextRestore_of_ok : contextRestore data s b =
    if leAt (adminData b data) 28 4 = s.board.serial.toNat ∧ c.epoch = s.cph.bootEpoch then
      if (ctxPlanned s (ctxId b)).state = .saved ∧ (ctxPlanned s (ctxId b)).saveSeq = c.saveSeq then
        adminOk (ctxLater s (.restore (ctxId b) c true))
      else adminFail s 7
    else if (ctxPlanned s (ctxId b)).state = .empty then
      adminOk (ctxLater s (.restore (ctxId b) { c with epoch := s.cph.bootEpoch, saveSeq := 0 } false))
    else adminFail s 4 := by
  have hallowed : ¬(leAt (adminData b data) 6 1 = 2 ∧ (!s.rst.testMode) = true) := by
    rcases hform with h | h <;> simp [h]
  simp only [contextRestore, hc, hok, Bool.not_true, Bool.false_eq_true, if_false, if_neg hallowed]
  rfl

theorem contextRestore_of_elsewhere
    (h : leAt (adminData b data) 28 4 ≠ s.board.serial.toNat ∨ c.epoch ≠ s.cph.bootEpoch) : contextRestore data s b =
    if (ctxPlanned s (ctxId b)).state = .empty then
      adminOk (ctxLater s (.restore (ctxId b) { c with epoch := s.cph.bootEpoch, saveSeq := 0 } false))
    else adminFail s 4 := by
  rw [contextRestore_of_ok hc hok hform, if_neg (fun ⟨hs, he⟩ => h.elim (· hs) (· he))]

theorem contextRestore_of_here (hs : leAt (adminData b data) 28 4 = s.board.serial.toNat) (he : c.epoch = s.cph.bootEpoch) :
    contextRestore data s b =
    if (ctxPlanned s (ctxId b)).state = .saved ∧ (ctxPlanned s (ctxId b)).saveSeq = c.saveSeq then
      adminOk (ctxLater s (.restore (ctxId b) c true))
    else adminFail s 7 := by
  rw [contextRestore_of_ok hc hok hform, if_pos ⟨hs, he⟩]

end

/-! The vault (R414). -/

section
variable {k : Kvl} {n m : Nat} {x : List Byte} {key : Option (List Byte)}

@[simp] theorem vaultKey_vaultPut_same : vaultKey (vaultPut k n (some x)) n = some x := by
  unfold vaultKey vaultPut
  split <;> simp

theorem vaultKey_vaultPut_other (h : m ≠ n) : vaultKey (vaultPut k n (some x)) m = vaultKey k m := by
  unfold vaultKey vaultPut
  by_cases hn : n < 0x8000 <;> by_cases hm : m < 0x8000 <;> simp only [hn, hm, if_true, if_false]
  · exact tget_tset_other _ _ h
  · exact tget_tset_other _ _ (by omega)

theorem vaultPut_frame : vaultPut k n key = { k with vol := (vaultPut k n key).vol, vbat := (vaultPut k n key).vbat } := by
  unfold vaultPut
  dsimp only
  split <;> rfl

end

section
variable {s : State} {b data key : List Byte}

theorem vaultLoad_of_noKey (h : loadKey s b data = none) : vaultLoad data s b = adminFail s 10 := by
  simp only [vaultLoad_eq, h]

theorem vaultLoad_of_erasing (h : loadKey s b data = some key) (he : s.kvl.erasing = true) :
    vaultLoad data s b = adminFail s 3 := by
  simp only [vaultLoad_eq, h, he, if_true]

theorem vaultLoad_of_key (h : loadKey s b data = some key) (he : s.kvl.erasing = false) :
    vaultLoad data s b = adminOk (kvlMod s (fun k => vaultPut k (leAt b 20 2) (some key))) := by
  simp only [vaultLoad_eq, h, he, Bool.false_eq_true, if_false]

end

end Sys2Proof.Machine

end

section
/-! What the commands of several answers complete with, by their bodies. -/

namespace Sys2Proof.Machine

variable {s t : State} {ep : Fin 2} {b data : List Byte} {st : Byte} {r : List Byte} {P : State → Prop}

theorem contextSave_fails {status : Nat} (ha : Spec.admits s ep 0x52 false [(20, 4)] b)
    (hok : (ctxIdOk b && decide (leAt b 23 1 ≤ 2) && decide (136 ≤ adminLen b)) = true)
    (h : saveRefusal s (ctxPlanned s (ctxId b)) (ctxId b) (leAt b 23 1) = some status) :
    Spec.completes (.contextSave ep b data) s ep b (BitVec.ofNat 8 status) [] (fun t => t = s) :=
  completes_of_body rfl (contextSave_ignoresInHand ep.val) ha hok (contextSave_of_refused h) rfl rfl rfl

theorem contextRestore_completes (ha : Spec.admits s ep 0x53 false [(20, 3)] b) (hid : ctxId b < 262144)
    (hlen : leAt b 16 4 = 136) (hb : contextRestore data s b = (t, some (st, r))) (hque : t.que = s.que) (hhif : t.hif = s.hif)
    (hP : P t) : Spec.completes (.contextRestore ep b data) s ep b st r P := by
  have hok : (ctxIdOk b && adminLen b == 136) = true := by simp [ctxIdOk, adminLen, hid, hlen]
  exact completes_of_body rfl (contextRestore_ignoresInHand data) ha hok hb hque hhif hP

theorem namespaceSet_completes (ha : Spec.admits s ep 0x58 false [(20, 2)] b) (hplace : leAt b 20 2 < 16384)
    (hlen : leAt b 16 4 = 64) (hbytes : namespaceBytesOk (adminData b data) = true)
    (hb : namespaceSet data s b = (t, some (st, r))) (hque : t.que = s.que) (hhif : t.hif = s.hif) (hP : P t) :
    Spec.completes (.namespaceSet ep b data) s ep b st r P := by
  have hok : (decide (leAt b 20 2 < 16384) && adminLen b == 64 && namespaceBytesOk (adminData b data)) = true := by
    simp [adminLen, hplace, hlen, hbytes]
  exact completes_of_body rfl (namespaceSet_ignoresInHand data) ha hok hb hque hhif hP

end Sys2Proof.Machine

open Sys2Proof Sys2Proof.Machine in
/-- Settles O35: what each command does is what its body does on the state before it, and the hypotheses of a clause single out
one case of that body. AUTH_FAIL of an empty import slot and REFUSED of a namespace's bad references are the model's choices (log
entries 67 and 84). -/
theorem adminKeys : Obligations.AdminKeys := by
  unfold Obligations.AdminKeys
  intro s ep b data i later
  refine ⟨?create, ?destroy, ?save, ?noImage, ?badImage, ?elsewhere, ?here, ?load, ?clear, ?namespaces⟩
  case create =>
    intro ha hok hempty hexp hproof hvault herase
    refine ⟨fun keys hsrc hk => ?_, fun hsrc hrng => ?_, fun _ hk => ?_⟩
    · exact completes_of_body rfl (contextCreate_ignoresInHand data) ha hok
        (contextCreate_of_given hempty hexp hproof hvault herase hk hsrc) rfl rfl rfl
    · obtain ⟨k, x, hdraw⟩ := drbg_state 64 s
      refine completes_of_body rfl (contextCreate_ignoresInHand data) ha hok
        (contextCreate_of_drawn hempty hexp hproof hvault herase hsrc hrng) ?_ ?_ ⟨(drbg 64 s).1, drbg_length 64 s, ?_⟩
        <;> rw [hdraw] <;> rfl
    · exact completes_of_body rfl (contextCreate_ignoresInHand data) ha hok (contextCreate_of_noKeys hk) rfl rfl rfl
  case destroy =>
    intro ha hid
    have hok : ctxIdOk b = true := decide_eq_true hid
    refine ⟨fun hfull hproof => ?_, fun hempty => ?_⟩
    · exact completes_of_body rfl contextDestroy_ignoresInHand ha hok (contextDestroy_of_passed hfull hproof) rfl rfl rfl
    · exact completes_of_body rfl contextDestroy_ignoresInHand ha hok (contextDestroy_of_empty hempty) rfl rfl rfl
  case save =>
    intro ha hid hlen hwrap allowed keyed
    have hok : (ctxIdOk b && decide (leAt b 23 1 ≤ 2) && decide (136 ≤ adminLen b)) = true := by
      have hid' : ctxIdOk b = true := decide_eq_true hid
      simp [hid', adminLen, hwrap, hlen]
    refine ⟨fun hactive hform hwait => ?_, fun hform => ?_, fun hactive hform hquiet hkey => ?_, fun hother => ?_⟩
    · exact contextSave_fails ha hok ((saveRefusal_of_allowed hactive hform).trans (if_pos hwait))
    · exact contextSave_fails ha hok (saveRefusal_eq_four (.inr hform))
    · have hgoes := (saveRefusal_of_allowed hactive hform).trans
        (if_neg (not_or.mpr ⟨Bool.eq_false_iff.mp hquiet, fun hnone => hnone hkey⟩))
      exact inProcess_of_body rfl (contextSave_ignoresInHand ep.val) ha hok (contextSave_of_passed hgoes) inHand_with_que
    · exact contextSave_fails ha hok (saveRefusal_eq_four (.inl hother))
  case noImage =>
    intro img ha hid hlen himg hnone
    subst himg
    exact contextRestore_completes ha hid hlen (contextRestore_of_authFail hnone) rfl rfl rfl
  case badImage =>
    intro img c ha hid hlen himg hc hbad
    subst himg
    exact contextRestore_completes ha hid hlen (contextRestore_of_malformed hc hbad) rfl rfl rfl
  case elsewhere =>
    intro img c ha hid hlen himg hok hc hform hother
    subst himg
    have hbody := contextRestore_of_elsewhere hc hok hform hother
    refine ⟨fun hempty => ?_, fun hfull => ?_⟩
    · exact contextRestore_completes ha hid hlen (hbody.trans (if_pos hempty)) rfl rfl rfl
    · exact contextRestore_completes ha hid hlen (hbody.trans (if_neg hfull)) rfl rfl rfl
  case here =>
    intro img c ha hid hlen himg hok hc hform hserial hepoch
    subst himg
    have hbody := contextRestore_of_here hc hok hform hserial hepoch
    refine ⟨fun hsaved => ?_, fun hsaved hseq => ?_, fun _ hseq => ?_⟩
    · exact contextRestore_completes ha hid hlen (hbody.trans (if_neg fun h => hsaved h.1)) rfl rfl rfl
    · exact contextRestore_completes ha hid hlen (hbody.trans (if_pos ⟨hsaved, hseq⟩)) rfl rfl rfl
    · exact contextRestore_completes ha hid hlen (hbody.trans (if_neg fun h => hseq h.2)) rfl rfl rfl
  case load =>
    intro ha hok key
    refine ⟨fun hnone => ?_, fun hkey herase => ?_, fun hkey herase => ?_⟩
    · exact completes_of_body rfl (vaultLoad_ignoresInHand data) ha hok (vaultLoad_of_noKey hnone) rfl rfl rfl
    · obtain ⟨x, hx⟩ := Option.ne_none_iff_exists'.mp hkey
      exact completes_of_body rfl (vaultLoad_ignoresInHand data) ha hok (vaultLoad_of_erasing hx herase) rfl rfl rfl
    · obtain ⟨x, hx⟩ := Option.ne_none_iff_exists'.mp hkey
      refine completes_of_body rfl (vaultLoad_ignoresInHand data) ha hok (vaultLoad_of_key hx herase) rfl rfl ⟨?_, ?_, ?_⟩
      · exact vaultKey_vaultPut_same.trans hx.symm
      · exact fun n hn => vaultKey_vaultPut_other hn
      · exact congrArg (fun k => { s with kvl := k }) vaultPut_frame
  case clear =>
    intro ha hslot
    exact completes_of_body rfl vaultClear_ignoresInHand ha hslot rfl rfl rfl rfl
  case namespaces =>
    intro x ha hplace hlen hbytes hx
    subst hx
    refine ⟨fun hfits => ?_, fun hfails => ?_⟩
    · exact namespaceSet_completes ha hplace hlen hbytes (if_pos hfits) rfl rfl rfl
    · exact namespaceSet_completes ha hplace hlen hbytes (if_neg (Bool.eq_false_iff.mp hfails)) rfl rfl rfl

end

section
/-!
The bodies of the admin commands on versions, cuts, reads and the clock's configuration: none but VERSION_SELECT sees the command in
hand, and each case of a body is said once (R205-R207, R298, R301, R303, R330, R376).
-/

namespace Sys2Proof.Machine

/-! The state with a command in hand. -/

section
variable {s : State} {ep : Nat} {c : AdminCmd}

@[simp] theorem inHand_dec : (inHand s ep c).dec = s.dec := adminMod_dec ..
@[simp] theorem inHand_fwd : (inHand s ep c).fwd = s.fwd := adminMod_fwd ..
@[simp] theorem inHand_lnm : (inHand s ep c).lnm = s.lnm := adminMod_lnm ..
@[simp] theorem inHand_ldg : (inHand s ep c).ldg = s.ldg := adminMod_ldg ..
@[simp] theorem inHand_tmb : (inHand s ep c).tmb = s.tmb := adminMod_tmb ..
@[simp] theorem inHand_mir : (inHand s ep c).mir = s.mir := adminMod_mir ..
@[simp] theorem inHand_now : now (inHand s ep c) = now s := congrArg (·.tick.toNat) inHand_tmb

theorem inHand_with_dec {d : Dec} : { inHand s ep c with dec := d } = inHand { s with dec := d } ep c := by
  unfold inHand adminMod; split <;> rfl
theorem inHand_with_ldg {l : Ldg} : { inHand s ep c with ldg := l } = inHand { s with ldg := l } ep c := by
  unfold inHand adminMod; split <;> rfl
theorem inHand_with_ptp {p : Ptp} : { inHand s ep c with ptp := p } = inHand { s with ptp := p } ep c := by
  unfold inHand adminMod; split <;> rfl
theorem verRelease_inHand : verRelease (inHand s ep c) = inHand (verRelease s) ep c := by
  unfold inHand adminMod; split <;> rfl
theorem deltaAdd_inHand {kind : Nat} {body : List Byte} :
    deltaAdd (inHand s ep c) kind body = inHand (deltaAdd s kind body) ep c := by
  simp only [deltaAdd, inHand_mir]
  split
  · rfl
  · unfold inHand adminMod; split <;> rfl

theorem adminPut_inHand {e n addr : Nat} {bytes : List Byte} :
    adminPut (inHand s ep c) e n addr bytes = inHand (adminPut s e n addr bytes) ep c := by
  have hruns : fnRuns (inHand s ep c) (pf0Of e) = fnRuns s (pf0Of e) := by unfold inHand adminMod; split <;> rfl
  simp only [adminPut, hruns]
  split <;> unfold inHand adminMod <;> (repeat' split) <;> rfl
end

/-! No body but VERSION_SELECT's sees the command in hand. -/

theorem versionCommit_ignoresInHand (w : List Byte → Waiter) : IgnoresInHand (fun s b => versionCommit s (w b)) := by
  intro s ep c b
  simp only [versionCommit, inHand_dec, inHand_with_dec, inHand_now]
  split <;> rfl

theorem tableRead_ignoresInHand (k : Nat) : IgnoresInHand (tableRead k) := by
  intro s ep c b
  have hread : readVersion (inHand s ep c) b = readVersion s b := by simp only [readVersion, inHand_dec]
  have hentry : ∀ t, tableEntry (inHand s ep c) t b = tableEntry s t b := fun t => by simp only [tableEntry, inHand_fwd]
  simp only [tableRead, hread, hentry, adminOut, adminPut_inHand]
  cases readVersion s b <;> rfl

theorem cutSubmit_inHand {s : State} {ep : Nat} {c : AdminCmd} {kind : CutKind} {summary : Bool} {tick tag : W64} :
    cutSubmit (inHand s ep c) kind summary tick tag =
      (inHand (cutSubmit s kind summary tick tag).1 ep c, (cutSubmit s kind summary tick tag).2) := by
  have hpaired : (inHand s ep c).rst.options.paired = s.rst.options.paired := by rw [inHand_rst]
  simp only [cutSubmit, inHand_now, hpaired, inHand_ldg, inHand_with_ldg, deltaAdd_inHand]
  (repeat' split) <;> rfl

theorem cutRequest_ignoresInHand : IgnoresInHand cutRequest := by
  intro s ep c b
  simp only [cutRequest, cutSubmit_inHand]
  rfl

theorem cutRead_ignoresInHand (k : Nat) : IgnoresInHand (cutRead k) := by
  intro s ep c b
  have hbuf : cutBufferOf (inHand s ep c) (leAt b 20 4) = cutBufferOf s (leAt b 20 4) := by simp only [cutBufferOf, inHand_ldg]
  simp only [cutRead, hbuf, adminOut, adminPut_inHand]
  cases cutBufferOf s (leAt b 20 4) with
  | none => rfl
  | some x => dsimp only; split <;> rfl

theorem timeConfig_ignoresInHand (data : List Byte) : IgnoresInHand (timeConfig data) := by
  intro s ep c b
  have hport : ∀ n, portOf (inHand s ep c) n = portOf s n := fun n => by simp only [portOf, inHand_lnm]
  have hruled : ∀ p x, ptpUnruled (inHand { s with ptp := p } ep c) x = ptpUnruled { s with ptp := p } x := fun p x => by
    unfold inHand adminMod; split <;> rfl
  simp only [timeConfig, hport, inHand_with_ptp, hruled]
  split <;> rfl

/-! VERSION_COMMIT (R205). -/

section
variable {s : State} {w : Waiter}

theorem versionCommit_of_free (hc : s.dec.sealed_ = none) (hs : s.dec.select = none) :
    versionCommit s w = adminLater { s with dec := sealNow s.dec (now s) w true } := by
  simp [versionCommit, hc, hs]

theorem versionCommit_of_busy (h : s.dec.sealed_.isSome = true ∨ s.dec.select.isSome = true) :
    versionCommit s w = adminFail { s with dec := { s.dec with busyCount := wrapInc s.dec.busyCount } } 9 := by
  rw [versionCommit, if_pos (Bool.or_eq_true_iff.mpr h)]

end

/-! An answer to the one who waits leaves the versions and the mirror as they are. -/

section
variable {s : State} {ep fn v : Nat} {cid f : W16} {st : Byte} {r : List Byte} {w : Waiter}

@[simp] theorem msix_dec : (msix s fn v).dec = s.dec := by unfold msix; (repeat' split) <;> rfl
@[simp] theorem msix_mir : (msix s fn v).mir = s.mir := by unfold msix; (repeat' split) <;> rfl
@[simp] theorem adminWrite_dec : (adminWrite s ep cid f st r).dec = s.dec := by simp [adminWrite, hostWrite]
@[simp] theorem adminWrite_mir : (adminWrite s ep cid f st r).mir = s.mir := by simp [adminWrite, hostWrite]

@[simp] theorem adminFinish_dec : (adminFinish s ep cid st r).dec = s.dec := by
  unfold adminFinish; dsimp only; (repeat' split) <;> simp
@[simp] theorem adminFinish_mir : (adminFinish s ep cid st r).mir = s.mir := by
  unfold adminFinish; dsimp only; (repeat' split) <;> simp

@[simp] theorem answer_dec : (answer s w st r).dec = s.dec := by cases w <;> simp [answer, sbAnswer]
@[simp] theorem answer_mir : (answer s w st r).mir = s.mir := by cases w <;> simp [answer, sbAnswer]
end

/-! VERSION_SELECT (R207). -/

section
variable {s : State} {v k : Nat} {w : Waiter}

theorem versionSelect_of_absent (h : slotOfVersion s.dec v = none) : versionSelect s v w = adminFail s 7 := by
  simp [versionSelect, h]

theorem versionSelect_of_current (h : slotOfVersion s.dec v = some k) (hv : v = s.dec.current) :
    versionSelect s v w = adminDone s 0 (selectResult (vslot s.dec s.dec.currentSlot).sinceTick.toNat) := by
  simp [versionSelect, h, ← hv]

/-- A select of another version waits, whatever it ends. -/
theorem versionSelect_of_other (h : slotOfVersion s.dec v = some k) (hv : v ≠ s.dec.current) :
    ∃ u, versionSelect s v w = adminLater u ∧
      u.dec = { s.dec with
        sealed_ := none, openWrites := (s.dec.sealed_.map (·.writes)).getD [] ++ s.dec.openWrites
        select := some { version := v, tick := now s, waiter := w } } ∧ u.mir = (verRelease s).mir := by
  simp only [versionSelect, h, hv, Option.isNone_some, Bool.false_eq_true, if_false]
  refine ⟨_, rfl, ?_, ?_⟩
  · cases s.dec.select <;> cases s.dec.sealed_ <;> simp [verRelease]
  · cases s.dec.select <;> cases s.dec.sealed_ <;> simp [verRelease]

/-- Where no commit and no select waits, it ends none. -/
theorem versionSelect_of_free (h : slotOfVersion s.dec v = some k) (hv : v ≠ s.dec.current) (hc : s.dec.sealed_ = none)
    (hs : s.dec.select = none) : versionSelect s v w =
      adminLater (verRelease { s with dec := { s.dec with select := some { version := v, tick := now s, waiter := w } } }) := by
  simp only [versionSelect, h, hv, Option.isNone_some, Bool.false_eq_true, if_false, hc, hs]
  rfl

end

end Sys2Proof.Machine

end

section
/-! The bodies of TABLE_READ, CUT_REQUEST, CUT_READ and TIME_CONFIG, case by case (R298, R301, R303, R330, R376). -/

namespace Sys2Proof.Machine

section
variable {s : State} {ep : Fin 2} {b bytes : List Byte}

theorem fnRuns_of_admits {op : Nat} {named : Bool} {used : List (Nat × Nat)} (h : Spec.admits s ep op named used b) :
    fnRuns s (0x8000 * ep.val) = true := by
  obtain ⟨-, -, -, -, -, -, h, -⟩ := h
  exact h

/-- An endpoint that issues requests writes an admin command's data at once (R498). -/
theorem adminOut_of_runs (h : fnRuns s (0x8000 * ep.val) = true) : adminOut s ep b bytes = Spec.dataOut s ep b bytes := by
  have hfn : fnRuns s (pf0Of ep) = true := by rwa [pf0Of, Nat.mul_comm]
  rw [adminOut, adminPut, if_pos hfn]
  rfl

/-- What a read finds: its index word and its entry, or 0 and nothing. -/
theorem tableRead_of_version {t : VTables} (hv : readVersion s b = some t) (h : fnRuns s (0x8000 * ep.val) = true) :
    ∃ n entry, (tableEntry s t b = some (n, entry) ∨ tableEntry s t b = none ∧ n = 0 ∧ entry = []) ∧
      tableRead ep s b = (Spec.dataOut s ep b (leBytes 4 n ++ zeroBytes 4 ++ slice entry 0 152),
        some (0, [if (tableEntry s t b).isSome then 1 else 0])) := by
  simp only [tableRead, hv, adminOut_of_runs h]
  cases he : tableEntry s t b with
  | none => exact ⟨0, [], .inr ⟨rfl, rfl, rfl⟩, rfl⟩
  | some e => exact ⟨e.1, e.2, .inl rfl, rfl⟩

theorem cutRead_of_absent (h : cutBufferOf s (leAt b 20 4) = none) : cutRead ep s b = adminFail s 7 := by
  simp only [cutRead, h]

theorem cutRead_of_copying {x : CutBuf} {r : CutRecord} (h : cutBufferOf s (leAt b 20 4) = some (x, r)) (hx : x.state ≠ 2) :
    cutRead ep s b = adminFail s 3 := by
  simp only [cutRead, h, if_pos hx]

theorem cutRead_of_ready {x : CutBuf} {r : CutRecord} (h : cutBufferOf s (leAt b 20 4) = some (x, r)) (hx : x.state = 2)
    (hr : fnRuns s (0x8000 * ep.val) = true) : cutRead ep s b =
      adminOk (Spec.dataOut s ep b (cutRecordBytes r ++ cutCounters x (leAt b 24 4) ((leAt b 16 4 - 64) / 16))) := by
  simp only [cutRead, h, hx, ne_eq, not_true_eq_false, if_false, adminOut_of_runs hr, adminLen]

end

theorem displaceAll_nil {l : Ldg} : displaceAll l [] = l := by
  have hkept : l.scheduled.filter (fun c => !([] : List CutReq).contains c) = l.scheduled :=
    List.filter_eq_self.mpr fun _ _ => rfl
  have hcount : ∀ {w : Nat} (x : BitVec w), wrapAdd x 0 = x := fun x => BitVec.add_zero x
  simp only [displaceAll, hkept, List.filter_nil, List.length_nil, Nat.sub_self, hcount]

/-- With no cut scheduled or running, one that keeps its lead is admitted under the next id (R298, R301). -/
theorem cutAdmit_of_idle {n : Nat} {l : Ldg} {new : CutReq} (hs : l.scheduled = []) (hr : l.running = none)
    (hlead : n + new.kind.lead ≤ new.tick) : cutAdmit n l new =
      ({ l with scheduled := [{ new with id := l.nextCutId }], nextCutId := wrapInc l.nextCutId }, .ok l.nextCutId) := by
  simp [cutAdmit, hs, hr, displaceAll_nil, Nat.not_lt.mpr hlead]

section
variable {s : State} {b : List Byte}

theorem cutSubmit_of_idle {summary : Bool} {tick tag : W64} (hs : s.ldg.scheduled = []) (hr : s.ldg.running = none)
    (ht : now s + 1 ≤ tick.toNat) : cutSubmit s .demand summary tick tag =
      ({ s with ldg := { s.ldg with
          scheduled := [{ kind := .demand, summary := summary, tick := tick.toNat, tag := tag, id := s.ldg.nextCutId
                          partnerOk := false }]
          nextCutId := wrapInc s.ldg.nextCutId } }, .ok s.ldg.nextCutId) := by
  have hlead : ¬tick.toNat < now s + CutKind.demand.lead := Nat.not_lt.mpr ht
  rw [cutSubmit, if_neg hlead, if_neg (by simp), cutAdmit_of_idle hs hr (Nat.not_lt.mp hlead)]
  simp

/-- A field of 8 bytes is the value of its register. -/
theorem toNat_leAt_eight {i : Nat} : (BitVec.ofNat 64 (leAt b i 8)).toNat = leAt b i 8 :=
  Nat.mod_eq_of_lt (leAt_lt b i 8)

theorem cutRequest_of_idle (hkind : leAt b 21 1 = 0) (hs : s.ldg.scheduled = []) (hr : s.ldg.running = none)
    (ht : now s + 1 ≤ leAt b 24 8) : cutRequest s b =
      ({ s with ldg := { s.ldg with
          scheduled := [{ kind := .demand, summary := leAt b 20 1 == 1, tick := leAt b 24 8, tag := BitVec.ofNat 64 (leAt b 32 8)
                          id := s.ldg.nextCutId, partnerOk := false }]
          nextCutId := wrapInc s.ldg.nextCutId } }, some (0, leBytes 4 s.ldg.nextCutId.toNat)) := by
  have hone : leAt b 21 1 ≠ 1 := by omega
  rw [cutRequest, if_neg hone, cutSubmit_of_idle hs hr (toNat_leAt_eight.symm ▸ ht), toNat_leAt_eight]
  rfl

theorem cutRequest_of_late (hkind : leAt b 21 1 = 0) (ht : leAt b 24 8 ≤ now s) : cutRequest s b = adminFail s 7 := by
  have hone : leAt b 21 1 ≠ 1 := by omega
  have hlate : (BitVec.ofNat 64 (leAt b 24 8)).toNat < now s + CutKind.demand.lead :=
    toNat_leAt_eight.symm ▸ Nat.lt_succ_of_le ht
  rw [cutRequest, if_neg hone, cutSubmit, if_pos hlate]
  rfl

end

section
variable {s : State} {b data : List Byte}

theorem timeConfig_of_absent (h : ∃ x ∈ (ptpOfBytes (adminData b data)).ports, portOf s x.port = none) :
    timeConfig data s b = adminFail s 4 := by
  obtain ⟨x, hx, hnone⟩ := h
  exact if_pos (List.any_eq_true.mpr ⟨x, hx, by rw [hnone]; rfl⟩)

/-- The configuration as it is taken, each port with what the control class has for it (R331). -/
theorem timeConfig_of_present (h : ∀ x ∈ (ptpOfBytes (adminData b data)).ports, (portOf s x.port).isSome = true) :
    ∃ ruled : PtpPort → Bool, timeConfig data s b = adminOk { s with ptp := { ptpOfBytes (adminData b data) with
      ports := (ptpOfBytes (adminData b data)).ports.map (fun x => { x with noControlRule := ruled x }) } } := by
  refine ⟨_, if_neg fun hany => ?_⟩
  obtain ⟨x, hx, hnone⟩ := List.any_eq_true.mp hany
  exact absurd (h x hx) (by rw [Option.isNone_iff_eq_none.mp hnone]; exact Bool.false_ne_true)

end

end Sys2Proof.Machine

end

section
/-! The end of a commit that finds no boundary (R206). -/

namespace Sys2Proof.Machine

/-- A sealed commit gives up: 64 ticks have passed, no plan of a commit waits, and no boundary on this side, or of a pair in step,
takes it. -/
def CommitStuck (s : State) (x : Sealed) : Prop :=
  x.tick + 64 < now s ∧ ¬(∃ p ∈ s.mir.plans, p.kind = .commit) ∧
    ((inStep s = true ∧ s.mir.pair.mode ≠ 0) ∨ (twoTicks s.dec (now s) = true ∧ commitSlot s.dec = none))

variable {s : State} {x : Sealed}

theorem commitWaits_eq_false_iff : (decide (now s ≤ x.tick + 64) || s.mir.plans.any (fun p => p.kind == .commit)
      || (!(inStep s && s.mir.pair.mode != 0) && (!twoTicks s.dec (now s) || (commitSlot s.dec).isSome))) = false ↔
    CommitStuck s x := by
  simp only [CommitStuck, Bool.or_eq_false_iff, decide_eq_false_iff_not, Nat.not_le, List.any_eq_false, beq_iff_eq, not_exists,
    not_and, and_assoc]
  cases inStep s <;> cases twoTicks s.dec (now s) <;> cases commitSlot s.dec <;> simp

theorem commitTimeout_of_stuck (hx : s.dec.sealed_ = some x) (h : CommitStuck s x) :
    commitTimeout s = answer (verRelease { s with dec := commitGiveUp s.dec }) x.waiter 9#8 [] := by
  simp only [commitTimeout, hx, commitWaits_eq_false_iff.mpr h, Bool.false_eq_true, if_false]

theorem commitTimeout_of_waiting (hx : s.dec.sealed_ = some x) (h : ¬CommitStuck s x) : commitTimeout s = s := by
  have hwaits := (Bool.not_eq_false _).mp (mt commitWaits_eq_false_iff.mp h)
  simp only [commitTimeout, hx, hwaits, if_true]

theorem commitTimeout_of_none (h : s.dec.sealed_ = none) : commitTimeout s = s := by
  simp only [commitTimeout, h]

end Sys2Proof.Machine

end

section
/-! What VERSION_SELECT does as a command: it may answer others while it is in hand. -/

namespace Sys2Proof.Machine

variable {s u : State} {ep : Fin 2} {b data : List Byte} {k st : Nat} {r : List Byte}

/-- A select that passes the queue's checks runs with the command in hand. -/
theorem versionSelect_run (ha : Spec.admits s ep 0x33 false [(20, 1)] b) (hv : leAt b 20 1 < 16)
    (hb : versionSelect (inHand s ep (begun s b)) (leAt b 20 1) (adminWaiter ep b) = (u, none)) :
    exec (.versionSelect ep b data) s = .next u :=
  congrArg Host.Outcome.next (adminRun_inProcess (ok := fun b => decide (leAt b 20 1 < 16))
    (body := fun s b => versionSelect s (leAt b 20 1) (adminWaiter ep b)) ha (decide_eq_true hv) hb)

theorem versionSelect_completes (ha : Spec.admits s ep 0x33 false [(20, 1)] b) (hv : leAt b 20 1 < 16)
    (hb : versionSelect (inHand s ep (begun s b)) (leAt b 20 1) (adminWaiter ep b) =
      adminDone (inHand s ep (begun s b)) st r) :
    Spec.completes (.versionSelect ep b data) s ep b (BitVec.ofNat 8 st) r (fun t => t = s) := by
  have hempty : (adminOf s ep).accepted = [] := by
    obtain ⟨-, -, -, -, h, -⟩ := ha
    exact h
  exact ⟨s, congrArg Host.Outcome.next (adminRun_done (ok := fun b => decide (leAt b 20 1 < 16))
    (body := fun s b => versionSelect s (leAt b 20 1) (adminWaiter ep b)) ha (decide_eq_true hv) hb hempty rfl rfl), rfl⟩

end Sys2Proof.Machine

open Sys2Proof Sys2Proof.Machine in
/-- Settles O34: each clause names one case of its command's body, and a body that does not see the command in hand completes with
what it answers on the state before. That the writes of an ended commit return, that the records held back go out, that their count
starts again and that a select of the current version ends nothing are the model's choices (log entries 125, 128 and 129). -/
theorem adminVersionsAndCuts : Obligations.AdminVersionsAndCuts := by
  unfold Obligations.AdminVersionsAndCuts
  intro s ep b data w v
  refine ⟨?commit, ?select, ?unsealed, ?timeout, ?read, ?request, ?cuts, ?clock⟩
  case commit =>
    intro ha
    refine ⟨fun hc hs => ?_, fun hbusy => ?_⟩
    · exact inProcess_of_body rfl (versionCommit_ignoresInHand (adminWaiter ep)) ha rfl (versionCommit_of_free hc hs)
        inHand_with_que
    · exact completes_of_body rfl (versionCommit_ignoresInHand (adminWaiter ep)) ha rfl (versionCommit_of_busy hbusy) rfl rfl rfl
  case select =>
    intro ha hv
    refine ⟨fun hk => ?_, fun k hk hcur => ?_, fun k hk hother => ?_, fun k hk hother hc hs => ?_⟩
    · exact versionSelect_completes ha hv (versionSelect_of_absent (by rwa [inHand_dec]))
    · refine versionSelect_completes ha hv ?_
      rw [versionSelect_of_current (by rwa [inHand_dec]) (by rwa [inHand_dec]), inHand_dec]
      rfl
    · obtain ⟨u, hb, hdec, hmir⟩ := versionSelect_of_other (s := inHand s ep (begun s b)) (by rwa [inHand_dec]) (by rwa [inHand_dec])
      refine ⟨u, versionSelect_run ha hv hb, ?_, ?_⟩
      · rw [hdec, inHand_dec, inHand_now]; rfl
      · rw [hmir, verRelease_inHand, inHand_mir]; rfl
    · have hb := versionSelect_of_free (s := inHand s ep (begun s b)) (w := w) (by rwa [inHand_dec]) (by rwa [inHand_dec])
        (by rwa [inHand_dec]) (by rwa [inHand_dec])
      simp only [inHand_dec, inHand_now, inHand_with_dec, verRelease_inHand] at hb
      exact ⟨_, begun s b, versionSelect_run ha hv hb, adminOf_inHand_accepted, rfl, rfl, inHand_with_que⟩
  case unsealed => exact fun h => congrArg Host.Outcome.next (commitTimeout_of_none h)
  case timeout =>
    intro x hx pair planned stuck
    refine ⟨fun h => ?_, fun h => ?_⟩
    · refine (congrArg Host.Outcome.next (commitTimeout_of_stuck hx h)).trans ?_
      rw [commitGiveUp, hx]
      rfl
    · exact congrArg Host.Outcome.next (commitTimeout_of_waiting hx h)
  case read =>
    intro t0 ha hok ht
    obtain ⟨n, entry, hfound, hb⟩ := tableRead_of_version ht (fnRuns_of_admits ha)
    exact completes_of_body rfl (tableRead_ignoresInHand ep) ha hok hb rfl rfl ⟨n, entry, hfound, rfl⟩
  case request =>
    intro ha hsum hkind
    have hok : (decide (leAt b 20 1 ≤ 1) && decide (leAt b 21 1 ≤ 1)) = true := by simp [hsum, hkind]
    refine ⟨fun hs hr ht => ?_, fun ht => ?_⟩
    · exact completes_of_body rfl cutRequest_ignoresInHand ha hok (cutRequest_of_idle hkind hs hr ht) rfl rfl rfl
    · exact completes_of_body rfl cutRequest_ignoresInHand ha hok (cutRequest_of_late hkind ht) rfl rfl rfl
  case cuts =>
    intro ha hok
    refine ⟨fun x r hbuf hx => ?_, fun x r hbuf hx => ?_, fun hbuf => ?_⟩
    · exact completes_of_body rfl (cutRead_ignoresInHand ep) ha hok (cutRead_of_ready hbuf hx (fnRuns_of_admits ha)) rfl rfl rfl
    · exact completes_of_body rfl (cutRead_ignoresInHand ep) ha hok (cutRead_of_copying hbuf hx) rfl rfl rfl
    · exact completes_of_body rfl (cutRead_ignoresInHand ep) ha hok (cutRead_of_absent hbuf) rfl rfl rfl
  case clock =>
    intro ha hok
    refine ⟨fun hports => ?_, fun hport => ?_⟩
    · obtain ⟨ruled, hb⟩ := timeConfig_of_present hports
      refine completes_of_body rfl (timeConfig_ignoresInHand data) ha hok hb rfl rfl ⟨rfl, rfl, ?_, ?_⟩
      · simp [ptpOfBytes]
      · simp
    · exact completes_of_body rfl (timeConfig_ignoresInHand data) ha hok (timeConfig_of_absent hport) rfl rfl rfl

end

section
/-!
A versioned write while a sealed commit waits, on a device that is not paired: its record is held back behind a PLAN that no partner
will be sent (R208, R527; log entry 125).
-/

namespace Sys2Proof.Machine

@[simp] theorem finished_mir {s : State} {ep : Fin 2} {b : List Byte} {st : Byte} {r : List Byte} :
    (Spec.finished s ep b st r).mir = s.mir := by simp [Spec.finished]

/-- A device that is not paired, ready for its host, whose open version was sealed in tick 0 and waits for its boundary. -/
def unpairedSealed : State :=
  { State.reset with
    rst := { Rst.reset with released := 0x3FFF#14 }
    hif := { Hif.reset with
      deviceReady := true
      eps := [(0, { Endpoint.reset with linkUp := true, inReset := false })]
      funcs := [(0, { Func.reset with busMaster := true })] }
    dec := { Dec.reset with sealed_ := some { writes := [], tick := 0, waiter := .none_, fresh := false } } }

/-- A TABLE_WRITE of one record, which maps segment 77 to tenant 5, and its data. -/
def segmentEntry : List Byte :=
  leBytes 6 0x30 ++ leBytes 2 0xFFFF ++ zeroBytes 8 ++ leBytes 4 160 ++ leBytes 2 2 ++ leBytes 2 1 ++ zeroBytes 40
def segmentData : List Byte := zeroBytes 8 ++ segmentBytes 77 5

theorem segmentEntry_admitted : Spec.admits unpairedSealed 0 0x30 false [(20, 4)] segmentEntry := by
  unfold Spec.admits
  and_intros <;> decide +kernel

theorem segmentWrite_opens : openWrite unpairedSealed.dec [.segment 77 (some 5)] =
    some { unpairedSealed.dec with openWrites := [.segment 77 (some 5)], openWriteCount := 1 } := by decide +kernel

/-- The write is accepted, and its record is held. -/
theorem segmentWrite_held :
    ∃ u, exec (.tableWrite 0 segmentEntry segmentData) unpairedSealed = .next u ∧ u.mir.verHeld ≠ unpairedSealed.mir.verHeld :=
  ⟨_, rfl, by decide +kernel⟩

end Sys2Proof.Machine

open Sys2Proof Sys2Proof.Machine in
/-- Refutes O33: on a device that is not paired a versioned write leaves the mirror as it is only while no sealed commit waits. Here
one does, and the record of the write joins those held back for its PLAN (`verDelta` asks for the sealing before the pair's mode). -/
theorem not_adminTableWrites : ¬ Obligations.AdminTableWrites := by
  unfold Obligations.AdminTableWrites
  rintro ⟨-, h⟩
  obtain ⟨hwrite, -⟩ := h unpairedSealed 0 segmentEntry segmentData rfl
  obtain ⟨hok, -⟩ := hwrite false [.segment 77 (some 5)] segmentEntry_admitted (by decide) (by decide) (by decide) (by decide)
    (by decide) (by decide +kernel)
  obtain ⟨t, ht, -, hmir⟩ := hok unpairedSealed.fwd [.segment 77 (some 5)] _ rfl segmentWrite_opens
  obtain ⟨u, hu, hheld⟩ := segmentWrite_held
  have hut : u = Spec.finished t 0 segmentEntry 0 (leBytes 4 (leAt segmentEntry 22 2)) :=
    Host.Outcome.next.inj (hu.symm.trans ht)
  exact hheld (by rw [hut, finished_mir, hmir rfl])

end

section
/-!
An enqueue on a packet table that is not in canonical form: an update of a packet's entry there adds a second one, so that its crumbs
are charged to transit twice and the admission of R256 finds less room than before.
-/

namespace Sys2Proof.Machine

/-- A frame of one crumb that waits for its enqueue toward queue 0 of port 0. -/
def waitingPacket : Packet := { linePacket 0 ⟨0, 0⟩ (zeroBytes 64) with dest := destPort 0 0, stage := .enqueue }

/-- Port 0 admits, queue 8 leaves just the room that one crumb takes on queue 0, and packet 0 is listed behind packet 1. -/
def unsortedPackets : State :=
  { State.reset with
    lnm := { State.reset.lnm with
      ports := [(0, { Port.ofMap (portEntryOf (zeroBytes 32)) with state := .up, admitting := true })] }
    sch := { State.reset.sch with queues := [(8, { SchQueue.blank with occ := 4112126 })] }
    crb := { Crb.reset with pkts := [(1, waitingPacket), (0, waitingPacket)], enqueueQ := [0] } }

theorem unsortedPackets_admits : admits unsortedPackets (schQueue unsortedPackets 0) 1 3 = true := by decide +kernel

/-- The colour that the command puts down lists packet 0 twice; with one crumb less the frame is over its queue's threshold, and it is
dropped. -/
theorem unsortedPackets_drops : (schQueue (packetEnqueue unsortedPackets) 0).frames = [] := by decide +kernel

end Sys2Proof.Machine

open Sys2Proof Sys2Proof.Machine in
/-- Refutes O14 by its clause on PACKET_ENQUEUE, which is said of every packet table: on one whose keys do not rise the room that the
clause reads before the command is not the room that the command finds. The tables' operations keep rising keys (`trising_tset_top`),
so that the refutation turns on a hypothesis that the clause lacks. -/
theorem not_packetPaths : ¬ Obligations.PacketPaths := by
  unfold Obligations.PacketPaths
  rintro ⟨-, henqueue, -⟩
  obtain ⟨u, hu, -, hframes, -⟩ := henqueue unsortedPackets 0 [] waitingPacket rfl rfl (by decide) (by decide) rfl rfl rfl
    unsortedPackets_admits (by decide)
  obtain rfl : packetEnqueue unsortedPackets = u := Host.Outcome.next.inj hu
  have hqueue : destPortOf waitingPacket.dest * 8 + destQueueOf waitingPacket.dest = 0 := by decide
  simp [hqueue, unsortedPackets_drops] at hframes

end

section
/-!
A drop as the crumb buffer sees it: the packet's completion and its counts touch nothing there, and the freed packet leaves every
queue while the others stay (R285).
-/

namespace Sys2Proof.Machine

variable {s : State} {id j : Nat} {p : Packet}

/-! What answers the host or counts leaves the crumb buffer as it is. -/

@[simp] theorem msix_crb {fn v : Nat} : (msix s fn v).crb = s.crb := by unfold msix vectorMod; (repeat' split) <;> simp
@[simp] theorem adminWrite_crb {ep : Nat} {cid f : W16} {st : Byte} {r : List Byte} :
    (adminWrite s ep cid f st r).crb = s.crb := by simp [adminWrite, hostWrite]
@[simp] theorem adminFinish_crb {ep : Nat} {cid : W16} {st : Byte} {r : List Byte} :
    (adminFinish s ep cid st r).crb = s.crb := by
  unfold adminFinish; dsimp only; (repeat' split) <;> simp
@[simp] theorem answer_crb {w : Waiter} {st : Byte} {r : List Byte} : (answer s w st r).crb = s.crb := by
  cases w <;> simp [answer, sbAnswer]

@[simp] theorem completionWrite_crb {qid : Nat} {entry : Nat → Nat → List Byte} : (completionWrite s qid entry).crb = s.crb := by
  unfold completionWrite; split <;> simp [hostWrite]
@[simp] theorem queueSignal_crb {qid : Nat} : (queueSignal s qid).crb = s.crb := by unfold queueSignal; split <;> simp

@[simp] theorem sendFlush_crb {qid fuel : Nat} : (sendFlush qid fuel s).crb = s.crb := by
  induction fuel generalizing s with
  | zero => rfl
  | succ fuel ih => unfold sendFlush; (repeat' split) <;> simp [ih]

theorem foldl_answer_crb {ws : List Waiter} {st : Byte} {r : List Byte} :
    (ws.foldl (fun s w => answer s w st r) s).crb = s.crb := by
  induction ws generalizing s with
  | nil => rfl
  | cons w ws ih => simp [ih]

@[simp] theorem disableCheck_crb {qid : Nat} : (disableCheck s qid).crb = s.crb := by
  unfold disableCheck; (repeat' split) <;> simp [foldl_answer_crb]
@[simp] theorem sendFlushAll_crb {qid : Nat} : (sendFlushAll s qid).crb = s.crb := by simp [sendFlushAll]
@[simp] theorem sendDropped_crb : (sendDropped s id p).crb = s.crb := by unfold sendDropped; split <;> simp

@[simp] theorem countDrop_crb {owner code len : Nat} {port tenant : Option Nat} :
    (countDrop s owner port tenant code len).crb = s.crb := by
  unfold countDrop; cases port <;> cases tenant <;> simp

/-! The packet is freed. -/

@[simp] theorem queueTake_crb {qx : Nat} : (queueTake s qx id).crb = s.crb := by
  simp only [queueTake, queueEmptied]; (repeat' split) <;> simp

@[simp] theorem releaseRef_flowQ : (releaseRef s id).crb.flowQ = s.crb.flowQ := by unfold releaseRef; split <;> rfl

theorem pktOf_releaseRef_other (h : j ≠ id) : pktOf (releaseRef s id) j = pktOf s j := by
  unfold releaseRef
  split
  · rfl
  · exact pktOf_pktMod_other s _ h

theorem pktFree_flowQ (h : pktOf s id = some p) : (pktFree s id).crb.flowQ = s.crb.flowQ.filter (· ≠ id) := by
  simp only [pktFree, h]
  cases p.queue with
  | none => simp
  | some qx => dsimp only; split <;> simp

theorem pktOf_pktFree_other (h : j ≠ id) : pktOf (pktFree s id) j = pktOf s j := by
  unfold pktFree
  split
  · rfl
  next p _ =>
    refine (tget_tdel_other _ h).trans (Eq.trans ?_ (pktOf_releaseRef_other h))
    cases p.queue with
    | none => rfl
    | some qx => dsimp only; split <;> simp [pktOf]

/-! The drop. -/

theorem dropPkt_flowQ {r : DropReason} (h : pktOf s id = some p) :
    (dropPkt s id r).crb.flowQ = s.crb.flowQ.filter (· ≠ id) := by
  simp only [dropPkt, dropPktAt, h]
  rw [pktFree_flowQ (p := p)]
  · simp
  · simpa [pktOf] using h

theorem pktOf_dropPkt_other {r : DropReason} (h : j ≠ id) : pktOf (dropPkt s id r) j = pktOf s j := by
  unfold dropPkt dropPktAt
  split
  · rfl
  · rw [pktOf_pktFree_other h]
    simp [pktOf]

@[simp] theorem dropPkt_hbm {r : DropReason} : (dropPkt s id r).hbm = s.hbm := congrArg Line.hbm dropPkt_line

end Sys2Proof.Machine

end

section
/-! FLOW_STATE_ACCESS and the flow ager, case by case (R238, R240, R290). -/

namespace Sys2Proof.Machine

variable {s : State} {id i : Nat} {p : Packet} {cls : ClassEntry} {t : TenantEntry} {e : List Byte}

/-- The entry of a hit: HIT set, and the packet counted. -/
def hitEntry (e : List Byte) (p : Packet) : List Byte :=
  patch (patch e 3 [BitVec.ofNat 8 (leAt e 3 1 ||| 4)]) 56 (leBytes 8 (flowCount (flowCounters e) (frameLen p)).1.toNat)

theorem flowHitAt_of_drop (hwrap : (flowCount (flowCounters e) (frameLen p)).2 = (false, false))
    (hdest : flowDest e ≠ destContinue) (hdrop : dtypeOf (flowDest e) = .drop) :
    flowHitAt s id i e p = dropPkt (flowWrite s i (hitEntry e p)) id .policyDeny := by
  simp [flowHitAt, hwrap, hdest, hdrop, hitEntry]

theorem flowAccessOf_of_match (hi : i = flowIndex s.fwd.flowSeed (flowKeyBytes (p.tenant.getD 0) p.cls cls p.kv))
    (hans : hbmAnswers s (i * 64) = true) (he : flowRead s i = e) (hv : flowValid e = true)
    (hk : flowKeyOf e = flowKeyBytes (p.tenant.getD 0) p.cls cls p.kv) :
    flowAccessOf s id p cls t = flowHitAt (addPkt s (cTable p.owner 6 0) p) id i e p := by
  subst hi he
  simp [flowAccessOf, hans, hv, hk]

/-- The state in which the packet whose turn it is accesses its entry: it waits no more. -/
def flowTurn (s : State) (id : Nat) : State := { s with crb := { s.crb with flowQ := s.crb.flowQ.filter (· ≠ id) } }

@[simp] theorem flowTurn_hbm : (flowTurn s id).hbm = s.hbm := rfl
@[simp] theorem flowTurn_flowQ : (flowTurn s id).crb.flowQ = s.crb.flowQ.filter (· ≠ id) := rfl
@[simp] theorem pktOf_flowTurn {j : Nat} : pktOf (flowTurn s id) j = pktOf s j := rfl
@[simp] theorem hbmAnswers_flowTurn {a : Nat} : hbmAnswers (flowTurn s id) a = hbmAnswers s a := rfl
@[simp] theorem flowRead_flowTurn : flowRead (flowTurn s id) i = flowRead s i := rfl

theorem flowTake_of_tenant (hp : pktOf s id = some p) (hc : classOf s p = some cls)
    (ht : p.tenant.bind (tget s.fwd.seen.tenants) = some t) : flowTake s id = flowAccessOf (flowTurn s id) id p cls t := by
  simp only [pktOf] at hp
  simp only [classOf] at hc
  simp only [flowTake, pktOf, hp, classOf, hc, ht, flowTurn]

theorem flowStateAccess_of_cons {rest : List Nat} (hq : s.crb.flowQ = id :: rest) : flowStateAccess s = flowTake s id := by
  simp only [flowStateAccess, hq]

theorem flowAgerStep_of_unpinned (hper : s.fwd.flowAgePeriod ≠ 0#16) (hans : hbmAnswers s (i * 64) = true)
    (hv : flowValid (flowRead s i) = true) (hpin : flowPinned (flowRead s i) = false) :
    flowAgerStep s i =
      if flowHit (flowRead s i) then flowWrite s i (patch (flowRead s i) 3 [BitVec.ofNat 8 (leAt (flowRead s i) 3 1 - 4)])
      else flowClose s i 1 (flowCounters (flowRead s i)) := by
  simp [flowAgerStep, hper, hans, hv, hpin]

theorem deltaAdd_frame {kind : Nat} {body : List Byte} : deltaAdd s kind body = { s with mir := (deltaAdd s kind body).mir } := by
  unfold deltaAdd; split <;> rfl

/-- Closing an entry clears its VALID in HBM; beside that only the count of valid entries, the ledger and the mirror change. -/
theorem flowClose_frame {kind : Nat} {counters : W64} : flowClose s i kind counters =
    { flowWrite s i (patch (flowRead s i) 3 [BitVec.ofNat 8 (leAt (flowRead s i) 3 1 / 2 * 2)]) with
      fwd := (flowClose s i kind counters).fwd, ldg := (flowClose s i kind counters).ldg
      mir := (flowClose s i kind counters).mir } := by
  unfold flowClose flowDelta
  rw [deltaAdd_frame]
  simp [flowEnd, flowValidAdj, flowRecord, flowWrite, hbmPutBytes]

theorem flowState_spec : Spec.FlowState := by
  refine ⟨?access, ?age⟩
  case access =>
    intro s id rest p cls t hq hp hc ht key i e n hans hv hk hwrap hdest hdrop
    have haccess : flowStateAccess s =
        dropPkt (flowWrite (addPkt (flowTurn s id) (cTable p.owner 6 0) p) i (hitEntry e p)) id .policyDeny := by
      rw [flowStateAccess_of_cons hq, flowTake_of_tenant hp hc ht,
        flowAccessOf_of_match rfl (hbmAnswers_flowTurn.trans hans) flowRead_flowTurn hv hk]
      exact flowHitAt_of_drop hwrap hdest hdrop
    refine ⟨_, congrArg Host.Outcome.next haccess, ?_, ?_, fun j hj => ?_⟩
    · rw [dropPkt_hbm]
      rfl
    · have hthere : pktOf (flowWrite (addPkt (flowTurn s id) (cTable p.owner 6 0) p) i (hitEntry e p)) id = some p := hp
      rw [dropPkt_flowQ hthere]
      simp [flowWrite, addPkt, hq]
    · exact pktOf_dropPkt_other hj
  case age =>
    intro s index hper hans e hv hpin
    have hstep := flowAgerStep_of_unpinned hper hans hv hpin
    refine ⟨fun hhit => ?_, fun hhit => ?_⟩
    · rw [if_pos hhit] at hstep
      exact congrArg Host.Outcome.next hstep
    · rw [if_neg (Bool.eq_false_iff.mp hhit), flowClose_frame] at hstep
      exact ⟨_, congrArg Host.Outcome.next hstep, rfl, rfl⟩

end Sys2Proof.Machine

end

section
/-! Learning (R224), the MAC ager (R228, R230) and the table scrub (R249), case by case. -/

namespace Sys2Proof.Machine

/-! The tables' parts: what a write of one place and an event leave. -/

section
variable {f : Fwd} {place : Nat} {e : MacEntry} {r : LearnReq} {rest : List LearnReq}

@[simp] theorem keepOld_mac : f.keepOld.mac = f.mac := by unfold Fwd.keepOld; split <;> rfl
@[simp] theorem keepOld_learnQ : f.keepOld.learnQ = f.learnQ := by unfold Fwd.keepOld; split <;> rfl
@[simp] theorem keepOld_tenants : f.keepOld.tenants = f.tenants := by unfold Fwd.keepOld; split <;> rfl
@[simp] theorem keepOld_adjacencies : f.keepOld.adjacencies = f.adjacencies := by unfold Fwd.keepOld; split <;> rfl
@[simp] theorem learnedAdj_mac {up : Bool} : (learnedAdj f e up).mac = f.mac := by unfold learnedAdj; split <;> rfl

@[simp] theorem learnEventPost_mac {ev : LearnEvent} : (learnEventPost f ev).mac = f.mac := by
  simp only [learnEventPost]; (repeat' split) <;> rfl
@[simp] theorem learnEventPost_learnQ {ev : LearnEvent} : (learnEventPost f ev).learnQ = f.learnQ := by
  simp only [learnEventPost]; (repeat' split) <;> rfl

/-- A place written empty is deleted from the table. -/
@[simp] theorem macWritePlace_none_mac : (macWritePlace f place none).mac = tdel f.mac place := by
  simp only [macWritePlace]; split <;> simp

/-- The entry that the learn unit makes of a request. -/
def learnedEntry (r : LearnReq) : MacEntry :=
  { mac := r.sa, bd := r.bd, dest := destPort r.port 0, valid := true, isStatic := false, router := false, discard := false,
    hit := true }

theorem learnUnit_of_free {tick : Nat} (hq : f.learnQ = r :: rest) (hfind : macFind f r.bd r.sa = none)
    (hfree : macFree f r.bd r.sa = some place) :
    (learnUnit f tick).learnQ = rest ∧ (learnUnit f tick).mac = tset f.mac place (learnedEntry r) := by
  have hfind' : macFind { f with learnQ := rest } r.bd r.sa = none := hfind
  have hfree' : macFree { f with learnQ := rest } r.bd r.sa = some place := hfree
  simp [learnUnit, hq, hfind', hfree', learnedEntry]

theorem macAgerVisit_of_dynamic (hget : tget f.mac place = some e) (hper : f.agePeriod ≠ 0#32) (hv : e.valid = true)
    (hdyn : e.isStatic = false) :
    macAgerVisit f place =
      if e.hit then { f with mac := tset f.mac place { e with hit := false } }
      else { f with agedDue := if f.agedDue.contains place then f.agedDue else f.agedDue ++ [place] } := by
  simp [macAgerVisit, hget, hper, hv, hdyn]

/-- As the beat ends a dynamic entry leaves its place, unless it has been hit. -/
theorem macAged_mac {tick : Nat} (hget : tget f.mac place = some e) (hv : e.valid = true) (hdyn : e.isStatic = false) :
    (macAged f tick place).mac = if e.hit then f.mac else tdel f.mac place := by
  cases hhit : e.hit <;> simp [macAged, hget, hv, hdyn, hhit]

end

/-! The device around them: events without a queue, and the delta records. -/

variable {s : State} {f : Fwd} {place : Nat} {e : MacEntry} {r : LearnReq} {rest : List LearnReq} {table : Nat} {i : Nat}

@[simp] theorem learnKeep_mac : (learnKeep s f).fwd.mac = f.mac := by simp only [learnKeep]; split <;> rfl
@[simp] theorem learnKeep_learnQ : (learnKeep s f).fwd.learnQ = f.learnQ := by simp only [learnKeep]; split <;> rfl
theorem learnKeep_frame : learnKeep s f = { s with fwd := (learnKeep s f).fwd } := by simp only [learnKeep]; split <;> rfl

/-- The MAC table is ordinary (R199): a write of it is told to the mirror and to nothing else. -/
theorem tblDelta_mac_frame {delete : Bool} :
    tblDelta s delete (.mac e) = { s with mir := (tblDelta s delete (.mac e)).mir } := by
  simp only [tblDelta, TblRec.ordinary, TblRec.versioned, Bool.false_and, Bool.false_eq_true, if_true, if_false, ownWrite]
  split <;> rw [deltaAdd_frame]

theorem learnUnitProcess_of_request (hp : s.mir.pressure = false) (hq : s.fwd.learnQ = r :: rest) :
    ∃ m, learnUnitProcess s = { learnKeep s (learnUnit s.fwd (now s)) with mir := m } := by
  simp only [learnUnitProcess, hp, hq, Bool.false_eq_true, if_false]
  (repeat' split)
  · exact ⟨_, rfl⟩
  · exact ⟨_, tblDelta_mac_frame⟩
  · exact ⟨_, rfl⟩

theorem macAgedEnd_mac (hget : tget s.fwd.mac place = some e) (hv : e.valid = true) (hdyn : e.isStatic = false) :
    (macAgedEnd s place).fwd.mac = if e.hit then s.fwd.mac else tdel s.fwd.mac place := by
  rw [← macAged_mac (tick := now s) hget hv hdyn]
  simp only [macAgedEnd, hget]
  split
  · exact learnKeep_mac
  · rw [tblDelta_mac_frame]
    exact learnKeep_mac

/-! The scrub, at any entry but the last ternary one, where a pass ends. -/

theorem raised_raiseDetail {u : State} {cls : FaultClass} {unit sub detail : Nat} (h : u.flt = s.flt) :
    Spec.raised s (raiseDetail u cls unit sub detail) cls unit sub :=
  ⟨_, congrArg (·.inbox ++ _) h, rfl, rfl, rfl⟩

theorem tableScrubStep_good (hlast : ¬(table = 6 ∧ i = 262143)) : tableScrubStep s table i .good = s := by
  simp only [tableScrubStep, if_neg hlast, ite_self]

theorem tableScrubStep_corrected {q : Fin 4} (hlast : ¬(table = 6 ∧ i = 262143)) (htable : table ≠ 7) (hq : q.val < replicas s) :
    tableScrubStep s table i (.corrected q) = raise s .tableEcc (0x33 + q.val) table := by
  simp only [tableScrubStep, if_neg hlast, if_neg htable, if_neg (Nat.not_le.mpr hq)]

theorem tableScrubStep_badReplica {q : Fin 4} (hlast : ¬(table = 6 ∧ i = 262143)) (htable : table ≠ 7) (hq : q.val < replicas s) :
    tableScrubStep s table i (.badReplica q) =
      raise { s with fwd := { s.fwd with repairs := wrapInc s.fwd.repairs } } .tableEcc (0x33 + q.val) table := by
  simp only [tableScrubStep, if_neg hlast, if_neg htable, if_neg (Nat.not_le.mpr hq)]

theorem tableScrubStep_badAll (hlast : ¬(table = 6 ∧ i = 262143)) (htable : table ≠ 7) :
    tableScrubStep s table i .badAll =
      raiseDetail (tableClear s table i) .tableEntryLost 0x33 table (table + i % 2 ^ 32 * 2 ^ 32) := by
  simp only [tableScrubStep, if_neg hlast, if_neg htable]

theorem tableClear_mac : (tableClear s 0 i).fwd.mac = tdel s.fwd.mac i := macWritePlace_none_mac
theorem tableClear_tenants :
    (tableClear s 1 i).fwd.tenants = tadj s.fwd.tenants i (fun t => { t with valid := false }) := by simp [tableClear]
theorem tableClear_adjacencies :
    (tableClear s 3 i).fwd.adjacencies = tadj s.fwd.adjacencies i (fun a => { a with valid := false }) := by simp [tableClear]

/-- A clear changes the tables, or the writes due in the versions. -/
theorem tableClear_frame : tableClear s table i =
    { s with fwd := (tableClear s table i).fwd, dec := (tableClear s table i).dec } := by
  simp only [tableClear]; (repeat' split) <;> rfl

theorem learnAndAge_spec : Spec.LearnAndAge := by
  refine ⟨fun s r rest place hp hq hfind hfree => ?learn,
    fun s place e hget hper hv hdyn => ?age, fun s table index q hq hplace => ?scrub⟩
  case learn =>
    obtain ⟨m, hstep⟩ := learnUnitProcess_of_request hp hq
    obtain ⟨hrest, hmac⟩ := learnUnit_of_free (tick := now s) hq hfind hfree
    refine ⟨_, congrArg Host.Outcome.next hstep, learnKeep_learnQ.trans hrest, learnKeep_mac.trans hmac, ?_⟩
    rw [learnKeep_frame]
  case age =>
    have hstep : macAgerStep s place.val = _ := congrArg (fun f => { s with fwd := f }) (macAgerVisit_of_dynamic hget hper hv hdyn)
    refine ⟨fun hhit => ?_, fun hhit => ?_, macAgedEnd_mac hget hv hdyn⟩
    · rw [if_pos hhit] at hstep
      exact congrArg Host.Outcome.next hstep
    · rw [if_neg (Bool.eq_false_iff.mp hhit)] at hstep
      exact congrArg Host.Outcome.next hstep
  case scrub =>
    have hlast : ¬(table.castSucc.val = 6 ∧ index.toNat = 262143) := by
      rintro ⟨htable, hindex⟩
      exact hplace.elim (· (Fin.ext htable)) (· (BitVec.eq_of_toNat_eq hindex))
    have htable : table.castSucc.val ≠ 7 := by have := table.isLt; simp; omega
    refine ⟨?good, ?corrected, ?badReplica, ?badAll⟩
    case good => exact congrArg Host.Outcome.next (tableScrubStep_good hlast)
    case corrected =>
      exact ⟨_, congrArg Host.Outcome.next (tableScrubStep_corrected hlast htable hq), rfl, raised_raiseDetail rfl⟩
    case badReplica =>
      exact ⟨_, congrArg Host.Outcome.next (tableScrubStep_badReplica hlast htable hq), rfl, raised_raiseDetail rfl⟩
    case badAll =>
      refine ⟨_, congrArg Host.Outcome.next (tableScrubStep_badAll hlast htable), ?_, ?_, ?_, ?_, ?_⟩
      · exact raised_raiseDetail (by rw [tableClear_frame])
      · rw [tableClear_frame]
        rfl
      · rintro rfl
        exact tableClear_mac
      · rintro rfl
        exact tableClear_tenants
      · rintro rfl
        exact tableClear_adjacencies

end Sys2Proof.Machine

open Sys2Proof.Machine in
/-- Settles O15: each command is led to the one case of its operation that the clause names. A drop gives the packet back and touches
no other packet (`dropPkt_flowQ`, `pktOf_dropPkt_other`); a write of the MAC table goes to the forwarding tables and, as a record of an
ordinary table, to the mirror (`tblDelta_mac_frame`). -/
theorem flowsAndLearning : Obligations.FlowsAndLearning := by
  unfold Obligations.FlowsAndLearning
  exact ⟨flowState_spec, learnAndAge_spec⟩

end

section
/-!
The value of a ledger counter (R279): an addition raises it by what is added, and a spill or a cut's copy moves its parts without
changing it.
-/

namespace Sys2Proof

variable {c : Ctr} {one wait : Bool} {p b : Nat} {x : Slot}

/-! One counter. -/

theorem ctrValue_carryTo :
    ctrValue (carryTo c wait p b) = ((ctrValue c).1 + BitVec.ofNat 64 p, (ctrValue c).2 + BitVec.ofNat 64 b) := by
  cases wait <;> simp only [carryTo, ctrValue, BitVec.ofNat_add, if_true, if_false, Bool.false_eq_true] <;> congr 1 <;> ac_rfl

/-- A slot that takes a new content gives up the old one. -/
theorem ctrValue_setSlot :
    (ctrValue (setSlot c one x)).1 + BitVec.ofNat 64 (slotOf c one).p.toNat = (ctrValue c).1 + BitVec.ofNat 64 x.p.toNat ∧
    (ctrValue (setSlot c one x)).2 + BitVec.ofNat 64 (slotOf c one).b.toNat = (ctrValue c).2 + BitVec.ofNat 64 x.b.toNat := by
  cases one <;> simp only [setSlot, slotOf, ctrValue, BitVec.ofNat_add, if_true, if_false, Bool.false_eq_true] <;>
    constructor <;> ac_rfl

/-- What a slot gives up, beyond what it takes, goes to the carry and to what is added. -/
theorem add_carry_of_slot {v w : W64} {old new carry n : Nat} (h : w + BitVec.ofNat 64 old = v + BitVec.ofNat 64 new)
    (hn : new + carry = old + n) : w + BitVec.ofNat 64 carry = v + BitVec.ofNat 64 n := by
  have hmoved : w + BitVec.ofNat 64 old + BitVec.ofNat 64 carry = v + BitVec.ofNat 64 old + BitVec.ofNat 64 n := by
    rw [h, BitVec.add_assoc, BitVec.add_assoc, ← BitVec.ofNat_add, ← BitVec.ofNat_add, hn]
  refine (BitVec.add_right_inj (BitVec.ofNat 64 old)).mp ?_
  calc BitVec.ofNat 64 old + (w + BitVec.ofNat 64 carry) = w + BitVec.ofNat 64 old + BitVec.ofNat 64 carry := by ac_rfl
    _ = v + BitVec.ofNat 64 old + BitVec.ofNat 64 n := hmoved
    _ = BitVec.ofNat 64 old + (v + BitVec.ofNat 64 n) := by ac_rfl

/-- Whichever slot it lands in and wherever its carries go, an addition counts in full (R280, R287). -/
theorem ctrValue_ctrAdd :
    ctrValue (ctrAdd c one wait p b).1 = ((ctrValue c).1 + BitVec.ofNat 64 p, (ctrValue c).2 + BitVec.ofNat 64 b) := by
  rw [ctrAdd, ctrValue_carryTo]
  obtain ⟨hp, hb⟩ := ctrValue_setSlot (c := c) (one := one) (x := {
    p := BitVec.ofNat 24 ((slotOf c one).p.toNat + p), b := BitVec.ofNat 40 ((slotOf c one).b.toNat + b) })
  rw [add_carry_of_slot hp, add_carry_of_slot hb]
  · rw [BitVec.toNat_ofNat]; omega
  · rw [BitVec.toNat_ofNat]; omega

/-- A spill moves a slot's partials into the total (R286). -/
theorem ctrValue_spill :
    ctrValue (carryTo (setSlot c one { p := 0#24, b := 0#40 }) false (slotOf c one).p.toNat (slotOf c one).b.toNat) =
      ctrValue c := by
  obtain ⟨hp, hb⟩ := ctrValue_setSlot (c := c) (one := one) (x := { p := 0#24, b := 0#40 })
  rw [ctrValue_carryTo, hp, hb]
  simp

/-- The copy moves the frozen partials and the waiting carries into the total (R299). -/
theorem ctrValue_cutCopyCtr : ctrValue (cutCopyCtr one c).2 = ctrValue c := by
  cases one <;>
    simp only [cutCopyCtr, ctrValue, setSlot, slotOf, BitVec.ofNat_add, if_true, if_false, Bool.not_true, Bool.not_false,
      Bool.false_eq_true, BitVec.toNat_ofNat, Nat.zero_mod, BitVec.add_zero, BitVec.zero_add] <;>
    congr 1 <;> ac_rfl

/-! The counters of a ledger. -/

variable {late : Bool} {l m : Ldg} {a : Add} {i j : Nat}

theorem ldgValue_of_lt (h : i < definedEnd) : ldgValue l i = ctrValue (tgetD l.ctrs i Ctr.zero) := if_pos h

/-- Counters of one value each read alike. -/
theorem ldgValue_congr (h : ctrValue (tgetD m.ctrs i Ctr.zero) = ctrValue (tgetD l.ctrs i Ctr.zero)) :
    ldgValue m i = ldgValue l i := by
  unfold ldgValue
  rw [h]

theorem ldgAdd_ctrs (h : a.idx < definedEnd) : ∃ one wait,
    (ldgAdd late l a).ctrs = tset l.ctrs a.idx (ctrAdd (tgetD l.ctrs a.idx Ctr.zero) one wait a.pkts a.bytes).1 := by
  rw [ldgAdd, if_neg (Nat.not_le.mpr h)]
  exact ⟨_, _, rfl⟩

theorem ldgValue_ldgAdd_same (h : a.idx < definedEnd) : ldgValue (ldgAdd late l a) a.idx =
    ((ldgValue l a.idx).1 + BitVec.ofNat 64 a.pkts, (ldgValue l a.idx).2 + BitVec.ofNat 64 a.bytes) := by
  obtain ⟨one, wait, hctrs⟩ := ldgAdd_ctrs (late := late) (l := l) h
  rw [ldgValue_of_lt h, ldgValue_of_lt h, hctrs, tgetD_tset_same, ctrValue_ctrAdd]

theorem ldgValue_ldgAdd_other (h : a.idx < definedEnd) (hj : j ≠ a.idx) : ldgValue (ldgAdd late l a) j = ldgValue l j := by
  obtain ⟨one, wait, hctrs⟩ := ldgAdd_ctrs (late := late) (l := l) h
  exact ldgValue_congr (by rw [hctrs, tgetD_tset_other _ _ _ hj])

/-! The spill sweep. -/

/-- A sweep leaves a counter as it is, or spills its active slot. -/
theorem ldgSpill_ctrs : (ldgSpill l i).ctrs = l.ctrs ∨ ∃ c one, tget l.ctrs i = some c ∧
    (ldgSpill l i).ctrs = tset l.ctrs i
      (carryTo (setSlot c one { p := 0#24, b := 0#40 }) false (slotOf c one).p.toNat (slotOf c one).b.toNat) := by
  cases hget : tget l.ctrs i with
  | none => left; simp only [ldgSpill, hget]; split <;> rfl
  | some c =>
    by_cases hwait : awaitsCopy l i = true
    · left; simp only [ldgSpill, hget, hwait, if_true]; split <;> rfl
    · right; refine ⟨c, slot1Active l i, rfl, ?_⟩
      simp only [ldgSpill, hget, hwait]; split <;> rfl

theorem ldgSpill_frame : ldgSpill l i = { l with ctrs := (ldgSpill l i).ctrs, sweeps := (ldgSpill l i).sweeps } := by
  simp only [ldgSpill]
  (repeat' split) <;> rfl

theorem ldgValue_ldgSpill : ldgValue (ldgSpill l i) j = ldgValue l j := by
  obtain hsame | ⟨c, one, hget, hspill⟩ := ldgSpill_ctrs (l := l) (i := i)
  · exact ldgValue_congr (by rw [hsame])
  · refine ldgValue_congr ?_
    by_cases hj : j = i
    · subst hj
      rw [hspill, tgetD_tset_same, ctrValue_spill, tgetD, hget, Option.getD_some]
    · rw [hspill, tgetD_tset_other _ _ _ hj]

/-! The copy of a cut. -/

/-- A fold that rebuilds a table entry by entry, beside whatever else it gathers, maps it. -/
theorem foldl_fst_eq_tmap {α β γ : Type} {f : Nat → α → β} {step : Tbl β × γ → Nat × α → Tbl β × γ}
    (h : ∀ acc e, (step acc e).1 = acc.1 ++ [(e.1, f e.1 e.2)]) (t : Tbl α) (acc : Tbl β × γ) :
    (t.foldl step acc).1 = acc.1 ++ t.map (fun e => (e.1, f e.1 e.2)) := by
  induction t generalizing acc with
  | nil => exact (List.append_nil _).symm
  | cons e t ih => rw [List.foldl_cons, ih, h, List.append_assoc]; rfl

/-- A counter once a copy has passed that reaches the indexes of `here`. -/
def ctrCopied (l : Ldg) (here : Nat → Bool) (i : Nat) (c : Ctr) : Ctr :=
  if here i then (cutCopyCtr (slot1Active l i) c).2 else c

theorem ctrValue_ctrCopied {here : Nat → Bool} : ctrValue (ctrCopied l here i c) = ctrValue c := by
  unfold ctrCopied
  split
  · exact ctrValue_cutCopyCtr
  · rfl

theorem cutCopyTo_ctrs {upto : Nat} : ∃ here, (cutCopyTo upto l).ctrs = tmap l.ctrs (ctrCopied l here) := by
  unfold cutCopyTo
  split
  · exact ⟨fun _ => false, (List.map_id _).symm⟩
  next r _ =>
    refine ⟨_, (foldl_fst_eq_tmap (f := ctrCopied l fun i =>
      inScope r.req.summary i && decide (r.next ≤ i) && decide (i < upto) && !cOccupancy i) (fun acc e => ?_) l.ctrs _).trans
      (List.nil_append _)⟩
    unfold ctrCopied
    dsimp only
    split <;> rfl

theorem ldgValue_cutCopyTo {upto : Nat} : ldgValue (cutCopyTo upto l) i = ldgValue l i := by
  obtain ⟨here, hctrs⟩ := cutCopyTo_ctrs (l := l) (upto := upto)
  refine ldgValue_congr ?_
  rw [hctrs, tgetD, tgetD, tget_tmap]
  cases tget l.ctrs i with
  | none => rfl
  | some c => exact ctrValue_ctrCopied

section
variable {t : Nat} {r : CutRun} (h : l.running = some r)
include h

theorem cutFinish_frame : cutFinish t l = { l with
    ctrs := (cutFinish t l).ctrs, running := none, lastReadyId := r.req.id, bufs := (cutFinish t l).bufs } := by
  simp only [cutFinish, cutCopyTo, h]

theorem cutFinish_state : (tgetD (cutFinish t l).bufs r.buffer CutBuf.empty).state = 2 := by
  simp only [cutFinish, h, tgetD_tset_same]

theorem ldgValue_cutFinish : ldgValue (cutFinish t l) i = ldgValue l i := by
  refine Eq.trans ?_ (ldgValue_cutCopyTo (upto := definedEnd))
  simp only [cutFinish, h]
  rfl

end

end Sys2Proof

end

section
/-! SPILL_SWEEP and CUT_READY (R286, R299, R303). -/

namespace Sys2Proof.Machine

/-- Past the window of its cut a copy that has started ends, and its event is posted. -/
theorem cutReady_of_due {s : State} {r : CutRun} (hr : s.ldg.running = some r) (hstart : r.started = true)
    (hdue : r.freezeTick + cutWindow r.req.summary ≤ now s) : ∃ record,
    cutReady s = event { s with ldg := cutFinish (now s) s.ldg } .cutReady record := by
  simp only [cutReady, cutReadyAt, hr, hstart, hdue, and_self, if_true]
  exact ⟨_, rfl⟩

end Sys2Proof.Machine

open Sys2Proof Sys2Proof.Machine in
/-- Settles O17: an addition, a spill and a copy are led to the value of the one counter that each changes (`ctrValue_ctrAdd`,
`ctrValue_spill`, `ctrValue_cutCopyCtr`). -/
theorem ledgerExact : Obligations.LedgerExact := by
  unfold Obligations.LedgerExact
  refine ⟨fun late l i pkts bytes hi => ?add, fun s index => ?sweep, fun s r hr hstart hdue => ?ready⟩
  case add =>
    exact ⟨ldgValue_ldgAdd_same (a := ⟨i, pkts, bytes⟩) hi, fun j hj => ldgValue_ldgAdd_other (a := ⟨i, pkts, bytes⟩) hi hj⟩
  case sweep =>
    exact ⟨_, rfl, congrArg (fun l => { s with ldg := l }) ldgSpill_frame, fun i => ldgValue_ldgSpill⟩
  case ready =>
    obtain ⟨record, hready⟩ := cutReady_of_due hr hstart hdue
    refine ⟨_, congrArg Host.Outcome.next hready, ?_, ?_, cutFinish_state hr, ?_, fun i => ldgValue_cutFinish hr⟩
    · exact congrArg Ldg.running (cutFinish_frame hr)
    · exact congrArg Ldg.lastReadyId (cutFinish_frame hr)
    · exact congrArg (fun l => event { s with ldg := l } .cutReady record) (cutFinish_frame hr)

end

section
/-! The requests, registers and errors of the ledger, case by case (R289, R296, R298, R299, R301, R308). -/

namespace Sys2Proof.Machine

/-! Admission of a cut (R301). -/

section
variable {n : Nat} {l : Ldg} {new c : CutReq}

/-- The three ends of an admission: nothing is scheduled, the request joins a cut of its tick, or it is scheduled under the next id
and displaces what clashes. -/
theorem cutAdmit_cases :
    (∃ a, cutAdmit n l new = (l, a)) ∨
    (∃ same joined : CutReq, cutAdmit n l new =
      ({ l with scheduled := l.scheduled.map (fun c => if c = same then joined else c) }, .ok same.id) ∧
      joined.tick = new.tick) ∨
    (∃ clash, cutAdmit n l new = ({ displaceAll l clash with
      scheduled := (displaceAll l clash).scheduled ++ [{ new with id := l.nextCutId }]
      nextCutId := wrapInc l.nextCutId }, .ok l.nextCutId)) := by
  unfold cutAdmit
  split
  · exact .inl ⟨_, rfl⟩
  split
  · exact .inl ⟨_, rfl⟩
  split
  next same hsame =>
    have htick := List.find?_some hsame
    simp only [Bool.and_eq_true, beq_iff_eq] at htick
    exact .inr (.inl ⟨same, _, rfl, htick.1⟩)
  next =>
    refine (Classical.em _).elim (fun hbusy => .inl ⟨_, if_pos hbusy⟩) fun hbusy => ?_
    rw [if_neg hbusy]
    dsimp only
    split
    · exact .inl ⟨_, rfl⟩
    · exact .inr (.inr ⟨_, rfl⟩)

/-- A cut that stands scheduled after an admission stood before it, or is of the tick that was asked for. -/
theorem mem_cutAdmit_scheduled (hc : c ∈ (cutAdmit n l new).1.scheduled) : c ∈ l.scheduled ∨ c.tick = new.tick := by
  obtain ⟨a, h⟩ | ⟨same, joined, h, hjoined⟩ | ⟨clash, h⟩ := cutAdmit_cases (n := n) (l := l) (new := new)
  · exact .inl (by rwa [h] at hc)
  · rw [h] at hc
    obtain ⟨x, hx, rfl⟩ := List.mem_map.mp hc
    split
    · exact .inr hjoined
    · exact .inl hx
  · rw [h] at hc
    rcases List.mem_append.mp hc with hkept | hnew
    · exact .inl (List.mem_filter.mp hkept).1
    · obtain rfl := List.mem_singleton.mp hnew
      exact .inr rfl

/-- An admission changes the cuts scheduled, the next id and the counts of displaced cuts. -/
theorem cutAdmit_frame : (cutAdmit n l new).1 = { l with
    scheduled := (cutAdmit n l new).1.scheduled, nextCutId := (cutAdmit n l new).1.nextCutId
    skipped := (cutAdmit n l new).1.skipped, aborted := (cutAdmit n l new).1.aborted } := by
  obtain ⟨a, h⟩ | ⟨same, joined, h, -⟩ | ⟨clash, h⟩ := cutAdmit_cases (n := n) (l := l) (new := new)
  · rw [h]
  · rw [h]
  · rw [h]
    rfl

/-! The periodic cut. -/

/-- A period schedules nothing, or admits a cut of the next tick. -/
theorem cutAdmitPeriodic_cases :
    (∃ skipped, cutAdmitPeriodic n l = { l with skipped := skipped }) ∨
    l.periodLog2.toNat ≠ 0 ∧ ∃ new : CutReq, new.tick = n + 1 ∧ cutAdmitPeriodic n l = (cutAdmit n l new).1 := by
  unfold cutAdmitPeriodic
  dsimp only
  split
  · exact .inl ⟨_, rfl⟩
  next hperiod =>
    split
    · split
      · exact .inr ⟨hperiod, _, rfl, rfl⟩
      · exact .inl ⟨_, rfl⟩
    · exact .inl ⟨_, rfl⟩

theorem cutAdmitPeriodic_frame : cutAdmitPeriodic n l = { l with
    scheduled := (cutAdmitPeriodic n l).scheduled, nextCutId := (cutAdmitPeriodic n l).nextCutId
    skipped := (cutAdmitPeriodic n l).skipped, aborted := (cutAdmitPeriodic n l).aborted } := by
  obtain ⟨skipped, h⟩ | ⟨-, new, -, h⟩ := cutAdmitPeriodic_cases (n := n) (l := l)
  · rw [h]
  · rw [h]
    exact cutAdmit_frame

theorem mem_cutAdmitPeriodic_scheduled (hc : c ∈ (cutAdmitPeriodic n l).scheduled) :
    c ∈ l.scheduled ∨ l.periodLog2.toNat ≠ 0 ∧ c.tick = n + 1 := by
  obtain ⟨skipped, h⟩ | ⟨hperiod, new, htick, h⟩ := cutAdmitPeriodic_cases (n := n) (l := l)
  · exact .inl (by rwa [h] at hc)
  · rw [h] at hc
    exact (mem_cutAdmit_scheduled hc).imp_right fun h => ⟨hperiod, h.trans htick⟩

theorem cutAdmitPeriodic_of_other (h : (n + 2) % 2 ^ l.periodLog2.toNat ≠ 0) : cutAdmitPeriodic n l = l := by
  simp only [cutAdmitPeriodic, if_neg h, ite_self]

theorem cutAdmitPeriodic_of_due (hperiod : l.periodLog2.toNat ≠ 0) (hdue : (n + 2) % 2 ^ l.periodLog2.toNat = 0)
    (hs : l.scheduled = []) (hr : l.running = none) : cutAdmitPeriodic n l = { l with
      scheduled := [{ kind := .periodic, summary := l.periodSummary, tick := n + 1, tag := 0#64, id := l.nextCutId
                      partnerOk := false }]
      nextCutId := wrapInc l.nextCutId } := by
  rw [cutAdmitPeriodic, if_neg hperiod, if_pos hdue, cutAdmit_of_idle hs hr (Nat.le_refl _)]

end

/-! LDG_CUT_PERIOD_WRITE. -/

section
variable {l : Ldg} {k : Nat} {summary : Bool}

theorem cutPeriodWrite_periodLog2_of_range (hlow : 10 ≤ k) (hhigh : k ≤ 30) :
    (cutPeriodWrite l k summary).periodLog2 = BitVec.ofNat 5 k := by
  have hzero : k ≠ 0 := by omega
  simp only [cutPeriodWrite, if_neg hzero, if_neg (Nat.not_lt.mpr hlow), if_neg (Nat.not_lt.mpr hhigh)]

/-- A period outside 10 to 30 stands for the nearest one, and 0 for none. -/
theorem cutPeriodWrite_periodLog2_of_outside (h : k < 10 ∨ k = 31) :
    (cutPeriodWrite l k summary).periodLog2 = if k = 0 then 0 else if k = 31 then 30 else 10 := by
  rcases h with hlow | rfl
  · have hne : k ≠ 31 := by omega
    by_cases hzero : k = 0 <;> simp [cutPeriodWrite, hzero, hlow, hne]
  · rfl

theorem cutPeriodWrite_periodSummary :
    (cutPeriodWrite l k summary).periodSummary = (summary || decide (k < 13)) := rfl

theorem kind_of_mem_cutPeriodWrite {c : CutReq} (hc : c ∈ (cutPeriodWrite l k summary).scheduled) : c.kind ≠ .periodic :=
  of_decide_eq_true (List.mem_filter.mp hc).2

/-- The ledger once a period from 10 to 30 is stored, the periodic cuts removed and counted as skipped. -/
theorem cutPeriodWrite_of_range (hlow : 10 ≤ k) (hhigh : k ≤ 30) : cutPeriodWrite l k summary = { l with
    scheduled := l.scheduled.filter (fun c => c.kind ≠ .periodic)
    skipped := l.skipped + BitVec.ofNat 16 (l.scheduled.filter (fun c => c.kind = .periodic)).length
    periodLog2 := BitVec.ofNat 5 k, periodSummary := summary || decide (k < 13) } := by
  rw [← cutPeriodWrite_periodLog2_of_range (l := l) (summary := summary) hlow hhigh]
  rfl

end

theorem cutPeriodSet_frame {s : State} {v : W64} : cutPeriodSet s v = { s with ldg := (cutPeriodSet s v).ldg } := rfl

theorem cutPeriodSet_ldg {s : State} {v : W64} {k : Nat} (hk : v.toNat % 32 = k) :
    (cutPeriodSet s v).ldg = cutAdmitPeriodic (now s) (cutPeriodWrite s.ldg k (v.getLsbD 5)) := by
  have hfield : fieldN v.toNat 0 5 = k := by
    rw [fieldN, Nat.pow_zero, Nat.div_one]
    exact hk
  rw [← hfield]
  rfl

/-! LEDGER_ECC_ERROR. -/

theorem raiseAt_flt_inbox {s : State} {cls : FaultClass} {unit level detail : Nat} {subj : W32} :
    ∃ r, (raiseAt s cls unit subj level detail).flt.inbox = s.flt.inbox ++ [r] ∧ r.cls = cls ∧ r.subj = subj ∧
      r.level = level := ⟨_, rfl, rfl, rfl, rfl⟩

section
variable {l : Ldg} {i : Nat} {c : Ctr}

theorem slotLost_of_listed {one : Bool} (h : tget l.ctrs i = some c) : slotLost l i one = { l with
    ctrs := tset l.ctrs i (setSlot c one { p := 0#24, b := 0#40 }), lost := l.lost + 1#16, loss := true } := by
  simp only [slotLost, tadj, h, wrapInc]

theorem totalLost_of_listed (h : tget l.ctrs i = some c) : totalLost l i = { l with
    ctrs := tset l.ctrs i { c with
      totP := ((newestCutValue l i).getD (0#64, 0#64)).1, totB := ((newestCutValue l i).getD (0#64, 0#64)).2 }
    lost := l.lost + 1#16, loss := true } := by
  simp only [totalLost, tmod, tgetD, h, Option.getD_some, wrapInc]

end

/-! The commands. -/

section
variable {s : State} {v : W64}

/-- The state in which a request is submitted: its fields are stored. -/
def cutReqStored (s : State) (v : W64) : State :=
  { s with ldg := { s.ldg with reqSummary := v.getLsbD 1, reqPair := v.getLsbD 2 } }

theorem cutReqWrite_of_admitted {t : State} {id : W32} (hgo : v.getLsbD 0 = true)
    (h : cutSubmit (cutReqStored s v) (if v.getLsbD 2 then .pair else .demand) (v.getLsbD 1) s.ldg.reqTick s.ldg.reqTag =
      (t, .ok id)) :
    cutReqWrite s v = { t with ldg := { t.ldg with reqStatus := 0#8, reqCutId := id } } := by
  unfold cutReqStored at h
  simp only [cutReqWrite, hgo, Bool.not_true, Bool.false_eq_true, if_false, h]
  rfl

theorem cutReqWrite_of_idle (hgo : v.getLsbD 0 = true) (hpair : v.getLsbD 2 = false) (hs : s.ldg.scheduled = [])
    (hr : s.ldg.running = none) (hlead : now s + CutKind.demand.lead ≤ s.ldg.reqTick.toNat) :
    cutReqWrite s v = { s with ldg := { s.ldg with
      reqSummary := v.getLsbD 1, reqPair := false, reqStatus := 0#8, reqCutId := s.ldg.nextCutId
      nextCutId := wrapInc s.ldg.nextCutId
      scheduled := [{ kind := .demand, summary := v.getLsbD 1, tick := s.ldg.reqTick.toNat, tag := s.ldg.reqTag
                      id := s.ldg.nextCutId, partnerOk := false }] } } := by
  have hadmit := cutSubmit_of_idle (s := cutReqStored s v) (summary := v.getLsbD 1) (tag := s.ldg.reqTag) hs hr hlead
  rw [cutReqWrite_of_admitted hgo (by rw [hpair]; exact hadmit), cutReqStored, hpair]

theorem cutReqWrite_of_store (hgo : v.getLsbD 0 = false) :
    cutReqWrite s v = cutReqStored s v := by
  simp only [cutReqWrite, hgo, Bool.not_false, if_true]
  rfl

theorem cutCopyStart_of_due {r : CutRun} (hr : s.ldg.running = some r) (hdue : r.freezeTick + 64 ≤ now s) :
    cutCopyStart s = { s with ldg := { s.ldg with running := some { r with started := true } } } := by
  simp only [cutCopyStart, hr, if_pos hdue]

theorem consRearm_of_listed {r : Nat} {m : Mismatch} (h : tget s.ldg.mismatch r = some m) :
    consRearm s r = { s with ldg := { s.ldg with
      mismatch := tset s.ldg.mismatch r ((tget s.ldg.fresh r).getD { m with valid := false, later := 0#16 }) } } := by
  simp only [consRearm, tadj, h]

theorem rdIdxWrite_eq {r : Requester} : rdIdxWrite s r v = { s with ldg := { s.ldg with
    rdIdx := s.ldg.rdIdx.set r (v.setWidth 22)
    rdPkts := s.ldg.rdPkts.set r (ldgValue s.ldg (v.toNat % 2 ^ 22)).1
    rdBytes := s.ldg.rdBytes.set r (ldgValue s.ldg (v.toNat % 2 ^ 22)).2 } } := by
  have hfield : fieldN v.toNat 0 22 = v.toNat % 2 ^ 22 := by rw [fieldN, Nat.pow_zero, Nat.div_one]
  have hindex : BitVec.ofNat 22 (v.toNat % 2 ^ 22) = v.setWidth 22 := by
    apply BitVec.eq_of_toNat_eq
    simp
  simp only [rdIdxWrite, hfield, hindex]

end

end Sys2Proof.Machine

open Sys2Proof Sys2Proof.Machine in
/-- Settles O18: each clause is one case of its command. That a periodic cut is admitted one tick ahead is the model's choice (log
entry 56). -/
theorem ledgerCommands : Obligations.LedgerCommands := by
  unfold Obligations.LedgerCommands
  refine ⟨fun s v hgo hpair hs hr hlead => ?request, fun s v hgo => ?store, fun s v k hk hlow hhigh => ?period,
    fun s v hv => ?outside, fun s r hr hdue => ?start, fun s r m hm => ?rearm, fun s r v => ?read, fun s i c hc => ?errors⟩
  case request => exact congrArg Host.Outcome.next (cutReqWrite_of_idle hgo hpair hs hr hlead)
  case store => exact congrArg Host.Outcome.next (cutReqWrite_of_store hgo)
  case period =>
    intro summary l
    have hwrite : cutPeriodWrite s.ldg k (v.getLsbD 5) = l := cutPeriodWrite_of_range hlow hhigh
    have hldg : (cutPeriodSet s v).ldg = cutAdmitPeriodic (now s) l := hwrite ▸ cutPeriodSet_ldg hk
    have hlog : l.periodLog2.toNat = k := Nat.mod_eq_of_lt (by omega)
    refine ⟨⟨_, rfl, cutPeriodSet_frame, ?_, ?_⟩, fun hother => ?_, fun hdue hr hs => ?_⟩
    · rw [hldg, cutAdmitPeriodic_frame]
    · rw [hldg, cutAdmitPeriodic_frame]
    · rw [cutAdmitPeriodic_of_other (hlog.symm ▸ hother)] at hldg
      exact congrArg (fun m => Host.Outcome.next { s with ldg := m }) hldg
    · have hempty : l.scheduled = [] := List.filter_eq_nil_iff.mpr fun c hc => by simp [hs c hc]
      rw [cutAdmitPeriodic_of_due (by omega) (hlog.symm ▸ hdue) hempty hr] at hldg
      exact congrArg (fun m => Host.Outcome.next { s with ldg := m }) hldg
  case outside =>
    have hldg : (cutPeriodSet s v).ldg = _ := cutPeriodSet_ldg rfl
    have hlog := cutPeriodWrite_periodLog2_of_outside (l := s.ldg) (summary := v.getLsbD 5) hv
    refine ⟨_, rfl, cutPeriodSet_frame, fun c hc hkind => ?_, ?_, fun hlow => ?_⟩
    · rw [hldg] at hc
      obtain hbefore | ⟨hperiod, htick⟩ := mem_cutAdmitPeriodic_scheduled hc
      · exact absurd hkind (kind_of_mem_cutPeriodWrite hbefore)
      · refine ⟨fun hzero => hperiod ?_, htick⟩
        rw [hlog, if_pos hzero]
        rfl
    · rw [hldg, cutAdmitPeriodic_frame]
      exact hlog
    · rw [hldg, cutAdmitPeriodic_frame]
      have hbelow : v.toNat % 32 < 13 := by omega
      simp only [cutPeriodWrite_periodSummary, hbelow, decide_true, Bool.or_true]
  case start => exact congrArg Host.Outcome.next (cutCopyStart_of_due hr hdue)
  case rearm => exact congrArg Host.Outcome.next (consRearm_of_listed hm)
  case read => exact congrArg Host.Outcome.next rdIdxWrite_eq
  case errors =>
    intro lost total
    have raised {cls : FaultClass} {l : Ldg} {c' : Ctr} (hl : l = { s.ldg with
        ctrs := tset s.ldg.ctrs i.toNat c', lost := s.ldg.lost + 1#16, loss := true }) :
        lost cls c' (raiseAt { s with ldg := l } cls 0x32 (BitVec.ofNat 32 i.toNat) 2 0) := by
      subst hl
      rw [BitVec.ofNat_toNat]
      exact ⟨rfl, raiseAt_flt_inbox⟩
    exact ⟨⟨_, rfl, raised (slotLost_of_listed hc)⟩, ⟨_, rfl, raised (slotLost_of_listed hc)⟩,
      ⟨_, rfl, raised (totalLost_of_listed hc)⟩, rfl⟩

end

section
/-! A sparse memory's runs of bytes, and cipher contexts: what is read after a write of them. -/

namespace Sys2Proof.Machine

theorem slice_eq_take {b : List Byte} {n : Nat} (h : n ≤ b.length) : slice b 0 n = b.take n := by
  simp [slice, h]

theorem take_slice {b : List Byte} {m n : Nat} (h : m ≤ n) : (slice b 0 n).take m = slice b 0 m := by
  have hzeros : min (m - min n b.length) (n - min n b.length) = m - min m b.length := by omega
  simp [slice, List.take_append, List.take_take, Nat.min_eq_left h, List.take_replicate, hzeros]

/-- The first bytes of a record do not depend on where it is cut behind them. -/
theorem slice_slice_of_le {b : List Byte} {m n : Nat} (h : m ≤ n) : slice (slice b 0 n) 0 m = slice b 0 m := by
  rw [slice_eq_take (by rwa [slice_length]), take_slice h]

section
variable {s : State} {a x : Nat} {bs : List Byte}

theorem hbm_wf_of_memoryWf (h : memoryWf s = true) : twf 0#8 s.hbm = true := by
  simp only [memoryWf, Bool.and_eq_true] at h
  exact h.1.1

/-- A byte of HBM after a write of a run of bytes. -/
theorem hbmGet_hbmPutBytes (h : twf 0#8 s.hbm = true) : hbmGet (hbmPutBytes s a bs) x =
    if a ≤ x ∧ x < a + bs.length then bs.getD (x - a) 0#8 else hbmGet s x := by
  split
  next hin =>
    have hbyte := hbmGet_hbmPutBytes_inside s a bs (x - a) h (by omega)
    rwa [Nat.add_sub_cancel' hin.1] at hbyte
  next hout => exact hbmGet_hbmPutBytes_outside s a bs x (by omega)

theorem hbmRead_hbmPutBytes_same (h : twf 0#8 s.hbm = true) : hbmRead (hbmPutBytes s a bs) a bs.length = bs := by
  apply List.ext_getElem
  · simp [hbmRead]
  · intro i _ hi
    simp [hbmRead, hbmGet_hbmPutBytes_inside s a bs i h hi, hi]

end

section
variable {s : State} {i j : Nat} {f : Ctx → Ctx}

theorem ctxOf_ctxMod_same (h : twf (ctxUnlisted s) s.cph.ctxs = true) : ctxOf (ctxMod s i f) i = f (ctxOf s i) :=
  tgetD_tput_same i _ h

theorem ctxOf_ctxMod_other (h : j ≠ i) : ctxOf (ctxMod s i f) j = ctxOf s j := tgetD_tput_other _ _ h

theorem ctxs_wf_ctxMod (h : twf (ctxUnlisted s) s.cph.ctxs = true) :
    twf (ctxUnlisted (ctxMod s i f)) (ctxMod s i f).cph.ctxs = true := twf_tput i _ h

/-- A cache entry that is dropped leaves the contexts. -/
theorem cacheDrop_frame : ∃ cache abandoned,
    cacheDrop s i = { s with cph := { s.cph with cache := cache, abandoned := abandoned } } := by
  unfold cacheDrop
  split <;> exact ⟨_, _, rfl⟩

/-- A context without requests is removed by itself. -/
theorem ctxRemove_of_idle (h : (ctxOf s i).queue = []) : ∃ outputs cache abandoned, ctxRemove s i =
    ctxMod (ctxMod { s with cph := { s.cph with outputs := outputs, cache := cache, abandoned := abandoned } } i
      (fun c => { c with queue := [] })) i (fun _ => Ctx.empty) := by
  obtain ⟨cache, abandoned, hdrop⟩ := cacheDrop_frame (s := requestsAbort s i) (i := i)
  rw [ctxRemove, hdrop, requestsAbort, h, List.foldl_nil]
  exact ⟨_, cache, abandoned, rfl⟩

end

end Sys2Proof.Machine

end

section
/-! The records of the partner's delta as a side takes them (R304, R332, R415, R523, R527-R529). -/

namespace Sys2Proof.Machine

/-! A record's place in the frames. -/

section
variable {s : State} {n : Nat} {f : State → State}

/-- The state once a record of `n` body bytes has taken its place. -/
def took (s : State) (n : Nat) : State := Spec.mirBecomes s (Spec.received s n)

/-- Where the link carries frames and the side has begun, a record takes its place, and a solo side discards it. -/
theorem recordIn_of_carries (hc : mirrorCarries s = true) (hi : s.mir.state ≠ .init) : recordIn s n f =
    if s.mir.state = .solo then took s n else f (took s n) := by
  have hpass : ¬(!mirrorCarries s || s.mir.state == .init) = true := by simp [hc, hi]
  rw [recordIn, if_neg hpass]
  rfl

theorem recordIn_of_takes (h : Spec.takes s) : recordIn s n f = f (took s n) := by
  obtain ⟨hc, hi, hs⟩ := h
  rw [recordIn_of_carries hc hi, if_neg hs]

/-- What a record does is what its own part does once it has taken its place. -/
theorem next_recordIn {u : State} (h : Spec.takes s) (hf : f (took s n) = u) : (.next (recordIn s n f) : Result) = .next u :=
  congrArg Host.Outcome.next ((recordIn_of_takes h).trans hf)

theorem recordIn_of_solo (hc : mirrorCarries s = true) (hs : s.mir.state = .solo) :
    recordIn s n f = took s n := by
  rw [recordIn_of_carries hc (by rw [hs]; decide), if_pos hs]

/-- A record that changes nothing takes its place alone. -/
theorem recordIn_id (hc : mirrorCarries s = true) (hi : s.mir.state ≠ .init) :
    recordIn s n (fun s => s) = took s n := by
  rw [recordIn_of_carries hc hi, ite_self]

end

/-- The last frame of a delta counts, whole or not (R523). -/
theorem wrapAdd_frames {r : W32} {old bytes : Nat} (h : old ≤ bytes) :
    (if bytes % 9196 = 0 then wrapAdd r (bytes / 9196 - old / 9196) else wrapInc (wrapAdd r (bytes / 9196 - old / 9196))) =
      wrapAdd r (cdiv bytes 9196 - old / 9196) := by
  have hle : old / 9196 ≤ bytes / 9196 := Nat.div_le_div_right h
  split
  next hwhole =>
    have hframes : cdiv bytes 9196 = bytes / 9196 := by unfold cdiv; omega
    rw [hframes]
  next hpart =>
    have hframes : cdiv bytes 9196 - old / 9196 = bytes / 9196 - old / 9196 + 1 := by unfold cdiv; omega
    rw [hframes, wrapInc, wrapAdd, wrapAdd, BitVec.ofNat_add, BitVec.add_assoc]

theorem deltaEnd_of_carries {s : State} (hc : mirrorCarries s = true) (hi : s.mir.state ≠ .init) :
    deltaEnd s = Spec.mirBecomes s { s.mir with
      rxBytes := 0, received := wrapAdd s.mir.received (cdiv (s.mir.rxBytes + 12) 9196 - s.mir.rxBytes / 9196) } := by
  have hpass : ¬(!mirrorCarries s || s.mir.state == .init) = true := by simp [hc, hi]
  rw [deltaEnd, if_neg hpass, recordIn_id hc hi, ← wrapAdd_frames (Nat.le_add_right _ 12)]
  rfl

variable {s : State} {del : Bool} {table tick i : Nat} {bytes : List Byte}

/-! Table writes (R528). -/

theorem ordApply_of_applied {r : TblRec} {f : Fwd} (hmac : ∀ e, r = .mac e → del = true ∨ macReceived s e = some e)
    (hf : r.apply del s.fwd = some f) : ordApply s del r = { s with fwd := f } := by
  cases r with
  | mac e =>
    have hentry : (if del then some (.mac e) else (macReceived s e).map TblRec.mac) = some (.mac e) := by
      obtain rfl | hsame := hmac e rfl
      · exact if_pos rfl
      · rw [hsame, Option.map_some, ite_self]
    simp only [ordApply, hentry, Option.bind_some, hf]
  | _ => simp only [ordApply, Option.bind_some, hf]

theorem ordReceived_of_taken {r : TblRec} (hr : recordRead table del bytes = some r) (hord : r.ordinary = true)
    (hown : ownPrevails s r tick = false) : ordReceived s tick table del bytes = ordApply s del r := by
  simp only [ordReceived, hr, hord, hown, Bool.not_true, Bool.or_false, Bool.false_eq_true, if_false]

theorem ordReceived_of_own {r : TblRec} (hr : recordRead table del bytes = some r) (hown : ownPrevails s r tick = true) :
    ordReceived s tick table del bytes = s := by
  simp only [ordReceived, hr, hown, Bool.or_true, if_true]

theorem verReceived_of_opened {r : TblRec} {d : Dec} (hr : recordRead table del bytes = some r)
    (hd : openWrite s.dec (r.vwrites del) = some d) : verReceived s table del bytes = { s with dec := d } := by
  simp only [verReceived, hr, hd, Option.map_some, Option.getD_some]

/-! Plans (R207, R527, R529). -/

section
variable {k : PlanKind} {version : Nat} {x : Sealed}

/-- The plans in force with one of the partner's: a select ends a commit that the partner planned. -/
def planListed (m : Mir) (k : PlanKind) (version tick : Nat) : Mir :=
  { m with plans := m.plans.filter (fun p => !(k == .select && p.kind == .commit && p.remote)) ++
    [{ kind := k, version := version, tick := tick, remote := true }] }

theorem planReceived_commit_of_open (h : now s < tick) (hx : s.dec.sealed_ = none) : planReceived s .commit version tick =
    { s with mir := planListed s.mir .commit version tick, dec := sealNow s.dec (now s) .plan false } := by
  simp only [planReceived, if_neg (Nat.not_le.mpr h), mirMod_dec, hx]
  rfl

theorem planReceived_commit_of_sealed (h : now s < tick) (hx : s.dec.sealed_ = some x) :
    planReceived s .commit version tick = { s with mir := planListed s.mir .commit version tick } := by
  simp only [planReceived, if_neg (Nat.not_le.mpr h), mirMod_dec, hx]
  rfl

theorem planReceived_select_of_open (h : now s < tick) (hx : s.dec.sealed_ = none) :
    planReceived s .select version tick = { s with mir := planListed s.mir .select version tick } := by
  simp only [planReceived, if_neg (Nat.not_le.mpr h), mirMod_dec, hx]
  rfl

theorem planReceived_select_of_sealed (h : now s < tick) (hx : s.dec.sealed_ = some x) :
    planReceived s .select version tick = { s with
      mir := planListed s.mir .select version tick
      dec := if x.waiter = .plan then { s.dec with sealed_ := none, openWrites := x.writes ++ s.dec.openWrites } else s.dec } := by
  simp only [planReceived, if_neg (Nat.not_le.mpr h), mirMod_dec, hx]
  split <;> rfl

theorem planReceived_of_side (h : now s < tick) (hk : k = .join ∨ k = .swap) :
    planReceived s k version tick = { s with mir := planListed s.mir k version tick } := by
  rcases hk with rfl | rfl <;> simp only [planReceived, if_neg (Nat.not_le.mpr h)] <;> rfl

theorem planReceived_of_late (h : tick ≤ now s) : planReceived s k version tick = outOfStep s := if_pos h

end

/-! Flow-state entries, channels and windows. -/

@[simp] theorem flowValidAdj_hbm {was now_ : Bool} : (flowValidAdj s was now_).hbm = s.hbm := by
  unfold flowValidAdj; split <;> rfl
@[simp] theorem flowValidAdj_mir {was now_ : Bool} : (flowValidAdj s was now_).mir = s.mir := by
  unfold flowValidAdj; split <;> rfl

@[simp] theorem flowRead_flowValidAdj {was now_ : Bool} : flowRead (flowValidAdj s was now_) i = flowRead s i := by
  simp only [flowRead, hbmRead, hbmGet, flowValidAdj_hbm]
@[simp] theorem hbmGet_flowValidAdj {was now_ : Bool} {a : Nat} : hbmGet (flowValidAdj s was now_) a = hbmGet s a := by
  simp only [hbmGet, flowValidAdj_hbm]

theorem flowRead_flowWrite_same (hwf : twf 0#8 s.hbm = true) (hlen : bytes.length = 64) :
    flowRead (flowWrite s i bytes) i = bytes := by
  rw [flowRead, flowWrite, ← hlen, hbmRead_hbmPutBytes_same hwf]

theorem hbmGet_flowWrite_outside {a : Nat} (hlen : bytes.length = 64) (ha : a < i * 64 ∨ i * 64 + 64 ≤ a) :
    hbmGet (flowWrite s i bytes) a = hbmGet s a :=
  hbmGet_hbmPutBytes_outside s _ _ _ (hlen.symm ▸ ha)

/-- An entry that this side does not hold comes with its counters at 0 (R528). -/
theorem flowReceived_of_absent (hans : hbmAnswers s (i * 64) = true) (hv : flowValid (flowRead s i) = false) :
    flowReceived s i false bytes = flowValidAdj (flowWrite s i (slice bytes 0 56 ++ zeroBytes 8)) false
      (flowValid (slice bytes 0 56 ++ zeroBytes 8)) := by
  simp only [flowReceived, hans, hv, Bool.not_true, Bool.false_and, Bool.false_eq_true, if_false]

theorem channelReceived_of_shadow {c : Nat} {words : List W48} {x : Nat × Nat} {ch : Channel}
    (hx : s.mir.pair.shadows.find? (fun x => x.1 == c) = some x) (hch : channelOf s x.2 = some ch) :
    channelReceived s c words = stateSetAll s ch.bind 0 (words.take ch.bind.stateWords) := by
  simp only [channelReceived, channelWords, hx, Option.bind_some, hch, Nat.sub_zero]

theorem windowReceived_of_ok {a : Nat} (h : hbmRangeOk s a bytes.length = true) :
    windowReceived s a bytes = hbmPutBytes s a bytes := if_pos h

/-! Contexts (R405, R415; log entry 111). -/

section
variable {image : List Byte} {x : Ctx}

theorem contextReceived_of_locked (h : (tget s.kvl.vbat 1).bind (fun k => ctxOfImage image (some k)) = none) :
    contextReceived s i del image = s := by
  simp only [contextReceived, h]

variable (h : (tget s.kvl.vbat 1).bind (fun k => ctxOfImage image (some k)) = some x)
  (hwf : twf (ctxUnlisted s) s.cph.ctxs = true) (hq : (ctxOf s i).queue = [])
include h hwf hq

theorem ctxOf_contextReceived_destroy : ctxOf (contextReceived s i true image) i = Ctx.empty := by
  obtain ⟨outputs, cache, abandoned, hremove⟩ := ctxRemove_of_idle hq
  simp only [contextReceived, h, hremove, if_true]
  exact ctxOf_ctxMod_same (ctxs_wf_ctxMod hwf)

theorem ctxOf_contextReceived_keep : ctxOf (contextReceived s i false image) i =
    { x with epoch := s.cph.bootEpoch, saveSeq := 0#32, ctrHwm := max (ctxOf s i).ctrHwm x.ctrHwm } := by
  obtain ⟨outputs, cache, abandoned, hremove⟩ := ctxRemove_of_idle hq
  simp only [contextReceived, h, hremove, Bool.false_eq_true, if_false]
  exact ctxOf_ctxMod_same (ctxs_wf_ctxMod (ctxs_wf_ctxMod hwf))

end

/-! Gate lists (R265, R529; log entry 92) and PAIR cuts (R304; log entry 56). -/

theorem gateReceived_of_ok {n : Nat} {g : GateList} (hg : gateOfBytes bytes = (n, g)) (hok : gateOk bytes = true)
    (hport : (portOf s n).isSome = true) : gateReceived s bytes = schPortMod s n (fun p =>
      { p with pendingList := some g, actTick := max (now s + 1) (g.baseS * 1000000 + cdiv g.baseNs 1000) }) := by
  have hnone : (portOf s n).isNone = false := by rw [← Option.not_isSome, hport]; rfl
  simp only [gateReceived, hg, hok, hnone, Bool.not_true, Bool.or_self, Bool.false_eq_true, if_false]

theorem deltaAdd_of_paired {kind : Nat} {body : List Byte} (h : s.mir.pair.mode ≠ 0) : deltaAdd s kind body =
    { s with mir := { s.mir with delta := s.mir.delta ++ [{ kind := kind, body := body }] } } := if_neg h

section
variable {id : W32} {cutTick tag : W64}

theorem cutReceived_of_idle {status : Byte} (hs : s.ldg.scheduled = []) (hr : s.ldg.running = none) (hm : s.mir.pair.mode ≠ 0)
    (hlead : now s + 15 ≤ cutTick.toNat) (hnow : 0 < now s) : cutReceived s false status id cutTick tag = { s with
      ldg := { s.ldg with
        scheduled := [{ kind := .pair, summary := false, tick := cutTick.toNat, tag := tag, id := s.ldg.nextCutId
                        partnerOk := true }]
        nextCutId := wrapInc s.ldg.nextCutId }
      mir := { s.mir with delta := s.mir.delta ++ [{ kind := 0x0A, body := cutBody true 0#8 id cutTick tag }] } } := by
  have hlead' : now s - 1 + CutKind.pair.lead ≤ cutTick.toNat := by
    have : CutKind.pair.lead = 16 := rfl
    omega
  rw [cutReceived, if_neg Bool.false_ne_true, cutAdmit_of_idle hs hr hlead']
  exact deltaAdd_of_paired hm

theorem cutReceived_of_answer {status : Byte} : cutReceived s true status id cutTick tag = { s with
    ldg := { s.ldg with scheduled := s.ldg.scheduled.map (fun c =>
      if c.kind = .pair ∧ c.tick = cutTick.toNat then { c with partnerOk := status == 0 } else c) } } := by
  simp only [cutReceived, if_true, Bool.and_eq_true, beq_iff_eq]
  rfl

end

end Sys2Proof.Machine

open Sys2Proof Sys2Proof.Machine in
/-- Settles O46: a record takes its place (`recordIn_of_carries`), and each clause is one case of the record's own part. Model's
choices: SOLO discards (log entry 90), a gate list begins no earlier than the next tick (92), a select of the partner ends the commit
that it planned (125), a PAIR cut is admitted as of the tick before (56), a context that does not unwrap changes nothing (111). -/
theorem deltaRecords : Obligations.DeltaRecords := by
  unfold Obligations.DeltaRecords
  refine ⟨fun s h => ?takes, fun s n hc hi => congrArg Host.Outcome.next (deltaEnd_of_carries hc hi), fun s hc hs => ?solo⟩
  case solo =>
    exact ⟨fun _ _ _ _ => congrArg Host.Outcome.next (recordIn_of_solo hc hs),
      fun _ _ _ => congrArg Host.Outcome.next (recordIn_of_solo hc hs)⟩
  case takes =>
    refine ⟨fun v => next_recordIn h rfl, ?ordinary, ?own, ?versioned, fun kind version tick => ⟨?plan, ?late⟩, ?flow, ?channel,
      ?counter, ?context, ?gate, fun id tick tag => ⟨?cut, ?answer⟩, fun bytes => next_recordIn h rfl, ?window,
      fun b => next_recordIn h rfl⟩
    case ordinary =>
      intro tick table del record r f hr hord hown hmac hf
      have htaken := ordReceived_of_taken (s := took s (12 + record.length)) hr hord hown
      exact next_recordIn h (htaken.trans (ordApply_of_applied hmac hf))
    case own =>
      intro tick table del record r hr hown
      exact next_recordIn h (ordReceived_of_own hr hown)
    case versioned =>
      intro tick table del record r d hr hd
      exact next_recordIn h (verReceived_of_opened (s := took s _) hr hd)
    case plan =>
      intro hlater plans
      have hlater' : now (took s 16) < tick.toNat := hlater
      cases kind with
      | commit =>
        cases hx : s.dec.sealed_ with
        | none => exact next_recordIn h (planReceived_commit_of_open hlater' hx)
        | some x => exact next_recordIn h (planReceived_commit_of_sealed hlater' hx)
      | select =>
        cases hx : s.dec.sealed_ with
        | none => exact next_recordIn h (planReceived_select_of_open hlater' hx)
        | some x => exact next_recordIn h (planReceived_select_of_sealed hlater' hx)
      | join => exact next_recordIn h (planReceived_of_side hlater' (.inl rfl))
      | swap => exact next_recordIn h (planReceived_of_side hlater' (.inr rfl))
    case late =>
      intro hlate
      exact ⟨_, next_recordIn h (planReceived_of_late (s := took s 16) hlate), raised_raiseDetail rfl, rfl⟩
    case flow =>
      intro i bytes hmem hans hv
      have hwf : twf 0#8 (took s 72).hbm = true := hbm_wf_of_memoryWf hmem
      have hlen : (slice bytes 0 56 ++ zeroBytes 8).length = 64 := by simp [slice_length, zeroBytes]
      have hentry := flowReceived_of_absent (s := took s 72) (bytes := slice bytes 0 64) hans hv
      rw [slice_slice_of_le (by omega)] at hentry
      refine ⟨_, next_recordIn h hentry, ?_, fun a ha => ?_, flowValidAdj_mir⟩
      · rw [flowRead_flowValidAdj, flowRead_flowWrite_same hwf hlen]
      · rw [hbmGet_flowValidAdj, hbmGet_flowWrite_outside hlen ha]
        rfl
    case channel =>
      intro c words x ch hx hch
      exact next_recordIn h (channelReceived_of_shadow (s := took s _) hx hch)
    case counter =>
      intro c hwm hwf
      exact ⟨_, next_recordIn h rfl, ctxOf_ctxMod_same (s := took s 16) hwf,
        fun k hk => ctxOf_ctxMod_other (s := took s 16) hk, rfl⟩
    case context =>
      intro c image hwf hq sent
      cases hsent : sent with
      | none =>
        have hsame {destroy : Bool} : contextReceived (took s 144) c.toNat destroy image = took s 144 :=
          contextReceived_of_locked hsent
        exact ⟨⟨_, next_recordIn h hsame, rfl⟩, ⟨_, next_recordIn h hsame, rfl⟩⟩
      | some x =>
        exact ⟨⟨_, next_recordIn h rfl, ctxOf_contextReceived_keep (s := took s 144) hsent hwf hq⟩,
          ⟨_, next_recordIn h rfl, ctxOf_contextReceived_destroy (s := took s 144) hsent hwf hq⟩⟩
    case gate =>
      intro bytes n g hg hok hport
      exact ⟨_, next_recordIn h (gateReceived_of_ok (s := took s _) hg hok hport), schPort_schPortMod_same _ _ _, rfl⟩
    case cut =>
      intro hs hr hm hlead hnow
      exact next_recordIn h (cutReceived_of_idle (s := took s 24) hs hr hm hlead hnow)
    case answer =>
      intro status
      exact next_recordIn h cutReceived_of_answer
    case window =>
      intro a bytes hmem hrange
      have hlen : (slice bytes 0 64).length = 64 := slice_length _ _ _
      have hwf : twf 0#8 (took s 72).hbm = true := hbm_wf_of_memoryWf hmem
      refine ⟨_, next_recordIn h (windowReceived_of_ok (s := took s 72) (hlen.symm ▸ hrange)), rfl, fun x => ?_⟩
      have hbyte := hbmGet_hbmPutBytes (a := a.toNat) (bs := slice bytes 0 64) (x := x) hwf
      rwa [hlen] at hbyte

end

section
/-!
The last half of a link falls while a training attempt is still noted: the link then reads as training, so that it is not taken for
lost (R522).
-/

namespace Sys2Proof.Machine

variable {s : State} {t : Nat}

theorem mirrorLink_of_training (h0 : s.mir.half0 = false) (h1 : s.mir.half1 = false) (ht : s.mir.trainingSince = some t) :
    mirrorLink s = 1 := by
  simp [mirrorLink, h0, h1, ht]

/-- With an attempt noted, the fall of the last half reports itself and nothing more. -/
theorem mirrorHalfDown_of_training (h0 : s.mir.half0 = true) (h1 : s.mir.half1 = false) (ht : s.mir.trainingSince = some t) :
    mirrorHalfDown s 0 = raise (mirMod s (fun m => { m with half0 := false })) .mirrorHalfDown mirrorUnit 0 := by
  have htrains : mirrorLink (raise (mirMod s (fun m => halfSet m 0 false)) .mirrorHalfDown mirrorUnit 0) = 1 :=
    mirrorLink_of_training rfl h1 ht
  simp only [mirrorHalfDown, if_true, h0, Bool.not_true, Bool.false_eq_true, if_false, htrains, Nat.one_ne_zero]
  rfl

/-- A paired side whose mirror unit is released, on half 0 alone, with the attempt of tick 0 still noted. -/
def halfWithAttempt : State :=
  { State.reset with
    rst := { Rst.reset with released := 0x3FFF#14 }
    mir := { Mir.reset with pair := { PairSection.empty with mode := 2 }, half0 := true, trainingSince := some 0 } }

end Sys2Proof.Machine

open Sys2Proof Sys2Proof.Machine in
/-- Refutes O45 by its clause on the fall of the last half, which is said of every state with half 0 alone: where a training attempt
is still noted beside that half, the link goes to training and no loss is noted (`mirrorHalfDown_of_training`). `linkStart` ends the
attempt when the first half comes up, so that the refutation turns on a hypothesis that the clause lacks: no attempt in progress. -/
theorem not_mirrorLink : ¬ Obligations.MirrorLink := by
  unfold Obligations.MirrorLink
  rintro ⟨hlink, -⟩
  obtain ⟨-, -, -, -, -, hfall, -⟩ := hlink halfWithAttempt rfl
  obtain ⟨u, hu, -, hlost, -⟩ := hfall rfl rfl
  obtain rfl : mirrorHalfDown halfWithAttempt 0 = u := Host.Outcome.next.inj hu
  have hkept : (mirrorHalfDown halfWithAttempt 0).mir.linkLost = none := by
    rw [mirrorHalfDown_of_training (t := 0) rfl rfl rfl]
    rfl
  exact Option.some_ne_none _ (hlost.symm.trans hkept)

end

section
/-! How an instruction issues, case by case (R79, R83, R356-R358, R366), and what the statements' names of a batch are in the model. -/

namespace Sys2Proof

theorem MF.ok_of_zero {f : MF} (h : f.zero = 0#10) : f.ok = true := by simp [MF.ok, h]

theorem RR.word_toNat_div {op : Nat} {f : RR} (h : op < 2 ^ 8) : (f.word op).toNat / 2 ^ 40 = op := by
  have hzero := f.zero.isLt
  simp only [RR.word, pack, put, List.foldl, BitVec.toNat_ofNat]
  omega

end Sys2Proof

namespace Sys2Proof.Machine

/-- The state that an instruction's effect leaves, with the batch at issue slot `n`. -/
def issueEnd (s : State) (e t n : Nat) : Issued → State
  | .next s' b => batchPut s' e t (some { b with slot := n })
  | .fault cause => threadFault s e t cause
  | .discard => batchDiscard s e t

section
variable {s : State} {e t : Nat} {b : Batch} {w : W48} {l : Bool} {n : Batch → Nat} {f : Batch → Issued}

/-- A batch before its commit point and within its slot issues what the memory holds, or an encoding that no instruction has. -/
theorem issue_of_running (hb : batchOf s e t = some b) (hc : b.committed = none) (hs : b.slot < b.slotStart + b.slotLen)
    (hw : imemAt s e b.pc = w ∨ opDefined (imemAt s e b.pc) = false) :
    issue s e t w l n f =
      if b.pc ∈ (clusterOf s (e / 12)).imemBad then threadFault s e t 0x07
      else if imemAt s e b.pc = w ∧ l = true then issueEnd s e t (b.slot + n b) (f b)
      else threadFault s e t 0x01 := by
  have hstands : (imemAt s e b.pc != w && opDefined (imemAt s e b.pc)) = false := by
    obtain hsame | hundef := hw
    · simp [hsame]
    · simp [hundef]
  simp only [issue, hb, hc, hstands, Option.isSome_none, Nat.not_le.mpr hs, decide_false, Bool.or_self, Bool.false_eq_true,
    if_false, List.contains_iff_mem]
  split
  · rfl
  · by_cases h : imemAt s e b.pc = w ∧ l = true
    · rw [if_pos h]
      simp only [h.1, h.2, bne_self_eq_false, Bool.not_true, Bool.or_self, Bool.false_eq_true, if_false]
      cases f b <;> rfl
    · rw [if_neg h, if_pos]
      simpa [Decidable.not_and_iff_or_not, Decidable.imp_iff_not_or] using h

end

section
variable {s : State} {e : Fin 96} {t : Fin 8} {b : Batch} {w : W48} {l : Bool} {n : Batch → Nat} {f : Batch → Issued}

/-- A legal instruction that stands in the memory at the batch's pc does what it does. -/
theorem next_issue (hi : Spec.Issues s e t b) (hw : Spec.fetches s e b w) (hl : l = true) {u : State}
    (hf : issueEnd s e.val t.val (b.slot + n b) (f b) = u) :
    (.next (issue s e.val t.val w l n f) : Result) = .next u := by
  obtain ⟨hb, hc, hs, hgood⟩ := hi
  rw [issue_of_running hb hc hs (.inl hw), if_neg hgood, if_pos ⟨hw, hl⟩, hf]

end

section
variable {s : State} {e : Fin 96} {t : Fin 8} {b : Batch} {r : Fin 32} {v : W48} {a : Nat} {f : MF}

theorem reg_eq : Spec.reg b r = regGet b r.val := by
  simp only [Spec.reg, regGet, Fin.ext_iff, Fin.val_zero]

theorem wrote_eq : Spec.wrote b r v = fall (regSet b r.val v) := by
  by_cases h : r = 0
  · simp [h, Spec.wrote, regSet, fall]
  · have hval : r.val ≠ 0 := fun hr => h (Fin.ext hr)
    simp [h, hval, Spec.wrote, regSet, fall]

theorem nextPc_eq : Spec.nextPc b = fall b := rfl

theorem address_eq : Spec.address b f = memAddr b f := by rw [Spec.address, memAddr, reg_eq]

theorem localWord_eq : Spec.localWord s e t b a = localGet s e.val t.val b a := by
  unfold Spec.localWord localGet
  cases tget b.localW a <;> rfl

theorem sharedSeen_eq : sharedSeen s b a = (tget b.sharedW a).getD
    (if a < 65536 then inboxWord s b.cluster a else tgetD (clusterOf s b.cluster).shared a 0#48) := by
  unfold sharedSeen
  cases tget b.sharedW a <;> rfl

end

end Sys2Proof.Machine

open Sys2Proof Sys2Proof.Machine in
/-- Settles O4: where its word stands in the memory an instruction does what its effect says (`next_issue`), and the hypotheses of
each clause choose the branch of the effect. -/
theorem isaMemory : Obligations.IsaMemory := by
  unfold Obligations.IsaMemory
  refine ⟨fun s e t b f hi hz => ?inside, fun s e t b f hi hz => ?faults⟩
  case inside =>
    dsimp only
    rw [address_eq]
    refine ⟨fun ha hw => ?ldl, fun hlow ha hn hw => ?stl, fun ha hl hw => ?lds, fun hlow ha hn hw => ?sts⟩
    all_goals refine next_issue hi hw (MF.ok_of_zero hz) ?_; dsimp only
    case ldl =>
      rw [if_neg (Nat.not_le.mpr ha), wrote_eq, localWord_eq]
      rfl
    case stl =>
      rw [if_neg (by omega), if_neg (Nat.not_le.mpr hn), nextPc_eq, reg_eq]
      rfl
    case lds =>
      have hkept : ¬((clusterOf s b.cluster).lost.contains (memAddr b f) && (tget b.sharedW (memAddr b f)).isNone) = true := by
        rw [Bool.and_eq_true, List.contains_iff_mem, Option.isNone_iff_eq_none]
        exact fun h => hl.elim (· h.1) (· h.2)
      rw [if_neg (Nat.not_le.mpr ha), if_neg hkept, wrote_eq, sharedSeen_eq]
      rfl
    case sts =>
      rw [if_neg (by omega), if_neg (Nat.not_le.mpr hn), nextPc_eq, reg_eq]
      rfl
  case faults =>
    dsimp only
    rw [address_eq]
    refine ⟨fun ha hw => ?ldl, fun ha hw => ?stl, fun hlow ha hn hw => ?stlLimit, fun ha hw => ?lds, fun ha hw => ?sts,
      fun hlow ha hn hw => ?stsLimit, fun ha hl hn hw => ?lost⟩
    all_goals refine next_issue hi hw (MF.ok_of_zero hz) ?_; dsimp only
    case ldl => rw [if_pos ha]; rfl
    case stl => rw [if_pos ha]; rfl
    case stlLimit => rw [if_neg (by omega), if_pos hn]; rfl
    case lds => rw [if_pos ha]; rfl
    case sts => rw [if_pos ha]; rfl
    case stsLimit => rw [if_neg (by omega), if_pos hn]; rfl
    case lost =>
      have hlost : ((clusterOf s b.cluster).lost.contains (memAddr b f) && (tget b.sharedW (memAddr b f)).isNone) = true := by
        simp [hl, hn]
      rw [if_neg (Nat.not_le.mpr ha), if_pos hlost]
      rfl

end

section
/-! A batch's discard, and the stop of an engine (R80, R81, R355). -/

namespace Sys2Proof.Machine

section
variable {s : State} {e t k : Nat} {b : Batch}

/-- Packets go back into their places and FIFOs. -/
theorem packetBack_state (ch : Nat) (x : Nat × Option Nat) : ∃ pkts channels clusters, packetBack s ch x =
    { s with crb := { s.crb with pkts := pkts }, eng := { s.eng with channels := channels, clusters := clusters } } := by
  unfold packetBack fifoSet
  split
  · exact ⟨_, _, _, rfl⟩
  · split <;> exact ⟨_, _, _, rfl⟩

theorem foldl_packetBack_state (ch : Nat) (xs : List (Nat × Option Nat)) : ∃ pkts channels clusters,
    xs.foldl (fun s x => packetBack s ch x) s =
      { s with crb := { s.crb with pkts := pkts }, eng := { s.eng with channels := channels, clusters := clusters } } := by
  induction xs generalizing s with
  | nil => exact ⟨_, _, _, rfl⟩
  | cons x xs ih =>
    obtain ⟨p, c, k, hx⟩ := packetBack_state (s := s) ch x
    obtain ⟨pkts, channels, clusters, hxs⟩ := ih (s := packetBack s ch x)
    refine ⟨pkts, channels, clusters, ?_⟩
    rw [List.foldl_cons, hxs, hx]

/-- A discard of a batch before its commit point frees the thread. -/
theorem batchDiscard_state (hb : batchOf s e t = some b) (hc : b.committed = none) :
    ∃ pkts channels clusters x y, batchDiscard s e t =
      { s with crb := { s.crb with pkts := pkts }
               sltEng := { s.sltEng with replayCount := x }, sltCph := { s.sltCph with replayCount := y }
               eng := { s.eng with threads := (batchPut s e t none).eng.threads, channels := channels, clusters := clusters } } := by
  obtain ⟨pkts, channels, clusters, hback⟩ := foldl_packetBack_state (s := batchPut s e t none) b.channel b.taken.reverse
  simp only [batchDiscard, hb, hc, packetsBack, hback, Option.isSome_none, Bool.false_eq_true, if_false]
  split <;> exact ⟨_, _, _, _, _, rfl⟩

theorem batchDiscard_of_none (hb : batchOf s e t = none) : batchDiscard s e t = s := by
  simp [batchDiscard, hb]

theorem batchDiscard_of_committed (hb : batchOf s e t = some b) (hc : b.committed.isSome = true) : batchDiscard s e t = s := by
  simp [batchDiscard, hb, hc]

/-- A discard leaves the engines and the collector alone. -/
theorem batchDiscard_frame : ∃ threads pkts channels clusters x y, batchDiscard s e t =
    { s with crb := { s.crb with pkts := pkts }
             sltEng := { s.sltEng with replayCount := x }, sltCph := { s.sltCph with replayCount := y }
             eng := { s.eng with threads := threads, channels := channels, clusters := clusters } } := by
  cases hb : batchOf s e t with
  | none => exact ⟨_, _, _, _, _, _, batchDiscard_of_none hb⟩
  | some b =>
    cases hc : b.committed with
    | none => exact ⟨_, batchDiscard_state hb hc⟩
    | some n => exact ⟨_, _, _, _, _, _, batchDiscard_of_committed hb (by rw [hc]; rfl)⟩

@[simp] theorem batchDiscard_engines : (batchDiscard s e t).eng.engines = s.eng.engines := by
  obtain ⟨_, _, _, _, _, _, h⟩ := batchDiscard_frame (s := s) (e := e) (t := t)
  rw [h]

@[simp] theorem batchDiscard_flt : (batchDiscard s e t).flt = s.flt := by
  obtain ⟨_, _, _, _, _, _, h⟩ := batchDiscard_frame (s := s) (e := e) (t := t)
  rw [h]

theorem batchOf_batchPut_other {x : Option Batch} (h : k ≠ t) : batchOf (batchPut s e t x) e k = batchOf s e k := by
  have hplace : 8 * e + k ≠ 8 * e + t := by omega
  exact congrArg Thread.batch (tgetD_tmod_other Thread.reset s.eng.threads (fun y => { y with batch := x }) hplace)

/-- Only a batch after its commit point outlives a discard of its thread. -/
theorem batchOf_batchDiscard_same : batchOf (batchDiscard s e t) e t = (batchOf s e t).filter (fun b => b.committed.isSome) := by
  cases hb : batchOf s e t with
  | none => rw [batchDiscard_of_none hb, hb, Option.filter_none]
  | some b =>
    cases hc : b.committed with
    | none =>
      obtain ⟨_, _, _, _, _, hput⟩ := batchDiscard_state hb hc
      have hfree : batchOf (batchDiscard s e t) e t = batchOf (batchPut s e t none) e t := by rw [hput]; rfl
      rw [hfree, batchOf_batchPut_same, Option.filter_some, hc]
      rfl
    | some n =>
      rw [batchDiscard_of_committed hb (by rw [hc]; rfl), hb, Option.filter_some, hc]
      rfl

theorem batchOf_batchDiscard_other (h : k ≠ t) : batchOf (batchDiscard s e t) e k = batchOf s e k := by
  cases hb : batchOf s e t with
  | none => rw [batchDiscard_of_none hb]
  | some b =>
    cases hc : b.committed with
    | none =>
      obtain ⟨_, _, _, _, _, hput⟩ := batchDiscard_state hb hc
      have hothers : batchOf (batchDiscard s e t) e k = batchOf (batchPut s e t none) e k := by rw [hput]; rfl
      rw [hothers, batchOf_batchPut_other h]
    | some n => rw [batchDiscard_of_committed hb (by rw [hc]; rfl)]

/-- The threads of a list are all discarded. -/
theorem batchOf_foldl_batchDiscard {l : List Nat} : batchOf (l.foldl (fun s i => batchDiscard s e i) s) e k =
    if k ∈ l then (batchOf s e k).filter (fun b => b.committed.isSome) else batchOf s e k := by
  induction l generalizing s with
  | nil => rfl
  | cons i l ih =>
    rw [List.foldl_cons, ih]
    by_cases hi : k = i
    · subst hi
      simp [batchOf_batchDiscard_same, Option.filter_filter]
    · simp [batchOf_batchDiscard_other hi, hi]

theorem foldl_batchDiscard_engines {l : List Nat} : (l.foldl (fun s i => batchDiscard s e i) s).eng.engines = s.eng.engines := by
  induction l generalizing s with
  | nil => rfl
  | cons i l ih => rw [List.foldl_cons, ih, batchDiscard_engines]

theorem foldl_batchDiscard_flt {l : List Nat} : (l.foldl (fun s i => batchDiscard s e i) s).flt = s.flt := by
  induction l generalizing s with
  | nil => rfl
  | cons i l ih => rw [List.foldl_cons, ih, batchDiscard_flt]

end

/-! The stop of an engine in service. -/

/-- The eight threads of an engine are discarded. -/
def threadsDiscard (s : State) (e : Nat) : State := (List.range 8).foldl (fun s i => batchDiscard s e i) s

/-- An engine that holds a fault of thread `t`, where `b` ran, from `tick` on. -/
def faultHeld (t cause : Nat) (b : Option Batch) (tick : W32) (x : Engine) : Engine :=
  { x with lastCause := cause, lastThread := t, faults := wrapInc x.faults, faultPc := (b.map (·.pc)).getD 0
           faultProgram := BitVec.ofNat 16 ((b.map (·.program)).getD 0), faultTick := tick }

section
variable {s : State} {e t k cause detail : Nat} {cls : FaultClass} {b : Batch}

@[simp] theorem threadsDiscard_flt : (threadsDiscard s e).flt = s.flt := foldl_batchDiscard_flt

@[simp] theorem engineOf_threadsDiscard : engineOf (threadsDiscard s e) e = engineOf s e :=
  congrArg (tgetD · e Engine.reset) foldl_batchDiscard_engines

theorem batchOf_threadsDiscard (hk : k < 8) (hb : batchOf s e k = some b) (hc : b.committed = none) :
    batchOf (threadsDiscard s e) e k = none := by
  rw [threadsDiscard, batchOf_foldl_batchDiscard, if_pos (List.mem_range.mpr hk), hb, Option.filter_some, hc]
  rfl

@[simp] theorem engineOf_engineLose : engineOf (engineLose s k) e = engineOf s e := rfl
@[simp] theorem engineOf_raiseDetail {unit sub : Nat} : engineOf (raiseDetail s cls unit sub detail) e = engineOf s e := rfl
@[simp] theorem batchOf_engineLose : batchOf (engineLose s k) e t = batchOf s e t := rfl
@[simp] theorem batchOf_raiseDetail {unit sub : Nat} : batchOf (raiseDetail s cls unit sub detail) e t = batchOf s e t := rfl
@[simp] theorem batchOf_engineMod {f : Engine → Engine} : batchOf (engineMod s k f) e t = batchOf s e t := rfl

theorem raised_engineLose {u : State} {unit sub : Nat} :
    Spec.raised s (engineLose u e) cls unit sub ↔ Spec.raised s u cls unit sub := Iff.rfl

theorem engineStopped_engineLose : engineStopped (engineLose s e) e = true := by
  simp [engineStopped, engineLose]

/-- The threads are discarded, the engine holds the fault, the collector has the report, and the loss is due. -/
theorem engineStop_of_serving (hserves : (engineOf s e).state = .inService) (hruns : engineStopped s e = false) :
    engineStop s e t cause cls detail = engineLose (raiseDetail (engineMod (threadsDiscard s e) e
      (faultHeld t cause (batchOf s e t) (BitVec.ofNat 32 (now (threadsDiscard s e))))) cls (0x40 + e) t detail) e := by
  have hgoes : ¬((engineOf s e).state ≠ .inService || engineStopped s e) = true := by simp [hserves, hruns]
  rw [engineStop, if_neg hgoes]
  rfl

theorem engineOf_engineStop (hserves : (engineOf s e).state = .inService) (hruns : engineStopped s e = false) :
    engineOf (engineStop s e t cause cls detail) e =
      faultHeld t cause (batchOf s e t) (BitVec.ofNat 32 (now (threadsDiscard s e))) (engineOf s e) := by
  rw [engineStop_of_serving hserves hruns, engineOf_engineLose, engineOf_raiseDetail, engineOf_engineMod_same,
    engineOf_threadsDiscard]

end

theorem stopped_engineStop {s : State} {e : Fin 96} {t : Fin 8} {cause detail : Nat} {cls : FaultClass}
    (hserves : (engineOf s e).state = .inService) (hruns : engineStopped s e = false) :
    Spec.stopped s (engineStop s e.val t.val cause cls detail) e t cause cls := by
  unfold Spec.stopped
  rw [engineOf_engineStop hserves hruns, engineStop_of_serving hserves hruns]
  refine ⟨engineStopped_engineLose, fun k hk c hb hc => ?_, rfl, rfl, rfl, raised_engineLose.mpr (raised_raiseDetail ?_)⟩
  · rw [batchOf_engineLose, batchOf_raiseDetail, batchOf_engineMod, batchOf_threadsDiscard hk hb hc]
  · rw [engineMod_flt, threadsDiscard_flt]

/-! The encodings that fault. -/

/-- A batch of an engine in service is before its commit point and within its slot. -/
structure Serves (s : State) (e : Fin 96) (t : Fin 8) (b : Batch) : Prop where
  serves : (engineOf s e).state = .inService
  runs : engineStopped s e = false
  batch : batchOf s e t = some b
  before : b.committed = none
  within : b.slot < b.slotStart + b.slotLen

section
variable {i : Instr} {s : State} {e : Fin 96} {t : Fin 8} {b : Batch} {cause : Nat} {w : W48} {l : Bool} {n : Batch → Nat}
  {f : Batch → Issued}

/-- The command stops the engine with a cause, and the engine holds the batch's program counter. -/
def FaultsWith (i : Instr) (s : State) (e : Fin 96) (t : Fin 8) (b : Batch) (cause : Nat) : Prop :=
  Spec.runs i s (fun u => Spec.stopped s u e t cause .engineThreadFault ∧ (engineOf u e).faultPc = b.pc)

theorem faultsWith_of_threadFault (h : Serves s e t b) (hi : exec i s = .next (threadFault s e.val t.val cause)) :
    FaultsWith i s e t b cause := by
  refine ⟨_, hi, stopped_engineStop h.serves h.runs, ?_⟩
  rw [threadFault, engineOf_engineStop h.serves h.runs, h.batch]
  rfl

theorem faultsWith_of_badWord (h : Serves s e t b) (hi : exec i s = .next (issue s e.val t.val w l n f)) (hw : Spec.fetches s e b w)
    (hbad : b.pc ∈ (clusterOf s (e.val / 12)).imemBad) : FaultsWith i s e t b 0x07 := by
  refine faultsWith_of_threadFault h ?_
  rw [hi, issue_of_running h.batch h.before h.within (.inl hw), if_pos hbad]

theorem faultsWith_of_illegal (h : Serves s e t b) (hi : exec i s = .next (issue s e.val t.val w l n f)) (hw : Spec.fetches s e b w)
    (hgood : b.pc ∉ (clusterOf s (e.val / 12)).imemBad) (hl : l = false) : FaultsWith i s e t b 0x01 := by
  refine faultsWith_of_threadFault h ?_
  rw [hi, issue_of_running h.batch h.before h.within (.inl hw), if_neg hgood, if_neg (by simp [hl])]

/-- Where the memory holds an opcode that no instruction has, the instruction named is another one. -/
theorem faultsWith_of_undefined {v : W48} (h : Serves s e t b) (hi : exec i s = .next (issue s e.val t.val w l n f))
    (hv : Spec.fetches s e b v) (hundef : opDefined v = false) (hw : opDefined w = true)
    (hgood : b.pc ∉ (clusterOf s (e.val / 12)).imemBad) : FaultsWith i s e t b 0x01 := by
  obtain rfl : imemAt s e.val b.pc = v := hv
  have hother : imemAt s e.val b.pc ≠ w := fun hsame => by rw [hsame, hw] at hundef; cases hundef
  refine faultsWith_of_threadFault h ?_
  rw [hi, issue_of_running h.batch h.before h.within (.inr hundef), if_neg hgood, if_neg (fun hboth => hother hboth.1)]

end

theorem aluRR_eq_issueReg {op : Nat} {o : Alu} {e t : Nat} {f : RR} {s : State} : aluRR op o e t f s =
    issueReg s e t (f.word op) f.plain 1 f.rd.val
      (fun b => halfOp f.h.val o (regGet b f.rd.val) (regGet b f.ra.val) (regGet b f.rb.val)) := rfl

theorem aluRI_eq_issueReg {op : Nat} {o : Alu} {signed : Bool} {e t : Nat} {f : RI} {s : State} : aluRI op o signed e t f s =
    issueReg s e t (f.word op) f.plain 1 f.rd.val
      (fun b => halfOp f.h.val o (regGet b f.rd.val) (regGet b f.ra.val) (immOf f.h.val signed f.imm)) := rfl

theorem compareBranch_eq_branch {op : Nat} {c : W48 → W48 → Bool} {e t : Nat} {f : BF} {s : State} : compareBranch op c e t f s =
    branch e t (f.word op) f.ok f.disp.toNat (fun b => c (regGet b f.ra.val) (regGet b f.rb.val)) s := rfl

end Sys2Proof.Machine

open Sys2Proof Sys2Proof.Machine in
/-- Settles O10: each clause is one of the ways in which an instruction that the memory holds does not issue (`issue_of_running`), and
a thread fault stops the engine (`stopped_engineStop`). That the program counter held is an
index of the image, not one from the program's ENTRY, is the model's reading of R355 (log 65). -/
theorem isaIllegal : Obligations.IsaIllegal := by
  unfold Obligations.IsaIllegal
  intro s e t b hserves hruns hb hc hs
  have h : Serves s e t b := ⟨hserves, hruns, hb, hc, hs⟩
  refine ⟨fun f hw hgood hf => ?mul, fun f hw hgood hf => ?beq, fun f hw hgood hf => ?loop, fun f hw hgood hf => ?clz,
    fun f hw hgood hf => ?ldl, fun f hw hgood hf => ?take, fun f hw hbad => ?bad, fun f w hw hundef hgood => ?undefined⟩
  case mul => exact faultsWith_of_illegal h rfl hw hgood (by obtain hf | hf := hf <;> simp [RR.full, RR.plain, hf])
  case beq => exact faultsWith_of_illegal h (congrArg _ compareBranch_eq_branch) hw hgood (by simp [BF.ok, hf])
  case loop => exact faultsWith_of_illegal h rfl hw hgood (by simp [LF.ok, hf])
  case clz => exact faultsWith_of_illegal h rfl hw hgood (by simp [XF.ok, hf])
  case ldl => exact faultsWith_of_illegal h rfl hw hgood (by simp [MF.ok, hf])
  case take => exact faultsWith_of_illegal h rfl hw hgood (by simp [PF.ok, hf])
  case bad => exact faultsWith_of_badWord h (congrArg _ aluRI_eq_issueReg) hw hbad
  case undefined =>
    have hadd : opDefined (f.word 0x10) = true := by
      rw [opDefined, RR.word_toNat_div (by decide)]
      rfl
    exact faultsWith_of_undefined h (congrArg _ aluRR_eq_issueReg) hw hundef hadd hgood

end

section
/-! How a batch begins (R345, R346), and how it is released (R82, R341, R350, R378). -/

namespace Sys2Proof.Machine

section
variable {s : State} {e t k start length ch n : Nat} {pool : Bool} {b : Batch} {c : Channel} {p : Program}

@[simp] theorem clusterOf_slotsTake : clusterOf (slotsTake s e t n) k = clusterOf s k := rfl
@[simp] theorem channelPending_slotsTake : channelPending (slotsTake s e t n) start ch = channelPending s start ch := rfl
@[simp] theorem slotFirst_slotsTake : slotFirst (slotsTake s e t n) k start = slotFirst s k start := rfl

@[simp] theorem threadOf_batchPut_same {x : Option Batch} : threadOf (batchPut s e t x) e t = { threadOf s e t with batch := x } :=
  threadOf_threadMod_same _ _ _ _

@[simp] theorem threadOf_slotsTake_same : threadOf (slotsTake s e t n) e t = { threadOf s e t with slotsUsed := n } :=
  threadOf_threadMod_same _ _ _ _

theorem tget_threads_threadMod_other {f : Thread → Thread} {x : Nat} (h : x ≠ 8 * e + t) :
    tget (threadMod s e t f).eng.threads x = tget s.eng.threads x := tget_tset_other _ _ h

/-- A free thread takes up issue slots without a batch of its own. -/
theorem inFlight_slotsTake (hfree : batchOf s e t = none) (h : inFlight s ch = false) : inFlight (slotsTake s e t n) ch = false := by
  simp only [inFlight, List.any_eq_false] at h ⊢
  intro x hx
  obtain rfl | hx := mem_tset hx
  · have hnone : (tgetD s.eng.threads (8 * e + t) Thread.reset).batch = none := hfree
    simp [hnone]
  · exact h x hx

theorem threadOf_batchDiscard_same (hb : batchOf s e t = some b) (hc : b.committed = none) :
    threadOf (batchDiscard s e t) e t = { threadOf s e t with batch := none } := by
  obtain ⟨_, _, _, _, _, hput⟩ := batchDiscard_state hb hc
  have hthread : threadOf (batchDiscard s e t) e t = threadOf (batchPut s e t none) e t := by rw [hput]; rfl
  rw [hthread, threadOf_batchPut_same]

/-- What the batch that a slot begins has from its channel and its program. -/
structure BatchBegun (s : State) (e start length ch : Nat) (c : Channel) (p : Program) (b : Batch) : Prop where
  channel : b.channel = ch
  cluster : b.cluster = c.bind.cluster
  pc : b.pc = p.entry
  committed : b.committed = none
  slotStart : b.slotStart = start
  slotLen : b.slotLen = length
  slot : b.slot = start + (if e / 12 = c.bind.cluster then 1 else 2)
  version : b.version = s.dec.current
  regs : b.regs = List.replicate 32 0#48
  doomed : b.doomed = !c.retryAreas.isEmpty
  read : b.read = recordWords c.bind

/-- A channel whose marks from before beat `first`, and the mark of a first batch on engine `e`, have gone to its batch. -/
def marksTaken (e first : Nat) (c : Channel) : Channel :=
  { c with wake := c.wake && !wakeReady c first, wakeEarly := c.wakeEarly && !wakeReady c first
           cipher := c.cipher && !cipherReady c first, migrated := c.migrated.filter (· ≠ e), restarted := false
           sendFailed := 0, failTag := 0#16, failStatus := 0 }

/-- The thread has the batch of a channel, and the channel's marks have gone to it. -/
def batchStarted (s : State) (e t start ch : Nat) (b : Batch) : State :=
  channelMod (batchPut s e t (some b)) ch (marksTaken e (slotFirst s t start))

@[simp] theorem threadOf_batchStarted : threadOf (batchStarted s e t start ch b) e t = { threadOf s e t with batch := some b } :=
  threadOf_batchPut_same

@[simp] theorem batchOf_batchStarted : batchOf (batchStarted s e t start ch b) e t = some b := batchOf_batchPut_same _ _ _ _

theorem tget_threads_batchStarted_other {x : Nat} (h : x ≠ 8 * e + t) :
    tget (batchStarted s e t start ch b).eng.threads x = tget s.eng.threads x := tget_tset_other _ _ h

theorem channelOf_batchStarted_same (hc : channelOf s ch = some c) :
    channelOf (batchStarted s e t start ch b) ch = some (marksTaken e (slotFirst s t start) c) :=
  (channelOf_channelMod_same _ _ _).trans (congrArg (Option.map _) hc)

theorem channelOf_batchStarted_other (h : k ≠ ch) : channelOf (batchStarted s e t start ch b) k = channelOf s k :=
  channelOf_channelMod_other _ _ h

theorem batchBegin_of_program (hc : channelOf s ch = some c) (hp : tget (clusterOf s (e / 12)).programs c.bind.program = some p) :
    ∃ b, BatchBegun s e start length ch c p b ∧ batchBegin s e t start length pool ch = batchStarted s e t start ch b := by
  simp only [batchBegin, hc, hp]
  refine ⟨_, ⟨rfl, rfl, rfl, rfl, rfl, rfl, ?_, rfl, rfl, rfl, rfl⟩, rfl⟩
  by_cases h : e / 12 = c.bind.cluster <;> simp [h]

/-- A record with a lost word costs the dispatch its batch (R357). -/
theorem dispatch_of_begun (hb : BatchBegun s e start length ch c p b)
    (h : batchBegin s e t start length pool ch = batchStarted s e t start ch b) : dispatch s e t start length pool ch =
      if (recordWords c.bind).any (clusterOf s c.bind.cluster).lost.contains = true
      then batchDiscard (batchStarted s e t start ch b) e t else batchStarted s e t start ch b := by
  rw [dispatch, h, batchOf_batchStarted, Option.any_some, hb.read, hb.cluster]

/-- The slot of a single channel that is pending and has no batch in flight is dispatched. -/
theorem batchDispatch_of_channel {w : W64} (hfree : threadFree s e t = true) (hstart : (threadOf s e t).slotsUsed ≤ start)
    (hcontrol : controlOf s e t = none) (hslot : slotAt s e t start = some w) (hkind : entryKind w = 1)
    (hdefer : entryDefer w = false) (hpending : channelPending s (slotFirst s t start) (entryChannel w) = true)
    (hflight : inFlight s (entryChannel w) = false) : batchDispatch s e t start =
      dispatch (slotsTake s e t (start + entryLength w)) e t start (entryLength w) false (entryChannel w) := by
  have hnone : batchOf s e t = none := by
    simp only [threadFree, Bool.and_eq_true, Option.isNone_iff_eq_none] at hfree
    obtain ⟨⟨⟨hnone, -⟩, -⟩, -⟩ := hfree
    exact hnone
  simp only [batchDispatch, hfree, Nat.not_lt.mpr hstart, hcontrol, hslot, slotBegin, hdefer, hkind, slotFirst_slotsTake,
    channelPending_slotsTake, hpending, inFlight_slotsTake hnone hflight, Bool.not_true, Bool.not_false, decide_false, Bool.or_self,
    Bool.false_and, Bool.and_self, Bool.false_eq_true, if_false, if_true]

end

theorem reg_of_zeros {b : Batch} {r : Fin 32} (h : b.regs = List.replicate 32 0#48) : Spec.reg b r = 0#48 := by
  rw [Spec.reg, h, List.getD_eq_getElem?_getD, List.getElem?_replicate, if_pos r.isLt, Option.getD_some, ite_self]

theorem batchDispatch_spec : Spec.BatchDispatch := by
  intro s e t start w c p hfree hstart hcontrol hslot hkind hdefer hc first hpending hflight hp hareas
  have hrun : exec (.batchDispatch e t start) s = .next (dispatch (slotsTake s e.val t.val (start.val + entryLength w)) e.val t.val
      start.val (entryLength w) false (entryChannel w)) :=
    congrArg Host.Outcome.next (batchDispatch_of_channel hfree hstart hcontrol hslot hkind hdefer hpending hflight)
  obtain ⟨b, hb, hbegin⟩ := batchBegin_of_program (s := slotsTake s e.val t.val (start.val + entryLength w)) (t := t.val)
    (start := start.val) (length := entryLength w) (pool := false) hc hp
  rw [dispatch_of_begun hb hbegin, clusterOf_slotsTake] at hrun
  refine ⟨fun hlost => ?lost, fun hwhole => ?whole⟩
  case lost =>
    rw [if_pos hlost] at hrun
    refine ⟨_, hrun, ?_, ?_⟩
    · rw [batchOf_batchDiscard_same, batchOf_batchStarted, Option.filter_some, hb.committed]
      rfl
    · rw [threadOf_batchDiscard_same batchOf_batchStarted hb.committed]
      simp
  case whole =>
    rw [if_neg (Bool.eq_false_iff.mp hwhole)] at hrun
    refine ⟨_, hrun, rfl, ⟨b, batchOf_batchStarted, hb.channel, hb.pc, hb.committed, hb.slotStart, hb.slotLen, hb.version, ?_,
      hb.slot, fun r => reg_of_zeros hb.regs⟩, by simp, fun x hx => ?_, fun x hx => channelOf_batchStarted_other hx,
      channelOf_batchStarted_same hc⟩
    · rw [hb.doomed, hareas]
      rfl
    · rw [tget_threads_batchStarted_other hx, slotsTake, tget_threads_threadMod_other hx]

/-! The release of a batch. -/

section
variable {s : State} {e t ch a x : Nat} {b : Batch} {v w : W48}

/-- The earlier commits that wait have landed. -/
theorem releaseInTurn_of_first (h : (commitsWaiting s).takeWhile (fun i => i != 8 * e + t) = []) :
    releaseInTurn s e t = batchRelease s e t := by
  rw [releaseInTurn, h]
  rfl

theorem releaseState_of_words (hlocal : b.localW = [(a, v)]) (ha : 80 ≤ a) (hshared : b.sharedW = [(x, w)]) (harm : b.arm = none) :
    releaseState s e t b = sharedSet (areaSet s e t a v) b.cluster x w := by
  simp only [releaseState, hlocal, hshared, harm, List.foldl_cons, List.foldl_nil, if_pos ha]

theorem channelDelta_of_unmirrored (h : s.mir.pair.mirrored.contains ch = false) : channelDelta s ch = s := by
  simp only [channelDelta, h, Bool.false_eq_true, if_false]
  split <;> rfl

theorem releaseAdds_of_nil (hadds : b.adds = []) (hlookups : b.lookups = []) : releaseAdds s b = s := by
  simp [releaseAdds, hadds, hlookups]

theorem releaseCiphers_of_nil (h : b.csubs = []) : releaseCiphers s b = s := by simp [releaseCiphers, h]

theorem releaseSends_of_nil (h : b.sends = []) : releaseSends s b = s := by simp [releaseSends, h]

/-- The landing of a read of HBM. -/
theorem releaseTable_hbmRead {hda offset : Nat} {tag : W16} : ∃ ok, releaseTable s b (.hbmRead hda tag offset) =
    landingAdd s { channel := b.channel, offset := offset, tag := tag, ok := ok, bytes := hbmRead s hda 64 } := ⟨_, rfl⟩

theorem releaseKept_state : ∃ channels, releaseKept s b = { s with eng := { s.eng with channels := channels } } := ⟨_, rfl⟩

/-- A local and a shared word are written, and the read waits to land behind the earlier ones. -/
def readReleased (s : State) (e t : Nat) (b : Batch) (a x : Nat) (v w : W48) (channels : Tbl Channel) (l : Landing) : State :=
  let u := sharedSet (areaSet (batchPut s e t none) e t a v) b.cluster x w
  { u with eng := { u.eng with
      channels := channels, landings := u.eng.landings ++ [l], emitFails := wrapAdd u.eng.emitFails b.emitFails } }

/-- A batch that staged one local word of PROGRAM_AREA, one shared word and one read of HBM. -/
structure ReadStaged (b : Batch) (a x hda offset : Nat) (tag : W16) (v w : W48) : Prop where
  localW : b.localW = [(a, v)]
  area : 80 ≤ a
  sharedW : b.sharedW = [(x, w)]
  arm : b.arm = none
  tables : b.tables = [.hbmRead hda tag offset]
  adds : b.adds = []
  lookups : b.lookups = []
  csubs : b.csubs = []
  sends : b.sends = []
  packets : b.packets = []

theorem batchRelease_of_read {hda offset : Nat} {tag : W16} (hb : batchOf s e t = some b) (hc : b.committed.isNone = false)
    (hmirror : s.mir.pair.mirrored.contains b.channel = false) (h : ReadStaged b a x hda offset tag v w) :
    ∃ channels ok, batchRelease s e t = readReleased s e t b a x v w channels
      { channel := b.channel, offset := offset, tag := tag, ok := ok, bytes := hbmRead s hda 64 } := by
  have hdelta : channelDelta (sharedSet (areaSet (batchPut s e t none) e t a v) b.cluster x w) b.channel =
      sharedSet (areaSet (batchPut s e t none) e t a v) b.cluster x w := channelDelta_of_unmirrored hmirror
  obtain ⟨ok, hread⟩ := releaseTable_hbmRead (s := sharedSet (areaSet (batchPut s e t none) e t a v) b.cluster x w) (b := b)
    (hda := hda) (offset := offset) (tag := tag)
  obtain ⟨channels, hkept⟩ := releaseKept_state (b := b)
    (s := landingAdd (sharedSet (areaSet (batchPut s e t none) e t a v) b.cluster x w) {
      channel := b.channel, offset := offset, tag := tag, ok := ok, bytes := hbmRead s hda 64 })
  refine ⟨channels, ok, ?_⟩
  simp only [batchRelease, hb, hc, Bool.false_eq_true, if_false, releaseState_of_words h.localW h.area h.sharedW h.arm, hdelta,
    h.tables, List.foldl_cons, List.foldl_nil, hread, releaseAdds_of_nil h.adds h.lookups, releaseCiphers_of_nil h.csubs,
    releaseSends_of_nil h.sends, h.packets]
  exact congrArg (fun u : State => { u with eng := { u.eng with emitFails := wrapAdd u.eng.emitFails b.emitFails } }) hkept

/-- Nothing but threads, clusters, channels, landings and the emit count changes. -/
theorem readReleased_frame {channels : Tbl Channel} {l : Landing} : readReleased s e t b a x v w channels l =
    { s with eng := { s.eng with
        threads := (readReleased s e t b a x v w channels l).eng.threads
        clusters := (readReleased s e t b a x v w channels l).eng.clusters
        channels := (readReleased s e t b a x v w channels l).eng.channels
        landings := (readReleased s e t b a x v w channels l).eng.landings
        emitFails := (readReleased s e t b a x v w channels l).eng.emitFails } } := by
  simp only [readReleased, sharedSet, clusterMod, areaSet, batchPut, threadMod]

theorem threadOf_readReleased {channels : Tbl Channel} {l : Landing} : threadOf (readReleased s e t b a x v w channels l) e t =
    { threadOf s e t with batch := none, area := tput 0#48 (threadOf s e t).area a v } := by
  have hwritten : threadOf (areaSet (batchPut s e t none) e t a v) e t = _ := threadOf_threadMod_same _ _ _ _
  rw [threadOf_batchPut_same] at hwritten
  exact hwritten

theorem tget_threads_readReleased_other {channels : Tbl Channel} {l : Landing} {y : Nat} (h : y ≠ 8 * e + t) :
    tget (readReleased s e t b a x v w channels l).eng.threads y = tget s.eng.threads y := by
  have hwritten : tget (areaSet (batchPut s e t none) e t a v).eng.threads y = tget s.eng.threads y := by
    rw [areaSet, tget_threads_threadMod_other h, batchPut, tget_threads_threadMod_other h]
  exact hwritten

theorem clusterOf_readReleased_same {channels : Tbl Channel} {l : Landing} :
    clusterOf (readReleased s e t b a x v w channels l) b.cluster =
      { clusterOf s b.cluster with shared := tput 0#48 (clusterOf s b.cluster).shared x w } :=
  clusterOf_clusterMod_same (areaSet (batchPut s e t none) e t a v) b.cluster (fun k => { k with shared := tput 0#48 k.shared x w })

theorem clusterOf_readReleased_other {channels : Tbl Channel} {l : Landing} {y : Nat} (h : y ≠ b.cluster) :
    clusterOf (readReleased s e t b a x v w channels l) y = clusterOf s y :=
  clusterOf_clusterMod_other (areaSet (batchPut s e t none) e t a v) (fun k => { k with shared := tput 0#48 k.shared x w }) h

end

theorem batchRelease_spec : Spec.BatchRelease := by
  intro s e t b n a x hda offset tag v w hfirst hb hc hlocal hshared ha harm htables hadds hlookups hcsubs hsends hpackets hmirror
  obtain ⟨channels, ok, hrelease⟩ := batchRelease_of_read hb (by rw [hc]; rfl) hmirror
    ⟨hlocal, ha, hshared, harm, htables, hadds, hlookups, hcsubs, hsends, hpackets⟩
  have hcommitted : (batchOf s e t).any (fun b => b.committed.isSome) = true := by rw [hb, Option.any_some, hc]; rfl
  refine ⟨batchRelease s e t, ?_, ?_⟩
  · rw [← releaseInTurn_of_first hfirst]
    exact congrArg Host.Outcome.next (if_pos hcommitted)
  · rw [hrelease]
    refine ⟨readReleased_frame, threadOf_readReleased, clusterOf_readReleased_same, fun y hy => tget_threads_readReleased_other hy,
      fun y hy => clusterOf_readReleased_other hy, ?emits, ?landing⟩
    case emits => rfl
    case landing => exact ⟨_, rfl, rfl, rfl, rfl, rfl⟩

end Sys2Proof.Machine

open Sys2Proof.Machine in
/-- Settles O7: the slot is dispatched as the batch of its channel (`batchDispatch_of_channel`, `dispatch_of_begun`), and a release of
one local word, one shared word and one read is `batchRelease_of_read`. -/
theorem batches : Obligations.Batches := ⟨batchDispatch_spec, batchRelease_spec⟩

end

section
/-! The mailboxes, operation by operation (R353, R510-R514). -/

namespace Sys2Proof

theorem tset_tset_same {α : Type} (t : Tbl α) (i : Nat) (x y : α) : tset (tset t i x) i y = tset t i y := by
  induction t with
  | nil => simp [tset]
  | cons e t ih =>
    obtain ⟨k, v⟩ := e
    simp only [tset]
    split
    · simp [tset]
    · split
      · simp [tset]
      · simp [tset, *]

end Sys2Proof

namespace Sys2Proof.Machine

section
variable {s : State} {ep m off n : Nat} {fn bit : Nat} {b : Mailbox} {f g : Mailbox → Mailbox}

/-! An error of a request is logged in the endpoint and its functions alone. -/

@[simp] theorem errorCount_mbx {u : Bool} : (errorCount s ep u).mbx = s.mbx := rfl
@[simp] theorem errorSeen_mbx : (errorSeen s fn bit).mbx = s.mbx := rfl
@[simp] theorem errorMessage_mbx {k : Nat} : (errorMessage s fn k).mbx = s.mbx := by unfold errorMessage; split <;> rfl
@[simp] theorem corrLogged_mbx : (corrLogged s fn bit).mbx = s.mbx := rfl
@[simp] theorem aerCorrectable_mbx : (aerCorrectable s fn bit).mbx = s.mbx := by simp only [aerCorrectable]; split <;> simp
@[simp] theorem aerFirst_mbx {h : List Byte} : (aerFirst s fn bit h).mbx = s.mbx := by unfold aerFirst; split <;> simp
@[simp] theorem uncorrLogged_mbx {k : Nat} {h : List Byte} : (uncorrLogged s fn bit k h).mbx = s.mbx := by
  simp only [uncorrLogged]; split <;> simp
@[simp] theorem aerUncorrectable_mbx {advisory : Bool} {h : List Byte} : (aerUncorrectable s fn bit advisory h).mbx = s.mbx := by
  simp only [aerUncorrectable]; (repeat' split) <;> simp
@[simp] theorem completerAbort_mbx {bar : Nat} {write : Bool} : (completerAbort s fn bar off n write).mbx = s.mbx := by
  simp only [completerAbort, aerUncorrectable_mbx]
  rfl

/-! One pair of mailboxes. -/

theorem boxMod_eq : boxMod s m f = Spec.boxBecomes s m (f (boxOf s m)) := rfl

@[simp] theorem boxOf_boxBecomes : boxOf (Spec.boxBecomes s m b) m = b := tgetD_tset_same _ _ _ _

@[simp] theorem boxBecomes_boxBecomes {c : Mailbox} : Spec.boxBecomes (Spec.boxBecomes s m b) m c = Spec.boxBecomes s m c :=
  congrArg (fun t => { s with mbx := { s.mbx with boxes := t } }) (tset_tset_same _ _ _ _)

@[simp] theorem boxActive_boxBecomes {k : Nat} : boxActive (Spec.boxBecomes s m b) k = boxActive s k := rfl
@[simp] theorem boxOwner_boxBecomes {k : Nat} : boxOwner (Spec.boxBecomes s m b) k = boxOwner s k := rfl
@[simp] theorem boxMask_boxBecomes : boxMask (Spec.boxBecomes s m b) ep = boxMask s ep := rfl
@[simp] theorem supervisorRuns_boxBecomes : supervisorRuns (Spec.boxBecomes s m b) = supervisorRuns s := rfl
@[simp] theorem now_boxBecomes : now (Spec.boxBecomes s m b) = now s := rfl

end

/-! Writes of the host (R512, R514). -/

section
variable {s : State} {ep m off n : Nat} {f : State → State}

/-- A write of the owner, not after one that another endpoint made, is taken by an EMPTY mailbox and rejected by a full one. -/
theorem boxWrite_of_owner (hactive : boxActive s m = true) (howner : boxOwner s m = ep) (hother : (boxOf s m).rejectOther = false) :
    boxWrite s ep m off n f = if (boxOf s m).h2sFull then boxReject s ep m off n false else f s := by
  simp only [boxWrite, hactive, howner, hother, Bool.not_true, Bool.false_eq_true, if_false, ne_eq, not_true_eq_false]

theorem boxOf_boxReject : boxOf (boxReject s ep m off n false) m = { boxOf s m with reject := true } := by
  have hmbx : (boxReject s ep m off n false).mbx = _ := completerAbort_mbx
  rw [boxOf, hmbx]
  exact tgetD_tset_same _ _ _ _

theorem boxReject_counts : (boxReject s ep m off n false).mbx.rejects = s.mbx.rejects + 1 ∧
    (boxReject s ep m off n false).mbx.last = BitVec.ofNat 5 m := by
  have hmbx : (boxReject s ep m off n false).mbx = _ := completerAbort_mbx
  rw [hmbx]
  exact ⟨rfl, rfl⟩

theorem boxData_of_aligned {o : Nat} {bytes : List Byte} (hlen : bytes.length = 4 ∨ bytes.length = 8) (ho : o % bytes.length = 0) :
    boxData s ep m o bytes = boxWrite s ep m (0x240000 + 64 * m + o) bytes.length
      (fun s => boxMod s m (fun b => { b with h2s := patch b.h2s o bytes })) :=
  if_pos ⟨hlen, ho⟩

theorem filter_range_single (m : Fin 32) : (List.range 32).filter (fun k => (1#32 <<< m.val).getLsbD k) = [m.val] := by
  revert m
  decide

theorem boxRing_single {m : Fin 32} : boxRing s ep (1#32 <<< m.val) = boxWrite s ep m 0x241000 4
    (fun s => boxMod s m (fun b => { b with h2sFull := true, h2sAborted := false })) := by
  rw [boxRing, filter_range_single]
  rfl

theorem boxReleaseS2h_single {m : Fin 32} (hactive : boxActive s m = true) (howner : boxOwner s m = ep) :
    boxReleaseS2h s ep (1#32 <<< m.val) = boxMod s m (fun b => { b with s2hFull := false }) := by
  have hone : (List.range 32).filter (fun k => (1#32 <<< m.val).getLsbD k && boxOwner s k == ep && boxActive s k) = [m.val] := by
    have hpick : ∀ k, ((1#32 <<< m.val).getLsbD k && boxOwner s k == ep && boxActive s k) =
        ((boxOwner s k == ep && boxActive s k) && (1#32 <<< m.val).getLsbD k) := fun k => by
      rw [Bool.and_assoc, Bool.and_comm]
    simp only [hpick, ← List.filter_filter, filter_range_single]
    simp [hactive, howner]
  rw [boxReleaseS2h, hone]
  rfl

end

/-! Messages of the host, and the posting of replies (R511-R513). -/

section
variable {s : State} {m kind : Nat} {f : List Byte → State} {r x : List Byte}

theorem boxActive_of_boxNext (h : boxNext s = some m) : boxActive s m = true := by
  unfold boxNext at h
  split at h
  · cases h
  · have htake : boxTakeable s m = true := List.find?_some h
    simp only [boxTakeable, Bool.and_eq_true] at htake
    exact htake.2

theorem supervisorRuns_of_released (hrel : releasedOf s 6 = true) (hrestart : s.rst.restarting = false) : supervisorRuns s = true := by
  simp [supervisorRuns, hrel, hrestart]

/-- The message of the mailbox whose turn it is runs what its kind says. -/
theorem boxTake_of_next (hnext : boxNext s = some m) (hruns : supervisorRuns s = true) (hwf : boxWellFormed (boxOf s m).h2s = true)
    (hkind : leAt (boxOf s m).h2s 0 1 = kind) (hvalid : [1, 2, 3].contains kind = true) :
    boxTake s m kind f = f (boxOf s m).h2s := by
  simp only [boxTake, hnext, hruns, hwf, hkind, hvalid, ne_eq, not_true_eq_false, decide_false, Bool.not_true, Bool.or_self,
    Bool.false_eq_true, if_false, if_true]

/-- A message is posted without an interrupt where its bit masks it. -/
theorem boxPost_of_masked {b : Mailbox} (hmask : (boxMask s (boxOwner s m)).getLsbD m = true) : boxPost (Spec.boxBecomes s m b) m x =
    Spec.boxBecomes s m { b with s2h := patch x 8 (leBytes 8 (now s)), s2hFull := true } := by
  simp only [boxPost, boxMod_eq, boxOwner_boxBecomes, boxMask_boxBecomes, hmask, if_true, boxOf_boxBecomes, boxBecomes_boxBecomes,
    now_boxBecomes]

theorem boxReply_of_full (hfull : (boxOf s m).s2hFull = true) :
    boxReply s m r = Spec.boxBecomes s m { boxOf s m with heldReply := some r } := by
  simp only [boxReply, s2hPost, boxMod_eq, boxOf_boxBecomes, hfull, Bool.true_or, if_true]

theorem boxReply_of_empty (hfull : (boxOf s m).s2hFull = false) (hruns : supervisorRuns s = true) (hactive : boxActive s m = true)
    (hmask : (boxMask s (boxOwner s m)).getLsbD m = true) : boxReply s m r = Spec.boxBecomes s m { boxOf s m with
      heldReply := none, h2sFull := false, reject := false, s2hFull := true, s2h := patch r 8 (leBytes 8 (now s)) } := by
  simp only [boxReply, s2hPost, boxRelease, boxMod_eq, boxOf_boxBecomes, boxBecomes_boxBecomes, boxActive_boxBecomes,
    supervisorRuns_boxBecomes, hfull, hruns, hactive, Bool.not_true, Bool.or_self, Bool.false_eq_true, if_false, if_true]
  rw [boxPost_of_masked hmask]

theorem s2hPost_of_engine (hfull : (boxOf s m).s2hFull = false) (hruns : supervisorRuns s = true)
    (hreply : (boxOf s m).heldReply = none) (hengine : (boxOf s m).heldEngine = some x) : s2hPost s m =
      if boxActive s m then boxPost (Spec.boxBecomes s m { boxOf s m with heldEngine := none }) m x
      else { s with mbx := { s.mbx with
        boxes := tset s.mbx.boxes m { boxOf s m with heldEngine := none }, s2hLost := s.mbx.s2hLost + 1 } } := by
  simp only [s2hPost, hfull, hruns, hreply, hengine, Bool.not_true, Bool.or_self, Bool.false_eq_true, if_false, boxMod_eq,
    boxActive_boxBecomes]
  rfl

/-- A channel that has taken a message: into its inbox, or held while its slots are idle (R360). -/
def withMessage (idle : Bool) (x : Msg) (c : Channel) : Channel :=
  if idle then { c with held := c.held ++ [x] } else { c with inbox := c.inbox ++ [x] }

theorem sendChannel_of_room {source target : Nat} {tag : W16} {payload : List W48} {c : Channel} (hc : channelOf s target = some c)
    (hinbox : c.bind.inbox.isSome = true) (hdata : isControl target = false) (hroom : c.inbox.length + c.held.length < 8) :
    ∃ msg : Msg, msg.source = source ∧ msg.tag = tag ∧ msg.payload = payload ∧ sendChannel s source target tag payload =
      (channelMod s target (withMessage (channelIdle s target) msg), 0) := by
  have hgoes : ¬(c.bind.inbox.isNone || isControl target) = true := by
    rw [hdata, Bool.or_false, Bool.not_eq_true, Option.isNone_eq_false_iff]
    exact hinbox
  refine ⟨{ source := source, tag := tag, payload := payload, tick := BitVec.ofNat 48 (now s), since := nowBeats s }, rfl, rfl, rfl, ?_⟩
  simp only [sendChannel, hc]
  rw [if_neg hgoes, if_neg (Nat.not_le.mpr hroom)]
  rfl

/-- The reply to a message that its channel has taken waits for the host to release its mailbox. -/
theorem boxToChannel_of_full {c : Channel} (hnext : boxNext s = some m) (hruns : supervisorRuns s = true)
    (hwf : boxWellFormed (boxOf s m).h2s = true) (hkind : leAt (boxOf s m).h2s 0 1 = 2) (hfull : (boxOf s m).s2hFull = true)
    (hc : channelOf s (leAt (boxOf s m).h2s 4 3) = some c) (hinbox : c.bind.inbox.isSome = true)
    (hdata : isControl (leAt (boxOf s m).h2s 4 3) = false) (hroom : c.inbox.length + c.held.length < 8) :
    ∃ msg : Msg, msg.source = 0xFFFFFF ∧ msg.tag = BitVec.ofNat 16 (leAt (boxOf s m).h2s 2 2) ∧
      msg.payload = boxWords (boxOf s m).h2s ∧ boxToChannel s m =
        Spec.boxBecomes (channelMod s (leAt (boxOf s m).h2s 4 3) (withMessage (channelIdle s (leAt (boxOf s m).h2s 4 3)) msg)) m
          { boxOf s m with heldReply := some ([2, 0] ++ slice (boxOf s m).h2s 2 5 ++ zeroBytes 57) } := by
  obtain ⟨msg, hsource, htag, hpayload, hsend⟩ := sendChannel_of_room (source := 0xFFFFFF)
    (tag := BitVec.ofNat 16 (leAt (boxOf s m).h2s 2 2)) (payload := boxWords (boxOf s m).h2s) hc hinbox hdata hroom
  refine ⟨msg, hsource, htag, hpayload, ?_⟩
  rw [boxToChannel, boxTake_of_next hnext hruns hwf hkind rfl, hsend]
  exact boxReply_of_full hfull

/-- A mask that keeps every bit signals nothing. -/
theorem boxMaskWrite_of_kept {v : W32} (h : ∀ m < 32, s.mbx.mask0.getLsbD m = true → v.getLsbD m = true) :
    boxMaskWrite s 0 v = { s with mbx := { s.mbx with mask0 := v } } := by
  have hhit : (List.range 32).any (fun m =>
      (boxMask s 0).getLsbD m && !v.getLsbD m && (boxOf s m).s2hFull && boxOwner s m == 0) = false := by
    refine List.any_eq_false.mpr fun m hm => ?_
    by_cases hset : s.mbx.mask0.getLsbD m = true
    · simp [h m (List.mem_range.mp hm) hset]
    · have hclear : (boxMask s 0).getLsbD m = false := Bool.eq_false_iff.mpr hset
      simp [hclear]
  simp only [boxMaskWrite, hhit, Bool.false_eq_true, if_false, if_true]

/-! Messages of engines (R353, R513). -/

theorem supervisorMessage_of_admin (h : adminPending s = true) : supervisorMessage s = s := by
  unfold supervisorMessage
  split
  · rfl
  · rw [h, Bool.or_true, if_pos rfl]

theorem supervisorMessage_of_tagged {x : Msg} {rest : List Msg} (hq : s.eng.supQueue = x :: rest) (hruns : supervisorRuns s = true)
    (hadmin : adminPending s = false) (htag : x.tag.getLsbD 15 = true) (hactive : boxActive s (x.tag.toNat % 32) = true) :
    supervisorMessage s = if (boxOf s (x.tag.toNat % 32)).heldEngine.isSome
      then { s with eng := { s.eng with supQueue := rest }, mbx := { s.mbx with s2hLost := s.mbx.s2hLost + 1 } }
      else boxMod { s with eng := { s.eng with supQueue := rest } } (x.tag.toNat % 32)
        (fun b => { b with heldEngine := some (engineMessage x) }) := by
  have hlater : boxActive { s with eng := { s.eng with supQueue := rest } } (x.tag.toNat % 32) = true := hactive
  simp only [supervisorMessage, hq, hruns, hadmin, htag, hlater, Bool.not_true, Bool.or_self, Bool.false_or, Bool.false_eq_true,
    if_false]
  rfl

end

end Sys2Proof.Machine

open Sys2Proof Sys2Proof.Machine in
/-- Settles O41: each clause is one case of its operation, which leaves one mailbox changed (`Spec.boxBecomes`) and, for a message to
a channel, that channel with it (`withMessage`). -/
theorem mailboxes : Obligations.Mailboxes := by
  unfold Obligations.Mailboxes
  refine ⟨?host, ?supervisor, ?post, ?mask, ?engine⟩
  case host =>
    rintro s ep m b rfl hactive howner hother
    refine ⟨fun hempty => ⟨?ring, fun o bytes hlen ho => ?data⟩, fun hfull o bytes hlen ho => ?reject, ?release⟩
    case ring =>
      refine congrArg Host.Outcome.next ?_
      rw [boxRing_single, boxWrite_of_owner hactive howner hother, if_neg (Bool.eq_false_iff.mp hempty)]
      rfl
    case data =>
      refine congrArg Host.Outcome.next ?_
      rw [boxData_of_aligned hlen ho, boxWrite_of_owner hactive howner hother, if_neg (Bool.eq_false_iff.mp hempty)]
      rfl
    case reject =>
      have hreject := (boxData_of_aligned (s := s) (ep := ep.val) (m := m.val) hlen ho).trans
        ((boxWrite_of_owner hactive howner hother).trans (if_pos hfull))
      exact ⟨_, congrArg Host.Outcome.next hreject, boxOf_boxReject, boxReject_counts⟩
    case release => exact congrArg Host.Outcome.next (boxReleaseS2h_single hactive howner)
  case supervisor =>
    rintro s m b rfl hnext hrel hrestart hwf
    have hruns := supervisorRuns_of_released hrel hrestart
    have hactive := boxActive_of_boxNext hnext
    refine ⟨fun hkind hempty hmask => ?echo, fun hkind hfull => ?held, fun c hkind hfull hc hinbox hdata hroom => ?channel,
      fun hkind => ?alive⟩
    case echo =>
      refine congrArg Host.Outcome.next ?_
      rw [boxEcho, boxTake_of_next hnext hruns hwf hkind rfl, boxReply_of_empty hempty hruns hactive hmask]
      rfl
    case held =>
      refine congrArg Host.Outcome.next ?_
      rw [boxEcho, boxTake_of_next hnext hruns hwf hkind rfl, boxReply_of_full hfull]
      rfl
    case channel =>
      obtain ⟨x, hsource, htag, hpayload, htake⟩ := boxToChannel_of_full hnext hruns hwf hkind hfull hc hinbox hdata hroom
      refine ⟨_, congrArg Host.Outcome.next htake, x, ?_, hsource, htag, hpayload, boxOf_boxBecomes, rfl⟩
      exact (channelOf_channelMod_same s _ (withMessage _ x)).trans (congrArg (Option.map (withMessage _ x)) hc)
    case alive =>
      refine congrArg Host.Outcome.next ?_
      rw [boxAlive, boxTake_of_next hnext hruns hwf hkind rfl]
      rfl
  case post =>
    rintro s m b x rfl hempty hrel hrestart hreply hengine
    have hpost := s2hPost_of_engine hempty (supervisorRuns_of_released hrel hrestart) hreply hengine
    refine ⟨fun hactive hmask => congrArg Host.Outcome.next ?_, fun hidle => congrArg Host.Outcome.next ?_⟩
    · rw [hpost, if_pos hactive, boxPost_of_masked hmask]
      rfl
    · rw [hpost, if_neg (Bool.eq_false_iff.mp hidle)]
  case mask =>
    exact fun s v hkept => congrArg Host.Outcome.next (boxMaskWrite_of_kept hkept)
  case engine =>
    intro s x rest hq hrel hrestart
    refine ⟨fun hadmin => congrArg Host.Outcome.next (supervisorMessage_of_admin hadmin), fun hadmin htag => ?_⟩
    have hmessage := fun hactive => supervisorMessage_of_tagged hq (supervisorRuns_of_released hrel hrestart) hadmin htag hactive
    refine ⟨fun hactive hheld => congrArg Host.Outcome.next ?_, fun hactive hheld => congrArg Host.Outcome.next ?_⟩
    · rw [hmessage hactive, hheld]
      rfl
    · rw [hmessage hactive, if_pos hheld]

end

section
/-! The register and immediate instructions, in FULL mode and in the half modes (R364, R367, R368). -/

namespace Sys2Proof

theorem RR.plain_of_zero {f : RR} (h : f.zero = 0#23) : f.plain = true := by simp [RR.plain, h]

theorem RR.full_of_zero {f : RR} (hz : f.zero = 0#23) (hh : f.h = 0) : f.full = true := by simp [RR.full, RR.plain_of_zero hz, hh]

theorem RR.blank_of_zero {f : RR} (hz : f.zero = 0#23) (hh : f.h = 0) (hrd : f.rd = 0) (hra : f.ra = 0) (hrb : f.rb = 0) :
    f.blank = true := by
  simp [RR.blank, RR.full_of_zero hz hh, hrd, hra, hrb]

theorem RI.plain_of_zero {f : RI} (h : f.zero = 0#4) : f.plain = true := by simp [RI.plain, h]

/-! The halves of a word. -/

theorem loHalf_eq {x : W48} : loHalf x = x.extractLsb' 0 24 := by
  simp [loHalf, BitVec.extractLsb']

theorem hiHalf_eq {x : W48} : hiHalf x = x.extractLsb' 24 24 := by
  simp [hiHalf, BitVec.extractLsb', Nat.shiftRight_eq_div_pow]

theorem halves_eq {hi lo : W24} : halves hi lo = hi ++ lo := by
  have hlo := lo.isLt
  refine BitVec.eq_of_toNat_eq ?_
  rw [BitVec.toNat_append, ← Nat.shiftLeft_add_eq_or_of_lt hlo, Nat.shiftLeft_eq, halves, BitVec.toNat_ofNat]
  omega

theorem halfOp_full {o : Alu} {old x y : W48} : halfOp (0 : Fin 4).val o old x y = aluOp 6 o x y := rfl

/-- A half mode writes its halves and keeps the others. -/
theorem halfOp_of_half {h : Fin 4} {o : Alu} {old x y : W48} (hh : h ≠ 0) :
    halfOp h.val o old x y = Spec.halfWrite h old (aluOp 5 o) x y := by
  simp only [Spec.halfWrite, ← loHalf_eq, ← hiHalf_eq, ← halves_eq]
  match h, hh with
  | 1, _ => rfl
  | 2, _ => rfl
  | 3, _ => rfl

/-! The second operand of an immediate instruction. -/

theorem immOf_full {signed : Bool} {imm : W24} :
    immOf (0 : Fin 4).val signed imm = if signed then imm.signExtend 48 else imm.setWidth 48 := if_pos rfl

theorem immOf_half {h : Fin 4} {signed : Bool} {imm : W24} (hh : h ≠ 0) : immOf h.val signed imm = imm ++ imm := by
  have hval : h.val ≠ 0 := fun hval => hh (Fin.ext hval)
  rw [immOf, if_neg hval, halves_eq]

theorem toNat_setWidth_imm {imm : W24} : (imm.setWidth 48).toNat = imm.toNat := BitVec.toNat_setWidth_of_le (by decide)

/-- MOVI writes its immediate: the operation leaves it as it is. -/
theorem aluOp_or_zero {w k : Nat} {y : BitVec w} : aluOp k .or 0#w y = y := BitVec.zero_or

end Sys2Proof

namespace Sys2Proof.Machine

section
variable {s : State} {e : Fin 96} {t : Fin 8} {b : Batch} {w : W48} {l : Bool} {op n : Nat} {o : Alu} {r : Fin 32} {v : Batch → W48}
  {x : W48} {f : RR} {i : RI} {signed : Bool}

/-- An instruction that writes rd from the batch alone. -/
theorem next_issueReg (hi : Spec.Issues s e t b) (hw : Spec.fetches s e b w) (hl : l = true) (hv : v b = x) :
    (.next (issueReg s e.val t.val w l n r.val v) : Result) = .next (Spec.issued s e t b n (Spec.wrote b r x)) :=
  next_issue hi hw hl (by rw [wrote_eq, ← hv]; rfl)

theorem next_aluRR_full (hi : Spec.Issues s e t b) (hz : f.zero = 0#23) (hh : f.h = 0) (hw : Spec.fetches s e b (f.word op)) :
    (.next (aluRR op o e.val t.val f s) : Result) =
      .next (Spec.issued s e t b 1 (Spec.wrote b f.rd (aluOp 6 o (Spec.reg b f.ra) (Spec.reg b f.rb)))) := by
  rw [aluRR_eq_issueReg]
  refine next_issueReg hi hw (RR.plain_of_zero hz) ?_
  rw [hh, halfOp_full, reg_eq, reg_eq]

theorem next_aluRR_half (hi : Spec.Issues s e t b) (hz : f.zero = 0#23) (hh : f.h ≠ 0) (hw : Spec.fetches s e b (f.word op)) :
    (.next (aluRR op o e.val t.val f s) : Result) = .next (Spec.issued s e t b 1 (Spec.wrote b f.rd
      (Spec.halfWrite f.h (Spec.reg b f.rd) (aluOp 5 o) (Spec.reg b f.ra) (Spec.reg b f.rb)))) := by
  rw [aluRR_eq_issueReg]
  refine next_issueReg hi hw (RR.plain_of_zero hz) ?_
  rw [halfOp_of_half hh, reg_eq, reg_eq, reg_eq]

theorem next_aluRI_full (hi : Spec.Issues s e t b) (hz : i.zero = 0#4) (hh : i.h = 0) (hw : Spec.fetches s e b (i.word op)) :
    (.next (aluRI op o signed e.val t.val i s) : Result) = .next (Spec.issued s e t b 1 (Spec.wrote b i.rd
      (aluOp 6 o (Spec.reg b i.ra) (if signed then i.imm.signExtend 48 else i.imm.setWidth 48)))) := by
  rw [aluRI_eq_issueReg]
  refine next_issueReg hi hw (RI.plain_of_zero hz) ?_
  rw [hh, halfOp_full, immOf_full, reg_eq]

theorem next_aluRI_half (hi : Spec.Issues s e t b) (hz : i.zero = 0#4) (hh : i.h ≠ 0) (hw : Spec.fetches s e b (i.word op)) :
    (.next (aluRI op o signed e.val t.val i s) : Result) = .next (Spec.issued s e t b 1 (Spec.wrote b i.rd
      (Spec.halfWrite i.h (Spec.reg b i.rd) (aluOp 5 o) (Spec.reg b i.ra) (i.imm ++ i.imm)))) := by
  rw [aluRI_eq_issueReg]
  refine next_issueReg hi hw (RI.plain_of_zero hz) ?_
  rw [halfOp_of_half hh, immOf_half hh, reg_eq, reg_eq]

/-- An immediate shift in FULL mode goes by the immediate's own low bits. -/
theorem next_shiftRI_full {shift : W48 → Nat → W48} (ho : ∀ x y : W48, aluOp 6 o x y = shift x (y.toNat % 64))
    (hi : Spec.Issues s e t b) (hz : i.zero = 0#4) (hh : i.h = 0) (hw : Spec.fetches s e b (i.word op)) :
    (.next (aluRI op o false e.val t.val i s) : Result) =
      .next (Spec.issued s e t b 1 (Spec.wrote b i.rd (shift (Spec.reg b i.ra) (i.imm.toNat % 64)))) := by
  rw [next_aluRI_full hi hz hh hw, ho, if_neg Bool.false_ne_true, toNat_setWidth_imm]

end

/-! The three families of clauses. -/

open Spec in
theorem isaRegisterFull : IsaRegisterFull := by
  intro s e t b f hi hh hz
  have alu : ∀ {op : Nat} (o : Alu), fetches s e b (f.word op) → (.next (aluRR op o e.val t.val f s) : Result) =
      .next (issued s e t b 1 (wrote b f.rd (aluOp 6 o (reg b f.ra) (reg b f.rb)))) := fun o => next_aluRR_full hi hz hh
  refine ⟨alu .add, alu .sub, alu .and, alu .or, alu .xor, alu .andn, alu .shl, alu .shr, alu .sar, fun hw => ?mul, alu .minu,
    alu .maxu, alu .seq, alu .slt, alu .sltu, fun hw => ?sel, fun hrd hra hrb hw => ?nop⟩
  case mul => exact next_issueReg hi hw (RR.full_of_zero hz hh) (by rw [reg_eq, reg_eq])
  case sel => exact next_issueReg hi hw (RR.full_of_zero hz hh) (by rw [reg_eq, reg_eq, reg_eq, ite_not])
  case nop => exact next_issue hi hw (RR.blank_of_zero hz hh hrd hra hrb) rfl

open Spec in
theorem isaRegisterHalves : IsaRegisterHalves := by
  intro s e t b f hi hh hz
  have alu : ∀ {op : Nat} (o : Alu), fetches s e b (f.word op) → (.next (aluRR op o e.val t.val f s) : Result) =
      .next (issued s e t b 1 (wrote b f.rd (halfWrite f.h (reg b f.rd) (aluOp 5 o) (reg b f.ra) (reg b f.rb)))) :=
    fun o => next_aluRR_half hi hz hh
  exact ⟨alu .add, alu .sub, alu .and, alu .or, alu .xor, alu .andn, alu .shl, alu .shr, alu .sar, alu .minu, alu .maxu, alu .seq,
    alu .slt, alu .sltu⟩

open Spec in
theorem isaImmediates : IsaImmediates := by
  intro s e t b f hi hz
  refine ⟨fun hh => ?full, fun hh => ?half⟩
  case full =>
    have alu : ∀ {op : Nat} (o : Alu) (signed : Bool), fetches s e b (f.word op) →
        (.next (aluRI op o signed e.val t.val f s) : Result) = .next (issued s e t b 1 (wrote b f.rd
          (aluOp 6 o (reg b f.ra) (if signed then f.imm.signExtend 48 else f.imm.setWidth 48)))) :=
      fun o signed => next_aluRI_full hi hz hh
    refine ⟨alu .add true, alu .and false, alu .or false, alu .xor false, fun hw => ?shli, fun hw => ?shri, fun hw => ?sari,
      alu .seq false, alu .sltu false, fun hra hw => ?movi⟩
    case shli => exact next_shiftRI_full (shift := fun x k => x <<< k) (fun _ _ => rfl) hi hz hh hw
    case shri => exact next_shiftRI_full (shift := fun x k => x >>> k) (fun _ _ => rfl) hi hz hh hw
    case sari => exact next_shiftRI_full (shift := fun x k => x.sshiftRight k) (fun _ _ => rfl) hi hz hh hw
    case movi =>
      refine next_issueReg hi hw (by simp [RI.plain_of_zero hz, hra]) ?_
      rw [hh, halfOp_full, immOf_full, aluOp_or_zero, if_pos rfl]
  case half =>
    have alu : ∀ {op : Nat} (o : Alu) (signed : Bool), fetches s e b (f.word op) →
        (.next (aluRI op o signed e.val t.val f s) : Result) = .next (issued s e t b 1 (wrote b f.rd
          (halfWrite f.h (reg b f.rd) (aluOp 5 o) (reg b f.ra) (f.imm ++ f.imm)))) :=
      fun o signed => next_aluRI_half hi hz hh
    refine ⟨alu .add true, alu .and false, alu .or false, alu .xor false, alu .shl false, alu .shr false, alu .sar false,
      alu .seq false, alu .sltu false, fun hra hw => ?movi⟩
    refine next_issueReg hi hw (by simp [RI.plain_of_zero hz, hra]) ?_
    rw [halfOp_of_half hh, immOf_half hh, reg_eq]
    have hzero : ∀ k, (0#48).extractLsb' k 24 = 0#24 := by intro k; simp
    simp only [halfWrite, hzero, aluOp_or_zero]

end Sys2Proof.Machine

open Sys2Proof.Machine in
/-- Settles O1: an instruction that writes rd from the batch alone issues as such (`next_issueReg`), and each mode's operation is that
of the table. -/
theorem isaRegisters : Obligations.IsaRegisters := ⟨isaRegisterFull, isaRegisterHalves, isaImmediates⟩

end

section
/-! The bit-field instructions, and the unused fields of format X (R366, R368). -/

namespace Sys2Proof

/-- A mask of low bits keeps just the numbers below it. -/
theorem within_low {k n : Nat} : within (2 ^ k - 1) n = true ↔ n < 2 ^ k := by
  have hmask : Nat.land n (2 ^ k - 1) = n % 2 ^ k := Nat.and_two_pow_sub_one_eq_mod n k
  rw [within, hmask, beq_iff_eq]
  exact Nat.mod_eq_iff_lt (Nat.ne_of_gt (Nat.two_pow_pos k))

/-- A format X instruction that uses the low bits of IMM. -/
theorem XF.ok_low {f : XF} {rd ra rb : Bool} (k : Nat) : f.ok rd ra rb (2 ^ k - 1) = true ↔
    (rd = true ∨ f.rd = 0) ∧ (ra = true ∨ f.ra = 0) ∧ (rb = true ∨ f.rb = 0) ∧ f.imm.toNat < 2 ^ k := by
  simp only [XF.ok, Bool.and_eq_true, Bool.or_eq_true, beq_iff_eq, within_low, and_assoc]

/-- A format X instruction that uses no bit of IMM. -/
theorem XF.ok_none {f : XF} {rd ra rb : Bool} (hrd : rd = true ∨ f.rd = 0) (hra : ra = true ∨ f.ra = 0) (hrb : rb = true ∨ f.rb = 0)
    (himm : f.imm = 0#25) : f.ok rd ra rb 0 = true :=
  (XF.ok_low 0).mpr ⟨hrd, hra, hrb, by rw [himm]; exact Nat.one_pos⟩

end Sys2Proof

namespace Sys2Proof.Machine

/-! EXT and INS. -/

section
variable {f : XF}

/-- A field that ends within the word leaves the bits of IMM above WIDTH clear. -/
theorem extWidth_eq (h : extPos f + f.imm.toNat / 64 ≤ 48) : extWidth f = f.imm.toNat / 64 := by
  unfold extWidth
  omega

theorem extOk_of_fits (hrb : f.rb = 0) (hpos : 1 ≤ f.imm.toNat / 64) (hfit : extPos f + f.imm.toNat / 64 ≤ 48) : extOk f = true := by
  have hused : f.ok true true false 0xFFF = true := (XF.ok_low 12).mpr ⟨.inl rfl, .inl rfl, .inr hrb, by omega⟩
  rw [extOk, hused, extWidth_eq hfit]
  simp [hpos, hfit]

end

theorem fieldN_eq_ushiftRight {x : W48} {pos width : Nat} :
    BitVec.ofNat 48 (fieldN x.toNat pos width) = (x >>> pos) &&& BitVec.ofNat 48 (2 ^ width - 1) := by
  refine BitVec.eq_of_getLsbD_eq fun i hi => ?_
  simp only [BitVec.getLsbD_ofNat, BitVec.getLsbD_and, BitVec.getLsbD_ushiftRight, fieldN, Nat.testBit_mod_two_pow,
    Nat.testBit_div_two_pow, Nat.testBit_two_pow_sub_one, BitVec.testBit_toNat, hi, decide_true, Bool.true_and, Nat.add_comm,
    Bool.and_comm]

/-- The bits of a number with a field replaced. -/
theorem testBit_insField {o v pos width i : Nat} :
    (o % 2 ^ pos + v % 2 ^ width * 2 ^ pos + o / 2 ^ (pos + width) * 2 ^ (pos + width)).testBit i =
      if pos ≤ i ∧ i < pos + width then v.testBit (i - pos) else o.testBit i := by
  have hlow : o % 2 ^ pos < 2 ^ pos := Nat.mod_lt _ (Nat.two_pow_pos pos)
  have hmid : 2 ^ pos * (v % 2 ^ width) + o % 2 ^ pos < 2 ^ (pos + width) := by
    have hfield : v % 2 ^ width + 1 ≤ 2 ^ width := Nat.mod_lt _ (Nat.two_pow_pos width)
    calc 2 ^ pos * (v % 2 ^ width) + o % 2 ^ pos < 2 ^ pos * (v % 2 ^ width + 1) := by rw [Nat.mul_add_one]; omega
      _ ≤ 2 ^ pos * 2 ^ width := Nat.mul_le_mul_left _ hfield
      _ = 2 ^ (pos + width) := (Nat.pow_add 2 pos width).symm
  have hsum : o % 2 ^ pos + v % 2 ^ width * 2 ^ pos + o / 2 ^ (pos + width) * 2 ^ (pos + width) =
      2 ^ (pos + width) * (o / 2 ^ (pos + width)) + (2 ^ pos * (v % 2 ^ width) + o % 2 ^ pos) := by
    rw [Nat.mul_comm (v % 2 ^ width), Nat.mul_comm (o / 2 ^ (pos + width)), Nat.add_comm (o % 2 ^ pos), Nat.add_comm]
  rw [hsum, Nat.testBit_two_pow_mul_add _ hmid, Nat.testBit_two_pow_mul_add _ hlow, Nat.testBit_mod_two_pow, Nat.testBit_mod_two_pow,
    Nat.testBit_div_two_pow]
  obtain hbelow | hinside | habove : i < pos ∨ pos ≤ i ∧ i < pos + width ∨ pos + width ≤ i := by omega
  · have hfirst : i < pos + width := by omega
    rw [if_pos hfirst, if_pos hbelow, decide_eq_true hbelow, Bool.true_and, if_neg (fun h => Nat.not_le.mpr hbelow h.1)]
  · have hplace : i - pos < width := by omega
    have hnot : ¬i < pos := by omega
    rw [if_pos hinside.2, if_neg hnot, decide_eq_true hplace, Bool.true_and, if_pos hinside]
  · have hlast : ¬i < pos + width := by omega
    rw [if_neg hlast, Nat.sub_add_cancel habove, if_neg (fun h => hlast h.2)]

/-- The mask of a field has the bits between its ends. -/
theorem getLsbD_fieldMask {pos width i : Nat} (hi : i < 48) :
    (BitVec.ofNat 48 ((2 ^ width - 1) * 2 ^ pos)).getLsbD i = decide (pos ≤ i ∧ i < pos + width) := by
  rw [BitVec.getLsbD_ofNat, ← Nat.shiftLeft_eq, Nat.testBit_shiftLeft, Nat.testBit_two_pow_sub_one, decide_eq_true hi, Bool.true_and,
    ← Bool.decide_and, decide_eq_decide]
  omega

/-- Bit by bit a replaced field is the new value between its ends and the old word outside them. -/
theorem insField_eq {old x : W48} {pos width : Nat} :
    insField old pos width x.toNat = (old &&& ~~~BitVec.ofNat 48 ((2 ^ width - 1) * 2 ^ pos)) |||
      ((x <<< pos) &&& BitVec.ofNat 48 ((2 ^ width - 1) * 2 ^ pos)) := by
  refine BitVec.eq_of_getLsbD_eq fun i hi => ?_
  rw [insField, BitVec.getLsbD_ofNat, testBit_insField, BitVec.getLsbD_or, BitVec.getLsbD_and, BitVec.getLsbD_and, BitVec.getLsbD_not,
    getLsbD_fieldMask hi, BitVec.getLsbD_shiftLeft, decide_eq_true hi]
  by_cases hinside : pos ≤ i ∧ i < pos + width
  · have hnot : ¬i < pos := by omega
    simp [hinside, hnot, BitVec.testBit_toNat]
  · simp [hinside, BitVec.testBit_toNat]

/-! CLZ, POPC and BSWAP. -/

/-- The place above the highest set bit of the low `n` bits. -/
def topBit (x : W48) (n : Nat) : Nat := (List.range n).foldl (fun m i => if x.getLsbD i then i + 1 else m) 0

theorem topBit_succ {x : W48} {n : Nat} : topBit x (n + 1) = if x.getLsbD n then n + 1 else topBit x n := by
  rw [topBit, List.range_succ, List.foldl_append]
  rfl

theorem topBit_le {x : W48} {n : Nat} : topBit x n ≤ n := by
  induction n with
  | zero => exact Nat.le_refl 0
  | succ n ih => rw [topBit_succ]; split <;> omega

/-- No bit from that place up is set. -/
theorem getLsbD_of_topBit_le {x : W48} {n i : Nat} (hi : topBit x n ≤ i) (hn : i < n) : x.getLsbD i = false := by
  induction n with
  | zero => omega
  | succ n ih =>
    rw [topBit_succ] at hi
    split at hi
    · omega
    · obtain rfl | hlt : i = n ∨ i < n := by omega
      · exact Bool.eq_false_iff.mpr ‹_›
      · exact ih hi hlt

/-- The bit below that place is set. -/
theorem getLsbD_topBit_pred {x : W48} {n : Nat} (h : 0 < topBit x n) : x.getLsbD (topBit x n - 1) = true := by
  induction n with
  | zero => exact absurd h (Nat.lt_irrefl 0)
  | succ n ih =>
    rw [topBit_succ] at h ⊢
    split
    · simpa
    · rw [if_neg ‹_›] at h
      exact ih h

theorem leadingZeros_eq {x : W48} : leadingZeros x = 48 - topBit x 48 := rfl

theorem getMsbD_of_lt_leadingZeros {x : W48} {i : Nat} (hi : i < leadingZeros x) : x.getMsbD i = false := by
  rw [leadingZeros_eq] at hi
  rw [BitVec.getMsbD, getLsbD_of_topBit_le (n := 48) (by omega) (by omega), Bool.and_false]

theorem getMsbD_leadingZeros {x : W48} (h : leadingZeros x < 48) : x.getMsbD (leadingZeros x) = true := by
  rw [leadingZeros_eq] at h
  have htop : topBit x 48 ≤ 48 := topBit_le
  have hplace : 48 - 1 - leadingZeros x = topBit x 48 - 1 := by rw [leadingZeros_eq]; omega
  rw [BitVec.getMsbD, hplace, getLsbD_topBit_pred (by omega), leadingZeros_eq, decide_eq_true h, Bool.and_true]

theorem popCount_eq {x : W48} : popCount x = (List.range 48).countP (fun i => x.getLsbD i) := (List.countP_eq_length_filter ..).symm

theorem leVal_reverse {l : List Byte} : leVal l.reverse = beVal l := by
  have hval : ∀ l : List Byte, beVal l.reverse = leVal l := fun l => by
    rw [beVal, List.foldl_reverse]
    induction l with
    | nil => rfl
    | cons x l ih => rw [List.foldr_cons, ih, leVal]; omega
  rw [← hval, List.reverse_reverse]

/-! The instructions. -/

section
variable {s : State} {e : Fin 96} {t : Fin 8} {b : Batch} {f : XF}

theorem exec_ext (hi : Spec.Issues s e t b) (hok : extOk f = true) (hw : Spec.fetches s e b (f.word 0x30)) :
    exec (.ext e t f) s = .next (Spec.issued s e t b 1 (Spec.wrote b f.rd
      ((Spec.reg b f.ra >>> extPos f) &&& BitVec.ofNat 48 (2 ^ extWidth f - 1)))) :=
  next_issueReg hi hw hok (by rw [fieldN_eq_ushiftRight, reg_eq])

theorem exec_ins (hi : Spec.Issues s e t b) (hok : extOk f = true) (hw : Spec.fetches s e b (f.word 0x31)) :
    exec (.ins e t f) s = .next (Spec.issued s e t b 1 (Spec.wrote b f.rd
      ((Spec.reg b f.rd &&& ~~~BitVec.ofNat 48 ((2 ^ extWidth f - 1) * 2 ^ extPos f)) |||
        ((Spec.reg b f.ra <<< extPos f) &&& BitVec.ofNat 48 ((2 ^ extWidth f - 1) * 2 ^ extPos f))))) :=
  next_issueReg hi hw hok (by rw [insField_eq, reg_eq, reg_eq])

end

end Sys2Proof.Machine

open Sys2Proof Sys2Proof.Machine in
/-- Settles O2: each instruction writes rd from the batch alone (`next_issueReg`), and what it writes is the table's value
(`fieldN_eq_ushiftRight`, `insField_eq`, `getMsbD_leadingZeros`, `leVal_reverse`). -/
theorem isaBitFields : Obligations.IsaBitFields := by
  unfold Obligations.IsaBitFields
  intro s e t b f hi hrb
  refine ⟨fun hwidth hfit => ?fields, fun himm => ?counts⟩
  case fields =>
    have hok := extOk_of_fits hrb hwidth hfit
    rw [← extWidth_eq hfit]
    exact ⟨exec_ext hi hok, exec_ins hi hok⟩
  case counts =>
    have hone : f.ok true true false 0 = true := XF.ok_none (.inl rfl) (.inl rfl) (.inr hrb) himm
    refine ⟨fun hw => ?clz, fun hw => ?popc, fun hw => ?bswap, fun hw => ?hash, fun hra => ?clocks⟩
    case clz =>
      exact ⟨leadingZeros (Spec.reg b f.ra), next_issueReg hi hw hone (by rw [reg_eq]), Nat.sub_le _ _,
        fun i => getMsbD_of_lt_leadingZeros, getMsbD_leadingZeros⟩
    case popc => exact next_issueReg hi hw hone (by rw [popCount_eq, reg_eq])
    case bswap => exact next_issueReg hi hw hone (by rw [beBytes, leVal_reverse, reg_eq])
    case hash => exact next_issueReg hi hw hone (by rw [reg_eq, reg_eq, BitVec.ofNat_toNat])
    case clocks =>
      have hnone : f.ok true false false 0 = true := XF.ok_none (.inl rfl) (.inr hra) (.inr hrb) himm
      refine ⟨fun hw => next_issueReg hi hw hnone ?_, fun hw => next_issueReg hi hw hnone rfl⟩
      rw [now, BitVec.ofNat_toNat]

end

section
/-! The control instructions (R79, R364, R380, R382, R383). -/

namespace Sys2Proof

theorem BF.ok_of_zero {f : BF} (hz : f.zero = 0#5) (hm : f.mid = 0#10) : f.ok = true := by simp [BF.ok, hz, hm]

theorem LF.ok_of_zero {f : LF} (hz : f.zero = 0#17) (hc : f.count ≠ 0#8) (hb : f.body ≠ 0#15) : f.ok = true := by
  simp [LF.ok, hz, hc, hb]

/-- BIT of BBS and BBC is RB with the top bit of the field below it. -/
theorem BF.bit_eq {f : BF} : (BitVec.ofNat 5 f.rb.val ++ f.mid.extractLsb' 9 1).toNat = f.bit := by
  have hrb := f.rb.isLt
  have hmid := f.mid.isLt
  have htop : f.mid.toNat / 2 ^ 9 < 2 ^ 1 := by omega
  rw [BitVec.toNat_append, BitVec.toNat_ofNat, BitVec.extractLsb'_toNat, Nat.shiftRight_eq_div_pow, Nat.mod_eq_of_lt htop,
    ← Nat.shiftLeft_add_eq_or_of_lt htop, Nat.shiftLeft_eq, BF.bit, Nat.mod_eq_of_lt hrb]

theorem BF.bitOk_of_zero {f : BF} (hz : f.zero = 0#5) (hm : f.mid.extractLsb' 0 9 = 0#9) (hbit : f.bit < 48) : f.bitOk = true := by
  have hlow : f.mid.toNat % 512 = 0 := by simpa using congrArg BitVec.toNat hm
  simp [BF.bitOk, hz, hlow, hbit]

end Sys2Proof

namespace Sys2Proof.Machine

section
variable {s s' : State} {e : Fin 96} {t : Fin 8} {b b' : Batch} {w : W48} {l : Bool} {n : Batch → Nat} {f : Batch → Issued}

/-- A legal instruction that goes on leaves the state and the batch that its effect names. -/
theorem next_issue_next (hi : Spec.Issues s e t b) (hw : Spec.fetches s e b w) (hl : l = true) (hf : f b = .next s' b') :
    (.next (issue s e.val t.val w l n f) : Result) =
      .next (batchPut s' e.val t.val (some { b' with slot := b.slot + n b })) :=
  next_issue hi hw hl (by rw [hf]; rfl)

end

/-! Branches. -/

theorem branched_eq {b : Batch} {target : Nat} : Spec.branched b target = jump b target := rfl

section
variable {s : State} {e : Fin 96} {t : Fin 8} {b : Batch} {w : W48} {l : Bool} {disp op : Nat} {taken : Batch → Bool} {f : BF}
  {p : Prop} [Decidable p]

/-- A legal branch is taken where its condition holds. -/
theorem next_branch (hi : Spec.Issues s e t b) (hw : Spec.fetches s e b w) (hl : l = true) (ht : taken b = true ↔ p) :
    (.next (branch e.val t.val w l disp taken s) : Result) =
      .next (Spec.issued s e t b 1 (if p then Spec.branched b (b.pc + 1 + disp) else Spec.nextPc b)) := by
  refine next_issue hi hw hl ?_
  by_cases hp : p
  · rw [if_pos hp, if_pos (ht.mpr hp)]
    rfl
  · rw [if_neg hp, if_neg (fun h => hp (ht.mp h))]
    rfl

theorem next_compareBranch {c : W48 → W48 → Bool} (hi : Spec.Issues s e t b) (hz : f.zero = 0#5) (hm : f.mid = 0#10)
    (hc : c (Spec.reg b f.ra) (Spec.reg b f.rb) = true ↔ p) (hw : Spec.fetches s e b (f.word op)) :
    (.next (compareBranch op c e.val t.val f s) : Result) =
      .next (Spec.issued s e t b 1 (if p then Spec.branched b (b.pc + 1 + f.disp.toNat) else Spec.nextPc b)) := by
  rw [reg_eq, reg_eq] at hc
  exact next_branch hi hw (BF.ok_of_zero hz hm) hc

theorem next_bitBranch {set : Bool} (hi : Spec.Issues s e t b) (hz : f.zero = 0#5) (hm : f.mid.extractLsb' 0 9 = 0#9)
    (hbit : f.bit < 48) (hw : Spec.fetches s e b (f.word op)) : (.next (bitBranch op set e.val t.val f s) : Result) =
      .next (Spec.issued s e t b 1 (if (Spec.reg b f.ra).getLsbD f.bit = set
        then Spec.branched b (b.pc + 1 + f.disp.toNat) else Spec.nextPc b)) :=
  next_branch hi hw (BF.bitOk_of_zero hz hm hbit) (by rw [reg_eq, beq_iff_eq])

end

/-! JT. -/

section
variable {s : State} {e : Fin 96} {t : Fin 8} {b : Batch} {f : XF} {p : Program} {x : Nat}

theorem jt_ok (hrd : f.rd = 0) (hrb : f.rb = 0) (himm : f.imm.toNat < 256) : f.ok false true false 0xFF = true :=
  (XF.ok_low 8).mpr ⟨.inr hrd, .inl rfl, .inr hrb, himm⟩

/-- JT goes to the entry that its table has at ra. -/
theorem exec_jt_entry (hi : Spec.Issues s e t b) (hrd : f.rd = 0) (hrb : f.rb = 0) (himm : f.imm.toNat < 256)
    (hp : tget (clusterOf s (e.val / 12)).programs b.program = some p)
    (hx : (tgetD p.tables f.imm.toNat [])[(Spec.reg b f.ra).toNat]? = some x) (hw : Spec.fetches s e b (f.word 0x8A)) :
    exec (.jt e t f) s = .next (Spec.issued s e t b 2 (Spec.branched b (b.entry + x))) := by
  rw [reg_eq] at hx
  exact next_issue_next hi hw (jt_ok hrd hrb himm) (by simp only [hp, Option.map_some, Option.getD_some, hx, branched_eq])

/-- Beyond its table it faults. -/
theorem exec_jt_beyond (hi : Spec.Issues s e t b) (hrd : f.rd = 0) (hrb : f.rb = 0) (himm : f.imm.toNat < 256)
    (hp : tget (clusterOf s (e.val / 12)).programs b.program = some p)
    (hx : (tgetD p.tables f.imm.toNat []).length ≤ (Spec.reg b f.ra).toNat) (hw : Spec.fetches s e b (f.word 0x8A)) :
    exec (.jt e t f) s = .next (threadFault s e.val t.val 0x04) := by
  rw [reg_eq] at hx
  refine next_issue hi hw (jt_ok hrd hrb himm) ?_
  simp only [hp, Option.map_some, Option.getD_some, List.getElem?_eq_none hx]
  rfl

/-- An encoding that IMM's unused bits spoil faults. -/
theorem exec_jt_illegal (hi : Spec.Issues s e t b) (himm : 256 ≤ f.imm.toNat) (hw : Spec.fetches s e b (f.word 0x8A)) :
    exec (.jt e t f) s = .next (threadFault s e.val t.val 0x01) := by
  obtain ⟨hb, hc, hs, hgood⟩ := hi
  have hill : ¬f.ok false true false 0xFF = true := fun hok => by
    obtain ⟨-, -, -, hlow⟩ := (XF.ok_low 8).mp hok
    omega
  refine congrArg Host.Outcome.next ((issue_of_running hb hc hs (.inl hw)).trans ?_)
  rw [if_neg hgood, if_neg (fun h => hill h.2)]

end

/-! The commit point: packets go back in taken order. -/

section
variable {s : State} {ch : Nat} {c : Channel} {x : Nat × Option Nat}

/-- The packets of a list that were taken from the FIFO. -/
def fromFifo (xs : List (Nat × Option Nat)) : List Nat := (xs.filter (fun x => x.2.isNone)).map (·.1)

theorem packetBack_of_channel (hdata : isControl ch = false) (hc : channelOf s ch = some c) :
    ∃ pkts channels, packetBack s ch x = { s with crb := { s.crb with pkts := pkts }, eng := { s.eng with channels := channels } } ∧
      tget channels ch = some { c with fifo := fromFifo [x] ++ c.fifo } := by
  obtain ⟨id, kept⟩ := x
  cases kept with
  | some k => exact ⟨_, _, rfl, hc⟩
  | none =>
    have hfifo : fifoOf (pktMod s id (fun p => { p with stage := .engine ch })) ch = c.fifo := by
      have hthere : channelOf (pktMod s id (fun p => { p with stage := .engine ch })) ch = some c := hc
      rw [fifoOf, hdata, hthere]
      rfl
    simp only [packetBack, fifoSet, hdata, hfifo, Bool.false_eq_true, if_false]
    exact ⟨_, _, rfl, (channelOf_channelMod_same s ch (fun c' => { c' with fifo := id :: c.fifo })).trans (by rw [hc]; rfl)⟩

/-- Those taken from the FIFO are its head again. -/
theorem packetsBack_of_channel {xs : List (Nat × Option Nat)} (hdata : isControl ch = false) (hc : channelOf s ch = some c) :
    ∃ pkts channels, packetsBack s ch xs = { s with crb := { s.crb with pkts := pkts }, eng := { s.eng with channels := channels } } ∧
      tget channels ch = some { c with fifo := fromFifo xs ++ c.fifo } := by
  rw [packetsBack, List.foldl_reverse]
  induction xs with
  | nil => exact ⟨_, _, rfl, hc⟩
  | cons x xs ih =>
    obtain ⟨pkts, channels, hxs, hafter⟩ := ih
    rw [List.foldr_cons, hxs]
    obtain ⟨pkts', channels', hx, hfifo⟩ := packetBack_of_channel (x := x)
      (s := { s with crb := { s.crb with pkts := pkts }, eng := { s.eng with channels := channels } }) hdata hafter
    refine ⟨pkts', channels', hx, hfifo.trans ?_⟩
    simp only [fromFifo, List.filter_cons, List.filter_nil]
    split <;> rfl

/-- What a batch wrote into its packets' frames changes the packets alone. -/
theorem foldl_pktMod_state {α : Type} (l : List α) (id : α → Nat) (g : α → Packet → Packet) :
    ∃ pkts, l.foldl (fun s h => pktMod s (id h) (g h)) s = { s with crb := { s.crb with pkts := pkts } } := by
  induction l generalizing s with
  | nil => exact ⟨_, rfl⟩
  | cons h l ih =>
    obtain ⟨pkts, hl⟩ := ih (s := pktMod s (id h) (g h))
    exact ⟨pkts, hl⟩

end

section
variable {s : State} {e : Nat} {b : Batch} {c : Channel}

/-- The packets that a batch took and did not dispose of. -/
def undisposed (b : Batch) : List (Nat × Option Nat) := b.taken.filter (fun x => b.handles.any (fun h => h.2.pkt == x.1))

/-- A batch without a packet in hand gives none back. -/
theorem commitPoint_of_no_handles (hgoes : b.doomed = false) (hnone : b.handles = []) : commitPoint s e b =
    .next (engineMod (channelMod s b.channel (fun c => { c with inbox := c.inbox.drop b.msgs })) e
      (fun x => { x with batches := x.batches + 1#64 })) { b with committed := some s.tmb.tick.toNat } := by
  have hleft : b.taken.filter (fun _ => false) = [] := List.filter_eq_nil_iff.mpr fun _ _ => Bool.false_ne_true
  simp only [commitPoint, hgoes, hnone, List.any_nil, hleft, packetsBack, List.reverse_nil, List.foldl_nil,
    Bool.false_eq_true, if_false]
  rw [← hnone]
  rfl

theorem commitPoint_of_channel (hgoes : b.doomed = false) (hdata : isControl b.channel = false)
    (hc : channelOf s b.channel = some c) : ∃ pkts channels, commitPoint s e b = .next
      (engineMod (channelMod { s with crb := { s.crb with pkts := pkts }, eng := { s.eng with channels := channels } } b.channel
        (fun c => { c with inbox := c.inbox.drop b.msgs })) e (fun x => { x with batches := x.batches + 1#64 }))
      { b with handles := [], committed := some s.tmb.tick.toNat } ∧
      tget channels b.channel = some { c with fifo := fromFifo (undisposed b) ++ c.fifo } := by
  obtain ⟨pkts, hframes⟩ := foldl_pktMod_state (s := s) b.handles (·.2.pkt) (fun h p =>
    { p with bytes := h.2.bytes.take (h.2.bytes.length - 4), fcs := BitVec.ofNat 32 (leAt h.2.bytes (h.2.bytes.length - 4) 4) })
  obtain ⟨pkts', channels, hback, hfifo⟩ := packetsBack_of_channel (xs := undisposed b)
    (s := { s with crb := { s.crb with pkts := pkts } }) hdata hc
  refine ⟨pkts', channels, ?_, hfifo⟩
  unfold undisposed at hback
  simp only [commitPoint, hgoes, hframes, hback, Bool.false_eq_true, if_false]
  rfl

end

/-! The two families of clauses. -/

open Spec in
theorem isaBranches : IsaBranches := by
  intro s e t b f hi hz
  refine ⟨fun hmid => ?compare, fun hmid => ?bit⟩
  case compare =>
    have go : ∀ {op : Nat} {c : W48 → W48 → Bool} {p : Prop} [Decidable p], (c (reg b f.ra) (reg b f.rb) = true ↔ p) →
        fetches s e b (f.word op) → (.next (compareBranch op c e.val t.val f s) : Result) =
          .next (issued s e t b 1 (if p then branched b (b.pc + 1 + f.disp.toNat) else nextPc b)) :=
      next_compareBranch hi hz hmid
    refine ⟨fun hra hrb hw => ?br, go beq_iff_eq, go bne_iff_ne, go BitVec.slt_iff_toInt_lt, go BitVec.ult_iff_toNat_lt,
      go BitVec.sle_iff_toInt_le, go BitVec.ule_iff_toNat_le⟩
    exact next_branch hi hw (by simp [BF.ok_of_zero hz hmid, hra, hrb]) (iff_of_true rfl trivial)
  case bit =>
    rw [BF.bit_eq]
    exact fun hbit => ⟨next_bitBranch hi hz hmid hbit, next_bitBranch hi hz hmid hbit⟩

open Spec in
theorem isaLoopJumpCommit : IsaLoopJumpCommit := by
  intro s e t b hi
  refine ⟨fun f hz hcount hbody hw => ?loop, fun f p x hrd hrb himm hp hx => exec_jt_entry hi hrd hrb himm hp hx,
    fun f hf hgoes hnone hw => ?empty, fun f c hf hgoes hch hc hw => ?full⟩
  case loop => exact next_issue hi hw (LF.ok_of_zero hz hcount hbody) rfl
  case empty =>
    subst hf
    refine next_issue hi hw rfl ?_
    rw [commitPoint_of_no_handles hgoes hnone]
    rfl
  case full =>
    subst hf
    have hdata : isControl b.channel = false := decide_eq_false (Nat.not_le.mpr hch)
    obtain ⟨pkts, channels, hcommit, hfifo⟩ := commitPoint_of_channel (e := e.val) hgoes hdata hc
    refine ⟨_, next_issue_next hi hw rfl hcommit, rfl, batchOf_batchPut_same .., ?_, ?_⟩
    · exact congrArg Engine.batches (tgetD_tmod_same Engine.reset s.eng.engines e.val (fun x => { x with batches := x.batches + 1#64 }))
    · refine (tget_tadj_same channels b.channel (fun c => { c with inbox := c.inbox.drop b.msgs })).trans ?_
      rw [hfifo, fromFifo, undisposed, List.filter_filter]
      rfl

end Sys2Proof.Machine

open Sys2Proof Sys2Proof.Machine in
/-- Settles O3: a branch is taken where its condition holds (`next_branch`), and the commit point gives back what the batch did not
dispose of (`packetsBack_of_channel`). -/
theorem isaControl : Obligations.IsaControl := ⟨isaBranches, isaLoopJumpCommit⟩

open Sys2Proof Sys2Proof.Machine in
/-- Settles O57: an entry of the table, a place beyond it, and an encoding that its unused bits spoil. -/
theorem jumpTable : Obligations.JumpTable := by
  unfold Obligations.JumpTable
  intro s e t b f p hi hp hrd hrb
  refine ⟨fun himm x hx hw => ?entry, fun himm hout hw => ?beyond, fun himm hw => exec_jt_illegal hi himm hw⟩
  case entry =>
    rw [Nat.mod_eq_of_lt himm] at hx
    exact exec_jt_entry hi hrd hrb himm hp hx hw
  case beyond =>
    rw [Nat.mod_eq_of_lt himm] at hout
    exact exec_jt_beyond hi hrd hrb himm hp hout hw

end

section
/-! The packet instructions: handles, bytes, dispositions and emits (R366, R370-R374). -/

namespace Sys2Proof

/-- A format P instruction that uses the low bits of IMM. -/
theorem PF.ok_low {f : PF} {rd ra handle : Bool} (k : Nat) : f.ok rd ra handle (2 ^ k - 1) = true ↔ f.zero = 0#2 ∧
    (rd = true ∨ f.rd = 0) ∧ (ra = true ∨ f.ra = 0) ∧ (handle = true ∨ f.handle = 0) ∧ f.imm.toNat < 2 ^ k := by
  simp only [PF.ok, Bool.and_eq_true, Bool.or_eq_true, beq_iff_eq, within_low, and_assoc]

/-- A format P instruction that uses no bit of IMM. -/
theorem PF.ok_none {f : PF} {rd ra handle : Bool} (hz : f.zero = 0#2) (hrd : rd = true ∨ f.rd = 0) (hra : ra = true ∨ f.ra = 0)
    (hhandle : handle = true ∨ f.handle = 0) (himm : f.imm = 0#24) : f.ok rd ra handle 0 = true :=
  (PF.ok_low 0).mpr ⟨hz, hrd, hra, hhandle, by rw [himm]; exact Nat.one_pos⟩

theorem firstBelow_eq_some {n k : Nat} {p : Nat → Bool} (hk : k < n) (hp : p k = true) (hlow : ∀ j < k, p j = false) :
    firstBelow n p = some k := by
  exact List.find?_range_eq_some.mpr ⟨hp, List.mem_range.mpr hk, fun j hj => by rw [hlow j hj]; rfl⟩

theorem fieldN_zero {x n : Nat} : fieldN x 0 n = x % 2 ^ n := by rw [fieldN, Nat.pow_zero, Nat.div_one]

/-- A bit of a word as the model reads it from the number. -/
theorem bitN_toNat {w : Nat} {x : BitVec w} {i : Nat} : bitN x.toNat i = x.getLsbD i := by
  rw [bitN, BitVec.getLsbD, Nat.testBit_eq_decide_div_mod_eq]
  rfl

end Sys2Proof

namespace Sys2Proof.Machine

/-! The statements' names of a batch's packets in the model. -/

section
variable {s : State} {e : Fin 96} {t : Fin 8} {b : Batch} {a n : Nat} {f : PF} {h : Fin 16} {x : PktEffect}

theorem disposed_eq : Spec.disposed b h x = dispose b h.val x := rfl

theorem pktOffset_eq : (Spec.reg b f.ra + BitVec.ofNat 48 (f.imm.toNat % 2 ^ 14)).toNat = pktOffset b f := by
  rw [reg_eq, pktOffset]

theorem localRun_eq : Spec.localRun s e t b a n = (List.range n).map (fun i => localGet s e.val t.val b (a + i)) := by
  simp only [Spec.localRun, localWord_eq]

theorem localWords_of_le (h : a + n ≤ 8192) : localWords s e.val t.val b a n = some (Spec.localRun s e t b a n) := by
  rw [localWords, if_pos h, localRun_eq]

theorem localRun_getD {i : Nat} (h : i < n) : (Spec.localRun s e t b a n).getD i 0#48 = Spec.localWord s e t b (a + i) := by
  simp [Spec.localRun, h]

end

/-! TAKE and TAKEK (R370). -/

section
variable {s : State} {b : Batch} {h rd id : Nat} {kept : Option Nat} {p : Packet}

/-- A batch that has taken a packet into a handle. -/
def taking (b : Batch) (h id : Nat) (p : Packet) (kept : Option Nat) : Batch :=
  { b with handles := tset b.handles h { pkt := id, bytes := frameBytes p, keptFrom := kept }, taken := b.taken ++ [(id, kept)] }

theorem handleFill_of_packet (hp : pktOf s id = some p) : handleFill s b h rd id kept =
    .next (pktMod s id (fun p => { p with stage := .handle b.channel h }))
      (fall (regSet (taking b h id p kept) rd (BitVec.ofNat 48 (p.bytes.length + 4)))) := by
  simp only [handleFill, hp]
  rfl

@[simp] theorem pktOf_fifoSet {ch : Nat} {l : List Nat} : pktOf (fifoSet s ch l) id = pktOf s id := by
  unfold fifoSet
  split <;> rfl

end

section
variable {s : State} {e : Fin 96} {t : Fin 8} {b : Batch} {f : PF}

theorem exec_take_empty (hi : Spec.Issues s e t b) (hok : f.ok true false true 0 = true) (hfree : handleOf b f.handle.val = none)
    (hfifo : fifoOf s b.channel = []) (hw : Spec.fetches s e b (f.word 0x50)) :
    exec (.take e t f) s = .next (Spec.issued s e t b 2 (Spec.wrote b f.rd 0#48)) :=
  next_issue_next hi hw hok (by simp only [hfree, hfifo, Option.isSome_none, Bool.false_eq_true, if_false, wrote_eq])

theorem exec_take_head {id : Nat} {rest : List Nat} {p : Packet} (hi : Spec.Issues s e t b) (hok : f.ok true false true 0 = true)
    (hfree : handleOf b f.handle.val = none) (hfifo : fifoOf s b.channel = id :: rest) (hp : pktOf s id = some p)
    (hroom : b.taken.length < 16) (hw : Spec.fetches s e b (f.word 0x50)) : exec (.take e t f) s = .next (Spec.issued
      (pktMod (fifoSet s b.channel rest) id (fun p => { p with stage := .handle b.channel f.handle.val })) e t b 2
      (Spec.wrote (taking b f.handle.val id p none) f.rd (BitVec.ofNat 48 (p.bytes.length + 4)))) := by
  have hp' : pktOf (fifoSet s b.channel rest) id = some p := pktOf_fifoSet.trans hp
  exact next_issue_next hi hw hok (by simp only [hfree, hfifo, handleFill_of_packet hp', Nat.not_le.mpr hroom, Option.isSome_none,
    Bool.false_eq_true, if_false, wrote_eq])

theorem exec_takek_none (hi : Spec.Issues s e t b) (hok : f.ok true false true 0x3F = true) (hfree : handleOf b f.handle.val = none)
    (hkept : keptAt s b f.imm.toNat = none) (hw : Spec.fetches s e b (f.word 0x51)) :
    exec (.takek e t f) s = .next (Spec.issued s e t b 1 (Spec.wrote b f.rd 0#48)) :=
  next_issue_next hi hw hok (by simp only [hfree, hkept, Option.isSome_none, Bool.false_eq_true, if_false, wrote_eq])

theorem exec_takek_kept {id : Nat} {p : Packet} (hi : Spec.Issues s e t b) (hok : f.ok true false true 0x3F = true)
    (hfree : handleOf b f.handle.val = none) (hkept : keptAt s b f.imm.toNat = some id) (hp : pktOf s id = some p)
    (hroom : b.taken.length < 16) (hw : Spec.fetches s e b (f.word 0x51)) : exec (.takek e t f) s = .next (Spec.issued
      (pktMod s id (fun p => { p with stage := .handle b.channel f.handle.val })) e t b 1
      (Spec.wrote (taking b f.handle.val id p (some f.imm.toNat)) f.rd (BitVec.ofNat 48 (p.bytes.length + 4)))) :=
  next_issue_next hi hw hok (by simp only [hfree, hkept, handleFill_of_packet hp, Nat.not_le.mpr hroom, Option.isSome_none,
    Bool.false_eq_true, if_false, wrote_eq])

end

/-! RLS: the edits are read where IMM names a list (R372, R374). -/

/-- The edit list of a local address, where one is named. -/
theorem editsNamed_eq {s : State} {e t a : Nat} {b : Batch} {named : Prop} [Decidable named] {flag : Bool} {es : List Edit}
    (hflag : flag = true ↔ named) (h : if named then editsFrom s e t b 8 a = some es else es = []) :
    (if flag then editsFrom s e t b 8 a else some []) = some es := by
  by_cases hn : named
  · rw [if_pos (hflag.mpr hn)]
    rwa [if_pos hn] at h
  · rw [if_neg (fun hf => hn (hflag.mp hf))]
    rw [if_neg hn] at h
    rw [h]

open Spec in
theorem isaPacketHandles : IsaPacketHandles := by
  intro s e t b f h p hi hz
  refine ⟨fun hra himm hfree => ?take, fun hra himm hfree => ?takek, fun hh => ?held⟩
  case take =>
    have hok : f.ok true false true 0 = true := PF.ok_none hz (.inl rfl) (.inr hra) (.inl rfl) himm
    exact ⟨exec_take_empty hi hok hfree, fun rest => exec_take_head hi hok hfree⟩
  case takek =>
    have hok : f.ok true false true 0x3F = true := (PF.ok_low 6).mpr ⟨hz, .inl rfl, .inr hra, .inl rfl, himm⟩
    exact ⟨exec_takek_none hi hok hfree, exec_takek_kept hi hok hfree⟩
  case held =>
    have hheld : handleOf b f.handle.val = some h := hh
    dsimp only
    rw [pktOffset_eq]
    refine ⟨fun hra himm hp hw => ?ldk, fun himm hw => ?ldp, fun himm hw => ?stp, fun k hra himm hk hfree hlow hw => ?keep,
      fun es hrd himm hes hw => ?rls, fun hrd hra himm hw => ?drop⟩
    case ldk =>
      refine next_issue_next hi hw ((PF.ok_low 6).mpr ⟨hz, .inl rfl, .inr hra, .inl rfl, himm⟩) ?_
      simp only [hheld, hp, Option.map_some, Option.getD_some, kvGet, wrote_eq]
    case ldp =>
      refine next_issue_next hi hw ((PF.ok_low 14).mpr ⟨hz, .inl rfl, .inl rfl, .inl rfl, himm⟩) ?_
      simp only [hheld, wrote_eq]
    case stp =>
      have hlow : f.ok true true true 0x1FFFF = true := (PF.ok_low 17).mpr ⟨hz, .inl rfl, .inl rfl, .inl rfl, by omega⟩
      refine next_issue_next hi hw (by rw [hlow, decide_eq_true himm]; rfl) ?_
      simp only [hheld, nextPc_eq, reg_eq]
    case keep =>
      have hfirst : firstBelow 64 (fun k => !keptBusy s b h.pkt k) = some k :=
        firstBelow_eq_some hk (by rw [hfree]; rfl) (fun j hj => by rw [hlow j hj]; rfl)
      refine next_issue_next hi hw (PF.ok_none hz (.inl rfl) (.inr hra) (.inl rfl) himm) ?_
      simp only [hheld, hfirst, wrote_eq, disposed_eq]
    case rls =>
      refine next_issue_next hi hw ((PF.ok_low 14).mpr ⟨hz, .inr hrd, .inl rfl, .inl rfl, himm⟩) ?_
      have hedits := editsNamed_eq (flag := bitN f.imm.toNat 13) (by rw [bitN_toNat]) hes
      simp only [hheld, hedits, nextPc_eq, disposed_eq, reg_eq, BitVec.ofNat_toNat]
    case drop =>
      refine next_issue_next hi hw ((PF.ok_low 8).mpr ⟨hz, .inr hrd, .inr hra, .inl rfl, himm⟩) ?_
      simp only [hheld, nextPc_eq, disposed_eq]

/-! EMIT (R373). -/

section
variable {s : State} {e : Fin 96} {t : Fin 8} {b : Batch} {w0 w1 w2 : Nat} {es : List Edit} {h : Handle} {bs : List Byte}

/-- The emit that a descriptor's first word stages. -/
def emitOf (s : State) (w0 : Nat) (bs : List Byte) (es : List Edit) : Emit :=
  { slice := if s.board.f256 then w0 % 8 else w0 % 16, startSel := w0 / 16 % 16, tenant := w0 / 256 % 65536, bytes := bs, edits := es }

/-- A batch that has staged an emit. -/
def emitting (b : Batch) (x : Emit) : Batch := { b with emits := b.emits + 1, packets := b.packets ++ [.emit x] }

theorem emitOf_eq : emitOf s w0 bs es =
    { slice := if s.board.f256 then w0 % 2 ^ 4 % 8 else w0 % 2 ^ 4, startSel := fieldN w0 4 4, tenant := fieldN w0 8 16,
      bytes := bs, edits := es } := by
  rw [emitOf, Nat.mod_mod_of_dvd w0 (by decide : 8 ∣ 2 ^ 4)]
  rfl

/-- Bytes of local words, where the descriptor names no handle as their source. -/
theorem emitStage_local (hroom : b.emits < 16) (hsource : bitN w0 28 = false) (hkeep : bitN w0 29 = false)
    (hend : w1 % 2 ^ 13 + cdiv (fieldN w1 13 14) 6 ≤ 8192) : emitStage s e.val t.val b w0 w1 es =
      .next s (fall (emitting b (emitOf s w0
        ((bytesDown (Spec.localRun s e t b (w1 % 2 ^ 13) (cdiv (fieldN w1 13 14) 6))).take (fieldN w1 13 14)) es))) := by
  rw [emitOf_eq]
  simp only [emitStage, fieldN_zero, hsource, hkeep, localWords_of_le hend, Nat.not_le.mpr hroom, Bool.or_self, if_false, Option.getD_some]
  cases handleOf b (fieldN w0 24 4) <;> rfl

/-- The frame of a handle, less its FCS; a consumed handle is given up. -/
theorem emitStage_handle (hroom : b.emits < 16) (hh : handleOf b (fieldN w0 24 4) = some h) (hsource : bitN w0 28 = true) :
    emitStage s e.val t.val b w0 w1 es = .next s (fall (if bitN w0 29
      then dispose (emitting b (emitOf s w0 (h.bytes.take (h.bytes.length - 4)) es)) (fieldN w0 24 4) (.consumed h.pkt)
      else emitting b (emitOf s w0 (h.bytes.take (h.bytes.length - 4)) es))) := by
  rw [emitOf_eq]
  simp only [emitStage, fieldN_zero, hh, hsource, Nat.not_le.mpr hroom, if_false]
  cases bitN w0 29 <;> rfl

/-- A descriptor that passes and names local words names ones that exist. -/
theorem localEnd_of_emitOk (hok : emitOk w0 w1 w2 = true) (hsource : bitN w0 28 = false) :
    w1 % 2 ^ 13 + cdiv (fieldN w1 13 14) 6 ≤ 8192 := by
  simp only [emitOk, fieldN_zero, hsource, Bool.false_or, Bool.and_eq_true, decide_eq_true_eq] at hok
  exact hok.2.2

/-- Bits 28 and 29 of a descriptor's first word, as the two say it together. -/
theorem emitSource_bits {k : Nat} (h : w0 / 2 ^ 28 % 4 = k) : bitN w0 28 = (k % 2 == 1) ∧ bitN w0 29 = (k / 2 == 1) := by
  have hlow : w0 / 2 ^ 28 % 2 = k % 2 := by omega
  have hhigh : w0 / 2 ^ 29 % 2 = k / 2 := by omega
  rw [bitN, bitN, hlow, hhigh]
  exact ⟨rfl, rfl⟩

end

/-- What EMIT does with the three words of its descriptor. -/
def emitDescriptor (s : State) (e t : Nat) (b : Batch) (w0 w1 w2 : Nat) : Issued :=
  if !emitOk w0 w1 w2 then .next s (fall { b with emitFails := b.emitFails + 1 })
  else
    match if bitN w2 13 then editsFrom s e t b 8 (w2 % 2 ^ 13) else some [] with
    | none => .fault 0x02
    | some es => emitStage s e t b w0 w1 es

section
variable {s : State} {e : Fin 96} {t : Fin 8} {b b' : Batch} {f : PF} {w0 w1 w2 : Nat} {es : List Edit}

theorem emitDescriptor_of_bad (hbad : emitOk w0 w1 w2 = false) :
    emitDescriptor s e.val t.val b w0 w1 w2 = .next s (fall { b with emitFails := b.emitFails + 1 }) := by
  rw [emitDescriptor, hbad]
  rfl

theorem emitDescriptor_of_ok (hok : emitOk w0 w1 w2 = true)
    (hes : if w2 / 2 ^ 13 % 2 = 1 then editsFrom s e.val t.val b 8 (w2 % 2 ^ 13) = some es else es = []) :
    emitDescriptor s e.val t.val b w0 w1 w2 = emitStage s e.val t.val b w0 w1 es := by
  have hedits := editsNamed_eq (flag := bitN w2 13) (by rw [bitN, beq_iff_eq]) hes
  simp only [emitDescriptor, hok, hedits, Bool.not_true, Bool.false_eq_true, if_false]

theorem exec_emit (hi : Spec.Issues s e t b) (hok : f.ok false false false 0x1FFF = true) (hend : f.imm.toNat + 3 ≤ 8192)
    (hw : Spec.fetches s e b (f.word 0x58)) (hd : emitDescriptor s e.val t.val b (Spec.localWord s e t b f.imm.toNat).toNat
      (Spec.localWord s e t b (f.imm.toNat + 1)).toNat (Spec.localWord s e t b (f.imm.toNat + 2)).toNat = .next s (fall b')) :
    exec (.emit e t f) s = .next (Spec.issued s e t b 2 (Spec.nextPc b')) := by
  refine next_issue_next hi hw hok ?_
  simp only [localWords_of_le hend, localRun_getD (show 0 < 3 by decide), localRun_getD (show 1 < 3 by decide),
    localRun_getD (show 2 < 3 by decide)]
  exact hd

end

open Spec in
theorem isaEmit : IsaEmit := by
  intro s e t b f hi hz hrd hra hhandle hend
  have hlegal : f.ok false false false 0x1FFF = true := (PF.ok_low 13).mpr ⟨hz, .inr hrd, .inr hra, .inr hhandle, by omega⟩
  have emit := fun hw b' => exec_emit (b' := b') hi hlegal hend hw
  refine ⟨fun hbad hw => ?bad, fun es hok hroom hes => ?staged⟩
  case bad => exact emit hw _ (emitDescriptor_of_bad hbad)
  case staged =>
    have hstage := emitDescriptor_of_ok hok hes
    refine ⟨fun hsource hw => ?words, fun h hh => ⟨fun hsource hw => ?kept, fun hsource hw => ?consumed⟩⟩
    all_goals obtain ⟨hlow, hhigh⟩ := emitSource_bits hsource
    case words =>
      have hrun := localEnd_of_emitOk hok hlow
      exact emit hw _ (hstage.trans (emitStage_local hroom hlow hhigh hrun))
    case kept =>
      exact emit hw _ (hstage.trans ((emitStage_handle hroom hh hlow).trans (by rw [hhigh]; rfl)))
    case consumed =>
      exact emit hw _ (hstage.trans ((emitStage_handle hroom hh hlow).trans (by rw [hhigh]; rfl)))

end Sys2Proof.Machine

open Sys2Proof.Machine in
/-- Settles O5: each clause is one case of its instruction's effect, and an emit's source is what bits 28 and 29 of its descriptor name
(`emitStage_local`, `emitStage_handle`). -/
theorem isaPackets : Obligations.IsaPackets := ⟨isaPacketHandles, isaEmit⟩

end

section
/-! LKUP, and what a batch stages for its release (R350, R366, R376-R379). -/

namespace Sys2Proof.Machine

/-! LKUP (R376). -/

section
variable {s : State} {e : Fin 96} {t : Fin 8} {b : Batch} {f : XF} {code version len : Nat}

/-- The entry that a lookup of the key in registers finds. -/
def lookedUp (s : State) (b : Batch) (f : XF) (code version : Nat) : List W48 × Bool :=
  lkup s.fwd (versionTables s.dec version) code
    ((List.range (lkupRegs code).1).map (fun i => (regGet b (f.ra.val + i)).toNat))

/-- The counts of a lookup. -/
def lookupAdds (s : State) (cluster code len : Nat) (hit : Bool) : List (Nat × Nat × Nat) :=
  match lkupTable code with
  | some k => [(cTable (lkupSlice s cluster) k (if hit then 0 else 1), 1, len)]
  | none => []

/-- A batch after a lookup. -/
def afterLookup (s : State) (e : Nat) (b : Batch) (f : XF) (code version len : Nat) : Batch :=
  fall (regSetAll { b with lookups := b.lookups ++ lookupAdds s (e / 12) code len (lookedUp s b f code version).2 } f.rd.val
    (lookedUp s b f code version).1)

/-- The bits of IMM that LKUP uses: the code, the flag of a handle and the handle. -/
theorem within_lkupMask : ∀ code < 7, within 0x1F0F code = true ∧ ∀ h < 16, within 0x1F0F (code + 256 + 512 * h) = true := by
  decide

/-- The legal lookups: by the batch's version, and by that of a handle's packet. -/
theorem lkupOk_of_code {h : Nat} (hh : h < 16) (himm : f.imm.toNat = code ∨ f.imm.toNat = code + 256 + 512 * h) (hcode : code < 7)
    (hrb : f.rb = 0) (hkey : f.ra.val + (lkupRegs code).1 ≤ 32) (hresult : f.rd.val + (lkupRegs code).2 ≤ 32) : lkupOk f = true := by
  have hlow : f.imm.toNat % 16 = code := by omega
  have hmask : within 0x1F0F f.imm.toNat = true := by
    obtain ⟨hbatch, hpacket⟩ := within_lkupMask code hcode
    obtain himm | himm := himm <;> rw [himm]
    · exact hbatch
    · exact hpacket h hh
  simp [lkupOk, XF.ok, hlow, hmask, hrb, hcode, hkey, hresult]

theorem exec_lkup_batch (hi : Spec.Issues s e t b) (hok : lkupOk f = true) (himm : f.imm.toNat = code) (hcode : code < 7)
    (hw : Spec.fetches s e b (f.word 0x60)) : exec (.lkup e t f) s =
      .next (Spec.issued s e t b (if code < 4 then 8 else 12) (afterLookup s e.val b f code b.version 0)) := by
  have hlow : f.imm.toNat % 16 = code := by omega
  have hbatch : bitN f.imm.toNat 8 = false := by rw [bitN, beq_eq_false_iff_ne]; omega
  refine next_issue hi hw hok ?_
  simp only [hlow, hbatch, Bool.false_eq_true, if_false]
  cases (handleOf b (fieldN f.imm.toNat 9 4)).bind (fun h => pktOf s h.pkt) <;> rfl

theorem exec_lkup_packet {h : Fin 16} {x : Handle} {p : Packet} (hi : Spec.Issues s e t b) (hok : lkupOk f = true)
    (himm : f.imm.toNat = code + 256 + 512 * h.val) (hcode : code < 7) (hh : handleOf b h.val = some x) (hp : pktOf s x.pkt = some p)
    (hw : Spec.fetches s e b (f.word 0x60)) : exec (.lkup e t f) s = .next (Spec.issued s e t b (if code < 4 then 8 else 12)
      (afterLookup s e.val b f code p.version (p.bytes.length + 4))) := by
  have hlow : f.imm.toNat % 16 = code := by omega
  have hpacket : bitN f.imm.toNat 8 = true := by rw [bitN, beq_iff_eq]; omega
  have hplace : fieldN f.imm.toNat 9 4 = h.val := by rw [fieldN]; omega
  refine next_issue hi hw hok ?_
  simp only [hlow, hpacket, hplace, hh, hp, Option.bind_some, Option.map_some, Option.getD_some, if_true]
  rfl

end

open Spec in
theorem isaLookup : IsaLookup := by
  intro s e t b f code h hi hrb hcode hkey hresult
  have hbatch := fun himm => lkupOk_of_code h.isLt (.inl himm) hcode hrb hkey hresult
  have hpacket := fun himm => lkupOk_of_code h.isLt (.inr himm) hcode hrb hkey hresult
  simp only [List.map_map]
  exact ⟨fun himm hw => exec_lkup_batch hi (hbatch himm) himm hcode hw,
    fun x p himm hh hp hw => exec_lkup_packet hi (hpacket himm) himm hcode hh hp hw⟩

/-! The staged operations. -/

section
variable {s : State} {e : Fin 96} {t : Fin 8} {b : Batch} {a n : Nat} {x : TblEffect}

theorem stageTable_of_room (h : b.tables.length < 16) :
    stageTable s b x = .next s (fall { b with tables := b.tables ++ [x] }) := if_neg (Nat.not_le.mpr h)

theorem localRun_succ : Spec.localRun s e t b a (1 + n) = Spec.localWord s e t b a :: Spec.localRun s e t b (a + 1) n := by
  rw [Spec.localRun, Nat.add_comm 1 n, List.range_succ_eq_map, List.map_cons, List.map_map]
  simp only [Spec.localRun, Function.comp_def, Nat.succ_eq_add_one, Nat.add_right_comm a, Nat.add_assoc a]
  rfl

end

/-- The next message of a bound inbox. -/
theorem msgAddr_of_inbox {s : State} {b : Batch} {c : Channel} {i : Nat} (hc : channelOf s b.channel = some c)
    (hinbox : c.bind.inbox = some i) : msgAddr s b = if b.msgs < c.inbox.length then some (64 * i + 8 * b.msgs) else none := by
  simp only [msgAddr, hc, hinbox, Option.map_some, Nat.mul_comm i 64]

open Spec in
theorem isaStaged : IsaStaged := by
  intro s e t b f hi
  refine ⟨fun hroom => ⟨fun table at_ del hrd hra hrb htable hend himm hw => ?twr, fun hrd himm => ⟨fun hw => ?frd, fun hw => ?hrd⟩,
      fun hrd hrb hend => ⟨fun hw => ?fwr, fun hw => ?hwr⟩, fun hrd hrb himm hw => ?clear⟩,
    fun himm hroom hw => ?ladd, fun hrd hrb hend hroom hw => ?csub, fun n at_ hrd hn hend himm hat hroom hw => ?send,
    fun hrd himm harm hw => ?arm, fun hra hrb himm c i hc hinbox hw => ?msgt⟩
  case twr =>
    have hplace : fieldN f.imm.toNat 0 13 = at_ := by rw [fieldN_zero]; split at himm <;> omega
    have htbl : fieldN f.imm.toNat 13 4 = table := by rw [fieldN]; split at himm <;> omega
    have hdel : bitN f.imm.toNat 17 = del := by
      cases del with
      | false =>
        rw [if_neg Bool.false_ne_true] at himm
        rw [bitN, beq_eq_false_iff_ne]
        omega
      | true =>
        rw [if_pos rfl] at himm
        rw [bitN, beq_iff_eq]
        omega
    have hwords : at_ + (1 + cdiv (entrySize table) 6) ≤ 8192 := by omega
    have hlow : f.ok false false false 0x3FFFF = true :=
      (XF.ok_low 18).mpr ⟨.inr hrd, .inr hra, .inr hrb, by split at himm <;> omega⟩
    refine next_issue_next hi hw (by rw [twrOk, hlow, htbl, decide_eq_true htable]; rfl) ?_
    simp only [hplace, htbl, hdel, localWords_of_le hwords, localRun_succ, stageTable_of_room hroom]
    rfl
  case frd =>
    refine next_issue_next hi hw ((XF.ok_low 10).mpr ⟨.inr hrd, .inl rfl, .inl rfl, himm⟩) ?_
    rw [stageTable_of_room hroom, reg_eq, reg_eq]
    rfl
  case hrd =>
    refine next_issue_next hi hw ((XF.ok_low 10).mpr ⟨.inr hrd, .inl rfl, .inl rfl, himm⟩) ?_
    rw [stageTable_of_room hroom, reg_eq, reg_eq]
    rfl
  case fwr =>
    have hplace : fieldN f.imm.toNat 0 13 = f.imm.toNat := by rw [fieldN_zero, Nat.mod_eq_of_lt (by omega)]
    have hline : bitN f.imm.toNat 13 = false := by rw [bitN, beq_eq_false_iff_ne]; omega
    refine next_issue_next hi hw ((XF.ok_low 14).mpr ⟨.inr hrd, .inl rfl, .inr hrb, by omega⟩) ?_
    simp only [hline, hplace, localWords_of_le hend, stageTable_of_room hroom, reg_eq, Bool.false_eq_true, if_false]
    rfl
  case hwr =>
    refine next_issue_next hi hw ((XF.ok_low 13).mpr ⟨.inr hrd, .inl rfl, .inr hrb, by omega⟩) ?_
    simp only [localWords_of_le hend, stageTable_of_room hroom, reg_eq]
    rfl
  case clear =>
    have hclear : bitN f.imm.toNat 13 = true := by rw [himm]; rfl
    refine next_issue_next hi hw ((XF.ok_low 14).mpr ⟨.inr hrd, .inl rfl, .inr hrb, by omega⟩) ?_
    simp only [hclear, stageTable_of_room hroom, reg_eq, if_true]
    rfl
  case ladd =>
    refine next_issue_next hi hw (XF.ok_none (.inl rfl) (.inl rfl) (.inl rfl) himm) ?_
    simp only [Nat.not_le.mpr hroom, if_false, reg_eq]
    rfl
  case csub =>
    refine next_issue_next hi hw ((XF.ok_low 13).mpr ⟨.inr hrd, .inl rfl, .inr hrb, by omega⟩) ?_
    simp only [localWords_of_le hend, Nat.not_le.mpr hroom, if_false, localRun_getD (show 0 < 28 by decide), bitN_toNat, reg_eq]
    rfl
  case send =>
    have hplace : fieldN f.imm.toNat 0 13 = at_ := by rw [fieldN_zero]; omega
    have hcount : fieldN f.imm.toNat 13 3 = n := by rw [fieldN]; omega
    have hlow : f.ok false true true 0xFFFF = true := (XF.ok_low 16).mpr ⟨.inr hrd, .inl rfl, .inl rfl, by omega⟩
    refine next_issue_next hi hw (by rw [sendOk, hlow, hcount, decide_eq_true hn]; rfl) ?_
    simp only [hplace, hcount, localWords_of_le hend, Nat.not_le.mpr hroom, if_false, reg_eq]
    rfl
  case arm =>
    refine next_issue_next hi hw (XF.ok_none (.inr hrd) (.inl rfl) (.inl rfl) himm) ?_
    simp only [harm, Option.isSome_none, Bool.false_eq_true, if_false, reg_eq]
    rfl
  case msgt =>
    refine next_issue_next hi hw (XF.ok_none (.inl rfl) (.inr hra) (.inr hrb) himm) ?_
    by_cases hmore : b.msgs < c.inbox.length
    · simp only [msgAddr_of_inbox hc hinbox, hmore, if_true, wrote_eq]
    · simp only [msgAddr_of_inbox hc hinbox, hmore, if_false, wrote_eq]

end Sys2Proof.Machine

open Sys2Proof.Machine in
/-- Settles O6: a lookup goes by the batch's version or the packet's (`exec_lkup_batch`, `exec_lkup_packet`), and each other instruction
stages one thing in the batch. -/
theorem isaTables : Obligations.IsaTables := ⟨isaLookup, isaStaged⟩

end

section
/-! The device after reset, and that no command of the table is without an answer (log entries 3, 4 and 5). -/

namespace Sys2Proof.Machine

/-- Each arm of the dispatch answers the next state that its meaning names. -/
theorem exec_next (c : Instr) (s : State) : ∃ t, exec c s = .next t := by
  cases c <;> exact ⟨_, rfl⟩

theorem stepRuns_all (s : State) : stepRuns s := by
  cases h : s.pending with
  | nil => exact ⟨idle s, by simp only [step, h]⟩
  | cons c rest =>
    obtain ⟨t, ht⟩ := exec_next c { s with pending := rest }
    exact ⟨t, by simp only [step, h, ht]⟩

end Sys2Proof.Machine

open Sys2Proof.Machine in
/-- Settles O53: a step runs the command at the front, or lets a beat pass. -/
theorem nothingStops : Obligations.NothingStops := ⟨exec_next, stepRuns_all⟩

open Sys2Proof.Machine in
/-- Settles O52: each field is read off `State.reset`; its memories list nothing (`reset_memoryWf`). -/
theorem resetState : Obligations.ResetState := by
  unfold Obligations.ResetState
  refine ⟨⟨rfl, rfl, reset_memoryWf⟩, ?_⟩
  and_intros <;> rfl

end

section
/-! Functions and endpoints of the host interface: a change of a listed one is an entry written, and what a command that needs one
does where it stands (R446, R449, R461, R462). -/

namespace Sys2Proof.Machine

theorem funcMod_eq_funcBecomes {s : State} {fn : Nat} {f : Func} {g : Func → Func} (h : funcOf s fn = some f) :
    funcMod s fn g = Spec.funcBecomes s fn (g f) := by
  have hf : tget s.hif.funcs fn = some f := h
  simp only [funcMod, tadj, hf, Spec.funcBecomes]

/-- A configuration read of a function that answers. -/
theorem configRequest_read {s : State} {fn off : Nat} {f : Func} (hup : (endpointOf s (epOf fn)).linkUp = true)
    (hready : (endpointOf s (epOf fn)).configReady = true) (hen : epEnabled s (epOf fn) = true)
    (hdev : pfNum fn = 0 ∨ s.hif.deviceReady = true) (hex : fnExists s fn = true) (hf : funcOf s fn = some f) :
    configRequest s fn off none = emit s (.completion fn 0 (leBytes 4 (cfgRead s fn f (off / 4 * 4)))) := by
  have hgate : (pfNum fn ≠ 0 && !deviceReady s) = false := by
    rcases hdev with h | h <;> simp [deviceReady, h]
  simp only [configRequest, hup, hen, hready, hgate, hex, hf, Bool.not_true, Bool.or_self, Bool.false_eq_true, if_false, if_true]

theorem breaksDependency_iff {x : BitVec 256} : breaksDependency x = true ↔
    (x.getLsbD 3 = true ∧ x.getLsbD 4 = false) ∨ (x.getLsbD 6 = true ∧ x.getLsbD 4 = false) ∨
      (x.getLsbD 11 = true ∧ x.getLsbD 10 = false) := by
  simp only [breaksDependency, featSegment, featChecksum, featTunnel, featXts, featNvme, Bool.or_eq_true, Bool.and_eq_true,
    Bool.not_eq_true', or_assoc]

section
variable {s : State} {fn : Nat} {f : Func} (h : funcOf s fn = some f) (hr : f.resetting = none) (hok : f.featuresOk = false)
include h hr

theorem featuresOk_of_uncreated (hc : fnCreated s fn = false) : featuresOk s fn = s := by
  simp [featuresOk, h, hr, hc]

theorem featuresOk_of_unready (hc : fnCreated s fn = true) (hd : s.hif.deviceReady = false) :
    featuresOk s fn = Spec.funcBecomes s fn { f with featStatus := 3 } := by
  simp only [featuresOk, h, hr, hc, deviceReady, hd, funcMod_eq_funcBecomes h]
  rfl

include hok

theorem featuresOk_of_broken (hc : fnCreated s fn = true) (hd : s.hif.deviceReady = true)
    (hb : breaksDependency (f.accept &&& offerOf s fn) = true) :
    featuresOk s fn = Spec.funcBecomes s fn { f with featStatus := 4 } := by
  simp only [featuresOk, h, hr, hok, hc, deviceReady, hd, hb, funcMod_eq_funcBecomes h]
  rfl

theorem featuresOk_of_kept (hc : fnCreated s fn = true) (hd : s.hif.deviceReady = true)
    (hb : breaksDependency (f.accept &&& offerOf s fn) = false) :
    featuresOk s fn = Spec.funcBecomes s fn { f with
      active := f.accept &&& offerOf s fn, featuresOk := true, featStatus := 0 } := by
  simp only [featuresOk, h, hr, hok, hc, deviceReady, hd, hb, funcMod_eq_funcBecomes h]
  rfl
end

end Sys2Proof.Machine

open Sys2Proof.Machine in
/-- Settles O58: PF0 of either endpoint answers a configuration read with its register (`configRequest_read`). -/
theorem deviceSerialNumber : Obligations.DeviceSerialNumber := by
  unfold Obligations.DeviceSerialNumber
  intro s ep fn hfn hup hready hen hex hsome
  obtain ⟨f, hf⟩ := Option.isSome_iff_exists.mp hsome
  have hep : epOf fn.toNat = ep.val := by unfold epOf; omega
  have hpf0 : (fn.toNat == pf0Of (epOf fn.toNat)) = true := by rw [hep, pf0Of, hfn, Nat.mul_comm]; exact beq_self_eq_true _
  have hpf : pfNum fn.toNat = 0 := by unfold pfNum; omega
  rw [← hep] at hup hready hen
  have hread := fun off => configRequest_read (off := off) hup hready hen (.inl hpf) hex hf
  constructor
  · refine congrArg Host.Outcome.next ((hread 0x18C).trans ?_)
    simp [cfgRead, hpf0, emit]
  · refine congrArg Host.Outcome.next ((hread 0x190).trans ?_)
    simp [cfgRead, hpf0, emit]

open Sys2Proof.Machine in
/-- Settles O59: `breaksDependency` is the lack of a requirement (`breaksDependency_iff`). -/
theorem featureDependencies : Obligations.FeatureDependencies := by
  unfold Obligations.FeatureDependencies
  intro s fn f h hr hok hd hc
  refine ⟨fun hl => ?_, fun hl => ?_⟩
  · exact congrArg Host.Outcome.next (featuresOk_of_broken h hr hok hc hd (breaksDependency_iff.mpr hl))
  · have hb : breaksDependency (f.accept &&& offerOf s fn.toNat) = false := Bool.eq_false_iff.mpr (mt breaksDependency_iff.mp hl)
    exact congrArg Host.Outcome.next (featuresOk_of_kept h hr hok hc hd hb)

end

section
/-! Reports to the collector and the security alarms (R576-R578, R581). -/

namespace Sys2Proof.Machine

/-- What every command of a fold leaves, the fold leaves. -/
theorem foldl_keeps {α β : Type} (g : State → β) {f : State → α → State} (h : ∀ s a, g (f s a) = g s) (l : List α) (s : State) :
    g (l.foldl f s) = g s := by
  induction l generalizing s with
  | nil => rfl
  | cons a l ih => rw [List.foldl_cons, ih, h]

section
variable {s : State} {cls : FaultClass} {unit sub : Nat}

theorem raised_raise {u : State} (h : u.flt = s.flt) : Spec.raised s (raise u cls unit sub) cls unit sub :=
  ⟨_, congrArg (fun f : Flt => f.inbox ++ _) h, rfl, rfl, rfl⟩

theorem reportHeld_of_running (h : collectorRuns s = true) : reportHeld s = s := if_pos h

end

/-! What the end of a request leaves of the device: it changes the slab, engine memories, the storage unit and free values. -/

section
variable {s : State}

theorem stateSetAll_frame {b : Binding} {i : Nat} {ws : List W48} : stateSetAll s b i ws =
    { s with eng := (stateSetAll s b i ws).eng } := by
  induction ws generalizing s i with
  | nil => rfl
  | cons w ws ih =>
    rw [stateSetAll, ih]
    unfold stateSet
    split <;> rfl

theorem writeResult_frame {ch o : Nat} {ws : List W48} {retry : Bool} : writeResult s ch o ws retry =
    { s with eng := (writeResult s ch o ws retry).eng } := by
  unfold writeResult
  split
  · rfl
  · rw [stateSetAll_frame]
    rfl

/-- The device without the slab, the engines, the storage unit and the key vault. -/
def offSlab (s : State) : State :=
  { s with cph := Cph.reset, eng := Eng.reset, sto := Sto.reset, kvl := Kvl.reset, free := 0 }

@[simp] theorem offSlab_writeResult {ch o : Nat} {ws : List W48} {retry : Bool} : offSlab (writeResult s ch o ws retry) = offSlab s := by
  rw [writeResult_frame]
  rfl

@[simp] theorem offSlab_cphMod {f : Cph → Cph} : offSlab (cphMod s f) = offSlab s := rfl

@[simp] theorem offSlab_resultDeliver {r : CipherReq} {ws : List W48} {retry : Bool} :
    offSlab (resultDeliver s r ws retry) = offSlab s := by
  unfold resultDeliver
  split
  · exact offSlab_writeResult
  · split <;> rfl

@[simp] theorem offSlab_requestEnd {i st : Nat} {r : CipherReq} : offSlab (requestEnd s i r st) = offSlab s := by
  have he : ∀ {n m : Nat} {retry : Bool}, offSlab (endWords s i r n m retry).2 = offSlab s := rfl
  simp only [requestEnd, apply_ite offSlab, offSlab_cphMod, offSlab_resultDeliver, he, ite_self]

@[simp] theorem offSlab_requestsAbort {i : Nat} : offSlab (requestsAbort s i) = offSlab s :=
  foldl_keeps offSlab (fun _ _ => offSlab_requestEnd) _ _

@[simp] theorem offSlab_zeroizeStart : offSlab (zeroizeStart s) = offSlab s :=
  (foldl_keeps offSlab (fun _ _ => offSlab_requestEnd) _ _).trans (foldl_keeps offSlab (fun _ _ => offSlab_requestsAbort) _ _)

theorem zeroizeStart_sec : (zeroizeStart s).sec = s.sec :=
  (congrArg State.sec (offSlab_zeroizeStart (s := s)) :)
theorem zeroizeStart_flt : (zeroizeStart s).flt = s.flt :=
  (congrArg State.flt (offSlab_zeroizeStart (s := s)) :)
@[simp] theorem zeroizeStart_erasing : (zeroizeStart s).kvl.erasing = true := rfl
end

/-! A cause that appears, or goes. -/

section
variable {s : State} {k : AlarmKind}

theorem exec_alarmCommand {present : Bool} : exec (Spec.alarmCommand k present) s = .next (alarmCause s k present) := by
  cases k <;> rfl

theorem monitorsRun_of_watching (h : Spec.watching s) : monitorsRun s = true := by
  simp only [monitorsRun, secReleased, h.1, Bool.true_or]

theorem collectorRuns_of_watching (h : Spec.watching s) : collectorRuns s = true := by
  simp only [collectorRuns, h.2, Bool.true_or]

theorem alarmCause_gone (h : Spec.watching s) : alarmCause s k false = alarmMod s k (fun a => { a with cause := false }) := by
  simp only [alarmCause, monitorsRun_of_watching h, Bool.not_true, Bool.not_false, Bool.false_eq_true, if_false, if_true]

theorem alarmCause_present (h : Spec.watching s) (hk : k ≠ .vbat) : alarmCause s k true = alarmDetect s k := by
  simp only [alarmCause, monitorsRun_of_watching h, Bool.not_true, Bool.false_eq_true, if_false, if_neg hk]

theorem alarmCause_vbat (h : Spec.watching s) : alarmCause s .vbat true = alarmDetect (vbatLost s) .vbat := by
  simp only [alarmCause, monitorsRun_of_watching h, Bool.not_true, Bool.false_eq_true, if_false, if_true]

/-- The class with its cause there: a first detection latches it, with ALRM_N by the policy. -/
def alarmSeen (s : State) (k : AlarmKind) : State :=
  alarmMod s k (fun a => { a with cause := true, latched := true, drive := if a.latched then a.drive else a.policy != .log })

theorem alarmDetect_of_running (h : collectorRuns s = true) : alarmDetect s k =
    if !(s.sec.alarm k).latched && (s.sec.alarm k).policy == .erase then zeroizeStart (raise (alarmSeen s k) k.cls 0x03 k.index)
    else raise (alarmSeen s k) k.cls 0x03 k.index := by
  have hr : reportHeld (raise (alarmSeen s k) k.cls 0x03 k.index) = raise (alarmSeen s k) k.cls 0x03 k.index :=
    reportHeld_of_running h
  rw [← hr]
  rfl

theorem alarmDetect_of_kept (h : collectorRuns s = true) (hk : (s.sec.alarm k).latched = true ∨ (s.sec.alarm k).policy ≠ .erase) :
    alarmDetect s k = raise (alarmSeen s k) k.cls 0x03 k.index := by
  rw [alarmDetect_of_running h]
  rcases hk with hk | hk <;> simp [hk]

theorem alarmDetect_of_erase (h : collectorRuns s = true) (hl : (s.sec.alarm k).latched = false)
    (hp : (s.sec.alarm k).policy = .erase) :
    alarmDetect s k = zeroizeStart (raise (alarmSeen s k) k.cls 0x03 k.index) := by
  rw [alarmDetect_of_running h]
  simp [hl, hp]

theorem alarmSeen_first (hl : (s.sec.alarm k).latched = false) : alarmSeen s k = { s with
    sec := s.sec.setAlarm k { s.sec.alarm k with
      cause := true, latched := true, drive := (s.sec.alarm k).policy ≠ .log } } := by
  simp only [alarmSeen, alarmMod, secMod, hl, Bool.false_eq_true, if_false, bne, beq_eq_decide, decide_not]

theorem alarmSeen_again (hl : (s.sec.alarm k).latched = true) : alarmSeen s k = { s with
    sec := s.sec.setAlarm k { s.sec.alarm k with cause := true } } := by
  simp only [alarmSeen, alarmMod, secMod, hl, if_true]

/-- The loss of VBAT leaves of the store that it keeps nothing, and each class's policy as it stands. -/
theorem vbatLost_eq : vbatLost s = { s with
    kvl := { s.kvl with vbat := [], erases := 0 }
    sec := { s.sec with
      mesh := { s.sec.mesh with stored := none }, voltage := { s.sec.voltage with stored := none }
      clock := { s.sec.clock with stored := none }, temperature := { s.sec.temperature with stored := none }
      vbat := { s.sec.vbat with stored := none }
      vbatValid := false, tickMark := 0, refLossFlag := false, vbatEpoch := 0, vbatLoss := true } } := by
  simp [vbatLost, AlarmKind.all, alarmMod, secMod, Sec.setAlarm, Sec.alarm]

theorem alarmsRaised : Spec.AlarmsRaised := by
  intro s k hw
  have hm := collectorRuns_of_watching hw
  refine ⟨exec_alarmCommand.trans (congrArg _ (alarmCause_gone hw)), fun hk hl hp => ?_, fun hk hl hp => ?_, fun hk hl => ?_,
    fun hl hp => ?_⟩
  · refine ⟨_, exec_alarmCommand.trans (congrArg _ ((alarmCause_present hw hk).trans (alarmDetect_of_kept hm (.inr hp)))),
      raised_raise rfl, ?_⟩
    rw [alarmSeen_first hl]
    rfl
  · refine ⟨_, exec_alarmCommand.trans (congrArg _ ((alarmCause_present hw hk).trans (alarmDetect_of_erase hm hl hp))), ?_,
      zeroizeStart_erasing, ?_⟩
    · obtain ⟨r, hr⟩ := raised_raise (s := s) (u := alarmSeen s k) (cls := k.cls) (unit := 0x03) (sub := k.index) rfl
      exact ⟨r, by rw [zeroizeStart_flt]; exact hr⟩
    · rw [zeroizeStart_sec, alarmSeen_first hl, hp]
      rfl
  · refine ⟨_, exec_alarmCommand.trans (congrArg _ ((alarmCause_present hw hk).trans (alarmDetect_of_kept hm (.inl hl)))),
      raised_raise rfl, ?_⟩
    rw [alarmSeen_again hl]
    rfl
  · have hd : alarmCause s .vbat true = raise (alarmSeen (vbatLost s) .vbat) .alarmVbat 0x03 4 :=
      (alarmCause_vbat hw).trans (alarmDetect_of_kept (by rw [vbatLost_eq]; exact hm) (.inr (by rw [vbatLost_eq]; exact hp)))
    rw [vbatLost_eq, alarmSeen_first (by exact hl)] at hd
    refine ⟨_, exec_alarmCommand (k := .vbat).trans (congrArg _ hd), raised_raise rfl, rfl, rfl, rfl, rfl, rfl, rfl, fun j => ?_⟩
    cases j <;> rfl
end

/-! The acknowledgement. -/

/-- A class as the acknowledgement of `v` leaves it (R578). -/
def alarmAcked (v : W64) (k : AlarmKind) (a : AlarmState) : AlarmState :=
  if v.getLsbD k.index = true ∧ a.cause = false then { a with latched := false, drive := false } else a

theorem setAlarm_alarm (x : Sec) (k : AlarmKind) : x.setAlarm k (x.alarm k) = x := by cases k <;> rfl

theorem alarmMod_acked {s : State} {v : W64} {k : AlarmKind} :
    (if v.getLsbD k.index then alarmMod s k (fun a => if a.cause then a else { a with latched := false, drive := false }) else s) =
      alarmMod s k (alarmAcked v k) := by
  have hid : alarmMod s k (fun a => a) = s := by simp only [alarmMod, secMod, setAlarm_alarm]
  cases hv : v.getLsbD k.index
  · simp only [alarmMod, secMod, alarmAcked, hv, Bool.false_eq_true, false_and, if_false, setAlarm_alarm]
  · simp only [alarmMod, secMod, alarmAcked, hv, true_and, if_true]
    cases (s.sec.alarm k).cause <;> rfl

theorem alarmAck_eq {s : State} {v : W64} : alarmAck s v = { s with sec := { s.sec with
    mesh := alarmAcked v .mesh s.sec.mesh, voltage := alarmAcked v .voltage s.sec.voltage
    clock := alarmAcked v .clock s.sec.clock, temperature := alarmAcked v .temperature s.sec.temperature
    vbat := alarmAcked v .vbat s.sec.vbat } } := by
  have hfold : alarmAck s v = AlarmKind.all.foldl (fun s k => alarmMod s k (alarmAcked v k)) s := by
    simp only [alarmAck, alarmMod_acked]
  rw [hfold]
  simp only [AlarmKind.all, List.foldl_cons, List.foldl_nil, alarmMod, secMod, Sec.setAlarm, Sec.alarm]

theorem alarmsAcknowledged : Spec.AlarmsAcknowledged := by
  intro s v
  refine ⟨_, congrArg Host.Outcome.next alarmAck_eq, rfl, fun k => ?_⟩
  cases k <;> rfl

end Sys2Proof.Machine

open Sys2Proof.Machine in
/-- Settles O21: a detection is `alarmSeen` with its report, followed by the erase where the policy asks for it; an acknowledgement
acts on each class by itself (`alarmAck_eq`). -/
theorem alarms : Obligations.Alarms := ⟨alarmsRaised, alarmsAcknowledged⟩

end

section
/-! What a drop of packets leaves of the device: it changes packets, their queues and counters, and what goes to the host
(R284, R285, R472). -/

namespace Sys2Proof.Machine

/-- The device without its packets, queues and counters, and without what its host and the sideband port see. -/
def apart (s : State) : State :=
  { s with
    crb := Crb.reset, dec := Dec.reset, sch := Sch.reset, ldg := Ldg.reset, que := Que.reset, hif := Hif.reset, sb := Sb.reset
    out := [], free := 0 }

section
variable {s : State}

@[simp] theorem apart_ite {c : Prop} [Decidable c] {t : State} : apart (if c then s else t) = if c then apart s else apart t :=
  apply_ite _ _ _ _

@[simp] theorem apart_emit {o : Out} : apart (emit s o) = apart s := rfl
@[simp] theorem apart_hostWrite {e fn a : Nat} {bs : List Byte} : apart (hostWrite s e fn a bs) = apart s := rfl
@[simp] theorem apart_queueMod {q : Nat} {f : HostQueue → HostQueue} : apart (queueMod s q f) = apart s := rfl
@[simp] theorem apart_adminMod {ep : Nat} {f : AdminQueue → AdminQueue} : apart (adminMod s ep f) = apart s := by
  unfold adminMod; split <;> rfl
@[simp] theorem apart_schQueueMod {n : Nat} {f : SchQueue → SchQueue} : apart (schQueueMod s n f) = apart s := rfl
@[simp] theorem apart_schPortMod {n : Nat} {f : SchPort → SchPort} : apart (schPortMod s n f) = apart s := rfl
@[simp] theorem apart_addTo {i p b : Nat} : apart (addTo s i p b) = apart s := rfl
@[simp] theorem apart_tally {u : Nat} {f : Tally → Tally} : apart (tally s u f) = apart s := rfl

@[simp] theorem apart_msix {fn v : Nat} : apart (msix s fn v) = apart s := by
  unfold msix; (repeat' split) <;> rfl

@[simp] theorem apart_adminFinish {ep : Nat} {cid : W16} {st : Byte} {r : List Byte} :
    apart (adminFinish s ep cid st r) = apart s := by
  simp only [adminFinish, adminWrite]
  (repeat' split) <;> simp

@[simp] theorem apart_answer {w : Waiter} {st : Byte} {r : List Byte} : apart (answer s w st r) = apart s := by
  cases w with
  | admin ep cid => simp [answer]
  | _ => rfl

@[simp] theorem apart_disableCheck {q : Nat} : apart (disableCheck s q) = apart s := by
  unfold disableCheck
  (repeat' split) <;> try rfl
  exact foldl_keeps apart (fun _ _ => apart_answer) _ _

@[simp] theorem apart_sendFlush {q n : Nat} : apart (sendFlush q n s) = apart s := by
  induction n generalizing s with
  | zero => rfl
  | succ n ih =>
    simp only [sendFlush, completionWrite, queueSignal]
    (repeat' split) <;> simp [ih]

@[simp] theorem apart_sendFlushAll {q : Nat} : apart (sendFlushAll s q) = apart s := by simp [sendFlushAll]

@[simp] theorem apart_queueEmptied {qx : Nat} : apart (queueEmptied s qx) = apart s := by simp [queueEmptied]

@[simp] theorem apart_queueTake {qx id : Nat} : apart (queueTake s qx id) = apart s := by simp [queueTake]

@[simp] theorem apart_releaseRef {id : Nat} : apart (releaseRef s id) = apart s := by unfold releaseRef; split <;> rfl

@[simp] theorem apart_pktFree {id : Nat} : apart (pktFree s id) = apart s := by
  unfold pktFree
  split
  · rfl
  · next p _ =>
    have e : ∀ (t : State) (c : Crb), apart { t with crb := c } = apart t := fun _ _ => rfl
    rw [e]
    split
    · simp
    · split
      · rw [e]; simp
      · simp

@[simp] theorem apart_countDrop {o c l : Nat} {p t : Option Nat} : apart (countDrop s o p t c l) = apart s := by
  cases p <;> cases t <;> simp [countDrop]

@[simp] theorem apart_sendDropped {id : Nat} {p : Packet} : apart (sendDropped s id p) = apart s := by
  unfold sendDropped; split <;> simp

@[simp] theorem apart_dropPktAt {id : Nat} {r : DropReason} {p : Option (Option Nat)} : apart (dropPktAt s id r p) = apart s := by
  unfold dropPktAt; split <;> simp

@[simp] theorem apart_txAbandon {n : Nat} {r : DropReason} : apart (txAbandon s n r) = apart s := by
  unfold txAbandon; split <;> simp

theorem txAbandon_lnm {n : Nat} {r : DropReason} : (txAbandon s n r).lnm = s.lnm := by
  unfold txAbandon
  split
  · rfl
  · exact congrArg Line.lnm dropPktAt_line
end

/-! A frame in transmission that ends counts for its port, whose state stays. -/

/-- The states of the ports. -/
def portState (s : State) (n : Nat) : Option PortState := (portOf s n).map (·.state)

theorem portState_portMod {s : State} {m n : Nat} {f : Port → Port} (h : ∀ p, (f p).state = p.state) :
    portState (portMod s m f) n = portState s n := by
  unfold portState
  by_cases hn : n = m
  · subst hn
    rw [portOf_portMod_same, Option.map_map]
    exact congrArg (fun g => Option.map g (portOf s n)) (funext h)
  · rw [portOf_portMod_other _ _ hn]

theorem portState_txTruncate {s : State} {m n : Nat} {r : DropReason} : portState (txTruncate s m r) n = portState s n := by
  have hl : ∀ {a b : State}, a.lnm = b.lnm → portState a n = portState b n := fun h => by
    unfold portState portOf
    rw [h]
  unfold txTruncate
  split
  · exact (hl txAbandon_lnm).trans (portState_portMod (fun _ => rfl))
  · exact hl txAbandon_lnm

theorem apart_txTruncate {s : State} {n : Nat} {r : DropReason} : ∃ l, apart (txTruncate s n r) = { apart s with lnm := l } := by
  unfold txTruncate
  split
  · exact ⟨_, apart_txAbandon⟩
  · exact ⟨_, apart_txAbandon⟩

/-! A port that SEC forces to the safe state (R558). -/

/-- One port of the loss of REF_100: its frame ends, it is squelched, and it enters SAFE. -/
def portForced (s : State) (n : Nat) : State :=
  portEntersSafe (schPortMod (txTruncate s n .safeState) n (fun p => { p with squelched := true })) n

/-- The port is in the safe state, or its macro is off. -/
def PortSafe (x : Option PortState) : Prop := ∀ st, x = some st → st = .safe ∨ st = .offline

theorem portSafe_state {d : Bool} {p : Port} : (portSafe d p).state = .safe ∨ (portSafe d p).state = .offline := by
  unfold portSafe
  split
  · next h =>
    simp only [Bool.and_eq_true, decide_eq_true_eq] at h
    exact .inr h.1
  · exact .inl rfl

theorem portState_portForced_same {s : State} {n : Nat} : PortSafe (portState (portForced s n) n) := by
  intro st h
  unfold portForced portEntersSafe portState at h
  rw [portOf_portMod_same, Option.map_map, Option.map_eq_some_iff] at h
  obtain ⟨p, -, rfl⟩ := h
  exact portSafe_state

theorem portState_portForced_other {s : State} {m n : Nat} (h : n ≠ m) : portState (portForced s m) n = portState s n := by
  unfold portForced portEntersSafe portState
  rw [portOf_portMod_other _ _ h]
  exact portState_txTruncate

theorem portState_foldl_portForced {l : List Nat} {s : State} {n : Nat} (h : n ∈ l ∨ PortSafe (portState s n)) :
    PortSafe (portState (l.foldl portForced s) n) := by
  induction l generalizing s with
  | nil => exact h.resolve_left (List.not_mem_nil)
  | cons m l ih =>
    refine ih ?_
    by_cases hm : n = m
    · subst hm
      exact .inr portState_portForced_same
    · rw [portState_portForced_other hm]
      exact h.imp_left (fun hn => (List.mem_cons.mp hn).resolve_left hm)

theorem apart_foldl_portForced {l : List Nat} {s : State} : ∃ x, apart (l.foldl portForced s) = { apart s with lnm := x } := by
  induction l generalizing s with
  | nil => exact ⟨_, rfl⟩
  | cons m l ih =>
    obtain ⟨x, hx⟩ := ih (s := portForced s m)
    obtain ⟨y, hy⟩ := apart_txTruncate (s := s) (n := m) (r := .safeState)
    refine ⟨x, hx.trans ?_⟩
    have hz : apart (portForced s m) = { apart (txTruncate s m .safeState) with lnm := (portForced s m).lnm } := rfl
    rw [hz, hy]

/-- A port that stands in the port map is listed. -/
theorem mem_keys_of_tget {α : Type} {t : Tbl α} {n : Nat} {x : α} (h : tget t n = some x) : n ∈ t.map (·.1) := by
  induction t with
  | nil => cases h
  | cons e t ih =>
    simp only [tget] at h
    split at h
    · next hk => exact hk ▸ List.mem_cons_self
    · exact List.mem_cons_of_mem _ (ih h)

/-- Every mapped port is forced. -/
theorem portSafe_forced (s : State) (n : Nat) : PortSafe (portState ((s.lnm.ports.map (·.1)).foldl portForced s) n) := by
  refine portState_foldl_portForced ?_
  cases h : portOf s n with
  | none => exact .inr (fun st hst => by simp [portState, h] at hst)
  | some p => exact .inl (mem_keys_of_tget h)

end Sys2Proof.Machine
end

section
/-! Lost clocks, die sensors and HBM errors (R39, R241, R551, R557, R558). -/

namespace Sys2Proof.Machine

/-- Whatever the policy, a detection with the collector running is `alarmSeen` with its report, apart from the slab, the engines, the
storage unit and the key vault. -/
theorem offSlab_alarmDetect {s : State} {k : AlarmKind} (h : collectorRuns s = true) :
    offSlab (alarmDetect s k) = offSlab (raise (alarmSeen s k) k.cls 0x03 k.index) := by
  rw [alarmDetect_of_running h]
  split
  · exact offSlab_zeroizeStart
  · rfl

section
variable {s : State} {k : AlarmKind} (h : collectorRuns s = true)
include h

theorem alarmDetect_rst : (alarmDetect s k).rst = s.rst := (congrArg State.rst (offSlab_alarmDetect (k := k) h) :)
theorem alarmDetect_lnm : (alarmDetect s k).lnm = s.lnm := (congrArg State.lnm (offSlab_alarmDetect (k := k) h) :)
theorem alarmDetect_sec : (alarmDetect s k).sec = (alarmSeen s k).sec :=
  (congrArg State.sec (offSlab_alarmDetect (k := k) h) :)
theorem alarmDetect_flt : (alarmDetect s k).flt = (raise (alarmSeen s k) k.cls 0x03 k.index).flt :=
  (congrArg State.flt (offSlab_alarmDetect (k := k) h) :)
end

/-- The state in which the ports are forced: the flag is kept, and AON has stopped. -/
def refLost (s : State) : State :=
  { s with
    sec := { s.sec with refLossFlag := true }
    rst := { s.rst with unlocked := if s.rst.unlocked.contains 0 then s.rst.unlocked else s.rst.unlocked ++ [0] } }

theorem ref100Loss_eq {s : State} (h : monitorsRun s = true) : ref100Loss s =
    alarmCause (fltMod (((refLost s).lnm.ports.map (·.1)).foldl portForced (refLost s)) (fun f => { f with holdLow := true }))
      .clock true := by
  simp only [ref100Loss, h, Bool.not_true, Bool.false_eq_true, if_false]
  rfl

theorem mem_unlocked {l : List Nat} {d : Nat} : d ∈ if l.contains d then l else l ++ [d] := by
  split
  · next h => exact List.contains_iff_mem.mp h
  · exact List.mem_append_right _ List.mem_cons_self

theorem ref100Loss_spec {s : State} (hw : Spec.watching s) : Spec.runs .ref100Loss s (fun u =>
    0 ∈ u.rst.unlocked ∧ u.flt.holdLow = true ∧ u.sec.refLossFlag = true ∧ u.sec.clock.latched = true ∧
      (∃ r ∈ u.flt.inbox, r.cls = .alarmClock) ∧ ∀ n p, portOf u n = some p → p.state = .safe ∨ p.state = .offline) := by
  obtain ⟨x, hx⟩ := apart_foldl_portForced (l := (refLost s).lnm.ports.map (·.1)) (s := refLost s)
  have hports := portSafe_forced (refLost s)
  have heq := ref100Loss_eq (monitorsRun_of_watching hw)
  generalize ((refLost s).lnm.ports.map (·.1)).foldl portForced (refLost s) = t at hx hports heq
  have hrst : t.rst = (refLost s).rst := (congrArg State.rst hx :)
  have hsec : t.sec = (refLost s).sec := (congrArg State.sec hx :)
  have hwt : Spec.watching (fltMod t (fun f => { f with holdLow := true })) := by
    simp only [Spec.watching, releasedOf, fltMod_rst, hrst]
    exact hw
  have hc := collectorRuns_of_watching hwt
  refine ⟨_, congrArg Host.Outcome.next (heq.trans (alarmCause_present hwt (by decide))), ?_, ?_, ?_, ?_, ?_, fun n p hp => ?_⟩
  · rw [alarmDetect_rst hc, fltMod_rst, hrst]
    exact mem_unlocked
  · rw [alarmDetect_flt hc]
    rfl
  · rw [alarmDetect_sec hc]
    exact congrArg Sec.refLossFlag hsec
  · rw [alarmDetect_sec hc]
    rfl
  · rw [alarmDetect_flt hc]
    exact ⟨_, List.mem_append_right _ List.mem_cons_self, rfl⟩
  · have hp' : portState t n = some p.state := by
      rw [portOf, alarmDetect_lnm hc, fltMod_lnm] at hp
      exact congrArg (Option.map Port.state) hp
    exact hports n _ hp'

/-! The loss of another PLL. -/

theorem lockDomain_of_watched {d : Nat} (h0 : d ≠ 0) (h38 : d ≠ 38) (hd : d < 16 ∨ 32 ≤ d) : lockDomain d = true := by
  simp only [lockDomain, Bool.and_eq_true, Bool.not_eq_true', Bool.and_eq_false_iff, decide_eq_false_iff_not, bne_iff_ne]
  omega

theorem clockLossLevel_of_watched {d : Nat} (h0 : d ≠ 0) (h38 : d ≠ 38) (hd : d < 16 ∨ 32 ≤ d) : clockLossLevel d =
    if d ∈ [1, 2, 11] then 4 else if d < 16 then 3 else if d < 37 then 2 else 1 := by
  simp only [clockLossLevel, List.mem_cons, List.not_mem_nil, or_false]
  split_ifs <;> omega

theorem clockLoss_of_watched {s : State} {d : Nat} (hw : Spec.watching s) (hl : d ∉ s.rst.unlocked) (hd : lockDomain d = true) :
    clockLoss s d = raiseAt { s with rst := { s.rst with unlocked := s.rst.unlocked ++ [d] } } .clockLockLoss timebaseUnit
      (subjU timebaseUnit d) (clockLossLevel d) d := by
  have hc : s.rst.unlocked.contains d = false := by simpa using hl
  simp only [clockLoss, hd, hc, Bool.not_true, Bool.false_eq_true, if_false]
  exact reportHeld_of_running (collectorRuns_of_watching (s := s) hw)

theorem clockLoss_spec : Spec.ClockLoss := by
  refine ⟨fun s hw _ => ref100Loss_spec hw, fun _ => rfl, fun s d hw hl h0 h38 hd => ?_, fun _ _ => rfl⟩
  have hu : exec (.clockLockLoss d) s = .next (clockLoss s d.val) := congrArg Host.Outcome.next (if_neg h0)
  refine ⟨_, hu.trans (congrArg _ (clockLoss_of_watched hw hl (lockDomain_of_watched h0 h38 hd))), rfl, _, rfl, rfl, rfl, ?_⟩
  exact clockLossLevel_of_watched h0 h38 hd

/-! Sensors and HBM. -/

/-- The first reading of any sensor is the hottest. -/
theorem sensorRead_of_first {s : State} {i : Nat} {v : BitVec 10} (h : s.flt.sensors = []) : sensorRead s i v =
    { s with flt := { s.flt with sensors := [(i, v)] }, sec := { s.sec with junction := v } } := by
  simp [sensorRead, fltMod, h, tset]

theorem channelError_of_few {s : State} {c : Nat} (h : tgetD s.hbmU.errors c [] = []) : channelError s c =
    { s with hbmU := { s.hbmU with errors := tset s.hbmU.errors c [s.tmb.tick.toNat] } } := by
  simp [channelError, h, now]

theorem channelError_of_sixteenth {s : State} {c : Nat} (hlen : (tgetD s.hbmU.errors c []).length = 15)
    (hin : ∀ t ∈ tgetD s.hbmU.errors c [], s.tmb.tick.toNat < t + 1000000) : channelError s c =
      channelFail { s with hbmU := { s.hbmU with
        errors := tset s.hbmU.errors c (now s :: tgetD s.hbmU.errors c []) } } c := by
  have hf : (tgetD s.hbmU.errors c []).filter (fun t => decide (now s < t + 1000000)) = tgetD s.hbmU.errors c [] :=
    List.filter_eq_self.mpr (fun t ht => decide_eq_true (hin t ht))
  simp [channelError, hf, hlen]

theorem hbmError_of_data {s : State} {a : Nat} (h1 : 0x204000000 ≤ a) (h2 : a < 0x1680000000) :
    hbmError s a = channelError s (hbmChannelOf a) := by
  have e1 : ¬ hbmEnd ≤ a := by unfold hbmEnd; omega
  have e2 : ¬ a < 0x200000000 := by omega
  simp only [hbmError, if_neg e1, if_neg e2, if_neg (Nat.not_lt.mpr h1)]

theorem raised_channelFail {s u : State} {c : Nat} (h : u.flt = s.flt) :
    Spec.raised s (channelFail u c) .hbmChannelFail (0x38 + c / 16) (c % 16) := raised_raise h

theorem sensorsAndHbm : Spec.SensorsAndHbm := by
  refine ⟨fun s i v hs => ⟨fun hv => ?_, fun hv => ?_, fun hv => ?_, fun hv => ?_⟩, fun s stack channel => ?_,
    fun s a h1 h2 he => ?_, fun s a ts h1 h2 he hlen hin => ?_⟩
  · exact congrArg Host.Outcome.next ((if_neg (Int.not_lt.mpr hv)).trans (sensorRead_of_first hs))
  · refine ⟨_, congrArg Host.Outcome.next (if_pos hv), ?_⟩
    rw [sensorRead_of_first hs]
    exact ⟨rfl, rfl, _, rfl, rfl, rfl, rfl⟩
  · exact congrArg Host.Outcome.next ((if_neg (Int.not_lt.mpr hv)).trans (sensorRead_of_first hs))
  · refine ⟨_, congrArg Host.Outcome.next (if_pos hv), ?_⟩
    rw [sensorRead_of_first hs]
    exact ⟨rfl, rfl, _, rfl, rfl, rfl, rfl⟩
  · have hq : (stack.val * 16 + channel.val) / 16 = stack.val := by omega
    have hr : (stack.val * 16 + channel.val) % 16 = channel.val := by omega
    refine ⟨_, rfl, rfl, ?_⟩
    have h := raised_channelFail (s := s) (u := s) (c := stack.val * 16 + channel.val) rfl
    rwa [hq, hr] at h
  · exact congrArg Host.Outcome.next ((hbmError_of_data h1 h2).trans (channelError_of_few he))
  · subst he
    exact ⟨_, congrArg Host.Outcome.next ((hbmError_of_data h1 h2).trans (channelError_of_sixteenth hlen hin)), rfl,
      raised_channelFail rfl⟩

end Sys2Proof.Machine

open Sys2Proof.Machine in
/-- Settles O22: the ports are forced one by one (`portSafe_forced`), and what follows is a detection (`offSlab_alarmDetect`); sensors
and HBM by their equations. -/
theorem clockAndSensors : Obligations.ClockAndSensors := ⟨clockLoss_spec, sensorsAndHbm⟩

end

section
/-! Fault records: what a checker's report freezes, a report that merges or opens a record, and acknowledgement (R555, R562-R568). -/

namespace Sys2Proof.Machine

/-- What the report carries once its checker has seen it. -/
def checkerCap (s : State) (r : Report) : Capture :=
  let old := tgetD s.flt.checkers (checkerUnit r.cls r.subj * 65536 + r.cap.checker.toNat) Capture.blank
  if r.cap.valid = false then r.cap
  else if old.valid then { old with count := satInc old.count }
  else { r.cap with
    injected := r.cap.injected || decide (s.flt.injArm = true ∧ s.flt.injUnit.toNat = checkerUnit r.cls r.subj ∧
      s.flt.injChecker = r.cap.checker)
    count := 0#16 }

/-- The collector once the report's checker has frozen it or counted it. -/
def checkerFlt (s : State) (r : Report) : Flt :=
  if r.cap.valid = false then s.flt
  else { s.flt with
    checkers := tset s.flt.checkers (checkerUnit r.cls r.subj * 65536 + r.cap.checker.toNat) (checkerCap s r)
    injArm := s.flt.injArm && !decide (s.flt.injArm = true ∧ s.flt.injUnit.toNat = checkerUnit r.cls r.subj ∧
      s.flt.injChecker = r.cap.checker) }

theorem checkerRecord_eq {s : State} {r : Report} :
    checkerRecord s r = ({ s with flt := checkerFlt s r }, { r with cap := checkerCap s r }) := by
  have hhit : (s.flt.injArm && s.flt.injUnit.toNat == checkerUnit r.cls r.subj && s.flt.injChecker == r.cap.checker) =
      decide (s.flt.injArm = true ∧ s.flt.injUnit.toNat = checkerUnit r.cls r.subj ∧ s.flt.injChecker = r.cap.checker) := by
    rw [Bool.decide_and, Bool.decide_and, Bool.decide_eq_true, beq_eq_decide, beq_eq_decide, Bool.and_assoc]
  cases hv : r.cap.valid
  · simp only [checkerRecord, checkerFlt, checkerCap, hv, Bool.not_false, if_true]
  · simp only [checkerRecord, checkerFlt, checkerCap, fltMod, hv, hhit, Bool.not_true, Bool.false_eq_true, reduceCtorEq, if_false]

section
variable {s : State} {r : Report}

theorem domainReport_of_single {cls : W16} {l : Nat} {subj : W32} (h : domMember s = false) : domainReport s cls l subj = s := by
  simp only [domainReport, h, Bool.not_false, Bool.true_or, if_true]

theorem faultReportCmd_of_given (hc : releasedOf s 9 = true) (ha : 0 ∉ s.rst.unlocked) (hl : r.listed = true) :
    faultReportCmd s (some r) = takeReport { s with flt := checkerFlt s r } { r with cap := checkerCap s r } := by
  have ha' : s.rst.unlocked.contains 0 = false := by simpa using ha
  have hrun : collectorRuns { s with flt := checkerFlt s r } = true := by
    rw [collectorRuns, show releasedOf { s with flt := checkerFlt s r } 9 = true from hc, Bool.true_or]
  simp only [faultReportCmd, ha', hl, checkerRecord_eq, hrun, faultReport, Bool.not_true, Bool.false_eq_true, if_false, if_true]

theorem faultReportCmd_of_waiting (hc : releasedOf s 9 = true) (ha : 0 ∉ s.rst.unlocked) (hi : s.flt.inbox = [r]) :
    faultReportCmd s none = takeReport { s with flt := { s.flt with inbox := [] } } r := by
  have hrun : collectorRuns s = true := by rw [collectorRuns, hc, Bool.true_or]
  simp [faultReportCmd, ha, hrun, faultReport, hi, firstReport, fltMod]

theorem faultReportCmd_of_none (ha : 0 ∉ s.rst.unlocked) (hi : s.flt.inbox = []) : faultReportCmd s none = s := by
  simp [faultReportCmd, ha, faultReport, hi, firstReport]

/-- A report of an OPEN record counts there. -/
theorem takeReport_of_open {i : Nat} {x : FaultRecord} (ho : openRecord s.flt.store r.cls.code r.subj = some i)
    (hx : tget s.flt.store i = some x) (hd : domMember s = false) : takeReport s r = { s with flt := { s.flt with
      store := tset s.flt.store i { x with count := satInc x.count, lastTick := s.tmb.tick } } } := by
  simp only [takeReport, ho, mergeReport, fltMod, tadj, hx]
  exact domainReport_of_single hd

end

/-! A report that opens a record below L3, with nothing that raises it. -/

/-- The record that opens at place `i`. -/
def openedRecord (s : State) (r : Report) (i : Nat) : FaultRecord :=
  { FaultRecord.blank with
    seq := seqAfter s.flt.lastAnySeq, level := r.level, injected := r.cap.injected, forced := r.forced
    cls := BitVec.ofNat 16 r.cls.code, index := BitVec.ofNat 8 i, subject := r.subj, firstTick := s.tmb.tick
    lastTick := s.tmb.tick, count := 1, bootEpoch := s.rst.epoch, capture := r.cap, detail := r.detail
    journaled := decide (2 ≤ r.level) }

/-- The state with the record in the store. -/
def recordOpened (s : State) (r : Report) (i : Nat) : State :=
  fltMod (takeSeq s).2 (fun f => { f with
    store := tset f.store i (openedRecord s r i), lastOpenSeq := seqAfter s.flt.lastAnySeq })

/-- What an L2 record does at once (R567). -/
def contained (s : State) (cls : FaultClass) (subj : W32) : State :=
  fltMod (fltPulse s) (fun f => { f with contain := f.contain ++ [{ cls := cls, subj := subj, level := 2 }] })

section
variable {s : State} {r : Report} (ho : s.flt.overrides = []) (hesc : r.cls.row.esc = false)
include ho

theorem raisedLevel_of_plain : raisedLevel s.flt.overrides r.cls r.level = r.level := by
  rw [ho]
  rfl

include hesc

theorem newLevel_of_plain : newLevel s r = r.level := by
  have he : escalates s.flt.overrides r.cls = false := by
    rw [ho]
    exact hesc
  simp only [newLevel, raisedLevel_of_plain ho, he, Bool.false_and, Bool.false_eq_true, if_false]
end

theorem domMember_fltMod {s : State} {f : Flt → Flt} : domMember (fltMod s f) = domMember s := rfl
theorem domMember_event {s : State} {t : EventType} {b : List Byte} : domMember (event s t b) = domMember s := rfl

theorem react_of_low {s : State} {cls : FaultClass} {subj : W32} {l : Nat} (hl : l < 2) (hirq : 2 < s.flt.irqLevel.toNat) :
    react s cls subj l = (s, .notRequested) := by
  have h1 : ¬ (1 ≤ l ∧ s.flt.irqLevel.toNat ≤ l) := by omega
  simp only [react, if_neg h1, if_neg (Nat.not_le.mpr hl), if_pos (Nat.lt_succ_of_lt hl)]

theorem react_of_two {s : State} {cls : FaultClass} {subj : W32} (hirq : 2 < s.flt.irqLevel.toNat) :
    react s cls subj 2 = (contained s cls subj, .notRequested) := by
  have h1 : ¬ (1 ≤ 2 ∧ s.flt.irqLevel.toNat ≤ 2) := by omega
  simp only [react, if_neg h1]
  rfl

section
variable {s : State} {r : Report} (ho : s.flt.overrides = []) (hesc : r.cls.row.esc = false)
  (hirq : 2 < s.flt.irqLevel.toNat) (hjl : s.flt.journalLevel = 2) {i : Nat} (hi : storePlace s.flt.store = some i)
  (hd : domMember s = false)
include ho hesc hirq hjl hi hd

theorem openReport_of_low (hal : r.cls.isAlarm = false) (hlow : r.level < 2) : openReport s r =
    if 1 ≤ r.level then event (recordOpened s r i) .fault (FaultRecord.event 0 (openedRecord s r i)) else recordOpened s r i := by
  have h4 : ¬ r.level = 4 := by omega
  have h2 : decide (2 ≤ r.level) = false := decide_eq_false (Nat.not_le.mpr hlow)
  have hj : decide (s.flt.journalLevel.toNat ≤ r.level) = false := by rw [hjl]; exact h2
  have hr := react_of_low (cls := r.cls) (subj := r.subj) hlow hirq
  simp only [openReport, newLevel_of_plain ho hesc, raisedLevel_of_plain ho, hr, hj, hal, takeSeq, fltMod_flt, fltMod_rst, fltMod_tmb,
    hi, h4, lt_irrefl, decide_false, Bool.or_self, Bool.false_and, false_and, Bool.false_eq_true, if_false, Option.getD_some,
    recordOpened, openedRecord, h2]
  rw [domainReport_of_single (by split <;> exact hd)]
  rfl

theorem openReport_of_two (hl : r.level = 2) (hloss : s.flt.ringLoss = none) (hring : s.flt.ring.length < 1024) : openReport s r =
    let t := contained s r.cls r.subj
    fltMod (event (recordOpened t r i) .fault (FaultRecord.event 0 (openedRecord t r i)))
      (fun f => { f with ring := f.ring ++ [openedRecord t r i] }) := by
  have hr := react_of_two (cls := r.cls) (subj := r.subj) hirq
  have hn : newLevel s r = 2 := (newLevel_of_plain ho hesc).trans hl
  have hsum : ringSummary (contained s r.cls r.subj) = contained s r.cls r.subj := by
    rw [ringSummary, show (contained s r.cls r.subj).flt.ringLoss = none from hloss]
  have hj : decide ((contained s r.cls r.subj).flt.journalLevel.toNat ≤ 2) = true :=
    decide_eq_true (Nat.le_of_eq (congrArg BitVec.toNat hjl))
  have hi' : storePlace (contained s r.cls r.subj).flt.store = some i := hi
  have hlen : ¬ ringSize ≤ (contained s r.cls r.subj).flt.ring.length := Nat.not_le.mpr hring
  have hlt : decide ((contained s r.cls r.subj).flt.ring.length < ringSize) = true := decide_eq_true hring
  have hraise : raisedLevel s.flt.overrides r.cls 2 = 2 := hl ▸ raisedLevel_of_plain ho
  have h1 : (1 ≤ 2) = True := by decide
  have h2 : (2 ≤ 2) = True := by decide
  have h4 : (2 = 4) = False := by decide
  simp only [openReport, recordOpened, openedRecord, hn, hr, hl, hraise, hsum, hj, hi', takeSeq, fltMod_flt, fltMod_rst, fltMod_tmb,
    event_flt, ringPush, hlen, hlt, h1, h2, h4, lt_irrefl, decide_true, decide_false, Bool.false_eq_true, Bool.true_or,
    Bool.true_and, false_and, if_true, if_false, Option.getD_some]
  rw [domainReport_of_single (by rw [domMember_fltMod, domMember_event, domMember_fltMod, domMember_fltMod]; exact hd)]
  rfl

end

theorem recordOpened_eq {s : State} {r : Report} {i : Nat} : recordOpened s r i = { s with flt := { s.flt with
    lastAnySeq := seqAfter s.flt.lastAnySeq, store := tset s.flt.store i (openedRecord s r i)
    lastOpenSeq := seqAfter s.flt.lastAnySeq } } := rfl

theorem contained_eq {s : State} {cls : FaultClass} {subj : W32} : contained s cls subj = { s with flt := { s.flt with
    contain := s.flt.contain ++ [{ cls := cls, subj := subj, level := 2 }]
    pulses := if s.flt.pulseEnd.isSome then s.flt.pulses else wrapInc s.flt.pulses
    pulseEnd := some ((nowBeats s + 16004) / 1600, (nowBeats s + 16004) % 1600)
    pulseFrom := if s.flt.pulseEnd.isSome then s.flt.pulseFrom else nowBeats s + 4 } } := by
  simp only [contained, fltPulse, fltMod, Nat.add_assoc, Nat.reduceAdd]

theorem takeReport_of_new {s : State} {r : Report} (h : openRecord s.flt.store r.cls.code r.subj = none) :
    takeReport s r = openReport s r := by simp only [takeReport, h]

theorem checkerFlt_frame {s : State} {r : Report} : ∃ c a, checkerFlt s r = { s.flt with checkers := c, injArm := a } := by
  unfold checkerFlt
  split
  · exact ⟨_, _, rfl⟩
  · exact ⟨_, _, rfl⟩

/-- What a low level adds to a record that has opened: its event. -/
theorem eventFrom_eq {s : State} {l : Nat} {b : List Byte} : (if 1 ≤ l then event s .fault b else s) = { s with
    que := if 1 ≤ l then { s.que with events := s.que.events ++ [{ type := .fault, tick := s.tmb.tick, record := b }] } else s.que } := by
  split <;> rfl

theorem faultReports : Spec.FaultReports := by
  intro s r hc ha hd
  have ha' : s.rst.unlocked.contains 0 = false := by simpa using ha
  refine ⟨fun hl => ?_, fun hi => congrArg Host.Outcome.next (faultReportCmd_of_none ha hi), fun hl => ?_⟩
  · refine congrArg Host.Outcome.next ?_
    simp only [faultReportCmd, ha', hl, Bool.not_false, Bool.false_eq_true, if_false, if_true]
  intro checker key old hit cap f
  have hcap : cap = checkerCap s r := rfl
  have hflt : f = checkerFlt s r := rfl
  clear_value f cap
  subst hcap hflt
  obtain ⟨c, a, hf⟩ := checkerFlt_frame (s := s) (r := r)
  have hcmd : exec (.faultReport (some r)) s =
      .next (takeReport { s with flt := checkerFlt s r } { r with cap := checkerCap s r }) :=
    congrArg Host.Outcome.next (faultReportCmd_of_given hc ha hl)
  have hwait : s.flt.inbox = [r] → exec (.faultReport none) s = .next (takeReport { s with flt := { s.flt with inbox := [] } } r) :=
    fun hi => congrArg Host.Outcome.next (faultReportCmd_of_waiting hc ha hi)
  refine ⟨fun i x ho hx => ⟨?_, fun hi => ?_⟩, fun ho hov hesc hal hloss hring hlev hirq hjl i hi _ => ?_, fun hi hv => ?_⟩
  · rw [hcmd, hf]
    exact congrArg _ (takeReport_of_open ho hx hd)
  · exact (hwait hi).trans (congrArg _ (takeReport_of_open ho hx hd))
  · rw [Spec.runs, hcmd, hf, takeReport_of_new (by exact ho)]
    by_cases h2 : r.level = 2
    · rw [openReport_of_two (s := { s with flt := { s.flt with checkers := c, injArm := a } }) (r := { r with cap := checkerCap s r })
        hov hesc hirq hjl hi hd h2 hloss hring]
      simp only [recordOpened_eq, contained_eq, event, fltMod]
      refine ⟨_, rfl, openedRecord s { r with cap := checkerCap s r } i, rfl, rfl, rfl, rfl, rfl, rfl, rfl, rfl, rfl, rfl, rfl, rfl,
        rfl, rfl, rfl, rfl, rfl, rfl, rfl, rfl, rfl, rfl, rfl, fun h => ?_, fun _ => rfl, fun h => ?_, fun _ => ⟨rfl, rfl, rfl, rfl⟩⟩
      · omega
      · omega
    · rw [openReport_of_low (s := { s with flt := { s.flt with checkers := c, injArm := a } }) (r := { r with cap := checkerCap s r })
        hov hesc hirq hjl hi hd hal (by show r.level < 2; omega), eventFrom_eq, recordOpened_eq]
      refine ⟨_, rfl, openedRecord s { r with cap := checkerCap s r } i, rfl, rfl, rfl, rfl, rfl, rfl, rfl, rfl, rfl, rfl, rfl, rfl,
        rfl, rfl, rfl, rfl, rfl, rfl, rfl, rfl, rfl, rfl, rfl, fun h => ?_, fun h => if_pos h, fun _ => ⟨rfl, rfl, rfl⟩, fun h => ?_⟩
      · exact if_neg (by show ¬ 1 ≤ r.level; omega)
      · exact absurd h h2
  · refine (hwait hi).trans (congrArg Host.Outcome.next (Eq.symm ?_))
    refine (faultReportCmd_of_given (s := { s with flt := { s.flt with inbox := [] } }) hc ha hl).trans ?_
    simp only [checkerFlt, checkerCap, hv, if_true]

/-! Acknowledgement by FLT_ACK. -/

theorem collectorRuns_of_released {s : State} (h : releasedOf s 9 = true) : collectorRuns s = true := by
  rw [collectorRuns, h, Bool.true_or]

theorem exec_faultAck_register {s : State} {v : W64} (h : releasedOf s 9 = true) : exec (.faultAck (.register v)) s =
    .next (fltMod (faultAck s (ackOfRegister v)).1 (fun f => { f with
      ackStatus := (faultAck s (ackOfRegister v)).2.1
      ackCount := BitVec.ofNat 8 (faultAck s (ackOfRegister v)).2.2.1 })) := by
  refine congrArg Host.Outcome.next ?_
  simp only [faultAckRegister, collectorRuns_of_released h, Bool.not_true, Bool.false_eq_true, if_false]

theorem faultAck_of_bad {s : State} {a : AckParams} (h : a.bad = true) : faultAck s a = (s, 1, 0, false) := by
  simp [faultAck, h]

theorem faultAck_of_absent {s : State} {a : AckParams} (hb : a.bad = false) (ha : a.all = false) (hn : ackNamed s a = []) :
    faultAck s a = (s, 7, 0, false) := by
  simp [faultAck, hb, ha, hn]

theorem faultAck_of_open {s : State} {a : AckParams} {e : Nat × FaultRecord} (hb : a.bad = false) (ha : a.all = false)
    (hrec : a.recover = false) (hre : a.rearm = false) (hn : ackNamed s a = [e]) (hk : e.2.acked = false) :
    faultAck s a = (ackOne s e, 0, 1, false) := by
  simp [faultAck, hb, ha, hrec, hre, hn, hk]

/-- A record acknowledged whose opening was not journaled has its event alone. -/
theorem ackOne_of_unjournaled {s : State} {i : Nat} {x : FaultRecord} (hl : 1 ≤ x.level) (hj : x.journaled = false) :
    ackOne s (i, x) = { s with
      flt := { s.flt with store := tset s.flt.store i { x with acked := true } }
      que := { s.que with events := s.que.events ++
        [{ type := .fault, tick := s.tmb.tick, record := FaultRecord.event 2 { x with acked := true } }] } } := by
  simp only [ackOne, hl, hj, fltMod, event, Bool.not_false, if_true]

/-- The ACK record of a journaled one (R564). -/
def ackRecord (s : State) (x : FaultRecord) : FaultRecord :=
  { x with
    acked := true, kind := .ack, seq := seqAfter s.flt.lastAnySeq, refSeq := x.seq, bootEpoch := s.rst.epoch, lost := 0
    writeTick := 0 }

theorem ackOne_of_journaled {s : State} {i : Nat} {x : FaultRecord} (hl : 1 ≤ x.level) (hj : x.journaled = true)
    (hloss : s.flt.ringLoss = none) (hring : s.flt.ring.length < 1024) : ackOne s (i, x) = { s with
      flt := { s.flt with
        store := tset s.flt.store i { x with acked := true }, lastAnySeq := seqAfter s.flt.lastAnySeq
        ring := s.flt.ring ++ [ackRecord s x] }
      que := { s.que with events := s.que.events ++
        [{ type := .fault, tick := s.tmb.tick, record := FaultRecord.event 2 { x with acked := true } }] } } := by
  have hlen : ¬ ringSize ≤ s.flt.ring.length := Nat.not_le.mpr hring
  simp only [ackOne, hl, hj, fltMod, event, ringSummary, hloss, takeSeq, ringPush, hlen, ackRecord, Bool.not_true, Bool.false_eq_true,
    if_true, if_false]
  rfl

theorem getLsbD_eq_false_of_fieldN {v : W64} {lo n k : Nat} (h : fieldN v.toNat lo n = 0) (h1 : lo ≤ k) (h2 : k < lo + n) :
    v.getLsbD k = false := by
  have hdiv : v.toNat / 2 ^ lo % 2 ^ n = 0 := h
  have hbit : (v.toNat / 2 ^ lo % 2 ^ n).testBit (k - lo) = false := by rw [hdiv, Nat.zero_testBit]
  rw [Nat.testBit_mod_two_pow, Nat.testBit_div_two_pow, Nat.sub_add_cancel h1, decide_eq_true (by omega), Bool.true_and] at hbit
  exact hbit

theorem faultAcknowledged : Spec.FaultAcknowledged := by
  intro s v hc place seq
  have hindex : (ackOfRegister v).index = place := fieldN_zero
  refine ⟨fun hbad => ?_, fun hbad h10 hno => ?_, fun x hf hstore hseq hacked hl hloss hring => ?_⟩
  · rw [exec_faultAck_register hc, faultAck_of_bad (bne_iff_ne.mpr hbad)]
    rfl
  · have hnone : ackNamed s (ackOfRegister v) = [] := by
      rw [ackNamed, if_neg (by exact Bool.eq_false_iff.mp h10), List.filter_eq_nil_iff]
      rintro ⟨n, x⟩ hx hm
      simp only [Bool.and_eq_true, beq_iff_eq, hindex] at hm
      exact hno x (hm.1 ▸ hx) hm.2
    rw [exec_faultAck_register hc, faultAck_of_absent (by simp [ackOfRegister, hbad]) h10 hnone]
    rfl
  · have hbit : ∀ {k}, 8 ≤ k → k < 32 → v.getLsbD k = false := fun h1 h2 => getLsbD_eq_false_of_fieldN hf h1 h2
    have hbad : fieldN v.toNat 11 21 = 0 := by
      unfold fieldN at hf ⊢
      omega
    have hnamed : ackNamed s (ackOfRegister v) = [(place, x)] := by
      rw [ackNamed, if_neg (by exact Bool.eq_false_iff.mp (hbit (by decide) (by decide))), hstore]
      simp [hindex, hseq, show (ackOfRegister v).seq = seq from rfl]
    have hack := faultAck_of_open (s := s) (a := ackOfRegister v) (by simp [ackOfRegister, hbad]) (hbit (by decide) (by decide))
      (hbit (by decide) (by decide)) (hbit (by decide) (by decide)) hnamed hacked
    have hset : tset s.flt.store place { x with acked := true } = [(place, { x with acked := true })] := by
      simp [hstore, tset]
    rw [Spec.runs, exec_faultAck_register hc, hack]
    by_cases hj : x.journaled = true
    · rw [ackOne_of_journaled hl hj hloss hring, hset]
      exact ⟨_, rfl, rfl, rfl, rfl, rfl, rfl, fun h => absurd (hj.symm.trans h) (by decide),
        fun _ => ⟨ackRecord s x, rfl, rfl, rfl, rfl, rfl, rfl, rfl, rfl, rfl, rfl, rfl⟩⟩
    · rw [ackOne_of_unjournaled hl (Bool.eq_false_iff.mpr hj), hset]
      exact ⟨_, rfl, rfl, rfl, rfl, rfl, rfl, fun _ => rfl, fun h => absurd h hj⟩

end Sys2Proof.Machine

open Sys2Proof.Machine in
/-- Settles O23: a report merges with the OPEN record of its class and subject (`takeReport_of_open`) or opens one
(`openReport_of_low`, `openReport_of_two`); an acknowledgement acts on the one record it names. -/
theorem faultRecords : Obligations.FaultRecords := ⟨faultReports, faultAcknowledged⟩

end

section
/-!
The resets: what a device reset gives and keeps, what enters the journal's ring, and the Supervisor reset (R583-R587).
-/

namespace Sys2Proof.Machine

/-- What VBAT keeps stays through every device reset (R585). -/
theorem secKept_vbat (s : State) (code : ResetSource) :
    (secKept s code).tickMark = s.sec.tickMark ∧ (secKept s code).vbatEpoch = s.sec.vbatEpoch ∧
      (secKept s code).vbatValid = s.sec.vbatValid ∧ (secKept s code).refLossFlag = s.sec.refLossFlag := by
  unfold secKept
  split
  · exact ⟨rfl, rfl, rfl, rfl⟩
  · exact ⟨rfl, rfl, rfl, rfl⟩

/-- The stored policy of an alarm stays; only power on clears LATCHED (R585). -/
theorem secKept_alarm (s : State) (code : ResetSource) (k : AlarmKind) :
    ((secKept s code).alarm k).stored = (s.sec.alarm k).stored ∧
      ((secKept s code).alarm k).latched = decide (code ≠ .powerOn ∧ (s.sec.alarm k).latched = true) := by
  unfold secKept
  split
  · cases k <;> simp_all [AlarmKind.all, Sec.alarm, Sec.setAlarm, AlarmState.stand]
  · simp_all

/-- A device reset is the meaning of its three instructions (R583). -/
theorem exec_deviceReset (s : State) (test : Bool) (i : Instr) (code : ResetSource)
    (h : (i = .powerOnReset ∧ code = .powerOn) ∨ (i = .rstNAssert ∧ code = .rstN) ∨
      (i = .rstSwDeviceReset test ∧ code = .software)) :
    ∃ t, (t = true ↔ code = .software ∧ test = true) ∧ exec i s = .next (deviceReset s code t false) := by
  obtain ⟨rfl, rfl⟩ | ⟨rfl, rfl⟩ | ⟨rfl, rfl⟩ := h
  · exact ⟨false, by simp, rfl⟩
  · exact ⟨false, by simp, rfl⟩
  · exact ⟨test, by simp, rfl⟩

theorem deviceResets : Spec.DeviceResets := by
  intro s test i code hi
  obtain ⟨t, ht, hrun⟩ := exec_deviceReset s test i code hi
  obtain ⟨hmark, hepoch, hvalid, hloss⟩ := secKept_vbat s code
  have hcode : code = .powerOn ∨ code = .rstN ∨ code = .software := by
    obtain ⟨-, rfl⟩ | ⟨-, rfl⟩ | ⟨-, rfl⟩ := hi <;> simp
  refine ⟨_, hrun, rfl, rfl, rfl, rfl, rfl, ?_, ?_, ?_, rfl, rfl, rfl, rfl, rfl, rfl, rfl, rfl, rfl, rfl, rfl, rfl, rfl, rfl, rfl,
    rfl, rfl, rfl, hmark, hepoch, hvalid, hloss, ?_⟩
  · obtain rfl | rfl | rfl := hcode <;> simp [deviceReset]
  · obtain rfl | rfl | rfl := hcode <;> rfl
  · simpa [deviceReset] using ht
  · intro k
    obtain ⟨hstored, hlatched⟩ := secKept_alarm s code k
    exact ⟨hstored, by simp [deviceReset, State.onBoard, hlatched]⟩

/-! What enters the ring leaves the reset domain's own state. -/

@[simp] theorem ringSummary_rst (s : State) : (ringSummary s).rst = s.rst := by
  unfold ringSummary
  split
  · rfl
  · split <;> rfl

@[simp] theorem ringPush_rst (s : State) (r : FaultRecord) : (ringPush s r).rst = s.rst := by
  unfold ringPush
  split <;> rfl

@[simp] theorem journalReset_rst (s : State) (cause : Option FaultRecord) (code : Nat) :
    (journalReset s cause code).rst = s.rst := by
  simp [journalReset, takeSeq]

@[simp] theorem journalWrite_rst (s : State) : (journalWrite s).rst = s.rst := by
  unfold journalWrite
  split
  · rfl
  · split
    · rfl
    · simp only [nvmPut, fltMod]
      split <;> rfl

@[simp] theorem journalFlush_rst (n : Nat) (s : State) : (journalFlush n s).rst = s.rst := by
  induction n generalizing s with
  | zero => rfl
  | succ n ih =>
    unfold journalFlush
    split
    · rfl
    · rw [ih, journalWrite_rst]

/-- A FAULT or WATCHDOG reset starts the sequence over and is counted (R584, R586). -/
theorem faultReset_rst (s : State) (code : ResetSource) (cause : Option FaultRecord)
    (h : code = .fault ∨ code = .watchdog) :
    (faultReset s code cause).rst.source = code ∧ (faultReset s code cause).rst.released = 0 ∧
      (faultReset s code cause).rst.waiting = 1 ∧ (faultReset s code cause).rst.resets = s.rst.resets + 1 := by
  obtain rfl | rfl := h <;> exact ⟨rfl, rfl, rfl, by simp [faultReset, deviceReset, wrapInc]⟩

/-- The RESET record of a cause (R564). -/
def resetEntry (s : State) (cause : Option FaultRecord) (code : Nat) : FaultRecord :=
  let c := cause.getD { FaultRecord.blank with count := 1#32 }
  { FaultRecord.blank with
    seq := seqAfter s.flt.lastAnySeq, kind := .reset, level := c.level, cls := c.cls, subject := c.subject, count := c.count
    capture := c.capture, bootEpoch := s.rst.epoch, detail := BitVec.ofNat 256 code }

/-- A ring with room that has lost nothing takes the RESET record at once. -/
theorem journalReset_of_room (s : State) (cause : Option FaultRecord) (code : Nat) (hloss : s.flt.ringLoss = none)
    (hroom : s.flt.ring.length < 1024) :
    journalReset s cause code = { s with flt := { s.flt with
      lastAnySeq := seqAfter s.flt.lastAnySeq, ring := s.flt.ring ++ [resetEntry s cause code] } } := by
  have hfull : ¬ 1024 ≤ s.flt.ring.length := by omega
  simp [journalReset, ringSummary, hloss, ringPush, ringSize, hfull, takeSeq, fltMod, resetEntry]

/-! The Supervisor. -/

/-- No H2S mailbox is full once they are emptied (R515). -/
theorem mailboxesAborted_empty (s : State) (b : Nat) :
    (tgetD (mailboxesAborted s).mbx.boxes b Mailbox.reset).h2sFull = false := by
  simp only [mailboxesAborted, tgetD, tget_tmap]
  cases tget s.mbx.boxes b with
  | none => rfl
  | some m =>
    simp only [Option.map_some, Option.getD_some]
    by_cases hfull : m.h2sFull = true
    · simp only [hfull, Bool.true_and, if_true]
      split <;> rfl
    · simp [hfull]

/-- A Supervisor reset while the clock of IEEE 1588 is off and the ring has room (R586). -/
theorem supervisorReset_of_running (s : State) (cause : Option FaultRecord) (hup : releasedOf s 6 = true)
    (hrun : s.rst.restarting = false) (hptp : s.ptp.enable = false) (hloss : s.flt.ringLoss = none)
    (hroom : s.flt.ring.length < 1024) :
    supervisorReset s cause = { s with
      rst := { s.rst with
        restarting := true, restartTick := intervalStart s, supervisorResets := s.rst.supervisorResets + 1
        wdogRunning := false }
      mbx := (mailboxesAborted s).mbx
      flt := { s.flt with
        lastAnySeq := seqAfter s.flt.lastAnySeq, ring := s.flt.ring ++ [resetEntry s cause 5] } } := by
  simp only [supervisorReset, hrun, hup, rstMod, hptp, Bool.not_true, Bool.or_false, Bool.false_eq_true, if_false]
  exact journalReset_of_room (mailboxesAborted _) cause 5 hloss hroom

theorem watchdogRecord_of_none (s : State) (h : openRecords s.flt.store = []) : watchdogRecord s = none := by
  simp [watchdogRecord, h]

/-- An expiry of the watchdog is counted with its tick (R586). -/
def expiryCounted (s : State) : State :=
  { s with rst := { s.rst with expiries := s.rst.expiries + 1, lastExpiry := BitVec.ofNat 32 s.tmb.tick.toNat } }

theorem supervisorWatchdog_of_restarting (s : State) (hup : releasedOf s 6 = true) (hrun : s.rst.restarting = true) :
    supervisorWatchdog s = faultReset (expiryCounted s) .watchdog (watchdogRecord (expiryCounted s)) := by
  simp only [supervisorWatchdog, hup, Bool.not_true, Bool.false_eq_true, if_false]
  exact if_pos hrun

theorem supervisorWatchdog_of_running (s : State) (hup : releasedOf s 6 = true) (hrun : s.rst.restarting = false)
    (hcore : releasedOf s 9 = true) :
    supervisorWatchdog s = raise (expiryCounted s) .supervisorWatchdog 0x00 0xFFFF := by
  have hfirst : supervisorWatchdog s = reportHeld (raise (expiryCounted s) .supervisorWatchdog 0x00 0xFFFF) := by
    simp only [supervisorWatchdog, hup, Bool.not_true, Bool.false_eq_true, if_false]
    exact if_neg (Bool.eq_false_iff.mp hrun)
  exact hfirst.trans (reportHeld_of_running (collectorRuns_of_released hcore))

theorem supervisorRestart : Spec.SupervisorRestart := by
  refine ⟨?_, ?_, ?_⟩
  · intro s i hi hup hrun hptp hloss hroom hopen
    have hexec : exec i s = .next (supervisorReset s none) := by
      obtain rfl | rfl := hi
      · exact congrArg (fun c => Host.Outcome.next (supervisorReset s c)) (watchdogRecord_of_none s hopen)
      · rfl
    refine ⟨_, hexec.trans (congrArg _ (supervisorReset_of_running s none hup hrun hptp hloss hroom)), rfl,
      ⟨resetEntry s none 5, rfl, rfl, rfl, rfl, rfl, rfl, rfl⟩, rfl, mailboxesAborted_empty s⟩
  · intro s hrun h0 h1
    refine ⟨congrArg Host.Outcome.next ?_, congrArg Host.Outcome.next ?_⟩
    · simp [supervisorResume, hrun, rstMod, adminOf, h0, h1]
    · simp [supervisorResume]
  · intro s hup
    exact ⟨fun hrun hcore =>
        ⟨_, congrArg Host.Outcome.next (supervisorWatchdog_of_running s hup hrun hcore), raised_raise rfl, rfl⟩,
      fun hrun =>
        ⟨_, congrArg Host.Outcome.next (supervisorWatchdog_of_restarting s hup hrun), faultReset_rst _ _ _ (.inr rfl)⟩⟩

end Sys2Proof.Machine

open Sys2Proof.Machine in
/-- Settles O25: a device reset builds the reset state anew and keeps by name what stays; the Supervisor reset is followed
through its four effects, each an equation. -/
theorem resets : Obligations.Resets :=
  ⟨deviceResets, supervisorRestart⟩

end

section
/-!
The sideband port and the test access port: the answers of the device's own commands, of MCTP control, and the TAP's walk
(R616-R620, R630).
-/

namespace Sys2Proof.Machine

/-- What a sideband command does once the port answers (R616): it acts on the state without the held request. -/
theorem exec_sideband {s : State} (hup : releasedOf s 1 = true) :
    (∀ tag, exec (.statusRead tag) s =
      .next (sbAnswer (sbTake s (.statusRead tag)) 0x01#8 tag 0#8 (statusBytes s))) ∧
    (∀ tag port, exec (.portHalt tag port) s = .next (portHalt (sbTake s (.portHalt tag port)) tag port.toNat)) ∧
    (∀ tag v, exec (.sbVersionSelect tag v) s = .next (sbVersionSelect (sbTake s (.versionSelect tag v)) tag v)) ∧
    (∀ bytes, exec (.sbRequestRx bytes) s = .next (sbRequestRx s bytes)) :=
  ⟨fun _ => congrArg Host.Outcome.next (if_pos hup), fun _ _ => congrArg Host.Outcome.next (if_pos hup),
    fun _ _ => congrArg Host.Outcome.next (if_pos hup), fun _ => congrArg Host.Outcome.next (if_pos hup)⟩

/-! PORT_HALT. -/

theorem portHalt_of_unmapped {s : State} {tag : Byte} {n : Nat} (hn : n ≠ 0xFFFF) (hp : portOf s n = none) :
    portHalt s tag n = sbAnswer s 2 tag 4 [] := by
  simp [portHalt, hn, hp]

/-- The command is of every mapped port, or of one that is mapped. -/
theorem portHalt_of_mapped {s : State} {tag : Byte} {n : Nat} (hp : n = 0xFFFF ∨ (portOf s n).isSome = true) :
    portHalt s tag n = match sbRefusal s with
      | some st => sbAnswer s 2 tag (BitVec.ofNat 8 st) []
      | none => sbAnswer (if n = 0xFFFF then { s with lnm := { s.lnm with ports := tmap s.lnm.ports fun _ p => askHalt p } }
          else portMod s n askHalt) 2 tag 0 (leBytes 8 (now s + 1)) := by
  have hmapped : (decide (n ≠ 0xFFFF) && (portOf s n).isNone) = false := by
    rcases hp with h | h
    · simp [h]
    · simp [Option.isNone_eq_false_iff.mpr h]
  simp only [portHalt, hmapped, Bool.false_eq_true, if_false]
  rfl

theorem portHalt_of_refused {s : State} {tag : Byte} {n st : Nat} (hp : n = 0xFFFF ∨ (portOf s n).isSome = true)
    (hr : sbRefusal s = some st) : portHalt s tag n = sbAnswer s 2 tag (BitVec.ofNat 8 st) [] := by
  rw [portHalt_of_mapped hp, hr]

theorem portHalt_one {s : State} {tag : Byte} {n : Nat} {p : Port} (hr : sbRefusal s = none) (hn : n ≠ 0xFFFF)
    (hp : portOf s n = some p) :
    portHalt s tag n = sbAnswer { s with lnm := { s.lnm with ports := tset s.lnm.ports n (askHalt p) } } 2 tag 0
      (leBytes 8 (now s + 1)) := by
  rw [portHalt_of_mapped (.inr (by rw [hp]; rfl)), hr]
  have hget : tget s.lnm.ports n = some p := hp
  simp only [hn, if_false, portMod, tadj, hget]

theorem portHalt_all {s : State} {tag : Byte} (hr : sbRefusal s = none) :
    portHalt s tag 0xFFFF = sbAnswer { s with lnm := { s.lnm with ports := s.lnm.ports.map fun e => (e.1, askHalt e.2) } }
      2 tag 0 (leBytes 8 (now s + 1)) := by
  rw [portHalt_of_mapped (.inl rfl), hr]
  rfl

/-- The port that a command names, as a number. -/
theorem port_named {s : State} {port : W16} (hp : port = 0xFFFF ∨ (portOf s port.toNat).isSome = true) :
    port.toNat = 0xFFFF ∨ (portOf s port.toNat).isSome = true :=
  hp.imp_left fun h => by rw [h]; rfl

theorem sbRefusal_of_recovery {s : State} (h : s.rst.recovery = true) : sbRefusal s = some 4 := by
  simp [sbRefusal, h]

theorem sbRefusal_of_notReady {s : State} (hr : s.rst.recovery = false)
    (h : s.rst.restarting = true ∨ s.hif.deviceReady = false) : sbRefusal s = some 3 := by
  by_cases hrun : s.rst.restarting = true
  · simp [sbRefusal, hr, hrun]
  · simp [sbRefusal, hr, hrun, deviceReady, h.resolve_left hrun]

theorem sbRefusal_of_ready {s : State} (hrun : s.rst.restarting = false) (hr : s.rst.recovery = false)
    (hd : s.hif.deviceReady = true) : sbRefusal s = none := by
  simp [sbRefusal, hr, hrun, deviceReady, hd]

/-! VERSION_SELECT. -/

theorem sbVersionSelect_of_large {s : State} {tag v : Byte} (hv : 16 ≤ v.toNat) :
    sbVersionSelect s tag v = sbAnswer s 3 tag 1 [] := if_pos hv

theorem sbVersionSelect_of_absent {s : State} {tag v : Byte} (hv : v.toNat < 16) (hk : slotOfVersion s.dec v.toNat = none) :
    sbVersionSelect s tag v = sbAnswer s 3#8 tag 7#8 [] := by
  simp only [sbVersionSelect, Nat.not_le.mpr hv, hk, Option.isNone_none, if_true, if_false]

theorem sbVersionSelect_of_refused {s : State} {tag v : Byte} {k st : Nat} (hv : v.toNat < 16)
    (hk : slotOfVersion s.dec v.toNat = some k) (hr : sbRefusal s = some st) :
    sbVersionSelect s tag v = sbAnswer s 3#8 tag (BitVec.ofNat 8 st) [] := by
  simp only [sbVersionSelect, Nat.not_le.mpr hv, hk, Option.isNone_some, Bool.false_eq_true, if_false, hr]

/-- The tick in a select's result. -/
theorem slice_selectResult (t : Nat) : slice (selectResult t) 8 8 = leBytes 8 t := rfl

theorem sbVersionSelect_of_current {s : State} {tag v : Byte} {k : Nat} (hv : v.toNat < 16)
    (hk : slotOfVersion s.dec v.toNat = some k) (hr : sbRefusal s = none) (hcur : v.toNat = s.dec.current) :
    sbVersionSelect s tag v = sbAnswer s 3 tag 0 (leBytes 8 (vslot s.dec s.dec.currentSlot).sinceTick.toNat) := by
  have hsel : versionSelect s v.toNat .sideband =
      adminDone s 0 (selectResult (vslot s.dec s.dec.currentSlot).sinceTick.toNat) := by
    have hk' := hcur ▸ hk
    simp only [versionSelect, hcur, hk', Option.isNone_some, Bool.false_eq_true, if_false, if_true]
  simp only [sbVersionSelect, Nat.not_le.mpr hv, hk, Option.isNone_some, Bool.false_eq_true, if_false, hr, hsel, adminDone]
  exact congrArg (sbAnswer s 3 tag 0) (slice_selectResult _)

theorem sbVersionSelect_of_other {s : State} {tag v : Byte} {k : Nat} (hv : v.toNat < 16)
    (hk : slotOfVersion s.dec v.toNat = some k) (hr : sbRefusal s = none) (hcur : v.toNat ≠ s.dec.current)
    (hsealed : s.dec.sealed_ = none) (hselect : s.dec.select = none) :
    sbVersionSelect s tag v = { s with
      sb := { s.sb with selectTag := tag }
      mir := { s.mir with delta := s.mir.delta ++ s.mir.verHeld, verHeld := [] }
      dec := { s.dec with select := some { version := v.toNat, tick := s.tmb.tick.toNat, waiter := .sideband } } } := by
  simp only [sbVersionSelect, Nat.not_le.mpr hv, hk, Option.isNone_some, Bool.false_eq_true, if_false, hr, versionSelect, hcur,
    hsealed, hselect, adminLater, verRelease, Option.map_none, Option.getD_none, List.nil_append, now]

/-! Requests. -/

theorem sbRequestRx_of_room {s : State} {b : List Byte} {r : SbRequest} (hp : sbParse b = some (some r))
    (hroom : s.sb.held.length < 4) : sbRequestRx s b = { s with sb := { s.sb with held := s.sb.held ++ [r] } } := by
  simp only [sbRequestRx, hp, Nat.not_le.mpr hroom, if_false]

theorem sbRequestRx_of_full {s : State} {b : List Byte} {r : SbRequest} (hp : sbParse b = some (some r))
    (hfull : 4 ≤ s.sb.held.length) :
    sbRequestRx s b = { s with sb := { s.sb with discarded := s.sb.discarded + 1 } } := by
  simp only [sbRequestRx, hp, hfull, if_true]
  rfl

theorem mctpAnswer_of_up {s : State} (hup : releasedOf s 1 = true) (tag : Byte) (command : Nat) (data : List Byte) :
    mctpAnswer s tag command data =
      { s with out := .sideband ([0, tag &&& 0x1F] ++ leBytes 1 command ++ [0] ++ data) :: s.out } := if_pos hup

theorem setEndpointId_of_good {s : State} {tag eid : Byte} (hup : releasedOf s 1 = true) (h0 : eid ≠ 0) (hf : eid ≠ 0xFF) :
    setEndpointId s tag eid = { s with
      sb := { s.sb with eid := eid }, out := .sideband [0, tag &&& 0x1F, 1, 0, 0, eid, 0] :: s.out } := by
  have hgood : ¬ (eid = 0#8 ∨ eid = 0xFF#8) := not_or.mpr ⟨h0, hf⟩
  simp only [setEndpointId, sbRuns, hup, Bool.not_true, Bool.false_eq_true, if_false, hgood]
  exact mctpAnswer_of_up (s := { s with sb := { s.sb with eid := eid } }) hup tag 1 _

/-! The TAP. -/

theorem tckEdge_rising {s : State} (hup : releasedOf s 14 = true) (tms tdi : Bool) :
    exec (.tckEdge true tms tdi) s =
      .next { s with tap := { tapShift s.tap tdi with state := tapNext s.tap.state tms } } := by
  refine congrArg Host.Outcome.next ?_
  simp only [tckEdge, hup, Bool.not_true, Bool.false_eq_true, if_false, if_true]

theorem tckEdge_falling {s : State} (hup : releasedOf s 14 = true) (tms tdi : Bool) :
    exec (.tckEdge false tms tdi) s = .next { s with tap := tapFall s.tap } := by
  refine congrArg Host.Outcome.next ?_
  simp only [tckEdge, hup, Bool.not_true, Bool.false_eq_true, if_false]

/-- Five rising edges with TMS high reach Test-Logic-Reset from every state. -/
theorem tapNext_five (x : TapState) :
    tapNext (tapNext (tapNext (tapNext (tapNext x true) true) true) true) true = .reset := by
  cases x <;> rfl

/-- A shift of the identification register takes TDI in at its top. -/
theorem shiftRight_or_top (v : W32) (tdi : Bool) :
    (v >>> 1) ||| BitVec.ofNat 32 (putB tdi 31) = BitVec.cons tdi (v.extractLsb' 1 31) := by
  ext i hi
  have hbit : (BitVec.ofNat 32 (putB tdi 31))[i] = (decide (i = 31) && tdi) := by
    cases tdi
    · simp [putB]
    · have htop : BitVec.ofNat 32 (putB true 31) = BitVec.twoPow 32 31 := rfl
      simp [htop, BitVec.getElem_twoPow]
  by_cases h31 : i = 31
  · subst h31
    simp [hbit, BitVec.getElem_cons]
  · simp [hbit, BitVec.getElem_cons, h31]

theorem tapShift_capture {t : Tap} {tdi : Bool} (hs : t.state = .captureDr) (hi : t.ir = 0xFE) :
    tapShift t tdi = { t with drShift := 0x19602677 } := by
  simp only [tapShift, hs]
  exact if_pos hi

theorem tapShift_shift {t : Tap} {tdi : Bool} (hs : t.state = .shiftDr) (hi : t.ir = 0xFE) :
    tapShift t tdi = { t with drShift := BitVec.cons tdi (t.drShift.extractLsb' 1 31) } := by
  have hcode : t.ir = tapIdcode := hi
  simp only [tapShift, hs, hcode, if_true, shiftRight_or_top]

theorem tapFall_shift {t : Tap} (hs : t.state = .shiftDr) (hi : t.ir = 0xFE) :
    tapFall t = { t with tdo := t.drShift.getLsbD 0, tdoDriven := true } := by
  have hcode : t.ir = tapIdcode := hi
  simp only [tapFall, hs, hcode, if_true]

end Sys2Proof.Machine

open Sys2Proof.Machine in
/-- Settles O49: each command of the sideband port by the equation of its case, the walk of the TAP by its five edges to
Test-Logic-Reset and the identification register it shifts. -/
theorem sideband : Obligations.Sideband := by
  refine ⟨fun s hup => ?_, fun s tdi hup => ?_⟩
  · obtain ⟨hstatus, hhalt, hversion, hrequest⟩ := exec_sideband hup
    refine ⟨hstatus, fun tag port => ⟨fun hn hp => ?_, fun hp => ⟨fun hr h => ?_, fun hr => ?_⟩, fun hrun hr hd => ⟨?_, ?_⟩⟩,
      fun tag v => ⟨fun hv => ?_, fun hv hk => ?_, fun k hv hk => ⟨fun hr h => ?_, fun hr => ?_, fun hrun hr hd => ⟨?_, ?_⟩⟩⟩,
      fun bytes r hp => ⟨fun hroom => ?_, fun hfull => ?_⟩, fun tag eid h0 hf => ?_, fun tag => ⟨?_, ?_, ?_, ?_⟩⟩
    · exact (hhalt ..).trans (congrArg Host.Outcome.next
        (portHalt_of_unmapped (s := sbTake s (.portHalt tag port)) (fun h => hn (BitVec.eq_of_toNat_eq h)) hp))
    · exact (hhalt ..).trans (congrArg Host.Outcome.next
        (portHalt_of_refused (s := sbTake s (.portHalt tag port)) (port_named hp) (sbRefusal_of_notReady hr h)))
    · exact (hhalt ..).trans (congrArg Host.Outcome.next
        (portHalt_of_refused (s := sbTake s (.portHalt tag port)) (port_named hp) (sbRefusal_of_recovery hr)))
    · intro p hn hp
      exact (hhalt ..).trans (congrArg Host.Outcome.next (portHalt_one (s := sbTake s (.portHalt tag port))
        (sbRefusal_of_ready hrun hr hd) (fun h => hn (BitVec.eq_of_toNat_eq h)) hp))
    · rintro rfl
      exact (hhalt ..).trans (congrArg Host.Outcome.next (portHalt_all (s := sbTake s (.portHalt tag 0xFFFF))
        (sbRefusal_of_ready hrun hr hd)))
    · exact (hversion ..).trans (congrArg Host.Outcome.next
        (sbVersionSelect_of_large (s := sbTake s (.versionSelect tag v)) hv))
    · exact (hversion ..).trans (congrArg Host.Outcome.next
        (sbVersionSelect_of_absent (s := sbTake s (.versionSelect tag v)) hv hk))
    · exact (hversion ..).trans (congrArg Host.Outcome.next
        (sbVersionSelect_of_refused (s := sbTake s (.versionSelect tag v)) hv hk (sbRefusal_of_notReady hr h)))
    · exact (hversion ..).trans (congrArg Host.Outcome.next
        (sbVersionSelect_of_refused (s := sbTake s (.versionSelect tag v)) hv hk (sbRefusal_of_recovery hr)))
    · exact fun hcur => (hversion ..).trans (congrArg Host.Outcome.next
        (sbVersionSelect_of_current (s := sbTake s (.versionSelect tag v)) hv hk (sbRefusal_of_ready hrun hr hd) hcur))
    · exact fun hcur hsealed hselect => (hversion ..).trans (congrArg Host.Outcome.next
        (sbVersionSelect_of_other (s := sbTake s (.versionSelect tag v)) hv hk (sbRefusal_of_ready hrun hr hd) hcur hsealed
          hselect))
    · exact (hrequest ..).trans (congrArg Host.Outcome.next (sbRequestRx_of_room hp hroom))
    · exact (hrequest ..).trans (congrArg Host.Outcome.next (sbRequestRx_of_full hp hfull))
    · exact congrArg Host.Outcome.next (setEndpointId_of_good hup h0 hf)
    · exact congrArg Host.Outcome.next (mctpAnswer_of_up hup tag 2 _)
    · exact congrArg Host.Outcome.next (mctpAnswer_of_up hup tag 4 _)
    · exact congrArg Host.Outcome.next (mctpAnswer_of_up hup tag 5 _)
    · exact congrArg Host.Outcome.next (mctpAnswer_of_up hup tag 6 _)
  · refine ⟨⟨_, _, _, _, _, tckEdge_rising hup true tdi, tckEdge_rising (by exact hup) true tdi,
      tckEdge_rising (by exact hup) true tdi, tckEdge_rising (by exact hup) true tdi, tckEdge_rising (by exact hup) true tdi,
      tapNext_five s.tap.state⟩, fun hs hi => ?_, fun hs hi => ?_,
      fun tms hs hi => ?_⟩
    · rw [tckEdge_rising hup, tapShift_capture hs hi, hs]
      rfl
    · rw [tckEdge_rising hup, tapShift_shift hs hi, hs]
      exact congrArg (fun x => Host.Outcome.next { s with tap := { s.tap with
        state := x, drShift := BitVec.cons tdi (s.tap.drShift.extractLsb' 1 31) } }) hs.symm
    · rw [tckEdge_falling hup, tapFall_shift hs hi]

end

section
/-!
The domain: what the parent's choice leaves, the exchange of time with the parent, domain cuts, and the reports on their way to
the root (R544-R549).
-/

namespace Sys2Proof.Machine

section
variable {s : State} {n : Nat}

/-! The parent (R545). -/

/-- A source that is not qualified cannot be lost (R320). -/
theorem sourceLost_of_unqualified {x : TimeSource} (h : (s.tmb.source x).qualified = false) : sourceLost s x = s := by
  simp only [sourceLost, h, Bool.not_false, if_true]

/-- An empty relay queue leaves nothing to send. -/
theorem relayDrain_dom_of_empty (h : s.dom.relay = []) : (relayDrain s).dom = s.dom := by
  simp only [relayDrain, h, List.foldl_nil]
  split
  · rfl
  · simp only [domMod, ← h]

/-- Without a parent the relay queue waits (R547). -/
theorem relayDrain_of_orphan (h : s.dom.parent = 0) : relayDrain s = s := if_pos h

theorem parentSelect_of_parent {b : Neighbour} (hroot : domRoot s = false) (hfollow : isFollower s = false)
    (hb : parentOf s.dom.neighbours = some b) (hrelay : s.dom.relay = []) :
    (parentSelect s).dom = { s.dom with hops := b.hops + 1, parent := b.device, parentPort := b.port } := by
  simp only [parentSelect, hroot, hfollow, Bool.or_false, Bool.false_eq_true, if_false, hb]
  exact relayDrain_dom_of_empty hrelay

theorem parentSelect_of_root (hroot : domRoot s = true) (hq : s.tmb.domain.qualified = false) :
    parentSelect s = { s with dom := { s.dom with hops := 0, parent := 0, parentPort := 0 } } := by
  simp only [parentSelect, hroot, Bool.true_or, if_true]
  exact sourceLost_of_unqualified hq

theorem parentSelect_of_alone (hroot : domRoot s = false) (hnone : s.dom.neighbours = []) (hq : s.tmb.domain.qualified = false) :
    parentSelect s = { s with dom := { s.dom with hops := 15, parent := 0, parentPort := 0 } } := by
  have hp : parentOf s.dom.neighbours = none := by rw [hnone]; rfl
  simp only [parentSelect, hp, ite_self, hroot, Bool.false_eq_true, if_false]
  exact sourceLost_of_unqualified hq

/-! HELLO and its loss. -/

theorem helloRx_of_heard {device hops : Nat} {traceable : Bool} (h : domHears s n = true) :
    helloRx s n device hops traceable = parentSelect { s with dom := { s.dom with
      neighbours := s.dom.neighbours.filter (fun x => x.port != n) ++
        [{ port := n, device := device, hops := hops, traceable := traceable, lastHello := intervalStart s }] } } := by
  simp only [helloRx, h, Bool.not_true, Bool.false_eq_true, if_false, domMod]

/-- The one neighbour on its port: it is lost after four periods without a HELLO, else nothing happens. -/
theorem neighbourLost_of_only {x : Neighbour} (hn : s.dom.neighbours = [x]) (hx : x.port = n) :
    neighbourLost s n = if x.lastHello + 4096 ≤ now s then parentSelect { s with dom := { s.dom with neighbours := [] } }
      else s := by
  simp [neighbourLost, hn, hx, domMod]

/-! Time transfer (R546). -/

theorem syncRx_of_parent {t1 : Stamp} {sub : Nat} (h : domHears s n = true) (hp : s.dom.parent ≠ 0) (hn : s.dom.parentPort = n) :
    syncRx s n t1 sub = domainSend { s with dom := { s.dom with
      t1 := t1.steps, t2 := ((now s * 32000 + sub : Nat) : Int) } } n 3 s.dom.parent [] := by
  simp [syncRx, h, hp, hn, domMod]

theorem sourceQualify_domain_offset : (sourceQualify s .domain).tmb.domain.offset = s.tmb.domain.offset := by
  unfold sourceQualify
  split <;> rfl

/-- Counting a measurement leaves the source's offset. -/
theorem sourceCount_domain_offset {good : Bool} {k : Nat} :
    (sourceCount s .domain good k).tmb.domain.offset = s.tmb.domain.offset := by
  unfold sourceCount
  extract_lets u
  have hu : u.tmb.domain.offset = s.tmb.domain.offset := rfl
  clear_value u
  split
  · exact sourceQualify_domain_offset.trans hu
  · exact hu

/-- While TRACEABLE is 0 no measurement is a jump (R320). -/
theorem sourceMeasure_domain_offset {offset : Int} (h : s.tmb.traceable = false) :
    (sourceMeasure s .domain offset).tmb.domain.offset = offset := by
  have ht : (tmbMod s fun t => t.modSource .domain fun v => { v with offset := offset }).tmb.traceable = false := h
  simp only [sourceMeasure, ht, Bool.false_and, Bool.false_eq_true, if_false]
  rfl

theorem delayRespRx_offset {t4 : Stamp} (h : domHears s n = true) (hp : s.dom.parent ≠ 0) (hn : s.dom.parentPort = n)
    (ht : s.tmb.traceable = false) :
    (delayRespRx s n t4).tmb.domain.offset =
      -(((s.dom.t2 - s.dom.t1) - ((t4.steps : Int) - s.dom.t3)) * 50 - (tgetD s.dom.linkAsym n 0#16).toInt * 100) := by
  simp only [delayRespRx, h, hp, hn, decide_false, bne_self_eq_false, Bool.not_true, Bool.or_self, Bool.false_eq_true, if_false]
  exact sourceCount_domain_offset.trans (sourceMeasure_domain_offset ht)

/-! Domain cuts (R547). -/

/-- A domain cut with its lead of 4,096 ticks is admitted by an idle ledger (R298). -/
theorem cutSubmit_domain_of_idle {tick tag : W64} (hs : s.ldg.scheduled = []) (hr : s.ldg.running = none)
    (ht : now s + 4096 ≤ tick.toNat) : cutSubmit s .domain false tick tag =
      ({ s with ldg := { s.ldg with
          scheduled := [{ kind := .domain, summary := false, tick := tick.toNat, tag := tag, id := s.ldg.nextCutId
                          partnerOk := false }]
          nextCutId := wrapInc s.ldg.nextCutId } }, .ok s.ldg.nextCutId) := by
  have hlead : ¬tick.toNat < now s + CutKind.domain.lead := Nat.not_lt.mpr ht
  rw [cutSubmit, if_neg hlead, if_neg (by simp), cutAdmit_of_idle hs hr (Nat.not_lt.mp hlead)]
  simp

theorem cutSubmit_domain_of_late {tick tag : W64} (ht : tick.toNat < now s + 4096) :
    cutSubmit s .domain false tick tag = (s, .stale) := if_pos ht

theorem cutPlanRx_of_seen {source : Nat} {seq id : W32} {tick tag : W64} (hseen : s.dom.seen.contains (source, seq) = true) :
    cutPlanRx s n source seq tick tag id = s := by
  simp only [cutPlanRx, hseen, Bool.or_true, if_true]

/-- On the last device of a branch without a parent, a new plan is only admitted. -/
theorem cutPlanRx_of_leaf {source : Nat} {seq id : W32} {tick tag : W64} (h : domHears s n = true) (hroot : domRoot s = false)
    (hp : s.dom.parent = 0) (hlinks : s.mir.pair.domainLinks = [n]) (hseen : s.dom.seen.contains (source, seq) = false)
    (hs : s.ldg.scheduled = []) (hr : s.ldg.running = none) (ht : now s + 4096 ≤ tick.toNat) :
    cutPlanRx s n source seq tick tag id = { s with
      dom := { s.dom with seen := (source, seq) :: s.dom.seen }
      ldg := { s.ldg with
        scheduled := [{ kind := .domain, summary := false, tick := tick.toNat, tag := tag, id := s.ldg.nextCutId
                        partnerOk := false }]
        nextCutId := wrapInc s.ldg.nextCutId } } := by
  have hadmit := cutSubmit_domain_of_idle (s := domMod s fun d => { d with seen := (source, seq) :: d.seen }) (tag := tag)
    hs hr ht
  simp only [cutPlanRx, h, hroot, hseen, Bool.not_true, Bool.or_false, Bool.false_eq_true, if_false, hadmit]
  simp only [domMod, hlinks, hp, List.filter_cons, bne_self_eq_false, Bool.false_eq_true, if_false, List.filter_nil,
    List.foldl_nil, if_true]

theorem domCutGo_ignored {v : W64} (h : domRoot s = false ∨ v.getLsbD 0 = false) : domCutGo s v = s := by
  have hidle : (!v.getLsbD 0 || !domRoot s) = true := by
    rcases h with h | h <;> simp only [h, Bool.not_false, Bool.or_true, Bool.true_or]
  exact if_pos hidle

/-- GO at a root without links whose ledger is idle. -/
theorem domCutGo_of_idle {v : W64} (hroot : domRoot s = true) (hgo : v.getLsbD 0 = true) (hlinks : s.mir.pair.domainLinks = [])
    (hs : s.ldg.scheduled = []) (hr : s.ldg.running = none) (ht : now s + 4096 ≤ s.dom.cutTick.toNat) :
    domCutGo s v = { s with
      dom := { s.dom with cutStatus := 0, cutId := s.ldg.nextCutId, answerOk := 0, answerRefused := 0 }
      ldg := { s.ldg with
        scheduled := [{ kind := .domain, summary := false, tick := s.dom.cutTick.toNat, tag := s.dom.cutTag
                        id := s.ldg.nextCutId, partnerOk := false }]
        nextCutId := wrapInc s.ldg.nextCutId } } := by
  simp only [domCutGo, hgo, hroot, Bool.not_true, Bool.or_false, Bool.false_eq_true, if_false,
    cutSubmit_domain_of_idle hs hr ht, domMod, domainSendAll, hlinks, List.filter_nil, List.foldl_nil]
  rfl

theorem domCutGo_of_late {v : W64} (hroot : domRoot s = true) (hgo : v.getLsbD 0 = true)
    (ht : s.dom.cutTick.toNat < now s + 4096) : domCutGo s v = { s with dom := { s.dom with cutStatus := 7 } } := by
  simp only [domCutGo, hgo, hroot, Bool.not_true, Bool.or_false, Bool.false_eq_true, if_false, cutSubmit_domain_of_late ht,
    domMod]
  rfl

/-! Answers and reports on their way to the root (R547, R548). -/

theorem relayUp_of_orphan {type source : Nat} {seq : W32} {payload : List Byte} (hroom : s.dom.relay.length < 4096)
    (hp : s.dom.parent = 0) : relayUp s type source seq payload = { s with dom := { s.dom with
      relay := s.dom.relay ++ [leBytes 1 type ++ leBytes 2 source ++ leBytes 4 seq.toNat ++ payload] } } :=
  (if_neg (Nat.not_le.mpr hroom)).trans (relayDrain_of_orphan hp)

theorem relayUp_of_full {type source : Nat} {seq : W32} {payload : List Byte} (hfull : 4096 ≤ s.dom.relay.length) :
    relayUp s type source seq payload = { s with dom := { s.dom with relayLost := s.dom.relayLost + 1 } } := if_pos hfull

theorem cutAnswerRx_root {source : Nat} {seq id : W32} {status : Byte} (h : domHears s n = true) (hroot : domRoot s = true) :
    cutAnswerRx s n source seq status id = { s with dom := { s.dom with
      answerOk := if status = 0 then s.dom.answerOk + 1 else s.dom.answerOk
      answerRefused := if status = 0 then s.dom.answerRefused else s.dom.answerRefused + 1 } } := by
  simp only [cutAnswerRx, h, hroot, Bool.not_true, Bool.false_eq_true, if_false, if_true, domMod]
  by_cases hst : status = 0
  · subst hst
    rfl
  · have hst' : status ≠ 0#8 := hst
    simp only [hst, hst', if_false]
    rfl

theorem cutAnswerRx_relayed {source : Nat} {seq id : W32} {status : Byte} (h : domHears s n = true) (hroot : domRoot s = false) :
    cutAnswerRx s n source seq status id = relayUp s 6 source seq ([status] ++ leBytes 4 id.toNat) := by
  simp only [cutAnswerRx, h, hroot, Bool.not_true, Bool.false_eq_true, if_false]

section
variable {source level : Nat} {seq subject count : W32} {cls : W16} {first last : W64}

theorem reportFrameRx_root (h : domHears s n = true) (hroot : domRoot s = true) :
    reportFrameRx s n source seq cls level subject count first last =
      rootMerge s source cls level subject count first last := by
  simp only [reportFrameRx, h, hroot, Bool.not_true, Bool.false_eq_true, if_false, if_true]

theorem reportFrameRx_relayed (h : domHears s n = true) (hroot : domRoot s = false) :
    reportFrameRx s n source seq cls level subject count first last =
      relayUp s 7 source seq (reportBytes cls level subject count first last) := by
  simp only [reportFrameRx, h, hroot, Bool.not_true, Bool.false_eq_true, if_false]

theorem rootMerge_new (hnew : s.dom.store.find? (fun r => r.cls == cls && r.subject == subject) = none)
    (hroom : s.dom.store.length < 4096) :
    rootMerge s source cls level subject count first last = { s with dom := { s.dom with
      store := s.dom.store ++ [{ cls := cls, subject := subject, level := level, opened := intervalStart s
                                 reporters := [source], devices := 1, count := count, firstTick := first
                                 lastTick := last }] } } := by
  simp only [rootMerge, hnew, Nat.not_le.mpr hroom, if_false, domMod]

theorem rootMerge_lost (hnew : s.dom.store.find? (fun r => r.cls == cls && r.subject == subject) = none)
    (hfull : 4096 ≤ s.dom.store.length) :
    rootMerge s source cls level subject count first last =
      { s with dom := { s.dom with summaryLost := s.dom.summaryLost + 1 } } := by
  simp only [rootMerge, hnew, hfull, if_true, domMod]
  rfl

theorem rootMerge_only {r : RootRecord} (hr : s.dom.store = [r]) (hc : r.cls = cls) (hs : r.subject = subject) :
    rootMerge s source cls level subject count first last = { s with dom := { s.dom with
      store := [{ r with
        level := max r.level level
        reporters := if source ∈ r.reporters then r.reporters else r.reporters ++ [source]
        devices := if source ∈ r.reporters then r.devices else r.devices + 1
        count := r.count + count
        firstTick := if first.toNat < r.firstTick.toNat then first else r.firstTick
        lastTick := if r.lastTick.toNat < last.toNat then last else r.lastTick }] } } := by
  have hfind : s.dom.store.find? (fun r => r.cls == cls && r.subject == subject) = some r := by simp [hr, hc, hs]
  simp only [rootMerge, hfind]
  simp only [domMod, hr, List.map_cons, List.map_nil, if_true]
  by_cases hm : source ∈ r.reporters <;> simp [hm]

end

/-! The windows. -/

theorem windowClose_of_open {cls : W16} {subject : W32} {w : ReportWindow} (hw : reportWindow s cls subject = some w)
    (ht : now s < w.stop) : windowClose s cls subject = s := by
  simp only [windowClose, hw, ht, if_true]

theorem windowClose_of_quiet {cls : W16} {subject : W32} {w : ReportWindow} (hw : reportWindow s cls subject = some w)
    (ht : w.stop ≤ now s) (hc : w.count = 0) : windowClose s cls subject =
      { s with dom := { s.dom with windows := s.dom.windows.filter (fun x => x ≠ w) } } := by
  have hc' : w.count = 0#32 := hc
  simp only [windowClose, hw, Nat.not_lt.mpr ht, if_false, hc', if_true, domMod]

theorem summaryClose_of_open {cls : W16} {subject : W32} {r : RootRecord}
    (hr : s.dom.store.find? (fun r => r.cls == cls && r.subject == subject) = some r) (ht : now s < r.opened + 1024) :
    summaryClose s cls subject = s := by
  simp only [summaryClose, hr, ht, if_true]

theorem summaryClose_of_due {cls : W16} {subject : W32} {r : RootRecord}
    (hr : s.dom.store.find? (fun r => r.cls == cls && r.subject == subject) = some r) (ht : r.opened + 1024 ≤ now s) :
    summaryClose s cls subject = { s with
      dom := { s.dom with store := s.dom.store.filter (fun x => x ≠ r) }
      que := { s.que with events := s.que.events ++
        [{ type := .fault, tick := s.tmb.tick, record := summaryBytes r }] } } := by
  simp only [summaryClose, hr, Nat.not_lt.mpr ht, if_false]
  rfl

end

end Sys2Proof.Machine

open Sys2Proof.Machine in
/-- Settles O48: each frame of the domain by the equation of its case. -/
theorem domain : Obligations.Domain := by
  refine ⟨fun s n h => ?_, fun s hmember => ?_, fun s n x hn hx => ⟨fun hlost hroot hq => ?_, fun hheard => ?_⟩,
    fun s v => ⟨fun hignored => ?_, fun hroot hgo hlinks => ⟨fun ht hs hr => ?_, fun ht => ?_⟩⟩,
    fun s cls subject w hw => ⟨fun ht => ?_, fun ht hc => ?_⟩, fun s cls subject r hr => ⟨fun ht => ?_, fun ht => ?_⟩⟩
  · refine ⟨fun device hops traceable parent nbs hrelay hnbs => ⟨fun b hroot hfollow hb => ?_, fun hroot hq => ?_⟩, ?_,
      fun source sub => ?_, fun hp hn => ⟨fun t1 sub => ?_, fun t4 ht => ?_⟩,
      fun source seq tick tag id hroot hp hlinks => ⟨fun hseen => ?_, fun hseen hs hr ht => ?_⟩,
      fun source seq status id => ⟨fun hroot => ?_, fun hroot hp hroom => ?_⟩,
      fun source seq cls level subject count first last => ⟨fun hroot hnew hroom => ?_, fun hroot hnew hfull => ?_,
        fun r hroot hr hc hs => ?_, fun hroot hp hroom => ?_, fun hroot hfull => ?_⟩⟩
    · subst hnbs
      exact ⟨_, congrArg Host.Outcome.next (helloRx_of_heard h), parentSelect_of_parent hroot hfollow hb hrelay⟩
    · subst hnbs
      exact congrArg Host.Outcome.next ((helloRx_of_heard h).trans (parentSelect_of_root hroot hq))
    · exact congrArg Host.Outcome.next (if_pos h)
    · exact congrArg Host.Outcome.next (if_pos h)
    · exact congrArg Host.Outcome.next (syncRx_of_parent h hp hn)
    · refine ⟨_, rfl, (delayRespRx_offset h hp hn ht).trans (neg_sub ..)⟩
    · exact congrArg Host.Outcome.next (cutPlanRx_of_seen hseen)
    · exact congrArg Host.Outcome.next (cutPlanRx_of_leaf h hroot hp hlinks hseen hs hr ht)
    · exact congrArg Host.Outcome.next (cutAnswerRx_root h hroot)
    · exact congrArg Host.Outcome.next ((cutAnswerRx_relayed h hroot).trans (relayUp_of_orphan hroom hp))
    · exact congrArg Host.Outcome.next ((reportFrameRx_root h hroot).trans (rootMerge_new hnew hroom))
    · exact congrArg Host.Outcome.next ((reportFrameRx_root h hroot).trans (rootMerge_lost hnew hfull))
    · exact congrArg Host.Outcome.next ((reportFrameRx_root h hroot).trans (rootMerge_only hr hc hs))
    · exact congrArg Host.Outcome.next ((reportFrameRx_relayed h hroot).trans (relayUp_of_orphan hroom hp))
    · exact congrArg Host.Outcome.next ((reportFrameRx_relayed h hroot).trans (relayUp_of_full hfull))
  · exact congrArg Host.Outcome.next (if_pos hmember)
  · exact congrArg Host.Outcome.next
      ((neighbourLost_of_only hn hx).trans ((if_pos hlost).trans (parentSelect_of_alone hroot rfl hq)))
  · exact congrArg Host.Outcome.next ((neighbourLost_of_only hn hx).trans (if_neg (Nat.not_le.mpr hheard)))
  · exact congrArg Host.Outcome.next (domCutGo_ignored hignored)
  · exact congrArg Host.Outcome.next (domCutGo_of_idle hroot hgo hlinks hs hr ht)
  · exact congrArg Host.Outcome.next (domCutGo_of_late hroot hgo ht)
  · exact congrArg Host.Outcome.next (windowClose_of_open hw ht)
  · exact congrArg Host.Outcome.next (windowClose_of_quiet hw ht hc)
  · exact congrArg Host.Outcome.next (summaryClose_of_open hr ht)
  · exact congrArg Host.Outcome.next (summaryClose_of_due hr ht)

end

section
/-!
The pair's sides: the bulk sync's frames, the guarded actions of MIR_CMD, and the evidence of the partner (R533-R539, R621).
-/

namespace Sys2Proof.Machine

section
variable {s : State}

/-! The bulk sync (R538, R539). -/

theorem frameIn_of_carries {f : State → State} (hc : mirrorCarries s = true) (hi : s.mir.state ≠ .init) :
    frameIn s f = f (Spec.mirBecomes s (Spec.framed s)) := by
  have hguard : (!mirrorCarries s || s.mir.state == .init) = false := by simp [hc, hi]
  simp only [frameIn, hguard, Bool.false_eq_true, if_false]
  rfl

theorem syncRequested_of_survivor {n : Nat} {id : W32} (hid : id = s.mir.pair.pairId)
    (hs : s.mir.state = .active ∨ s.mir.state = .solo) :
    syncRequested s n id = Spec.mirBecomes s { s.mir with syncStart := true, partnerIn := n } := by
  have hin : (s.mir.state == .active || s.mir.state == .standby || s.mir.state == .solo) = true := by
    rcases hs with h | h <;> rw [h] <;> rfl
  simp only [syncRequested, hid, ne_eq, not_true_eq_false, if_false, hin, if_true]
  rfl

theorem syncRequested_of_other {n : Nat} {id : W32} (hid : id ≠ s.mir.pair.pairId) :
    syncRequested s n id = raise s .pairConfigMismatch 0x06 0xFFFF := if_pos hid

/-- Bytes of part 6 are bytes of HBM. -/
theorem syncChunk_window {a : Nat} {b : List Byte} (hr : hbmRangeOk s a b.length = true) :
    syncChunk s 6 a b = hbmPutBytes s a b := by
  simp only [syncChunk, windowReceived, hr, if_true]

theorem syncTake_window {a : Nat} {b : List Byte} (hj : joining s = true) (hp : s.mir.syncParts ≠ [])
    (hr : hbmRangeOk s a b.length = true) :
    syncTake s 6 a b = Spec.mirBecomes (hbmPutBytes s a b) { s.mir with
      syncBytes := s.mir.syncBytes + b.length
      syncParts := if s.mir.syncParts.contains 6 then s.mir.syncParts else s.mir.syncParts ++ [6] } := by
  have hbegun : s.mir.syncParts.isEmpty = false := List.isEmpty_eq_false_iff.mpr hp
  simp only [syncTake, hj, hbegun, Bool.not_true, Bool.false_eq_true, if_false, syncChunk_window hr]
  rfl

/-- A sync that has begun ends with the partner's generation. -/
theorem syncFinish_of_begun {gen : W32} (hj : joining s = true) (hp : s.mir.syncParts ≠ []) :
    (if !joining s then s
      else
        let s := if s.mir.syncParts.isEmpty then syncClear s else s
        mirMod s (fun m => { m with state := .syncing, generation := gen, leaving := false })) =
      Spec.mirBecomes s { s.mir with state := .syncing, generation := gen, leaving := false } := by
  have hbegun : s.mir.syncParts.isEmpty = false := List.isEmpty_eq_false_iff.mpr hp
  simp only [hj, hbegun, Bool.not_true, Bool.false_eq_true, if_false]
  rfl

/-! The guarded actions (R534, R535). -/

theorem inStep_of_side (h : s.mir.state = .active ∨ s.mir.state = .standby) : inStep s = true := by
  rcases h with h | h <;> rw [inStep, h] <;> rfl

theorem inStep_of_else (ha : s.mir.state ≠ .active) (hs : s.mir.state ≠ .standby) : inStep s = false := by
  simp [inStep, ha, hs]

/-! The evidence (R533, R621). -/

/-- The partner is alive where STATUS is OK and the serial another's. -/
theorem exec_partnerStatus {t : Nat} {status : Byte} {serial : W32} {alive : Bool} (h : s.mir.pollSince = some t)
    (ha : (status == 0#8 && serial != s.board.serial) = alive) :
    exec (.partnerStatusResponse status serial) s = .next (Spec.mirBecomes s { s.mir with
      pollSince := none, e3 := !alive, pollAlive := alive }) := by
  subst ha
  refine congrArg Host.Outcome.next ?_
  simp only [h, Option.isNone_some, Bool.false_eq_true, if_false]
  rfl

theorem exec_partnerPollTimeout {t : Nat} (h : s.mir.pollSince = some t) :
    exec .partnerPollTimeout s = .next (if now s < t + 100 then s else Spec.mirBecomes s { s.mir with
      pollSince := none, e3 := true, pollAlive := false }) := by
  refine congrArg Host.Outcome.next ?_
  simp only [h]
  rfl

theorem senseWindow_eq : senseWindow s = if s.rst.options.sideB then decide (800 ≤ s.tmb.beat ∧ s.tmb.beat < 960)
    else decide (s.tmb.beat < 160) := by
  simp only [senseWindow, Bool.decide_and]

end

end Sys2Proof.Machine

open Sys2Proof Sys2Proof.Machine in
/-- Settles O47: each frame of the bulk sync, each guarded action and each piece of evidence by the equation of its case. -/
theorem pairSides : Obligations.PairSides := by
  refine ⟨fun s hc hi => ⟨fun n hs => ?_, fun n id hid => ?_, fun hj hp => ⟨fun offset bytes hw hr => ?_, fun gen size => ?_⟩⟩,
    fun s => ⟨fun hs => ⟨?_, ?_⟩, fun ha hs => ⟨?_, ?_⟩, fun hi => ?_, fun t ht => ⟨fun serial hother => ?_,
      fun status serial hbad => ?_, fun hdue => ?_, fun hearly => ?_⟩, fun hon => ⟨fun low => ?_, fun present => ?_⟩⟩⟩
  · exact congrArg Host.Outcome.next ((frameIn_of_carries hc hi).trans (syncRequested_of_survivor rfl hs))
  · exact ⟨_, congrArg Host.Outcome.next ((frameIn_of_carries hc hi).trans (syncRequested_of_other hid)), raised_raise rfl, rfl⟩
  · refine ⟨_, congrArg Host.Outcome.next ((frameIn_of_carries hc hi).trans (syncTake_window hj hp hr)), fun x => ?_, rfl⟩
    exact hbmGet_hbmPutBytes (s := Spec.mirBecomes s (Spec.framed s)) (hbm_wf_of_memoryWf hw)
  · exact congrArg Host.Outcome.next ((frameIn_of_carries hc hi).trans (syncFinish_of_begun hj hp))
  · exact congrArg Host.Outcome.next (if_pos (inStep_of_side hs))
  · exact congrArg Host.Outcome.next (if_pos (inStep_of_side hs))
  · exact congrArg Host.Outcome.next (if_neg (Bool.eq_false_iff.mp (inStep_of_else ha hs)))
  · exact congrArg Host.Outcome.next (if_neg (Bool.eq_false_iff.mp (inStep_of_else ha hs)))
  · exact congrArg Host.Outcome.next (if_neg (by simpa using hi))
  · have halive : ((0 : Byte) == 0#8 && serial != s.board.serial) = true := by simp [hother]
    exact exec_partnerStatus ht halive
  · have hdead : (status == 0#8 && serial != s.board.serial) = false := by
      simpa [or_iff_not_imp_left] using hbad
    exact exec_partnerStatus ht hdead
  · exact (exec_partnerPollTimeout ht).trans (congrArg Host.Outcome.next (if_neg (Nat.not_lt.mpr hdue)))
  · exact (exec_partnerPollTimeout ht).trans (congrArg Host.Outcome.next (if_pos hearly))
  · refine congrArg (fun d => Host.Outcome.next (Spec.mirBecomes s { s.mir with senseDrive := d })) ?_
    rw [hon, Bool.and_true, senseWindow_eq]
  · exact congrArg Host.Outcome.next (if_neg (by simp [hon]))

end

section
/-! What the device's own work leaves of its functions and endpoints: an interrupt changes a vector and nothing else of them
(R451, R452). -/

namespace Sys2Proof.Machine

/-- A function without its vectors. -/
def bareFunc (f : Func) : Func := { f with vectors := [] }

/-- The functions without their vectors, and the endpoints. -/
def hosted (s : State) : (Nat → Option Func) × Tbl Endpoint := (fun n => (funcOf s n).map bareFunc, s.hif.eps)

section
variable {s : State}

theorem hosted_of_hif {u : State} (h : u.hif = s.hif) : hosted u = hosted s := by
  simp only [hosted, funcOf, h]

@[simp] theorem hosted_ite {c : Prop} [Decidable c] {t : State} : hosted (if c then s else t) = if c then hosted s else hosted t :=
  apply_ite _ _ _ _

/-- What is the same without vectors stays so when a function's vectors change. -/
theorem hosted_funcMod {fn : Nat} {g : Func → Func} (hg : ∀ f, bareFunc (g f) = bareFunc f) : hosted (funcMod s fn g) = hosted s := by
  refine Prod.ext (funext fun n => ?_) rfl
  change (funcOf (funcMod s fn g) n).map bareFunc = (funcOf s n).map bareFunc
  by_cases hn : n = fn
  · subst hn
    rw [funcOf_funcMod_same, Option.map_map]
    exact congrArg (fun h => (funcOf s n).map h) (funext hg)
  · rw [funcOf_funcMod_other s g hn]

@[simp] theorem hosted_vectorMod {fn v : Nat} {g : Vector → Vector} : hosted (vectorMod s fn v g) = hosted s :=
  hosted_funcMod fun _ => rfl

@[simp] theorem hosted_emit {o : Out} : hosted (emit s o) = hosted s := rfl
@[simp] theorem hosted_hostWrite {e fn a : Nat} {bs : List Byte} : hosted (hostWrite s e fn a bs) = hosted s := rfl
@[simp] theorem hosted_hostRead {e fn a n : Nat} : hosted (hostRead s e fn a n) = hosted s := rfl
@[simp] theorem hosted_event {t : EventType} {r : List Byte} : hosted (event s t r) = hosted s := rfl
@[simp] theorem hosted_queueMod {q : Nat} {f : HostQueue → HostQueue} : hosted (queueMod s q f) = hosted s := rfl
@[simp] theorem hosted_adminMod {ep : Nat} {f : AdminQueue → AdminQueue} : hosted (adminMod s ep f) = hosted s :=
  hosted_of_hif (adminMod_hif ..)
@[simp] theorem hosted_schQueueMod {n : Nat} {f : SchQueue → SchQueue} : hosted (schQueueMod s n f) = hosted s := rfl
@[simp] theorem hosted_schPortMod {n : Nat} {f : SchPort → SchPort} : hosted (schPortMod s n f) = hosted s := rfl
@[simp] theorem hosted_pktMod {n : Nat} {f : Packet → Packet} : hosted (pktMod s n f) = hosted s := rfl
@[simp] theorem hosted_addTo {i p b : Nat} : hosted (addTo s i p b) = hosted s := rfl
@[simp] theorem hosted_addPkt {i : Nat} {p : Packet} : hosted (addPkt s i p) = hosted s := rfl
@[simp] theorem hosted_tally {u : Nat} {f : Tally → Tally} : hosted (tally s u f) = hosted s := rfl
@[simp] theorem hosted_stoMod {f : Sto → Sto} : hosted (stoMod s f) = hosted s := rfl
@[simp] theorem hosted_cphMod {f : Cph → Cph} : hosted (cphMod s f) = hosted s := rfl
@[simp] theorem hosted_freshBytes {n : Nat} : hosted (freshBytes n s).2 = hosted s := rfl
@[simp] theorem hosted_crb {c : Crb} : hosted { s with crb := c } = hosted s := rfl
@[simp] theorem hosted_dec {d : Dec} : hosted { s with dec := d } = hosted s := rfl

@[simp] theorem hosted_msix {fn v : Nat} : hosted (msix s fn v) = hosted s := by
  unfold msix
  (repeat' split) <;> simp

/-! Completions. -/

@[simp] theorem hosted_adminFinish {ep : Nat} {cid : W16} {st : Byte} {r : List Byte} :
    hosted (adminFinish s ep cid st r) = hosted s := by
  simp only [adminFinish, adminWrite]
  (repeat' split) <;> simp

@[simp] theorem hosted_answer {w : Waiter} {st : Byte} {r : List Byte} : hosted (answer s w st r) = hosted s := by
  cases w with
  | admin ep cid => simp [answer]
  | _ => rfl

@[simp] theorem hosted_disableCheck {q : Nat} : hosted (disableCheck s q) = hosted s := by
  unfold disableCheck
  (repeat' split) <;> try rfl
  exact foldl_keeps hosted (fun _ _ => hosted_answer) _ _

@[simp] theorem hosted_sendFlush {q n : Nat} : hosted (sendFlush q n s) = hosted s := by
  induction n generalizing s with
  | zero => rfl
  | succ n ih =>
    simp only [sendFlush, completionWrite, queueSignal]
    (repeat' split) <;> simp [ih]

@[simp] theorem hosted_sendFlushAll {q : Nat} : hosted (sendFlushAll s q) = hosted s := by simp [sendFlushAll]

/-! Packets: their drop and their way to a port. -/

@[simp] theorem hosted_wake {qx : Nat} : hosted (wake s qx) = hosted s := by simp [wake]

@[simp] theorem hosted_queueEmptied {qx : Nat} : hosted (queueEmptied s qx) = hosted s := by simp [queueEmptied]

@[simp] theorem hosted_queueTake {qx id : Nat} : hosted (queueTake s qx id) = hosted s := by simp [queueTake]

@[simp] theorem hosted_releaseRef {id : Nat} : hosted (releaseRef s id) = hosted s := by unfold releaseRef; split <;> rfl

@[simp] theorem hosted_pktFree {id : Nat} : hosted (pktFree s id) = hosted s := by
  unfold pktFree
  (repeat' split) <;> simp only [hosted_crb, hosted_schQueueMod, hosted_queueTake, hosted_releaseRef]

@[simp] theorem hosted_countDrop {o c l : Nat} {p t : Option Nat} : hosted (countDrop s o p t c l) = hosted s := by
  cases p <;> cases t <;> simp [countDrop]

@[simp] theorem hosted_sendDropped {id : Nat} {p : Packet} : hosted (sendDropped s id p) = hosted s := by
  unfold sendDropped; split <;> simp

@[simp] theorem hosted_dropPktAt {id : Nat} {r : DropReason} {p : Option (Option Nat)} :
    hosted (dropPktAt s id r p) = hosted s := by
  unfold dropPktAt; split <;> simp

@[simp] theorem hosted_dropPkt {id : Nat} {r : DropReason} : hosted (dropPkt s id r) = hosted s := hosted_dropPktAt

@[simp] theorem hosted_dropAll {l : List Nat} {r : DropReason} : hosted (dropAll s l r) = hosted s :=
  foldl_keeps hosted (fun _ _ => hosted_dropPkt) _ _

@[simp] theorem hosted_dropQueue {qx : Nat} {r : DropReason} : hosted (dropQueue s qx r) = hosted s :=
  foldl_keeps hosted (fun _ _ => hosted_dropPkt) _ _

@[simp] theorem hosted_transfer {id n : Nat} : hosted (transfer s id n) = hosted s := by
  unfold transfer
  (repeat' split) <;> simp

@[simp] theorem hosted_enterQueue {id qx n : Nat} : hosted (enterQueue s id qx n) = hosted s := by
  simp only [enterQueue, hosted_ite, hosted_wake, ite_self]
  split <;>
    simp only [hosted_addPkt, hosted_ite, hosted_crb, hosted_schQueueMod, hosted_pktMod, hosted_releaseRef, hosted_transfer,
      ite_self]

@[simp] theorem hosted_enqueuePort {id n q : Nat} : hosted (enqueuePort s id n q) = hosted s := by
  simp only [enqueuePort]
  (repeat' split) <;> simp

@[simp] theorem hosted_hostFramesDrop {q : Nat} {r : DropReason} : hosted (hostFramesDrop s q r) = hosted s := by
  simp only [hostFramesDrop, hostTxDrop]
  (repeat' split) <;> simp

/-! Storage: what a path sends, and the start of commands. -/

@[simp] theorem hosted_pathMod {t p : Nat} {f : Path → Path} : hosted (pathMod s t p f) = hosted s := rfl

@[simp] theorem hosted_pathSend {n t : Nat} {b : List Byte} : hosted (pathSend s n t b) = hosted s := by
  simp only [pathSend, hosted_enqueuePort, pktAdd, hosted_crb, addPkt, countArrival, hosted_addTo, hosted_tally]

@[simp] theorem hosted_pduSend {roce : Bool} {t : Nat} {y : Path} {x : Pdu} : hosted (pduSend roce t y s x) = hosted s := by
  refine foldl_keeps hosted (fun u b => ?_) _ _
  exact hosted_pathSend.trans hosted_freshBytes

@[simp] theorem hosted_pathFlush {t p : Nat} : hosted (pathFlush s t p) = hosted s := by
  unfold pathFlush
  split
  · exact foldl_keeps hosted (fun _ _ => hosted_pduSend) _ _
  · rfl

@[simp] theorem hosted_pathPost {t p : Nat} {l : List Pdu} : hosted (pathPost s t p l) = hosted s := hosted_pathFlush

@[simp] theorem hosted_xtsDrop {c : IoCmd} : hosted (xtsDrop s c) = hosted s := by simp [xtsDrop]

@[simp] theorem hosted_ioSet {c c' : IoCmd} : hosted (ioSet s c c') = hosted s := rfl

@[simp] theorem hosted_ioEmit {c : IoCmd} {t p : Nat} : hosted (ioEmit s c t p) = hosted s := by
  unfold ioEmit
  split
  · rfl
  · exact hosted_pathPost

@[simp] theorem hosted_ioSent {c : IoCmd} {l : List (Nat × Nat)} : hosted (ioSent s c l) = hosted s :=
  foldl_keeps hosted (fun _ _ => hosted_ioEmit) _ _

@[simp] theorem hosted_ioSend {c : IoCmd} : hosted (ioSend s c) = hosted s := by
  unfold ioSend
  (repeat' split) <;> simp

@[simp] theorem hosted_ioReads {c : IoCmd} : hosted (ioReads s c) = hosted s :=
  foldl_keeps hosted (fun _ _ => hosted_hostRead) _ _

@[simp] theorem hosted_ioBegin {c : IoCmd} : hosted (ioBegin s c) = hosted s := by
  unfold ioBegin
  split <;> simp

@[simp] theorem hosted_ioStart {n : Nat} : hosted (ioStart n s) = hosted s := by
  induction n generalizing s with
  | zero => rfl
  | succ n ih =>
    unfold ioStart
    (repeat' split) <;> simp [ih]

@[simp] theorem hosted_ctlStop {i : Nat} : hosted (ctlStop s i) = hosted s := by
  simp only [ctlStop, ioStartAll, hosted_ioStart, hosted_stoMod]
  exact foldl_keeps hosted (fun _ _ => hosted_xtsDrop) _ _

@[simp] theorem hosted_ctlForget {i : Nat} : hosted (ctlForget s i) = hosted s := hosted_ctlStop

/-! Queues and the units of PF0. -/

@[simp] theorem hosted_queueEnable {q : Nat} : hosted (queueEnable s q) = hosted s := rfl

@[simp] theorem hosted_queueReset {b : Bool} {q : Nat} : hosted (queueReset b s q) = hosted s := by
  unfold queueReset
  split
  · rfl
  · next x _ =>
    refine (foldl_keeps hosted (fun _ _ => hosted_answer) x.disabling _).trans ?_
    simp

@[simp] theorem hosted_dmaAbandon {ep : Nat} : hosted (dmaAbandon s ep) = hosted s := by
  refine foldl_keeps hosted (fun u e => ?_) _ _
  refine (foldl_keeps hosted (fun v k => ?_) _ _).trans rfl
  split <;> rfl

@[simp] theorem hosted_mailboxesReset {ep : Nat} : hosted (mailboxesReset s ep) = hosted s := rfl

@[simp] theorem hosted_pf0Reset {ep : Nat} : hosted (pf0Reset s ep) = hosted s := by simp [pf0Reset]

end

/-! What the frame says of one function and of an endpoint. -/

/-- A function that stands before stands after, but for its vectors. -/
theorem funcOf_of_hosted {s u : State} {fn : Nat} {f : Func} (h : hosted u = hosted s) (hf : funcOf s fn = some f) :
    ∃ g, funcOf u fn = some g ∧ bareFunc g = bareFunc f := by
  have hfn : (funcOf u fn).map bareFunc = (funcOf s fn).map bareFunc := congrFun (congrArg Prod.fst h) fn
  rw [hf] at hfn
  exact Option.map_eq_some_iff.mp hfn

theorem eps_of_hosted {s u : State} (h : hosted u = hosted s) : u.hif.eps = s.hif.eps := congrArg Prod.snd h

end Sys2Proof.Machine

end

section
/-! Resets and readiness of functions and endpoints (R442, R459-R463, R494, R495). -/

namespace Sys2Proof.Machine

section
variable {s : State} {fn : Nat} {f : Func}

/-! The reset of one function. -/

/-- What a reset leaves of a function: its grant and its PME bits, and the tick by which it ends (R458, R494). -/
structure ResetLeaves (due : Option Nat) (f g : Func) : Prop where
  resetting : g.resetting = some due
  grant : g.grant = f.grant
  pmeEn : g.pmeEn = f.pmeEn
  pmeStatus : g.pmeStatus = f.pmeStatus
  featuresOk : g.featuresOk = false
  active : g.active = 0

theorem ResetLeaves.of_bare {due : Option Nat} {f f' g g' : Func} (h : ResetLeaves due f g) (hf : bareFunc f = bareFunc f')
    (hg : bareFunc g' = bareFunc g) : ResetLeaves due f' g' where
  resetting := (congrArg Func.resetting hg).trans h.resetting
  grant := (congrArg Func.grant hg).trans (h.grant.trans (congrArg Func.grant hf :))
  pmeEn := (congrArg Func.pmeEn hg).trans (h.pmeEn.trans (congrArg Func.pmeEn hf :))
  pmeStatus := (congrArg Func.pmeStatus hg).trans (h.pmeStatus.trans (congrArg Func.pmeStatus hf :))
  featuresOk := (congrArg Func.featuresOk hg).trans h.featuresOk
  active := (congrArg Func.active hg).trans h.active

theorem ResetLeaves.trans {due due' : Option Nat} {f g k : Func} (h : ResetLeaves due f g) (h' : ResetLeaves due' g k) :
    ResetLeaves due' f k :=
  ⟨h'.resetting, h'.grant.trans h.grant, h'.pmeEn.trans h.pmeEn, h'.pmeStatus.trans h.pmeStatus, h'.featuresOk, h'.active⟩

/-- A generation that advances changes nothing else of the function. -/
theorem funcOf_genAdvance_same (h : funcOf s fn = some f) :
    ∃ g, funcOf (genAdvance s fn) fn = some { f with gen := g } := by
  unfold genAdvance
  split
  · exact ⟨f.gen, h⟩
  · exact ⟨genNext f.gen, by rw [funcOf_funcMod_same, h]; rfl⟩

theorem funcOf_genAdvance_other {m : Nat} (h : m ≠ fn) : funcOf (genAdvance s fn) m = funcOf s m := by
  unfold genAdvance
  split
  · rfl
  · exact funcOf_funcMod_other s _ h

/-- The reset clears a function once its queues and its controller are reset. -/
theorem fnReset_eq (b : Bool) (s : State) (fn : Nat) : ∃ w, hosted w = hosted (genAdvance s fn) ∧
    intervalStart w = intervalStart s ∧ fnReset b s fn = funcMod w fn (fun f =>
      { Func.reset with gen := f.gen, grant := f.grant, storageIndex := f.storageIndex, pmeEn := f.pmeEn, pmeStatus := f.pmeStatus,
                        resetting := some (if b then none else some (intervalStart w + 2)) }) := by
  have htime : ∀ w : State, line w = line s → intervalStart w = intervalStart s := fun w h => by
    have htmb : w.tmb = s.tmb := congrArg Line.tmb h
    simp only [intervalStart, now, htmb]
  have hqueues := foldl_keeps hosted (fun u q => hosted_queueReset (s := u) (b := b) (q := q)) (queuesOf s fn) (genAdvance s fn)
  unfold fnReset
  extract_lets u w
  refine ⟨w, ?_, htime w ?_, rfl⟩
  · simp only [w]
    split
    · exact hosted_ctlForget.trans hqueues
    · exact hqueues
  · simp only [w, u]
    split <;> simp

theorem fnReset_same (b : Bool) (h : funcOf s fn = some f) : ∃ g, funcOf (fnReset b s fn) fn = some g ∧
    ResetLeaves (if b then none else some (intervalStart s + 2)) f g ∧ g.accept = 0 ∧ g.vectors = [] ∧ g.busMaster = false := by
  obtain ⟨w, hw, htime, hreset⟩ := fnReset_eq b s fn
  obtain ⟨gen, hgen⟩ := funcOf_genAdvance_same h
  obtain ⟨f', hf', hbare⟩ := funcOf_of_hosted hw hgen
  refine ⟨_, by rw [hreset, funcOf_funcMod_same, hf']; rfl, ⟨by rw [htime], ?_, ?_, ?_, rfl, rfl⟩, rfl, rfl, rfl⟩
  · exact (congrArg Func.grant hbare :)
  · exact (congrArg Func.pmeEn hbare :)
  · exact (congrArg Func.pmeStatus hbare :)

theorem fnReset_other (b : Bool) {m : Nat} (hm : m ≠ fn) (h : funcOf s m = some f) :
    ∃ g, funcOf (fnReset b s fn) m = some g ∧ bareFunc g = bareFunc f := by
  obtain ⟨w, hw, -, hreset⟩ := fnReset_eq b s fn
  obtain ⟨g, hg, hbare⟩ := funcOf_of_hosted hw ((funcOf_genAdvance_other hm).trans h)
  exact ⟨g, by rw [hreset, funcOf_funcMod_other w _ hm, hg], hbare⟩

theorem fnReset_eps (b : Bool) (s : State) (fn : Nat) : (fnReset b s fn).hif.eps = s.hif.eps := by
  obtain ⟨w, hw, -, hreset⟩ := fnReset_eq b s fn
  rw [hreset]
  refine (eps_of_hosted hw).trans ?_
  unfold genAdvance
  split <;> rfl

/-! The reset of several. -/

theorem foldl_fnReset_other (b : Bool) {l : List Nat} (hl : fn ∉ l) (h : funcOf s fn = some f) :
    ∃ g, funcOf (l.foldl (fnReset b) s) fn = some g ∧ bareFunc g = bareFunc f := by
  induction l generalizing s f with
  | nil => exact ⟨f, h, rfl⟩
  | cons m l ih =>
    obtain ⟨g, hg, hbare⟩ := fnReset_other (fn := m) b (fun e => hl (e ▸ List.mem_cons_self)) h
    obtain ⟨k, hk, hbare'⟩ := ih (fun hmem => hl (List.mem_cons_of_mem m hmem)) hg
    exact ⟨k, hk, hbare'.trans hbare⟩

theorem foldl_fnReset_mem {l : List Nat} (hl : fn ∈ l) (h : funcOf s fn = some f) :
    ∃ g, funcOf (l.foldl (fnReset true) s) fn = some g ∧ ResetLeaves none f g := by
  induction l generalizing s f with
  | nil => exact absurd hl List.not_mem_nil
  | cons m l ih =>
    by_cases hm : fn = m
    · subst hm
      obtain ⟨g, hg, hleaves, -⟩ := fnReset_same true h
      by_cases hmem : fn ∈ l
      · obtain ⟨k, hk, hleaves'⟩ := ih hmem hg
        exact ⟨k, hk, hleaves.trans hleaves'⟩
      · obtain ⟨k, hk, hbare⟩ := foldl_fnReset_other true hmem hg
        exact ⟨k, hk, hleaves.of_bare rfl hbare⟩
    · obtain ⟨g, hg, hbare⟩ := fnReset_other true hm h
      obtain ⟨k, hk, hleaves⟩ := ih ((List.mem_cons.mp hl).resolve_left hm) hg
      exact ⟨k, hk, hleaves.of_bare hbare rfl⟩

theorem foldl_fnReset_eps (b : Bool) (l : List Nat) (s : State) : (l.foldl (fnReset b) s).hif.eps = s.hif.eps :=
  foldl_keeps (fun u => u.hif.eps) (fun u m => fnReset_eps b u m) l s

/-! FLR and its end. -/

theorem intervalStart_of_line {u : State} (h : line u = line s) : intervalStart u = intervalStart s := by
  have htmb : u.tmb = s.tmb := congrArg Line.tmb h
  simp only [intervalStart, now, htmb]

/-- The reset of a function after what else its FLR resets. -/
theorem fnReset_after {u : State} (hu : ∃ f', funcOf u fn = some f' ∧ bareFunc f' = bareFunc f) (hline : line u = line s) :
    ∃ g, funcOf (fnReset false u fn) fn = some g ∧ ResetLeaves (some (intervalStart s + 2)) f g ∧ g.accept = 0 ∧
      g.vectors = [] ∧ g.busMaster = false := by
  obtain ⟨f', hf', hbare⟩ := hu
  obtain ⟨g, hg, hleaves, hclear⟩ := fnReset_same false hf'
  rw [← intervalStart_of_line hline]
  exact ⟨g, hg, hleaves.of_bare hbare rfl, hclear⟩

theorem flr_of_absent (h : fnExists s fn = false) : flr s fn = s := by simp [flr, h]

theorem flr_leaves (hex : fnExists s fn = true) (h : funcOf s fn = some f) : ∃ g, funcOf (flr s fn) fn = some g ∧
    ResetLeaves (some (intervalStart s + 2)) f g ∧ g.accept = 0 ∧ g.vectors = [] ∧ g.busMaster = false := by
  have hrun : (!fnExists s fn || (funcOf s fn).isNone) = false := by simp [hex, h]
  simp only [flr, hrun, Bool.false_eq_true, if_false]
  split
  · exact fnReset_after ⟨f, h, rfl⟩ rfl
  next hpf =>
    split
    · exact fnReset_after (funcOf_of_hosted hosted_pf0Reset h) pf0Reset_line
    · have hown : fn ∉ vfsOf s fn := fun hmem => hpf (by simp [vfsOf] at hmem; exact hmem.2.1)
      exact fnReset_after (foldl_fnReset_other false hown h) (line_foldl _ (fun _ _ => fnReset_line) _ _)

/-- A VF without queues: its FLR changes its record alone. -/
theorem flr_of_vf (hvf : isVf fn = true) (hpf : pfNum fn = 1) (hq : queuesOf s fn = []) (hex : fnExists s fn = true)
    (h : funcOf s fn = some f) : flr s fn = Spec.funcBecomes s fn { Func.reset with
      gen := genNext f.gen, grant := f.grant, storageIndex := f.storageIndex, pmeEn := f.pmeEn, pmeStatus := f.pmeStatus
      resetting := some (some (intervalStart s + 2)) } := by
  have hgen : genAdvance s fn = Spec.funcBecomes s fn { f with gen := genNext f.gen } := by
    simp only [genAdvance, hpf, Nat.one_ne_zero, if_false]
    exact funcMod_eq_funcBecomes h
  have hnew : funcOf (Spec.funcBecomes s fn { f with gen := genNext f.gen }) fn = some { f with gen := genNext f.gen } :=
    tget_tset_same ..
  have hrun : (!fnExists s fn || (funcOf s fn).isNone) = false := by simp [hex, h]
  have hone : ¬ (1 : Nat) = 2 := by decide
  simp only [flr, hrun, hvf, fnReset, hq, List.foldl_nil, hpf, hone, hgen, if_true, if_false, Bool.false_eq_true]
  rw [funcMod_eq_funcBecomes hnew]
  simp only [Spec.funcBecomes, tset_tset_same]
  rfl

theorem genNext_of_kept {g : W16} (h : g ≠ 0xFFFF) : genNext g = if g = 0xFFFE then 1 else g + 1 := by
  have hlt : g.toNat < 0xFFFF := by
    have hne : g.toNat ≠ 0xFFFF := fun e => h (BitVec.eq_of_toNat_eq e)
    have := g.isLt
    omega
  unfold genNext
  split
  next hlast => subst hlast; rfl
  next hmore =>
    have hne : g.toNat ≠ 0xFFFE := fun e => hmore (BitVec.eq_of_toNat_eq e)
    apply BitVec.eq_of_toNat_eq
    rw [Nat.mod_eq_of_lt (by omega)]
    simp [BitVec.toNat_add]

end

/-! The end of resets. -/

/-- Every function that stood stands, and its reset goes on or has ended. -/
def Readies (s u : State) : Prop :=
  ∀ m f, funcOf s m = some f → ∃ g, funcOf u m = some g ∧ (g.resetting = f.resetting ∨ g.resetting = none)

theorem Readies.refl (s : State) : Readies s s := fun _ f h => ⟨f, h, .inl rfl⟩

theorem Readies.trans {s t u : State} (h : Readies s t) (h' : Readies t u) : Readies s u := by
  intro m f hf
  obtain ⟨g, hg, hres⟩ := h m f hf
  obtain ⟨k, hk, hres'⟩ := h' m g hg
  refine ⟨k, hk, ?_⟩
  rcases hres' with e | e
  · rwa [e]
  · exact .inr e

theorem Readies.of_hif {s u : State} (h : u.hif = s.hif) : Readies s u := fun m f hf =>
  ⟨f, by rw [← hf, funcOf, funcOf, h], .inl rfl⟩

theorem readies_funcMod {s : State} {fn : Nat} {g : Func → Func}
    (hg : ∀ f, (g f).resetting = f.resetting ∨ (g f).resetting = none) : Readies s (funcMod s fn g) := by
  intro m f hf
  by_cases hm : m = fn
  · subst hm
    exact ⟨g f, by rw [funcOf_funcMod_same, hf]; rfl, hg f⟩
  · exact ⟨f, by rw [funcOf_funcMod_other s g hm, hf], .inl rfl⟩

section
variable {s : State} {fn : Nat} {f : Func}

/-- FEATURES_OK leaves the state, or changes one function and not its reset. -/
theorem featuresOk_cases : featuresOk s fn = s ∨
    ∃ g : Func → Func, featuresOk s fn = funcMod s fn g ∧ ∀ f, (g f).resetting = f.resetting := by
  simp only [featuresOk]
  split
  · exact .inl rfl
  · split
    · exact .inl rfl
    · split
      · exact .inr ⟨_, rfl, fun _ => rfl⟩
      · split
        · exact .inl rfl
        · split
          · exact .inr ⟨_, rfl, fun _ => rfl⟩
          · exact .inr ⟨_, rfl, fun _ => rfl⟩

theorem readies_featuresOk : Readies s (featuresOk s fn) := by
  obtain h | ⟨g, h, hg⟩ := featuresOk_cases (s := s) (fn := fn) <;> rw [h]
  · exact Readies.refl s
  · exact readies_funcMod fun f => .inl (hg f)

theorem readies_presetLatch {set : BitVec 256} : Readies s (presetLatch s fn set) := by
  unfold presetLatch
  split
  · exact Readies.refl s
  · exact (readies_funcMod fun _ => by split <;> exact .inl rfl).trans readies_featuresOk

theorem featuresOk_eps : (featuresOk s fn).hif.eps = s.hif.eps := by
  obtain h | ⟨g, h, -⟩ := featuresOk_cases (s := s) (fn := fn) <;> rw [h]
  rfl

theorem presetLatch_eps {set : BitVec 256} : (presetLatch s fn set).hif.eps = s.hif.eps := by
  unfold presetLatch
  split
  · rfl
  · exact featuresOk_eps

theorem resetEvent_hif {b : Bool} : (resetEvent s fn b).hif = s.hif := by
  unfold resetEvent
  split <;> rfl

theorem resetEnd_of_none (h : (funcOf s fn).bind (·.resetting) = none) : resetEnd s fn = s := by
  simp only [resetEnd, h]

/-- The end of a reset in progress: the record, then what follows it. -/
theorem resetEnd_of_some {x : Option Nat} (h : (funcOf s fn).bind (·.resetting) = some x) :
    ∃ u, u.hif = (funcMod s fn fun f => { f with resetting := none }).hif ∧
      resetEnd s fn = resetEvent (presetLatch u fn (presetOf u fn)) fn x.isNone := by
  unfold resetEnd
  split
  · next hnone => exact absurd (hnone.symm.trans h) (Option.some_ne_none x).symm
  · next by_ hby =>
    obtain rfl : x = by_ := Option.some.inj (h.symm.trans hby)
    exact ⟨_, foldl_keeps State.hif (fun v q => queueMod_hif v q _) _ _, rfl⟩

theorem readies_resetEnd : Readies s (resetEnd s fn) := by
  rcases h : (funcOf s fn).bind (·.resetting) with _ | x
  · rw [resetEnd_of_none h]
    exact Readies.refl s
  · obtain ⟨u, hu, hend⟩ := resetEnd_of_some h
    rw [hend]
    have hclear : Readies s (funcMod s fn fun f => { f with resetting := none }) := readies_funcMod fun _ => .inr rfl
    have hafter : Readies _ u := Readies.of_hif hu
    exact hclear.trans (hafter.trans (readies_presetLatch.trans (Readies.of_hif resetEvent_hif)))

theorem resetEnd_eps : (resetEnd s fn).hif.eps = s.hif.eps := by
  rcases h : (funcOf s fn).bind (·.resetting) with _ | x
  · rw [resetEnd_of_none h]
  · obtain ⟨u, hu, hend⟩ := resetEnd_of_some h
    rw [hend, congrArg Hif.eps resetEvent_hif, presetLatch_eps, hu]
    rfl

theorem resetEnd_ready (h : funcOf s fn = some f) : ∃ g, funcOf (resetEnd s fn) fn = some g ∧ g.resetting = none := by
  rcases hr : f.resetting with _ | x
  · rw [resetEnd_of_none (by rw [h]; exact hr)]
    exact ⟨f, h, hr⟩
  · obtain ⟨u, hu, hend⟩ := resetEnd_of_some (s := s) (fn := fn) (x := x) (by rw [h]; exact hr)
    have hf : funcOf (funcMod s fn fun f => { f with resetting := none }) fn = some { f with resetting := none } := by
      rw [funcOf_funcMod_same, h]
      rfl
    obtain ⟨g, hg, hres⟩ := (Readies.of_hif hu).trans (readies_presetLatch.trans (Readies.of_hif resetEvent_hif)) fn _ hf
    exact ⟨g, by rw [hend]; exact hg, hres.elim id id⟩

theorem readies_foldl_resetEnd {l : List Nat} : Readies s (l.foldl resetEnd s) := by
  induction l generalizing s with
  | nil => exact Readies.refl s
  | cons m l ih => exact readies_resetEnd.trans ih

/-- Every function of a list of ends is ready. -/
theorem foldl_resetEnd_ready {l : List Nat} (hl : fn ∈ l) (h : funcOf s fn = some f) :
    ∃ g, funcOf (l.foldl resetEnd s) fn = some g ∧ g.resetting = none := by
  induction l generalizing s f with
  | nil => exact absurd hl List.not_mem_nil
  | cons m l ih =>
    by_cases hm : fn = m
    · subst hm
      obtain ⟨g, hg, hres⟩ := resetEnd_ready h
      obtain ⟨k, hk, hres'⟩ := readies_foldl_resetEnd (l := l) _ _ hg
      exact ⟨k, hk, hres'.elim (fun e => e.trans hres) id⟩
    · obtain ⟨g, hg, -⟩ := readies_resetEnd (fn := m) fn f h
      exact ih ((List.mem_cons.mp hl).resolve_left hm) hg

theorem foldl_resetEnd_of_none {l : List Nat} (h : ∀ m ∈ l, (funcOf s m).bind (·.resetting) = none) : l.foldl resetEnd s = s := by
  induction l with
  | nil => rfl
  | cons m l ih =>
    rw [List.foldl_cons, resetEnd_of_none (h m List.mem_cons_self)]
    exact ih fun k hk => h k (List.mem_cons_of_mem m hk)

end

end Sys2Proof.Machine

end

section
/-! The obligation on features, resets and readiness, from the rules of the reset. -/

namespace Sys2Proof.Machine

section
variable {s : State} {fn : Nat} {f : Func}

/-! ACCEPT (R461). -/

/-- A bit of a word of ACCEPT is 1 in the mask of its place alone. -/
theorem getLsbD_acceptMask {i k : Nat} (hk : k < 256) :
    (BitVec.ofNat 256 (0xFFFFFFFF * 2 ^ (32 * i))).getLsbD k = decide (k / 32 = i) := by
  have hones : (0xFFFFFFFF : Nat) = 2 ^ 32 - 1 := rfl
  rw [BitVec.getLsbD_ofNat, hones, Nat.testBit_mul_two_pow, Nat.testBit_two_pow_sub_one]
  simp only [hk, decide_true, Bool.true_and, ← Bool.decide_and]
  exact decide_eq_decide.mpr (by omega)

theorem getLsbD_acceptWord {i k : Nat} {v : W32} (hk : k < 256) :
    (BitVec.ofNat 256 (v.toNat * 2 ^ (32 * i))).getLsbD k = (decide (k / 32 = i) && v.getLsbD (k % 32)) := by
  rw [BitVec.getLsbD_ofNat, Nat.testBit_mul_two_pow]
  simp only [hk, decide_true, Bool.true_and, BitVec.getLsbD]
  by_cases hword : k / 32 = i
  · have hplace : k - 32 * i = k % 32 := by omega
    have hle : 32 * i ≤ k := by omega
    simp [hword, hplace, hle]
  · by_cases hle : 32 * i ≤ k
    · have hout : v.toNat.testBit (k - 32 * i) = false :=
        Nat.testBit_lt_two_pow (Nat.lt_of_lt_of_le v.isLt (Nat.pow_le_pow_right (by omega) (by omega)))
      simp [hword, hout]
    · simp [hword, hle]

/-- A word of ACCEPT, limited to the offer, in its place. -/
def acceptWritten (s : State) (fn : Nat) (f : Func) (i : Nat) (v : W32) : BitVec 256 :=
  (f.accept &&& ~~~BitVec.ofNat 256 (0xFFFFFFFF * 2 ^ (32 * i))) ||| (BitVec.ofNat 256 (v.toNat * 2 ^ (32 * i)) &&& offerOf s fn)

theorem getLsbD_acceptWritten {i k : Nat} {v : W32} (hk : k < 256) : (acceptWritten s fn f i v).getLsbD k =
    if k / 32 = i then v.getLsbD (k % 32) && (offerOf s fn).getLsbD k else f.accept.getLsbD k := by
  simp only [acceptWritten, BitVec.getLsbD_or, BitVec.getLsbD_and, BitVec.getLsbD_not, getLsbD_acceptMask hk,
    getLsbD_acceptWord hk, hk]
  by_cases hword : k / 32 = i <;> simp [hword]

theorem featAccept_eq (h : funcOf s fn = some f) (hok : f.featuresOk = false) (i : Nat) (v : W32) :
    featAccept s fn i v = Spec.funcBecomes s fn { f with accept := acceptWritten s fn f i v } := by
  simp only [featAccept, funcMod_eq_funcBecomes h, hok, Bool.false_eq_true, if_false]
  rfl

/-! FLR_COMPLETE (R459). -/

theorem flrComplete_of_idle (h : funcOf s fn = some f) (hr : f.resetting = none ∨ f.resetting = some none) :
    flrComplete s fn = s := by
  rcases hr with hr | hr <;> simp [flrComplete, h, hr]

theorem flrComplete_ready {x : Nat} (h : funcOf s fn = some f) (hr : f.resetting = some (some x)) :
    ∃ g, funcOf (flrComplete s fn) fn = some g ∧ g.resetting = none := by
  simp only [flrComplete, h, Option.bind_some, hr]
  exact foldl_resetEnd_ready (by simp) h

theorem presetLatch_zero : presetLatch s fn 0#256 = s := if_pos rfl

theorem presetOf_of_none {k : Grant} (hpf : pfNum fn = 1) (h : funcOf s fn = some f) (hg : f.grant = some k)
    (hk : k.features = 0) : presetOf s fn = 0#256 := by
  simp [presetOf, hpf, h, hg, hk]

theorem resetEvent_of_granted {k : Grant} (hpf : pfNum fn = 1) (h : funcOf s fn = some f) (hg : f.grant = some k) :
    resetEvent s fn false = event s .functionReset (leBytes 2 fn ++ leBytes 2 f.gen.toNat ++ leBytes 1 0) := by
  simp [resetEvent, hpf, h, hg, genOf]

/-- A VF without queues whose grant has no preset: its reset ends with its event alone. -/
theorem flrComplete_of_vf {x : Nat} {k : Grant} (hvf : isVf fn = true) (hpf : pfNum fn = 1) (hq : queuesOf s fn = [])
    (h : funcOf s fn = some f) (hg : f.grant = some k) (hr : f.resetting = some (some x)) (hk : k.features = 0) :
    flrComplete s fn = { Spec.funcBecomes s fn { f with resetting := none } with
      que := { s.que with events := s.que.events ++ [{
        type := .functionReset, tick := s.tmb.tick, record := leBytes 2 fn ++ leBytes 2 f.gen.toNat ++ leBytes 1 0 }] } } := by
  have hclear : (funcMod s fn fun f => { f with resetting := none }) = Spec.funcBecomes s fn { f with resetting := none } :=
    funcMod_eq_funcBecomes h
  have hnew : funcOf (Spec.funcBecomes s fn { f with resetting := none }) fn = some { f with resetting := none } :=
    tget_tset_same ..
  have hq' : queuesOf (Spec.funcBecomes s fn { f with resetting := none }) fn = [] := hq
  have hset := presetOf_of_none (f := { f with resetting := none }) hpf hnew hg hk
  have hevent := resetEvent_of_granted (f := { f with resetting := none }) hpf hnew hg
  simp only [flrComplete, h, Option.bind_some, hr, hvf, if_true, List.nil_append, List.foldl_cons, List.foldl_nil, resetEnd,
    hclear, hq', List.filter_nil, hset, presetLatch_zero, Option.isNone_some]
  exact hevent

/-! Endpoints (R442, R459, R460). -/

theorem endpointMod_eq (s : State) (ep : Nat) (g : Endpoint → Endpoint) :
    endpointMod s ep g = Spec.endpointBecomes s ep (g (endpointOf s ep)) := rfl

theorem endpointOf_of_eps {u : State} (h : u.hif.eps = s.hif.eps) (ep : Nat) : endpointOf u ep = endpointOf s ep := by
  rw [endpointOf, endpointOf, h]

/-- A function with a record is among those of its endpoint. -/
theorem mem_fnsOf (h : funcOf s fn = some f) : fn ∈ fnsOf s (epOf fn) := by
  simp only [fnsOf, List.mem_filter, beq_self_eq_true, and_true]
  exact mem_keys_of_tget h

/-- The endpoint as its reset leaves it, before what follows the reset. -/
def resetOf (e : Endpoint) : Endpoint :=
  { e with
    linkUp := false, rate := 0, width := 0, flit := false, inReset := true, contained := false, resets := e.resets + 1
    numVfs1 := 0, numVfs2 := 0, vfEnable1 := false, vfEnable2 := false, configReady := false }

theorem epReset_spec (s : State) (ep : Nat) : endpointOf (epReset s ep) ep = resetOf (endpointOf s ep) ∧
    Spec.functionsReset s (epReset s ep) ep := by
  have hfold := foldl_fnReset_eps true (fnsOf s ep) s
  have hpf0 := hosted_pf0Reset (s := (fnsOf s ep).foldl (fnReset true) s) (ep := ep)
  have heps : (pf0Reset ((fnsOf s ep).foldl (fnReset true) s) ep).hif.eps = s.hif.eps := (eps_of_hosted hpf0).trans hfold
  refine ⟨?_, fun fn f hep hf => ?_⟩
  · refine (endpointOf_endpointMod_same _ ep _).trans ?_
    exact congrArg resetOf (endpointOf_of_eps (by exact heps) ep)
  · subst hep
    obtain ⟨g, hg, hleaves⟩ := foldl_fnReset_mem (mem_fnsOf hf) hf
    obtain ⟨k, hk, hbare⟩ := funcOf_of_hosted hpf0 hg
    have hend := hleaves.of_bare rfl hbare
    exact ⟨k, hk, hend.resetting, hend.grant, hend.pmeEn, hend.pmeStatus, hend.featuresOk, hend.active⟩

end

section
variable {s : State} {ep : Nat}

theorem perstAssert_of_low (h : (endpointOf s ep).perst = true) : perstAssert s ep = s := by simp [perstAssert, h]

theorem perstAssert_of_high (hen : epEnabled s ep = true) (h : (endpointOf s ep).perst = false) :
    perstAssert s ep = endpointMod (epReset s ep) ep (fun e => { e with perst := true, readyBy := none }) := by
  simp only [perstAssert, h, hen, Bool.false_eq_true, if_false, if_true]

theorem hotReset_of_low (h : (endpointOf s ep).perst = true) : hotReset s ep = s := by simp [hotReset, h]

theorem hotReset_of_high (hen : epEnabled s ep = true) (h : (endpointOf s ep).perst = false) (hup : hostReleased s = true) :
    hotReset s ep = endpointMod (epReset s ep) ep (fun e => { e with readyBy := some (intervalStart s + 100000) }) := by
  simp only [hotReset, h, hen, hup, Bool.not_true, Bool.or_self, Bool.false_eq_true, if_false]

theorem perstDeassert_of_high (h : (endpointOf s ep).perst = false) : perstDeassert s ep = s := by simp [perstDeassert, h]

theorem perstDeassert_of_low (hen : epEnabled s ep = true) (h : (endpointOf s ep).perst = true) :
    perstDeassert s ep = Spec.endpointBecomes s ep (if hostReleased s then { endpointOf s ep with
        perst := false, inReset := false, wake := false, readyBy := some (intervalStart s + 100000) }
      else { endpointOf s ep with perst := false, wake := false }) := by
  simp only [perstDeassert, h, hen, Bool.not_true, Bool.false_eq_true, if_false, endpointMod_eq, Bool.true_and]

theorem configReady_of_waiting (hen : epEnabled s ep = true) (h : (endpointOf s ep).perst = false)
    (hby : (endpointOf s ep).readyBy.isSome = true) :
    configReady s ep = (fnsOf s ep).foldl resetEnd (Spec.endpointBecomes s ep { endpointOf s ep with
      configReady := true, readyBy := none, inReset := false }) := by
  have hgo : (!epEnabled s ep || (endpointOf s ep).perst || (endpointOf s ep).readyBy.isNone) = false := by
    simp [hen, h, Option.isNone_eq_false_iff.mpr hby]
  simp only [configReady, hgo, Bool.false_eq_true, if_false]
  rfl

/-- Once the endpoint is configuration-ready, so are its functions. -/
theorem configReady_spec (hen : epEnabled s ep = true) (h : (endpointOf s ep).perst = false)
    (hby : (endpointOf s ep).readyBy.isSome = true) :
    endpointOf (configReady s ep) ep = { endpointOf s ep with configReady := true, readyBy := none, inReset := false } ∧
      ∀ fn f, funcOf s fn = some f → epOf fn = ep → ∃ g, funcOf (configReady s ep) fn = some g ∧ g.resetting = none := by
  rw [configReady_of_waiting hen h hby]
  refine ⟨?_, fun fn f hf hep => ?_⟩
  · rw [endpointOf_of_eps (foldl_keeps (fun u => u.hif.eps) (fun _ _ => resetEnd_eps) _ _)]
    exact endpointOf_endpointMod_same s ep fun _ => _
  · subst hep
    exact foldl_resetEnd_ready (mem_fnsOf hf) (by exact hf)

theorem configReady_of_idle (hen : epEnabled s ep = true) (h : (endpointOf s ep).perst = false)
    (hby : (endpointOf s ep).readyBy.isSome = true)
    (hidle : ∀ fn f, funcOf s fn = some f → epOf fn = ep → f.resetting = none) :
    configReady s ep = Spec.endpointBecomes s ep { endpointOf s ep with
      configReady := true, readyBy := none, inReset := false } := by
  rw [configReady_of_waiting hen h hby]
  refine foldl_resetEnd_of_none fun fn hfn => ?_
  have hep : epOf fn = ep := by simpa using (List.mem_filter.mp hfn).2
  change (funcOf s fn).bind (·.resetting) = none
  rcases hf : funcOf s fn with _ | f
  · rfl
  · exact hidle fn f hf hep

theorem linkUp_of_allowed {rate width : BitVec 3} {flit : Bool} (hen : epEnabled s ep = true)
    (h : (endpointOf s ep).perst = false) (hdown : (endpointOf s ep).linkUp = false) (hup : hostReleased s = true)
    (hpme : (endpointOf s ep).pmePending = false) (hok : linkAllowed s ep rate width flit = true) :
    linkUp s ep rate width flit = Spec.endpointBecomes s ep { endpointOf s ep with
      linkUp := true, rate := rate, width := width, flit := flit, inReset := false } := by
  have hgo : (!epEnabled s ep || (endpointOf s ep).perst || (endpointOf s ep).linkUp || !hostReleased s ||
      !linkAllowed s ep rate width flit) = false := by simp [hen, h, hdown, hup, hok]
  simp only [linkUp, hgo, Bool.false_eq_true, if_false]
  refine (if_neg (Bool.eq_false_iff.mp hpme)).trans ?_
  exact congrArg (fun p => Spec.endpointBecomes s ep { endpointOf s ep with
    linkUp := true, rate := rate, width := width, flit := flit, inReset := false, pmePending := p }) hpme.symm

end

end Sys2Proof.Machine

open Sys2Proof.Machine in
/-- Settles O37: the latch of features by its checks; the resets through what one function's reset leaves of it and of the
others; readiness through the end of each function's reset. -/
theorem hostFeaturesAndResets : Obligations.HostFeaturesAndResets := by
  refine ⟨fun s fn f h hok => ⟨fun hr hc => ?_, fun hr hc => ⟨fun hd => ?_, fun hd hb => ?_, fun hd hb => ?_⟩, fun i v => ?_⟩,
    fun s fn f k hvf hpf hq h hg => ⟨fun hex => ?_, fun x hr hk => ?_⟩,
    fun s fn f h => ⟨fun hex => ?_, fun hex => ?_, fun x hr => ?_, fun hr => ?_⟩, fun s ep e he hen => ?_⟩
  · exact congrArg Host.Outcome.next (featuresOk_of_uncreated h hr hc)
  · exact congrArg Host.Outcome.next (featuresOk_of_unready h hr hc hd)
  · exact congrArg Host.Outcome.next (featuresOk_of_broken h hr hok hc hd hb)
  · exact congrArg Host.Outcome.next (featuresOk_of_kept h hr hok hc hd hb)
  · exact ⟨acceptWritten s fn.toNat f i.val v, fun k hk => getLsbD_acceptWritten hk,
      congrArg Host.Outcome.next (featAccept_eq h hok i.val v)⟩
  · exact ⟨_, congrArg Host.Outcome.next (flr_of_vf hvf hpf hq hex h), _, rfl, rfl, rfl, rfl, rfl, rfl, rfl, rfl, rfl, rfl,
      fun hgen => genNext_of_kept hgen⟩
  · exact congrArg Host.Outcome.next (flrComplete_of_vf hvf hpf hq h hg hr hk)
  · obtain ⟨g, hgf, hleaves, haccept, hvectors, hmaster⟩ := flr_leaves hex h
    exact ⟨_, rfl, g, hgf, hleaves.resetting, hleaves.grant, hleaves.pmeEn, hleaves.pmeStatus, hleaves.featuresOk,
      hleaves.active, haccept, hvectors, hmaster⟩
  · exact congrArg Host.Outcome.next (flr_of_absent hex)
  · exact ⟨_, rfl, flrComplete_ready h hr⟩
  · exact congrArg Host.Outcome.next (flrComplete_of_idle h hr)
  · subst he
    obtain ⟨hreset, hfuncs⟩ := epReset_spec s ep.val
    refine ⟨fun hp _ => ⟨_, congrArg Host.Outcome.next (perstAssert_of_high hen hp), ?_, hfuncs⟩,
      fun hp hup _ => ⟨_, congrArg Host.Outcome.next (hotReset_of_high hen hp hup), ?_, hfuncs⟩,
      fun hp hup => congrArg Host.Outcome.next ((perstDeassert_of_low hen hp).trans ?_),
      fun hp hup => congrArg Host.Outcome.next ((perstDeassert_of_low hen hp).trans ?_),
      fun hp => ⟨congrArg Host.Outcome.next (perstAssert_of_low hp), congrArg Host.Outcome.next (hotReset_of_low hp)⟩,
      fun hp => congrArg Host.Outcome.next (perstDeassert_of_high hp),
      fun hp hby => ⟨_, rfl, configReady_spec hen hp hby⟩,
      fun hp hby hidle => congrArg Host.Outcome.next (configReady_of_idle hen hp hby hidle),
      fun rate width flit hp hdown hup hpme hok =>
        congrArg Host.Outcome.next (linkUp_of_allowed hen hp hdown hup hpme hok)⟩
    · rw [endpointOf_endpointMod_same, hreset]
      rfl
    · rw [endpointOf_endpointMod_same, hreset]
      exact congrArg (fun p => { resetOf (endpointOf s ep.val) with
        perst := p, readyBy := some (intervalStart s + 100000) }) hp
    · rw [if_pos hup]
    · rw [hup, if_neg Bool.false_ne_true]

end

section
/-! Power states, wake events and interrupts of the host interface (R451, R452, R457, R458, R464). -/

namespace Sys2Proof.Machine

section
variable {s : State} {fn : Nat} {f : Func}

/-! Functions. -/

/-- A PF stands for itself in its power state. -/
theorem pfOf_of_pf (h : isVf fn = false) : pfOf fn = fn := by
  simp only [isVf, vfNum, bne_eq_false_iff_eq] at h
  simp only [pfOf]
  omega

theorem funcOf_funcBecomes_same {g : Func} : funcOf (Spec.funcBecomes s fn g) fn = some g := tget_tset_same ..

theorem inD3_of_pf (h : isVf fn = false) (hf : funcOf s fn = some f) : inD3 s fn = f.d3hot := by
  simp [inD3, pfOf_of_pf h, hf]

/-- A key of its own kind enters no list of keys of another. -/
theorem filter_keys_tset {α : Type} {p : Nat → Bool} {i : Nat} (hp : p i = false) (t : Tbl α) (v : α) :
    ((tset t i v).map (·.1)).filter p = (t.map (·.1)).filter p := by
  induction t with
  | nil => simp [tset, hp]
  | cons e t ih =>
    simp only [tset]
    (repeat' split) <;> simp_all [List.filter_cons]

theorem vfsOf_funcBecomes {pf : Nat} {g : Func} (h : isVf fn = false) : vfsOf (Spec.funcBecomes s fn g) pf = vfsOf s pf :=
  filter_keys_tset (by simp [h]) _ _

/-- What a function may issue depends on its power state and its bus mastering alone. -/
theorem fnRuns_funcMod {n : Nat} {g : Func → Func} (hg : ∀ f, (g f).d3hot = f.d3hot ∧ (g f).busMaster = f.busMaster) :
    fnRuns (funcMod s n g) fn = fnRuns s fn := by
  have hof : ∀ m, (funcOf (funcMod s n g) m).map (fun f => (f.d3hot, f.busMaster)) =
      (funcOf s m).map (fun f => (f.d3hot, f.busMaster)) := fun m => by
    by_cases hm : m = n
    · subst hm
      rw [funcOf_funcMod_same, Option.map_map]
      exact congrArg (fun h => (funcOf s m).map h) (funext fun f => Prod.ext (hg f).1 (hg f).2)
    · rw [funcOf_funcMod_other s g hm]
  have hd3 : inD3 (funcMod s n g) fn = inD3 s fn := by
    have := congrArg (fun o => (o.map Prod.fst).getD false) (hof (pfOf fn))
    simpa [inD3, Option.map_map, Function.comp_def] using this
  have hmaster : busMasters (funcMod s n g) fn = busMasters s fn := by
    have := congrArg (fun o => (o.map Prod.snd).getD false) (hof fn)
    simpa [busMasters, Option.map_map, Function.comp_def] using this
  simp only [fnRuns, hd3, hmaster]
  rfl

/-! Power states (R457, R464). -/

section
variable (hvf : isVf fn = false) (hpf : pfNum fn = 1) (h : funcOf s fn = some f) (hvfs : vfsOf s fn = [])
  (hq : queuesOf s fn = [])
include hvf hpf h hvfs hq

/-- A PF1 without VFs and queues enters D3hot alone. -/
theorem d3Entry_of_idle (hd : f.d3hot = false) (hex : fnExists s fn = true) (htx : (schPort s (512 + epOf fn)).tx = none) :
    d3Entry s fn = Spec.funcBecomes s fn { f with d3hot := true } := by
  have hgo : (isVf fn || inD3 s fn || !fnExists s fn) = false := by simp [hvf, inD3_of_pf hvf h, hd, hex]
  have hq' : queuesOf (Spec.funcBecomes s fn { f with d3hot := true }) fn = [] := hq
  have hvfs' : vfsOf (Spec.funcBecomes s fn { f with d3hot := true }) fn = [] := (vfsOf_funcBecomes hvf).trans hvfs
  have hctl : nvmePause (Spec.funcBecomes s fn { f with d3hot := true }) fn = Spec.funcBecomes s fn { f with d3hot := true } := by
    simp [nvmePause, hpf]
  have htx' : (schPort (Spec.funcBecomes s fn { f with d3hot := true }) (512 + epOf fn)).tx = none := htx
  simp only [d3Entry, hgo, Bool.false_eq_true, if_false, funcMod_eq_funcBecomes h, powerFns, hvfs', List.flatMap_cons,
    List.flatMap_nil, hq', List.append_nil, List.foldl_nil, List.foldl_cons, hctl, hostTxReturn, htx']

/-- A PF1 without VFs, queues and vectors returns to D0 alone. -/
theorem d0Return_of_idle (hd : f.d3hot = true) (hvec : f.vectors = []) :
    d0Return s fn = Spec.funcBecomes s fn { f with d3hot := false } := by
  have hgo : (isVf fn || !inD3 s fn) = false := by simp [hvf, inD3_of_pf hvf h, hd]
  have hq' : queuesOf (Spec.funcBecomes s fn { f with d3hot := false }) fn = [] := hq
  have hvfs' : vfsOf (Spec.funcBecomes s fn { f with d3hot := false }) fn = [] := (vfsOf_funcBecomes hvf).trans hvfs
  have hpf0 : ¬ (fn = pf0Of (epOf fn) ∧ fnRuns (Spec.funcBecomes s fn { f with d3hot := false }) fn = true) := by
    rintro ⟨e, -⟩
    simp only [pfNum, pf0Of, epOf] at hpf e
    omega
  have hone : ¬ (1 : Nat) = 2 := by decide
  have hsend : msixSend (Spec.funcBecomes s fn { f with d3hot := false }) fn =
      Spec.funcBecomes s fn { f with d3hot := false } := by
    simp only [msixSend, funcOf_funcBecomes_same, hvec, List.filter_nil, List.foldl_nil, ite_self]
  simp only [d0Return, hgo, Bool.false_eq_true, if_false, funcMod_eq_funcBecomes h, powerFns, hvfs', List.foldl_cons,
    List.foldl_nil, fnResume, hq', hpf, hone, hpf0, hsend]

end

/-! Wake events (R458). -/

theorem wakeEvent_of_fault {ep : Nat} {level : Fin 5} (hfn : fn = 0x8000 * ep) (hep : ep < 2) (h : funcOf s fn = some f)
    (hpme : f.pmeEn = true) (hlevel : s.hif.wakeLevel.toNat ≤ level.val) :
    wakeEvent s fn (.fault level) =
      if (endpointOf s ep).perst || !(endpointOf s ep).linkUp then
        Spec.endpointBecomes (Spec.funcBecomes s fn { f with pmeStatus := true }) ep { endpointOf s ep with
          wake := true, pmePending := true }
      else if f.d3hot then emit (Spec.funcBecomes s fn { f with pmeStatus := true }) (.message fn 0)
      else s := by
  have hof : epOf fn = ep := by simp only [epOf]; omega
  have hvf : isVf fn = false := by simp only [isVf, vfNum, bne_eq_false_iff_eq]; omega
  have hpf : pfNum fn = 0 := by simp only [pfNum]; omega
  have hgo : (isVf fn || !f.pmeEn || !wakes s fn (.fault level)) = false := by simp [hvf, hpme, wakes, hpf, hlevel]
  simp only [wakeEvent, h, hgo, Bool.false_eq_true, if_false, hof, funcMod_eq_funcBecomes h]
  rfl

/-! MSI-X masks (R451, R452). -/

theorem vectorMod_of_only {v : Nat} {x : Vector} {g : Vector → Vector} (h : funcOf s fn = some f) (hv : f.vectors = [(v, x)]) :
    vectorMod s fn v g = Spec.funcBecomes s fn { f with vectors := [(v, g x)] } := by
  rw [vectorMod, funcMod_eq_funcBecomes h, hv]
  simp [tmod, tset, tgetD, tget]

/-- The only vector of a function, pending and free of masks, is sent. -/
theorem msixSend_of_only {v : Nat} {x : Vector} (h : funcOf s fn = some f) (hen : f.msixEnable = true)
    (hmask : f.functionMask = false) (hrun : fnRuns s fn = true) (hv : f.vectors = [(v, x)]) (hp : x.pending = true)
    (hm : x.masked = false) : msixSend s fn =
      emit (Spec.funcBecomes s fn { f with vectors := [(v, { x with pending := false })] }) (.msix fn v) := by
  have hgo : (!f.msixEnable || f.functionMask || !fnRuns s fn) = false := by simp [hen, hmask, hrun]
  have hlist : f.vectors.filter (fun v => v.2.pending && !v.2.masked) = [(v, x)] := by simp [hv, hp, hm]
  simp only [msixSend, h, hgo, Bool.false_eq_true, if_false, hlist, List.foldl_cons, List.foldl_nil, vectorMod_of_only h hv]

theorem msixSend_of_masked (h : funcOf s fn = some f) (hmask : f.functionMask = true) : msixSend s fn = s := by
  simp only [msixSend, h, hmask, Bool.or_true, Bool.true_or, if_true]

theorem funcBecomes_funcBecomes {g g' : Func} :
    Spec.funcBecomes (Spec.funcBecomes s fn g) fn g' = Spec.funcBecomes s fn g' := by
  simp only [Spec.funcBecomes, tset_tset_same]

/-- A function that issues requests does so after a change of its masks. -/
theorem fnRuns_funcBecomes {g : Func} (h : funcOf s fn = some f) (hrun : fnRuns s fn = true) (hd : g.d3hot = f.d3hot)
    (hb : g.busMaster = f.busMaster) : fnRuns (Spec.funcBecomes s fn g) fn = true := by
  have heq : Spec.funcBecomes s fn g =
      funcMod s fn (fun k => { g with d3hot := k.d3hot, busMaster := k.busMaster }) := by
    rw [funcMod_eq_funcBecomes h, ← hd, ← hb]
  rw [heq]
  exact (fnRuns_funcMod (by exact fun _ => ⟨rfl, rfl⟩)).trans hrun

section
variable {v : Nat} {x : Vector} (h : funcOf s fn = some f) (hen : f.msixEnable = true) (hrun : fnRuns s fn = true)
  (hv : f.vectors = [(v, x)]) (hp : x.pending = true)
include h hv

theorem msixUnmask_vector_masked (hmask : f.functionMask = true) : msixUnmask s fn (some v) =
    Spec.funcBecomes s fn { f with vectors := [(v, { x with masked := false })] } := by
  rw [msixUnmask, vectorMod_of_only h hv]
  exact msixSend_of_masked funcOf_funcBecomes_same hmask

include hen hrun hp

theorem msixUnmask_vector (hmask : f.functionMask = false) : msixUnmask s fn (some v) =
    emit (Spec.funcBecomes s fn { f with vectors := [(v, { x with masked := false, pending := false })] }) (.msix fn v) := by
  have hsend := msixSend_of_only (s := Spec.funcBecomes s fn { f with vectors := [(v, { x with masked := false })] })
    funcOf_funcBecomes_same hen hmask (fnRuns_funcBecomes h hrun rfl rfl) rfl hp rfl
  rw [funcBecomes_funcBecomes] at hsend
  rw [msixUnmask, vectorMod_of_only h hv]
  exact hsend

theorem msixUnmask_function (hm : x.masked = false) : msixUnmask s fn none =
    emit (Spec.funcBecomes s fn { f with functionMask := false, vectors := [(v, { x with pending := false })] })
      (.msix fn v) := by
  have hsend := msixSend_of_only (s := Spec.funcBecomes s fn { f with functionMask := false })
    funcOf_funcBecomes_same hen rfl (fnRuns_funcBecomes h hrun rfl rfl) hv hp hm
  rw [funcBecomes_funcBecomes] at hsend
  rw [msixUnmask, funcMod_eq_funcBecomes h]
  exact hsend

end

end

end Sys2Proof.Machine

open Sys2Proof.Machine in
/-- Settles O38: a PF without VFs and queues changes its power state alone; a wake event by the state of link and function; an
unmask by what a vector that waits sends. -/
theorem hostPowerAndInterrupts : Obligations.HostPowerAndInterrupts := by
  refine ⟨fun s fn f hvf hpf h hvfs hq => ⟨fun hd hex htx => ?_, fun hd hvec => ?_⟩,
    fun s ep fn f level hfn h hpme hlevel => ⟨fun hd hp hl => ?_, fun hdown => ?_, fun hd hp hl => ?_⟩,
    fun s fn f v x h hen hrun hv hp => ⟨fun hmask => ?_, fun hmask => ?_, fun hm => ?_⟩⟩
  · exact congrArg Host.Outcome.next (d3Entry_of_idle hvf hpf h hvfs hq hd hex htx)
  · exact congrArg Host.Outcome.next (d0Return_of_idle hvf hpf h hvfs hq hd hvec)
  · refine congrArg Host.Outcome.next ((wakeEvent_of_fault hfn ep.isLt h hpme hlevel).trans ?_)
    rw [if_neg (by simp [hp, hl]), if_pos hd]
    rfl
  · refine congrArg Host.Outcome.next ((wakeEvent_of_fault hfn ep.isLt h hpme hlevel).trans (if_pos ?_))
    rcases hdown with hp | hl
    · simp [hp]
    · simp [hl]
  · refine congrArg Host.Outcome.next ((wakeEvent_of_fault hfn ep.isLt h hpme hlevel).trans ?_)
    rw [if_neg (by simp [hp, hl]), if_neg (by simp [hd])]
  · exact congrArg Host.Outcome.next (msixUnmask_vector h hen hrun hv hp hmask)
  · exact congrArg Host.Outcome.next (msixUnmask_vector_masked h hv hmask)
  · exact congrArg Host.Outcome.next (msixUnmask_function h hen hrun hv hp hm)

end

section
/-! Errors of an endpoint: what Advanced Error Reporting logs of one in a PF and counts on its endpoint (R454-R456). -/

namespace Sys2Proof.Machine

section
variable {s : State} {fn b : Nat} {f : Func}

/-! The configuration registers that decide: an error leaves them. -/

theorem cfgReg_of_func (h : funcOf s fn = some f) (off : Nat) : cfgReg s fn off = tgetD f.config off (cfgDefault off) := by
  simp [cfgReg, h]

theorem tget_tput_other {α : Type} [DecidableEq α] {d x : α} (t : Tbl α) {i j : Nat} (h : j ≠ i) :
    tget (tput d t i x) j = tget t j := by
  unfold tput
  split
  · exact tget_tdel_other t h
  · exact tget_tset_other t x h

/-- Two functions agree on every configuration register but Device Status. -/
def sameRegs (f g : Func) : Prop := ∀ off, off ≠ 0x5A → tget g.config off = tget f.config off

theorem cfgReg_of_sameRegs {u : State} {g : Func} {off : Nat} (h : funcOf s fn = some f) (hu : funcOf u fn = some g)
    (hreg : sameRegs f g) (hoff : off ≠ 0x5A) : cfgReg u fn off = cfgReg s fn off := by
  rw [cfgReg_of_func h, cfgReg_of_func hu, tgetD, tgetD, hreg off hoff]

theorem funcOf_funcMod_some {g : Func → Func} (h : funcOf s fn = some f) : funcOf (funcMod s fn g) fn = some (g f) := by
  rw [funcOf_funcMod_same, h]
  rfl

/-- Device Status with a bit of what was detected. -/
def errorNoted (f : Func) (bit : Nat) : Func :=
  { f with config := tput 0#32 f.config 0x5A (tgetD f.config 0x5A 0#32 ||| BitVec.ofNat 32 (2 ^ bit)) }

theorem sameRegs_errorNoted (bit : Nat) : sameRegs f (errorNoted f bit) := fun _ h => tget_tput_other _ h

theorem funcOf_errorSeen {bit : Nat} (h : funcOf s fn = some f) : funcOf (errorSeen s fn bit) fn = some (errorNoted f bit) :=
  funcOf_funcMod_some h

theorem errorMessage_hif {k : Nat} : (errorMessage s fn k).hif = s.hif := by
  unfold errorMessage
  split <;> rfl

theorem funcOf_of_hif {u : State} (h : u.hif = s.hif) : funcOf u fn = funcOf s fn := by rw [funcOf, funcOf, h]

theorem endpointOf_of_hif {u : State} (h : u.hif = s.hif) (ep : Nat) : endpointOf u ep = endpointOf s ep :=
  endpointOf_of_eps (congrArg Hif.eps h) ep

theorem endpointOf_errorCount {ep : Nat} {u : Bool} : endpointOf (errorCount s ep u) ep =
    if u then { endpointOf s ep with uncorrectable := (endpointOf s ep).uncorrectable + 1 }
    else { endpointOf s ep with correctable := (endpointOf s ep).correctable + 1 } := by
  rw [errorCount, endpointOf_endpointMod_same]
  rfl

/-! Correctable errors. -/

/-- What a correctable error changes of its function: its status bit and Device Status. -/
def corrNoted (f : Func) (b : Nat) : Func :=
  { errorNoted f 0 with aerCorr := f.aerCorr ||| BitVec.ofNat 32 (2 ^ b) }

theorem corrLogged_spec (h : funcOf s fn = some f) : funcOf (corrLogged s fn b) fn = some (corrNoted f b) ∧
    endpointOf (corrLogged s fn b) (epOf fn) = { endpointOf s (epOf fn) with
      correctable := (endpointOf s (epOf fn)).correctable + 1 } :=
  ⟨funcOf_funcMod_some (funcOf_errorSeen (s := errorCount s (epOf fn) false) h),
    endpointOf_errorCount (s := s) (ep := epOf fn) (u := false)⟩

theorem aerCorrectable_spec (h : funcOf s fn = some f) : funcOf (aerCorrectable s fn b) fn = some (corrNoted f b) ∧
    endpointOf (aerCorrectable s fn b) (epOf fn) = { endpointOf s (epOf fn) with
      correctable := (endpointOf s (epOf fn)).correctable + 1 } := by
  obtain ⟨hf, he⟩ := corrLogged_spec (b := b) h
  have hhif : (aerCorrectable s fn b).hif = (corrLogged s fn b).hif := by
    simp only [aerCorrectable]
    split
    · rfl
    · exact errorMessage_hif
  exact ⟨(funcOf_of_hif hhif).trans hf, (endpointOf_of_hif hhif _).trans he⟩

/-! Uncorrectable errors. -/

/-- The First Error Pointer and the header log: they take the error while free; else its loss is a correctable error. -/
theorem aerFirst_spec {header : List Byte} (h : funcOf s fn = some f) : ∃ g, funcOf (aerFirst s fn b header) fn = some g ∧
    g.aerUncorr = f.aerUncorr ∧ (∃ c, g.aerCorr = f.aerCorr ||| c) ∧
    (f.aerFirst = none → g.aerFirst = some b ∧ g.aerHeader = header) ∧
    (endpointOf (aerFirst s fn b header) (epOf fn)).uncorrectable = (endpointOf s (epOf fn)).uncorrectable := by
  unfold aerFirst
  simp only [h, Option.bind_some]
  split
  · exact ⟨_, funcOf_funcMod_some h, rfl, ⟨0, (BitVec.or_zero ..).symm⟩, fun _ => ⟨rfl, rfl⟩, rfl⟩
  · next hfirst =>
    obtain ⟨hf, he⟩ := aerCorrectable_spec (b := corrHeaderLog) h
    exact ⟨_, hf, rfl, ⟨_, rfl⟩, fun hnone => absurd (hfirst.symm.trans hnone) (Option.some_ne_none _),
      (congrArg Endpoint.uncorrectable he :)⟩

theorem uncorrLogged_spec {kind : Nat} {header : List Byte} (hpf : pfOf fn = fn) (h : funcOf s fn = some f) :
    ∃ g, funcOf (uncorrLogged s fn b kind header) fn = some g ∧ g.aerUncorr = f.aerUncorr ||| BitVec.ofNat 32 (2 ^ b) ∧
    (∃ c, g.aerCorr = f.aerCorr ||| c) ∧
    ((cfgReg s fn 0x108).getLsbD b = false → f.aerFirst = none → g.aerFirst = some b ∧ g.aerHeader = header) ∧
    (endpointOf (uncorrLogged s fn b kind header) (epOf fn)).uncorrectable = (endpointOf s (epOf fn)).uncorrectable := by
  have hf := funcOf_funcMod_some (g := fun f => { f with aerUncorr := f.aerUncorr ||| BitVec.ofNat 32 (2 ^ b) }) h
  simp only [uncorrLogged, hpf]
  split
  next hmask =>
    exact ⟨_, hf, rfl, ⟨0, (BitVec.or_zero ..).symm⟩, fun hm => absurd hmask (Bool.eq_false_iff.mp hm), rfl⟩
  next hmask =>
    obtain ⟨g, hg, hunc, hcorr, hfirst, hcount⟩ := aerFirst_spec (b := b) (header := header) hf
    exact ⟨g, (funcOf_of_hif errorMessage_hif).trans hg, hunc, hcorr, fun _ => hfirst,
      (congrArg Endpoint.uncorrectable (endpointOf_of_hif errorMessage_hif _)).trans hcount⟩

/-- The error of a PF is logged: counted, in its status, and in the header log where that is free and it is not masked. -/
def uncorrOf (s u : State) (fn b : Nat) (f : Func) (header : List Byte) : Prop :=
  ∃ g, funcOf u fn = some g ∧ (endpointOf u (epOf fn)).uncorrectable = (endpointOf s (epOf fn)).uncorrectable + 1 ∧
    g.aerUncorr = f.aerUncorr ||| BitVec.ofNat 32 (2 ^ b) ∧
    ((cfgReg s fn 0x108).getLsbD b = false → f.aerFirst = none → g.aerFirst = some b ∧ g.aerHeader = header)

/-- An error that is not reported as advisory: `uncorrLogged` after its count and Device Status. -/
theorem aerUncorrectable_logged {advisory : Bool} {header : List Byte} (hpf : pfOf fn = fn) (hb : b ≠ errUnsupported)
    (h : funcOf s fn = some f) (hadv : advisory = false ∨ (cfgReg s fn 0x10C).getLsbD b = true) :
    uncorrOf s (aerUncorrectable s fn b advisory header) fn b f header := by
  have hgo : (advisory && !(cfgReg (errorCount s (epOf fn) true) fn 0x10C).getLsbD b) = false := by
    rcases hadv with ha | hs
    · simp [ha]
    · have hs' : (cfgReg (errorCount s (epOf fn) true) fn 0x10C).getLsbD b = true := hs
      simp [hs']
  simp only [aerUncorrectable, hb, if_false, hpf, hgo, Bool.false_eq_true]
  generalize (if (cfgReg (errorCount s (epOf fn) true) fn 0x10C).getLsbD b = true then 2 else 1) = bit
  generalize (if (cfgReg (errorCount s (epOf fn) true) fn 0x10C).getLsbD b = true then 4 else 3) = kind
  have hseen : funcOf (errorSeen (errorCount s (epOf fn) true) fn bit) fn = some (errorNoted f bit) := funcOf_errorSeen h
  obtain ⟨g, hg, hunc, -, hfirst, hcount⟩ := uncorrLogged_spec (b := b) (kind := kind) (header := header) hpf hseen
  have hmask := cfgReg_of_sameRegs h hseen (sameRegs_errorNoted bit) (off := 0x108) (by decide)
  have hcounted : (endpointOf (errorSeen (errorCount s (epOf fn) true) fn bit) (epOf fn)).uncorrectable =
      (endpointOf s (epOf fn)).uncorrectable + 1 :=
    congrArg Endpoint.uncorrectable (endpointOf_errorCount (s := s) (ep := epOf fn) (u := true))
  exact ⟨g, hg, hcount.trans hcounted, hunc, fun hm hn => hfirst (by rw [hmask]; exact hm) hn⟩

/-- A non-fatal error that PCI Express lets be advisory: its correctable bit, and the rest only where that is not masked. -/
theorem aerUncorrectable_advisory {header : List Byte} (hpf : pfOf fn = fn) (hb : b ≠ errUnsupported)
    (h : funcOf s fn = some f) (hsev : (cfgReg s fn 0x10C).getLsbD b = false) :
    ∃ g, funcOf (aerUncorrectable s fn b true header) fn = some g ∧
      (endpointOf (aerUncorrectable s fn b true header) (epOf fn)).uncorrectable =
        (endpointOf s (epOf fn)).uncorrectable + 1 ∧ g.aerCorr.getLsbD 13 = true ∧
      ((cfgReg s fn 0x114).getLsbD 13 = true →
        (endpointOf (aerUncorrectable s fn b true header) (epOf fn)).correctable = (endpointOf s (epOf fn)).correctable + 1 ∧
        g.aerCorr = f.aerCorr ||| BitVec.ofNat 32 (2 ^ 13) ∧ g.aerUncorr = f.aerUncorr ∧ g.aerFirst = f.aerFirst ∧
        g.aerHeader = f.aerHeader) ∧
      ((cfgReg s fn 0x114).getLsbD 13 = false → g.aerUncorr = f.aerUncorr ||| BitVec.ofNat 32 (2 ^ b) ∧
        ((cfgReg s fn 0x108).getLsbD b = false → f.aerFirst = none → g.aerFirst = some b ∧ g.aerHeader = header)) := by
  have hsev' : (cfgReg (errorCount s (epOf fn) true) fn 0x10C).getLsbD b = false := hsev
  obtain ⟨hlog, hend⟩ := corrLogged_spec (s := errorCount s (epOf fn) true) (b := corrAdvisory) h
  have hcount : endpointOf (errorCount s (epOf fn) true) (epOf fn) = { endpointOf s (epOf fn) with
      uncorrectable := (endpointOf s (epOf fn)).uncorrectable + 1 } :=
    endpointOf_errorCount (s := s) (ep := epOf fn) (u := true)
  rw [hcount] at hend
  have hregs : ∀ off, off ≠ 0x5A → cfgReg (corrLogged (errorCount s (epOf fn) true) fn corrAdvisory) fn off = cfgReg s fn off :=
    fun off hoff => cfgReg_of_sameRegs h hlog (sameRegs_errorNoted 0) hoff
  have hbit : (BitVec.ofNat 32 (2 ^ 13)).getLsbD 13 = true := by decide
  have h13 : (f.aerCorr ||| BitVec.ofNat 32 (2 ^ 13)).getLsbD 13 = true := by
    rw [BitVec.getLsbD_or, hbit, Bool.or_true]
  simp only [aerUncorrectable, hb, if_false, hpf, hsev', Bool.not_false, Bool.and_self, if_true, corrMasked]
  rw [hregs 0x114 (by decide)]
  by_cases hmask : (cfgReg s fn 0x114).getLsbD 13 = true
  · have hm : (cfgReg s fn 0x114).getLsbD corrAdvisory = true := hmask
    simp only [hm, if_true]
    exact ⟨_, hlog, congrArg Endpoint.uncorrectable hend, h13,
      fun _ => ⟨congrArg Endpoint.correctable hend, rfl, rfl, rfl, rfl⟩, fun hno => absurd hmask (Bool.eq_false_iff.mp hno)⟩
  · have hm : (cfgReg s fn 0x114).getLsbD corrAdvisory = false := Bool.eq_false_iff.mpr hmask
    simp only [hm, Bool.false_eq_true, if_false]
    obtain ⟨g, hg, hunc, ⟨c, hcorr⟩, hfirst, hsame⟩ := uncorrLogged_spec (b := b) (kind := 2) (header := header) hpf hlog
    refine ⟨g, hg, hsame.trans (congrArg Endpoint.uncorrectable hend),
      by rw [hcorr, BitVec.getLsbD_or]; exact (Bool.or_eq_true ..).mpr (.inl h13),
      fun hyes => absurd hyes hmask, fun _ => ⟨hunc, fun hm' hn => hfirst ?_ hn⟩⟩
    rw [hregs 0x108 (by decide)]
    exact hm'

/-! An error leaves the collector. -/

@[simp] theorem errorMessage_flt {k : Nat} : (errorMessage s fn k).flt = s.flt := by unfold errorMessage; split <;> rfl
@[simp] theorem corrLogged_flt : (corrLogged s fn b).flt = s.flt := rfl
@[simp] theorem aerCorrectable_flt : (aerCorrectable s fn b).flt = s.flt := by simp only [aerCorrectable]; split <;> simp
@[simp] theorem aerFirst_flt {h : List Byte} : (aerFirst s fn b h).flt = s.flt := by
  unfold aerFirst; split <;> simp [funcMod]
@[simp] theorem uncorrLogged_flt {k : Nat} {h : List Byte} : (uncorrLogged s fn b k h).flt = s.flt := by
  simp only [uncorrLogged]; split <;> simp [funcMod]
@[simp] theorem aerUncorrectable_flt {advisory : Bool} {h : List Byte} : (aerUncorrectable s fn b advisory h).flt = s.flt := by
  simp only [aerUncorrectable]; (repeat' split) <;> simp [errorSeen, errorCount, funcMod, endpointMod]

end

end Sys2Proof.Machine

end

section
/-! Errors, timeouts and requests of the host interface (R447, R449, R454-R456, R460, R612, R613). -/

namespace Sys2Proof.Machine

section
variable {s : State} {ep fn : Nat} {f : Func}

/-! PF0 of an endpoint. -/

theorem pf0Of_eq : pf0Of ep = 0x8000 * ep := Nat.mul_comm ..

theorem epOf_pf0 (h : ep < 2) : epOf (0x8000 * ep) = ep := by simp only [epOf]; omega

theorem pfOf_pf0 : pfOf (0x8000 * ep) = 0x8000 * ep := by simp only [pfOf]; omega

theorem pfNum_pf0 : pfNum (0x8000 * ep) = 0 := by simp only [pfNum]; omega

theorem isVf_pf0 : isVf (0x8000 * ep) = false := by simp only [isVf, vfNum, bne_eq_false_iff_eq]; omega

/-! Link errors and completions that nobody awaits (R454). -/

theorem linkError_of_up {err : LinkError} {header : List Byte} (hup : (endpointOf s ep).linkUp = true) :
    linkError s ep err header = if (linkErrorBit err).1 then aerUncorrectable s (0x8000 * ep) (linkErrorBit err).2 false header
      else aerCorrectable s (0x8000 * ep) (linkErrorBit err).2 := by
  simp only [linkError, hup, Bool.not_true, Bool.false_eq_true, if_false, pf0Of_eq]
  cases err <;> rfl

theorem linkErrorBit_ne_unsupported (err : LinkError) : (linkErrorBit err).2 ≠ errUnsupported := by
  cases err <;> decide

theorem unexpectedCompletion_of_up {header : List Byte} (hup : (endpointOf s ep).linkUp = true) :
    unexpectedCompletion s ep header = aerUncorrectable s (0x8000 * ep) 16 true header := by
  simp only [unexpectedCompletion, hup, Bool.not_true, Bool.false_eq_true, if_false, pf0Of_eq]
  rfl

/-- An uncorrectable error of PF0 is counted and logged. -/
theorem uncorrOf_pf0 {u : State} {b : Nat} {header : List Byte} (hep : ep < 2) (h : uncorrOf s u (0x8000 * ep) b f header) :
    ∃ g, funcOf u (0x8000 * ep) = some g ∧ (endpointOf u ep).uncorrectable = (endpointOf s ep).uncorrectable + 1 ∧
      g.aerUncorr = f.aerUncorr ||| BitVec.ofNat 32 (2 ^ b) ∧
      ((cfgReg s (0x8000 * ep) 0x108).getLsbD b = false → f.aerFirst = none → g.aerFirst = some b ∧ g.aerHeader = header) := by
  rwa [uncorrOf, epOf_pf0 hep] at h

/-! The endpoint's own error (R455). -/

theorem hostInternal_of_up (hrel : hostReleased s = true) (hen : epEnabled s ep = true) :
    hostInternal s ep = endpointMod (aerUncorrectable (freshBytes 16 (raise s .hostIfInternal (0x08 + ep) 0xFFFF)).2
      (0x8000 * ep) errInternal false (freshBytes 16 (raise s .hostIfInternal (0x08 + ep) 0xFFFF)).1) ep
      (fun e => { e with contained := true }) := by
  simp only [hostInternal, hrel, hen, Bool.not_true, Bool.or_self, Bool.false_eq_true, if_false, pf0Of_eq]
  rfl

theorem hostInternal_spec (hep : ep < 2) (hrel : hostReleased s = true) (hen : epEnabled s ep = true)
    (h : funcOf s (0x8000 * ep) = some f) :
    Spec.raised s (hostInternal s ep) .hostIfInternal (0x08 + ep) 0xFFFF ∧
      (endpointOf (hostInternal s ep) ep).contained = true ∧
      (endpointOf (hostInternal s ep) ep).uncorrectable = (endpointOf s ep).uncorrectable + 1 ∧
      ∃ g, funcOf (hostInternal s ep) (0x8000 * ep) = some g ∧ g.aerUncorr.getLsbD 22 = true := by
  rw [hostInternal_of_up hrel hen]
  obtain ⟨x, hx⟩ : ∃ x, (freshBytes 16 (raise s .hostIfInternal (0x08 + ep) 0xFFFF)).1 = x := ⟨_, rfl⟩
  rw [hx]
  obtain ⟨g, hg, hcount, hunc, -⟩ := uncorrOf_pf0 hep (aerUncorrectable_logged (b := errInternal) (header := x)
    (s := (freshBytes 16 (raise s .hostIfInternal (0x08 + ep) 0xFFFF)).2) pfOf_pf0 (by decide) h (.inl rfl))
  refine ⟨?_, ?_, ?_, g, hg, ?_⟩
  · obtain ⟨r, hr⟩ := raised_raise (s := s) (u := s) (cls := .hostIfInternal) (unit := 0x08 + ep) (sub := 0xFFFF) rfl
    exact ⟨r, (congrArg Flt.inbox aerUncorrectable_flt).trans hr.1, hr.2⟩
  · rw [endpointOf_endpointMod_same]
  · rw [endpointOf_endpointMod_same]
    exact hcount
  · have hbit : (BitVec.ofNat 32 (2 ^ errInternal)).getLsbD 22 = true := by decide
    rw [hunc, BitVec.getLsbD_or, hbit, Bool.or_true]

/-! Timeouts (R454). -/

theorem timeout_queueRing {n : W16} {q : HostQueue} (h : queueOf s n.toNat = some q) :
    completionTimeout s (.queueRing n) = if q.fetching = [] then s
      else descriptorFetchDone (timeoutLog s q.fn.toNat) n.toNat false [] := by
  simp only [completionTimeout, h, List.isEmpty_iff]

theorem timeout_queueData {n : W16} {q : HostQueue} (h : queueOf s n.toNat = some q) :
    completionTimeout s (.queueData n) = if q.stale = 0 ∧ ∀ w ∈ q.work, w.read = true then s
      else sendFrameReadDone (timeoutLog s q.fn.toNat) n.toNat false [] := by
  have hall : (!(q.work.any fun w => !w.read)) = true ↔ ∀ w ∈ q.work, w.read = true := by simp
  simp only [completionTimeout, h, hall]

theorem timeout_dmaIdle {e : Fin 4} (h : (dmaEngineOf s e.val).active = 0) : completionTimeout s (.dmaChannel e) = s := if_pos h

section
variable {e : Fin 4} (h : (dmaEngineOf s e.val).active ≠ 0)
include h

theorem timeout_dmaFetch (hd : (dmaChannelOf s e.val (dmaEngineOf s e.val).active).desc = none) :
    completionTimeout s (.dmaChannel e) = dmaBusError s e.val 2 true false (0, 0, 0) := by
  simp only [completionTimeout, h, if_false, hd]
  rfl

theorem timeout_dmaFlush {d : DmaDesc} (hd : (dmaChannelOf s e.val (dmaEngineOf s e.val).active).desc = some d)
    (hf : (dmaChannelOf s e.val (dmaEngineOf s e.val).active).flushing = true) :
    completionTimeout s (.dmaChannel e) = dmaBusError (timeoutLog s (dmaFn e.val)) e.val 5 false true (dmaLast d) := by
  simp only [completionTimeout, h, if_false, hd, hf, if_true]

theorem timeout_dmaHbm {d : DmaDesc} (hd : (dmaChannelOf s e.val (dmaEngineOf s e.val).active).desc = some d)
    (hf : (dmaChannelOf s e.val (dmaEngineOf s e.val).active).flushing = false) (hsrc : d.srcHbm = true) :
    completionTimeout s (.dmaChannel e) = s := by
  simp only [completionTimeout, h, if_false, hd, hf, Bool.false_eq_true, hsrc, if_true]

end

theorem dmaFn_eq (e : Fin 4) : dmaFn e.val = 0x8000 * (e.val / 2) := pf0Of_eq

/-! Configuration requests (R447, R460). -/

section
variable {off : Nat} {w : Option W32} (hup : (endpointOf s (epOf fn)).linkUp = true) (hen : epEnabled s (epOf fn) = true)
include hup hen

theorem configRequest_of_unready (hr : (endpointOf s (epOf fn)).configReady = false) :
    configRequest s fn off w = emit s (.completion fn 2 []) := by
  simp only [configRequest, hup, hen, hr, Bool.not_true, Bool.not_false, Bool.or_self, Bool.true_or, Bool.false_eq_true, if_false,
    if_true]

variable (hdev : s.hif.deviceReady = true) (hr : (endpointOf s (epOf fn)).configReady = true)
include hdev hr

theorem configRequest_of_absent (hex : fnExists s fn = false) : configRequest s fn off w = emit s (.completion fn 1 []) := by
  simp only [configRequest, hup, hen, hr, deviceReady, hdev, hex, Bool.not_true, Bool.or_self, Bool.and_false,
    Bool.false_eq_true, if_false]

theorem configRequest_write {v : W32} (hex : fnExists s fn = true) (hf : funcOf s fn = some f) :
    configRequest s fn off (some v) = emit (cfgWrite s fn (off / 4 * 4) v.toNat) (.completion fn 0 []) := by
  simp only [configRequest, hup, hen, hr, deviceReady, hdev, hex, hf, Bool.not_true, Bool.or_self, Bool.and_false,
    Bool.false_eq_true, if_false, if_true]

end

/-! Memory requests to BAR0 of PF0 (R449, R612, R613). -/

section
variable {o : Nat} {a : Access}

/-- A request to BAR0 of PF0 that it answers. -/
theorem barRequest_of_answered (hep : ep < 2) (hup : (endpointOf s ep).linkUp = true) (hin : (endpointOf s ep).inReset = false)
    (hen : epEnabled s ep = true) (ha : barAnswers s (0x8000 * ep) 0 o a = true) :
    barRequest s (0x8000 * ep) 0 o a = barServe s (0x8000 * ep) 0 o a := by
  simp only [barRequest, epOf_pf0 hep, hup, hin, hen, ha, Bool.not_true, Bool.or_self, Bool.false_eq_true, if_false]

/-- Below the apertures, a fitting access is one of the device registers. -/
theorem barServe_registers (ho : o < 0x8000000) (hfit : accessFits o a = true) :
    barServe s (0x8000 * ep) 0 o a = deviceRegisters s (0x8000 * ep) o a := by
  have hlow : decide (0x8000000 ≤ o) = false := decide_eq_false (by omega)
  have hzero : ¬ (0 : Nat) = 1 := by decide
  simp only [barServe, pfNum_pf0, hlow, hfit, isVf_pf0, Bool.and_false, Bool.false_and, Bool.not_true, Bool.false_eq_true, hzero,
    if_false, beq_self_eq_true, if_true]

theorem barRequest_register {n : Nat} (hep : ep < 2) (hup : (endpointOf s ep).linkUp = true)
    (hin : (endpointOf s ep).inReset = false) (hen : epEnabled s ep = true)
    (ha : barAnswers s (0x8000 * ep) 0 o (.read n) = true) (ho : o < 0x8000000) (hn : n = 4 ∨ n = 8) (hal : o % n = 0) :
    barRequest s (0x8000 * ep) 0 o (.read n) = deviceRegisters s (0x8000 * ep) o (.read n) := by
  have hfit : accessFits o (.read n) = true := by
    rcases hn with rfl | rfl <;> simp [accessFits, accessLen, hal]
  exact (barRequest_of_answered hep hup hin hen ha).trans (barServe_registers ho hfit)

theorem reqOf_pf0 {ep : Fin 2} : reqOf (0x8000 * ep.val) = if ep = 0 then .hp0 else .hp1 := by
  rw [reqOf, epOf_pf0 ep.isLt]
  fin_cases ep <;> rfl

theorem windowBase_val {α : Type} {ep : Fin 2} (a b : α) : (if ep.val = 0 then a else b) = if ep = 0 then a else b := by
  fin_cases ep <;> rfl

/-- HP1's read of a MAC statistic waits (R166). -/
theorem deviceRegisters_late {n p k : Nat} (h : lateStat s (reqOf fn) (o / 8 * 8) n = some (p, k)) :
    deviceRegisters s fn o (.read n) =
      { s with lnm := { s.lnm with lateReads := s.lnm.lateReads ++ [{ port := p, offset := k, fn := some fn }] } } := by
  simp only [deviceRegisters, h]
  rfl

theorem deviceRegisters_read {n : Nat} (h : lateStat s (reqOf fn) (o / 8 * 8) n = none) :
    deviceRegisters s fn o (.read n) = emit (regTouch s (reqOf fn) (o / 8 * 8) (n == 8))
      (.completion fn 0 (slice (leBytes 8 (regValue s (reqOf fn) (o / 8 * 8)).toNat) (o % 8) n)) := by
  simp only [deviceRegisters, h]

/-- The HBM aperture of a ready device takes an access of up to 512 bytes inside a 4 KiB block. -/
theorem barServe_hbm (ho : 0xC000000 ≤ o) (hn : accessLen a ≤ 512) (hblock : o % 4096 + accessLen a ≤ 4096)
    (hdev : s.hif.deviceReady = true) :
    barServe s (0x8000 * ep) 0 o a = hbmAperture s (0x8000 * ep) (o - 0xC000000) a := by
  have hhigh : decide (0x8000000 ≤ o) = true := decide_eq_true (by omega)
  have hgo : (decide (512 < accessLen a) || decide (4096 < o % 4096 + accessLen a)) = false := by
    simp only [Bool.or_eq_false_iff, decide_eq_false_iff_not]
    omega
  simp only [barServe, pfNum_pf0, hhigh, beq_self_eq_true, Bool.and_self, if_true, apertures, hgo, deviceReady, hdev,
    Bool.not_true, Bool.false_eq_true, if_false, Nat.not_lt.mpr ho]

end

section
variable {o x n : Nat} {bs : List Byte} (hep : ep < 2)
  (hx : (if ep = 0 then s.win.base0 else s.win.base1).toNat * 0x4000000 + o = x)
include hep hx

/-- An aperture read whose bytes are granted and answer. -/
theorem hbmAperture_read (hgrant : ∀ i, i < n → apertureGrant s (x + i) ≠ 0) (hr : hbmRangeOk s x n = true) :
    hbmAperture s (0x8000 * ep) o (.read n) = emit s (.completion (0x8000 * ep) 0 (hbmShown s x n)) := by
  have hall : (List.range n).all (fun i => decide (1 ≤ apertureGrant s (x + i))) = true := by
    simp only [List.all_eq_true, List.mem_range, decide_eq_true_eq]
    exact fun i hi => Nat.one_le_iff_ne_zero.mpr (hgrant i hi)
  simp only [hbmAperture, epOf_pf0 hep, accessLen, hx, hall, hr, Bool.not_true, Bool.false_eq_true, if_false, serve]

/-- An aperture write whose bytes are granted and answer. -/
theorem hbmAperture_write (hgrant : ∀ i, i < bs.length → apertureGrant s (x + i) = 2) (hr : hbmRangeOk s x bs.length = true) :
    hbmAperture s (0x8000 * ep) o (.write bs) = hbmPutBytes s x bs := by
  have hall : (List.range bs.length).all (fun i => decide (2 ≤ apertureGrant s (x + i))) = true := by
    simp only [List.all_eq_true, List.mem_range, decide_eq_true_eq]
    exact fun i hi => (hgrant i hi).ge
  simp only [hbmAperture, epOf_pf0 hep, accessLen, hx, hall, hr, Bool.not_true, Bool.false_eq_true, if_false, serve]

end

end

end Sys2Proof.Machine

open Sys2Proof.Machine in
/-- Settles O39: errors through what Advanced Error Reporting logs of one, timeouts and requests by the equation of their case. -/
theorem hostErrorsAndRequests : Obligations.HostErrorsAndRequests := by
  refine ⟨fun s ep f header hup h => ⟨fun err b hb => ?_, fun err b hb => ?_, fun hsev => ?_, fun hsev => ?_⟩,
    fun s ep f hrel hen h => ⟨_, rfl, hostInternal_spec ep.isLt hrel hen h⟩,
    fun s ep c hc => ?_, fun s n q hq => ⟨fun hf => ?_, fun hf => ?_, fun hw => ?_, fun hs hw => ?_⟩,
    fun s e => ⟨fun hc => ?_, fun hc hd => ?_, fun d hc hd hfl => ?_, fun d hd hfl hsrc => ?_⟩,
    fun s fn f off hup hen hdev => ⟨fun hr => ⟨fun hex hf => ⟨?_, fun v => ?_⟩, fun hex w => ?_⟩, fun hr w => ?_⟩,
    fun s ep fn off hfn hup hin hen => ⟨fun n ha ho hn hal => ⟨fun p o hl => ?_, fun hl => ?_⟩,
      fun n x ha ho hpos hn hblock hdev hx hgrant hr => ?_, fun bs x ha ho hn hblock hdev hx hgrant hr hw => ?_⟩⟩
  · have hlink := linkError_of_up (err := err) (header := header) hup
    rw [hb] at hlink
    obtain ⟨hg, he⟩ := aerCorrectable_spec (b := b) h
    rw [epOf_pf0 ep.isLt] at he
    exact ⟨_, congrArg Host.Outcome.next hlink, he, _, hg, rfl, rfl⟩
  · have hlink := linkError_of_up (err := err) (header := header) hup
    have hne := linkErrorBit_ne_unsupported err
    rw [hb] at hlink hne
    exact ⟨_, congrArg Host.Outcome.next hlink,
      uncorrOf_pf0 ep.isLt (aerUncorrectable_logged pfOf_pf0 hne h (.inl rfl))⟩
  · exact ⟨_, congrArg Host.Outcome.next (unexpectedCompletion_of_up hup),
      uncorrOf_pf0 ep.isLt (aerUncorrectable_logged pfOf_pf0 (by decide) h (.inr hsev))⟩
  · have hadv := aerUncorrectable_advisory (header := header) pfOf_pf0 (b := 16) (by decide) h hsev
    rw [epOf_pf0 ep.isLt] at hadv
    exact ⟨_, congrArg Host.Outcome.next (unexpectedCompletion_of_up hup), hadv⟩
  · refine congrArg Host.Outcome.next ?_
    simp only [completionTimeout, hc, pf0Of_eq]
    rfl
  · exact congrArg Host.Outcome.next ((timeout_queueRing hq).trans (if_neg hf))
  · exact congrArg Host.Outcome.next ((timeout_queueRing hq).trans (if_pos hf))
  · refine congrArg Host.Outcome.next ((timeout_queueData hq).trans (if_neg ?_))
    rintro ⟨hs, hall⟩
    rcases hw with hne | ⟨w, hmem, hread⟩
    · exact hne hs
    · exact Bool.false_ne_true (hread.symm.trans (hall w hmem))
  · exact congrArg Host.Outcome.next ((timeout_queueData hq).trans (if_pos ⟨hs, hw⟩))
  · exact congrArg Host.Outcome.next (timeout_dmaIdle hc)
  · exact congrArg Host.Outcome.next (timeout_dmaFetch hc hd)
  · refine congrArg Host.Outcome.next ((timeout_dmaFlush hc hd hfl).trans ?_)
    rw [dmaFn_eq]
  · by_cases hc : (dmaEngineOf s e.val).active = 0
    · exact congrArg Host.Outcome.next (timeout_dmaIdle hc)
    · exact congrArg Host.Outcome.next (timeout_dmaHbm hc hd hfl hsrc)
  · exact congrArg Host.Outcome.next (configRequest_read hup hr hen (.inr hdev) hex hf)
  · exact congrArg Host.Outcome.next (configRequest_write hup hen hdev hr hex hf)
  · exact congrArg Host.Outcome.next (configRequest_of_absent hup hen hdev hr hex)
  · exact congrArg Host.Outcome.next (configRequest_of_unready hup hen hr)
  · have hreq := barRequest_register ep.isLt hup hin hen (hfn ▸ ha) ho hn hal
    rw [← hfn] at hreq
    exact congrArg Host.Outcome.next (hreq.trans (deviceRegisters_late (by rw [hfn, reqOf_pf0]; exact hl)))
  · have hreq := barRequest_register ep.isLt hup hin hen (hfn ▸ ha) ho hn hal
    rw [← hfn] at hreq
    have hread := deviceRegisters_read (o := off.toNat) (n := n) (fn := fn.toNat) (by rw [hfn, reqOf_pf0]; exact hl)
    rw [hfn, reqOf_pf0, ← hfn] at hread
    exact ⟨_, congrArg Host.Outcome.next (hreq.trans hread), by rw [hfn]; rfl⟩
  · have hreq := (barRequest_of_answered ep.isLt hup hin hen (hfn ▸ ha)).trans ((barServe_hbm (a := .read n) ho hn hblock hdev).trans
      (hbmAperture_read ep.isLt (by rw [hx, windowBase_val]) hgrant hr))
    rw [← hfn] at hreq
    exact congrArg Host.Outcome.next hreq
  · have hreq := (barRequest_of_answered ep.isLt hup hin hen (hfn ▸ ha)).trans ((barServe_hbm (a := .write bs) ho hn hblock hdev).trans
      (hbmAperture_write ep.isLt (by rw [hx, windowBase_val]) hgrant hr))
    rw [← hfn] at hreq
    exact ⟨_, congrArg Host.Outcome.next hreq, rfl, fun a => hbmGet_hbmPutBytes (hbm_wf_of_memoryWf hw)⟩

end

section
/-! Programmed DMA channels (R499-R509): what a channel and its engine hold after each operation, and the copy of an element. -/

namespace Sys2Proof.Machine

section
variable {s u w : State} {e c fn v a n : Nat}

/-! What a vector and an error leave. -/

@[simp] theorem msix_dma : (msix s fn v).dma = s.dma := by unfold msix; (repeat' split) <;> rfl
@[simp] theorem msix_flt : (msix s fn v).flt = s.flt := by unfold msix; (repeat' split) <;> rfl
@[simp] theorem msix_hbm : (msix s fn v).hbm = s.hbm := by unfold msix; (repeat' split) <;> rfl

theorem mem_out_msix {o : Out} (h : o ∈ s.out) : o ∈ (msix s fn v).out := by
  unfold msix
  (repeat' split)
  · exact h
  · exact h
  · exact h
  · exact h
  · exact List.mem_cons_of_mem _ h

/-- What Advanced Error Reporting changes once the error is counted: functions in their status, endpoints in their correctable
errors, and messages to the host. -/
structure Erred (s u : State) : Prop where
  only : u = { s with hif := u.hif, out := u.out }
  regs : ∀ f off, off ≠ 0x5A → cfgReg u f off = cfgReg s f off
  counts : ∀ ep, (endpointOf u ep).uncorrectable = (endpointOf s ep).uncorrectable

theorem Erred.trans (h : Erred s u) (h' : Erred u w) : Erred s w where
  only := by rw [h'.only, h.only]
  regs f off hoff := (h'.regs f off hoff).trans (h.regs f off hoff)
  counts ep := (h'.counts ep).trans (h.counts ep)

theorem Erred.refl : Erred s s := ⟨rfl, fun _ _ _ => rfl, fun _ => rfl⟩

theorem erred_funcMod {g : Func → Func} (h : ∀ f, sameRegs f (g f)) : Erred s (funcMod s fn g) where
  only := rfl
  regs k off hoff := by
    by_cases hk : k = fn
    · subst hk
      rw [cfgReg, cfgReg, funcOf_funcMod_same]
      cases funcOf s k with
      | none => rfl
      | some f => simp only [Option.map_some, Option.getD_some, tgetD, h f off hoff]
    · simp only [cfgReg, funcOf_funcMod_other s g hk]
  counts _ := rfl

theorem erred_message {k : Nat} : Erred s (errorMessage s fn k) := by
  unfold errorMessage
  split
  · exact ⟨rfl, fun _ _ _ => rfl, fun _ => rfl⟩
  · exact .refl

theorem erred_seen {b : Nat} : Erred s (errorSeen s fn b) := erred_funcMod fun _ => sameRegs_errorNoted b

theorem erred_counted {ep : Nat} : Erred s (errorCount s ep false) where
  only := rfl
  regs _ _ _ := rfl
  counts k := by
    by_cases hk : k = ep
    · subst hk
      rw [endpointOf_errorCount]
      rfl
    · rw [errorCount, endpointOf_endpointMod_other _ _ hk]

theorem erred_corrLogged {b : Nat} : Erred s (corrLogged s fn b) :=
  (erred_counted.trans erred_seen).trans (erred_funcMod fun _ _ _ => rfl)

theorem erred_correctable {b : Nat} : Erred s (aerCorrectable s fn b) := by
  simp only [aerCorrectable]
  split
  · exact erred_corrLogged
  · exact erred_corrLogged.trans erred_message

theorem erred_first {b : Nat} {header : List Byte} : Erred s (aerFirst s fn b header) := by
  unfold aerFirst
  split
  · exact erred_funcMod fun _ _ _ => rfl
  · exact erred_correctable

theorem erred_logged {b k : Nat} {header : List Byte} : Erred s (uncorrLogged s fn b k header) := by
  simp only [uncorrLogged]
  have hmod : Erred s (funcMod s fn (fun f => { f with aerUncorr := f.aerUncorr ||| BitVec.ofNat 32 (2 ^ b) })) :=
    erred_funcMod fun _ _ _ => rfl
  split
  · exact hmod
  · exact hmod.trans (erred_first.trans erred_message)

theorem erred_uncorrectable {b : Nat} {advisory : Bool} {header : List Byte} :
    Erred (errorCount s (epOf fn) true) (aerUncorrectable s fn b advisory header) := by
  have hseen : Erred (errorCount s (epOf fn) true)
      (if b = errUnsupported then errorSeen (errorCount s (epOf fn) true) fn 3 else errorCount s (epOf fn) true) := by
    split
    · exact erred_seen
    · exact .refl
  simp only [aerUncorrectable]
  revert hseen
  generalize (if b = errUnsupported then errorSeen (errorCount s (epOf fn) true) fn 3 else errorCount s (epOf fn) true) = w
  intro hseen
  refine hseen.trans ?_
  (repeat' split)
  · exact erred_corrLogged
  · exact erred_corrLogged.trans erred_logged
  all_goals exact erred_seen.trans erred_logged

end

/-! The channel and the engine (R499, R500, R506, R508, R509). -/

section
variable {s u : State} {e c : Nat} {x : DmaChannel}

@[simp] theorem dmaChannelOf_dmaChannelMod_same (f : DmaChannel → DmaChannel) :
    dmaChannelOf (dmaChannelMod s e c f) e c = f (dmaChannelOf s e c) := tgetD_tmod_same _ _ _ _

theorem dmaChannelOf_of_dma {k : Nat} (h : u.dma = s.dma) : dmaChannelOf u e k = dmaChannelOf s e k := by
  rw [dmaChannelOf, dmaChannelOf, h]

theorem dmaEngineOf_of_dma (h : u.dma = s.dma) : dmaEngineOf u e = dmaEngineOf s e := by
  rw [dmaEngineOf, dmaEngineOf, h]

theorem dmaSelect_of_next (hidle : (dmaEngineOf s e).active = 0) (hnext : dmaNext s e = some c) : dmaSelect s e =
    { s with
      dma := { s.dma with
        engines := tset s.dma.engines e { dmaEngineOf s e with last := c, active := c }
        channels := tset s.dma.channels (16 * e + c)
          { dmaChannelOf s e c with state := .running, desc := none, flushing := false } }
      out := .hostRead e (dmaFn e) (dmaHeadAddr (dmaChannelOf s e c)) 64 :: s.out } := by
  simp only [dmaSelect, hidle, ne_eq, not_true_eq_false, if_false, hnext, dmaChannelOf_dmaChannelMod_same]
  rfl

/-- A channel whose engine serves it, or none, leaves the engine free and is idle again, or disabled. -/
theorem dmaEnd_spec (hact : (dmaEngineOf s e).active = c ∨ (dmaEngineOf s e).active = 0) :
    (dmaEngineOf (dmaEnd s e c) e).active = 0 ∧ dmaChannelOf (dmaEnd s e c) e c = { dmaChannelOf s e c with
      state := if (dmaChannelOf s e c).enable then .idle else .disabled, desc := none, flushing := false } := by
  refine ⟨?_, dmaChannelOf_dmaChannelMod_same _⟩
  have heng : dmaEngineOf (dmaEnd s e c) e =
      if (dmaEngineOf s e).active = c then { dmaEngineOf s e with active := 0 } else dmaEngineOf s e :=
    dmaEngineOf_dmaEngineMod_same s e _
  rw [heng]
  split
  · rfl
  · next hne => exact hact.resolve_left hne

theorem dmaWriteback_spec {status : Nat} {irq : Bool} (hact : (dmaEngineOf s e).active = c ∨ (dmaEngineOf s e).active = 0) :
    Spec.dmaEnded s (dmaWriteback s e c status irq) e c (BitVec.ofNat 8 status) ∧
    (dmaChannelOf (dmaWriteback s e c status irq) e c).bytes = (dmaChannelOf s e c).bytes ∧
    (dmaWriteback s e c status irq).hbm = s.hbm ∧ ∀ o ∈ s.out, o ∈ (dmaWriteback s e c status irq).out := by
  obtain ⟨x, hx⟩ : ∃ x, dmaChannelOf s e c = x := ⟨_, rfl⟩
  obtain ⟨w, hw⟩ : ∃ w, dmaChannelMod (hostWrite s e (dmaFn e) (dmaHeadAddr x + 56) (leBytes 1 status ++ [1#8])) e c
      (fun x => { x with head := x.head + 1#16, descriptors := wrapInc x.descriptors }) = w := ⟨_, rfl⟩
  obtain ⟨t, ht⟩ : ∃ t, (if irq then msix w (dmaFn e) x.vector.toNat else w) = t := ⟨_, rfl⟩
  have heq : dmaWriteback s e c status irq = dmaEnd t e c := by
    simp only [dmaWriteback, hx, hw, ht]
  have hdma : t.dma = w.dma := by rw [← ht]; split <;> simp
  have hhbm : t.hbm = s.hbm := by
    have hwrite : w.hbm = s.hbm := by rw [← hw]; rfl
    rw [← ht]; split <;> simp [hwrite]
  have hout : ∀ o ∈ w.out, o ∈ t.out := fun o ho => by
    rw [← ht]
    split
    · exact mem_out_msix ho
    · exact ho
  have hchannel : dmaChannelOf t e c = { x with head := x.head + 1#16, descriptors := wrapInc x.descriptors } := by
    rw [dmaChannelOf_of_dma hdma, ← hw, dmaChannelOf_dmaChannelMod_same]
    exact congrArg (fun x : DmaChannel => { x with head := x.head + 1#16, descriptors := wrapInc x.descriptors }) hx
  have hengine : dmaEngineOf t e = dmaEngineOf s e := by
    rw [dmaEngineOf_of_dma hdma, ← hw]
    rfl
  obtain ⟨hfree, hleft⟩ := dmaEnd_spec (s := t) (e := e) (c := c) (by rwa [hengine])
  rw [hchannel] at hleft
  rw [heq]
  refine ⟨?_, by rw [hleft, hx], hhbm, fun o ho => hout o (by rw [← hw]; exact List.mem_cons_of_mem _ ho)⟩
  rw [Spec.dmaEnded, hx, hleft]
  exact ⟨hfree, rfl, rfl, rfl, rfl, hout _ (by rw [← hw]; exact List.mem_cons_self)⟩

/-- A halt frees the engine, counts on it, and latches the failure in its channel (R507). -/
theorem dmaHalt_spec {cause : Nat} {fetch write hbm : Bool} {addr : Nat} {i : W16 × W16 × W16} :
    Spec.raised s (dmaHalt s e c cause fetch write hbm addr i) .dmaBusError (0x0C + e) c ∧
    dmaEngineOf (dmaHalt s e c cause fetch write hbm addr i) e =
      { dmaEngineOf s e with active := 0, halts := (dmaEngineOf s e).halts + 1 } ∧
    dmaChannelOf (dmaHalt s e c cause fetch write hbm addr i) e c = { dmaChannelOf s e c with
      state := .halted, failDir := write, failHbm := hbm, failCause := BitVec.ofNat 4 cause
      failAddr := BitVec.ofNat 64 addr, failI0 := i.1, failI1 := i.2.1, failI2 := i.2.2, failFetch := fetch } := by
  obtain ⟨t, ht⟩ : ∃ t, dmaHalt s e c cause fetch write hbm addr i = t := ⟨_, rfl⟩
  obtain ⟨r, hr⟩ : ∃ r, raise (dmaChannelMod (dmaEngineMod s e (fun x => { x with active := 0, halts := wrapInc x.halts })) e c
      (fun x => { x with
        state := .halted, failDir := write, failHbm := hbm, failCause := BitVec.ofNat 4 cause
        failAddr := BitVec.ofNat 64 addr, failI0 := i.1, failI1 := i.2.1, failI2 := i.2.2, failFetch := fetch }))
      .dmaBusError (0x0C + e) c = r := ⟨_, rfl⟩
  have heq : t = if (dmaChannelOf r e c).irqOnHalt then msix r (dmaFn e) (dmaChannelOf r e c).vector.toNat else r := by
    rw [← ht]
    simp only [dmaHalt, hr]
  have hdma : t.dma = r.dma := by rw [heq]; split <;> simp
  have hflt : t.flt = r.flt := by rw [heq]; split <;> simp
  rw [ht]
  refine ⟨?_, ?_, ?_⟩
  · rw [Spec.raised, hflt, ← hr]
    exact raised_raise rfl
  · rw [dmaEngineOf_of_dma hdma, ← hr]
    exact dmaEngineOf_dmaEngineMod_same s e (fun x => { x with active := 0, halts := wrapInc x.halts })
  · rw [dmaChannelOf_of_dma hdma, ← hr]
    exact dmaChannelOf_dmaChannelMod_same (s := dmaEngineMod s e _) _

/-- A halt without an interrupt changes the block DMA and the collector. -/
theorem dmaHalt_only {cause : Nat} {fetch write hbm : Bool} {addr : Nat} {i : W16 × W16 × W16}
    (hirq : (dmaChannelOf s e c).irqOnHalt = false) : ∃ d f,
    dmaHalt s e c cause fetch write hbm addr i = { s with dma := d, flt := f } := by
  obtain ⟨w, hw⟩ : ∃ w, dmaChannelMod (dmaEngineMod s e (fun x => { x with active := 0, halts := wrapInc x.halts })) e c
      (fun x => { x with
        state := .halted, failDir := write, failHbm := hbm, failCause := BitVec.ofNat 4 cause
        failAddr := BitVec.ofNat 64 addr, failI0 := i.1, failI1 := i.2.1, failI2 := i.2.2, failFetch := fetch }) = w := ⟨_, rfl⟩
  have hkept : (dmaChannelOf (raise w .dmaBusError (0x0C + e) c) e c).irqOnHalt = false := by
    rw [dmaChannelOf_of_dma (s := w) (u := raise w .dmaBusError (0x0C + e) c) rfl, ← hw, dmaChannelOf_dmaChannelMod_same]
    exact hirq
  simp only [dmaHalt, hw, hkept, Bool.false_eq_true, if_false]
  rw [← hw]
  exact ⟨_, _, rfl⟩

end

/-! The transfer (R502, R504, R506). -/

section
variable {s u : State} {e c : Nat} {d : DmaDesc} {data bytes : List Byte}

theorem elements_single (h0 : d.count0 = 1) (h1 : d.count1 = 1) (h2 : d.count2 = 1) : d.elements = [(0, 0, 0)] := by
  simp [DmaDesc.elements, h0, h1, h2]

@[simp] theorem srcAt_zero : d.srcAt 0 0 0 = d.src := by simp [DmaDesc.srcAt, DmaDesc.offsetOf]
@[simp] theorem dstAt_zero : d.dstAt 0 0 0 = d.dst := by simp [DmaDesc.dstAt, DmaDesc.offsetOf]

theorem dmaLastDst_single (h0 : d.count0 = 1) (h1 : d.count1 = 1) (h2 : d.count2 = 1) : dmaLastDst d = d.dst := by
  simp [dmaLastDst, h0, h1, h2]

theorem dmaCharge_only {n : Nat} : ∃ k, dmaCharge s d n = { s with hbmU := { s.hbmU with shedUsed := k } } := by
  unfold dmaCharge shedUse
  split
  · exact ⟨s.hbmU.shedUsed, rfl⟩
  · exact ⟨_, rfl⟩

/-- What the copy of elements changes: its channel's BYTES, HBM, and what goes to the host. -/
structure Copied (e c : Nat) (s u : State) : Prop where
  only : u = { s with dma := u.dma, hbm := u.hbm, out := u.out, free := u.free }
  engine : dmaEngineOf u e = dmaEngineOf s e

theorem Copied.trans {w : State} (h : Copied e c s u) (h' : Copied e c u w) : Copied e c s w where
  only := by rw [h'.only, h.only]
  engine := h'.engine.trans h.engine

theorem copied_element {i : Nat × Nat × Nat} : Copied e c s (dmaElement s e c d i bytes) := by
  unfold dmaElement
  split <;> exact ⟨rfl, rfl⟩

theorem copied_foldl {α : Type} {f : State → α → State} (h : ∀ t x, Copied e c t (f t x)) (l : List α) :
    Copied e c s (l.foldl f s) := by
  induction l generalizing s with
  | nil => exact ⟨rfl, rfl⟩
  | cons x l ih => exact (h s x).trans ih

theorem copied_dmaCopy {is : List ((Nat × Nat × Nat) × Nat)} : Copied e c s (dmaCopy e c d data is s) :=
  copied_foldl (fun _ _ => copied_element) is

theorem copied_dmaCopyOpen {is : List (Nat × Nat × Nat)} : Copied e c s (dmaCopyOpen e c d is s) :=
  copied_foldl (fun _ _ => .trans (u := (freshBytes d.elem _).2) ⟨rfl, rfl⟩ copied_element) is

/-- The element of a descriptor that has one: its bytes are counted, and go to HBM or to the host. -/
theorem dmaElement_spec {i : Nat × Nat × Nat} (hwf : memoryWf s = true) :
    dmaChannelOf (dmaElement s e c d i bytes) e c = { dmaChannelOf s e c with
      bytes := wrapAdd (dmaChannelOf s e c).bytes bytes.length } ∧
    (d.dstHbm = true → ∀ a, hbmGet (dmaElement s e c d i bytes) a =
      if d.dstAt i.1 i.2.1 i.2.2 ≤ a ∧ a < d.dstAt i.1 i.2.1 i.2.2 + bytes.length then bytes.getD (a - d.dstAt i.1 i.2.1 i.2.2) 0
      else hbmGet s a) ∧
    (d.dstHbm = false → .hostWrite e (dmaFn e) (d.dstAt i.1 i.2.1 i.2.2) bytes ∈ (dmaElement s e c d i bytes).out ∧
      ∀ a, hbmGet (dmaElement s e c d i bytes) a = hbmGet s a) := by
  cases hd : d.dstHbm with
  | true =>
    simp only [dmaElement, hd, if_true]
    exact ⟨dmaChannelOf_dmaChannelMod_same (s := s) _, fun _ a => hbmGet_hbmPutBytes (hbm_wf_of_memoryWf hwf), nofun⟩
  | false =>
    simp only [dmaElement, hd, Bool.false_eq_true, if_false]
    exact ⟨dmaChannelOf_dmaChannelMod_same (s := s) _, nofun, fun _ => ⟨List.mem_cons_self, fun _ => rfl⟩⟩

end

end Sys2Proof.Machine

end

section
/-! The DMA commands (R499-R509): what a command of an engine answers in each state of its channel. -/

namespace Sys2Proof.Machine

section
variable {s : State} {e c : Nat} {x : DmaChannel} {d : DmaDesc} {b data : List Byte}

/-! The descriptor (R501-R504). -/

/-- A fetched descriptor counts where its channel is active without one, and the engine issues requests. -/
theorem dmaStart_of_active (hact : (dmaEngineOf s e).active = c) (hc : 0 < c) (hdesc : (dmaChannelOf s e c).desc = none)
    (hruns : dmaRuns s e = true) (hlen : b.length = 64) (hd : d = dmaDescOf (featOn s (dmaFn e) featDma) b) :
    dmaStart s e b = if !dmaWellFormed b d then dmaWriteback s e c 1 d.irq
      else if dmaWindowBad s || (d.srcHbm && !spanInWindow s d.srcSpan) || (d.dstHbm && !spanInWindow s d.dstSpan) then
        dmaWriteback s e c 4 d.irq
      else
        let s := dmaChannelMod s e c (fun x => { x with desc := some d })
        if d.srcHbm then s
        else d.elements.foldl (fun s i => hostRead s e (dmaFn e) (d.srcAt i.1 i.2.1 i.2.2) d.elem) s := by
  have hgo : (decide (c = 0) || (dmaChannelOf s e c).desc.isSome || !dmaRuns s e) = false := by simp [hdesc, hruns]; omega
  simp only [dmaStart, hact, hgo, Bool.false_eq_true, if_false, slice_whole hlen, ← hd]

theorem dmaStart_of_stopped (hruns : dmaRuns s e = false) : dmaStart s e b = s := by
  simp only [dmaStart, hruns, Bool.not_false, Bool.or_true, if_true]

/-- The reads of a descriptor's elements go out in their order. -/
theorem foldl_hostRead {α : Type} {addr : α → Nat} {fn n : Nat} (l : List α) : l.foldl (fun s i => hostRead s e fn (addr i) n) s =
    { s with out := (l.map (fun i => Out.hostRead e fn (addr i) n)).reverse ++ s.out } := by
  induction l generalizing s with
  | nil => rfl
  | cons i l ih =>
    rw [List.foldl_cons, ih]
    simp [hostRead, emit]

theorem insideWindow_iff : (dmaWindowBad s || (d.srcHbm && !spanInWindow s d.srcSpan) ||
    (d.dstHbm && !spanInWindow s d.dstSpan)) = false ↔ dmaWindowBad s = false ∧ (d.srcHbm = true → spanInWindow s d.srcSpan = true) ∧
      (d.dstHbm = true → spanInWindow s d.dstSpan = true) := by
  simp only [Bool.or_eq_false_iff, Bool.and_eq_false_imp, Bool.not_eq_false', and_assoc]

/-! The transfer (R506). -/

theorem shedOpen_iff : shedOpen s = true ↔
    s.hbmU.step = 0 ∨ s.hbmU.shedUsed < 2 * (s.app.demand.hostHbm + s.app.demand.storage) := by
  simp only [shedOpen, shedCap, Bool.or_eq_true, beq_iff_eq]
  exact or_congr_right decide_eq_true_iff

theorem dmaDone_of_shut (h : (!dmaRuns s e || (!(dmaChannelOf s e (dmaEngineOf s e).active).flushing && !shedOpen s)) = true) :
    dmaDone s e data = s := by
  have hgo : (decide ((dmaEngineOf s e).active = 0) || !dmaRuns s e ||
      (!(dmaChannelOf s e (dmaEngineOf s e).active).flushing && !shedOpen s)) = true := by
    rw [Bool.or_assoc, h, Bool.or_true]
  simp only [dmaDone, hgo, if_true]

theorem dmaChannelOf_flushing {fn a n : Nat} :
    dmaChannelOf (hostRead (dmaChannelMod s e c (fun x => { x with flushing := true })) e fn a n) e c =
      { dmaChannelOf s e c with flushing := true } := dmaChannelOf_dmaChannelMod_same (s := s) _

theorem dmaDone_of_none (h : (dmaChannelOf s e (dmaEngineOf s e).active).desc = none) : dmaDone s e data = s := by
  simp only [dmaDone, h, ite_self]

theorem dmaDone_of_flushing (hact : (dmaEngineOf s e).active = c) (hc : 0 < c) (hdesc : (dmaChannelOf s e c).desc = some d)
    (hruns : dmaRuns s e = true) (hflush : (dmaChannelOf s e c).flushing = true) :
    dmaDone s e data = dmaWriteback s e c 0 d.irq := by
  have hgo : (decide (c = 0) || !dmaRuns s e || (!true && !shedOpen s)) = false := by simp [hruns]; omega
  simp only [dmaDone, hact, hflush, hgo, Bool.false_eq_true, if_false, hdesc, if_true]

/-- A transfer of one element whose source can be read. -/
theorem dmaDone_of_single (hact : (dmaEngineOf s e).active = c) (hc : 0 < c) (hdesc : (dmaChannelOf s e c).desc = some d)
    (hruns : dmaRuns s e = true) (hel : d.elements = [(0, 0, 0)]) (hflush : (dmaChannelOf s e c).flushing = false)
    (hshed : shedOpen s = true) (hread : d.srcHbm = true → hbmRangeOk s d.src d.elem = true) : dmaDone s e data =
    let t := dmaElement (dmaCharge s d 1) e c d (0, 0, 0) (dmaSource (dmaCharge s d 1) d data 0 (0, 0, 0))
    if d.barrier && !d.dstHbm then
      hostRead (dmaChannelMod t e c (fun x => { x with flushing := true })) e (dmaFn e) (dmaLastDst d) 0
    else dmaWriteback t e c 0 d.irq := by
  have hgo : (decide (c = 0) || !dmaRuns s e || (!false && !shedOpen s)) = false := by simp [hruns, hshed]; omega
  have hgood : dmaBadElement s d = none := by
    unfold dmaBadElement
    split
    · next hsrc => simp [hel, hread hsrc]
    · rfl
  simp only [dmaDone, hact, hflush, hgo, Bool.false_eq_true, if_false, hdesc, hgood, hel]
  rfl

/-- The bytes of the one element. -/
def singleBytes (s : State) (d : DmaDesc) (data : List Byte) : List Byte :=
  if d.srcHbm then hbmRead s d.src d.elem else slice data 0 d.elem

theorem singleBytes_length : (singleBytes s d data).length = d.elem := by
  unfold singleBytes
  split
  · simp [hbmRead]
  · exact slice_length ..

theorem dmaSource_single {n : Nat} : dmaSource (dmaCharge s d n) d data 0 (0, 0, 0) = singleBytes s d data := by
  obtain ⟨k, hk⟩ := dmaCharge_only (s := s) (d := d) (n := n)
  rw [hk, dmaSource, singleBytes, srcAt_zero, Nat.zero_mul]
  rfl

/-- What the copy of one element leaves. -/
theorem dmaElement_single (hwf : memoryWf s = true) {t : State}
    (ht : dmaElement (dmaCharge s d 1) e c d (0, 0, 0) (singleBytes s d data) = t) :
    dmaEngineOf t e = dmaEngineOf s e ∧
    dmaChannelOf t e c = { dmaChannelOf s e c with bytes := wrapAdd (dmaChannelOf s e c).bytes d.elem } ∧
    (d.dstHbm = true → ∀ a, hbmGet t a =
      if d.dst ≤ a ∧ a < d.dst + d.elem then (singleBytes s d data).getD (a - d.dst) 0 else hbmGet s a) ∧
    (d.dstHbm = false → .hostWrite e (dmaFn e) d.dst (singleBytes s d data) ∈ t.out ∧ ∀ a, hbmGet t a = hbmGet s a) := by
  obtain ⟨k, hk⟩ := dmaCharge_only (s := s) (d := d) (n := 1)
  have hmem : memoryWf (dmaCharge s d 1) = true := by rw [hk]; exact hwf
  have hspec := dmaElement_spec (e := e) (c := c) (d := d) (bytes := singleBytes s d data) (i := (0, 0, 0)) hmem
  rw [ht, dstAt_zero, singleBytes_length] at hspec
  obtain ⟨hchannel, hhbm, hhost⟩ := hspec
  have hengine : dmaEngineOf t e = dmaEngineOf (dmaCharge s d 1) e := by rw [← ht]; exact copied_element.engine
  rw [hk] at hchannel hhbm hhost hengine
  exact ⟨hengine, hchannel, hhbm, hhost⟩

/-! Errors (R507). -/

theorem dmaBusError_fetch {cause : Nat} {write : Bool} {i : W16 × W16 × W16} (hact : (dmaEngineOf s e).active = c) (hc : 0 < c)
    (hdesc : (dmaChannelOf s e c).desc = none) (hcause : cause < 4) : dmaBusError s e cause true write i =
    dmaHalt (dmaLog s e cause) e c cause true false false (dmaHeadAddr (dmaChannelOf s e c)) (0, 0, 0) := by
  simp only [dmaBusError, hact, Nat.ne_of_gt hc, if_false, hdesc, Bool.true_and, hcause, decide_true, if_true]
  rfl

theorem dmaBusError_flush {write : Bool} {i : W16 × W16 × W16} (hact : (dmaEngineOf s e).active = c) (hc : 0 < c)
    (hdesc : (dmaChannelOf s e c).desc = some d) (hflush : (dmaChannelOf s e c).flushing = true) :
    dmaBusError s e 5 false write i = dmaHalt s e c 5 false true false (dmaLastDst d) i := by
  simp only [dmaBusError, hact, Nat.ne_of_gt hc, if_false, hdesc, Bool.false_eq_true, hflush, if_true]

/-- The elements before the one that failed are copied, and a host error is logged. -/
def dmaBefore (s : State) (e c cause : Nat) (d : DmaDesc) (i : Nat × Nat × Nat) : State :=
  let done := d.elements.takeWhile (fun k => k ≠ i)
  let s := dmaLog (dmaCharge s d (done.length + (if d.srcHbm then 1 else 0))) e cause
  if d.srcHbm then dmaCopy e c d [] (done.map (fun k => (k, 0))) s else dmaCopyOpen e c d done s

theorem dmaBusError_read {cause : Nat} {i : W16 × W16 × W16} (hact : (dmaEngineOf s e).active = c) (hc : 0 < c)
    (hdesc : (dmaChannelOf s e c).desc = some d) (hflush : (dmaChannelOf s e c).flushing = false) (hshed : shedOpen s = true)
    (hcause : cause ≠ 5) (hsrc : d.srcHbm = (cause == 4)) (hin : (i.2.2.toNat, i.2.1.toNat, i.1.toNat) ∈ d.elements) :
    dmaBusError s e cause false false i =
    let f := dmaFailAddr (dmaBefore s e c cause d (i.2.2.toNat, i.2.1.toNat, i.1.toNat)) e d
      (d.srcAt i.2.2.toNat i.2.1.toNat i.1.toNat)
    dmaHalt f.2 e c cause false false d.srcHbm f.1 i := by
  have hgo : (false || !shedOpen s || false || d.srcHbm != (cause == 4) ||
      !d.elements.contains (i.2.2.toNat, i.2.1.toNat, i.1.toNat)) = false := by
    simp [hshed, hsrc, hin]
  simp only [dmaBusError, hact, Nat.ne_of_gt hc, if_false, hdesc, Bool.false_eq_true, hcause, hflush, hgo]
  rfl

end

/-! The state in which a failed read halts its channel, and the address of its failure. -/

section
variable {s t : State} {e c cause : Nat} {d : DmaDesc} {i : Nat × Nat × Nat}

/-- What a host error of an engine logs leaves: all but hosts, what goes to them, and what is free; no register but Device Status. -/
theorem dmaLog_spec : dmaLog s e cause = { s with
      hif := (dmaLog s e cause).hif, out := (dmaLog s e cause).out, free := (dmaLog s e cause).free } ∧
    (∀ f off, off ≠ 0x5A → cfgReg (dmaLog s e cause) f off = cfgReg s f off) ∧
    (cause = 2 ∨ cause = 3 → (endpointOf (dmaLog s e cause) (epOf (dmaFn e))).uncorrectable =
      (endpointOf s (epOf (dmaFn e))).uncorrectable + 1) := by
  by_cases hlog : cause = 2 ∨ cause = 3
  · obtain ⟨b, h, hu⟩ : ∃ b h, dmaLog s e cause = aerUncorrectable (freshBytes 16 s).2 (dmaFn e) b false h :=
      ⟨_, _, by rw [dmaLog, if_pos hlog]⟩
    have herr := erred_uncorrectable (s := (freshBytes 16 s).2) (fn := dmaFn e) (b := b) (advisory := false) (header := h)
    rw [hu]
    refine ⟨by rw [herr.only]; rfl, herr.regs, fun _ => ?_⟩
    rw [herr.counts, endpointOf_errorCount]
    rfl
  · have hu : dmaLog s e cause = s := if_neg hlog
    rw [hu]
    exact ⟨rfl, fun _ _ _ => rfl, fun h => absurd h hlog⟩

theorem raised_of_flt {u w : State} {cls : FaultClass} {unit sub : Nat} (h : w.flt = s.flt) (hr : Spec.raised w u cls unit sub) :
    Spec.raised s u cls unit sub := by
  rwa [Spec.raised, ← h]

/-- What has changed of the state when a read of an element has failed. -/
structure ReadFailed (e : Nat) (s t : State) : Prop where
  only : ∃ k, t = { s with
    hif := t.hif, dma := t.dma, hbmU := { s.hbmU with shedUsed := k }, hbm := t.hbm, out := t.out, free := t.free }
  engine : dmaEngineOf t e = dmaEngineOf s e
  regs : ∀ f off, off ≠ 0x5A → cfgReg t f off = cfgReg s f off

theorem dmaBefore_spec : ReadFailed e s (dmaBefore s e c cause d i) := by
  obtain ⟨n, hn⟩ : ∃ n, (d.elements.takeWhile (fun k => k ≠ i)).length + (if d.srcHbm then 1 else 0) = n := ⟨_, rfl⟩
  obtain ⟨k, hk⟩ := dmaCharge_only (s := s) (d := d) (n := n)
  obtain ⟨hlog, hregs, -⟩ := dmaLog_spec (s := dmaCharge s d n) (e := e) (cause := cause)
  have hcopy : Copied e c (dmaLog (dmaCharge s d n) e cause) (dmaBefore s e c cause d i) := by
    simp only [dmaBefore, hn]
    split
    · exact copied_dmaCopy
    · exact copied_dmaCopyOpen
  have hhif : (dmaBefore s e c cause d i).hif = (dmaLog (dmaCharge s d n) e cause).hif := by rw [hcopy.only]
  refine ⟨⟨k, ?_⟩, ?_, fun f off hoff => ?_⟩
  · rw [hcopy.only, hlog, hk]
  · rw [hcopy.engine, hlog, hk]
    rfl
  · calc cfgReg (dmaBefore s e c cause d i) f off
        = cfgReg (dmaLog (dmaCharge s d n) e cause) f off := by rw [cfgReg, cfgReg, funcOf_of_hif hhif]
      _ = cfgReg (dmaCharge s d n) f off := hregs f off hoff
      _ = cfgReg s f off := by rw [hk]; rfl

theorem hbmAnswers_of_readFailed {a : Nat} (h : ReadFailed e s t) : hbmAnswers t a = hbmAnswers s a := by
  obtain ⟨k, hk⟩ := h.only
  rw [hk]
  rfl

theorem readsAt_of_readFailed {fn a n : Nat} (h : ReadFailed e s t) : readsAt t fn a n = readsAt s fn a n := by
  have hmax : maxRead t fn = maxRead s fn := by rw [maxRead, maxRead, h.regs _ _ (by decide)]
  rw [readsAt, readsAt, hmax]

/-- The first read of an element begins at its address. -/
theorem mem_readsAt_self {fn a n : Nat} : a ∈ readsAt s fn a n := by
  have hmax : 0 < 4096 / maxRead s fn := by
    have hpos : 0 < 2 ^ fieldN (cfgReg s fn 0x58).toNat 12 3 := Nat.two_pow_pos _
    refine Nat.div_pos (Nat.min_le_left _ _) ?_
    rw [maxRead]
    omega
  refine List.mem_flatMap.mpr ⟨a, List.mem_cons_self, List.mem_filter.mpr ⟨List.mem_map.mpr ⟨0, List.mem_range.mpr hmax, ?_⟩, ?_⟩⟩
  · simp
  · simp

theorem dmaFailAddr_host {a : Nat} (h : d.srcHbm = false) :
    (dmaFailAddr s e d a).1 ∈ readsAt s (dmaFn e) a d.elem ∧ ∃ k, (dmaFailAddr s e d a).2 = { s with free := k } := by
  simp only [dmaFailAddr, h, Bool.false_eq_true, if_false]
  split
  · exact ⟨mem_readsAt_self, s.free, rfl⟩
  · next hlen =>
    have hlt : (fresh 32 s).1.toNat % (readsAt s (dmaFn e) a d.elem).length < (readsAt s (dmaFn e) a d.elem).length :=
      Nat.mod_lt _ (by omega)
    refine ⟨?_, s.free + 1, rfl⟩
    simp only [List.getD_eq_getElem _ _ hlt]
    exact List.getElem_mem hlt

theorem dmaFailAddr_hbm {a : Nat} (h : d.srcHbm = true) :
    dmaFailAddr s e d a = (((accessesAt 256 a d.elem).find? (fun x => !hbmAnswers s x)).getD a, s) := by
  simp only [dmaFailAddr, h, if_true]

end

end Sys2Proof.Machine

open Sys2Proof Sys2Proof.Machine in
/-- Settles O40, by the equation of each command in each state of its channel; what the engine leaves of a channel is `dmaEnd_spec`,
`dmaWriteback_spec` and `dmaHalt_spec`. -/
theorem dmaChannels : Obligations.DmaChannels := by
  refine ⟨?_, ?_, ?_, ?_, ?_, ?_, ?_, ?_⟩
  · intro s e c x hx hidle hnext
    subst hx
    exact congrArg Host.Outcome.next (dmaSelect_of_next hidle hnext)
  · intro s e c x bytes d hx hact hc _ hdesc hlen
    subst hx
    refine ⟨fun hstop => ⟨congrArg Host.Outcome.next (dmaStart_of_stopped hstop), fun data =>
      congrArg Host.Outcome.next (dmaDone_of_none (by rw [hact]; exact hdesc))⟩, fun hruns hd => ?_⟩
    have hstart := dmaStart_of_active hact hc hdesc hruns hlen hd
    refine ⟨fun hbad => ⟨_, congrArg Host.Outcome.next (hstart.trans ?_), (dmaWriteback_spec (irq := d.irq) (.inl hact)).1⟩,
      fun hgood hout => ⟨_, congrArg Host.Outcome.next (hstart.trans ?_), (dmaWriteback_spec (irq := d.irq) (.inl hact)).1⟩,
      fun hgood hin => congrArg Host.Outcome.next (hstart.trans ?_)⟩
    · rw [hbad, Bool.not_false, if_pos rfl]
    · rw [hgood, Bool.not_true, if_neg (by decide), if_pos (Bool.of_not_eq_false fun h => hout (insideWindow_iff.mp h))]
    · rw [hgood, Bool.not_true, if_neg (by decide), if_neg (Bool.eq_false_iff.mp (insideWindow_iff.mpr hin))]
      cases d.srcHbm with
      | true => rfl
      | false => exact foldl_hostRead d.elements
  · intro s e c x data d hx hact hc _ hdesc hruns h0 h1 h2 hflush hshed hwf hread
    subst hx
    have hel := elements_single h0 h1 h2
    have hdone := dmaDone_of_single (data := data) hact hc hdesc hruns hel hflush (shedOpen_iff.mpr hshed) hread
    obtain ⟨t, ht⟩ : ∃ t, dmaElement (dmaCharge s d 1) e.val c d (0, 0, 0) (singleBytes s d data) = t := ⟨_, rfl⟩
    obtain ⟨hengine, hchannel, hhbm, hhost⟩ := dmaElement_single hwf ht
    rw [dmaSource_single, ht, dmaLastDst_single h0 h1 h2] at hdone
    have hbytes : (wrapAdd (dmaChannelOf s e.val c).bytes d.elem).toNat =
        ((dmaChannelOf s e.val c).bytes.toNat + d.elem) % 2 ^ 64 := by simp [wrapAdd]
    by_cases hflushes : (d.barrier && !d.dstHbm) = true
    · have hflushing : ∀ fn a n, dmaChannelOf (hostRead (dmaChannelMod t e.val c (fun x => { x with flushing := true })) e.val fn a n)
          e.val c = { dmaChannelOf s e.val c with
            flushing := true, bytes := wrapAdd (dmaChannelOf s e.val c).bytes d.elem } := fun _ _ _ =>
        dmaChannelOf_flushing.trans (by rw [hchannel])
      obtain ⟨hbar, hdst⟩ : d.barrier = true ∧ d.dstHbm = false := by simpa using hflushes
      refine ⟨_, congrArg Host.Outcome.next (hdone.trans (if_pos hflushes)), ?_, fun _ _ => ⟨List.mem_cons_self, hengine, ?_⟩,
        fun hdst' => absurd (hdst.symm.trans hdst') (by decide), fun _ => ⟨List.mem_cons_of_mem _ (hhost hdst).1, (hhost hdst).2⟩, ?_⟩
      · rintro (h | h)
        · exact absurd (hbar.symm.trans h) (by decide)
        · exact absurd (hdst.symm.trans h) (by decide)
      · rw [hflushing]
      · rw [hflushing]
        exact hbytes
    · obtain ⟨hended, hkept, hmem, hout⟩ := dmaWriteback_spec (s := t) (e := e.val) (c := c) (status := 0) (irq := d.irq)
        (.inl (by rw [hengine]; exact hact))
      refine ⟨_, congrArg Host.Outcome.next (hdone.trans (if_neg hflushes)), fun _ => ?_, fun hbar hdst => ?_, fun hdst a => ?_,
        fun hdst => ⟨hout _ (hhost hdst).1, fun a => ?_⟩, ?_⟩
      · simp only [Spec.dmaEnded, hchannel] at hended
        exact hended
      · exact absurd (by simp [hbar, hdst]) hflushes
      · rw [hbmGet, hmem]
        exact hhbm hdst a
      · rw [hbmGet, hmem]
        exact (hhost hdst).2 a
      · rw [hkept, hchannel]
        exact hbytes
  · intro s e c data d hact hc _ hdesc hruns hflush
    refine ⟨⟨_, congrArg Host.Outcome.next (dmaDone_of_flushing hact hc hdesc hruns hflush), (dmaWriteback_spec (.inl hact)).1⟩,
      fun i0 i1 i2 w => ⟨_, congrArg Host.Outcome.next (dmaBusError_flush hact hc hdesc hflush), ?_⟩⟩
    obtain ⟨hraised, hengine, hchannel⟩ := dmaHalt_spec (s := s) (e := e.val) (c := c) (cause := 5) (fetch := false) (write := true)
      (hbm := false) (addr := dmaLastDst d) (i := (i0, i1, i2))
    rw [hengine, hchannel]
    exact ⟨hraised, rfl, rfl, rfl, rfl, rfl, rfl, rfl, rfl, rfl, rfl⟩
  · intro s e c x cause w i0 i1 i2 hx hact hc _ hdesc hcause hirq
    subst hx
    obtain ⟨hlog, -, hcount⟩ := dmaLog_spec (s := s) (e := e.val) (cause := cause.val)
    have hchannel : dmaChannelOf (dmaLog s e.val cause.val) e.val c = dmaChannelOf s e.val c := by rw [hlog]; rfl
    have hengine : dmaEngineOf (dmaLog s e.val cause.val) e.val = dmaEngineOf s e.val := by rw [hlog]; rfl
    obtain ⟨hraised, hstopped, hhalted⟩ := dmaHalt_spec (s := dmaLog s e.val cause.val) (e := e.val) (c := c) (cause := cause.val)
      (fetch := true) (write := false) (hbm := false) (addr := dmaHeadAddr (dmaChannelOf s e.val c)) (i := (0, 0, 0))
    obtain ⟨dma, flt, honly⟩ := dmaHalt_only (s := dmaLog s e.val cause.val) (e := e.val) (c := c) (cause := cause.val)
      (fetch := true) (write := false) (hbm := false) (addr := dmaHeadAddr (dmaChannelOf s e.val c)) (i := (0, 0, 0))
      (by rw [hchannel]; exact hirq)
    rw [hengine] at hstopped
    rw [hchannel] at hhalted
    refine ⟨_, congrArg Host.Outcome.next (dmaBusError_fetch hact hc hdesc hcause), ?_, hstopped, hhalted, fun hlow => ?_,
      fun hhigh => ⟨?_, ?_⟩⟩
    · exact raised_of_flt (by rw [hlog]) hraised
    · have hquiet : dmaLog s e.val cause.val = s := if_neg (by omega)
      rw [honly, hquiet]
    · rw [honly, hlog]
    · rw [honly]
      have hep : epOf (dmaFn e.val) = e.val / 2 := by rw [dmaFn_eq]; exact epOf_pf0 (by omega)
      rw [hep] at hcount
      exact hcount (by omega)
  · intro s e c d cause i0 i1 i2 hact hc _ hdesc hflush hshed hcause hsrc hin
    have herror := dmaBusError_read (i := (i0, i1, i2)) hact hc hdesc hflush (shedOpen_iff.mpr hshed)
      (fun h => hcause (Fin.ext h)) hsrc hin
    obtain ⟨t, ht⟩ : ∃ t, dmaBefore s e.val c cause.val d (i2.toNat, i1.toNat, i0.toNat) = t := ⟨_, rfl⟩
    obtain ⟨a, ha⟩ : ∃ a, d.srcAt i2.toNat i1.toNat i0.toNat = a := ⟨_, rfl⟩
    have hfailed : ReadFailed e.val s t := ht ▸ dmaBefore_spec
    simp only [ht, ha] at herror
    obtain ⟨k, honly⟩ := hfailed.only
    obtain ⟨f, hf⟩ : ∃ f, dmaFailAddr t e.val d a = f := ⟨_, rfl⟩
    obtain ⟨n, hfree⟩ : ∃ n, f.2 = { t with free := n } := by
      rw [← hf]
      cases hs : d.srcHbm with
      | true => exact ⟨t.free, by rw [dmaFailAddr_hbm hs]⟩
      | false => exact (dmaFailAddr_host hs).2
    rw [hf] at herror
    have hengine : dmaEngineOf f.2 e.val = dmaEngineOf s e.val := by
      rw [hfree]
      exact hfailed.engine
    obtain ⟨hraised, hstopped, hhalted⟩ := dmaHalt_spec (s := f.2) (e := e.val) (c := c) (cause := cause.val) (fetch := false)
      (write := false) (hbm := d.srcHbm) (addr := f.1) (i := (i0, i1, i2))
    rw [hengine] at hstopped
    refine ⟨_, congrArg Host.Outcome.next herror, raised_of_flt (by rw [hfree, honly]) hraised, by rw [hstopped], by rw [hstopped], ?_⟩
    rw [hhalted, ha]
    refine ⟨rfl, rfl, rfl, rfl, rfl, rfl, rfl, rfl, fun hs => ?_, fun hs => ⟨f.1, ?_, rfl⟩⟩
    · have hanswers : ∀ x, hbmAnswers t x = hbmAnswers s x := fun x => hbmAnswers_of_readFailed hfailed
      rw [← hf, dmaFailAddr_hbm hs]
      simp only [hanswers]
    · rw [← readsAt_of_readFailed hfailed, ← hf]
      exact (dmaFailAddr_host hs).1
  · intro s e data hflush hstep hused
    have hshut : shedOpen s = false := Bool.eq_false_iff.mpr fun h =>
      (shedOpen_iff.mp h).elim hstep (Nat.not_lt.mpr hused)
    exact congrArg Host.Outcome.next (dmaDone_of_shut (by simp [hflush, hshut]))
  · intro s e c x hc hx
    subst hx
    have hc0 : (c.val != 0) = true := bne_iff_ne.mpr fun h => hc (Fin.ext h)
    have hbeq : c.val ≠ 0 := bne_iff_ne.mp hc0
    refine ⟨fun hhalt hidle => ?_, fun hhalt => ?_, fun v hon hoff hdis hvec => ?_, fun v => ⟨fun hle => ?_, fun hlt => ?_⟩⟩
    · have hh : dmaHalted s e.val c.val = true := by rw [dmaHalted, hc0, hhalt]; rfl
      refine ⟨congrArg Host.Outcome.next (if_pos hh), ⟨_, congrArg Host.Outcome.next (if_pos hh),
          dmaChannelOf_dmaChannelMod_same (s := dmaEngineMod s e.val _) _, rfl⟩,
        fun hstop => congrArg Host.Outcome.next (if_neg (by simp [hstop])),
        fun hruns hfree => ⟨_, congrArg Host.Outcome.next (if_pos (by simp [hh, hruns])), (dmaWriteback_spec (.inr hfree)).1⟩⟩
    · have hh : ¬ dmaHalted s e.val c.val = true := by simp [dmaHalted, hhalt]
      exact ⟨congrArg Host.Outcome.next (if_neg hh), congrArg Host.Outcome.next (if_neg (by simp [hh])),
        congrArg Host.Outcome.next (if_neg hh)⟩
    · refine congrArg Host.Outcome.next ?_
      have hfield : 2 ≤ fieldN v.toNat 16 11 := hvec
      simp only [dmaConfig, hbeq, if_false, dmaChannelMod, tmod, hon, vectorField, hfield, if_true]
      have hoff' : (tgetD s.dma.channels (16 * e.val + c.val) DmaChannel.reset).enable = false := hoff
      have hdis' : (tgetD s.dma.channels (16 * e.val + c.val) DmaChannel.reset).state = .disabled := hdis
      simp only [hoff', hdis', Bool.not_false, beq_self_eq_true, Bool.and_self, if_true]
      rfl
    · refine congrArg Host.Outcome.next ?_
      exact (if_neg hbeq).trans (congrArg (Spec.dmaBecomes s e.val c.val) (if_pos hle))
    · refine congrArg Host.Outcome.next ?_
      exact (if_neg hbeq).trans (congrArg (Spec.dmaBecomes s e.val c.val) (if_neg (Nat.not_le.mpr hlt)))

end

section
/-!
The admin commands on queues. DISABLE_QUEUE counts every descriptor without its read among those whose reads are outstanding
(R480), for a queue of any kind; the statement takes the descriptors of queues that do not send to have their reads, which the
machine keeps but the statement does not ask for.
-/

namespace Sys2Proof.Machine

/-- A receive queue whose one posted buffer is not marked as read. -/
def unreadQueue : HostQueue :=
  { state := .enabled, kind := .receive, fn := 0, loc := 0, sizeLog2 := 4, restart := false, wakeEn := false, slice := 0
    ringAddr := 0, cqAddr := 0, vector := 0xFFFF, tenant := 0, startSel := 0, bufSize := 2048, head := 0, producer := 1
    fetched := 1, consumer := 0, completions := 0, dbErrors := 0, features := 0
    work := [{ number := 0, bytes := [], read := false }], fetching := [], stale := 0, held := [], dma := [], seq := 0
    disabling := [] }

/-- The device with its hosts up and that queue as queue 0 of PF0. -/
def unreadState : State := { State.reset with
  rst := { State.reset.rst with released := 0x7FF, restarting := false, recovery := false }
  hif := { State.reset.hif with
    deviceReady := true
    eps := [(0, { Endpoint.reset with linkUp := true, inReset := false })]
    funcs := [(0, { Func.reset with busMaster := true })] }
  que := { State.reset.que with queues := [(0, unreadQueue)] } }

/-- DISABLE_QUEUE of queue 0. -/
def disableEntry : List Byte := [4, 0, 0, 0, 0, 0, 0xFF, 0xFF] ++ zeroBytes 56

theorem disableEntry_admitted : Spec.admits unreadState 0 0x04 true [(20, 2)] disableEntry := by
  unfold Spec.admits
  decide

/-- The buffer's read is taken to be outstanding, so that the command waits. -/
theorem disableQueue_unread : (exec (.disableQueue 0 disableEntry []) unreadState) = .next
    (adminRun unreadState 0 disableEntry (queueForm 0x04) (fun _ => true) (disableQueue 0)) ∧
    (queueOf (adminRun unreadState 0 disableEntry (queueForm 0x04) (fun _ => true) (disableQueue 0)) 0).map (·.stale) = some 1 := by
  refine ⟨rfl, ?_⟩
  decide

theorem msix_queues {s : State} {fn v : Nat} : (msix s fn v).que = s.que := by unfold msix; (repeat' split) <;> rfl

theorem adminMod_queues {s : State} {ep : Nat} {f : AdminQueue → AdminQueue} :
    (adminMod s ep f).que.queues = s.que.queues := by
  unfold adminMod
  split <;> rfl

/-- The completion of an admin command leaves the host queues. -/
theorem queueOf_finished {t : State} {ep : Fin 2} {b r : List Byte} {st : Byte} {q : Nat} :
    queueOf (Spec.finished t ep b st r) q = queueOf t q := by
  have hq : (Spec.finished t ep b st r).que.queues = t.que.queues := by
    simp only [Spec.finished, adminWrite, msix_queues, hostWrite, emit, adminMod_queues]
  rw [queueOf, queueOf, hq]

end Sys2Proof.Machine

open Sys2Proof Sys2Proof.Machine in
/-- Refutes O31: DISABLE_QUEUE of a quiet receive queue whose posted buffer is not marked as read waits for a read, and does not
complete. The machine marks every buffer of such a queue as read, so that it does not come to this state; the statement is about
every state. -/
theorem not_adminQueuesAndFunctions : ¬ Obligations.AdminQueuesAndFunctions := by
  rintro ⟨hqueues, -⟩
  obtain ⟨-, -, hof, -⟩ := hqueues unreadState 0 disableEntry []
  obtain ⟨-, -, -, -, hdisable, -⟩ := hof unreadQueue rfl rfl rfl rfl rfl rfl
  obtain ⟨t, hexec, hafter, -⟩ := hdisable disableEntry_admitted nofun rfl rfl rfl
  have hrun : adminRun unreadState 0 disableEntry (queueForm 0x04) (fun _ => true) (disableQueue 0) = Spec.finished t 0 disableEntry 0
      (leBytes 2 unreadQueue.head.toNat) := Host.Outcome.next.inj (disableQueue_unread.1.symm.trans hexec)
  have hstale := disableQueue_unread.2
  rw [hrun, queueOf_finished] at hstale
  have hquiet : (queueOf t 0).map (·.stale) = some 0 := congrArg (Option.map HostQueue.stale) hafter
  exact absurd (hquiet.symm.trans hstale) (by decide)

end

section
/-! The random service and the erase (R409-R411, R414, R416). -/

namespace Sys2Proof.Machine

section
variable {s : State}

/-! The start-up (R409, R410). -/

/-- What one draw changes of the key vault when no reseed is due: the generator's own state. -/
structure Drew (k l : Kvl) : Prop where
  only : l = { k with drbgKey := l.drbgKey, drbgV := l.drbgV, calls := l.calls }
  calls : l.calls.toNat ≤ k.calls.toNat + 1

theorem drbg_of_fresh (h : drbgDue s = false) (f : List Byte → Kvl → Kvl) : ∃ bs k, Drew s.kvl k ∧
    kvlMod (drbg 32 s).2 (f (drbg 32 s).1) = { s with kvl := f bs k } := by
  have hno : drbgReseed s = s := if_neg (Bool.eq_false_iff.mp h)
  simp only [drbg, hno]
  refine ⟨_, _, ⟨rfl, ?_⟩, rfl⟩
  exact (BitVec.toNat_add s.kvl.calls 1#21).le.trans (Nat.mod_le _ _)

/-- Just seeded, the service is far from its next reseed. -/
theorem drbgDue_of_seeded (hcalls : s.kvl.calls.toNat ≤ 1) (htick : now s ≤ s.kvl.reseedTick) : drbgDue s = false := by
  have h1 : ¬ 2 ^ 20 ≤ s.kvl.calls.toNat := by omega
  have h2 : ¬ s.kvl.reseedTick + 1000000 ≤ now s := by omega
  rw [drbgDue, decide_eq_false h1, decide_eq_false h2, Bool.or_false, Bool.and_false]

/-- A key drawn into slot 0 of a vault where it is blank; the other keys stay. -/
structure KeyMade (t u : Tbl (List Byte)) : Prop where
  first : ∃ k, tget u 0 = some k
  others : ∀ n, (n ≠ 0 ∨ thas t 0 = true) → tget u n = tget t n

theorem KeyMade.kept {t : Tbl (List Byte)} (h : thas t 0 = true) : KeyMade t t :=
  ⟨Option.isSome_iff_exists.mp h, fun _ _ => rfl⟩

theorem KeyMade.drawn {t : Tbl (List Byte)} {k : List Byte} (h : thas t 0 = false) : KeyMade t (tset t 0 k) :=
  ⟨⟨k, tget_tset_same ..⟩, fun _ hn => tget_tset_other t k (hn.resolve_right (Bool.eq_false_iff.mp h))⟩

/-- K0 where slot 0 of the vault in RAM is blank. -/
def firstKey (s : State) : State :=
  if thas s.kvl.vol 0 then s
  else kvlMod (drbg 32 s).2 (fun k => { k with vol := tset k.vol 0 (drbg 32 s).1 })

/-- V0 where slot 0 of the vault in battery RAM is blank. -/
def firstVaultKey (s : State) : State :=
  if thas s.kvl.vbat 0 then s
  else kvlMod (drbg 32 s).2 (fun k => { k with vbat := tset k.vbat 0 (drbg 32 s).1 })

theorem firstKey_spec (h : drbgDue s = false) : ∃ k l, Drew s.kvl k ∧ KeyMade s.kvl.vol l ∧
    firstKey s = { s with kvl := { k with vol := l } } := by
  cases hv : thas s.kvl.vol 0 with
  | true => exact ⟨s.kvl, s.kvl.vol, ⟨rfl, Nat.le_succ _⟩, .kept hv, if_pos hv⟩
  | false =>
    obtain ⟨bs, k, hk, heq⟩ := drbg_of_fresh h (fun bs k => { k with vol := tset k.vol 0 bs })
    refine ⟨k, tset s.kvl.vol 0 bs, hk, .drawn hv, (if_neg (Bool.eq_false_iff.mp hv)).trans (heq.trans ?_)⟩
    rw [hk.only]

theorem firstVaultKey_spec (h : drbgDue s = false) : ∃ k l, Drew s.kvl k ∧ KeyMade s.kvl.vbat l ∧
    firstVaultKey s = { s with kvl := { k with vbat := l } } := by
  cases hv : thas s.kvl.vbat 0 with
  | true => exact ⟨s.kvl, s.kvl.vbat, ⟨rfl, Nat.le_succ _⟩, .kept hv, if_pos hv⟩
  | false =>
    obtain ⟨bs, k, hk, heq⟩ := drbg_of_fresh h (fun bs k => { k with vbat := tset k.vbat 0 bs })
    refine ⟨k, tset s.kvl.vbat 0 bs, hk, .drawn hv, (if_neg (Bool.eq_false_iff.mp hv)).trans (heq.trans ?_)⟩
    rw [hk.only]

/-- The service as it becomes READY: seeded from free bits. -/
def startSeeded (s : State) : State :=
  drbgSeed false (kvlMod s (fun k => { k with rng := .ready, startupTicks := satAdd 0#16 (now s - s.kvl.startTick) }))

theorem startupDone_of_waiting (hrng : s.kvl.rng ≠ .ready) (herase : s.kvl.erasing = false) (hrel : releasedOf s 2 = true) :
    entropyStartupDone s = firstVaultKey (firstKey (startSeeded s)) := by
  have hgo : (rngReady s || s.kvl.erasing || !secReleased s) = false := by
    simp [rngReady, secReleased, hrng, herase, hrel]
  simp only [entropyStartupDone, hgo, Bool.false_eq_true, if_false]
  rfl

theorem startupDone_spec (hrng : s.kvl.rng ≠ .ready) (herase : s.kvl.erasing = false) (hrel : releasedOf s 2 = true) :
    ∃ k free, entropyStartupDone s = { s with kvl := k, free := free } ∧ k.rng = .ready ∧ k.reseedTick = intervalStart s ∧
      KeyMade s.kvl.vol k.vol ∧ KeyMade s.kvl.vbat k.vbat := by
  have htick : now s ≤ intervalStart s := by unfold intervalStart; split <;> omega
  obtain ⟨k, l, hk, hvol, hfirst⟩ := firstKey_spec (s := startSeeded s) (drbgDue_of_seeded (Nat.zero_le _) htick)
  have hdue : drbgDue (firstKey (startSeeded s)) = false := by
    refine drbgDue_of_seeded ?_ ?_
    · rw [hfirst]
      exact hk.calls
    · rw [hfirst, hk.only]
      exact htick
  obtain ⟨k', l', hk', hvbat, hlast⟩ := firstVaultKey_spec hdue
  rw [startupDone_of_waiting hrng herase hrel, hlast]
  rw [hfirst] at hk' hvbat ⊢
  rw [hk.only] at hk' hvbat
  rw [hk'.only]
  exact ⟨_, _, rfl, rfl, rfl, hvol, hvbat⟩

/-! The erase (R414). -/

theorem drbgReseed_of_ready (hrng : s.kvl.rng = .ready) : drbgReseed s =
    if 1048576 ≤ s.kvl.calls.toNat ∨ s.kvl.reseedTick + 1000000 ≤ s.tmb.tick.toNat then
      drbgSeed true (kvlMod s (fun k => { k with reseeds := k.reseeds + 1 }))
    else s := by
  have hdue : drbgDue s = true ↔ 1048576 ≤ s.kvl.calls.toNat ∨ s.kvl.reseedTick + 1000000 ≤ s.tmb.tick.toNat := by
    rw [drbgDue, rngReady, hrng, beq_self_eq_true, Bool.true_and, Bool.or_eq_true]
    exact or_congr decide_eq_true_iff decide_eq_true_iff
  simp only [drbgReseed, hdue]
  rfl

/-- An erase leaves no key, and every context erased, listed or not. -/
theorem zeroizeComplete_of_erasing (h : s.kvl.erasing = true) : zeroizeComplete s =
    { s with
      kvl := { s.kvl with vol := [], vbat := [], erasing := false, erases := s.kvl.erases + 1, startTick := intervalStart s }
      cph := { s.cph with
        ctxs := tmap s.cph.ctxs (fun _ c => { c with state := .erased, key1 := [], key2 := [], queue := [] })
        unlisted := .erased, due := s.cph.due.filter keylessDue } } := by
  simp only [zeroizeComplete, h, Bool.not_true, Bool.false_eq_true, if_false]
  rfl

theorem ctxOf_zeroizeComplete (h : s.kvl.erasing = true) (i : Nat) : ctxOf (zeroizeComplete s) i =
    (((tget s.cph.ctxs i).map fun c => { c with state := .erased, key1 := [], key2 := [], queue := [] }).getD
      { Ctx.empty with state := .erased }) := by
  rw [zeroizeComplete_of_erasing h, ctxOf, tgetD, tget_tmap]
  rfl

end

end Sys2Proof.Machine

open Sys2Proof Sys2Proof.Machine in
/-- Settles O29: a start-up draws K0 and V0 when no reseed is due, and the rest are the equations of the commands. -/
theorem randomAndErase : Obligations.RandomAndErase := by
  refine ⟨fun s hrng herase hrel => ?_, fun s hrng hrel => ⟨fun hlate => ?_, fun hearly => ?_⟩, fun s hrel => ?_,
    fun s hrng => ⟨fun hdue => ?_, fun hcalls htick => ?_⟩, fun s herase => ?_⟩
  · obtain ⟨k, free, heq, hready, hseed, hvol, hvbat⟩ := startupDone_spec hrng herase hrel
    refine ⟨_, congrArg Host.Outcome.next heq, hready, rfl, hseed, hvol.first, hvbat.first, hvol.others, hvbat.others⟩
  · have hgo : (rngReady s || !secReleased s || decide (now s < s.kvl.startTick + 10000)) = false := by
      simp [rngReady, secReleased, hrng, hrel]
      exact hlate
    exact ⟨_, congrArg Host.Outcome.next (if_neg (Bool.eq_false_iff.mp hgo)), raised_raise rfl, rfl⟩
  · have hstay : (rngReady s || !secReleased s || decide (now s < s.kvl.startTick + 10000)) = true := by
      rw [decide_eq_true (show now s < s.kvl.startTick + 10000 from hearly), Bool.or_true]
    exact congrArg Host.Outcome.next (if_pos hstay)
  · have hgo : ¬ (!secReleased s) = true := by simp [secReleased, hrel]
    exact ⟨_, congrArg Host.Outcome.next (if_neg hgo), raised_raise rfl, rfl⟩
  · exact congrArg Host.Outcome.next ((drbgReseed_of_ready hrng).trans (if_pos hdue))
  · exact congrArg Host.Outcome.next ((drbgReseed_of_ready hrng).trans (if_neg (by omega)))
  · refine ⟨zeroizeComplete s, rfl, ?_⟩
    have hctx : ∀ i, (ctxOf (zeroizeComplete s) i).state = .erased ∧ (ctxOf (zeroizeComplete s) i).key1 = [] ∧
        (ctxOf (zeroizeComplete s) i).key2 = [] := fun i => by
      rw [ctxOf_zeroizeComplete herase]
      cases tget s.cph.ctxs i <;> exact ⟨rfl, rfl, rfl⟩
    have hlisted : ∀ i c, tget (zeroizeComplete s).cph.ctxs i = some c →
        c.key1 = [] ∧ c.key2 = [] ∧ c.state = .erased ∧ c.queue = [] := fun i c hc => by
      rw [zeroizeComplete_of_erasing herase, tget_tmap] at hc
      obtain ⟨-, -, rfl⟩ := Option.map_eq_some_iff.mp hc
      exact ⟨rfl, rfl, rfl, rfl⟩
    have heq := zeroizeComplete_of_erasing herase
    refine ⟨by rw [heq], hctx, by rw [heq], by rw [heq], by rw [heq], by rw [heq], hlisted⟩

end

section
/-!
The cipher slab. A context whose value is that of the contexts that its table does not list leaves the table; where the table lists a
context twice, the one behind then shows. The statement asks for the head of the queue to be gone in every state, and a table of this
kind is none that the machine builds.
-/

namespace Sys2Proof.Machine

section
variable {s u : State} {c : IoCmd}

/-! What the storage unit leaves of a context's queue (R427): the requests that are not its own. -/

/-- The requests of a context that no storage command has made. -/
def foreign (s : State) (i : Nat) : List CipherReq := (ctxOf s i).queue.filter (fun r => r.disk.isNone)

theorem foreign_of_ctxs {i : Nat} : foreign s i = (((tget (ownSlab s.cph).ctxs i).map (·.queue)).getD []) := by
  rw [foreign, ctxOf, tgetD, ownSlab, tget_tmap]
  cases tget s.cph.ctxs i <;> rfl

theorem foreign_of_line (h : line u = line s) : foreign u = foreign s := by
  funext i
  rw [foreign_of_ctxs, foreign_of_ctxs, show ownSlab u.cph = ownSlab s.cph from congrArg Line.cph h]

theorem ioCount_line {i q ns lba row st : Nat} {cid : W16} : line (ioCount s i q cid ns lba row st) = line s := by
  unfold ioCount
  (repeat' split) <;> simp [nsMod]

theorem shutdownCheck_line {i : Nat} : line (shutdownCheck s i) = line s := by
  unfold shutdownCheck
  (repeat' split) <;> simp

theorem ioEnd_line {row st : Nat} : line (ioEnd s c row st) = line s := by
  have hleft : line (ioLeave s c) = line s := by simp [ioLeave]
  simp only [ioEnd]
  split
  · exact hleft
  · rw [shutdownCheck_line, nvmeComplete, postAll_line, ctlMod_line, ioCount_line, hleft]

theorem ioOnward_line : line (ioOnward s c) = line s := by
  unfold ioOnward
  split <;> simp

theorem shedUse_line {n : Nat} : line (shedUse s n) = line s := by
  unfold shedUse
  split <;> rfl

/-- The requests that join a queue are the storage unit's own. -/
theorem foreign_xtsFeed : foreign (xtsFeed s c) = foreign s := by
  obtain ⟨n, hn⟩ : ∃ n, min (xtsTotal c - c.xtsNext) (32 - (ctxOf s c.space.context).queue.length) = n := ⟨_, rfl⟩
  obtain ⟨rs, hrs⟩ : ∃ rs, (List.range n).map (fun k => xtsRequest s c (c.xtsNext + k)) = rs := ⟨_, rfl⟩
  simp only [xtsFeed, hn, hrs]
  split
  · rfl
  next hgo =>
    funext i
    have hown : rs.filter (fun r => r.disk.isNone) = [] := by
      rw [← hrs, List.filter_eq_nil_iff]
      intro r hr
      obtain ⟨k, -, rfl⟩ := List.mem_map.mp hr
      exact Bool.false_ne_true
    have hsome : rs ≠ [] := by
      rw [← hrs]
      simp at hgo
      simp [hgo.1]
    have hlisted : ({ ctxOf s c.space.context with queue := (ctxOf s c.space.context).queue ++ rs } : Ctx) ≠ ctxUnlisted s :=
      fun h => hsome (List.append_eq_nil_iff.mp (congrArg Ctx.queue h)).2
    rw [foreign_of_line ioSet_line]
    by_cases hi : i = c.space.context
    · subst hi
      rw [foreign, ctxOf, ctxMod, tput, if_neg hlisted, tgetD_tset_same, List.filter_append, hown, List.append_nil]
      rfl
    · rw [foreign, ctxOf_ctxMod_other hi]
      rfl

theorem foreign_xtsEnd {e : (Nat × Nat × W16) × Nat} : foreign (xtsEnd s e) = foreign s := by
  unfold xtsEnd
  split
  · rfl
  next c _ =>
    split
    · exact foreign_of_line ioEnd_line
    · have hset : ∀ n, foreign (shedUse (ioSet s c { c with xtsDone := c.xtsDone + 1 }) n) = foreign s := fun n =>
        foreign_of_line (by rw [shedUse_line, ioSet_line])
      dsimp only
      split
      · rw [foreign_of_line ioOnward_line, hset]
      · rw [foreign_xtsFeed, hset]

theorem foreign_xtsSettle : foreign (xtsSettle s) = foreign s := by
  simp only [xtsSettle]
  rw [foldl_keeps foreign (fun _ _ => foreign_xtsFeed), foldl_keeps foreign (fun _ _ => foreign_xtsEnd)]
  exact foreign_of_line stoMod_line

end

/-! The state that refutes. -/

/-- A request of the storage unit, and one of a channel. -/
def diskReq : CipherReq :=
  { channel := 0, words := [], pkt := none, landed := 0, retry := none, aesAt := [], gfAt := [], stop := 0, disk := some (0, 0, 0) }
def channelReq : CipherReq := { diskReq with disk := none }

/-- Context 0 is listed twice, and the contexts that are not listed are ACTIVE; the unit that serves pool 0 is lost without a reserve. -/
def listedTwice : State := { State.reset with
  sltCph := { SlotTable.empty with bank0 := { ringLog2 := 0, pages := [[(0, [0x8000000000000000])]] } }
  cph := { State.reset.cph with
    unlisted := .active, uncovered := [0]
    ctxs := [(0, { Ctx.empty with state := .active, queue := [diskReq] }),
      (0, { Ctx.empty with state := .active, queue := [channelReq] })] } }

theorem listedTwice_after : foreign (cipherRequestProcess listedTwice 0 true) 0 = [channelReq] := by decide

end Sys2Proof.Machine

open Sys2Proof Sys2Proof.Machine in
/-- Refutes O28: where the table lists the context twice, the request at the head of its queue leaves with the first entry, and the
queue of the second one shows in its place. The machine lists no context twice; the statement is about every state. -/
theorem not_cipher : ¬ Obligations.Cipher := by
  rintro ⟨hprocess, -⟩
  obtain ⟨huncovered, -⟩ := hprocess listedTwice 0 diskReq [] rfl
  obtain ⟨u, hexec, hqueue, -⟩ := huncovered (by decide) rfl (0, 0, 0) true rfl
  have hsame : xtsSettle (cipherRequestProcess listedTwice 0 true) = xtsSettle u := Host.Outcome.next.inj hexec
  have hforeign : foreign u 0 = [channelReq] := by
    rw [← foreign_xtsSettle, ← hsame, foreign_xtsSettle, listedTwice_after]
  have hnone : foreign u 0 = [] := by
    rw [foreign, show (ctxOf u 0).queue = [] from hqueue]
    rfl
  exact absurd (hnone.symm.trans hforeign) (List.cons_ne_nil _ _).symm

end

section
/-!
The admin commands of a storage function. A controller is found by the first function of the table that bears its storage index; an
interrupt that is masked sets a pending bit in the entry of its function, and puts that entry at its place in a table whose keys do not
rise. The statement asks for the controller to be found in every state, and a table of this kind is none that the machine builds.
-/

namespace Sys2Proof.Machine

/-- Two functions with the same storage index, out of order: the first in the table presents the controller, and the other, whose
interrupts are masked, does not. -/
def presentingFunc : Func := { Func.reset with storageIndex := some 2, featuresOk := true, active := 1#256 <<< featNvme }
def maskedFunc : Func := { Func.reset with storageIndex := some 2, busMaster := true, msixEnable := true, functionMask := true }

def oneSq : NvmeSq := { id := 0, granted := 1, base := 0, size := 4, cqid := 0, head := 0, tail := 1 }
def oneCq : NvmeCq :=
  { base := 0, size := 4, vector := some 0, tail := 0, head := 0, phase := true, gathered := 0, since := 0 }

/-- A controller whose completions interrupt the masked function. -/
def maskedController : Controller := { Controller.reset 0 with rdy := true, sqs := [(0, oneSq)], cqs := [(0, oneCq)] }

def unorderedFuncs : State := { State.reset with
  hif := { State.reset.hif with
    eps := [(0, { Endpoint.reset with linkUp := true, inReset := false })]
    funcs := [(1, presentingFunc), (0, maskedFunc)] }
  sto := { State.reset.sto with ctls := [(2, maskedController)] } }

/-- Get Features of Arbitration. -/
def getArbitration : List Byte := [0x0A] ++ zeroBytes 39 ++ [1] ++ zeroBytes 23

theorem getArbitration_waits : Spec.adminWaits unorderedFuncs 2 maskedController oneSq oneCq getArbitration 0x0A := by
  unfold Spec.adminWaits Spec.canAnswer
  decide

theorem getArbitration_after : ctlOf (nvmeAdmin unorderedFuncs 2 getArbitration 0x0A (fun s c b => getFeature s c b)) 2 = none := by
  decide

end Sys2Proof.Machine

open Sys2Proof Sys2Proof.Machine in
/-- Refutes O42: where the functions of the table are out of order and two of them bear one storage index, the pending bit of a masked
interrupt makes the other function the first, and no controller is found after the completion. The machine keeps its tables in order;
the statement is about every state. -/
theorem not_storageAdminCommands : ¬ Obligations.StorageAdminCommands := by
  intro h
  obtain ⟨-, -, -, -, -, -, -, -, hget, -⟩ := h unorderedFuncs 2 maskedController oneSq oneCq getArbitration
  obtain ⟨harbitration, -⟩ := hget getArbitration_waits
  obtain ⟨u, hexec, -, c', hfound, -⟩ := harbitration rfl
  have hsame : nvmeAdmin unorderedFuncs 2 getArbitration 0x0A (fun s c b => getFeature s c b) = u := Host.Outcome.next.inj hexec
  rw [← hsame] at hfound
  exact Option.some_ne_none c' (hfound.symm.trans getArbitration_after)

end

section
/-! Paths of a target (R429, R430, R434): what is read after a change of one, what a path sends, and what sending leaves. -/

namespace Sys2Proof.Machine

section
variable {s u w : State} {t p q : Nat} {x : Target} {y : Path} {f : Path → Path}

/-! A path changed. -/

theorem paths_modified {l : List Path} :
    (l.zipIdx.map (fun y => if y.2 = p then f y.1 else y.1))[q]? = if q = p then l[q]?.map f else l[q]? := by
  rw [List.getElem?_map, List.getElem?_zipIdx]
  cases l[q]? with
  | none => simp
  | some z =>
    by_cases hq : q = p
    · simp [hq]
    · simp [hq]

theorem targetMod_of {g : Target → Target} (hx : targetOf s t = some x) :
    targetMod s t g = { s with sto := { s.sto with targets := tset s.sto.targets t (g x) } } := by
  have hget : tget s.sto.targets t = some x := hx
  simp only [targetMod, stoMod, tadj, hget]

theorem targetOf_pathMod (hx : targetOf s t = some x) : targetOf (pathMod s t p f) t =
    some { x with paths := x.paths.zipIdx.map (fun y => if y.2 = p then f y.1 else y.1) } := by
  rw [pathMod, targetOf_targetMod_same, hx]
  rfl

theorem pathAt_of_target (hx : targetOf s t = some x) : pathAt s t p = x.paths[p]? := by rw [pathAt, hx]; rfl

theorem pathAt_pathMod (hx : targetOf s t = some x) :
    pathAt (pathMod s t p f) t q = if q = p then (pathAt s t q).map f else pathAt s t q := by
  rw [pathAt_of_target (targetOf_pathMod hx), pathAt_of_target hx]
  exact paths_modified

theorem pathAt_pathMod_self (hx : targetOf s t = some x) (hy : x.paths[p]? = some y) :
    pathAt (pathMod s t p f) t p = some (f y) := by
  rw [pathAt_pathMod hx, if_pos rfl, pathAt_of_target hx, hy]
  rfl

theorem pathAt_of_sto (h : u.sto.targets = s.sto.targets) : pathAt u t p = pathAt s t p := by
  rw [pathAt, pathAt, targetOf, targetOf, h]

/-- A change of a path is that of its one value. -/
theorem pathMod_of (hx : targetOf s t = some x) (hy : x.paths[p]? = some y) : pathMod s t p f = pathMod s t p (fun _ => f y) := by
  have hpaths : x.paths.zipIdx.map (fun y => if y.2 = p then f y.1 else y.1) =
      x.paths.zipIdx.map (fun z => if z.2 = p then f y else z.1) := by
    refine List.map_congr_left fun z hz => ?_
    by_cases hzp : z.2 = p
    · have hget := List.mk_mem_zipIdx_iff_getElem?.mp hz
      rw [hzp, hy] at hget
      simp [hzp, Option.some.inj hget]
    · simp [hzp]
  rw [pathMod, pathMod, targetMod_of hx, targetMod_of hx, hpaths]

/-- Two changes of a path in turn. -/
theorem pathMod_pathMod {g : Path → Path} (hx : targetOf s t = some x) :
    pathMod (pathMod s t p f) t p g = pathMod s t p (fun y => g (f y)) := by
  have hpaths : (x.paths.zipIdx.map (fun y => if y.2 = p then f y.1 else y.1)).zipIdx.map
      (fun y => if y.2 = p then g y.1 else y.1) = x.paths.zipIdx.map (fun y => if y.2 = p then g (f y.1) else y.1) := by
    refine List.ext_getElem? fun k => ?_
    rw [paths_modified (f := g), paths_modified, paths_modified (f := fun y => g (f y))]
    by_cases hk : k = p
    · simp only [hk, if_true, Option.map_map]
      rfl
    · simp only [hk, if_false]
  have hmod := targetOf_pathMod (f := f) (p := p) hx
  rw [pathMod, targetMod_of hmod, pathMod, targetMod_of hx, pathMod, targetMod_of hx]
  simp only [tset_tset_same, hpaths]

end

/-! What sending leaves. -/

section
variable {s u w : State} {t p id n : Nat}

@[simp] theorem releaseRef_hif : (releaseRef s id).hif = s.hif := by unfold releaseRef; split <;> rfl

@[simp] theorem queueTake_hif {qx : Nat} : (queueTake s qx id).hif = s.hif := by
  simp only [queueTake, queueEmptied]
  (repeat' split) <;> rfl

theorem pktFree_hif : (pktFree s id).hif = s.hif := by
  unfold pktFree
  split
  · rfl
  · split
    · exact releaseRef_hif
    · dsimp only
      split <;> simp

theorem countDrop_hif {o c l : Nat} {p t : Option Nat} : (countDrop s o p t c l).hif = s.hif := by
  cases p <;> cases t <;> simp [countDrop]

/-- A packet that no send has made is dropped without a word to its host. -/
theorem dropPktAt_hif {r : DropReason} {at_ : Option (Option Nat)} (h : ∀ p, pktOf s id = some p → p.sendFrom = none) :
    (dropPktAt s id r at_).hif = s.hif := by
  unfold dropPktAt
  split
  · rfl
  next p hp => simp only [sendDropped, h p hp, pktFree_hif, countDrop_hif]

theorem transfer_hif : (transfer s id n).hif = s.hif := by
  unfold transfer
  (repeat' split) <;> simp [addPkt]

theorem wake_hif {qx : Nat} : (wake s qx).hif = s.hif := by
  unfold wake
  split <;> rfl

theorem enterQueue_hif {qx : Nat} : (enterQueue s id qx n).hif = s.hif := by
  have hin : (pktMod (releaseRef (transfer s id (queueOwner qx)) id) id
      (fun p => { p with queue := some qx, crumbs := n, hold := none, stage := .queued })).hif = s.hif := by
    simp [transfer_hif]
  simp only [enterQueue]
  (repeat' split) <;> simp [wake_hif, addPkt, transfer_hif]

theorem enqueuePort_hif {port k : Nat} (h : ∀ p, pktOf s id = some p → p.sendFrom = none) :
    (enqueuePort s id port k).hif = s.hif := by
  simp only [enqueuePort]
  (repeat' split) <;> simp only [enterQueue_hif, dropPktAt_hif h]

@[simp] theorem apart_pktMod {f : Packet → Packet} : apart (pktMod s id f) = apart s := rfl

@[simp] theorem apart_transfer : apart (transfer s id n) = apart s := by
  unfold transfer
  (repeat' split) <;> simp [addPkt]

@[simp] theorem apart_wake {qx : Nat} : apart (wake s qx) = apart s := by
  unfold wake
  split <;> rfl

theorem apart_enterQueue {qx : Nat} : apart (enterQueue s id qx n) = apart s := by
  have hcrb : ∀ (t : State) (c : Crb), apart { t with crb := c } = apart t := fun _ _ => rfl
  have hadd : ∀ (t : State) (i : Nat) (p : Packet), apart (addPkt t i p) = apart t := fun _ _ _ => apart_addTo
  simp only [enterQueue]
  (repeat' split) <;> simp only [apart_wake, hadd, hcrb, apart_pktMod, apart_schQueueMod, apart_releaseRef, apart_transfer]

theorem apart_enqueuePort {port k : Nat} : apart (enqueuePort s id port k) = apart s := by
  simp only [enqueuePort]
  (repeat' split) <;> simp only [apart_enterQueue, apart_dropPktAt]

/-- A frame of a path changes packets, their queues and counters. -/
structure Framed (s u : State) : Prop where
  apart : apart u = apart s
  hif : u.hif = s.hif

theorem Framed.refl : Framed s s := ⟨rfl, rfl⟩
theorem Framed.trans (h : Framed s u) (h' : Framed u w) : Framed s w := ⟨h'.apart.trans h.apart, h'.hif.trans h.hif⟩
theorem Framed.sto (h : Framed s u) : u.sto = s.sto := (congrArg State.sto h.apart :)

theorem framed_foldl {α : Type} {f : State → α → State} (h : ∀ u a, Framed u (f u a)) (l : List α) : Framed s (l.foldl f s) := by
  induction l generalizing s with
  | nil => exact .refl
  | cons a l ih => exact (h s a).trans ih

theorem apart_pktAdd {p : Packet} : apart (pktAdd s p).1 = apart s := rfl

theorem framed_pathSend {port tenant : Nat} {bytes : List Byte} : Framed s (pathSend s port tenant bytes) := by
  have hfresh : ∀ {u : State} {p : Packet}, p.sendFrom = none →
      ∀ p', pktOf (pktAdd u p).1 (pktAdd u p).2 = some p' → p'.sendFrom = none := fun hp p' hp' => by
    rw [pktAdd, pktOf, tget_tset_same] at hp'
    rw [← Option.some.inj hp', hp]
  constructor
  · simp only [pathSend, apart_enqueuePort, apart_pktAdd, addPkt, apart_addTo, countArrival, apart_tally]
  · simp only [pathSend]
    refine (enqueuePort_hif (hfresh ?_)).trans ?_
    · rfl
    · simp [pktAdd, addPkt, countArrival]

theorem framed_pduSend {roce : Bool} {tenant : Nat} {y : Path} {x : Pdu} : Framed s (pduSend roce tenant y s x) :=
  framed_foldl (fun u _ => .trans (u := (freshBytes 64 u).2) ⟨rfl, rfl⟩ framed_pathSend) _

end

end Sys2Proof.Machine

end

section
/-! Units to send on a path (R434): what their sending leaves, and the units of one path in turn. -/

namespace Sys2Proof.Machine

section
variable {s u w : State} {t p : Nat} {x : Target} {y : Path}

/-- A path and a target without what is to be sent. -/
def quietPath (y : Path) : Path := { y with sendQ := [], credit := 0 }
def quietTarget (x : Target) : Target := { x with paths := x.paths.map quietPath }

/-- What sending on a path changes: packets, and of the storage unit what is to be sent. -/
structure Posted (s u : State) : Prop where
  hif : u.hif = s.hif
  rest : apart u = { apart s with sto := u.sto }
  sto : u.sto = { s.sto with targets := u.sto.targets }
  target : ∀ t, (targetOf u t).map quietTarget = (targetOf s t).map quietTarget

theorem Posted.refl : Posted s s := ⟨rfl, rfl, rfl, fun _ => rfl⟩

theorem Posted.trans (h : Posted s u) (h' : Posted u w) : Posted s w where
  hif := h'.hif.trans h.hif
  rest := by rw [h'.rest, h.rest]
  sto := by rw [h'.sto, h.sto]
  target t := (h'.target t).trans (h.target t)

theorem Framed.posted (h : Framed s u) : Posted s u where
  hif := h.hif
  rest := by
    rw [h.apart, h.sto]
    rfl
  sto := by rw [h.sto]
  target _ := by rw [targetOf, targetOf, h.sto]

theorem posted_free {f : Nat} : Posted s { s with free := f } := ⟨rfl, rfl, rfl, fun _ => rfl⟩

theorem posted_pathMod {f : Path → Path} (hf : ∀ y, quietPath (f y) = quietPath y) : Posted s (pathMod s t p f) where
  hif := rfl
  rest := rfl
  sto := rfl
  target t' := by
    by_cases ht : t' = t
    · subst ht
      rw [pathMod, targetOf_targetMod_same, Option.map_map]
      refine congrArg (fun g => (targetOf s t').map g) (funext fun x => ?_)
      have hpaths : (x.paths.zipIdx.map (fun y => if y.2 = p then f y.1 else y.1)).map quietPath = x.paths.map quietPath := by
        refine List.ext_getElem? fun k => ?_
        rw [List.getElem?_map, paths_modified, List.getElem?_map]
        split
        · rw [Option.map_map]
          exact congrArg (fun g => x.paths[k]?.map g) (funext hf)
        · rfl
      simp only [Function.comp, quietTarget, hpaths]
    · rw [pathMod, targetOf_targetMod_other _ _ ht]

theorem posted_foldl {α : Type} {f : State → α → State} (h : ∀ u a, Posted u (f u a)) (l : List α) : Posted s (l.foldl f s) := by
  induction l generalizing s with
  | nil => exact .refl
  | cons a l ih => exact (h s a).trans ih

theorem posted_pathFlush : Posted s (pathFlush s t p) := by
  unfold pathFlush
  split
  next x y hx hy =>
    generalize pduSplit x.roce y.sendQ y.credit = d
    obtain ⟨now_, later, credit⟩ := d
    exact .trans (posted_pathMod (f := fun y => { y with sendQ := later, credit := if x.roce then credit else y.credit }) fun _ => rfl)
      (framed_foldl (fun _ _ => framed_pduSend) _).posted
  next => exact .refl

theorem posted_pathPost {l : List Pdu} : Posted s (pathPost s t p l) :=
  .trans (posted_pathMod (f := fun y => { y with sendQ := y.sendQ ++ l }) fun _ => rfl) posted_pathFlush

theorem posted_pathAdmin {op ns n dw : Nat} : Posted s (pathAdmin s t p op ns n dw) :=
  .trans (posted_free (f := (freshBytes 14 s).2.free)) posted_pathPost

theorem posted_pathIdentify {l : List W32} : Posted s (pathIdentify s t p l) :=
  .trans posted_pathAdmin (posted_foldl (fun _ _ => posted_pathAdmin) _)

/-! What is read of a path after it. -/

theorem pathAt_of_posted (h : Posted s u) : (pathAt u t p).map quietPath = (pathAt s t p).map quietPath := by
  have hpath : ∀ v : State, (pathAt v t p).map quietPath = ((targetOf v t).map quietTarget).bind (fun x => x.paths[p]?) := fun v => by
    rw [pathAt]
    cases targetOf v t with
    | none => rfl
    | some x => exact (List.getElem?_map (f := quietPath)).symm
  rw [hpath, hpath, h.target]

theorem pathLive_of_posted (h : Posted s u) : pathLive u t p = pathLive s t p := by
  have hlive : ∀ v : State, pathLive v t p = (((pathAt v t p).map quietPath).map (fun y => y.state == .live)).getD false := fun v => by
    rw [pathLive, Option.map_map]
    rfl
  rw [hlive, hlive, pathAt_of_posted h]

theorem pathServes_of_posted {ns : Namespace} (h : Posted s u) : pathServes u ns p = pathServes s ns p := by
  have hserves : ∀ v : State, pathServes v ns p = (pathLive v ns.target p &&
      (((pathAt v ns.target p).map quietPath).map (fun y => y.remotes.any (fun r =>
        r.nsid == ns.remoteNsid && r.lba4k == ns.lba4k && decide (ns.remoteOffset + ns.size ≤ r.size)))).getD false) := fun v => by
    rw [pathServes, Option.map_map]
    rfl
  rw [hserves, hserves, pathLive_of_posted h, pathAt_of_posted h]

theorem ctlOf_of_hif {i : Nat} (hhif : u.hif = s.hif) (hctls : u.sto.ctls = s.sto.ctls) : ctlOf u i = ctlOf s i := by
  have hfn : ctlFn u i = ctlFn s i := by rw [ctlFn, ctlFn, hhif]
  have hon : ∀ fn k, featOn u fn k = featOn s fn k := fun fn k => by rw [featOn, featOn, funcOf, funcOf, hhif]
  rw [ctlOf, ctlOf, hfn, hctls]
  simp only [hon]

/-! The units of a path in turn. -/

theorem pathFlush_of (hx : targetOf s t = some x) (hy : x.paths[p]? = some y) : pathFlush s t p =
    (pduSplit x.roce y.sendQ y.credit).1.foldl (pduSend x.roce x.tenant y) (pathMod s t p (fun y' => { y' with
      sendQ := (pduSplit x.roce y.sendQ y.credit).2.1
      credit := if x.roce then (pduSplit x.roce y.sendQ y.credit).2.2 else y'.credit })) := by
  have hat : pathAt s t p = some y := (pathAt_of_target hx).trans hy
  simp only [pathFlush, hx, hat]

end

end Sys2Proof.Machine

end

section
/-! Paths to storage targets (R429, R430, R434, R435, R438), an event of a path at a time. -/

namespace Sys2Proof.Machine

section
variable {s u w : State} {t p op ns n dw : Nat} {x : Target} {y : Path} {vwc : Bool} {remote : List RemoteNs}

/-! Capsules of the admin queue. -/

theorem targetRoce_of (hx : targetOf s t = some x) : targetRoce s t = x.roce := by rw [targetRoce, hx]; rfl

/-- The descriptor of a capsule takes at most 12 free bytes. -/
theorem capsuleSgl_take {roce : Bool} {fill : List Byte} : capsuleSgl roce (fill.take 12) n = capsuleSgl roce fill n := by
  have hslice : ∀ i m, i + m ≤ 12 → slice (fill.take 12) i m = slice fill i m := fun i m hm => by
    have hmin : min m (12 - i) = m := by omega
    simp only [slice, List.drop_take, List.take_take, hmin]
  simp only [capsuleSgl, hslice 0 8 (by decide), hslice 8 4 (by decide)]

theorem freshBytes_length {k : Nat} : (freshBytes k s).1.length = k := by simp [freshBytes]

theorem capsuleSent_pathAdmin (hroce : targetRoce s t = x.roce) :
    ∃ cid, Spec.capsuleSent s (pathAdmin s t p op ns n dw) x t p 0 op ns n cid (leBytes 4 dw) := by
  refine ⟨BitVec.ofNat 16 (leAt (freshBytes 14 s).1 12 2), (freshBytes 14 s).2.free, (freshBytes 14 s).1.take 12, ?_, ?_⟩
  · rw [List.length_take, freshBytes_length]
    decide
  · rw [capsuleSgl_take, ← hroce]
    rfl

/-! Attempts. -/

theorem pathConnect_of (hx : targetOf s t = some x) : ∃ (f : Nat) (fill : List Byte),
    fill.length = 30 * (x.ioQueues + 1) + 6 ∧ pathConnect s t p = pathPost { s with free := f } t p
      (connectPdus s x fill 0 ++ propertyPdus x (fill.drop (30 * (x.ioQueues + 1))) ++
        (List.range x.ioQueues).flatMap (fun i => connectPdus s x (fill.drop (30 * (i + 1))) (i + 1))) := by
  refine ⟨(freshBytes (30 * (x.ioQueues + 1) + 6) s).2.free, (freshBytes (30 * (x.ioQueues + 1) + 6) s).1, freshBytes_length, ?_⟩
  simp only [pathConnect, hx]
  rfl

theorem connectPdus_pathMod {f : Path → Path} {l : List Path} {fill : List Byte} {q : Nat} :
    connectPdus (pathMod s t p f) { x with paths := l } fill q = connectPdus s x fill q := rfl

theorem propertyPdus_paths {l : List Path} {fill : List Byte} : propertyPdus { x with paths := l } fill = propertyPdus x fill := rfl

theorem pathAttempt_due (hx : targetOf s t = some x) (hy : x.paths[p]? = some y) (hstate : y.state = .connecting)
    (hdue : y.attemptAt ≤ s.tmb.tick.toNat) : ∃ (f : Nat) (fill : List Byte),
      fill.length = 30 * (x.ioQueues + 1) + 6 ∧ pathAttempt s t p = pathPost { pathMod s t p (fun _ => { y with
          attempting := true, attemptAt := intervalStart s + y.backoff, backoff := min 6400000 (2 * y.backoff) }) with free := f } t p
        (connectPdus s x fill 0 ++ propertyPdus x (fill.drop (30 * (x.ioQueues + 1))) ++
          (List.range x.ioQueues).flatMap (fun i => connectPdus s x (fill.drop (30 * (i + 1))) (i + 1))) := by
  have hat : pathAt s t p = some y := (pathAt_of_target hx).trans hy
  have hgo : y.state = .connecting ∧ y.attemptAt ≤ now s := ⟨hstate, hdue⟩
  obtain ⟨f, fill, hlength, hconnect⟩ := pathConnect_of (p := p) (targetOf_pathMod (p := p)
    (f := fun _ => { y with attempting := true, attemptAt := intervalStart s + y.backoff, backoff := min 6400000 (2 * y.backoff) }) hx)
  simp only [connectPdus_pathMod, propertyPdus_paths] at hconnect
  refine ⟨f, fill, hlength, ?_⟩
  simp only [pathAttempt, hat]
  rw [if_pos hgo, pathMod_of hx hy]
  exact hconnect

theorem pathAttempt_not (hat : pathAt s t p = some y) (h : s.tmb.tick.toNat < y.attemptAt ∨ y.state ≠ .connecting) :
    pathAttempt s t p = s := by
  have hno : ¬(y.state = .connecting ∧ y.attemptAt ≤ now s) := fun ⟨hc, hle⟩ => h.elim (fun hlt => by
    rw [now] at hle
    omega) (fun hne => hne hc)
  simp only [pathAttempt, hat, hno, if_false]

/-! A path becomes LIVE. -/

/-- The state in which a path has become LIVE, before the device asks what its controller reports. -/
def livened (s : State) (t p : Nat) (y : Path) (vwc : Bool) (remote : List RemoteNs) : State :=
  targetMod (pathMod s t p (fun _ => { y with
      state := .live, attempting := false, backoff := 100000, pace := 2 ^ 32, keepAliveAt := intervalStart s + s.sto.nsLoss / 4
      remotes := remote })) t (fun x => { x with vwc := vwc, lostSince := none })

theorem pathUp_of (hx : targetOf s t = some x) (hy : x.paths[p]? = some y) (hstate : y.state = .connecting)
    (hattempting : y.attempting = true) {l : List (Nat × Namespace)}
    (hl : s.sto.namespaces.filter (fun e => e.2.valid && e.2.target == t) = l) :
    pathUp s t p vwc remote = (l.map (·.1)).foldl nsWaiters (ioRetry ((l.map (·.1)).foldl (pathCheck p)
      (pathIdentify (livened s t p y vwc remote) t p (l.map (fun e => e.2.remoteNsid))))) := by
  have hat : pathAt s t p = some y := (pathAt_of_target hx).trans hy
  have hgo : ¬(y.state ≠ .connecting ∨ (!y.attempting) = true) := by simp [hstate, hattempting]
  simp only [pathUp, hat, hgo, if_false, hl]
  rw [pathMod_of hx hy]
  rfl

theorem targetOf_livened (hx : targetOf s t = some x) : targetOf (livened s t p y vwc remote) t = some { x with
    paths := x.paths.zipIdx.map (fun z => if z.2 = p then { y with
      state := .live, attempting := false, backoff := 100000, pace := 2 ^ 32, keepAliveAt := intervalStart s + s.sto.nsLoss / 4
      remotes := remote } else z.1)
    vwc := vwc, lostSince := none } := by
  rw [livened, targetOf_targetMod_same, targetOf_pathMod hx]
  rfl

theorem ioRetry_none (h : s.sto.cmds = []) : ioRetry s = s := by rw [ioRetry, h]; rfl

theorem Posted.cmds (h : Posted s u) : u.sto.cmds = s.sto.cmds := by rw [h.sto]
theorem Posted.namespaces (h : Posted s u) : u.sto.namespaces = s.sto.namespaces := by rw [h.sto]
theorem Posted.ctls (h : Posted s u) : u.sto.ctls = s.sto.ctls := by rw [h.sto]

/-- Without a namespace of its target, a path that becomes LIVE sends Identify Controller. -/
theorem pathUp_alone (hx : targetOf s t = some x) (hy : x.paths[p]? = some y) (hstate : y.state = .connecting)
    (hattempting : y.attempting = true) (hcmds : s.sto.cmds = [])
    (hns : ∀ e ∈ s.sto.namespaces, e.2.valid = true → e.2.target ≠ t) :
    pathUp s t p vwc remote = pathAdmin (livened s t p y vwc remote) t p 0x06 0 4096 1 := by
  have hl : s.sto.namespaces.filter (fun e => e.2.valid && e.2.target == t) = [] := by
    refine List.filter_eq_nil_iff.mpr fun e he => ?_
    simp only [Bool.and_eq_true, beq_iff_eq, not_and]
    exact hns e he
  rw [pathUp_of hx hy hstate hattempting hl]
  exact ioRetry_none (posted_pathAdmin.cmds.trans hcmds)

/-! The check of a namespace. -/

theorem noticeSend_none {i : Nat} (h : ctlOf s i = none) : noticeSend s i = s := by simp only [noticeSend, h]

theorem ctlMod_none {i : Nat} {f : Controller → Controller} (h : ctlOf s i = none) : ctlMod s i f = s := by simp only [ctlMod, h]

theorem nsNotice_none {i k : Nat} (h : ctlOf s i = none) : nsNotice s i k = s := by
  rw [nsNotice, ctlMod_none h, noticeSend_none h]

theorem nsOf_nsMod_of {f : Namespace → Namespace} {a : Namespace} (h : tget s.sto.namespaces n = some a) :
    nsOf (nsMod s n f) n = f a := by
  simp only [nsOf, nsMod, stoMod, tadj, h, tgetD, tget_tset_same, Option.getD_some]

theorem nsOf_of {a : Namespace} (h : tget s.sto.namespaces n = some a) : nsOf s n = a := by
  rw [nsOf, tgetD, h]
  rfl

/-- A namespace of a function without a controller becomes READY or NOT_READY without a notice. -/
theorem nsReady_quiet {a : Namespace} {ready : Bool} (h : tget s.sto.namespaces n = some a) (hctl : ctlOf s a.fn = none) :
    nsOf (nsReady s n ready) n = { a with notReady := !ready } ∧
      (nsReady s n ready).sto.cmds = s.sto.cmds := by
  have hctl' : ctlOf (nsMod s n (fun x => { x with notReady := !ready })) a.fn = none :=
    (ctlOf_of_hif rfl rfl).trans hctl
  simp only [nsReady, nsOf_of h]
  split
  next hsame =>
    refine ⟨?_, rfl⟩
    rw [nsOf_of h]
    rw [← Bool.eq_not.mpr (bne_iff_ne.mp hsame)]
  next =>
    rw [nsNotice_none hctl']
    exact ⟨nsOf_nsMod_of h, rfl⟩

theorem nsWaiters_none (h : s.sto.cmds = []) : nsWaiters s n = s := by
  unfold nsWaiters
  split
  · rw [h]
    rfl
  · rfl

end

end Sys2Proof.Machine

end

section
/-! Paths to storage targets (R430, R434, R435, R438): the check of a namespace, the loss of a path, keep-alives and pacing. -/

namespace Sys2Proof.Machine

section
variable {s u w : State} {t p q op ns n dw : Nat} {x : Target} {y : Path} {vwc : Bool} {remote : List RemoteNs}

/-! What is read of a path. -/

theorem pathAt_targetMod {g : Target → Target} (h : ∀ x, (g x).paths = x.paths) : pathAt (targetMod s t g) t q = pathAt s t q := by
  rw [pathAt, targetOf_targetMod_same, pathAt]
  cases targetOf s t with
  | none => rfl
  | some x => exact congrArg (fun l : List Path => l[q]?) (h x)

theorem pathLive_of_at (h : pathAt u t q = pathAt s t q) : pathLive u t q = pathLive s t q := by rw [pathLive, pathLive, h]

theorem pathLive_eq (h : pathAt s t p = some y) : pathLive s t p = (y.state == .live) := by rw [pathLive, h]; rfl

theorem pathLive_of_live (h : pathAt s t p = some y) (hstate : y.state = .live) : pathLive s t p = true := by
  rw [pathLive_eq h, hstate]
  rfl

theorem pathLive_of_not (h : pathAt s t p = some y) (hstate : y.state ≠ .live) : pathLive s t p = false := by
  rw [pathLive_eq h]
  exact beq_eq_false_iff_ne.mpr hstate

theorem pathAt_livened (hx : targetOf s t = some x) (hy : x.paths[p]? = some y) :
    pathAt (livened s t p y vwc remote) t p = some { y with
      state := .live, attempting := false, backoff := 100000, pace := 2 ^ 32, keepAliveAt := intervalStart s + s.sto.nsLoss / 4
      remotes := remote } := by
  rw [livened, pathAt_targetMod (g := fun x => { x with vwc := vwc, lostSince := none }) (fun _ => rfl)]
  exact pathAt_pathMod_self hx hy

theorem pathLive_livened_other (hx : targetOf s t = some x) (hq : q ≠ p) :
    pathLive (livened s t p y vwc remote) t q = pathLive s t q := by
  refine pathLive_of_at ?_
  rw [livened, pathAt_targetMod (g := fun x => { x with vwc := vwc, lostSince := none }) (fun _ => rfl), pathAt_pathMod hx, if_neg hq]

/-- A namespace whose range a remote namespace covers, with its block size. -/
def remoteFits (a : Namespace) (remote : List RemoteNs) : Bool :=
  remote.any (fun r => r.nsid == a.remoteNsid && r.lba4k == a.lba4k && decide (a.remoteOffset + a.size ≤ r.size))

theorem pathServes_livened {a : Namespace} (hx : targetOf s t = some x) (hy : x.paths[p]? = some y) (ha : a.target = t) :
    pathServes (livened s t p y vwc remote) a p = remoteFits a remote := by
  subst ha
  rw [pathServes, pathLive_of_live (pathAt_livened hx hy) rfl, pathAt_livened hx hy]
  rfl

theorem pathServes_of_dead {a : Namespace} (h : pathLive s a.target p = false) : pathServes s a p = false := by
  rw [pathServes, h, Bool.false_and]

theorem reportHeld_hif : (reportHeld s).hif = s.hif := by
  unfold reportHeld
  split <;> rfl

theorem reportHeld_sto : (reportHeld s).sto = s.sto := by
  unfold reportHeld
  split <;> rfl

/-- The check of a namespace that its path serves alone or not at all (R430). -/
theorem pathCheck_alone {a : Namespace} (h : tget s.sto.namespaces n = some a) (hctl : ctlOf s a.fn = none)
    (hother : pathServes s a (1 - p) = false) :
    nsOf (pathCheck p s n) n = { a with notReady := !(pathServes s a p) } ∧ (pathCheck p s n).sto.cmds = s.sto.cmds := by
  simp only [pathCheck, nsOf_of h]
  cases hserves : pathServes s a p with
  | true => exact nsReady_quiet h hctl
  | false =>
    have hsto : (reportHeld (raiseFirmware s .storageNsMismatch (BitVec.ofNat 32 n))).sto = s.sto := reportHeld_sto.trans rfl
    have hctl' : ctlOf (reportHeld (raiseFirmware s .storageNsMismatch (BitVec.ofNat 32 n))) a.fn = none :=
      (ctlOf_of_hif (reportHeld_hif.trans rfl) (congrArg Sto.ctls hsto)).trans hctl
    have hget := (congrArg (fun x : Sto => tget x.namespaces n) hsto).trans h
    obtain ⟨hns, hcmds⟩ := nsReady_quiet (ready := false) hget hctl'
    rw [hother]
    exact ⟨hns, hcmds.trans (congrArg Sto.cmds hsto)⟩

/-- The one namespace of a path that becomes LIVE is READY as the path serves it. -/
theorem pathUp_namespace {a : Namespace} (hx : targetOf s t = some x) (hy : x.paths[p]? = some y) (hstate : y.state = .connecting)
    (hattempting : y.attempting = true) (hcmds : s.sto.cmds = []) (hns : s.sto.namespaces = [(n, a)]) (hvalid : a.valid = true)
    (ha : a.target = t) (hother : pathLive s t (1 - p) = false) (hp : 1 - p ≠ p) (hctl : ctlOf s a.fn = none) :
    nsOf (pathUp s t p vwc remote) n = { a with notReady := !remoteFits a remote } := by
  have hl : s.sto.namespaces.filter (fun e => e.2.valid && e.2.target == t) = [(n, a)] := by
    rw [hns]
    simp [hvalid, ha]
  rw [pathUp_of hx hy hstate hattempting hl]
  obtain ⟨v, hv⟩ : ∃ v, pathIdentify (livened s t p y vwc remote) t p ([(n, a)].map (fun e => e.2.remoteNsid)) = v := ⟨_, rfl⟩
  rw [hv]
  have hposted : Posted (livened s t p y vwc remote) v := hv ▸ posted_pathIdentify
  have hget : tget v.sto.namespaces n = some a := by
    rw [hposted.namespaces]
    change tget s.sto.namespaces n = some a
    simp [hns, tget]
  have hserves : pathServes v a p = remoteFits a remote :=
    (pathServes_of_posted hposted).trans (pathServes_livened hx hy ha)
  have hdead : pathServes v a (1 - p) = false := by
    refine pathServes_of_dead ?_
    rw [ha, pathLive_of_posted hposted, pathLive_livened_other hx hp, hother]
  have hctl' : ctlOf v a.fn = none := (ctlOf_of_hif (hposted.hif.trans rfl) (hposted.ctls.trans rfl)).trans hctl
  obtain ⟨hready, hnone⟩ := pathCheck_alone hget hctl' hdead
  have hempty : (pathCheck p v n).sto.cmds = [] := hnone.trans (hposted.cmds.trans hcmds)
  simp only [List.map_cons, List.map_nil, List.foldl_cons, List.foldl_nil]
  rw [ioRetry_none hempty, nsWaiters_none hempty, hready, hserves]

/-! The loss of a path. -/

/-- The state in which a path was lost and reported. -/
def pathLost (s : State) (t p : Nat) (y : Path) : State :=
  raiseFirmware (targetMod (pathMod s t p (fun _ => { y with state := .failed, attempting := false, sendQ := [], remotes := [] })) t
    (fun x => { x with failures := wrapInc x.failures })) .storagePathDown (BitVec.ofNat 32 t)

theorem pathDown_of (hx : targetOf s t = some x) (hy : x.paths[p]? = some y) (hstate : y.state = .live)
    (hrun : collectorRuns s = true) : pathDown s t p = if pathLive (pathLost s t p y) t (1 - p) then pathLost s t p y else
      ((targetMod (pathLost s t p y) t (fun x => { x with lostSince := some (intervalStart s) })).sto.cmds.filter
        (fun c => c.stage == .sent && !c.orphan && c.sentTo.any (fun x => x.1 == t))).foldl (fun s c => ioFail s c 11)
        (targetMod (pathLost s t p y) t (fun x => { x with lostSince := some (intervalStart s) })) := by
  have hlive : pathLive s t p = true := pathLive_of_live ((pathAt_of_target hx).trans hy) hstate
  have hheld : reportHeld (pathLost s t p y) = pathLost s t p y := reportHeld_of_running hrun
  unfold pathLost at hheld ⊢
  simp only [pathDown, hlive, Bool.not_true, Bool.false_eq_true, if_false]
  rw [pathMod_of hx hy, hheld]
  rfl

theorem pathDown_dead (h : pathLive s t p = false) : pathDown s t p = s := by
  simp only [pathDown, h, Bool.not_false, if_true]

theorem pathAt_pathLost (hx : targetOf s t = some x) (hy : x.paths[p]? = some y) : pathAt (pathLost s t p y) t p =
    some { y with state := .failed, attempting := false, sendQ := [], remotes := [] } :=
  (pathAt_targetMod (g := fun x => { x with failures := wrapInc x.failures }) (fun _ => rfl)).trans (pathAt_pathMod_self hx hy)

theorem pathLive_pathLost_other (hx : targetOf s t = some x) (hq : q ≠ p) : pathLive (pathLost s t p y) t q = pathLive s t q := by
  refine pathLive_of_at ((pathAt_targetMod (g := fun x => { x with failures := wrapInc x.failures }) (fun _ => rfl)).trans ?_)
  rw [pathAt_pathMod hx, if_neg hq]

theorem targetOf_pathLost (hx : targetOf s t = some x) :
    ∃ x', targetOf (pathLost s t p y) t = some x' ∧ x'.failures = x.failures + 1 := by
  refine ⟨_, Eq.trans (targetOf_targetMod_same _ _ _) (congrArg (Option.map _) (targetOf_pathMod hx)), rfl⟩

theorem pathDown_other (hx : targetOf s t = some x) (hy : x.paths[p]? = some y) (hstate : y.state = .live)
    (hrun : collectorRuns s = true) (hother : pathLive s t (1 - p) = true) (hp : 1 - p ≠ p) :
    pathDown s t p = pathLost s t p y := by
  rw [pathDown_of hx hy hstate hrun, if_pos]
  rw [pathLive_pathLost_other hx hp, hother]

theorem pathDown_last (hx : targetOf s t = some x) (hy : x.paths[p]? = some y) (hstate : y.state = .live)
    (hrun : collectorRuns s = true) (hother : pathLive s t (1 - p) = false) (hp : 1 - p ≠ p) (hcmds : s.sto.cmds = []) :
    pathDown s t p = targetMod (pathLost s t p y) t (fun x => { x with lostSince := some (intervalStart s) }) := by
  have hempty : (targetMod (pathLost s t p y) t (fun x => { x with lostSince := some (intervalStart s) })).sto.cmds = [] := hcmds
  rw [pathDown_of hx hy hstate hrun, if_neg, hempty]
  · rfl
  · rw [pathLive_pathLost_other hx hp, hother]
    exact Bool.false_ne_true

/-! Keep-alives. -/

theorem keepAlive_due (hx : targetOf s t = some x) (hy : x.paths[p]? = some y) (hstate : y.state = .live)
    (hdue : y.keepAliveAt ≤ s.tmb.tick.toNat) : keepAlive s t p =
      pathAdmin (pathMod s t p (fun _ => { y with keepAliveAt := intervalStart s + s.sto.nsLoss / 4 })) t p 0x18 0 0 0 := by
  have hat : pathAt s t p = some y := (pathAt_of_target hx).trans hy
  have hgo : y.state = .live ∧ y.keepAliveAt ≤ now s := ⟨hstate, hdue⟩
  simp only [keepAlive, hat]
  rw [if_pos hgo, pathMod_of hx hy]

theorem keepAlive_not (hat : pathAt s t p = some y) (h : ¬(y.state = .live ∧ y.keepAliveAt ≤ s.tmb.tick.toNat)) :
    keepAlive s t p = s := by
  simp only [keepAlive, hat]
  exact if_neg h

/-! The units of a path, and which of them go now. -/

theorem pduSplit_held {l : List Pdu} {c : Int} (h : c ≤ 0) : pduSplit true l c = ([], l, c) := by
  cases l <;> simp [pduSplit, h]

theorem pduSplit_tcp {l : List Pdu} {c : Int} : (pduSplit false l c).1 = l ∧ (pduSplit false l c).2.1 = [] := by
  induction l generalizing c with
  | nil => exact ⟨rfl, rfl⟩
  | cons a l ih =>
    obtain ⟨hnow, hlater⟩ := ih (c := c - a.bytes.length)
    simp [pduSplit, hnow, hlater]

/-- Units of a RoCE v2 path without credit wait. -/
theorem pathPost_held {l : List Pdu} (hx : targetOf s t = some x) (hy : x.paths[p]? = some y) (hroce : x.roce = true)
    (hcredit : y.credit ≤ 0) : pathPost s t p l = pathMod s t p (fun _ => { y with sendQ := y.sendQ ++ l }) := by
  have hx' := targetOf_pathMod (f := fun y => { y with sendQ := y.sendQ ++ l }) (p := p) hx
  have hy' : (x.paths.zipIdx.map (fun z => if z.2 = p then { z.1 with sendQ := z.1.sendQ ++ l } else z.1))[p]? =
      some { y with sendQ := y.sendQ ++ l } := by
    rw [paths_modified (f := fun y => { y with sendQ := y.sendQ ++ l }), if_pos rfl, hy]
    rfl
  rw [pathPost, pathFlush_of hx' hy', pathMod_pathMod hx, pathMod_of hx hy]
  simp only [hroce, pduSplit_held hcredit, List.foldl_nil, if_true]

/-- Units of an NVMe/TCP path that waits with none go at once. -/
theorem pathPost_tcp {l : List Pdu} (hx : targetOf s t = some x) (hy : x.paths[p]? = some y) (hroce : x.roce = false)
    (hnone : y.sendQ = []) : pathPost s t p l = l.foldl (pduSend false x.tenant { y with sendQ := l }) (pathMod s t p (fun _ => y)) := by
  have hx' := targetOf_pathMod (f := fun y => { y with sendQ := y.sendQ ++ l }) (p := p) hx
  have hy' : (x.paths.zipIdx.map (fun z => if z.2 = p then { z.1 with sendQ := z.1.sendQ ++ l } else z.1))[p]? =
      some { y with sendQ := l } := by
    rw [paths_modified (f := fun y => { y with sendQ := y.sendQ ++ l }), if_pos rfl, hy, Option.map_some, hnone, List.nil_append]
  have hkept : ∀ y : Path, y.sendQ = [] → { y with sendQ := [] } = y := fun y hy => by rw [← hy]
  rw [pathPost, pathFlush_of hx' hy', pathMod_pathMod hx, pathMod_of hx hy]
  simp only [hroce, pduSplit_tcp, Bool.false_eq_true, if_false, hkept y hnone]

/-- A unit that one frame holds. -/
theorem pduSend_frame {roce : Bool} {tenant : Nat} {a : Pdu} (hlength : 0 < a.bytes.length) (hshort : a.bytes.length ≤ 1418)
    (hport : ∀ q, portOf s y.port = some q → 1518 ≤ q.cfg.maxFrame) : ∃ (f : Nat) (fill : List Byte), fill.length = 64 ∧
      pduSend roce tenant y s a = pathSend { s with free := f } y.port tenant (pathFrame roce y a.op a.bytes fill) := by
  refine ⟨(freshBytes 64 s).2.free, (freshBytes 64 s).1, freshBytes_length, ?_⟩
  have hcap : 1418 ≤ pathPayload (((portOf s y.port).map (·.cfg.maxFrame)).getD 1518) := by
    cases hq : portOf s y.port with
    | none => decide
    | some q =>
      have := hport q hq
      simp only [Option.map_some, Option.getD_some, pathPayload]
      omega
  simp only [pduSend]
  generalize pathPayload (((portOf s y.port).map (·.cfg.maxFrame)).getD 1518) = cap at hcap
  have hone : cdiv a.bytes.length cap = 1 := by
    rw [cdiv]
    exact Nat.div_eq_of_lt_le (by omega) (by omega)
  rw [hone, chunks, chunks, List.take_of_length_le (by omega)]
  rfl

theorem length_leBytes {k v : Nat} : (leBytes k v).length = k := by
  induction k generalizing v with
  | zero => rfl
  | succ k ih => rw [leBytes, List.length_cons, ih]

theorem capsulePdu_length {roce : Bool} {queue opc nsid : Nat} {cid : W16} {sgl dwords : List Byte} (h : sgl.length = 16) :
    (capsulePdu roce queue (capsuleOf opc nsid cid sgl dwords)).bytes.length = if roce then 64 else 72 := by
  cases roce <;> simp [capsulePdu, capsuleOf, h, length_leBytes, slice_length, zeroBytes]

end

end Sys2Proof.Machine

end

section
/-! The paths of storage targets: their obligation. -/

namespace Sys2Proof.Machine

section
variable {s : State} {t : Fin 1024} {p : Fin 2} {x : Target} {y : Path} {vwc : Bool} {remote : List RemoteNs}

theorem other_path_ne : 1 - p.val ≠ p.val := by omega

/-- The unit of a keep-alive. -/
def aliveUnit (roce : Bool) (cid : W16) : Pdu := capsulePdu roce 0 (capsuleOf 0x18 0 cid (zeroBytes 16) (leBytes 4 0))

theorem pathAdmin_unit {u : State} {t p : Nat} (hroce : targetRoce u t = x.roce) :
    ∃ (f : Nat) (cid : W16), pathAdmin u t p 0x18 0 0 0 = pathPost { u with free := f } t p [aliveUnit x.roce cid] := by
  refine ⟨(freshBytes 14 u).2.free, BitVec.ofNat 16 (leAt (freshBytes 14 u).1 12 2), ?_⟩
  rw [← hroce]
  rfl

theorem targetRoce_pathMod {s : State} {t p : Nat} {f : Path → Path} (hx : targetOf s t = some x) :
    targetRoce (pathMod s t p f) t = x.roce := (targetRoce_of (targetOf_pathMod hx)).trans rfl

theorem targetRoce_livened {s : State} {t p : Nat} (hx : targetOf s t = some x) :
    targetRoce (livened s t p y vwc remote) t = x.roce := (targetRoce_of (targetOf_livened hx)).trans rfl

/-- The path of a target after a change of it. -/
theorem path_changed {s : State} {t p : Nat} {f : Path → Path} (hx : targetOf s t = some x) (hy : x.paths[p]? = some y) :
    Spec.pathOf (pathMod s t p f) t p = some (f y) := pathAt_pathMod_self hx hy

theorem modified_getElem {s : State} {t p : Nat} {z : Path} (hx : targetOf s t = some x) (hy : x.paths[p]? = some y) :
    ∃ x', targetOf (pathMod s t p (fun _ => z)) t = some x' ∧ x'.roce = x.roce ∧ x'.tenant = x.tenant ∧ x'.paths[p]? = some z := by
  refine ⟨_, targetOf_pathMod hx, rfl, rfl, ?_⟩
  rw [paths_modified (f := fun _ => z), if_pos rfl, hy]
  rfl

/-- A keep-alive of a RoCE v2 path without credit waits (R434). -/
theorem keepAlive_waits {s : State} {t p : Nat} (hx : targetOf s t = some x) (hy : x.paths[p]? = some y) (hstate : y.state = .live)
    (hdue : y.keepAliveAt ≤ s.tmb.tick.toNat) (hroce : x.roce = true) (hcredit : y.credit ≤ 0) : ∃ cid,
      Spec.pathOf (keepAlive s t p) t p = some { y with
        keepAliveAt := intervalStart s + s.sto.nsLoss / 4, sendQ := y.sendQ ++ [aliveUnit x.roce cid] } ∧
      (keepAlive s t p).crb = s.crb ∧ (keepAlive s t p).sch = s.sch := by
  obtain ⟨x', hx', hroce', _, hy'⟩ := modified_getElem (z := { y with keepAliveAt := intervalStart s + s.sto.nsLoss / 4 }) hx hy
  obtain ⟨f, cid, hunit⟩ := pathAdmin_unit (p := p) (targetRoce_of hx')
  refine ⟨cid, ?_⟩
  rw [keepAlive_due hx hy hstate hdue, hunit, pathPost_held (s := { pathMod s t p _ with free := f }) hx' hy' (hroce'.trans hroce) hcredit,
    hroce']
  exact ⟨path_changed (s := { pathMod s t p _ with free := f }) hx' hy', rfl, rfl⟩

/-- A keep-alive of an NVMe/TCP path that waits with nothing is one frame. -/
theorem keepAlive_frame {s : State} {t p : Nat} (hx : targetOf s t = some x) (hy : x.paths[p]? = some y) (hstate : y.state = .live)
    (hdue : y.keepAliveAt ≤ s.tmb.tick.toNat) (hroce : x.roce = false) (hnone : y.sendQ = [])
    (hport : ∀ q, portOf s y.port = some q → 1518 ≤ q.cfg.maxFrame) :
    ∃ (cid : W16) (f : Nat) (fill : List Byte), fill.length = 64 ∧ keepAlive s t p =
      pathSend { pathMod s t p (fun _ => { y with keepAliveAt := intervalStart s + s.sto.nsLoss / 4 }) with free := f } y.port x.tenant
        (pathFrame false y 4 (aliveUnit x.roce cid).bytes fill) := by
  obtain ⟨x', hx', hroce', htenant, hy'⟩ := modified_getElem (z := { y with keepAliveAt := intervalStart s + s.sto.nsLoss / 4 }) hx hy
  obtain ⟨f, cid, hunit⟩ := pathAdmin_unit (p := p) (targetRoce_of hx')
  have hlength : (aliveUnit x'.roce cid).bytes.length = 72 := by
    rw [hroce', hroce]
    exact capsulePdu_length List.length_replicate
  have hkept : pathMod { pathMod s t p (fun _ => { y with keepAliveAt := intervalStart s + s.sto.nsLoss / 4 }) with free := f } t p
      (fun _ => { y with keepAliveAt := intervalStart s + s.sto.nsLoss / 4 }) =
      { pathMod s t p (fun _ => { y with keepAliveAt := intervalStart s + s.sto.nsLoss / 4 }) with free := f } :=
    congrArg (fun u : State => { u with free := f }) (pathMod_pathMod (p := p)
      (f := fun _ => { y with keepAliveAt := intervalStart s + s.sto.nsLoss / 4 })
      (g := fun _ => { y with keepAliveAt := intervalStart s + s.sto.nsLoss / 4 }) hx)
  obtain ⟨f', fill, hfill, hframe⟩ := pduSend_frame (roce := false) (tenant := x'.tenant) (a := aliveUnit x'.roce cid)
    (s := { pathMod s t p (fun _ => { y with keepAliveAt := intervalStart s + s.sto.nsLoss / 4 }) with free := f })
    (y := { y with keepAliveAt := intervalStart s + s.sto.nsLoss / 4, sendQ := [aliveUnit x'.roce cid] })
    (by omega) (by omega) hport
  refine ⟨cid, f', fill, hfill, ?_⟩
  rw [keepAlive_due hx hy hstate hdue, hunit, pathPost_tcp (s := { pathMod s t p _ with free := f }) hx' hy' (hroce'.trans hroce) hnone,
    List.foldl_cons, List.foldl_nil, hkept, hframe, htenant, hroce']
  rfl

/-! Pacing. -/

theorem rocePath_of {s : State} {t p : Nat} (hx : targetOf s t = some x) (hy : x.paths[p]? = some y) (hstate : y.state = .live)
    (hroce : x.roce = true) : rocePath s t p = true := by
  rw [rocePath, pathLive_of_live ((pathAt_of_target hx).trans hy) hstate, targetRoce_of hx, hroce]
  rfl

theorem rocePath_dead {s : State} {t p : Nat} (h : pathLive s t p = false) : rocePath s t p = false := by
  rw [rocePath, h, Bool.false_and]

theorem paceRecover_path {s : State} {t p : Nat} (hx : targetOf s t = some x) (hy : x.paths[p]? = some y) (hstate : y.state = .live)
    (hroce : x.roce = true) : Spec.pathOf (paceRecover s t p) t p = some (if y.paceAt ≤ now s then
      { y with pace := min (2 ^ 32) (y.pace + 2 ^ 28), paceAt := intervalStart s + 64 } else y) := by
  rw [paceRecover, if_pos (rocePath_of hx hy hstate hroce)]
  exact path_changed hx hy

/-! The loss of a namespace. -/

theorem nsLoss_due {s : State} {n l : Nat} {a : Namespace} (ha : tget s.sto.namespaces n = some a) (hvalid : a.valid = true)
    (hx : targetOf s a.target = some x) (hl : x.lostSince = some l) (hcmds : s.sto.cmds = []) (hctl : ctlOf s a.fn = none)
    (hdue : l + s.sto.nsLoss ≤ s.tmb.tick.toNat) : nsOf (nsLoss s n) n = { a with notReady := true } := by
  have hdecide : (a.valid && decide (l + s.sto.nsLoss ≤ now s)) = true := by
    rw [hvalid, Bool.true_and]
    exact decide_eq_true hdue
  obtain ⟨hready, hnone⟩ := nsReady_quiet (ready := false) ha hctl
  simp only [nsLoss, nsOf_of ha, hx, Option.bind_some, hl]
  rw [if_pos hdecide, nsWaiters_none (hnone.trans hcmds), hready]
  rfl

theorem nsLoss_early {s : State} {n l : Nat} {a : Namespace} (ha : tget s.sto.namespaces n = some a)
    (hx : targetOf s a.target = some x) (hl : x.lostSince = some l) (hearly : s.tmb.tick.toNat < l + s.sto.nsLoss) :
    nsLoss s n = s := by
  have hdecide : (a.valid && decide (l + s.sto.nsLoss ≤ now s)) = false := by
    have hlate : ¬l + s.sto.nsLoss ≤ now s := Nat.not_le.mpr hearly
    rw [decide_eq_false hlate, Bool.and_false]
  simp only [nsLoss, nsOf_of ha, hx, Option.bind_some, hl, hdecide, Bool.false_eq_true, if_false]

/-! The clauses of a path. -/

theorem storagePaths_path (hx : targetOf s t.val = some x) (hy : x.paths[p.val]? = some y) :
    let now := s.tmb.tick.toNat
    let start := intervalStart s
    let becomes := fun (y' : Path) => pathMod s t.val p.val (fun _ => y')
    (y.state = .live → collectorRuns s = true → pathLive s t.val (1 - p.val) = true →
      Spec.runs (.storagePathDown t p) s (fun u => Spec.pathOf u t.val p.val = some { y with
          state := .failed, attempting := false, sendQ := [], remotes := [] } ∧
        (∃ x', targetOf u t.val = some x' ∧ x'.failures = x.failures + 1) ∧
        ∃ r, u.flt.inbox = s.flt.inbox ++ [r] ∧ r.cls = .storagePathDown ∧ r.subj = BitVec.ofNat 32 t.val)) ∧
    (y.state = .live → y.keepAliveAt ≤ now →
      let y' := { y with keepAliveAt := start + s.sto.nsLoss / 4 }
      Spec.runs (.keepAliveSend t p) s (fun u => ∃ cid, Spec.capsuleSent (becomes y') u x t.val p.val 0 0x18 0 0 cid (leBytes 4 0)) ∧
      (x.roce = true → y.credit ≤ 0 → Spec.runs (.keepAliveSend t p) s (fun u => ∃ cid,
        Spec.pathOf u t.val p.val = some { y' with sendQ := y.sendQ ++ [aliveUnit x.roce cid] } ∧ u.crb = s.crb ∧ u.sch = s.sch)) ∧
      (x.roce = false → y.sendQ = [] → (∀ q, portOf s y.port = some q → 1518 ≤ q.cfg.maxFrame) →
        Spec.runs (.keepAliveSend t p) s (fun u => ∃ cid, ∃ (f : Nat) (fill : List Byte), fill.length = 64 ∧
          u = pathSend { becomes y' with free := f } y.port x.tenant (pathFrame false y 4 (aliveUnit x.roce cid).bytes fill)))) ∧
    (y.state = .live → collectorRuns s = true → pathLive s t.val (1 - p.val) = false → s.sto.cmds = [] →
      Spec.runs (.storagePathDown t p) s (fun u => ∃ x', targetOf u t.val = some x' ∧ x'.failures = x.failures + 1 ∧
        x'.lostSince = some start)) ∧
    (y.state ≠ .live → exec (.storagePathDown t p) s = .next s ∧ exec (.keepAliveSend t p) s = .next s ∧
      exec (.cnpRx t p) s = .next s ∧ exec (.pacingRecovery t p) s = .next s) ∧
    (y.state = .live → now < y.keepAliveAt → exec (.keepAliveSend t p) s = .next s) ∧
    (y.state = .live → x.roce = true →
      Spec.runs (.cnpRx t p) s (fun u => Spec.pathOf u t.val p.val = some { y with pace := y.pace / 2, paceAt := start + 64 }) ∧
      (y.paceAt ≤ now → Spec.runs (.pacingRecovery t p) s (fun u => Spec.pathOf u t.val p.val = some { y with
        pace := min (2 ^ 32) (y.pace + 2 ^ 28), paceAt := start + 64 })) ∧
      (now < y.paceAt → Spec.runs (.pacingRecovery t p) s (fun u => Spec.pathOf u t.val p.val = some y))) := by
  have hat : pathAt s t.val p.val = some y := (pathAt_of_target hx).trans hy
  refine ⟨fun hstate hrun hother => ⟨_, congrArg Host.Outcome.next (pathDown_other hx hy hstate hrun hother other_path_ne),
      pathAt_pathLost hx hy, targetOf_pathLost hx, _, rfl, rfl, rfl⟩, fun hstate hdue => ⟨?_, ?_, ?_⟩,
    fun hstate hrun hother hcmds => ?_, fun hstate => ?_, fun _ hearly => ?_, fun hstate hroce => ⟨?_, fun hdue => ?_, fun hearly => ?_⟩⟩
  · exact ⟨_, congrArg Host.Outcome.next (keepAlive_due hx hy hstate hdue), capsuleSent_pathAdmin (targetRoce_pathMod hx)⟩
  · exact fun hroce hcredit => ⟨_, rfl, keepAlive_waits (y := y) hx hy hstate hdue hroce hcredit⟩
  · exact fun hroce hnone hport => ⟨_, rfl, keepAlive_frame hx hy hstate hdue hroce hnone hport⟩
  · obtain ⟨x', hx', hfailures⟩ := targetOf_pathLost (p := p.val) (y := y) hx
    refine ⟨_, congrArg Host.Outcome.next (pathDown_last hx hy hstate hrun hother other_path_ne hcmds),
      { x' with lostSince := some (intervalStart s) }, ?_, hfailures, rfl⟩
    rw [targetOf_targetMod_same, hx']
    rfl
  · have hdead := pathLive_of_not hat hstate
    exact ⟨congrArg Host.Outcome.next (pathDown_dead hdead),
      congrArg Host.Outcome.next (keepAlive_not hat fun h => hstate h.1),
      congrArg Host.Outcome.next (if_neg (Bool.eq_false_iff.mp (rocePath_dead hdead))),
      congrArg Host.Outcome.next (if_neg (Bool.eq_false_iff.mp (rocePath_dead hdead)))⟩
  · exact congrArg Host.Outcome.next (keepAlive_not hat fun h => by omega)
  · exact ⟨_, congrArg Host.Outcome.next (if_pos (rocePath_of hx hy hstate hroce)), path_changed hx hy⟩
  · exact ⟨_, rfl, (paceRecover_path hx hy hstate hroce).trans (congrArg some (if_pos hdue))⟩
  · exact ⟨_, rfl, (paceRecover_path hx hy hstate hroce).trans (congrArg some (if_neg (Nat.not_le.mpr hearly)))⟩

end

end Sys2Proof.Machine

open Sys2Proof Sys2Proof.Machine in
/-- Settles O44: what a path sends changes packets and its own waiting units alone (`Posted`), so the check of a namespace after it
reads the path as it became LIVE. -/
theorem storagePaths : Obligations.StoragePaths := by
  unfold Obligations.StoragePaths
  refine ⟨fun s t p x y hx hy => ⟨fun hstate hdue => ⟨_, rfl, pathAttempt_due hx hy hstate hdue⟩,
    fun h => congrArg Host.Outcome.next (pathAttempt_not ((pathAt_of_target hx).trans hy) h),
    fun vwc remote hstate hattempting hcmds => ⟨fun hns => ?_, fun n ns hns hvalid ha hother hctl => ?_⟩, storagePaths_path hx hy⟩,
    fun s n x y l ha hvalid hx hl hcmds _ hctl => ⟨fun hdue => ⟨_, rfl, nsLoss_due ha hvalid hx hl hcmds hctl hdue⟩,
      fun hearly => congrArg Host.Outcome.next (nsLoss_early ha hx hl hearly)⟩⟩
  · exact ⟨_, congrArg Host.Outcome.next (pathUp_alone hx hy hstate hattempting hcmds hns),
      capsuleSent_pathAdmin (targetRoce_livened hx)⟩
  · exact ⟨_, rfl, pathUp_namespace hx hy hstate hattempting hcmds hns hvalid ha hother other_path_ne hctl⟩

end

section
/-! Completions of a storage function's controller (R427, R437, R440): the entry that is written, and what counts beside it. -/

namespace Sys2Proof.Machine

section
variable {s u : State} {i sqid cid st dw n : Nat} {c k : Controller} {q : NvmeSq} {w : NvmeCq} {d : IoCmd}

theorem ctlOf_stoMod {f : Sto → Sto} (h : (f s.sto).ctls = s.sto.ctls) : ctlOf (stoMod s f) i = ctlOf s i := ctlOf_of_hif rfl h

/-- A controller after a change of it. -/
theorem ctlOf_ctlMod {f : Controller → Controller} (h : ctlOf s i = some c) : ctlOf (ctlMod s i f) i = some (f c) := by
  have hfn : ∀ g, ctlFn (stoMod s g) i = ctlFn s i := fun _ => rfl
  have hfeat : ∀ g fn k, featOn (stoMod s g) fn k = featOn s fn k := fun _ _ _ => rfl
  simp only [ctlMod, h]
  rw [ctlOf] at h ⊢
  rw [hfn]
  cases hs : ctlFn s i with
  | none => simp [hs] at h
  | some fn =>
    simp only [hs, hfeat] at h ⊢
    split at h
    next hon =>
      rw [if_pos hon]
      exact congrArg some (tgetD_tset_same _ _ _ _)
    next => exact absurd h.symm (Option.some_ne_none c)

theorem ctlMod_of {f : Controller → Controller} (h : ctlOf s i = some c) :
    ctlMod s i f = { s with sto := { s.sto with ctls := tset s.sto.ctls i (f c) } } := by
  simp only [ctlMod, h]
  rfl

@[simp] theorem ctlMod_out {f : Controller → Controller} : (ctlMod s i f).out = s.out := by
  unfold ctlMod
  split <;> rfl

@[simp] theorem ctlMod_cmds {f : Controller → Controller} : (ctlMod s i f).sto.cmds = s.sto.cmds := by
  unfold ctlMod
  split <;> rfl

theorem fnRuns_of_hif {fn : Nat} (h : u.hif = s.hif) : fnRuns u fn = fnRuns s fn := by
  simp only [fnRuns, epRuns, inD3, busMasters, endpointOf, funcOf, h]

/-- What a controller's completion needs lies in the host interface and the controllers. -/
theorem canAnswer_of (hhif : u.hif = s.hif) (hctls : u.sto.ctls = s.sto.ctls) (h : Spec.canAnswer s i c sqid q w) :
    Spec.canAnswer u i c sqid q w := by
  obtain ⟨hctl, hposts, hsq, hcq, hroom, hruns⟩ := h
  exact ⟨(ctlOf_of_hif hhif hctls).trans hctl, hposts, hsq, hcq, hroom, (fnRuns_of_hif hhif).trans hruns⟩

theorem cqInterrupt_keeps {o : Out} {fn : Nat} (h : o ∈ s.out) :
    o ∈ (cqInterrupt s fn w).out ∧ (cqInterrupt s fn w).sto = s.sto := by
  have hsto : ∀ v, (msix s fn v).sto = s.sto := fun v => by
    unfold msix
    (repeat' split) <;> rfl
  unfold cqInterrupt
  split
  · exact ⟨mem_out_msix h, hsto _⟩
  · exact ⟨h, rfl⟩

theorem interrupted_keeps {o : Out} {fn : Nat} {due : Bool} {l : List IoCmd} (h : o ∈ s.out) (hl : s.sto.cmds = l) :
    o ∈ (if due then cqInterrupt s fn w else s).out ∧ (if due then cqInterrupt s fn w else s).sto.cmds = l := by
  cases due with
  | false => exact ⟨h, hl⟩
  | true =>
    obtain ⟨hthere, hkept⟩ := cqInterrupt_keeps (w := w) (fn := fn) h
    exact ⟨hthere, (congrArg Sto.cmds hkept).trans hl⟩

/-- A completion of a controller that can answer is written to its queue. -/
theorem nvmeComplete_answers (h : Spec.canAnswer s i c sqid q w) :
    Spec.answeredAs (nvmeComplete s i sqid cid st dw) c w sqid cid st dw q.head ∧
      (nvmeComplete s i sqid cid st dw).sto.cmds = s.sto.cmds := by
  obtain ⟨hctl, hposts, hsq, hcq, hroom, hruns⟩ := h
  obtain ⟨c', hc'⟩ : ∃ c', { c with posts := [{ sqid := sqid, cid := cid, status := st, dw0 := dw }] } = c' := ⟨_, rfl⟩
  obtain ⟨v, hv⟩ : ∃ v, ctlMod s i (fun c => { c with posts := c.posts ++ [{ sqid := sqid, cid := cid, status := st, dw0 := dw }] }) = v :=
    ⟨_, rfl⟩
  have hctl' : ctlOf v i = some c' := by
    rw [← hv, ctlOf_ctlMod hctl, hposts, List.nil_append, hc']
  have hsto : v.sto.cmds = s.sto.cmds := by
    rw [← hv, ctlMod_of hctl]
  have hruns' : fnRuns v c'.fn.toNat = true := by
    rw [← hv, ctlMod_of hctl, ← hc']
    exact hruns
  have hnext : postNext c' = some ({ sqid := sqid, cid := cid, status := st, dw0 := dw }, q, w) := by
    simp [postNext, ← hc', hsq, hcq, hroom]
  have hlength : (((ctlOf v i).map (fun c => c.posts.length)).getD 0) = 1 := by
    rw [hctl', ← hc']
    rfl
  have hengine : sqEngine c' sqid = sqEngine c sqid := by rw [← hc']; rfl
  have hfn : c'.fn = c.fn := by rw [← hc']
  rw [nvmeComplete, hv, postAll, hlength, Spec.answeredAs]
  simp only [postFlush, hctl', hnext, hruns', Bool.not_true, Bool.false_eq_true, if_false]
  rw [hengine, hfn]
  refine interrupted_keeps ?_ (ctlMod_cmds.trans hsto)
  rw [ctlMod_out]
  exact List.mem_cons_self

/-! What stands between a command's end and its completion. -/

theorem answeredAs_of {m : Nat} (hfn : k.fn = c.fn) (hsqs : k.sqs = c.sqs) (h : Spec.answeredAs u k w sqid cid st dw m) :
    Spec.answeredAs u c w sqid cid st dw m := by
  simp only [Spec.answeredAs, sqEngine, hfn, hsqs] at h
  exact h

theorem canAnswer_ctlMod {f : Controller → Controller} (h : Spec.canAnswer s i c sqid q w) (hfn : (f c).fn = c.fn)
    (hposts : (f c).posts = c.posts) (hsqs : (f c).sqs = c.sqs) (hcqs : (f c).cqs = c.cqs) :
    Spec.canAnswer (ctlMod s i f) i (f c) sqid q w := by
  obtain ⟨hctl, hnone, hsq, hcq, hroom, hruns⟩ := h
  refine ⟨ctlOf_ctlMod hctl, hposts.trans hnone, hsqs ▸ hsq, hcqs ▸ hcq, hroom, ?_⟩
  rw [hfn, ctlMod_of hctl]
  exact hruns

@[simp] theorem ioCount_cmds {j a r m x : Nat} {y : W16} : (ioCount s j a y r m x st).sto.cmds = s.sto.cmds := by
  unfold ioCount
  (repeat' split) <;> simp [nsMod, stoMod]

/-- What a completion counts and logs leaves its controller able to answer. -/
theorem ioCount_canAnswer {a ns slba row : Nat} {y : W16} (h : Spec.canAnswer s i c sqid q w) :
    ∃ k, Spec.canAnswer (ioCount s i a y ns slba row st) i k sqid q w ∧ k.fn = c.fn ∧ k.sqs = c.sqs := by
  obtain ⟨v, hv, hcan⟩ : ∃ v, (if 6 ≤ row ∧ row ≤ 11 then nsMod (stoMod s (fun x =>
      { x with transient := if row = 11 then wrapInc x.transient else x.transient
               internal := if row = 8 ∨ row = 9 then wrapInc x.internal else x.internal })) ns
      (fun n => { n with errors := wrapInc n.errors }) else stoMod s (fun x =>
      { x with transient := if row = 11 then wrapInc x.transient else x.transient
               internal := if row = 8 ∨ row = 9 then wrapInc x.internal else x.internal })) = v ∧
      Spec.canAnswer v i c sqid q w := by
    refine ⟨_, rfl, ?_⟩
    split
    · exact canAnswer_of rfl rfl h
    · exact canAnswer_of rfl rfl h
  simp only [ioCount, hv]
  split
  · exact ⟨_, canAnswer_ctlMod hcan rfl rfl rfl rfl, rfl, rfl⟩
  · exact ⟨c, hcan, rfl, rfl⟩

/-- A command that leaves its queue stands behind its head no more. -/
theorem sqAdvance_canAnswer (h : Spec.canAnswer s i c sqid q w) : ∃ k,
    Spec.canAnswer (sqAdvance s i sqid) i k sqid { q with head := (q.head + 1) % q.size, granted := q.granted - 1 } w ∧
      k.fn = c.fn ∧ sqEngine k sqid = sqEngine c sqid := by
  obtain ⟨hctl, hnone, hsq, hcq, hroom, hruns⟩ := h
  have hget : tget (tadj c.sqs sqid (fun q => { q with head := (q.head + 1) % q.size, granted := q.granted - 1 })) sqid =
      some { q with head := (q.head + 1) % q.size, granted := q.granted - 1 } := by
    simp only [tadj, hsq, tget_tset_same]
  refine ⟨_, ⟨ctlOf_ctlMod hctl, hnone, hget, hcq, hroom, ?_⟩, rfl, ?_⟩
  · rw [sqAdvance, ctlMod_of hctl]
    exact hruns
  · simp only [sqEngine, hget, hsq]
    rfl

/-! The end of the one command in process. -/

theorem ioStartAll_none (h : s.sto.cmds = []) : ioStartAll s = s := by rw [ioStartAll, h]; rfl

theorem xtsDrop_none (h : d.stage ≠ .xts) : xtsDrop s d = s := if_pos h

theorem ioLeave_only (hcmds : s.sto.cmds = [d]) (hstage : d.stage ≠ .xts) :
    ioLeave s d = { s with sto := { s.sto with cmds := [] } } := by
  have hempty : (stoMod s (fun x => { x with cmds := x.cmds.erase d })).sto.cmds = [] := by
    simp [stoMod, hcmds]
  rw [ioLeave, xtsDrop_none hstage, ioStartAll_none hempty, stoMod, hcmds, List.erase_cons_head]

theorem shutdownCheck_keeps : (shutdownCheck s i).out = s.out ∧ (shutdownCheck s i).sto.cmds = s.sto.cmds := by
  unfold shutdownCheck
  split
  · exact ⟨rfl, rfl⟩
  · split
    · exact ⟨ctlMod_out, ctlMod_cmds⟩
    · exact ⟨rfl, rfl⟩

/-- The one command in process ends with its status, and none is left. -/
theorem ioEnd_only {row : Nat} (h : Spec.canAnswer s d.ctl c d.sqid q w) (hcmds : s.sto.cmds = [d]) (hstage : d.stage ≠ .xts)
    (horphan : d.orphan = false) :
    Spec.answeredAs (ioEnd s d row st) c w d.sqid d.cid.toNat st 0 q.head ∧ (ioEnd s d row st).sto.cmds = [] := by
  have hcan : Spec.canAnswer { s with sto := { s.sto with cmds := [] } } d.ctl c d.sqid q w := canAnswer_of rfl rfl h
  obtain ⟨k, hk, hfn, hsqs⟩ := ioCount_canAnswer (a := d.sqid) (y := d.cid) (ns := d.ns) (slba := d.slba) (row := row) (st := st) hcan
  obtain ⟨hanswered, hnone⟩ := nvmeComplete_answers (cid := d.cid.toNat) (st := st) (dw := 0) hk
  obtain ⟨hout, hkept⟩ := shutdownCheck_keeps (s := nvmeComplete (ioCount { s with sto := { s.sto with cmds := [] } }
    d.ctl d.sqid d.cid d.ns d.slba row st) d.ctl d.sqid d.cid.toNat st 0) (i := d.ctl)
  simp only [ioEnd, ioLeave_only hcmds hstage, horphan, Bool.false_eq_true, if_false]
  refine ⟨answeredAs_of hfn hsqs ?_, hkept.trans (hnone.trans ioCount_cmds)⟩
  rw [Spec.answeredAs, hout]
  exact hanswered

end

end Sys2Proof.Machine

end

section
/-! The one storage command in process (R427-R429, R434): sent on a path, its data in granules, and its work for the slab. -/

namespace Sys2Proof.Machine

section
variable {s u w : State} {t p n : Nat} {c d : IoCmd} {x : Target} {a : Namespace} {l : List Nat} {data : List Byte}

theorem ioSet_only (hcmds : s.sto.cmds = [d]) : ioSet s d c = { s with sto := { s.sto with cmds := [c] } } := by
  rw [ioSet, stoMod, hcmds, List.map_singleton, if_pos rfl]

/-! Sending. -/

theorem ioAsk_sent {st : IoStage} {ts : List (Nat × Nat)} {tick : Nat} {cid : W16} :
    ioAsk { d with stage := st, sentTo := ts, sentTick := tick, fabricCid := cid } = ioAsk d := rfl

/-- A command sent on one path is its capsule there. -/
theorem commandSent_ioSent (hcmds : s.sto.cmds = [d]) (hx : targetOf s t = some x) :
    Spec.commandSent s (ioSent s d [(t, p)]) d t p (ioAsk d).1 (ioAsk d).2.1 (ioAsk d).2.2.1 (ioAsk d).2.2.2 := by
  obtain ⟨cid, hcid⟩ : ∃ cid : W16, BitVec.ofNat 16 (leVal (freshBytes 2 s).1) = cid := ⟨_, rfl⟩
  obtain ⟨d', hd'⟩ : ∃ d', { d with stage := .sent, sentTo := [(t, p)], sentTick := intervalStart s, fabricCid := cid } = d' := ⟨_, rfl⟩
  obtain ⟨v, hv⟩ : ∃ v, ioSet (freshBytes 2 s).2 d d' = v := ⟨_, rfl⟩
  have hset : v = { (freshBytes 2 s).2 with sto := { s.sto with cmds := [d'] } } := by
    rw [← hv]
    exact ioSet_only hcmds
  have hx' : targetOf v t = some x := by
    rw [hset]
    exact hx
  have hsent : ioSent s d [(t, p)] = ioEmit v d' t p := by
    rw [← hv, ← hd', ← hcid]
    rfl
  have hemit : ioEmit v d' t p = pathPost (freshBytes 12 v).2 t p [capsulePdu x.roce (ioQueueOf x d')
      (capsuleOf (ioAsk d').1 (ioAsk d').2.1 d'.fabricCid (capsuleSgl x.roce (freshBytes 12 v).1 (ioAsk d').2.2.1) (ioAsk d').2.2.2)] := by
    simp only [ioEmit, hx']
  refine ⟨x, cid, hx, (freshBytes 12 v).2.free, (freshBytes 12 v).1, freshBytes_length, ?_⟩
  rw [hsent, hemit, ← hd', ioAsk_sent, hd']
  have hfields : ioQueueOf x d' = ioQueueOf x d ∧ d'.fabricCid = cid := by
    rw [← hd']
    exact ⟨rfl, rfl⟩
  rw [hfields.1, hfields.2]
  refine congrArg (fun v => pathPost v t p _) ?_
  rw [hset]
  rfl

theorem targetOf_of_live (h : pathLive s t p = true) : ∃ x, targetOf s t = some x := by
  cases hx : targetOf s t with
  | none => simp [pathLive, pathAt, hx] at h
  | some x => exact ⟨x, rfl⟩

/-- A command with a free path goes there. -/
theorem ioSend_free {ps : List Nat} (hfree : Spec.pathsFree s d = p :: ps) (hidle : channelIdle s d.space.channel = false) :
    ioSend s d = ioSent s d [(d.space.target, p)] := by
  rw [Spec.pathsFree] at hfree
  simp only [ioSend, hfree, hidle, Bool.false_eq_true, if_false]

/-- Without one, or while its channel migrates, it waits. -/
theorem ioSend_waits (h : Spec.pathsFree s d = [] ∨ channelIdle s d.space.channel = true) :
    ioSend s d = ioSet s d { d with stage := .waitPath } := by
  rw [Spec.pathsFree] at h
  unfold ioSend
  split
  next heq =>
    have hidle : channelIdle s d.space.channel = true := h.resolve_left (by rw [heq]; exact List.cons_ne_nil _ _)
    rw [if_pos hidle]
  next => rfl

/-! Granules. -/

/-- Memory once granules hold some data. -/
def granulesHold (m : Tbl Byte) (l : List Nat) (data : List Byte) : Tbl Byte :=
  (l.zip (chunks 4096 (cdiv data.length 4096) data)).foldl (fun m x => putBytes 0#8 m x.1 x.2) m

theorem bufWrite_hbm : bufWrite s l data = { s with hbm := granulesHold s.hbm l data } := by
  unfold bufWrite granulesHold
  generalize l.zip (chunks 4096 (cdiv data.length 4096) data) = cells
  induction cells generalizing s with
  | nil => rfl
  | cons b cells ih =>
    rw [List.foldl_cons, ih]
    rfl

/-- The unit of memory once some bytes of its allowance are used. -/
def allowanceUsed (h : HbmUnit) (n : Nat) : HbmUnit := if h.step = 0 then h else { h with shedUsed := h.shedUsed + n }

theorem shedUse_hbmU : shedUse s n = { s with hbmU := allowanceUsed s.hbmU n } := by
  unfold shedUse allowanceUsed
  split <;> rfl

/-! The slab. -/

theorem ctxMod_listed {i : Nat} {f : Ctx → Ctx} (h : f (ctxOf s i) ≠ ctxUnlisted s) :
    ctxMod s i f = { s with cph := { s.cph with ctxs := tset s.cph.ctxs i (f (ctxOf s i)) } } := by
  rw [ctxMod, tput, if_neg h]

/-- The requests of one command in process that join their context's queue first. -/
theorem slabWorks_xtsBegin (hcmds : s.sto.cmds = [d]) : Spec.slabWorks s (xtsBegin s d) d (xtsTotal d) := by
  obtain ⟨d', hd'⟩ : ∃ d', { d with stage := .xts, xtsNext := 0, xtsDone := 0 } = d' := ⟨_, rfl⟩
  have hset : ioSet s d d' = { s with sto := { s.sto with cmds := [d'] } } := ioSet_only hcmds
  obtain ⟨v, hv⟩ : ∃ v, ioSet s d d' = v := ⟨_, rfl⟩
  have hbegin : xtsBegin s d = xtsFeed v d' := by rw [xtsBegin, hd', hv]
  have hcount : min (xtsTotal d' - d'.xtsNext) (32 - (ctxOf v d'.space.context).queue.length) =
      min (xtsTotal d) (32 - (ctxOf s d.space.context).queue.length) := by
    rw [← hv, hset, ← hd']
    rfl
  have hopen : shedOpen v = shedOpen s := by
    rw [← hv, hset]
    rfl
  have hrequests : (fun k => xtsRequest v d' (d'.xtsNext + k)) = xtsRequest s d := by
    funext k
    rw [← hv, hset, ← hd']
    simp only [Nat.zero_add]
    rfl
  rw [hbegin, Spec.slabWorks]
  simp only [xtsFeed, hcount, hopen, hrequests]
  obtain ⟨m, hm⟩ : ∃ m, min (xtsTotal d) (32 - (ctxOf s d.space.context).queue.length) = m := ⟨_, rfl⟩
  rw [hm]
  split
  next hnone =>
    have hzero : (if shedOpen s = true then m else 0) = 0 := by
      rw [Bool.or_eq_true, decide_eq_true_iff] at hnone
      split
      next h => exact hnone.resolve_right (by simp [h])
      next => rfl
    rw [hzero, ← hv, hset, ← hd']
    exact ⟨rfl, rfl, rfl, (List.append_nil _).symm⟩
  next hsome =>
    simp only [Bool.or_eq_true, decide_eq_true_iff, Bool.not_eq_true', not_or, Bool.not_eq_false] at hsome
    obtain ⟨hpos, hs⟩ := hsome
    rw [if_pos hs]
    have hlisted : ({ ctxOf s d.space.context with
        queue := (ctxOf s d.space.context).queue ++ (List.range m).map (xtsRequest s d) } : Ctx) ≠ ctxUnlisted s := fun h =>
      hpos (by simpa using (List.append_eq_nil_iff.mp (congrArg Ctx.queue h)).2)
    have hqueue : ctxMod v d'.space.context (fun x => { x with queue := x.queue ++ (List.range m).map (xtsRequest s d) }) =
        { s with
          sto := { s.sto with cmds := [d'] }
          cph := { s.cph with ctxs := tset s.cph.ctxs d.space.context { ctxOf s d.space.context with
            queue := (ctxOf s d.space.context).queue ++ (List.range m).map (xtsRequest s d) } } } := by
      rw [← hv, hset, ← hd']
      exact ctxMod_listed hlisted
    rw [hqueue, ioSet_only rfl, ← hd']
    refine ⟨by simp only [Nat.zero_add], rfl, rfl, ?_⟩
    rw [ctxOf, tgetD_tset_same]

theorem xtsTotal_of (h : d.op ≠ .writeZeroes) : xtsTotal d = d.blocks := if_neg h

theorem ioThrough_clear (h : d.space.xts = false) : ioThrough s d = ioOnward s d := by
  rw [ioThrough, h]
  rfl

theorem ioThrough_served (h : d.space.xts = true) (hserves : xtsServes s d.space = true) : ioThrough s d = xtsBegin s d := by
  rw [ioThrough, h, hserves]
  rfl

theorem ioOnward_send (h : d.op ≠ .read) : ioOnward s d = ioSend s d := by
  unfold ioOnward
  split
  next hop => exact absurd hop h
  next => rfl

/-! The one command, found. -/

theorem ioAt_only {i : Fin 1024} {sqid cid : W16} {op : IoOp} {st : IoStage} {f : IoCmd → State}
    (h : Spec.onlyCmd s i sqid cid op st d) : ioAt s i.val sqid.toNat cid op st f = f d := by
  obtain ⟨hcmds, hctl, hsqid, hcid, hop, hstage, horphan⟩ := h
  have hfound : ioOf s i.val sqid.toNat cid = some d := by
    rw [ioOf, hcmds, List.find?_cons_of_pos]
    simp [ioIs, hctl, hsqid, hcid, horphan]
  rw [ioAt, hfound]
  exact if_pos ⟨hop, hstage⟩

end

end Sys2Proof.Machine

end

section
/-! The steps of the one storage command in process (R427-R431, R434, R437). -/

namespace Sys2Proof.Machine

section
variable {s u v : State} {i : Fin 1024} {sqid cid : W16} {op : IoOp} {stage : IoStage} {c d : IoCmd} {p : Nat} {ps : List Nat}
  {y : Target} {data : List Byte} {k : Controller} {q : NvmeSq} {w : NvmeCq} {row st : Nat}

/-! Sending. -/

theorem commandSent_ioSend (hcmds : s.sto.cmds = [c]) (hfree : Spec.pathsFree s c = p :: ps)
    (hidle : channelIdle s c.space.channel = false) (hy : targetOf s c.space.target = some y) :
    Spec.commandSent s (ioSend s c) c c.space.target p (ioAsk c).1 (ioAsk c).2.1 (ioAsk c).2.2.1 (ioAsk c).2.2.2 := by
  rw [ioSend_free hfree hidle]
  exact commandSent_ioSent hcmds hy

theorem ioAsk_write (h : c.op = .write) : ioAsk c =
    (1, c.space.remoteNsid.toNat, c.blocks * nsLba c.space, Spec.rangeDwords c.space c.slba c.blocks) := by
  simp only [ioAsk, h, Spec.rangeDwords]

theorem ioAsk_zeroes (h : c.op = .writeZeroes) (hclear : c.space.xts = false) : ioAsk c =
    (8, c.space.remoteNsid.toNat, 0, Spec.rangeDwords c.space c.slba c.blocks) := by
  simp only [ioAsk, h, hclear, Spec.rangeDwords, Bool.false_eq_true, if_false]

theorem ioAsk_dsm (h : c.op = .dsm) : ioAsk c =
    (9, c.space.remoteNsid.toNat, 16 * c.ranges.length, leBytes 4 (c.ranges.length - 1) ++ leBytes 4 4) := by
  simp only [ioAsk, h]

theorem ioAsk_flush (h : c.op = .flush) : ioAsk c = (0, if c.all then 0xFFFFFFFF else c.space.remoteNsid.toNat, 0, []) := by
  simp only [ioAsk, h]

/-! A write (R427). -/

theorem xtsServes_bufWrite {n : Nat} {l : List Nat} {a : Namespace} :
    xtsServes (bufWrite (shedUse s n) l data) a = xtsServes s a := by
  rw [bufWrite_hbm, shedUse_hbmU]
  rfl

theorem ioWrite_filled (h : Spec.onlyCmd s i sqid cid .write .dataIn c) (hruns : fnRuns s ((ctlFn s i.val).getD 0) = true)
    (hbufs : bufsAnswer s c.bufs = true) (hopen : shedOpen s = true) : ioWrite s i.val sqid.toNat cid true data =
      ioThrough (bufWrite (shedUse s (c.blocks * nsLba c.space)) c.bufs (slice data 0 (c.blocks * nsLba c.space))) c := by
  rw [ioWrite, ioAt_only h]
  simp only [hruns, hbufs, hopen, Bool.not_true, Bool.false_eq_true, if_false]

theorem ioWrite_held (h : Spec.onlyCmd s i sqid cid .write .dataIn c) (hbufs : bufsAnswer s c.bufs = true)
    (hheld : shedOpen s = false ∨ ¬fnRuns s ((ctlFn s i.val).getD 0) = true) : ioWrite s i.val sqid.toNat cid true data = s := by
  rw [ioWrite, ioAt_only h]
  cases hruns : fnRuns s ((ctlFn s i.val).getD 0) with
  | false => rfl
  | true =>
    have hshut : shedOpen s = false := hheld.resolve_right (fun h => h hruns)
    simp only [hbufs, hshut, Bool.not_true, Bool.not_false, Bool.false_eq_true, if_false, if_true]

theorem write_sent (h : Spec.onlyCmd s i sqid cid .write .dataIn c) (hfree : Spec.pathsFree s c = p :: ps)
    (hidle : channelIdle s c.space.channel = false) (hy : targetOf s c.space.target = some y)
    (hruns : fnRuns s ((ctlFn s i.val).getD 0) = true) (hbufs : bufsAnswer s c.bufs = true) (hopen : shedOpen s = true)
    (hclear : c.space.xts = false) :
    Spec.commandSent (bufWrite (shedUse s (c.blocks * nsLba c.space)) c.bufs (slice data 0 (c.blocks * nsLba c.space)))
      (ioWrite s i.val sqid.toNat cid true data) c c.space.target p 1 c.space.remoteNsid.toNat (c.blocks * nsLba c.space)
      (Spec.rangeDwords c.space c.slba c.blocks) := by
  rw [ioWrite_filled h hruns hbufs hopen]
  obtain ⟨hcmds, -, -, -, hop, -, -⟩ := h
  rw [bufWrite_hbm, shedUse_hbmU, ioThrough_clear hclear, ioOnward_send (by rw [hop]; decide)]
  have hsent := commandSent_ioSend (s := { s with
    hbmU := allowanceUsed s.hbmU (c.blocks * nsLba c.space)
    hbm := granulesHold s.hbm c.bufs (slice data 0 (c.blocks * nsLba c.space)) }) hcmds hfree hidle hy
  rw [ioAsk_write hop] at hsent
  exact hsent

theorem write_slab (h : Spec.onlyCmd s i sqid cid .write .dataIn c) (hruns : fnRuns s ((ctlFn s i.val).getD 0) = true)
    (hbufs : bufsAnswer s c.bufs = true) (hopen : shedOpen s = true) (hxts : c.space.xts = true)
    (hserves : xtsServes s c.space = true) :
    Spec.slabWorks (bufWrite (shedUse s (c.blocks * nsLba c.space)) c.bufs (slice data 0 (c.blocks * nsLba c.space)))
      (ioWrite s i.val sqid.toNat cid true data) c c.blocks := by
  rw [ioWrite_filled h hruns hbufs hopen]
  obtain ⟨hcmds, -, -, -, hop, -, -⟩ := h
  rw [ioThrough_served hxts (xtsServes_bufWrite.trans hserves), bufWrite_hbm, shedUse_hbmU]
  have hworks := slabWorks_xtsBegin (s := { s with
    hbmU := allowanceUsed s.hbmU (c.blocks * nsLba c.space)
    hbm := granulesHold s.hbm c.bufs (slice data 0 (c.blocks * nsLba c.space)) }) hcmds
  rw [xtsTotal_of (by rw [hop]; decide)] at hworks
  exact hworks

/-! Write Zeroes and Deallocate (R431). -/

theorem ioZeroes_clear (h : Spec.onlyCmd s i sqid cid .writeZeroes .carryOut c) (hclear : c.space.xts = false) :
    ioZeroes s i.val sqid.toNat cid = ioSend s c := by
  rw [ioZeroes, ioAt_only h]
  simp only [hclear, Bool.not_false, if_true]

theorem ioZeroes_shut (h : Spec.onlyCmd s i sqid cid .writeZeroes .carryOut c) (hxts : c.space.xts = true)
    (hbufs : bufsAnswer s c.bufs = true) (hshut : shedOpen s = false) : ioZeroes s i.val sqid.toNat cid = s := by
  rw [ioZeroes, ioAt_only h]
  simp only [hxts, hbufs, hshut, Bool.not_true, Bool.not_false, Bool.false_eq_true, if_false, if_true]

theorem zeroes_sent (h : Spec.onlyCmd s i sqid cid .writeZeroes .carryOut c) (hfree : Spec.pathsFree s c = p :: ps)
    (hidle : channelIdle s c.space.channel = false) (hy : targetOf s c.space.target = some y) (hclear : c.space.xts = false) :
    Spec.commandSent s (ioZeroes s i.val sqid.toNat cid) c c.space.target p 8 c.space.remoteNsid.toNat 0
      (Spec.rangeDwords c.space c.slba c.blocks) := by
  rw [ioZeroes_clear h hclear]
  obtain ⟨hcmds, -, -, -, hop, -, -⟩ := h
  have hsent := commandSent_ioSend hcmds hfree hidle hy
  rw [ioAsk_zeroes hop hclear] at hsent
  exact hsent

theorem zeroes_slab (h : Spec.onlyCmd s i sqid cid .writeZeroes .carryOut c) (hxts : c.space.xts = true)
    (hserves : xtsServes s c.space = true) (hbufs : bufsAnswer s c.bufs = true) (hopen : shedOpen s = true) {part : Nat}
    (hpart : min (c.blocks - c.done) (131072 / nsLba c.space) = part) :
    Spec.slabWorks (bufWrite (shedUse s (part * nsLba c.space)) c.bufs (zeroBytes (part * nsLba c.space)))
      (ioZeroes s i.val sqid.toNat cid) { c with part := part } part := by
  have hset : ioSet s c { c with part := part } = { s with sto := { s.sto with cmds := [{ c with part := part }] } } :=
    ioSet_only h.1
  rw [ioZeroes, ioAt_only h]
  obtain ⟨-, -, -, -, hop, -, -⟩ := h
  simp only [hxts, hbufs, hopen, Bool.not_true, Bool.false_eq_true, if_false, hpart]
  have hserves' : xtsServes (ioSet s c { c with part := part }) c.space = true := hserves
  rw [ioThrough_served (d := { c with part := part }) hxts (xtsServes_bufWrite.trans hserves'), hset, bufWrite_hbm, shedUse_hbmU,
    bufWrite_hbm, shedUse_hbmU]
  have hworks := slabWorks_xtsBegin (d := { c with part := part }) (s := { s with
    sto := { s.sto with cmds := [{ c with part := part }] }
    hbmU := allowanceUsed s.hbmU (part * nsLba c.space)
    hbm := granulesHold s.hbm c.bufs (zeroBytes (part * nsLba c.space)) }) rfl
  have htotal : xtsTotal { c with part := part } = part := if_pos hop
  rw [htotal] at hworks
  exact hworks

theorem ioDeallocate_send (h : Spec.onlyCmd s i sqid cid .dsm .carryOut c) : ioDeallocate s i.val sqid.toNat cid = ioSend s c := by
  rw [ioDeallocate, ioAt_only h]

theorem dsm_sent (h : Spec.onlyCmd s i sqid cid .dsm .carryOut c) (hfree : Spec.pathsFree s c = p :: ps)
    (hidle : channelIdle s c.space.channel = false) (hy : targetOf s c.space.target = some y) :
    Spec.commandSent s (ioDeallocate s i.val sqid.toNat cid) c c.space.target p 9 c.space.remoteNsid.toNat (16 * c.ranges.length)
      (leBytes 4 (c.ranges.length - 1) ++ leBytes 4 4) := by
  rw [ioDeallocate_send h]
  obtain ⟨hcmds, -, -, -, hop, -, -⟩ := h
  have hsent := commandSent_ioSend hcmds hfree hidle hy
  rw [ioAsk_dsm hop] at hsent
  exact hsent

/-! Ends. -/

/-- The one command in process ends with its answer. -/
theorem ends_ioEnd {x : Instr} (hexec : exec x s = .next (ioEnd v c row st)) (hcan : Spec.canAnswer v i.val k sqid.toNat q w)
    (h : Spec.onlyCmd v i sqid cid op stage c) (hstage : stage ≠ .xts) : Spec.ends x s k q w c st := by
  obtain ⟨hcmds, hctl, hsqid, hcid, hop, hst, horphan⟩ := h
  have hown : Spec.canAnswer v c.ctl k c.sqid q w := by rw [hctl, hsqid]; exact hcan
  exact ⟨_, hexec, ioEnd_only hown hcmds (by rw [hst]; exact hstage) horphan⟩

theorem ioWrite_failed (h : Spec.onlyCmd s i sqid cid .write .dataIn c) (hruns : fnRuns s ((ctlFn s i.val).getD 0) = true) :
    ioWrite s i.val sqid.toNat cid false data = ioEnd s c 8 0x0004 := by
  rw [ioWrite, ioAt_only h]
  simp only [hruns, Bool.not_true, Bool.not_false, Bool.false_eq_true, if_false, if_true]
  rfl

/-! Flush (R428). -/

theorem ioFlush_none (h : Spec.onlyCmd s i sqid cid .flush .carryOut c) (hts : flushTargets s c = []) :
    ioFlush s i.val sqid.toNat cid = ioEnd s c 0 0 := by
  rw [ioFlush, ioAt_only h]
  simp only [hts]

theorem flush_sent {t : Nat} (h : Spec.onlyCmd s i sqid cid .flush .carryOut c) (hts : flushTargets s c = [t])
    (hpath : flushPath s c t = some p) (hidle : channelIdle s c.space.channel = false) :
    Spec.commandSent s (ioFlush s i.val sqid.toNat cid) c t p 0 (if c.all then 0xFFFFFFFF else c.space.remoteNsid.toNat) 0 [] := by
  have hflush : ioFlush s i.val sqid.toNat cid = ioSent s c [(t, p)] := by
    rw [ioFlush, ioAt_only h]
    simp [hts, flushSend, hpath, hidle]
  have hlive : pathLive s t p = true := (Bool.and_eq_true_iff.mp
    (List.find?_some (p := fun p => pathLive s t p && fabricRoom s c t p) hpath)).1
  obtain ⟨x, hx⟩ := targetOf_of_live hlive
  obtain ⟨hcmds, -, -, -, hop, -, -⟩ := h
  have hsent := commandSent_ioSent (p := p) hcmds hx
  rw [ioAsk_flush hop] at hsent
  rw [hflush]
  exact hsent

end

end Sys2Proof.Machine

end

section
/-! The one storage command in process: its data for the host, what its target answers, and its timeout (R427, R434, R435, R437). -/

namespace Sys2Proof.Machine

section
variable {s u v : State} {i : Fin 1024} {sqid cid : W16} {op : IoOp} {stage : IoStage} {c d : IoCmd} {t p n m : Nat}
  {x : Target} {data : List Byte} {k : Controller} {q : NvmeSq} {w : NvmeCq} {row st : Nat} {a : TargetAnswer} {o : Out}

/-! Requests to the host stay. -/

theorem mem_out_postFlush {j : Nat} (h : o ∈ s.out) : o ∈ (postFlush j n s).out := by
  induction n generalizing s with
  | zero => exact h
  | succ n ih =>
    simp only [postFlush]
    split
    · exact h
    · split
      · exact h
      · split
        · exact h
        · refine ih (interrupted_keeps ?_ rfl).1
          rw [ctlMod_out]
          exact List.mem_cons_of_mem _ h

theorem mem_out_nvmeComplete {j a b y z : Nat} (h : o ∈ s.out) : o ∈ (nvmeComplete s j a b y z).out :=
  mem_out_postFlush (by rw [ctlMod_out]; exact h)

@[simp] theorem ioCount_out {j b r m y : Nat} {z : W16} : (ioCount s j b z r m y st).out = s.out := by
  unfold ioCount
  (repeat' split) <;> simp [nsMod, stoMod]

theorem mem_out_ioEnd (hcmds : s.sto.cmds = [d]) (hstage : d.stage ≠ .xts) (h : o ∈ s.out) : o ∈ (ioEnd s d row st).out := by
  simp only [ioEnd, ioLeave_only hcmds hstage]
  split
  · exact h
  · rw [shutdownCheck_keeps.1]
    refine mem_out_nvmeComplete ?_
    rw [ioCount_out]
    exact h

/-! A read's data for the host (R427). -/

theorem sumOf_cons {y : Nat} {l : List Nat} : sumOf (y :: l) = y + sumOf l := by
  rw [sumOf, sumOf, ← List.sum_eq_foldl, ← List.sum_eq_foldl, List.sum_cons]

/-- The data written to the host, a segment at a time, with the bytes written before. -/
def segmentsWritten (s : State) (e fn : Nat) (data : List Byte) (segs : List (Nat × Nat)) (from_ : Nat) : State × Nat :=
  segs.foldl (fun (a : State × Nat) g => (hostWrite a.1 e fn g.1 (slice data a.2 g.2), a.2 + g.2)) (s, from_)

theorem segmentsWritten_out {e fn : Nat} {segs : List (Nat × Nat)} :
    ∃ l, (segmentsWritten s e fn data segs m).1 = { s with out := l } ∧ (∀ o ∈ s.out, o ∈ l) ∧
      ∀ (j a n : Nat), segs[j]? = some (a, n) →
        .hostWrite e fn a (slice data (m + sumOf ((segs.take j).map (·.2))) n) ∈ l := by
  induction segs generalizing s m with
  | nil => exact ⟨s.out, rfl, fun _ h => h, fun j a n h => by simp at h⟩
  | cons g segs ih =>
    obtain ⟨l, hl, hkept, hwritten⟩ := ih (s := hostWrite s e fn g.1 (slice data m g.2)) (m := m + g.2)
    refine ⟨l, hl, fun o ho => hkept o (List.mem_cons_of_mem _ ho), fun j a n hj => ?_⟩
    cases j with
    | zero =>
      obtain rfl : g = (a, n) := Option.some.inj hj
      exact hkept _ List.mem_cons_self
    | succ j =>
      have hmem := hwritten j a n hj
      rwa [Nat.add_assoc, ← sumOf_cons] at hmem

theorem ioRead_goes (h : Spec.onlyCmd s i sqid cid .read .dataOut c) (hbufs : bufsAnswer s c.bufs = true)
    (hruns : fnRuns s ((ctlFn s i.val).getD 0) = true) (hopen : shedOpen s = true) : ioRead s i.val sqid.toNat cid true =
      ioEnd (segmentsWritten (shedUse s (c.blocks * nsLba c.space)) (ioEngine s c) ((ctlFn s i.val).getD 0)
        (bufRead s c.bufs (c.blocks * nsLba c.space)) c.segs 0).1 c 12 0 := by
  rw [ioRead, ioAt_only h]
  simp only [hbufs, hruns, hopen, Bool.not_true, Bool.false_eq_true, if_false, Bool.or_false]
  rfl

theorem read_ends (h : Spec.onlyCmd s i sqid cid .read .dataOut c) (hcan : Spec.canAnswer s i.val k sqid.toNat q w)
    (hfn : ctlFn s i.val = some k.fn.toNat) (hbufs : bufsAnswer s c.bufs = true) (hopen : shedOpen s = true) :
    (∀ j a m, c.segs[j]? = some (a, m) → .hostWrite (sqEngine k c.sqid) k.fn.toNat a
      (slice (bufRead s c.bufs (c.blocks * nsLba c.space)) (sumOf ((c.segs.take j).map (·.2))) m) ∈
        (ioRead s i.val sqid.toNat cid true).out) ∧
    Spec.answeredAs (ioRead s i.val sqid.toNat cid true) k w c.sqid c.cid.toNat 0 0 q.head ∧
    (ioRead s i.val sqid.toNat cid true).sto.cmds = [] := by
  have hget : (ctlFn s i.val).getD 0 = k.fn.toNat := by rw [hfn]; rfl
  have hruns : fnRuns s ((ctlFn s i.val).getD 0) = true := by
    rw [hget]
    exact hcan.2.2.2.2.2
  rw [ioRead_goes h hbufs hruns hopen]
  obtain ⟨hcmds, hctl, hsqid, hcid, hop, hstage, horphan⟩ := h
  have hengine : ioEngine s c = sqEngine k c.sqid := by
    rw [ioEngine, hctl, hcan.1]
    rfl
  obtain ⟨l, hl, -, hwritten⟩ := segmentsWritten_out (s := shedUse s (c.blocks * nsLba c.space)) (e := ioEngine s c)
    (fn := (ctlFn s i.val).getD 0) (data := bufRead s c.bufs (c.blocks * nsLba c.space)) (segs := c.segs) (m := 0)
  rw [hl, shedUse_hbmU]
  have hout : c.stage ≠ .xts := by rw [hstage]; decide
  have hown : Spec.canAnswer s c.ctl k c.sqid q w := by rw [hctl, hsqid]; exact hcan
  obtain ⟨hanswered, hnone⟩ := ioEnd_only (row := 12) (st := 0)
    (s := { s with hbmU := allowanceUsed s.hbmU (c.blocks * nsLba c.space), out := l }) (canAnswer_of rfl rfl hown) hcmds hout horphan
  refine ⟨fun j a m hj => mem_out_ioEnd hcmds hout ?_, hanswered, hnone⟩
  have hmem := hwritten j a m hj
  rwa [hengine, hget, Nat.zero_add] at hmem

/-! Answers of a target. -/

theorem ioRetry_still (hcmds : s.sto.cmds = [c]) (hstage : c.stage ≠ .waitPath) : ioRetry s = s := by
  have hnone : [c].filter (fun c => c.stage == .waitPath) = [] := by simp [hstage]
  rw [ioRetry, hcmds, hnone]
  rfl

theorem posted_mark : Posted s (if a.ecn && targetRoce s a.target.val && pathLive s a.target.val a.path.val then
    pathPost s a.target.val a.path.val [cnpPdu] else s) := by
  split
  · exact posted_pathPost
  · exact .refl

/-- An answer for the one command, sent to that target, after the answer to its mark. -/
theorem ioResponse_completion {status : W16} (h : Spec.onlyCmd s i sqid cid op .sent c)
    (hto : (a.target.val, a.path.val) ∈ c.sentTo) (ha : a.kind = .completion status) :
    ∃ v, Posted s v ∧ (a.ecn = false → v = s) ∧
      ioResponse s i.val sqid.toNat cid a data = ioRetry (ioAnswered v c (a.target.val, a.path.val) status) := by
  have hposted := posted_mark (s := s) (a := a)
  refine ⟨_, hposted, fun hecn => by rw [hecn]; rfl, ?_⟩
  obtain ⟨hcmds, hctl, hsqid, hcid, hop, hstage, horphan⟩ := h
  have hfound : [c].find? (fun c => ioKey c == (i.val, sqid.toNat, cid) && c.stage == .sent &&
      c.sentTo.contains (a.target.val, a.path.val)) = some c := by
    rw [List.find?_cons_of_pos]
    simp [ioKey, hctl, hsqid, hcid, hstage, hto]
  simp only [ioResponse, hposted.cmds.trans hcmds, hfound, ha]

theorem find_answered (h : Spec.onlyCmd s i sqid cid op .sent c) (hto : (a.target.val, a.path.val) ∈ c.sentTo) :
    s.sto.cmds.find? (fun c => ioKey c == (i.val, sqid.toNat, cid) && c.stage == .sent &&
      c.sentTo.contains (a.target.val, a.path.val)) = some c := by
  obtain ⟨hcmds, hctl, hsqid, hcid, hop, hstage, horphan⟩ := h
  rw [hcmds, List.find?_cons_of_pos]
  simp [ioKey, hctl, hsqid, hcid, hstage, hto]

theorem ioResponse_data {offset : Nat} (h : Spec.onlyCmd s i sqid cid op .sent c) (hto : (a.target.val, a.path.val) ∈ c.sentTo)
    (hecn : a.ecn = false) (ha : a.kind = .data offset) :
    ioResponse s i.val sqid.toNat cid a data = if shedOpen s then ioLanded s c offset data else s := by
  simp only [ioResponse, hecn, Bool.false_and, Bool.false_eq_true, if_false, find_answered h hto, ha]

theorem ioResponse_pull {tag : W16} {offset : Nat} (h : Spec.onlyCmd s i sqid cid op .sent c)
    (hto : (a.target.val, a.path.val) ∈ c.sentTo) (hecn : a.ecn = false) (ha : a.kind = .pull tag offset n) :
    ioResponse s i.val sqid.toNat cid a data =
      if shedOpen s then ioPulled s c a.target.val a.path.val tag offset n else s := by
  simp only [ioResponse, hecn, Bool.false_and, Bool.false_eq_true, if_false, find_answered h hto, ha]

theorem ioResponse_stray (hcmds : s.sto.cmds = [c]) (hto : (a.target.val, a.path.val) ∉ c.sentTo) (hecn : a.ecn = false) :
    ioResponse s i.val sqid.toNat cid a data = s := by
  have hnone : [c].find? (fun c => ioKey c == (i.val, sqid.toNat, cid) && c.stage == .sent &&
      c.sentTo.contains (a.target.val, a.path.val)) = none := by
    simp [hto]
  simp only [ioResponse, hecn, Bool.false_and, Bool.false_eq_true, if_false, hcmds, hnone]

/-- The answer to a write ends it with its status. -/
theorem write_answered {status : W16} (h : Spec.onlyCmd s i sqid cid .write .sent c) (hcan : Spec.canAnswer s i.val k sqid.toNat q w)
    (hto : (a.target.val, a.path.val) ∈ c.sentTo) (ha : a.kind = .completion status) :
    Spec.ends (.targetResponseRx i sqid cid a data) s k q w c
      (if guestStatus status.toNat % 2 ^ 11 = 0 then 0 else guestStatus status.toNat) := by
  obtain ⟨v, hposted, -, hresponse⟩ := ioResponse_completion (data := data) h hto ha
  obtain ⟨hcmds, hctl, hsqid, hcid, hop, hstage, horphan⟩ := h
  have hanswered : ioAnswered v c (a.target.val, a.path.val) status = ioEnd v c 12
      (if guestStatus status.toNat % 2 ^ 11 = 0 then 0 else guestStatus status.toNat) := by
    simp only [ioAnswered, horphan, hop, Bool.false_eq_true, if_false, ite_not]
  have hown : Spec.canAnswer s c.ctl k c.sqid q w := by rw [hctl, hsqid]; exact hcan
  obtain ⟨hdone, hnone⟩ := ioEnd_only (row := 12)
    (st := if guestStatus status.toNat % 2 ^ 11 = 0 then 0 else guestStatus status.toNat)
    (canAnswer_of hposted.hif hposted.ctls hown) (hposted.cmds.trans hcmds) (by rw [hstage]; decide) horphan
  refine ⟨_, congrArg Host.Outcome.next (hresponse.trans (by rw [hanswered, ioRetry_none hnone])), hdone, hnone⟩

/-- The good answer to a read, once its granules are known to answer. -/
theorem read_answered {status : W16} (h : Spec.onlyCmd s i sqid cid .read .sent c) (hto : (a.target.val, a.path.val) ∈ c.sentTo)
    (ha : a.kind = .completion status) (hecn : a.ecn = false) (hgood : guestStatus status.toNat % 2 ^ 11 = 0)
    (hbufs : bufsAnswer s c.bufs = true) : ioResponse s i.val sqid.toNat cid a data =
      ioRetry (ioThrough { s with sto := { s.sto with cmds := [{ c with sentTo := [] }] } } { c with sentTo := [] }) := by
  obtain ⟨v, -, hsame, hresponse⟩ := ioResponse_completion (data := data) h hto ha
  obtain ⟨hcmds, hctl, hsqid, hcid, hop, hstage, horphan⟩ := h
  rw [hresponse, hsame hecn]
  simp only [ioAnswered, horphan, hop, hgood, hbufs, Bool.not_true, Bool.false_eq_true, if_false, ne_eq, not_true_eq_false]
  rw [ioSet_only hcmds]

theorem read_answered_clear {status : W16} (h : Spec.onlyCmd s i sqid cid .read .sent c)
    (hto : (a.target.val, a.path.val) ∈ c.sentTo) (ha : a.kind = .completion status) (hecn : a.ecn = false)
    (hgood : guestStatus status.toNat % 2 ^ 11 = 0) (hbufs : bufsAnswer s c.bufs = true) (hclear : c.space.xts = false) :
    ioResponse s i.val sqid.toNat cid a data =
      { s with sto := { s.sto with cmds := [{ c with stage := .dataOut, sentTo := [] }] } } := by
  have honward : ioOnward { s with sto := { s.sto with cmds := [{ c with sentTo := [] }] } } { c with sentTo := [] } =
      { s with sto := { s.sto with cmds := [{ c with stage := .dataOut, sentTo := [] }] } } := by
    simp only [ioOnward, h.2.2.2.2.1]
    exact ioSet_only rfl
  rw [read_answered h hto ha hecn hgood hbufs, ioThrough_clear (d := { c with sentTo := [] }) hclear, honward]
  exact ioRetry_still rfl (show IoStage.dataOut ≠ .waitPath by decide)

theorem read_answered_slab {status : W16} (h : Spec.onlyCmd s i sqid cid .read .sent c)
    (hto : (a.target.val, a.path.val) ∈ c.sentTo) (ha : a.kind = .completion status) (hecn : a.ecn = false)
    (hgood : guestStatus status.toNat % 2 ^ 11 = 0) (hbufs : bufsAnswer s c.bufs = true) (hxts : c.space.xts = true)
    (hserves : xtsServes s c.space = true) :
    Spec.slabWorks s (ioResponse s i.val sqid.toNat cid a data) { c with sentTo := [] } c.blocks := by
  have hworks := slabWorks_xtsBegin (d := { c with sentTo := [] })
    (s := { s with sto := { s.sto with cmds := [{ c with sentTo := [] }] } }) rfl
  have htotal : xtsTotal { c with sentTo := [] } = c.blocks := if_neg (by simp [h.2.2.2.2.1])
  rw [htotal] at hworks
  have hserves' : xtsServes { s with sto := { s.sto with cmds := [{ c with sentTo := [] }] } } c.space = true := hserves
  rw [read_answered h hto ha hecn hgood hbufs, ioThrough_served (d := { c with sentTo := [] }) hxts hserves',
    ioRetry_still hworks.1 (show IoStage.xts ≠ .waitPath by decide)]
  exact hworks

/-- The target's call for a write's data is answered. -/
theorem ioPulled_write {tag : W16} {offset : Nat} (hop : c.op = .write) (hx : targetOf s t = some x)
    (hsome : ((bufRead s c.bufs (c.blocks * nsLba c.space)).drop offset).take n ≠ []) : ioPulled s c t p tag offset n =
      pathPost (shedUse s (((bufRead s c.bufs (c.blocks * nsLba c.space)).drop offset).take n).length) t p
        [dataPdu x.roce (ioQueueOf x c) c.fabricCid tag offset
          (((bufRead s c.bufs (c.blocks * nsLba c.space)).drop offset).take n)] := by
  have hdata : ioData s c = bufRead s c.bufs (c.blocks * nsLba c.space) := by
    simp only [ioData, hop, ioAsk_write hop]
  have hempty : (((bufRead s c.bufs (c.blocks * nsLba c.space)).drop offset).take n).isEmpty = false := by
    rw [List.isEmpty_eq_false_iff]
    exact hsome
  simp only [ioPulled, hx, hdata, hempty, Bool.false_eq_true, if_false]

/-! A command that its target does not answer in time (R435). -/

/-- The state in which the timeout of a command is counted. -/
def timedOut (s : State) : State := { s with sto := { s.sto with timeouts := s.sto.timeouts + 1 } }

theorem ioTimeout_early (h : Spec.onlyCmd s i sqid cid op .sent c) (hearly : s.tmb.tick.toNat < c.sentTick + s.sto.ioTimeout) :
    ioTimeout s i.val sqid.toNat cid = s := by
  obtain ⟨hcmds, hctl, hsqid, hcid, hop, hstage, horphan⟩ := h
  have hfound : [c].find? (fun c => c.ctl == i.val && c.sqid == sqid.toNat && c.cid == cid && c.stage == .sent) = some c := by
    rw [List.find?_cons_of_pos]
    simp [hctl, hsqid, hcid, hstage]
  simp only [ioTimeout, hcmds, hfound]
  exact if_pos hearly

theorem ioTimeout_late (h : Spec.onlyCmd s i sqid cid op .sent c) (hto : c.sentTo = [(t, p)])
    (hlate : c.sentTick + s.sto.ioTimeout ≤ s.tmb.tick.toNat) : ioTimeout s i.val sqid.toNat cid =
      ((reissuePath s c (t, p)).map (fun y => if s.sto.retryLimit ≤ c.reissues then ioFail (timedOut s) c 11
        else ioSent (stoMod (ioSet (timedOut s) c { c with reissues := c.reissues + 1 })
          (fun x => { x with reissues := wrapInc x.reissues })) { c with reissues := c.reissues + 1 } [y])).getD
        (ioFail (timedOut s) c 11) := by
  obtain ⟨hcmds, hctl, hsqid, hcid, hop, hstage, horphan⟩ := h
  have hfound : [c].find? (fun c => c.ctl == i.val && c.sqid == sqid.toNat && c.cid == cid && c.stage == .sent) = some c := by
    rw [List.find?_cons_of_pos]
    simp [hctl, hsqid, hcid, hstage]
  have hnot : ¬now s < c.sentTick + s.sto.ioTimeout := Nat.not_lt.mpr hlate
  have hpath : reissuePath (stoMod s (fun x => { x with timeouts := wrapInc x.timeouts })) c (t, p) = reissuePath s c (t, p) := rfl
  simp only [ioTimeout, hcmds, hfound, hnot, if_false, horphan, Bool.false_eq_true, hto, List.mapM_cons, List.mapM_nil, hpath]
  cases reissuePath s c (t, p) with
  | none => rfl
  | some y => rfl

theorem timeout_ends (h : Spec.onlyCmd s i sqid cid op .sent c) (hcan : Spec.canAnswer s i.val k sqid.toNat q w)
    (hto : c.sentTo = [(t, p)]) (hlate : c.sentTick + s.sto.ioTimeout ≤ s.tmb.tick.toNat) (hlimit : s.sto.retryLimit ≤ c.reissues) :
    Spec.ends (.ioTimeout i sqid cid) s k q w c 0x0022 := by
  have hfails : ioTimeout s i.val sqid.toNat cid = ioEnd (timedOut s) c 11 0x0022 := by
    rw [ioTimeout_late h hto hlate]
    cases reissuePath s c (t, p) with
    | none => rfl
    | some y => exact if_pos hlimit
  exact ends_ioEnd (congrArg Host.Outcome.next hfails) (canAnswer_of rfl rfl hcan) h (by decide)

theorem timeout_reissues {p' : Nat} (h : Spec.onlyCmd s i sqid cid .write .sent c) (hto : c.sentTo = [(t, p)])
    (hlate : c.sentTick + s.sto.ioTimeout ≤ s.tmb.tick.toNat) (hlimit : c.reissues < s.sto.retryLimit)
    (hpath : reissuePath s c (t, p) = some (t, p')) (hx : targetOf s t = some x) :
    Spec.commandSent { s with sto := { s.sto with timeouts := s.sto.timeouts + 1, reissues := s.sto.reissues + 1 } }
      (ioTimeout s i.val sqid.toNat cid) { c with reissues := c.reissues + 1 } t p' 1 c.space.remoteNsid.toNat
      (c.blocks * nsLba c.space) (Spec.rangeDwords c.space c.slba c.blocks) := by
  have hset : ioSet (timedOut s) c { c with reissues := c.reissues + 1 } =
      { timedOut s with sto := { (timedOut s).sto with cmds := [{ c with reissues := c.reissues + 1 }] } } := ioSet_only h.1
  rw [ioTimeout_late h hto hlate, hpath]
  simp only [Option.map_some, Option.getD_some, if_neg (Nat.not_le.mpr hlimit), hset]
  have hsent := commandSent_ioSent (p := p') (t := t) (x := x) (d := { c with reissues := c.reissues + 1 })
    (s := { s with sto := { s.sto with
      timeouts := s.sto.timeouts + 1, reissues := s.sto.reissues + 1, cmds := [{ c with reissues := c.reissues + 1 }] } }) rfl hx
  rw [ioAsk_write (c := { c with reissues := c.reissues + 1 }) h.2.2.2.2.1] at hsent
  exact hsent

end

end Sys2Proof.Machine

end

section
/-! A storage command fetched (R422, R427, R437), and a controller enabled and reset (R440). -/

namespace Sys2Proof.Machine

section
variable {s u v : State} {i sqid n : Nat} {c k : Controller} {q : NvmeSq} {w : NvmeCq} {d : IoCmd} {op : IoOp} {b ranges : List Byte}
  {l : List Nat}

/-! Fetching. -/

theorem ioCheck_sqAdvance (hctl : ctlOf s i = some c) : ioCheck (sqAdvance s i sqid) i b ranges = ioCheck s i b ranges := by
  rw [sqAdvance, ctlMod_of hctl]
  rfl

theorem ioCmdOf_sqAdvance (hctl : ctlOf s i = some c) : ioCmdOf (sqAdvance s i sqid) i sqid b ranges op n = ioCmdOf s i sqid b ranges op n := by
  rw [sqAdvance, ctlMod_of hctl]
  rfl

theorem cid_of_entry : (BitVec.ofNat 16 (leAt b 2 2)).toNat = leAt b 2 2 := by
  rw [BitVec.toNat_ofNat]
  exact Nat.mod_eq_of_lt (leAt_lt b 2 2)

theorem ioFetch_of (hsqid : sqid ≠ 0) (hfetches : ioFetches s i sqid = true) (hlength : b.length = 64) (hctl : ctlOf s i = some c) :
    (∀ row m, ioCheck s i b ranges = .error (row, m) → ioFetch s i sqid b ranges =
      nvmeComplete (ioCount (sqAdvance s i sqid) i sqid (BitVec.ofNat 16 (leAt b 2 2)) m (leAt b 40 8) row (ioStatus row)) i sqid
        (leAt b 2 2) (ioStatus row) 0) ∧
    (∀ op m, ioCheck s i b ranges = .ok (op, m) → ioFetch s i sqid b ranges =
      if (ioCmdOf s i sqid b ranges op m).need = 0 then
        ioBegin (stoMod (sqAdvance s i sqid) (fun x => { x with cmds := x.cmds ++ [ioCmdOf s i sqid b ranges op m] }))
          (ioCmdOf s i sqid b ranges op m)
      else ioStartAll (stoMod (sqAdvance s i sqid) (fun x => { x with cmds := x.cmds ++ [ioCmdOf s i sqid b ranges op m] }))) := by
  have hgo : (decide (sqid = 0) || !ioFetches s i sqid) = false := by simp [hsqid, hfetches]
  have hentry : slice b 0 64 = b := slice_whole hlength
  refine ⟨fun row m h => ?_, fun op m h => ?_⟩
  · simp only [ioFetch, hgo, hentry, ioCheck_sqAdvance hctl, h, cid_of_entry, Bool.false_eq_true, if_false]
  · simp only [ioFetch, hgo, hentry, ioCheck_sqAdvance hctl, h, ioCmdOf_sqAdvance hctl, Bool.false_eq_true, if_false]

/-- A command turned away by its row is answered, and none joins those in process. -/
theorem ioFetch_refused {row m : Nat} (hcan : Spec.canAnswer s i c sqid q w) (hsqid : sqid ≠ 0) (hfetches : ioFetches s i sqid = true)
    (hlength : b.length = 64) (h : ioCheck s i b ranges = .error (row, m)) :
    Spec.answeredAs (ioFetch s i sqid b ranges) c w sqid (leAt b 2 2) (ioStatus row) 0 ((q.head + 1) % q.size) ∧
      (ioFetch s i sqid b ranges).sto.cmds = s.sto.cmds := by
  rw [(ioFetch_of hsqid hfetches hlength hcan.1).1 row m h]
  obtain ⟨k, hk, hfn, hengine⟩ := sqAdvance_canAnswer hcan
  obtain ⟨k', hk', hfn', hsqs'⟩ := ioCount_canAnswer (a := sqid) (y := BitVec.ofNat 16 (leAt b 2 2)) (ns := m) (slba := leAt b 40 8)
    (row := row) (st := ioStatus row) hk
  obtain ⟨hanswered, hcmds⟩ := nvmeComplete_answers (cid := leAt b 2 2) (st := ioStatus row) (dw := 0) hk'
  refine ⟨?_, hcmds.trans (ioCount_cmds.trans ctlMod_cmds)⟩
  have hdone := answeredAs_of hfn' hsqs' hanswered
  rw [Spec.answeredAs, hengine, hfn] at hdone
  exact hdone

/-- The stage with which a command that holds its granules begins. -/
def firstStage : IoOp → IoStage
  | .write => .dataIn
  | .read => .waitPath
  | _ => .carryOut

theorem ioReads_sto : (ioReads s d).sto = s.sto := by
  refine foldl_keeps (fun s : State => s.sto) ?_ d.segs s
  intro _ _
  rfl

theorem ioBegin_only (hcmds : s.sto.cmds = [d]) (hread : d.op = .read → pathsFor s d.space = []) :
    (ioBegin s d).sto.cmds = [{ d with stage := firstStage d.op }] := by
  have hset : ∀ c, (ioSet s d c).sto.cmds = [c] := fun c => by rw [ioSet_only hcmds]
  unfold ioBegin
  split
  next hop =>
    have hstage : firstStage d.op = .dataIn := by rw [hop]; rfl
    rw [hstage]
    exact (congrArg Sto.cmds ioReads_sto).trans (hset _)
  next hop =>
    have hstage : firstStage d.op = .waitPath := by rw [hop]; rfl
    have hfree : Spec.pathsFree s d = [] := by rw [Spec.pathsFree, hread hop]; rfl
    rw [hstage, ioSend_waits (.inl hfree)]
    exact hset _
  next hwrite hread =>
    have hstage : firstStage d.op = .carryOut := by
      cases hop : d.op with
      | write => exact absurd hop hwrite
      | read => exact absurd hop hread
      | flush => rfl
      | writeZeroes => rfl
      | dsm => rfl
    rw [hstage]
    exact hset _

theorem granuleTake_none : granuleTake s 0 = some [] := by
  have hscan : granuleScan (granulesUsed s) (granulesTotal s) s.sto.bufBase 0 = [] := by
    cases granulesTotal s <;> rfl
  simp [granuleTake, hscan]

/-- The one command that waits for granules takes them and begins. -/
theorem ioStartAll_only (hcmds : s.sto.cmds = [d]) (hstage : d.stage = .waitGranules) (htake : granuleTake s d.need = some l)
    (hread : d.op = .read → pathsFor s d.space = []) :
    (ioStartAll s).sto.cmds = [{ d with bufs := l, stage := firstStage d.op }] := by
  have hfound : [d].find? (fun c => c.stage == .waitGranules) = some d := by
    rw [List.find?_cons_of_pos]
    simp [hstage]
  have hstart : ioStartAll s = ioBegin (ioSet s d { d with bufs := l, stage := .carryOut }) { d with bufs := l, stage := .carryOut } := by
    rw [ioStartAll, hcmds]
    simp only [List.length_singleton, ioStart, hcmds, hfound, htake]
  rw [hstart, ioSet_only hcmds]
  exact ioBegin_only rfl hread

/-- A good command of an idle controller takes its granules and begins. -/
theorem ioFetch_begins {m : Nat} (hcan : Spec.canAnswer s i c sqid q w) (hsqid : sqid ≠ 0) (hfetches : ioFetches s i sqid = true)
    (hlength : b.length = 64) (h : ioCheck s i b ranges = .ok (op, m)) (hcmds : s.sto.cmds = [])
    (htake : granuleTake s (ioCmdOf s i sqid b ranges op m).need = some l) (hread : op = .read → pathsFor s (nsOf s m) = []) :
    (ioFetch s i sqid b ranges).sto.cmds = [{ ioCmdOf s i sqid b ranges op m with bufs := l, stage := firstStage op }] := by
  obtain ⟨d, hd⟩ : ∃ d, ioCmdOf s i sqid b ranges op m = d := ⟨_, rfl⟩
  have hfields : d.op = op ∧ d.space = nsOf s m ∧ d.stage = .waitGranules ∧ d.bufs = [] := by
    rw [← hd]
    exact ⟨rfl, rfl, rfl, rfl⟩
  obtain ⟨hop, hspace, hstage, hbufs⟩ := hfields
  have hfirst : firstStage d.op = firstStage op := congrArg firstStage hop
  obtain ⟨ctls, hs⟩ : ∃ ctls, stoMod (sqAdvance s i sqid) (fun x => { x with cmds := x.cmds ++ [d] }) =
      { s with sto := { s.sto with ctls := ctls, cmds := [d] } } := by
    rw [sqAdvance, ctlMod_of hcan.1, stoMod]
    simp only [hcmds, List.nil_append]
    exact ⟨_, rfl⟩
  have htake' : granuleTake { s with sto := { s.sto with ctls := ctls, cmds := [d] } } d.need = some l := by
    have hused : granulesUsed { s with sto := { s.sto with ctls := ctls, cmds := [d] } } = granulesUsed s := by
      simp [granulesUsed, hcmds, hbufs]
    rw [hd] at htake
    rw [← htake, granuleTake, hused]
    rfl
  have hread' : d.op = .read → pathsFor { s with sto := { s.sto with ctls := ctls, cmds := [d] } } d.space = [] := fun h => by
    rw [hspace]
    exact hread (hop.symm.trans h)
  rw [(ioFetch_of hsqid hfetches hlength hcan.1).2 op m h, hd, hs]
  split
  next hneed =>
    have hnone : l = [] := by
      rw [hneed, granuleTake_none] at htake'
      exact (Option.some.inj htake').symm
    rw [ioBegin_only rfl hread', hfirst, hnone]
    exact congrArg (fun b => [{ d with bufs := b, stage := firstStage op }]) hbufs
  next =>
    rw [ioStartAll_only rfl hstage htake' hread', hfirst]

/-! The ids of submission queues. -/

theorem mem_of_tget {α : Type} {l : Tbl α} {i : Nat} {x : α} (h : tget l i = some x) : (i, x) ∈ l := by
  induction l with
  | nil => exact absurd h.symm (Option.some_ne_none x)
  | cons e l ih =>
    obtain ⟨k, y⟩ := e
    rw [tget] at h
    split at h
    next hk =>
      rw [hk, Option.some.inj h]
      exact List.mem_cons_self
    next => exact List.mem_cons_of_mem _ (ih h)

/-- A value that changes nothing of what is asked, where an unlisted one does not hold it, leaves its answer over the table. -/
theorem any_tset {α : Type} {F : α → Bool} {l : Tbl α} {i : Nat} {x z : α} (hx : F x = F (tgetD l i z)) (hz : F z = false) :
    (tset l i x).any (fun e => F e.2) = l.any (fun e => F e.2) := by
  induction l with
  | nil =>
    rw [tset, List.any_cons, hx, tgetD, tget, Option.getD_none, hz]
    rfl
  | cons e l ih =>
    obtain ⟨k, y⟩ := e
    simp only [tset]
    split
    · rw [List.any_cons]
      cases hget : tget ((k, y) :: l) i with
      | none =>
        rw [hx, tgetD, hget, Option.getD_none, hz, Bool.false_or]
      | some x' =>
        rw [hx, tgetD, hget, Option.getD_some]
        cases hF : F x' with
        | false => rfl
        | true =>
          rw [Bool.true_or]
          exact (List.any_eq_true.mpr ⟨_, mem_of_tget hget, hF⟩).symm
    · split
      next hk =>
        rw [List.any_cons, List.any_cons, hx, tgetD, tget, if_pos hk]
        rfl
      next hk =>
        rw [tgetD, tget, if_neg hk] at hx
        rw [List.any_cons, List.any_cons, ih hx]

theorem ctlOf_listed (h : ctlOf s i = some c) : ∃ fn, c = tgetD s.sto.ctls i (Controller.reset fn) := by
  rw [ctlOf] at h
  split at h
  · exact absurd h.symm (Option.some_ne_none c)
  · split at h
    · exact ⟨_, (Option.some.inj h).symm⟩
    · exact absurd h.symm (Option.some_ne_none c)

/-- A change of a controller that leaves its submission queues leaves the id that the next of them takes. -/
theorem nvmeQueueId_ctlMod {fn : Nat} {f : Controller → Controller} (h : ctlOf s i = some c) (hsqs : (f c).sqs = c.sqs) :
    nvmeQueueId (ctlMod s i f) fn = nvmeQueueId s fn := by
  obtain ⟨fn', hc⟩ := ctlOf_listed h
  have hused : ∀ id, queueIdUsed (ctlMod s i f) id = queueIdUsed s id := fun id => by
    have hany : ∀ l : Tbl Controller, (l.flatMap (fun e => e.2.sqs.map (fun q => (e.1, q.1, q.2)))).any (fun x => x.2.2.id == id) =
        l.any (fun e => e.2.sqs.any (fun q => q.2.id == id)) := fun l => by
      simp only [List.any_flatMap, List.any_map]
      rfl
    have hset := any_tset (l := s.sto.ctls) (i := i) (x := f c) (z := Controller.reset fn')
      (F := fun c => c.sqs.any (fun q => q.2.id == id)) (by rw [hsqs, ← hc]) rfl
    rw [ctlMod_of h, queueIdUsed, queueIdUsed, nvmeQueues, nvmeQueues, hany, hany, hset]
  have hfuncs : (ctlMod s i f).hif = s.hif ∧ (ctlMod s i f).que = s.que := by
    rw [ctlMod_of h]
    exact ⟨rfl, rfl⟩
  simp only [nvmeQueueId, funcOf, hused, hfuncs.1, hfuncs.2]

/-! CC (R440). -/

theorem ctlShut_none : ctlShut s i 0 = s := rfl

theorem nvmeCc_enables {x : W32} (h : ctlOf s i = some c) (hwas : c.cc.getLsbD 0 = false) (hen : x.getLsbD 0 = true)
    (hfields : x.toNat / 16 % 1024 = 0) (hshn : x.toNat / 16384 % 4 = 0) :
    nvmeCc s i x = ctlStart (ctlMod s i (fun c => { c with cc := x })) i := by
  have hcss : fieldN x.toNat 4 3 = 0 := by rw [fieldN]; omega
  have hmps : fieldN x.toNat 7 4 = 0 := by rw [fieldN]; omega
  have hams : fieldN x.toNat 11 3 = 0 := by rw [fieldN]; omega
  have hshn' : fieldN x.toNat 14 2 = 0 := by rw [fieldN]; omega
  simp only [nvmeCc, h, hwas, hen, hcss, hmps, hams, hshn', Bool.false_and, Bool.not_false, Bool.and_true, Bool.false_eq_true, if_false,
    beq_self_eq_true, if_true, ctlShut_none]

theorem nvmeCc_starts {x : W32} {fn id : Nat} (h : ctlOf s i = some c) (hwas : c.cc.getLsbD 0 = false) (hen : x.getLsbD 0 = true)
    (hfields : x.toNat / 16 % 1024 = 0) (hshn : x.toNat / 16384 % 4 = 0) (hfn : ctlFn s i = some fn)
    (hid : nvmeQueueId s fn = some id) : ctlOf (nvmeCc s i x) i = some (ctlEnable id { c with cc := x }) := by
  have hbind : (ctlFn (ctlMod s i (fun c => { c with cc := x })) i).bind (nvmeQueueId (ctlMod s i (fun c => { c with cc := x }))) =
      some id := by
    have hsame : ctlFn (ctlMod s i (fun c => { c with cc := x })) i = some fn := by
      rw [ctlMod_of h]
      exact hfn
    rw [hsame, Option.bind_some, nvmeQueueId_ctlMod (f := fun c => { c with cc := x }) h rfl, hid]
  rw [nvmeCc_enables h hwas hen hfields hshn, ctlStart, hbind]
  exact ctlOf_ctlMod (ctlOf_ctlMod h)

theorem nvmeCc_starves {x : W32} {fn : Nat} (h : ctlOf s i = some c) (hwas : c.cc.getLsbD 0 = false) (hen : x.getLsbD 0 = true)
    (hfields : x.toNat / 16 % 1024 = 0) (hshn : x.toNat / 16384 % 4 = 0) (hfn : ctlFn s i = some fn)
    (hid : nvmeQueueId s fn = none) : ctlOf (nvmeCc s i x) i = some { c with cc := x } := by
  have hbind : (ctlFn (ctlMod s i (fun c => { c with cc := x })) i).bind (nvmeQueueId (ctlMod s i (fun c => { c with cc := x }))) =
      none := by
    have hsame : ctlFn (ctlMod s i (fun c => { c with cc := x })) i = some fn := by
      rw [ctlMod_of h]
      exact hfn
    rw [hsame, Option.bind_some, nvmeQueueId_ctlMod (f := fun c => { c with cc := x }) h rfl, hid]
  rw [nvmeCc_enables h hwas hen hfields hshn, ctlStart, hbind]
  exact ctlOf_ctlMod h

theorem ctlStop_none (hcmds : s.sto.cmds = []) : ctlStop s i = s := by
  have hsame : stoMod s (fun x => { x with cmds := (x.cmds.filter (fun c => c.ctl != i || c.stage == .sent)).map (fun c =>
      if c.ctl = i then { c with orphan := true } else c) }) = s := by
    rw [stoMod, hcmds]
    exact congrArg (fun l => { s with sto := { s.sto with cmds := l } }) hcmds.symm
  have hnone : s.sto.cmds.filter (fun c => c.ctl == i && c.stage != .sent) = [] := by rw [hcmds]; rfl
  rw [ctlStop, hnone, List.foldl_nil, hsame, ioStartAll_none hcmds]

theorem nvmeCc_resets {x : W32} (h : ctlOf s i = some c) (hwas : c.cc.getLsbD 0 = true) (hen : x.getLsbD 0 = false)
    (hcmds : s.sto.cmds = []) : ctlOf (nvmeCc s i x) i = some { Controller.reset c.fn with
      cc := x, aqa := c.aqa, asq := c.asq, acq := c.acq } := by
  have hreset : nvmeCc s i x = ctlReset s i x := by
    simp only [nvmeCc, h, hwas, hen, Bool.not_false, Bool.and_self, if_true]
  rw [hreset, ctlReset, ctlStop_none hcmds]
  exact ctlOf_ctlMod h

theorem shutdownTimeout_passed {t : Nat} (h : ctlOf s i = some c) (ht : c.shutBy = some t) (hlate : t ≤ s.tmb.tick.toNat) :
    ctlOf (shutdownTimeout s i) i = some { c with shst := 2, shutBy := none } := by
  have hmod : shutdownTimeout s i = ctlMod s i (fun c => { c with shst := 2#2, shutBy := none }) := by
    simp only [shutdownTimeout, h, Option.bind_some, ht]
    exact if_pos hlate
  rw [hmod]
  exact ctlOf_ctlMod h

theorem shutdownTimeout_early {t : Nat} (h : ctlOf s i = some c) (ht : c.shutBy = some t) (hearly : s.tmb.tick.toNat < t) :
    shutdownTimeout s i = s := by
  simp only [shutdownTimeout, h, Option.bind_some, ht]
  exact if_neg (Nat.not_le.mpr hearly)

end

end Sys2Proof.Machine

end

section
/-! Storage commands in process: their obligation. -/

namespace Sys2Proof.Machine

section
variable {s : State} {i : Fin 1024} {sqid cid : W16} {c : IoCmd} {k : Controller} {q : NvmeSq} {w : NvmeCq} {x : Target}

theorem storageCommands_fetch {b ranges : List Byte} {k : Controller} (hcan : Spec.canAnswer s i.val k sqid.toNat q w)
    (hsqid : sqid ≠ 0) (hfetches : ioFetches s i.val sqid.toNat = true) (hlength : b.length = 64) :
    (∀ row n, ioCheck s i.val b ranges = .error (row, n) → Spec.runs (.storageCommandFetch i sqid b ranges) s (fun u =>
      Spec.answeredAs u k w sqid.toNat (leAt b 2 2) (ioStatus row) 0 ((q.head + 1) % q.size) ∧ u.sto.cmds = s.sto.cmds)) ∧
    (∀ op n l, ioCheck s i.val b ranges = .ok (op, n) → s.sto.cmds = [] →
      granuleTake s (ioCmdOf s i.val sqid.toNat b ranges op n).need = some l → (op = .read → pathsFor s (nsOf s n) = []) →
      Spec.runs (.storageCommandFetch i sqid b ranges) s (fun u =>
        u.sto.cmds = [{ ioCmdOf s i.val sqid.toNat b ranges op n with bufs := l, stage := firstStage op }])) := by
  have hnot : sqid.toNat ≠ 0 := fun h => hsqid (BitVec.eq_of_toNat_eq h)
  exact ⟨fun row n h => ⟨_, rfl, ioFetch_refused hcan hnot hfetches hlength h⟩,
    fun op n l h hcmds htake hread => ⟨_, rfl, ioFetch_begins hcan hnot hfetches hlength h hcmds htake hread⟩⟩

theorem storageCommands_answers (hcan : Spec.canAnswer s i.val k sqid.toNat q w) (a : TargetAnswer) (status : W16)
    (data : List Byte) (hto : (a.target.val, a.path.val) ∈ c.sentTo) (ha : a.kind = .completion status) :
    (Spec.onlyCmd s i sqid cid .write .sent c → Spec.ends (.targetResponseRx i sqid cid a data) s k q w c
      (if guestStatus status.toNat % 2 ^ 11 = 0 then 0 else guestStatus status.toNat)) ∧
    (Spec.onlyCmd s i sqid cid .read .sent c → a.ecn = false → guestStatus status.toNat % 2 ^ 11 = 0 → bufsAnswer s c.bufs = true →
      (c.space.xts = false → exec (.targetResponseRx i sqid cid a data) s = .next { s with
        sto := { s.sto with cmds := [{ c with stage := .dataOut, sentTo := [] }] } }) ∧
      (c.space.xts = true → xtsServes s c.space = true → Spec.runs (.targetResponseRx i sqid cid a data) s (fun u =>
        Spec.slabWorks s u { c with sentTo := [] } c.blocks))) :=
  ⟨fun h => write_answered h hcan hto ha, fun h hecn hgood hbufs =>
    ⟨fun hclear => congrArg Host.Outcome.next (read_answered_clear h hto ha hecn hgood hbufs hclear),
      fun hxts hserves => ⟨_, rfl, read_answered_slab h hto ha hecn hgood hbufs hxts hserves⟩⟩⟩

theorem storageCommands_data (hx : targetOf s c.space.target = some x) (a : TargetAnswer) (data : List Byte)
    (hto : (a.target.val, a.path.val) ∈ c.sentTo) (hecn : a.ecn = false) :
    (∀ o, a.kind = .data o → Spec.onlyCmd s i sqid cid .read .sent c →
      (shedOpen s = true → exec (.targetResponseRx i sqid cid a data) s = .next
        (bufWrite (shedUse s data.length) c.bufs
          (slice (patch (bufRead s c.bufs (c.blocks * nsLba c.space)) o data) 0 (c.blocks * nsLba c.space)))) ∧
      (shedOpen s = false → exec (.targetResponseRx i sqid cid a data) s = .next s)) ∧
    (∀ tag o m, a.kind = .pull tag o m → Spec.onlyCmd s i sqid cid .write .sent c → a.target.val = c.space.target → shedOpen s = true →
      let bytes := ((bufRead s c.bufs (c.blocks * nsLba c.space)).drop o).take m
      bytes ≠ [] → exec (.targetResponseRx i sqid cid a data) s = .next
        (pathPost (shedUse s bytes.length) a.target.val a.path.val
          [dataPdu x.roce (ioQueueOf x c) c.fabricCid tag o bytes])) := by
  refine ⟨fun o ha h => ⟨fun hopen => congrArg Host.Outcome.next ?_, fun hshut => congrArg Host.Outcome.next ?_⟩,
    fun tag o m ha h htarget hopen hsome => congrArg Host.Outcome.next ?_⟩
  · have hop : ¬c.op ≠ .read := fun hne => hne h.2.2.2.2.1
    exact (ioResponse_data h hto hecn ha).trans ((if_pos hopen).trans (if_neg hop))
  · exact (ioResponse_data h hto hecn ha).trans (if_neg (Bool.eq_false_iff.mp hshut))
  · have hx' : targetOf s a.target.val = some x := htarget ▸ hx
    exact (ioResponse_pull h hto hecn ha).trans ((if_pos hopen).trans (ioPulled_write h.2.2.2.2.1 hx' hsome))

theorem storageCommands_timeout {t p : Nat} (hcan : Spec.canAnswer s i.val k sqid.toNat q w)
    (hx : targetOf s c.space.target = some x) (h : Spec.onlyCmd s i sqid cid .write .sent c) (ht : t = c.space.target)
    (hto : c.sentTo = [(t, p)]) :
    (s.tmb.tick.toNat < c.sentTick + s.sto.ioTimeout → exec (.ioTimeout i sqid cid) s = .next s) ∧
    (c.sentTick + s.sto.ioTimeout ≤ s.tmb.tick.toNat →
      (s.sto.retryLimit ≤ c.reissues → Spec.ends (.ioTimeout i sqid cid) s k q w c 0x0022) ∧
      (c.reissues < s.sto.retryLimit → ∀ p', reissuePath s c (t, p) = some (t, p') → Spec.runs (.ioTimeout i sqid cid) s (fun u =>
        Spec.commandSent { s with sto := { s.sto with timeouts := s.sto.timeouts + 1, reissues := s.sto.reissues + 1 } } u
          { c with reissues := c.reissues + 1 } t p' 1 c.space.remoteNsid.toNat (c.blocks * nsLba c.space)
          (Spec.rangeDwords c.space c.slba c.blocks)))) := by
  have hx' : targetOf s t = some x := ht ▸ hx
  exact ⟨fun hearly => congrArg Host.Outcome.next (ioTimeout_early h hearly),
    fun hlate => ⟨fun hlimit => timeout_ends h hcan hto hlate hlimit,
      fun hlimit p' hpath => ⟨_, rfl, timeout_reissues h hto hlate hlimit hpath hx'⟩⟩⟩

end

end Sys2Proof.Machine

open Sys2Proof Sys2Proof.Machine in
/-- Settles O43: with one command in process each step is that of its stage, its end writes the one completion that its controller
posts, and what is written on a path or in granules leaves what the next step reads. -/
theorem storageCommands : Obligations.StorageCommands := by
  unfold Obligations.StorageCommands
  refine ⟨fun s i sqid c q k b ranges hcan hsqid hfetches hlength => ?_,
    fun s i sqid cid c p ps x y hspace hfree hidle hy => ?_, fun s i sqid cid c hwaits => ?_,
    fun s i sqid cid c k q w x hcan _ hfn hx => ?_, fun s i c hctl => ?_⟩
  · obtain ⟨hrefused, hbegins⟩ := storageCommands_fetch (ranges := ranges) hcan hsqid hfetches hlength
    refine ⟨hrefused, fun op n l h hcmds htake hread => ?_⟩
    have hruns := hbegins op n l h hcmds htake hread
    cases op <;> exact hruns
  · subst hspace
    exact ⟨fun data h hruns hbufs hopen =>
        ⟨fun hclear => ⟨_, rfl, write_sent h hfree hidle hy hruns hbufs hopen hclear⟩,
          fun hxts hserves => ⟨_, rfl, write_slab h hruns hbufs hopen hxts hserves⟩⟩,
      fun data h hbufs hheld => congrArg Host.Outcome.next (ioWrite_held h hbufs hheld),
      fun hclear h => ⟨_, rfl, zeroes_sent h hfree hidle hy hclear⟩,
      fun hxts hserves hbufs h => ⟨fun hopen => ⟨_, rfl, zeroes_slab h hxts hserves hbufs hopen rfl⟩,
        fun hshut => congrArg Host.Outcome.next (ioZeroes_shut h hxts hbufs hshut)⟩,
      fun h => ⟨_, rfl, dsm_sent h hfree hidle hy⟩⟩
  · exact ⟨fun hclear h => congrArg Host.Outcome.next
        ((ioZeroes_clear h hclear).trans ((ioSend_waits hwaits).trans (ioSet_only h.1))),
      fun h => congrArg Host.Outcome.next ((ioDeallocate_send h).trans ((ioSend_waits hwaits).trans (ioSet_only h.1)))⟩
  · have hruns : fnRuns s ((ctlFn s i.val).getD 0) = true := by
      rw [hfn]
      exact hcan.2.2.2.2.2
    exact ⟨fun data h => ends_ioEnd (congrArg Host.Outcome.next (ioWrite_failed h hruns)) hcan h (by decide),
      fun h => ⟨fun hts => ends_ioEnd (congrArg Host.Outcome.next (ioFlush_none h hts)) hcan h (by decide),
        fun t p hts hpath hidle => ⟨_, rfl, flush_sent h hts hpath hidle⟩⟩,
      fun h hbufs hopen => ⟨_, rfl, read_ends h hcan hfn hbufs hopen⟩,
      fun a status data hto ha => storageCommands_answers hcan a status data hto ha,
      fun a data hto hecn => storageCommands_data hx a data hto hecn,
      fun a data hto hcmds hecn => congrArg Host.Outcome.next (ioResponse_stray hcmds hto hecn),
      fun t p h ht hto => storageCommands_timeout hcan hx h ht hto⟩
  · exact ⟨fun v hwas hen hfields hshn =>
        ⟨fun fn id hfn hid => ⟨_, rfl, nvmeCc_starts hctl hwas hen hfields hshn hfn hid⟩,
          fun fn hfn hid => ⟨_, rfl, nvmeCc_starves hctl hwas hen hfields hshn hfn hid⟩⟩,
      fun v hwas hen hcmds => ⟨_, rfl, nvmeCc_resets hctl hwas hen hcmds⟩,
      fun t ht => ⟨fun hlate => ⟨_, rfl, shutdownTimeout_passed hctl ht hlate⟩,
        fun hearly => congrArg Host.Outcome.next (shutdownTimeout_early hctl ht hearly)⟩⟩

end
